-- ==== Sys2Proof/Word.lean ====
section
/-! DEFINITION. The plain words of the machine: bytes, 32-bit registers, and identities of the units that a command names
(R10, R11, R21, R25, R34). Every identity is finite, so a command can name no unit that the machine does not have. -/

namespace Sys2Proof

abbrev Byte := BitVec 8
/-- A register is 32 bits wide (chapter "Scope and conventions", Registers). -/
abbrev Word := BitVec 32

/-- A package position: physical rack, row and column (R10, R20). -/
structure PkgId where
  rack : Fin 32
  row : Fin 8
  col : Fin 12
  deriving DecidableEq, Repr

/-- A tray: slots 0–23 are compute trays, 24 + p is the Meridian tray of plane p (R20, R21). -/
structure TrayId where
  rack : Fin 32
  slot : Fin 28
  deriving DecidableEq, Repr

/-- A package core number 48 × tile + core (R11). -/
abbrev Core := Fin 192
/-- A C-tile. -/
abbrev Tile := Fin 4
/-- A package port (R23). -/
abbrev Port := Fin 24

/-- Almanac A (`false`) or Almanac B (`true`) of a rack (R20). -/
structure AlmId where
  rack : Fin 32
  sideB : Bool
  deriving DecidableEq, Repr

/-- A router: the two F-tiles of a package, taken as one, or a Meridian tray (R25). -/
inductive RouterId where
  | pkg (p : PkgId)
  | meridian (rack : Fin 32) (plane : Fin 4)
  deriving DecidableEq, Repr

/-- One end of a fabric link: a router and its port number (R23, R25). A package has ports 0–23. -/
structure LinkId where
  router : RouterId
  port : Fin 288
  deriving DecidableEq, Repr

/-- The three requesters of the management space, each with its own latch (R16, R359). -/
inductive Requester where
  | host
  | cw
  | jtag
  deriving DecidableEq, Repr

/-- A unit that can go dark inside a package, or the package as a whole (R56, Table 2.5). -/
inductive DarkUnit where
  | core (c : Core)
  | ctile (t : Tile)
  | stile
  | ftile (f : Fin 2)
  | package
  deriving DecidableEq, Repr

/-- Why a unit goes dark (R56). -/
inductive DarkCause where
  | reset
  | holdOff
  | fence
  deriving DecidableEq, Repr

/-- A package key, unique over the fleet; the package address of R34 when the rack number equals the rack. -/
def PkgId.key (p : PkgId) : Nat := p.rack.val * 128 + p.row.val * 16 + p.col.val
/-- The rack index n = 12 × row + column (R24, R98). -/
def PkgId.index (p : PkgId) : Nat := 12 * p.row.val + p.col.val
def TrayId.key (t : TrayId) : Nat := t.rack.val * 28 + t.slot.val
def AlmId.key (a : AlmId) : Nat := a.rack.val * 2 + a.sideB.toNat
def RouterId.key : RouterId → Nat
  | .pkg p => p.key
  | .meridian r p => 4096 + r.val * 4 + p.val
def LinkId.key (l : LinkId) : Nat := l.router.key * 288 + l.port.val
def Requester.key : Requester → Nat
  | .host => 0
  | .cw => 1
  | .jtag => 2
/-- The compute tray that holds a package, and its board position (R21). -/
def PkgId.slotNumber (p : PkgId) : Nat := 3 * p.row.val + p.col.val / 4
def PkgId.position (p : PkgId) : Nat := p.col.val % 4
/-- The link end of a package's port. -/
def PkgId.link (p : PkgId) (q : Port) : LinkId := ⟨.pkg p, ⟨q.val, by omega⟩⟩

end Sys2Proof
end

