-- ==== Sys2Proof/Syntax.lean ====
section
/-! DEFINITION. The commands of the block: one constructor of `Instr` per row of spec/opcode_table.json, with the operands
the row's rule names, and the packets, blocks and messages that commands carry (Tables 7.2, 7.3, 12.2, 13.5, 14.3). -/

namespace Sys2Proof

/-- A fabric packet: the header of Table 7.3 and its payload; LEN is the payload's length. `reserved` says that a reserved
bit of the header is set. `want` is the number of bytes a READ asks for: the manual names no field that carries it (log 14). -/
structure Packet where
  opcode : Byte
  epoch : Bool
  pkg : Bool
  poison : Bool
  newflow : Bool
  fallback : Bool
  misrouted : Bool
  castKind : BitVec 2
  vc : BitVec 3
  cls : BitVec 3
  status : Byte
  dst : BitVec 24
  tree : Byte
  src : BitVec 24
  incarnation : Byte
  seq : BitVec 32
  birth : BitVec 16
  sgen : Byte
  fgen : Byte
  tag : BitVec 16
  addr : BitVec 64
  reserved : Bool
  want : Nat
  payload : List Byte
  deriving DecidableEq, Repr

/-- A link block (R141, Table 7.2): its control word with its CRC, and the packets whose last flit it carries. -/
structure Block where
  bseq : Byte
  ackseq : Byte
  nak : Bool
  goingDark : Bool
  moor : Bool
  backInService : Bool
  castTree : Byte
  credits : List Byte
  dataFlits : Nat
  crc : Word
  packets : List Packet
  deriving DecidableEq, Repr

/-- A request that a core or its DMA issues (R156, Table 7.4). -/
structure Request where
  opcode : Byte
  dst : BitVec 24
  addr : BitVec 64
  tag : BitVec 16
  want : Nat
  payload : List Byte
  deriving DecidableEq, Repr

/-- A core access to its own address space (R50). -/
structure Access where
  addr : BitVec 44
  write : Bool
  len : Nat
  data : List Byte
  deriving DecidableEq, Repr

/-- A tally contribution (R177, Table 8.2). -/
structure Contribution where
  tree : Fin 64
  seq : BitVec 32
  dst : BitVec 24
  addr : BitVec 64
  payload : List Byte
  deriving DecidableEq, Repr

/-- A turn message: EPOCH, region ORDER, sender's index and T0 (R128); `tr` is TR on the last TURN_COMMIT (R126). -/
structure TurnMsg where
  epoch : Word
  order : Byte
  sender : Fin 96
  t0 : Nat
  cause : BitVec 4
  tr : Option Nat
  deriving DecidableEq, Repr

/-- The settings of Table 12.1. -/
inductive CduSetting where
  | flowCap
  | dtMax
  | supplySet
  deriving DecidableEq, Repr

/-- Idempotent message kinds of Table 14.3. -/
inductive IdemKind where
  | cap
  | telemetry
  | coolant
  | shelf
  deriving DecidableEq, Repr

/-- Non-idempotent actions of Table 14.3 that a CW executes (R308). -/
inductive FencedKind where
  | turnGo (epoch : Word) (t0 : Nat)
  | turnAbort
  | activate
  | quarantineRelease (unit : Byte)
  | attestationRelease
  | swapOut
  | powerOn
  | bootSource (b : BitVec 2)
  | brakeRelease
  | brakeTest (ms : Nat)
  | settingTaken
  | openDebug
  | relinquish
  deriving DecidableEq, Repr

/-- What an image is for: a package's PKC, a CW, a tray chip (kind 2–5), an Almanac, or a key record (Table 16.1, R357). -/
inductive UpdateTarget where
  | pkc (p : PkgId)
  | cw (t : TrayId)
  | chip (t : TrayId) (kind : Fin 4) (target : Byte)
  | almanac (a : AlmId)
  deriving DecidableEq, Repr

/-- A PSU or a CDU pump controller (R356). -/
inductive RackUnit where
  | psu (n : Fin 36)
  | pump (n : Fin 2)
  deriving DecidableEq, Repr

/-- A quantity measured at a rack, in the unit that its command's meaning states. -/
structure Reading where
  rack : Fin 32
  value : Int
  deriving DecidableEq, Repr

/-- The volts of a feed at a PSU. -/
structure FeedVolts where
  feedB : Bool
  volts : Nat
  deriving DecidableEq, Repr

/-- The least and the greatest volts of a feed's phases over a time. -/
structure FeedSpan where
  feedB : Bool
  lowest : Nat
  highest : Nat
  deriving DecidableEq, Repr

/-- The least and the greatest volts of a PSU's phase over a time. -/
structure PsuSpan where
  psu : Fin 36
  lowest : Nat
  highest : Nat
  deriving DecidableEq, Repr

/-- A turn message that reached a package, and whether it came as a flood or to the lead alone. -/
structure Arrived where
  msg : TurnMsg
  flood : Bool
  deriving DecidableEq, Repr

/-- A Bearing engine whose scan ends, and where errors were corrected on the way, as byte offsets of local HBM. -/
structure ScanOf where
  tile : Tile
  corrected : List Nat
  deriving DecidableEq, Repr

/-- An image or images, and whether Chartwright has checked each as a pair with the active Chart (R124). -/
structure Checked (α : Type) where
  image : α
  checked : Bool
  deriving DecidableEq, Repr

/-- The commands, one constructor per row of spec/opcode_table.json. Those that the model itself builds stand among the first 245, which
is as many as compiled Lean code can build. -/
inductive Instr where
  -- the management space (R13–R18, R392)
  | registerWrite (p : PkgId) (who : Requester) (off : BitVec 25) (size : Nat) (v : Word)
  | readClear (p : PkgId) (who : Requester) (off : BitVec 25) (size : Nat)
  | lowWordRead (p : PkgId) (who : Requester) (off : BitVec 25) (size : Nat)
  -- the fleet and package start
  | flagshipTakeover (rack : Fin 32)
  | fleetDiscovery (rack : Fin 32)
  | aonPkgAddrWrite (p : PkgId) (who : Requester)
  | pkcBootEnd (p : PkgId)
  -- segments and lending
  | place (p : PkgId) (who : Requester) (c : Core) (n : Fin 64) (w : Word)
  | placementEnd (p : PkgId) (c : Core) (n : Fin 64)
  | segmentRelease (p : PkgId) (who : Requester) (c : Core) (n : Fin 64) (w : Word)
  | lendAsk (p : PkgId) (src : BitVec 16) (sgen : Byte) (pages : Word) (core tag : BitVec 16)
  | lendGrant (p : PkgId) (tag : BitVec 16) (granted : Bool) (base : BitVec 64)
  | lendFree (p : PkgId) (src : BitVec 16) (base : BitVec 64) (pages : Word)
  | lentStorageAccess (p : PkgId) (pk : Packet)
  | coreAccess (p : PkgId) (c : Core) (a : Access)
  | unitDark (p : PkgId) (u : DarkUnit) (cause : DarkCause)
  -- clasps
  | claspAcquire (p : PkgId) (src : PkgId) (c : Core) (store : Core) (line : Fin 24576) (wait : Fin 1048577)
  | claspRelease (p : PkgId) (c : Core) (store : Core) (line : Fin 24576)
  | claspWaitExpiry (p : PkgId) (c : Core)
  | claspHoldExpiry (p : PkgId) (store : Core) (line : Fin 24576)
  -- dark neighbours, incarnations, responses
  | goingDarkNotice (l : LinkId)
  | backInServiceNotice (l : LinkId)
  | resetHoldExpiry (p : PkgId) (u : DarkUnit)
  | responseArrival (p : PkgId) (pk : Packet)
  | hostPortReset (p : PkgId) (gts width : Nat)
  -- clocks and time
  | clockSourceLost (p : PkgId) (srcB : Bool)
  | force (p : PkgId) (who : Requester) (w : Word)
  | sourceReturn (p : PkgId) (srcB : Bool)
  | timeStrobe (p : PkgId)
  | timeExchange (p : PkgId) (diffs : List Int)
  -- sleep and waking
  | idleEntry (p : PkgId) (c : Core)
  | napEntry (p : PkgId) (c : Core)
  | dozeEntry (p : PkgId) (c : Core)
  | enterNap (p : PkgId) (who : Requester) (c : Core) (hold : Bool)
  | enterDoze (p : PkgId) (who : Requester) (c : Core) (hold : Bool)
  | wakeToRun (p : PkgId) (who : Requester) (c : Core) (hold : Bool)
  | furlEntry (p : PkgId) (t : Tile)
  | moorEntry (p : PkgId)
  | moorNotice (l : LinkId)
  | wakePatternSend (l : LinkId)
  | wakePattern (p : PkgId) (q : Port) (c : Option Core)
  | linkResume (l : LinkId)
  | wakeComplete (p : PkgId) (c : Core)
  | pcieL1Exit (p : PkgId)
  | wake (p : PkgId) (cores : List Core)
  | deferredAccessComplete (p : PkgId)
  | arm (p : PkgId) (who : Requester) (w : Word)
  | prewakeCancel (p : PkgId) (who : Requester) (w : Word)
  | prewakeStart (p : PkgId) (slot : Fin 8)
  | prewakeFree (p : PkgId) (slot : Fin 8)
  -- check-value units
  | start (p : PkgId) (who : Requester) (u : Fin 10) (w : Word)
  | csuAbort (p : PkgId) (who : Requester) (u : Fin 10) (w : Word)
  | finish (p : PkgId) (who : Requester) (u : Fin 10) (w : Word)
  | chunk (p : PkgId) (u : Fin 10) (tag : BitVec 16) (alive : Byte) (data : List Byte)
  | scanEnd (p : PkgId) (u : Fin 10) (corrected : List Nat)
  -- the Chart
  | validationEnd (p : PkgId)
  | beginPort (p : PkgId) (who : Requester)
  | beginDma (p : PkgId) (who : Requester)
  | loadCancel (p : PkgId) (who : Requester)
  | loadData (p : PkgId) (who : Requester) (w : Word)
  | dmaLoadEnd (p : PkgId)
  | go (p : PkgId) (who : Requester)
  | operatorAbort (p : PkgId) (who : Requester)
  | prepare (p : PkgId)
  | prepareDeadline (p : PkgId)
  | regionEnter (p : PkgId)
  | drainEnd (p : PkgId)
  | turnDrained (p : PkgId) (m : TurnMsg)
  | turnCommit (p : PkgId) (m : TurnMsg)
  | retire (p : PkgId)
  | leadWindowExpiry (p : PkgId)
  | regionDeadline (p : PkgId)
  | turnAbort (p : PkgId) (m : TurnMsg)
  | withdrawWaitEnd (p : PkgId)
  | withdrawLimit (p : PkgId)
  | turnWithdrawn (p : PkgId) (m : Arrived)
  | fleetTurn (rack : Fin 32) (t0 : Nat) (fleetImage : List Byte) (images : Checked (List (Fin 32 × List Byte)))
  | rackCommitReport (rack : Fin 32) (src : Fin 32)
  -- the link layer and ports
  | blockReceive (l : LinkId) (b : Block) (crcOk : Bool)
  | nak (l : LinkId) (bseq : Byte)
  | replayTimeout (l : LinkId)
  | laneLockLoss (l : LinkId)
  | fastRetrainEnd (l : LinkId) (identity : Word)
  | fastRetrainTimeout (l : LinkId)
  | fullTrainingEnd (l : LinkId) (ok : Bool) (identity : Word)
  | trainingRetry (l : LinkId)
  | retrain (p : PkgId) (who : Requester) (q : Port)
  | holdDown (p : PkgId) (who : Requester) (q : Port)
  | portRelease (p : PkgId) (who : Requester) (q : Port)
  -- packets and flows
  | packetArrive (r : RouterId) (inp : Fin 512) (pk : Packet)
  | packetDepart (l : LinkId)
  | requestIssue (p : PkgId) (c : Core) (rq : Request)
  | flowSend (p : PkgId) (dst : BitVec 16) (cls : BitVec 3)
  | flowPacketReceive (p : PkgId) (pk : Packet)
  | ackTimeExpiry (p : PkgId) (src : BitVec 16) (cls : BitVec 3) (tree : Byte)
  | ack (p : PkgId) (pk : Packet)
  | retxTimeExpiry (p : PkgId) (dst : BitVec 16) (cls : BitVec 3) (tree : Byte) (seq : Word)
  | inputScan (r : RouterId)
  | holdTimeExpiry (l : LinkId)
  | requestServe (p : PkgId)
  | mgmtPacket (p : PkgId) (pk : Packet)
  -- casts, tally merge, maps
  | castWrite (p : PkgId) (c : Core) (kind : BitVec 2) (tree : Fin 64) (dst : Byte) (addr : BitVec 44) (data : List Byte)
  | castSignal (p : PkgId) (c : Core) (kind : BitVec 2) (tree : Fin 64) (dst : Byte) (addr : BitVec 44)
  | castArrive (p : PkgId) (q : Port) (pk : Packet)
  | tallySum (p : PkgId) (c : Core) (k : Contribution)
  | tallyMax (p : PkgId) (c : Core) (k : Contribution)
  | tallyMin (p : PkgId) (c : Core) (k : Contribution)
  | tallyTopk (p : PkgId) (src : Fin 196) (k : Contribution)
  | tallyArrive (p : PkgId) (inp : Fin 64) (pk : Packet)
  | mergeWaitExpiry (p : PkgId) (tree : Fin 64) (seq : Word)
  | mapSample (r : RouterId)
  | mapReport (p : PkgId)
  | weightWrite (p : PkgId) (entries : List Word)
  | weightHoldExpiry (p : PkgId)
  -- Bearing engines
  | queryWrite (p : PkgId) (c : Core) (off : Fin 1572864) (data : List Byte)
  | hostqGo (p : PkgId) (who : Requester) (t : Tile)
  | queryStart (p : PkgId) (t : Tile)
  | queryEnd (p : PkgId) (x : ScanOf)
  | brgAbort (p : PkgId) (who : Requester) (t : Tile)
  -- power
  | siteCapSet (rack : Fin 32) (watts : Nat)
  | psuHealthChange (rack : Fin 32) (n : Fin 36) (healthy : Bool)
  | feedLost (rack : Fin 32) (x : FeedVolts)
  | feedPresent (rack : Fin 32) (x : FeedSpan)
  | shelfPoll (rack : Fin 32) (inputW packagesW : Nat)
  | pwrLadderCapWrite (p : PkgId) (who : Requester) (w : Word)
  | pwrHostCapWrite (p : PkgId) (who : Requester) (w : Word)
  | governorTick (p : PkgId) (tileW : List Nat) (uncoreW : Nat)
  | pointJudgement (p : PkgId) (tileW : List Nat)
  | pointStepEnd (p : PkgId) (t : Tile) (drawW : Nat)
  | droop (p : PkgId) (t : Tile) (supplyMv : Nat)
  | droopRecovery (p : PkgId) (t : Tile)
  | brakeAssert (p : PkgId)
  | brakeRelease (p : PkgId)
  | shelfAutoRelease (x : Reading)
  | almanacBrakeRelease (rack : Fin 32)
  | brakeTest (rack : Fin 32) (ms : Nat)
  | brakeTestEnd (rack : Fin 32)
  | rateRampStep (p : PkgId)
  | capacityHoldEnd (rack : Fin 32)
  | poweredHour (p : PkgId) (margins : List Nat)
  | marginAlarm (p : PkgId) (n : Fin 8) (marginMv : Nat)
  -- heat
  | cduSettingSet (rack : Fin 32) (which : CduSetting) (tenths : Nat)
  | flowLimited (rack : Fin 32)
  | inletHigh (rack : Fin 32) (tenths : Int)
  | dewRisk (rack : Fin 32) (dewTenths : Int)
  | secondaryLow (x : Reading)
  | secondaryRestored (x : Reading)
  | coolantRead (t : TrayId) (pos : Fin 4) (temp : BitVec 12)
  | thrCoolantWrite (p : PkgId) (who : Requester) (w : Word)
  | coolantStale (p : PkgId)
  | naturalStepSample (p : PkgId) (dtMeas dtModel : Int) (quiet : Bool)
  | probePulse (p : PkgId) (dutyPct drawW : Nat)
  | thermalCapCompute (p : PkgId)
  | druStep (p : PkgId) (meas powerMw : List Nat) (duty : List Nat)
  | sensorFail (p : PkgId) (n : Fin 64)
  | junctionTrip (p : PkgId) (n : Fin 64) (temp : BitVec 16)
  | junctionTripRelease (p : PkgId)
  | thermalShutdown (p : PkgId) (n : Fin 64) (temp : BitVec 16)
  | headingCommit (p : PkgId) (who : Requester) (w3 : Word)
  | headingExpiry (p : PkgId) (i : Fin 32)
  | rotationDue (p : PkgId) (set : Fin 32)
  | rotationSkip (p : PkgId) (set : Fin 32)
  | migrationEnd (p : PkgId) (set : Fin 32)
  -- the CW command set, direct register access, I3C and MCTP
  | heartbeat (p : PkgId) (inst : BitVec 5) (seq : Word)
  | holdCourse (p : PkgId)
  | readReg (p : PkgId) (inst : BitVec 5) (off : Word) (ctrl : Byte)
  | writeReg (p : PkgId) (inst : BitVec 5) (off : Word) (ctrl : Byte) (words : List Word)
  | admitLinks (p : PkgId) (inst : BitVec 5)
  | fence (p : PkgId) (inst : BitVec 5)
  | resync (p : PkgId) (inst : BitVec 5)
  | getStatus (p : PkgId) (inst : BitVec 5)
  | event (t : TrayId) (pos : Fin 4) (code : Byte) (data : BitVec 64)
  | draSet (p : PkgId) (bytes : List Byte)
  | draGet (p : PkgId)
  | draAccessEnd (p : PkgId)
  | setdasa (t : TrayId) (pos : Fin 4)
  | setEndpointId (p : PkgId) (eid : Byte)
  | getEndpointId (p : PkgId)
  | getEndpointUuid (p : PkgId)
  | getMctpVersionSupport (p : PkgId) (msgType : Byte)
  | getMessageTypeSupport (p : PkgId) (overPcie : Bool)
  | getVendorDefinedMessageSupport (p : PkgId) (overPcie : Bool) (selector : Byte)
  -- faults
  | detectorFire (p : PkgId) (d : Fin 4096) (info0 info1 : BitVec 64)
  | ucGraceExpiry (p : PkgId) (slot : Fin 16)
  | ftGraceExpiry (p : PkgId) (slot : Fin 16)
  | resolved (p : PkgId) (who : Requester) (slot : Fin 16)
  | escalate (p : PkgId) (who : Requester) (slot : Fin 16)
  | isolationEnd (p : PkgId) (u : Byte)
  | scopeResetEnd (p : PkgId) (u : Byte)
  | reactionEnd (p : PkgId) (i : Nat)
  | hubReset (p : PkgId)
  | ceAlarmQuiet (p : PkgId) (u : Byte)
  | ucQuiet (p : PkgId) (u : Byte)
  | fltRelease (p : PkgId) (who : Requester) (w : Word)
  | lwClear (p : PkgId) (who : Requester) (w : Word)
  | logMirror (t : TrayId) (pos : Fin 4)
  -- updates
  | queryDeviceIdentifiers (p : PkgId)
  | getFirmwareParameters (p : PkgId)
  | requestUpdate (p : PkgId) (overPcie : Bool)
  | passComponentTable (p : PkgId) (comps : List (BitVec 16))
  | updateComponent (p : PkgId) (comp : BitVec 16) (size : Nat)
  | requestFirmwareData (p : PkgId) (data : List Byte)
  | firmwareDataTimeout (p : PkgId)
  | transferComplete (p : PkgId)
  | verifyComplete (p : PkgId)
  | applyComplete (p : PkgId)
  | activateFirmware (p : PkgId) (overPcie : Bool)
  | pldmGetStatus (p : PkgId)
  | cancelUpdateComponent (p : PkgId)
  | cancelUpdate (p : PkgId)
  | patchVerifyEnd (p : PkgId)
  | trialRunning (p : PkgId)
  | trialTimeout (p : PkgId)
  | goldenPromotion (t : TrayId) (kind : Fin 8) (target : Byte)
  | pushBegin (p : PkgId) (who : Requester)
  | pushData (p : PkgId) (who : Requester) (w : Word)
  | cwActivation (t : TrayId)
  | almanacUpdate (a : AlmId) (image : List Byte)
  | unitUpdate (rack : Fin 32) (u : RackUnit) (ok : Bool)
  -- debug
  | openDebug (t : TrayId) (epoch : Word)
  | closeDebug (t : TrayId)
  | shiftIr (t : TrayId) (pos : Fin 4) (bits : List Bool)
  | shiftDr (t : TrayId) (pos : Fin 4) (bits : List Bool)
  | tapReset (t : TrayId) (pos : Fin 4)
  | idle (t : TrayId) (pos : Fin 4) (cycles : Fin 4097)
  | mgmtAccess (p : PkgId) (dr : BitVec 64)
  | halt (p : PkgId) (who : Requester) (c : Core)
  | deferralEnd (p : PkgId) (c : Core)
  | breakpointMatch (p : PkgId) (c : Core) (n : Fin 4) (pc : BitVec 44)
  | resume (p : PkgId) (who : Requester) (c : Core)
  | step (p : PkgId) (who : Requester) (c : Core) (nextPc : BitVec 44)
  | releaseClasps (p : PkgId) (who : Requester) (c : Core)
  | traceCapture (p : PkgId) (f : Fin 2) (port : Byte) (out : Bool) (pk : Packet) (busy : Bool)
  | traceClear (p : PkgId) (who : Requester) (f : Fin 2) (w : Word)
  -- start-up and limits
  | flowProven (x : Reading)
  | bringUpDeadline (rack : Fin 32)
  | seaTrialEnd (p : PkgId)
  | psuOvervoltage (rack : Fin 32) (n : Fin 36) (volts : Nat)
  | psuRejoin (rack : Fin 32) (x : PsuSpan)
  | busbarLow (rack : Fin 32) (mv : Nat)
  | busbarRecovered (x : Reading)
  | busbarOvervoltage (rack : Fin 32) (shelf : Fin 6) (mv : Nat)
  | busbarBrakeAssertion (rack : Fin 32) (mv : Nat)
  | previousBankRestart (a : AlmId)
  | flowLimitedCleared (rack : Fin 32)
  | inletHighCleared (x : Reading)
  | prewakeDue (p : PkgId)
  -- SPDM
  | getVersion (p : PkgId)
  | getCapabilities (p : PkgId)
  | negotiateAlgorithms (p : PkgId) (baseAsym baseHash : Word)
  | getDigests (p : PkgId)
  | getCertificate (p : PkgId) (slot : Byte) (offset len : BitVec 16)
  | challenge (p : PkgId) (slot : Byte) (nonce : BitVec 256)
  | getMeasurements (p : PkgId) (nonce : BitVec 256)
  -- the CW itself
  | cwStart (t : TrayId)
  | reflashEnd (t : TrayId) (kind : Fin 8) (target : Byte)
  | modPwrGood (t : TrayId) (pos : Fin 4)
  | pkgReset (p : PkgId)
  | pkcRelease (p : PkgId)
  | bootTimeout (t : TrayId) (pos : Fin 4)
  | telemetryPoll (t : TrayId) (pos : Fin 4)
  | thermShdnN (t : TrayId) (pos : Fin 4)
  | swapOut (t : TrayId) (pos : Fin 4) (epoch : Word)
  | modPresent (t : TrayId) (pos : Fin 4) (serial : BitVec 64)
  | modLatchOpen (t : TrayId) (pos : Fin 4) (level : Bool)
  -- the Almanac pair
  | renew (src : AlmId) (epoch : Word) (toPeer : Bool) (slot : Fin 28)
  | leaseExpiry (a : AlmId)
  | silenceTimeout (a : AlmId)
  | take (t : TrayId) (src : AlmId) (epoch : Word)
  | takeGrant (a : AlmId)
  | takeRoundEnd (a : AlmId)
  | almanacBoot (a : AlmId)
  | echo (a : AlmId) (kind : IdemKind) (target : TrayId) (pos : Fin 4) (seq : BitVec 64) (value : Word)
  | idempotentMessage (t : TrayId) (kind : IdemKind) (pos : Fin 4) (seq : BitVec 64) (value : Word)
  | fencedAction (t : TrayId) (pos : Fin 4) (epoch : Word) (kind : FencedKind)
  | standbyLost (a : AlmId)
  | syncEnd (a : AlmId)
  | fleetOrder (rack : Fin 32) (term : Word) (t0 : Nat)
  | relinquish (t : TrayId) (epoch : Word)
  -- Redfish actions
  | turnChart (a : AlmId) (x : Checked (List Byte)) (startTime : Nat)
  | abortTurn (a : AlmId)
  | releaseQuarantine (a : AlmId) (p : PkgId) (unit : Byte)
  | releaseAttestation (a : AlmId) (p : PkgId)
  | swapoutRequest (a : AlmId) (p : PkgId)
  | powerOn (a : AlmId) (p : PkgId)
  | rackNumberSet (a : AlmId) (n : Nat)
  | updatePush (a : AlmId) (targets : List UpdateTarget) (image : List Byte)
  | activate (a : AlmId) (target : UpdateTarget)
  | handOver (a : AlmId)
  deriving DecidableEq, Repr

end Sys2Proof
end

