-- ==== Sys2Proof/Config.lean ====
section
/-! DEFINITION. What an implementation fixes and what the spec leaves open: constants WITHOUT a body, of which nothing can be
proved or evaluated. The assumption log has a row for each. -/

namespace Sys2Proof

/-- The free values: the n-th value that the spec leaves undefined (log 4). `State.free` counts them. -/
opaque Config.freeWord : Nat → BitVec 64
/-- What a byte of storage that nothing has written reads as, by its key (R48, R2; log 5). -/
opaque Config.freeByte : Nat → Byte
/-- Where the core-store window lies in the 44-bit core address space (R50, R208; log 6). -/
opaque Config.storeWindow : BitVec 44
/-- The signature that a package's device key makes over a digest, as r ‖ s (R289; log 7). -/
opaque Config.deviceSign : Nat → BitVec 384 → BitVec 768
/-- Chartwright's signature r, s under the private key of a slot over a digest (R113, R373; log 7). -/
opaque Config.chartSign : Nat → BitVec 384 → BitVec 768
/-- The Drihasel key-authority key, x and y (R343; log 7). -/
opaque Config.keyAuthority : BitVec 384 × BitVec 384
/-- The device key in a package's slot 0 certificate, and the hash that the CW holds for the mask ROM (R289, R290; log 7). -/
opaque Config.deviceKey : Nat → BitVec 384 × BitVec 384
opaque Config.romExpected : BitVec 384
/-- Whether a package's slot 0 certificate chain verifies against the device CA key (R289, R290; log 7). -/
opaque Config.chainGood : Nat → Bool
/-- A package's slot 0 certificate chain (R289; log 7). -/
opaque Config.certChain : Nat → List Byte
/-- The mask ROM hash and the fused configuration measured by SPDM (Table 13.11; log 8). -/
opaque Config.romHash : Nat → BitVec 384
opaque Config.fusedConfig : Nat → List Byte
/-- The fused factory resistance R_fused in 0.1 mK/W (R261, R378; log 8). -/
opaque Config.fusedResist : Nat → BitVec 12
/-- The fused matrices a and b of the DRU by package, conductance scale, node and node (R261; log 8). -/
opaque Config.druA : Nat → Rat → Nat → Nat → Rat
opaque Config.druB : Nat → Nat → Nat → Rat
/-- CORE_FULL_W in mW by package and operating point (R262; log 8). -/
opaque Config.coreFullMw : Nat → Nat → Nat
/-- The class of a detector that the manual does not name (R318; log 9). -/
opaque Config.detectorClass : Nat → Fin 3
/-- The detector, within the block of its unit, that reports a corrected error of a scan in memory for which the manual names none (R88; log 84). -/
opaque Config.scanDetector : Nat → Fin 27
/-- The issue rate the governor chooses for a C-tile: limit in W, draw in W, present rate (R234, R235; log 10). -/
opaque Config.governRate : Nat → Nat → Nat → Nat
/-- The MCTP endpoint UUID, the PLDM device identifiers and the SPDM answers whose contents the manual does not give
(R277, R289, R338; log 11). -/
opaque Config.uuid : Nat → BitVec 128
opaque Config.deviceIds : Nat → List Byte
opaque Config.spdmCaps : Nat → List Byte
/-- An Almanac's serial number ("When two racks carry the same rack number"; log 8). -/
opaque Config.almanacSerial : Nat → Nat
/-- What the IDCODE register of a package holds, and what the boundary scan of a package samples at a time, pin by pin (R358; log 12). -/
opaque Config.idcode : Nat → BitVec 32
opaque Config.pinSample : Nat → Nat → Nat → Bool
/-- The address of the next instruction of a core that halts, by package address, core and time (CORE_DBG_PC; log 40). -/
opaque Config.haltedPc : Nat → Nat → Nat → BitVec 44

/-- The place an allocator picks among the free places of a tier, by the ends of what is in use and the length (R44; log 15). -/
opaque Config.fitChoice : List (Nat × Nat) → Nat → Nat
/-- What an ATOMIC writes and returns: its payload and the 8 bytes it finds (Table 7.4; log 16). -/
opaque Config.atomicNew : List Byte → Nat → Nat
opaque Config.atomicResult : List Byte → Nat → Nat
/-- What a chip's flash holds after the n-th reflash with an image (R284; log 44). -/
opaque Config.reflashed : Nat → List Byte → List Byte
/-- The ECC syndrome of an uncorrectable line (Table 15.8; log 17). -/
opaque Config.syndrome : Nat → BitVec 64
/-- Statuses that the manual does not state (log 18): 0 of a read of an uncorrectable line, 1 of a clasp request beyond the limits
of R51, 2 of a cast or contribution on a tree the sender's package is not on, 3 of a core's contribution that its own package finds late. -/
opaque Config.openStatus : Nat → Byte
/-- The management opcodes that carry turn messages (Table 7.4 gives no codes; log 19). -/
opaque Config.turnOpcode : Byte → Bool
/-- The turn message that a management packet carries, by its opcode and payload, with its kind: 0 TURN_DRAINED, 1 TURN_COMMIT, 2 TURN_ABORT,
3 TURN_WITHDRAWN sent to a lead, 4 the flood of TURN_WITHDRAWN. The manual gives no layout (R128; log 19). -/
opaque Config.turnMessage : Byte → List Byte → Option (Fin 5 × TurnMsg)

end Sys2Proof
end

