-- ==== Sys2Proof/Machine/Regs.lean ====
section
/-! DEFINITION. The register map of a package's 16 MiB management space (R12, R13, R62, Table 2.7 and the register tables of
the chapters): every register's offset, strides, reset value and the access type of its bits, and every field's place. -/

namespace Sys2Proof

/-- One line of the register map: a register, or an array of `n1` × `n2` registers at strides `s1` and `s2`. The four masks are
the bits of Table 0.4's types RW, W1C, RC and WO; the other bits are RO or reserved. `words` > 1 marks a value wider than 32 bits
(R16) and `w` says which of its words this is, 0 the lowest. -/
structure RegDesc where
  name : String
  base : Nat
  n1 : Nat
  s1 : Nat
  n2 : Nat
  s2 : Nat
  reset : Nat
  rw : Nat
  w1c : Nat
  rc : Nat
  wo : Nat
  w : Nat
  words : Nat
  deriving DecidableEq, Repr

/-- A field of a register: the register's offset, the field's lowest bit and its width. -/
structure Fld where
  off : Nat
  lo : Nat
  width : Nat
  deriving DecidableEq, Repr


/-- The AON registers (spec/03_clocks_and_sleep.md). -/
def RegTable.aon : List RegDesc := [
  ⟨"AON_PKG_ADDR", 0x0, 1, 0x0, 1, 0x0, 0xffff, 0xffff, 0x0, 0x0, 0x0, 0, 1⟩,
  ⟨"AON_PKG_INCARNATION", 0x4, 1, 0x0, 1, 0x0, 0x0, 0x0, 0x0, 0x0, 0x0, 0, 1⟩,
  ⟨"AON_CLK_CTRL", 0x10, 1, 0x0, 1, 0x0, 0x0, 0x1, 0x0, 0x0, 0x2, 0, 1⟩,
  ⟨"AON_CLK_STATUS", 0x14, 1, 0x0, 1, 0x0, 0x0, 0x0, 0x0, 0xff00, 0x0, 0, 1⟩,
  ⟨"AON_TIME_LO", 0x20, 1, 0x0, 1, 0x0, 0x0, 0x0, 0x0, 0x0, 0x0, 0, 2⟩,
  ⟨"AON_TIME_HI", 0x24, 1, 0x0, 1, 0x0, 0x0, 0x0, 0x0, 0x0, 0x0, 1, 2⟩,
  ⟨"AON_TIME_STATUS", 0x28, 1, 0x0, 1, 0x0, 0x0, 0x0, 0x0, 0x0, 0x0, 0, 1⟩,
  ⟨"AON_TIME_LOAD_LO", 0x30, 1, 0x0, 1, 0x0, 0x0, 0xffffffff, 0x0, 0x0, 0x0, 0, 2⟩,
  ⟨"AON_TIME_LOAD_HI", 0x34, 1, 0x0, 1, 0x0, 0x0, 0xffffffff, 0x0, 0x0, 0x0, 1, 2⟩,
  ⟨"AON_PKG_STATE", 0x40, 1, 0x0, 1, 0x0, 0x0, 0x0, 0x0, 0x0, 0x0, 0, 1⟩,
  ⟨"AON_WAKE_CAUSE", 0x44, 1, 0x0, 1, 0x0, 0x0, 0x0, 0x0, 0x1f0000ff, 0x0, 0, 1⟩,
  ⟨"AON_PREWAKE_AT_LO", 0x50, 1, 0x0, 1, 0x0, 0x0, 0xffffffff, 0x0, 0x0, 0x0, 0, 2⟩,
  ⟨"AON_PREWAKE_AT_HI", 0x54, 1, 0x0, 1, 0x0, 0x0, 0xffffffff, 0x0, 0x0, 0x0, 1, 2⟩,
  ⟨"AON_PREWAKE_CTRL", 0x58, 1, 0x0, 1, 0x0, 0xa00ff, 0xff00ff, 0x1000000, 0x0, 0x2000100, 0, 1⟩,
  ⟨"AON_PDOM_POLICY", 0x100, 1, 0x0, 1, 0x0, 0x0, 0x0, 0x0, 0x0, 0x0, 0, 1⟩,
  ⟨"AON_DOMAIN_ON", 0x200, 13, 0x4, 1, 0x0, 0x0, 0x0, 0x0, 0x0, 0x0, 0, 1⟩]

/-- The PKC registers (spec/02_goivo_package.md). -/
def RegTable.pkc : List RegDesc := [
  ⟨"PKC_LEND_POOL", 0x10100, 1, 0x0, 1, 0x0, 0x0, 0x1ff, 0x0, 0x0, 0x0, 0, 1⟩,
  ⟨"PKC_HOST_SPILL_BASE_LO", 0x10110, 1, 0x0, 1, 0x0, 0x0, 0xfffff000, 0x0, 0x0, 0x0, 0, 2⟩,
  ⟨"PKC_HOST_SPILL_BASE_HI", 0x10114, 1, 0x0, 1, 0x0, 0x0, 0xffffffff, 0x0, 0x0, 0x0, 1, 2⟩,
  ⟨"PKC_HOST_SPILL_LEN", 0x10118, 1, 0x0, 1, 0x0, 0x0, 0xffffffff, 0x0, 0x0, 0x0, 0, 1⟩]

/-- The CHT registers (spec/06_chart_turns.md). -/
def RegTable.cht : List RegDesc := [
  ⟨"CHT_ACTIVE_EPOCH", 0x20000, 1, 0x0, 1, 0x0, 0x0, 0x0, 0x0, 0x0, 0x0, 0, 1⟩,
  ⟨"CHT_SHADOW_EPOCH", 0x20004, 1, 0x0, 1, 0x0, 0x0, 0x0, 0x0, 0x0, 0x0, 0, 1⟩,
  ⟨"CHT_SLOT_STATUS", 0x20008, 1, 0x0, 1, 0x0, 0x0, 0x0, 0x10000, 0x0, 0x0, 0, 1⟩,
  ⟨"CHT_FAULT_WHERE", 0x2000c, 1, 0x0, 1, 0x0, 0x0, 0x0, 0x0, 0x0, 0x0, 0, 1⟩,
  ⟨"CHT_LOAD_CTRL", 0x20010, 1, 0x0, 1, 0x0, 0x0, 0x0, 0x0, 0x0, 0x7, 0, 1⟩,
  ⟨"CHT_LOAD_DATA", 0x20014, 1, 0x0, 1, 0x0, 0x0, 0x0, 0x0, 0x0, 0xffffffff, 0, 1⟩,
  ⟨"CHT_LOAD_LEN", 0x20018, 1, 0x0, 1, 0x0, 0x0, 0x7fffff, 0x0, 0x0, 0x0, 0, 1⟩,
  ⟨"CHT_LOAD_SRC_LO", 0x20020, 1, 0x0, 1, 0x0, 0x0, 0xfffffff8, 0x0, 0x0, 0x0, 0, 2⟩,
  ⟨"CHT_LOAD_SRC_HI", 0x20024, 1, 0x0, 1, 0x0, 0x0, 0xffffffff, 0x0, 0x0, 0x0, 1, 2⟩,
  ⟨"CHT_TURN_AT_LO", 0x20030, 1, 0x0, 1, 0x0, 0x0, 0xffffffff, 0x0, 0x0, 0x0, 0, 2⟩,
  ⟨"CHT_TURN_AT_HI", 0x20034, 1, 0x0, 1, 0x0, 0x0, 0xffffffff, 0x0, 0x0, 0x0, 1, 2⟩,
  ⟨"CHT_TURN_EPOCH", 0x20038, 1, 0x0, 1, 0x0, 0x0, 0xffffffff, 0x0, 0x0, 0x0, 0, 1⟩,
  ⟨"CHT_TURN_LEASE", 0x2003c, 1, 0x0, 1, 0x0, 0x0, 0xffffffff, 0x0, 0x0, 0x0, 0, 1⟩,
  ⟨"CHT_TURN_CTRL", 0x20040, 1, 0x0, 1, 0x0, 0x0, 0x0, 0x0, 0x0, 0x3, 0, 1⟩,
  ⟨"CHT_TURN_STATUS", 0x20044, 1, 0x0, 1, 0x0, 0x0, 0x0, 0x0, 0x0, 0x0, 0, 1⟩,
  ⟨"CHT_TURN_CAUSE", 0x20048, 1, 0x0, 1, 0x0, 0x0, 0x0, 0x0, 0xff0f, 0x0, 0, 1⟩,
  ⟨"CHT_OLD_OUT", 0x2004c, 1, 0x0, 1, 0x0, 0x0, 0x0, 0x0, 0x0, 0x0, 0, 1⟩]

/-- The FLT registers (spec/15_faults.md). -/
def RegTable.flt : List RegDesc := [
  ⟨"FLT_CFG", 0x30000, 1, 0x0, 1, 0x0, 0x200a14, 0xff1fff, 0x0, 0x0, 0x0, 0, 1⟩,
  ⟨"FLT_STATUS", 0x30004, 1, 0x0, 1, 0x0, 0x0, 0x0, 0xc0000000, 0x0, 0x0, 0, 1⟩,
  ⟨"FLT_COUNTS", 0x30008, 1, 0x0, 1, 0x0, 0x0, 0x0, 0x0, 0xffffffff, 0x0, 0, 1⟩,
  ⟨"FLT_DROPS", 0x3000c, 1, 0x0, 1, 0x0, 0x0, 0x0, 0x0, 0xffffffff, 0x0, 0, 1⟩,
  ⟨"FLT_HANDLE", 0x30010, 1, 0x0, 1, 0x0, 0x0, 0x0, 0x0, 0x0, 0x30f, 0, 1⟩,
  ⟨"FLT_LOG_SEL", 0x30020, 1, 0x0, 1, 0x0, 0x0, 0xfff, 0x0, 0x0, 0x0, 0, 1⟩,
  ⟨"FLT_LOG_HEAD", 0x30024, 1, 0x0, 1, 0x0, 0x0, 0x0, 0x0, 0x0, 0x0, 0, 1⟩,
  ⟨"FLT_MIRRORED", 0x30028, 1, 0x0, 1, 0x0, 0x0, 0xffffffff, 0x0, 0x0, 0x0, 0, 1⟩,
  ⟨"FLT_BOOT", 0x3002c, 1, 0x0, 1, 0x0, 0x0, 0xffff, 0x0, 0x0, 0x0, 0, 1⟩,
  ⟨"FLT_LOG_DATA", 0x30040, 16, 0x4, 1, 0x0, 0x0, 0x0, 0x0, 0x0, 0x0, 0, 1⟩,
  ⟨"FLT_PEND", 0x30100, 16, 0x8, 1, 0x0, 0x0, 0x0, 0x0, 0x0, 0x0, 0, 1⟩,
  ⟨"FLT_PEND_SEQ", 0x30104, 16, 0x8, 1, 0x0, 0x0, 0x0, 0x0, 0x0, 0x0, 0, 1⟩,
  ⟨"FLT_LW", 0x30200, 8, 0x4, 1, 0x0, 0x0, 0x0, 0x0, 0x0, 0x0, 0, 1⟩,
  ⟨"FLT_LW_STATUS", 0x30220, 1, 0x0, 1, 0x0, 0x0, 0x0, 0x0, 0x0, 0x0, 0, 1⟩,
  ⟨"FLT_LW_CLEAR", 0x30224, 1, 0x0, 1, 0x0, 0x0, 0x0, 0x0, 0x0, 0x1, 0, 1⟩,
  ⟨"FLT_QUAR", 0x30300, 8, 0x4, 1, 0x0, 0x0, 0xffffffff, 0x0, 0x0, 0x0, 0, 1⟩,
  ⟨"FLT_RELEASE", 0x30320, 1, 0x0, 1, 0x0, 0x0, 0x0, 0x0, 0x0, 0x1ff, 0, 1⟩,
  ⟨"FLT_UNIT", 0x30400, 256, 0x4, 1, 0x0, 0x0, 0x0, 0x0, 0x0, 0x0, 0, 1⟩]

/-- The PWR registers (spec/11_power.md). -/
def RegTable.pwr : List RegDesc := [
  ⟨"PWR_LADDER_CAP", 0x40000, 1, 0x0, 1, 0x0, 0x96, 0x7ff, 0x0, 0x0, 0x0, 0, 1⟩,
  ⟨"PWR_HOST_CAP", 0x40004, 1, 0x0, 1, 0x0, 0x47e, 0x7ff, 0x0, 0x0, 0x0, 0, 1⟩,
  ⟨"PWR_CAP_STATUS", 0x40008, 1, 0x0, 1, 0x0, 0x96, 0x0, 0x80000000, 0x0, 0x0, 0, 1⟩,
  ⟨"PWR_DRAW", 0x4000c, 1, 0x0, 1, 0x0, 0x0, 0x0, 0x0, 0x0, 0x0, 0, 1⟩,
  ⟨"PWR_ENERGY_LO", 0x40010, 1, 0x0, 1, 0x0, 0x0, 0x0, 0x0, 0x0, 0x0, 0, 2⟩,
  ⟨"PWR_ENERGY_HI", 0x40014, 1, 0x0, 1, 0x0, 0x0, 0x0, 0x0, 0x0, 0x0, 1, 2⟩,
  ⟨"PWR_TILE_STATE", 0x40020, 4, 0x4, 1, 0x0, 0x40, 0x0, 0x0, 0x0, 0x0, 0, 1⟩,
  ⟨"PWR_BRAKE", 0x40040, 1, 0x0, 1, 0x0, 0x113, 0x0, 0x0, 0x0, 0x0, 0, 1⟩,
  ⟨"PWR_DROOP_CFG", 0x40044, 1, 0x0, 1, 0x0, 0x19, 0x3f, 0x0, 0x0, 0x0, 0, 1⟩,
  ⟨"PWR_EVENTS", 0x40048, 1, 0x0, 1, 0x0, 0x0, 0x0, 0x0, 0xffffffff, 0x0, 0, 1⟩,
  ⟨"PWR_GUARD", 0x40060, 8, 0x4, 1, 0x0, 0x2d, 0x3f, 0x0, 0x0, 0x0, 0, 1⟩,
  ⟨"PWR_AGE_HOURS", 0x40080, 1, 0x0, 1, 0x0, 0x0, 0xfffff, 0x0, 0x0, 0x0, 0, 1⟩]

/-- The THR registers (spec/12_heat.md, spec/18_startup.md). -/
def RegTable.thr : List RegDesc := [
  ⟨"THR_RESIST_EST", 0x50000, 1, 0x0, 1, 0x0, 0x0, 0xffff, 0x0, 0x0, 0x0, 0, 1⟩,
  ⟨"THR_RESIST_CFG", 0x50004, 1, 0x0, 1, 0x0, 0x1c20a01, 0xffffff01, 0x0, 0x0, 0x0, 0, 1⟩,
  ⟨"THR_COOLANT", 0x50008, 1, 0x0, 1, 0x0, 0x8320, 0xfff, 0x0, 0x0, 0x0, 0, 1⟩,
  ⟨"THR_CAP", 0x5000c, 1, 0x0, 1, 0x0, 0x47e, 0x0, 0x0, 0x0, 0x0, 0, 1⟩,
  ⟨"THR_FORECAST", 0x50010, 1, 0x0, 1, 0x0, 0x0, 0x0, 0x0, 0x0, 0x0, 0, 1⟩,
  ⟨"THR_FRATE", 0x50014, 1, 0x0, 1, 0x0, 0x40404040, 0x0, 0x0, 0x0, 0x0, 0, 1⟩,
  ⟨"THR_ALARM", 0x50018, 1, 0x0, 1, 0x0, 0x20002, 0x0, 0x7f, 0x0, 0x0, 0, 1⟩,
  ⟨"THR_EVENTS", 0x5001c, 1, 0x0, 1, 0x0, 0x0, 0x0, 0x0, 0xffffffff, 0x0, 0, 1⟩,
  ⟨"THR_HEAD_W", 0x50020, 3, 0x4, 1, 0x0, 0x0, 0xffffffff, 0x0, 0x0, 0x0, 0, 1⟩,
  ⟨"THR_HEAD_W3", 0x5002c, 1, 0x0, 1, 0x0, 0x0, 0x0, 0x0, 0x0, 0xffffffff, 0, 1⟩,
  ⟨"THR_HEAD_STATUS", 0x50030, 1, 0x0, 1, 0x0, 0x0, 0x0, 0x0, 0x0, 0x0, 0, 1⟩,
  ⟨"THR_SEA_TRIAL", 0x50034, 1, 0x0, 1, 0x0, 0x0, 0x0, 0x0, 0x0, 0x0, 0, 1⟩,
  ⟨"THR_NODE", 0x50100, 64, 0x4, 1, 0x0, 0x0, 0x0, 0x0, 0x0, 0x0, 0, 1⟩,
  ⟨"THR_ROTA", 0x50200, 32, 0x4, 1, 0x0, 0x0, 0x0, 0x0, 0x0, 0x0, 0, 1⟩]

/-- The CSU registers (spec/04_check_value_units.md). -/
def RegTable.csu : List RegDesc := [
  ⟨"CSU_CTRL", 0x60000, 10, 0x100, 1, 0x0, 0x0, 0xfff3c0, 0x0, 0x0, 0x7, 0, 1⟩,
  ⟨"CSU_STATUS", 0x60004, 10, 0x100, 1, 0x0, 0x0, 0x0, 0x0, 0x0, 0x0, 0, 1⟩,
  ⟨"CSU_ADDR_LO", 0x60008, 10, 0x100, 1, 0x0, 0x0, 0xffffffff, 0x0, 0x0, 0x0, 0, 2⟩,
  ⟨"CSU_ADDR_HI", 0x6000c, 10, 0x100, 1, 0x0, 0x0, 0xfff, 0x0, 0x0, 0x0, 1, 2⟩,
  ⟨"CSU_LEN_LO", 0x60010, 10, 0x100, 1, 0x0, 0x0, 0xffffffff, 0x0, 0x0, 0x0, 0, 2⟩,
  ⟨"CSU_LEN_HI", 0x60014, 10, 0x100, 1, 0x0, 0x0, 0x1ff, 0x0, 0x0, 0x0, 1, 2⟩,
  ⟨"CSU_RESULT_LO", 0x60018, 10, 0x100, 1, 0x0, 0x0, 0x0, 0x0, 0x0, 0x0, 0, 2⟩,
  ⟨"CSU_RESULT_HI", 0x6001c, 10, 0x100, 1, 0x0, 0x0, 0x0, 0x0, 0x0, 0x0, 1, 2⟩,
  ⟨"CSU_PROGRESS_LO", 0x60020, 10, 0x100, 1, 0x0, 0x0, 0x0, 0x0, 0x0, 0x0, 0, 2⟩,
  ⟨"CSU_PROGRESS_HI", 0x60024, 10, 0x100, 1, 0x0, 0x0, 0x0, 0x0, 0x0, 0x0, 1, 2⟩,
  ⟨"CSU_STREAM", 0x60028, 10, 0x100, 1, 0x0, 0x0, 0xffff00ff, 0x0, 0x0, 0x0, 0, 1⟩,
  ⟨"CSU_EVENTS", 0x6002c, 10, 0x100, 1, 0x0, 0x0, 0x0, 0x0, 0xffffffff, 0x0, 0, 1⟩]

/-- The DBG registers (spec/17_debug.md). -/
def RegTable.dbg : List RegDesc := [
  ⟨"DBG_STATUS", 0x70000, 1, 0x0, 1, 0x0, 0x0, 0x0, 0x80000000, 0x0, 0x0, 0, 1⟩,
  ⟨"DBG_ROUTE_OVR", 0x70100, 8, 0x4, 1, 0x0, 0x0, 0xfffff1ff, 0x0, 0x0, 0x0, 0, 1⟩,
  ⟨"DBG_TRACE_CTRL", 0x70200, 2, 0x80, 1, 0x0, 0x0, 0x3, 0x0, 0x0, 0x4, 0, 1⟩,
  ⟨"DBG_TRACE_PORTS", 0x70204, 2, 0x80, 1, 0x0, 0x0, 0x307ffff, 0x0, 0x0, 0x0, 0, 1⟩,
  ⟨"DBG_TRACE_MATCH", 0x70208, 2, 0x80, 1, 0x0, 0x70ffff, 0xff70ffff, 0x0, 0x0, 0x0, 0, 1⟩,
  ⟨"DBG_TRACE_STATUS", 0x7020c, 2, 0x80, 1, 0x0, 0x0, 0x0, 0x0, 0x0, 0x0, 0, 1⟩,
  ⟨"DBG_TRACE_SEL", 0x70210, 2, 0x80, 1, 0x0, 0x0, 0x3ff, 0x0, 0x0, 0x0, 0, 1⟩,
  ⟨"DBG_TRACE_DATA", 0x70240, 2, 0x80, 16, 0x4, 0x0, 0x0, 0x0, 0x0, 0x0, 0, 1⟩]

/-- The UPD registers (spec/16_updates.md). -/
def RegTable.upd : List RegDesc := [
  ⟨"UPD_STATUS", 0x80000, 1, 0x0, 1, 0x0, 0x0, 0x0, 0x0, 0x0, 0x0, 0, 1⟩,
  ⟨"UPD_ACTIVE_VERSION_LO", 0x80008, 1, 0x0, 1, 0x0, 0x0, 0x0, 0x0, 0x0, 0x0, 0, 2⟩,
  ⟨"UPD_ACTIVE_VERSION_HI", 0x8000c, 1, 0x0, 1, 0x0, 0x0, 0x0, 0x0, 0x0, 0x0, 1, 2⟩,
  ⟨"UPD_STAGED_VERSION_LO", 0x80010, 1, 0x0, 1, 0x0, 0x0, 0x0, 0x0, 0x0, 0x0, 0, 2⟩,
  ⟨"UPD_STAGED_VERSION_HI", 0x80014, 1, 0x0, 1, 0x0, 0x0, 0x0, 0x0, 0x0, 0x0, 1, 2⟩,
  ⟨"UPD_PUSH_CTRL", 0x80020, 1, 0x0, 1, 0x0, 0x0, 0x0, 0x0, 0x0, 0x1, 0, 1⟩,
  ⟨"UPD_PUSH_LEN", 0x80024, 1, 0x0, 1, 0x0, 0x0, 0xffffff, 0x0, 0x0, 0x0, 0, 1⟩,
  ⟨"UPD_PUSH_DATA", 0x80028, 1, 0x0, 1, 0x0, 0x0, 0x0, 0x0, 0x0, 0xffffffff, 0, 1⟩,
  ⟨"UPD_KEY_STATUS", 0x80040, 1, 0x0, 1, 0x0, 0x0, 0x0, 0x0, 0x0, 0x0, 0, 1⟩]

/-- The FAB registers (spec/07_fabric.md, spec/08_cast_and_tally.md). -/
def RegTable.fab : List RegDesc := [
  ⟨"FAB_LINK_CFG", 0x100000, 2, 0x80000, 1, 0x0, 0x800a0304, 0xf0ffff1f, 0x80, 0x0, 0x0, 0, 1⟩,
  ⟨"FAB_TREE_CFG", 0x100004, 2, 0x80000, 1, 0x0, 0x140a, 0xffff, 0x0, 0x0, 0x0, 0, 1⟩,
  ⟨"FAB_WEIGHT_STATUS", 0x100008, 2, 0x80000, 1, 0x0, 0x1, 0x0, 0x0, 0x0, 0x0, 0, 1⟩,
  ⟨"FAB_DISCARD_A", 0x100040, 2, 0x80000, 1, 0x0, 0x0, 0x0, 0x0, 0xffffffff, 0x0, 0, 1⟩,
  ⟨"FAB_DISCARD_B", 0x100044, 2, 0x80000, 1, 0x0, 0x0, 0x0, 0x0, 0xffffffff, 0x0, 0, 1⟩,
  ⟨"FAB_FLOW_EVENTS", 0x100048, 2, 0x80000, 1, 0x0, 0x0, 0x0, 0x0, 0xffffffff, 0x0, 0, 1⟩,
  ⟨"FAB_CAST_EVENTS", 0x10004c, 2, 0x80000, 1, 0x0, 0x0, 0x0, 0x0, 0xffffffff, 0x0, 0, 1⟩,
  ⟨"FAB_CAST_MISSING", 0x100050, 2, 0x80000, 1, 0x0, 0x0, 0x0, 0x0, 0x0, 0x0, 0, 1⟩,
  ⟨"FAB_CAST_MISSING_M0", 0x100054, 2, 0x80000, 1, 0x0, 0x0, 0x0, 0x0, 0x0, 0x0, 0, 3⟩,
  ⟨"FAB_CAST_MISSING_M1", 0x100058, 2, 0x80000, 1, 0x0, 0x0, 0x0, 0x0, 0x0, 0x0, 1, 3⟩,
  ⟨"FAB_CAST_MISSING_M2", 0x10005c, 2, 0x80000, 1, 0x0, 0x0, 0x0, 0x0, 0x0, 0x0, 2, 3⟩,
  ⟨"FAB_PORT_STATUS", 0x100100, 2, 0x80000, 12, 0x10, 0x0, 0x0, 0x0, 0x0, 0x0, 0, 1⟩,
  ⟨"FAB_PORT_CTRL", 0x100104, 2, 0x80000, 12, 0x10, 0x0, 0x0, 0x0, 0x0, 0x7, 0, 1⟩,
  ⟨"FAB_PORT_ERRS", 0x100108, 2, 0x80000, 12, 0x10, 0x0, 0x0, 0x0, 0xffffffff, 0x0, 0, 1⟩,
  ⟨"FAB_PORT_PEER", 0x10010c, 2, 0x80000, 12, 0x10, 0x0, 0x0, 0x0, 0x0, 0x0, 0, 1⟩,
  ⟨"FAB_TREE_STATE", 0x100200, 2, 0x80000, 64, 0x4, 0x0, 0xff, 0x0, 0x0, 0x0, 0, 1⟩,
  ⟨"FAB_PORT_LEVEL", 0x100300, 2, 0x80000, 12, 0x4, 0x0, 0x0, 0x0, 0xff00, 0x0, 0, 1⟩,
  ⟨"FAB_WEIGHT", 0x100400, 2, 0x80000, 96, 0x4, 0x0, 0x3ff, 0x0, 0x0, 0x0, 0, 1⟩,
  ⟨"FAB_PLANE_SPREAD", 0x100580, 2, 0x80000, 4, 0x4, 0x80, 0xff, 0x0, 0x0, 0x0, 0, 1⟩]

/-- The CORE registers (spec/02_goivo_package.md, spec/03_clocks_and_sleep.md, spec/15_faults.md, spec/17_debug.md). -/
def RegTable.core : List RegDesc := [
  ⟨"CORE_ID", 0x400000, 192, 0x1000, 1, 0x0, 0x0, 0x0, 0x0, 0x0, 0x0, 0, 1⟩,
  ⟨"CORE_INCARNATION", 0x400004, 192, 0x1000, 1, 0x0, 0x0, 0x0, 0x0, 0x0, 0x0, 0, 1⟩,
  ⟨"CORE_FAULT_STATUS", 0x4000c0, 192, 0x1000, 1, 0x0, 0x0, 0x0, 0x0, 0xff, 0x0, 0, 1⟩,
  ⟨"CORE_STALE_RESP", 0x4000c4, 192, 0x1000, 1, 0x0, 0x0, 0x0, 0x0, 0xffffffff, 0x0, 0, 1⟩,
  ⟨"CORE_PSTATE", 0x400100, 192, 0x1000, 1, 0x0, 0x0, 0x10, 0x0, 0x0, 0x300, 0, 1⟩,
  ⟨"CORE_SEG_BASE", 0x400400, 192, 0x1000, 64, 0x10, 0x0, 0xffffffff, 0x0, 0x0, 0x0, 0, 1⟩,
  ⟨"CORE_SEG_LEN", 0x400404, 192, 0x1000, 64, 0x10, 0x0, 0xffffff, 0x0, 0x0, 0x0, 0, 1⟩,
  ⟨"CORE_SEG_CTRL", 0x400408, 192, 0x1000, 64, 0x10, 0x0, 0x770, 0x0, 0x0, 0x6, 0, 1⟩,
  ⟨"CORE_SEG_LENDER", 0x40040c, 192, 0x1000, 64, 0x10, 0x0, 0xffff, 0x0, 0x0, 0x0, 0, 1⟩,
  ⟨"CORE_DBG_CTRL", 0x400800, 192, 0x1000, 1, 0x0, 0x0, 0x0, 0x0, 0x0, 0xf, 0, 1⟩,
  ⟨"CORE_DBG_STATUS", 0x400804, 192, 0x1000, 1, 0x0, 0x0, 0x0, 0x0, 0x0, 0x0, 0, 1⟩,
  ⟨"CORE_DBG_PC_LO", 0x400808, 192, 0x1000, 1, 0x0, 0x0, 0x0, 0x0, 0x0, 0x0, 0, 2⟩,
  ⟨"CORE_DBG_PC_HI", 0x40080c, 192, 0x1000, 1, 0x0, 0x0, 0x0, 0x0, 0x0, 0x0, 1, 2⟩,
  ⟨"CORE_DBG_BP_LO", 0x400810, 192, 0x1000, 4, 0x8, 0x0, 0xfffffffd, 0x0, 0x0, 0x0, 0, 2⟩,
  ⟨"CORE_DBG_BP_HI", 0x400814, 192, 0x1000, 4, 0x8, 0x0, 0xfff, 0x0, 0x0, 0x0, 1, 2⟩]

/-- The BRG registers (spec/10_bearing_search.md). -/
def RegTable.brg : List RegDesc := [
  ⟨"BRG_CTRL", 0x800000, 4, 0x10000, 1, 0x0, 0x0, 0x0, 0x0, 0x0, 0x1, 0, 1⟩,
  ⟨"BRG_STATUS", 0x800004, 4, 0x10000, 1, 0x0, 0x0, 0x0, 0x0, 0x0, 0x0, 0, 1⟩,
  ⟨"BRG_QCFG", 0x800008, 4, 0x10000, 1, 0x0, 0xff, 0x7ffffff, 0x0, 0x0, 0x0, 0, 1⟩,
  ⟨"BRG_LAST", 0x80000c, 4, 0x10000, 1, 0x0, 0x0, 0x0, 0x0, 0x0, 0x0, 0, 1⟩,
  ⟨"BRG_LAST_CODE", 0x800010, 4, 0x10000, 1, 0x0, 0x0, 0x0, 0x0, 0x0, 0x0, 0, 1⟩,
  ⟨"BRG_EVENTS", 0x800014, 4, 0x10000, 1, 0x0, 0x0, 0x0, 0x0, 0xffffffff, 0x0, 0, 1⟩,
  ⟨"BRG_SCANNED_LO", 0x800018, 4, 0x10000, 1, 0x0, 0x0, 0x0, 0x0, 0x0, 0x0, 0, 2⟩,
  ⟨"BRG_SCANNED_HI", 0x80001c, 4, 0x10000, 1, 0x0, 0x0, 0x0, 0x0, 0x0, 0x0, 1, 2⟩,
  ⟨"BRG_HOSTQ", 0x800100, 4, 0x10000, 80, 0x4, 0x0, 0xffffffff, 0x0, 0x0, 0x0, 0, 1⟩,
  ⟨"BRG_HOSTQ_GO", 0x800240, 4, 0x10000, 1, 0x0, 0x0, 0x0, 0x0, 0x0, 0x1, 0, 1⟩]

/-- The registers of the block of the management space that holds an offset (Table 2.7); reserved ranges hold none. -/
def regBlock (off : Nat) : List RegDesc :=
  if off < 0x10000 then RegTable.aon
  else if off < 0x20000 then RegTable.pkc
  else if off < 0x30000 then RegTable.cht
  else if off < 0x40000 then RegTable.flt
  else if off < 0x50000 then RegTable.pwr
  else if off < 0x60000 then RegTable.thr
  else if off < 0x70000 then RegTable.csu
  else if off < 0x80000 then RegTable.dbg
  else if off < 0x90000 then RegTable.upd
  else if off < 0x100000 then []
  else if off < 0x200000 then RegTable.fab
  else if off < 0x400000 then []
  else if off < 0x4C0000 then RegTable.core
  else if off < 0x800000 then []
  else RegTable.brg

/-- Whether an offset is one of the registers a line of the map describes. -/
def RegDesc.covers (d : RegDesc) (off : Nat) : Bool :=
  d.base ≤ off &&
    (let r := off - d.base
     let i := if d.s1 = 0 then 0 else r / d.s1
     let q := if d.s1 = 0 then r else r % d.s1
     let j := if d.s2 = 0 then 0 else q / d.s2
     let z := if d.s2 = 0 then q else q % d.s2
     i < d.n1 && j < d.n2 && z == 0)

/-- The line of the map that describes an offset; none means a reserved range or an offset no description names (R62). -/
def findReg (off : Nat) : Option RegDesc := (regBlock off).find? (·.covers off)

def R.AON_PKG_ADDR : Nat := 0x0
def F.AON_PKG_ADDR_ADDR : Fld := ⟨R.AON_PKG_ADDR, 0, 16⟩
def R.AON_PKG_INCARNATION : Nat := 0x4
def F.AON_PKG_INCARNATION_INCARNATION : Fld := ⟨R.AON_PKG_INCARNATION, 0, 8⟩
def R.AON_CLK_CTRL : Nat := 0x10
def F.AON_CLK_CTRL_FORCE : Fld := ⟨R.AON_CLK_CTRL, 1, 1⟩
def F.AON_CLK_CTRL_PREFER : Fld := ⟨R.AON_CLK_CTRL, 0, 1⟩
def R.AON_CLK_STATUS : Nat := 0x14
def F.AON_CLK_STATUS_SWITCHES : Fld := ⟨R.AON_CLK_STATUS, 8, 8⟩
def F.AON_CLK_STATUS_HOLDOVER : Fld := ⟨R.AON_CLK_STATUS, 3, 1⟩
def F.AON_CLK_STATUS_B_OK : Fld := ⟨R.AON_CLK_STATUS, 2, 1⟩
def F.AON_CLK_STATUS_A_OK : Fld := ⟨R.AON_CLK_STATUS, 1, 1⟩
def F.AON_CLK_STATUS_ACTIVE : Fld := ⟨R.AON_CLK_STATUS, 0, 1⟩
def R.AON_TIME_LO : Nat := 0x20
def F.AON_TIME_LO_TIME : Fld := ⟨R.AON_TIME_LO, 0, 32⟩
def R.AON_TIME_HI : Nat := 0x24
def F.AON_TIME_HI_TIME : Fld := ⟨R.AON_TIME_HI, 0, 32⟩
def R.AON_TIME_STATUS : Nat := 0x28
def F.AON_TIME_STATUS_OFFSET : Fld := ⟨R.AON_TIME_STATUS, 16, 16⟩
def F.AON_TIME_STATUS_SLEWING : Fld := ⟨R.AON_TIME_STATUS, 2, 1⟩
def F.AON_TIME_STATUS_REFINED : Fld := ⟨R.AON_TIME_STATUS, 1, 1⟩
def F.AON_TIME_STATUS_LOADED : Fld := ⟨R.AON_TIME_STATUS, 0, 1⟩
def R.AON_TIME_LOAD_LO : Nat := 0x30
def F.AON_TIME_LOAD_LO_LOAD : Fld := ⟨R.AON_TIME_LOAD_LO, 0, 32⟩
def R.AON_TIME_LOAD_HI : Nat := 0x34
def F.AON_TIME_LOAD_HI_LOAD : Fld := ⟨R.AON_TIME_LOAD_HI, 0, 32⟩
def R.AON_PKG_STATE : Nat := 0x40
def F.AON_PKG_STATE_PREWAKE_DUE : Fld := ⟨R.AON_PKG_STATE, 10, 1⟩
def F.AON_PKG_STATE_LINKS_PARKED : Fld := ⟨R.AON_PKG_STATE, 9, 1⟩
def F.AON_PKG_STATE_S_FURLED : Fld := ⟨R.AON_PKG_STATE, 8, 1⟩
def F.AON_PKG_STATE_C_FURLED : Fld := ⟨R.AON_PKG_STATE, 4, 4⟩
def F.AON_PKG_STATE_PKG : Fld := ⟨R.AON_PKG_STATE, 0, 2⟩
def R.AON_WAKE_CAUSE : Nat := 0x44
def F.AON_WAKE_CAUSE_PORT : Fld := ⟨R.AON_WAKE_CAUSE, 24, 5⟩
def F.AON_WAKE_CAUSE_CAUSE : Fld := ⟨R.AON_WAKE_CAUSE, 0, 8⟩
def R.AON_PREWAKE_AT_LO : Nat := 0x50
def F.AON_PREWAKE_AT_LO_AT : Fld := ⟨R.AON_PREWAKE_AT_LO, 0, 32⟩
def R.AON_PREWAKE_AT_HI : Nat := 0x54
def F.AON_PREWAKE_AT_HI_AT : Fld := ⟨R.AON_PREWAKE_AT_HI, 0, 32⟩
def R.AON_PREWAKE_CTRL : Nat := 0x58
def F.AON_PREWAKE_CTRL_CANCEL : Fld := ⟨R.AON_PREWAKE_CTRL, 25, 1⟩
def F.AON_PREWAKE_CTRL_FULL : Fld := ⟨R.AON_PREWAKE_CTRL, 24, 1⟩
def F.AON_PREWAKE_CTRL_LINGER : Fld := ⟨R.AON_PREWAKE_CTRL, 16, 8⟩
def F.AON_PREWAKE_CTRL_USED : Fld := ⟨R.AON_PREWAKE_CTRL, 10, 4⟩
def F.AON_PREWAKE_CTRL_ARM : Fld := ⟨R.AON_PREWAKE_CTRL, 8, 1⟩
def F.AON_PREWAKE_CTRL_CORE : Fld := ⟨R.AON_PREWAKE_CTRL, 0, 8⟩
def R.AON_PDOM_POLICY : Nat := 0x100
def F.AON_PDOM_POLICY_SAVE : Fld := ⟨R.AON_PDOM_POLICY, 28, 1⟩
def F.AON_PDOM_POLICY_MOOR_AFTER : Fld := ⟨R.AON_PDOM_POLICY, 20, 8⟩
def F.AON_PDOM_POLICY_FURL_AFTER : Fld := ⟨R.AON_PDOM_POLICY, 16, 4⟩
def F.AON_PDOM_POLICY_DOZE_AFTER : Fld := ⟨R.AON_PDOM_POLICY, 8, 8⟩
def F.AON_PDOM_POLICY_NAP_AFTER : Fld := ⟨R.AON_PDOM_POLICY, 0, 8⟩
def R.AON_DOMAIN_ON (i : Nat) : Nat := 0x200 + 0x4 * i
def F.AON_DOMAIN_ON_ON (i : Nat) : Fld := ⟨R.AON_DOMAIN_ON i, 0, 32⟩
def R.PKC_LEND_POOL : Nat := 0x10100
def F.PKC_LEND_POOL_USED_GIB : Fld := ⟨R.PKC_LEND_POOL, 16, 9⟩
def F.PKC_LEND_POOL_POOL_GIB : Fld := ⟨R.PKC_LEND_POOL, 0, 9⟩
def R.PKC_HOST_SPILL_BASE_LO : Nat := 0x10110
def F.PKC_HOST_SPILL_BASE_LO_BASE : Fld := ⟨R.PKC_HOST_SPILL_BASE_LO, 0, 32⟩
def R.PKC_HOST_SPILL_BASE_HI : Nat := 0x10114
def F.PKC_HOST_SPILL_BASE_HI_BASE : Fld := ⟨R.PKC_HOST_SPILL_BASE_HI, 0, 32⟩
def R.PKC_HOST_SPILL_LEN : Nat := 0x10118
def F.PKC_HOST_SPILL_LEN_PAGES : Fld := ⟨R.PKC_HOST_SPILL_LEN, 0, 32⟩
def R.CHT_ACTIVE_EPOCH : Nat := 0x20000
def F.CHT_ACTIVE_EPOCH_EPOCH : Fld := ⟨R.CHT_ACTIVE_EPOCH, 0, 32⟩
def R.CHT_SHADOW_EPOCH : Nat := 0x20004
def F.CHT_SHADOW_EPOCH_EPOCH : Fld := ⟨R.CHT_SHADOW_EPOCH, 0, 32⟩
def R.CHT_SLOT_STATUS : Nat := 0x20008
def F.CHT_SLOT_STATUS_LOAD_REFUSED : Fld := ⟨R.CHT_SLOT_STATUS, 16, 1⟩
def F.CHT_SLOT_STATUS_CODE : Fld := ⟨R.CHT_SLOT_STATUS, 8, 8⟩
def F.CHT_SLOT_STATUS_STAMP : Fld := ⟨R.CHT_SLOT_STATUS, 7, 1⟩
def F.CHT_SLOT_STATUS_SHADOW_STATE : Fld := ⟨R.CHT_SLOT_STATUS, 4, 3⟩
def F.CHT_SLOT_STATUS_ACTIVE_STATE : Fld := ⟨R.CHT_SLOT_STATUS, 0, 2⟩
def R.CHT_FAULT_WHERE : Nat := 0x2000c
def F.CHT_FAULT_WHERE_SECTION : Fld := ⟨R.CHT_FAULT_WHERE, 28, 4⟩
def F.CHT_FAULT_WHERE_OFFSET : Fld := ⟨R.CHT_FAULT_WHERE, 0, 24⟩
def R.CHT_LOAD_CTRL : Nat := 0x20010
def F.CHT_LOAD_CTRL_CANCEL : Fld := ⟨R.CHT_LOAD_CTRL, 2, 1⟩
def F.CHT_LOAD_CTRL_BEGIN_DMA : Fld := ⟨R.CHT_LOAD_CTRL, 1, 1⟩
def F.CHT_LOAD_CTRL_BEGIN_PORT : Fld := ⟨R.CHT_LOAD_CTRL, 0, 1⟩
def R.CHT_LOAD_DATA : Nat := 0x20014
def F.CHT_LOAD_DATA_DATA : Fld := ⟨R.CHT_LOAD_DATA, 0, 32⟩
def R.CHT_LOAD_LEN : Nat := 0x20018
def F.CHT_LOAD_LEN_LEN : Fld := ⟨R.CHT_LOAD_LEN, 0, 23⟩
def R.CHT_LOAD_SRC_LO : Nat := 0x20020
def F.CHT_LOAD_SRC_LO_SRC : Fld := ⟨R.CHT_LOAD_SRC_LO, 0, 32⟩
def R.CHT_LOAD_SRC_HI : Nat := 0x20024
def F.CHT_LOAD_SRC_HI_SRC : Fld := ⟨R.CHT_LOAD_SRC_HI, 0, 32⟩
def R.CHT_TURN_AT_LO : Nat := 0x20030
def F.CHT_TURN_AT_LO_T0 : Fld := ⟨R.CHT_TURN_AT_LO, 0, 32⟩
def R.CHT_TURN_AT_HI : Nat := 0x20034
def F.CHT_TURN_AT_HI_T0 : Fld := ⟨R.CHT_TURN_AT_HI, 0, 32⟩
def R.CHT_TURN_EPOCH : Nat := 0x20038
def F.CHT_TURN_EPOCH_EPOCH : Fld := ⟨R.CHT_TURN_EPOCH, 0, 32⟩
def R.CHT_TURN_LEASE : Nat := 0x2003c
def F.CHT_TURN_LEASE_LEASE : Fld := ⟨R.CHT_TURN_LEASE, 0, 32⟩
def R.CHT_TURN_CTRL : Nat := 0x20040
def F.CHT_TURN_CTRL_ABORT : Fld := ⟨R.CHT_TURN_CTRL, 1, 1⟩
def F.CHT_TURN_CTRL_GO : Fld := ⟨R.CHT_TURN_CTRL, 0, 1⟩
def R.CHT_TURN_STATUS : Nat := 0x20044
def F.CHT_TURN_STATUS_RESULT : Fld := ⟨R.CHT_TURN_STATUS, 28, 3⟩
def F.CHT_TURN_STATUS_OWN_STATE : Fld := ⟨R.CHT_TURN_STATUS, 24, 4⟩
def F.CHT_TURN_STATUS_OWN_REGION : Fld := ⟨R.CHT_TURN_STATUS, 16, 8⟩
def F.CHT_TURN_STATUS_CUR_REGION : Fld := ⟨R.CHT_TURN_STATUS, 8, 8⟩
def F.CHT_TURN_STATUS_PHASE : Fld := ⟨R.CHT_TURN_STATUS, 0, 3⟩
def R.CHT_TURN_CAUSE : Nat := 0x20048
def F.CHT_TURN_CAUSE_CAUSE_REGION : Fld := ⟨R.CHT_TURN_CAUSE, 8, 8⟩
def F.CHT_TURN_CAUSE_CAUSE : Fld := ⟨R.CHT_TURN_CAUSE, 0, 4⟩
def R.CHT_OLD_OUT : Nat := 0x2004c
def F.CHT_OLD_OUT_COUNT : Fld := ⟨R.CHT_OLD_OUT, 0, 16⟩
def R.FLT_CFG : Nat := 0x30000
def F.FLT_CFG_CE_RATE : Fld := ⟨R.FLT_CFG, 16, 8⟩
def F.FLT_CFG_FT_GRACE : Fld := ⟨R.FLT_CFG, 8, 5⟩
def F.FLT_CFG_UC_GRACE : Fld := ⟨R.FLT_CFG, 0, 8⟩
def R.FLT_STATUS : Nat := 0x30004
def F.FLT_STATUS_REJECT : Fld := ⟨R.FLT_STATUS, 31, 1⟩
def F.FLT_STATUS_LATE : Fld := ⟨R.FLT_STATUS, 30, 1⟩
def F.FLT_STATUS_LOG_FAIL : Fld := ⟨R.FLT_STATUS, 29, 1⟩
def F.FLT_STATUS_FENCED : Fld := ⟨R.FLT_STATUS, 28, 1⟩
def F.FLT_STATUS_PENDING : Fld := ⟨R.FLT_STATUS, 16, 5⟩
def F.FLT_STATUS_QUARANTINED : Fld := ⟨R.FLT_STATUS, 0, 8⟩
def R.FLT_COUNTS : Nat := 0x30008
def F.FLT_COUNTS_CE : Fld := ⟨R.FLT_COUNTS, 16, 16⟩
def F.FLT_COUNTS_UC : Fld := ⟨R.FLT_COUNTS, 8, 8⟩
def F.FLT_COUNTS_FT : Fld := ⟨R.FLT_COUNTS, 0, 8⟩
def R.FLT_DROPS : Nat := 0x3000c
def F.FLT_DROPS_LOG_DROPPED : Fld := ⟨R.FLT_DROPS, 24, 8⟩
def F.FLT_DROPS_LOST_UNMIRRORED : Fld := ⟨R.FLT_DROPS, 16, 8⟩
def F.FLT_DROPS_MGMT_SINK : Fld := ⟨R.FLT_DROPS, 0, 16⟩
def R.FLT_HANDLE : Nat := 0x30010
def F.FLT_HANDLE_VERDICT : Fld := ⟨R.FLT_HANDLE, 8, 2⟩
def F.FLT_HANDLE_SLOT : Fld := ⟨R.FLT_HANDLE, 0, 4⟩
def R.FLT_LOG_SEL : Nat := 0x30020
def F.FLT_LOG_SEL_SLOT : Fld := ⟨R.FLT_LOG_SEL, 0, 12⟩
def R.FLT_LOG_HEAD : Nat := 0x30024
def F.FLT_LOG_HEAD_SEQ : Fld := ⟨R.FLT_LOG_HEAD, 0, 32⟩
def R.FLT_MIRRORED : Nat := 0x30028
def F.FLT_MIRRORED_SEQ : Fld := ⟨R.FLT_MIRRORED, 0, 32⟩
def R.FLT_BOOT : Nat := 0x3002c
def F.FLT_BOOT_BOOT : Fld := ⟨R.FLT_BOOT, 0, 16⟩
def R.FLT_LOG_DATA (i : Nat) : Nat := 0x30040 + 0x4 * i
def F.FLT_LOG_DATA_WORD (i : Nat) : Fld := ⟨R.FLT_LOG_DATA i, 0, 32⟩
def R.FLT_PEND (i : Nat) : Nat := 0x30100 + 0x8 * i
def F.FLT_PEND_VALID (i : Nat) : Fld := ⟨R.FLT_PEND i, 31, 1⟩
def F.FLT_PEND_CLASS (i : Nat) : Fld := ⟨R.FLT_PEND i, 29, 2⟩
def F.FLT_PEND_DETECTOR (i : Nat) : Fld := ⟨R.FLT_PEND i, 16, 12⟩
def F.FLT_PEND_UNIT (i : Nat) : Fld := ⟨R.FLT_PEND i, 0, 8⟩
def R.FLT_PEND_SEQ (i : Nat) : Nat := 0x30104 + 0x8 * i
def F.FLT_PEND_SEQ_SEQ (i : Nat) : Fld := ⟨R.FLT_PEND_SEQ i, 0, 32⟩
def R.FLT_LW (i : Nat) : Nat := 0x30200 + 0x4 * i
def F.FLT_LW_WORD (i : Nat) : Fld := ⟨R.FLT_LW i, 0, 32⟩
def R.FLT_LW_STATUS : Nat := 0x30220
def F.FLT_LW_STATUS_OVERRUN : Fld := ⟨R.FLT_LW_STATUS, 8, 8⟩
def F.FLT_LW_STATUS_USED : Fld := ⟨R.FLT_LW_STATUS, 0, 4⟩
def R.FLT_LW_CLEAR : Nat := 0x30224
def F.FLT_LW_CLEAR_CLEAR : Fld := ⟨R.FLT_LW_CLEAR, 0, 1⟩
def R.FLT_QUAR (i : Nat) : Nat := 0x30300 + 0x4 * i
def F.FLT_QUAR_QUAR (i : Nat) : Fld := ⟨R.FLT_QUAR i, 0, 32⟩
def R.FLT_RELEASE : Nat := 0x30320
def F.FLT_RELEASE_GO : Fld := ⟨R.FLT_RELEASE, 8, 1⟩
def F.FLT_RELEASE_UNIT : Fld := ⟨R.FLT_RELEASE, 0, 8⟩
def R.FLT_UNIT (i : Nat) : Nat := 0x30400 + 0x4 * i
def F.FLT_UNIT_STATE (i : Nat) : Fld := ⟨R.FLT_UNIT i, 16, 3⟩
def F.FLT_UNIT_RECOVERIES (i : Nat) : Fld := ⟨R.FLT_UNIT i, 0, 3⟩
def R.PWR_LADDER_CAP : Nat := 0x40000
def F.PWR_LADDER_CAP_CAP : Fld := ⟨R.PWR_LADDER_CAP, 0, 11⟩
def R.PWR_HOST_CAP : Nat := 0x40004
def F.PWR_HOST_CAP_CAP : Fld := ⟨R.PWR_HOST_CAP, 0, 11⟩
def R.PWR_CAP_STATUS : Nat := 0x40008
def F.PWR_CAP_STATUS_REJECT : Fld := ⟨R.PWR_CAP_STATUS, 31, 1⟩
def F.PWR_CAP_STATUS_UNMET : Fld := ⟨R.PWR_CAP_STATUS, 17, 1⟩
def F.PWR_CAP_STATUS_BRAKED : Fld := ⟨R.PWR_CAP_STATUS, 16, 1⟩
def F.PWR_CAP_STATUS_LIMITER : Fld := ⟨R.PWR_CAP_STATUS, 12, 3⟩
def F.PWR_CAP_STATUS_EFFECTIVE : Fld := ⟨R.PWR_CAP_STATUS, 0, 11⟩
def R.PWR_DRAW : Nat := 0x4000c
def F.PWR_DRAW_UNCORE_W : Fld := ⟨R.PWR_DRAW, 16, 12⟩
def F.PWR_DRAW_DRAW_W : Fld := ⟨R.PWR_DRAW, 0, 12⟩
def R.PWR_ENERGY_LO : Nat := 0x40010
def F.PWR_ENERGY_LO_ENERGY : Fld := ⟨R.PWR_ENERGY_LO, 0, 32⟩
def R.PWR_ENERGY_HI : Nat := 0x40014
def F.PWR_ENERGY_HI_ENERGY : Fld := ⟨R.PWR_ENERGY_HI, 0, 32⟩
def R.PWR_TILE_STATE (i : Nat) : Nat := 0x40020 + 0x4 * i
def F.PWR_TILE_STATE_POINT (i : Nat) : Fld := ⟨R.PWR_TILE_STATE i, 24, 3⟩
def F.PWR_TILE_STATE_BUDGET_W (i : Nat) : Fld := ⟨R.PWR_TILE_STATE i, 16, 8⟩
def F.PWR_TILE_STATE_LIMIT_W (i : Nat) : Fld := ⟨R.PWR_TILE_STATE i, 8, 8⟩
def F.PWR_TILE_STATE_RATE (i : Nat) : Fld := ⟨R.PWR_TILE_STATE i, 0, 7⟩
def R.PWR_BRAKE : Nat := 0x40040
def F.PWR_BRAKE_RAMPING : Fld := ⟨R.PWR_BRAKE, 17, 1⟩
def F.PWR_BRAKE_LINE : Fld := ⟨R.PWR_BRAKE, 16, 1⟩
def F.PWR_BRAKE_DEFAULT : Fld := ⟨R.PWR_BRAKE, 8, 1⟩
def F.PWR_BRAKE_RATE : Fld := ⟨R.PWR_BRAKE, 0, 7⟩
def R.PWR_DROOP_CFG : Nat := 0x40044
def F.PWR_DROOP_CFG_DROOP_MV : Fld := ⟨R.PWR_DROOP_CFG, 0, 6⟩
def R.PWR_EVENTS : Nat := 0x40048
def F.PWR_EVENTS_BRAKES : Fld := ⟨R.PWR_EVENTS, 24, 8⟩
def F.PWR_EVENTS_DROOPS : Fld := ⟨R.PWR_EVENTS, 8, 16⟩
def F.PWR_EVENTS_UNMET : Fld := ⟨R.PWR_EVENTS, 0, 8⟩
def R.PWR_GUARD (i : Nat) : Nat := 0x40060 + 0x4 * i
def F.PWR_GUARD_MARGIN_MV (i : Nat) : Fld := ⟨R.PWR_GUARD i, 8, 8⟩
def F.PWR_GUARD_GUARD_MV (i : Nat) : Fld := ⟨R.PWR_GUARD i, 0, 6⟩
def R.PWR_AGE_HOURS : Nat := 0x40080
def F.PWR_AGE_HOURS_HOURS : Fld := ⟨R.PWR_AGE_HOURS, 0, 20⟩
def R.THR_RESIST_EST : Nat := 0x50000
def F.THR_RESIST_EST_SEEDED : Fld := ⟨R.THR_RESIST_EST, 16, 1⟩
def F.THR_RESIST_EST_EST : Fld := ⟨R.THR_RESIST_EST, 0, 16⟩
def R.THR_RESIST_CFG : Nat := 0x50004
def F.THR_RESIST_CFG_ALARM : Fld := ⟨R.THR_RESIST_CFG, 16, 16⟩
def F.THR_RESIST_CFG_PROBE_IDLE : Fld := ⟨R.THR_RESIST_CFG, 8, 8⟩
def F.THR_RESIST_CFG_PROBE_EN : Fld := ⟨R.THR_RESIST_CFG, 0, 1⟩
def R.THR_COOLANT : Nat := 0x50008
def F.THR_COOLANT_AGE : Fld := ⟨R.THR_COOLANT, 16, 12⟩
def F.THR_COOLANT_STALE : Fld := ⟨R.THR_COOLANT, 15, 1⟩
def F.THR_COOLANT_TEMP : Fld := ⟨R.THR_COOLANT, 0, 12⟩
def R.THR_CAP : Nat := 0x5000c
def F.THR_CAP_RAW : Fld := ⟨R.THR_CAP, 16, 12⟩
def F.THR_CAP_CAP : Fld := ⟨R.THR_CAP, 0, 11⟩
def R.THR_FORECAST : Nat := 0x50010
def F.THR_FORECAST_PEAK : Fld := ⟨R.THR_FORECAST, 16, 16⟩
def F.THR_FORECAST_NODE : Fld := ⟨R.THR_FORECAST, 8, 8⟩
def F.THR_FORECAST_STEP : Fld := ⟨R.THR_FORECAST, 0, 4⟩
def R.THR_FRATE : Nat := 0x50014
def R.THR_ALARM : Nat := 0x50018
def F.THR_ALARM_LIVE : Fld := ⟨R.THR_ALARM, 16, 5⟩
def F.THR_ALARM_SEEN : Fld := ⟨R.THR_ALARM, 0, 7⟩
def R.THR_EVENTS : Nat := 0x5001c
def F.THR_EVENTS_PROBES : Fld := ⟨R.THR_EVENTS, 24, 8⟩
def F.THR_EVENTS_STEPS : Fld := ⟨R.THR_EVENTS, 16, 8⟩
def F.THR_EVENTS_THROTTLES : Fld := ⟨R.THR_EVENTS, 8, 8⟩
def F.THR_EVENTS_ROTA_SKIPS : Fld := ⟨R.THR_EVENTS, 0, 8⟩
def R.THR_HEAD_W (i : Nat) : Nat := 0x50020 + 0x4 * i
def F.THR_HEAD_W_WORD (i : Nat) : Fld := ⟨R.THR_HEAD_W i, 0, 32⟩
def R.THR_HEAD_W3 : Nat := 0x5002c
def F.THR_HEAD_W3_WORD : Fld := ⟨R.THR_HEAD_W3, 0, 32⟩
def R.THR_HEAD_STATUS : Nat := 0x50030
def F.THR_HEAD_STATUS_USED : Fld := ⟨R.THR_HEAD_STATUS, 0, 6⟩
def R.THR_SEA_TRIAL : Nat := 0x50034
def F.THR_SEA_TRIAL_ACTIVE : Fld := ⟨R.THR_SEA_TRIAL, 31, 1⟩
def F.THR_SEA_TRIAL_FUSED : Fld := ⟨R.THR_SEA_TRIAL, 16, 12⟩
def F.THR_SEA_TRIAL_LOAD_MS : Fld := ⟨R.THR_SEA_TRIAL, 0, 16⟩
def R.THR_NODE (i : Nat) : Nat := 0x50100 + 0x4 * i
def F.THR_NODE_PRED (i : Nat) : Fld := ⟨R.THR_NODE i, 16, 16⟩
def F.THR_NODE_MEAS (i : Nat) : Fld := ⟨R.THR_NODE i, 0, 16⟩
def R.THR_ROTA (i : Nat) : Nat := 0x50200 + 0x4 * i
def F.THR_ROTA_INTERVAL (i : Nat) : Fld := ⟨R.THR_ROTA i, 16, 16⟩
def F.THR_ROTA_SHIFT (i : Nat) : Fld := ⟨R.THR_ROTA i, 8, 8⟩
def F.THR_ROTA_ACTIVE (i : Nat) : Fld := ⟨R.THR_ROTA i, 7, 1⟩
def F.THR_ROTA_MEMBERS (i : Nat) : Fld := ⟨R.THR_ROTA i, 0, 7⟩
def R.CSU_CTRL (i : Nat) : Nat := 0x60000 + 0x100 * i
def F.CSU_CTRL_CORE (i : Nat) : Fld := ⟨R.CSU_CTRL i, 16, 8⟩
def F.CSU_CTRL_SPACE (i : Nat) : Fld := ⟨R.CSU_CTRL i, 12, 4⟩
def F.CSU_CTRL_MODE (i : Nat) : Fld := ⟨R.CSU_CTRL i, 8, 2⟩
def F.CSU_CTRL_IRQ (i : Nat) : Fld := ⟨R.CSU_CTRL i, 7, 1⟩
def F.CSU_CTRL_ALG (i : Nat) : Fld := ⟨R.CSU_CTRL i, 6, 1⟩
def F.CSU_CTRL_FINISH (i : Nat) : Fld := ⟨R.CSU_CTRL i, 2, 1⟩
def F.CSU_CTRL_ABORT (i : Nat) : Fld := ⟨R.CSU_CTRL i, 1, 1⟩
def F.CSU_CTRL_START (i : Nat) : Fld := ⟨R.CSU_CTRL i, 0, 1⟩
def R.CSU_STATUS (i : Nat) : Nat := 0x60004 + 0x100 * i
def F.CSU_STATUS_VALID (i : Nat) : Fld := ⟨R.CSU_STATUS i, 16, 1⟩
def F.CSU_STATUS_CODE (i : Nat) : Fld := ⟨R.CSU_STATUS i, 8, 4⟩
def F.CSU_STATUS_STATE (i : Nat) : Fld := ⟨R.CSU_STATUS i, 0, 3⟩
def R.CSU_ADDR_LO (i : Nat) : Nat := 0x60008 + 0x100 * i
def F.CSU_ADDR_LO_ADDR (i : Nat) : Fld := ⟨R.CSU_ADDR_LO i, 0, 32⟩
def R.CSU_ADDR_HI (i : Nat) : Nat := 0x6000c + 0x100 * i
def F.CSU_ADDR_HI_ADDR (i : Nat) : Fld := ⟨R.CSU_ADDR_HI i, 0, 32⟩
def R.CSU_LEN_LO (i : Nat) : Nat := 0x60010 + 0x100 * i
def F.CSU_LEN_LO_LEN (i : Nat) : Fld := ⟨R.CSU_LEN_LO i, 0, 32⟩
def R.CSU_LEN_HI (i : Nat) : Nat := 0x60014 + 0x100 * i
def F.CSU_LEN_HI_LEN (i : Nat) : Fld := ⟨R.CSU_LEN_HI i, 0, 32⟩
def R.CSU_RESULT_LO (i : Nat) : Nat := 0x60018 + 0x100 * i
def F.CSU_RESULT_LO_RESULT (i : Nat) : Fld := ⟨R.CSU_RESULT_LO i, 0, 32⟩
def R.CSU_RESULT_HI (i : Nat) : Nat := 0x6001c + 0x100 * i
def F.CSU_RESULT_HI_RESULT (i : Nat) : Fld := ⟨R.CSU_RESULT_HI i, 0, 32⟩
def R.CSU_PROGRESS_LO (i : Nat) : Nat := 0x60020 + 0x100 * i
def F.CSU_PROGRESS_LO_PROGRESS (i : Nat) : Fld := ⟨R.CSU_PROGRESS_LO i, 0, 32⟩
def R.CSU_PROGRESS_HI (i : Nat) : Nat := 0x60024 + 0x100 * i
def F.CSU_PROGRESS_HI_PROGRESS (i : Nat) : Fld := ⟨R.CSU_PROGRESS_HI i, 0, 32⟩
def R.CSU_STREAM (i : Nat) : Nat := 0x60028 + 0x100 * i
def F.CSU_STREAM_TAG (i : Nat) : Fld := ⟨R.CSU_STREAM i, 16, 16⟩
def F.CSU_STREAM_NEXT (i : Nat) : Fld := ⟨R.CSU_STREAM i, 8, 8⟩
def F.CSU_STREAM_FIRST (i : Nat) : Fld := ⟨R.CSU_STREAM i, 0, 8⟩
def R.CSU_EVENTS (i : Nat) : Nat := 0x6002c + 0x100 * i
def F.CSU_EVENTS_FOREIGN (i : Nat) : Fld := ⟨R.CSU_EVENTS i, 24, 8⟩
def F.CSU_EVENTS_REPEATS (i : Nat) : Fld := ⟨R.CSU_EVENTS i, 16, 8⟩
def F.CSU_EVENTS_CORRECTED (i : Nat) : Fld := ⟨R.CSU_EVENTS i, 0, 16⟩
def R.DBG_STATUS : Nat := 0x70000
def F.DBG_STATUS_REJECT : Fld := ⟨R.DBG_STATUS, 31, 1⟩
def F.DBG_STATUS_HALTED : Fld := ⟨R.DBG_STATUS, 8, 9⟩
def F.DBG_STATUS_OVERRIDE : Fld := ⟨R.DBG_STATUS, 0, 1⟩
def R.DBG_ROUTE_OVR (i : Nat) : Nat := 0x70100 + 0x4 * i
def F.DBG_ROUTE_OVR_VALID (i : Nat) : Fld := ⟨R.DBG_ROUTE_OVR i, 31, 1⟩
def F.DBG_ROUTE_OVR_CLASS (i : Nat) : Fld := ⟨R.DBG_ROUTE_OVR i, 28, 3⟩
def F.DBG_ROUTE_OVR_DST_RACK (i : Nat) : Fld := ⟨R.DBG_ROUTE_OVR i, 20, 8⟩
def F.DBG_ROUTE_OVR_DST_INDEX (i : Nat) : Fld := ⟨R.DBG_ROUTE_OVR i, 12, 8⟩
def F.DBG_ROUTE_OVR_PORT (i : Nat) : Fld := ⟨R.DBG_ROUTE_OVR i, 0, 9⟩
def R.DBG_TRACE_CTRL (i : Nat) : Nat := 0x70200 + 0x80 * i
def F.DBG_TRACE_CTRL_CLEAR (i : Nat) : Fld := ⟨R.DBG_TRACE_CTRL i, 2, 1⟩
def F.DBG_TRACE_CTRL_RING (i : Nat) : Fld := ⟨R.DBG_TRACE_CTRL i, 1, 1⟩
def F.DBG_TRACE_CTRL_ENABLE (i : Nat) : Fld := ⟨R.DBG_TRACE_CTRL i, 0, 1⟩
def R.DBG_TRACE_PORTS (i : Nat) : Nat := 0x70204 + 0x80 * i
def F.DBG_TRACE_PORTS_OUT (i : Nat) : Fld := ⟨R.DBG_TRACE_PORTS i, 25, 1⟩
def F.DBG_TRACE_PORTS_IN (i : Nat) : Fld := ⟨R.DBG_TRACE_PORTS i, 24, 1⟩
def F.DBG_TRACE_PORTS_BRIDGES (i : Nat) : Fld := ⟨R.DBG_TRACE_PORTS i, 12, 7⟩
def F.DBG_TRACE_PORTS_PORTS (i : Nat) : Fld := ⟨R.DBG_TRACE_PORTS i, 0, 12⟩
def R.DBG_TRACE_MATCH (i : Nat) : Nat := 0x70208 + 0x80 * i
def F.DBG_TRACE_MATCH_OPCODE (i : Nat) : Fld := ⟨R.DBG_TRACE_MATCH i, 24, 8⟩
def F.DBG_TRACE_MATCH_CLASS (i : Nat) : Fld := ⟨R.DBG_TRACE_MATCH i, 20, 3⟩
def F.DBG_TRACE_MATCH_DST (i : Nat) : Fld := ⟨R.DBG_TRACE_MATCH i, 0, 16⟩
def R.DBG_TRACE_STATUS (i : Nat) : Nat := 0x7020c + 0x80 * i
def F.DBG_TRACE_STATUS_MISSED (i : Nat) : Fld := ⟨R.DBG_TRACE_STATUS i, 16, 16⟩
def F.DBG_TRACE_STATUS_FULL (i : Nat) : Fld := ⟨R.DBG_TRACE_STATUS i, 15, 1⟩
def F.DBG_TRACE_STATUS_COUNT (i : Nat) : Fld := ⟨R.DBG_TRACE_STATUS i, 0, 11⟩
def R.DBG_TRACE_SEL (i : Nat) : Nat := 0x70210 + 0x80 * i
def F.DBG_TRACE_SEL_SLOT (i : Nat) : Fld := ⟨R.DBG_TRACE_SEL i, 0, 10⟩
def R.DBG_TRACE_DATA (i j : Nat) : Nat := 0x70240 + 0x80 * i + 0x4 * j
def F.DBG_TRACE_DATA_WORD (i j : Nat) : Fld := ⟨R.DBG_TRACE_DATA i j, 0, 32⟩
def R.UPD_STATUS : Nat := 0x80000
def F.UPD_STATUS_FAIL : Fld := ⟨R.UPD_STATUS, 16, 8⟩
def F.UPD_STATUS_STAGE : Fld := ⟨R.UPD_STATUS, 8, 4⟩
def F.UPD_STATUS_LIFEBOAT : Fld := ⟨R.UPD_STATUS, 5, 1⟩
def F.UPD_STATUS_PAUSED : Fld := ⟨R.UPD_STATUS, 4, 1⟩
def F.UPD_STATUS_BANK_VALID : Fld := ⟨R.UPD_STATUS, 2, 2⟩
def F.UPD_STATUS_ACTIVE_BANK : Fld := ⟨R.UPD_STATUS, 0, 1⟩
def R.UPD_ACTIVE_VERSION_LO : Nat := 0x80008
def F.UPD_ACTIVE_VERSION_LO_VERSION : Fld := ⟨R.UPD_ACTIVE_VERSION_LO, 0, 32⟩
def R.UPD_ACTIVE_VERSION_HI : Nat := 0x8000c
def F.UPD_ACTIVE_VERSION_HI_VERSION : Fld := ⟨R.UPD_ACTIVE_VERSION_HI, 0, 32⟩
def R.UPD_STAGED_VERSION_LO : Nat := 0x80010
def F.UPD_STAGED_VERSION_LO_VERSION : Fld := ⟨R.UPD_STAGED_VERSION_LO, 0, 32⟩
def R.UPD_STAGED_VERSION_HI : Nat := 0x80014
def F.UPD_STAGED_VERSION_HI_VERSION : Fld := ⟨R.UPD_STAGED_VERSION_HI, 0, 32⟩
def R.UPD_PUSH_CTRL : Nat := 0x80020
def F.UPD_PUSH_CTRL_BEGIN : Fld := ⟨R.UPD_PUSH_CTRL, 0, 1⟩
def R.UPD_PUSH_LEN : Nat := 0x80024
def F.UPD_PUSH_LEN_LEN : Fld := ⟨R.UPD_PUSH_LEN, 0, 24⟩
def R.UPD_PUSH_DATA : Nat := 0x80028
def F.UPD_PUSH_DATA_DATA : Fld := ⟨R.UPD_PUSH_DATA, 0, 32⟩
def R.UPD_KEY_STATUS : Nat := 0x80040
def F.UPD_KEY_STATUS_FW_PRESENT : Fld := ⟨R.UPD_KEY_STATUS, 4, 4⟩
def F.UPD_KEY_STATUS_CHART_PRESENT : Fld := ⟨R.UPD_KEY_STATUS, 0, 4⟩
def R.FAB_LINK_CFG (i : Nat) : Nat := 0x100000 + 0x80000 * i
def F.FAB_LINK_CFG_RETX_LIMIT (i : Nat) : Fld := ⟨R.FAB_LINK_CFG i, 28, 4⟩
def F.FAB_LINK_CFG_LIFETIME (i : Nat) : Fld := ⟨R.FAB_LINK_CFG i, 16, 8⟩
def F.FAB_LINK_CFG_RETX_TIME (i : Nat) : Fld := ⟨R.FAB_LINK_CFG i, 8, 8⟩
def F.FAB_LINK_CFG_REJECT (i : Nat) : Fld := ⟨R.FAB_LINK_CFG i, 7, 1⟩
def F.FAB_LINK_CFG_HOLD (i : Nat) : Fld := ⟨R.FAB_LINK_CFG i, 0, 5⟩
def R.FAB_TREE_CFG (i : Nat) : Nat := 0x100004 + 0x80000 * i
def F.FAB_TREE_CFG_WEIGHT_HOLD (i : Nat) : Fld := ⟨R.FAB_TREE_CFG i, 8, 8⟩
def F.FAB_TREE_CFG_MERGE_WAIT (i : Nat) : Fld := ⟨R.FAB_TREE_CFG i, 0, 8⟩
def R.FAB_WEIGHT_STATUS (i : Nat) : Nat := 0x100008 + 0x80000 * i
def F.FAB_WEIGHT_STATUS_STALE (i : Nat) : Fld := ⟨R.FAB_WEIGHT_STATUS i, 0, 1⟩
def R.FAB_DISCARD_A (i : Nat) : Nat := 0x100040 + 0x80000 * i
def F.FAB_DISCARD_A_HOLD_DROP (i : Nat) : Fld := ⟨R.FAB_DISCARD_A i, 24, 8⟩
def F.FAB_DISCARD_A_LIFETIME (i : Nat) : Fld := ⟨R.FAB_DISCARD_A i, 16, 8⟩
def F.FAB_DISCARD_A_EPOCH (i : Nat) : Fld := ⟨R.FAB_DISCARD_A i, 8, 8⟩
def F.FAB_DISCARD_A_STANDIN (i : Nat) : Fld := ⟨R.FAB_DISCARD_A i, 0, 8⟩
def R.FAB_DISCARD_B (i : Nat) : Nat := 0x100044 + 0x80000 * i
def F.FAB_DISCARD_B_NO_ENDPOINT (i : Nat) : Fld := ⟨R.FAB_DISCARD_B i, 24, 8⟩
def F.FAB_DISCARD_B_REORDER_FULL (i : Nat) : Fld := ⟨R.FAB_DISCARD_B i, 16, 8⟩
def F.FAB_DISCARD_B_STALE_FLOW (i : Nat) : Fld := ⟨R.FAB_DISCARD_B i, 8, 8⟩
def F.FAB_DISCARD_B_BAD_HEADER (i : Nat) : Fld := ⟨R.FAB_DISCARD_B i, 0, 8⟩
def R.FAB_FLOW_EVENTS (i : Nat) : Nat := 0x100048 + 0x80000 * i
def F.FAB_FLOW_EVENTS_RETRANSMITS (i : Nat) : Fld := ⟨R.FAB_FLOW_EVENTS i, 16, 16⟩
def F.FAB_FLOW_EVENTS_DUPLICATES (i : Nat) : Fld := ⟨R.FAB_FLOW_EVENTS i, 8, 8⟩
def F.FAB_FLOW_EVENTS_FLOW_RESETS (i : Nat) : Fld := ⟨R.FAB_FLOW_EVENTS i, 4, 4⟩
def F.FAB_FLOW_EVENTS_RESYNCS (i : Nat) : Fld := ⟨R.FAB_FLOW_EVENTS i, 0, 4⟩
def R.FAB_CAST_EVENTS (i : Nat) : Nat := 0x10004c + 0x80000 * i
def F.FAB_CAST_EVENTS_TALLY_LATE (i : Nat) : Fld := ⟨R.FAB_CAST_EVENTS i, 24, 8⟩
def F.FAB_CAST_EVENTS_TALLY_MISMATCH (i : Nat) : Fld := ⟨R.FAB_CAST_EVENTS i, 16, 8⟩
def F.FAB_CAST_EVENTS_CAST_ORPHAN (i : Nat) : Fld := ⟨R.FAB_CAST_EVENTS i, 8, 8⟩
def F.FAB_CAST_EVENTS_PARTIAL (i : Nat) : Fld := ⟨R.FAB_CAST_EVENTS i, 0, 8⟩
def R.FAB_CAST_MISSING (i : Nat) : Nat := 0x100050 + 0x80000 * i
def F.FAB_CAST_MISSING_KIND (i : Nat) : Fld := ⟨R.FAB_CAST_MISSING i, 6, 2⟩
def F.FAB_CAST_MISSING_TREE (i : Nat) : Fld := ⟨R.FAB_CAST_MISSING i, 0, 6⟩
def R.FAB_CAST_MISSING_M0 (i : Nat) : Nat := 0x100054 + 0x80000 * i
def F.FAB_CAST_MISSING_M0_MEMBERS (i : Nat) : Fld := ⟨R.FAB_CAST_MISSING_M0 i, 0, 32⟩
def R.FAB_CAST_MISSING_M1 (i : Nat) : Nat := 0x100058 + 0x80000 * i
def F.FAB_CAST_MISSING_M1_MEMBERS (i : Nat) : Fld := ⟨R.FAB_CAST_MISSING_M1 i, 0, 32⟩
def R.FAB_CAST_MISSING_M2 (i : Nat) : Nat := 0x10005c + 0x80000 * i
def F.FAB_CAST_MISSING_M2_MEMBERS (i : Nat) : Fld := ⟨R.FAB_CAST_MISSING_M2 i, 0, 32⟩
def R.FAB_PORT_STATUS (i j : Nat) : Nat := 0x100100 + 0x80000 * i + 0x10 * j
def F.FAB_PORT_STATUS_RETRAINS (i j : Nat) : Fld := ⟨R.FAB_PORT_STATUS i j, 24, 8⟩
def F.FAB_PORT_STATUS_STATE (i j : Nat) : Fld := ⟨R.FAB_PORT_STATUS i j, 0, 4⟩
def R.FAB_PORT_CTRL (i j : Nat) : Nat := 0x100104 + 0x80000 * i + 0x10 * j
def F.FAB_PORT_CTRL_RELEASE (i j : Nat) : Fld := ⟨R.FAB_PORT_CTRL i j, 2, 1⟩
def F.FAB_PORT_CTRL_HOLD_DOWN (i j : Nat) : Fld := ⟨R.FAB_PORT_CTRL i j, 1, 1⟩
def F.FAB_PORT_CTRL_RETRAIN (i j : Nat) : Fld := ⟨R.FAB_PORT_CTRL i j, 0, 1⟩
def R.FAB_PORT_ERRS (i j : Nat) : Nat := 0x100108 + 0x80000 * i + 0x10 * j
def F.FAB_PORT_ERRS_CRC_BLOCKS (i j : Nat) : Fld := ⟨R.FAB_PORT_ERRS i j, 16, 16⟩
def F.FAB_PORT_ERRS_FAILED_REPLAYS (i j : Nat) : Fld := ⟨R.FAB_PORT_ERRS i j, 8, 8⟩
def F.FAB_PORT_ERRS_DOWNS (i j : Nat) : Fld := ⟨R.FAB_PORT_ERRS i j, 0, 8⟩
def R.FAB_PORT_PEER (i j : Nat) : Nat := 0x10010c + 0x80000 * i + 0x10 * j
def F.FAB_PORT_PEER_IDENTITY (i j : Nat) : Fld := ⟨R.FAB_PORT_PEER i j, 0, 32⟩
def R.FAB_TREE_STATE (i j : Nat) : Nat := 0x100200 + 0x80000 * i + 0x4 * j
def F.FAB_TREE_STATE_ON_TREE (i j : Nat) : Fld := ⟨R.FAB_TREE_STATE i j, 31, 1⟩
def F.FAB_TREE_STATE_IS_ROOT (i j : Nat) : Fld := ⟨R.FAB_TREE_STATE i j, 30, 1⟩
def F.FAB_TREE_STATE_PARENT_PORT (i j : Nat) : Fld := ⟨R.FAB_TREE_STATE i j, 24, 5⟩
def F.FAB_TREE_STATE_OPEN (i j : Nat) : Fld := ⟨R.FAB_TREE_STATE i j, 16, 6⟩
def F.FAB_TREE_STATE_LOCAL (i j : Nat) : Fld := ⟨R.FAB_TREE_STATE i j, 0, 8⟩
def R.FAB_PORT_LEVEL (i j : Nat) : Nat := 0x100300 + 0x80000 * i + 0x4 * j
def F.FAB_PORT_LEVEL_PEAK (i j : Nat) : Fld := ⟨R.FAB_PORT_LEVEL i j, 8, 8⟩
def F.FAB_PORT_LEVEL_NOW (i j : Nat) : Fld := ⟨R.FAB_PORT_LEVEL i j, 0, 8⟩
def R.FAB_WEIGHT (i j : Nat) : Nat := 0x100400 + 0x80000 * i + 0x4 * j
def F.FAB_WEIGHT_MIS_PLANE (i j : Nat) : Fld := ⟨R.FAB_WEIGHT i j, 8, 2⟩
def F.FAB_WEIGHT_MIS_SHARE (i j : Nat) : Fld := ⟨R.FAB_WEIGHT i j, 0, 8⟩
def R.FAB_PLANE_SPREAD (i j : Nat) : Nat := 0x100580 + 0x80000 * i + 0x4 * j
def F.FAB_PLANE_SPREAD_SECOND (i j : Nat) : Fld := ⟨R.FAB_PLANE_SPREAD i j, 0, 8⟩
def R.CORE_ID (i : Nat) : Nat := 0x400000 + 0x1000 * i
def F.CORE_ID_ADDR (i : Nat) : Fld := ⟨R.CORE_ID i, 0, 24⟩
def R.CORE_INCARNATION (i : Nat) : Nat := 0x400004 + 0x1000 * i
def F.CORE_INCARNATION_VALUE (i : Nat) : Fld := ⟨R.CORE_INCARNATION i, 0, 8⟩
def R.CORE_FAULT_STATUS (i : Nat) : Nat := 0x4000c0 + 0x1000 * i
def F.CORE_FAULT_STATUS_BITS (i : Nat) : Fld := ⟨R.CORE_FAULT_STATUS i, 0, 8⟩
def R.CORE_STALE_RESP (i : Nat) : Nat := 0x4000c4 + 0x1000 * i
def F.CORE_STALE_RESP_COUNT (i : Nat) : Fld := ⟨R.CORE_STALE_RESP i, 0, 32⟩
def R.CORE_PSTATE (i : Nat) : Nat := 0x400100 + 0x1000 * i
def F.CORE_PSTATE_ENTER (i : Nat) : Fld := ⟨R.CORE_PSTATE i, 8, 2⟩
def F.CORE_PSTATE_HOLD_AWAKE (i : Nat) : Fld := ⟨R.CORE_PSTATE i, 4, 1⟩
def F.CORE_PSTATE_STATE (i : Nat) : Fld := ⟨R.CORE_PSTATE i, 0, 3⟩
def R.CORE_SEG_BASE (i j : Nat) : Nat := 0x400400 + 0x1000 * i + 0x10 * j
def F.CORE_SEG_BASE_BASE (i j : Nat) : Fld := ⟨R.CORE_SEG_BASE i j, 0, 32⟩
def R.CORE_SEG_LEN (i j : Nat) : Nat := 0x400404 + 0x1000 * i + 0x10 * j
def F.CORE_SEG_LEN_PAGES (i j : Nat) : Fld := ⟨R.CORE_SEG_LEN i j, 0, 24⟩
def R.CORE_SEG_CTRL (i j : Nat) : Nat := 0x400408 + 0x1000 * i + 0x10 * j
def F.CORE_SEG_CTRL_STATUS (i j : Nat) : Fld := ⟨R.CORE_SEG_CTRL i j, 16, 4⟩
def F.CORE_SEG_CTRL_PLACED_TIER (i j : Nat) : Fld := ⟨R.CORE_SEG_CTRL i j, 12, 3⟩
def F.CORE_SEG_CTRL_FLOOR (i j : Nat) : Fld := ⟨R.CORE_SEG_CTRL i j, 8, 3⟩
def F.CORE_SEG_CTRL_CEILING (i j : Nat) : Fld := ⟨R.CORE_SEG_CTRL i j, 4, 3⟩
def F.CORE_SEG_CTRL_RELEASE (i j : Nat) : Fld := ⟨R.CORE_SEG_CTRL i j, 2, 1⟩
def F.CORE_SEG_CTRL_PLACE (i j : Nat) : Fld := ⟨R.CORE_SEG_CTRL i j, 1, 1⟩
def F.CORE_SEG_CTRL_VALID (i j : Nat) : Fld := ⟨R.CORE_SEG_CTRL i j, 0, 1⟩
def R.CORE_SEG_LENDER (i j : Nat) : Nat := 0x40040c + 0x1000 * i + 0x10 * j
def F.CORE_SEG_LENDER_LENDER (i j : Nat) : Fld := ⟨R.CORE_SEG_LENDER i j, 0, 16⟩
def R.CORE_DBG_CTRL (i : Nat) : Nat := 0x400800 + 0x1000 * i
def F.CORE_DBG_CTRL_RELEASE_CLASPS (i : Nat) : Fld := ⟨R.CORE_DBG_CTRL i, 3, 1⟩
def F.CORE_DBG_CTRL_STEP (i : Nat) : Fld := ⟨R.CORE_DBG_CTRL i, 2, 1⟩
def F.CORE_DBG_CTRL_RESUME (i : Nat) : Fld := ⟨R.CORE_DBG_CTRL i, 1, 1⟩
def F.CORE_DBG_CTRL_HALT (i : Nat) : Fld := ⟨R.CORE_DBG_CTRL i, 0, 1⟩
def R.CORE_DBG_STATUS (i : Nat) : Nat := 0x400804 + 0x1000 * i
def F.CORE_DBG_STATUS_DEFER_EXPIRED (i : Nat) : Fld := ⟨R.CORE_DBG_STATUS i, 16, 1⟩
def F.CORE_DBG_STATUS_CAUSE (i : Nat) : Fld := ⟨R.CORE_DBG_STATUS i, 8, 3⟩
def F.CORE_DBG_STATUS_CLASPS (i : Nat) : Fld := ⟨R.CORE_DBG_STATUS i, 4, 3⟩
def F.CORE_DBG_STATUS_DEFERRING (i : Nat) : Fld := ⟨R.CORE_DBG_STATUS i, 1, 1⟩
def F.CORE_DBG_STATUS_HALTED (i : Nat) : Fld := ⟨R.CORE_DBG_STATUS i, 0, 1⟩
def R.CORE_DBG_PC_LO (i : Nat) : Nat := 0x400808 + 0x1000 * i
def F.CORE_DBG_PC_LO_PC (i : Nat) : Fld := ⟨R.CORE_DBG_PC_LO i, 0, 32⟩
def R.CORE_DBG_PC_HI (i : Nat) : Nat := 0x40080c + 0x1000 * i
def F.CORE_DBG_PC_HI_PC (i : Nat) : Fld := ⟨R.CORE_DBG_PC_HI i, 0, 32⟩
def R.CORE_DBG_BP_LO (i j : Nat) : Nat := 0x400810 + 0x1000 * i + 0x8 * j
def F.CORE_DBG_BP_LO_ADDR (i j : Nat) : Fld := ⟨R.CORE_DBG_BP_LO i j, 0, 32⟩
def R.CORE_DBG_BP_HI (i j : Nat) : Nat := 0x400814 + 0x1000 * i + 0x8 * j
def F.CORE_DBG_BP_HI_ADDR (i j : Nat) : Fld := ⟨R.CORE_DBG_BP_HI i j, 0, 32⟩
def R.BRG_CTRL (i : Nat) : Nat := 0x800000 + 0x10000 * i
def F.BRG_CTRL_ABORT (i : Nat) : Fld := ⟨R.BRG_CTRL i, 0, 1⟩
def R.BRG_STATUS (i : Nat) : Nat := 0x800004 + 0x10000 * i
def F.BRG_STATUS_QUEUED (i : Nat) : Fld := ⟨R.BRG_STATUS i, 4, 5⟩
def F.BRG_STATUS_STATE (i : Nat) : Fld := ⟨R.BRG_STATUS i, 0, 2⟩
def R.BRG_QCFG (i : Nat) : Nat := 0x800008 + 0x10000 * i
def F.BRG_QCFG_AREA (i : Nat) : Fld := ⟨R.BRG_QCFG i, 8, 19⟩
def F.BRG_QCFG_STEWARD (i : Nat) : Fld := ⟨R.BRG_QCFG i, 0, 8⟩
def R.BRG_LAST (i : Nat) : Nat := 0x80000c + 0x10000 * i
def F.BRG_LAST_ROUND (i : Nat) : Fld := ⟨R.BRG_LAST i, 0, 32⟩
def R.BRG_LAST_CODE (i : Nat) : Nat := 0x800010 + 0x10000 * i
def F.BRG_LAST_CODE_COUNT (i : Nat) : Fld := ⟨R.BRG_LAST_CODE i, 16, 16⟩
def F.BRG_LAST_CODE_CODE (i : Nat) : Fld := ⟨R.BRG_LAST_CODE i, 0, 4⟩
def R.BRG_EVENTS (i : Nat) : Nat := 0x800014 + 0x10000 * i
def F.BRG_EVENTS_QFULL (i : Nat) : Fld := ⟨R.BRG_EVENTS i, 24, 8⟩
def F.BRG_EVENTS_REFUSED (i : Nat) : Fld := ⟨R.BRG_EVENTS i, 16, 8⟩
def F.BRG_EVENTS_SKIPPED (i : Nat) : Fld := ⟨R.BRG_EVENTS i, 0, 16⟩
def R.BRG_SCANNED_LO (i : Nat) : Nat := 0x800018 + 0x10000 * i
def F.BRG_SCANNED_LO_SCANNED (i : Nat) : Fld := ⟨R.BRG_SCANNED_LO i, 0, 32⟩
def R.BRG_SCANNED_HI (i : Nat) : Nat := 0x80001c + 0x10000 * i
def F.BRG_SCANNED_HI_SCANNED (i : Nat) : Fld := ⟨R.BRG_SCANNED_HI i, 0, 32⟩
def R.BRG_HOSTQ (i j : Nat) : Nat := 0x800100 + 0x10000 * i + 0x4 * j
def F.BRG_HOSTQ_BLOCK (i j : Nat) : Fld := ⟨R.BRG_HOSTQ i j, 0, 32⟩
def R.BRG_HOSTQ_GO (i : Nat) : Nat := 0x800240 + 0x10000 * i
def F.BRG_HOSTQ_GO_GO (i : Nat) : Fld := ⟨R.BRG_HOSTQ_GO i, 0, 1⟩

end Sys2Proof
end

