-- ==== Sys2Proof/Machine/State.lean ====
section
/-! DEFINITION. The state of the fleet as plain data, and the state after reset. INVENTORY.md lists every piece with its rule
and its reset value. A field without a note is named by the rule in its structure's docstring. -/

namespace Sys2Proof.Machine
open Sys2Proof

/-- A sparse array: keys strictly rising, and no entry at the value an unlisted key reads as. -/
abbrev SMap (α : Type) := List (Nat × α)
/-- Memory: (key, byte) pairs, keys strictly rising; an unlisted byte holds no known value (log 5). -/
abbrev Mem := List Host.Cell

/-- Port states of FAB_PORT_STATUS. -/
inductive PortState where
  | off | training | active | retraining | down | parked | miswired | peerDark | heldDown
  deriving DecidableEq, Repr

/-- A packet waiting at an output port, with the input it came from, the buffer it holds there (R149, R150), and its number among the
arrivals at the router; the copies of a cast share their number. -/
structure Queued where
  pk : Packet
  inp : Nat
  inKey : Nat
  n : Nat
  deriving DecidableEq, Repr

/-- One fabric port: link layer (R141–R145), credits (R149, R174), output queue (R150), hold (R165), levels (R186). `training` says
that full training runs; `trained` that it ended well while PEER_DARK (R166). Credits are keyed by channel, 8 + tree on channel 2. `sentAt` holds
the last send of each block of `replay`; `rejecting` says that a failed block is awaited again (R142); `castTold` holds the freed counts of
trees last returned, and `castTurn` whose turn comes next (R174). -/
structure PortSt where
  state : PortState := .off
  identity : Word := 0
  retrainStarts : List Nat := []
  crcBlocks : Nat := 0
  failedReplays : Nat := 0
  downs : Nat := 0
  txBseq : Byte := 0
  replay : List Block := []
  sentAt : List Nat := []
  replayedAt : Option Byte := none
  sameFails : Nat := 0
  allFails : Nat := 0
  rxNext : Byte := 0
  rejecting : Bool := false
  txSent : SMap Nat := []
  txFreed : SMap Nat := []
  rxFreed : SMap Nat := []
  castTold : SMap Nat := []
  castTurn : Nat := 0
  outQ : List Queued := []
  mgmtRun : List (Bool × Nat) := []
  stoppedAt : Option Nat := none
  training : Bool := false
  trained : Bool := false
  now : Nat := 0
  peakRead : Nat := 0
  peakReport : Nat := 0
  deriving DecidableEq, Repr

/-- The source side of a flow (R158–R163, R175): `waiting` is not yet sent; `out` is outstanding with its last send time,
its resends and the members that still have to acknowledge. -/
structure TxOut where
  pk : Packet
  sentAt : Nat
  resends : Nat
  await : List Nat
  bad : List Nat
  core : Nat
  deriving DecidableEq, Repr

structure TxFlow where
  seq : Word := 0
  fgen : Byte := 0
  acked : Bool := false
  waiting : List (Packet × Nat) := []
  out : List TxOut := []
  deriving DecidableEq, Repr

/-- The receiver side of a flow (R161, R162). `kept` holds SEQ, status and 8 B result of the last 512 requests. -/
structure RxFlow where
  sgen : Byte
  fgen : Byte
  next : Word
  held : List Packet
  unacked : Nat
  firstUnacked : Option Nat
  kept : List (Word × Byte × BitVec 64)
  deriving DecidableEq, Repr

/-- Where a segment's storage lies: tier, byte offset in that tier, pages and lender (R43, R46). -/
structure Storage where
  tier : Nat
  off : Nat
  pages : Nat
  lender : BitVec 16
  deriving DecidableEq, Repr

/-- A placement in progress (R44–R48): when PLACE was written, its outcome once known, or the ask tag it waits on. -/
structure Placing where
  core : Nat
  entry : Nat
  at_ : Nat
  waitTag : Option (BitVec 16)
  outcome : Nat
  store : Option Storage
  deriving DecidableEq, Repr

/-- A grant of the lend pool (R46). -/
structure Grant where
  base : Nat
  pages : Nat
  borrower : BitVec 16
  sgen : Byte
  deriving DecidableEq, Repr

/-- A queued clasp request (R52), and the CLASP packet that carried it, if one did. -/
structure Waiter where
  core : Nat
  wait : Nat
  since : Nat
  rq : Option Packet
  deriving DecidableEq, Repr

/-- A clasp slot in use (R51–R54): store and line, holder, waiters oldest first, and the hold timer: it started at `since`, or
has run for `since` ns while `paused` because the holder is halted (R54). -/
structure Clasp where
  store : Nat
  line : Nat
  holder : Nat
  waiters : List Waiter
  since : Nat
  paused : Bool
  deriving DecidableEq, Repr

/-- Memory and clasps of a package (R43–R55). `lostLent` is where LOST tier-3 and tier-4 segments lay, for their LEND_FREE; `accesses` wait on a BUSY segment (R48). `written` are the query blocks that writes have brought to
the areas of engines, not yet taken (R208): engine, block. `writes` are results of engines that wait on a BUSY segment or a
sleeping core (R48): core, core address, bytes. `silent` are clasps freed by a debugger, whose next use returns CLASP_BROKEN
without a detector (R363); `broken` those broken at expiry (R54). -/
structure MemSt where
  segs : SMap Storage := []
  lostLent : SMap Storage := []
  accesses : List (Nat × Access) := []
  placing : List Placing := []
  nextTag : BitVec 16 := 0
  grants : List Grant := []
  clasps : List Clasp := []
  broken : List (Nat × Nat × Nat) := []
  silent : List (Nat × Nat × Nat) := []
  poison : List Nat := []
  written : List (Nat × List Byte) := []
  writes : List (Nat × Nat × List Byte) := []
  deriving DecidableEq, Repr

/-- The retention bank (R59, R335, R336): survives PKG_RESET_N and hub resets. -/
structure Retention where
  pkgInc : Byte := 0
  coreInc : SMap Byte := []
  lw : List Word := []
  lwOverrun : Nat := 0
  deriving DecidableEq, Repr

/-- Dark units (R56–R60): who is dark and why, resets held back, and the time of each
incarnation's last increment (key 192 is the package). -/
structure DarkSt where
  dark : List (DarkUnit × DarkCause) := []
  heldResets : List DarkUnit := []
  incAt : SMap Nat := []
  deriving DecidableEq, Repr

/-- A pre-wake slot (R81–R83): T, core or 255, linger in ns, and whether its wake started. -/
structure Prewake where
  t : Nat
  core : Nat
  linger : Nat
  started : Bool
  deriving DecidableEq, Repr

/-- The always-on domain beside its registers (R64–R70, R72–R76, R81): fleet time is `now` + `timeOff` and what has come of the slew of
`slewBy` ns that began at `slewAt`. `idleAt` is when a core entered Idle, or Nap if it is there; `heldFrom` since when the conditions of Furl
for C-tile 0–3 hold together, or under key 4 those of Moor; `saved` are the cores whose store lies in its save area. -/
structure AonSt where
  timeOff : Int := 0
  slewAt : Nat := 0
  slewBy : Int := 0
  coarse : Int := 0
  goodExchanges : Nat := 0
  slots : List Prewake := []
  deferred : List Instr := []
  pcieL1 : Bool := false
  waking : List Nat := []
  idleAt : SMap Nat := []
  heldFrom : SMap Nat := []
  saved : List Nat := []
  deriving DecidableEq, Repr

/-- The PKC (R36, R37, R278, R286, R291, R344–R350). -/
inductive PkcRun where
  | reset | booting | running | paused | lifeboat | romWait
  deriving DecidableEq, Repr

structure PkcSt where
  run : PkcRun := .reset
  bootSrc : BitVec 2 := 0
  bootDone : Bool := false
  admitted : Bool := false
  fenced : Bool := false
  holdCourse : Bool := false
  hbSeq : Option Word := none
  hbAt : Option Nat := none
  eid : Byte := 0
  i3cAddr : Byte := 0x30
  draBytes : List Byte := []
  draStatus : Nat := 5
  draDone : Nat := 0
  draData : List Word := []
  jtagRead : Word := 0
  jtagStatus : Nat := 0
  spdmStep : Nat := 0
  challengeOk : Bool := false
  hostInReset : Bool := false
  hostGts : Nat := 64
  hostWidth : Nat := 16
  deriving DecidableEq, Repr

/-- A signing key slot (R343): GENERATION, and the key if the slot holds one. -/
structure KeySlot where
  gen : BitVec 16 := 0
  key : Option (BitVec 384 × BitVec 384) := none
  deriving DecidableEq, Repr

/-- Module flash with the VERSION of each bank, the key slots, and the update in progress (R337–R350). `askedAt` is when the package last
asked for data. `trial` is a PKC restart under PAUSED: whether it is the roll-back, and since when (R346, R347). -/
structure UpdSt where
  bank0 : List Byte := []
  bank1 : List Byte := []
  ver0 : BitVec 64 := 0
  ver1 : BitVec 64 := 0
  component : Option (BitVec 16) := none
  size : Nat := 0
  received : List Byte := []
  overPcie : Bool := false
  requested : Bool := false
  complete : Bool := false
  verified : Option Nat := none
  askedAt : Nat := 0
  pushing : Bool := false
  trial : Option (Bool × Nat) := none
  chartKeys : SMap KeySlot := []
  fwKeys : SMap KeySlot := []
  deriving DecidableEq, Repr

/-- The Chart slots and the turn (R119–R138). Images are bytes; the empty list is an empty slot. `fleet` holds the rack's ORDER and
WINDOW in a fleet turn (R137); `wdSeq` are the regions still to withdraw; `entryAt` and `withdrawAt` are fleet times. `arrived` are turn messages
that management packets brought and the Chart engine absorbs within 1 µs (R128), with their kinds. -/
structure ChartSt where
  active : List Byte := []
  shadow : List Byte := []
  loadPort : Bool := false
  loadDma : Bool := false
  loadLen : Nat := 0
  leaseMax : Nat := 0
  goT0 : Nat := 0
  goEpoch : Word := 0
  goLease : Word := 0
  fleet : Option (Nat × Nat) := none
  bank2 : Bool := false
  prepared : Bool := false
  entryAt : Nat := 0
  entered : List Nat := []
  committed : List Nat := []
  wdSeq : List Nat := []
  withdrawAt : Nat := 0
  drainedFrom : List Nat := []
  withdrawnFrom : List Nat := []
  tr : Option Nat := none
  seen : List (Nat × TurnMsg) := []
  arrived : List (Nat × TurnMsg) := []
  deriving DecidableEq, Repr

/-- Flows, stores and trees of a package (R158–R163, R170–R198). `mesh` are requests between cores of one C-tile (R40); `stalled` are requests that met a full inbound store and wait in their
input buffer; `reported` is the fleet millisecond of the last MAP_REPORT (R187). -/
structure FabSt where
  tx : SMap TxFlow := []
  rx : SMap RxFlow := []
  inbound : List Packet := []
  mesh : List Packet := []
  sink : List Packet := []
  stalled : List (Nat × Packet) := []
  reported : Nat := 0
  weightAcc : SMap Nat := []
  weightAt : Nat := 0
  deriving DecidableEq, Repr

/-- One contribution in a merge slot: its rank in the fold order (R182), its payload and its STATUS. -/
structure Part where
  rank : Nat
  port : Option Nat
  payload : List Byte
  status : Byte
  flag : Bool
  core : Option Nat
  deriving DecidableEq, Repr

/-- A merge slot (R179–R181). -/
structure MergeSlot where
  tree : Nat
  seq : Word
  opcode : Byte
  dst : BitVec 24
  addr : BitVec 64
  len : Nat
  local_ : Nat
  parts : List Part
  gone : List Nat
  mismatch : Bool
  timedOut : Bool
  closed : Bool
  openedAt : Nat
  deriving DecidableEq, Repr

/-- Tally state (R177–R180): `last` is absent while FRESH is set, keyed 64 × source + tree; `closed` are the closed rounds by tree and
SEQ; `waiting` wait in their input channel, or at their core as inputs 100 + source. -/
structure TallySt where
  last : SMap Word := []
  slots : List MergeSlot := []
  closed : List (Nat × Word) := []
  waiting : List (Nat × Packet) := []
  deriving DecidableEq, Repr

/-- A check-value job in progress (R91, R93): the CRC register and the chunks absorbed. -/
structure CsuJob where
  crc : BitVec 64 := 0
  chunks : Nat := 0
  deriving DecidableEq, Repr

/-- A query taken by a Bearing engine (R208, R209): its block, its shard list (BASE, SKETCHES, SHARD) and MERGE_TREE. -/
structure Query where
  block : List Byte
  shards : List (Nat × Nat × Nat)
  tree : Option Nat
  deriving DecidableEq, Repr

/-- A Bearing engine. `lost` says that a stack of the running scan went dark, `dead` names those that were dark as it started (R211); `before` holds
what lines of its shards held before each write during the scan (R213). -/
structure BrgSt where
  queue : List Query := []
  running : Option Query := none
  startedAt : Nat := 0
  lost : Bool := false
  dead : List Nat := []
  before : List (Nat × List Byte) := []
  deriving DecidableEq, Repr

/-- Power beside the registers (R234–R246), by C-tile: the governor's own rate, the point of a step in progress, droop skips, the
sums of R238, the guard band in force (R246). `msIndex` … add up the present whole millisecond; `guardAt` holds the time of a
guard band's last change and the guard band before it. -/
structure PwrSt where
  govRate : SMap Nat := []
  stepping : SMap Nat := []
  skipping : List Nat := []
  govHold : Bool := false
  rateSum : SMap Nat := []
  rateMin : SMap Nat := []
  ticks : Nat := 0
  msIndex : Nat := 0
  msTicks : Nat := 0
  msDraw : Nat := 0
  msUncore : Nat := 0
  guardInForce : SMap Nat := []
  guardAt : SMap (Nat × Nat) := []
  energyRest : Nat := 0
  deriving DecidableEq, Repr

/-- A heading (R268, R269). -/
structure Heading where
  start : Nat
  stop : Nat
  intensity : Nat
  core : Nat
  deriving DecidableEq, Repr

/-- A rotation set (R271–R273): members, INTERVAL, next due time, last rotation, and whether a migration runs. -/
structure Rota where
  members : List Nat
  intervalMs : Nat
  due : Nat
  lastAt : Nat
  migrating : Bool
  deriving DecidableEq, Repr

/-- Heat beside the registers (R254–R274). `headWords` are held separately for each requester, keyed 4 × requester + word. `probeAt` is
the start of a running probe pulse, `probeLost` that of the last one abandoned, and `probeLimit` what a pulse lowers RATE to (R257).
`modelTemp` is the model's own temperature of a node. `rotaWait` is the image whose ROTA takes effect once no migration runs (R130). -/
structure ThrSt where
  coolantAt : Nat := 0
  headings : List Heading := []
  headWords : SMap Word := []
  sensorBad : List Nat := []
  modelTemp : SMap Rat := []
  rotas : SMap Rota := []
  rotaWait : Option (List Byte) := none
  lastSample : Nat := 0
  probeAt : Option Nat := none
  probeLost : Option Nat := none
  probeLimit : SMap Nat := []
  rawLow : Bool := false
  shutdown : Bool := false
  deriving DecidableEq, Repr

/-- A log entry (Table 15.8). -/
structure LogEntry where
  time : Nat
  seq : Word
  detector : Nat
  unit : Nat
  cls : Nat
  kind : Nat
  flags : Nat
  count : Nat
  boot : Nat
  recoveries : Nat
  incarnation : Byte
  epoch : Word
  ref : Word
  info0 : BitVec 64
  info1 : BitVec 64
  deriving DecidableEq, Repr

/-- A pending slot (R321): its class, detector, unit, RAISED SEQ and the fleet time its grace ends. -/
structure Pend where
  cls : Nat
  detector : Nat
  unit : Nat
  seq : Word
  expires : Nat
  deriving DecidableEq, Repr

/-- A unit's fault state and history (R328, R329). -/
structure UnitSt where
  state : Nat := 0
  exits : List Nat := []
  ceTimes : List Nat := []
  lastCe : Nat := 0
  lastUc : Nat := 0
  detector : Nat := 0
  raised : Word := 0
  deriving DecidableEq, Repr

/-- A running reaction of Table 15.7: kind 0 isolation, 1 C-tile, 2 F-tile, 3 S-tile, 4 H-tile, 5 PCIe, 6 log memory,
7 port training, 8 fence, 9 PKC trial; its unit or index; the unit it recovers. -/
structure Reaction where
  kind : Nat
  index : Nat
  unit : Nat
  raised : Word
  deriving DecidableEq, Repr

/-- The fault hub (R317–R336). `heldEvents` are EVENT messages that wait for the end of a pause (R346). -/
structure FltSt where
  pend : SMap Pend := []
  log : SMap LogEntry := []
  units : SMap UnitSt := []
  reactions : List Reaction := []
  lastOf : SMap Word := []
  seq : Word := 1
  lwOnly : Bool := false
  fencedAt : Option Nat := none
  heldEvents : List (BitVec 64) := []
  deriving DecidableEq, Repr

/-- A trace record (Table 17.4). -/
structure TraceRec where
  pk : Packet
  len : Nat
  time : Nat
  port : Byte
  out : Bool
  number : Nat
  deriving DecidableEq, Repr

/-- Debug beside the registers (R361–R366): the trace buffers and records since CLEAR, the start and cause of each core's deferral, and
cores to halt when they wake or when a migration ends. -/
structure DbgSt where
  trace0 : List TraceRec := []
  trace1 : List TraceRec := []
  counted0 : Nat := 0
  counted1 : Nat := 0
  defers : SMap (Nat × Nat) := []
  wantHalt : List Nat := []
  deriving DecidableEq, Repr

/-- What a unit has sent, oldest first (log 3): answers to accesses, messages, notices and reports. -/
inductive Msg where
  | busData (who : Requester) (off : Nat) (v : Word)
  | busDone (who : Requester) (off : Nat)
  | busError (who : Requester) (off : Nat)
  | msix (vector : Nat)
  | cwAnswer (inst : Nat) (command completion : Nat) (payload : List Byte)
  | cwEvent (code : Nat) (data : BitVec 64)
  | mctp (command : Nat) (payload : List Byte)
  | pldm (command completion : Nat) (payload : List Byte)
  | spdm (command : Nat) (payload : List Byte)
  | draData (status done : Nat) (words : List Word)
  | nack
  | packet (pk : Packet)
  | delivered (inp : Nat) (pk : Packet)
  | completion (core : Nat) (tag : BitVec 16) (status : Byte) (data : List Byte)
  | signal (core : Nat) (addr : Nat)
  | claspStatus (core : Nat) (status : Byte)
  | tallyDone (core : Nat) (seq : Word) (status : Byte) (entries : Nat)
  | notice (port : Nat) (kind : Nat)
  | flood (kind : Nat) (m : TurnMsg) (ports : List Nat)
  | toLead (kind : Nat) (lead : Nat) (m : TurnMsg)
  | identity (port : Nat) (id : Word)
  | block (port : Nat) (b : Block)
  | bridged (pk : Packet)
  | line (name : String) (level : Bool)
  | alarm (name : String) (raised : Bool)
  | report (name : String) (pos : Nat) (data : Nat)
  | command (name : String) (key : Nat) (value : Nat)
  | idem (kind : IdemKind) (tray pos : Nat) (seq : BitVec 64) (value : Word)
  | fenced (key : Nat) (epoch : Word) (kind : FencedKind)
  | renewAck (slot : Nat) (epoch : Word)
  | takeMsg (epoch : Word)
  | takeAnswer (granted : Bool) (highest : Word)
  | http (code : Nat) (status : String)
  | image (key : Nat) (bytes : List Byte)
  | order (rack : Nat) (t0 : Nat)
  deriving DecidableEq, Repr

/-- A router: its ports, and how many packets have arrived. A Meridian tray also has its override entries (R364), the active image and the one
of a turn with its T0, whose bundle maps it uses (R138), the management sink of its map agent (R198), its spreading counters (R189; by package, 200 + rack for a
bundle), discards by cause, and what it sent. -/
structure RouterSt where
  ports : SMap PortSt := []
  arrivals : Nat := 0
  sink : List Packet := []
  ovr : SMap Word := []
  oldMap : List Byte := []
  newMap : List Byte := []
  mapT0 : Nat := 0
  spread : SMap Nat := []
  discards : SMap Nat := []
  out : List Msg := []
  deriving DecidableEq, Repr

/-- A package: its registers (unlisted ones hold their reset value), the R16 latches (keyed 2^26 × requester + offset) and the
units' further state. -/
structure Pkg where
  regs : SMap Word := []
  latch : SMap Word := []
  ret : Retention := {}
  aon : AonSt := {}
  pkc : PkcSt := {}
  mem : MemSt := {}
  dark : DarkSt := {}
  chart : ChartSt := {}
  rt : RouterSt := {}
  fab : FabSt := {}
  tally : TallySt := {}
  csu : SMap CsuJob := []
  brg : SMap BrgSt := []
  pwr : PwrSt := {}
  thr : ThrSt := {}
  flt : FltSt := {}
  upd : UpdSt := {}
  dbg : DbgSt := {}
  out : List Msg := []
  deriving DecidableEq, Repr

/-- A directory entry of the golden store with its image (Tables 13.6, 13.7). `gold` false marks a staged "STAG" entry;
`good` says that ENTRY_CHECK, CHECK and the signature verify. -/
structure Golden where
  kind : Nat
  target : Nat
  version : BitVec 64
  gold : Bool
  good : Bool
  image : List Byte
  deriving DecidableEq, Repr

/-- A module record (R288): serial number, powered hours, guard bands, R_est, and whether its CRC-32C verifies. -/
structure ModRecord where
  serial : BitVec 64
  hours : Nat
  guards : List Nat
  resist : Nat
  good : Bool
  deriving DecidableEq, Repr

/-- One board position of a CW: lines of Table 13.1, bring-up (R286, R287), attestation (R290), the cap to relay (R294), mirror (R334),
JTAG (R358). `step` is the bring-up step reached: 0 none, 1 waiting for flow, 2 for a reflash, 3 for rails, 4 for a held reset, 5 for the
release of PKC_HOLD_N, 7 since `since` for BOOT_DONE, 8 for attestation, 9 up. `unseated` is set while a new module waits for its latch;
`flashBad` says that the module flash failed its second comparison. `firstGo` is 1 once a first Chart has been sent to the package and 2 once its GO
has been ordered (R370, R371). -/
structure PosSt where
  pwrEn : Bool := false
  pwrGood : Bool := false
  resetN : Bool := false
  holdN : Bool := false
  bootSrc : BitVec 2 := 0
  bootOrder : Option (BitVec 2) := none
  present : Bool := false
  latchOpen : Bool := false
  unseated : Bool := false
  serial : BitVec 64 := 0
  step : Nat := 0
  since : Nat := 0
  misses : Nat := 0
  attestFails : Nat := 0
  attested : Bool := false
  flashBad : Bool := false
  blocked : Bool := false
  shutdownHold : Bool := false
  indicator : Bool := false
  held : Option Nat := none
  mirror : SMap LogEntry := []
  mirrorSerial : Option (BitVec 64) := none
  mirrorBoot : Nat := 0
  mirrorTop : Word := 0
  firstGo : Nat := 0
  ir : Byte := 1
  dr : List Bool := []
  deriving DecidableEq, Repr

/-- A tray controller (R275–R298, R301–R308, R348, R352, R358): golden copies, module records, keys, chip images with the chips held in reset
and those out of reset, the boot flash, its board positions, the highest epoch seen (non-volatile), the last RENEW, a RELINQUISH accepted,
and the highest sequence number accepted for each kind and position. -/
structure CwSt where
  running : Bool := false
  lifeboat : Bool := false
  nor0 : List Golden := []
  nor1 : List Golden := []
  records : List ModRecord := []
  keys : SMap KeySlot := []
  chipImages : SMap (List Byte) := []
  chipHeld : List Nat := []
  chipOut : List Nat := []
  bootFlash : List Byte := []
  pos : SMap PosSt := []
  epochSeen : Word := 0
  renewAt : Option Nat := none
  relinquished : Option Word := none
  seqSeen : SMap (BitVec 64) := []
  discarded : Nat := 0
  debugOpen : Bool := false
  busbarWait : Bool := false
  out : List Msg := []
  deriving DecidableEq, Repr

/-- Almanac roles (Table 14.1). -/
inductive Role where
  | off | booting | syncing | standby | helm | adrift
  deriving DecidableEq, Repr

/-- The log of an Almanac (R312) with the operator's settings in it: the CDU settings in tenths of their units, the actions with their keys
and epochs, quarantined units by package key, the log's holder of the helm (B?), and the recoveries of packages. -/
structure AlmLog where
  epoch : Word := 0
  holder : Option Bool := none
  term : Word := 0
  seqHigh : BitVec 64 := 0
  siteCapW : Nat := 40000
  flowCap : Nat := 1200
  dtMax : Nat := 150
  supplySet : Nat := 480
  rackNumber : Nat := 0
  actions : List (Nat × Word × FencedKind) := []
  activeChart : List Byte := []
  shadowChart : List Byte := []
  safeChart : List Byte := []
  serviceChart : List Byte := []
  turnT0 : Option Nat := none
  commits : List Nat := []
  quarantine : List (Nat × Nat) := []
  attestBlocked : List Nat := []
  failedPos : List Nat := []
  alarms : List String := []
  pkgRecoveries : SMap (List Nat) := []
  staged : List (Nat × List Byte) := []
  deriving DecidableEq, Repr

/-- An Almanac (R299–R316, R354, R355). `renewSent`, `acks` and `peerAck` describe its latest RENEW, and `ackedAt` is S of R302; `heardAt` is
when it last received a RENEW; `takeEpoch`, `takeAt` and `grants` describe its TAKE round, and `knownHigh` is the highest epoch reported to
it; `updatedAt` is the restart that followed an update. -/
structure AlmSt where
  role : Role := .off
  log : AlmLog := {}
  bootAt : Nat := 0
  renewSent : Nat := 0
  acks : List Nat := []
  peerAck : Bool := false
  ackedAt : Nat := 0
  heardAt : Nat := 0
  takeEpoch : Option Word := none
  takeAt : Nat := 0
  grants : List Nat := []
  knownHigh : Word := 0
  retryAt : Nat := 0
  sextant : Bool := false
  ptp : Bool := false
  brakeFrom : Nat := 0
  bank : List Byte := []
  bankOld : List Byte := []
  updatedAt : Option Nat := none
  out : List Msg := []
  deriving DecidableEq, Repr

/-- The rack's power, coolant and the helm's derived values (R220–R253, R382–R388): PSUs with a fault and PSUs cut off by R382, shelves shut
down, who drives the brake line and since when, whether a feed loss in capacity mode still holds S at C and since when both feeds are
back, the measurements of R227 as (time, input, packages), the caps last sent by rack index, and the packages that acknowledged them. `timeOff` is the rack's fleet time less `now`, as its tray controllers
last held it (R66). `dual` says that the caps last sent are the lower ones of a turn's two CAPS sections (R231). -/
structure RackSt where
  timeOff : Int := 0
  feedA : Bool := false
  feedB : Bool := false
  psuFault : List Nat := []
  psuOver : List Nat := []
  shelfDown : List Nat := []
  brakeShelf : Bool := false
  brakeTest : Bool := false
  brakeAt : Nat := 0
  testUntil : Nat := 0
  capacity : Bool := false
  feedLostHold : Bool := false
  feedBack : Option Nat := none
  inputs : List (Nat × Nat × Nat) := []
  overheadW : Nat := 0
  started : Nat := 0
  caps : SMap Nat := []
  dual : Bool := false
  acked : List Nat := []
  capShort : Bool := false
  brakeShort : Bool := false
  secondaryLow : Bool := false
  flowLimited : Bool := false
  inletHigh : Bool := false
  dewRisk : Bool := false
  flowProven : Bool := false
  pumpBad : List Nat := []
  rackNumber : Nat := 0
  out : List Msg := []
  deriving DecidableEq, Repr

/-- The fleet (R27–R32, R137, R311): flagship and successors as physical racks, fleet membership, racks kept out for a duplicate number, and
the fleet turn: T0, the fleet image, rack images, the region that may enter and the racks that committed it. `chart` is the fleet image in force. `turnMaster` is the rack that ordered it or has taken it over, `withdrawing`
the racks still to withdraw, and `wdCause` the cause and region that began it. `lostAt` is since when the flagship has had no helm (R32). -/
structure FleetSt where
  chart : List Byte := []
  flagship : Nat := 0
  successors : List Nat := []
  members : List Nat := []
  isolated : List Nat := []
  turnT0 : Option Nat := none
  turnImage : List Byte := []
  turnImages : List (Nat × List Byte) := []
  turnRegion : Nat := 0
  turnCommits : List Nat := []
  turnMaster : Nat := 0
  withdrawing : Option (List Nat) := none
  wdCause : Nat × Nat := (0, 0)
  lostAt : Option Nat := none
  deriving DecidableEq, Repr

/-- The whole machine. `now` is ns since reset (log 2) and `free` counts the free values used (log 4). -/
structure State where
  now : Nat
  free : Nat
  mem : Mem
  pkgs : SMap Pkg
  meridians : SMap RouterSt
  trays : SMap CwSt
  almanacs : SMap AlmSt
  racks : SMap RackSt
  fleet : FleetSt
  pending : List Instr
  deriving DecidableEq, Repr

/-- Why a command stops the machine. -/
inductive Fault where
  /-- Raised by the meanings that take a measured quantity when it lies beyond its absolute limit: the machine "is not
  specified and may be damaged" there (R380). Safe: the machine stops where the spec says nothing. -/
  | beyondAbsolute (quantity : String)
  deriving DecidableEq, Repr

/-- Why a command has no meaning. -/
inductive Refusal where
  /-- Raised by an arm of `exec` whose command has no meaning yet. Safe. -/
  | notModelled (mnemonic : String)
  deriving DecidableEq, Repr

/-- The machine right after reset: every package, tray, Almanac and rack at its reset value, no time passed, nothing waiting. -/
def State.reset : State :=
  { now := 0, free := 0, mem := [], pkgs := [], meridians := [], trays := [], almanacs := [], racks := [], fleet := {},
    pending := [] }

end Sys2Proof.Machine
end

