-- ==== Sys2Proof/Machine/Ops.lean ====
section
/-! DEFINITION. The named operations over sparse arrays, memory, registers and the units of the machine, which every meaning
goes through. -/

namespace Sys2Proof.Machine
open Sys2Proof

/-- The outcome of a command. -/
abbrev Out := Host.Outcome State Fault Refusal

/-! ### Sparse arrays -/

/-- What a sparse array with default `d` holds at `n`. -/
def sget {α : Type} (d : α) : SMap α → Nat → α
  | [], _ => d
  | (k, v) :: t, n => if n = k then v else sget d t n

/-- Put `v` at `n`, keeping the keys rising. -/
def sinsert {α : Type} : SMap α → Nat → α → SMap α
  | [], n, v => [(n, v)]
  | (k, w) :: t, n, v => if n < k then (n, v) :: (k, w) :: t else if n = k then (n, v) :: t else (k, w) :: sinsert t n v

/-- Remove the entry at `n`. -/
def serase {α : Type} (m : SMap α) (n : Nat) : SMap α := m.filter (fun e => e.1 ≠ n)

/-- Write `v` at `n` in canonical form: the default removes the entry. -/
def sset {α : Type} [DecidableEq α] (d : α) (m : SMap α) (n : Nat) (v : α) : SMap α :=
  if v = d then serase m n else sinsert m n v

/-- The entry at `n`, if any, of an array whose unlisted keys hold nothing. -/
def sfind {α : Type} : SMap α → Nat → Option α
  | [], _ => none
  | (k, v) :: t, n => if n = k then some v else sfind t n

/-- Keys strictly rising, all above a bound. -/
def sortedFrom {α : Type} : Nat → SMap α → Bool
  | _, [] => true
  | b, (k, _) :: t => b ≤ k && sortedFrom (k + 1) t

/-- The canonical form of a sparse array with default `d`: keys rising and no entry at the default. -/
def swf {α : Type} [DecidableEq α] (d : α) (m : SMap α) : Bool :=
  sortedFrom 0 m && m.all (fun e => e.2 ≠ d)

/-! ### Memory

One key names a byte of any storage of the fleet: the package, the space (0 local HBM, 1 S-tile, 2 core stores, 3 host memory
reached over PCIe) and the byte offset. -/

/-- The canonical form of memory: addresses strictly rising; an unlisted byte holds no known value. -/
abbrev Memory.wf (m : Mem) : Bool := sortedFrom 0 m

def memKey (p : PkgId) (space off : Nat) : Nat := p.key * 2 ^ 66 + space * 2 ^ 64 + off
/-- The offset of a core's store byte in space 2 (Table 2.4: 1.5 MiB a core). -/
def storeOff (core off : Nat) : Nat := core * 2 ^ 21 + off

/-- The byte at a key; a byte that nothing has written reads as a free value (R48, log 5). -/
def memByte (m : Mem) (key : Nat) : Byte := (sfind m key).getD (Config.freeByte key)
def memWriteByte (m : Mem) (key : Nat) (b : Byte) : Mem := sinsert m key b
def memRead (m : Mem) (key : Nat) : Nat → List Byte
  | 0 => []
  | n + 1 => memByte m key :: memRead m (key + 1) n
def memWrite (m : Mem) (key : Nat) : List Byte → Mem
  | [] => m
  | b :: t => memWrite (memWriteByte m key b) (key + 1) t

/-- Forget what a range holds: its bytes read as free values again (R48). -/
def memErase (m : Mem) (key len : Nat) : Mem := m.filter (fun e => !(key ≤ e.1 && e.1 < key + len))

/-- Copy a range onto another that does not overlap it: what the source lists replaces what the destination lists. -/
def memCopy (m : Mem) (src dst len : Nat) : Mem :=
  (m.filter (fun e => src ≤ e.1 && e.1 < src + len)).foldl (fun m e => memWriteByte m (e.1 - src + dst) e.2) (memErase m dst len)

/-! ### Bytes and bits -/

/-- A little-endian integer (R18). -/
def leNat : List Byte → Nat
  | [] => 0
  | b :: t => b.toNat + 256 * leNat t
def leBytes : Nat → Nat → List Byte
  | 0, _ => []
  | n + 1, v => BitVec.ofNat 8 v :: leBytes n (v / 256)
/-- Bits [lo + width − 1 : lo] of a number. -/
def bits (v lo width : Nat) : Nat := (v >>> lo) % 2 ^ width
def bit (v i : Nat) : Bool := v.testBit i
/-- A register word with one field replaced. -/
def putBits (w : Word) (lo width v : Nat) : Word :=
  (w &&& ~~~ (BitVec.ofNat 32 ((2 ^ width - 1) <<< lo))) ||| BitVec.ofNat 32 ((v % 2 ^ width) <<< lo)
def slice (l : List Byte) (off n : Nat) : List Byte := (l.drop off).take n
def leAt (l : List Byte) (off n : Nat) : Nat := leNat (slice l off n)
/-- A saturating counter field of `width` bits. -/
def satAdd (width v n : Nat) : Nat := min (2 ^ width - 1) (v + n)
/-- Serial comparison over `w` bits: a is newer than b (R161, R177). -/
def serialGt {w : Nat} (a b : BitVec w) : Bool := a ≠ b && (a - b).toNat < 2 ^ (w - 1)

/-! ### Check values (Table 4.2) -/

/-- One bit of a reflected CRC. -/
def crcStepR (poly c : Nat) : Nat := if c % 2 = 1 then (c / 2) ^^^ poly else c / 2
/-- One bit of an unreflected CRC of 64 bits. -/
def crcStep64 (c : Nat) : Nat := if c ≥ 2 ^ 63 then ((2 * c) % 2 ^ 64) ^^^ 0x42F0E1EBA9EA3693 else 2 * c
def iter {α : Type} (f : α → α) : Nat → α → α
  | 0, x => x
  | n + 1, x => iter f n (f x)
def crc32cByte (c : Nat) (b : Byte) : Nat := iter (crcStepR 0x82F63B78) 8 (c ^^^ b.toNat)
def crc64Byte (c : Nat) (b : Byte) : Nat := iter crcStep64 8 (c ^^^ (b.toNat * 2 ^ 56))
def crc32c (l : List Byte) : Nat := l.foldl crc32cByte 0xFFFFFFFF ^^^ 0xFFFFFFFF
def crc64 (l : List Byte) : Nat := l.foldl crc64Byte 0
/-- CRC-8 with polynomial x⁸ + x² + x + 1 (R280). -/
def crc8Byte (c : Nat) (b : Byte) : Nat :=
  iter (fun c => if c ≥ 128 then ((2 * c) % 256) ^^^ 7 else 2 * c) 8 (c ^^^ b.toNat)
def crc8 (l : List Byte) : Nat := l.foldl crc8Byte 0

/-! ### Registers of a package -/

/-- A register's reset value (the register tables); 0 where no register is described. -/
def resetWord (off : Nat) : Word :=
  match findReg off with
  | some d => BitVec.ofNat 32 d.reset
  | none => 0
/-- A register's stored word. -/
def Pkg.rg (k : Pkg) (off : Nat) : Word := (sfind k.regs off).getD (resetWord off)
def Pkg.setRg (k : Pkg) (off : Nat) (v : Word) : Pkg := { k with regs := sset (resetWord off) k.regs off v }
/-- A field of a register. -/
def Pkg.get (k : Pkg) (f : Fld) : Nat := bits (k.rg f.off).toNat f.lo f.width
def Pkg.put (k : Pkg) (f : Fld) (v : Nat) : Pkg := k.setRg f.off (putBits (k.rg f.off) f.lo f.width v)
/-- Add to a saturating event counter (R15: a read and an increment never lose one). -/
def Pkg.count (k : Pkg) (f : Fld) (n : Nat) : Pkg := k.put f (satAdd f.width (k.get f) n)
/-- Set a one-bit field. -/
def Pkg.flag (k : Pkg) (f : Fld) (b : Bool) : Pkg := k.put f b.toNat
/-- Record what the package sends (log 3). -/
def Pkg.emit (k : Pkg) (m : Msg) : Pkg := { k with out := k.out ++ [m] }
def Pkg.emits (k : Pkg) (ms : List Msg) : Pkg := { k with out := k.out ++ ms }
/-- A 64-bit value in two consecutive registers. -/
def Pkg.wide (k : Pkg) (off : Nat) : Nat := (k.rg off).toNat + 2 ^ 32 * (k.rg (off + 4)).toNat
def Pkg.setWide (k : Pkg) (off : Nat) (v : Nat) : Pkg :=
  (k.setRg off (BitVec.ofNat 32 v)).setRg (off + 4) (BitVec.ofNat 32 (v / 2 ^ 32))

/-- What has come of a slew: 100 ppm is 1 ns every 10 µs (R68, R69). -/
def AonSt.slewed (now : Nat) (a : AonSt) : Int :=
  let n : Int := ((now - a.slewAt) / 10000 : Nat)
  if 0 ≤ a.slewBy then min a.slewBy n else max a.slewBy (-n)
/-- Fleet time in ns, a 64-bit count (R67, R69). -/
def Pkg.time (now : Nat) (k : Pkg) : Nat := (((now : Int) + k.aon.timeOff + k.aon.slewed now) % 2 ^ 64).toNat

/-! ### The units of the machine -/

def State.pkg (s : State) (p : PkgId) : Pkg := sget {} s.pkgs p.key
def State.setPkg (s : State) (p : PkgId) (k : Pkg) : State := { s with pkgs := sset {} s.pkgs p.key k }
def State.tray (s : State) (t : TrayId) : CwSt := sget {} s.trays t.key
def State.setTray (s : State) (t : TrayId) (c : CwSt) : State := { s with trays := sset {} s.trays t.key c }
def State.alm (s : State) (a : AlmId) : AlmSt := sget {} s.almanacs a.key
def State.setAlm (s : State) (a : AlmId) (x : AlmSt) : State := { s with almanacs := sset {} s.almanacs a.key x }
def State.rack (s : State) (r : Fin 32) : RackSt := sget {} s.racks r.val
def State.setRack (s : State) (r : Fin 32) (x : RackSt) : State := { s with racks := sset {} s.racks r.val x }

/-- Fleet time in ns as the tray controllers of a rack hold it (R66, log 63). -/
def State.rackTime (s : State) (r : Fin 32) : Nat := (((s.now : Int) + (s.rack r).timeOff) % 2 ^ 64).toNat

/-- A command that changes one package only. -/
def onPkg (p : PkgId) (s : State) (f : Pkg → Pkg) : Out := .next (s.setPkg p (f (s.pkg p)))
/-- A command that changes one package and takes one free value (log 4). -/
def onPkgFree (p : PkgId) (s : State) (f : BitVec 64 → Pkg → Pkg) : Out :=
  .next ({ s with free := s.free + 1 }.setPkg p (f (Config.freeWord s.free) (s.pkg p)))
/-- A command that changes one package and memory. -/
def onPkgMem (p : PkgId) (s : State) (f : Mem → Pkg → Mem × Pkg) : Out :=
  let r := f s.mem (s.pkg p)
  .next ({ s with mem := r.1 }.setPkg p r.2)
def onTray (t : TrayId) (s : State) (f : CwSt → CwSt) : Out := .next (s.setTray t (f (s.tray t)))
def onAlm (a : AlmId) (s : State) (f : AlmSt → AlmSt) : Out := .next (s.setAlm a (f (s.alm a)))
def onRack (r : Fin 32) (s : State) (f : RackSt → RackSt) : Out := .next (s.setRack r (f (s.rack r)))

def CwSt.emit (c : CwSt) (m : Msg) : CwSt := { c with out := c.out ++ [m] }
def CwSt.at (c : CwSt) (pos : Nat) : PosSt := sget {} c.pos pos
def CwSt.setPos (c : CwSt) (pos : Nat) (x : PosSt) : CwSt := { c with pos := sset {} c.pos pos x }
def AlmSt.emit (a : AlmSt) (m : Msg) : AlmSt := { a with out := a.out ++ [m] }
def RackSt.emit (r : RackSt) (m : Msg) : RackSt := { r with out := r.out ++ [m] }

/-- The tray that holds a package (R21). -/
def PkgId.tray (p : PkgId) : TrayId := ⟨p.rack, ⟨3 * p.row.val + p.col.val / 4, by omega⟩⟩
/-- The package at a board position of a compute tray (R21); none on a Meridian tray. -/
def TrayId.pkgAt (t : TrayId) (pos : Fin 4) : Option PkgId :=
  if h : t.slot.val < 24 then
    some ⟨t.rack, ⟨t.slot.val / 3, by omega⟩, ⟨4 * (t.slot.val % 3) + pos.val, by omega⟩⟩
  else none

/-- What names the module seated at a package's position: its serial number and the position (fused values, R261, R378). -/
def State.moduleKey (s : State) (p : PkgId) : Nat := ((s.tray (PkgId.tray p)).at p.position).serial.toNat * 4096 + p.key

/-- Router state of a package or a Meridian tray. -/
def State.router (s : State) : RouterId → RouterSt
  | .pkg p => (s.pkg p).rt
  | .meridian r p => sget {} s.meridians (r.val * 4 + p.val)
def State.setRouter (s : State) (r : RouterId) (x : RouterSt) : State :=
  match r with
  | .pkg p => s.setPkg p { s.pkg p with rt := x }
  | .meridian k p => { s with meridians := sset {} s.meridians (k.val * 4 + p.val) x }

/-- A command that changes one router. -/
def onRouter (r : RouterId) (s : State) (f : RouterSt → RouterSt) : Out := .next (s.setRouter r (f (s.router r)))

end Sys2Proof.Machine
end

