-- ==== Sys2Proof/Machine/Crypto.lean ====
section
/-! DEFINITION. SHA-384 and ECDSA verification over P-384, which R113 and the rules on updates and attestation name. The manual names the
algorithms; their constants and steps are those of the public standards (PRESUMED, log 7). -/

namespace Sys2Proof.Machine
open Sys2Proof

/-! ### SHA-384 -/

def shaK : List Nat :=
  [0x428A2F98D728AE22, 0x7137449123EF65CD, 0xB5C0FBCFEC4D3B2F, 0xE9B5DBA58189DBBC, 0x3956C25BF348B538] ++
  [0x59F111F1B605D019, 0x923F82A4AF194F9B, 0xAB1C5ED5DA6D8118, 0xD807AA98A3030242, 0x12835B0145706FBE] ++
  [0x243185BE4EE4B28C, 0x550C7DC3D5FFB4E2, 0x72BE5D74F27B896F, 0x80DEB1FE3B1696B1, 0x9BDC06A725C71235] ++
  [0xC19BF174CF692694, 0xE49B69C19EF14AD2, 0xEFBE4786384F25E3, 0xFC19DC68B8CD5B5, 0x240CA1CC77AC9C65] ++
  [0x2DE92C6F592B0275, 0x4A7484AA6EA6E483, 0x5CB0A9DCBD41FBD4, 0x76F988DA831153B5, 0x983E5152EE66DFAB] ++
  [0xA831C66D2DB43210, 0xB00327C898FB213F, 0xBF597FC7BEEF0EE4, 0xC6E00BF33DA88FC2, 0xD5A79147930AA725] ++
  [0x6CA6351E003826F, 0x142929670A0E6E70, 0x27B70A8546D22FFC, 0x2E1B21385C26C926, 0x4D2C6DFC5AC42AED] ++
  [0x53380D139D95B3DF, 0x650A73548BAF63DE, 0x766A0ABB3C77B2A8, 0x81C2C92E47EDAEE6, 0x92722C851482353B] ++
  [0xA2BFE8A14CF10364, 0xA81A664BBC423001, 0xC24B8B70D0F89791, 0xC76C51A30654BE30, 0xD192E819D6EF5218] ++
  [0xD69906245565A910, 0xF40E35855771202A, 0x106AA07032BBD1B8, 0x19A4C116B8D2D0C8, 0x1E376C085141AB53] ++
  [0x2748774CDF8EEB99, 0x34B0BCB5E19B48A8, 0x391C0CB3C5C95A63, 0x4ED8AA4AE3418ACB, 0x5B9CCA4F7763E373] ++
  [0x682E6FF3D6B2B8A3, 0x748F82EE5DEFB2FC, 0x78A5636F43172F60, 0x84C87814A1F0AB72, 0x8CC702081A6439EC] ++
  [0x90BEFFFA23631E28, 0xA4506CEBDE82BDE9, 0xBEF9A3F7B2C67915, 0xC67178F2E372532B, 0xCA273ECEEA26619C] ++
  [0xD186B8C721C0C207, 0xEADA7DD6CDE0EB1E, 0xF57D4F7FEE6ED178, 0x6F067AA72176FBA, 0xA637DC5A2C898A6] ++
  [0x113F9804BEF90DAE, 0x1B710B35131C471B, 0x28DB77F523047D84, 0x32CAAB7B40C72493, 0x3C9EBE0A15C9BEBC] ++
  [0x431D67C49C100D4C, 0x4CC5D4BECB3E42B6, 0x597F299CFC657E2A, 0x5FCB6FAB3AD6FAEC, 0x6C44198C4A475817]
def rotr64 (x n : Nat) : Nat := (x >>> n ||| x <<< (64 - n)) % 2 ^ 64
/-- The words of a block's schedule, the latest first. -/
def shaSchedule : Nat → List Nat → List Nat
  | 0, w => w
  | n + 1, w =>
    let a := w.getD 14 0
    let b := w.getD 1 0
    shaSchedule n (((rotr64 b 19 ^^^ rotr64 b 61 ^^^ b >>> 6) + w.getD 6 0 + (rotr64 a 1 ^^^ rotr64 a 8 ^^^ a >>> 7) + w.getD 15 0) % 2 ^ 64 :: w)
/-- The eight working words. -/
structure Sha where
  a : Nat
  b : Nat
  c : Nat
  d : Nat
  e : Nat
  f : Nat
  g : Nat
  h : Nat
  deriving DecidableEq, Repr
def shaRound (x : Sha) (kw : Nat × Nat) : Sha :=
  let t1 := x.h + (rotr64 x.e 14 ^^^ rotr64 x.e 18 ^^^ rotr64 x.e 41) + (x.e &&& x.f ^^^ (2 ^ 64 - 1 - x.e) &&& x.g) + kw.1 + kw.2
  let t2 := (rotr64 x.a 28 ^^^ rotr64 x.a 34 ^^^ rotr64 x.a 39) + (x.a &&& x.b ^^^ x.a &&& x.c ^^^ x.b &&& x.c)
  ⟨(t1 + t2) % 2 ^ 64, x.a, x.b, x.c, (x.d + t1) % 2 ^ 64, x.e, x.f, x.g⟩
def beNat (l : List Byte) : Nat := leNat l.reverse
/-- The 64-bit big-endian words of a message. -/
def shaWords : Nat → List Byte → List Nat
  | 0, _ => []
  | n + 1, l => beNat (l.take 8) :: shaWords n (l.drop 8)
def shaBlock (x : Sha) (w : List Nat) : Sha :=
  let y := (shaK.zip (shaSchedule 64 w.reverse).reverse).foldl shaRound x
  ⟨(x.a + y.a) % 2 ^ 64, (x.b + y.b) % 2 ^ 64, (x.c + y.c) % 2 ^ 64, (x.d + y.d) % 2 ^ 64, (x.e + y.e) % 2 ^ 64, (x.f + y.f) % 2 ^ 64,
    (x.g + y.g) % 2 ^ 64, (x.h + y.h) % 2 ^ 64⟩
def shaBlocks : Nat → Sha → List Nat → Sha
  | 0, x, _ => x
  | n + 1, x, w => shaBlocks n (shaBlock x (w.take 16)) (w.drop 16)
def shaInit : Sha :=
  match ([0xCBBB9D5DC1059ED8, 0x629A292A367CD507, 0x9159015A3070DD17, 0x152FECD8F70E5939, 0x67332667FFC00B31, 0x8EB44A8768581511, 0xDB0C2E0D64F98FA7, 0x47B5481DBEFA4FA4] : List Nat) with
  | [a, b, c, d, e, f, g, h] => ⟨a, b, c, d, e, f, g, h⟩
  | _ => ⟨0, 0, 0, 0, 0, 0, 0, 0⟩
/-- The 48 bytes of the digest, as one number whose little-endian bytes they are (R18). -/
def sha384 (l : List Byte) : BitVec 384 :=
  let n := l.length / 128 + (if l.length % 128 < 112 then 1 else 2)
  let m := l ++ [0x80] ++ List.replicate (128 * n - 17 - l.length) 0 ++ (leBytes 16 (8 * l.length)).reverse
  let x := shaBlocks n shaInit (shaWords (16 * n) m)
  BitVec.ofNat 384 (leNat ([x.a, x.b, x.c, x.d, x.e, x.f].flatMap fun v => (leBytes 8 v).reverse))

/-! ### ECDSA over P-384 -/

def p384P : Nat := 2 ^ 384 - 2 ^ 128 - 2 ^ 96 + 2 ^ 32 - 1
def p384B : Nat := 0xB3312FA7E23EE7E4988E056BE3F82D19181D9C6EFE8141120314088F5013875AC656398D8A2ED19D2A85C8EDD3EC2AEF
def p384N : Nat := 0xFFFFFFFFFFFFFFFFFFFFFFFFFFFFFFFFFFFFFFFFFFFFFFFFC7634D81F4372DDF581A0DB248B0A77AECEC196ACCC52973
/-- A point in Jacobian coordinates; z = 0 is the point at infinity. -/
structure Jac where
  x : Nat
  y : Nat
  z : Nat
  deriving DecidableEq, Repr
def p384G : Jac :=
  ⟨0xAA87CA22BE8B05378EB1C71EF320AD746E1D3B628BA79B9859F741E082542A385502F25DBF55296C3A545E3872760AB7,
   0x3617DE4A96262C6F5D9E98BF9292DC29F8F41DBD289A147CE9DA3113B5F0B8C00A60B1CE1D7E819D7A431D7C90EA0E5F, 1⟩
def mulP (a b : Nat) : Nat := a * b % p384P
def subP (a b : Nat) : Nat := (a + p384P - b % p384P) % p384P
/-- a to the power e, modulo m, by the bits of e below a bound. -/
def powMod (m a e : Nat) : Nat → Nat
  | 0 => 1 % m
  | n + 1 =>
    let r := powMod m (a * a % m) (e / 2) n
    if e % 2 = 1 then a * r % m else r
/-- The inverse modulo a prime. -/
def invMod (m a : Nat) : Nat := powMod m (a % m) (m - 2) 384
def Jac.double (p : Jac) : Jac :=
  let d := mulP p.z p.z
  let g := mulP p.y p.y
  let b := mulP p.x g
  let a := mulP 3 (mulP (subP p.x d) (p.x + d))
  let x := subP (mulP a a) (8 * b)
  let s := (p.y + p.z) % p384P
  ⟨x, subP (mulP a (subP (4 * b) x)) (8 * mulP g g), subP (mulP s s) (g + d)⟩
def Jac.add (p q : Jac) : Jac :=
  if p.z = 0 then q
  else if q.z = 0 then p
  else
    let zp := mulP p.z p.z
    let zq := mulP q.z q.z
    let u := mulP p.x zq
    let h := subP (mulP q.x zp) u
    let s := mulP p.y (mulP q.z zq)
    let r := subP (mulP q.y (mulP p.z zp)) s
    if h = 0 then (if r = 0 then p.double else ⟨1, 1, 0⟩)
    else
      let h2 := mulP h h
      let h3 := mulP h h2
      let v := mulP u h2
      let x := subP (mulP r r) (h3 + 2 * v)
      ⟨x, subP (mulP r (subP v x)) (mulP s h3), mulP h (mulP p.z q.z)⟩
/-- k times a point, by the bits of k below a bound. -/
def Jac.times (p : Jac) (k : Nat) : Nat → Jac
  | 0 => ⟨1, 1, 0⟩
  | n + 1 =>
    let r := (p.double.times (k / 2) n)
    if k % 2 = 1 then p.add r else r
/-- Whether a signature (r, s) over a digest verifies under a public key (x, y). -/
def ecdsaVerify (qx qy digest r s : BitVec 384) : Bool :=
  let x := qx.toNat
  let y := qy.toNat
  let z := beNat (leBytes 48 digest.toNat)
  let w := invMod p384N s.toNat
  let e := (p384G.times (z * w % p384N) 384).add ((⟨x, y, 1⟩ : Jac).times (r.toNat * w % p384N) 384)
  let zi := invMod p384P e.z
  x < p384P && y < p384P && mulP y y = (mulP x (mulP x x) + subP p384B (3 * x)) % p384P && 0 < r.toNat && r.toNat < p384N && 0 < s.toNat &&
    s.toNat < p384N && e.z ≠ 0 && mulP e.x (mulP zi zi) % p384N = r.toNat

end Sys2Proof.Machine
end

