-- ==== Sys2Proof/Machine/Chart.lean ====
section
/-! DEFINITION. The Chart image byte by byte (spec/05_chart_format.md): reading its sections, and the eleven validation steps of
Table 5.6. An image is the list of its bytes; the empty list is an empty slot. -/

namespace Sys2Proof.Machine
open Sys2Proof

/-- A byte of an image; bytes past its end read as zero. -/
def u8 (img : List Byte) (off : Nat) : Nat := (img.getD off 0).toNat
/-- Records of `n` bytes, at most `fuel` of them. -/
def chunks (n : Nat) : Nat → List Byte → List (List Byte)
  | 0, _ => []
  | f + 1, l => if l.length < n then [] else l.take n :: chunks n f (l.drop n)
/-- Pair every element with its index. -/
def indexed {α : Type} (l : List α) : List (Nat × α) := (List.range l.length).zip l

/-! ### Header and section table (R97–R101) -/

def chEpoch (img : List Byte) : Nat := leAt img 8 4
def chScope (img : List Byte) : Nat := u8 img 0xC
def chSafe (img : List Byte) : Bool := bit (u8 img 0xE) 0
def chTarget (img : List Byte) : Nat := leAt img 0x14 2
/-- P of R98. -/
def chP (img : List Byte) : Nat := if chScope img = 0 then 1 else 96

/-- The ten section names in the order of Table 5.1, as ASCII padded with zero. -/
def secName : Nat → List Nat
  | 1 => [0x53, 0x4B, 0x45, 0x49, 0x4E, 0, 0, 0]
  | 2 => [0x50, 0x44, 0x4F, 0x4D, 0, 0, 0, 0]
  | 3 => [0x52, 0x4F, 0x55, 0x54, 0x45, 0, 0, 0]
  | 4 => [0x43, 0x41, 0x53, 0x54, 0, 0, 0, 0]
  | 5 => [0x57, 0x49, 0x4E, 0x44, 0, 0, 0, 0]
  | 6 => [0x53, 0x48, 0x41, 0x52, 0x44, 0, 0, 0]
  | 7 => [0x52, 0x4F, 0x54, 0x41, 0, 0, 0, 0]
  | 8 => [0x43, 0x41, 0x50, 0x53, 0, 0, 0, 0]
  | 9 => [0x54, 0x55, 0x52, 0x4E, 0, 0, 0, 0]
  | _ => [0x53, 0x49, 0x47, 0x4E, 0, 0, 0, 0]

/-- The used entries of the section table: name, OFFSET, LENGTH (Table 5.3). -/
def secEntries (img : List Byte) : List (List Nat × Nat × Nat) :=
  (List.range (u8 img 0xD)).map fun i =>
    ((slice img (0x40 + 16 * i) 8).map BitVec.toNat, leAt img (0x48 + 16 * i) 4, leAt img (0x4C + 16 * i) 4)

/-- A section's body offset and length; absent sections give 0 and 0. -/
def sec (img : List Byte) (order : Nat) : Nat × Nat :=
  match (secEntries img).find? (fun e => e.1 = secName order) with
  | some e => e.2
  | none => (0, 0)
def secBody (img : List Byte) (order : Nat) : List Byte := slice img (sec img order).1 (sec img order).2
def secCount (img : List Byte) (order : Nat) : Nat :=
  if (sec img order).1 < 16 then 0 else leAt img ((sec img order).1 - 8) 4

/-- The entry a package at rack index n applies (R98). -/
def recIdx (img : List Byte) (n : Nat) : Nat := if chScope img = 0 then 0 else n

/-! ### SKEIN (R103) -/

/-- The core-map byte of core c of the package at index n: 0–63 a skein, 0xFF none. -/
def coreSkein (img : List Byte) (n c : Nat) : Nat :=
  if img.isEmpty then 0xFF else u8 img ((sec img 1).1 + 0x200 + 192 * recIdx img n + c)
def reachBit (img : List Byte) (i j : Nat) : Bool := bit (leAt img ((sec img 1).1 + 8 * i) 8) j
/-- The remote reach entries: local skein, remote rack, remote skein, DIR. -/
def remoteReach (img : List Byte) : List (Nat × Nat × Nat × Nat) :=
  (chunks 4 (secCount img 1) (slice img ((sec img 1).1 + 0x200 + 192 * chP img) (4 * secCount img 1))).map
    fun b => (u8 b 0, u8 b 1, u8 b 2, u8 b 3 % 2)
/-- Every core of the destination package is in no skein (R156, check 2). -/
def allAbsent (img : List Byte) (n : Nat) : Bool := (List.range 192).all fun c => coreSkein img n c = 0xFF

/-! ### PDOM (R104) -/

def pdomAt (img : List Byte) (n : Nat) : Nat := (sec img 2).1 + 40 * recIdx img n
def pdomNap (img : List Byte) (n : Nat) : Nat := u8 img (pdomAt img n)
def pdomDoze (img : List Byte) (n : Nat) : Nat := u8 img (pdomAt img n + 1)
def pdomFurl (img : List Byte) (n : Nat) : Nat := u8 img (pdomAt img n + 2) % 16
def pdomMoor (img : List Byte) (n : Nat) : Nat := u8 img (pdomAt img n + 3)
def pdomSave (img : List Byte) (n : Nat) : Bool := !img.isEmpty && bit (u8 img (pdomAt img n + 4)) 0
/-- Bit b of HOLD_OFF: cores 0–191, Bearing engines 192–195. -/
def holdOff (img : List Byte) (n b : Nat) : Bool := !img.isEmpty && bit (u8 img (pdomAt img n + 8 + b / 8)) (b % 8)

/-! ### ROUTE (R105, R106) -/

def routeAt (img : List Byte) : Nat := (sec img 3).1
def routeFlagship (img : List Byte) : Nat := u8 img (routeAt img + 1)
def routeSucc (img : List Byte) : List Nat := ((slice img (routeAt img + 2) 3).map BitVec.toNat).filter (· ≠ 0xFF)
def routePresent (img : List Byte) (r : Nat) : Bool := bit (leAt img (routeAt img + 8) 4) r
def planePrimary (img : List Byte) (r : Nat) : Nat := u8 img (routeAt img + 0x10 + 4 * r)
def planeFallback (img : List Byte) (r : Nat) : Nat := u8 img (routeAt img + 0x11 + 4 * r)
/-- The bundle-map entry of plane p and fleet-facing port q: peer rack and peer port. -/
def bundleEntry (img : List Byte) (p q : Nat) : Nat × Nat :=
  (u8 img (routeAt img + 0x90 + 288 * p + 2 * q), u8 img (routeAt img + 0x91 + 288 * p + 2 * q))
/-- The offset of a rack's block in a fleet image: 1,280 bytes for each present rack, in ascending rack number (R105). -/
def fleetBlock (img : List Byte) (rack : Nat) : Nat := routeAt img + 0x10 + 1280 * ((List.range rack).filter (routePresent img)).length
/-- A bundle-map entry of a rack in a fleet image. -/
def fleetBundle (img : List Byte) (rack p q : Nat) : Nat × Nat :=
  (u8 img (fleetBlock img rack + 0x80 + 288 * p + 2 * q), u8 img (fleetBlock img rack + 0x81 + 288 * p + 2 * q))
/-- The default cabling (R28): bundle b = ports 4b to 4b + 3 of a rack leads to bundle a of rack b, port for port; the rack's own bundle and the
spares are uncabled. -/
def defaultBundle (rack q : Nat) : Option (Nat × Nat) := if q < 128 ∧ q / 4 ≠ rack then some (q / 4, 4 * rack + q % 4) else none
/-- What a fleet-facing port is cabled to (R28, R29): by the bundle map of the rack's image, else by the rack's block of the fleet image, else by
the default cabling (log 64). -/
def bundleOf (img fleet : List Byte) (rack p q : Nat) : Option (Nat × Nat) :=
  let named (e : Nat × Nat) : Option (Nat × Nat) := if e.1 = 0xFF then none else some e
  if !img.isEmpty && chScope img = 1 then named (bundleEntry img p q)
  else if !fleet.isEmpty && routePresent fleet rack then named (fleetBundle fleet rack p q)
  else defaultBundle rack q

/-- Pair entry (s, d): REQ_VIA, RSP_VIA, FB_KIND, FB_PLANE, FB_VIA (Table 5.5). -/
def pairEntry (img : List Byte) (s d : Nat) : Nat × Nat × Nat × Nat × Nat :=
  let o := routeAt img + 0x510 + 4 * (96 * s + d)
  (u8 img o, u8 img (o + 1), u8 img (o + 2) % 4, bits (u8 img (o + 2)) 2 2, u8 img (o + 3))

/-! ### CAST (R107) -/

/-- The 416-byte record of a tree, empty when the Chart has none. -/
def treeRec (img : List Byte) (t : Nat) : List Byte :=
  if img.isEmpty then [] else
  ((chunks 416 (secCount img 4) (secBody img 4)).find? (fun r => u8 r 0 = t)).getD []
def treeReverse (r : List Byte) : Bool := bit (u8 r 1) 0
def treeUplink (r : List Byte) : Bool := bit (u8 r 1) 1
def treeRoot (r : List Byte) : Nat := u8 r 2
def treeUpPlane (r : List Byte) : Nat := u8 r 3
def treeBuffer (r : List Byte) : Nat := leAt r 4 2
def treeUpRack (r : List Byte) : Nat := u8 r 6
def treeUpTree (r : List Byte) : Nat := u8 r 7
def treeMember (r : List Byte) (n : Nat) : Bool := bit (u8 r (8 + n / 8)) (n % 8)
/-- Package n's output port mask, and DELIVER. -/
def treeFanout (r : List Byte) (n : Nat) : Nat := leAt r (0x20 + 4 * n) 3
def treeDeliver (r : List Byte) (n : Nat) : Bool := bit (u8 r (0x23 + 4 * n)) 0
/-- R168. -/
def onTree (r : List Byte) (n : Nat) : Bool :=
  !r.isEmpty && (treeRoot r = n || treeMember r n || leAt r (0x20 + 4 * n) 4 ≠ 0)

/-! ### Ports (Table 1.2) -/

/-- The package index that a row or column port of package n reaches. -/
def portPeer (n q : Nat) : Option Nat :=
  if q < 12 then (if q = n % 12 then none else some (12 * (n / 12) + q))
  else if q < 20 then (if q - 12 = n / 12 then none else some (12 * (q - 12) + n % 12))
  else none
/-- The port on which the peer of port q of package n receives. -/
def portBack (n q : Nat) : Nat := if q < 12 then n % 12 else 12 + n / 12
/-- The port of package n to package d, when one link joins them. -/
def portTo (n d : Nat) : Option Nat :=
  if n = d then none
  else if n / 12 = d / 12 then some (d % 12)
  else if n % 12 = d % 12 then some (12 + d / 12)
  else none
/-- The plane that a plane port of package n reaches (R23). -/
def portPlane (n q : Nat) : Option Nat :=
  if 20 ≤ q ∧ q < 24 then some (q - 20)
  else if q = n % 12 then some (if n % 2 = 0 then 0 else 2)
  else if q = 12 + n / 12 then some (if n % 2 = 0 then 1 else 3)
  else none
/-- The second port of package n to a plane, where it has two (R23). -/
def secondPort (n plane : Nat) : Option Nat :=
  if plane = (if n % 2 = 0 then 0 else 2) then some (n % 12)
  else if plane = (if n % 2 = 0 then 1 else 3) then some (12 + n / 12)
  else none
/-- The parent of package n on a tree: the peer whose FANOUT reaches it, with the port n receives on (R168). -/
def treeParent (r : List Byte) (n : Nat) : Option (Nat × Nat) :=
  (List.range 20).findSome? fun q =>
    match portPeer n q with
    | some m => if bit (treeFanout r m) (portBack n q) then some (m, q) else none
    | none => none
/-- The child ports of package n. -/
def treeChildren (r : List Byte) (n : Nat) : List Nat := (List.range 24).filter (bit (treeFanout r n))

/-! ### WIND (R108) -/

def windAt (img : List Byte) : Nat := (sec img 5).1
/-- An image of package scope has no WIND section; nothing then bounds its flows (log 31). -/
def hasWind (img : List Byte) : Bool := windAt img ≠ 0
def ackCount (img : List Byte) : Nat := if hasWind img then u8 img (windAt img + 0x10) else 1
def ackTime (img : List Byte) : Nat := if hasWind img then u8 img (windAt img + 0x11) else 1
def respReserve (img : List Byte) (n : Nat) : Nat := if hasWind img then leAt img (windAt img + 0x20 + 2 * n) 2 else 65535
/-- The window of a source index, destination index and rack, and class: the first matching override, else DEFAULT. -/
def windowOf (img : List Byte) (own src dst rack cls : Nat) : Nat :=
  let ovr := chunks 8 (secCount img 5) (slice img (windAt img + 0xE0) (8 * secCount img 5))
  if !hasWind img then 512
  else match ovr.find? (fun b =>
      (u8 b 0 = 0xFF || u8 b 0 = src) && (u8 b 1 = 0xFF || u8 b 1 = dst) &&
      (if u8 b 2 = 0xFF then rack = own else u8 b 2 = rack) && u8 b 3 = cls) with
  | some b => leAt b 4 2
  | none => leAt img (windAt img + 2 * cls) 2

/-! ### SHARD, ROTA, CAPS, TURN (R109–R112) -/

structure ShardRec where
  collection : Nat
  shard : Nat
  rack : Nat
  index : Nat
  ctile : Nat
  units : Nat
  base : Nat
  sketches : Nat
  tree : Nat
  deriving DecidableEq, Repr

def shardRecs (img : List Byte) : List ShardRec :=
  (chunks 32 (secCount img 6) (secBody img 6)).map fun b =>
    ⟨leAt b 0 2, leAt b 2 2, u8 b 4, u8 b 5, u8 b 6, u8 b 7, leAt b 8 8, leAt b 0x10 8, u8 b 0x18⟩
/-- ROTA records: INDEX, SET, INTERVAL, members. -/
def rotaRecs (img : List Byte) : List (Nat × Nat × Nat × List Nat) :=
  (chunks 72 (secCount img 7) (secBody img 7)).map fun b =>
    (u8 b 0, u8 b 1, leAt b 2 2, (slice b 8 (u8 b 4)).map BitVec.toNat)
def capsAt (img : List Byte) (n : Nat) : Nat := (sec img 8).1 + 16 * recIdx img n
def capsShare (img : List Byte) (n : Nat) : Nat := leAt img (capsAt img n) 2
def capsMin (img : List Byte) (n : Nat) : Nat := leAt img (capsAt img n + 2) 2
def capsSafe (img : List Byte) (n : Nat) : Nat := leAt img (capsAt img n + 4) 2
def capsBrake (img : List Byte) (n : Nat) : Nat := u8 img (capsAt img n + 6)
def capsBudget (img : List Byte) (n t : Nat) : Nat := leAt img (capsAt img n + 8 + 2 * t) 2
/-- TURN regions: ORDER, WINDOW in ns, MASK. -/
def turnRegions (img : List Byte) : List (Nat × Nat × Nat) :=
  (chunks 16 (secCount img 9) (secBody img 9)).map fun b => (u8 b 0, 100000 * u8 b 1, leAt b 4 12)
/-- The region a package index lies in, and the last ORDER. -/
def regionOf (img : List Byte) (n : Nat) : Nat := (((turnRegions img).find? (fun r => bit r.2.2 n)).map (·.1)).getD 0
def lastRegion (img : List Byte) : Nat := (turnRegions img).length - 1
def regionWindow (img : List Byte) (o : Nat) : Nat := (((turnRegions img).find? (fun r => r.1 = o)).map (·.2.1)).getD 0
def regionMembers (img : List Byte) (o : Nat) : List Nat :=
  (List.range 96).filter fun n => (turnRegions img).any fun r => r.1 = o && bit r.2.2 n
/-- A region's lead: its lowest index (R127). -/
def regionLead (img : List Byte) (o : Nat) : Nat := (regionMembers img o).headD 0

/-! ### Validation (Table 5.6) -/

/-- Table 5.1: whether a section belongs to a scope, and the body length its COUNT asks for. -/
def secRequired (scope order : Nat) : Bool :=
  if scope = 0 then order = 1 || order = 2 || order = 7 || order = 8 || order = 10
  else if scope = 1 then true
  else order = 3 || order = 9 || order = 10
def secLength (scope order count : Nat) : Nat :=
  let p := if scope = 0 then 1 else 96
  let orEight (n : Nat) : Nat := if count = 0 then 8 else n
  match order with
  | 1 => (512 + 192 * p + 4 * count + 7) / 8 * 8
  | 2 => 40 * p
  | 3 => if scope = 2 then 16 + 1280 * count else 38160
  | 4 => orEight (416 * count)
  | 5 => 224 + 8 * count
  | 6 => orEight (32 * count)
  | 7 => orEight (72 * count)
  | 8 => 16 * p
  | 9 => 16 * count
  | _ => 112
def secCountOk (scope order count : Nat) : Bool :=
  let p := if scope = 0 then 1 else 96
  match order with
  | 1 => count ≤ 4096
  | 2 => count = p
  | 3 => if scope = 2 then 1 ≤ count && count ≤ 32 else count = 96
  | 4 => count ≤ 64
  | 5 => count ≤ 4096
  | 6 => count ≤ 65536
  | 7 => count ≤ 32 * p
  | 8 => count = p
  | 9 => 1 ≤ count && count ≤ (if scope = 2 then 32 else 96)
  | _ => count = 1

/-- All bytes of a range of an image are zero. -/
def zeroRange (img : List Byte) (off stop : Nat) : Bool := (slice img off (stop - off)).all (· = 0)

/-- Step 6: the section table, its order, lengths and counts, and the padding (R97, R98, R100). -/
def tableOk (img : List Byte) : Bool :=
  let scope := chScope img
  let es := secEntries img
  let orders := (List.range 11).filter (fun o => 1 ≤ o && secRequired scope o)
  let spans := orders.map (sec img)
  let starts := spans.map (fun e => e.1 - 16)
  let stops := 0x100 :: spans.map (fun e => e.1 + e.2)
  es.length = orders.length &&
  (es.map (·.1)) = orders.map secName &&
  zeroRange img (0x40 + 16 * es.length) 0xF0 &&
  spans.all (fun e => e.1 % 8 = 0 && 0x110 ≤ e.1) &&
  (stops.zip starts).all (fun x => x.1 ≤ x.2 && zeroRange img x.1 x.2) &&
  stops.getLast? = some img.length &&
  orders.all (fun o => secCountOk scope o (secCount img o) && (sec img o).2 = secLength scope o (secCount img o))

/-- Offsets of the non-zero bytes among `n` reserved bytes at `off`. -/
def badZero (img : List Byte) (off n : Nat) : List Nat :=
  ((List.range n).map (off + ·)).filter fun i => u8 img i ≠ 0
/-- A failing offset when the check does not hold. -/
def badIf (b : Bool) (off : Nat) : List Nat := if b then [off] else []

/-- Step 10 on the header (R99); packages do not check PARENT_EPOCH and PARENT_CHECK (R102). -/
def badHeader (img : List Byte) : List Nat :=
  badIf (1 < leAt img 0xE 2) 0xE ++ badZero img 0x16 2 ++ badZero img 0x1C 4 ++ badZero img 0xF0 8

/-- The skeins in use (R103). -/
def skeinsUsed (img : List Byte) : List Nat :=
  ((slice img ((sec img 1).1 + 0x200) (192 * chP img)).map BitVec.toNat) ++ (remoteReach img).map (·.1)

/-- Step 10 on SKEIN: ranges, the in-use rules, and hold-off agreement for this package (R103). -/
def badSkein (img : List Byte) (n : Nat) : List Nat :=
  let o := (sec img 1).1
  let used := skeinsUsed img
  let nmap := 192 * chP img
  ((List.range 64).flatMap fun i =>
    let e := leAt img (o + 8 * i) 8
    badIf (if used.contains i then !bit e i else e ≠ 0) (o + 8 * i)) ++
  ((indexed (slice img (o + 0x200) nmap)).flatMap fun x =>
    badIf (63 < x.2.toNat && x.2.toNat ≠ 0xFF) (o + 0x200 + x.1)) ++
  ((List.range 192).flatMap fun c =>
    badIf ((coreSkein img n c = 0xFF) ≠ holdOff img n c) (o + 0x200 + 192 * recIdx img n + c)) ++
  ((indexed (chunks 4 (secCount img 1) (slice img (o + 0x200 + nmap) (4 * secCount img 1)))).flatMap fun x =>
    let a := o + 0x200 + nmap + 4 * x.1
    badIf (63 < u8 x.2 0) a ++ badIf (31 < u8 x.2 1) (a + 1) ++ badIf (63 < u8 x.2 2) (a + 2) ++ badIf (1 < u8 x.2 3) (a + 3)) ++
  badZero img (o + 0x200 + nmap + 4 * secCount img 1) ((sec img 1).2 - (0x200 + nmap + 4 * secCount img 1))

def badPdom (img : List Byte) : List Nat :=
  (indexed (chunks 40 (chP img) (secBody img 2))).flatMap fun x =>
    let a := (sec img 2).1 + 40 * x.1
    badIf (15 < u8 x.2 2) (a + 2) ++ badIf (1 < u8 x.2 4) (a + 4) ++ badZero img (a + 5) 3 ++
    badIf (15 < leAt x.2 0x20 8) (a + 8)

/-- A plane number or 0xFF. -/
def planeOk (v : Nat) : Bool := v < 4 || v = 0xFF

def badRoute (img : List Byte) : List Nat :=
  let o := routeAt img
  if chScope img = 0 then [] else
  badIf (31 < u8 img o) o ++ badIf (31 < u8 img (o + 1)) (o + 1) ++
  ((List.range 3).flatMap fun i => badIf (31 < u8 img (o + 2 + i) && u8 img (o + 2 + i) ≠ 0xFF) (o + 2 + i)) ++
  badZero img (o + 5) 3 ++ badZero img (o + 0xC) 4 ++
  ((indexed (chunks 4 32 (slice img (o + 0x10) 128))).flatMap fun x =>
    let a := o + 0x10 + 4 * x.1
    badIf (!planeOk (u8 x.2 0)) a ++ badIf (!planeOk (u8 x.2 1)) (a + 1) ++ badZero img (a + 2) 2) ++
  ((indexed (chunks 2 576 (slice img (o + 0x90) 1152))).flatMap fun x =>
    let a := o + 0x90 + 2 * x.1
    badIf (31 < u8 x.2 0 && u8 x.2 0 ≠ 0xFF) a ++
    badIf (if u8 x.2 0 = 0xFF then u8 x.2 1 ≠ 0 else 143 < u8 x.2 1) (a + 1)) ++
  ((indexed (chunks 4 9216 (slice img (o + 0x510) 36864))).flatMap fun x =>
    let a := o + 0x510 + 4 * x.1
    let same := x.1 / 96 = x.1 % 96
    let viaBad (v : Nat) : Bool := if same then v ≠ 0x7E else 95 < v && v ≠ 0x7F
    badIf (viaBad (u8 x.2 0)) a ++ badIf (viaBad (u8 x.2 1)) (a + 1) ++
    badIf (u8 x.2 2 % 4 = 3 || 15 < u8 x.2 2 || (same && u8 x.2 2 ≠ 0)) (a + 2) ++
    badIf (if u8 x.2 2 % 4 = 1 then 95 < u8 x.2 3 else u8 x.2 3 ≠ 0xFF) (a + 3))

/-- R107, R168: FANOUT names row and column links of Table 1.2 only. -/
def badCast (img : List Byte) : List Nat :=
  if chScope img = 0 then [] else
  let o := (sec img 4).1
  let rs := indexed (chunks 416 (secCount img 4) (secBody img 4))
  if secCount img 4 = 0 then badZero img o 8 else
  rs.flatMap fun x =>
    let a := o + 416 * x.1
    let r := x.2
    let up := treeUplink r
    let before := rs.filter (fun y => y.1 < x.1)
    badIf (63 < u8 r 0 || before.any (fun y => u8 r 0 ≤ u8 y.2 0)) a ++
    badIf (3 < u8 r 1) (a + 1) ++ badIf (95 < u8 r 2) (a + 2) ++
    badIf (if up then 3 < u8 r 3 else u8 r 3 ≠ 0) (a + 3) ++
    badIf (treeBuffer r < 4 || 64 < treeBuffer r) (a + 4) ++
    badIf (if up then 31 < u8 r 6 else u8 r 6 ≠ 0) (a + 6) ++
    badIf (if up then 63 < u8 r 7 else u8 r 7 ≠ 0) (a + 7) ++
    badZero img (a + 0x14) 12 ++
    ((List.range 96).flatMap fun n =>
      badIf (1 < u8 r (0x23 + 4 * n) || (List.range 24).any fun q => bit (treeFanout r n) q && (portPeer n q).isNone)
        (a + 0x20 + 4 * n))

def badWind (img : List Byte) : List Nat :=
  if chScope img = 0 then [] else
  let o := windAt img
  let winBad (w : Nat) : Bool := w < 1 || 512 < w
  ((List.range 6).flatMap fun i =>
    badIf (if i = 1 || i = 5 then leAt img (o + 2 * i) 2 ≠ 0 else winBad (leAt img (o + 2 * i) 2)) (o + 2 * i)) ++
  badZero img (o + 0xC) 4 ++
  badIf (ackCount img < 1 || 64 < ackCount img) (o + 0x10) ++ badIf (ackTime img < 1 || 50 < ackTime img) (o + 0x11) ++
  badZero img (o + 0x12) 14 ++
  ((List.range 96).flatMap fun n => badIf (respReserve img n = 0) (o + 0x20 + 2 * n)) ++
  ((indexed (chunks 8 (secCount img 5) (slice img (o + 0xE0) (8 * secCount img 5)))).flatMap fun x =>
    let a := o + 0xE0 + 8 * x.1
    badIf (95 < u8 x.2 0 && u8 x.2 0 ≠ 0xFF) a ++ badIf (95 < u8 x.2 1 && u8 x.2 1 ≠ 0xFF) (a + 1) ++
    badIf (31 < u8 x.2 2 && u8 x.2 2 ≠ 0xFF) (a + 2) ++
    badIf (!(u8 x.2 3 = 0 || u8 x.2 3 = 2 || u8 x.2 3 = 3 || u8 x.2 3 = 4)) (a + 3) ++
    badIf (winBad (leAt x.2 4 2)) (a + 4) ++ badZero img (a + 6) 2)

/-- Local HBM in bytes (R39) and the save area of R74. -/
def hbmBytes : Nat := 288 * 2 ^ 30
def saveArea : Nat := 544 * 2 ^ 20

/-- R109: order, ranges, MERGE_TREE and collection rules, and the range of shards on this package. -/
def badShard (img : List Byte) (rack n : Nat) : List Nat :=
  if chScope img = 0 then [] else
  let o := (sec img 6).1
  if secCount img 6 = 0 then badZero img o 8 else
  let rs := indexed (shardRecs img)
  rs.flatMap fun x =>
    let a := o + 32 * x.1
    let r := x.2
    let before := rs.filter (fun y => y.1 < x.1)
    let top := if pdomSave img n then hbmBytes - saveArea else hbmBytes
    badIf (before.any fun y => r.collection < y.2.collection) a ++
    badIf (before.any fun y => r.collection = y.2.collection && r.shard ≤ y.2.shard) (a + 2) ++
    badIf (31 < r.rack) (a + 4) ++ badIf (95 < r.index) (a + 5) ++ badIf (3 < r.ctile) (a + 6) ++
    badIf (r.units < 1 || 16 < r.units || before.any (fun y => y.2.collection = r.collection && y.2.units ≠ r.units)) (a + 7) ++
    badIf (r.base % 4096 ≠ 0 ||
      (r.rack = rack && r.index = n && top < r.base + 16 * r.units * r.sketches)) (a + 8) ++
    badIf (r.sketches = 0) (a + 0x10) ++
    badIf (63 < r.tree || (r.rack = rack && !treeReverse (treeRec img r.tree)) ||
      before.any (fun y => y.2.collection = r.collection && y.2.tree ≠ r.tree)) (a + 0x18) ++
    badZero img (a + 0x19) 7

/-- R110. -/
def badRota (img : List Byte) (n : Nat) : List Nat :=
  let o := (sec img 7).1
  if secCount img 7 = 0 then badZero img o 8 else
  let rs := indexed (chunks 72 (secCount img 7) (secBody img 7))
  rs.flatMap fun x =>
    let a := o + 72 * x.1
    let b := x.2
    let before := rs.filter (fun y => y.1 < x.1)
    let m := u8 b 4
    let mine := u8 b 0 = recIdx img n
    let named (i : Nat) : List Nat :=
      (before.filter (fun y => u8 y.2 0 = u8 b 0)).flatMap (fun y => (slice y.2 8 (u8 y.2 4)).map BitVec.toNat) ++
      (slice b 8 i).map BitVec.toNat
    badIf (95 < u8 b 0 || (chScope img = 0 && u8 b 0 ≠ 0) || before.any (fun y => u8 b 0 < u8 y.2 0)) a ++
    badIf (31 < u8 b 1 || before.any (fun y => u8 y.2 0 = u8 b 0 && u8 b 1 ≤ u8 y.2 1)) (a + 1) ++
    badIf (leAt b 2 2 < 5 || 1000 < leAt b 2 2) (a + 2) ++ badIf (m < 2 || 64 < m) (a + 4) ++ badZero img (a + 5) 3 ++
    ((List.range 64).flatMap fun i =>
      let c := u8 b (8 + i)
      badIf (if i < m then 191 < c || (mine && (named i).contains c) ||
          (mine && (holdOff img n c || coreSkein img n c ≠ coreSkein img n (u8 b 8)))
        else c ≠ 0xFF) (a + 8 + i))

def badCaps (img : List Byte) : List Nat :=
  let wattBad (lo hi v : Nat) : Bool := v < lo || hi < v || v % 5 ≠ 0
  (indexed (chunks 16 (chP img) (secBody img 8))).flatMap fun x =>
    let a := (sec img 8).1 + 16 * x.1
    badIf (wattBad 150 1150 (leAt x.2 2 2)) (a + 2) ++ badIf (wattBad (leAt x.2 2 2) 1150 (leAt x.2 4 2)) (a + 4) ++
    badIf (u8 x.2 6 < 1 || 64 < u8 x.2 6) (a + 6) ++ badZero img (a + 7) 1 ++
    ((List.range 4).flatMap fun t => badIf (wattBad 20 240 (leAt x.2 (8 + 2 * t) 2)) (a + 8 + 2 * t))

/-- R112: orders, windows, and that every package lies in exactly one region and every region has a member. -/
def badTurn (img : List Byte) : List Nat :=
  if chScope img = 0 then [] else
  let o := (sec img 9).1
  let rs := indexed (chunks 16 (secCount img 9) (secBody img 9))
  (rs.flatMap fun x =>
    let a := o + 16 * x.1
    let before := rs.filter (fun y => y.1 < x.1)
    badIf (u8 x.2 0 ≠ x.1) a ++ badIf (u8 x.2 1 < 1 || 80 < u8 x.2 1) (a + 1) ++ badZero img (a + 2) 2 ++
    badIf (leAt x.2 4 12 = 0) (a + 4) ++
    ((List.range 96).flatMap fun n =>
      badIf (bit (leAt x.2 4 12) n && before.any (fun y => bit (leAt y.2 4 12) n)) (a + 4 + n / 8))) ++
  ((List.range 96).flatMap fun n => badIf (!(rs.any fun x => bit (leAt x.2 4 12) n)) (o + 4 + n / 8))

/-- Every offset that fails step 10 (R393). A field with a reserved bit set is out of range (log 61). -/
def badFields (img : List Byte) (rack n : Nat) : List Nat :=
  badHeader img ++
  (((List.range 11).filter (fun o => 1 ≤ o && (sec img o).1 ≠ 0)).flatMap fun o =>
    badIf (u8 img ((sec img o).1 - 4) ≠ 1) ((sec img o).1 - 4) ++ badZero img ((sec img o).1 - 3) 3) ++
  badSkein img n ++ badPdom img ++ badRoute img ++ badCast img ++ badWind img ++ badShard img rack n ++ badRota img n ++
  badCaps img ++ badTurn img ++ badZero img ((sec img 10).1 + 2) 14

/-- The section whose header or body holds an offset; 0 for the image header. -/
def sectionAt (img : List Byte) (off : Nat) : Nat :=
  ((List.range 11).find? fun o => 1 ≤ o && (sec img o).1 ≠ 0 && (sec img o).1 - 16 ≤ off && off < (sec img o).1 + (sec img o).2).getD 0

/-- What validation needs to know of the package: its address, rack index, active image, Chart keys, and whether placed storage
lies in the save area. -/
structure ChartCtx where
  addr : Nat
  index : Nat
  active : List Byte
  keys : SMap KeySlot
  saveUsed : Bool
  deriving DecidableEq, Repr

/-- The signature over every byte before the SIGN section header (R113). -/
def signatureOk (img : List Byte) (key : BitVec 384 × BitVec 384) : Bool :=
  let o := (sec img 10).1
  ecdsaVerify key.1 key.2 (sha384 (img.take (o - 16)))
    (BitVec.ofNat 384 (leAt img (o + 0x10) 48)) (BitVec.ofNat 384 (leAt img (o + 0x40) 48))

/-- The first section, in table order, whose CHECK fails (step 7). -/
def badSection (img : List Byte) : Option Nat :=
  (List.range 11).find? (fun o => 1 ≤ o && (sec img o).1 ≠ 0 && crc64 (secBody img o) ≠ leAt img ((sec img o).1 - 16) 8)
/-- R101. -/
def epochOk (img active : List Byte) : Bool :=
  (chSafe img == decide (chEpoch img = 0)) &&
  (active.isEmpty ||
    (chEpoch img ≠ 0 && chEpoch active < chEpoch img && chEpoch img % 2 ≠ chEpoch active % 2))

/-- The first six steps of Table 5.6: the code of the one that fails. -/
def formFault (addr : Nat) (img : List Byte) : Option Nat :=
  if slice img 0 4 ≠ [0x43, 0x48, 0x52, 0x54] then some 1
  else if u8 img 4 ≠ 1 || u8 img 5 ≠ 0 || leAt img 6 2 ≠ 256 then some 2
  else if img.length < 256 || leAt img 0x10 4 ≠ img.length || img.length % 8 ≠ 0 || 4 * 2 ^ 20 < img.length then some 3
  else if crc64 (img.take 0xF8) ≠ leAt img 0xF8 8 then some 4
  else if !((chScope img = 0 && chTarget img = addr) || (chScope img = 1 && chTarget img = addr / 128 * 128)) then some 5
  else if !tableOk img then some 6
  else none
/-- The eleven steps of Table 5.6: the code, and the section and offset that CHT_FAULT_WHERE shows (R114, R393). -/
def validate (x : ChartCtx) (img : List Byte) : Nat × Nat × Nat :=
  match formFault x.addr img with
  | some code => (code, 0, 0)
  | none =>
  match badSection img with
  | some o => (7, o, (sec img o).1)
  | none =>
    let slot := u8 img (sec img 10).1
    match (if slot < 4 then (sget {} x.keys slot).key else none) with
    | none => (8, 0, 0)
    | some key =>
      if u8 img ((sec img 10).1 + 1) ≠ 1 || !signatureOk img key then (9, 0, 0)
      else if !epochOk img x.active then (10, 0, 0)
      else match (badFields img (x.addr / 128) x.index).min? with
      | some o => (11, sectionAt img o, o)
      | none => if pdomSave img x.index && x.saveUsed then (12, 0, 0) else (0, 0, 0)

/-! ### Re-emission (R373) -/

/-- Bytes of an image replaced. -/
def patch (b : List Byte) (off : Nat) (v : List Byte) : List Byte := b.take off ++ v ++ b.drop (off + v.length)
/-- Chartwright's re-emission of a Chart with EPOCH one higher; only HEADER_CHECK and SIGN follow. -/
def reissue (img : List Byte) : List Byte :=
  let o := (sec img 10).1
  let a := patch img 8 (leBytes 4 (chEpoch img + 1))
  let b := patch a 0xF8 (leBytes 8 (crc64 (a.take 0xF8)))
  let sig := Config.chartSign (u8 img o) (sha384 (b.take (o - 16)))
  let c := patch (patch b (o + 0x10) (leBytes 48 (sig >>> 384).toNat)) (o + 0x40) (leBytes 48 (sig.toNat % 2 ^ 384))
  patch c (o - 16) (leBytes 8 (crc64 (secBody c 10)))

/-! ### The fleet image, which Almanacs hold (R98, R99, R102, R105, R112) -/

def chParentEpoch (img : List Byte) : Nat := leAt img 0x18 4
def chParentCheck (img : List Byte) : Nat := leAt img 0x20 8
def chHeaderCheck (img : List Byte) : Nat := leAt img 0xF8 8
/-- The header, section table and section checks of a fleet image. -/
def fleetFormOk (img : List Byte) : Bool :=
  slice img 0 4 = [0x43, 0x48, 0x52, 0x54] && u8 img 4 = 1 && u8 img 5 = 0 && leAt img 6 2 = 256 && 256 ≤ img.length &&
    leAt img 0x10 4 = img.length && img.length % 8 = 0 && img.length ≤ 64 * 2 ^ 20 && crc64 (img.take 0xF8) = chHeaderCheck img && chScope img = 2 &&
    chTarget img = 0 && chParentEpoch img = 0 && chParentCheck img = 0 && (badHeader img).isEmpty && tableOk img && (badSection img).isNone
def fleetRacks (img : List Byte) : List Nat := (List.range 32).filter (routePresent img)
/-- A bundle-map entry that names a peer: rack and fleet-facing port. -/
def bundlePeer (img : List Byte) (a p q : Nat) : Option (Nat × Nat) :=
  if (fleetBundle img a p q).1 = 0xFF then none else some (fleetBundle img a p q)
/-- A port of a rack that R29 lets the map cable to another rack than the default does: a spare, or one of a bundle of an absent rack. -/
def freePort (img : List Byte) (q : Nat) : Bool := 128 ≤ q || !routePresent img (q / 4)
/-- A fleet-facing port keeps to the two differences that R29 allows: joined by default or through free ports, and the same seen from the other
end; a port that the default cabling joins to a present rack stays uncabled only where a spare of its plane replaces it. -/
def bundlePortOk (img : List Byte) (a p q : Nat) : Bool :=
  match bundlePeer img a p q with
  | none => freePort img q || q / 4 = a || (List.range 16).any fun i => (bundlePeer img a p (128 + i)).any (·.1 = q / 4)
  | some (r, q') =>
    q' < 144 && r < 32 && r ≠ a && routePresent img r && bundlePeer img r p q' = some (a, q) && (freePort img q || q / 4 = r) &&
      (freePort img q' || q' / 4 = a) && (freePort img q || freePort img q' || q % 4 = q' % 4)
/-- The fleet form of ROUTE (R105): its header, the plane tables, and the bundle maps as R29 allows them. -/
def fleetRouteOk (img : List Byte) : Bool :=
  let o := routeAt img
  u8 img o = 0xFF && routePresent img (routeFlagship img) && (routeSucc img).all (routePresent img) && zeroRange img (o + 5) (o + 8) &&
    zeroRange img (o + 0xC) (o + 0x10) && secCount img 3 = (fleetRacks img).length &&
    (fleetRacks img).all fun a =>
      (List.range 32).all (fun r =>
        let e := fleetBlock img a + 4 * r
        planeOk (u8 img e) && planeOk (u8 img (e + 1)) && zeroRange img (e + 2) (e + 4) &&
          (u8 img e = 0xFF) == (decide (r = a) || !routePresent img r)) &&
      (List.range 4).all fun p => (List.range 144).all (bundlePortOk img a p)
/-- The fleet form of TURN (R112): ORDER without gaps, each present rack in exactly one region, no other bit, and no empty region. -/
def fleetTurnOk (img : List Byte) : Bool :=
  let rs := turnRegions img
  (indexed rs).all (fun x => x.2.1 = x.1 && 100000 ≤ x.2.2.1 && x.2.2.1 ≤ 8000000 && x.2.2.2 ≠ 0) &&
    (List.range 96).all fun r => (rs.filter (fun x => bit x.2.2 r)).length = if r < 32 && routePresent img r then 1 else 0
/-- What the helm Almanac asks of a fleet image before it orders a turn under it. R112 states the refusal for TURN; that it refuses an image which
breaks the other rules of its form is the model's choice (DESIGN CHOICE, log 82). -/
def fleetImageOk (img : List Byte) : Bool := fleetFormOk img && fleetRouteOk img && fleetTurnOk img
/-- The rack images of one fleet turn agree with the fleet image they were compiled from (R102). -/
def parentsAgree (fleet : List Byte) (images : List (List Byte)) : Bool :=
  images.all fun img => chParentEpoch img = chEpoch fleet && chParentCheck img = chHeaderCheck fleet

/-! ### The safe first Chart (Table 5.8) -/

/-- A pair entry that follows the dimension order of Table 1.3 with no fallback: a request runs along the row first, a response along the column
first. -/
def safePair (s d : Nat) : Nat × Nat × Nat × Nat × Nat :=
  if s = d then (0x7E, 0x7E, 0, 0, 0xFF)
  else if s / 12 = d / 12 ∨ s % 12 = d % 12 then (0x7F, 0x7F, 0, 0, 0xFF)
  else (s / 12 * 12 + d % 12, d / 12 * 12 + s % 12, 0, 0, 0xFF)
/-- Whether an image has the contents that Table 5.8 fixes for the safe first Chart of a rack (R118). -/
def safeContents (rack : Nat) (img : List Byte) : Bool :=
  let ns := List.range 96
  let caps := [1, 0, 150, 0, 88, 2, 19, 0, 150, 0, 150, 0, 150, 0, 150, 0]
  chEpoch img = 0 && chSafe img && chScope img = 1 && chTarget img = 128 * rack &&
    secBody img 1 = (leBytes 8 1 ++ List.replicate (504 + 192 * 96) 0) && secBody img 2 = List.replicate 3840 0 &&
    slice img (routeAt img) 0x10 = [BitVec.ofNat 8 rack, BitVec.ofNat 8 rack, 0xFF, 0xFF, 0xFF, 0, 0, 0] ++ leBytes 4 (2 ^ rack) ++ leBytes 4 0 &&
    (List.range 32).all (fun r => planePrimary img r = 0xFF && planeFallback img r = 0xFF) &&
    (List.range 4).all (fun p => (List.range 144).all fun q => bundleEntry img p q = (0xFF, 0)) &&
    ns.all (fun s => ns.all fun d => pairEntry img s d = safePair s d) &&
    secCount img 4 = 0 && secCount img 6 = 0 && secCount img 7 = 0 && secCount img 5 = 0 &&
    [0, 2, 3, 4].all (fun c => leAt img (windAt img + 2 * c) 2 = 64) && ackCount img = 16 && ackTime img = 5 &&
    ns.all (fun n => respReserve img n = 6144) &&
    ns.all (fun n => slice img (capsAt img n) 16 = caps.map (BitVec.ofNat 8)) && turnRegions img = [(0, 8000000, 2 ^ 96 - 1)]

end Sys2Proof.Machine
end

