-- ==== Sys2Proof/Machine/Operands.lean ====
section
/-! DEFINITION. Operand forms: package and endpoint addresses, packets and the answers built from them, flow keys, ports. -/

namespace Sys2Proof.Machine
open Sys2Proof

/-! ### Addresses (Table 1.4, R34, R35) -/

/-- The package address in AON_PKG_ADDR. -/
def Pkg.addr (k : Pkg) : Nat := k.get F.AON_PKG_ADDR_ADDR
def addrRack (a : Nat) : Nat := bits a 7 5
/-- The rack index 12 × row + column that a package address names (R24). -/
def addrIndex (a : Nat) : Nat := 12 * bits a 4 3 + bits a 0 4
/-- A package address of a rack and a rack index. -/
def addrOf (rack n : Nat) : Nat := rack * 128 + n / 12 * 16 + n % 12
/-- R35: the reserved bits are zero and the column is 0–11. -/
def pkgAddrOk (a : Nat) : Bool := a < 4096 && bits a 0 4 < 12
def Pkg.rackNo (k : Pkg) : Nat := addrRack k.addr
def Pkg.idx (k : Pkg) : Nat := addrIndex k.addr
/-- The package part and the package core number of an endpoint address. -/
def epPkg (e : BitVec 24) : Nat := e.toNat / 256
def epCore (e : BitVec 24) : Nat := 48 * bits e.toNat 6 2 + bits e.toNat 0 6
def endpointOk (e : BitVec 24) : Bool := bits e.toNat 0 6 < 48 && pkgAddrOk (epPkg e)
def endpoint (addr core : Nat) : BitVec 24 := BitVec.ofNat 24 (addr * 256 + core / 48 * 64 + core % 48)
/-- The hop count between two indexes of one rack (Table 1.3). -/
def hops (n d : Nat) : Nat := if n = d then 0 else if n / 12 = d / 12 || n % 12 = d % 12 then 1 else 2

/-! ### Statuses (Table 7.5), opcodes (Table 7.4) -/

def stOK : Byte := 0
def stUnitReset : Byte := 1
def stUnitAbsent : Byte := 2
def stNoEndpoint : Byte := 3
def stNoReach : Byte := 4
def stPathDown : Byte := 5
def stAccessError : Byte := 6
def stTurnHold : Byte := 7
def stResync : Byte := 8
def stGranted : Byte := 16
def stGrantedAfterBreak : Byte := 17
def stNoSlot : Byte := 18
def stTimeout : Byte := 19
def stClaspBroken : Byte := 20
def stClaspDenied : Byte := 21
def stNotLocal : Byte := 22
def stDbgHeld : Byte := 23

def opRead : Byte := 0x01
def opWrite : Byte := 0x02
def opWritePosted : Byte := 0x03
def opAtomic : Byte := 0x04
def opClasp : Byte := 0x05
def opResponse : Byte := 0x08
def opAck : Byte := 0x09
/-- A request that completes at a response (Table 7.4). -/
def expectsResponse (op : Byte) : Bool := op == opRead || op == opWrite || op == opAtomic || op == opClasp
/-- An opcode that Table 7.4 or Table 8.1 defines; R169 reserves 0x12–0x17 and 0x1C–0x1F. -/
def opcodeOk (op : Byte) : Bool :=
  (0x01 ≤ op && op ≤ 0x05) || op == opResponse || op == opAck || op == 0x10 || op == 0x11 ||
    (0x18 ≤ op && op ≤ 0x1B) || (0x20 ≤ op && op ≤ 0x2F)
/-- The class of an opcode (Table 7.4, Table 8.1); casts are class 2 and tally contributions class 3. -/
def opcodeClass (op : Byte) : Nat :=
  if op ≤ 0x05 then 0 else if op ≤ 0x09 then 1 else if op ≤ 0x17 then 2 else if op ≤ 0x1F then 3 else 4

/-! ### Packets -/

/-- Flits of a packet (R146). -/
def flits (pk : Packet) : Nat := 1 + (pk.payload.length - 32 + 63) / 64
/-- The 32 bytes of a packet header (Table 7.3). A reserved bit that is set shows as bit 15 of LEN (log 41). -/
def headerBytes (k : Packet) (len : Nat) : List Byte :=
  let flags := k.epoch.toNat + 2 * k.pkg.toNat + 4 * k.poison.toNat + 8 * k.newflow.toNat + 16 * k.fallback.toNat +
    32 * k.misrouted.toNat + 64 * k.castKind.toNat
  [k.opcode] ++ leBytes 1 flags ++ leBytes 1 (k.vc.toNat + 8 * k.cls.toNat) ++ [k.status] ++ leBytes 3 k.dst.toNat ++ [k.tree] ++
    leBytes 3 k.src.toNat ++ [k.incarnation] ++ leBytes 4 k.seq.toNat ++ leBytes 2 (len + 2 ^ 15 * k.reserved.toNat) ++
    leBytes 2 k.birth.toNat ++ [k.sgen, k.fgen] ++ leBytes 2 k.tag.toNat ++ leBytes 8 k.addr.toNat
/-- The bytes of a packet's flits (R146); what a flit holds past the payload is zero (log 62). -/
def flitBytes (pk : Packet) : List Byte :=
  let b := headerBytes pk pk.payload.length ++ pk.payload
  b ++ List.replicate (64 * flits pk - b.length) 0
/-- Bytes 0–11 of a control word (Table 7.2). -/
def blockControl (b : Block) : List Byte :=
  [b.bseq, b.ackseq, BitVec.ofNat 8 (b.nak.toNat + 2 * b.goingDark.toNat + 4 * b.moor.toNat + 8 * b.backInService.toNat), b.castTree] ++
    b.credits ++ leBytes 1 b.dataFlits ++ [0]
/-- A block with the CRC-32C of its 64 flits, the first of which hold `data`, and of its control word (Table 7.2); idle flits are zero (log 62). -/
def sealBlock (data : List Byte) (b : Block) : Block :=
  { b with crc := BitVec.ofNat 32 (crc32c (data ++ List.replicate (4096 - data.length) 0 ++ blockControl b)) }
/-- BIRTH: fleet time in µs, mod 65,536. -/
def Pkg.birth (now : Nat) (k : Pkg) : BitVec 16 := BitVec.ofNat 16 (k.time now / 1000)
/-- The epoch bit on the package's own traffic. -/
def Pkg.stamp (k : Pkg) : Bool := k.get F.CHT_SLOT_STATUS_STAMP = 1
/-- A core's incarnation number (R59). -/
def Pkg.coreInc (k : Pkg) (c : Nat) : Byte := sget 0 k.ret.coreInc c

/-- A packet that a package originates, with every header field it does not set left zero (R146). -/
def Pkg.newPacket (now : Nat) (k : Pkg) (op : Byte) (cls : BitVec 3) (dst src : BitVec 24) (payload : List Byte) : Packet :=
  { opcode := op, epoch := k.stamp, pkg := false, poison := false, newflow := false, fallback := false, misrouted := false,
    castKind := 0, vc := cls, cls := cls, status := 0, dst := dst, tree := 0, src := src, incarnation := 0, seq := 0,
    birth := k.birth now, sgen := k.ret.pkgInc, fgen := 0, tag := 0, addr := 0, reserved := false, want := 0, payload := payload }

/-- The response to a request: it echoes TAG, SEQ, FGEN and INCARNATION and carries the bit of the request (R59, R138, R146). -/
def Pkg.response (now : Nat) (k : Pkg) (rq : Packet) (status : Byte) (poison : Bool) (data : List Byte) : Packet :=
  { k.newPacket now opResponse 1 rq.src (if rq.pkg then BitVec.ofNat 24 (k.addr * 256) else rq.dst) data with
    epoch := rq.epoch, poison := poison, status := status, incarnation := rq.incarnation, seq := rq.seq, fgen := rq.fgen,
    tag := rq.tag }

/-- Send a response to a request. -/
def Pkg.answer (now : Nat) (rq : Packet) (status : Byte) (poison : Bool) (data : List Byte) (k : Pkg) : Pkg :=
  k.emit (.packet (k.response now rq status poison data))

/-- The key of a flow: peer package address, class, tree (R158, R175); row casts stand as tree 64 and column casts as tree 65. -/
def flowKey (peer cls tree : Nat) : Nat := (peer * 8 + cls) * 128 + tree
/-- The F-tile that keeps the flow state of a peer (R158). -/
def Pkg.flowTile (k : Pkg) (peer : Nat) : Nat :=
  if addrRack peer = k.rackNo then addrIndex peer % 2 else (addrRack peer + addrIndex peer) % 2

/-- A management packet to a package (R146: PKG = 1, package addresses in DST and SRC). -/
def Pkg.mgmt (now : Nat) (k : Pkg) (op : Byte) (dst : Nat) (payload : List Byte) : Packet :=
  { k.newPacket now op 4 (BitVec.ofNat 24 (dst * 256)) (BitVec.ofNat 24 (k.addr * 256)) payload with pkg := true }

end Sys2Proof.Machine
end

