-- ==== Sys2Proof/Machine/Flags.lean ====
section
/-! DEFINITION. Status bits and event counters: the computations that every unit sets them through. -/

namespace Sys2Proof.Machine
open Sys2Proof

/-- Set further bits of a field (W1C and RC bits, R15). -/
def Pkg.orBits (k : Pkg) (f : Fld) (v : Nat) : Pkg := k.put f (k.get f ||| v)
/-- Clear bits of a field. -/
def Pkg.clearBits (k : Pkg) (f : Fld) (v : Nat) : Pkg := k.put f (k.get f &&& ((2 ^ f.width - 1) ^^^ v))

/-! ### Wake causes (AON_WAKE_CAUSE, R78) -/

def Pkg.wakeCause (k : Pkg) (b : Nat) : Pkg := k.orBits F.AON_WAKE_CAUSE_CAUSE (2 ^ b)
/-- The port of the first link wake since the last read. -/
def Pkg.wakeCauseLink (k : Pkg) (port : Nat) : Pkg :=
  (if bit (k.get F.AON_WAKE_CAUSE_CAUSE) 0 then k else k.put F.AON_WAKE_CAUSE_PORT port).wakeCause 0

/-! ### Power domains (R71) -/

def Pkg.domainOn (k : Pkg) (d : Nat) : Bool := bit (k.rg (R.AON_DOMAIN_ON (d / 32))).toNat (d % 32)
def Pkg.setDomain (b : Bool) (d : Nat) (k : Pkg) : Pkg :=
  k.setRg (R.AON_DOMAIN_ON (d / 32)) (putBits (k.rg (R.AON_DOMAIN_ON (d / 32))) (d % 32) 1 b.toNat)
def Pkg.setDomains (b : Bool) (ds : List Nat) (k : Pkg) : Pkg := ds.foldl (fun k d => k.setDomain b d) k

/-! ### Faults (CORE_FAULT_STATUS, FLT_COUNTS, FLT_QUAR) -/

def Pkg.coreFault (k : Pkg) (c b : Nat) : Pkg := k.orBits (F.CORE_FAULT_STATUS_BITS c) (2 ^ b)
/-- Count an event by class: 0 CE, 1 UC, 2 FT. -/
def Pkg.countFault (k : Pkg) (cls : Nat) : Pkg :=
  k.count (if cls = 0 then F.FLT_COUNTS_CE else if cls = 1 then F.FLT_COUNTS_UC else F.FLT_COUNTS_FT) 1
def Pkg.quarBit (k : Pkg) (u : Nat) : Bool := bit (k.rg (R.FLT_QUAR (u / 32))).toNat (u % 32)
def Pkg.setQuar (u : Nat) (b : Bool) (k : Pkg) : Pkg :=
  k.setRg (R.FLT_QUAR (u / 32)) (putBits (k.rg (R.FLT_QUAR (u / 32))) (u % 32) 1 b.toNat)
def Pkg.quarCount (k : Pkg) : Nat := ((List.range 256).filter (k.quarBit ·)).length

/-! ### The Chart and the turn (CHT_SLOT_STATUS, CHT_TURN_STATUS) -/

def Pkg.shadowState (k : Pkg) : Nat := k.get F.CHT_SLOT_STATUS_SHADOW_STATE
def Pkg.phase (k : Pkg) : Nat := k.get F.CHT_TURN_STATUS_PHASE
/-- A turn is in progress (R123). -/
def Pkg.turning (k : Pkg) : Bool := k.phase ≠ 0
def Pkg.ownState (k : Pkg) : Nat := k.get F.CHT_TURN_STATUS_OWN_STATE

/-! ### Alarms (THR_ALARM): SEEN is set at each entry and cleared by firmware -/

def Pkg.alarmLive (k : Pkg) (b : Nat) : Bool := bit (k.get F.THR_ALARM_LIVE) b
def Pkg.alarm (k : Pkg) (b : Nat) (live : Bool) : Pkg :=
  if live then
    if k.alarmLive b then k else (k.orBits F.THR_ALARM_LIVE (2 ^ b)).orBits F.THR_ALARM_SEEN (2 ^ b)
  else k.clearBits F.THR_ALARM_LIVE (2 ^ b)

end Sys2Proof.Machine
end

