-- ==== Sys2Proof/Machine/Units.lean ====
section
/-! DEFINITION. What several families do to the units of a package: waking (R78), clasps (R52–R55), incarnations (R59, R60),
going dark and coming back (R56–R58), and the loss of segments (R50). -/

namespace Sys2Proof.Machine
open Sys2Proof

/-! ### Domains (Table 3.2) and waking (Table 3.4) -/

def infraDomains : List Nat := (List.range 20).map (392 + ·)
def coreDomains (c : Nat) : List Nat := [c, 192 + c, 384 + c / 48]
def allDomains : List Nat := List.range 412

/-! ### Slots and the cores that run them (R271) -/

/-- Where a slot stands among a set's members. -/
def Rota.posOf (x : Rota) (c : Nat) : Option Nat := x.members.findIdx? (· == c)
/-- The physical core that runs a slot: member k of a set with shift r runs on member (k + r) mod M. -/
def Pkg.phys (k : Pkg) (c : Nat) : Nat :=
  (k.thr.rotas.findSome? fun e => (e.2.posOf c).map fun i =>
    e.2.members.getD ((i + k.get (F.THR_ROTA_SHIFT e.1)) % e.2.members.length) c).getD c
/-- A slot that a migration pauses (R273). -/
def Pkg.paused (k : Pkg) (c : Nat) : Bool := k.thr.rotas.any (fun e => e.2.migrating && e.2.members.contains c)
/-- The slots that run on a C-tile. -/
def Pkg.tileSlots (k : Pkg) (t : Nat) : List Nat := (List.range 192).filter (fun c => k.phys c / 48 = t)

def Pkg.moored (k : Pkg) : Bool := k.get F.AON_PKG_STATE_PKG = 2
def Pkg.mooring (k : Pkg) : Bool := k.get F.AON_PKG_STATE_PKG = 1
def Pkg.pstate (k : Pkg) (c : Nat) : Nat := k.get (F.CORE_PSTATE_STATE c)
def Pkg.setPstate (k : Pkg) (c v : Nat) : Pkg := k.put (F.CORE_PSTATE_STATE c) v
def Pkg.cFurled (k : Pkg) (t : Nat) : Bool := bit (k.get F.AON_PKG_STATE_C_FURLED) t
def Pkg.sFurled (k : Pkg) : Bool := k.get F.AON_PKG_STATE_S_FURLED = 1
def Pkg.setAon (f : AonSt → AonSt) (k : Pkg) : Pkg := { k with aon := f k.aon }

/-- A wake finds the package moored, and it leaves Moor for a state of PKG; or it finds an entry to Moor under way, which stops and is undone. -/
def Pkg.leaveMoor (v : Nat) (k : Pkg) : Pkg :=
  if k.moored then k.put F.AON_PKG_STATE_PKG v else if k.mooring then k.put F.AON_PKG_STATE_PKG 0 else k
/-- Power some domains; a tile or the S-tile among them is no longer furled. -/
def Pkg.power (ds : List Nat) (k : Pkg) : Pkg :=
  let k1 := (k.setDomains true ds).clearBits F.AON_PKG_STATE_C_FURLED
    ((((List.range 4).filter (fun t => ds.contains (384 + t))).map (2 ^ ·)).foldl (· + ·) 0)
  if (List.range 4).any (fun i => ds.contains (406 + i)) then k1.put F.AON_PKG_STATE_S_FURLED 0 else k1
/-- Bring up the package infrastructure. A moored package is then waking. -/
def Pkg.wakeInfra (k : Pkg) : Pkg := (k.power infraDomains).leaveMoor 3
/-- Whether the infrastructure is up. -/
def Pkg.infraUp (k : Pkg) : Bool := infraDomains.all k.domainOn && !k.sFurled
/-- A shadow-slot load or a turn step wakes the infrastructure if it is not up (Table 3.4). -/
def Pkg.wakeForChart (k : Pkg) : Pkg := if k.infraUp then k else k.wakeInfra.wakeCause 6
/-- Start the wake of a core asleep in Nap or deeper, of its tile and of the S-tile; a dark core does not wake. -/
def Pkg.wakeCore (c : Nat) (k : Pkg) : Pkg :=
  if k.pstate c < 2 || k.aon.waking.contains c then k
  else (((k.power (coreDomains (k.phys c))).put F.AON_PKG_STATE_S_FURLED 0).leaveMoor 3).setAon fun a => { a with waking := a.waking ++ [c] }
/-- Bring up some domains of a package; a moored package leaves Moor (R76). -/
def Pkg.wakeDomains (ds : List Nat) (k : Pkg) : Pkg := (k.power ds).leaveMoor 0
/-- Wake the H-tile fast domain for an AON fault (R320, Table 3.4). -/
def Pkg.wakeHtile (k : Pkg) : Pkg := if k.domainOn 410 then k else (k.wakeDomains [410]).wakeCause 5
/-- The conditions of Moor no longer hold together (R76). -/
def Pkg.stir (k : Pkg) : Pkg := k.setAon fun a => { a with heldFrom := serase a.heldFrom 4 }
/-- A core in Idle with work to issue is in Run (Table 3.3). -/
def Pkg.issues (c : Nat) (k : Pkg) : Pkg :=
  if c < 192 ∧ k.pstate c = 1 then (k.setPstate c 0).setAon fun a => { a with idleAt := serase a.idleAt c } else k

/-! ### Dark units (R56, Table 2.5) -/

/-- A dark entry covers a slot, which runs on a physical core. -/
def darkCovers (u : DarkUnit) (c core : Nat) : Bool :=
  match u with
  | .core d => d.val = c
  | .ctile t => t.val = core / 48
  | .package => true
  | _ => false
/-- A core is dark: reset, held off, fenced, or inside a unit that is. -/
def Pkg.coreDark (k : Pkg) (c : Nat) : Bool := k.dark.dark.any (fun e => darkCovers e.1 c (k.phys c))
/-- A packet to a core in Nap or Doze wakes it (Table 3.4). -/
def Pkg.wakeFor (c : Nat) (k : Pkg) : Pkg :=
  if 2 ≤ k.pstate c && !k.coreDark c && !k.aon.waking.contains c then (k.wakeCore c).wakeCause 1 else k
def Pkg.pkgDark (k : Pkg) : Bool := k.dark.dark.any (fun e => decide (e.1 = .package))
def Pkg.stileDark (k : Pkg) : Bool := k.dark.dark.any (fun e => decide (e.1 = .stile))
def Pkg.addDark (u : DarkUnit) (cause : DarkCause) (k : Pkg) : Pkg :=
  if k.dark.dark.contains (u, cause) then k else { k with dark := { k.dark with dark := k.dark.dark ++ [(u, cause)] } }
def Pkg.removeDark (p : DarkUnit × DarkCause → Bool) (k : Pkg) : Pkg :=
  { k with dark := { k.dark with dark := k.dark.dark.filter (fun e => !p e) } }

/-! ### Segments (R43, R50) -/

/-- The core and entry numbers of a segment key. -/
def segKey (c n : Nat) : Nat := 64 * c + n
def Pkg.segValid (k : Pkg) (c n : Nat) : Bool := k.get (F.CORE_SEG_CTRL_VALID c n) = 1
def Pkg.segStatus (k : Pkg) (c n : Nat) : Nat := k.get (F.CORE_SEG_CTRL_STATUS c n)
/-- Placed segments that meet a condition become LOST, and storage that is gone is freed at once; a placement that has not ended ends LOST (R50). -/
def Pkg.loseSegs (p : Nat → Storage → Bool) (k : Pkg) : Pkg :=
  let gone := k.mem.segs.filter (fun e => p e.1 e.2)
  let k1 := gone.foldl (fun k e => k.put (F.CORE_SEG_CTRL_STATUS (e.1 / 64) (e.1 % 64)) 6) k
  { k1 with mem := { k1.mem with
    segs := k1.mem.segs.filter (fun e => !p e.1 e.2),
    lostLent := (gone.filter (fun e => e.2.tier = 3 ∨ e.2.tier = 4)).foldl (fun l e => sinsert l e.1 e.2) k1.mem.lostLent,
    placing := k1.mem.placing.map (fun x => if x.store.any (p (segKey x.core x.entry)) then { x with outcome := 6 } else x) } }

/-! ### Check-value jobs (R94, R95) -/

def Pkg.csuBusy (k : Pkg) (u : Nat) : Bool := k.get (F.CSU_STATUS_STATE u) = 1
/-- A job ends: VALID only if DONE (2), and MSI-X 48 + unit if IRQ is set. -/
def Pkg.csuEnd (u state code : Nat) (k : Pkg) : Pkg :=
  let k1 := ((k.put (F.CSU_STATUS_STATE u) state).put (F.CSU_STATUS_CODE u) code).flag (F.CSU_STATUS_VALID u) (decide (state = 2))
  if k.get (F.CSU_CTRL_IRQ u) = 1 then k1.emit (.msix (48 + u)) else k1
/-- A running scan (R87): its space, its core in space 5, and its range. -/
structure Scanning where
  space : Nat
  core : Nat
  off : Nat
  len : Nat
  deriving DecidableEq, Repr
/-- The scan that a unit runs, if any. -/
def Pkg.csuScan (k : Pkg) (u : Nat) : Option Scanning :=
  if k.csuBusy u ∧ k.get (F.CSU_CTRL_MODE u) = 0 then
    some ⟨k.get (F.CSU_CTRL_SPACE u), k.get (F.CSU_CTRL_CORE u), k.wide (R.CSU_ADDR_LO u), k.wide (R.CSU_LEN_LO u)⟩
  else none
/-- Some unit scans a source that meets a condition. -/
def Pkg.scans (k : Pkg) (p : Scanning → Bool) : Bool := (List.range 10).any (fun u => (k.csuScan u).any p)
/-- Two byte ranges meet. -/
def meets (a la b lb : Nat) : Bool := a < b + lb && b < a + la
/-- The C-tile whose stacks 2t and 2t + 1 hold a byte of local HBM (R39, R207), and the stack itself. -/
def hbmTile (off : Nat) : Nat := off / (72 * 2 ^ 30) % 4
def stackOf (off : Nat) : Nat := 2 * hbmTile off + off / 4096 % 2
/-- A range of local HBM has a byte in a stack: pages alternate between the two stacks of a C-tile. -/
def inStack (st off len : Nat) : Bool :=
  let a := max off (st / 2 * (72 * 2 ^ 30))
  let b := min (off + len) ((st / 2 + 1) * (72 * 2 ^ 30))
  a < b && (a / 4096 % 2 = st % 2 || a / 4096 < (b - 1) / 4096)
/-- Scans of some source end with a code: SOURCE_LOST (5) when it goes dark, CHANGED (4) when it is written (R89, R95). -/
def Pkg.csuStop (code : Nat) (p : Scanning → Bool) (k : Pkg) : Pkg :=
  (List.range 10).foldl (fun k u => if (k.csuScan u).any p then k.csuEnd u 4 code else k) k
/-- The units of a tile, or of the package (Table 4.1). -/
def csuUnits : DarkUnit → List Nat
  | .ctile t => [6 + t.val]
  | .ftile f => [4 + f.val]
  | .package => List.range 10
  | _ => []
/-- The tile of some units is reset. -/
def Pkg.csuReset (us : List Nat) (k : Pkg) : Pkg := us.foldl (fun k u => if k.csuBusy u then k.csuEnd u 4 6 else k) k

/-! ### Receiver state of flows (R161) -/

def Pkg.rxFlow (k : Pkg) (key : Nat) : Option RxFlow := sfind k.fab.rx key
def Pkg.setRx (key : Nat) (f : RxFlow) (k : Pkg) : Pkg := { k with fab := { k.fab with rx := sinsert k.fab.rx key f } }
/-- The flow of an arriving packet: its source package, class and tree (R158, R175). -/
def flowOf (pk : Packet) : Nat :=
  flowKey (epPkg pk.src) pk.cls.toNat
    (if pk.cls ≠ 2 then 0 else if pk.castKind = 1 then pk.tree.toNat % 64 else if pk.castKind = 2 then 64 else 65)
/-- Keep the status, and the 8 B result of an ATOMIC, of one of the last 512 delivered requests of a flow (R161). -/
def Pkg.keep (rq : Packet) (status : Byte) (result : BitVec 64) (k : Pkg) : Pkg :=
  match k.rxFlow (flowOf rq) with
  | none => k
  | some f =>
    if f.sgen ≠ rq.sgen ∨ f.fgen ≠ rq.fgen then k
    else
      let all := f.kept.filter (fun e => e.1 ≠ rq.seq) ++ [(rq.seq, status, result)]
      k.setRx (flowOf rq) { f with kept := all.drop (all.length - 512) }

/-! ### Clocks of C-tiles (Table 11.3) -/

/-- The clock of a C-tile in MHz at its operating point, and that of the tile a core's slot runs on. -/
def Pkg.tileMhz (k : Pkg) (t : Nat) : Nat := 1900 - 200 * min 5 (k.get (F.PWR_TILE_STATE_POINT t))
def Pkg.coreMhz (k : Pkg) (c : Nat) : Nat := k.tileMhz (k.phys c / 48)
/-- So many cycles of a clock, in ns. -/
def cyclesNs (mhz c : Nat) : Nat := (1000 * c + mhz - 1) / mhz

/-! ### Clasps (R52–R55) -/

def Pkg.coreHalted (k : Pkg) (c : Nat) : Bool := k.get (F.CORE_DBG_STATUS_HALTED c) = 1
/-- What a waiter or an acquiring core hears: the answer to its packet, when a packet carried the request. -/
def Pkg.claspTell (now c : Nat) (rq : Option Packet) (status : Byte) (k : Pkg) : Pkg :=
  match rq with
  | none => k.emit (.claspStatus c status)
  | some pk => (k.keep pk status 0).answer now pk status (decide (status = stUnitReset)) []

def Pkg.setClasps (f : List Clasp → List Clasp) (k : Pkg) : Pkg := { k with mem := { k.mem with clasps := f k.mem.clasps } }
/-- Whether a clasp entry is that of a line. -/
def Clasp.at (x : Clasp) (store line : Nat) : Bool := x.store == store && x.line == line
/-- The entry of a line after its first waiter takes it; the hold timer of a halted core does not run (R54). -/
def Clasp.pass (now : Nat) (halted : Bool) (w : Waiter) (rest : List Waiter) (x : Clasp) : Clasp :=
  { x with holder := w.core, waiters := rest, since := if halted then 0 else now, paused := halted }
/-- Grant a line to its first waiter, or free it. -/
def claspNext (now : Nat) (status : Byte) (x : Clasp) (k : Pkg) : Pkg :=
  match x.waiters with
  | [] => k.setClasps (List.filter (fun y => !y.at x.store x.line))
  | w :: rest =>
    (k.setClasps (List.map (fun y => if y.at x.store x.line then y.pass now (k.coreHalted w.core) w rest else y))).claspTell now w.core w.rq status
def Clasp.dropWaiters (p : Nat → Bool) (x : Clasp) : Clasp := { x with waiters := x.waiters.filter (fun w => !p w.core) }
/-- When a holder resets, its clasps pass on with GRANTED_AFTER_BREAK, and it leaves every queue (R55). -/
def Pkg.claspHolderReset (now : Nat) (p : Nat → Bool) (k : Pkg) : Pkg :=
  let k1 := k.setClasps (List.map (Clasp.dropWaiters p))
  (k1.mem.clasps.filter (fun x => p x.holder)).foldl (fun k x => claspNext now stGrantedAfterBreak x k) k1
/-- Every waiter in the clasps that meet a condition hears a status. -/
def Pkg.tellWaiters (now : Nat) (status : Byte) (p : Clasp → Bool) (q : Waiter → Bool) (k : Pkg) : Pkg :=
  ((k.mem.clasps.filter p).flatMap (fun x => x.waiters.filter q)).foldl (fun k w => k.claspTell now w.core w.rq status) k
/-- When the core that owns a store resets, its clasps are freed and every waiter receives UNIT_RESET (R55). -/
def Pkg.claspStoreReset (now : Nat) (p : Nat → Bool) (k : Pkg) : Pkg :=
  (k.tellWaiters now stUnitReset (fun x => p x.store) (fun _ => true)).setClasps (List.filter (fun x => !p x.store))
/-- The packets queued at the clasps of a dark core's store are answered (R58). -/
def Pkg.claspStoreDark (now : Nat) (p : Nat → Bool) (k : Pkg) : Pkg :=
  (k.tellWaiters now stUnitReset (fun x => p x.store) (fun w => w.rq.isSome)).setClasps
    (List.map (fun x => if p x.store then { x with waiters := x.waiters.filter (fun w => w.rq.isNone) } else x))

/-! ### Halts (R361–R363) -/

def Pkg.setDbg (f : DbgSt → DbgSt) (k : Pkg) : Pkg := { k with dbg := f k.dbg }
/-- How many clasps a core holds. -/
def Pkg.claspsOf (k : Pkg) (c : Nat) : Nat := (k.mem.clasps.filter (fun x => x.holder = c)).length
/-- The hold timer of a clasp pauses, and its waiters leave the queue. -/
def Clasp.hold (now : Nat) (x : Clasp) : Clasp := { x with waiters := [], paused := true, since := now - x.since }
def Pkg.setPc (c pc : Nat) (k : Pkg) : Pkg := k.setWide (R.CORE_DBG_PC_LO c) pc
/-- A core halts; the address of its next instruction is not stated (log 40). With clasps still held DEFER_EXPIRED is set, and their waiters are answered DBG_HELD (R362). -/
def Pkg.haltAt (now c cause : Nat) (k : Pkg) : Pkg :=
  let mine := k.mem.clasps.filter (fun x => x.holder = c)
  let k1 := (((k.flag (F.CORE_DBG_STATUS_HALTED c) true).put (F.CORE_DBG_STATUS_CAUSE c) cause).flag (F.CORE_DBG_STATUS_DEFERRING c)
    false).flag (F.CORE_DBG_STATUS_DEFER_EXPIRED c) (!mine.isEmpty)
  let k2 := ((k1.setPc c (Config.haltedPc k.addr c now).toNat).tellWaiters now stDbgHeld (fun x => x.holder = c) (fun _ => true)).setClasps
    (List.map (fun x => if x.holder = c then x.hold now else x))
  k2.setDbg fun x => { x with defers := serase x.defers c, wantHalt := x.wantHalt.filter (· ≠ c) }
/-- A halt is asked for: at once, deferred while the core holds a clasp, or when the core is awake and its migration has ended. -/
def Pkg.askHalt (now c cause : Nat) (k : Pkg) : Pkg :=
  if k.coreDark c || k.coreHalted c || (sfind k.dbg.defers c).isSome then k
  else if 2 ≤ k.pstate c || k.aon.waking.contains c || k.paused c then
    (k.wakeCore c).setDbg fun x => { x with wantHalt := if x.wantHalt.contains c then x.wantHalt else x.wantHalt ++ [c] }
  else if k.claspsOf c = 0 then k.haltAt now c cause
  else (k.flag (F.CORE_DBG_STATUS_DEFERRING c) true).setDbg fun x => { x with defers := sinsert x.defers c (now, cause) }
/-- A deferred halt takes effect once the core holds no clasp. -/
def Pkg.haltIfFree (now c : Nat) (k : Pkg) : Pkg :=
  match sfind k.dbg.defers c with
  | some d => if k.claspsOf c = 0 then k.haltAt now c d.2 else k
  | none => k
/-- A core that was to halt as soon as it runs. -/
def Pkg.haltIfWanted (now c : Nat) (k : Pkg) : Pkg := if k.dbg.wantHalt.contains c then k.haltAt now c 1 else k
/-- A reset ends halts (R363). -/
def Pkg.endHalts (cs : List Nat) (k : Pkg) : Pkg :=
  (cs.foldl (fun k c => k.setRg (R.CORE_DBG_STATUS c) 0) k).setDbg fun x =>
    { x with defers := x.defers.filter (fun e => !cs.contains e.1), wantHalt := x.wantHalt.filter (fun c => !cs.contains c) }

/-- A time span that began at `since`, restated so that it holds the same cycles of a new clock (R238). -/
def rebased (now old new since : Nat) : Nat := now - (now - since) * old / new
/-- A C-tile's clock changes: bounds in cycles that run on it count on at the clock in force (R238). -/
def Pkg.reclock (now t old new : Nat) (k : Pkg) : Pkg :=
  let on (c : Nat) : Bool := k.phys c / 48 = t
  let waiter (w : Waiter) : Waiter := if on w.core then { w with since := rebased now old new w.since } else w
  let clasp (x : Clasp) : Clasp :=
    { x with waiters := x.waiters.map waiter,
             since := if !on x.holder then x.since else if x.paused then x.since * old / new else rebased now old new x.since }
  (k.setClasps (List.map clasp)).setDbg fun x =>
    { x with defers := x.defers.map fun e => if on e.1 then (e.1, (rebased now old new e.2.1, e.2.2)) else e }

/-! ### Incarnations (R59, R60) -/

/-- The earliest time of the next increment of an incarnation; key 192 is the package. -/
def Pkg.incReady (k : Pkg) (key : Nat) : Nat :=
  match sfind k.dark.incAt key with
  | some t => t + 100000
  | none => 0
def Pkg.bumpCore (now : Nat) (c : Nat) (k : Pkg) : Pkg :=
  { k with ret := { k.ret with coreInc := sset 0 k.ret.coreInc c (k.coreInc c + 1) },
           dark := { k.dark with incAt := sinsert k.dark.incAt c now } }
def Pkg.bumpPkg (now : Nat) (k : Pkg) : Pkg :=
  { k with ret := { k.ret with pkgInc := k.ret.pkgInc + 1 }, dark := { k.dark with incAt := sinsert k.dark.incAt 192 now } }
/-- The cores of a dark unit. -/
def Pkg.unitCores (k : Pkg) : DarkUnit → List Nat
  | .core c => [c.val]
  | .ctile t => k.tileSlots t.val
  | .package => List.range 192
  | _ => []
/-- The time at which a reset of a unit may proceed (R60). -/
def Pkg.resetReady (k : Pkg) (u : DarkUnit) : Nat :=
  ((k.unitCores u).map k.incReady).foldl max (if u = .package then k.incReady 192 else 0)

/-! ### Going dark and coming back -/

/-- A segment of a core that holds an address of its space: entry number and byte offset within it. -/
def Pkg.segAt (k : Pkg) (c a : Nat) : Option (Nat × Nat) :=
  (List.range 64).findSome? fun n =>
    let base := 4096 * (k.rg (R.CORE_SEG_BASE c n)).toNat
    let len := 4096 * k.get (F.CORE_SEG_LEN_PAGES c n)
    if k.segValid c n && base ≤ a && a < base + len then some (n, a - base) else none
/-- A C-tile is dark, and with it its HBM stacks (R39, R56). -/
def Pkg.ctileDark (k : Pkg) (t : Nat) : Bool := k.dark.dark.any fun e =>
  match e.1 with
  | .ctile u => u.val = t
  | .package => true
  | _ => false
/-- Where a request's address leads: tier and byte offset. A request with PKG = 1 leads to local HBM (R46). -/
def Pkg.leadsTo (k : Pkg) (rq : Packet) : Option (Nat × Nat) :=
  let a := bits rq.addr.toNat 0 44
  if rq.pkg then some (2, a)
  else (k.segAt (epCore rq.dst) a).bind fun e => (sfind k.mem.segs (segKey (epCore rq.dst) e.1)).map fun st => (st.tier, st.off + e.2)
/-- A request leads to storage of a unit: the S-tile, or the HBM of a C-tile. -/
def storageOf (u : DarkUnit) : Option (Nat × Nat) → Bool
  | none => false
  | some (tier, off) =>
    match u with
    | .stile => tier = 1
    | .ctile t => tier = 2 && hbmTile off = t.val
    | _ => false
/-- The unit that a request taken into this package is for: a core of the unit, or storage of it. -/
def requestTo (u : DarkUnit) (cs : List Nat) (lead : Packet → Option (Nat × Nat)) (rq : Packet) : Bool :=
  match u with
  | .package => true
  | .ftile _ => false
  | _ => (!rq.pkg && cs.contains (epCore rq.dst)) || storageOf u (lead rq)
/-- The F-tile that a request to a dark core or, with `memory`, to storage crosses (R40). -/
def Pkg.crossTile (memory : Bool) (rq : Packet) (k : Pkg) : Nat :=
  let f := if memory then (bit rq.addr.toNat 12).toNat else epCore rq.dst / 48 % 2
  if k.dark.dark.any (fun e => decide (e.1 = .ftile ⟨f % 2, Nat.mod_lt _ (by decide)⟩)) then 1 - f else f
/-- The stand-in's answer to one packet: UNIT_RESET to a request, and a discard counted in STANDIN to any other (R56). -/
def Pkg.standIn (now : Nat) (memory : Bool) (rq : Packet) (k : Pkg) : Pkg :=
  if expectsResponse rq.opcode then (k.keep rq stUnitReset 0).answer now rq stUnitReset true []
  else k.count (F.FAB_DISCARD_A_STANDIN (k.crossTile memory rq)) 1
/-- A request of the mesh completes at the core that issued it; a stale one is counted as a stale response is (R59). -/
def Pkg.meshDone (rq : Packet) (status : Byte) (data : List Byte) (k : Pkg) : Pkg :=
  if rq.incarnation = k.coreInc (epCore rq.src) then k.emit (.completion (epCore rq.src) rq.tag status data)
  else k.count (F.CORE_STALE_RESP_COUNT (epCore rq.src % 192)) 1
/-- The mesh's requests to a unit that goes dark complete with UNIT_RESET. -/
def Pkg.answerMesh (u : DarkUnit) (cs : List Nat) (k : Pkg) : Pkg :=
  let k1 := { k with fab := { k.fab with mesh := k.fab.mesh.filter (fun r => !requestTo u cs k.leadsTo r) } }
  (k.fab.mesh.filter (requestTo u cs k.leadsTo)).foldl (fun k r => k.meshDone r stUnitReset []) k1
/-- Answer every recorded request to a unit (R58). -/
def Pkg.answerRecorded (now : Nat) (u : DarkUnit) (k : Pkg) : Pkg :=
  let cs := k.unitCores u
  let mine := k.fab.inbound.filter (requestTo u cs k.leadsTo)
  let k1 := { k with fab := { k.fab with inbound := k.fab.inbound.filter (fun r => !requestTo u cs k.leadsTo r) } }
  ((mine.foldl (fun k r => k.standIn now (!cs.contains (epCore r.dst) || r.pkg) r) k1).answerMesh u cs).claspStoreDark now cs.contains
/-- Every in-service port of a package: ACTIVE (R167). -/
def Pkg.activePorts (k : Pkg) : List Nat := (k.rt.ports.filter (fun e => decide (e.2.state = .active))).map (·.1)
def Pkg.port (k : Pkg) (q : Nat) : PortSt := sget {} k.rt.ports q
def Pkg.setPort (k : Pkg) (q : Nat) (x : PortSt) : Pkg := { k with rt := { k.rt with ports := sset {} k.rt.ports q x } }
/-- Whose freed credits byte 6 of the next control word returns: the next tree in turn, 64 for the port's other reservation, that has some
outstanding (R174). -/
def PortSt.castPick (x : PortSt) : Option Nat :=
  let ts := (x.rxFreed.filter (fun e => 8 ≤ e.1 && sget 0 x.castTold e.1 ≠ e.2)).map (fun e => e.1 - 8)
  (ts.find? (fun t => x.castTurn ≤ t)).or ts.head?
/-- The next control word a port sends (Table 7.2), and the port after it. -/
def PortSt.word (nak : Bool) (x : PortSt) : PortSt × Block :=
  let t := x.castPick.getD 0
  let x1 := if x.castPick.isNone then x else { x with castTold := sset 0 x.castTold (8 + t) (sget 0 x.rxFreed (8 + t)), castTurn := t + 1 }
  (x1, { bseq := x.txBseq, ackseq := if nak then x.rxNext else x.rxNext - 1, nak := nak, goingDark := false, moor := false,
         backInService := false, castTree := BitVec.ofNat 8 t,
         credits := (List.range 6).map (fun v => BitVec.ofNat 8 (sget 0 x.rxFreed (if v = 2 then 8 + t else v))),
         dataFlits := 0, crc := 0, packets := [] })
/-- A block without data: it takes the number of the next block with data and is not kept for replay (R142, log 69). -/
def PortSt.idle (q : Nat) (nak : Bool) (x : PortSt) : PortSt × Msg :=
  ((x.word nak).1, .block q (sealBlock [] (x.word nak).2))
/-- An input frees a packet's flits; an ACTIVE port tells the other end (R149). -/
def PortSt.freed (q key flits : Nat) (x : PortSt) : PortSt × List Msg :=
  let x1 := { x with rxFreed := sset 0 x.rxFreed key (sget 0 x.rxFreed key + flits) }
  if x.state = .active then ((x1.idle q false).1, [(x1.idle q false).2]) else (x1, [])
/-- A notice on every in-service link: 0 going dark, 1 moor, 2 back in service (R57, R76, R141). It stands for a control word with that flag
(log 69). -/
def Pkg.noticeAll (kind : Nat) (k : Pkg) : Pkg := k.emits (k.activePorts.map fun q => Msg.notice q kind)
/-- The HBM stacks that a unit takes with it (R39, R207). -/
def unitStacks : DarkUnit → List Nat
  | .ctile t => [2 * t.val, 2 * t.val + 1]
  | .package => List.range 8
  | _ => []
def qUnits (b : List Byte) : Nat := u8 b 2
/-- A query reads a stack. -/
def Query.reads (q : Query) (st : Nat) : Bool := q.shards.any fun s => inStack st s.1 (16 * qUnits q.block * s.2.1)
/-- Some stacks go dark: running scans of shards that they hold will end with SOURCE_LOST (R211). -/
def Pkg.engineSourceLost (sts : List Nat) (k : Pkg) : Pkg :=
  { k with brg := k.brg.map fun e => (e.1, { e.2 with lost := e.2.lost || e.2.running.any (fun q => sts.any q.reads) }) }
/-- A unit goes dark: requests recorded for it are answered, and a package sends its going-dark notices (R56–R58). -/
def Pkg.goDark (now : Nat) (u : DarkUnit) (cause : DarkCause) (k : Pkg) : Pkg :=
  let k0 := if cause = .reset then k.csuReset (csuUnits u) else k
  let k1 := ((k0.addDark u cause).answerRecorded now u).csuStop 5 fun x =>
    (x.space = 5 && (k.unitCores u).contains x.core) || (x.space = 1 && decide (u = .stile)) ||
      (x.space = 0 && (unitStacks u).any (fun st => inStack st x.off x.len))
  let k2 := k1.engineSourceLost (unitStacks u)
  if u = .package then k2.noticeAll 0 else k2
/-- The Bearing engine of a C-tile, as tally source 192 + t (R178). -/
def engineOf (u : DarkUnit) (src : Nat) : Bool :=
  match u with
  | .ctile t => src = 192 + t.val
  | .package => 192 ≤ src
  | _ => false
/-- FRESH is set again for every tree of some sources (R178). -/
def Pkg.freshTally (p : Nat → Bool) (k : Pkg) : Pkg :=
  { k with tally := { k.tally with last := k.tally.last.filter (fun e => !p (e.1 / 64)) } }
/-- The effects of the reset of a unit on clasps, incarnations and segments (R50, R55, R59), and on what its engine holds, queued, running or
waiting to be sent (R214). -/
def Pkg.resetEffects (now : Nat) (u : DarkUnit) (k : Pkg) : Pkg :=
  let cs := k.unitCores u
  let k1 := ((k.claspStoreReset now cs.contains).claspHolderReset now cs.contains).endHalts cs
  let k2 := (cs.foldl (fun k c => k.bumpCore now c) k1).freshTally (fun src => cs.contains src || engineOf u src)
  let lost (src : Nat) : Bool := cs.contains src || engineOf u src
  let k3 := { k2 with
    brg := k2.brg.filter (fun e => !engineOf u (192 + e.1)),
    mem := { k2.mem with written := k2.mem.written.filter (fun w => !engineOf u (192 + w.1)) },
    tally := { k2.tally with waiting := k2.tally.waiting.filter (fun w => w.1 < 100 || !lost (w.1 - 100)) } }
  if u = .stile then k3.loseSegs (fun _ st => st.tier = 1) else k3
/-- Begin the reset of a unit: it goes dark, and its effects wait for R60. -/
def Pkg.beginReset (now : Nat) (u : DarkUnit) (k : Pkg) : Pkg :=
  let k1 := k.goDark now u .reset
  if k.resetReady u ≤ now then k1.resetEffects now u
  else { k1 with dark := { k1.dark with heldResets := k1.dark.heldResets ++ [u] } }
/-- The reset of a unit ends, unless R60 still holds it. -/
def Pkg.endReset (u : DarkUnit) (k : Pkg) : Pkg :=
  if k.dark.heldResets.contains u then k else k.removeDark (fun e => decide (e = (u, .reset)))

end Sys2Proof.Machine
end

