-- ==== Sys2Proof/Machine/Hub.lean ====
section
/-! DEFINITION. The fault hub: detectors and their classes (R317, R318), shadows (R326), the log and the last words (R332–R336),
what a detector's event does (R319–R321), and the start of an escalation (R322–R325). -/

namespace Sys2Proof.Machine
open Sys2Proof

/-! ### Detectors (Tables 15.1, 15.3, 15.4) -/

def detCount : Nat := 2944
/-- The unit of a detector (Table 15.1). -/
def detUnit (d : Nat) : Nat :=
  if d < 1536 then d / 8
  else if d < 1664 then (if (d - 1536) % 32 < 16 then 192 else 196) + (d - 1536) / 32
  else if d < 1920 then 200 + (d - 1664) / 32
  else if d < 2304 then 208 + (d - 1920) / 16
  else if d < 2432 then 232 + (d - 2304) / 64
  else if d < 2560 then 234 + (d - 2432) / 32
  else if d < 2720 then 238 + (d - 2560) / 16
  else 248 + (d - 2720) / 28
/-- The first detector of a unit's block (Table 15.1). -/
def detBase (u : Nat) : Nat :=
  if u < 192 then 8 * u
  else if u < 196 then 1536 + 32 * (u - 192)
  else if u < 200 then 1552 + 32 * (u - 196)
  else if u < 208 then 1664 + 32 * (u - 200)
  else if u < 232 then 1920 + 16 * (u - 208)
  else if u < 234 then 2304 + 64 * (u - 232)
  else if u < 238 then 2432 + 32 * (u - 234)
  else if u < 248 then 2560 + 16 * (u - 238)
  else 2720 + 28 * (u - 248)
/-- The detector at an offset of a unit's block. -/
def det (u off : Nat) : Nat := detBase u + off
def clsCE : Nat := 0
def clsUC : Nat := 1
def clsFT : Nat := 2
/-- The class of a detector (Tables 15.3, 15.4); the others have a fixed class that the manual does not name (R318, log 9). -/
def detClass (d : Nat) : Nat :=
  let u := detUnit d
  let o := d - detBase u
  if u < 192 then (if o = 0 ∨ o = 2 ∨ o = 3 ∨ o = 4 then clsCE else clsUC)
  else if u = 254 then (if o = 0 then clsCE else clsFT)
  else if u < 196 ∧ o = 0 then clsCE
  else if 200 ≤ u ∧ u < 208 ∧ o = 0 then clsCE
  else if 200 ≤ u ∧ u < 208 ∧ o = 1 then clsUC
  else if 208 ≤ u ∧ u < 232 ∧ o ≤ 4 then clsCE
  else if (u = 232 ∨ u = 233) ∧ o = 0 then clsCE
  else if 234 ≤ u ∧ u < 238 ∧ o = 0 then clsCE
  else if 234 ≤ u ∧ u < 238 ∧ o = 1 then clsUC
  else if u = 234 ∧ o = 2 then clsCE
  else if (u = 248 ∨ u = 250) ∧ o = 0 then clsFT
  else if u = 252 ∧ o ≤ 1 then clsCE
  else if u = 253 ∧ o = 0 then clsUC
  else if u = 255 ∧ o = 1 then clsCE
  else if u = 255 ∧ (o = 0 ∨ o = 2 ∨ o = 3) then clsUC
  else if u = 255 ∧ o = 4 then clsFT
  else if (u = 248 ∨ u = 249 ∨ u = 251) ∧ o = 1 + (Config.scanDetector u).val then clsCE
  else (Config.detectorClass d).val
/-- The condition detectors of Table 15.4: HOLDOVER, JUNCTION_TRIP and SENSOR_FAIL. -/
def conditionDet (d : Nat) : Bool := d = det 255 0 || d = det 255 2 || d = det 255 3

/-! ### Units and shadows (R326, R328) -/

def Pkg.unit (k : Pkg) (u : Nat) : UnitSt := sget {} k.flt.units u
def Pkg.setUnit (u : Nat) (x : UnitSt) (k : Pkg) : Pkg := { k with flt := { k.flt with units := sset {} k.flt.units u x } }
/-- STATE of a unit in FLT_UNIT: 0 OK, 1 CE_ALARM, 2 UC, 3 ISOLATED, 4 QUARANTINED. -/
def Pkg.unitState (k : Pkg) (u : Nat) : Nat := if k.quarBit u then 4 else (k.unit u).state
def dayNs : Nat := 86400 * 10 ^ 9
/-- The unit's exits in the last 24 h (R328, R329). -/
def Pkg.recoveries (now : Nat) (k : Pkg) (u : Nat) : Nat :=
  min 4 ((k.unit u).exits.filter (fun t => k.time now < t + dayNs)).length
/-- Whether a reaction of Table 15.7 declares a detector dependent. -/
def shadows (r : Reaction) (d : Nat) : Bool :=
  let u := detUnit d
  let o := d - detBase u
  match r.kind with
  | 0 => u = r.index || (u < 192 && o = 4)
  | 1 => (u < 192 && u / 48 = r.index) || u = 192 + r.index || u = 196 + r.index || (200 ≤ u && u < 208 && (u - 200) / 2 = r.index)
  | 2 => u = 232 + r.index || (208 ≤ u && u < 232 && (u - 208) / 12 = r.index)
  | 3 => (234 ≤ u && u < 238) || (u < 192 && (o = 2 || o = 4))
  | 4 => (248 ≤ u && u ≤ 252) || (238 ≤ u && u ≤ 241)
  | 5 => u = 251
  | 6 => u = 253
  | 9 => u = 248
  | 8 => !(detClass d = clsFT && (u = 250 || u = 254 || u = 255))
  | _ => false
/-- A port's CRC, replay and retrain detectors are shadowed while it trains (Table 15.7). -/
def Pkg.portShadow (k : Pkg) (d : Nat) : Bool :=
  let u := detUnit d
  let o := d - detBase u
  208 ≤ u && u < 232 && 2 ≤ o && o ≤ 4 &&
    (decide ((k.port (u - 208)).state = .training) || decide ((k.port (u - 208)).state = .retraining))
/-- A detector is shadowed, or is a second UC on a unit whose isolation has begun (R325, R326). -/
def Pkg.shadowed (k : Pkg) (d : Nat) : Bool :=
  k.flt.reactions.any (shadows · d) || k.portShadow d || (detClass d = clsUC && 3 ≤ k.unitState (detUnit d))

/-! ### The log (R332, R333) and the last words (R335, R336) -/

/-- What a caller gives of a log entry; the hub fills in the rest. -/
def logEntry (cls kind detector unit flags : Nat) (ref : Word) : LogEntry :=
  { time := 0, seq := 0, detector := detector, unit := unit, cls := cls, kind := kind, flags := flags, count := 1, boot := 0,
    recoveries := 0, incarnation := 0, epoch := 0, ref := ref, info0 := 0, info1 := 0 }
/-- FLAGS bits. -/
def fShadowed : Nat := 1
def fHardware : Nat := 2
def fSoftware : Nat := 4
def fTurn : Nat := 8
/-- A last word (Table 15.9). -/
def lastWord (e : LogEntry) : Word :=
  BitVec.ofNat 32 (e.cls * 2 ^ 30 + e.kind * 2 ^ 26 + e.detector * 2 ^ 14 + e.unit * 2 ^ 6 + e.seq.toNat % 64)
/-- Put a last word: eight in order, then the eighth is overwritten (R336). -/
def Pkg.pushLast (w : Word) (k : Pkg) : Pkg :=
  if k.ret.lw.length < 8 then { k with ret := { k.ret with lw := k.ret.lw ++ [w] } }
  else { k with ret := { k.ret with lw := k.ret.lw.take 7 ++ [w], lwOverrun := satAdd 8 k.ret.lwOverrun 1 } }
/-- DATA of EVENT FAULT (Table 15.5). -/
def faultData (e : LogEntry) : BitVec 64 :=
  BitVec.ofNat 64 (e.seq.toNat + 2 ^ 32 * e.unit + 2 ^ 48 * e.cls + 2 ^ 56 * e.kind)
/-- The notices of an entry (R319): EVENT code 5, which waits while the PKC is paused (R346), and MSI-X 40 for UC, 41 for FT, 42 for RATE_ALARM. -/
def Pkg.notifyFault (e : LogEntry) (k : Pkg) : Pkg :=
  if (e.cls ≠ 0 ∧ e.flags % 2 = 0) ∨ e.kind = 6 then
    (if k.get F.UPD_STATUS_PAUSED = 1 then
        { k with flt := { k.flt with heldEvents := k.flt.heldEvents ++ [faultData e] } }
      else k.emit (.cwEvent 5 (faultData e))).emit (.msix (if e.kind = 6 then 42 else if e.cls = clsFT then 41 else 40))
  else k
/-- The entry as the hub writes it now. -/
def Pkg.fillEntry (now : Nat) (e : LogEntry) (k : Pkg) : LogEntry :=
  { e with time := k.time now, seq := k.flt.seq, boot := k.get F.FLT_BOOT_BOOT, recoveries := k.recoveries now e.unit,
           incarnation := k.ret.pkgInc, epoch := k.rg R.CHT_ACTIVE_EPOCH,
           flags := e.flags + (if k.turning then fTurn else 0) }
/-- Whether the slot of the next entry holds an unmirrored UC or FT entry (R333). -/
def Pkg.slotKept (k : Pkg) : Bool :=
  match sfind k.flt.log (k.flt.seq.toNat % 4096) with
  | some o => o.cls ≠ 0 && (k.rg R.FLT_MIRRORED).toNat < o.seq.toNat
  | none => false
/-- Only the last words take events: the log memory has failed or is quarantined (R329, R335). -/
def Pkg.lwOnly (k : Pkg) : Bool := k.flt.lwOnly || k.quarBit 253
/-- Write an entry, drop it, or send it to the last words. -/
def Pkg.log (now : Nat) (e0 : LogEntry) (k : Pkg) : Pkg :=
  let e := k.fillEntry now e0
  let next (k : Pkg) : Pkg := { k with flt := { k.flt with seq := k.flt.seq + 1 } }
  if k.lwOnly then ((next k).pushLast (lastWord e)).notifyFault e
  else if k.slotKept && e.cls = 0 then k.count F.FLT_DROPS_LOG_DROPPED 1
  else
    let k1 := if k.slotKept then k.count F.FLT_DROPS_LOST_UNMIRRORED 1 else k
    let k2 := (next k1).setRg R.FLT_LOG_HEAD e.seq
    { k2 with flt := { k2.flt with log := sinsert k2.flt.log (e.seq.toNat % 4096) e } }.notifyFault e

/-- The RAISED entry that a CE of a detector merges into: its last logged one, at most 1 ms old (R332). -/
def Pkg.mergeInto (now : Nat) (k : Pkg) (d : Nat) : Option LogEntry :=
  match sfind k.flt.lastOf d with
  | none => none
  | some seq => (sfind k.flt.log (seq.toNat % 4096)).filter
      (fun e => decide (e.seq = seq) && decide (e.detector = d) && decide (k.time now ≤ e.time + 10 ^ 6))
/-- Log the event of a detector: a CE within 1 ms of its last entry only adds to COUNT. KIND is RAISED, and LOG_FAIL for the log
memory's own failure. -/
def Pkg.logEvent (now : Nat) (d flags : Nat) (info0 info1 : BitVec 64) (k : Pkg) : Pkg :=
  let merge := if detClass d = clsCE ∧ !k.lwOnly then k.mergeInto now d else none
  match merge with
  | some e => { k with flt := { k.flt with
      log := sinsert k.flt.log (e.seq.toNat % 4096) { e with count := satAdd 16 e.count 1 } } }
  | none =>
    let seq := k.flt.seq
    let k1 := k.log now { logEntry (detClass d) (if d = det 253 0 then 10 else 0) d (detUnit d) flags 0 with
      info0 := info0, info1 := info1 }
    if k1.flt.seq = seq then k1 else { k1 with flt := { k1.flt with lastOf := sinsert k1.flt.lastOf d seq } }

/-! ### Escalation (R323–R325) -/

def Pkg.addReaction (r : Reaction) (k : Pkg) : Pkg := { k with flt := { k.flt with reactions := k.flt.reactions ++ [r] } }
def Pkg.freePend (slot : Nat) (k : Pkg) : Pkg := { k with flt := { k.flt with pend := serase k.flt.pend slot } }
/-- A UC event that has no unit to isolate: a condition detector's, or any of unit 255 (R318). -/
def noIsolation (x : Pend) : Bool := conditionDet x.detector || x.unit = 255
/-- The escalation of a UC event starts: NO_ACTION, joining a running one, or ISOLATED with the isolation running. -/
def Pkg.escalateUc (now : Nat) (by_ : Nat) (x : Pend) (k : Pkg) : Pkg :=
  if noIsolation x then
    let k1 := k.log now (logEntry clsUC 12 x.detector x.unit by_ x.seq)
    if conditionDet x.detector then k1 else k1.setUnit x.unit { k1.unit x.unit with lastUc := now }
  else if 3 ≤ k.unitState x.unit then k.log now (logEntry clsUC 12 x.detector x.unit by_ x.seq)
  else
    let k1 := k.log now (logEntry clsUC 3 x.detector x.unit by_ x.seq)
    (k1.setUnit x.unit { k1.unit x.unit with state := 3, detector := x.detector, raised := x.seq }).addReaction
      ⟨0, x.unit, x.unit, x.seq⟩
/-- The package is fenced: FENCED is set and logged, it goes dark, and pending UC slots are cleared, each logged as NO_ACTION
(R324, R325). -/
def Pkg.fencePkg (now : Nat) (detector unit : Nat) (raised : Word) (cls : Nat) (k : Pkg) : Pkg :=
  if k.get F.FLT_STATUS_FENCED = 1 then k
  else
    let k1 := (k.flag F.FLT_STATUS_FENCED true).log now (logEntry cls 5 detector unit fHardware raised)
    let ucs := k1.flt.pend.filter (fun e => e.2.cls = clsUC)
    let k2 := ucs.foldl (fun k e => (k.log now { logEntry clsUC 12 e.2.detector e.2.unit fHardware raised with
      info0 := BitVec.ofNat 64 e.2.seq.toNat }).freePend e.1) k1
    let k3 := (k2.goDark now .package .fence).addReaction ⟨8, 0, unit, raised⟩
    { k3 with flt := { k3.flt with fencedAt := some now } }
/-- The escalation of a pending event starts. -/
def Pkg.escalate (now : Nat) (by_ : Nat) (x : Pend) (k : Pkg) : Pkg :=
  if x.cls = clsFT then k.fencePkg now x.detector x.unit x.seq clsFT else k.escalateUc now by_ x

/-! ### A detector fires (R319–R321) -/

/-- CE_RATE within any 1 s raises a rate alarm; a unit in UC stays in UC (R328). An OK unit that already counts more, CE_RATE having been
lowered, takes the alarm at its next CE. -/
def Pkg.ceRate (now : Nat) (d : Nat) (k : Pkg) : Pkg :=
  let u := detUnit d
  let x := k.unit u
  let recent := x.ceTimes.filter (fun t => now < t + 10 ^ 9)
  let rate := k.get F.FLT_CFG_CE_RATE
  let reached := recent.length + 1 = rate ∨ x.state = 0 ∧ rate < recent.length + 1
  let ref := (sfind k.flt.lastOf d).getD 0
  let x1 := { x with ceTimes := recent ++ [now], lastCe := now }
  let k1 := k.setUnit u (if reached ∧ x.state = 0 then { x1 with state := 1, detector := d, raised := ref } else x1)
  if reached && x.state ≠ 1 then k1.log now (logEntry clsCE 6 d u fHardware ref) else k1
/-- The condition of a condition detector ends; its unit's quiet period counts from here (R318, R328). -/
def Pkg.conditionEnd (now : Nat) (k : Pkg) : Pkg := k.setUnit 255 { k.unit 255 with lastUc := now }
/-- The grace of a class in ns (Table 15.6). -/
def Pkg.grace (k : Pkg) (cls : Nat) : Nat :=
  if cls = clsFT then 100000 * k.get F.FLT_CFG_FT_GRACE else 10 ^ 6 * k.get F.FLT_CFG_UC_GRACE
/-- A UC or FT event takes the lowest free slot, or escalates at once when all 16 are held (R321). -/
def Pkg.takeSlot (now : Nat) (d : Nat) (seq : Word) (k : Pkg) : Pkg :=
  let x : Pend := ⟨detClass d, d, detUnit d, seq, now + k.grace (detClass d)⟩
  match (List.range 16).find? (fun i => (sfind k.flt.pend i).isNone) with
  | some i => { k with flt := { k.flt with pend := sinsert k.flt.pend i x } }
  | none => k.escalate now fHardware x
/-- The effects of a UC or FT event that is not shadowed. -/
def Pkg.gravely (now : Nat) (d : Nat) (seq : Word) (k : Pkg) : Pkg :=
  let u := detUnit d
  let x := k.unit u
  let k1 := if detClass d = clsUC then
      k.setUnit u { x with state := if x.state < 3 then 2 else x.state, lastUc := now, detector := d, raised := seq } else k
  (if k1.moored then k1.wakeHtile else k1).takeSlot now d seq
/-- A detector fires. -/
def Pkg.raise (now : Nat) (d : Nat) (info0 info1 : BitVec 64) (k : Pkg) : Pkg :=
  if detCount ≤ d then k
  else
    let sh := k.shadowed d
    let k0 := (if d < 1536 then k.coreFault (d / 8) (d % 8) else k).countFault (detClass d)
    let k1 := if d = det 253 0 ∧ !sh then
        { k0.flag F.FLT_STATUS_LOG_FAIL true with flt := { k0.flt with lwOnly := true } } else k0
    let seq := k1.flt.seq
    let k2 := k1.logEvent now d (if sh then fShadowed else 0) info0 info1
    if sh then k2
    else if detClass d = clsCE then k2.ceRate now d
    else k2.gravely now d seq

end Sys2Proof.Machine
end

