-- ==== Sys2Proof/Machine/Flow.lean ====
section
/-! DEFINITION. The source side of a flow (R156–R163, R132): the tables of an epoch, admission, windows, sending, completion and
the reset of a flow. -/

namespace Sys2Proof.Machine
open Sys2Proof

/-! ### The Chart in force (R126, R130, R132) -/

/-- The image whose tables a packet with this epoch bit uses: the active one, or from prepare to TR the shadow one. -/
def Pkg.tables (k : Pkg) (e : Bool) : List Byte :=
  if !k.chart.active.isEmpty && chEpoch k.chart.active % 2 == e.toNat then k.chart.active
  else if k.chart.bank2 && !k.chart.shadow.isEmpty && chEpoch k.chart.shadow % 2 == e.toNat then k.chart.shadow
  else []
/-- The window of a flow: during a turn the smaller of the old and the new (R132). -/
def Pkg.window (k : Pkg) (src dst rack cls : Nat) : Nat :=
  let w := windowOf k.chart.active k.rackNo src dst rack cls
  if k.chart.active.isEmpty then 0
  else if k.chart.bank2 then min w (windowOf k.chart.shadow k.rackNo src dst rack cls) else w
/-- The response reservation: during a turn the larger of the old and the new (R132). -/
def Pkg.reserve (k : Pkg) : Nat :=
  let r := respReserve k.chart.active k.idx
  if k.chart.active.isEmpty then 0 else if k.chart.bank2 then max r (respReserve k.chart.shadow k.idx) else r

/-- The record of a tree in force. -/
def Pkg.tree (k : Pkg) (t : Nat) : List Byte := treeRec k.chart.active t
/-- A tree that the turn's new Chart changes or removes (R133). -/
def Pkg.treeHeld (k : Pkg) (t : Nat) : Bool :=
  k.chart.bank2 && (k.ownState = 1 || k.ownState = 2) && treeRec k.chart.active t ≠ treeRec k.chart.shadow t

/-! ### Admission (R156, R103) -/

/-- Reach from a local skein to a destination core, by the tables of one epoch. -/
def reachOk (img : List Byte) (ownRack s rack n c : Nat) : Bool :=
  if rack = ownRack then
    let j := coreSkein img n c
    j = 0xFF || (s ≤ 63 && reachBit img s j)
  else (remoteReach img).any (fun r => r.1 = s && r.2.1 = rack && r.2.2.2 = 0)
/-- The first check of R156 that a unicast packet fails, as its status. -/
def Pkg.refusal (k : Pkg) (pk : Packet) : Option Byte :=
  let img := k.tables pk.epoch
  let a := epPkg pk.dst
  let rack := addrRack a
  if (if pk.pkg then !pkgAddrOk a || pk.dst.toNat % 256 ≠ 0 else !endpointOk pk.dst) || img.isEmpty || (if chScope img = 0 then decide (a ≠ k.addr) else !routePresent img rack) then
    some stNoEndpoint
  else if rack = k.rackNo ∧ allAbsent img (addrIndex a) then some stUnitAbsent
  else if pk.cls = 0 ∧ !pk.pkg ∧ !reachOk img k.rackNo (bits pk.addr.toNat 58 6) rack (addrIndex a) (epCore pk.dst) then
    some stNoReach
  else if pk.opcode = opClasp ∧ a ≠ k.addr then some stNotLocal
  else none

/-- What a package's own F-tile makes of a packet of one of its cores: the stamp, and in a class 0 request SRC_SKEIN (R157). -/
def Pkg.stamped (k : Pkg) (core : Nat) (pk : Packet) : Packet :=
  { pk with epoch := k.stamp,
            addr := if pk.cls = 0 then BitVec.ofNat 64 (pk.addr.toNat % 2 ^ 44 + coreSkein (k.tables k.stamp) k.idx core % 64 * 2 ^ 58)
              else pk.addr }
/-- The check of a cast at its sender: the status with which it completes unsent (R133, R170, R173). -/
def Pkg.castRefusal (k : Pkg) (kind : BitVec 2) (t len : Nat) : Option Byte :=
  if kind ≠ 1 then none
  else if k.treeHeld t then some stTurnHold
  else if !onTree (k.tree t) k.idx then some (Config.openStatus 2)
  else if 32 + 64 * (treeBuffer (k.tree t) - 1) < len then some stAccessError
  else none
/-- The check that a stamped packet of a core fails before it takes a window slot (R156). A core in no skein reaches nothing. -/
def Pkg.barred (k : Pkg) (core : Nat) (pk : Packet) : Option Byte :=
  if pk.cls = 2 then k.castRefusal pk.castKind pk.tree.toNat pk.payload.length
  else match k.refusal pk with
  | some st => some st
  | none => if pk.cls = 0 ∧ !pk.pkg ∧ coreSkein (k.tables k.stamp) k.idx core = 0xFF then some stNoReach else none
/-- A packet that fails a check at its source: its core receives the status; one that needs no response, or has no core, is discarded
and counted (R156, FAB_DISCARD_B). -/
def Pkg.refuse (core : Nat) (pk : Packet) (st : Byte) (k : Pkg) : Pkg :=
  let k1 := if core < 192 then k.emit (.completion core pk.tag st []) else k
  if pk.cls = 2 ∨ expectsResponse pk.opcode then k1 else k1.count (F.FAB_DISCARD_B_NO_ENDPOINT (k.flowTile (epPkg pk.dst))) 1

/-! ### Flows -/

def Pkg.txFlow (k : Pkg) (key : Nat) : TxFlow := sget {} k.fab.tx key
def Pkg.setTx (key : Nat) (f : TxFlow) (k : Pkg) : Pkg := { k with fab := { k.fab with tx := sset {} k.fab.tx key f } }
/-- Outstanding requests that expect a response, over all flows (R159). -/
def Pkg.respOut (k : Pkg) : Nat :=
  (k.fab.tx.map (fun e => (e.2.out.filter (fun o => expectsResponse o.pk.opcode)).length)).foldl (· + ·) 0
/-- Put a packet in its flow's queue; FLOW_SEND sends it. -/
def Pkg.enqueue (key core : Nat) (pk : Packet) (k : Pkg) : Pkg :=
  let f := k.txFlow key
  k.setTx key { f with waiting := f.waiting ++ [(pk, core)] }
/-- Queue a management packet to a package of a management flow. -/
def Pkg.enqueueMgmt (now : Nat) (op : Byte) (dst : Nat) (payload : List Byte) (k : Pkg) : Pkg :=
  let pk := k.mgmt now op dst payload
  match k.barred 255 pk with
  | some st => k.refuse 255 pk st
  | none => k.enqueue (flowKey dst 4 0) 255 pk

/-- The members that a cast packet awaits and the report of those missing at a completion that is not OK (R175, R176). -/
def Pkg.reportMissing (pk : Packet) (missing : List Nat) (k : Pkg) : Pkg :=
  let t := pk.tree.toNat
  let f := if pk.castKind = 1 then t % 2 else if pk.castKind = 2 then 0 else 1
  let mask := missing.foldl (fun m n => m ||| 2 ^ n) 0
  ((((k.setRg (R.FAB_CAST_MISSING f) (BitVec.ofNat 32 (pk.castKind.toNat * 64 + t % 64))).setRg (R.FAB_CAST_MISSING_M0 f)
    (BitVec.ofNat 32 mask)).setRg (R.FAB_CAST_MISSING_M1 f) (BitVec.ofNat 32 (mask / 2 ^ 32))).setRg (R.FAB_CAST_MISSING_M2 f)
    (BitVec.ofNat 32 (mask / 2 ^ 64)))
/-- A packet completes at its issuer with a status; the issuer of a management packet (255) and of a cast sent again (256 + the rack it came
from) is a unit of the package itself. -/
def Pkg.complete (o : TxOut) (status : Byte) (data : List Byte) (k : Pkg) : Pkg :=
  if o.pk.cls = 4 then k
  else
    let k1 := if 192 ≤ o.core then k else k.emit (.completion o.core o.pk.tag status data)
    if o.pk.cls = 2 ∧ status ≠ stOK then k1.reportMissing o.pk (o.bad ++ o.await) else k1
/-- A flow is reset: its outstanding packets complete with a status, and it restarts at SEQ 0 with the next FGEN (R163). -/
def Pkg.resetFlow (key : Nat) (tile : Nat) (status : Byte) (k : Pkg) : Pkg :=
  let f := k.txFlow key
  let k1 := f.out.foldl (fun k o => k.complete o status []) k
  (k1.setTx key { f with seq := 0, fgen := f.fgen + 1, acked := false, out := [] }).count (F.FAB_FLOW_EVENTS_FLOW_RESETS tile) 1
/-- The F-tile of a flow (R158, R175). -/
def Pkg.tileOf (k : Pkg) (key : Nat) : Nat :=
  let tree := key % 128
  let cls := key / 128 % 8
  if cls = 2 then (if tree < 64 then tree % 2 else tree - 64) else k.flowTile (key / 1024)
/-- The members that a cast awaits (R175). -/
def Pkg.awaited (k : Pkg) (pk : Packet) : List Nat :=
  let n := k.idx
  if pk.castKind = 1 then
    let r := treeRec (k.tables pk.epoch) pk.tree.toNat
    (List.range 96).filter (fun m => m ≠ n && treeDeliver r m)
  else if pk.castKind = 2 then (List.range 12).filterMap (fun c => portPeer n c)
  else if pk.castKind = 3 then (List.range 8).filterMap (fun r => portPeer n (12 + r))
  else []
/-- The root sends a cast of this issuer up its uplink, unless the cast came from there (R170, log 65). -/
def Pkg.goesUp (k : Pkg) (core : Nat) (pk : Packet) : Bool :=
  let r := treeRec (k.tables pk.epoch) pk.tree.toNat
  decide (pk.castKind = 1) && treeUplink r && decide (treeRoot r = k.idx) && decide (core ≠ 256 + treeUpRack r)
/-- The uplink target is awaited when the sender is the root of an uplinked tree (R175); 96 stands for it. -/
def Pkg.awaitedUp (k : Pkg) (core : Nat) (pk : Packet) : List Nat := if k.goesUp core pk then [96] else []
/-- The window that the flow of a key holds (R159, R175). -/
def Pkg.flowWindow (k : Pkg) (key : Nat) (pk : Packet) : Nat :=
  let n := k.idx
  let cls := key / 128 % 8
  if cls = 2 then
    let dst := if pk.castKind = 1 then treeRoot (treeRec (k.tables pk.epoch) pk.tree.toNat) else n
    k.window n dst k.rackNo 2
  else k.window n (addrIndex (key / 1024)) (addrRack (key / 1024)) cls
/-- The oldest waiting packet of a flow as it would be sent now, with its issuer. -/
def Pkg.flowHead (k : Pkg) (key : Nat) : Option (Packet × Nat) :=
  match (k.txFlow key).waiting with
  | [] => none
  | (pk, core) :: _ => some (k.stamped core pk, core)
/-- Take the oldest waiting packet of a flow for sending, while its window and the response reservation allow (R159, R160). -/
def Pkg.flowTake (now : Nat) (key : Nat) (k : Pkg) : Option (Packet × Nat × Pkg) :=
  let f := k.txFlow key
  match k.flowHead key with
  | none => none
  | some (pk, core) =>
    if f.out.length < k.flowWindow key pk ∧
        (expectsResponse pk.opcode = false ∨ pk.cls ≠ 0 ∨ k.respOut < k.reserve) then
      let sent := { pk with seq := f.seq, fgen := f.fgen, sgen := k.ret.pkgInc, newflow := !f.acked, birth := k.birth now }
      let o : TxOut := ⟨sent, now, 0, k.awaited sent ++ k.awaitedUp core sent, [], core⟩
      some (sent, core, k.setTx key { f with seq := f.seq + 1, waiting := f.waiting.drop 1, out := f.out ++ [o] })
    else none
/-- The oldest waiting packet is checked against the tables that it would be stamped for; one that fails leaves its flow (R130, R133, R156). -/
def Pkg.flowRefuse (key : Nat) (k : Pkg) : Option Pkg :=
  match k.flowHead key with
  | none => none
  | some (pk, core) => (k.barred core pk).map fun st =>
      (k.setTx key { k.txFlow key with waiting := (k.txFlow key).waiting.drop 1 }).refuse core pk st
/-- Own traffic outstanding under the epoch being drained (CHT_OLD_OUT). -/
def Pkg.oldOut (k : Pkg) : Nat :=
  if k.ownState = 1 ∨ k.ownState = 3 then
    min 65535 ((k.fab.tx.map (fun e => (e.2.out.filter (fun o => o.pk.epoch ≠ k.stamp)).length)).foldl (· + ·) 0)
  else 0

/-- A request between two cores of one C-tile, which stays on the tile's mesh (R40). -/
def Pkg.onMesh (k : Pkg) (c : Nat) (dst : BitVec 24) : Bool :=
  endpointOk dst && decide (epPkg dst = k.addr) && decide (k.phys (epCore dst) / 48 = k.phys c / 48)
/-- A core issues a request: it takes the mesh of its C-tile, is refused at once with a poisoned response, or joins its flow (R40, R156, R157,
R159). -/
def Pkg.issue (now : Nat) (c : Nat) (rq : Request) (k : Pkg) : Pkg :=
  let pk := k.stamped c { k.newPacket now rq.opcode 0 rq.dst (endpoint k.addr c) rq.payload with
    incarnation := k.coreInc c, tag := rq.tag, want := rq.want, addr := BitVec.ofNat 64 (rq.addr.toNat % 2 ^ 44) }
  if k.onMesh c rq.dst then { k with fab := { k.fab with mesh := k.fab.mesh ++ [pk] } }
  else match k.barred c pk with
  | some st => k.refuse c pk st
  | none => k.enqueue (flowKey (epPkg rq.dst) 0 0) c pk

/-- REQUEST_ISSUE: a core that is dark issues nothing. -/
def execRequestIssue (p : PkgId) (c : Core) (rq : Request) (s : State) : Out :=
  onPkg p s fun k => if k.coreDark c.val ∨ opcodeClass rq.opcode ≠ 0 then k else (k.issues c.val).issue s.now c.val rq

end Sys2Proof.Machine
end

