-- ==== Sys2Proof/Machine/Storage.lean ====
section
/-! DEFINITION. Storage: placement and lending of segments (R43–R50), accesses to storage (R50, R53, R197), clasps (R51–R55) and
the host port (R61). -/

namespace Sys2Proof.Machine
open Sys2Proof

/-! ### The storage operation -/

/-- The storage space and byte offset of a place in a tier of this package, tiers 0, 1, 2 and 5 (Table 2.4). -/
def tierSpace (c tier off : Nat) : Nat × Nat :=
  if tier = 0 then (2, storeOff c off) else if tier = 1 then (1, off) else if tier = 2 then (0, off) else (3, off)
/-- The detector of an uncorrectable line of a space (Table 15.3, Table 15.4). -/
def lineDetector (space off : Nat) : Nat :=
  if space = 2 then det (off / 2 ^ 21) 1
  else if space = 1 then det (234 + off / 2 ^ 26 % 4) 1
  else det (200 + stackOf off) 1
/-- The 64 B lines that a range touches. -/
def linesOf (key len : Nat) : List Nat := (List.range ((key + len + 63) / 64 - key / 64)).map (key / 64 + ·)
/-- The lines that a write covers whole; they lose their poison (R323). -/
def wholeLines (key len : Nat) : List Nat := (linesOf key len).filter (fun l => key ≤ 64 * l && 64 * l + 64 ≤ key + len)
/-- The answer of a storage access: status, poison, data. -/
structure Answer where
  status : Byte
  poison : Bool
  data : List Byte
  deriving DecidableEq, Repr

/-- The bytes that an operation touches: a READ's length, a write's payload, or the 8 bytes of an ATOMIC. -/
def opLength (op : Byte) (want : Nat) (payload : List Byte) : Nat :=
  if op = opRead then want else if op = opAtomic then 8 else payload.length
/-- The length of a query block by the UNITS of its header (R208). -/
def qLength (b : List Byte) : Nat := 64 + 16 * qUnits b
/-- The block that a write brings to an engine's area, when it covers it (R208). -/
def Pkg.areaBlock (k : Pkg) (t c off : Nat) (data : List Byte) : Option (List Byte) :=
  let area := 64 * k.get (F.BRG_QCFG_AREA t)
  let here := data.drop (area - off)
  if k.get (F.BRG_QCFG_STEWARD t) = c ∧ off ≤ area ∧ 64 ≤ here.length ∧ qLength here ≤ here.length then
    some (here.take (qLength here)) else none
/-- A write into a core store that covers the areas of engines brings them its block (R208). -/
def Pkg.noticeWrite (space off : Nat) (payload : List Byte) (k : Pkg) : Pkg :=
  if space = 2 then
    { k with mem := { k.mem with written := k.mem.written ++ (List.range 4).filterMap fun t =>
      (k.areaBlock t (off / 2 ^ 21) (off % 2 ^ 21) payload).map (t, ·) } }
  else k
/-- A write to local HBM: engines that scan its lines may read each as it stood before (R213). -/
def Pkg.noteScans (p : PkgId) (m : Mem) (off len : Nat) (k : Pkg) : Pkg :=
  let key := memKey p 0 0
  let mine (q : Query) (l : Nat) : Bool := q.shards.any fun s => meets (64 * l) 64 (key + s.1) (16 * qUnits q.block * s.2.1)
  { k with brg := k.brg.map fun e => (e.1, { e.2 with before := e.2.before ++ match e.2.running with
    | some q => ((linesOf (key + off) len).filter (mine q)).map fun l => (l, memRead m (64 * l) 64)
    | none => [] }) }
/-- A range lies in a stack or S-tile bank that is isolated (Table 15.2). -/
def Pkg.spaceIsolated (k : Pkg) (space off len : Nat) : Bool :=
  space < 2 && (3 ≤ k.unitState (detUnit (lineDetector space off)) || 3 ≤ k.unitState (detUnit (lineDetector space (off + len - 1))))
/-- Execute READ, WRITE, WRITE_POSTED or ATOMIC at a place. A read of an uncorrectable line completes poisoned and fires its
detector (Table 15.10); a write clears the poison of the lines it covers. -/
def storageOp (now : Nat) (p : PkgId) (space off : Nat) (op : Byte) (want : Nat) (payload : List Byte) (m : Mem) (k : Pkg) :
    Mem × Pkg × Answer :=
  let key := memKey p space off
  let len := opLength op want payload
  let bad := (linesOf key len).any k.mem.poison.contains
  let k0 := if space = 0 ∧ op ≠ opRead then k.noteScans p m off len else k
  if k.spaceIsolated space off len then (m, k, ⟨stUnitReset, true, []⟩)
  else if (op = opRead ∨ op = opAtomic) ∧ bad then
    (m, k.raise now (lineDetector space off) (BitVec.ofNat 64 (if space = 2 then off % 2 ^ 21 else off)) (Config.syndrome off),
      ⟨Config.openStatus 0, true, []⟩)
  else if op = opRead then (m, k, ⟨stOK, false, memRead m key want⟩)
  else if op = opAtomic then
    let old := leNat (memRead m key 8)
    (memWrite m key (leBytes 8 (Config.atomicNew payload old)), k0, ⟨stOK, false, leBytes 8 (Config.atomicResult payload old)⟩)
  else
    (memWrite m key payload,
      { k0 with mem := { k0.mem with poison := k0.mem.poison.filter (fun l => !(wholeLines key len).contains l) } }.noticeWrite space off
        payload, ⟨stOK, false, []⟩)

/-- The clasp that stands in the way of a write to a core store: CLASP_BROKEN to a former holder, CLASP_DENIED to any core but
the holder (R53, R54). -/
def Pkg.claspBars (k : Pkg) (who : Option Nat) (store off len : Nat) : Option (Byte × Nat) :=
  (linesOf off len).findSome? fun l =>
    if who.any (fun c => k.mem.broken.contains (c, store, l) || k.mem.silent.contains (c, store, l)) then some (stClaspBroken, l)
    else if k.mem.clasps.any (fun x => x.at store l && who ≠ some x.holder) then some (stClaspDenied, l)
    else none
/-- A former holder's use of a broken clasp clears the record of it. -/
def Pkg.forgetBroken (c store line : Nat) (k : Pkg) : Pkg :=
  { k with mem := { k.mem with broken := k.mem.broken.filter (· ≠ (c, store, line)),
                               silent := k.mem.silent.filter (· ≠ (c, store, line)) } }
/-- A storage access by a core of the package (`who`) or by a packet from elsewhere. -/
def claspedOp (now : Nat) (p : PkgId) (who : Option Nat) (space off : Nat) (op : Byte) (want : Nat) (payload : List Byte)
    (m : Mem) (k : Pkg) : Mem × Pkg × Answer :=
  let writes := op ≠ opRead
  match (if space = 2 ∧ writes then k.claspBars who (off / 2 ^ 21) (off % 2 ^ 21) (opLength op want payload) else none) with
  | some (st, l) =>
    (m, (if st = stClaspBroken then k.forgetBroken (who.getD 0) (off / 2 ^ 21) l else k), ⟨st, false, []⟩)
  | none => storageOp now p space off op want payload m k

/-! ### Where a core address leads (R43, R50, R208) -/

def storeBytes : Nat := 1572864
inductive Where where
  | place (tier off : Nat) (lender : BitVec 16)
  | busy
  | lost
  | none
  deriving DecidableEq, Repr

/-- Where tier 5 begins: the host spill window (R47). -/
def Pkg.spillBase (k : Pkg) : Nat := k.wide R.PKC_HOST_SPILL_BASE_LO
/-- The core-store window, then the valid segment that holds the whole range, then a BUSY one (R43, R48, R50). Where a segment overlaps the
window, the window wins; an access that runs past the end of its segment leads nowhere, even if the next one is adjacent (DESIGN CHOICE,
log 67). -/
def Pkg.locate (k : Pkg) (c a len : Nat) : Where :=
  let w := Config.storeWindow.toNat
  if w ≤ a ∧ a + len ≤ w + storeBytes then .place 0 (a - w) 0
  else match k.segAt c a with
  | some (n, o) =>
    if 4096 * k.get (F.CORE_SEG_LEN_PAGES c n) < o + len then .none
    else match sfind k.mem.segs (segKey c n) with
    | some st => .place st.tier (st.off + o + (if st.tier = 5 then k.spillBase else 0)) st.lender
    | none => .lost
  | none =>
    if (List.range 64).any (fun n => k.segStatus c n = 1 && 4096 * (k.rg (R.CORE_SEG_BASE c n)).toNat ≤ a &&
        a < 4096 * ((k.rg (R.CORE_SEG_BASE c n)).toNat + k.get (F.CORE_SEG_LEN_PAGES c n))) then .busy
    else .none

/-- The unit that holds a range of a tier is dark: the core of a store, the S-tile, or the C-tile of HBM stacks (R56). -/
def Pkg.tierDark (k : Pkg) (c tier off len : Nat) : Bool :=
  (tier = 0 && k.coreDark c) || (tier = 1 && k.stileDark) ||
    (tier = 2 && (k.ctileDark (hbmTile off) || k.ctileDark (hbmTile (off + len - 1))))
/-- A core's access to its own address space (R46, R50): local storage at once, a lender through the fabric, and an error with the
access-error detector where no segment leads. -/
def coreAccessOp (now : Nat) (p : PkgId) (c : Nat) (a : Access) (m : Mem) (k : Pkg) : Mem × Pkg :=
  let op := if a.write then opWrite else opRead
  match k.locate c a.addr.toNat a.len with
  | .busy => (m, { k with mem := { k.mem with accesses := k.mem.accesses ++ [(c, a)] } })
  | .lost => (m, k.emit (.completion c 0 stUnitReset []))
  | .none => (m, (k.raise now (det c 2) 0 0).emit (.completion c 0 stAccessError []))
  | .place tier off lender =>
    if tier = 3 ∨ tier = 4 then
      let pk := k.stamped c { k.newPacket now op 0 (BitVec.ofNat 24 (lender.toNat * 256)) (endpoint k.addr c) a.data with
        pkg := true, incarnation := k.coreInc c, want := a.len, addr := BitVec.ofNat 64 (off % 2 ^ 44) }
      match k.barred c pk with
      | some st => (m, k.refuse c pk st)
      | none => (m, k.enqueue (flowKey lender.toNat 0 0) c pk)
    else if k.tierDark c tier off a.len then (m, k.emit (.completion c 0 stUnitReset []))
    else
      let r := claspedOp now p (some c) (tierSpace c tier off).1 (tierSpace c tier off).2 op a.len a.data m k
      (r.1, r.2.1.emit (.completion c 0 r.2.2.status r.2.2.data))
/-- CORE_ACCESS: a dark core accesses nothing. -/
def execCoreAccess (p : PkgId) (c : Core) (a : Access) (s : State) : Out :=
  onPkgMem p s fun m k => if k.coreDark c.val then (m, k) else coreAccessOp s.now p c.val a m (k.issues c.val)

/-! ### Placement (R43–R48) -/

/-- What is in use in a tier, as (first page, pages): placed and granted-to-be segments, and in tier 2 the grants lent. -/
def Pkg.used (k : Pkg) (c tier : Nat) : List (Nat × Nat) :=
  let mine (key : Nat) (st : Storage) : Option (Nat × Nat) :=
    if st.tier = tier ∧ (tier ≠ 0 ∨ key / 64 = c) then some (st.off / 4096, st.pages) else none
  k.mem.segs.filterMap (fun e => mine e.1 e.2) ++
  (k.mem.placing.filter (fun x => x.outcome ≠ 6)).filterMap (fun x => x.store.bind (mine (segKey x.core x.entry))) ++
  (if tier = 2 then k.mem.grants.map (fun g => (g.base / 4096, g.pages)) else [])
/-- Pages of a tier that hold segments (Table 2.4, R47, R74). -/
def Pkg.tierPages (k : Pkg) (tier : Nat) : Nat :=
  if tier = 0 then 384 else if tier = 1 then 65536
  else if tier = 2 then hbmBytes / 4096 - (if k.get F.AON_PDOM_POLICY_SAVE = 1 then saveArea / 4096 else 0)
  else if k.pkc.hostInReset then 0 else k.get F.PKC_HOST_SPILL_LEN_PAGES
/-- The first pages at which a length fits below a limit: each end of what is in use, and 0, where the range is free. -/
def fits (usedR : List (Nat × Nat)) (limit pages : Nat) : List Nat :=
  (0 :: usedR.map (fun r => r.1 + r.2)).filter fun s =>
    s + pages ≤ limit && usedR.all (fun r => s + pages ≤ r.1 || r.1 + r.2 ≤ s)
/-- The page an allocator gives, if the tier has free contiguous storage (R44, log 15). -/
def pickFit (usedR : List (Nat × Nat)) (limit pages : Nat) : Option Nat :=
  let l := fits usedR limit pages
  l[Config.fitChoice usedR pages % l.length]?

/-- How a placement stands: it has ended, or waits on a lender. -/
inductive Tried where
  | placed (st : Storage)
  | noRoom
  | refused
  | ask (tier : Nat)
  deriving DecidableEq, Repr

/-- Whether the shadow slot keeps the save area free (R121). -/
def Pkg.shadowSave (k : Pkg) : Bool := k.shadowState = 3 && pdomSave k.chart.shadow k.idx
/-- Pages of tier 2 below the save area. -/
def belowSave : Nat := (hbmBytes - saveArea) / 4096
/-- The hop count at which the lender of an entry stands, if it is a package of this rack in service (R45). -/
def Pkg.lenderHops (k : Pkg) (up : Nat → Bool) (a : Nat) : Option Nat :=
  if pkgAddrOk a && addrRack a = k.rackNo && a ≠ k.addr && !allAbsent k.chart.active (addrIndex a) && up (addrIndex a) then
    some (hops k.idx (addrIndex a)) else none
/-- Try the tiers of a list in order (R44, R45, R47). -/
def Pkg.tryTiers (k : Pkg) (up : Nat → Bool) (c ceiling lender pages : Nat) : List Nat → Tried
  | [] => .noRoom
  | t :: rest =>
    if t = 3 ∨ t = 4 then
      match k.lenderHops up lender with
      | none => if t = 3 ∨ ceiling = 4 then .refused else k.tryTiers up c ceiling lender pages rest
      | some h => if h = t - 2 then .ask t else k.tryTiers up c ceiling lender pages rest
    else
      let limit := if t = 2 ∧ k.shadowSave then min (k.tierPages t) belowSave else k.tierPages t
      match pickFit (k.used c t) limit pages with
      | some s => .placed ⟨t, 4096 * s, pages, 0⟩
      | none =>
        if t = 2 ∧ k.shadowSave ∧ (pickFit (k.used c t) (k.tierPages t) pages).isSome then .noRoom
        else k.tryTiers up c ceiling lender pages rest
/-- Tiers from a first one down to a last one. -/
def tiersFrom (a b : Nat) : List Nat := (List.range (b + 1 - a)).map (a + ·)
/-- Whether an entry's range overlaps a segment of the core that is valid or BUSY (R44). -/
def Pkg.overlaps (k : Pkg) (c n : Nat) : Bool :=
  let b (i : Nat) : Nat := (k.rg (R.CORE_SEG_BASE c i)).toNat
  let l (i : Nat) : Nat := k.get (F.CORE_SEG_LEN_PAGES c i)
  (List.range 64).any fun i => i ≠ n && l i ≠ 0 && (k.segValid c i || k.segStatus c i = 1) && b n < b i + l i && b i < b n + l n

def Pkg.setPlacing (f : List Placing → List Placing) (k : Pkg) : Pkg := { k with mem := { k.mem with placing := f k.mem.placing } }
/-- Record how a placement stands; LEND_ASK goes to the lender (R46). -/
def Pkg.record (now : Nat) (c n at_ pages : Nat) (t : Tried) (k : Pkg) : Pkg :=
  let add (o : Nat) (st : Option Storage) : Pkg :=
    k.setPlacing (· ++ [⟨c, n, at_, none, o, st⟩])
  match t with
  | .placed st => add 2 (some st)
  | .noRoom => add 3 none
  | .refused => add 5 none
  | .ask tier =>
    let tag := k.mem.nextTag
    let k1 := k.setPlacing (· ++ [⟨c, n, at_, some tag, tier, none⟩])
    { k1 with mem := { k1.mem with nextTag := tag + 1 } }.enqueueMgmt now 0x2A (k.get (F.CORE_SEG_LENDER_LENDER c n))
      (leBytes 4 pages ++ leBytes 2 c ++ leBytes 2 tag.toNat)
/-- PLACE: STATUS becomes BUSY and the tiers are tried in order (R44, R48). A range of no pages overlaps nothing. -/
def Pkg.place (now : Nat) (up : Nat → Bool) (c n : Nat) (k : Pkg) : Pkg :=
  let pages := k.get (F.CORE_SEG_LEN_PAGES c n)
  let ceiling := k.get (F.CORE_SEG_CTRL_CEILING c n)
  let floor := k.get (F.CORE_SEG_CTRL_FLOOR c n)
  let k1 := k.put (F.CORE_SEG_CTRL_STATUS c n) 1
  if 2 ^ 32 < (k.rg (R.CORE_SEG_BASE c n)).toNat + pages then k1.record now c n now pages .noRoom
  else if pages ≠ 0 ∧ k.overlaps c n then k1.setPlacing (· ++ [⟨c, n, now, none, 4, none⟩])
  else if pages = 0 ∨ 5 < floor ∨ 5 < ceiling then k1.record now c n now pages .noRoom
  else k1.record now c n now pages
    (k.tryTiers up c ceiling (k.get (F.CORE_SEG_LENDER_LENDER c n)) pages (tiersFrom ceiling floor))
/-- RELEASE: the storage is freed, VALID clears, STATUS is IDLE, and a grant is returned (R46, R49). -/
def Pkg.release (now : Nat) (c n : Nat) (k : Pkg) : Pkg :=
  let key := segKey c n
  let k1 := { (k.put (F.CORE_SEG_CTRL_STATUS c n) 0).put (F.CORE_SEG_CTRL_VALID c n) 0 with
    mem := { k.mem with segs := serase k.mem.segs key, lostLent := serase k.mem.lostLent key } }
  match (sfind k.mem.segs key).or (sfind k.mem.lostLent key) with
  | some st => if st.tier = 3 ∨ st.tier = 4 then
      k1.enqueueMgmt now 0x2B st.lender.toNat (leBytes 8 st.off ++ leBytes 4 st.pages) else k1
  | none => k1
/-- A write of CORE_SEG_CTRL (its description): both actions at once are ignored in full. -/
def Pkg.segCtrlWrite (now : Nat) (up : Nat → Bool) (c n : Nat) (w : Word) (k : Pkg) : Pkg :=
  let v := w.toNat
  let locked := k.segValid c n || k.segStatus c n = 1
  if bit v 1 && bit v 2 then k
  else
    let k1 := if locked then k else
      (k.put (F.CORE_SEG_CTRL_CEILING c n) (bits v 4 3)).put (F.CORE_SEG_CTRL_FLOOR c n) (bits v 8 3)
    if bit v 2 then (if k.segStatus c n = 1 then k1 else k1.release now c n)
    else if bit v 1 then (if locked then k1 else k1.place now up c n)
    else k1

/-- The outcome of an entry's placement shows: STATUS, PLACED_TIER and VALID. One whose storage was lost meanwhile shows LOST (R50). -/
def Pkg.showPlaced (x : Placing) (k : Pkg) : Pkg :=
  let k1 := (k.setPlacing (List.filter (· ≠ x))).put (F.CORE_SEG_CTRL_STATUS x.core x.entry) x.outcome
  match x.store with
  | none => k1
  | some st =>
    let k2 := (k1.put (F.CORE_SEG_CTRL_PLACED_TIER x.core x.entry) st.tier).put (F.CORE_SEG_CTRL_VALID x.core x.entry) 1
    let key := segKey x.core x.entry
    if x.outcome ≠ 6 then { k2 with mem := { k2.mem with segs := sinsert k2.mem.segs key st } }
    else if st.tier = 3 ∨ st.tier = 4 then { k2 with mem := { k2.mem with lostLent := sinsert k2.mem.lostLent key st } }
    else k2
/-- The contents of newly placed storage are undefined until written (R48). -/
def eraseStorage (p : PkgId) (c spill : Nat) (st : Storage) (m : Mem) : Mem :=
  let e := tierSpace c st.tier (st.off + (if st.tier = 5 then spill else 0))
  if st.tier = 3 ∨ st.tier = 4 then m else memErase m (memKey p e.1 e.2) (4096 * st.pages)
/-- Accesses that waited for placements to end are tried again (R48). -/
def retryAccesses (now : Nat) (p : PkgId) (m : Mem) (k : Pkg) : Mem × Pkg :=
  let waiting := k.mem.accesses
  waiting.foldl (fun (mk : Mem × Pkg) e => coreAccessOp now p e.1 e.2 mk.1 mk.2) (m, { k with mem := { k.mem with accesses := [] } })
/-- Continue a placement below the tier whose lender had no space. -/
def Pkg.continuePlace (now : Nat) (up : Nat → Bool) (x : Placing) (k : Pkg) : Pkg :=
  let pages := k.get (F.CORE_SEG_LEN_PAGES x.core x.entry)
  let t := k.tryTiers up x.core (k.get (F.CORE_SEG_CTRL_CEILING x.core x.entry)) (k.get (F.CORE_SEG_LENDER_LENDER x.core x.entry))
    pages (tiersFrom (x.outcome + 1) (k.get (F.CORE_SEG_CTRL_FLOOR x.core x.entry)))
  (k.setPlacing (List.filter (· ≠ x))).record now x.core x.entry x.at_ pages t
/-- A package of a rack by its rack index, when it has one. -/
def pkgOf (rack : Fin 32) (n : Nat) : PkgId :=
  ⟨rack, ⟨n / 12 % 8, Nat.mod_lt _ (by decide)⟩, ⟨n % 12, Nat.mod_lt _ (by decide)⟩⟩
/-- The packages of a rack in service: admitted and not dark. -/
def State.upIn (s : State) (rack : Fin 32) (n : Nat) : Bool :=
  let k := s.pkg (pkgOf rack n)
  k.pkc.admitted && !k.pkgDark

/-! ### Lending (R46) -/

def Pkg.lentPages (k : Pkg) : Nat := (k.mem.grants.map (·.pages)).foldl (· + ·) 0
def gibPages : Nat := 262144
/-- USED_GIB: lent storage, rounded up to whole GiB. -/
def Pkg.usedGib (k : Pkg) : Nat := (k.lentPages + gibPages - 1) / gibPages
def Pkg.setGrants (f : List Grant → List Grant) (k : Pkg) : Pkg := { k with mem := { k.mem with grants := f k.mem.grants } }
/-- A packet from a borrower with a newer SGEN ends its grants (R46). -/
def Pkg.newerSgen (src : Nat) (sgen : Byte) (k : Pkg) : Pkg :=
  k.setGrants (List.filter (fun g => !(g.borrower.toNat = src && serialGt sgen g.sgen)))
/-- Take the first management packet of an opcode from a source out of the sink (R198). -/
def Pkg.fromSink (op : Byte) (src : Nat) (k : Pkg) : Pkg :=
  { k with fab := { k.fab with sink := k.fab.sink.eraseP (fun pk => pk.opcode == op && decide (epPkg pk.src = src)) } }
/-- LEND_ASK: the lender grants from its pool, or answers that it lacks the space. -/
def execLendAsk (p : PkgId) (src : BitVec 16) (sgen : Byte) (pages : Word) (core tag : BitVec 16) (s : State) : Out :=
  onPkgMem p s fun m k0 =>
    let k := (k0.fromSink 0x2A src.toNat).newerSgen src.toNat sgen
    let limit := if k.shadowSave then min (k.tierPages 2) belowSave else k.tierPages 2
    let fit := if k.lentPages + pages.toNat ≤ gibPages * k.get F.PKC_LEND_POOL_POOL_GIB then
      pickFit (k.used core.toNat 2) limit pages.toNat else none
    match fit with
    | some b => (memErase m (memKey p 0 (4096 * b)) (4096 * pages.toNat), (k.setGrants (· ++ [⟨4096 * b, pages.toNat, src, sgen⟩])).enqueueMgmt s.now 0x2C src.toNat
        (leBytes 2 tag.toNat ++ [1, 0, 0, 0, 0, 0] ++ leBytes 8 (4096 * b)))
    | none => (m, k.enqueueMgmt s.now 0x2C src.toNat (leBytes 2 tag.toNat ++ [0, 0, 0, 0, 0, 0] ++ leBytes 8 0))
/-- LEND_GRANT: the placing package places the segment, or continues to the next tier. A grant that comes after the 50 µs bound has ended the
placement is ignored, and no LEND_FREE answers it (DESIGN CHOICE, log 20). -/
def execLendGrant (p : PkgId) (tag : BitVec 16) (granted : Bool) (base : BitVec 64) (s : State) : Out :=
  onPkg p s fun k =>
    match k.mem.placing.find? (fun x => x.waitTag = some tag) with
    | none => k
    | some x =>
      let lender := k.get (F.CORE_SEG_LENDER_LENDER x.core x.entry)
      let k1 := k.fromSink 0x2C lender
      if granted then
        let st : Storage := ⟨x.outcome, base.toNat, k.get (F.CORE_SEG_LEN_PAGES x.core x.entry), BitVec.ofNat 16 lender⟩
        k1.setPlacing (List.map (fun y => if y = x then { y with waitTag := none, outcome := 2, store := some st } else y))
      else k1.continuePlace s.now (s.upIn p.rack) x
/-- LEND_FREE: the lender frees the grant. -/
def execLendFree (p : PkgId) (src : BitVec 16) (base : BitVec 64) (pages : Word) (s : State) : Out :=
  onPkg p s fun k => (k.fromSink 0x2B src.toNat).setGrants
    (List.filter (fun g => !(g.borrower = src && g.base = base.toNat && g.pages = pages.toNat)))
/-- Serve a class 0 request with PKG = 1: against local HBM inside a grant of SRC, else ACCESS_ERROR (R46, R197). -/
def lentAccess (now : Nat) (p : PkgId) (rq : Packet) (m : Mem) (k0 : Pkg) : Mem × Pkg × Answer :=
  let src := epPkg rq.src
  let k := k0.newerSgen src rq.sgen
  let a := bits rq.addr.toNat 0 44
  let len := opLength rq.opcode rq.want rq.payload
  if rq.opcode ≠ opClasp ∧
      k.mem.grants.any (fun g => g.borrower.toNat = src && g.base ≤ a && a + len ≤ g.base + 4096 * g.pages) then
    if k.tierDark 0 2 a len then (m, k, ⟨stUnitReset, true, []⟩) else storageOp now p 0 a rq.opcode rq.want rq.payload m k
  else (m, k, ⟨stAccessError, true, []⟩)
/-- LENT_STORAGE_ACCESS. A posted write is answered by its flow's ACK. -/
def execLentStorageAccess (p : PkgId) (pk : Packet) (s : State) : Out :=
  onPkgMem p s fun m k =>
    let r := lentAccess s.now p pk m k
    (r.1, if expectsResponse pk.opcode then r.2.1.answer s.now pk r.2.2.status r.2.2.poison r.2.2.data else r.2.1)

/-! ### Clasps (R51–R55) -/

/-- CLASP_ACQUIRE (R51, R52): GRANTED, NO_SLOT, or a place in the line's queue; DBG_HELD while the holder is halted (R362). `rq` is the CLASP
packet that asks, if one does. -/
def Pkg.claspAcquire (now : Nat) (c store line wait : Nat) (rq : Option Packet) (k : Pkg) : Pkg :=
  let st (v : Byte) : Pkg := k.claspTell now c rq v
  let held := (k.mem.clasps.filter (fun x => x.holder = c)).length
  let waits := k.mem.clasps.any (fun x => x.waiters.any (fun w => w.core = c))
  let line? := k.mem.clasps.find? (fun x => x.at store line)
  let inStore := (k.mem.clasps.filter (fun x => x.store = store)).length
  if k.coreDark store then st stUnitReset
  else if 4 ≤ held ∨ waits then st (Config.openStatus 1)
  else if 16 ≤ inStore then st stNoSlot
  else match line? with
  | none => (k.setClasps (· ++ [⟨store, line, c, [], now, false⟩])).claspTell now c rq stGranted
  | some x =>
    if k.coreHalted x.holder then st stDbgHeld
    else if wait = 0 then st stTimeout
    else k.setClasps (List.map (fun y => if y.at store line then { y with waiters := y.waiters ++ [⟨c, wait, now, rq⟩] } else y))
def execClaspAcquire (p src : PkgId) (c store : Core) (line : Fin 24576) (wait : Fin 1048577) (s : State) : Out :=
  onPkg p s fun k =>
    if src ≠ p then k.emit (.claspStatus c.val stNotLocal)
    else if k.coreDark c.val then k
    else (k.issues c.val).claspAcquire s.now c.val store.val line.val wait.val none
/-- CLASP_RELEASE by the holder, whose deferred halt then takes effect (R362); a holder whose clasp was broken receives CLASP_BROKEN (R54). -/
def execClaspRelease (p : PkgId) (c store : Core) (line : Fin 24576) (s : State) : Out :=
  onPkg p s fun k0 =>
    let k := k0.issues c.val
    if k.mem.broken.contains (c.val, store.val, line.val) || k.mem.silent.contains (c.val, store.val, line.val) then
      (k.forgetBroken c.val store.val line.val).emit (.claspStatus c.val stClaspBroken)
    else match k.mem.clasps.find? (fun x => x.at store.val line.val && x.holder = c.val) with
    | some x => ((claspNext s.now stGranted x k).emit (.claspStatus c.val stOK)).haltIfFree s.now c.val
    | none => k
/-- CLASP_WAIT_EXPIRY: a waiter whose wait has passed, in cycles of its C-tile's clock, leaves the queue with TIMEOUT. -/
def execClaspWaitExpiry (p : PkgId) (c : Core) (s : State) : Out :=
  onPkg p s fun k =>
    let due (w : Waiter) : Bool := w.core = c.val && decide (w.since + cyclesNs (k.coreMhz c.val) w.wait ≤ s.now)
    (k.tellWaiters s.now stTimeout (fun _ => true) due).setClasps
      (List.map (fun x => { x with waiters := x.waiters.filter (fun w => !due w) }))
/-- CLASP_HOLD_EXPIRY: after 65,536 cycles of the holder's C-tile the clasp is broken, the next waiter is granted and a CE is recorded (R54). -/
def execClaspHoldExpiry (p : PkgId) (store : Core) (line : Fin 24576) (s : State) : Out :=
  onPkg p s fun k =>
    match k.mem.clasps.find? (fun x => x.at store.val line.val) with
    | none => k
    | some x =>
      if x.paused ∨ s.now < x.since + cyclesNs (k.coreMhz x.holder) 65536 then k
      else
        let k1 := { k with mem := { k.mem with broken := k.mem.broken ++ [(x.holder, x.store, x.line)] } }
        (claspNext s.now stGrantedAfterBreak x k1).raise s.now (det x.holder 3) 0 0

/-! ### The host port (R61) -/

/-- The port holds itself in reset: it reports, and tier-5 segments and scans of host memory are lost. -/
def Pkg.hostPortOff (k : Pkg) : Pkg :=
  ((({ k with pkc := { k.pkc with hostInReset := true } }).loseSegs (fun _ st => st.tier = 5)).csuStop 5 (fun x => x.space = 6)).emit
    (.cwEvent 4 0)
/-- HOST_PORT_RESET: the port trains; below x8 or 16 GT/s it holds itself in reset, reports, and tier-5 segments are lost. An isolated
port stays in reset (Table 15.2). -/
def execHostPortReset (p : PkgId) (gts width : Nat) (s : State) : Out :=
  onPkg p s fun k =>
    let down := gts < 16 ∨ width < 8 ∨ 3 ≤ k.unitState 251
    let k1 := { k with pkc := { k.pkc with hostGts := gts, hostWidth := width, hostInReset := false } }
    if down then k1.hostPortOff else k1

end Sys2Proof.Machine
end

