-- ==== Sys2Proof/Machine/Route.lean ====
section
/-! DEFINITION. Routers: what a package or a Meridian tray does with a packet that reaches it (R130, R138, R148–R157, R164–R167,
R189), its output queues, their arbitration and credits, and what becomes of a queue whose port stops. -/

namespace Sys2Proof.Machine
open Sys2Proof

/-! ### Discards, settings, ages -/

/-- Causes of a discard at a router, in the order of FAB_DISCARD_A and FAB_DISCARD_B. -/
inductive Drop where
  | hold | lifetime | epoch | standin | noEndpoint | reorder | stale | header | orphan
  deriving DecidableEq, Repr
def dropField (f : Nat) : Drop → Fld
  | .hold => F.FAB_DISCARD_A_HOLD_DROP f
  | .lifetime => F.FAB_DISCARD_A_LIFETIME f
  | .epoch => F.FAB_DISCARD_A_EPOCH f
  | .standin => F.FAB_DISCARD_A_STANDIN f
  | .noEndpoint => F.FAB_DISCARD_B_NO_ENDPOINT f
  | .reorder => F.FAB_DISCARD_B_REORDER_FULL f
  | .stale => F.FAB_DISCARD_B_STALE_FLOW f
  | .header => F.FAB_DISCARD_B_BAD_HEADER f
  | .orphan => F.FAB_CAST_EVENTS_CAST_ORPHAN f
def dropIndex : Drop → Nat
  | .hold => 0 | .lifetime => 1 | .epoch => 2 | .standin => 3 | .noEndpoint => 4 | .reorder => 5 | .stale => 6 | .header => 7
  | .orphan => 8
/-- The F-tile of a port or bridge of a package. -/
def portTile (inp : Nat) : Nat := if inp < 24 then inp / 12 else inp % 2
def Pkg.drop (inp : Nat) (d : Drop) (k : Pkg) : Pkg := k.count (dropField (portTile inp) d) 1
/-- LIFETIME in µs. -/
def Pkg.lifetimeUs (k : Pkg) : Nat := 1000 * k.get (F.FAB_LINK_CFG_LIFETIME 0)
/-- Port hold time in ns. -/
def Pkg.holdNs (k : Pkg) : Nat := 500000 * k.get (F.FAB_LINK_CFG_HOLD 0)
/-- The settings of a Meridian tray: FAB_LINK_CFG at its reset value (log 21). -/
def merLifetimeUs : Nat := 10000
def merHoldNs : Nat := 2000000
/-- The age of a packet in µs (R164). -/
def ageUs (timeNs : Nat) (pk : Packet) : Nat := (BitVec.ofNat 16 (timeNs / 1000) - pk.birth).toNat

/-! ### Ports and queues -/

/-- States that a router handles as DOWN when it chooses a port (R154, R165; DEDUCED for OFF and TRAINING, log 22). -/
def portDown (st : PortState) : Bool :=
  decide (st = .down) || decide (st = .miswired) || decide (st = .heldDown) || decide (st = .off) || decide (st = .training)
/-- A link in service: ACTIVE, or PARKED, which a packet wakes (R77, R167). -/
def inService (st : PortState) : Bool := decide (st = .active) || decide (st = .parked)
def RouterSt.port (r : RouterSt) (q : Nat) : PortSt := sget {} r.ports q
def RouterSt.setPort (r : RouterSt) (q : Nat) (x : PortSt) : RouterSt := { r with ports := sset {} r.ports q x }
/-- The buffer a packet takes on a link: its channel, or on channel 2 its tree's reservation, or the one of row casts, column casts and uplinked
traffic (R148, R173). `plane` says that the link is to or between Meridian trays. -/
def bufKey (plane : Bool) (pk : Packet) : Nat :=
  if pk.vc = 2 then 8 + (if pk.castKind = 1 ∧ !plane then pk.tree.toNat else 64) else pk.vc.toNat
/-- A port of a package leads to a Meridian tray. -/
def Pkg.isPlane (k : Pkg) (q : Nat) : Bool := (portPlane k.idx q).isSome
/-- Put a packet in a port's output queue. -/
def RouterSt.push (q : Nat) (e : Queued) (r : RouterSt) : RouterSt :=
  r.setPort q { r.port q with outQ := (r.port q).outQ ++ [e] }
/-- Some copy of an arrival still waits. -/
def RouterSt.holds (r : RouterSt) (n : Nat) : Bool := r.ports.any fun x => x.2.outQ.any fun e => e.n = n
/-- The input frees a packet's flits (R149). -/
def RouterSt.free (inp key flits : Nat) (r : RouterSt) : RouterSt :=
  let x := (r.port inp).freed inp key flits
  { r.setPort inp x.1 with out := r.out ++ x.2 }
/-- Inputs from 100 are sources inside the package, which hold no buffer. -/
def Pkg.freeInput (inp key flits : Nat) (k : Pkg) : Pkg :=
  if 100 ≤ inp then k
  else
    let x := (k.port inp).freed inp key flits
    (k.setPort inp x.1).emits x.2
/-- A packet's flits leave its input with its last copy (R149, R202). -/
def Pkg.leave (e : Queued) (k : Pkg) : Pkg := if k.rt.holds e.n then k else k.freeInput e.inp e.inKey (flits e.pk)
def RouterSt.leave (e : Queued) (r : RouterSt) : RouterSt := if r.holds e.n then r else r.free e.inp e.inKey (flits e.pk)
def Pkg.queueAt (q : Nat) (e : Queued) (k : Pkg) : Pkg := { k with rt := k.rt.push q e }
/-- The number of an arrival, and the router with it counted. -/
def RouterSt.count (r : RouterSt) : RouterSt := { r with arrivals := r.arrivals + 1 }
def Pkg.arrival (inp : Nat) (pk : Packet) (k : Pkg) : Queued × Pkg :=
  (⟨pk, inp, bufKey (k.isPlane inp) pk, k.rt.arrivals⟩, { if inp < 24 then k.stir else k with rt := k.rt.count })
/-- The channel a packet takes: classes 0 and 1 move to escape with FALLBACK or MISROUTED (R148). -/
def withVc (pk : Packet) : Packet :=
  { pk with vc := if (pk.fallback || pk.misrouted) && (pk.cls = 0 || pk.cls = 1) then 5 else pk.cls }
def Queued.onward (e : Queued) : Queued := { e with pk := withVc e.pk }
def Queued.falling (e : Queued) : Queued := { e with pk := withVc { e.pk with fallback := true } }

/-! ### Package routers -/

/-- The links of a package to a plane (R23). -/
def Pkg.planeLinks (k : Pkg) (plane : Nat) : List Nat := (20 + plane) :: (secondPort k.idx plane).toList
/-- The link that a packet sent up a plane takes: the accumulator of FAB_PLANE_SPREAD spreads over two links (R153, R189), and a link that is
down leaves the parallel one. -/
def Pkg.toPlane (plane : Nat) (k : Pkg) : Nat × Pkg :=
  match secondPort k.idx plane with
  | none => (20 + plane, k)
  | some q2 =>
    let a := sget 0 k.fab.weightAcc (1000 + plane) + k.get (F.FAB_PLANE_SPREAD_SECOND 0 plane)
    let k1 := { k with fab := { k.fab with weightAcc := sset 0 k.fab.weightAcc (1000 + plane) (a % 256) } }
    let q := if 256 ≤ a then q2 else 20 + plane
    let other := if 256 ≤ a then 20 + plane else q2
    (if portDown (k.port q).state && !portDown (k.port other).state then other else q, k1)
/-- A link to a plane is in service. -/
def Pkg.planeUp (k : Pkg) (plane : Nat) : Bool := (k.planeLinks plane).any fun q => inService (k.port q).state
/-- The misroute that the weights select for a class 0 or 1 packet at its source (R155, R189). -/
def Pkg.misroute (d : Nat) (k : Pkg) : Option Nat × Pkg :=
  let a := sget 0 k.fab.weightAcc d + k.get (F.FAB_WEIGHT_MIS_SHARE 0 d)
  let k1 := { k with fab := { k.fab with weightAcc := sset 0 k.fab.weightAcc d (a % 256) } }
  let plane := k.get (F.FAB_WEIGHT_MIS_PLANE 0 d)
  (if 256 ≤ a ∧ k.planeUp plane then some plane else none, k1)
/-- The port of the primary route from v to d by VIA (R152). -/
def viaPort (v d via : Nat) : Option Nat := if via = 0x7F then portTo v d else portTo v via
/-- The port of a packet's fallback route, if it may still take one (R154). -/
def Pkg.fallbackPort (k : Pkg) (img : List Byte) (pk : Packet) : Option Nat × Pkg :=
  let up (plane : Nat) : Option Nat × Pkg := (some (k.toPlane plane).1, (k.toPlane plane).2)
  if pk.fallback then (none, k)
  else if addrRack (epPkg pk.dst) = k.rackNo then
    let e := pairEntry img k.idx (addrIndex (epPkg pk.dst))
    if e.2.2.1 = 1 then (portTo k.idx e.2.2.2.2, k) else if e.2.2.1 = 2 then up e.2.2.2.1 else (none, k)
  else
    let p := planeFallback img (addrRack (epPkg pk.dst))
    if p < 4 then up p else (none, k)
/-- Some entry of DBG_ROUTE_OVR is VALID: OVERRIDE of DBG_STATUS. -/
def Pkg.overrides (k : Pkg) : Bool := (List.range 8).any fun n => k.get (F.DBG_ROUTE_OVR_VALID n) = 1
/-- The report ROUTE_OVERRIDE of a package's CW when OVERRIDE sets or clears between two states of the package (R365). -/
def Pkg.reportOverride (before k : Pkg) : Pkg :=
  if k.overrides = before.overrides then k else k.emit (.report "ROUTE_OVERRIDE" 0 k.overrides.toNat)
/-- A VALID override entry for a unicast packet (R364). -/
def ovrMatch (w : Word) (rack index cls ownRack : Nat) : Bool :=
  let v := w.toNat
  bit v 31 && (bits v 28 3 = 7 || bits v 28 3 = cls) &&
    (bits v 20 8 = rack || (bits v 20 8 = 255 && rack = ownRack)) && (bits v 12 8 = 255 || bits v 12 8 = index)
def Pkg.override (k : Pkg) (pk : Packet) : Option Nat :=
  let a := epPkg pk.dst
  if pk.castKind ≠ 0 ∨ 4 < pk.cls.toNat ∨ pk.cls = 2 ∨ pk.cls = 3 then none
  else (List.range 8).findSome? fun i =>
    let w := k.rg (R.DBG_ROUTE_OVR i)
    if ovrMatch w (addrRack a) (addrIndex a) pk.cls.toNat k.rackNo then some (bits w.toNat 0 9) else none
/-- The ACK with which a stand-in answers for a dark package whose cast it discards (R176). -/
def Pkg.standInAck (now : Nat) (member : Nat) (pk : Packet) (k : Pkg) : Pkg :=
  k.emit (.packet { k.newPacket now opAck 1 (BitVec.ofNat 24 (epPkg pk.src * 256))
      (BitVec.ofNat 24 (addrOf k.rackNo member * 256)) [] with
    epoch := pk.epoch, pkg := true, status := stUnitReset, seq := pk.seq + 1, fgen := pk.fgen, tree := pk.tree,
    castKind := pk.castKind, tag := pk.tag, addr := pk.cls.zeroExtend 64 })
/-- A packet meets a port toward a dark neighbour: the stand-in answers what is addressed to the neighbour, acknowledges a cast for it, and
discards a tally packet; what is on its way through is discarded (R56, R166, R176, log 22). -/
def Pkg.meetDark (now q : Nat) (e : Queued) (k : Pkg) : Pkg :=
  let k1 := k.leave e
  let pk := e.pk
  if pk.cls = 2 then
    match portPeer k.idx q with
    | some m => (k1.drop q .standin).standInAck now m pk
    | none => k1.drop q .standin
  else if pk.cls = 3 then k1.drop q .standin
  else if portPeer k.idx q = some (addrIndex (epPkg pk.dst)) ∧ addrRack (epPkg pk.dst) = k.rackNo then
    if expectsResponse pk.opcode then k1.answer now pk stUnitReset true [] else k1.drop q .standin
  else k1.drop q .hold
/-- Put a packet in the queue of a port that it must take, whatever the port's state but PEER_DARK. -/
def Pkg.offer (now q : Nat) (e : Queued) (k : Pkg) : Pkg :=
  if (k.port q).state = .peerDark then k.meetDark now q e else k.queueAt q e
/-- Send a packet to a port; a port that is down leads to a parallel link to its plane, else to the fallback, once (R154, R165). -/
def Pkg.toPort (now : Nat) (img : List Byte) (q : Nat) (e : Queued) (k : Pkg) : Pkg :=
  let st := (k.port q).state
  if portDown st then
    match (match portPlane k.idx q with
      | some pl => (k.planeLinks pl).find? fun o => !portDown (k.port o).state
      | none => none) with
    | some q2 => k.offer now q2 e.onward
    | none =>
      match k.fallbackPort img e.pk with
      | (some q2, k1) => k1.offer now q2 e.falling
      | (none, k1) => k1.queueAt q e.onward
  else if st = .peerDark ∧ ¬ (portPeer k.idx q = some (addrIndex (epPkg e.pk.dst)) ∧ addrRack (epPkg e.pk.dst) = k.rackNo) then
    match k.fallbackPort img e.pk with
    | (some q2, k1) => k1.offer now q2 e.falling
    | (none, k1) => k1.meetDark now q e
  else k.offer now q e.onward
/-- The absence check of the first package of the destination rack that handles a request from another rack (R157). -/
def Pkg.foreignAbsent (k : Pkg) (img : List Byte) (pk : Packet) : Bool :=
  pk.cls = 0 && !pk.pkg && addrRack (epPkg pk.src) ≠ k.rackNo && addrRack (epPkg pk.dst) = k.rackNo &&
    allAbsent img (addrIndex (epPkg pk.dst))
/-- Requests that a package's inbound store can hold (R196). -/
def inboundSlots : Nat := 65536
def Pkg.storeFull (k : Pkg) : Bool := inboundSlots ≤ k.fab.inbound.length
/-- What a package's router does with a packet (R146, R148, R152–R157, R164). Inputs 0–23 are links; the others are bridges, at
which the package is the packet's source. A request that meets a full inbound store waits in its input buffer (R196). -/
def Pkg.arrive (now : Nat) (inp : Nat) (pk : Packet) (k0 : Pkg) : Pkg :=
  let a := epPkg pk.dst
  let mine := pk.cls = 2 ∨ pk.cls = 3 ∨ a = k0.addr
  let e := (k0.arrival inp pk).1
  let k1 := (k0.arrival inp pk).2
  let img := k1.tables pk.epoch
  let discard (d : Drop) : Pkg := (k1.leave e).drop inp d
  if !opcodeOk pk.opcode || pk.reserved then discard .header
  else if k1.lifetimeUs < ageUs (k1.time now) pk then discard .lifetime
  else if pk.cls ≠ 2 ∧ pk.cls ≠ 3 ∧ (if pk.pkg then !pkgAddrOk a else !endpointOk pk.dst) = true then discard .noEndpoint
  else
    let k := if mine then k1.newerSgen (epPkg pk.src) pk.sgen else k1
    if pk.cls = 2 ∨ pk.cls = 3 then k.emit (.delivered inp pk)
    else if a = k.addr then
      if pk.cls = 0 ∧ k.storeFull then { k with fab := { k.fab with stalled := k.fab.stalled ++ [(inp, pk)] } }
      else (k.leave e).emit (.delivered inp pk)
    else match k.override pk with
    | some q => k.offer now q e.onward
    | none =>
      if img.isEmpty then (k.leave e).drop inp .epoch
      else if chScope img = 0 then (k.leave e).drop inp .noEndpoint
      else if addrRack a = k.rackNo then
        let d := addrIndex a
        if k.foreignAbsent img pk then (k.leave e).answer now pk stUnitAbsent true []
        else
          let x := pairEntry img k.idx d
          match viaPort k.idx d (if pk.cls = 1 then x.2.1 else x.1) with
          | none => (k.leave e).drop inp .noEndpoint
          | some q =>
            if 24 ≤ inp ∧ (pk.cls = 0 ∨ pk.cls = 1) ∧ hops k.idx d = 2 ∧ !pk.fallback ∧ !pk.misrouted then
              match k.misroute d with
              | (some plane, k2) =>
                (k2.toPlane plane).2.offer now (k2.toPlane plane).1 { e with pk := withVc { pk with misrouted := true } }
              | (none, k2) => k2.toPort now img q e
            else k.toPort now img q e
      else
        let plane := planePrimary img (addrRack a)
        if 3 < plane then (k.leave e).drop inp .noEndpoint
        else (k.toPlane plane).2.toPort now img (k.toPlane plane).1 e

/-! ### Meridian routers -/

/-- What a Meridian tray knows when a packet arrives: fleet time in ns, its plane and rack number, whether the rack's new epoch has entered
(R138), and the fleet image in force. -/
structure MerCtx where
  time : Nat
  plane : Nat
  rack : Nat
  entered : Bool
  fleet : List Byte
/-- The map agent's sink overflows under this key of `discards` (R198). -/
def merSinkDrops : Nat := 9
def RouterSt.merCount (key : Nat) (r : RouterSt) : RouterSt :=
  { r with discards := sset 0 r.discards key (satAdd 8 (sget 0 r.discards key) 1) }
def RouterSt.merDrop (d : Drop) (r : RouterSt) : RouterSt := r.merCount (dropIndex d)
/-- Spread over the ports of a list in equal shares, each destination by its own count (R189): those in service or resuming, or else those of a
dark neighbour. -/
def RouterSt.spreadOver (key : Nat) (qs : List Nat) (r : RouterSt) : Option Nat × RouterSt :=
  let up := qs.filter fun q => !portDown (r.port q).state && decide ((r.port q).state ≠ .peerDark)
  let some_ := if up = [] then qs.filter fun q => decide ((r.port q).state = .peerDark) else up
  (some_[sget 0 r.spread key % some_.length]?, { r with spread := sset 0 r.spread key (sget 0 r.spread key + 1) })
/-- The image whose bundle map a packet uses: both are held from T0 to TR (R138). -/
def RouterSt.mapFor (r : RouterSt) (time : Nat) (e : Bool) : List Byte :=
  if !r.newMap.isEmpty && r.mapT0 ≤ time && chEpoch r.newMap % 2 == e.toNat then r.newMap else r.oldMap
/-- Ports down to a package of the rack (R24). -/
def merDown (plane n : Nat) : List Nat := n :: (if (secondPort n plane).isSome then [96 + n / 2] else [])
/-- Fleet-facing ports that lead to a rack (R28, R29, R153). -/
def merBundle (img fleet : List Byte) (own plane rack : Nat) : List Nat :=
  ((List.range 144).filter fun q => (bundleOf img fleet own plane q).any (·.1 = rack)).map (144 + ·)
/-- The package that a packet is on its way to: a tally packet's target travels beside it, since its DST is carried unchanged (R184, log 70). -/
def merTarget (pk : Packet) : Nat := if pk.cls = 3 ∧ pk.want ≠ 0 then pk.want - 1 else epPkg pk.dst
/-- The answer of a Meridian tray that stands in for a dark package (R56, R176): a poisoned UNIT_RESET to a request, the ACK of a cast on the
package's behalf; any other packet is discarded, and what needs no response is counted. -/
def RouterSt.merStandIn (time : Nat) (e : Queued) (r : RouterSt) : RouterSt :=
  let pk := e.pk
  let r1 := r.leave e
  let answer : Packet :=
    { pk with cls := 1, vc := 1, dst := pk.src, src := pk.dst, status := stUnitReset, newflow := false, fallback := false, misrouted := false,
              want := 0, addr := 0, birth := BitVec.ofNat 16 (time / 1000), payload := [] }
  if expectsResponse pk.opcode then { r1 with out := r1.out ++ [.packet { answer with opcode := opResponse, poison := true, pkg := false }] }
  else
    let r2 := r1.merDrop .standin
    if pk.cls = 2 then
      { r2 with out := r2.out ++ [.packet { answer with
        opcode := opAck, pkg := true, dst := BitVec.ofNat 24 (epPkg pk.src * 256), src := BitVec.ofNat 24 (merTarget pk * 256), seq := pk.seq + 1,
        tree := BitVec.ofNat 8 pk.tag.toNat, incarnation := 0, addr := pk.cls.zeroExtend 64 }] }
    else r2
/-- Put a packet in a port's queue; a port toward a dark neighbour has the tray stand in, or discard what is on its way through. -/
def RouterSt.merOffer (c : MerCtx) (q : Nat) (e : Queued) (r : RouterSt) : RouterSt :=
  if (r.port q).state ≠ .peerDark then r.push q e
  else if addrRack (merTarget e.pk) = c.rack ∧ (merDown c.plane (addrIndex (merTarget e.pk))).contains q then r.merStandIn c.time e
  else (r.leave e).merDrop .hold
/-- The neighbour whose row link leads to a package all of whose links to the plane are down (R154). -/
def rowPair (d : Nat) : Nat := d / 12 * 12 + (if d % 2 = 0 then d % 12 + 1 else d % 12 - 1)
/-- Where a Meridian tray sends a packet (R153, R154): down to its package or that package's row neighbour, or across a bundle. Casts and tally
packets take no fallback (R154 names routes of unicasts). -/
def RouterSt.merRoute (c : MerCtx) (e : Queued) (r : RouterSt) : RouterSt :=
  let pk := e.pk
  let a := merTarget pk
  if addrRack a = c.rack then
    let d := addrIndex a
    match r.spreadOver d (merDown c.plane d) with
    | (some q, r1) => r1.merOffer c q e.onward
    | (none, r1) =>
      if pk.fallback ∨ pk.cls = 2 ∨ pk.cls = 3 then r1.push d e.onward else r1.merOffer c (rowPair d) e.falling
  else
    let qs := merBundle (r.mapFor c.time pk.epoch) c.fleet c.rack c.plane (addrRack a)
    match r.spreadOver (200 + addrRack a) qs with
    | (some q, r1) => r1.merOffer c q e.onward
    | (none, r1) =>
      match qs with
      | [] => (r1.leave e).merDrop .noEndpoint
      | q :: _ => r1.push q e.onward
/-- A VALID override entry of a Meridian tray for a unicast packet (R364). -/
def RouterSt.merOverride (rack : Nat) (pk : Packet) (r : RouterSt) : Option Nat :=
  if pk.castKind ≠ 0 ∨ pk.cls = 2 ∨ pk.cls = 3 then none else
    (List.range 8).findSome? fun i =>
      let w := sget 0 r.ovr i
      if ovrMatch w (addrRack (epPkg pk.dst)) (addrIndex (epPkg pk.dst)) pk.cls.toNat rack then some (bits w.toNat 0 9) else none
/-- The package address of a Meridian tray's own identity (R145), to which map reports go (R187). -/
def merAddr (rack plane : Nat) : Nat := 0xF000 + rack * 128 + plane
/-- A map report enters the map agent's sink of 1,024 packets (R187, R198). -/
def RouterSt.merSink (e : Queued) (r : RouterSt) : RouterSt :=
  let r1 := r.leave e
  if r1.sink.length < 1024 then { r1 with sink := r1.sink ++ [e.pk] } else r1.merCount merSinkDrops
/-- What a Meridian tray does with a packet (R35, R138, R148, R153, R154, R164). -/
def RouterSt.merArrive (c : MerCtx) (inp : Nat) (pk0 : Packet) (r0 : RouterSt) : RouterSt :=
  let stampImg := if c.entered && !r0.newMap.isEmpty then r0.newMap else r0.oldMap
  let pk := if 144 ≤ inp then { pk0 with epoch := chEpoch stampImg % 2 = 1 } else pk0
  let e : Queued := ⟨pk, inp, bufKey true pk0, r0.arrivals⟩
  let r := r0.count
  let discard (d : Drop) : RouterSt := (r.leave e).merDrop d
  if !opcodeOk pk.opcode || pk.reserved then discard .header
  else if merLifetimeUs < ageUs c.time pk then discard .lifetime
  else if pk.cls = 4 ∧ pk.pkg ∧ epPkg pk.dst = merAddr c.rack c.plane then r.merSink e
  else if (if pk.pkg ∨ pk.cls = 2 ∨ pk.cls = 3 then !pkgAddrOk (merTarget pk) else !endpointOk pk.dst) = true then discard .noEndpoint
  else match r.merOverride c.rack pk with
  | some q => r.merOffer c q e.onward
  | none => r.merRoute c e

/-! ### Arbitration (R149, R150) -/

/-- The flits a buffer holds for a key at the next hop (Table 7.6, R173). -/
def bufferOf (img : List Byte) (key : Nat) : Nat :=
  if key = 4 then 16
  else if key < 8 then 80
  else if key = 72 then 65
  else treeBuffer (treeRec img (key - 8))
/-- The credits left towards the next hop for a key. -/
def PortSt.credits (x : PortSt) (img : List Byte) (key : Nat) : Nat :=
  bufferOf img key - (sget 0 x.txSent key - sget 0 x.txFreed key)
/-- No earlier packet of its input channel still waits at the router, so that it overtakes none (R150). -/
def RouterSt.first (r : RouterSt) (e : Queued) : Bool :=
  !r.ports.any fun x => x.2.outQ.any fun y => y.inp = e.inp && y.inKey = e.inKey && y.n < e.n
/-- Pick by greatest age, then by lower input, bridges ranked last. -/
def older (time : Nat) (a b : Queued) : Queued :=
  if ageUs time a.pk < ageUs time b.pk ∨ (ageUs time a.pk = ageUs time b.pk ∧ b.inp < a.inp) then b else a
def oldest (time : Nat) : List Queued → Option Queued
  | [] => none
  | e :: t => some (t.foldl (older time) e)
/-- Management flits among the last 1,024 of an output. -/
def mgmtShare : Nat → List (Bool × Nat) → Nat
  | _, [] => 0
  | left, (m, n) :: t => if left = 0 then 0 else (if m then min n left else 0) + mgmtShare (left - n) t
/-- The next packet of an output port: the oldest of each channel may go when it has credits for every flit, so that none waits while a younger
one of its channel is forwarded (R150, R192). `first` says that a packet is the first of its input channel. -/
def PortSt.pick (x : PortSt) (plane : Bool) (img : List Byte) (time : Nat) (first : Queued → Bool) : Option Queued :=
  let heads := x.outQ.filter first
  let cands := heads.filter fun e => flits e.pk ≤ x.credits img (bufKey plane e.pk) &&
    decide (oldest time (heads.filter fun y => bufKey plane y.pk = bufKey plane e.pk) = some e)
  let mgmt := cands.filter (fun e => e.pk.cls = 4)
  oldest time (if mgmt ≠ [] ∧ mgmtShare 1024 x.mgmtRun < 64 then mgmt else cands)
/-- The blocks that carry a packet: the last one carries its last flit (R141). `n` are still to come, from block `i` on. -/
def PortSt.blocks (pk : Packet) : Nat → Nat → PortSt → PortSt × List Block
  | 0, _, x => (x, [])
  | n + 1, i, x =>
    let b := sealBlock (slice (flitBytes pk) (4096 * i) 4096)
      { (x.word false).2 with dataFlits := if n = 0 then flits pk - 64 * i else 64, packets := if n = 0 then [pk] else [] }
    let r := PortSt.blocks pk n (i + 1) { (x.word false).1 with txBseq := x.txBseq + 1 }
    (r.1, b :: r.2)
/-- An output port sends its next packet while the replay buffer has room for its blocks (R142, R149). -/
def PortSt.depart (now : Nat) (plane : Bool) (img : List Byte) (time : Nat) (first : Queued → Bool) (x : PortSt) :
    Option (Queued × List Block × PortSt) :=
  match x.pick plane img time first with
  | none => none
  | some e =>
    let n := (flits e.pk + 63) / 64
    if x.state ≠ .active ∨ 4 < x.replay.length + n then none
    else
      let key := bufKey plane e.pk
      let r := x.blocks e.pk n 0
      some (e, r.2, { r.1 with
        outQ := x.outQ.erase e, replay := x.replay ++ r.2, sentAt := x.sentAt ++ r.2.map (fun _ => now),
        txSent := sset 0 x.txSent key (sget 0 x.txSent key + (flits e.pk)),
        mgmtRun := ((decide (e.pk.cls = 4), (flits e.pk)) :: x.mgmtRun).take 1024 })
/-- PACKET_DEPART. -/
def execPacketDepart (l : LinkId) (s : State) : Out :=
  let q := l.port.val
  match l.router with
  | .pkg p => onPkg p s fun k =>
      match (k.port q).depart s.now (k.isPlane q) k.chart.active (k.time s.now) k.rt.first with
      | none => k
      | some (e, bs, x) => ((k.setPort q x).emits (bs.map (Msg.block q))).leave e
  | .meridian r pl =>
      let m := s.router (.meridian r pl)
      match (m.port q).depart s.now true m.oldMap (s.rackTime r) m.first with
      | none => .next s
      | some (e, bs, x) =>
        let m1 := m.setPort q x
        .next (s.setRouter (.meridian r pl) ({ m1 with out := m1.out ++ bs.map (Msg.block q) }.leave e))

/-- The rack's new epoch has entered, and is not withdrawn: a package serves it, or has taken it at TR (R138). -/
def State.merEntered (s : State) (r : Fin 32) (newMap : List Byte) : Bool :=
  (List.range 96).any fun n =>
    let k := s.pkg (pkgOf r n)
    (k.chart.bank2 && decide (1 ≤ k.ownState)) || (!newMap.isEmpty && decide (k.chart.active = newMap))
/-- What a Meridian tray knows. -/
def State.merCtx (s : State) (r : Fin 32) (pl : Fin 4) : MerCtx :=
  ⟨s.rackTime r, pl.val, (s.rack r).rackNumber, s.merEntered r (s.router (.meridian r pl)).newMap, s.fleet.chart⟩
/-- A packet reaches a router. -/
def arriveAt (id : RouterId) (inp : Nat) (pk : Packet) (s : State) : State :=
  match id with
  | .pkg p => s.setPkg p ((s.pkg p).arrive s.now inp pk)
  | .meridian r pl => s.setRouter id ((s.router id).merArrive (s.merCtx r pl) (inp % 288) pk)
/-- PACKET_ARRIVE. -/
def execPacketArrive (r : RouterId) (inp : Fin 512) (pk : Packet) (s : State) : Out := .next (arriveAt r inp.val pk s)

/-! ### Queues of a port that stops, lifetimes, levels -/

/-- Packets of a stopped port that have a fallback move to it; casts, tally packets and overridden packets take none (R165, R364). What waits for a
dark neighbour meets its stand-in (R166, R176, R204). -/
def Pkg.moveToFallback (now : Nat) (q : Nat) (k : Pkg) : Pkg :=
  let es := (k.port q).outQ
  let k0 := k.setPort q { k.port q with outQ := [] }
  es.foldl (fun k e =>
    if e.pk.cls = 2 ∨ e.pk.cls = 3 ∨ (k.override e.pk).isSome then k.offer now q e
    else k.toPort now (k.tables e.pk.epoch) q e) k0
/-- The packets of a stopped or dark port of a Meridian tray go by its parallel ports or their fallback, or meet the stand-in; one that already takes
this port as its fallback, or by an override, keeps to it. -/
def RouterSt.merRequeue (c : MerCtx) (q : Nat) (r : RouterSt) : RouterSt :=
  let es := (r.port q).outQ
  let r0 := r.setPort q { r.port q with outQ := [] }
  es.foldl (fun r e =>
    let d := merTarget e.pk
    if (r.merOverride c.rack e.pk).isSome ∨ (addrRack d = c.rack ∧ !(merDown c.plane (addrIndex d)).contains q) then r.merOffer c q e
    else r.merRoute c e) r0
/-- Packets that have waited for a port past the hold time are discarded (R165). -/
def Pkg.holdDrop (q : Nat) (k : Pkg) : Pkg :=
  let es := (k.port q).outQ
  es.foldl (fun k e => (k.leave e).drop q .hold) (k.setPort q { k.port q with outQ := [] })
def RouterSt.merHoldDrop (q : Nat) (r : RouterSt) : RouterSt :=
  let es := (r.port q).outQ
  es.foldl (fun r e => (r.leave e).merDrop .hold) (r.setPort q { r.port q with outQ := [] })
/-- Discard the packets of a port's queue that meet a condition. -/
def Pkg.purge (d : Drop) (bad : Packet → Bool) (q : Nat) (k : Pkg) : Pkg :=
  let es := (k.port q).outQ
  (es.filter (fun e => bad e.pk)).foldl (fun k e => (k.leave e).drop q d)
    (k.setPort q { k.port q with outQ := es.filter (fun e => !bad e.pk) })
def RouterSt.merPurge (d : Drop) (bad : Packet → Bool) (q : Nat) (r : RouterSt) : RouterSt :=
  let es := (r.port q).outQ
  (es.filter (fun e => bad e.pk)).foldl (fun r e => (r.leave e).merDrop d)
    (r.setPort q { r.port q with outQ := es.filter (fun e => !bad e.pk) })
/-- Packets that wait in the input channels of links, outside the output queues: tally packets (R179) and requests of a full store (R196). -/
def Pkg.purgeInputs (d : Drop) (bad : Packet → Bool) (k : Pkg) : Pkg :=
  let held := (k.tally.waiting.filter fun e => e.1 < 100 && bad e.2) ++ k.fab.stalled.filter fun e => bad e.2
  held.foldl (fun k e => (k.freeInput e.1 (bufKey (k.isPlane e.1) e.2) (flits e.2)).drop e.1 d)
    { k with tally := { k.tally with waiting := k.tally.waiting.filter fun e => !(e.1 < 100 && bad e.2) },
             fab := { k.fab with stalled := k.fab.stalled.filter fun e => !bad e.2 } }
def Pkg.purgeAll (d : Drop) (bad : Packet → Bool) (k : Pkg) : Pkg :=
  ((List.range 24).foldl (fun k q => k.purge d bad q) k).purgeInputs d bad
/-- INPUT_SCAN: packets older than LIFETIME are discarded (R164, R202). -/
def execInputScan (r : RouterId) (s : State) : Out :=
  match r with
  | .pkg p => onPkg p s fun k => k.purgeAll .lifetime (fun pk => decide (k.lifetimeUs < ageUs (k.time s.now) pk))
  | .meridian k _ =>
    .next (s.setRouter r ((List.range 288).foldl
      (fun m q => m.merPurge .lifetime (fun pk => decide (merLifetimeUs < ageUs (s.rackTime k) pk)) q) (s.router r)))
/-- The level of a port: min(255, ⌈flits / 4⌉) (R186). -/
def PortSt.level (x : PortSt) : Nat := min 255 (((x.outQ.map (fun e => (flits e.pk))).foldl (· + ·) 0 + 3) / 4)
def PortSt.sample (x : PortSt) : PortSt :=
  { x with now := x.level, peakRead := max x.peakRead x.level, peakReport := max x.peakReport x.level }
/-- MAP_SAMPLE; at a Meridian tray the map agent also passes its sink on to the Sextant over management Ethernet (R187, log 71). -/
def execMapSample (r : RouterId) (s : State) : Out :=
  let m := s.router r
  let m1 := (List.range 288).foldl (fun m q => m.setPort q (m.port q).sample) m
  .next (s.setRouter r { m1 with sink := [], out := m1.out ++ m1.sink.map Msg.bridged })

end Sys2Proof.Machine
end

