-- ==== Sys2Proof/Machine/Tally.lean ====
section
/-! DEFINITION. Tally merge (R177–R184): element arithmetic (Table 8.3), the rounds of a tree at a package, and what closes them. -/

namespace Sys2Proof.Machine
open Sys2Proof

/-! ### Floating-point elements (R182) -/

/-- A finite binary32 value in units of 2^−149. -/
def f32Int (b : Nat) : Int :=
  let e := bits b 23 8
  let m : Int := if e = 0 then bits b 0 23 else ((2 ^ 23 + bits b 0 23) * 2 ^ (e - 1) : Nat)
  if bit b 31 then -m else m
def f32Special (b : Nat) : Bool := bits b 23 8 = 255
def f32NaN (b : Nat) : Bool := bits b 23 8 = 255 && bits b 0 23 ≠ 0
/-- A quotient by 2^s rounded to nearest, ties to even. -/
def roundShift (n s : Nat) : Nat :=
  let q := n >>> s
  let r := n % 2 ^ s
  if 2 ^ s < 2 * r ∨ (2 ^ s = 2 * r ∧ q % 2 = 1) then q + 1 else q
/-- The binary32 value nearest to an integer of units of 2^−149. -/
def f32Of (neg : Bool) (n : Nat) : Nat :=
  let len := if n = 0 then 0 else Nat.log2 n + 1
  let s := len - 24
  let q := roundShift n s
  let q' := if q = 2 ^ 24 then 2 ^ 23 else q
  let s' := if q = 2 ^ 24 then s + 1 else s
  let mag := if q' < 2 ^ 23 then q' else if 254 ≤ s' then 255 * 2 ^ 23 else (s' + 1) * 2 ^ 23 + (q' - 2 ^ 23)
  (if neg then 2 ^ 31 else 0) + mag
def f32QNaN : Nat := 0x7FC00000
/-- IEEE 754 binary32 addition, to nearest even. -/
def f32Add (a b : Nat) : Nat :=
  if f32NaN a || f32NaN b then f32QNaN
  else if f32Special a && f32Special b then (if a = b then a else f32QNaN)
  else if f32Special a then a
  else if f32Special b then b
  else
    let s := f32Int a + f32Int b
    if s = 0 then (if bit a 31 && bit b 31 then 2 ^ 31 else 0) else f32Of (decide (s < 0)) s.natAbs
/-- Round binary32 to BF16, to nearest even. -/
def bf16Of (a : Nat) : Nat := if f32NaN a then 0x7FC0 else roundShift a 16
/-- The order of MAX and MIN on a float of `w` bits, −0 below +0. -/
def floatRank (w b : Nat) : Int := if bit b (w - 1) then -1 - ((b % 2 ^ (w - 1) : Nat) : Int) else b
def floatNaN (w b : Nat) : Bool := if w = 32 then f32NaN b else f32NaN (b * 2 ^ 16)
def signedOf (w b : Nat) : Int := if bit b (w - 1) then (b : Int) - 2 ^ w else b

/-! ### Formats and lists (Table 8.2, R183) -/

/-- FORMAT, DESC, K and FLAG of a tally ADDR. -/
def tFormat (a : Nat) : Nat := bits a 44 4
def tDesc (a : Nat) : Bool := bit a 48
def tK (a : Nat) : Nat := bits a 49 12
def tFlag (a : Nat) : Bool := bit a 61
def opSum : Byte := 0x18
def opMax : Byte := 0x19
def opMin : Byte := 0x1A
def opTopk : Byte := 0x1B
/-- Element bytes of a format. -/
def elemBytes (f : Nat) : Nat := if f = 0 ∨ f = 2 then 4 else if f = 1 then 2 else 8
def elements (f : Nat) (l : List Byte) : List Nat := (chunks (elemBytes f) 4096 l).map leNat
/-- The rank of a TOPK key, best first, and whether it is a NaN, which sorts last. -/
def keyRank (format : Nat) (desc : Bool) (e : Nat) : Int :=
  let k := e / 2 ^ 48
  let r : Int := if format = 4 then Int.ofNat k else floatRank 16 k
  if desc then -r else r
def keyNaN (format e : Nat) : Bool := format = 5 && floatNaN 16 (e / 2 ^ 48)
/-- One entry is strictly better than another: by key, then by the lower identifier. -/
def better (format : Nat) (desc : Bool) (x y : Nat) : Bool :=
  if keyNaN format x ≠ keyNaN format y then keyNaN format y
  else
    let a := keyRank format desc x
    let b := keyRank format desc y
    if keyNaN format x || a = b then x % 2 ^ 48 < y % 2 ^ 48 else decide (a < b)
def topInsert (format : Nat) (desc : Bool) (x : Nat) : List Nat → List Nat
  | [] => [x]
  | y :: t => if better format desc x y then x :: y :: t else y :: topInsert format desc x t
/-- A list in which no entry is better than the one before it. -/
def topSorted (format : Nat) (desc : Bool) (l : List Nat) : Bool :=
  (l.zip (l.drop 1)).all (fun e => !better format desc e.2 e.1)

/-! ### Combining two contributions (Table 8.3) -/

/-- One element of SUM, MAX or MIN; the flag says that it saw a NaN or an overflow. BF16 sums are kept in binary32. -/
def elemOp (op : Byte) (f x y : Nat) : Nat × Bool :=
  let w := 8 * elemBytes f
  if op = opSum then
    if f ≤ 1 then let r := f32Add x y; (r, f32NaN r)
    else
      let r := signedOf w x + signedOf w y
      ((x + y) % 2 ^ w, decide (r < -(2 ^ (w - 1)) ∨ 2 ^ (w - 1) ≤ r))
  else if f ≤ 1 then
    let pick (b : Bool) : Nat := if b then x else y
    if floatNaN w x && floatNaN w y then ((if f = 0 then f32QNaN else 0x7FC0), true)
    else if floatNaN w x then (y, true)
    else if floatNaN w y then (x, true)
    else (pick (if op = opMax then decide (floatRank w y ≤ floatRank w x) else decide (floatRank w x ≤ floatRank w y)), false)
  else
    (if (if op = opMax then decide (signedOf w y ≤ signedOf w x) else decide (signedOf w x ≤ signedOf w y)) then x else y, false)
/-- The fold of a round's payloads in their order, and whether FLAG is set. -/
def combine (op : Byte) (addr : Nat) (payloads : List (List Byte)) : List Byte × Bool :=
  let f := tFormat addr
  if op = opTopk then
    let all := payloads.flatMap (elements f)
    let sorted := all.foldl (fun l x => topInsert f (tDesc addr) x l) []
    ((sorted.take (tK addr)).flatMap (leBytes 8), all.any (keyNaN f))
  else
    let widen (l : List Nat) : List Nat := if op = opSum ∧ f = 1 then l.map (· * 2 ^ 16) else l
    match payloads.map (fun l => widen (elements f l)) with
    | [] => ([], false)
    | first :: rest =>
      let isNaN (x : Nat) : Bool := f ≤ 1 && (if op = opSum then f32NaN x else floatNaN (8 * elemBytes f) x)
      let start : List Nat × Bool := (first, first.any isNaN)
      let r := rest.foldl (fun (acc : List Nat × Bool) l =>
        let es := (acc.1.zip l).map (fun e => elemOp op f e.1 e.2)
        (es.map (·.1), acc.2 || es.any (·.2))) start
      let canon (x : Nat) : Nat :=
        if op = opSum ∧ f = 1 then bf16Of x
        else if isNaN x then (if f = 0 then f32QNaN else 0x7FC0) else x
      (r.1.flatMap (fun x => leBytes (elemBytes f) (canon x)), r.2)

/-! ### A round at a package (R177–R181) -/

def Pkg.setTally (f : TallySt → TallySt) (k : Pkg) : Pkg := { k with tally := f k.tally }
/-- A child port that counts as having contributed nothing (R180); HELD_DOWN is handled as DOWN. -/
def childGone (st : PortState) : Bool :=
  decide (st = .peerDark) || decide (st = .down) || decide (st = .miswired) || decide (st = .heldDown)
/-- A malformed contribution (R181). A packet without data is a merged round without data. -/
def malformed (pk : Packet) : Bool :=
  let a := pk.addr.toNat
  let f := tFormat a
  let n := pk.payload.length
  if pk.opcode = opTopk then
    !(f = 4 || f = 5) || tK a < 1 || 512 < tK a || n % 8 ≠ 0 || 4096 < n || !topSorted f (tDesc a) (elements f pk.payload)
  else 3 < f || tK a ≠ 0 || n % elemBytes f ≠ 0
/-- A contribution agrees with the round that it meets. -/
def MergeSlot.agrees (x : MergeSlot) (pk : Packet) : Bool :=
  x.opcode = pk.opcode && bits x.addr.toNat 44 17 = bits pk.addr.toNat 44 17 && x.dst = pk.dst &&
    (pk.opcode = opTopk || pk.payload = [] || x.len = 0 || x.len = pk.payload.length)
/-- Take one contribution into a slot; `rank` is its place in the order of R182. -/
def MergeSlot.take (rank : Nat) (port core : Option Nat) (ok : Bool) (pk : Packet) (x : MergeSlot) : MergeSlot :=
  { x with
    len := if x.len = 0 then pk.payload.length else x.len, mismatch := x.mismatch || !ok,
    parts := x.parts ++ [⟨rank, port, if ok then pk.payload else [], pk.status, tFlag pk.addr.toNat, core⟩] }
/-- Every expected contribution has come, or counts as nothing. -/
def MergeSlot.full (x : MergeSlot) (children : List Nat) : Bool :=
  children.all (fun q => x.gone.contains q || x.parts.any (fun y => y.port = some q)) &&
    x.local_ ≤ (x.parts.filter (fun y => y.port.isNone)).length
/-- The contributions in the order of R182. -/
def insertPart (x : Part) : List Part → List Part
  | [] => [x]
  | y :: t => if x.rank < y.rank then x :: y :: t else y :: insertPart x t
def MergeSlot.ordered (x : MergeSlot) : List Part := x.parts.foldl (fun l y => insertPart y l) []
/-- STATUS of a closed round (R181). -/
def MergeSlot.status (x : MergeSlot) : Byte :=
  let m := (x.parts.map (·.status.toNat)).foldl max 0
  let m := if x.gone ≠ [] then max m stUnitReset.toNat else m
  let m := if x.timedOut then max m stPathDown.toNat else m
  BitVec.ofNat 8 (if x.mismatch then max m stAccessError.toNat else m)
/-- The merged data and the ADDR that carries FLAG. -/
def MergeSlot.result (x : MergeSlot) : List Byte × BitVec 64 :=
  let ps := x.ordered.filter (fun y => y.payload ≠ [])
  let r := combine x.opcode x.addr.toNat (ps.map (·.payload))
  let flag := r.2 || x.parts.any (·.flag)
  (r.1, if flag then x.addr ||| BitVec.ofNat 64 (2 ^ 61) else x.addr &&& ~~~ (BitVec.ofNat 64 (2 ^ 61)))

/-- A write at a core waits while the core wakes, or while its segment is being placed (R48, Table 3.4). -/
def Pkg.writeWaits (k : Pkg) (c a len : Nat) : Bool :=
  !k.coreDark c && (2 ≤ k.pstate c || decide (k.locate c a len = .busy))
/-- Write a result through the segments of a core, as a cast, a round at its root or a record of an engine does (R170, R180, R197); the status that
the write adds. -/
def writeResult (now : Nat) (p : PkgId) (c a : Nat) (data : List Byte) (m : Mem) (k : Pkg) : Mem × Pkg × Byte :=
  if k.coreDark c then (m, k, stUnitReset)
  else match k.locate c a data.length with
  | .place tier off _ =>
    if 3 ≤ tier then (m, k, stAccessError)
    else if k.tierDark c tier off data.length then (m, k, stUnitReset)
    else
      let r := claspedOp now p none (tierSpace c tier off).1 (tierSpace c tier off).2 opWritePosted 0 data m k
      (r.1, r.2.1, r.2.2.status)
  | .lost => (m, k, stUnitReset)
  | _ => (m, k, stAccessError)
/-- Put a tally packet in a tree port's queue, from a bridge; the stand-in of a dark neighbour discards it. -/
def Pkg.treePush (now t q : Nat) (pk : Packet) (k : Pkg) : Pkg :=
  (k.arrival (24 + t % 2) pk).2.offer now q (k.arrival (24 + t % 2) pk).1
/-- The root's result of a closed round waits for its core or segment; the round keeps its slot meanwhile. -/
def Pkg.rootWaits (k : Pkg) (x : MergeSlot) : Bool :=
  let r := k.tree x.tree
  treeRoot r = k.idx && !treeUplink r && x.result.1 ≠ [] && k.writeWaits (epCore x.dst) (bits x.addr.toNat 0 44) x.result.1.length
/-- A closed round leaves its slot: up the parent port, up the uplink, or into the root's target core (R180, R181, R184). -/
def sendRound (now : Nat) (p : PkgId) (x : MergeSlot) (m : Mem) (k0 : Pkg) : Mem × Pkg :=
  let t := x.tree
  let r := k0.tree t
  let k := k0.setTally fun y =>
    { y with slots := y.slots.filter (fun z => !(z.tree = t && z.seq = x.seq)), closed := y.closed ++ [(t, x.seq)] }
  let done (status : Byte) (k : Pkg) : Pkg :=
    let k1 := x.parts.foldl (fun k y => match y.core with
      | some c => k.emit (.completion c 0 status [])
      | none => k) k
    if status ≠ stOK then k1.count (F.FAB_CAST_EVENTS_PARTIAL (t % 2)) 1 else k1
  let data := x.result.1
  let up : Packet := { k.newPacket now x.opcode 3 x.dst (BitVec.ofNat 24 (k.addr * 256)) data with
    pkg := true, castKind := 1, tree := BitVec.ofNat 8 t, seq := x.seq, status := x.status, addr := x.result.2 }
  if treeRoot r = k.idx then
    if treeUplink r then
      (m, done x.status (k.treePush now t (20 + treeUpPlane r) { up with
        tree := BitVec.ofNat 8 (treeUpTree r), want := 1 + addrOf (treeUpRack r) (treeRoot r) }))
    else
      let c := epCore x.dst
      let w := if data = [] then (m, k, stOK) else writeResult now p c (bits x.addr.toNat 0 44) data m k
      let status := if x.status < w.2.2 then w.2.2 else x.status
      (w.1, done status (w.2.1.emit (.tallyDone c x.seq status (data.length / elemBytes (tFormat x.addr.toNat)))))
  else match treeParent r k.idx with
  | some (_, q) => (m, done x.status (k.treePush now t q up))
  | none => (m, done x.status k)
/-- The lowest round of a list of slots. -/
def lowestOf (l : List MergeSlot) : Option MergeSlot :=
  l.foldl
    (fun o x => match o with
      | none => some x
      | some z => if serialGt z.seq x.seq then some x else some z) none
/-- The lowest round of a tree that holds a slot, and the lowest that is open. -/
def TallySt.lowest (y : TallySt) (t : Nat) : Option MergeSlot := lowestOf (y.slots.filter (fun x => x.tree = t))
def TallySt.lowestOpen (y : TallySt) (t : Nat) : Option MergeSlot := lowestOf (y.slots.filter (fun x => x.tree = t && !x.closed))
/-- Send every closed round that no lower round holds back. -/
def flushTree (now : Nat) (p : PkgId) (t : Nat) : Nat → Mem × Pkg → Mem × Pkg
  | 0, mk => mk
  | n + 1, (m, k) =>
    match k.tally.lowest t with
    | some x =>
      if !x.closed then (m, k)
      else if k.rootWaits x then (m, k.wakeFor (epCore x.dst))
      else flushTree now p t n (sendRound now p x m k)
    | none => (m, k)
/-- Mark children that are gone, and close the rounds that are complete. -/
def Pkg.closeRounds (k : Pkg) : Pkg :=
  k.setTally fun y => { y with slots := y.slots.map fun x =>
    let ch := treeChildren (k.tree x.tree) k.idx
    let x1 := if x.closed then x else { x with gone := ch.filter (fun q =>
      x.gone.contains q || (childGone (k.port q).state && !x.parts.any (fun z => z.port = some q))) }
    { x1 with closed := x1.closed || x1.full ch } }
/-- Close and send what can be sent, in every tree. -/
def flushRounds (now : Nat) (p : PkgId) (m : Mem) (k : Pkg) : Mem × Pkg :=
  (List.range 64).foldl (fun mk t => flushTree now p t 33 mk) (m, k.closeRounds)

/-- A contribution waits in its input channel, or at its core (R179): behind one of its channel, at L + 32 and beyond, without a slot for its
round, or at the core's own limit. -/
def Pkg.mustWait (k : Pkg) (inp : Nat) (pk : Packet) : Bool :=
  let t := pk.tree.toNat
  let mine := inp - 100
  k.tally.waiting.any (fun e => e.1 = inp && (inp < 100 || e.2.tree = pk.tree)) ||
  (match k.tally.lowestOpen t with
    | some x => pk.seq == x.seq + 32 || serialGt pk.seq (x.seq + 32)
    | none => false) ||
  (32 ≤ (k.tally.slots.filter (fun x => x.tree = t)).length && !k.tally.slots.any (fun x => x.tree = t && x.seq = pk.seq)) ||
  (100 ≤ inp && decide (min (k.window k.idx (treeRoot (k.tree t)) k.rackNo 3) 32 ≤
    (k.tally.slots.filter (fun x => x.tree = t && x.parts.any (fun y => y.core = some mine))).length))
/-- Take a contribution; one for a closed round is late (log 18). Inputs 0–23 are ports and 100 + source are the package's own sources. -/
def Pkg.tallyPut (now : Nat) (inp : Nat) (pk : Packet) (k : Pkg) : Pkg :=
  let t := pk.tree.toNat
  let tile := t % 2
  let own := 100 ≤ inp
  let uplink := !own && (portPlane k.idx inp).isSome
  if k.mustWait inp pk then k.setTally fun y => { y with waiting := y.waiting ++ [(inp, pk)] }
  else
    let k0 := k.freeInput inp (bufKey (k.isPlane inp) pk) (flits pk)
    if k0.tally.closed.contains (t, pk.seq) || k0.tally.slots.any (fun x => x.tree = t && x.seq = pk.seq && x.closed) then
      let k1 := k0.count (F.FAB_CAST_EVENTS_TALLY_LATE tile) 1
      if own then k1.emit (.completion (inp - 100) 0 (Config.openStatus 3) []) else k1
    else
      let bad := malformed pk || (own && (pk.payload.length < 4 || 4096 < pk.payload.length))
      let fresh : MergeSlot :=
        { tree := t, seq := pk.seq, opcode := pk.opcode, dst := pk.dst, addr := pk.addr, len := pk.payload.length,
          local_ := k.get (F.FAB_TREE_STATE_LOCAL tile t), parts := [], gone := [], mismatch := false, timedOut := false,
          closed := false, openedAt := now }
      let slot? := k0.tally.slots.find? (fun x => x.tree = t && x.seq = pk.seq)
      let x := slot?.getD fresh
      let ok := !bad && x.agrees pk
      let rank := if own then inp - 100 else if uplink then 1000 + x.parts.length else 2000 + inp
      let x1 := x.take rank (if own || uplink then none else some inp) (if own then some (inp - 100) else none) ok pk
      let rest := k0.tally.slots.filter (fun z => !(z.tree = t && z.seq = pk.seq))
      let k1 := k0.setTally fun y => { y with slots := rest ++ [x1] }
      if ok then k1 else k1.count (F.FAB_CAST_EVENTS_TALLY_MISMATCH tile) 1
/-- Rounds close and are sent, and what waited for them goes on; at most `fuel` times. -/
def settle (now : Nat) (p : PkgId) : Nat → Mem × Pkg → Mem × Pkg
  | 0, mk => mk
  | n + 1, mk =>
    let r := flushRounds now p mk.1 mk.2
    let ws := r.2.tally.waiting
    let k1 := ws.foldl (fun k e => k.tallyPut now e.1 e.2) (r.2.setTally fun y => { y with waiting := [] })
    if k1.tally.waiting.length = ws.length then (r.1, k1) else settle now p n (r.1, k1)
/-- Bring the rounds of a package up to date. -/
def tallySettle (now : Nat) (p : PkgId) (m : Mem) (k : Pkg) : Mem × Pkg :=
  if k.tally.slots = [] ∧ k.tally.waiting = [] then (m, k) else settle now p (k.tally.waiting.length + 2) (m, k)

/-- The checks of R177, R178 and R133 on a core's contribution: the status with which it completes unsent. -/
def Pkg.tallyRefusal (k : Pkg) (src : Nat) (x : Contribution) : Option Byte :=
  let t := x.tree.val
  if k.treeHeld t then some stTurnHold
  else if !onTree (k.tree t) k.idx || !treeReverse (k.tree t) then some (Config.openStatus 2)
  else match sfind k.tally.last (64 * src + t) with
  | some l => if serialGt x.seq l then none else some stAccessError
  | none => none
/-- A core or a Bearing engine contributes to a round. -/
def contribute (now : Nat) (p : PkgId) (op : Byte) (src : Nat) (x : Contribution) (m : Mem) (k : Pkg) : Mem × Pkg :=
  match k.tallyRefusal src x with
  | some st => (m, k.emit (.completion src 0 st []))
  | none =>
    let pk : Packet := { k.newPacket now op 3 x.dst (endpoint k.addr src) x.payload with
      castKind := 1, tree := BitVec.ofNat 8 x.tree.val, seq := x.seq, addr := x.addr }
    let k1 := k.setTally fun y => { y with last := sinsert y.last (64 * src + x.tree.val) x.seq }
    tallySettle now p m (k1.tallyPut now (100 + src) pk)
/-- A core's contribution; a dark core sends none. -/
def coreContribute (op : Byte) (p : PkgId) (src : Nat) (x : Contribution) (s : State) : Out :=
  onPkgMem p s fun m k =>
    if (if src < 192 then k.coreDark src else k.dark.dark.any (fun e => engineOf e.1 src)) then (m, k)
    else contribute s.now p op src x m (k.issues src)
/-- TALLY_SUM. -/
def execTallySum (p : PkgId) (c : Core) (k : Contribution) (s : State) : Out := coreContribute opSum p c.val k s
/-- TALLY_MAX. -/
def execTallyMax (p : PkgId) (c : Core) (k : Contribution) (s : State) : Out := coreContribute opMax p c.val k s
/-- TALLY_MIN. -/
def execTallyMin (p : PkgId) (c : Core) (k : Contribution) (s : State) : Out := coreContribute opMin p c.val k s
/-- TALLY_TOPK. -/
def execTallyTopk (p : PkgId) (src : Fin 196) (k : Contribution) (s : State) : Out := coreContribute opTopk p src.val k s
/-- A tally packet belongs to a tree of this package and came from a child or a plane (R171, R179, R184). -/
def Pkg.tallyExpected (k : Pkg) (q : Nat) (pk : Packet) : Bool :=
  let r := k.tree pk.tree.toNat
  pk.tree.toNat < 64 && onTree r k.idx && treeReverse r && ((portPlane k.idx q).isSome || (treeChildren r k.idx).contains q)
/-- TALLY_ARRIVE: a tally packet from a child port or a plane port; one for no tree of this package is an orphan. -/
def execTallyArrive (p : PkgId) (inp : Fin 64) (pk : Packet) (s : State) : Out :=
  onPkgMem p s fun m k0 =>
    let k := k0.newerSgen (epPkg pk.src) pk.sgen
    if pk.cls ≠ 3 ∨ 24 ≤ inp.val then (m, k0)
    else if k.tallyExpected inp.val pk then tallySettle s.now p m (k.tallyPut s.now inp.val pk)
    else (m, (k.freeInput inp.val (bufKey (k.isPlane inp.val) pk) (flits pk)).drop inp.val .orphan)
/-- MERGE_WAIT_EXPIRY: the slot has been open for MERGE_WAIT (R180). -/
def execMergeWaitExpiry (p : PkgId) (tree : Fin 64) (seq : Word) (s : State) : Out :=
  onPkgMem p s fun m k =>
    let wait := 100000 * k.get (F.FAB_TREE_CFG_MERGE_WAIT 0)
    let due (x : MergeSlot) : Bool := x.tree = tree.val && x.seq = seq && !x.closed && x.openedAt + wait ≤ s.now
    if k.tally.slots.any due then
      tallySettle s.now p m (k.setTally fun y =>
        { y with slots := y.slots.map (fun x => if due x then { x with timedOut := true, closed := true } else x) })
    else (m, k)

end Sys2Proof.Machine
end

