-- ==== Sys2Proof/Machine/Link.lean ====
section
/-! DEFINITION. The link layer (R26, R141–R145), notices and dark neighbours (R57, R77, R165–R167). -/

namespace Sys2Proof.Machine
open Sys2Proof

/-- What a port reports to its unit. -/
inductive LinkEv where
  | crc
  | failedReplay
  | fastRetrain
  | down
  | wiring (received expected : Word)
  | back
  | send (m : Msg)
  deriving DecidableEq, Repr

/-! ### Identities (R26, R145, Table 1.2, R24) -/

/-- The 32 bits that an end sends: its package address or Meridian identity, and its port. -/
def identityOf (unit port : Nat) : Word := BitVec.ofNat 32 (unit * 65536 + port)
/-- The identity that the peer of a package's port must send. -/
def Pkg.expected (k : Pkg) (q : Nat) : Option Word :=
  match portPeer k.idx q with
  | some m => some (identityOf (addrOf k.rackNo m) (portBack k.idx q))
  | none => (portPlane k.idx q).map fun pl => identityOf (merAddr k.rackNo pl) (if 20 ≤ q then k.idx else 96 + k.idx / 2)
/-- The package whose second link takes package-facing port m of plane p (R24). -/
def merSecond (plane m : Nat) : Nat := 2 * (m - 96) + (if plane < 2 then 0 else 1)
/-- The identity that the peer of a Meridian port must send; none where the port is uncabled, so that every identity is a wrong one (R26–R29). -/
def RouterSt.merExpected (r : RouterSt) (fleet : List Byte) (plane rack m : Nat) : Option Word :=
  if m < 96 then some (identityOf (addrOf rack m) (20 + plane))
  else if m < 144 then
    let n := merSecond plane m
    some (identityOf (addrOf rack n) ((secondPort n plane).getD 0))
  else (bundleOf r.oldMap fleet rack plane (m - 144)).map fun e => identityOf (merAddr e.1 plane) (144 + e.2)
/-- What a port's end of a link sends, and what it must receive. -/
structure Ends where
  own : Word
  peer : Option Word
  deriving DecidableEq, Repr

/-! ### One port -/

abbrev PortStep := PortSt × List LinkEv

/-- A declaration as down, or as miswired (R144); full training follows (R145). -/
def PortSt.declare (now : Nat) (miswired : Bool) (x : PortSt) : PortStep :=
  ({ x with state := if miswired then .miswired else .down, downs := satAdd 8 x.downs 1, replay := [], sentAt := [], replayedAt := none,
            sameFails := 0, allFails := 0, stoppedAt := some (x.stoppedAt.getD now), training := true, trained := false },
   [.down])
/-- A fast retrain starts on an ACTIVE port; the 8th start within 1 s declares the link down (R143, R144). -/
def PortSt.startFast (now : Nat) (x : PortSt) : PortStep :=
  if x.state ≠ .active then (x, [])
  else
    let starts := x.retrainStarts.filter (fun t => now < t + 10 ^ 9) ++ [now]
    let x1 := { x with retrainStarts := starts, stoppedAt := some now, sameFails := 0, replayedAt := none }
    if 8 ≤ starts.length then x1.declare now false
    else ({ x1 with state := .retraining }, [.fastRetrain])
/-- Resend the replay buffer from its oldest block. -/
def PortSt.resend (now q : Nat) (x : PortSt) : PortStep :=
  ({ x with sentAt := x.replay.map (fun _ => now) }, x.replay.map (fun b => .send (.block q b)))
/-- The first `n` blocks of the replay buffer are acknowledged: a block has passed its CRC, which clears the counts of failed replays
(R142, R144). -/
def PortSt.passed (n : Nat) (x : PortSt) : PortSt :=
  if n = 0 then x
  else { x with replay := x.replay.drop n, sentAt := x.sentAt.drop n, replayedAt := none, sameFails := 0, allFails := 0 }
/-- Where a block stands in the replay buffer. -/
def PortSt.replayIndex (bseq : Byte) (x : PortSt) : Option Nat := x.replay.findIdx? (fun b => b.bseq == bseq)
/-- A NAK makes the sender resend from a block; a NAK of a block already replayed is a failed replay (R142–R144). Credits of trees are then told
anew, since a control word was lost. -/
def PortSt.nak (now q : Nat) (bseq : Byte) (x0 : PortSt) : PortStep :=
  match x0.replayIndex bseq with
  | none => ({ x0 with castTold := [] }, [])
  | some n =>
    let x := { x0.passed n with castTold := [] }
    if x.replayedAt = some bseq then
      let x2 := { x with sameFails := x.sameFails + 1, allFails := x.allFails + 1, failedReplays := satAdd 8 x.failedReplays 1 }
      if 16 ≤ x2.allFails then
        let r := x2.declare now false
        (r.1, .failedReplay :: r.2)
      else if 4 ≤ x2.sameFails then
        let r := x2.startFast now
        (r.1, .failedReplay :: r.2)
      else ((x2.resend now q).1, .failedReplay :: (x2.resend now q).2)
    else { x with replayedAt := some bseq, sameFails := 0 }.resend now q
/-- ACKSEQ covers every block up to it (R142). -/
def PortSt.ack (ackseq : Byte) (x : PortSt) : PortSt :=
  match x.replayIndex ackseq with
  | some n => x.passed (n + 1)
  | none => x
/-- No ACKSEQ has covered the oldest block within 1 µs of its sending: the sender resends from it, which is a replay of that block (R142). -/
def PortSt.replayTimeout (now q : Nat) (x : PortSt) : PortStep :=
  match x.replay, x.sentAt with
  | b :: _, t :: _ =>
    if x.state = .active ∧ t + 1000 ≤ now then
      { x with replayedAt := some b.bseq, sameFails := if x.replayedAt = some b.bseq then x.sameFails else 0 }.resend now q
    else (x, [])
  | _, _ => (x, [])
/-- The cumulative credit counts of a control word (Table 7.2, R149, R174). -/
def PortSt.takeCredit (key : Nat) (b : Byte) (x : PortSt) : PortSt :=
  let old := sget 0 x.txFreed key
  { x with txFreed := sset 0 x.txFreed key (old + (b - BitVec.ofNat 8 old).toNat) }
def PortSt.takeCredits (b : Block) (x : PortSt) : PortSt :=
  (indexed b.credits).foldl (fun x e => x.takeCredit (if e.1 = 2 then 8 + b.castTree.toNat else e.1) e.2) x
/-- A port receives blocks. -/
def PortSt.listens (x : PortSt) : Bool := decide (x.state = .active) || decide (x.state = .peerDark) || decide (x.state = .parked)
/-- A block that a port must discard: its CRC fails, or it follows a failed block that has not come again (R142). -/
def PortSt.discards (b : Block) (crcOk : Bool) (x : PortSt) : Bool :=
  !x.listens || !crcOk || (x.rejecting && decide (b.bseq ≠ x.rxNext))
/-- A received block (R142). One whose CRC fails is answered with a NAK that names it, and everything after it is discarded, its control word
too, until it comes again. The control word of any other block acts, and the next block with data in order is taken and acknowledged. Answers the
packets taken. -/
def PortSt.receive (now q : Nat) (b : Block) (crcOk : Bool) (x : PortSt) : PortSt × List LinkEv × List Packet :=
  if !x.listens then (x, [], [])
  else if !crcOk then
    let r := { x with crcBlocks := satAdd 16 x.crcBlocks 1, rejecting := true }.idle q true
    (r.1, [.crc, .send r.2], [])
  else if x.discards b crcOk then (x, [], [])
  else
    let x1 := { x with rejecting := false }.takeCredits b
    let r : PortStep := if b.nak then x1.nak now q b.ackseq else (x1.ack b.ackseq, [])
    if b.dataFlits = 0 then (r.1, r.2, [])
    else
      let inOrder := decide (b.bseq = x.rxNext)
      let i := (if inOrder then { r.1 with rxNext := x.rxNext + 1 } else r.1).idle q false
      (i.1, r.2 ++ [.send i.2], if inOrder then b.packets else [])
/-- The link's sequences and credits start afresh at full training (log 22). -/
def PortSt.freshLink (x : PortSt) : PortSt :=
  { x with txBseq := 0, replay := [], sentAt := [], replayedAt := none, sameFails := 0, allFails := 0, rxNext := 0, rejecting := false,
           txSent := [], txFreed := [], rxFreed := [], castTold := [], castTurn := 0 }
/-- Full training ends (R145, R166, R167). Ends have exchanged identities when it succeeds; a wrong one is a declaration (R144) unless the link is
down or dark already (log 72). -/
def PortSt.fullEnd (now q : Nat) (ok : Bool) (identity : Word) (ends : Ends) (x : PortSt) : PortStep :=
  if !x.training then (x, [])
  else
    let x0 := { x with training := false }
    if !ok then
      (if x.state = .training then { x0 with state := .down, stoppedAt := some (x.stoppedAt.getD now) } else x0, [])
    else
      let x1 := { x0 with identity := identity }
      let mine : LinkEv := .send (.identity q ends.own)
      if ends.peer ≠ some identity then
        let bad : LinkEv := .wiring identity (ends.peer.getD 0)
        if x.state = .peerDark then ({ x1 with trained := false }, [mine, bad])
        else if x.state = .down ∨ x.state = .miswired then ({ x1 with state := .miswired }, [mine, bad])
        else ((x1.declare now true).1, mine :: (x1.declare now true).2 ++ [bad])
      else if x.state = .peerDark then ({ x1 with trained := true }, [mine])
      else ({ x1.freshLink with state := .active, stoppedAt := none }, [mine, .back, .send (.notice q 2)])
/-- A fast retrain ends: the identity is exchanged again, and sending resumes from the oldest unacknowledged block (R143). -/
def PortSt.fastEnd (now q : Nat) (identity : Word) (ends : Ends) (x : PortSt) : PortStep :=
  if x.state ≠ .retraining then (x, [])
  else
    let x1 := { x with identity := identity }
    let mine : LinkEv := .send (.identity q ends.own)
    if ends.peer ≠ some identity then
      ((x1.declare now true).1, mine :: (x1.declare now true).2 ++ [.wiring identity (ends.peer.getD 0)])
    else
      let r := { x1 with state := .active, stoppedAt := none, sameFails := 0, replayedAt := none, rejecting := false }.resend now q
      (r.1, mine :: .back :: r.2)
/-- A fast retrain not done within 1.2 ms is abandoned (R143). -/
def PortSt.fastTimeout (now : Nat) (x : PortSt) : PortStep :=
  if x.state = .retraining ∧ (x.stoppedAt.getD now) + 1200000 ≤ now then x.declare now false else (x, [])

/-! ### Ports of packages and Meridian trays -/

/-- A package handles what its port reports: the hub's detectors (Table 15.4), EVENT WIRING, and messages. -/
def Pkg.linkEv (now q : Nat) (e : LinkEv) (k : Pkg) : Pkg :=
  match e with
  | .crc => k.raise now (det (208 + q) 3) 0 0
  | .failedReplay => k.raise now (det (208 + q) 4) 0 0
  | .fastRetrain => k.raise now (det (208 + q) 2) 0 0
  | .down => k.raise now (det (208 + q) 1) 0 0
  | .wiring r x => (k.raise now (det (208 + q) 0) (r.zeroExtend 64) (x.zeroExtend 64)).emit
      (.cwEvent 3 (BitVec.ofNat 64 (x.toNat + 2 ^ 32 * r.toNat)))
  | .back => k.emit (.report "PORT_RETURN" q 0)
  | .send m => k.emit m
def Pkg.linkStep (now q : Nat) (r : PortStep) (k : Pkg) : Pkg :=
  r.2.foldl (fun k e => k.linkEv now q e) (k.setPort q r.1)
def RouterSt.linkStep (q : Nat) (r : PortStep) (m : RouterSt) : RouterSt :=
  let m1 := m.setPort q r.1
  { m1 with out := m1.out ++ r.2.filterMap (fun e => match e with
    | .send x => some x
    | .wiring a b => some (.report "WIRING" q (b.toNat + 2 ^ 32 * a.toNat))
    | .back => some (.report "PORT_RETURN" q 0)
    | _ => none) }
/-- Apply a step of one port; where the port has become DOWN or MISWIRED, its packets move to their fallbacks (R165). -/
def Pkg.portDo (now q : Nat) (f : PortSt → PortStep) (k : Pkg) : Pkg :=
  let k1 := k.linkStep now q (f (k.port q))
  if portDown (k1.port q).state then k1.moveToFallback now q else k1
def RouterSt.merPortDo (c : MerCtx) (q : Nat) (f : PortSt → PortStep) (m : RouterSt) : RouterSt :=
  let m1 := m.linkStep q (f (m.port q))
  if portDown (m1.port q).state then m1.merRequeue c q else m1
/-- What a port of a package, or of a Meridian tray, sends and must receive at training. -/
def Pkg.ends (k : Pkg) (q : Nat) : Ends := ⟨identityOf k.addr q, k.expected q⟩
def RouterSt.ends (c : MerCtx) (q : Nat) (r : RouterSt) : Ends :=
  ⟨identityOf (merAddr c.rack c.plane) q, r.merExpected c.fleet c.plane c.rack q⟩
/-- A step of one port of a router; rounds that its state closes are sent (R180). -/
def onPort (l : LinkId) (s : State) (f : Ends → PortSt → PortStep) : Out :=
  match l.router with
  | .pkg p => onPkgMem p s fun m k => tallySettle s.now p m (k.portDo s.now l.port.val (f (k.ends l.port.val)))
  | .meridian r pl => onRouter l.router s fun m =>
      m.merPortDo (s.merCtx r pl) l.port.val (f (m.ends (s.merCtx r pl) l.port.val))

/-- NAK. -/
def execNak (l : LinkId) (bseq : Byte) (s : State) : Out := onPort l s fun _ x => x.nak s.now l.port.val bseq
/-- REPLAY_TIMEOUT. -/
def execReplayTimeout (l : LinkId) (s : State) : Out := onPort l s fun _ x => x.replayTimeout s.now l.port.val
/-- LANE_LOCK_LOSS. -/
def execLaneLockLoss (l : LinkId) (s : State) : Out := onPort l s fun _ x => x.startFast s.now
/-- FAST_RETRAIN_END. -/
def execFastRetrainEnd (l : LinkId) (identity : Word) (s : State) : Out :=
  onPort l s fun e x => x.fastEnd s.now l.port.val identity e
/-- FAST_RETRAIN_TIMEOUT. -/
def execFastRetrainTimeout (l : LinkId) (s : State) : Out := onPort l s fun _ x => x.fastTimeout s.now
/-- FULL_TRAINING_END. -/
def execFullTrainingEnd (l : LinkId) (ok : Bool) (identity : Word) (s : State) : Out :=
  onPort l s fun e x => x.fullEnd s.now l.port.val ok identity e
/-- TRAINING_RETRY: a port that stays DOWN or MISWIRED trains again (R145), and so does one that stays PEER_DARK untrained (R166). -/
def PortSt.retry (x : PortSt) : PortStep :=
  if x.state = .down ∨ x.state = .miswired ∨ (x.state = .peerDark ∧ x.trained = false) then ({ x with training := true }, []) else (x, [])
def execTrainingRetry (l : LinkId) (s : State) : Out := onPort l s fun _ x => x.retry
/-- A port whose domain has powered up runs full training (R145). -/
def PortSt.powerUp (x : PortSt) : PortSt := if x.state = .off then { x with state := .training, training := true } else x

/-- RETRAIN, HOLD_DOWN and RELEASE of FAB_PORT_CTRL. -/
def PortSt.holdDown (now : Nat) (x : PortSt) : PortStep :=
  ({ x with state := .heldDown, training := false, replay := [], sentAt := [], stoppedAt := some (x.stoppedAt.getD now) }, [])
/-- RELEASE. A package that has not joined the fabric keeps its links out of training (R37): its port is then OFF until the links are admitted. -/
def PortSt.release (joined : Bool) (x : PortSt) : PortStep :=
  if x.state ≠ .heldDown then (x, [])
  else if joined then ({ x with state := .training, training := true }, [])
  else ({ x with state := .off, stoppedAt := none }, [])

/-! ### Notices and parked links -/

/-- Segments lent by a package that goes dark or leaves service are lost (R50). -/
def Pkg.loseLent (lender : Nat) (k : Pkg) : Pkg :=
  k.loseSegs (fun _ st => (st.tier = 3 ∨ st.tier = 4) ∧ st.lender.toNat = lender)
/-- A port's peer goes dark (R166). -/
def PortSt.darken (x : PortSt) : PortSt := { x with state := .peerDark, training := true, trained := false }
/-- GOING_DARK_NOTICE: the port becomes PEER_DARK, the router stands in, and what waits for the port is answered, moved or
discarded (R57, R166). -/
def Pkg.goingDark (now q : Nat) (k : Pkg) : Pkg :=
  let k2 := (k.setPort q (k.port q).darken).moveToFallback now q
  match portPeer k.idx q with
  | some m => k2.loseLent (addrOf k.rackNo m)
  | none => k2
def RouterSt.darken (c : MerCtx) (q : Nat) (m : RouterSt) : RouterSt := (m.setPort q (m.port q).darken).merRequeue c q
def execGoingDarkNotice (l : LinkId) (s : State) : Out :=
  match l.router with
  | .pkg p => onPkgMem p s fun m k => tallySettle s.now p m (k.goingDark s.now l.port.val)
  | .meridian r pl => onRouter l.router s fun m => m.darken (s.merCtx r pl) l.port.val
/-- BACK_IN_SERVICE_NOTICE: after training it ends PEER_DARK (R166). -/
def PortSt.backInService (x : PortSt) : PortStep :=
  if x.state = .peerDark ∧ x.trained then ({ x.freshLink with state := .active, stoppedAt := none, trained := false }, [.back])
  else (x, [])
def execBackInServiceNotice (l : LinkId) (s : State) : Out := onPort l s fun _ x => x.backInService
/-- MOOR_NOTICE: the neighbour parks the link (R77). -/
def PortSt.park (x : PortSt) : PortStep := if x.state = .active then ({ x with state := .parked }, []) else (x, [])
def execMoorNotice (l : LinkId) (s : State) : Out := onPort l s fun _ x => x.park
/-- The notices that the flags of a block carry (R141). -/
def Pkg.blockFlags (now q : Nat) (b : Block) (k : Pkg) : Pkg :=
  let k1 := if b.goingDark then k.goingDark now q else k
  let k2 := if b.moor then k1.portDo now q PortSt.park else k1
  if b.backInService then k2.portDo now q PortSt.backInService else k2
def RouterSt.blockFlags (c : MerCtx) (q : Nat) (b : Block) (m : RouterSt) : RouterSt :=
  let m1 := if b.goingDark then m.darken c q else m
  let m2 := if b.moor then m1.linkStep q (m1.port q).park else m1
  if b.backInService then m2.linkStep q (m2.port q).backInService else m2
/-- BLOCK_RECEIVE: the packets a block brings reach the router, and the notices it carries act, unless the block is discarded (R142). -/
def execBlockReceive (l : LinkId) (b : Block) (crcOk : Bool) (s : State) : Out :=
  let q := l.port.val
  match l.router with
  | .pkg p =>
    onPkgMem p s fun mem k =>
      let r := (k.port q).receive s.now q b crcOk
      let k1 := k.linkStep s.now q (r.1, r.2.1)
      let k2 := if portDown (k1.port q).state ∧ !portDown (k.port q).state then k1.moveToFallback s.now q else k1
      let k3 := r.2.2.foldl (fun k pk => k.arrive s.now q pk) k2
      tallySettle s.now p mem (if (k.port q).discards b crcOk then k3 else k3.blockFlags s.now q b)
  | .meridian r0 pl =>
    let m := s.router l.router
    let c := s.merCtx r0 pl
    let r := (m.port q).receive s.now q b crcOk
    let m1 := m.linkStep q (r.1, r.2.1)
    let m2 := if portDown (m1.port q).state ∧ !portDown (m.port q).state then m1.merRequeue c q else m1
    let m3 := r.2.2.foldl (fun m pk => m.merArrive c q pk) m2
    .next (s.setRouter l.router (if (m.port q).discards b crcOk then m3 else m3.blockFlags c q b))
/-- WAKE_PATTERN_SEND: sent when a packet is at the head of a parked port's queue; the hold time counts from it (R77, R165). -/
def PortSt.wakeSend (now q : Nat) (x : PortSt) : PortStep :=
  if x.state = .parked ∧ x.outQ ≠ [] ∧ x.stoppedAt = none then
    ({ x with stoppedAt := some now }, [.send (.report "WAKE_PATTERN" q 0)])
  else (x, [])
def execWakePatternSend (l : LinkId) (s : State) : Out := onPort l s fun _ x => x.wakeSend s.now l.port.val
/-- A parked link resumes (R77). -/
def PortSt.resume (x : PortSt) : PortStep :=
  if x.state = .parked then ({ x with state := .active, stoppedAt := none }, [.back]) else (x, [])
/-- HOLD_TIME_EXPIRY: a parked port not resumed becomes DOWN, and what has no fallback is discarded (R165). -/
def Pkg.holdExpiry (now q : Nat) (k : Pkg) : Pkg :=
  match (k.port q).stoppedAt with
  | none => k
  | some t =>
    if now < t + k.holdNs then k
    else
      let k1 := if (k.port q).state = .parked then
          (k.setPort q { k.port q with state := .down, training := true }).moveToFallback now q else k
      if portDown (k1.port q).state then k1.holdDrop q else k1
def RouterSt.merHoldExpiry (c : MerCtx) (now q : Nat) (m : RouterSt) : RouterSt :=
  match (m.port q).stoppedAt with
  | none => m
  | some t =>
    if now < t + merHoldNs then m
    else
      let m1 := if (m.port q).state = .parked then (m.setPort q { m.port q with state := .down, training := true }).merRequeue c q else m
      if portDown (m1.port q).state then m1.merHoldDrop q else m1
def execHoldTimeExpiry (l : LinkId) (s : State) : Out :=
  match l.router with
  | .pkg p => onPkgMem p s fun m k => tallySettle s.now p m (k.holdExpiry s.now l.port.val)
  | .meridian r pl => onRouter l.router s fun m => m.merHoldExpiry (s.merCtx r pl) s.now l.port.val

end Sys2Proof.Machine
end

