-- ==== Sys2Proof/Machine/Recv.lean ====
section
/-! DEFINITION. The receiver side of flows and consumption at the edge (R157, R161–R163, R196–R198), acknowledgements, responses
and resends. -/

namespace Sys2Proof.Machine
open Sys2Proof

/-! ### Receiver state (R161) -/

/-- Bytes a packet takes in a reorder store: whole flits. -/
def storeSize (pk : Packet) : Nat := 64 * flits pk
/-- Bytes held in the reorder store of an F-tile. -/
def Pkg.reorderUsed (k : Pkg) (tile : Nat) : Nat :=
  ((k.fab.rx.filter (fun e => k.tileOf e.1 = tile)).flatMap (fun e => e.2.held.map storeSize)).foldl (· + ·) 0
/-- An ACK of a flow (R162): it carries the flow's class (in ADDR, log 23), FGEN and SEQ, and a status. -/
def Pkg.sendAck (now : Nat) (of : Packet) (status : Byte) (seq : Word) (fgen : Byte) (k : Pkg) : Pkg :=
  k.emit (.packet { k.newPacket now opAck 1 (BitVec.ofNat 24 (epPkg of.src * 256)) (BitVec.ofNat 24 (k.addr * 256)) [] with
    epoch := of.epoch, pkg := true, status := status, seq := seq, fgen := fgen, tree := of.tree, castKind := of.castKind,
    tag := of.tag, addr := of.cls.zeroExtend 64 })
/-- A fresh receiver state for a packet's generation. -/
def freshRx (pk : Packet) : RxFlow :=
  { sgen := pk.sgen, fgen := pk.fgen, next := 0, held := [], unacked := 0, firstUnacked := none, kept := [] }
/-- How a packet stands to the generation held (Table 7.7). -/
inductive GenCase where
  | stale | fresh | current | unknown
  deriving DecidableEq, Repr
def genCase (held : Option RxFlow) (pk : Packet) : GenCase :=
  match held with
  | none => if pk.newflow then .fresh else .unknown
  | some f =>
    if pk.sgen = f.sgen ∧ pk.fgen = f.fgen then .current
    else if serialGt f.sgen pk.sgen || (pk.sgen == f.sgen && serialGt f.fgen pk.fgen) then .stale
    else if pk.newflow then .fresh else .unknown
/-- Whether a class 0 packet is in the inbound store. -/
def Pkg.inStore (k : Pkg) (pk : Packet) : Bool :=
  k.fab.inbound.any (fun r => r.src = pk.src && r.seq = pk.seq && r.sgen = pk.sgen && r.fgen = pk.fgen && r.tag = pk.tag)
/-- A request that meets a full store waits; `inp` is the input whose buffer it holds, 200 when it has left it (R196). -/
def Pkg.stall (inp : Nat) (pk : Packet) (k : Pkg) : Pkg := { k with fab := { k.fab with stalled := k.fab.stalled ++ [(inp, pk)] } }
/-- A duplicate: it is counted and acknowledged at once, which is the flow's last ACK, and a request that expects a response gets it again
(R161, R162, R196). -/
def Pkg.duplicate (now : Nat) (f : RxFlow) (pk : Packet) (k : Pkg) : Pkg :=
  let key := flowOf pk
  let k1 := ((k.count (F.FAB_FLOW_EVENTS_DUPLICATES (k.tileOf key)) 1).setRx key { f with unacked := 0, firstUnacked := none }).sendAck now pk
    stOK f.next f.fgen
  if pk.cls ≠ 0 ∨ expectsResponse pk.opcode = false ∨ k.inStore pk then k1
  else if pk.opcode = opRead then
    if k1.storeFull then k1.stall 200 pk else { k1 with fab := { k1.fab with inbound := k1.fab.inbound ++ [pk] } }
  else match f.kept.find? (fun e => e.1 = pk.seq) with
  | some (_, st, v) => k1.answer now pk st (decide (st ≠ stOK ∧ st.toNat < 16)) (if pk.opcode = opAtomic then leBytes 8 v.toNat else [])
  | none => k1

/-! ### Delivery in order (R161, R196–R198) -/

/-- A cast of another rack's tree, which came up an uplink; its TREE names the tree of its sender's flow and its TAG this rack's (R171, log 23). -/
def Pkg.foreignCast (k : Pkg) (pk : Packet) : Bool := decide (pk.castKind = 1) && decide (addrRack (epPkg pk.src) ≠ k.rackNo)
/-- The tree of this rack that a cast uses. -/
def Pkg.castTree (k : Pkg) (pk : Packet) : Nat := if k.foreignCast pk then pk.tag.toNat % 64 else pk.tree.toNat
/-- This package delivers casts of a packet's tree, row or column. -/
def Pkg.deliversCast (k : Pkg) (pk : Packet) : Bool := pk.castKind ≠ 1 || treeDeliver (k.tree (k.castTree pk)) k.idx
/-- How the next packet of a flow is consumed: at once, later, or not at all. -/
inductive Take where
  | yes | wait | drop
  deriving DecidableEq, Repr
/-- A request waits for room in the inbound store, and a cast for its core or segment; a management packet that meets a full sink is discarded
before it is sequenced, and comes again under R163. -/
def Pkg.takes (k : Pkg) (pk : Packet) : Take :=
  if pk.cls = 0 then (if k.storeFull then .wait else .yes)
  else if pk.cls = 4 then (if !Config.turnOpcode pk.opcode && 1024 ≤ k.fab.sink.length then .drop else .yes)
  else if pk.opcode = 0x10 ∧ k.deliversCast pk ∧ bits pk.dst.toNat 0 6 < 48 ∧
      k.writeWaits (epCore pk.dst) (bits pk.addr.toNat 0 44) pk.payload.length then .wait
  else .yes
/-- Deliver one packet in order: a request enters the inbound store, a management packet its sink; casts are written by the
caller. `cast` is the delivery of a cast. -/
abbrev Deliver := Packet → Mem × Pkg → Mem × Pkg
/-- Deliver the packet at E and its held successors in order, at most `fuel` of them. A cast that waits for its core wakes it. -/
def runDeliver (dl : Deliver) (key : Nat) (now : Nat) : Nat → Mem × Pkg → Mem × Pkg
  | 0, mk => mk
  | n + 1, (m, k) =>
    match k.rxFlow key with
    | none => (m, k)
    | some f =>
      match f.held.find? (fun h => h.seq = f.next) with
      | none => (m, k)
      | some pk =>
        match k.takes pk with
        | .wait => (m, if pk.cls = 2 then k.wakeFor (epCore pk.dst) else k)
        | .drop => (m, (k.setRx key { f with held := f.held.erase pk }).count F.FLT_DROPS_MGMT_SINK 1)
        | .yes =>
          let f1 := { f with next := f.next + 1, held := f.held.erase pk, unacked := f.unacked + 1,
                             firstUnacked := some (f.firstUnacked.getD now) }
          runDeliver dl key now n (dl pk (m, k.setRx key f1))
/-- ACK_COUNT of the Charts in force. -/
def Pkg.ackCountNow (k : Pkg) : Nat := max 1 (ackCount k.chart.active)
/-- Acknowledge a flow when ACK_COUNT packets have been delivered since its last ACK (R162). -/
def Pkg.ackIfDue (now : Nat) (key : Nat) (pk : Packet) (k : Pkg) : Pkg :=
  match k.rxFlow key with
  | none => k
  | some f =>
    if k.ackCountNow ≤ f.unacked then
      (k.setRx key { f with unacked := 0, firstUnacked := none }).sendAck now pk stOK f.next f.fgen
    else k
/-- A packet of a flow, as an ACK of the flow needs it: its source package, class and tree. -/
def Pkg.likeOf (now key : Nat) (k : Pkg) : Packet :=
  let tree := key % 128
  let cls := key / 128 % 8
  { k.newPacket now 0 (BitVec.ofNat 3 cls) 0 (BitVec.ofNat 24 (key / 1024 * 256)) [] with
    tree := BitVec.ofNat 8 tree, castKind := if cls ≠ 2 then 0 else if tree < 64 then 1 else if tree = 64 then 2 else 3 }
/-- Flows whose next packet was held back go on. -/
def resumeFlows (now : Nat) (dl : Deliver) (cls : Nat) (mk : Mem × Pkg) : Mem × Pkg :=
  ((mk.2.fab.rx.map (·.1)).filter (fun key => key / 128 % 8 = cls)).foldl (fun mk key =>
    let r := runDeliver dl key now 513 mk
    (r.1, r.2.ackIfDue now key (r.2.likeOf now key))) mk
/-- Table 7.7 for one packet that has reached its receiver. -/
def receivePacket (now : Nat) (dl : Deliver) (pk : Packet) (m : Mem) (k0 : Pkg) : Mem × Pkg :=
  let k := k0.newerSgen (epPkg pk.src) pk.sgen
  let key := flowOf pk
  let tile := k.tileOf key
  let judge (f : RxFlow) : Mem × Pkg :=
    let k1 := k.setRx key f
    let d := (pk.seq - f.next).toNat
    let full (k : Pkg) : Mem × Pkg := (m, k.count (F.FAB_DISCARD_B_REORDER_FULL tile) 1)
    if d < 512 then
      if f.held.any (fun h => h.seq = pk.seq) then (m, k1)
      else if d ≠ 0 ∧ 2 ^ 21 < k.reorderUsed tile + storeSize pk then full k1
      else if d = 0 ∧ pk.cls = 0 ∧ k.storeFull then (m, k1.stall 200 pk)
      else
        let r := runDeliver dl key now 513 (m, k.setRx key { f with held := f.held ++ [pk] })
        (r.1, r.2.ackIfDue now key pk)
    else if d < 2 ^ 31 then full k1
    else (m, k1.duplicate now f pk)
  match genCase (k.rxFlow key) pk, k.rxFlow key with
  | .stale, _ => (m, k.count (F.FAB_DISCARD_B_STALE_FLOW tile) 1)
  | .unknown, _ => (m, (k.count (F.FAB_FLOW_EVENTS_RESYNCS tile) 1).sendAck now pk stResync 0 pk.fgen)
  | .fresh, _ => judge (freshRx pk)
  | .current, some f => judge f
  | .current, none => judge (freshRx pk)

/-- A management packet is consumed: turn messages by the Chart engine, others by the sink of 1,024 (R128, R198). -/
def Pkg.takeMgmt (pk : Packet) (k : Pkg) : Pkg :=
  if Config.turnOpcode pk.opcode then
    match Config.turnMessage pk.opcode pk.payload with
    | some x => { k with chart := { k.chart with arrived := k.chart.arrived ++ [(x.1.val + 1, x.2)] } }
    | none => k
  else { k with fab := { k.fab with sink := k.fab.sink ++ [pk] } }
/-- Delivery of requests and management packets. -/
def deliverUnicast (pk : Packet) (mk : Mem × Pkg) : Mem × Pkg :=
  if pk.cls = 4 then (mk.1, mk.2.takeMgmt pk)
  else (mk.1, { mk.2 with fab := { mk.2.fab with inbound := mk.2.fab.inbound ++ [pk] } })
/-- FLOW_PACKET_RECEIVE: a packet of a class 0 or 4 flow has reached its receiver. -/
def execFlowPacketReceive (p : PkgId) (pk : Packet) (s : State) : Out :=
  onPkgMem p s fun m k =>
    if pk.cls = 0 ∨ pk.cls = 4 then receivePacket s.now deliverUnicast pk m k else (m, k)
/-- MGMT_PACKET: a management packet arrives. -/
def execMgmtPacket (p : PkgId) (pk : Packet) (s : State) : Out :=
  onPkgMem p s fun m k => if pk.cls ≠ 4 then (m, k) else receivePacket s.now deliverUnicast pk m k
/-- ACK_TIME_EXPIRY: ACK_TIME has passed since the first delivery not yet acknowledged (R162). -/
def execAckTimeExpiry (p : PkgId) (src : BitVec 16) (cls : BitVec 3) (tree : Byte) (s : State) : Out :=
  onPkg p s fun k =>
    let key := flowKey src.toNat cls.toNat (tree.toNat % 128)
    match k.rxFlow key with
    | none => k
    | some f =>
      match f.firstUnacked with
      | none => k
      | some t =>
        if s.now < t + 1000 * ackTime k.chart.active then k
        else (k.setRx key { f with unacked := 0, firstUnacked := none }).sendAck s.now (k.likeOf s.now key) stOK f.next f.fgen

/-! ### Serving requests (R56, R157, R196, R197) -/

/-- The destination's reach check of a request from another rack (R157). -/
def Pkg.foreignNoReach (k : Pkg) (rq : Packet) : Bool :=
  let img := k.tables rq.epoch
  let j := coreSkein img k.idx (epCore rq.dst)
  addrRack (epPkg rq.src) ≠ k.rackNo && j ≠ 0xFF &&
    !(remoteReach img).any (fun r => r.1 = j && r.2.1 = addrRack (epPkg rq.src) && r.2.2.1 = bits rq.addr.toNat 58 6 && r.2.2.2 = 1)
/-- The core of this package that sent a request, if one did. -/
def Pkg.localSender (k : Pkg) (rq : Packet) : Option Nat := if epPkg rq.src = k.addr then some (epCore rq.src) else none
/-- A request waits while its core wakes, or while its segment is being placed. -/
def Pkg.waits (k : Pkg) (rq : Packet) : Bool :=
  let c := epCore rq.dst
  !rq.pkg && !k.coreDark c && !k.foreignAbsent (k.tables rq.epoch) rq && !k.foreignNoReach rq &&
    (2 ≤ k.pstate c || (rq.opcode ≠ opClasp && decide (k.locate c (bits rq.addr.toNat 0 44) (opLength rq.opcode rq.want rq.payload) = .busy)))
/-- A CLASP packet acquires the line at ADDR for the sending core, with the maximum wait it carries (log 14); it is answered when the line is
granted, or the wait ends (R52). `mesh` says that it came over the mesh, where no packet answers it. -/
def Pkg.serveClasp (now : Nat) (mesh : Bool) (rq : Packet) (k : Pkg) : Pkg :=
  match k.localSender rq with
  | none => (k.keep rq stNotLocal 0).answer now rq stNotLocal true []
  | some c => k.claspAcquire now c (epCore rq.dst) (bits rq.addr.toNat 0 44 / 64) rq.want (if mesh then none else some rq)
/-- Serve a request: its answer, unless none is due yet. The checks of another rack's request come first (R157). -/
def serve (now : Nat) (p : PkgId) (mesh : Bool) (rq : Packet) (m : Mem) (k : Pkg) : Mem × Pkg × Option Answer :=
  let some3 (r : Mem × Pkg × Answer) : Mem × Pkg × Option Answer := (r.1, r.2.1, some r.2.2)
  let bad (st : Byte) : Mem × Pkg × Option Answer := (m, k, some ⟨st, true, []⟩)
  let c := epCore rq.dst
  let len := opLength rq.opcode rq.want rq.payload
  if rq.pkg then some3 (lentAccess now p rq m k)
  else if k.foreignAbsent (k.tables rq.epoch) rq then bad stUnitAbsent
  else if k.foreignNoReach rq then bad stNoReach
  else if k.coreDark c then bad stUnitReset
  else if rq.opcode = opClasp then (m, k.serveClasp now mesh rq, none)
  else match k.locate c (bits rq.addr.toNat 0 44) len with
  | .busy => (m, k, none)
  | .lost => bad stUnitReset
  | .none => bad stAccessError
  | .place tier off _ =>
    if 3 ≤ tier then bad stAccessError
    else if k.tierDark c tier off len then bad stUnitReset
    else some3 (claspedOp now p (k.localSender rq) (tierSpace c tier off).1 (tierSpace c tier off).2 rq.opcode rq.want rq.payload m k)
/-- A request is for a dark unit: its core, or the unit that holds its storage (R56). -/
def Pkg.meetsDark (k : Pkg) (rq : Packet) : Bool :=
  let len := opLength rq.opcode rq.want rq.payload
  (!rq.pkg && k.coreDark (epCore rq.dst)) || (k.leadsTo rq).any fun e => k.tierDark (epCore rq.dst) e.1 e.2 len
/-- The answer of a served request goes back: kept, sent where the request expects a response, and counted by the stand-in where a dark unit was to
take a request that does not (R56, R161). -/
def Pkg.reply (now : Nat) (rq : Packet) (a : Answer) (k0 : Pkg) : Pkg :=
  let k := k0.keep rq a.status (BitVec.ofNat 64 (if rq.opcode = opAtomic then leNat a.data else 0))
  if expectsResponse rq.opcode then k.answer now rq a.status a.poison a.data
  else if a.status = stUnitReset && k.meetsDark rq then k.standIn now (rq.pkg || !k.coreDark (epCore rq.dst)) rq
  else k
/-- Room in the inbound store: the oldest request that met it full leaves its input buffer, and held successors follow (R196). -/
def unstall (now : Nat) (mk : Mem × Pkg) : Mem × Pkg :=
  match mk.2.fab.stalled with
  | [] => resumeFlows now deliverUnicast 0 mk
  | (inp, pk) :: rest =>
    let k := { mk.2 with fab := { mk.2.fab with stalled := rest } }
    (mk.1, (k.freeInput inp (bufKey (k.isPlane inp) pk) (flits pk)).emit (.delivered inp pk))
/-- A request that can be served: it waits for nothing, and no migration pauses its slot. -/
def Pkg.servable (k : Pkg) (r : Packet) : Bool := !k.waits r && (r.pkg || !k.paused (epCore r.dst))
/-- REQUEST_SERVE: the oldest request of the inbound store that can be served, or else of the mesh (log 66). -/
def execRequestServe (p : PkgId) (s : State) : Out :=
  onPkgMem p s fun m k0 =>
    let k := (k0.fab.inbound ++ k0.fab.mesh).foldl (fun k r => if r.pkg then k else k.wakeFor (epCore r.dst)) k0
    match k.fab.inbound.find? k.servable, k.fab.mesh.find? k.servable with
    | some rq, _ =>
      let r := serve s.now p false rq m { k with fab := { k.fab with inbound := k.fab.inbound.erase rq } }
      unstall s.now (r.1, match r.2.2 with
        | none => r.2.1
        | some a => r.2.1.reply s.now rq a)
    | none, some rq =>
      let r := serve s.now p true rq m { k with fab := { k.fab with mesh := k.fab.mesh.erase rq } }
      (r.1, match r.2.2 with
        | none => r.2.1
        | some a => r.2.1.meshDone rq a.status (if a.poison then [] else a.data))
    | none, none => (m, k)

/-! ### The source hears back (R59, R159, R163, R176, R198) -/

/-- RESPONSE_ARRIVAL: the request completes and its slot is free. A response of a stale incarnation completes it too, but is counted and not
delivered; one for which nothing is outstanding is discarded. -/
def execResponseArrival (p : PkgId) (pk : Packet) (s : State) : Out :=
  onPkg p s fun k0 =>
    let k := k0.newerSgen (epPkg pk.src) pk.sgen
    let c := epCore pk.dst
    let key := flowKey (epPkg pk.src) 0 0
    let f := k.txFlow key
    let stale := decide (pk.incarnation ≠ k.coreInc c)
    let k1 := if stale then k.count (F.CORE_STALE_RESP_COUNT (c % 192)) 1 else k
    match f.out.find? (fun o => o.pk.seq = pk.seq && o.pk.fgen = pk.fgen && expectsResponse o.pk.opcode && o.core = c) with
    | none => k1
    | some o =>
      let k2 := k1.setTx key { f with out := f.out.erase o, acked := true }
      if stale then k2 else (k2.wakeFor c).complete o pk.status (if pk.poison then [] else pk.payload)
/-- The member index that an ACK speaks for; 96 stands for the uplink target. -/
def Pkg.ackMember (k : Pkg) (pk : Packet) : Nat :=
  if addrRack (epPkg pk.src) = k.rackNo then addrIndex (epPkg pk.src) else 96
/-- An outstanding cast hears from one member. -/
def TxOut.hear (member : Nat) (status : Byte) (o : TxOut) : TxOut :=
  if o.await.contains member then
    { o with await := o.await.filter (· ≠ member), bad := if status = stOK then o.bad else o.bad ++ [member],
             pk := { o.pk with status := if status = stOK then o.pk.status else status } }
  else o
/-- ACK: it covers every earlier SEQ of its generation; a RESYNC resets the flow (R162, R163, R176). -/
def execAck (p : PkgId) (pk : Packet) (s : State) : Out :=
  onPkg p s fun k0 =>
    let k := k0.newerSgen (epPkg pk.src) pk.sgen
    let cls := bits pk.addr.toNat 0 3
    let tree := if cls ≠ 2 then 0 else if pk.castKind = 1 then pk.tree.toNat % 64 else if pk.castKind = 2 then 64 else 65
    let key := flowKey (if cls = 2 then k.addr else epPkg pk.src) cls tree
    let f := k.txFlow key
    if pk.fgen ≠ f.fgen ∨ (f.out = [] ∧ f.seq = 0) then k
    else if pk.status = stResync then k.resetFlow key (k.tileOf key) stUnitReset
    else
      let covered (o : TxOut) : Bool := serialGt pk.seq o.pk.seq
      if cls = 2 then
        let out := f.out.map (fun o => if covered o then o.hear (k.ackMember pk) pk.status else o)
        let k1 := k.setTx key { f with acked := true, out := out.filter (fun o => !(covered o && o.await.isEmpty)) }
        (out.filter (fun o => covered o && o.await.isEmpty)).foldl (fun k o => k.complete o o.pk.status []) k1
      else
        let done (o : TxOut) : Bool := covered o && !expectsResponse o.pk.opcode
        let k1 := k.setTx key { f with acked := true, out := f.out.filter (fun o => !done o) }
        (f.out.filter done).foldl (fun k o => k.complete o pk.status []) k1

end Sys2Proof.Machine
end

