-- ==== Sys2Proof/Machine/Cast.lean ====
section
/-! DEFINITION. Casts (R168–R176), sending and resending on a flow (R159, R163), congestion reports and weights (R186–R190). -/

namespace Sys2Proof.Machine
open Sys2Proof

/-! ### Where a cast goes -/

/-- The tree ports of a package: its children and its parent (R170). -/
def Pkg.treePorts (k : Pkg) (t : Nat) : List Nat :=
  let r := k.tree t
  treeChildren r k.idx ++ (match treeParent r k.idx with | some (_, q) => [q] | none => [])
/-- The row or column links of a package. -/
def Pkg.linePorts (k : Pkg) (kind : BitVec 2) : List Nat :=
  (if kind = 2 then List.range 12 else (List.range 8).map (12 + ·)).filter (fun q => (portPeer k.idx q).isSome)
/-- The copy that the root sends up its uplink (R170); it names the target package, its tree there, and in TAG the tree of the sender's flow
(log 23). -/
def Pkg.upCopy (k : Pkg) (pk : Packet) : Nat × Packet :=
  let r := k.tree pk.tree.toNat
  (20 + treeUpPlane r, { pk with
    dst := BitVec.ofNat 24 (addrOf (treeUpRack r) (treeRoot r) * 256 + pk.dst.toNat % 256), tree := BitVec.ofNat 8 (treeUpTree r),
    tag := BitVec.ofNat 16 pk.tree.toNat })
/-- The ports a cast leaves by from this package, with the packet each takes: those of its tree, row or column except the one it arrived on, and the
root's uplink for a cast that did not come from there. `core` is the issuer at this package, 255 at a package the cast passes. -/
def Pkg.castPorts (inp core : Nat) (pk : Packet) (k : Pkg) : List (Nat × Packet) :=
  if pk.castKind = 1 then
    ((k.treePorts pk.tree.toNat).filter (· ≠ inp)).map (·, pk) ++ (if k.goesUp core pk then [k.upCopy pk] else [])
  else if pk.castKind = 0 then []
  else (k.linePorts pk.castKind).map (·, pk)
/-- A cast goes out: one copy to each port it takes; its flits leave the input with the last of them (R149). -/
def Pkg.castOut (now core : Nat) (e : Queued) (k : Pkg) : Pkg :=
  ((k.castPorts e.inp core e.pk).foldl (fun k q => k.offer now q.1 { e with pk := q.2 }) k).leave e

/-! ### Delivery -/

/-- A cast is written, or raises its event, at the core named by DST (R169, R170); the status of the delivery: ACCESS_ERROR where it fails
(R176). The stand-in of a dark core counts what it discards (R56). -/
def castWriteHere (now : Nat) (p : PkgId) (pk : Packet) (m : Mem) (k : Pkg) : Mem × Pkg × Byte :=
  let c := epCore pk.dst
  if 48 ≤ bits pk.dst.toNat 0 6 then (m, k, stAccessError)
  else if k.coreDark c then (m, k.count (F.FAB_DISCARD_A_STANDIN (k.crossTile false pk)) 1, stAccessError)
  else if pk.opcode = 0x11 then (m, (k.wakeFor c).emit (.signal c (bits pk.addr.toNat 0 44)), stOK)
  else
    let r := writeResult now p c (bits pk.addr.toNat 0 44) pk.payload m k
    (r.1, r.2.1, if r.2.2 = stOK then stOK else stAccessError)
/-- The result of a unit of this package is written at a core, or waits for the core or its segment, after what waits there already (R48). -/
def writeOrWait (now : Nat) (p : PkgId) (c a : Nat) (data : List Byte) (m : Mem) (k : Pkg) : Mem × Pkg × Byte :=
  if k.mem.writes.any (fun w => w.1 = c) || k.writeWaits c a data.length then
    (m, { k.wakeFor c with mem := { k.mem with writes := k.mem.writes ++ [(c, a, data)] } }, stOK)
  else writeResult now p c a data m k
/-- A cast's delivery to its own sender (R170). -/
def castWriteOwn (now : Nat) (p : PkgId) (pk : Packet) (m : Mem) (k : Pkg) : Mem × Pkg :=
  if pk.opcode = 0x10 ∧ bits pk.dst.toNat 0 6 < 48 ∧ !k.coreDark (epCore pk.dst) then
    let r := writeOrWait now p (epCore pk.dst) (bits pk.addr.toNat 0 44) pk.payload m k
    (r.1, r.2.1)
  else
    let r := castWriteHere now p pk m k
    (r.1, r.2.1)
/-- A failed delivery is acknowledged at once, after what came before it. -/
def Pkg.ackFailed (now : Nat) (key : Nat) (status : Byte) (pk : Packet) (k : Pkg) : Pkg :=
  match k.rxFlow key with
  | none => k
  | some f =>
    let k1 := if 1 < f.unacked then k.sendAck now pk stOK pk.seq f.fgen else k
    (k1.setRx key { f with unacked := 0, firstUnacked := none }).sendAck now pk status (pk.seq + 1) f.fgen
/-- Delivery of a cast in order; one that came up another rack's uplink is cast again on this rack's tree, by this package as its sender (R171). -/
def deliverCast (now : Nat) (p : PkgId) (pk : Packet) (mk : Mem × Pkg) : Mem × Pkg :=
  let k0 := mk.2
  let r := if k0.deliversCast pk then castWriteHere now p pk mk.1 k0 else (mk.1, k0, stOK)
  let k1 := if r.2.2 = stOK then r.2.1 else r.2.1.ackFailed now (flowOf pk) r.2.2 pk
  if k1.foreignCast pk then
    let again : Packet := { k1.newPacket now pk.opcode 2 pk.dst (BitVec.ofNat 24 (k1.addr * 256)) pk.payload with
      castKind := 1, tree := BitVec.ofNat 8 (k1.castTree pk), addr := pk.addr }
    (r.1, k1.enqueue (flowKey k1.addr 2 (k1.castTree pk)) (256 + addrRack (epPkg pk.src)) again)
  else (r.1, k1)
/-- The packet as its flow knows it: what came through a plane port swaps the tree it names here with that of its sender's flow, so that its ACKs name
the latter (R171, R175, log 23). -/
def senderTree (viaPlane : Bool) (pk : Packet) : Packet :=
  if viaPlane ∧ pk.castKind = 1 then { pk with tree := BitVec.ofNat 8 pk.tag.toNat, tag := BitVec.ofNat 16 pk.tree.toNat } else pk
/-- A tree that the turn changes or removes serves only the old epoch's packets (R133). -/
def Pkg.serves (k : Pkg) (pk : Packet) : Bool := treeRec (k.tables pk.epoch) pk.tree.toNat = k.tree pk.tree.toNat
/-- CAST_ARRIVE (R170–R172): forwarded, then received as a flow packet under Table 7.7. -/
def castArrive (now : Nat) (p : PkgId) (q : Nat) (pk : Packet) (m : Mem) (k0 : Pkg) : Mem × Pkg :=
  let viaPlane := k0.isPlane q
  let e := (k0.arrival q pk).1
  let k := (k0.arrival q pk).2
  if pk.cls ≠ 2 then (m, k0)
  else if (k.tables pk.epoch).isEmpty then (m, (k.leave e).drop q .epoch)
  else if pk.castKind = 1 ∧ (!onTree (k.tree pk.tree.toNat) k.idx || !k.serves pk) then (m, (k.leave e).drop q .orphan)
  else
    let k1 := if pk.castKind = 1 ∧ !viaPlane then k.castOut now 255 e else k.leave e
    receivePacket now (deliverCast now p) (senderTree viaPlane pk) m k1
def execCastArrive (p : PkgId) (q : Port) (pk : Packet) (s : State) : Out :=
  onPkgMem p s fun m k => castArrive s.now p q.val pk m k

/-! ### Sending -/

/-- A core sends a cast: it joins its cast flow (R175). -/
def Pkg.castSend (now : Nat) (op : Byte) (c : Nat) (kind : BitVec 2) (t : Nat) (dst : Byte) (addr : BitVec 44)
    (data : List Byte) (k0 : Pkg) : Pkg :=
  let k := k0.issues c
  if kind = 0 ∨ k0.coreDark c then k0
  else match k.castRefusal kind t data.length with
  | some st => k.emit (.completion c 0 st [])
  | none =>
    let pk : Packet := { k.newPacket now op 2 (dst.zeroExtend 24) (endpoint k.addr c) data with
      castKind := kind, tree := if kind = 1 then BitVec.ofNat 8 t else 0, addr := addr.zeroExtend 64 }
    k.enqueue (flowKey k.addr 2 (if kind = 1 then t else if kind = 2 then 64 else 65)) c pk
/-- CAST_WRITE. -/
def execCastWrite (p : PkgId) (c : Core) (kind : BitVec 2) (tree : Fin 64) (dst : Byte) (addr : BitVec 44) (data : List Byte)
    (s : State) : Out :=
  onPkg p s fun k => k.castSend s.now 0x10 c.val kind tree.val dst addr data
/-- CAST_SIGNAL: LEN is 0. -/
def execCastSignal (p : PkgId) (c : Core) (kind : BitVec 2) (tree : Fin 64) (dst : Byte) (addr : BitVec 44) (s : State) : Out :=
  onPkg p s fun k => k.castSend s.now 0x11 c.val kind tree.val dst addr []
/-- Put a flow packet on its way: a unicast to the router, a cast to its ports. -/
def Pkg.launch (now core : Nat) (pk : Packet) (k : Pkg) : Pkg :=
  if pk.cls = 2 then
    let x := k.arrival (24 + k.tileOf (flowOf pk)) (withVc pk)
    x.2.castOut now core x.1
  else k.emit (.packet pk)
/-- The key of the flow that a command names: class 2 by its tree, or 64 and 65 for row and column casts. -/
def Pkg.namedFlow (k : Pkg) (dst cls tree : Nat) : Nat :=
  if cls = 2 then flowKey k.addr 2 (tree % 128) else flowKey dst cls 0
/-- Casts of a flow that await no member complete (R176). -/
def Pkg.completeUnawaited (key : Nat) (k : Pkg) : Pkg :=
  let f := k.txFlow key
  let idle (o : TxOut) : Bool := decide (o.pk.cls = 2) && o.await.isEmpty
  (f.out.filter idle).foldl (fun k o => k.complete o o.pk.status []) (k.setTx key { f with out := f.out.filter (fun o => !idle o) })
/-- FLOW_SEND: the oldest waiting packet of a flow is sent if it passes its source's checks and its window allows it; a cast of a core is also
delivered to its own sender (R156, R159, R170). -/
def execFlowSend (p : PkgId) (dst : BitVec 16) (cls : BitVec 3) (s : State) : Out :=
  onPkgMem p s fun m k =>
    let key := k.namedFlow dst.toNat cls.toNat dst.toNat
    match k.flowRefuse key with
    | some k1 => (m, k1)
    | none =>
      match k.flowTake s.now key with
      | none => (m, k)
      | some (pk, core, k1) =>
        let k2 := (k1.launch s.now core pk).completeUnawaited key
        if pk.cls = 2 ∧ pk.castKind = 1 ∧ k2.deliversCast pk ∧ core < 192 then castWriteOwn s.now p pk m k2 else (m, k2)
/-- RETX_TIME_EXPIRY: a packet still outstanding RETX_TIME after its last send is resent with a new BIRTH and the current STAMP;
with its RETX_LIMIT-th resend the flow is reset (R163, log 73). -/
def Pkg.resendDue (now : Nat) (key : Nat) (seq : Word) (k : Pkg) : Pkg :=
  let f := k.txFlow key
  match f.out.find? (fun o => o.pk.seq = seq) with
  | none => k
  | some o =>
    if now < o.sentAt + 1000000 * k.get (F.FAB_LINK_CFG_RETX_TIME 0) then k
    else
      let pk := { k.stamped o.core o.pk with birth := k.birth now, newflow := !f.acked }
      let o1 := { o with pk := pk, sentAt := now, resends := o.resends + 1 }
      let k1 := ((k.setTx key { f with out := f.out.map (fun x => if x.pk.seq = seq then o1 else x) }).count
        (F.FAB_FLOW_EVENTS_RETRANSMITS (k.tileOf key)) 1).launch now o.core { pk with status := 0 }
      if k.get (F.FAB_LINK_CFG_RETX_LIMIT 0) ≤ o.resends + 1 then k1.resetFlow key (k.tileOf key) stPathDown else k1
def execRetxTimeExpiry (p : PkgId) (dst : BitVec 16) (cls : BitVec 3) (tree : Byte) (seq : Word) (s : State) : Out :=
  onPkg p s fun k => k.resendDue s.now (k.namedFlow dst.toNat cls.toNat tree.toNat) seq

/-! ### What waited for a placement or a wake goes on (R48, Table 3.4) -/

/-- Results of units that waited are written, as long as none must wait still. -/
def retryWrites (now : Nat) (p : PkgId) (m : Mem) (k : Pkg) : Mem × Pkg :=
  k.mem.writes.foldl (fun (mk : Mem × Pkg) w =>
    let r := writeOrWait now p w.1 w.2.1 w.2.2 mk.1 mk.2
    (r.1, r.2.1)) (m, { k with mem := { k.mem with writes := [] } })
/-- Accesses, casts, rounds and results that waited go on. -/
def goOn (now : Nat) (p : PkgId) (m : Mem) (k : Pkg) : Mem × Pkg :=
  let r1 := retryAccesses now p m k
  let r2 := resumeFlows now (deliverCast now p) 2 r1
  let r3 := retryWrites now p r2.1 r2.2
  tallySettle now p r3.1 r3.2
/-- PLACEMENT_END: the outcome shows and what waited goes on. While a lender has not answered it changes nothing before the
50 µs bound of R48, and counts the lender as refusing after it (log 20). -/
def execPlacementEnd (p : PkgId) (c : Core) (n : Fin 64) (s : State) : Out :=
  onPkgMem p s fun m k =>
    let finish (k : Pkg) : Mem × Pkg :=
      match k.mem.placing.find? (fun x => x.core = c.val && x.entry = n.val && x.waitTag.isNone) with
      | some x => goOn s.now p (match x.store with | some st => eraseStorage p x.core k.spillBase st m | none => m) (k.showPlaced x)
      | none => (m, k)
    match k.mem.placing.find? (fun x => x.core = c.val && x.entry = n.val) with
    | none => (m, k)
    | some x =>
      if x.waitTag.isNone then finish k
      else if s.now < x.at_ + 50000 then (m, k)
      else finish (k.continuePlace s.now (s.upIn p.rack) x)

/-! ### Congestion reports and weights (R186–R190) -/

/-- The payload of a MAP_REPORT: NOW and PEAK of the 24 ports, a byte each (log 74). -/
def Pkg.mapLevels (k : Pkg) : List Byte :=
  (List.range 24).flatMap fun q => [BitVec.ofNat 8 (k.port q).now, BitVec.ofNat 8 (k.port q).peakReport]
/-- The fleet time in ns at which the MAP_REPORT of a millisecond is due. -/
def Pkg.mapDue (k : Pkg) (ms : Nat) : Nat := 1000000 * ms + 8000 * k.idx
/-- The latest millisecond whose MAP_REPORT is due, counted from 1. -/
def Pkg.mapRound (now : Nat) (k : Pkg) : Nat := if k.time now < k.mapDue 0 then 0 else (k.time now - k.mapDue 0) / 1000000 + 1
/-- MAP_REPORT (R187): once per millisecond of fleet time, a class 4 packet of opcode 0x28 leaves by the first link to the map agent's plane;
reporting resets the reported PEAK. -/
def Pkg.mapReport (now plane : Nat) (k : Pkg) : Pkg :=
  let pk := k.mgmt now 0x28 (merAddr k.rackNo plane) k.mapLevels
  let x := k.arrival (24 + 1) pk
  let k1 := (List.range 24).foldl (fun k q => k.setPort q { k.port q with peakReport := 0 }) (x.2.offer now (20 + plane) x.1)
  { k1 with fab := { k1.fab with reported := k.mapRound now } }
/-- The map agent: the Meridian tray in the lowest-numbered slot whose tray is occupied (R187), known by its running controller; plane 0 else. -/
def State.mapAgent (s : State) (rack : Fin 32) : Nat :=
  ((List.finRange 4).find? fun p => (s.tray ⟨rack, ⟨24 + p.val, by omega⟩⟩).running).elim 0 Fin.val
def execMapReport (p : PkgId) (s : State) : Out :=
  onPkg p s fun k =>
    if k.pkgDark ∨ k.mapRound s.now ≤ k.fab.reported then k else k.mapReport s.now (s.mapAgent p.rack)
/-- Kind, index and value of a weight entry. -/
def weightKind (w : Word) : Nat := bits w.toNat 0 8
def weightIndex (w : Word) : Nat := bits w.toNat 8 8
def weightOk (w : Word) : Bool := (weightKind w = 0 && weightIndex w < 96) || (weightKind w = 1 && weightIndex w < 4)
def Pkg.applyWeight (k : Pkg) (w : Word) : Pkg :=
  if weightKind w = 0 then k.setRg (R.FAB_WEIGHT 0 (weightIndex w)) (BitVec.ofNat 32 (bits w.toNat 16 10))
  else k.setRg (R.FAB_PLANE_SPREAD 0 (weightIndex w)) (BitVec.ofNat 32 (bits w.toNat 16 8))
/-- WEIGHT_WRITE: every entry together, or the whole packet is discarded (R188). -/
def execWeightWrite (p : PkgId) (entries : List Word) (s : State) : Out :=
  onPkg p s fun k =>
    if entries.all weightOk then
      let k1 := (entries.foldl Pkg.applyWeight k).flag (F.FAB_WEIGHT_STATUS_STALE 0) false
      { k1 with fab := { k1.fab with weightAt := s.now } }
    else k.count (F.FAB_DISCARD_B_BAD_HEADER 0) 1
/-- WEIGHT_HOLD_EXPIRY (R190). -/
def execWeightHoldExpiry (p : PkgId) (s : State) : Out :=
  onPkg p s fun k =>
    if s.now < k.fab.weightAt + 1000000 * k.get (F.FAB_TREE_CFG_WEIGHT_HOLD 0) then k
    else
      let k1 := (List.range 96).foldl (fun k d => k.put (F.FAB_WEIGHT_MIS_SHARE 0 d) 0) k
      let k2 := (List.range 4).foldl (fun k q => k.put (F.FAB_PLANE_SPREAD_SECOND 0 q) 128) k1
      k2.flag (F.FAB_WEIGHT_STATUS_STALE 0) true

end Sys2Proof.Machine
end

