-- ==== Sys2Proof/Machine/Aon.lean ====
section
/-! DEFINITION. The always-on domain: clock sources (R64, R65), fleet time (R67–R70), sleep (R72–R76), waking (R78) and pre-wake
slots (R81–R83). -/

namespace Sys2Proof.Machine
open Sys2Proof

/-! ### Clock sources -/

def Pkg.srcOk (k : Pkg) (b : Bool) : Bool :=
  (if b then k.get F.AON_CLK_STATUS_B_OK else k.get F.AON_CLK_STATUS_A_OK) = 1
def Pkg.setSrc (b present : Bool) (k : Pkg) : Pkg :=
  k.flag (if b then F.AON_CLK_STATUS_B_OK else F.AON_CLK_STATUS_A_OK) present
def Pkg.srcActive (k : Pkg) : Bool := k.get F.AON_CLK_STATUS_ACTIVE = 1
def Pkg.holdover (k : Pkg) : Bool := k.get F.AON_CLK_STATUS_HOLDOVER = 1
/-- A switch is counted and reported as a CE event (R64). -/
def Pkg.switchTo (now : Nat) (b : Bool) (k : Pkg) : Pkg :=
  ((k.flag F.AON_CLK_STATUS_ACTIVE b).count F.AON_CLK_STATUS_SWITCHES 1).raise now (det 254 0) 0 0
/-- The source that R64 selects: the preferred one while it is present, else the other. -/
def Pkg.selectSource (now : Nat) (k : Pkg) : Pkg :=
  let prefer := k.get F.AON_CLK_CTRL_PREFER = 1
  let want := if k.srcOk prefer then prefer else !prefer
  if k.holdover || !k.srcOk want || k.srcActive = want then k else k.switchTo now want
/-- CLOCK_SOURCE_LOST: a switch to the other source, or HOLDOVER when both are lost. -/
def execClockSourceLost (p : PkgId) (srcB : Bool) (s : State) : Out :=
  onPkg p s fun k =>
    let k1 := k.setSrc srcB false
    if k.holdover ∨ k.srcActive ≠ srcB then k1
    else if k1.srcOk (!srcB) then k1.switchTo s.now (!srcB)
    else (k1.flag F.AON_CLK_STATUS_HOLDOVER true).raise s.now (det 255 0) 0 0
/-- FORCE switches to the other source if it is present. The forced source stays in use, though the preferred one is present, until a write of
AON_CLK_CTRL without FORCE or a source's return selects again; a write with FORCE acts on FORCE alone even if it changes PREFER (DESIGN
CHOICE, log 76). -/
def Pkg.forceClock (now : Nat) (k : Pkg) : Pkg :=
  if k.holdover || !k.srcOk (!k.srcActive) then k else k.switchTo now (!k.srcActive)
/-- SOURCE_RETURN: a source present for 1 ms ends HOLDOVER, and is taken if it is the preferred one. -/
def execSourceReturn (p : PkgId) (srcB : Bool) (s : State) : Out :=
  onPkg p s fun k =>
    let k1 := k.setSrc srcB true
    if k.holdover then ((k1.flag F.AON_CLK_STATUS_HOLDOVER false).flag F.AON_CLK_STATUS_ACTIVE srcB).conditionEnd s.now
    else k1.selectSource s.now

/-! ### Fleet time -/

def Pkg.loaded (k : Pkg) : Bool := k.get F.AON_TIME_STATUS_LOADED = 1
/-- The strobe takes the loaded value: the first load steps the time; a later one gives the coarse offset (R67). -/
def Pkg.strobe (now : Nat) (k : Pkg) : Pkg :=
  let load : Int := k.wide R.AON_TIME_LOAD_LO
  if k.loaded then k.setAon fun a => { a with coarse := load - k.time now }
  else (k.setAon fun a => { a with timeOff := load - now, slewBy := 0, slewAt := now }).flag F.AON_TIME_STATUS_LOADED true
/-- TIME_STROBE: what the tray controller loaded is also its own time, a PTP slave's (R66, log 63). -/
def execTimeStrobe (p : PkgId) (s : State) : Out :=
  let k := s.pkg p
  .next ((s.setPkg p (k.strobe s.now)).setRack p.rack
    { s.rack p.rack with timeOff := (k.wide R.AON_TIME_LOAD_LO : Int) - s.now })
/-- A signed value saturated to 16 bits. -/
def sat16 (x : Int) : Nat := ((max (-32768) (min 32767 x)) % 65536).toNat
/-- The mean of the offsets of the exchange, in whole ns towards zero (log 25). -/
def meanOf (l : List Int) : Int := (l.foldl (· + ·) 0).tdiv l.length
/-- TIME_EXCHANGE: the slew of R68, at most 100 ns in the next ms; a moored package runs no exchange (R70). Without an in-service row or
column link n is taken as 0, OFFSET stays, and the consecutive exchanges of R69 are neither counted nor broken (DESIGN CHOICE, log 75). -/
def execTimeExchange (p : PkgId) (diffs : List Int) (s : State) : Out :=
  onPkg p s fun k =>
    if k.moored then k
    else
      let n := if diffs = [] then 0 else meanOf diffs
      let adjust := max (-100) (min 100 (n + k.aon.coarse.tdiv 64))
      let good := if diffs = [] then k.aon.goodExchanges else if n.natAbs ≤ 20 then k.aon.goodExchanges + 1 else 0
      let k1 := k.setAon fun a => { a with
        timeOff := a.timeOff + a.slewed s.now, slewAt := s.now, slewBy := adjust, goodExchanges := good }
      let k2 := if diffs = [] then k1 else k1.put F.AON_TIME_STATUS_OFFSET (sat16 n)
      if 100 ≤ good then k2.flag F.AON_TIME_STATUS_REFINED true else k2

/-! ### Sleep (Table 3.3) -/

def Pkg.holdAwake (k : Pkg) (c : Nat) : Bool := k.get (F.CORE_PSTATE_HOLD_AWAKE c) = 1
/-- A started pre-wake slot that still lingers names the core, or any core (R82). -/
def Pkg.lingers (k : Pkg) (c : Nat) : Bool := k.aon.slots.any (fun x => x.started && x.core = c)
/-- A core has been in Idle, or in Nap, for so many ns. -/
def Pkg.idleFor (now : Nat) (k : Pkg) (c ns : Nat) : Bool := sget 0 k.aon.idleAt c + ns ≤ now
/-- Enter Idle, or Nap, with the time from which the next entry counts (R72). -/
def Pkg.toIdle (now c : Nat) (k : Pkg) : Pkg := (k.setPstate c 1).setAon fun a => { a with idleAt := sinsert a.idleAt c now }
/-- Enter Nap: the core logic is switched off. -/
def Pkg.toNap (now c : Nat) (k : Pkg) : Pkg := ((k.toIdle now c).setPstate c 2).setDomain false (k.phys c)
/-- Whether the core's store keeps it from Doze: a clasp in it (R55), a pre-wake that lingers (R82), or a scan of it (R85). -/
def Pkg.dozeBarred (k : Pkg) (c : Nat) : Bool :=
  k.mem.clasps.any (fun x => x.store = c) || k.lingers c || k.scans (fun x => x.space = 5 && x.core = c)
/-- Tier-0 segments of some cores are lost with their stores' contents (R73). -/
def loseStores (p : PkgId) (cs : Nat → Bool) (m : Mem) (k : Pkg) : Mem × Pkg :=
  (((List.range 192).filter cs).foldl (fun m c => memErase m (memKey p 2 (storeOff c 0)) storeBytes) m,
   k.loseSegs (fun key st => st.tier = 0 && cs (key / 64)))
def Pkg.saves (k : Pkg) : Bool := k.get F.AON_PDOM_POLICY_SAVE = 1
/-- A core's save area in local HBM, and the S-tile's after those of the 192 cores (R74, log 77). -/
def coreSave (c : Nat) : Nat := hbmBytes - saveArea + storeBytes * c
def stileSave : Nat := coreSave 192
/-- A core store is copied to its save area, and its own contents go (R73). -/
def saveStore (p : PkgId) (c : Nat) (m : Mem) (k : Pkg) : Mem × Pkg :=
  (memErase (memCopy m (memKey p 2 (storeOff c 0)) (memKey p 0 (coreSave c)) storeBytes) (memKey p 2 (storeOff c 0)) storeBytes,
   k.setAon fun a => { a with saved := a.saved ++ [c] })
/-- A saved store is reloaded (R73). -/
def reloadStore (p : PkgId) (c : Nat) (m : Mem) (k : Pkg) : Mem × Pkg :=
  if k.aon.saved.contains c then
    (memCopy m (memKey p 0 (coreSave c)) (memKey p 2 (storeOff c 0)) storeBytes, k.setAon fun a => { a with saved := a.saved.filter (· ≠ c) })
  else (m, k)
/-- Enter Doze (R73). -/
def toDoze (p : PkgId) (c : Nat) (m : Mem) (k : Pkg) : Mem × Pkg :=
  let k1 := (k.setPstate c 3).setDomains false [k.phys c, 192 + k.phys c]
  if k.saves then saveStore p c m k1 else loseStores p (fun x => x == c) m k1
/-- A core that may be put to sleep: neither dark, held awake, waking nor halted (R361). -/
def Pkg.maySleep (k : Pkg) (c : Nat) : Bool := !k.coreDark c && !k.holdAwake c && !k.aon.waking.contains c && !k.coreHalted c
/-- IDLE_ENTRY. -/
def execIdleEntry (p : PkgId) (c : Core) (s : State) : Out :=
  onPkg p s fun k => if k.coreDark c.val ∨ k.pstate c.val ≠ 0 then k else k.toIdle s.now c.val
/-- NAP_ENTRY: Idle for NAP_AFTER, in µs. -/
def execNapEntry (p : PkgId) (c : Core) (s : State) : Out :=
  onPkg p s fun k =>
    let after := k.get F.AON_PDOM_POLICY_NAP_AFTER
    if k.maySleep c.val ∧ k.pstate c.val = 1 ∧ after ≠ 0 ∧ k.idleFor s.now c.val (1000 * after) then k.toNap s.now c.val else k
/-- DOZE_ENTRY: Nap for DOZE_AFTER, in steps of 100 µs. -/
def execDozeEntry (p : PkgId) (c : Core) (s : State) : Out :=
  onPkgMem p s fun m k =>
    let after := k.get F.AON_PDOM_POLICY_DOZE_AFTER
    if k.maySleep c.val ∧ k.pstate c.val = 2 ∧ after ≠ 0 ∧ k.idleFor s.now c.val (100000 * after) ∧ !k.dozeBarred c.val then
      toDoze p c.val m k
    else (m, k)
/-- The ENTER request of CORE_PSTATE: 1 Nap, 2 Doze, 3 wake to Run; one for a forbidden state is ignored (R72). The wake of a core of a moored
package brings up its infrastructure with it, as work for a core does, and records no cause (DESIGN CHOICE, log 78). -/
def enterState (now : Nat) (p : PkgId) (c enter : Nat) (m : Mem) (k : Pkg) : Mem × Pkg :=
  if enter = 1 then (m, if k.maySleep c ∧ k.pstate c < 2 then k.toNap now c else k)
  else if enter = 2 then (if k.maySleep c ∧ k.pstate c < 3 ∧ !k.dozeBarred c then toDoze p c m k else (m, k))
  else if enter = 3 then
    (m, if k.coreDark c then k else if k.pstate c = 1 then k.issues c else (if k.moored then k.wakeInfra else k).wakeCore c)
  else (m, k)
/-- The core is asleep in Nap or deeper, or dark (CORE_PSTATE numbers dark deepest). -/
def Pkg.asleep (k : Pkg) (c : Nat) : Bool := (2 ≤ k.pstate c && !k.aon.waking.contains c) || k.coreDark c
/-- The conditions that must hold for FURL_AFTER: every core of the C-tile asleep, and its engine idle (Table 3.3). -/
def Pkg.tileIdle (k : Pkg) (t : Nat) : Bool :=
  (k.tileSlots t).all k.asleep && (sget ({} : BrgSt) k.brg t).running.isNone && (sget ({} : BrgSt) k.brg t).queue.isEmpty
/-- What keeps a C-tile from furling: a clasp in its stores or of its cores (R75), its own unit, or a scan of one of its stores (R85). -/
def Pkg.furlBarred (k : Pkg) (t : Nat) : Bool :=
  let mine (c : Nat) : Bool := k.phys c / 48 = t
  k.mem.clasps.any (fun x => mine x.store || mine x.holder) || k.csuBusy (6 + t) || k.scans (fun x => x.space = 5 && mine x.core)
/-- Conditions numbered as in `heldFrom` have held together for so many ns. -/
def Pkg.heldFor (now : Nat) (k : Pkg) (i ns : Nat) : Bool := (sfind k.aon.heldFrom i).any (fun t => t + ns ≤ now)
/-- The S-tile furls once every C-tile is furled, unless a unit scans it (R75, R85). -/
def Pkg.furlStile (k : Pkg) : Pkg :=
  if k.get F.AON_PKG_STATE_C_FURLED = 15 && !k.scans (fun x => x.space = 1) then k.put F.AON_PKG_STATE_S_FURLED 1 else k
/-- FURL_ENTRY: a C-tile furls after FURL_AFTER, in steps of 100 µs, and the S-tile with the last one, or on its own where it alone woke (R75). -/
def execFurlEntry (p : PkgId) (t : Tile) (s : State) : Out :=
  onPkg p s fun k =>
    let after := k.get F.AON_PDOM_POLICY_FURL_AFTER
    if after = 0 ∨ !k.tileIdle t.val ∨ !k.heldFor s.now t.val (100000 * after) ∨ k.furlBarred t.val then k
    else if k.cFurled t.val then k.furlStile
    else ((k.orBits F.AON_PKG_STATE_C_FURLED (2 ^ t.val)).setDomains false [384 + t.val, 388 + t.val]).furlStile

/-! ### Mooring (R76) -/

/-- A pre-wake slot falls due within 2 ms, or still lingers. -/
def Pkg.prewakeNear (now : Nat) (k : Pkg) : Bool := k.aon.slots.any (fun x => x.started || x.t ≤ k.time now + 2000000)
/-- A link is idle: nothing waits for it and nothing it sent is unacknowledged. -/
def PortSt.quiet (x : PortSt) : Bool := x.outQ = [] && x.replay = []
/-- The conditions for mooring that the state shows; that the PCIe port is in L1 comes with the command (log 26). With SAVE 0 a placed tier-1
segment refuses it. -/
def Pkg.moorable (now : Nat) (k : Pkg) : Bool :=
  k.get F.AON_PKG_STATE_C_FURLED = 15 && k.sFurled && k.usedGib = 0 && (List.range 24).all (fun q => (k.port q).quiet) &&
    !(List.range 10).any k.csuBusy && !k.prewakeNear now && !k.turning && k.flt.pend.isEmpty && (k.saves || !k.mem.segs.any (fun e => e.2.tier = 1))
/-- Mooring may begin: its conditions have held together for MOOR_AFTER, in ms. -/
def Pkg.mayMoor (now : Nat) (k : Pkg) : Bool :=
  !k.moored && !k.mooring && k.get F.AON_PDOM_POLICY_MOOR_AFTER ≠ 0 && k.moorable now &&
    k.heldFor now 4 (1000000 * k.get F.AON_PDOM_POLICY_MOOR_AFTER)
/-- Step 1 of the entry: moor notices, and each link parked. -/
def Pkg.beginMoor (k : Pkg) : Pkg :=
  (k.activePorts.foldl (fun k q => k.setPort q { k.port q with state := .parked }) (k.noticeAll 1)).put F.AON_PKG_STATE_PKG 1
/-- The stores still held by cores in Nap are saved under R73, or lost with SAVE 0. R77 says that Moor loses no segment and R73 loses those of a
dozing core: the core is taken into Doze (DESIGN CHOICE, log 79). -/
def moorStores (p : PkgId) (m : Mem) (k : Pkg) : Mem × Pkg :=
  ((List.range 192).filter (fun c => k.pstate c = 2 && !k.coreDark c)).foldl (fun mk c => toDoze p c mk.1 mk.2) (m, k)
/-- Placed tier-1 segments are written to the S-tile's save area. They are restored as soon as the S-tile is powered, before anything can read
them, so their bytes stay listed; the rest of the S-tile's contents goes. -/
def moorStile (p : PkgId) (m : Mem) (k : Pkg) : Mem :=
  let segs := (k.mem.segs.filter (fun e => e.2.tier = 1)).map (·.2)
  let m1 := segs.foldl (fun m st => memCopy m (memKey p 1 st.off) (memKey p 0 (stileSave + st.off)) (4096 * st.pages)) m
  let base := memKey p 1 0
  m1.filter fun e => !(base ≤ e.1 && e.1 < base + 2 ^ 28) || segs.any (fun st => base + st.off ≤ e.1 && e.1 < base + st.off + 4096 * st.pages)
/-- Steps 2 to 4 of the entry: contents saved, HBM in self-refresh, and every domain off. -/
def endMoor (p : PkgId) (m : Mem) (k : Pkg) : Mem × Pkg :=
  let r := moorStores p (moorStile p m k) k
  (r.1, ((r.2.setDomains false allDomains).put F.AON_PKG_STATE_PKG 2).setAon fun a => { a with pcieL1 := true })
/-- MOOR_ENTRY begins an entry; given again while PKG reads 1, it ends the entry. An entry that a wake, or a condition that no longer holds, has
interrupted is undone (log 80). -/
def execMoorEntry (p : PkgId) (s : State) : Out :=
  onPkgMem p s fun m k =>
    if k.mooring then (if k.moorable s.now then endMoor p m k else (m, k.leaveMoor 0))
    else (m, if k.mayMoor s.now then k.beginMoor else k)

/-! ### Time passing -/

/-- Whether the conditions of Furl for a C-tile, or of Moor under 4, hold. -/
def Pkg.holds (now : Nat) (k : Pkg) (i : Nat) : Bool := if i < 4 then k.tileIdle i else k.moorable now
/-- As time passes from `now`, each set of conditions goes on holding, begins to hold, or does not hold. -/
def Pkg.observe (now : Nat) (k : Pkg) : Pkg :=
  k.setAon fun a => { a with heldFrom := (List.range 5).foldl (fun m i =>
    if !k.holds now i then serase m i else if (sfind m i).isSome then m else sinsert m i now) a.heldFrom }
/-- One always-on cycle of 40 ns passes (R63, log 2). -/
def State.tick (s : State) : State :=
  { s with now := s.now + 40, pkgs := s.pkgs.foldl (fun m e => sset {} m e.1 (e.2.observe s.now)) s.pkgs }

/-! ### Waking (Table 3.4) -/

/-- The package is awake once part of it serves again. -/
def Pkg.awake (k : Pkg) : Pkg := if k.get F.AON_PKG_STATE_PKG = 3 then k.put F.AON_PKG_STATE_PKG 0 else k
def Pkg.wakeCores (cs : List Nat) (k : Pkg) : Pkg := cs.foldl (fun k c => if k.coreDark c then k else k.wakeCore c) k
/-- WAKE_PATTERN: the infrastructure, the link, and the core addressed by the first held packet. -/
def execWakePattern (p : PkgId) (q : Port) (c : Option Core) (s : State) : Out :=
  onPkg p s fun k =>
    if (k.port q.val).state ≠ .parked then k
    else (k.wakeInfra.wakeCauseLink q.val).wakeCores (c.toList.map (·.val))
/-- LINK_RESUME: a parked link resumes, and held traffic goes on (R77). -/
def execLinkResume (l : LinkId) (s : State) : Out :=
  match l.router with
  | .pkg p => onPkgMem p s fun m k =>
      tallySettle s.now p m (if (k.port l.port.val).state = .parked then
        (k.portDo s.now l.port.val PortSt.resume).awake else k)
  | .meridian _ _ => onRouter l.router s fun m => m.linkStep l.port.val (m.port l.port.val).resume
/-- WAKE_COMPLETE: the core is in Run, its store reloaded, and what waited for it goes on. -/
def execWakeComplete (p : PkgId) (c : Core) (s : State) : Out :=
  onPkgMem p s fun m k =>
    if k.aon.waking.contains c.val then
      let r := reloadStore p c.val m k
      goOn s.now p r.1 ((((r.2.setPstate c.val 0).setAon fun a => { a with waking := a.waking.erase c.val, idleAt := serase a.idleAt c.val }).awake
        ).haltIfWanted s.now c.val)
    else (m, k)
/-- PCIE_L1_EXIT: the PCIe PHY and the H-tile fast domain wake; a moored package leaves Moor, which requires L1. -/
def execPcieL1Exit (p : PkgId) (s : State) : Out :=
  onPkg p s fun k => (((k.setAon fun a => { a with pcieL1 := false }).wakeDomains [411, 410]).wakeCause 2).stir
/-- WAKE: the tray controller wakes the infrastructure and the named cores. -/
def execWake (p : PkgId) (cores : List Core) (s : State) : Out :=
  onPkg p s fun k => (k.wakeInfra.wakeCause 3).wakeCores (cores.map (·.val))

/-! ### Pre-wake slots (R81–R83) -/

/-- The wake of a slot starts: the infrastructure, and the named core in Nap with its store reloaded. -/
def startSlot (now : Nat) (p : PkgId) (i : Nat) (x : Prewake) (m : Mem) (k : Pkg) : Mem × Pkg :=
  let k1 := (k.wakeInfra.wakeCause 4).setAon fun a => { a with slots := a.slots.set i { x with started := true } }
  if x.core < 192 ∧ !k.coreDark x.core ∧ 2 ≤ k.pstate x.core ∧ !k.aon.waking.contains x.core then
    let q := k.phys x.core
    let k2 := if k.pstate x.core = 3 then (k1.toIdle now x.core).setPstate x.core 2 else k1
    reloadStore p x.core m (k2.power [192 + q, 384 + q / 48])
  else (m, k1)
/-- Arm a slot; with T less than 2 ms away its wake starts at once. -/
def armSlot (now : Nat) (p : PkgId) (x : Prewake) (m : Mem) (k : Pkg) : Mem × Pkg :=
  let n := k.aon.slots.length
  if 8 ≤ n then (m, k.flag F.AON_PREWAKE_CTRL_FULL true)
  else
    let k1 := k.setAon fun a => { a with slots := a.slots ++ [x] }
    if x.t < k.time now + 2000000 then startSlot now p n x m (k1.flag F.AON_PKG_STATE_PREWAKE_DUE true) else (m, k1)
/-- Free the slots that meet a condition. What the wake of a slot has powered stays powered when the slot is freed before T: R83 speaks of slots
whose wake has not started (DESIGN CHOICE, log 81). -/
def Pkg.freeSlots (now : Nat) (p : Prewake → Bool) (k : Pkg) : Pkg :=
  let k1 := k.setAon fun a => { a with slots := a.slots.filter (fun x => !p x) }
  if k1.prewakeNear now then k1 else k1.flag F.AON_PKG_STATE_PREWAKE_DUE false
/-- The ARM and CANCEL bits of a write of AON_PREWAKE_CTRL; both together are ignored (R83). -/
def prewakeCtrl (now : Nat) (p : PkgId) (armB cancelB : Bool) (m : Mem) (k : Pkg) : Mem × Pkg :=
  let t := k.wide R.AON_PREWAKE_AT_LO
  let c := k.get F.AON_PREWAKE_CTRL_CORE
  if armB && cancelB then (m, k)
  else if armB then armSlot now p ⟨t, c, 1000000 * k.get F.AON_PREWAKE_CTRL_LINGER, false⟩ m k
  else (m, if cancelB then k.freeSlots now (fun x => x.t = t && x.core = c) else k)
/-- PREWAKE_START, at T − 1.35 ms. -/
def execPrewakeStart (p : PkgId) (slot : Fin 8) (s : State) : Out :=
  onPkgMem p s fun m k =>
    match k.aon.slots[slot.val]? with
    | some x => if !x.started ∧ x.t ≤ k.time s.now + 1350000 then startSlot s.now p slot.val x m k else (m, k)
    | none => (m, k)
/-- PREWAKE_FREE, at T plus the linger time. -/
def execPrewakeFree (p : PkgId) (slot : Fin 8) (s : State) : Out :=
  onPkg p s fun k =>
    match k.aon.slots[slot.val]? with
    | some x => if x.t + x.linger ≤ k.time s.now then
        let k1 := k.setAon fun a => { a with slots := a.slots.eraseIdx slot.val }
        if k1.prewakeNear s.now then k1 else k1.flag F.AON_PKG_STATE_PREWAKE_DUE false
      else k
    | none => k
/-- PREWAKE_DUE: 2 ms before an armed slot's T. -/
def execPrewakeDue (p : PkgId) (s : State) : Out :=
  onPkg p s fun k => if k.prewakeNear s.now then k.flag F.AON_PKG_STATE_PREWAKE_DUE true else k

end Sys2Proof.Machine
end

