-- ==== Sys2Proof/Machine/Csu.lean ====
section
/-! DEFINITION. The check-value units (R84–R96): starting, scanning, streaming and ending a job. -/

namespace Sys2Proof.Machine
open Sys2Proof

def Pkg.csuJob (k : Pkg) (u : Nat) : CsuJob := sget {} k.csu u
def Pkg.setCsu (u : Nat) (j : CsuJob) (k : Pkg) : Pkg := { k with csu := sset {} k.csu u j }
/-- ALG of a unit: CRC-64 or CRC-32C. -/
def Pkg.csu64 (k : Pkg) (u : Nat) : Bool := k.get (F.CSU_CTRL_ALG u) = 1
def crcInit (is64 : Bool) : BitVec 64 := if is64 then 0 else 0xFFFFFFFF
def crcAbsorb (is64 : Bool) (c : BitVec 64) (l : List Byte) : BitVec 64 :=
  BitVec.ofNat 64 (l.foldl (if is64 then crc64Byte else crc32cByte) c.toNat)
/-- The CRC after reflection and the final XOR (R86). -/
def crcFinal (is64 : Bool) (c : BitVec 64) : Nat := if is64 then c.toNat else c.toNat ^^^ 0xFFFFFFFF
/-- The PKC's bank of the module flash that it did not boot from: the staging area, empty in lifeboat (R344). -/
def Pkg.staging (k : Pkg) : List Byte :=
  if k.get F.UPD_STATUS_LIFEBOAT = 1 then [] else if k.get F.UPD_STATUS_ACTIVE_BANK = 0 then k.upd.bank1 else k.upd.bank0
def stagingBytes : Nat := 15 * 2 ^ 20
/-- The size of a scan space (Table 4.3). -/
def Pkg.spaceSize (k : Pkg) (space c : Nat) : Nat :=
  match space with
  | 0 => hbmBytes
  | 1 => 2 ^ 28
  | 2 => k.chart.active.length
  | 3 => k.chart.shadow.length
  | 4 => if k.get F.UPD_STATUS_LIFEBOAT = 1 then 0 else stagingBytes
  | 5 => if k.pstate c = 3 || k.coreDark c then 0 else storeBytes
  | 6 => 4096 * k.get F.PKC_HOST_SPILL_LEN_PAGES
  | _ => 0
/-- The bytes of a range of a scan space; flash that nothing has staged reads as free values (log 5). -/
def scanBytes (p : PkgId) (k : Pkg) (m : Mem) (space c off len : Nat) : List Byte :=
  match space with
  | 2 => slice k.chart.active off len
  | 3 => slice k.chart.shadow off len
  | 4 => (List.range len).map fun i => k.staging.getD (off + i) (Config.freeByte (memKey p 3 (2 ^ 63 + off + i)))
  | 5 => memRead m (memKey p 2 (storeOff c off)) len
  | 6 => memRead m (memKey p 3 (k.wide R.PKC_HOST_SPILL_BASE_LO + off)) len
  | s => memRead m (memKey p s off) len
/-- Why a START ends at once: BAD_SETUP (2), whatever the mode (log 27), or RANGE (1) for a scan (R87). -/
def Pkg.startRefusal (k : Pkg) (u : Nat) : Option Nat :=
  let mode := k.get (F.CSU_CTRL_MODE u)
  let space := k.get (F.CSU_CTRL_SPACE u)
  let c := k.get (F.CSU_CTRL_CORE u)
  let len := k.wide (R.CSU_LEN_LO u)
  if 2 ≤ mode ∨ 7 ≤ space ∨ len = 0 ∨ 2 ^ 40 < len ∨ 192 ≤ c then some 2
  else if mode = 1 then none
  else if k.spaceSize space c < k.wide (R.CSU_ADDR_LO u) + len ∨ k.spaceSize space c = 0 then some 1
  else none
/-- The domain of a unit (Table 4.1). -/
def csuDomain (u : Nat) : Nat := if u < 4 then 410 else if u < 6 then 396 + u else 378 + u
/-- The domains that hold the source of a scan (R85). -/
def Pkg.sourceDomains (k : Pkg) (x : Scanning) : List Nat :=
  match x.space with
  | 0 => ((List.range 8).filter (fun st => inStack st x.off x.len)).map (392 + ·)
  | 1 => (List.range 4).map (406 + ·)
  | 5 => [192 + k.phys x.core, 384 + k.phys x.core / 48]
  | 6 => [411]
  | _ => [410]
/-- A job that starts has its unit's domain and those of its source on (R85). -/
def Pkg.csuPower (u : Nat) (k : Pkg) : Pkg :=
  k.power (csuDomain u :: ((k.csuScan u).map k.sourceDomains).getD [])
/-- START (R93). -/
def Pkg.csuStart (u : Nat) (k : Pkg) : Pkg :=
  if k.csuBusy u then k
  else
    let k1 := (((k.setWide (R.CSU_PROGRESS_LO u) 0).setRg (R.CSU_EVENTS u) 0).put (F.CSU_STREAM_NEXT u)
      (k.get (F.CSU_STREAM_FIRST u))).setCsu u { crc := crcInit (k.csu64 u), chunks := 0 }
    let k2 := ((((k1.put (F.CSU_STATUS_STATE u) 1).put (F.CSU_STATUS_CODE u) 0).flag (F.CSU_STATUS_VALID u) false)).setWide
      (R.CSU_RESULT_LO u) (crcFinal (k.csu64 u) (crcInit (k.csu64 u)))
    match k2.startRefusal u with
    | some code => k2.csuEnd u 4 code
    | none => k2.csuPower u
/-- FINISH ends a stream (R92). -/
def Pkg.csuFinish (u : Nat) (k : Pkg) : Pkg :=
  if k.csuBusy u ∧ k.get (F.CSU_CTRL_MODE u) = 1 then k.csuEnd u 2 0 else k
/-- ABORT ends a busy job (R94). -/
def Pkg.csuAbort (u : Nat) (k : Pkg) : Pkg := if k.csuBusy u then k.csuEnd u 3 0 else k
/-- The action bits of a write of CSU_CTRL: ABORT alone acts beside START. FINISH and START in one write act in this order, and ABORT alone acts
beside FINISH too (DESIGN CHOICE, log 83). -/
def Pkg.csuCtrl (u : Nat) (startB abortB finishB : Bool) (k : Pkg) : Pkg :=
  if abortB then k.csuAbort u
  else
    let k1 := if finishB then k.csuFinish u else k
    if startB then k1.csuStart u else k1

/-- Bytes join the CRC of a unit. PROGRESS has 41 bits, and wraps there (DESIGN CHOICE, log 83). -/
def Pkg.csuTake (u : Nat) (data : List Byte) (k : Pkg) : Pkg :=
  let j := k.csuJob u
  let crc := crcAbsorb (k.csu64 u) j.crc data
  ((k.setCsu u { crc := crc, chunks := j.chunks + 1 }).setWide (R.CSU_PROGRESS_LO u)
    ((k.wide (R.CSU_PROGRESS_LO u) + data.length) % 2 ^ 41)).setWide (R.CSU_RESULT_LO u) (crcFinal (k.csu64 u) crc)
/-- CHUNK (R90, R91). A unit works only while its domain is on (R84): otherwise the chunk reaches nothing that could count it. -/
def execChunk (p : PkgId) (u : Fin 10) (tag : BitVec 16) (alive : Byte) (data : List Byte) (s : State) : Out :=
  onPkg p s fun k =>
    let next := k.get (F.CSU_STREAM_NEXT u.val)
    if !k.domainOn (csuDomain u.val) then k
    else if !k.csuBusy u.val || k.get (F.CSU_CTRL_MODE u.val) ≠ 1 || k.get (F.CSU_STREAM_TAG u.val) ≠ tag.toNat then
      k.count (F.CSU_EVENTS_FOREIGN u.val) 1
    else if alive.toNat = next then (k.csuTake u.val data).put (F.CSU_STREAM_NEXT u.val) (next + 1)
    else if 0 < (k.csuJob u.val).chunks ∧ (alive.toNat + 1) % 256 = next then k.count (F.CSU_EVENTS_REPEATS u.val) 1
    else k.csuEnd u.val 4 7
/-- The storage behind an offset of a scan space whose lines have ECC detectors of their own: a core store, the S-tile, an HBM stack. -/
def eccPlace (space c off : Nat) : Option (Nat × Nat) :=
  if space = 5 then some (2, storeOff c off) else if space = 0 ∨ space = 1 then some (space, off) else none
/-- The detector of a corrected error at an offset of a scan space (Tables 15.3, 15.4). For the Chart slots, the module flash and host memory the
manual names none: one of the Chart engine, the PKC or the PCIe port (log 84). -/
def eccDetector (space c off : Nat) : Nat :=
  match eccPlace space c off with
  | some q => det (detUnit (lineDetector q.1 q.2)) 0
  | none =>
    let u := if space = 4 then 248 else if space = 6 then 251 else 249
    det u (1 + (Config.scanDetector u).val)
/-- Corrected errors of a scan at some offsets of its space, each counted and reported (R88). -/
def Pkg.corrected (now u : Nat) (x : Scanning) (offs : List Nat) (k : Pkg) : Pkg :=
  offs.foldl (fun k o => (k.count (F.CSU_EVENTS_CORRECTED u) 1).raise now (eccDetector x.space x.core o) (BitVec.ofNat 64 o) 0) k
/-- The offset, in its space, of the first poisoned line that a scan meets. -/
def Pkg.scanPoisoned (p : PkgId) (x : Scanning) (k : Pkg) : Option Nat :=
  (eccPlace x.space x.core x.off).bind fun q =>
    let key := memKey p q.1 q.2
    ((linesOf key x.len).find? k.mem.poison.contains).map fun line => 64 * line - (key - x.off)
/-- SCAN_END: errors corrected on the way, at offsets of the space, are counted and reported; the scan ends at the first uncorrectable line with
POISON, and what was corrected lies before it, else DONE (R88, R94). -/
def execScanEnd (p : PkgId) (u : Fin 10) (corrected : List Nat) (s : State) : Out :=
  onPkg p s fun k =>
    match k.csuScan u.val with
    | none => k
    | some x =>
      let bad := k.scanPoisoned p x
      let k1 := k.corrected s.now u.val x (corrected.filter fun o => x.off ≤ o && o < min (x.off + x.len) (bad.getD (x.off + x.len)))
      match bad with
      | some at_ =>
        ((k1.setWide (R.CSU_PROGRESS_LO u.val) at_).csuEnd u.val 4 3).raise s.now (((eccPlace x.space x.core at_).map fun q => lineDetector q.1 q.2).getD 0)
          (BitVec.ofNat 64 at_) (Config.syndrome at_)
      | none => (k1.csuTake u.val (scanBytes p k s.mem x.space x.core x.off x.len)).csuEnd u.val 2 0

/-! ### Unit 0 and Chart validation (R84, R114) -/

/-- Unit 0 begins to scan a section's body in the shadow slot with CRC-64. -/
def Pkg.csuSection (o : Nat) (k : Pkg) : Pkg :=
  (((k.setRg (R.CSU_CTRL 0) 0x3040).setWide (R.CSU_ADDR_LO 0) (sec k.chart.shadow o).1).setWide (R.CSU_LEN_LO 0) (sec k.chart.shadow o).2).csuStart 0
/-- Unit 0 has scanned a section. -/
def Pkg.csuSectionEnd (o : Nat) (k : Pkg) : Pkg := if k.csuBusy 0 then (k.csuTake 0 (secBody k.chart.shadow o)).csuEnd 0 2 0 else k
/-- The sections of an image in table order. -/
def sectionsOf (img : List Byte) : List Nat := (List.range 11).filter (fun o => 1 ≤ o && (sec img o).1 ≠ 0)
/-- Validation begins: an image that passes the first six steps has its sections scanned, in order. -/
def Pkg.csuValidate (k : Pkg) : Pkg :=
  if (formFault k.addr k.chart.shadow).isNone then ((sectionsOf k.chart.shadow).head?.map (fun o => k.csuSection o)).getD k else k
/-- Validation ends: the sections up to the first whose CHECK fails have been scanned. -/
def Pkg.csuValidated (k : Pkg) : Pkg :=
  if (formFault k.addr k.chart.shadow).isSome then k
  else
    let os := sectionsOf k.chart.shadow
    let done := match badSection k.chart.shadow with
      | some b => os.takeWhile (· ≠ b) ++ [b]
      | none => os
    done.tail.foldl (fun k o => (k.csuSection o).csuSectionEnd o) (k.csuSectionEnd (done.headD 1))

end Sys2Proof.Machine
end

