-- ==== Sys2Proof/Machine/Brg.lean ====
section
/-! DEFINITION. Bearing similarity search (R205–R217): taking a query, scanning its shards, and its results. -/

namespace Sys2Proof.Machine
open Sys2Proof

/-! ### Query blocks (Table 10.1) -/

def qCollection (b : List Byte) : Nat := leAt b 0 2
def qTally (b : List Byte) : Bool := bit (u8 b 3) 0
def qWrite (b : List Byte) : Bool := bit (u8 b 3) 1
def qIrq (b : List Byte) : Bool := bit (u8 b 3) 2
def qKScan (b : List Byte) : Nat := leAt b 4 2
def qKMerge (b : List Byte) : Nat := leAt b 6 2
def qRound (b : List Byte) : Word := BitVec.ofNat 32 (leAt b 8 4)
def qMaxDist (b : List Byte) : Nat := leAt b 0xC 2
def qDst (b : List Byte) : BitVec 24 := BitVec.ofNat 24 (leAt b 0x14 3)
def qResult (b : List Byte) : Nat := leAt b 0x18 8
def qLocal (b : List Byte) : Nat := leAt b 0x20 8
/-- Every field lies in its range of Table 10.1 and every reserved bit is zero. -/
def qFieldsOk (b : List Byte) : Bool :=
  1 ≤ qUnits b && qUnits b ≤ 16 && u8 b 3 < 8 && 1 ≤ qKScan b && qKScan b ≤ 4096 && 1 ≤ qKMerge b && qKMerge b ≤ 512 &&
    qKMerge b ≤ qKScan b && (qMaxDist b ≤ 2048 || qMaxDist b = 0xFFFF) && zeroRange b 0xE 0x14 && endpointOk (qDst b) &&
    u8 b 0x17 = 0 && qResult b < 2 ^ 44 && qLocal b < 2 ^ 44 && zeroRange b 0x28 0x40

/-! ### Shards (R205, R206, R209) -/

/-- The image whose PDOM, CAPS and ROTA govern the package now (Table 6.2). -/
def Pkg.localImg (k : Pkg) : List Byte := if k.chart.bank2 && k.ownState = 2 then k.chart.shadow else k.chart.active
/-- The records of the active SHARD section; an image of package scope has none. -/
def Pkg.shards (k : Pkg) : List ShardRec :=
  if k.chart.active.isEmpty || chScope k.chart.active = 0 then [] else shardRecs k.chart.active
/-- The shard list of an engine, in ascending SHARD order. -/
def Pkg.shardList (k : Pkg) (t collection : Nat) : List ShardRec :=
  k.shards.filter (fun r => r.collection = collection && r.rack = k.rackNo && r.index = k.idx && r.ctile = t)
/-- The MERGE_TREE of a collection, when the rack has a record of it. -/
def Pkg.mergeTree (k : Pkg) (collection : Nat) : Option Nat :=
  (k.shards.find? (fun r => r.collection = collection && r.rack = k.rackNo)).map (·.tree)
/-- UNITS agrees with the collection's. -/
def Pkg.unitsAgree (k : Pkg) (b : List Byte) : Bool := k.shards.all (fun r => r.collection ≠ qCollection b || r.units = qUnits b)

/-! ### The engine -/

def Pkg.engine (k : Pkg) (t : Nat) : BrgSt := sget {} k.brg t
def Pkg.setEngine (t : Nat) (x : BrgSt) (k : Pkg) : Pkg := { k with brg := sset {} k.brg t x }
/-- An engine held off by the Chart, isolated, or in a dark C-tile takes no query (R210, Table 15.2). -/
def Pkg.engineOff (k : Pkg) (t : Nat) : Bool :=
  holdOff k.localImg k.idx (192 + t) || 3 ≤ k.unitState (196 + t) || k.dark.dark.any (fun e => engineOf e.1 (192 + t))
/-- An engine's contribution (R215, R216). Its ROUND was checked as it took the query; a tree that a turn changes takes none. -/
def engineContribute (now : Nat) (p : PkgId) (t tree : Nat) (b : List Byte) (status : Byte) (payload : List Byte) (m : Mem)
    (k : Pkg) : Mem × Pkg :=
  if k.treeHeld tree || !onTree (k.tree tree) k.idx || !treeReverse (k.tree tree) then (m, k)
  else
    let addr := qResult b % 2 ^ 44 + 4 * 2 ^ 44 + qKMerge b % 2 ^ 12 * 2 ^ 49
    let pk : Packet := { k.newPacket now opTopk 3 (qDst b) (BitVec.ofNat 24 (k.addr * 256)) payload with
      castKind := 1, tree := BitVec.ofNat 8 tree, seq := qRound b, addr := BitVec.ofNat 64 addr, status := status }
    tallySettle now p m (k.tallyPut now (292 + t) pk)
/-- The tally STATUS of an outcome (Table 10.2); none is sent for ORDER. -/
def outcomeStatus (code : Nat) : Option Byte :=
  if code ≤ 1 then some stOK
  else if code = 4 then none
  else if code = 7 then some stUnitReset
  else if code = 8 then some stPathDown
  else some stAccessError
/-- The local result record (Table 10.3). -/
def localRecord (b : List Byte) (code : Nat) (entries : List Nat) (scanned skipped ns : Nat) : List Byte :=
  leBytes 4 (qRound b).toNat ++ leBytes 1 code ++ leBytes 1 0 ++ leBytes 2 entries.length ++ leBytes 8 scanned ++ leBytes 4 skipped ++
    leBytes 4 (min (2 ^ 32 - 1) ns) ++ leBytes 8 0 ++ entries.flatMap (leBytes 8)
/-- A query ends: the local record, which waits with its segment or core, the contribution on the MERGE_TREE of its submission, BRG_LAST and
MSI-X, in this order (R215). -/
def endQuery (now : Nat) (p : PkgId) (t : Nat) (b : List Byte) (tree : Option Nat) (code : Nat) (entries : List Nat) (scanned skipped ns : Nat)
    (m : Mem) (k : Pkg) : Mem × Pkg :=
  let steward := k.get (F.BRG_QCFG_STEWARD t)
  let r := if qWrite b ∧ steward < 192 then
      let w := writeOrWait now p steward (qLocal b % 2 ^ 44) (localRecord b code entries scanned skipped ns) m k
      (w.1, w.2.1)
    else (m, k)
  let payload := if entries = [] then List.replicate 8 0xFF else (entries.take (qKMerge b)).flatMap (leBytes 8)
  let r2 := match (if qTally b then outcomeStatus code else none), tree with
    | some st, some tree => engineContribute now p t tree b st payload r.1 r.2
    | _, _ => r
  let k3 := (r2.2.setRg (R.BRG_LAST t) (qRound b)).setRg (R.BRG_LAST_CODE t) (BitVec.ofNat 32 (entries.length * 2 ^ 16 + code))
  let k4 := if code = 2 then k3.count (F.BRG_EVENTS_QFULL t) 1
    else if code = 3 ∨ code = 4 ∨ code = 5 then k3.count (F.BRG_EVENTS_REFUSED t) 1 else k3
  (r2.1, if qIrq b then k4.emit (.msix (60 + t)) else k4)
/-- The tree on which a query would send its contribution, if it sends one. -/
def Pkg.queryTree (k : Pkg) (b : List Byte) : Option Nat := if qTally b then k.mergeTree (qCollection b) else none
/-- ROUND is not serially greater than the engine's previous one on the tree; the first one after a reset or a tree change is (R178, R211). -/
def Pkg.roundBack (k : Pkg) (t : Nat) (b : List Byte) : Bool :=
  (k.queryTree b).any fun tree => (sfind k.tally.last (64 * (192 + t) + tree)).any fun l => !serialGt (qRound b) l
/-- The outcome with which a query ends as it is taken (Table 10.2, in the order of log 32). ORDER is judged first: an engine's rounds ascend
whatever their outcome (R216). -/
def Pkg.takeOutcome (k : Pkg) (t : Nat) (b : List Byte) : Option Nat :=
  if k.roundBack t b then some 4
  else if !qFieldsOk b || !k.unitsAgree b then some 3
  else if 16 ≤ (k.engine t).queue.length then some 2
  else if k.shardList t (qCollection b) = [] then some 1
  else if (k.shardList t (qCollection b)).any (fun r => 2 ^ 32 < r.sketches) then some 5
  else none
/-- The ROUND of a query that is taken is the engine's latest on its tree (R178, R211). -/
def Pkg.noteRound (t : Nat) (b : List Byte) (k : Pkg) : Pkg :=
  match k.queryTree b with
  | some tree => k.setTally fun y => { y with last := sinsert y.last (64 * (192 + t) + tree) (qRound b) }
  | none => k
/-- An engine takes a query block: it queues it, or ends it at once (R209–R211). -/
def takeQuery (now : Nat) (p : PkgId) (t : Nat) (b : List Byte) (m : Mem) (k0 : Pkg) : Mem × Pkg :=
  if k0.engineOff t then (m, k0)
  else
    let k := (k0.power [384 + t, 388 + t]).put F.AON_PKG_STATE_S_FURLED 0
    match k.takeOutcome t b with
    | some code => endQuery now p t b (k.mergeTree (qCollection b)) code [] 0 0 0 m (if code = 4 then k else k.noteRound t b)
    | none =>
      let e := k.engine t
      let shards := (k.shardList t (qCollection b)).map (fun r => (r.base, r.sketches, r.shard))
      (m, (k.noteRound t b).setEngine t { e with queue := e.queue ++ [⟨b, shards, k.mergeTree (qCollection b)⟩] })
/-- Every engine takes the blocks that writes have brought it, in order: within 1 µs, before any other command of an engine (R208). -/
def takeNoticed (now : Nat) (p : PkgId) (m : Mem) (k : Pkg) : Mem × Pkg :=
  k.mem.written.foldl (fun (mk : Mem × Pkg) w => takeQuery now p w.1 w.2 mk.1 mk.2) (m, { k with mem := { k.mem with written := [] } })
/-- QUERY_WRITE: a write into a core's store. A core in Nap or Doze wakes for it, and the write follows its reload (R210). -/
def execQueryWrite (p : PkgId) (c : Core) (off : Fin 1572864) (data : List Byte) (s : State) : Out :=
  onPkgMem p s fun m k =>
    if k.coreDark c.val then (m, k)
    else
      let r := writeOrWait s.now p c.val (Config.storeWindow.toNat + off.val) (data.take (storeBytes - off.val)) m k
      takeNoticed s.now p r.1 r.2.1
/-- The block staged in BRG_HOSTQ. -/
def Pkg.hostBlock (k : Pkg) (t : Nat) : List Byte :=
  let all := (List.range 80).flatMap (fun j => leBytes 4 (k.rg (R.BRG_HOSTQ t j)).toNat)
  all.take (qLength all)
/-- HOSTQ_GO: this engine alone takes the staged block. -/
def hostqGo (now : Nat) (p : PkgId) (t : Nat) (m : Mem) (k : Pkg) : Mem × Pkg :=
  let r := takeNoticed now p m k
  takeQuery now p t (k.hostBlock t) r.1 r.2
/-- An HBM stack is dark: its interface is isolated, or its C-tile is dark (R39, R207). -/
def Pkg.stackDark (k : Pkg) (st : Nat) : Bool := 3 ≤ k.unitState (200 + st) || k.ctileDark (st / 2)
/-- QUERY_START: what was written is taken, and the query at the head of the queue starts (R209, R212). -/
def execQueryStart (p : PkgId) (t : Tile) (s : State) : Out :=
  onPkgMem p s fun m0 k0 =>
    let r := takeNoticed s.now p m0 k0
    let e := r.2.engine t.val
    match e.running, e.queue with
    | none, q :: rest =>
      if r.2.engineOff t.val then r
      else (r.1, r.2.setEngine t.val { queue := rest, running := some q, startedAt := s.now,
                                       dead := (List.range 8).filter (fun st => q.reads st && r.2.stackDark st) })
    | _, _ => r

/-! ### The scan (R206, R212, R213) -/

def popcount : Nat → Nat → Nat
  | 0, _ => 0
  | n + 1, v => v % 2 + popcount n (v / 2)
/-- The Hamming distance of two sketches. -/
def distance (a b : List Byte) : Nat := ((a.zip b).map (fun e => popcount 8 (e.1 ^^^ e.2).toNat)).foldl (· + ·) 0
/-- Keep an entry in ascending order of distance and identifier; the key of an entry holds both. -/
def keepEntry (x : Nat) : List Nat → List Nat
  | [] => [x]
  | y :: t => if x < y then x :: y :: t else y :: keepEntry x t
/-- A scan so far: kept entries, sketches compared, sketches skipped. -/
structure Scan where
  kept : List Nat
  scanned : Nat
  skipped : Nat
  deriving DecidableEq, Repr
/-- Compare sketch i of a shard. -/
def Scan.sketch (p : PkgId) (m : Mem) (poison : List Nat) (b : List Byte) (shard : Nat × Nat × Nat) (i : Nat) (x : Scan) : Scan :=
  let len := 16 * qUnits b
  let key := memKey p 0 (shard.1 + len * i)
  if (linesOf key len).any poison.contains then { x with skipped := x.skipped + 1 }
  else
    let d := distance (memRead m key len) (slice b 64 len)
    let limit := if qMaxDist b = 0xFFFF then 2048 else qMaxDist b
    { x with
      scanned := x.scanned + 1,
      kept := if d ≤ limit then (keepEntry (d * 2 ^ 48 + shard.2.2 * 2 ^ 32 + i) x.kept).take (qKScan b) else x.kept }
/-- The sketches of a shard list in scan order. -/
def scanOrder (shards : List (Nat × Nat × Nat)) : List ((Nat × Nat × Nat) × Nat) :=
  shards.flatMap (fun s => (List.range s.2.1).map (fun i => (s, i)))
def scanAll (p : PkgId) (m : Mem) (poison : List Nat) (b : List Byte) (l : List ((Nat × Nat × Nat) × Nat)) : Scan :=
  l.foldl (fun x e => x.sketch p m poison b e.1 e.2) ⟨[], 0, 0⟩
/-- A sketch of a scan: where it begins in local HBM, and its length. -/
def sketchAt (b : List Byte) (e : (Nat × Nat × Nat) × Nat) : Nat := e.1.1 + 16 * qUnits b * e.2
/-- The uncorrectable lines of local HBM that a scan reads fire their detectors. -/
def Pkg.scanPoison (now : Nat) (p : PkgId) (b : List Byte) (l : List ((Nat × Nat × Nat) × Nat)) (k : Pkg) : Pkg :=
  let key := memKey p 0 0
  (k.mem.poison.filter (fun n => l.any (fun e => meets (key + sketchAt b e) (16 * qUnits b) (64 * n) 64))).foldl
    (fun k n => k.raise now (lineDetector 0 (64 * n - key)) (BitVec.ofNat 64 (64 * n - key)) (Config.syndrome (64 * n - key))) k
/-- Corrected errors of a scan, at offsets of local HBM, are reported (R213). -/
def Pkg.scanCorrected (now : Nat) (b : List Byte) (l : List ((Nat × Nat × Nat) × Nat)) (offs : List Nat) (k : Pkg) : Pkg :=
  (offs.filter (fun o => l.any (fun e => sketchAt b e ≤ o && o < sketchAt b e + 16 * qUnits b))).foldl
    (fun k o => k.raise now (det (200 + stackOf o) 0) (BitVec.ofNat 64 o) 0) k
/-- What each line of local HBM holds at the moment the scan reads it: one of its contents since the scan began, which the manual leaves open
(R213); a free value for each line (log 4). -/
def scanMemory (free : Nat) (before : List (Nat × List Byte)) (m : Mem) : Mem :=
  (indexed (before.map (·.1)).dedup).foldl (fun m l =>
    let olds := (before.filter (fun e => e.1 = l.2)).map (·.2)
    match olds[(Config.freeWord (free + l.1)).toNat % (olds.length + 1)]? with
    | some old => memWrite m (64 * l.2) old
    | none => m) m
/-- The sketches that a scan reads: all of them, or those before its source was lost, of which a stack that was dark as the scan started gives
none, and one that went dark later a free number (log 4). -/
def BrgSt.readSketches (e : BrgSt) (q : Query) (free : Nat) : List ((Nat × Nat × Nat) × Nat) :=
  let all := (scanOrder q.shards).takeWhile fun x => !e.dead.any fun st => inStack st (sketchAt q.block x) (16 * qUnits q.block)
  if e.lost then all.take ((Config.freeWord free).toNat % (all.length + 1)) else all
/-- QUERY_END: the running query's scan is complete, or ended at a loss of its source. -/
def execQueryEnd (p : PkgId) (end_ : ScanOf) (s : State) : Out :=
  let t := end_.tile
  let mk := takeNoticed s.now p s.mem (s.pkg p)
  let k := mk.2
  let e := k.engine t.val
  match e.running with
  | none => .next ({ s with mem := mk.1 }.setPkg p k)
  | some q =>
    let l := e.readSketches q s.free
    let x := scanAll p (scanMemory (s.free + 1) e.before mk.1) k.mem.poison q.block l
    let code := if e.lost ∨ e.dead ≠ [] then 7 else if x.skipped = 0 then 0 else 6
    let k1 := (((k.scanPoison s.now p q.block l).scanCorrected s.now q.block l end_.corrected).setEngine t.val
      { e with running := none, lost := false, dead := [], before := [] }).count (F.BRG_EVENTS_SKIPPED t.val) x.skipped
    let k2 := k1.setWide (R.BRG_SCANNED_LO t.val) (k1.wide (R.BRG_SCANNED_LO t.val) + x.scanned)
    let r := endQuery s.now p t.val q.block q.tree code x.kept x.scanned x.skipped (s.now - e.startedAt) mk.1 k2
    .next ({ s with mem := r.1, free := s.free + 1 + e.before.length }.setPkg p r.2)
/-- ABORT: the running query and every queued one end ABORTED. -/
def brgAbort (now : Nat) (p : PkgId) (t : Nat) (m : Mem) (k0 : Pkg) : Mem × Pkg :=
  let mk := takeNoticed now p m k0
  let e := mk.2.engine t
  (e.running.toList ++ e.queue).foldl (fun (mk : Mem × Pkg) q => endQuery now p t q.block q.tree 8 [] 0 0 0 mk.1 mk.2)
    (mk.1, mk.2.setEngine t {})
/-- An HBM interface goes dark: running scans of shards that it holds end with SOURCE_LOST, and so do check-value scans (R95). -/
def Pkg.stackLost (stack : Nat) (k : Pkg) : Pkg :=
  (k.csuStop 5 (fun x => x.space = 0 && inStack stack x.off x.len)).engineSourceLost [stack]

end Sys2Proof.Machine
end

