-- ==== Sys2Proof/Machine/Power.lean ====
section
/-! DEFINITION. The package's power (R232–R248): the effective cap, the governor and the issue-rate limit, operating points, droop,
the brake at the ball, and the guard bands. -/

namespace Sys2Proof.Machine
open Sys2Proof

def Pkg.setPwr (f : PwrSt → PwrSt) (k : Pkg) : Pkg := { k with pwr := f k.pwr }
def tiles4 : List Nat := [0, 1, 2, 3]

/-- A probe pulse ends; one that is abandoned yields no sample (R257). -/
def Pkg.endProbe (lost : Bool) (k : Pkg) : Pkg :=
  match k.thr.probeAt with
  | none => k
  | some t => { k with thr := { k.thr with probeAt := none, probeLimit := [], probeLost := if lost then some t else k.thr.probeLost } }

/-! ### The effective cap (R233, R292, R379) -/

/-- The hold-course limit: SAFE_CAP of the CAPS record in force, or 150 W. -/
def Pkg.safeLimit (k : Pkg) : Nat := if k.localImg.isEmpty then 150 else capsSafe k.localImg k.idx
/-- Limits 0–3 of Table 11.2 that are in force. -/
def Pkg.baseLimits (k : Pkg) : List (Nat × Nat) :=
  [(0, k.get F.PWR_LADDER_CAP_CAP), (1, k.get F.PWR_HOST_CAP_CAP), (2, k.get F.THR_CAP_CAP)] ++
    (if k.pkc.holdCourse then [(3, k.safeLimit)] else [])
/-- The smallest limit, and the lowest code of those that equal it. -/
def lowestLimit (l : List (Nat × Nat)) : Nat × Nat := l.foldl (fun a b => if b.2 < a.2 then b else a) (0, 2047)
/-- The sea-trial limit: 80 % of the smallest other limit, on the 5 W grid, at least 150 W. -/
def seaLimit (watts : Nat) : Nat := max 150 (watts * 4 / 5 / 5 * 5)
def Pkg.capLimit (k : Pkg) : Nat × Nat :=
  let low := lowestLimit k.baseLimits
  if k.get F.THR_SEA_TRIAL_ACTIVE = 1 then lowestLimit (k.baseLimits ++ [(4, seaLimit low.2)]) else low
def Pkg.effective (k : Pkg) : Nat := k.get F.PWR_CAP_STATUS_EFFECTIVE
/-- A limit has changed: EFFECTIVE and LIMITER follow, and a cap that falls abandons a probe pulse (R257). -/
def Pkg.recap (k : Pkg) : Pkg :=
  let low := k.capLimit
  let k1 := (k.put F.PWR_CAP_STATUS_EFFECTIVE low.2).put F.PWR_CAP_STATUS_LIMITER low.1
  if low.2 < k.effective then k1.endProbe true else k1
/-- The range and grid of a package cap (R232, R233). -/
def capOk (w : Nat) : Bool := 150 ≤ w && w ≤ 1150 && w % 5 = 0
/-- A write of a cap register: off its range or grid it is rejected (R5, R392); reserved bits are ignored (R14). -/
def Pkg.capWrite (f : Fld) (w : Word) (k : Pkg) : Pkg :=
  if capOk (w.toNat % 2048) then (k.put f w.toNat).recap else k.flag F.PWR_CAP_STATUS_REJECT true

/-! ### Issue-rate limits (R236, R241, R244, R263, R266) -/

def Pkg.rate (k : Pkg) (t : Nat) : Nat := k.get (F.PWR_TILE_STATE_RATE t)
def Pkg.point (k : Pkg) (t : Nat) : Nat := k.get (F.PWR_TILE_STATE_POINT t)
def frateFld (t : Nat) : Fld := ⟨R.THR_FRATE, 8 * t, 8⟩
def Pkg.frate (k : Pkg) (t : Nat) : Nat := k.get (frateFld t)
def Pkg.brakeRate (k : Pkg) : Nat := k.get F.PWR_BRAKE_RATE
def Pkg.braked (k : Pkg) : Bool := k.get F.PWR_BRAKE_LINE = 1
/-- The lowest of the limits on a C-tile's RATE: the governor's own, FRATE, a probe pulse, the brake, the junction trip, and the hold of
unit 252. -/
def Pkg.rateLimit (k : Pkg) (t : Nat) : Nat :=
  let base := min (min (sget 64 k.pwr.govRate t) (k.frate t)) (sget 64 k.thr.probeLimit t)
  let r := if k.braked || k.pwr.govHold then min base k.brakeRate else base
  if k.alarmLive 3 then min r 1 else r
/-- Falls act at once; a rise waits for its steps, and RAMPING shows that one is under way. -/
def Pkg.settleRates (k : Pkg) : Pkg :=
  let k1 := tiles4.foldl (fun k t => k.put (F.PWR_TILE_STATE_RATE t) (min (k.rate t) (k.rateLimit t))) k
  k1.flag F.PWR_BRAKE_RAMPING (tiles4.any fun t => k1.rate t < k1.rateLimit t)

/-- RATE_RAMP_STEP (R244): each RATE below its limit rises by 1. -/
def execRateRampStep (p : PkgId) (s : State) : Out :=
  onPkg p s fun k => (tiles4.foldl (fun k t =>
    if k.rate t < k.rateLimit t then k.put (F.PWR_TILE_STATE_RATE t) (k.rate t + 1) else k) k).settleRates

/-! ### The governor (R234, R235, R237) -/

def Pkg.tileFurled (k : Pkg) (t : Nat) : Bool := k.cFurled t
/-- CTILE_BUDGET in force; 240 W while no Chart is active. -/
def Pkg.budget (k : Pkg) (t : Nat) : Nat := if k.get F.PWR_BRAKE_DEFAULT = 1 then 240 else k.get (F.PWR_TILE_STATE_BUDGET_W t)
/-- A C-tile's share of the tile pool, in whole watts. -/
def Pkg.share (k : Pkg) (uncoreW t : Nat) : Nat :=
  let open_ := tiles4.filter (fun t => !k.tileFurled t)
  let sum := (open_.map k.budget).foldl (· + ·) 0
  if k.tileFurled t || sum = 0 then 0 else min (k.budget t) ((k.effective - uncoreW) * k.budget t / sum)
/-- The draw exceeds the effective cap, or the brake power PB while the line is asserted (R235, R241). -/
def Pkg.overPb (k : Pkg) (drawW : Nat) : Bool := k.braked && 12800 + 950 * k.brakeRate < 64 * drawW
def Pkg.excess (k : Pkg) (drawW : Nat) : Bool := k.effective < drawW || k.overPb drawW
/-- A step down to the next operating point starts (R237). -/
def Pkg.startStep (t point : Nat) (k : Pkg) : Pkg := k.setPwr fun x => { x with stepping := sinsert x.stepping t point }
def Pkg.isStepping (k : Pkg) (t : Nat) : Bool := (sfind k.pwr.stepping t).isSome
/-- While the draw is still in excess with a tile at RATE 1, the tile steps down. -/
def Pkg.stepDown (drawW t : Nat) (k : Pkg) : Pkg :=
  if k.excess drawW && k.rate t = 1 && k.point t < 5 && !k.isStepping t && !k.tileFurled t then k.startStep t (k.point t + 1) else k
/-- UNMET: the cap is not met although every C-tile that runs is at point 5 with RATE 1. -/
def Pkg.unmet (k : Pkg) (drawW : Nat) : Bool :=
  k.effective < drawW && tiles4.all fun t => k.tileFurled t || (k.point t = 5 && k.rate t = 1)
def Pkg.judgeUnmet (now drawW : Nat) (k : Pkg) : Pkg :=
  if k.unmet drawW then
    if k.get F.PWR_CAP_STATUS_UNMET = 1 then k
    else ((k.flag F.PWR_CAP_STATUS_UNMET true).count F.PWR_EVENTS_UNMET 1).raise now (det 252 0) 0 0
  else k.flag F.PWR_CAP_STATUS_UNMET false
/-- The rate the governor chooses (log 10): 1 when the pool is used up or the tile cannot be met, lower than now in an excess. -/
def Pkg.governed (k : Pkg) (uncoreW drawW t tileW : Nat) : Nat :=
  let r := max 1 (min 64 (Config.governRate (k.share uncoreW t) tileW (k.rate t)))
  if k.effective ≤ uncoreW then 1 else if k.excess drawW then min r (max 1 (k.rate t - 1)) else r
/-- One millisecond's means of the draw (PWR_DRAW); the sea trial counts a millisecond of load of 300 W or more (R379). -/
def Pkg.closeMs (k : Pkg) : Pkg :=
  if k.pwr.msTicks = 0 then k
  else
    let draw := k.pwr.msDraw / k.pwr.msTicks
    let k1 := (k.put F.PWR_DRAW_DRAW_W (min 4095 draw)).put F.PWR_DRAW_UNCORE_W (min 4095 (k.pwr.msUncore / k.pwr.msTicks))
    if k1.get F.THR_SEA_TRIAL_ACTIVE = 1 && 300 ≤ draw then
      k1.put F.THR_SEA_TRIAL_LOAD_MS (min 60000 (k1.get F.THR_SEA_TRIAL_LOAD_MS + 1)) else k1
/-- A tick's draw enters the means of its millisecond and the energy: 1 W over 10 µs is 0.01 mJ. -/
def Pkg.meter (now uncoreW drawW : Nat) (k : Pkg) : Pkg :=
  let ms := k.time now / 10 ^ 6
  let k1 := if ms = k.pwr.msIndex then k else
    k.closeMs.setPwr fun x => { x with msIndex := ms, msTicks := 0, msDraw := 0, msUncore := 0 }
  let sum := k1.pwr.energyRest + drawW
  (k1.setWide R.PWR_ENERGY_LO (k1.wide R.PWR_ENERGY_LO + sum / 100)).setPwr fun x =>
    { x with energyRest := sum % 100, msTicks := x.msTicks + 1, msDraw := x.msDraw + drawW, msUncore := x.msUncore + uncoreW }
/-- RATE enters the mean of R238. -/
def Pkg.tallyRate (k : Pkg) : Pkg :=
  (tiles4.foldl (fun k t => k.setPwr fun x =>
    { x with rateSum := sset 0 x.rateSum t (sget 0 x.rateSum t + k.rate t),
             rateMin := sset 64 x.rateMin t (min (sget 64 x.rateMin t) (k.rate t)) }) k).setPwr fun x => { x with ticks := x.ticks + 1 }
/-- One tick of the governor with the draws of the four C-tiles and of the rest. The steps of R237 and UNMET are judged by the RATE at which the
draw was measured, before this tick lowers it. -/
def Pkg.govern (now : Nat) (tileW : List Nat) (uncoreW : Nat) (k : Pkg) : Pkg :=
  let drawW := tileW.foldl (· + ·) uncoreW
  let k1 := (tiles4.foldl (fun k t => k.stepDown drawW t) (k.meter now uncoreW drawW)).judgeUnmet now drawW
  let k2 := tiles4.foldl (fun k t =>
    ((k.put (F.PWR_TILE_STATE_BUDGET_W t) (k.budget t)).put (F.PWR_TILE_STATE_LIMIT_W t) (k.share uncoreW t)).setPwr fun x =>
      { x with govRate := sset 64 x.govRate t (if k.tileFurled t then 64 else k.governed uncoreW drawW t (tileW.getD t 0)) }) k1
  k2.settleRates.tallyRate

/-- GOVERNOR_TICK (R234). -/
def execGovernorTick (p : PkgId) (tileW : List Nat) (uncoreW : Nat) (s : State) : Out :=
  onPkg p s fun k => k.govern s.now tileW uncoreW

/-! ### Operating points (R238) -/

/-- Judge one C-tile by its RATE over the last 10 ms. -/
def Pkg.judgePoint (t tileW : Nat) (k : Pkg) : Pkg :=
  if k.isStepping t || k.tileFurled t || k.pwr.ticks = 0 then k
  else if sget 0 k.pwr.rateSum t ≤ 40 * k.pwr.ticks then (if k.point t < 5 then k.startStep t (k.point t + 1) else k)
  else if sget 64 k.pwr.rateMin t = 64 && 100 * tileW < 85 * k.get (F.PWR_TILE_STATE_LIMIT_W t) && 0 < k.point t && !k.braked then
    k.startStep t (k.point t - 1)
  else k
/-- POINT_JUDGEMENT (R238). -/
def execPointJudgement (p : PkgId) (tileW : List Nat) (s : State) : Out :=
  onPkg p s fun k => (tiles4.foldl (fun k t => k.judgePoint t (tileW.getD t 0)) k).setPwr fun x =>
    { x with rateSum := [], rateMin := [], ticks := 0 }

/-- The base voltage of an operating point in mV (Table 11.3; Pkg.tileMhz is its clock). -/
def pointMv (q : Nat) : Nat := [780, 745, 710, 675, 645, 615].getD q 615
def guardFld (n : Nat) : Fld := F.PWR_GUARD_GUARD_MV n
/-- The guard band a C-tile's set point uses: a change waits for the tile's next step (R246). -/
def Pkg.guardNow (k : Pkg) (t : Nat) : Nat := sget 45 k.pwr.guardInForce t
def Pkg.takeGuard (t : Nat) (k : Pkg) : Pkg :=
  k.setPwr fun x => { x with guardInForce := sset 45 x.guardInForce t (k.get (guardFld t)) }
/-- The voltage set point of a C-tile in mV (R238). -/
def Pkg.setPoint (k : Pkg) (t : Nat) : Nat := pointMv (k.point t) + k.guardNow t
/-- A step ends: the point is reached with its clock, the guard band takes effect, and R237 goes on. -/
def Pkg.endStep (now t drawW : Nat) (k : Pkg) : Pkg :=
  match sfind k.pwr.stepping t with
  | none => k
  | some q =>
    let k1 := ((k.put (F.PWR_TILE_STATE_POINT t) q).setPwr fun x => { x with stepping := serase x.stepping t }).takeGuard t
    ((k1.reclock now t (k.tileMhz t) (k1.tileMhz t)).stepDown drawW t).judgeUnmet now drawW
/-- POINT_STEP_END (R237, R238). -/
def execPointStepEnd (p : PkgId) (t : Tile) (drawW : Nat) (s : State) : Out := onPkg p s fun k => k.endStep s.now t.val drawW

/-! ### Droop (R239) -/

def Pkg.droopMv (k : Pkg) (t : Nat) : Nat := min (k.get F.PWR_DROOP_CFG_DROOP_MV) (k.guardNow t - 5)
/-- DROOP (R239): a local supply stands more than D below the set point, and every matrix engine of the tile skips issue. -/
def execDroop (p : PkgId) (t : Tile) (supplyMv : Nat) (s : State) : Out :=
  onPkg p s fun k => if supplyMv + k.droopMv t.val < k.setPoint t.val ∧ !k.pwr.skipping.contains t.val then
    (k.count F.PWR_EVENTS_DROOPS 1).setPwr fun x => { x with skipping := x.skipping ++ [t.val] } else k
/-- DROOP_RECOVERY (R239). -/
def execDroopRecovery (p : PkgId) (t : Tile) (s : State) : Out :=
  onPkg p s fun k => k.setPwr fun x => { x with skipping := x.skipping.filter (· ≠ t.val) }

/-! ### The brake at the ball (R241, R244) -/

def Pkg.brakeLine (b : Bool) (k : Pkg) : Pkg :=
  let k1 := ((k.flag F.PWR_BRAKE_LINE b).flag F.PWR_CAP_STATUS_BRAKED b)
  let k2 := if b then (k1.count F.PWR_EVENTS_BRAKES (if k.braked then 0 else 1)).endProbe true else k1
  k2.settleRates
/-- BRAKE_ASSERT (R241): every RATE falls to BRAKE, and a probe pulse is abandoned (R257). -/
def execBrakeAssert (p : PkgId) (s : State) : Out := onPkg p s fun k => k.brakeLine true
/-- BRAKE_RELEASE (R244). -/
def execBrakeRelease (p : PkgId) (s : State) : Out := onPkg p s fun k => k.brakeLine false

/-- CAPS of an image takes effect (Table 6.2): the budgets, BRAKE and the hold-course limit. -/
def Pkg.applyCaps (img : List Byte) (k : Pkg) : Pkg :=
  let n := k.idx
  let k1 := tiles4.foldl (fun k t => k.put (F.PWR_TILE_STATE_BUDGET_W t) (if img.isEmpty then 240 else capsBudget img n t)) k
  let k2 := (k1.put F.PWR_BRAKE_RATE (if img.isEmpty then 19 else capsBrake img n)).flag F.PWR_BRAKE_DEFAULT img.isEmpty
  k2.recap.settleRates

/-! ### Guard bands (R246–R248) -/

/-- Change a guard band by `d` mV within 15–60 mV. Two changes at one time count as one, the larger ("When an evaluation and a margin
alarm coincide"). -/
def Pkg.moveGuard (now n : Nat) (d : Int) (k : Pkg) : Pkg :=
  let g := k.get (guardFld n)
  let base := match sfind k.pwr.guardAt n with
    | some e => if e.1 = now then e.2 else g
    | none => g
  let change := if base = g then d else max d ((g : Int) - base)
  let new := max 15 (min 60 ((base : Int) + change))
  ((k.put (guardFld n) new.toNat)).setPwr fun x => { x with guardAt := sinsert x.guardAt n (now, base) }
/-- What an evaluation does to a guard band with worst margin M. -/
def guardChange (m : Nat) : Int := if 15 ≤ m then -(min 5 ((m : Int) - 10)) else if m < 5 then 5 else 0
/-- POWERED_HOUR (R246, R248): HOURS counts up, and every 1,000 hours each tile is evaluated. -/
def execPoweredHour (p : PkgId) (margins : List Nat) (s : State) : Out :=
  onPkg p s fun k =>
    let k1 := k.count F.PWR_AGE_HOURS_HOURS 1
    if k1.get F.PWR_AGE_HOURS_HOURS % 1000 ≠ 0 then k1
    else (List.range 8).foldl (fun k n =>
      let m := margins.getD n 0
      (k.put (F.PWR_GUARD_MARGIN_MV n) (min 255 m)).moveGuard s.now n (guardChange m)) k1
/-- The detector of a tile's margin alarm (Table 15.4), by guard-band index. -/
def marginDet (n : Nat) : Nat :=
  if n < 4 then det (192 + n) 0 else if n < 6 then det (232 + (n - 4)) 0 else if n = 6 then det 252 1 else det 234 2
/-- MARGIN_ALARM (R247): below 2 mV the guard band rises by 5 mV at once, and a CE event is reported. -/
def execMarginAlarm (p : PkgId) (n : Fin 8) (marginMv : Nat) (s : State) : Out :=
  onPkg p s fun k => if marginMv < 2 then (k.moveGuard s.now n.val 5).raise s.now (marginDet n.val) 0 0 else k

end Sys2Proof.Machine
end

