-- ==== Sys2Proof/Machine/Heat.lean ====
section
/-! DEFINITION. The package's heat (R254–R274, R378, R379): coolant, the resistance estimate and its probe pulses, the thermal cap, the
dead-reckoning unit, the junction trip and shutdown, headings, and stitch rotation. Temperatures are in 1/16 °C. -/

namespace Sys2Proof.Machine
open Sys2Proof

def Pkg.setThr (f : ThrSt → ThrSt) (k : Pkg) : Pkg := { k with thr := f k.thr }

/-! ### Coolant (R254) -/

def Pkg.stale (k : Pkg) : Bool := k.get F.THR_COOLANT_STALE = 1
/-- T_c: 50.0 °C while STALE is set. -/
def Pkg.coolant (k : Pkg) : Nat := if k.stale then 800 else k.get F.THR_COOLANT_TEMP
/-- A write of THR_COOLANT by the tray controller. -/
def Pkg.coolantWrite (now temp : Nat) (k : Pkg) : Pkg :=
  (((k.put F.THR_COOLANT_TEMP temp).flag F.THR_COOLANT_STALE false).setThr fun x => { x with coolantAt := now }).alarm 1 false
/-- COOLANT_STALE (R254): AGE reaches 501. -/
def execCoolantStale (p : PkgId) (s : State) : Out :=
  onPkg p s fun k => if k.thr.coolantAt + 501 * 10 ^ 6 ≤ s.now then (k.flag F.THR_COOLANT_STALE true).alarm 1 true else k

/-! ### The resistance estimate (R255–R258) -/

/-- n / d to the nearest integer, halves away from zero. -/
def roundAway (n d : Int) : Int :=
  let a := (2 * n.natAbs + d.natAbs) / (2 * d.natAbs)
  if decide (0 ≤ n) = decide (0 ≤ d) then (a : Int) else -(a : Int)
def clampI (lo hi x : Int) : Int := max lo (min hi x)
def Pkg.est (k : Pkg) : Nat := k.get F.THR_RESIST_EST_EST
/-- RESIST_HIGH (R258, R259): it is reported at its entry, and between its limits it holds. -/
def Pkg.judgeResist (now : Nat) (k : Pkg) : Pkg :=
  let lim := k.get F.THR_RESIST_CFG_ALARM
  if lim ≤ k.est || k.thr.rawLow then
    (if k.alarmLive 0 then k else k.raise now (det 255 1) 0 0).alarm 0 true
  else if k.est + 20 < lim then k.alarm 0 false
  else k
/-- What rules a sample out (R256, R257), besides what the 21 ms before showed. -/
def Pkg.noSample (now : Nat) (k : Pkg) : Bool :=
  k.braked || !k.pwr.stepping.isEmpty || k.alarmLive 3 || k.thr.rotas.any (·.2.migrating) || k.stale || !k.thr.sensorBad.isEmpty ||
    k.est = 0 || (match k.thr.probeLost with
      | some t => decide (now ≤ t + 21 * 10 ^ 6)
      | none => false)
/-- The new estimate from a sample. -/
def newEst (r : Nat) (dtMeas dtModel : Int) : Int :=
  let s := clampI 150 1200 (roundAway (r * dtMeas) dtModel)
  r + roundAway (s - r) 8
/-- NATURAL_STEP_SAMPLE (R255): the rises are in mK, and `quiet` says that the step met R255 and nothing in R256 overlapped it. -/
def execNaturalStepSample (p : PkgId) (dtMeas dtModel : Int) (quiet : Bool) (s : State) : Out :=
  onPkg p s fun k =>
    let k0 := (k.endProbe false).settleRates
    if !quiet || k.noSample s.now || dtModel.natAbs < 2000 then k0
    else
      let k1 := (k0.put F.THR_RESIST_EST_EST (newEst k.est dtMeas dtModel).toNat).flag F.THR_RESIST_EST_SEEDED false
      ((k1.count F.THR_EVENTS_STEPS 1).setThr fun x => { x with lastSample := s.now }).judgeResist s.now
/-- PROBE_PULSE (R257): it adds 40 W of filler work, or takes 40 W by lowering every RATE, to values that the manual leaves open. -/
def execProbePulse (p : PkgId) (dutyPct drawW : Nat) (s : State) : Out :=
  onPkgFree p s fun v k =>
    if k.get F.THR_RESIST_CFG_PROBE_EN = 0 || s.now < k.thr.lastSample + 10 ^ 9 * k.get F.THR_RESIST_CFG_PROBE_IDLE || k.braked ||
        k.thr.probeAt.isSome then k
    else
      let k1 := (k.count F.THR_EVENTS_PROBES 1).setThr fun x => { x with probeAt := some s.now }
      if dutyPct < 90 && drawW + 40 ≤ k.effective then k1
      else (tiles4.foldl (fun k t => k.setThr fun x =>
        { x with probeLimit := sset 64 x.probeLimit t (1 + bits v.toNat (6 * t) 6 % max 1 (k.rate t - 1)) }) k1).settleRates

/-! ### The thermal cap (R259) -/

/-- RAW in whole watts. -/
def rawCap (coolant est : Nat) : Nat := (1600 - coolant) * 625 / est
/-- THERMAL_CAP_COMPUTE (R259), at every whole multiple of 100 ms of fleet time after PKC release. -/
def execThermalCapCompute (p : PkgId) (s : State) : Out :=
  onPkg p s fun k =>
    if k.est = 0 then k
    else
      let raw := rawCap k.coolant k.est
      let k1 := (k.put F.THR_CAP_RAW (min 4095 raw)).put F.THR_CAP_CAP (max 150 (min 1150 (raw / 5 * 5)))
      ((k1.setThr fun x => { x with rawLow := decide (raw < 150) }).judgeResist s.now).recap

/-! ### The dead-reckoning unit (R260–R265) -/

/-- The node of a physical core. -/
def coreNode (q : Nat) : Nat := 8 * (q / 48) + q % 48 / 6
/-- The heading that governs a slot at step `h` of a forecast from fleet time `t`: the one committed last (R269). -/
def Pkg.headingAt (k : Pkg) (t h c : Nat) : Option Heading :=
  (k.thr.headings.filter fun x => (x.core = c || x.core = 192 + k.phys c / 48) && x.start < t + h * 10 ^ 6 && t + (h - 1) * 10 ^ 6 < x.stop).getLast?
/-- A core that is held off or absent has no power in the model. -/
def Pkg.coreIdleForever (k : Pkg) (c : Nat) : Bool :=
  k.dark.dark.contains (.core ⟨c % 192, Nat.mod_lt _ (by decide)⟩, .holdOff) ||
    (!k.chart.active.isEmpty && coreSkein k.chart.active k.idx c = 0xFF)
/-- What a slot's heading adds to its node's power at step `h`, in mW (R262). -/
def Pkg.headingMw (key : Nat) (duty : List Nat) (t h : Nat) (k : Pkg) (c : Nat) : Rat :=
  match k.headingAt t h c with
  | none => 0
  | some x =>
    if k.coreIdleForever c then 0
    else
      let q := k.phys c
      ((min x.intensity (k.rateLimit (q / 48)) : Nat) - (duty.getD q 0 : Nat) : Rat) / 64 * (Config.coreFullMw key (k.point (q / 48)) : Nat)
def nodes : List Nat := List.range 64
def Pkg.nodeMw (key : Nat) (powerMw duty : List Nat) (t h n : Nat) (k : Pkg) : Rat :=
  (powerMw.getD n 0 : Nat) +
    (((List.range 192).filter fun c => coreNode (k.phys c) = n).map (k.headingMw key duty t h)).foldl (· + ·) 0
/-- One step of the model: t + a (t − t_c) + b p. -/
def modelStep (key : Nat) (scale : Rat) (tc : Nat) (temps powers : List Rat) : List Rat :=
  nodes.map fun n =>
    temps.getD n 0 + (nodes.map fun j => Config.druA key scale n j * (temps.getD j 0 - tc)).foldl (· + ·) 0 +
      (nodes.map fun j => Config.druB key n j * powers.getD j 0).foldl (· + ·) 0
/-- Node temperatures of steps 1 to `n`, first step first. -/
def Pkg.horizon (key : Nat) (scale : Rat) (powerMw duty : List Nat) (t h : Nat) (temps : List Rat) (k : Pkg) : Nat → List (List Rat)
  | 0 => []
  | n + 1 =>
    let next := modelStep key scale k.coolant temps (nodes.map fun j => k.nodeMw key powerMw duty t h j)
    next :: Pkg.horizon key scale powerMw duty t (h + 1) next k n
/-- The largest of (temperature, node, step): the first step, then the first node, where several are equal (log 34). -/
def peakOf (l : List (List Rat)) : Rat × Nat × Nat :=
  ((indexed l).flatMap fun e => (indexed e.2).map fun x => (x.2, x.1, e.1 + 1)).foldl
    (fun a b => if a.1 < b.1 then b else a) ((l.headD []).getD 0 0, 0, 1)
def tempWord (x : Rat) : Nat := min 65535 x.floor.toNat
/-- The tiles with three or more failed sensors hold FRATE of a C-tile at 32 (R265). -/
def Pkg.sensorHold (k : Pkg) (t : Nat) : Bool :=
  (List.range 8).any fun n => (n = t || 4 ≤ n) && 3 ≤ (k.thr.sensorBad.filter fun b => b / 8 = n).length
/-- Set a FRATE. Falling from 64 counts one throttle and abandons a probe pulse (R257, R263). -/
def Pkg.setFrate (t v : Nat) (k : Pkg) : Pkg :=
  let v1 := if k.sensorHold t then min v 32 else v
  let k1 := if k.frate t = 64 ∧ v1 < 64 then (k.count F.THR_EVENTS_THROTTLES 1).endProbe true else k
  k1.put (frateFld t) v1
/-- FORECAST is live while any FRATE is below 64. -/
def Pkg.judgeForecast (k : Pkg) : Pkg := (k.alarm 2 (tiles4.any fun t => k.frate t < 64)).settleRates
/-- A throttle brings the next rotation of the tile's sets forward (R274). -/
def Pkg.pullRotas (now t : Nat) (k : Pkg) : Pkg :=
  let pull (x : Rota) : Rota :=
    if x.members.any (fun c => k.phys c / 48 = t) && x.lastAt + 5 * 10 ^ 6 ≤ now && !x.migrating then { x with due := min x.due now } else x
  k.setThr fun y => { y with rotas := y.rotas.map fun e => (e.1, pull e.2) }
/-- FRATE after a step with its peak (R263). -/
def Pkg.throttle (now : Nat) (peak : Rat) (node : Nat) (k : Pkg) : Pkg :=
  let k1 := tiles4.foldl (fun k t =>
    if (1600 : Rat) ≤ peak && (32 ≤ node || node / 8 = t) then (k.pullRotas now t).setFrate t (max 1 (k.frate t - 8))
    else if peak ≤ (1568 : Rat) && k.frate t < 64 then k.setFrate t (k.frate t + 1)
    else k) k
  k1.judgeForecast
/-- Where the model starts a node: its measured temperature, or 5 K above the model's own value if its sensor has failed
(log 33). -/
def Pkg.startTemp (meas : List Nat) (k : Pkg) (n : Nat) : Rat :=
  if k.thr.sensorBad.contains n then sget (k.coolant : Rat) k.thr.modelTemp n + 80 else (meas.getD n 0 : Nat)
/-- DRU_STEP (R261): the measured temperatures and node powers, and each core's duty in 64ths. -/
def execDruStep (p : PkgId) (meas powerMw : List Nat) (duty : List Nat) (s : State) : Out :=
  onPkg p s fun k =>
    if k.pwr.govHold then k
    else
      let key := s.moduleKey p
      let scale : Rat := (Config.fusedResist key).toNat / k.est
      let t0 := nodes.map (k.startTemp meas)
      let hz := k.horizon key scale powerMw duty (k.time s.now / 10 ^ 6 * 10 ^ 6) 1 t0 8
      let pk := peakOf hz
      let k1 := nodes.foldl (fun k n =>
        (k.put (F.THR_NODE_MEAS n) (if k.thr.sensorBad.contains n then 0xFFFF else min 0xFFFE (meas.getD n 0))).put (F.THR_NODE_PRED n)
          (tempWord ((hz.map fun l => l.getD n 0).foldl max ((hz.headD []).getD n 0)))) k
      let k2 := ((k1.put F.THR_FORECAST_PEAK (tempWord pk.1)).put F.THR_FORECAST_NODE pk.2.1).put F.THR_FORECAST_STEP pk.2.2
      let first := hz.headD []
      let own (n : Nat) : Rat := first.getD n 0 - (if k.thr.sensorBad.contains n then 80 else 0)
      let k3 := k2.setThr fun x => { x with modelTemp := nodes.foldl (fun m n => sinsert m n (own n)) [] }
      k3.throttle s.now pk.1 pk.2.1
/-- SENSOR_FAIL (R265). -/
def execSensorFail (p : PkgId) (n : Fin 64) (s : State) : Out :=
  onPkg p s fun k =>
    if k.thr.sensorBad.contains n.val then k
    else
      let k1 := (k.setThr fun x => { x with sensorBad := x.sensorBad ++ [n.val] }).put (F.THR_NODE_MEAS n.val) 0xFFFF
      let k2 := (if k1.alarmLive 4 then k1 else k1.raise s.now (det 255 3) 0 0).alarm 4 true
      (tiles4.foldl (fun k t => if k.sensorHold t then k.setFrate t (k.frate t) else k) k2).judgeForecast

/-! ### Junction trip and shutdown (R266, R267) -/

/-- JUNCTION_TRIP: every C-tile's RATE is at most 1. -/
def execJunctionTrip (p : PkgId) (n : Fin 64) (temp : BitVec 16) (s : State) : Out :=
  onPkg p s fun k =>
    if temp.toNat < 1680 || k.alarmLive 3 then k
    else ((k.put (F.THR_NODE_MEAS n.val) temp.toNat).alarm 3 true).settleRates.raise s.now (det 255 2) 0 0
/-- JUNCTION_TRIP_RELEASE: RATE rises again under R244. -/
def execJunctionTripRelease (p : PkgId) (s : State) : Out := onPkg p s fun k => if k.alarmLive 3 then ((k.alarm 3 false).settleRates).conditionEnd s.now else k
/-! ### Headings (R268–R270) -/

def Pkg.setUsed (k : Pkg) : Pkg := k.put F.THR_HEAD_STATUS_USED k.thr.headings.length
def Pkg.seen (b : Nat) (k : Pkg) : Pkg := k.orBits F.THR_ALARM_SEEN (2 ^ b)
/-- One of the words W0–W2 of a requester. -/
def Pkg.headWord (k : Pkg) (who : Requester) (i : Nat) : Nat := (sget 0 k.thr.headWords (4 * who.key + i)).toNat
def Pkg.headWrite (who : Requester) (i : Nat) (w : Word) (k : Pkg) : Pkg :=
  k.setThr fun x => { x with headWords := sset 0 x.headWords (4 * who.key + i) w }
/-- The core a heading's pre-wake slot names. -/
def headCore (c : Nat) : Nat := if c < 192 then c else 48 * (c - 192)
/-- A write of THR_HEAD_W3 commits the requester's four words. -/
def commitHeading (now : Nat) (p : PkgId) (who : Requester) (w3 : Word) (m : Mem) (k : Pkg) : Mem × Pkg :=
  let start := k.headWord who 0 + 2 ^ 32 * k.headWord who 1
  let w2 := k.headWord who 2
  let core := bits w2 0 8
  let intensity := bits w2 8 8
  let ms := bits w2 16 8
  let t := k.time now
  if 2 ^ 24 ≤ w2 || ms = 0 || 64 < intensity || 195 < core || 1 < w3.toNat || t + 10 ^ 10 < start then (m, k.seen 6)
  else if 32 ≤ k.thr.headings.length then (m, k.seen 5)
  else
    let x : Heading := ⟨max start t, start + ms * 10 ^ 6, intensity, core⟩
    let k1 := if t < x.stop then (k.setThr fun y => { y with headings := y.headings ++ [x] }).setUsed else k
    if bit w3.toNat 0 && !k.coreIdleForever (headCore core) then armSlot now p ⟨x.start, headCore core, x.stop - x.start, false⟩ m k1
    else (m, k1)
/-- HEADING_EXPIRY (R269): dropped at START + DURATION. -/
def execHeadingExpiry (p : PkgId) (i : Fin 32) (s : State) : Out :=
  onPkg p s fun k =>
    match k.thr.headings[i.val]? with
    | some x => if x.stop ≤ k.time s.now then (k.setThr fun y => { y with headings := y.headings.eraseIdx i.val }).setUsed else k
    | none => k

/-! ### Stitch rotation (R271–R274) -/

/-- The sets of a package's ROTA records, as (set, INTERVAL, members). -/
def rotaSets (img : List Byte) (n : Nat) : List (Nat × Nat × List Nat) :=
  ((rotaRecs img).filter fun r => r.1 = recIdx img n).map fun r => r.2
/-- The sets of an image's ROTA activate with shift 0. -/
def Pkg.takeRota (now : Nat) (img : List Byte) (k : Pkg) : Pkg :=
  let sets := if img.isEmpty then [] else rotaSets img k.idx
  let k1 := (List.range 32).foldl (fun k i => k.setRg (R.THR_ROTA i) 0) k
  let k2 := sets.foldl (fun k x => ((k.put (F.THR_ROTA_INTERVAL x.1) x.2.1).put (F.THR_ROTA_MEMBERS x.1) x.2.2.length).flag
    (F.THR_ROTA_ACTIVE x.1) true) k1
  k2.setThr fun y => { y with rotas := sets.foldl (fun m x => sinsert m x.1 ⟨x.2.2, x.2.1, now + 10 ^ 6 * x.2.1, now, false⟩) [], rotaWait := none }
def Pkg.migrates (k : Pkg) : Bool := k.thr.rotas.any (fun e => e.2.migrating)
/-- ROTA of an image takes effect; a migration in progress completes first (Table 6.2). -/
def Pkg.applyRota (now : Nat) (img : List Byte) (k : Pkg) : Pkg :=
  if k.migrates then k.setThr fun y => { y with rotaWait := some img } else k.takeRota now img
/-- A core in Run or Idle that is not waking. -/
def Pkg.running (k : Pkg) (c : Nat) : Bool := k.pstate c < 2 && !k.aon.waking.contains c && !k.coreDark c
def Pkg.claspTied (k : Pkg) (c : Nat) : Bool :=
  k.mem.clasps.any fun x => x.holder = c || x.store = c || x.waiters.any (fun w => w.core = c)
/-- The conditions of R272. -/
def Pkg.mayRotate (x : Rota) (k : Pkg) : Bool :=
  x.members.all (fun c => k.running c && !k.claspTied c && !k.coreHalted c) && !k.alarmLive 3
def Pkg.setRota (i : Nat) (x : Rota) (k : Pkg) : Pkg := k.setThr fun y => { y with rotas := sinsert y.rotas i x }
/-- ROTATION_DUE (R272, R273): the shift rises by 1, and the slots pause until the migration ends. State that belongs to a slot is held
under its slot, so it needs no move. None starts while the sets of another Chart wait for a migration to complete (DESIGN CHOICE, log 88). -/
def execRotationDue (p : PkgId) (set : Fin 32) (s : State) : Out :=
  onPkg p s fun k =>
    match sfind k.thr.rotas set.val with
    | none => k
    | some x =>
      if x.migrating || s.now < x.due || !k.mayRotate x || k.thr.rotaWait.isSome then k
      else (k.put (F.THR_ROTA_SHIFT set.val) ((k.get (F.THR_ROTA_SHIFT set.val) + 1) % x.members.length)).setRota set.val
        { x with migrating := true, lastAt := s.now, due := s.now + 10 ^ 6 * x.intervalMs }
/-- ROTATION_SKIP (R272): 100 µs after the due time. -/
def execRotationSkip (p : PkgId) (set : Fin 32) (s : State) : Out :=
  onPkg p s fun k =>
    match sfind k.thr.rotas set.val with
    | none => k
    | some x =>
      if x.migrating || s.now < x.due + 100000 then k
      else (k.count F.THR_EVENTS_ROTA_SKIPS 1).setRota set.val { x with due := x.due + 10 ^ 6 * x.intervalMs }
/-- MIGRATION_END (R273): the slots resume; requests held for them are served again, and a halt that waited takes effect (R361). -/
def execMigrationEnd (p : PkgId) (set : Fin 32) (s : State) : Out :=
  onPkg p s fun k =>
    match sfind k.thr.rotas set.val with
    | none => k
    | some x =>
      let k1 := k.setRota set.val { x with migrating := false }
      let k2 := match k1.thr.rotaWait with
        | some img => if k1.migrates then k1 else k1.takeRota s.now img
        | none => k1
      x.members.foldl (fun k c => k.haltIfWanted s.now c) k2

end Sys2Proof.Machine
end

