-- ==== Sys2Proof/Machine/Turn.lean ====
section
/-! DEFINITION. The Chart slots and the turn (R119–R138, R370): loading and validating a shadow image, ordering a turn, and every
step of a turn that is taken or withdrawn. -/

namespace Sys2Proof.Machine
open Sys2Proof

/-- The Chart engine takes no part while it is isolated (Table 15.2) or the package is dark. -/
def Pkg.chartOff (k : Pkg) : Bool := 3 ≤ k.unitState 249 || k.pkgDark
def chartPkg (p : PkgId) (s : State) (f : Pkg → Pkg) : Out := onPkg p s fun k => if k.chartOff then k else f k
def Pkg.setChart (f : ChartSt → ChartSt) (k : Pkg) : Pkg := { k with chart := f k.chart }
def Pkg.putShadow (v : Nat) (k : Pkg) : Pkg := k.put F.CHT_SLOT_STATUS_SHADOW_STATE v
def Pkg.putPhase (v : Nat) (k : Pkg) : Pkg := k.put F.CHT_TURN_STATUS_PHASE v

/-! ### Loading (R120, R121) and validation (R114) -/

/-- Empty the shadow slot. -/
def Pkg.emptyShadow (k : Pkg) : Pkg :=
  (((k.setChart fun c => { c with shadow := [], loadPort := false, loadDma := false }).putShadow 0).setRg R.CHT_SHADOW_EPOCH 0).csuStop 4
    (fun x => x.space = 3)
/-- BEGIN_PORT or BEGIN_DMA. -/
def Pkg.beginLoad (dma : Bool) (k : Pkg) : Pkg :=
  if k.chartOff then k
  else if k.shadowState = 5 then k.flag F.CHT_SLOT_STATUS_LOAD_REFUSED true
  else
    let len := k.get F.CHT_LOAD_LEN_LEN
    let k1 := k.wakeForChart.emptyShadow
    let k2 := (k1.put F.CHT_SLOT_STATUS_CODE 0).setRg R.CHT_FAULT_WHERE 0
    let k3 := k2.setChart fun c => { c with loadPort := !dma && decide (len ≠ 0), loadDma := dma, loadLen := len }
    if len = 0 ∧ !dma then (k3.putShadow 2).csuValidate else k3.putShadow 1
/-- CANCEL; ignored while TURNING. -/
def Pkg.cancelLoad (k : Pkg) : Pkg := if k.shadowState = 5 then k else k.emptyShadow
/-- Append bytes to the shadow image; the last ones start validation. -/
def Pkg.loadBytes (data : List Byte) (k : Pkg) : Pkg :=
  let img := (k.chart.shadow ++ data).take k.chart.loadLen
  let done := decide (k.chart.loadLen ≤ img.length)
  let k1 := k.setChart fun c => { c with shadow := img, loadPort := c.loadPort && !done, loadDma := c.loadDma && !done }
  let k2 := if 256 ≤ img.length then k1.setRg R.CHT_SHADOW_EPOCH (BitVec.ofNat 32 (chEpoch img)) else k1
  if done then (k2.putShadow 2).csuValidate else k2
/-- A word written to CHT_LOAD_DATA; outside a port-mode load it is discarded. -/
def Pkg.loadWord (w : Word) (k : Pkg) : Pkg := if k.chart.loadPort && !k.chartOff then k.loadBytes (leBytes 4 w.toNat) else k
/-- DMA_LOAD_END: the image has come from host memory; nothing comes while the host port is in reset. -/
def execDmaLoadEnd (p : PkgId) (s : State) : Out :=
  chartPkg p s fun k =>
    if k.chart.loadDma ∧ !k.pkc.hostInReset then
      k.loadBytes (memRead s.mem (memKey p 3 (k.wide R.CHT_LOAD_SRC_LO)) k.chart.loadLen)
    else k
/-- Placed or granted storage lies in the save area (R74). -/
def Pkg.saveUsed (k : Pkg) : Bool :=
  k.mem.segs.any (fun e => e.2.tier = 2 && hbmBytes - saveArea < e.2.off + 4096 * e.2.pages) ||
  k.mem.grants.any (fun g => hbmBytes - saveArea < g.base + 4096 * g.pages)
/-- The outcome of validation; an isolated security block verifies no signature (Table 15.2). -/
def Pkg.validation (k : Pkg) : Nat × Nat × Nat :=
  let r := validate ⟨k.addr, k.idx, k.chart.active, k.upd.chartKeys, k.saveUsed⟩ k.chart.shadow
  if 3 ≤ k.unitState 250 ∧ (r.1 = 0 ∨ 9 < r.1) then (9, 0, 0) else r
/-- VALIDATION_END: unit 0 has scanned the sections (R84, R114). -/
def execValidationEnd (p : PkgId) (s : State) : Out :=
  chartPkg p s fun k =>
    if k.shadowState ≠ 2 then k
    else
      let r := k.validation
      ((k.csuValidated.putShadow (if r.1 = 0 then 3 else 4)).put F.CHT_SLOT_STATUS_CODE r.1).setRg R.CHT_FAULT_WHERE
        (BitVec.ofNat 32 (r.2.1 * 2 ^ 28 + r.2.2))

/-! ### Regions (R112, R127, R137) -/

/-- The regions of the turn: those of the new image, or in a fleet turn the rack as one region. -/
def Pkg.turnSet (k : Pkg) : List (Nat × Nat × Nat) :=
  match k.chart.fleet with
  | some (o, w) => [(o, w, 2 ^ 96 - 1)]
  | none => turnRegions k.chart.shadow
def Pkg.membersOf (k : Pkg) (o : Nat) : List Nat :=
  (List.range 96).filter fun n => k.turnSet.any fun r => r.1 = o && bit r.2.2 n
def Pkg.leadOf (k : Pkg) (o : Nat) : Nat := (k.membersOf o).headD 0
def Pkg.turnWindow (k : Pkg) (o : Nat) : Nat := ((k.turnSet.find? (fun r => r.1 = o)).map (·.2.1)).getD 0
def Pkg.ownRegion (k : Pkg) : Nat := k.get F.CHT_TURN_STATUS_OWN_REGION
def Pkg.curRegion (k : Pkg) : Nat := k.get F.CHT_TURN_STATUS_CUR_REGION
/-- The last region of a rack turn; a fleet turn retires when the fleet's last region has committed. -/
def Pkg.lastOfTurn (k : Pkg) (o : Nat) : Bool := k.chart.fleet.isNone && o = lastRegion k.chart.shadow
def Pkg.isLead (k : Pkg) (o : Nat) : Bool := k.leadOf o = k.idx && (k.membersOf o).contains k.idx
/-- The epoch bit of an image. -/
def epochBit (img : List Byte) : Bool := chEpoch img % 2 = 1
def Pkg.setStamp (b : Bool) (k : Pkg) : Pkg := k.flag F.CHT_SLOT_STATUS_STAMP b
def Pkg.setOwn (v : Nat) (k : Pkg) : Pkg := k.put F.CHT_TURN_STATUS_OWN_STATE v
def Pkg.turnCause (cause region : Nat) (k : Pkg) : Pkg :=
  (k.put F.CHT_TURN_CAUSE_CAUSE cause).put F.CHT_TURN_CAUSE_CAUSE_REGION region

/-! ### Messages (R128) -/

def mDrained : Nat := 1
def mCommit : Nat := 2
def mAbort : Nat := 3
def mWithdrawn : Nat := 4
/-- A turn message of this package. -/
def Pkg.turnMsg (k : Pkg) (o cause : Nat) (tr : Option Nat) : TurnMsg :=
  { epoch := k.chart.goEpoch, order := BitVec.ofNat 8 o, sender := ⟨k.idx % 96, Nat.mod_lt _ (by decide)⟩, t0 := k.chart.goT0,
    cause := BitVec.ofNat 4 cause, tr := tr }
/-- The in-service row and column links. -/
def Pkg.floodPorts (k : Pkg) : List Nat := (List.range 20).filter fun q => (portPeer k.idx q).isSome && inService (k.port q).state
/-- Send a flood out of every in-service row and column link, remembering it so that copies are not relayed. -/
def Pkg.sendFlood (kind : Nat) (m : TurnMsg) (k : Pkg) : Pkg :=
  (k.setChart fun c => { c with seen := c.seen ++ [(kind, m)] }).emit (.flood kind m k.floodPorts)
/-- A message of the turn in progress. -/
def Pkg.ofTurn (k : Pkg) (m : TurnMsg) : Bool := k.turning && m.epoch = k.chart.goEpoch && m.t0 = k.chart.goT0

/-! ### Local settings and the ends of a turn (Table 6.2, R126, R135) -/

/-- A core released from hold-off leaves reset, idle. -/
def Pkg.leaveHold (now : Nat) (c : Core) (k : Pkg) : Pkg :=
  ((k.removeDark (fun e => decide (e = (.core c, .holdOff)))).setDomains true (coreDomains (k.phys c.val))).toIdle now c.val
/-- A core that a Chart holds off goes dark, its domains off. -/
def Pkg.holdCore (now : Nat) (c : Core) (k : Pkg) : Pkg :=
  (k.goDark now (.core c) .holdOff).setDomains false [k.phys c.val, 192 + k.phys c.val]
/-- A core is released from hold-off; its incarnation rises, at once or when R60 allows. -/
def Pkg.releaseHold (now : Nat) (c : Core) (k : Pkg) : Pkg :=
  if k.incReady c.val ≤ now then (k.leaveHold now c).bumpCore now c.val
  else if k.dark.heldResets.contains (.core c) then k
  else { k with dark := { k.dark with heldResets := k.dark.heldResets ++ [.core c] } }
/-- A Bearing engine that a Chart holds off stays off, and what it had is lost (R104, log 89); a released one is powered with its tile. -/
def Pkg.holdEngine (held : Bool) (t : Nat) (k : Pkg) : Pkg :=
  if held then { k.setDomains false [388 + t] with brg := serase k.brg t, mem := { k.mem with written := k.mem.written.filter (fun w => w.1 ≠ t) } }
  else if k.domainOn (384 + t) then k.setDomains true [388 + t] else k
/-- PDOM: the policy, and cores and engines newly held off or released (Table 6.2). -/
def Pkg.applyPdom (now : Nat) (img : List Byte) (k : Pkg) : Pkg :=
  let n := k.idx
  let k1 := k.setRg R.AON_PDOM_POLICY (BitVec.ofNat 32 (if img.isEmpty then 0 else
    pdomNap img n + pdomDoze img n * 2 ^ 8 + pdomFurl img n * 2 ^ 16 + pdomMoor img n * 2 ^ 20 + (pdomSave img n).toNat * 2 ^ 28))
  let k2 := (List.finRange 192).foldl (fun k c =>
    let held := k.dark.dark.contains (.core c, .holdOff)
    if holdOff img n c.val && !held then k.holdCore now c
    else if holdOff img n c.val && !k.dark.dark.contains (.core c, .reset) then { k with dark := { k.dark with heldResets := k.dark.heldResets.erase (.core c) } }
    else if !holdOff img n c.val && held then k.releaseHold now c else k) k1
  (List.range 4).foldl (fun k t => k.holdEngine (holdOff img n (192 + t)) t) k2
/-- PDOM, CAPS and ROTA of an image take effect. -/
def Pkg.applyLocal (now : Nat) (img : List Byte) (k : Pkg) : Pkg := ((k.applyPdom now img).applyCaps img).applyRota now img
/-- Trees that an image adds or changes start fresh (R178). -/
def Pkg.freshTrees (old new : List Byte) (k : Pkg) : Pkg :=
  let changed (t : Nat) : Bool := treeRec old t ≠ treeRec new t
  k.setTally fun y => { y with
    last := y.last.filter (fun e => !changed (e.1 % 64)), closed := y.closed.filter (fun e => !changed e.1),
    slots := y.slots.filter (fun x => !changed x.tree) }
/-- The shadow image becomes the active one, and the shadow slot is emptied. -/
def Pkg.swapSlots (k : Pkg) : Pkg :=
  let img := k.chart.shadow
  let k1 := (k.freshTrees k.chart.active img).csuStop 4 (fun x => x.space = 2)
  let k2 := (k1.setChart fun c => { c with active := img, bank2 := false, prepared := false, tr := none }).emptyShadow
  ((k2.setRg R.CHT_ACTIVE_EPOCH (BitVec.ofNat 32 (chEpoch img))).put F.CHT_SLOT_STATUS_ACTIVE_STATE (if chSafe img then 1 else 2)).setStamp
    (epochBit img)
/-- A turn ends: RESULT 1 TAKEN, 2 WITHDRAWN, 3 REFUSED. -/
def Pkg.endTurn (result : Nat) (k : Pkg) : Pkg :=
  ((k.putPhase 0).put F.CHT_TURN_STATUS_RESULT result).setChart fun c =>
    { c with entered := [], committed := [], wdSeq := [], drainedFrom := [], withdrawnFrom := [], tr := none, fleet := none }
/-- Discard the packets of an epoch bit that the package's routers hold. -/
def Pkg.purgeEpoch (b : Bool) (k : Pkg) : Pkg := k.purgeAll .epoch (fun pk => pk.epoch == b)
/-- Both banks and the shadow slot as they were before the turn. -/
def Pkg.endWithdrawn (result : Nat) (k : Pkg) : Pkg :=
  let k1 := (k.setStamp (epochBit k.chart.active)).setChart fun c => { c with bank2 := false, prepared := false }
  ((if k1.shadowState = 5 then (k1.purgeEpoch (epochBit k1.chart.shadow)).putShadow 3 else k1).endTurn result).setOwn
    (if k.ownState = 0 then 0 else 4)

/-! ### Withdrawal (R134–R136) -/

/-- A package of a region has withdrawn: what it holds of the new epoch is discarded, and its lead is told. -/
def Pkg.withdrawn (k : Pkg) : Pkg :=
  let o := k.ownRegion
  let k1 := (k.purgeEpoch (epochBit k.chart.shadow)).setOwn 4
  if k1.isLead o then k1.setChart fun c => { c with withdrawnFrom := c.withdrawnFrom ++ [k1.idx] }
  else k1.emit (.toLead mWithdrawn (k1.leadOf o) (k1.turnMsg o 0 none))
/-- The region at the front of the withdrawal begins; a package that never entered answers at once. In a fleet turn a rack that has withdrawn waits
for the others (R137). -/
def Pkg.beginWithdraw (now : Nat) (k : Pkg) : Pkg :=
  match k.chart.wdSeq with
  | [] => if k.chart.fleet.isSome then k else k.endWithdrawn 2
  | o :: _ =>
    let k1 := (k.put F.CHT_TURN_STATUS_CUR_REGION o).setChart fun c => { c with withdrawAt := k.time now }
    if k1.ownRegion ≠ o then k1
    else if k1.ownState = 1 ∨ k1.ownState = 2 then
      let k2 := if k1.ownState = 2 then (k1.setOwn 3).applyLocal now k1.chart.active else k1.setOwn 3
      k2.setStamp (epochBit k2.chart.active)
    else if k1.ownState = 0 then k1.withdrawn
    else k1
/-- The flood of TURN_WITHDRAWN for a region: the next one begins, and after the last the turn ends (R135). -/
def Pkg.onWithdrawn (now o : Nat) (k : Pkg) : Pkg :=
  if k.phase ≠ 5 ∨ k.chart.wdSeq.head? ≠ some o then k
  else
    let k1 := if k.ownRegion = o ∧ k.ownState = 3 then (k.purgeEpoch (epochBit k.chart.shadow)).setOwn 4 else k
    (k1.setChart fun c => { c with wdSeq := c.wdSeq.drop 1 }).beginWithdraw now
/-- A package floods TURN_WITHDRAWN for the region that withdraws. -/
def Pkg.floodWithdrawn (now : Nat) (k : Pkg) : Pkg :=
  match k.chart.wdSeq with
  | [] => k
  | o :: _ => (k.sendFlood mWithdrawn (k.turnMsg o 0 none)).onWithdrawn now o
/-- The lead floods TURN_WITHDRAWN when it holds one from every package of its region. -/
def Pkg.leadWithdrawn (now : Nat) (k : Pkg) : Pkg :=
  let o := k.ownRegion
  if k.phase = 5 ∧ k.chart.wdSeq.head? = some o ∧ k.isLead o ∧ (k.membersOf o).all k.chart.withdrawnFrom.contains then k.floodWithdrawn now else k
/-- The regions that have entered withdraw, the failing one first; with none entered the turn ends. The causes of a refused GO end it REFUSED
(R123, R134). -/
def Pkg.withdrawAll (now o cause : Nat) (k : Pkg) : Pkg :=
  let k1 := k.turnCause cause o
  if k1.chart.entered = [] then k1.endWithdrawn (if cause ≤ 5 ∨ cause = 11 then 3 else 2)
  else ((k1.putPhase 5).setChart fun c => { c with wdSeq := o :: (k1.chart.entered.reverse.filter (· ≠ o)) }).beginWithdraw now
/-- A TURN_ABORT acts, unless the region's TURN_COMMIT came before it (R128). -/
def Pkg.onAbort (now o cause : Nat) (k : Pkg) : Pkg :=
  if k.chart.committed.contains o || 4 ≤ k.phase then k else k.withdrawAll now o cause
/-- A rack of a fleet turn that has entered, committed or not, withdraws because a rack in another region failed (R137). -/
def Pkg.fleetWithdraw (now o cause : Nat) (k : Pkg) : Pkg :=
  if k.phase = 3 then (k.withdrawAll now k.ownRegion cause).turnCause cause o else k
/-- A package floods TURN_ABORT and acts on it itself. -/
def Pkg.abortTurn (now o cause : Nat) (k : Pkg) : Pkg := (k.sendFlood mAbort (k.turnMsg o cause none)).onAbort now o cause

/-! ### Ordering a turn (R122, R123, R125) -/

/-- Why a GO is refused: a cause of CHT_TURN_CAUSE. -/
def Pkg.goRefusal (now : Nat) (k : Pkg) : Option Nat :=
  let t0 := k.wide R.CHT_TURN_AT_LO
  let oneStep := k.chart.active.isEmpty || (!k.chart.shadow.isEmpty && chScope k.chart.shadow = 0)
  if (k.rg R.CHT_TURN_LEASE).toNat < k.chart.leaseMax then some 1
  else if k.turning then some 5
  else if t0 < k.time now + 10000000 then some 4
  else if k.shadowState = 3 ∧ chEpoch k.chart.shadow ≠ (k.rg R.CHT_TURN_EPOCH).toNat then some 2
  else if oneStep ∧ k.activePorts ≠ [] then some 11
  else none
/-- GO (R122, R123). A refused GO floods TURN_ABORT for the order it carries, which acts on the turn in progress if that is its epoch and T0
(log 30). -/
def Pkg.go (now : Nat) (k : Pkg) : Pkg :=
  let t0 := k.wide R.CHT_TURN_AT_LO
  let lease := (k.rg R.CHT_TURN_LEASE).toNat
  let epoch := k.rg R.CHT_TURN_EPOCH
  let same := decide (k.chart.goT0 = t0) && decide (k.chart.goEpoch = epoch)
  if k.chartOff then k
  else if k.turning && same && decide (k.chart.goLease.toNat = lease) then k
  else match k.goRefusal now with
  | some cause =>
    let k1 := k.turnCause cause 0
    let k2 := if k.turning then k1 else k1.put F.CHT_TURN_STATUS_RESULT 3
    if cause = 1 ∨ cause = 11 then k2
    else
      let k3 := k2.sendFlood mAbort { k2.turnMsg 0 cause none with epoch := epoch, t0 := t0 }
      if k.turning && same then k3.onAbort now 0 cause else k3
  | none =>
    ((k.putPhase 1).setOwn 0).setChart fun c =>
      { c with leaseMax := max c.leaseMax lease, goT0 := t0, goEpoch := epoch, goLease := k.rg R.CHT_TURN_LEASE, entered := [],
               committed := [], wdSeq := [], drainedFrom := [], withdrawnFrom := [], tr := none,
               seen := if same then [] else c.seen }
/-- OPERATOR_ABORT: from T0 until the last region's TURN_COMMIT; one under a former lease is refused (R122, R136). In a fleet turn the last region is
the fleet's, so a rack that has committed withdraws too. -/
def Pkg.operatorAbort (now : Nat) (k : Pkg) : Pkg :=
  if k.chartOff then k
  else if (k.rg R.CHT_TURN_LEASE).toNat < k.chart.leaseMax then k.turnCause 1 0
  else if k.phase = 1 ∧ k.time now < k.chart.goT0 then k
  else if k.phase = 3 ∧ k.chart.fleet.isSome then (k.sendFlood mAbort (k.turnMsg k.ownRegion 9 none)).withdrawAll now k.ownRegion 9
  else if 1 ≤ k.phase ∧ k.phase ≤ 3 then k.abortTurn now k.curRegion 9
  else k
/-- The action bits of CHT_TURN_CTRL; ABORT alone acts beside GO (log 30). -/
def Pkg.turnCtrl (now : Nat) (goB abortB : Bool) (k : Pkg) : Pkg :=
  if abortB then k.operatorAbort now else if goB then k.go now else k
/-- The action bits of CHT_LOAD_CTRL. -/
def Pkg.loadCtrl (portB dmaB cancelB : Bool) (k : Pkg) : Pkg :=
  let k1 := if cancelB then k.cancelLoad else k
  if portB then k1.beginLoad false else if dmaB then k1.beginLoad true else k1

/-! ### The steps of a turn (R126, R127) -/

/-- PREPARE, at T0: the shadow slot is checked; a first Chart or an image of package scope is taken in one step while every link is out of service
(R125, R370), and otherwise the second table bank is loaded. -/
def execPrepare (p : PkgId) (s : State) : Out :=
  chartPkg p s fun k0 =>
    let k := if k0.phase = 1 ∧ k0.chart.goT0 ≤ k0.time s.now then k0.wakeForChart else k0
    if k.phase ≠ 1 ∨ k.time s.now < k.chart.goT0 then k
    else if k.shadowState ≠ 3 then k.abortTurn s.now 0 3
    else if chEpoch k.chart.shadow ≠ k.chart.goEpoch.toNat then k.abortTurn s.now 0 2
    else if (k.chart.active.isEmpty ∨ chScope k.chart.shadow = 0) ∧ k.activePorts ≠ [] then (k.turnCause 11 0).endWithdrawn 3
    else if k.chart.active.isEmpty ∨ chScope k.chart.shadow = 0 then
      let img := k.chart.shadow
      (k.swapSlots.applyLocal s.now img).endTurn 1
    else
      let k1 := (k.putPhase 2).putShadow 5
      (k1.setChart fun c => { c with bank2 := true, prepared := true }).put F.CHT_TURN_STATUS_OWN_REGION
        (match k1.chart.fleet with | some (o, _) => o | none => regionOf k1.chart.shadow k1.idx)
/-- PREPARE_DEADLINE, at T0 + 1 ms. -/
def execPrepareDeadline (p : PkgId) (s : State) : Out :=
  chartPkg p s fun k =>
    if k.phase = 1 ∧ k.chart.goT0 + 1000000 ≤ k.time s.now then k.abortTurn s.now 0 6 else k
/-- A region enters; a package of it starts stamping the new bit. -/
def Pkg.enterRegion (now o : Nat) (k : Pkg) : Pkg :=
  let k1 := ((k.putPhase 3).put F.CHT_TURN_STATUS_CUR_REGION o).setChart fun c => { c with entered := c.entered ++ [o] }
  if k1.ownRegion = o ∧ k1.ownState = 0 then
    ((k1.setOwn 1).setStamp (epochBit k1.chart.shadow)).setChart fun c => { c with entryAt := k1.time now }
  else k1
/-- REGION_ENTER: ORDER 0 at T0 + 1 ms; in a fleet turn a later region when the fleet has reached it, and none once it withdraws (R137). -/
def execRegionEnter (p : PkgId) (s : State) : Out :=
  chartPkg p s fun k =>
    if k.phase ≠ 2 ∨ !k.chart.prepared ∨ k.time s.now < k.chart.goT0 + 1000000 then k
    else match k.chart.fleet with
    | some (o, _) => if o ≤ s.fleet.turnRegion ∧ s.fleet.withdrawing = none then k.wakeForChart.enterRegion s.now o else k
    | none => k.wakeForChart.enterRegion s.now 0
/-- TURN_COMMIT acts (R126, R130). -/
def Pkg.onCommit (now o : Nat) (tr : Option Nat) (k : Pkg) : Pkg :=
  if k.phase ≠ 3 ∨ k.chart.committed.contains o then k
  else
    let k1 := k.setChart fun c => { c with committed := c.committed ++ [o] }
    let k2 := if k1.ownRegion = o ∧ k1.ownState = 1 then (k1.setOwn 2).applyLocal now k1.chart.shadow else k1
    if k2.chart.fleet.isSome then k2
    else if k2.lastOfTurn o then (k2.putPhase 4).setChart fun c => { c with tr := tr }
    else k2.enterRegion now (o + 1)
/-- The lead floods TURN_COMMIT when it holds TURN_DRAINED from every package of its region by its entry time plus WINDOW (R127). -/
def Pkg.leadDrained (now : Nat) (k : Pkg) : Pkg :=
  let o := k.ownRegion
  if k.phase = 3 ∧ k.ownState = 1 ∧ k.isLead o ∧ (k.membersOf o).all k.chart.drainedFrom.contains ∧
      k.time now ≤ k.chart.entryAt + k.turnWindow o then
    let tr := if k.lastOfTurn o then some (k.time now + 1000000) else none
    (k.sendFlood mCommit (k.turnMsg o 0 tr)).onCommit now o tr
  else k
/-- DRAIN_END: CHT_OLD_OUT is zero, and the package tells its lead. -/
def execDrainEnd (p : PkgId) (s : State) : Out :=
  chartPkg p s fun k =>
    let o := k.ownRegion
    if k.phase ≠ 3 ∨ k.ownState ≠ 1 ∨ k.oldOut ≠ 0 then k
    else if k.isLead o then (k.setChart fun c => { c with drainedFrom := c.drainedFrom ++ [k.idx] }).leadDrained s.now
    else k.emit (.toLead mDrained (k.leadOf o) (k.turnMsg o 0 none))
/-- TURN_DRAINED reaches the lead, perhaps before the lead's own entry. -/
def Pkg.takeDrained (now : Nat) (m : TurnMsg) (k : Pkg) : Pkg :=
  if k.ofTurn m ∧ m.order.toNat = k.ownRegion then
    (k.setChart fun c => { c with drainedFrom := c.drainedFrom ++ [m.sender.val] }).leadDrained now
  else k
def execTurnDrained (p : PkgId) (m : TurnMsg) (s : State) : Out := chartPkg p s fun k => k.takeDrained s.now m
/-- A flood is relayed once, and acts (R128). -/
def Pkg.takeFlood (kind : Nat) (m : TurnMsg) (act : Pkg → Pkg) (k : Pkg) : Pkg :=
  if k.chart.seen.contains (kind, m) then k
  else
    let k1 := k.wakeForChart.sendFlood kind m
    if k1.ofTurn m then act k1 else k1
def Pkg.takeCommit (now : Nat) (m : TurnMsg) (k : Pkg) : Pkg := k.takeFlood mCommit m (fun k => k.onCommit now m.order.toNat m.tr)
/-- TURN_COMMIT. -/
def execTurnCommit (p : PkgId) (m : TurnMsg) (s : State) : Out := chartPkg p s fun k => k.takeCommit s.now m
/-- A rack's abort under a fleet turn that an operator ordered reaches packages that have committed too. -/
def Pkg.takeAbort (now : Nat) (m : TurnMsg) (k : Pkg) : Pkg :=
  k.takeFlood mAbort m (fun k =>
    if k.chart.fleet.isSome ∧ m.cause = 9 ∧ k.phase = 3 then k.withdrawAll now k.ownRegion 9 else k.onAbort now m.order.toNat m.cause.toNat)
/-- TURN_ABORT. -/
def execTurnAbort (p : PkgId) (m : TurnMsg) (s : State) : Out := chartPkg p s fun k => k.takeAbort s.now m
/-- LEAD_WINDOW_EXPIRY. -/
def execLeadWindowExpiry (p : PkgId) (s : State) : Out :=
  chartPkg p s fun k =>
    let o := k.ownRegion
    if k.phase = 3 ∧ k.ownState = 1 ∧ k.isLead o ∧ k.chart.entryAt + k.turnWindow o ≤ k.time s.now then k.abortTurn s.now o 7 else k
/-- REGION_DEADLINE. -/
def execRegionDeadline (p : PkgId) (s : State) : Out :=
  chartPkg p s fun k =>
    let o := k.ownRegion
    if k.phase = 3 ∧ k.ownState = 1 ∧ k.chart.entryAt + k.turnWindow o + 1000000 ≤ k.time s.now then k.abortTurn s.now o 8 else k
/-- RETIRE, at TR. -/
def execRetire (p : PkgId) (s : State) : Out :=
  chartPkg p s fun k =>
    match k.chart.tr with
    | some t => if k.phase = 4 ∧ t ≤ k.time s.now then ((k.purgeEpoch (epochBit k.chart.active)).swapSlots).endTurn 1 else k
    | none => k
/-- WITHDRAW_WAIT_END: the package's new-stamped traffic has completed, or WINDOW has passed. -/
def execWithdrawWaitEnd (p : PkgId) (s : State) : Out :=
  chartPkg p s fun k =>
    if k.phase = 5 ∧ k.ownState = 3 ∧ (k.oldOut = 0 ∨ k.chart.withdrawAt + k.turnWindow k.ownRegion ≤ k.time s.now) then
      k.withdrawn.leadWithdrawn s.now
    else k
/-- The package that floods TURN_WITHDRAWN for a region at its limit: the lead, or where packages are dark the lowest index of the region, else of
the rack, whose Chart engine works (R136, DESIGN CHOICE, log 90). -/
def State.withdrawLead (s : State) (rack : Fin 32) (members : List Nat) : Option Nat :=
  (members ++ List.range 96).find? fun n => !(s.pkg (pkgOf rack n)).chartOff
/-- WITHDRAW_LIMIT: entry into withdrawal plus WINDOW plus 1 ms. -/
def execWithdrawLimit (p : PkgId) (s : State) : Out :=
  chartPkg p s fun k =>
    match k.chart.wdSeq with
    | o :: _ =>
      if k.phase = 5 ∧ k.chart.withdrawAt + k.turnWindow o + 1000000 ≤ k.time s.now ∧ s.withdrawLead p.rack (k.membersOf o) = some k.idx then
        k.floodWithdrawn s.now
      else k
    | [] => k
/-- TURN_WITHDRAWN: a package of the region tells its lead, or the region's flood. A lead keeps what comes before it withdraws itself. -/
def Pkg.takeWithdrawn (now : Nat) (flood : Bool) (m : TurnMsg) (k : Pkg) : Pkg :=
  if flood then k.takeFlood mWithdrawn m (fun k => k.onWithdrawn now m.order.toNat)
  else if k.ofTurn m ∧ m.order.toNat = k.ownRegion then
    (k.setChart fun c => { c with withdrawnFrom := c.withdrawnFrom ++ [m.sender.val] }).leadWithdrawn now
  else k
def execTurnWithdrawn (p : PkgId) (m : Arrived) (s : State) : Out := chartPkg p s fun k => k.takeWithdrawn s.now m.flood m.msg
/-- The Chart engine absorbs the turn messages that management packets brought (R128). -/
def Pkg.absorb (now : Nat) (k : Pkg) : Pkg :=
  let k0 := k.setChart fun c => { c with arrived := [] }
  if k.chartOff then k0
  else k.chart.arrived.foldl (fun k x =>
    if x.1 = mDrained then k.takeDrained now x.2
    else if x.1 = mCommit then k.takeCommit now x.2
    else if x.1 = mAbort then k.takeAbort now x.2
    else k.takeWithdrawn now (x.1 = 5) x.2) k0

end Sys2Proof.Machine
end

