-- ==== Sys2Proof/Machine/Faults.lean ====
section
/-! DEFINITION. Fault reactions (R317–R336): isolation and reset scopes (Tables 15.2, 15.7), grace expiry and verdicts, exits and
quarantine, releases, and the last words. -/

namespace Sys2Proof.Machine
open Sys2Proof

def Pkg.setFlt (f : FltSt → FltSt) (k : Pkg) : Pkg := { k with flt := f k.flt }
def Pkg.setRun (r : PkcRun) (k : Pkg) : Pkg := { k with pkc := { k.pkc with run := r } }

/-! ### Segments lent by a package that goes dark (R50) -/

/-- The package at a rack index. -/
def indexPkg (rack : Fin 32) (n : Fin 96) : PkgId := ⟨rack, ⟨n.val / 12, by omega⟩, ⟨n.val % 12, by omega⟩⟩
/-- Every package of the rack loses what a lender held. -/
def State.loseLender (rack : Fin 32) (lender : Nat) (s : State) : State :=
  (List.finRange 96).foldl (fun s n => s.setPkg (indexPkg rack n) ((s.pkg (indexPkg rack n)).loseLent lender)) s
/-- The outcome of a change of one package and memory; where the package goes dark by it, what it lent is lost. -/
def onPkgGrave (p : PkgId) (s : State) (f : Mem → Pkg → Mem × Pkg) : Out :=
  let r := f s.mem (s.pkg p)
  let s1 := { s with mem := r.1 }.setPkg p r.2
  .next (if r.2.pkgDark && !(s.pkg p).pkgDark then s1.loseLender p.rack (s.pkg p).addr else s1)

/-! ### PKC start (R287, R344, R350, R378) -/

/-- The PKC starts from the boot source last sampled; an estimate of 0 is seeded, and the sea trial starts. -/
def Pkg.seed (fused : Nat) (k : Pkg) : Pkg :=
  let k1 := k.put F.THR_SEA_TRIAL_FUSED fused
  if k.est ≠ 0 then k1
  else
    (((k1.put F.THR_RESIST_EST_EST (clampI 150 1200 (roundAway (fused * 5) 4)).toNat).flag F.THR_RESIST_EST_SEEDED true).flag
      F.THR_SEA_TRIAL_ACTIVE true).put F.THR_SEA_TRIAL_LOAD_MS 0
/-- The first set points use the guard bands that were written while the PKC was in reset (R246, R248). -/
def Pkg.firstGuards (k : Pkg) : Pkg := tiles4.foldl (fun k t => k.takeGuard t) k
def Pkg.pkcStart (now fused : Nat) (k : Pkg) : Pkg :=
  let run : PkcRun := if k.pkc.bootSrc = 3 then .lifeboat else if k.pkc.bootSrc = 2 then .romWait else .booting
  (((((k.setRun run).flag F.UPD_STATUS_LIFEBOAT (decide (run = .lifeboat))).seed fused).setThr fun x => { x with lastSample := now }).firstGuards.recap).settleRates

/-! ### Isolation and reset scopes (Tables 15.2, 15.7) -/

/-- The reset scope of a unit, as the kind and index of its reaction. -/
def Pkg.scopeOf (k : Pkg) (u : Nat) : Option (Nat × Nat) :=
  if u < 192 then some (1, k.phys u / 48)
  else if u < 196 then some (1, u - 192)
  else if u < 200 then some (1, u - 196)
  else if u < 208 then some (1, (u - 200) / 2)
  else if u < 232 then some (2, (u - 208) / 12)
  else if u < 234 then some (2, u - 232)
  else if u < 238 then some (3, 0)
  else if u < 242 then some (4, 0)
  else if u < 244 then some (2, u - 242)
  else if u < 248 then some (1, u - 244)
  else if u = 251 then some (5, 0)
  else if u = 253 then some (6, 0)
  else if u < 254 then some (4, 0)
  else none
def ctileUnit (t : Nat) : DarkUnit := .ctile ⟨t % 4, Nat.mod_lt _ (by decide)⟩
def ftileUnit (f : Nat) : DarkUnit := .ftile ⟨f % 2, Nat.mod_lt _ (by decide)⟩
def coreUnit (c : Nat) : DarkUnit := .core ⟨c % 192, Nat.mod_lt _ (by decide)⟩
/-- The links of an F-tile that goes dark go down, to train again; one to a dark neighbour leaves PEER_DARK only on its notice (R166). -/
def Pkg.tileLinksDown (now f : Nat) (k : Pkg) : Pkg :=
  (List.range 12).foldl (fun k i =>
    let q := 12 * f + i
    let x := k.port q
    if x.state = .off ∨ x.state = .heldDown ∨ x.state = .peerDark then k
    else (k.setPort q { x with state := .down, training := true, replay := [], sentAt := [], stoppedAt := some (x.stoppedAt.getD now) }).moveToFallback
      now q) k
/-- The isolation of a unit (Table 15.2). A quarantined unit stays dark as one that is fenced. -/
def isolate (now : Nat) (p : PkgId) (u : Nat) (m : Mem) (k : Pkg) : Mem × Pkg :=
  let cause : DarkCause := if k.quarBit u then .fence else .reset
  if u < 192 then (m, k.goDark now (coreUnit u) cause)
  else if u < 196 then (m, k.goDark now (ctileUnit (u - 192)) cause)
  else if u < 200 then brgAbort now p (u - 196) m k
  else if u < 208 then (m, k.stackLost (u - 200))
  else if u < 232 then (m, k.portDo now (u - 208) (fun x => x.holdDown now))
  else if u < 234 then (m, (k.goDark now (ftileUnit (u - 232)) cause).tileLinksDown now (u - 232))
  else if u < 238 then (m, k)
  else if u < 248 then (m, k.csuReset [u - 238])
  else if u = 248 then (m, k.setRun .reset)
  else if u = 251 then (m, k.hostPortOff)
  else if u = 252 then (m, (k.setPwr fun x => { x with govHold := true }).settleRates)
  else if u = 253 then (m, k.setFlt fun x => { x with lwOnly := true })
  else (m, k)
/-- The reset of a scope starts; its reaction shadows its detectors. -/
def Pkg.beginScope (now unit : Nat) (raised : Word) (sc : Nat × Nat) (k : Pkg) : Pkg :=
  (match sc.1 with
    | 1 => k.beginReset now (ctileUnit sc.2)
    | 2 => (k.beginReset now (ftileUnit sc.2)).tileLinksDown now sc.2
    | 3 => k.beginReset now .stile
    | 4 => (((k.csuReset [0, 1, 2, 3]).setRun .reset).setPwr fun x => { x with govHold := true }).settleRates
    | 5 => k.hostPortOff
    | _ => k.setFlt fun x => { x with lwOnly := true }).addReaction ⟨sc.1, sc.2, unit, raised⟩
/-- The package may bring its links into service: it is admitted and has an address (R37). -/
def Pkg.mayTrain (k : Pkg) : Bool := k.pkc.admitted && decide (k.rg R.AON_PKG_ADDR ≠ resetWord R.AON_PKG_ADDR)
/-- A unit whose isolation has no dark entry returns to service when its scope's reset ends, unless it is quarantined (R323): a link port
that is isolated leaves HELD_DOWN, and the PCIe port leaves reset where its link meets R61 (DESIGN CHOICE, log 96). -/
def Pkg.backToService (now unit : Nat) (k : Pkg) : Pkg :=
  if k.unitState unit ≠ 3 then k
  else if 208 ≤ unit ∧ unit < 232 then k.portDo now (unit - 208) (PortSt.release k.mayTrain)
  else if unit = 251 then { k with pkc := { k.pkc with hostInReset := decide (k.pkc.hostGts < 16 ∨ k.pkc.hostWidth < 8) } }
  else k
/-- What the end of a scope's reset lifts: the dark entries of the scope, and the unit's isolation unless it is quarantined. -/
def Pkg.endScope (now fused unit : Nat) (sc : Nat × Nat) (k : Pkg) : Pkg :=
  let k1 := match sc.1 with
    | 1 => k.endReset (ctileUnit sc.2)
    | 2 => k.endReset (ftileUnit sc.2)
    | 3 => k.endReset .stile
    | 4 => ((k.setPwr fun x => { x with govHold := 3 ≤ k.unitState 252 && decide (unit ≠ 252) }).pkcStart now fused).settleRates
    | _ => k
  if unit < 192 then k1.endReset (coreUnit unit) else k1.backToService now unit
/-- The log memory's test after its re-initialisation: a pass resumes logging (R335). -/
def Pkg.testLog (now : Nat) (unit : UnitSt) (pass : Bool) (k : Pkg) : Pkg :=
  let k1 := k.setFlt fun x => { x with log := [], lastOf := [] }
  if pass then (k1.setFlt fun x => { x with lwOnly := false }).log now (logEntry clsUC 11 unit.detector 253 fHardware unit.raised) else k1

/-- The isolation of a unit ends: the reset of its scope starts (R323). A quarantined unit stays isolated. -/
def isolationDone (now : Nat) (p : PkgId) (u : Nat) (m : Mem) (k : Pkg) : Mem × Pkg :=
  match k.flt.reactions.find? (fun r => r.kind = 0 && r.index = u) with
  | none => (m, k)
  | some r =>
    let mk := isolate now p u m k
    let k1 := mk.2.setFlt fun x => { x with reactions := x.reactions.erase r }
    match k1.scopeOf u with
    | some sc => tallySettle now p mk.1 (k1.beginScope now u r.raised sc)
    | none => (mk.1, k1)
/-- The dark unit of a scope. -/
def scopeUnit (sc : Nat × Nat) : Option DarkUnit :=
  if sc.1 = 1 then some (ctileUnit sc.2) else if sc.1 = 2 then some (ftileUnit sc.2) else if sc.1 = 3 then some .stile else none
/-- A scope's reset that R60 still holds has not ended. -/
def Pkg.scopeHeld (k : Pkg) (sc : Nat × Nat) : Bool := ((scopeUnit sc).map k.dark.heldResets.contains).getD false
/-- The reset of a unit's scope ends (R323): RESET_DONE is logged, and the unit is in UC until its quiet period ends; a released unit
is OK (R331). A reset that no fault began ends too. -/
def scopeResetDone (now fused u : Nat) (pass : Bool) (k : Pkg) : Pkg :=
  match k.flt.reactions.find? (fun r => 1 ≤ r.kind && r.kind ≤ 6 && r.unit = u) with
  | none => match k.scopeOf u with
    | some sc => if sc.1 ≤ 3 && !k.scopeHeld sc then k.endScope now fused u sc else k
    | none => k
  | some r =>
    if k.scopeHeld (r.kind, r.index) then k else
    let x := k.unit u
    let k1 := (k.endScope now fused u (r.kind, r.index)).setFlt fun y => { y with reactions := y.reactions.erase r }
    if r.raised = 0 then (if r.kind = 6 then k1.testLog now x pass else k1).setUnit u { k1.unit u with state := 0 }
    else
      let k2 := (k1.log now (logEntry clsUC 4 x.detector u fHardware r.raised)).setUnit u
        { k1.unit u with state := 2, lastUc := now }
      if r.kind = 6 then k2.testLog now x pass else k2

/-- ISOLATION_END. -/
def execIsolationEnd (p : PkgId) (u : Byte) (s : State) : Out := onPkgMem p s fun m k => isolationDone s.now p u.toNat m k
/-- SCOPE_RESET_END; whether a log-memory test passes is a free value. -/
def execScopeResetEnd (p : PkgId) (u : Byte) (s : State) : Out :=
  onPkgFree p s fun v k => scopeResetDone s.now (Config.fusedResist (s.moduleKey p)).toNat u.toNat (v.getLsbD 0) k
/-- REACTION_END: the i-th running reaction ends, and the shadows it declared lift (R326). A fence ends only with a package reset. -/
def execReactionEnd (p : PkgId) (i : Nat) (s : State) : Out :=
  match (s.pkg p).flt.reactions[i]? with
  | none => .next s
  | some r =>
    if r.kind = 0 then onPkgMem p s fun m k => isolationDone s.now p r.index m k
    else if r.kind ≤ 6 then
      onPkgFree p s fun v k => scopeResetDone s.now (Config.fusedResist (s.moduleKey p)).toNat r.unit (v.getLsbD 0) k
    else .next s

/-! ### Detectors, grace and verdicts (R319–R325) -/

/-- The line that a memory error makes uncorrectable: its storage space and offset. -/
def errorPlace (d off : Nat) : Option (Nat × Nat) :=
  let u := detUnit d
  let o := d - detBase u
  if o ≠ 1 then none
  else if u < 192 then some (2, storeOff u off)
  else if 200 ≤ u ∧ u < 208 then some (0, off)
  else if 234 ≤ u ∧ u < 238 then some (1, off)
  else none
/-- DETECTOR_FIRE: an uncorrectable line stays poisoned until it is written. -/
def execDetectorFire (p : PkgId) (d : Fin 4096) (info0 info1 : BitVec 64) (s : State) : Out :=
  onPkgGrave p s fun m k =>
    let k1 := match errorPlace d.val info0.toNat with
      | some e =>
        let l := memKey p e.1 e.2 / 64
        if k.mem.poison.contains l then k else { k with mem := { k.mem with poison := k.mem.poison ++ [l] } }
      | none => k
    (m, k1.raise s.now d.val info0 info1)
/-- THERMAL_SHUTDOWN (R267): the line to the tray controller. -/
def execThermalShutdown (p : PkgId) (n : Fin 64) (temp : BitVec 16) (s : State) : Out :=
  onPkgGrave p s fun m k =>
    if temp.toNat < 1840 || k.thr.shutdown then (m, k)
    else
      let k1 := (k.put (F.THR_NODE_MEAS n.val) temp.toNat).setThr fun x => { x with shutdown := true }
      (m, (k1.emit (.line "THERM_SHDN_N" false)).raise s.now (det 255 4) 0 0)
/-- A grace that has expired: its slot is freed and the escalation starts. -/
def Pkg.expireGrace (now cls slot : Nat) (k : Pkg) : Pkg :=
  match sfind k.flt.pend slot with
  | none => k
  | some x => if x.cls = cls ∧ x.expires ≤ now then (k.freePend slot).escalate now fHardware x else k
/-- UC_GRACE_EXPIRY. -/
def execUcGraceExpiry (p : PkgId) (slot : Fin 16) (s : State) : Out :=
  onPkgGrave p s fun m k => (m, k.expireGrace s.now clsUC slot.val)
/-- FT_GRACE_EXPIRY. -/
def execFtGraceExpiry (p : PkgId) (slot : Fin 16) (s : State) : Out :=
  onPkgGrave p s fun m k => (m, k.expireGrace s.now clsFT slot.val)
/-- A verdict written to FLT_HANDLE: 1 RESOLVED, 2 ESCALATE (R322). -/
def Pkg.handle (now verdict slot : Nat) (k : Pkg) : Pkg :=
  if verdict ≠ 1 ∧ verdict ≠ 2 then k
  else match sfind k.flt.pend slot with
  | none => k.flag F.FLT_STATUS_LATE true
  | some x =>
    if x.expires ≤ now then k.flag F.FLT_STATUS_LATE true
    else if verdict = 2 then
      ((k.log now (logEntry x.cls 2 x.detector x.unit fSoftware x.seq)).freePend slot).escalate now fSoftware x
    else if x.cls = clsFT then k
    else
      let k1 := (k.log now (logEntry x.cls 1 x.detector x.unit fSoftware x.seq)).freePend slot
      k1.setUnit x.unit { k1.unit x.unit with lastUc := now }

/-! ### Exits, quarantine and release (R328–R331) -/

/-- A unit is quarantined: isolated, or the package fenced. -/
def quarantine (now : Nat) (p : PkgId) (u : Nat) (m : Mem) (k : Pkg) : Mem × Pkg :=
  let x := k.unit u
  let k1 := (k.setQuar u true).log now (logEntry clsUC 8 x.detector u fHardware x.raised)
  if u = 255 then (m, k)
  else if (248 ≤ u ∧ u ≤ 252) ∨ u = 254 then (m, k1.fencePkg now x.detector u x.raised clsUC)
  else isolate now p u m k1
/-- A unit leaves its fault state. -/
def exitUnit (now : Nat) (p : PkgId) (u cls : Nat) (m : Mem) (k : Pkg) : Mem × Pkg :=
  let x := k.unit u
  let all := x.exits ++ [k.time now]
  let k1 := (k.setUnit u { x with state := 0, exits := all.drop (all.length - 4), ceTimes := [] })
  let k2 := k1.log now (logEntry cls 7 x.detector u fHardware x.raised)
  let k3 := if u = 253 ∧ !k2.flt.lwOnly then k2.flag F.FLT_STATUS_LOG_FAIL false else k2
  if 4 ≤ k3.recoveries now u then quarantine now p u m k3 else (m, k3)
/-- CE_ALARM_QUIET: 10 s with no CE event on the unit. -/
def execCeAlarmQuiet (p : PkgId) (u : Byte) (s : State) : Out :=
  onPkgGrave p s fun m k =>
    if k.unitState u.toNat = 1 ∧ (k.unit u.toNat).lastCe + 10 * 10 ^ 9 ≤ s.now then exitUnit s.now p u.toNat clsCE m k else (m, k)
/-- A condition of unit 255 holds: HOLDOVER, JUNCTION_TRIP or SENSOR_FAIL. -/
def Pkg.conditionLive (k : Pkg) : Bool := k.holdover || k.alarmLive 3 || k.alarmLive 4
/-- UC_QUIET: 60 s with no UC event on the unit, from the end of its escalation, verdict, condition or grace. -/
def execUcQuiet (p : PkgId) (u : Byte) (s : State) : Out :=
  onPkgGrave p s fun m k =>
    if k.unitState u.toNat = 2 ∧ !k.flt.pend.any (fun e => e.2.unit = u.toNat) ∧ !(u = 255 && k.conditionLive) ∧
        (k.unit u.toNat).lastUc + 60 * 10 ^ 9 ≤ s.now then exitUnit s.now p u.toNat clsUC m k else (m, k)
/-- A release of a quarantine (R331): the history is cleared, and the unit returns through its reset scope. -/
def Pkg.releaseUnit (now u : Nat) (k : Pkg) : Pkg :=
  if !k.quarBit u then k
  else
    let x := k.unit u
    let k1 := ((k.setQuar u false).log now (logEntry clsUC 9 x.detector u fSoftware x.raised)).setUnit u {}
    let k2 := k1.removeDark (fun e => decide (e = (coreUnit u, .fence)) && decide (u < 192) ||
      decide (e = (ctileUnit (u - 192), .fence)) && decide (192 ≤ u ∧ u < 196) ||
      decide (e = (ftileUnit (u - 232), .fence)) && decide (232 ≤ u ∧ u < 234))
    match k2.scopeOf u with
    | some sc => (k2.beginScope now u 0 sc).setUnit u { state := 3 }
    | none => k2
/-- FLT_LW_CLEAR (R335). -/
def Pkg.clearLast (k : Pkg) : Pkg := { k with ret := { k.ret with lw := [], lwOverrun := 0 } }

end Sys2Proof.Machine
end

