-- ==== Sys2Proof/Machine/Update.lean ====
section
/-! DEFINITION. Updates of a package (R337–R350): patch images, key records, the PLDM update sequence, the trial of a new PKC, and the host
push. PLDM command and completion codes are those of DSP0267 (log 37). -/

namespace Sys2Proof.Machine
open Sys2Proof

/-! ### Patch images (R340–R342) -/

/-- The trailer over the bytes before it, laid out as the SIGN body, verifies with one of some key slots (R113, R340). -/
def trailerOk (keys : SMap KeySlot) (img : List Byte) : Bool :=
  let o := img.length - 112
  let slot := u8 img o
  match (if 112 ≤ img.length ∧ slot < 4 ∧ u8 img (o + 1) = 1 then (sget {} keys slot).key else none) with
  | none => false
  | some key => ecdsaVerify key.1 key.2 (sha384 (img.take o))
      (BitVec.ofNat 384 (leAt img (o + 0x10) 48)) (BitVec.ofNat 384 (leAt img (o + 0x40) 48))
/-- One operation of Table 16.4: what it appends, how many bytes, and the bytes left of the operations. -/
def patchOp (base : List Byte) (baseLen resultLen : Nat) (b : List Byte) : Option (List Byte × Nat × List Byte) :=
  let n := leAt b 4 4
  if b.length < 8 || !zeroRange b 1 4 || n = 0 || resultLen < n then none
  else if u8 b 0 = 1 then
    let src := leAt b 8 4
    if b.length < 16 || !zeroRange b 12 16 || baseLen < src + n then none else some (slice base src n, n, b.drop 16)
  else if u8 b 0 = 2 then
    let pad := (n + 7) / 8 * 8
    if b.length < 8 + pad || !zeroRange b (8 + n) (8 + pad) then none else some (slice b 8 n, n, b.drop (8 + pad))
  else none
/-- Apply operations in order: the result and its cursor, when every one is well formed and no byte is left. -/
def patchOps (base : List Byte) (baseLen resultLen : Nat) : Nat → List Byte → Option (List Byte × Nat)
  | 0, b => if b.isEmpty then some ([], 0) else none
  | n + 1, b =>
    match patchOp base baseLen resultLen b with
    | none => none
    | some x =>
      match patchOps base baseLen resultLen n x.2.2 with
      | none => none
      | some y => some (x.1 ++ y.1, x.2.1 + y.2)
def pVersion (b : List Byte) : BitVec 64 := BitVec.ofNat 64 (leAt b 8 8)
def pBaseLen (b : List Byte) : Nat := leAt b 0x18 4
def pResultLen (b : List Byte) : Nat := leAt b 0x1C 4
def hashAt (b : List Byte) (off : Nat) : BitVec 384 := BitVec.ofNat 384 (leAt b off 48)
/-- The header, the operations and the reserved bytes of a patch are well formed; the result they give. -/
def patchResult (base : List Byte) (kind : Nat) (b : List Byte) : Option (List Byte) :=
  let ops := leAt b 0x84 4
  if slice b 0 4 ≠ [0x50, 0x54, 0x43, 0x48] || u8 b 4 ≠ 1 || u8 b 5 ≠ kind || !zeroRange b 6 8 || !zeroRange b 0x88 0x90 ||
      b.length ≠ 0x90 + ops + 112 || !zeroRange b (0x90 + ops + 2) (0x90 + ops + 16) then none
  else match patchOps base (pBaseLen b) (pResultLen b) (leAt b 0x80 4) (slice b 0x90 ops) with
  | none => none
  | some r => if r.2 = pResultLen b then some r.1 else none
/-- Check and apply a patch (R342): the code of UPD_STATUS.FAIL, or the result. -/
def applyPatch (keys : SMap KeySlot) (base : List Byte) (kind limit : Nat) (b : List Byte) : Nat × List Byte :=
  match patchResult base kind b with
  | none => (1, [])
  | some r =>
    if limit < pResultLen b then (2, [])
    else if pBaseLen b ≠ 0 && (pBaseLen b ≠ base.length || hashAt b 0x20 ≠ sha384 base) then (3, [])
    else if !trailerOk keys b then (4, [])
    else if hashAt b 0x50 ≠ sha384 r || !trailerOk keys r then (5, [])
    else (0, r)

/-! ### Key records (R343) -/

def keyRecordOk (sets : List Nat) (stored : Nat → Nat → Nat) (b : List Byte) : Bool :=
  let flags := u8 b 5
  let set := flags / 2 % 4
  b.length = 224 && slice b 0 4 = [0x4B, 0x45, 0x59, 0x52] && u8 b 4 < 4 && flags < 8 && sets.contains set && zeroRange b 8 16 &&
    stored set (u8 b 4) < leAt b 6 2 && u8 b 0x70 = 0 && u8 b 0x71 = 1 &&
    ecdsaVerify Config.keyAuthority.1 Config.keyAuthority.2 (sha384 (b.take 112))
      (BitVec.ofNat 384 (leAt b 0x80 48)) (BitVec.ofNat 384 (leAt b 0xB0 48))
/-- The slot after a record: the key, or with REVOKE no key, and the generation. -/
def keyRecordSlot (b : List Byte) : KeySlot :=
  { gen := BitVec.ofNat 16 (leAt b 6 2), key := if u8 b 5 % 2 = 1 then none else some (hashAt b 0x10, hashAt b 0x40) }
def keysPresent (m : SMap KeySlot) : Nat := ((m.filter (fun e => e.2.key.isSome)).map (fun e => 2 ^ e.1)).foldl (· + ·) 0

/-! ### Banks (R344, R345) -/

def Pkg.setUpd (f : UpdSt → UpdSt) (k : Pkg) : Pkg := { k with upd := f k.upd }
def bankBytes : Nat := 15 * 2 ^ 20
def Pkg.activeBank (k : Pkg) : Nat := k.get F.UPD_STATUS_ACTIVE_BANK
def Pkg.bankImg (k : Pkg) (b : Nat) : List Byte := if b = 0 then k.upd.bank0 else k.upd.bank1
def Pkg.bankVer (k : Pkg) (b : Nat) : BitVec 64 := if b = 0 then k.upd.ver0 else k.upd.ver1
def Pkg.putStage (v : Nat) (k : Pkg) : Pkg :=
  let k1 := k.put F.UPD_STATUS_STAGE v
  k1.setWide R.UPD_STAGED_VERSION_LO (if v = 3 then (k1.bankVer (1 - k1.activeBank)).toNat else 0)
def Pkg.stage (k : Pkg) : Nat := k.get F.UPD_STATUS_STAGE
def Pkg.putFail (v : Nat) (k : Pkg) : Pkg := k.put F.UPD_STATUS_FAIL v
/-- Mark a bank valid or not. -/
def Pkg.bankValid (b : Nat) (valid : Bool) (k : Pkg) : Pkg :=
  if valid then k.orBits F.UPD_STATUS_BANK_VALID (2 ^ b) else k.clearBits F.UPD_STATUS_BANK_VALID (2 ^ b)
/-- Write an image to a bank; a scan of the staging area sees a write into its range (R89). -/
def Pkg.writeBank (b : Nat) (img : List Byte) (ver : BitVec 64) (k : Pkg) : Pkg :=
  ((k.setUpd fun x => if b = 0 then { x with bank0 := img, ver0 := ver } else { x with bank1 := img, ver1 := ver }).bankValid b true).csuStop
    4 (fun x => x.space = 4 && meets 0 img.length x.off x.len)
/-- The bank pointer names the other bank: scans of the staging area, which now has other bytes, end CHANGED (R89, R344). -/
def Pkg.flipBank (k : Pkg) : Pkg := (k.put F.UPD_STATUS_ACTIVE_BANK (1 - k.get F.UPD_STATUS_ACTIVE_BANK)).csuStop 4 (fun x => x.space = 4)
def Pkg.paused_ (k : Pkg) : Bool := k.get F.UPD_STATUS_PAUSED = 1
def Pkg.lifeboat (k : Pkg) : Bool := k.get F.UPD_STATUS_LIFEBOAT = 1
/-- The PKC answers MCTP messages: it runs, in firmware or in lifeboat mode (R280, R346, R349). -/
def Pkg.mctpUp (k : Pkg) : Bool := decide (k.pkc.run = .running) || decide (k.pkc.run = .lifeboat)
/-- A message to a package whose PKC does not answer changes nothing. -/
def onMctp (p : PkgId) (s : State) (f : Pkg → Pkg) : Out := onPkg p s fun k => if k.mctpUp then f k else k

/-! ### The PLDM update sequence (Table 16.2) -/

def Pkg.pldm (command completion : Nat) (payload : List Byte) (k : Pkg) : Pkg := k.emit (.pldm command completion payload)
def pldmError : Nat := 1
def notInUpdate : Nat := 0x80
/-- QUERY_DEVICE_IDENTIFIERS. -/
def execQueryDeviceIdentifiers (p : PkgId) (s : State) : Out :=
  onMctp p s fun k => k.pldm 0x01 0 (Config.deviceIds (s.moduleKey p))
/-- GET_FIRMWARE_PARAMETERS: the active version, and the pending one while an image is READY. -/
def execGetFirmwareParameters (p : PkgId) (s : State) : Out :=
  onMctp p s fun k => k.pldm 0x02 0 (leBytes 8 (k.wide R.UPD_ACTIVE_VERSION_LO) ++ leBytes 8 (k.wide R.UPD_STAGED_VERSION_LO))
/-- Forget a transfer. -/
def Pkg.dropTransfer (k : Pkg) : Pkg :=
  k.setUpd fun x => { x with component := none, size := 0, received := [], complete := false, verified := none }
/-- A transfer that the agent cancels ends CANCELLED; the bank that a firmware image was going to is invalid. -/
def Pkg.cancelTransfer (k : Pkg) : Pkg :=
  match k.upd.component with
  | none => k
  | some c =>
    let k1 := if c = 1 then (k.bankValid (1 - k.activeBank) false).putStage 4 else k
    (k1.putFail 6).dropTransfer
/-- REQUEST_UPDATE: refused while PAUSED; a READY image is discarded (R345). -/
def execRequestUpdate (p : PkgId) (overPcie : Bool) (s : State) : Out :=
  onPkg p s fun k =>
    if k.paused_ then k.pldm 0x10 pldmError []
    else if !k.mctpUp then k
    else
      let k1 := if k.stage = 3 then (k.bankValid (1 - k.activeBank) false).putStage 0 else k
      (k1.dropTransfer.setUpd fun x => { x with requested := true, overPcie := overPcie }).pldm 0x10 0 []
/-- PASS_COMPONENT_TABLE. -/
def execPassComponentTable (p : PkgId) (comps : List (BitVec 16)) (s : State) : Out :=
  onMctp p s fun k => if k.upd.requested then k.pldm 0x13 0 (comps.map fun c => if c = 1 ∨ c = 0x10 ∨ c = 0x11 then 0 else 1) else
    k.pldm 0x13 notInUpdate []
def Pkg.chunkSize (k : Pkg) : Nat := if k.upd.overPcie then 4032 else 1024
/-- The package asks for the next chunk. -/
def Pkg.askData (now : Nat) (k : Pkg) : Pkg :=
  let off := k.upd.received.length
  (k.setUpd fun x => { x with askedAt := now }).pldm 0x15 0 (leBytes 4 off ++ leBytes 4 (min k.chunkSize (k.upd.size - off)))
/-- UPDATE_COMPONENT: the transfer of a component of Table 16.2 starts. -/
def execUpdateComponent (p : PkgId) (comp : BitVec 16) (size : Nat) (s : State) : Out :=
  onMctp p s fun k =>
    if !k.upd.requested then k.pldm 0x14 notInUpdate []
    else if comp ≠ 1 ∧ comp ≠ 0x10 ∧ comp ≠ 0x11 then k.pldm 0x14 pldmError []
    else
      let k1 := (k.dropTransfer.setUpd fun x => { x with component := some comp, size := size }).pldm 0x14 0 []
      let k2 := if comp = 1 then ((k1.bankValid (1 - k.activeBank) false).putStage 1).putFail 0 else k1
      k2.askData s.now
/-- REQUEST_FIRMWARE_DATA: the agent answers the package's request with a chunk. -/
def execRequestFirmwareData (p : PkgId) (data : List Byte) (s : State) : Out :=
  onMctp p s fun k =>
    if k.upd.component.isNone || k.upd.complete then k
    else
      let k1 := k.setUpd fun x => { x with received := x.received ++ data.take (min k.chunkSize (x.size - x.received.length)) }
      if k1.upd.received.length < k1.upd.size then k1.askData s.now else (k1.setUpd fun x => { x with complete := true }).pldm 0x16 0 []
/-- A transfer left unanswered ends CANCELLED, and the inactive bank is invalid whatever the component (R339): an image it held is gone. -/
def Pkg.abandonTransfer (k : Pkg) : Pkg :=
  match k.upd.component with
  | none => k
  | some c =>
    let k1 := k.bankValid (1 - k.activeBank) false
    let k2 := if c = 1 then k1.putStage 4 else if k.stage = 3 then k1.putStage 0 else k1
    (k2.putFail 6).dropTransfer
/-- FIRMWARE_DATA_TIMEOUT (R339): 5 s without an answer. -/
def execFirmwareDataTimeout (p : PkgId) (s : State) : Out :=
  onPkg p s fun k => if !k.upd.complete && k.upd.askedAt + 5 * 10 ^ 9 ≤ s.now then k.abandonTransfer else k
/-- TRANSFER_COMPLETE: the image is in, and its check starts. -/
def execTransferComplete (p : PkgId) (s : State) : Out :=
  onMctp p s fun k => if k.upd.complete && k.upd.component = some 1 && k.stage = 1 then k.putStage 2 else k
/-- The keys that verify: none while the security block is isolated (Table 15.2). -/
def Pkg.fwKeys (k : Pkg) : SMap KeySlot := if 3 ≤ k.unitState 250 then [] else k.upd.fwKeys
/-- The check of a received patch against the active bank; in lifeboat mode only full images pass (R342, R349). -/
def Pkg.checkPatch (k : Pkg) : Nat × List Byte :=
  applyPatch k.fwKeys (if k.lifeboat then [] else k.bankImg k.activeBank) 1 bankBytes k.upd.received
/-- PATCH_VERIFY_END (R345): READY with the result in the inactive bank, or FAILED. -/
def execPatchVerifyEnd (p : PkgId) (s : State) : Out :=
  onPkg p s fun k =>
    if k.upd.component ≠ some 1 ∨ k.stage ≠ 2 then k
    else
      let r := k.checkPatch
      let k1 := k.setUpd fun x => { x with verified := some r.1 }
      if r.1 = 0 then ((k1.writeBank (1 - k.activeBank) r.2 (pVersion k.upd.received)).putStage 3).putFail 0
      else (k1.putStage 4).putFail r.1
/-- The record of a key component is good for this package: 0x0010 firmware keys, 0x0011 Chart keys. -/
def Pkg.keyRecordGood (k : Pkg) (comp : BitVec 16) : Bool :=
  3 > k.unitState 250 && keyRecordOk [if comp = 0x10 then 1 else 0]
    (fun set slot => (sget {} (if set = 1 then k.upd.fwKeys else k.upd.chartKeys) slot).gen.toNat) k.upd.received
/-- VERIFY_COMPLETE: the outcome of the check is reported; that of a key record is made here. -/
def execVerifyComplete (p : PkgId) (s : State) : Out :=
  onMctp p s fun k =>
    match k.upd.component with
    | none => k.pldm 0x17 notInUpdate []
    | some c =>
      if !k.upd.complete then k
      else
        let k1 := if c = 1 then k else k.setUpd fun x => { x with verified := some (if k.keyRecordGood c then 0 else 4) }
        match k1.upd.verified with
        | none => k1
        | some r => k1.pldm 0x17 0 [BitVec.ofNat 8 r]
/-- A key record takes effect. -/
def Pkg.applyKey (comp : BitVec 16) (k : Pkg) : Pkg :=
  let slot := u8 k.upd.received 4
  let v := keyRecordSlot k.upd.received
  let k1 := k.setUpd fun x =>
    if comp = 0x10 then { x with fwKeys := sset {} x.fwKeys slot v } else { x with chartKeys := sset {} x.chartKeys slot v }
  (k1.put F.UPD_KEY_STATUS_FW_PRESENT (keysPresent k1.upd.fwKeys)).put F.UPD_KEY_STATUS_CHART_PRESENT (keysPresent k1.upd.chartKeys)
/-- APPLY_COMPLETE: the image is READY, or the key record is applied (R343). -/
def execApplyComplete (p : PkgId) (s : State) : Out :=
  onMctp p s fun k =>
    match k.upd.component, k.upd.verified with
    | some c, some 0 => ((if c = 1 then k.putStage 3 else k.applyKey c).dropTransfer).pldm 0x18 0 []
    | _, _ => k
/-- The staged image is tried: only when it is READY and no turn runs, and over PCIe only in lifeboat mode (R338, R346). -/
def Pkg.tryStaged (now : Nat) (overPcie : Bool) (k : Pkg) : Pkg :=
  if k.stage ≠ 3 || k.turning || (overPcie && !k.lifeboat) then k.pldm 0x1A pldmError []
  else
    let k1 := ((k.pldm 0x1A 0 []).setUpd fun x => { x with trial := some (false, now), requested := false }).flag F.UPD_STATUS_PAUSED true
    (k1.setRun .paused).addReaction ⟨9, 0, 248, 0⟩
/-- ACTIVATE_FIRMWARE. -/
def execActivateFirmware (p : PkgId) (overPcie : Bool) (s : State) : Out := onMctp p s fun k => k.tryStaged s.now overPcie
/-- The state of the update, as GetStatus numbers it: 0 IDLE, 1 LEARN COMPONENTS, 2 READY XFER, 3 DOWNLOAD, 4 VERIFY, 5 APPLY. -/
def Pkg.updateState (k : Pkg) : Nat :=
  if !k.upd.requested then 0
  else if k.upd.component.isNone then 1
  else if !k.upd.complete then 3
  else if k.upd.verified.isNone then 4 else 5
/-- PLDM_GET_STATUS. -/
def execPldmGetStatus (p : PkgId) (s : State) : Out :=
  onMctp p s fun k => k.pldm 0x1B 0 [BitVec.ofNat 8 k.updateState, BitVec.ofNat 8 k.stage, BitVec.ofNat 8 (k.get F.UPD_STATUS_FAIL)]
/-- CANCEL_UPDATE_COMPONENT. -/
def execCancelUpdateComponent (p : PkgId) (s : State) : Out :=
  onMctp p s fun k => if k.upd.requested then k.cancelTransfer.pldm 0x1C 0 [] else k.pldm 0x1C notInUpdate []
/-- CANCEL_UPDATE. -/
def execCancelUpdate (p : PkgId) (s : State) : Out :=
  onMctp p s fun k => if k.upd.requested then
    (k.cancelTransfer.setUpd fun x => { x with requested := false }).pldm 0x1D 0 [] else k.pldm 0x1D notInUpdate []

/-! ### The trial of a new PKC (R346, R347) and PKC boot (R37) -/

/-- The PKC runs from the bank that the pointer names: heartbeats count from now. -/
def Pkg.pkcRuns (now : Nat) (k : Pkg) : Pkg :=
  let k1 := ((k.setRun .running).flag F.UPD_STATUS_LIFEBOAT false).setWide R.UPD_ACTIVE_VERSION_LO (k.bankVer k.activeBank).toNat
  { k1 with pkc := { k1.pkc with hbAt := some now } }
/-- The end of PKC boot: BOOT_DONE, or NO_ADDRESS while the address register holds its reset value (R37). -/
def Pkg.bootEnd (now : Nat) (k : Pkg) : Pkg :=
  let k1 := k.pkcRuns now
  if k.rg R.AON_PKG_ADDR = resetWord R.AON_PKG_ADDR then k1.emit (.cwEvent 2 0)
  else { k1 with pkc := { k1.pkc with bootDone := true } }.emit (.cwEvent 1 0)
/-- The domains of cores and engines that the Chart holds off stay off (R104). -/
def Pkg.heldDomains (k : Pkg) : List Nat :=
  ((List.range 192).filter (holdOff k.localImg k.idx)).flatMap (fun c => [k.phys c, 192 + k.phys c]) ++
    ((List.range 4).filter fun t => holdOff k.localImg k.idx (192 + t)).map (388 + ·)
/-- PKC_BOOT_END. An awake package's other domains are powered from here on (log 43). -/
def execPkcBootEnd (p : PkgId) (s : State) : Out :=
  onPkg p s fun k => if k.pkc.run = .booting then (k.setDomains true (allDomains.filter fun d => !k.heldDomains.contains d)).bootEnd s.now else k
/-- The pause ends, and the events that waited are sent. -/
def Pkg.endPause (k : Pkg) : Pkg :=
  (((k.flag F.UPD_STATUS_PAUSED false).emits (k.flt.heldEvents.map (Msg.cwEvent 5))).setUpd fun x => { x with trial := none }).setFlt fun x =>
    { x with reactions := x.reactions.filter (fun r => r.kind ≠ 9), heldEvents := [] }
/-- The report UPDATE_FAILED of the package's CW (R347). -/
def Pkg.updateFailed (k : Pkg) : Pkg := k.emit (.report "UPDATE_FAILED" 0 (k.get F.UPD_STATUS_FAIL))
/-- TRIAL_RUNNING: the pointer is written, PAUSED clears and STAGE is EMPTY; after a roll-back the old bank runs again. A package that has
never sent BOOT_DONE sends it now (R349). -/
def execTrialRunning (p : PkgId) (s : State) : Out :=
  onPkg p s fun k =>
    match k.upd.trial with
    | none => k
    | some (back, _) =>
      let k1 := if back then k.endPause.updateFailed else k.flipBank.endPause.putStage 0
      if k1.pkc.bootDone then k1.pkcRuns s.now else k1.bootEnd s.now
/-- TRIAL_TIMEOUT (R347): after 60 ms the old bank is tried, and after 60 ms more lifeboat mode. -/
def execTrialTimeout (p : PkgId) (s : State) : Out :=
  onPkg p s fun k =>
    match k.upd.trial with
    | none => k
    | some (back, since) =>
      if s.now < since + 60 * 10 ^ 6 then k
      else if !back then (((k.setUpd fun x => { x with trial := some (true, s.now) }).putFail 8).putStage 4)
      else
        let k1 := ((k.endPause.updateFailed.flag F.UPD_STATUS_LIFEBOAT true).setRun .lifeboat)
        { k1 with pkc := { k1.pkc with hbAt := some s.now } }

/-! ### The host push (R350) -/

/-- The ROM takes a push: BOOTSRC 2, or lifeboat mode. -/
def Pkg.pushOpen (k : Pkg) : Bool := decide (k.pkc.run = .romWait) || decide (k.pkc.run = .lifeboat)
def Pkg.pushStart (k : Pkg) : Pkg :=
  if k.pushOpen then (k.setUpd fun x => { x with pushing := true, received := [] }).putFail 0 else k
/-- A pushed word; with the last one the image is checked, written and booted. -/
def Pkg.pushWord (w : Word) (k : Pkg) : Pkg :=
  if !k.pushOpen || !k.upd.pushing then k
  else
    let k1 := k.setUpd fun x => { x with received := x.received ++ leBytes 4 w.toNat }
    if k1.upd.received.length < k.get F.UPD_PUSH_LEN_LEN then k1
    else
      let r := applyPatch k.fwKeys [] 1 bankBytes k1.upd.received
      let k2 := k1.setUpd fun x => { x with pushing := false, received := [] }
      if r.1 ≠ 0 then k2.putFail r.1
      else
        ((k2.writeBank (1 - k.activeBank) r.2 (pVersion k1.upd.received)).flipBank.flag F.UPD_STATUS_LIFEBOAT false).setRun .booting

end Sys2Proof.Machine
end

