-- ==== Sys2Proof/Machine/Reset.lean ====
section
/-! DEFINITION. Units that begin a reset, hold-off or fence (R56–R60), the package reset and the hub reset (R59, R324, R330, R375). -/

namespace Sys2Proof.Machine
open Sys2Proof

/-- UNIT_DARK: the stand-in answers for the unit; a reset takes its effects unless R60 holds it. The reset of the package itself is
PKG_RESET or HUB_RESET. -/
def Pkg.unitDark (now : Nat) (u : DarkUnit) (cause : DarkCause) (k : Pkg) : Pkg :=
  let k1 := if cause = .reset ∧ u ≠ .package then k.beginReset now u else k.goDark now u cause
  match u with
  | .ftile f => k1.tileLinksDown now f.val
  | _ => k1
def execUnitDark (p : PkgId) (u : DarkUnit) (cause : DarkCause) (s : State) : Out :=
  onPkgGrave p s fun m k => goOn s.now p m (k.unitDark s.now u cause)

/-! ### The package reset -/

/-- Memory of the package other than the host's: a package reset leaves what it holds unstated (log 38). -/
def forgetMemory (p : PkgId) (m : Mem) : Mem := memErase m (memKey p 0 0) (3 * 2 ^ 64)
/-- What a reset of the package keeps whatever its kind: the retention bank, the module flash with its pointer and keys, the sea trial
(R379), the brake line's level, the host link, and what was sent. -/
def Pkg.kept (k : Pkg) : Pkg :=
  let flash : UpdSt := { bank0 := k.upd.bank0, bank1 := k.upd.bank1, ver0 := k.upd.ver0, ver1 := k.upd.ver1,
                         chartKeys := k.upd.chartKeys, fwKeys := k.upd.fwKeys }
  let pkc : PkcSt := { bootSrc := k.pkc.bootSrc, hostInReset := k.pkc.hostInReset, hostGts := k.pkc.hostGts, hostWidth := k.pkc.hostWidth }
  let k1 : Pkg := { ret := k.ret, upd := flash, pkc := pkc, dark := { incAt := k.dark.incAt }, rt := { out := k.rt.out }, out := k.out }
  let k2 := (((k1.put F.UPD_STATUS_ACTIVE_BANK k.activeBank).put F.UPD_STATUS_BANK_VALID (k.get F.UPD_STATUS_BANK_VALID)).put
    F.UPD_KEY_STATUS_FW_PRESENT (keysPresent flash.fwKeys)).put F.UPD_KEY_STATUS_CHART_PRESENT (keysPresent flash.chartKeys)
  let k3 := if k.get F.THR_SEA_TRIAL_ACTIVE = 1 then
      (k2.setRg R.THR_SEA_TRIAL (k.rg R.THR_SEA_TRIAL)).put F.THR_RESIST_EST_SEEDED (k.get F.THR_RESIST_EST_SEEDED)
    else k2
  Pkg.reportOverride k (if k.braked then (k3.flag F.PWR_BRAKE_LINE true).flag F.PWR_CAP_STATUS_BRAKED true else k3)
/-- Every incarnation number rises (R59). -/
def Pkg.bumpAll (now : Nat) (k : Pkg) : Pkg := ((List.range 192).foldl (fun k c => k.bumpCore now c) k).bumpPkg now
/-- The package after PKG_RESET_N: R59 keeps the retention bank alone of the always-on domain. -/
def Pkg.reborn (now : Nat) (k : Pkg) : Pkg := (k.kept.bumpAll now).recap.settleRates
/-- The package after a hub reset: the always-on domain's state is kept too, and FLT_BOOT rises by 1 (R324). -/
def Pkg.hubReborn (now : Nat) (k : Pkg) : Pkg :=
  let k1 := k.kept.bumpAll now
  let aonRegs := k.regs.filter (fun e => e.1 < 0x10000 || (R.FLT_QUAR 0 ≤ e.1 && e.1 < R.FLT_RELEASE))
  let k2 := aonRegs.foldl (fun k e => k.setRg e.1 e.2) k1
  let k3 := { k2 with aon := { k.aon with deferred := [], waking := [], idleAt := [], heldFrom := [], saved := [] }, flt := { k2.flt with units := k.flt.units },
                      pkc := { k2.pkc with i3cAddr := k.pkc.i3cAddr } }
  (k3.put F.FLT_BOOT_BOOT (k.get F.FLT_BOOT_BOOT + 1)).recap.settleRates
/-- PKG_RESET_N falls: the package goes dark, which its links and its check-value jobs hear; the reset is held where R60 holds it. -/
def pkgResetOp (now : Nat) (p : PkgId) (m : Mem) (k : Pkg) : Mem × Pkg :=
  let k1 := (k.goDark now .package .reset).setRun .reset
  if k.resetReady .package ≤ now then (forgetMemory p m, k1.reborn now)
  else
    (m, if k1.dark.heldResets.contains .package then k1 else { k1 with dark := { k1.dark with heldResets := k1.dark.heldResets ++ [.package] } })
/-- A change by which a package leaves service, after which what it lent is lost. -/
def State.pkgGone (p : PkgId) (f : Mem → Pkg → Mem × Pkg) (s : State) : State :=
  let r := f s.mem (s.pkg p)
  ({ s with mem := r.1 }.setPkg p r.2).loseLender p.rack (s.pkg p).addr
/-- HUB_RESET: 100 ms after a fence with no reset; the PKC restarts from the boot source last sampled. -/
def execHubReset (p : PkgId) (s : State) : Out :=
  match (s.pkg p).flt.fencedAt with
  | none => .next s
  | some t =>
    if s.now < t + 100 * 10 ^ 6 ∨ s.now < (s.pkg p).resetReady .package then .next s
    else .next (s.pkgGone p fun m k =>
      (forgetMemory p m, (k.hubReborn s.now).pkcStart s.now (Config.fusedResist (s.moduleKey p)).toNat))
/-- A held reset proceeds 100 µs after the previous increment; a core that its Chart has released from hold-off then leaves it. -/
def expireHold (now : Nat) (p : PkgId) (u : DarkUnit) (m : Mem) (k : Pkg) : Mem × Pkg :=
  if !k.dark.heldResets.contains u || now < k.resetReady u then (m, k)
  else
    let k1 := { k with dark := { k.dark with heldResets := k.dark.heldResets.erase u } }
    match u with
    | .package => (forgetMemory p m, k1.reborn now)
    | .core c =>
      let k2 := k1.resetEffects now u
      goOn now p m (if k2.dark.dark.contains (.core c, .holdOff) && !holdOff k2.localImg k2.idx c.val then k2.leaveHold now c else k2)
    | _ => goOn now p m (k1.resetEffects now u)

end Sys2Proof.Machine
end

