-- ==== Sys2Proof/Machine/Debug.lean ====
section
/-! DEFINITION. Debug (R358–R366): halts, breakpoints, released clasps, trace capture, and the JTAG bridge. -/

namespace Sys2Proof.Machine
open Sys2Proof

/-! ### Halting cores (R361–R363) -/

/-- DEFERRAL_END: after 4,096 cycles the halt proceeds with the clasps held. -/
def execDeferralEnd (p : PkgId) (c : Core) (s : State) : Out :=
  onPkg p s fun k =>
    match sfind k.dbg.defers c.val with
    | some d => if d.1 + cyclesNs (k.coreMhz c.val) 4096 ≤ s.now then k.haltAt s.now c.val d.2 else k
    | none => k
/-- The address a breakpoint matches, if it is enabled. -/
def Pkg.breakAt (k : Pkg) (c n : Nat) : Option Nat :=
  let lo := (k.rg (R.CORE_DBG_BP_LO c n)).toNat
  let hi := (k.rg (R.CORE_DBG_BP_HI c n)).toNat
  if bit lo 0 then some (lo / 4 * 4 + 2 ^ 32 * bits hi 0 12) else none
/-- BREAKPOINT_MATCH: the core halts before the instruction with CAUSE 2, deferred under R362. -/
def execBreakpointMatch (p : PkgId) (c : Core) (n : Fin 4) (pc : BitVec 44) (s : State) : Out :=
  onPkg p s fun k =>
    if k.breakAt c.val n.val = some (pc.toNat / 4 * 4) && k.running c.val && !k.coreHalted c.val then
      let k1 := k.askHalt s.now c.val 2
      if k1.coreHalted c.val then k1.setPc c.val pc.toNat else k1
    else k
/-- Free every clasp a core holds; its next use of such a line returns CLASP_BROKEN with no detector. -/
def Pkg.freeClasps (now c : Nat) (k : Pkg) : Pkg :=
  (k.mem.clasps.filter (fun x => x.holder = c)).foldl (fun k x =>
    claspNext now stGranted x { k with mem := { k.mem with silent := k.mem.silent ++ [(c, x.store, x.line)] } }) k
/-- RESUME of a halted core; of one that only waits to halt, it cancels the halt. -/
def Pkg.resumeCore (now c : Nat) (k : Pkg) : Pkg :=
  if k.coreHalted c then (k.freeClasps now c).endHalts [c]
  else (k.setDbg fun x => { x with defers := serase x.defers c, wantHalt := x.wantHalt.filter (· ≠ c) }).flag (F.CORE_DBG_STATUS_DEFERRING c) false
/-- STEP: one instruction, and the core halts again with CAUSE 3 at the next one. -/
def Pkg.stepCore (c pc : Nat) (k : Pkg) : Pkg :=
  if k.coreHalted c then (k.setPc c pc).put (F.CORE_DBG_STATUS_CAUSE c) 3 else k
def Pkg.releaseClasps (now c : Nat) (k : Pkg) : Pkg := if k.coreHalted c then k.freeClasps now c else k
/-- The bits of a write of CORE_DBG_CTRL; HALT and RESUME together are ignored (R363). -/
def Pkg.dbgCtrl (now c : Nat) (halt resume step release : Bool) (nextPc : Nat) (k : Pkg) : Pkg :=
  if halt && resume then k
  else
    let k1 := if release then k.releaseClasps now c else k
    let k2 := if step then k1.stepCore c nextPc else k1
    let k3 := if resume then k2.resumeCore now c else k2
    if halt then k3.askHalt now c 1 else k3

/-! ### Trace capture (R366) -/

def Pkg.traceBuf (k : Pkg) (f : Nat) : List TraceRec := if f = 0 then k.dbg.trace0 else k.dbg.trace1
def Pkg.setTrace (f : Nat) (l : List TraceRec) (n : Nat) (k : Pkg) : Pkg :=
  k.setDbg fun x => if f = 0 then { x with trace0 := l, counted0 := n } else { x with trace1 := l, counted1 := n }
def Pkg.counted (k : Pkg) (f : Nat) : Nat := if f = 0 then k.dbg.counted0 else k.dbg.counted1
/-- The bit of DBG_TRACE_PORTS that selects a port of unit f: its 12 fabric ports, then the bridges 32–38. -/
def traceBit (f port : Nat) : Option Nat :=
  if port < 24 then (if port / 12 = f then some (port % 12) else none) else if 32 ≤ port ∧ port ≤ 38 then some (12 + (port - 32)) else none
/-- A header matches the filter of a unit. -/
def Pkg.traceMatch (k : Pkg) (f port : Nat) (out : Bool) (pk : Packet) : Bool :=
  let w := (k.rg (R.DBG_TRACE_PORTS f)).toNat
  let m := (k.rg (R.DBG_TRACE_MATCH f)).toNat
  bit (k.rg (R.DBG_TRACE_CTRL f)).toNat 0 && bit w (if out then 25 else 24) && ((traceBit f port).map (bit w)).getD false &&
    (bits m 24 8 = 0 || bits m 24 8 = pk.opcode.toNat) && (bits m 20 3 = 7 || bits m 20 3 = pk.cls.toNat) &&
    (bits m 0 16 = 0xFFFF || bits m 0 16 = epPkg pk.dst)
def traceSlots : Nat := 1024
/-- DBG_TRACE_STATUS shows what the buffer holds. -/
def Pkg.traceStatus (f : Nat) (k : Pkg) : Pkg :=
  let n := (k.traceBuf f).length
  let w := (k.rg (R.DBG_TRACE_STATUS f)).toNat
  k.setRg (R.DBG_TRACE_STATUS f) (BitVec.ofNat 32 (bits w 16 16 * 2 ^ 16 + (if traceSlots ≤ n then 2 ^ 15 else 0) + n))
def Pkg.traceMissed (f : Nat) (k : Pkg) : Pkg := k.count ⟨R.DBG_TRACE_STATUS f, 16, 16⟩ 1
/-- TRACE_CAPTURE; `busy` says that the unit was taking another header. -/
def execTraceCapture (p : PkgId) (f : Fin 2) (port : Byte) (out : Bool) (pk : Packet) (busy : Bool) (s : State) : Out :=
  onPkg p s fun k =>
    let l := k.traceBuf f.val
    let ring := bit (k.rg (R.DBG_TRACE_CTRL f.val)).toNat 1
    if !k.traceMatch f.val port.toNat out pk then k
    else if busy || (!ring && traceSlots ≤ l.length) then k.traceMissed f.val
    else
      let n := k.counted f.val
      let all := l ++ [⟨{ pk with payload := [] }, pk.payload.length, k.time s.now, port, out, n⟩]
      (k.setTrace f.val (all.drop (all.length - traceSlots)) (n + 1)).traceStatus f.val
/-- CLEAR empties the buffer and zeroes STATUS. -/
def Pkg.traceClear (f : Nat) (k : Pkg) : Pkg := (k.setTrace f [] 0).setRg (R.DBG_TRACE_STATUS f) 0

/-! ### The JTAG bridge (R358) -/

/-- A number from its bits, least significant first. -/
def bitsNat : List Bool → Nat
  | [] => 0
  | b :: t => b.toNat + 2 * bitsNat t
def natBits : Nat → Nat → List Bool
  | 0, _ => []
  | n + 1, v => (v % 2 = 1) :: natBits n (v / 2)
/-- A bridge message for a position while the bridge is open: the new position and the bits captured from TDO. -/
def onBridge (t : TrayId) (pos : Fin 4) (s : State) (f : PosSt → PosSt × List Bool) (op : Nat) : Out :=
  onTray t s fun c =>
    if !c.debugOpen then c
    else
      let r := f (c.at pos.val)
      (c.setPos pos.val r.1).emit (.report "BRIDGE" (256 * op + pos.val) (bitsNat r.2))
/-- The register a shift goes through: it leaves from its low end as the new bits come in at the high end. -/
def shiftThrough (held new : List Bool) : List Bool × List Bool :=
  ((held ++ new).drop new.length, (held ++ new).take new.length)
/-- SHIFT_IR: the captured instruction register ends in 01 (log 12). -/
def execShiftIr (t : TrayId) (pos : Fin 4) (bits : List Bool) (s : State) : Out :=
  onBridge t pos s (fun x =>
    let r := shiftThrough (true :: false :: (natBits 6 (Config.idcode 1).toNat)) bits
    ({ x with ir := BitVec.ofNat 8 (bitsNat r.1) }, r.2)) 1
/-- What the selected data register captures (Table 17.1). -/
def captured (key now jtagRead jtagStatus : Nat) (n : Nat) (ir : Byte) : List Bool :=
  if ir = 0x01 then natBits 32 (Config.idcode key).toNat
  else if ir = 0x02 ∨ ir = 0x03 then (List.range n).map (Config.pinSample key now)
  else if ir = 0x20 then natBits 64 (jtagStatus + 2 ^ 32 * jtagRead)
  else [false]
/-- SHIFT_DR through the selected register; an access of MGMT_ACCESS happens at Update-DR, as its own command. -/
def execShiftDr (t : TrayId) (pos : Fin 4) (bits : List Bool) (s : State) : Out :=
  let k := ((TrayId.pkgAt t pos).map s.pkg).getD {}
  onBridge t pos s (fun x =>
    let r := shiftThrough (captured (4 * t.key + pos.val) s.now k.pkc.jtagRead.toNat k.pkc.jtagStatus bits.length x.ir) bits
    ({ x with dr := r.1 }, r.2)) 2
/-- TAP_RESET selects IDCODE. -/
def execTapReset (t : TrayId) (pos : Fin 4) (s : State) : Out := onBridge t pos s (fun x => ({ x with ir := 0x01, dr := [] }, [])) 3
/-- IDLE: cycles in Run-Test/Idle change nothing. -/
def execIdle (t : TrayId) (pos : Fin 4) (cycles : Fin 4097) (s : State) : Out := onBridge t pos s (fun x => (x, natBits 13 cycles.val)) 4
/-- CLOSE_DEBUG. -/
def execCloseDebug (t : TrayId) (s : State) : Out := onTray t s fun c => { c with debugOpen := false }

end Sys2Proof.Machine
end

