-- ==== Sys2Proof/Machine/Views.lean ====
section
/-! DEFINITION. What a register reads as: the stored word, with the fields that a unit's own state shows. -/

namespace Sys2Proof.Machine
open Sys2Proof

/-- What an access knows: the time, the package, which packages of the rack are in service, and the free value of this word. -/
structure Bus where
  now : Nat
  p : PkgId
  who : Requester
  dra : Bool
  up : Nat → Bool
  v : BitVec 64

/-! ### Records shown through a window -/

/-- The 64 bytes of a log entry (Table 15.8). -/
def LogEntry.bytes (e : LogEntry) : List Byte :=
  let body := leBytes 8 e.time ++ leBytes 4 e.seq.toNat ++ leBytes 2 e.detector ++ leBytes 1 e.unit ++ leBytes 1 e.cls ++
    leBytes 1 e.kind ++ leBytes 1 e.flags ++ leBytes 2 e.count ++ leBytes 2 e.boot ++ leBytes 1 e.recoveries ++
    [e.incarnation] ++ leBytes 4 e.epoch.toNat ++ leBytes 4 e.ref.toNat ++ leBytes 8 e.info0.toNat ++ leBytes 8 e.info1.toNat ++
    leBytes 12 0
  body ++ leBytes 4 (crc32c body)
/-- The 64 bytes of a trace record (Table 17.4). -/
def TraceRec.bytes (x : TraceRec) : List Byte :=
  headerBytes x.pk x.len ++ leBytes 8 x.time ++ [x.port] ++ leBytes 1 x.out.toNat ++ leBytes 2 0 ++ leBytes 4 x.number ++ leBytes 16 0
/-- Word n of a record. -/
def wordAt (b : List Byte) (n : Nat) : Nat := leAt b (4 * n) 4

/-! ### Registers that show a unit's state -/

def regRow (d : RegDesc) (off : Nat) : Nat := if d.s1 = 0 then 0 else (off - d.base) / d.s1
def regCol (d : RegDesc) (off : Nat) : Nat :=
  if d.s2 = 0 then 0 else (if d.s1 = 0 then off - d.base else (off - d.base) % d.s1) / d.s2
def portCode : PortState → Nat
  | .off => 0
  | .training => 1
  | .active => 2
  | .retraining => 3
  | .down => 4
  | .parked => 5
  | .miswired => 6
  | .peerDark => 7
  | .heldDown => 8
/-- Every in-service link is parked. -/
def Pkg.linksParked (k : Pkg) : Bool :=
  k.rt.ports.any (fun e => e.2.state = .parked) && k.rt.ports.all (fun e => decide (e.2.state ≠ .active) && decide (e.2.state ≠ .retraining))
/-- FAB_TREE_STATE: LOCAL is stored, the rest follows from the active Chart and the open rounds (R168). -/
def Pkg.treeState (k : Pkg) (t : Nat) : Nat :=
  let r := k.tree t
  let on := !k.chart.active.isEmpty && onTree r k.idx
  let root := on && treeRoot r = k.idx
  let parent := if root then 31 else ((treeParent r k.idx).map (·.2)).getD 0
  2 ^ 31 * on.toNat + 2 ^ 30 * root.toNat + (if on then 2 ^ 24 * parent else 0) + 2 ^ 16 * (k.tally.slots.filter (fun x => x.tree = t)).length
/-- CORE_PSTATE.STATE: 6 dark, 5 package moored, 4 tile furled, and else the core's own state. -/
def Pkg.shownState (k : Pkg) (c : Nat) : Nat :=
  if k.coreDark c then 6 else if k.moored then 5 else if k.cFurled (k.phys c / 48) then 4 else k.pstate c
/-- The registers that F-tile 1 only mirrors: a register of F-tile 0 and how many follow it. -/
def mirrored (b : Nat) : Bool :=
  b = R.FAB_LINK_CFG 0 || b = R.FAB_TREE_CFG 0 || b = R.FAB_WEIGHT_STATUS 0 || b = R.FAB_WEIGHT 0 0 || b = R.FAB_PLANE_SPREAD 0 0
def ftileSpan : Nat := 0x80000

/-- The value of the register at `off`, described by `d`. -/
def Pkg.view (x : Bus) (k : Pkg) (d : RegDesc) (off : Nat) : Nat :=
  let i := regRow d off
  let j := regCol d off
  let b := d.base
  let w := (k.rg off).toNat
  if b < 0x10000 then
    if b = R.AON_PKG_INCARNATION then k.ret.pkgInc.toNat
    else if b = R.AON_CLK_STATUS then (if k.holdover then w / 2 * 2 + x.v.toNat % 2 else w)
    else if b = R.AON_TIME_LO then k.time x.now % 2 ^ 32
    else if b = R.AON_TIME_HI then k.time x.now / 2 ^ 32
    else if b = R.AON_TIME_STATUS then w + 4 * (decide (k.aon.slewed x.now ≠ k.aon.slewBy)).toNat
    else if b = R.AON_PKG_STATE then w + 2 ^ 9 * k.linksParked.toNat
    else if b = R.AON_PREWAKE_CTRL then w + 2 ^ 10 * k.aon.slots.length
    else w
  else if b < 0x30000 then
    if b = R.PKC_LEND_POOL then w + 2 ^ 16 * k.usedGib
    else if b = R.CHT_OLD_OUT then min 65535 k.oldOut
    else w
  else if b < 0x40000 then
    if b = R.FLT_STATUS then w + 2 ^ 16 * k.flt.pend.length + min 255 k.quarCount
    else if b = R.FLT_LOG_DATA 0 then ((sfind k.flt.log (k.get F.FLT_LOG_SEL_SLOT)).map (fun e => wordAt e.bytes i)).getD 0
    else if b = R.FLT_PEND 0 then
      ((sfind k.flt.pend i).map (fun e => 2 ^ 31 + e.cls * 2 ^ 29 + e.detector * 2 ^ 16 + e.unit)).getD 0
    else if b = R.FLT_PEND_SEQ 0 then ((sfind k.flt.pend i).map (fun e => e.seq.toNat)).getD 0
    else if b = R.FLT_LW 0 then (k.ret.lw.getD i 0).toNat
    else if b = R.FLT_LW_STATUS then k.ret.lwOverrun * 256 + k.ret.lw.length
    else if b = R.FLT_UNIT 0 then k.unitState i * 2 ^ 16 + k.recoveries x.now i
    else w
  else if b < 0x60000 then
    if b = R.THR_COOLANT then w + 2 ^ 16 * min 4095 ((x.now - k.thr.coolantAt) / 1000000)
    else if b = R.THR_HEAD_W 0 then k.headWord x.who i
    else w
  else if b < 0x80000 then
    if b = R.DBG_STATUS then w + 2 ^ 8 * ((List.range 192).filter k.coreHalted).length + k.overrides.toNat
    else if b = R.DBG_TRACE_DATA 0 0 then (((k.traceBuf i)[k.get (F.DBG_TRACE_SEL_SLOT i)]?).map (fun e => wordAt e.bytes j)).getD 0
    else w
  else if b < 0x100000 then
    if b = R.UPD_STAGED_VERSION_LO then (if k.stage = 3 then (k.bankVer (1 - k.activeBank)).toNat % 2 ^ 32 else 0)
    else if b = R.UPD_STAGED_VERSION_HI then (if k.stage = 3 then (k.bankVer (1 - k.activeBank)).toNat / 2 ^ 32 else 0)
    else w
  else if b < 0x400000 then
    let q := 12 * i + j
    if mirrored b then (k.rg (off - ftileSpan * i)).toNat
    else if b = R.FAB_PORT_STATUS 0 0 then
      portCode (k.port q).state + 2 ^ 24 * min 255 ((k.port q).retrainStarts.filter (fun t => x.now < t + 10 ^ 9)).length
    else if b = R.FAB_PORT_ERRS 0 0 then
      min 65535 (k.port q).crcBlocks * 2 ^ 16 + min 255 (k.port q).failedReplays * 256 + min 255 (k.port q).downs
    else if b = R.FAB_PORT_PEER 0 0 then (k.port q).identity.toNat
    else if b = R.FAB_PORT_LEVEL 0 0 then min 255 (k.port q).peakRead * 256 + min 255 (k.port q).now
    else if b = R.FAB_TREE_STATE 0 0 then (if j % 2 = i then w + k.treeState j else 0)
    else w
  else if b < 0x800000 then
    if b = R.CORE_ID 0 then (endpoint k.addr i).toNat
    else if b = R.CORE_INCARNATION 0 then (k.coreInc i).toNat
    else if b = R.CORE_PSTATE 0 then w / 8 * 8 + k.shownState i
    else if b = R.CORE_DBG_STATUS 0 then w + 16 * min 7 (k.claspsOf i)
    else if b = R.CORE_DBG_PC_LO 0 then (if k.coreHalted i then w else x.v.toNat % 2 ^ 32)
    else if b = R.CORE_DBG_PC_HI 0 then (if k.coreHalted i then w else x.v.toNat / 2 ^ 32 % 2 ^ 12)
    else w
  else
    if b = R.BRG_STATUS 0 then
      (if k.engineOff i then 3 else if (k.engine i).running.isSome then 1 else 0) + 16 * (k.engine i).queue.length
    else w

/-! ### Reads -/

/-- The fields that a normal read clears (Table 17.3). -/
def Pkg.readClears (k : Pkg) (d : RegDesc) (off : Nat) : Pkg :=
  let q := 12 * regRow d off + regCol d off
  if d.rc = 0 then k
  else if d.base = R.FAB_PORT_ERRS 0 0 then k.setPort q { k.port q with crcBlocks := 0, failedReplays := 0, downs := 0 }
  else if d.base = R.FAB_PORT_LEVEL 0 0 then k.setPort q { k.port q with peakRead := 0 }
  else k.setRg off (k.rg off &&& ~~~ (BitVec.ofNat 32 d.rc))
def latchKey (who : Requester) (off : Nat) : Nat := 2 ^ 26 * who.key + off
/-- A read of the lowest word of a wide value latches its upper words for the requester (R16). -/
def Pkg.latchUpper (x : Bus) (d : RegDesc) (off : Nat) (k : Pkg) : Pkg :=
  (List.range (d.words - 1)).foldl (fun k n =>
    let o := off + 4 * (n + 1)
    let v := match findReg o with
      | some e => BitVec.ofNat 32 (k.view x e o)
      | none => 0
    { k with latch := sset 0 k.latch (latchKey x.who o) v }) k
/-- A read of a register: the word, and what the read changes. `plain` is a read through the normal window, which takes the
register's side effect (R17); the latch belongs to the requester whatever the window (R360). -/
def Pkg.busRead (x : Bus) (d : RegDesc) (off : Nat) (plain : Bool) (k : Pkg) : Word × Pkg :=
  if 1 < d.words ∧ d.w ≠ 0 then (sget 0 k.latch (latchKey x.who off), k)
  else
    let k1 := if 1 < d.words then k.latchUpper x d off else k
    (BitVec.ofNat 32 (k.view x d off), if plain then k1.readClears d off else k1)

end Sys2Proof.Machine
end

