-- ==== Sys2Proof/Machine/Bus.lean ====
section
/-! DEFINITION. The management space (R13–R18, R62, R79, R359, R392): what a write of a register does, and an access by the host, the tray
controller or JTAG, with the waking of the block it names. -/

namespace Sys2Proof.Machine
open Sys2Proof

/-! ### Rejected and ignored writes -/

/-- A value on a range and its grid (R5). -/
def gridOk (lo hi step v : Nat) : Bool := lo ≤ v && v ≤ hi && (v - lo) % step = 0
/-- A field value or a relation between fields that the register's description does not allow (R5, R392). -/
def Pkg.rejects (k : Pkg) (b w : Nat) : Bool :=
  if b = R.AON_PREWAKE_CTRL then bits w 16 8 = 0 || (191 < bits w 0 8 && bits w 0 8 ≠ 255)
  else if b = R.PKC_LEND_POOL then 288 < bits w 0 9 || bits w 0 9 < k.usedGib
  else if b = R.CHT_LOAD_LEN then !gridOk 8 (2 ^ 22) 8 (bits w 0 23)
  else if b = R.FLT_CFG then bits w 16 8 = 0 || 20 < bits w 8 5 || !gridOk 1 250 1 (bits w 0 8)
  else if b = R.PWR_DROOP_CFG then !gridOk 10 40 5 (bits w 0 6)
  else if b = R.PWR_GUARD 0 then !gridOk 15 60 1 (bits w 0 6)
  else if b = R.THR_RESIST_CFG then !gridOk 300 1200 1 (bits w 16 16) || bits w 8 8 = 0
  else if b = R.FAB_LINK_CFG 0 then
    bits w 28 4 = 0 || !gridOk 4 20 1 (bits w 16 8) || !gridOk 1 19 1 (bits w 8 8) || !gridOk 3 16 1 (bits w 0 5) ||
      2 * bits w 16 8 ≤ bits w 0 5 + 2 || bits w 16 8 ≤ bits w 8 8
  else if b = R.FAB_TREE_CFG 0 then !gridOk 5 255 1 (bits w 8 8) || !gridOk 1 100 1 (bits w 0 8)
  else if b = R.BRG_QCFG 0 then 1572864 < 64 * bits w 8 19 + 320 || (191 < bits w 0 8 && bits w 0 8 ≠ 255)
  else if b = R.UPD_PUSH_LEN then !gridOk 8 (15 * 2 ^ 20) 8 (bits w 0 24)
  else if b = R.DBG_ROUTE_OVR 0 then
    bits w 28 3 = 5 || bits w 28 3 = 6 || (31 < bits w 20 8 && bits w 20 8 ≠ 255) || (95 < bits w 12 8 && bits w 12 8 ≠ 255) ||
      23 < bits w 0 9
  else false
/-- The status that a rejected write of a register raises, where its description names one (R392). -/
def rejectFlag (b : Nat) : Option Fld :=
  if b = R.FLT_CFG then some F.FLT_STATUS_REJECT
  else if b = R.FAB_LINK_CFG 0 then some (F.FAB_LINK_CFG_REJECT 0)
  else if b = R.DBG_ROUTE_OVR 0 then some F.DBG_STATUS_REJECT
  else none
def Pkg.pkcInReset (k : Pkg) : Bool := decide (k.pkc.run = .reset)
/-- A write that the register's description ignores, for its requester or for the state the package is in. -/
def Pkg.ignores (x : Bus) (k : Pkg) (d : RegDesc) (off w : Nat) : Bool :=
  let i := regRow d off
  let j := regCol d off
  let b := d.base
  let cw := decide (x.who = .cw)
  if b = R.AON_PKG_ADDR then !(cw && k.pkcInReset)
  else if b = R.AON_PREWAKE_CTRL then bit w 8 && bit w 25
  else if b = R.PKC_HOST_SPILL_BASE_LO || b = R.PKC_HOST_SPILL_BASE_HI || b = R.PKC_HOST_SPILL_LEN then k.mem.segs.any (fun e => e.2.tier = 5)
  else if b = R.FLT_MIRRORED then decide (x.who = .host)
  else if b = R.FLT_QUAR 0 || b = R.FLT_BOOT || b = R.PWR_GUARD 0 || b = R.PWR_AGE_HOURS || b = R.THR_RESIST_EST then !k.pkcInReset
  else if b = R.FLT_RELEASE then !(cw && !x.dra)
  else if b = R.PWR_LADDER_CAP || b = R.THR_COOLANT then !cw
  else if 0x60000 ≤ b && b < 0x70000 then
    (i < 2 && decide (x.who ≠ .jtag)) || (b ≠ R.CSU_CTRL 0 && k.csuBusy i)
  else if b = R.DBG_ROUTE_OVR 0 then !(decide (x.who = .jtag) || (cw && !x.dra))
  else if b = R.UPD_PUSH_LEN then !k.pushOpen
  else if mirrored b then i = 1
  else if b = R.FAB_TREE_STATE 0 0 then j % 2 ≠ i
  else if b = R.CORE_SEG_BASE 0 0 || b = R.CORE_SEG_LEN 0 0 || b = R.CORE_SEG_LENDER 0 0 then k.segValid i j || k.segStatus i j = 1
  else if b = R.BRG_QCFG 0 then (k.engine i).running.isSome || !(k.engine i).queue.isEmpty
  else false

/-! ### What a write does -/

/-- RW fields take the value, and a 1 clears a W1C bit; reserved bits and RO fields are left (R13, R14). -/
def Pkg.storeFields (d : RegDesc) (off : Nat) (w : Word) (k : Pkg) : Pkg :=
  let rw := BitVec.ofNat 32 d.rw
  k.setRg off (((k.rg off &&& ~~~ rw) ||| (w &&& rw)) &&& ~~~ (w &&& BitVec.ofNat 32 d.w1c))
/-- The W1C fields alone. -/
def Pkg.storeClears (d : RegDesc) (off : Nat) (w : Word) (k : Pkg) : Pkg :=
  k.setRg off (k.rg off &&& ~~~ (w &&& BitVec.ofNat 32 d.w1c))
/-- FAB_PORT_CTRL: RETRAIN, RELEASE and HOLD_DOWN, in this order where a write sets more than one (log 42). A port whose unit is isolated
or quarantined stays HELD_DOWN (Table 15.2, R331). -/
def Pkg.portCtrl (now q w : Nat) (k : Pkg) : Pkg :=
  let k1 := if bit w 0 then k.portDo now q (fun x => x.startFast now) else k
  let k2 := if bit w 2 && decide (k.unitState (208 + q) < 3) then k1.portDo now q (PortSt.release k.mayTrain) else k1
  if bit w 1 then k2.portDo now q (fun x => x.holdDown now) else k2
/-- The units of a word of FLT_QUAR that a write newly sets stay dark (R330). -/
def quarSet (now : Nat) (p : PkgId) (i old new : Nat) (m : Mem) (k : Pkg) : Mem × Pkg :=
  ((List.range 32).filter (fun b => bit new b && !bit old b && 32 * i + b < 248)).foldl
    (fun (mk : Mem × Pkg) b => isolate now p (32 * i + b) mk.1 mk.2) (m, k)
/-- The actions of a write that has been taken, after its RW fields. -/
def busAct (x : Bus) (d : RegDesc) (off : Nat) (w : Word) (m : Mem) (k : Pkg) : Mem × Pkg :=
  let i := regRow d off
  let j := regCol d off
  let b := d.base
  let v := w.toNat
  let now := x.now
  if b < 0x30000 then
    if b = R.AON_CLK_CTRL then (m, if bit v 1 then k.forceClock now else k.selectSource now)
    else if b = R.AON_PREWAKE_CTRL then prewakeCtrl now x.p (bit v 8) (bit v 25) m k
    else if b = R.CHT_LOAD_CTRL then (m, k.loadCtrl (bit v 0) (bit v 1) (bit v 2))
    else if b = R.CHT_LOAD_DATA then (m, k.loadWord w)
    else if b = R.CHT_TURN_CTRL then (m, k.turnCtrl now (bit v 0) (bit v 1))
    else (m, k)
  else if b < 0x60000 then
    if b = R.FLT_HANDLE then (m, k.handle now (bits v 8 2) (bits v 0 4))
    else if b = R.FLT_LW_CLEAR then (m, if bit v 0 then k.clearLast else k)
    else if b = R.FLT_RELEASE then (m, if bit v 8 then k.releaseUnit now (bits v 0 8) else k)
    else if b = R.PWR_GUARD 0 then (m, if i < 4 then k.takeGuard i else k)
    else (m, k)
  else if b < 0x100000 then
    if b = R.CSU_CTRL 0 then (m, k.csuCtrl i (bit v 0) (bit v 1) (bit v 2))
    else if b = R.DBG_TRACE_CTRL 0 then (m, if bit v 2 then k.traceClear i else k)
    else if b = R.UPD_PUSH_CTRL then (m, if bit v 0 then k.pushStart else k)
    else if b = R.UPD_PUSH_DATA then (m, k.pushWord w)
    else (m, k)
  else if b < 0x400000 then
    if b = R.FAB_PORT_CTRL 0 0 then tallySettle now x.p m (k.portCtrl now (12 * i + j) v) else (m, k)
  else if b < 0x800000 then
    if b = R.CORE_PSTATE 0 then enterState now x.p i (bits v 8 2) m k
    else if b = R.CORE_DBG_CTRL 0 then
      (m, k.dbgCtrl now i (bit v 0) (bit v 1) (bit v 2) (bit v 3) (x.v.toNat % 2 ^ 44))
    else (m, k)
  else
    if b = R.BRG_CTRL 0 then (if bit v 0 then brgAbort now x.p i m k else (m, k))
    else if b = R.BRG_HOSTQ_GO 0 then (if bit v 0 then hostqGo now x.p i m k else (m, k))
    else (m, k)
/-- A write of a register: ignored, rejected (R392), or taken. A write that its register ignores and that also holds a rejected field is ignored: its
W1C fields do not act (DESIGN CHOICE, log 91). -/
def busWrite (x : Bus) (d : RegDesc) (off : Nat) (w : Word) (m : Mem) (k : Pkg) : Mem × Pkg :=
  let i := regRow d off
  let j := regCol d off
  if k.ignores x d off w.toNat then (m, k)
  else if k.rejects d.base w.toNat then
    let k1 := k.storeClears d off w
    (m, match rejectFlag d.base with
      | some f => k1.flag f true
      | none => k1)
  else if d.base = R.CORE_SEG_CTRL 0 0 then (m, k.segCtrlWrite x.now x.up i j w)
  else if d.base = R.PWR_LADDER_CAP then (m, k.capWrite F.PWR_LADDER_CAP_CAP w)
  else if d.base = R.PWR_HOST_CAP then (m, k.capWrite F.PWR_HOST_CAP_CAP w)
  else if d.base = R.THR_COOLANT then (m, k.coolantWrite x.now (bits w.toNat 0 12))
  else if d.base = R.THR_HEAD_W 0 then (m, k.headWrite x.who i w)
  else if d.base = R.THR_HEAD_W3 then commitHeading x.now x.p x.who w m k
  else if d.base = R.FLT_QUAR 0 then quarSet x.now x.p i (k.rg off).toNat w.toNat m (k.storeFields d off w)
  else if d.base = R.DBG_ROUTE_OVR 0 then (m, Pkg.reportOverride k (k.storeFields d off w))
  else if d.base = R.CSU_CTRL 0 ∧ k.csuBusy i then busAct x d off w m k
  else busAct x d off w m (k.storeFields d off w)

/-! ### One access -/

/-- The blocks whose accesses the pause of an update refuses (R346). -/
def pausedBlock (off : Nat) : Bool := (0x10000 ≤ off && off < 0x20000) || (0x80000 ≤ off && off < 0x90000)
/-- Whether an access is refused: narrower or misaligned (R18), outside the two windows or naming no register (R62), or barred (R346). -/
def Pkg.busRefuses (k : Pkg) (off size : Nat) : Bool :=
  size ≠ 4 || off % 4 ≠ 0 || 2 ^ 25 ≤ off || (findReg (off % 2 ^ 24)).isNone ||
    (k.get F.UPD_STATUS_PAUSED = 1 && pausedBlock (off % 2 ^ 24))
/-- One word of an access; no answer where it is refused, and then with no effect. -/
def busOne (x : Bus) (off size : Nat) (w : Option Word) (m : Mem) (k : Pkg) : Option (Word × Mem × Pkg) :=
  if k.busRefuses off size then none
  else match findReg (off % 2 ^ 24) with
  | none => none
  | some d =>
    match w with
    | none =>
      let r := k.busRead x d (off % 2 ^ 24) (decide (off < 2 ^ 24))
      some (r.1, m, r.2)
    | some w =>
      let r := busWrite x d (off % 2 ^ 24) w m k
      some (0, r.1, r.2)

/-! ### Waking the block (R79, Table 3.4) -/

/-- The core whose window holds an offset, where the access is served by the core's own domains. -/
def windowCore (o : Nat) : Option Nat :=
  if 0x400000 ≤ o ∧ o < 0x4C0000 ∧ o % 0x1000 ≠ 0x100 then some ((o - 0x400000) / 0x1000) else none
/-- The domains that hold the block of an offset; none for what the always-on domain serves (R79, R336). Those of a core or engine that is held off
stay off (R104), and its tile serves the access. -/
def Pkg.blockDomains (k : Pkg) (o : Nat) : List Nat :=
  if o < 0x20000 then []
  else if o = R.FLT_BOOT || (R.FLT_LW 0 ≤ o && o ≤ R.FLT_LW_STATUS) || (R.FLT_QUAR 0 ≤ o && o < R.FLT_RELEASE) || (R.FLT_UNIT 0 ≤ o && o < 0x30800)
    then []
  else if o < 0x60000 then [410]
  else if o < 0x70000 then
    let u := (o - 0x60000) / 0x100
    if u < 4 then [410] else if u < 6 then [396 + u] else [378 + u]
  else if o < 0x70200 then [410]
  else if o < 0x80000 then [400 + (o - 0x70200) / 0x80]
  else if o < 0x100000 then [410]
  else if o < 0x400000 then [400 + (o - 0x100000) / 0x80000]
  else if o < 0x800000 then
    match windowCore o with
    | some c => if k.dark.dark.any (fun e => e.2 = .holdOff && darkCovers e.1 c (k.phys c)) then [384 + k.phys c / 48] else
        [k.phys c, 384 + k.phys c / 48]
    | none => []
  else
    let t := (o - 0x800000) / 0x10000
    if holdOff k.localImg k.idx (192 + t) then [384 + t] else [388 + t, 384 + t]
/-- An access wakes the block it names; one to a core's window wakes the core, and in Moor the infrastructure with it (R80). -/
def Pkg.wakeBlock (o : Nat) (k : Pkg) : Pkg :=
  let k1 := match windowCore o with
    | some c => if k.coreDark c then k else (if k.moored then k.wakeInfra else k).wakeCore c
    | none => k
  (k1.wakeDomains (k.blockDomains o)).wakeCause 7

/-! ### Accesses as operations -/

/-- Where the answer of an access goes. -/
inductive BusAnswer where
  | bus
  | message (inst : Nat) (command : Nat)
  | dr
  deriving DecidableEq, Repr
/-- An access: its requester, size, and words in order, each a read or a write. `next` is what only the environment knows: the address
that a single step leads to. -/
structure BusOp where
  who : Requester
  size : Nat
  words : List (Nat × Option Word)
  next : Option (BitVec 64)
  answer : BusAnswer
  deriving DecidableEq, Repr

/-- A write of one register. -/
def writeOp (who : Requester) (off : Nat) (w : Word) : BusOp := ⟨who, 4, [(off, some w)], none, .bus⟩
/-- The offsets of `n` words of a READ_REG, a WRITE_REG or a DRA access. -/
def wordOffsets (off n : Nat) (fixed : Bool) : List Nat := (List.range n).map fun i => if fixed then off else off + 4 * i
/-- The access that a command makes, and of which package. -/
def busOpOf : Instr → Option (PkgId × BusOp)
  | .registerWrite p who off size v => some (p, ⟨who, size, [(off.toNat, some v)], none, .bus⟩)
  | .readClear p who off size => some (p, ⟨who, size, [(off.toNat, none)], none, .bus⟩)
  | .lowWordRead p who off size => some (p, ⟨who, size, [(off.toNat, none)], none, .bus⟩)
  | .place p who c n w => some (p, writeOp who (R.CORE_SEG_CTRL c.val n.val) (w ||| 2))
  | .segmentRelease p who c n w => some (p, writeOp who (R.CORE_SEG_CTRL c.val n.val) (w ||| 4))
  | .force p who w => some (p, writeOp who R.AON_CLK_CTRL (w ||| 2))
  | .enterNap p who c hold => some (p, writeOp who (R.CORE_PSTATE c.val) (BitVec.ofNat 32 (0x100 + 16 * hold.toNat)))
  | .enterDoze p who c hold => some (p, writeOp who (R.CORE_PSTATE c.val) (BitVec.ofNat 32 (0x200 + 16 * hold.toNat)))
  | .wakeToRun p who c hold => some (p, writeOp who (R.CORE_PSTATE c.val) (BitVec.ofNat 32 (0x300 + 16 * hold.toNat)))
  | .arm p who w => some (p, writeOp who R.AON_PREWAKE_CTRL (w ||| 0x100))
  | .prewakeCancel p who w => some (p, writeOp who R.AON_PREWAKE_CTRL (w ||| 0x2000000))
  | .start p who u w => some (p, writeOp who (R.CSU_CTRL u.val) (w ||| 1))
  | .csuAbort p who u w => some (p, writeOp who (R.CSU_CTRL u.val) (w ||| 2))
  | .finish p who u w => some (p, writeOp who (R.CSU_CTRL u.val) (w ||| 4))
  | .beginPort p who => some (p, writeOp who R.CHT_LOAD_CTRL 1)
  | .beginDma p who => some (p, writeOp who R.CHT_LOAD_CTRL 2)
  | .loadCancel p who => some (p, writeOp who R.CHT_LOAD_CTRL 4)
  | .loadData p who w => some (p, writeOp who R.CHT_LOAD_DATA w)
  | .go p who => some (p, writeOp who R.CHT_TURN_CTRL 1)
  | .operatorAbort p who => some (p, writeOp who R.CHT_TURN_CTRL 2)
  | .retrain p who q => some (p, writeOp who (R.FAB_PORT_CTRL (q.val / 12) (q.val % 12)) 1)
  | .holdDown p who q => some (p, writeOp who (R.FAB_PORT_CTRL (q.val / 12) (q.val % 12)) 2)
  | .portRelease p who q => some (p, writeOp who (R.FAB_PORT_CTRL (q.val / 12) (q.val % 12)) 4)
  | .hostqGo p who t => some (p, writeOp who (R.BRG_HOSTQ_GO t.val) 1)
  | .brgAbort p who t => some (p, writeOp who (R.BRG_CTRL t.val) 1)
  | .pwrLadderCapWrite p who w => some (p, writeOp who R.PWR_LADDER_CAP w)
  | .pwrHostCapWrite p who w => some (p, writeOp who R.PWR_HOST_CAP w)
  | .thrCoolantWrite p who w => some (p, writeOp who R.THR_COOLANT w)
  | .headingCommit p who w3 => some (p, writeOp who R.THR_HEAD_W3 w3)
  | .resolved p who slot => some (p, writeOp who R.FLT_HANDLE (BitVec.ofNat 32 (0x100 + slot.val)))
  | .escalate p who slot => some (p, writeOp who R.FLT_HANDLE (BitVec.ofNat 32 (0x200 + slot.val)))
  | .fltRelease p who w => some (p, writeOp who R.FLT_RELEASE w)
  | .lwClear p who w => some (p, writeOp who R.FLT_LW_CLEAR (w ||| 1))
  | .pushBegin p who => some (p, writeOp who R.UPD_PUSH_CTRL 1)
  | .pushData p who w => some (p, writeOp who R.UPD_PUSH_DATA w)
  | .halt p who c => some (p, writeOp who (R.CORE_DBG_CTRL c.val) 1)
  | .resume p who c => some (p, writeOp who (R.CORE_DBG_CTRL c.val) 2)
  | .step p who c pc => some (p, { writeOp who (R.CORE_DBG_CTRL c.val) 4 with next := some (pc.zeroExtend 64) })
  | .releaseClasps p who c => some (p, writeOp who (R.CORE_DBG_CTRL c.val) 8)
  | .traceClear p who f w => some (p, writeOp who (R.DBG_TRACE_CTRL f.val) (w ||| 4))
  | .readReg p inst off ctrl =>
    some (p, ⟨.cw, 4, (wordOffsets off.toNat (ctrl.toNat % 16) (bit ctrl.toNat 7)).map (fun o => (o, none)), none, .message inst.toNat 2⟩)
  | .writeReg p inst off ctrl ws =>
    some (p, ⟨.cw, 4, (wordOffsets off.toNat (ctrl.toNat % 16) (bit ctrl.toNat 7)).zip (ws.map some), none, .message inst.toNat 3⟩)
  | .mgmtAccess p dr =>
    let lo := (dr.truncate 32).toNat
    some (p, ⟨.jtag, 4, [(4 * bits lo 2 24, if bit lo 1 then some ((dr >>> 32).truncate 32) else none)], none, .dr⟩)
  | _ => none

/-- A requester whose accesses reach the package: the host while its port is up, the CW over MCTP while the PKC answers (R346), and JTAG
while the bridge is open with MGMT_ACCESS selected (R358, R359). -/
def State.reaches (s : State) (p : PkgId) : Requester → Bool
  | .host => !(s.pkg p).pkc.hostInReset
  | .cw => (s.pkg p).mctpUp
  | .jtag =>
    let c := s.tray (PkgId.tray p)
    c.debugOpen && (c.at p.position).ir == 0x20
/-- The words of an access that come before the first one refused. -/
def Pkg.goodWords (k : Pkg) (op : BusOp) : List Nat :=
  ((op.words.map (·.1)).takeWhile fun o => !k.busRefuses o op.size).map (· % 2 ^ 24)
/-- The domains an access needs. -/
def Pkg.opDomains (k : Pkg) (op : BusOp) : List Nat := (k.goodWords op).flatMap k.blockDomains
/-- An access waits while a domain it needs is off, or while an earlier access waits for one of them. -/
def Pkg.mustDefer (k : Pkg) (op : BusOp) : Bool :=
  let ds := k.opDomains op
  ds.any (fun d => !k.domainOn d) ||
    k.aon.deferred.any (fun i => match busOpOf i with
      | some e => (k.opDomains e.2).any ds.contains
      | none => false)
/-- The words of an access, in order up to the first one refused: what was read, whether all were served, and the package. -/
def busWords (x : Bus) (free size : Nat) : List (Nat × Option Word) → Mem × Pkg → List Word × Bool × Mem × Pkg
  | [], mk => ([], true, mk.1, mk.2)
  | w :: rest, mk =>
    match busOne { x with v := Config.freeWord free } w.1 size w.2 mk.1 mk.2 with
    | none => ([], false, mk.1, mk.2)
    | some r =>
      let t := busWords x (free + 1) size rest (r.2.1, r.2.2)
      (r.1 :: t.1, t.2)
/-- The answer of an access. -/
def BusOp.reply (op : BusOp) (got : List Word) (ok : Bool) (k : Pkg) : Pkg :=
  let off := (op.words.map (·.1)).headD 0
  let read := op.words.any (fun e => e.2.isNone)
  match op.answer with
  | .bus => k.emit (if !ok then .busError op.who off else if read then .busData op.who off (got.headD 0) else .busDone op.who off)
  | .message inst command => k.emit (.cwAnswer inst command (if ok then 0 else 5)
      (if ok && read then got.flatMap (fun w => leBytes 4 w.toNat) else []))
  | .dr => { k with pkc := { k.pkc with jtagRead := if ok && read then got.headD 0 else 0, jtagStatus := if ok then 0 else 1 } }
/-- The access itself; the package may go dark by it (a verdict that escalates, R322). -/
def State.busPerform (p : PkgId) (op : BusOp) (dra : Bool) (s : State) : (List Word × Bool) × State :=
  let k := s.pkg p
  let x : Bus := ⟨s.now, p, op.who, dra, s.upIn p.rack, 0⟩
  let r := match op.next, op.words with
    | some v, [w] =>
      match busOne { x with v := v } w.1 op.size w.2 s.mem k with
      | some e => ([e.1], true, e.2.1, e.2.2)
      | none => ([], false, s.mem, k)
    | _, _ => busWords x s.free op.size op.words (s.mem, k)
  let k1 := if dra then r.2.2.2 else op.reply r.1 r.2.1 r.2.2.2
  let s1 := { s with mem := r.2.2.1, free := s.free + op.words.length }.setPkg p k1
  ((r.1, r.2.1), if k1.pkgDark && !k.pkgDark then s1.loseLender p.rack k.addr else s1)
/-- A command that is an access: it does not arrive, waits for its block, or acts. -/
def busAccess (i : Instr) (s : State) : Out :=
  match busOpOf i with
  | none => .next s
  | some (p, op) =>
    if !s.reaches p op.who then .next s
    else if (s.pkg p).mustDefer op then
      onPkg p s fun k =>
        let k1 := ((k.goodWords op).filter (fun o => (k.blockDomains o).any (fun d => !k.domainOn d))).foldl (fun k o => k.wakeBlock o) k
        let k2 := if op.answer = .dr then { k1 with pkc := { k1.pkc with jtagStatus := 2 } } else k1
        { k2 with aon := { k2.aon with deferred := k2.aon.deferred ++ [i] } }
    else .next (s.busPerform p op false).2

/-! ### The rows that are accesses -/

/-- REGISTER_WRITE (R13, R14, R18, R62, R392). -/
def execRegisterWrite (p : PkgId) (who : Requester) (off : BitVec 25) (size : Nat) (v : Word) (s : State) : Out :=
  busAccess (.registerWrite p who off size v) s
/-- READ_CLEAR: a read of an RC register clears its fields at the normal offset (R13, R17). -/
def execReadClear (p : PkgId) (who : Requester) (off : BitVec 25) (size : Nat) (s : State) : Out :=
  busAccess (.readClear p who off size) s
/-- LOW_WORD_READ: a read of the lowest word latches the upper ones for its requester (R16). -/
def execLowWordRead (p : PkgId) (who : Requester) (off : BitVec 25) (size : Nat) (s : State) : Out :=
  busAccess (.lowWordRead p who off size) s
/-- DEFERRED_ACCESS_COMPLETE: the domains are up, and the accesses that waited are served in order (R79). -/
def execDeferredAccessComplete (p : PkgId) (s : State) : Out :=
  let k := s.pkg p
  let s1 := s.setPkg p { k with aon := { k.aon with deferred := [] } }
  .next (k.aon.deferred.foldl (fun s i => match busOpOf i with
    | some e => (s.busPerform p e.2 false).2
    | none => s) s1)
/-- PLACE (R44–R48). -/
def execPlace (p : PkgId) (who : Requester) (c : Core) (n : Fin 64) (w : Word) (s : State) : Out := busAccess (.place p who c n w) s
/-- SEGMENT_RELEASE (CORE_SEG_CTRL). -/
def execSegmentRelease (p : PkgId) (who : Requester) (c : Core) (n : Fin 64) (w : Word) (s : State) : Out :=
  busAccess (.segmentRelease p who c n w) s
/-- FORCE (R64). -/
def execForce (p : PkgId) (who : Requester) (w : Word) (s : State) : Out := busAccess (.force p who w) s
/-- ENTER = Nap (R72). -/
def execEnterNap (p : PkgId) (who : Requester) (c : Core) (hold : Bool) (s : State) : Out := busAccess (.enterNap p who c hold) s
/-- ENTER = Doze (R72, R73). -/
def execEnterDoze (p : PkgId) (who : Requester) (c : Core) (hold : Bool) (s : State) : Out := busAccess (.enterDoze p who c hold) s
/-- ENTER = wake to Run. -/
def execWakeToRun (p : PkgId) (who : Requester) (c : Core) (hold : Bool) (s : State) : Out := busAccess (.wakeToRun p who c hold) s
/-- ARM (R81). -/
def execArm (p : PkgId) (who : Requester) (w : Word) (s : State) : Out := busAccess (.arm p who w) s
/-- CANCEL of a pre-wake slot (R83). -/
def execPrewakeCancel (p : PkgId) (who : Requester) (w : Word) (s : State) : Out := busAccess (.prewakeCancel p who w) s
/-- START of a check-value job (R93). -/
def execStart (p : PkgId) (who : Requester) (u : Fin 10) (w : Word) (s : State) : Out := busAccess (.start p who u w) s
/-- ABORT of a check-value job (R94). -/
def execCsuAbort (p : PkgId) (who : Requester) (u : Fin 10) (w : Word) (s : State) : Out := busAccess (.csuAbort p who u w) s
/-- FINISH of a stream (R92). -/
def execFinish (p : PkgId) (who : Requester) (u : Fin 10) (w : Word) (s : State) : Out := busAccess (.finish p who u w) s
/-- BEGIN_PORT (R120). -/
def execBeginPort (p : PkgId) (who : Requester) (s : State) : Out := busAccess (.beginPort p who) s
/-- BEGIN_DMA (R120). -/
def execBeginDma (p : PkgId) (who : Requester) (s : State) : Out := busAccess (.beginDma p who) s
/-- CANCEL of a load (R121). -/
def execLoadCancel (p : PkgId) (who : Requester) (s : State) : Out := busAccess (.loadCancel p who) s
/-- LOAD_DATA (R120). -/
def execLoadData (p : PkgId) (who : Requester) (w : Word) (s : State) : Out := busAccess (.loadData p who w) s
/-- GO (R122, R123). -/
def execGo (p : PkgId) (who : Requester) (s : State) : Out := busAccess (.go p who) s
/-- OPERATOR_ABORT (R136). -/
def execOperatorAbort (p : PkgId) (who : Requester) (s : State) : Out := busAccess (.operatorAbort p who) s
/-- RETRAIN (FAB_PORT_CTRL). -/
def execRetrain (p : PkgId) (who : Requester) (q : Port) (s : State) : Out := busAccess (.retrain p who q) s
/-- HOLD_DOWN (FAB_PORT_CTRL). -/
def execHoldDown (p : PkgId) (who : Requester) (q : Port) (s : State) : Out := busAccess (.holdDown p who q) s
/-- RELEASE of a held-down port (FAB_PORT_CTRL). -/
def execPortRelease (p : PkgId) (who : Requester) (q : Port) (s : State) : Out := busAccess (.portRelease p who q) s
/-- HOSTQ_GO (R208). -/
def execHostqGo (p : PkgId) (who : Requester) (t : Tile) (s : State) : Out := busAccess (.hostqGo p who t) s
/-- ABORT of an engine's queries (BRG_CTRL). -/
def execBrgAbort (p : PkgId) (who : Requester) (t : Tile) (s : State) : Out := busAccess (.brgAbort p who t) s
/-- A write of PWR_LADDER_CAP (R232). -/
def execPwrLadderCapWrite (p : PkgId) (who : Requester) (w : Word) (s : State) : Out := busAccess (.pwrLadderCapWrite p who w) s
/-- A write of PWR_HOST_CAP (R233). -/
def execPwrHostCapWrite (p : PkgId) (who : Requester) (w : Word) (s : State) : Out := busAccess (.pwrHostCapWrite p who w) s
/-- A write of THR_COOLANT (R254). -/
def execThrCoolantWrite (p : PkgId) (who : Requester) (w : Word) (s : State) : Out := busAccess (.thrCoolantWrite p who w) s
/-- HEADING_COMMIT: a write of THR_HEAD_W3 (R268). -/
def execHeadingCommit (p : PkgId) (who : Requester) (w3 : Word) (s : State) : Out := busAccess (.headingCommit p who w3) s
/-- RESOLVED, a verdict (R322). -/
def execResolved (p : PkgId) (who : Requester) (slot : Fin 16) (s : State) : Out := busAccess (.resolved p who slot) s
/-- ESCALATE, a verdict (R322). -/
def execEscalate (p : PkgId) (who : Requester) (slot : Fin 16) (s : State) : Out := busAccess (.escalate p who slot) s
/-- A write of FLT_RELEASE (R331). -/
def execFltRelease (p : PkgId) (who : Requester) (w : Word) (s : State) : Out := busAccess (.fltRelease p who w) s
/-- FLT_LW_CLEAR (R335). -/
def execLwClear (p : PkgId) (who : Requester) (w : Word) (s : State) : Out := busAccess (.lwClear p who w) s
/-- BEGIN of a host push (R350). -/
def execPushBegin (p : PkgId) (who : Requester) (s : State) : Out := busAccess (.pushBegin p who) s
/-- A pushed word (R350). -/
def execPushData (p : PkgId) (who : Requester) (w : Word) (s : State) : Out := busAccess (.pushData p who w) s
/-- HALT (R361, R362). -/
def execHalt (p : PkgId) (who : Requester) (c : Core) (s : State) : Out := busAccess (.halt p who c) s
/-- RESUME (R363). -/
def execResume (p : PkgId) (who : Requester) (c : Core) (s : State) : Out := busAccess (.resume p who c) s
/-- STEP (R363). -/
def execStep (p : PkgId) (who : Requester) (c : Core) (nextPc : BitVec 44) (s : State) : Out := busAccess (.step p who c nextPc) s
/-- RELEASE_CLASPS (R363). -/
def execReleaseClasps (p : PkgId) (who : Requester) (c : Core) (s : State) : Out := busAccess (.releaseClasps p who c) s
/-- CLEAR of a trace unit (R366). -/
def execTraceClear (p : PkgId) (who : Requester) (f : Fin 2) (w : Word) (s : State) : Out := busAccess (.traceClear p who f w) s
/-- MGMT_ACCESS (R359): the access happens at Update-DR. -/
def execMgmtAccess (p : PkgId) (dr : BitVec 64) (s : State) : Out := busAccess (.mgmtAccess p dr) s

end Sys2Proof.Machine
end

