-- ==== Sys2Proof/Machine/Pkc.lean ====
section
/-! DEFINITION. What a package answers its tray controller: the CW command set, heartbeats and hold course (R278, R279, R291–R293), direct
register access (R280, R281), MCTP control messages (R277) and SPDM (R289). Contents of standard messages follow DSP0236 and DSP0274 (log 39). -/

namespace Sys2Proof.Machine
open Sys2Proof

/-! ### The CW command set -/

def Pkg.setPkc (f : PkcSt → PkcSt) (k : Pkg) : Pkg := { k with pkc := f k.pkc }
/-- STATE (Table 13.5). -/
def Pkg.stateByte (k : Pkg) : Byte :=
  BitVec.ofNat 8 (k.pkc.bootDone.toNat + 2 * k.pkc.admitted.toNat + 4 * k.pkc.holdCourse.toNat +
    8 * (k.pkc.fenced || decide (k.get F.FLT_STATUS_FENCED = 1)).toNat + 16 * k.lifeboat.toNat)
/-- A response of Table 13.4. -/
def Pkg.cwAnswer (inst : BitVec 5) (command completion : Nat) (payload : List Byte) (k : Pkg) : Pkg :=
  k.emit (.cwAnswer inst.toNat command completion payload)
def notNow : Nat := 4
/-- Lifeboat mode answers these commands alone (R349); the others get BAD_COMMAND. -/
def onCommand (p : PkgId) (inst : BitVec 5) (command : Nat) (s : State) (f : Pkg → Pkg) : Out :=
  onMctp p s fun k =>
    if decide (k.pkc.run = .lifeboat) && command ≠ 1 && command ≠ 7 then k.cwAnswer inst command 1 [] else f k
/-- HEARTBEAT: one with a SEQ other than the last accepted is accepted (R291). -/
def execHeartbeat (p : PkgId) (inst : BitVec 5) (seq : Word) (s : State) : Out :=
  onCommand p inst 1 s fun k =>
    let k1 := if k.pkc.hbSeq = some seq then k else k.setPkc fun x => { x with hbSeq := some seq, hbAt := some s.now }
    k1.cwAnswer inst 1 0 [k1.stateByte]
/-- HOLD_COURSE: 30 ms after the last accepted heartbeat, and not during a pause (R291, R292, R346). -/
def execHoldCourse (p : PkgId) (s : State) : Out :=
  onPkg p s fun k =>
    match k.pkc.hbAt with
    | some t => if t + 30 * 10 ^ 6 ≤ s.now && !k.paused_ then (k.setPkc fun x => { x with holdCourse := true }).recap.settleRates else k
    | none => k
/-- READ_REG: BAD_FIELD for a COUNT of 0 or above 14 (Table 13.5). -/
def execReadReg (p : PkgId) (inst : BitVec 5) (off : Word) (ctrl : Byte) (s : State) : Out :=
  if ctrl.toNat % 16 = 0 ∨ 14 < ctrl.toNat % 16 then onMctp p s fun k => k.cwAnswer inst 2 3 []
  else busAccess (.readReg p inst off ctrl) s
/-- WRITE_REG: the words in order up to the first one refused. -/
def execWriteReg (p : PkgId) (inst : BitVec 5) (off : Word) (ctrl : Byte) (words : List Word) (s : State) : Out :=
  if ctrl.toNat % 16 = 0 ∨ 14 < ctrl.toNat % 16 then onMctp p s fun k => k.cwAnswer inst 3 3 []
  else if words.length ≠ ctrl.toNat % 16 then onMctp p s fun k => k.cwAnswer inst 3 2 []
  else busAccess (.writeReg p inst off ctrl words) s
/-- ADMIT at a package (R279): links that are OFF start full training (R37, R145). -/
def Pkg.joinFabric (inst : BitVec 5) (k : Pkg) : Pkg :=
  if !k.pkc.bootDone then k.cwAnswer inst 4 notNow []
  else ((List.range 24).foldl (fun k q => k.setPort q (k.port q).powerUp) (k.setPkc fun x => { x with admitted := true })).cwAnswer inst 4 0 []
/-- FENCE: the package goes dark until its next reset (Table 13.5, R57). -/
def execFence (p : PkgId) (inst : BitVec 5) (s : State) : Out :=
  onPkgGrave p s fun m k =>
    if !k.mctpUp then (m, k)
    else if decide (k.pkc.run = .lifeboat) then (m, k.cwAnswer inst 5 1 [])
    else tallySettle s.now p m (((k.goDark s.now .package .fence).setPkc fun x => { x with fenced := true }).cwAnswer inst 5 0 [])
/-- RESYNC ends hold course and lifts limit 3 (R293); the CW that sends it reports ROUTE_OVERRIDE again while an entry is VALID (R365). -/
def execResync (p : PkgId) (inst : BitVec 5) (s : State) : Out :=
  onCommand p inst 6 s fun k =>
    if !k.pkc.holdCourse then k.cwAnswer inst 6 notNow []
    else
      let k1 := if k.overrides then k.emit (.report "ROUTE_OVERRIDE" 0 1) else k
      (k1.setPkc fun x => { x with holdCourse := false }).recap.settleRates.cwAnswer inst 6 0 []
/-- GET_STATUS. -/
def execGetStatus (p : PkgId) (inst : BitVec 5) (s : State) : Out :=
  onCommand p inst 7 s fun k =>
    k.cwAnswer inst 7 0 ([k.stateByte] ++ leBytes 4 (k.rg R.CHT_ACTIVE_EPOCH).toNat ++ [k.ret.pkgInc])

/-! ### Direct register access (R280, R281) -/

def draOffset (b : List Byte) : Nat := leAt b 1 4
def draCount (b : List Byte) : Nat := u8 b 0 % 8
def draIsWrite (b : List Byte) : Bool := bit (u8 b 0) 7
/-- The status that a DRA_SET gets at once: PEC_ERROR (2), BAD_SETUP (4), or none. -/
def draBad (b : List Byte) : Option Nat :=
  let words := if draIsWrite b then 4 * draCount b else 0
  if b.length < 6 ∨ crc8 (b.take (b.length - 1)) ≠ u8 b (b.length - 1) then some 2
  else if bits (u8 b 0) 3 3 ≠ 0 ∨ draOffset b % 4 ≠ 0 ∨ 2 ^ 25 ≤ draOffset b ∨ draCount b = 0 ∨ 4 < draCount b ∨ b.length ≠ 6 + words then some 4
  else none
/-- The access that a DRA_SET sets up. -/
def draOp (b : List Byte) : BusOp :=
  let offs := wordOffsets (draOffset b) (draCount b) (bit (u8 b 0) 6)
  ⟨.cw, 4, if draIsWrite b then (indexed offs).map (fun e => (e.2, some (BitVec.ofNat 32 (leAt b (5 + 4 * e.1) 4)))) else offs.map (fun o => (o, none)),
   none, .bus⟩
/-- DRA_SET: not acknowledged while the previous access is BUSY. -/
def execDraSet (p : PkgId) (bytes : List Byte) (s : State) : Out :=
  onPkg p s fun k =>
    if k.pkc.draStatus = 3 then k.emit .nack
    else
      match draBad bytes with
      | some st => k.setPkc fun x => { x with draStatus := st, draDone := 0, draData := [], draBytes := [] }
      | none =>
        let k1 := k.setPkc fun x => { x with draStatus := 3, draDone := 0, draData := [], draBytes := bytes }
        ((k1.goodWords (draOp bytes)).filter (fun o => (k1.blockDomains o).any (fun d => !k1.domainOn d))).foldl (fun k o => k.wakeBlock o) k1
/-- DRA_GET: STATUS and DONE, and after a read that ended OK the words. -/
def execDraGet (p : PkgId) (s : State) : Out :=
  onPkg p s fun k => k.emit (.draData k.pkc.draStatus k.pkc.draDone k.pkc.draData)
/-- DRA_ACCESS_END: the access executes, once; it is served in every state of the PKC. -/
def execDraAccessEnd (p : PkgId) (s : State) : Out :=
  let k := s.pkg p
  if k.pkc.draStatus ≠ 3 then .next s
  else
    let op := draOp k.pkc.draBytes
    let r := s.busPerform p op true
    let done := (op.words.takeWhile (fun w => !k.busRefuses w.1 4)).length
    let reads := !draIsWrite k.pkc.draBytes
    onPkg p r.2 fun k => k.setPkc fun x =>
      { x with draStatus := if r.1.2 then 0 else 1, draDone := done, draData := if r.1.2 && reads then r.1.1 else [] }
/-- What DRA_GET reports after a write of one word by the CW's own DRA_SET: OK, and one word executed (Table 13.14, log 52). -/
def Pkg.draServed (k : Pkg) : Pkg :=
  if k.pkc.draStatus = 3 then k else k.setPkc fun x => { x with draStatus := 0, draDone := 1, draData := [], draBytes := [] }
/-- The address of the package at a board position of a slot: row and column base from the slot number (R21, R36). -/
def boardAddress (rackNo slot pos : Nat) : Nat := addrOf rackNo (12 * (slot / 3) + 4 * (slot % 3) + pos)
/-- The address that the tray controller gives a package: the Almanac's rack number, its own slot and the board position (R36). -/
def State.givenAddress (s : State) (p : PkgId) : Nat := boardAddress (s.rack p.rack).rackNumber (PkgId.tray p).slot.val p.position
/-- The tray controller writes the package address. -/
def State.writeAddress (p : PkgId) (s : State) : State := s.setPkg p (((s.pkg p).put F.AON_PKG_ADDR_ADDR (s.givenAddress p)).draServed)
/-- AON_PKG_ADDR_WRITE: the tray controller's write by direct register access while the PKC is in reset (R36); a write at any other time, or by
another requester, is ignored. -/
def execAonPkgAddrWrite (p : PkgId) (who : Requester) (s : State) : Out :=
  .next (if who = .cw ∧ (s.pkg p).pkcInReset = true then s.writeAddress p else s)

/-! ### MCTP control messages (R276, R277) -/

/-- SETDASA: the dynamic address is 0x30 plus the board position. -/
def execSetdasa (t : TrayId) (pos : Fin 4) (s : State) : Out :=
  match TrayId.pkgAt t pos with
  | some p => onPkg p s fun k => k.setPkc fun x => { x with i3cAddr := BitVec.ofNat 8 (0x30 + pos.val) }
  | none => .next s
def Pkg.mctp (command : Nat) (payload : List Byte) (k : Pkg) : Pkg := k.emit (.mctp command payload)
/-- SET_ENDPOINT_ID. -/
def execSetEndpointId (p : PkgId) (eid : Byte) (s : State) : Out :=
  onMctp p s fun k => (k.setPkc fun x => { x with eid := eid }).mctp 1 [0, 0, eid, 0]
/-- GET_ENDPOINT_ID. -/
def execGetEndpointId (p : PkgId) (s : State) : Out := onMctp p s fun k => k.mctp 2 [0, k.pkc.eid, 0, 0]
/-- GET_ENDPOINT_UUID. -/
def execGetEndpointUuid (p : PkgId) (s : State) : Out :=
  onMctp p s fun k => k.mctp 3 (0 :: leBytes 16 (Config.uuid (s.moduleKey p)).toNat)
/-- GET_MCTP_VERSION_SUPPORT: version 1.3 for the base specification and the types of Table 13.3. -/
def execGetMctpVersionSupport (p : PkgId) (msgType : Byte) (s : State) : Out :=
  onMctp p s fun k =>
    k.mctp 4 (if msgType = 0xFF ∨ msgType = 0 ∨ msgType = 1 ∨ msgType = 5 ∨ msgType = 0x7F then [0, 1, 0xF1, 0xF3, 0xFF, 0x00] else [0x80])
/-- GET_MESSAGE_TYPE_SUPPORT (Table 13.3). -/
def execGetMessageTypeSupport (p : PkgId) (overPcie : Bool) (s : State) : Out :=
  onMctp p s fun k => k.mctp 5 (if overPcie then [0, 1, 1] else [0, 3, 1, 5, 0x7F])
/-- GET_VENDOR_DEFINED_MESSAGE_SUPPORT: enterprise number 55,322 over I3C, and nothing over PCIe. -/
def execGetVendorDefinedMessageSupport (p : PkgId) (overPcie : Bool) (selector : Byte) (s : State) : Out :=
  onMctp p s fun k => k.mctp 6 (if overPcie ∨ selector ≠ 0 then [2] else [0, 0xFF, 1, 0, 0, 0xD8, 0x1A, 0, 0])

/-! ### SPDM (R289, Table 13.11) -/

def Pkg.spdm (code : Nat) (payload : List Byte) (k : Pkg) : Pkg := k.emit (.spdm code payload)
/-- ERROR, with UnexpectedRequest (4) or InvalidRequest (1). -/
def Pkg.spdmError (code : Byte) (k : Pkg) : Pkg := k.spdm 0x7F [code]
def Pkg.spdmAt (k : Pkg) (n : Nat) (f : Pkg → Pkg) : Pkg := if k.pkc.spdmStep < n then k.spdmError 4 else f k
/-- SPDM is served by the running PKC (Table 13.3, R349). -/
def onSpdm (p : PkgId) (s : State) (f : Pkg → Pkg) : Out := onPkg p s fun k => if decide (k.pkc.run = .running) then f k else k
/-- GET_VERSION: SPDM 1.2. -/
def execGetVersion (p : PkgId) (s : State) : Out :=
  onSpdm p s fun k => (k.setPkc fun x => { x with spdmStep := 1, challengeOk := false }).spdm 0x04 [1, 0, 0x12]
/-- GET_CAPABILITIES. -/
def execGetCapabilities (p : PkgId) (s : State) : Out :=
  onSpdm p s fun k => k.spdmAt 1 fun k => (k.setPkc fun x => { x with spdmStep := max 2 x.spdmStep }).spdm 0x61 (Config.spdmCaps (s.moduleKey p))
/-- NEGOTIATE_ALGORITHMS fixes ECDSA P-384 and SHA-384, where the requester offers both. -/
def execNegotiateAlgorithms (p : PkgId) (baseAsym baseHash : Word) (s : State) : Out :=
  onSpdm p s fun k => k.spdmAt 2 fun k =>
    if bit baseAsym.toNat 7 && bit baseHash.toNat 1 then
      (k.setPkc fun x => { x with spdmStep := 3 }).spdm 0x63 (leBytes 4 0x80 ++ leBytes 4 2)
    else k.spdmError 1
def chainDigest (key : Nat) : BitVec 384 := sha384 (Config.certChain key)
/-- GET_DIGESTS: slot 0 only. -/
def execGetDigests (p : PkgId) (s : State) : Out :=
  onSpdm p s fun k => k.spdmAt 3 fun k => k.spdm 0x01 (1 :: leBytes 48 (chainDigest (s.moduleKey p)).toNat)
/-- GET_CERTIFICATE: a portion of the chain of slot 0, and how much remains. -/
def execGetCertificate (p : PkgId) (slot : Byte) (offset len : BitVec 16) (s : State) : Out :=
  onSpdm p s fun k => k.spdmAt 3 fun k =>
    let chain := Config.certChain (s.moduleKey p)
    if slot ≠ 0 then k.spdmError 1
    else
      let part := slice chain offset.toNat len.toNat
      k.spdm 0x02 (0 :: (leBytes 2 part.length ++ leBytes 2 (chain.length - offset.toNat - part.length) ++ part))
/-- What a signed answer signs, and the signature over it (log 7). -/
def signed (key : Nat) (body : List Byte) : List Byte := body ++ leBytes 96 (Config.deviceSign key (sha384 body)).toNat
/-- The CW's check of a signed answer with the device key. -/
def signatureGood (key : Nat) (body : List Byte) : Bool :=
  let sig := Config.deviceSign key (sha384 body)
  ecdsaVerify (Config.deviceKey key).1 (Config.deviceKey key).2 (sha384 body) ((sig >>> 384).truncate 384) (sig.truncate 384)
def challengeBody (key : Nat) (nonce : BitVec 256) : List Byte := leBytes 48 (chainDigest key).toNat ++ leBytes 32 nonce.toNat
/-- CHALLENGE: the signed answer, which the CW verifies with the chain (R290). -/
def execChallenge (p : PkgId) (slot : Byte) (nonce : BitVec 256) (s : State) : Out :=
  let key := s.moduleKey p
  onSpdm p s fun k => k.spdmAt 3 fun k =>
    if slot ≠ 0 then k.spdmError 1
    else (k.setPkc fun x => { x with challengeOk := Config.chainGood key && signatureGood key (challengeBody key nonce) }).spdm 0x03
      (signed key (challengeBody key nonce))
/-- The measurement blocks (Table 13.11): 1 mask ROM, 2 active bank, 3 fused configuration, 4 the active Chart's HEADER_CHECK. -/
def Pkg.measurement (key : Nat) (k : Pkg) (block : Nat) : List Byte :=
  if block = 1 then leBytes 48 (Config.romHash key).toNat
  else if block = 2 then leBytes 48 (sha384 (k.bankImg k.activeBank)).toNat
  else if block = 3 then Config.fusedConfig key
  else leBytes 8 (if k.chart.active.isEmpty then 0 else leAt k.chart.active 0xF8 8)
def Pkg.measurements (key : Nat) (nonce : BitVec 256) (k : Pkg) : List Byte :=
  [1, 2, 3, 4].flatMap (fun b => BitVec.ofNat 8 b :: k.measurement key b) ++ leBytes 32 nonce.toNat

end Sys2Proof.Machine
end

