-- ==== Sys2Proof/Machine/Carweil.lean ====
section
/-! DEFINITION. The tray controllers: the golden store (R282–R285, R348, R352), bring-up (R286, R287), module records (R288),
attestation (R290), relay (R294), shutdown, swap and latch (R295–R297), the log mirror (R334), and fencing at a CW (R308). -/

namespace Sys2Proof.Machine
open Sys2Proof

/-! ### The managers of a rack -/

/-- The Almanac in HELM; while two overlap, the one with the higher epoch. -/
def State.helm (s : State) (rack : Fin 32) : Option AlmId :=
  let a := s.alm ⟨rack, false⟩
  let b := s.alm ⟨rack, true⟩
  if b.role = .helm ∧ (a.role ≠ .helm ∨ a.log.epoch.toNat < b.log.epoch.toNat) then some ⟨rack, true⟩
  else if a.role = .helm then some ⟨rack, false⟩ else none
/-- What the helm writes to its log and, while the peer stands by, to its replica (R309, R312). -/
def State.logs (rack : Fin 32) (f : AlmLog → AlmLog) (s : State) : State :=
  match s.helm rack with
  | none => s
  | some a =>
    let peer : AlmId := ⟨rack, !a.sideB⟩
    let s1 := s.setAlm a { s.alm a with log := f (s.alm a).log }
    if (s.alm peer).role = .standby then s1.setAlm peer { s1.alm peer with log := f (s1.alm peer).log } else s1

/-- The brake line of a rack: driven by a shelf or by the helm (R240). -/
def RackSt.brake (x : RackSt) : Bool := x.brakeShelf || x.brakeTest

/-! ### The golden store -/

def goldFind (l : List Golden) (kind target : Nat) : Option Golden :=
  l.find? fun g => g.gold && g.good && decide (g.kind = kind) && decide (g.target = target)
def CwSt.golden (c : CwSt) (kind target : Nat) : Option Golden :=
  match goldFind c.nor0 kind target with
  | some g => some g
  | none => goldFind c.nor1 kind target
def stagedFind (l : List Golden) (kind target : Nat) : Option Golden :=
  l.find? fun g => !g.gold && g.good && decide (g.kind = kind) && decide (g.target = target)
def CwSt.staged (c : CwSt) (kind target : Nat) : Option Golden :=
  match stagedFind c.nor0 kind target with
  | some g => some g
  | none => stagedFind c.nor1 kind target
/-- The comparison of R284. -/
def CwSt.matches (c : CwSt) (img : List Byte) (g : Golden) : Bool := crc64 img = crc64 g.image && trailerOk c.keys img
def chipKey (kind target : Nat) : Nat := 256 * kind + target
/-- A chip of the tray other than a package. -/
def isChip (kind : Nat) : Bool := 2 ≤ kind && kind ≤ 5
/-- The entries that a copy names, once each. -/
def CwSt.goldKeys (c : CwSt) : List (Nat × Nat) := (((c.nor0 ++ c.nor1).filter (·.gold)).map fun g => (g.kind, g.target)).dedup
/-- Table 13.9: each entry is rewritten from the good copy, NOR0 before NOR1, and an entry with no good copy is lost. -/
def CwSt.repair (c : CwSt) : CwSt :=
  let winners := c.goldKeys.filterMap fun e => c.golden e.1 e.2
  { c with nor0 := winners ++ c.nor0.filter (fun g => !g.gold), nor1 := winners ++ c.nor1.filter (fun g => !g.gold) }
def CwSt.lost (c : CwSt) : List (Nat × Nat) := c.goldKeys.filter fun e => (c.golden e.1 e.2).isNone
/-- A chip is compared: out of reset it is only reported, and in reset it is released when it matches (R284, R285). -/
def CwSt.checkChip (e : Nat × Nat) (c : CwSt) : CwSt :=
  let key := chipKey e.1 e.2
  match c.golden e.1 e.2 with
  | none => c
  | some g =>
    if c.matches (sget [] c.chipImages key) g then
      { c with chipOut := if c.chipOut.contains key then c.chipOut else c.chipOut ++ [key], chipHeld := c.chipHeld.filter (· ≠ key) }
    else if c.chipOut.contains key then c.emit (.report "MISMATCH" e.2 e.1)
    else { c with chipHeld := if c.chipHeld.contains key then c.chipHeld else c.chipHeld ++ [key] }
/-- The start of a CW: the store is verified and repaired, its tray's chips are compared, and what a restart ends ends (R283, R285,
R352, "When both golden copies of an image fail"). The line latches hold (R275). -/
def CwSt.restart (c : CwSt) : CwSt :=
  let gone := c.lost
  let c1 := (gone.filter fun e => isChip e.1 || e.1 = 7).foldl (fun c e => c.emit (.report "GOLDEN_LOST" e.2 e.1)) c.repair
  let c2 := (c1.goldKeys.filter fun e => isChip e.1).foldl (fun c e => c.checkChip e) c1
  let c3 := { c2 with chipHeld := c2.chipHeld ++ ((gone.map fun (e : Nat × Nat) => chipKey e.1 e.2).filter fun k =>
    isChip (k / 256) && !c2.chipOut.contains k && !c2.chipHeld.contains k) }
  let lifeboat := gone.any (fun e => e.1 = 6)
  { c3 with running := !lifeboat, lifeboat := lifeboat, debugOpen := false }
/-- The packages out of reset are compared, and a mismatch is reported (R285). -/
def State.checkRunning (t : TrayId) (s : State) : State :=
  (List.finRange 4).foldl (fun s pos =>
    match TrayId.pkgAt t pos, (s.tray t).golden 1 pos.val with
    | some p, some g =>
      let k := s.pkg p
      if ((s.tray t).at pos).resetN && !(s.tray t).matches (k.bankImg k.activeBank) g then
        s.setTray t ((s.tray t).emit (.report "MISMATCH" pos.val 1)) else s
    | _, _ => s) s
/-- The switch of a Meridian tray is out of reset. -/
def CwSt.switchUp (c : CwSt) : Bool := c.chipOut.contains (chipKey 5 0)
/-- What a CW makes of its chips: the switch of a Meridian tray that leaves reset begins full training on every port (R145, R298). -/
def State.setChips (t : TrayId) (c : CwSt) (s : State) : State :=
  let s1 := s.setTray t c
  if h : 24 ≤ t.slot.val then
    let r : RouterId := .meridian t.rack ⟨t.slot.val - 24, by omega⟩
    if c.switchUp && !(s.tray t).switchUp then
      let m := s.router r
      s1.setRouter r ((List.range 288).foldl (fun m q => { m with ports := sset {} m.ports q (sget {} m.ports q).powerUp }) m)
    else s1
  else s1
/-- CW_START. -/
def execCwStart (t : TrayId) (s : State) : Out := .next ((s.setChips t (s.tray t).restart).checkRunning t)
/-- CW_ACTIVATION (R352): the loader copies the staged image of kind 6 to the boot flash and runs it; one that fails its check leaves
the previous image. -/
def execCwActivation (t : TrayId) (s : State) : Out :=
  let c := s.tray t
  let c1 := match c.staged 6 0 with
    | some g => if trailerOk c.keys g.image then { c with bootFlash := g.image } else c.emit (.report "UPDATE_FAILED" 0 6)
    | none => c
  .next ((s.setChips t c1.restart).checkRunning t)
/-- STAG becomes GOLD, and the old entry unused. -/
def promote (kind target : Nat) (l : List Golden) : List Golden :=
  match stagedFind l kind target with
  | none => l
  | some g => { g with gold := true } :: l.filter fun e => !(e.kind = kind && e.target = target)
/-- The staged image runs: the PKC of its board position runs it (R348), or the CW does (R352). For the other kinds the promotion is the
activation (R353). -/
def State.stagedRuns (t : TrayId) (kind target : Nat) (s : State) : Bool :=
  let c := s.tray t
  match c.staged kind target with
  | none => false
  | some g =>
    if kind = 1 then
      match TrayId.pkgAt t (Fin.ofNat 4 target) with
      | some p => decide (target < 4) && decide ((s.pkg p).pkc.run = .running) && c.matches ((s.pkg p).bankImg (s.pkg p).activeBank) g
      | none => false
    else if kind = 6 then c.running && decide (c.bootFlash = g.image)
    else true
/-- GOLDEN_PROMOTION (R348): first in NOR0 and then in NOR1, once the staged image runs. -/
def execGoldenPromotion (t : TrayId) (kind : Fin 8) (target : Byte) (s : State) : Out :=
  onTray t s fun c => if !s.stagedRuns t kind.val target.toNat then c else { c with nor0 := promote kind.val target.toNat c.nor0, nor1 := promote kind.val target.toNat c.nor1 }

/-! ### Accesses of the CW to a package -/

/-- A write by the CW, by direct register access (R280, R281) or by WRITE_REG; the block it names is woken (R79). -/
def State.cwStore (p : PkgId) (dra : Bool) (off v : Nat) (s : State) : State :=
  let op := writeOp .cw off (BitVec.ofNat 32 v)
  let s1 := if (s.pkg p).mustDefer op then s.setPkg p ((s.pkg p).wakeBlock off) else s
  (s1.busPerform p op dra).2
def State.cwWrite (p : PkgId) (off v : Nat) (s : State) : State := s.cwStore p true off v
/-- Reads of some registers. -/
def State.cwRead (p : PkgId) (offs : List Nat) (s : State) : List Word × State :=
  let op : BusOp := ⟨.cw, 4, offs.map (fun o => (o, none)), none, .bus⟩
  let s1 := if (s.pkg p).mustDefer op then s.setPkg p (offs.foldl (fun k o => k.wakeBlock o) (s.pkg p)) else s
  let r := s1.busPerform p op true
  (r.1.1, r.2)
def State.posn (s : State) (t : TrayId) (pos : Fin 4) : PosSt := (s.tray t).at pos.val
def State.setPosn (t : TrayId) (pos : Fin 4) (x : PosSt) (s : State) : State := s.setTray t ((s.tray t).setPos pos.val x)
def State.cwReport (t : TrayId) (name : String) (pos data : Nat) (s : State) : State := s.setTray t ((s.tray t).emit (.report name pos data))

/-! ### Bring-up (Table 13.10) -/

/-- Units whose quarantine holds the package in reset (R329); 255 stands for the package itself (R330). -/
def holdsPackage (u : Nat) : Bool := (248 ≤ u && u ≤ 252) || u = 254 || u = 255
/-- The quarantine state of a package in the helm's log. -/
def State.quarantined (s : State) (p : PkgId) : List Nat :=
  match s.helm p.rack with
  | some a => ((s.alm a).log.quarantine.filter fun e => e.1 = p.key).map (·.2)
  | none => []
def CwSt.record (c : CwSt) (serial : BitVec 64) : Option ModRecord := c.records.find? fun r => r.good && decide (r.serial = serial)
/-- BOOTSRC of the next release (Table 13.2). -/
def CwSt.chooseSource (c : CwSt) (pos : Nat) : BitVec 2 :=
  let x := c.at pos
  if 2 ≤ x.misses then 3
  else if (c.golden 1 pos).isNone then (if x.bootOrder = some 2 then 2 else 3)
  else match x.bootOrder with
    | some b => b
    | none => if x.flashBad then 1 else 0
def quarWord (l : List Nat) (i : Nat) : Nat := ((l.filter fun u => u / 32 = i).dedup.map fun u => 2 ^ (u % 32)).foldl (· + ·) 0
/-- Step 5: BOOTSRC, and the writes of the module record, the quarantine state, FLT_BOOT and the cap held (R248, R288, R330, R334, R368).
These writes are direct register accesses, and the last one is of one word (log 52).
The address is written too once the Almanac gives the rack number, and else before the release (R36, R367); the time is loaded by its own command
(R67). -/
def State.stepFive (t : TrayId) (pos : Fin 4) (p : PkgId) (s : State) : State :=
  let c := s.tray t
  let x := c.at pos.val
  let same := decide (x.mirrorSerial = some x.serial)
  let boot := if same then x.mirrorBoot + 1 else 0
  let x1 := { x with resetN := true, step := 5, bootSrc := c.chooseSource pos.val, mirror := if same then x.mirror else [],
                     mirrorSerial := some x.serial, mirrorBoot := boot, mirrorTop := 0 }
  let rec_ := match c.record x.serial with
    | some r => (List.range 8).map (fun n => (R.PWR_GUARD n, r.guards.getD n 45)) ++ [(R.PWR_AGE_HOURS, r.hours), (R.THR_RESIST_EST, r.resist)]
    | none => []
  let quar := (List.range 8).map fun i => (R.FLT_QUAR i, quarWord (s.quarantined p) i)
  let cap := match x.held with
    | some w => [(R.PWR_LADDER_CAP, w)]
    | none => []
  let s1 := (rec_ ++ quar.filter (fun e => e.2 ≠ 0) ++ [(R.FLT_BOOT, boot)] ++ cap).foldl (fun s e => s.cwWrite p e.1 e.2) (s.setPosn t pos x1)
  let s2 := s1.setPkg p (s1.pkg p).draServed
  if (s2.helm p.rack).isSome then s2.writeAddress p else s2
/-- Step 4: PKG_RESET_N rises, unless the package's reset is held (R60) or its quarantine holds it in reset (R329, R330). -/
def State.releaseReset (t : TrayId) (pos : Fin 4) (p : PkgId) (s : State) : State :=
  if (s.quarantined p).any holdsPackage || (s.pkg p).dark.heldResets.contains .package then s.setPosn t pos { s.posn t pos with step := 4 }
  else s.stepFive t pos p
/-- Step 3: the module is powered, or goes on to step 4 where it is. -/
def State.powerUp (t : TrayId) (pos : Fin 4) (p : PkgId) (s : State) : State :=
  let x := s.posn t pos
  if x.pwrGood then s.releaseReset t pos p else s.setPosn t pos { x with pwrEn := true, step := 3 }
/-- Step 2: the module flash is compared; a mismatch waits for its reflash (R284). -/
def State.compareFlash (t : TrayId) (pos : Fin 4) (p : PkgId) (s : State) : State :=
  let x := s.posn t pos
  let k := s.pkg p
  match (s.tray t).golden 1 pos.val with
  | none => s.powerUp t pos p
  | some g =>
    if (s.tray t).matches (k.bankImg k.activeBank) g then (s.setPosn t pos { x with flashBad := false }).powerUp t pos p
    else s.setPosn t pos { x with step := 2 }
/-- Step 1: a module that may be powered; none is before the flow is proven (R367), nor while the busbar is low (R385). -/
def State.bringUp (t : TrayId) (pos : Fin 4) (s : State) : State :=
  let x := s.posn t pos
  match TrayId.pkgAt t pos with
  | none => s
  | some p =>
    if !x.present || x.latchOpen || x.blocked || x.shutdownHold then s
    else if !(s.rack t.rack).flowProven || (s.tray t).busbarWait then s.setPosn t pos { x with step := 1 }
    else s.compareFlash t pos p
/-- The package is reset by PKG_RESET_N. -/
def State.resetPkg (p : PkgId) (s : State) : State := s.pkgGone p fun m k => pkgResetOp s.now p m k
/-- PKG_RESET_N and PKC_HOLD_N fall. -/
def PosSt.heldLow (x : PosSt) : PosSt := { x with resetN := false, holdN := false, attested := false, firstGo := 0, step := 4 }
/-- The package without power: only its module flash is kept, and incarnation numbers restart at 0 (R59, R377). -/
def Pkg.unpowered (k : Pkg) : Pkg :=
  (({ k with ret := {}, dark := {} }.put F.THR_SEA_TRIAL_ACTIVE 0).flag F.PWR_BRAKE_LINE false).kept
/-- MOD_PWR_EN falls. -/
def State.powerOff (t : TrayId) (pos : Fin 4) (s : State) : State :=
  let s1 := s.setPosn t pos { (s.posn t pos).heldLow with pwrEn := false, pwrGood := false, step := 0 }
  match TrayId.pkgAt t pos with
  | none => s1
  | some p => s1.pkgGone p fun m k => (forgetMemory p m, k.unpowered)

/-- MOD_PRESENT (R288, R296, R334): a module is seated; with its latch closed it is brought up. The flash of a module with another
serial number holds no image (log 45). -/
def execModPresent (t : TrayId) (pos : Fin 4) (serial : BitVec 64) (s : State) : Out :=
  let x := s.posn t pos
  let new := decide (x.serial ≠ serial)
  let x1 := { x with present := true, serial := serial, unseated := x.latchOpen, indicator := false, misses := 0,
                     flashBad := x.flashBad && !new, blocked := x.blocked && !new, shutdownHold := x.shutdownHold && !new,
                     attestFails := if new then 0 else x.attestFails }
  let s1 := s.setPosn t pos x1
  match TrayId.pkgAt t pos with
  | none => .next s1
  | some p =>
    let s2 := if new then s1.setPkg p ((((s1.pkg p).setUpd fun _ => {}).put F.UPD_STATUS_BANK_VALID 0).put F.UPD_STATUS_ACTIVE_BANK 0) else s1
    .next (if x.latchOpen || x.pwrEn then s2 else s2.bringUp t pos)
/-- MOD_LATCH_OPEN (R296, R297): opened on a powered module it drops the power; closed on a new module it lets bring-up begin. -/
def execModLatchOpen (t : TrayId) (pos : Fin 4) (level : Bool) (s : State) : Out :=
  let x := s.posn t pos
  let s1 := s.setPosn t pos { x with latchOpen := level, unseated := x.unseated && level }
  if level && x.pwrEn then .next ((s1.powerOff t pos).cwReport t "SWAP_FORCED" pos.val 0)
  else if !level && x.unseated then .next (s1.bringUp t pos)
  else .next s1
/-- MOD_PWR_GOOD: PKG_RESET_N rises and bring-up goes on; the package sees the brake line as it is. -/
def execModPwrGood (t : TrayId) (pos : Fin 4) (s : State) : Out :=
  let x := s.posn t pos
  match TrayId.pkgAt t pos with
  | none => .next s
  | some p =>
    if !x.pwrEn || x.pwrGood then .next s
    else
      let s1 := s.setPosn t pos { x with pwrGood := true }
      .next ((s1.setPkg p (if (s.rack p.rack).brake then (s1.pkg p).brakeLine true else s1.pkg p)).releaseReset t pos p)
/-- PKC_RELEASE: after step 5, once a manager holds the helm and the package has its address (R36, R286, R287, R367). -/
def execPkcRelease (p : PkgId) (s : State) : Out :=
  let c := s.tray (PkgId.tray p)
  let x := c.at p.position
  if x.step ≠ 5 ∨ (s.helm p.rack).isNone then .next s
  else onPkg p ((s.writeAddress p).setTray (PkgId.tray p) (c.setPos p.position { x with holdN := true, step := 7, since := s.now })) fun k =>
    (k.setPkc fun y => { y with bootSrc := x.bootSrc }).pkcStart s.now (Config.fusedResist (s.moduleKey p)).toNat
/-- The board position of a package. -/
def PkgId.pos (p : PkgId) : Fin 4 := ⟨p.col.val % 4, Nat.mod_lt _ (by decide)⟩
/-- A reset that follows an FT is a recovery of the package, and the fourth within 24 h quarantines it (R330). -/
def State.countRecovery (p : PkgId) (s : State) : State :=
  s.logs p.rack fun l =>
    let times := (sget [] l.pkgRecoveries p.key).filter (fun t => s.now < t + 86400 * 10 ^ 9) ++ [s.now]
    { l with pkgRecoveries := sset [] l.pkgRecoveries p.key times,
             quarantine := if 4 ≤ times.length && !l.quarantine.contains (p.key, 255) then l.quarantine ++ [(p.key, 255)] else l.quarantine }
/-- PKG_RESET: the package is reset and, where its module is powered, brought up again (R324, R375, R284). -/
def execPkgReset (p : PkgId) (s : State) : Out :=
  let t := PkgId.tray p
  let s1 := if (s.pkg p).flt.fencedAt.isSome then s.countRecovery p else s
  let s2 := s1.resetPkg p
  let x := s2.posn t (PkgId.pos p)
  .next (if x.pwrGood then (s2.setPosn t (PkgId.pos p) x.heldLow).compareFlash t (PkgId.pos p) p else s2)
/-- RESET_HOLD_EXPIRY (R60); after a held package reset the bring-up goes on. -/
def execResetHoldExpiry (p : PkgId) (u : DarkUnit) (s : State) : Out :=
  let t := PkgId.tray p
  let r := expireHold s.now p u s.mem (s.pkg p)
  let s1 := { s with mem := r.1 }.setPkg p r.2
  .next (if u = .package ∧ (s1.posn t (PkgId.pos p)).step = 4 then s1.releaseReset t (PkgId.pos p) p else s1)
/-- REFLASH_END (R284): the golden image is written and compared again. A module flash that fails boots with BOOTSRC 1; another chip that
fails stays in reset. A reflash of a tray chip falls within its reset (R285). What the flash holds then is a free value (log 44). -/
def execReflashEnd (t : TrayId) (kind : Fin 8) (target : Byte) (s : State) : Out :=
  let c := s.tray t
  let s1 := { s with free := s.free + 1 }
  match c.golden kind.val target.toNat with
  | none => .next s
  | some g =>
    let img := Config.reflashed s.free g.image
    let good := c.matches img g
    if isChip kind.val then
      let key := chipKey kind.val target.toNat
      let c1 := { c with chipImages := sset [] c.chipImages key img, chipHeld := c.chipHeld.filter (· ≠ key) ++ (if good then [] else [key]),
                         chipOut := c.chipOut.filter (· ≠ key) ++ (if good then [key] else []) }
      .next (s1.setChips t (if good then c1 else c1.emit (.report "REFLASH_FAIL" target.toNat kind.val)))
    else if kind.val = 1 then
      let pos : Fin 4 := ⟨target.toNat % 4, Nat.mod_lt _ (by decide)⟩
      let x := c.at pos.val
      match TrayId.pkgAt t pos with
      | none => .next s
      | some p =>
        if x.step ≠ 2 ∨ 4 ≤ target.toNat then .next s
        else
          let k := s.pkg p
          let s2 := (s1.setPkg p (k.writeBank k.activeBank img g.version)).setPosn t pos { x with flashBad := !good }
          .next ((if good then s2 else s2.cwReport t "REFLASH_FAIL" pos.val 1).powerUp t pos p)
    else .next s
/-- BOOT_TIMEOUT (R287): 10 s without BOOT_DONE; the second miss in a row is reported. Lifeboat never sends it (R349). -/
def execBootTimeout (t : TrayId) (pos : Fin 4) (s : State) : Out :=
  let x := s.posn t pos
  match TrayId.pkgAt t pos with
  | none => .next s
  | some p =>
    if x.step ≠ 7 ∨ x.bootSrc = 3 ∨ s.now < x.since + 10 * 10 ^ 9 then .next s
    else
      let s1 := (s.resetPkg p).setPosn t pos { x.heldLow with misses := x.misses + 1 }
      .next ((if x.misses = 1 then s1.cwReport t "BOOT_FAIL" pos.val 0 else s1).releaseReset t pos p)

/-! ### Events and attestation (R290, R294) -/

/-- EVENT: BOOT_DONE ends step 7, QUARANTINED enters the helm's log (R312, R330), and every event is forwarded. -/
def execEvent (t : TrayId) (pos : Fin 4) (code : Byte) (data : BitVec 64) (s : State) : Out :=
  let x := s.posn t pos
  let s1 := (if code = 1 ∧ x.step = 7 then s.setPosn t pos { x with step := 8, misses := 0 } else s).cwReport t "EVENT" pos.val
    (code.toNat + 256 * data.toNat)
  match TrayId.pkgAt t pos with
  | none => .next s1
  | some p =>
    let e := (p.key, bits data.toNat 32 16)
    .next (if code = 5 ∧ bits data.toNat 56 8 = 8 then
      s1.logs t.rack fun l => { l with quarantine := if l.quarantine.contains e then l.quarantine else l.quarantine ++ [e] } else s1)
/-- Blocks 1 and 2 equal the hashes the CW holds, and the chain and the signatures verify. -/
def State.attests (s : State) (p : PkgId) (nonce : BitVec 256) : Bool :=
  let k := s.pkg p
  let key := s.moduleKey p
  k.pkc.challengeOk && signatureGood key (k.measurements key nonce) && decide (Config.romHash key = Config.romExpected) &&
    (match (s.tray (PkgId.tray p)).golden 1 p.position with
     | some g => decide (sha384 (k.bankImg k.activeBank) = sha384 g.image)
     | none => false)
/-- GET_MEASUREMENTS: the signed blocks; at step 8 the CW passes the package, reflashes it once, or removes its power. -/
def execGetMeasurements (p : PkgId) (nonce : BitVec 256) (s : State) : Out :=
  let t := PkgId.tray p
  let pos := PkgId.pos p
  let k := s.pkg p
  let key := s.moduleKey p
  let x := s.posn t pos
  if k.pkc.run ≠ .running then .next s
  else if k.pkc.spdmStep < 3 then .next (s.setPkg p (k.spdmError 4))
  else
    let s1 := s.setPkg p (k.spdm 0x60 (signed key (k.measurements key nonce)))
    if x.step ≠ 8 then .next s1
    else if s.attests p nonce then
      .next ((s1.setPosn t pos { x with step := 9, attested := true, attestFails := 0 }).cwReport t "READY" pos.val 0)
    else if x.attestFails = 0 then
      let s2 := (s1.resetPkg p).setPosn t pos { x.heldLow with attestFails := 1, step := 2 }
      .next (if ((s.tray t).golden 1 pos.val).isNone then s2.releaseReset t pos p else s2)
    else
      let s2 := (s1.powerOff t pos).cwReport t "ATTEST_FAIL" pos.val 0
      .next ((s2.setPosn t pos { s2.posn t pos with blocked := true }).logs t.rack fun l =>
        { l with attestBlocked := if l.attestBlocked.contains p.key then l.attestBlocked else l.attestBlocked ++ [p.key] })

/-! ### Admission and the first Chart (R370–R372, R376) -/

/-- The epoch that the helm names for its rack: that of the active Chart, and 0 at cold start. -/
def State.namedEpoch (s : State) (rack : Fin 32) : Option Nat :=
  (s.helm rack).map fun a => if (s.alm a).log.activeChart.isEmpty then 0 else chEpoch (s.alm a).log.activeChart
/-- When the CW sends ADMIT (R372). -/
def State.mayAdmit (s : State) (p : PkgId) : Bool :=
  let k := s.pkg p
  (s.posn (PkgId.tray p) (PkgId.pos p)).attested && decide (k.get F.CHT_SLOT_STATUS_ACTIVE_STATE ≠ 0) &&
    decide (s.namedEpoch p.rack = some (k.rg R.CHT_ACTIVE_EPOCH).toNat)
/-- ADMIT (R279, R372). -/
def execAdmitLinks (p : PkgId) (inst : BitVec 5) (s : State) : Out :=
  if s.mayAdmit p then onCommand p inst 4 s (Pkg.joinFabric inst) else .next s
/-- The safe first Chart in a CW's golden store (R118). -/
def State.goldSafe (s : State) (t : TrayId) : Option (List Byte) :=
  match (s.tray t).golden 7 0 with
  | some g => if safeContents (s.rack t.rack).rackNumber g.image then some g.image else none
  | none => none
/-- The image that a package without an active Chart is to take: the rack's active one, from the helm and not while a turn of the rack is under way
(R375, R376), and until there is one the safe first Chart (R371). -/
def State.firstImage (s : State) (t : TrayId) : Option (List Byte) :=
  match s.helm t.rack with
  | none => none
  | some a =>
    let l := (s.alm a).log
    if l.turnT0.isSome then none else if l.activeChart.isEmpty then s.goldSafe t else some l.activeChart
/-- An image goes to the package in port mode (R120). -/
def State.loadPort (p : PkgId) (img : List Byte) (s : State) : State :=
  let s1 := (s.cwWrite p R.CHT_LOAD_LEN img.length).cwWrite p R.CHT_LOAD_CTRL 1
  let k := s1.pkg p
  if k.chart.loadPort && !k.chartOff then s1.setPkg p (k.loadBytes img) else s1
/-- A turn order at a package (R122). -/
def State.writeGo (p : PkgId) (lease epoch : Word) (t0 : Nat) (s : State) : State :=
  [(R.CHT_TURN_LEASE, lease.toNat), (R.CHT_TURN_EPOCH, epoch.toNat), (R.CHT_TURN_AT_LO, t0 % 2 ^ 32), (R.CHT_TURN_AT_HI, t0 / 2 ^ 32),
    (R.CHT_TURN_CTRL, 2 ^ F.CHT_TURN_CTRL_GO.lo)].foldl (fun s e => s.cwWrite p e.1 e.2) s
/-- What the CW does for an attested package without an active Chart: it loads the image, and once that is VALID orders the GO 20 ms ahead under the
highest lease epoch it has recorded (R370, R371; the 20 ms are those of Table 18.4, log 92). -/
def State.firstChart (t : TrayId) (pos : Fin 4) (s : State) : State :=
  let x := s.posn t pos
  match TrayId.pkgAt t pos with
  | none => s
  | some p =>
    let k := s.pkg p
    if !(s.tray t).running || !x.attested || !k.mctpUp || k.get F.CHT_SLOT_STATUS_ACTIVE_STATE ≠ 0 then s
    else if x.firstGo = 0 then
      match s.firstImage t with
      | some img => (s.setPosn t pos { x with firstGo := 1 }).loadPort p img
      | none => s
    else if x.firstGo = 1 ∧ k.shadowState = 3 then
      (s.setPosn t pos { x with firstGo := 2 }).writeGo p (s.tray t).epochSeen (BitVec.ofNat 32 (chEpoch k.chart.shadow))
        (s.rackTime t.rack + 20 * 10 ^ 6)
    else s

/-! ### Relay, records and the mirror (R254, R288, R294, R334) -/

/-- The records with one module's put in, the oldest falling out beyond 4,096. -/
def putRecord (r : ModRecord) (l : List ModRecord) : List ModRecord :=
  let l1 := l.filter (fun e => e.serial ≠ r.serial) ++ [r]
  l1.drop (l1.length - 4096)
/-- A poll reads five registers with the fleet time of the read, and the fields of the module record. -/
def State.pollPkg (t : TrayId) (pos : Fin 4) (s : State) : State :=
  match TrayId.pkgAt t pos with
  | none => s
  | some p =>
    let x := s.posn t pos
    if !x.resetN || !(s.pkg p).mctpUp then s
    else
      let r := s.cwRead p ([R.PWR_DRAW, R.PWR_CAP_STATUS, R.THR_CAP, R.THR_FORECAST, R.THR_ALARM, R.PWR_AGE_HOURS, R.THR_RESIST_EST] ++
        (List.range 8).map R.PWR_GUARD)
      let w (n : Nat) : Nat := (r.1.getD n 0).toNat
      let rec_ : ModRecord := ⟨x.serial, bits (w 5) 0 20, (List.range 8).map (fun n => bits (w (7 + n)) 0 6), bits (w 6) 0 16, true⟩
      let c := r.2.tray t
      let c1 := { c with records := putRecord rec_ c.records }
      r.2.setTray t ((((((c1.emit (.report "FLEET_TIME" pos.val ((s.pkg p).time s.now))).emit (.report "PWR_DRAW" pos.val (w 0))).emit
        (.report "PWR_CAP_STATUS" pos.val (w 1))).emit (.report "THR_CAP" pos.val (w 2))).emit (.report "THR_FORECAST" pos.val (w 3))).emit
        (.report "THR_ALARM" pos.val (w 4)))
/-- TELEMETRY_POLL. -/
def execTelemetryPoll (t : TrayId) (pos : Fin 4) (s : State) : Out := .next (s.pollPkg t pos)
/-- COOLANT_READ (R254): the sensor's value goes to THR_COOLANT. -/
def execCoolantRead (t : TrayId) (pos : Fin 4) (temp : BitVec 12) (s : State) : Out :=
  match TrayId.pkgAt t pos with
  | none => .next s
  | some p => .next (if (s.posn t pos).resetN then s.cwWrite p R.THR_COOLANT temp.toNat else s)
/-- LOG_MIRROR (R334). -/
def execLogMirror (t : TrayId) (pos : Fin 4) (s : State) : Out :=
  match TrayId.pkgAt t pos with
  | none => .next s
  | some p =>
    let k := s.pkg p
    let x := s.posn t pos
    if !x.resetN || !k.mctpUp then .next s
    else
      let head := (k.rg R.FLT_LOG_HEAD).toNat
      let low := (k.rg R.FLT_MIRRORED).toNat
      let new := (k.flt.log.map (·.2)).filter fun e => low < e.seq.toNat && e.seq.toNat ≤ head
      let x1 := { x with mirror := new.foldl (fun m e => sinsert m (1 + e.seq.toNat % 16383) e) x.mirror, mirrorSerial := some x.serial,
                         mirrorBoot := k.get F.FLT_BOOT_BOOT, mirrorTop := BitVec.ofNat 32 head }
      .next ((s.setPosn t pos x1).cwWrite p R.FLT_MIRRORED head)

/-! ### Fencing at a CW (R308) -/

/-- An action under an epoch at least the highest seen is executed and its epoch recorded; another is refused with LEASE_STALE. -/
def State.fenced (t : TrayId) (epoch : Word) (f : State → State) (s : State) : State :=
  let c := s.tray t
  if epoch.toNat < c.epochSeen.toNat then s.cwReport t "LEASE_STALE" 0 epoch.toNat
  else f (s.setTray t { c with epochSeen := epoch })

/-! ### Shutdown, swap and debug (R295, R296, R358) -/

/-- THERM_SHDN_N falls: the power goes at once, with no FENCE. -/
def execThermShdnN (t : TrayId) (pos : Fin 4) (s : State) : Out :=
  let s1 := (s.powerOff t pos).cwReport t "THERMAL_SHUTDOWN" pos.val 0
  .next (s1.setPosn t pos { s1.posn t pos with shutdownHold := true })
/-- The swap at a CW: FENCE, then power down, and the service indicator. -/
def State.swapPos (t : TrayId) (pos : Fin 4) (s : State) : State :=
  match TrayId.pkgAt t pos with
  | none => s
  | some p =>
    let s1 := if (s.posn t pos).resetN ∧ (s.pkg p).mctpUp ∧ (s.pkg p).pkc.run ≠ .lifeboat then
        s.setPkg p (((s.pkg p).goDark s.now .package .fence).setPkc fun x => { x with fenced := true }) else s
    let s2 := s1.powerOff t pos
    s2.setPosn t pos { s2.posn t pos with indicator := true }
/-- SWAP_OUT. -/
def execSwapOut (t : TrayId) (pos : Fin 4) (epoch : Word) (s : State) : Out := .next (s.fenced t epoch fun s => s.swapPos t pos)
/-- The bridge opens on the helm's action (R358). -/
def State.openBridge (t : TrayId) (s : State) : State := s.setTray t { s.tray t with debugOpen := true }
/-- OPEN_DEBUG. -/
def execOpenDebug (t : TrayId) (epoch : Word) (s : State) : Out := .next (s.fenced t epoch fun s => s.openBridge t)

end Sys2Proof.Machine
end

