-- ==== Sys2Proof/Machine/Rack.lean ====
section
/-! DEFINITION. A rack's feeds, PSUs, site cap and package caps (R220–R231), the brake line (R240–R245), the CDU (R249–R253), start-up
(R367, R374, R379) and limits (R380–R386). -/

namespace Sys2Proof.Machine
open Sys2Proof

/-! ### PSUs, capacity and modes (R220, R222, R224, R227) -/

/-- Positions 0, 2 and 4 of a shelf draw from feed A, the others from feed B. -/
def psuOnB (n : Nat) : Bool := n % 6 % 2 = 1
def RackSt.feed (x : RackSt) (b : Bool) : Bool := if b then x.feedB else x.feedA
/-- A PSU that would be healthy with its feed present. -/
def RackSt.psuGood (x : RackSt) (n : Nat) : Bool := !x.psuFault.contains n && !x.psuOver.contains n && !x.shelfDown.contains (n / 6)
/-- C_f in W. -/
def RackSt.capacityOf (x : RackSt) (b : Bool) : Nat :=
  if x.feed b then 5500 * ((List.range 36).filter fun n => psuOnB n == b && x.psuGood n).length else 0
/-- The single-feed capacity C; while a feed is lost, the capacity of the other (log 46). -/
def RackSt.single (x : RackSt) : Nat :=
  let a := x.capacityOf false
  let b := x.capacityOf true
  if !x.feedA then b else if !x.feedB then a else min a b
/-- The effective site cap S. -/
def RackSt.effCap (x : RackSt) (site : Nat) : Nat :=
  min (if x.feedLostHold then min site x.single else site) (x.capacityOf false + x.capacityOf true)
/-- OVERHEAD (R227); over the first 60 s of a cold start at least 20.0 kW (R377). -/
def RackSt.overheadNow (x : RackSt) (now : Nat) : Nat :=
  let worst := (x.inputs.map fun e => e.2.1 - e.2.2).foldl max 0
  let v := (worst + 1000 + 499) / 500 * 500
  if now < x.started + 60 * 10 ^ 9 then max 20000 v else v

/-! ### The division of the pool (R228–R231) -/

/-- A package that a Chart gives a cap: present, with a core that is not held off. -/
def capped (img : List Byte) (n : Nat) : Bool := !allAbsent img n && (List.range 192).any fun c => !holdOff img n c
def cappedOf (img : List Byte) : List Nat := if img.isEmpty then [] else (List.range 96).filter (capped img)
def sumNat (l : List Nat) : Nat := l.foldl (· + ·) 0
def minSum (img : List Byte) : Nat := sumNat ((cappedOf img).map (capsMin img))
/-- The packages of an image, among them those whose every core is held off. -/
def presentOf (img : List Byte) : List Nat := if img.isEmpty then [] else (List.range 96).filter fun n => !allAbsent img n
/-- Σ PB in 64ths of a watt (R241). -/
def brakeSum (img : List Byte) : Nat := sumNat ((presentOf img).map fun n => 12800 + 950 * capsBrake img n)
/-- One package in the division: index, cap, share. -/
abbrev CapRow := Nat × Rat × Nat
/-- The loop of R228; each round that does not end it clamps a package. -/
def divide : Nat → Rat → List CapRow → List CapRow
  | 0, _, rows => rows
  | n + 1, left, rows =>
    let open_ := rows.filter fun r => decide (0 < r.2.2) && decide (r.2.1 < 1150)
    let sum : Nat := sumNat (open_.map (·.2.2))
    if left = 0 ∨ sum = 0 then rows
    else
      let raised := rows.map fun r => if 0 < r.2.2 ∧ r.2.1 < 1150 then (r.1, r.2.1 + left * r.2.2 / sum, r.2.2) else r
      let spill := (raised.map fun r => max 0 (r.2.1 - 1150)).foldl (· + ·) 0
      divide n spill (raised.map fun r => (r.1, min 1150 r.2.1, r.2.2))
def down5 (x : Rat) : Nat := x.floor.toNat / 5 * 5
/-- The caps of an image for a pool of P watts. -/
def poolCaps (img : List Byte) (p : Nat) : SMap Nat :=
  let rows : List CapRow := (cappedOf img).map fun n => (n, ((capsMin img n : Nat) : Rat), capsShare img n)
  (divide 97 ((p - minSum img : Nat) : Rat) rows).map fun r => (r.1, down5 r.2.1)
/-- CAP_SHORT of R229 for an image. -/
def RackSt.short (x : RackSt) (img : List Byte) (site : Nat) : Bool := x.effCap site < x.overheadW + minSum img
/-- BRAKE_SHORT of R229. -/
def RackSt.brakesShort (x : RackSt) (img : List Byte) (site : Nat) : Bool :=
  decide (x.single < site) && decide (64 * x.single < brakeSum img + 64 * x.overheadW)
/-- The caps of one image: MIN_CAP while CAP_SHORT or the secondary flow is low (R230, R253), and in proportion under BRAKE_SHORT. -/
def RackSt.imageCaps (x : RackSt) (img : List Byte) (site : Nat) : SMap Nat :=
  if x.secondaryLow || x.short img site then (cappedOf img).map fun n => (n, capsMin img n)
  else
    let caps := poolCaps img (x.effCap site - x.overheadW)
    let sum := sumNat (caps.map (·.2))
    if x.brakesShort img site && decide (x.single < sum + x.overheadW) then
      caps.map fun e => (e.1, max 150 (e.2 * (x.single - x.overheadW) / sum / 5 * 5))
    else caps
/-- The Chart that gives the records: the active one, or the safe first Chart until one is active (R368). -/
def AlmLog.capsChart (l : AlmLog) : List Byte := if l.activeChart.isEmpty then l.safeChart else l.activeChart
/-- From T0 of a turn until its end the two CAPS sections count; `time` is the rack's fleet time. -/
def AlmLog.dual (l : AlmLog) (time : Nat) : Bool :=
  match l.turnT0 with
  | some t0 => decide (t0 ≤ time) && !l.shadowChart.isEmpty
  | none => false
/-- The caps to send: under the active CAPS, and during a turn the lower of those under the old and the new one (R231). -/
def RackSt.caps2 (x : RackSt) (time : Nat) (l : AlmLog) : SMap Nat :=
  let old := x.imageCaps l.capsChart l.siteCapW
  if l.dual time then
    let new := x.imageCaps l.shadowChart l.siteCapW
    old.map fun e => (e.1, min e.2 ((sfind new e.1).getD e.2))
  else old
/-- An alarm is raised or cleared: it enters or leaves the log, with one event (R312, R315). -/
def State.alarmSet (rack : Fin 32) (name : String) (on : Bool) (s : State) : State :=
  match s.helm rack with
  | none => s
  | some a =>
    if (s.alm a).log.alarms.contains name == on then s
    else
      let s1 := s.logs rack fun l => { l with alarms := if on then l.alarms ++ [name] else l.alarms.filter (· ≠ name) }
      s1.setAlm a ((s1.alm a).emit (.alarm name on))
/-- The helm sends an idempotent message under the next sequence number (R305, R306). -/
def State.sendIdem (rack : Fin 32) (kind : IdemKind) (slot pos : Nat) (value : Word) (s : State) : State :=
  match s.helm rack with
  | none => s
  | some a =>
    let seq := (s.alm a).log.seqHigh + 1
    let s1 := s.logs rack fun l => { l with seqHigh := seq }
    s1.setAlm a ((s1.alm a).emit (.idem kind slot pos seq value))
/-- The helm recomputes the caps and sends them; its alarms follow (R230, R231). -/
def State.recapRack (rack : Fin 32) (s : State) : State :=
  match s.helm rack with
  | none => s
  | some a =>
    let l := (s.alm a).log
    let x := s.rack rack
    let caps := x.caps2 (s.rackTime rack) l
    let short := x.short l.capsChart l.siteCapW
    let bshort := x.brakesShort l.capsChart l.siteCapW
    let s1 := s.setRack rack { x with caps := caps, dual := l.dual (s.rackTime rack), acked := [], capShort := short, brakeShort := bshort }
    let s2 := (s1.alarmSet rack "CAP_SHORT" short).alarmSet rack "BRAKE_SHORT" bshort
    caps.foldl (fun s e => s.sendIdem rack .cap (e.1 / 12 * 3 + e.1 % 12 / 4) (e.1 % 4) (BitVec.ofNat 32 e.2)) s2
/-- The mode is judged at every change of the site cap or of PSU health, and a PSU failure that leaves redundant mode is alarmed
(R224, R225). -/
def State.judgeMode (rack : Fin 32) (psu : Bool) (s : State) : State :=
  match s.helm rack with
  | none => s
  | some a =>
    let x := s.rack rack
    let cap := decide (x.single < (s.alm a).log.siteCapW)
    let s1 := s.setRack rack { x with capacity := cap }
    if psu && cap && !x.capacity then s1.alarmSet rack "CAPACITY_ENTERED" true
    else if !cap then s1.alarmSet rack "CAPACITY_ENTERED" false else s1
/-- A change of the rack's supply is followed by the mode and the caps. -/
def State.supplyChange (rack : Fin 32) (f : RackSt → RackSt) (s : State) : State :=
  ((s.setRack rack (f (s.rack rack))).judgeMode rack true).recapRack rack
/-- A drive of the brake line changes; the line's level is told when it changes (R240). -/
def RackSt.drive (now : Nat) (f : RackSt → RackSt) (x : RackSt) : RackSt :=
  let y := f x
  if y.brake == x.brake then y else { y with brakeAt := if y.brake then now else y.brakeAt }.emit (.line "BRAKE" y.brake)

/-! ### Feeds and PSUs (R222, R225, R245, R382) -/

/-- A feed is lost: the shelves assert the brake in capacity mode, and the helm holds S at C. -/
def RackSt.loseFeed (now : Nat) (feedB : Bool) (x : RackSt) : RackSt :=
  let x1 := if feedB then { x with feedB := false, feedBack := none } else { x with feedA := false, feedBack := none }
  if x.capacity then { x1 with feedLostHold := true }.drive now (fun y => { y with brakeShelf := true }) else x1
/-- FEED_LOST: below 80 % of 230 V at a PSU (R222, R381). -/
def execFeedLost (rack : Fin 32) (x : FeedVolts) (s : State) : Out :=
  .next (if x.volts < 184 then s.supplyChange rack (RackSt.loseFeed s.now x.feedB) else s)
/-- A phase within the operating range of Table 19.1, line to neutral. -/
def phaseOk (lowest highest : Nat) : Bool := 207 ≤ lowest && highest ≤ 264
/-- FEED_PRESENT: each phase has stayed within its range for 1 s (R381). The first feed of a rack without any starts it cold: OVERHEAD's history restarts and a rack number set by the operator
takes effect (R27, R367, R377). -/
def execFeedPresent (rack : Fin 32) (v : FeedSpan) (s : State) : Out :=
  if !phaseOk v.lowest v.highest then .next s else
  let x := s.rack rack
  let a := (s.alm ⟨rack, false⟩).log
  let b := (s.alm ⟨rack, true⟩).log
  let number := if a.epoch.toNat < b.epoch.toNat then b.rackNumber else a.rackNumber
  let x1 := if x.feedA || x.feedB then x else { x with started := s.now, inputs := [], overheadW := 20000, flowProven := false, rackNumber := number }
  .next ((s.setRack rack x1).supplyChange rack fun x =>
    let y := if v.feedB then { x with feedB := true } else { x with feedA := true }
    if y.feedA && y.feedB && y.feedLostHold then { y with feedBack := some s.now } else y)
/-- CAPACITY_HOLD_END (R245). -/
def execCapacityHoldEnd (rack : Fin 32) (s : State) : Out :=
  match (s.rack rack).feedBack with
  | some t => .next (if t + 10 * 10 ^ 9 ≤ s.now then s.supplyChange rack fun x => { x with feedLostHold := false, feedBack := none } else s)
  | none => .next s
def addTo (l : List Nat) (n : Nat) : List Nat := if l.contains n then l else l ++ [n]
def dropFrom (l : List Nat) (n : Nat) : List Nat := l.filter (· ≠ n)
/-- PSU_HEALTH_CHANGE (R224, R225). -/
def execPsuHealthChange (rack : Fin 32) (n : Fin 36) (healthy : Bool) (s : State) : Out :=
  .next (s.supplyChange rack fun x => { x with psuFault := if healthy then dropFrom x.psuFault n.val else addTo x.psuFault n.val })
/-- PSU_OVERVOLTAGE (R382): above 270 V the PSU disconnects; 300 V is the absolute limit (R380, Table 19.1). -/
def execPsuOvervoltage (rack : Fin 32) (n : Fin 36) (volts : Nat) (s : State) : Out :=
  if 300 < volts then .fault (.beyondAbsolute "feed voltage")
  else if volts ≤ 270 then .next s
  else .next (s.supplyChange rack fun x => { x with psuOver := addTo x.psuOver n.val })
/-- PSU_REJOIN (R382): its phase has stayed within the range for 1 s. -/
def execPsuRejoin (rack : Fin 32) (v : PsuSpan) (s : State) : Out :=
  .next (if phaseOk v.lowest v.highest then s.supplyChange rack fun x => { x with psuOver := dropFrom x.psuOver v.psu.val } else s)

/-! ### Redfish answers, the site cap and polls (R226, R227, R229, R315, R316) -/

/-- The answer to an operator's write. -/
def State.http (a : AlmId) (code : Nat) (status : String) (s : State) : State := s.setAlm a ((s.alm a).emit (.http code status))
/-- The helm may act up to S + 350 ms (R302). -/
def State.mayAct (s : State) (a : AlmId) : Bool := s.now ≤ (s.alm a).ackedAt + 350 * 10 ^ 6
/-- An operator's request at a manager: forwarded to the helm, or answered 503 where none can act (R316). -/
def State.operator (at_ : AlmId) (f : AlmId → State → State) (s : State) : State :=
  match s.helm at_.rack with
  | some h => if s.mayAct h then f h s else s.http at_ 503 "RETRY"
  | none => s.http at_ 503 "RETRY"
/-- Why a site cap is refused. -/
def RackSt.refuseCap (x : RackSt) (l : AlmLog) (watts : Nat) : Option String :=
  if watts < 40000 ∨ 132000 < watts ∨ watts % 500 ≠ 0 then some "BAD_VALUE"
  else if x.short l.capsChart watts then some "CAP_SHORT"
  else if x.brakesShort l.capsChart watts then some "BRAKE_SHORT"
  else if 69 * l.flowCap * l.dtMax < 100 * watts then some "COOLING_SHORT"
  else none
/-- A setting takes effect: it is logged, and the caps follow. -/
def State.setting (rack : Fin 32) (h : AlmId) (f : AlmLog → AlmLog) (s : State) : State :=
  ((((s.logs rack fun l => { f l with actions := l.actions ++ [(0, l.epoch, .settingTaken)] }).judgeMode rack false).recapRack rack)).http h 200 "OK"
/-- SITE_CAP_SET (R226, R229, R251). -/
def execSiteCapSet (rack : Fin 32) (watts : Nat) (s : State) : Out :=
  .next (s.operator ⟨rack, false⟩ fun h s =>
    match (s.rack rack).refuseCap (s.alm h).log watts with
    | some why => s.http h 400 why
    | none => s.setting rack h fun l => { l with siteCapW := watts })
/-- Every package of a rack. -/
def rackPkgs (rack : Fin 32) : List PkgId := (List.finRange 96).map (indexPkg rack)
/-- A rack takes part in the fleet turn under way (R137). -/
def State.inFleetTurn (s : State) (rack : Fin 32) : Bool := s.fleet.turnT0.isSome && s.fleet.turnImages.any fun e => e.1 = rack.val
/-- A turn that the helm ordered has ended at every package in service: taken, the new image is the active one and the Meridian trays keep its
map alone; withdrawn or refused, the old ones stay, and the caps follow (R231, R310, R138). -/
def State.settleTurn (rack : Fin 32) (s : State) : State :=
  match s.helm rack with
  | none => s
  | some a =>
    let l := (s.alm a).log
    let mine := (rackPkgs rack).filter fun p => (s.pkg p).pkc.admitted && !(s.pkg p).pkgDark
    match l.turnT0 with
    | none => s
    | some t0 =>
      if s.inFleetTurn rack || mine.any (fun p => (s.pkg p).turning || (s.pkg p).time s.now < t0 + 1000000) then s
      else
        let taken := !l.shadowChart.isEmpty && mine.any fun p => (s.pkg p).chart.active = l.shadowChart
        let s1 := s.logs rack fun l => if taken then
          { l with activeChart := l.shadowChart, serviceChart := if chSafe l.shadowChart then l.serviceChart else l.shadowChart, shadowChart := [], turnT0 := none }
        else { l with turnT0 := none }
        let s2 := (List.finRange 4).foldl (fun s pl =>
          let m := s.router (.meridian rack pl)
          s.setRouter (.meridian rack pl) { m with oldMap := if taken && !m.newMap.isEmpty then m.newMap else m.oldMap, newMap := [], mapT0 := 0 }) s1
        s2.recapRack rack
/-- The helm's part in a turn it ordered, at T0 and at its end (R231). -/
def State.turnClock (rack : Fin 32) (s : State) : State :=
  let s1 := s.settleTurn rack
  match s1.helm rack with
  | none => s1
  | some a => if (s1.alm a).log.dual (s1.rackTime rack) && !(s1.rack rack).dual then s1.recapRack rack else s1
/-- SHELF_POLL (R227, R231): the helm reads the shelves; OVERHEAD follows, and the caps when it changes. -/
def execShelfPoll (rack : Fin 32) (inputW packagesW : Nat) (s : State) : Out :=
  let x := s.rack rack
  let x1 := { x with inputs := (x.inputs.filter fun (e : Nat × Nat × Nat) => s.now ≤ e.1 + 60 * 10 ^ 9) ++ [(s.now, inputW, packagesW)] }
  let x2 := { x1 with overheadW := x1.overheadNow s.now }
  let s1 := s.setRack rack x2
  .next ((if x2.overheadW = x.overheadW then s1 else s1.recapRack rack).turnClock rack)

/-! ### The brake (R240, R243) -/

/-- SHELF_AUTO_RELEASE: with both feeds present and the busbar at or above 52.0 V for 10 ms (its least mV is read), the shelves let go of the
line; a test holds it (R221, R243). -/
def execShelfAutoRelease (v : Reading) (s : State) : Out :=
  onRack v.rack s fun x => if x.feedA && x.feedB && decide (52000 ≤ v.value) then x.drive s.now (fun y => { y with brakeShelf := false }) else x
/-- ALMANAC_BRAKE_RELEASE: every package has acknowledged a cap computed with S no more than C, and 10 ms have passed, counted from the entry into
HELM (R243, R310; DEDUCED, log 87). -/
def execAlmanacBrakeRelease (rack : Fin 32) (s : State) : Out :=
  match s.helm rack with
  | none => .next s
  | some a =>
    let x := s.rack rack
    if s.mayAct a && decide (x.effCap (s.alm a).log.siteCapW ≤ x.single) && x.caps.all (fun (e : Nat × Nat) => x.acked.contains e.1) && decide (max x.brakeAt (s.alm a).brakeFrom + 10 * 10 ^ 6 ≤ s.now) then
      .next ((s.logs rack fun l => { l with actions := l.actions ++ [(0, l.epoch, .brakeRelease)] }).setRack rack
        (x.drive s.now fun y => { y with brakeShelf := false }))
    else .next s
/-- BRAKE_TEST: the helm asserts the line for 1–1,000 ms. -/
def execBrakeTest (rack : Fin 32) (ms : Nat) (s : State) : Out :=
  .next (s.operator ⟨rack, false⟩ fun h s =>
    if ms = 0 ∨ 1000 < ms then s.http h 400 "BAD_VALUE"
    else
      let s1 := s.logs rack fun l => { l with actions := l.actions ++ [(0, l.epoch, .brakeTest ms)] }
      (s1.setRack rack ((s1.rack rack).drive s.now fun y => { y with brakeTest := true, testUntil := s.now + ms * 10 ^ 6 })).http h 200 "OK")
/-- BRAKE_TEST_END. -/
def execBrakeTestEnd (rack : Fin 32) (s : State) : Out :=
  onRack rack s fun x => if x.brakeTest && decide (x.testUntil ≤ s.now) then x.drive s.now (fun y => { y with brakeTest := false }) else x
/-- BUSBAR_BRAKE_ASSERTION: below 50.0 V, in either mode. -/
def execBusbarBrakeAssertion (rack : Fin 32) (mv : Nat) (s : State) : Out :=
  onRack rack s fun x => if mv < 50000 then x.drive s.now (fun y => { y with brakeShelf := true }) else x

/-! ### The busbar (R385) -/

def rackTrays (rack : Fin 32) : List TrayId := (List.finRange 28).map fun n => ⟨rack, n⟩
/-- Something done at every board position of the rack's compute trays. -/
def State.eachPos (rack : Fin 32) (f : TrayId → Fin 4 → State → State) (s : State) : State :=
  (rackTrays rack).foldl (fun s t => (List.finRange 4).foldl (fun s pos => f t pos s) s) s
/-- BUSBAR_LOW: every module's switch opens; its CW reports it and waits for the busbar. -/
def execBusbarLow (rack : Fin 32) (mv : Nat) (s : State) : Out :=
  if 48000 ≤ mv then .next s
  else
    let s1 := s.eachPos rack fun t pos s =>
      if (s.posn t pos).pwrEn then
        let s2 := s.powerOff t pos
        s2.setPosn t pos { s2.posn t pos with step := 1 }
      else s
    .next ((rackTrays rack).foldl (fun s t => s.setTray t { (s.tray t).emit (.report "BUSBAR_LOW" 0 mv) with busbarWait := true }) s1)
/-- Modules that wait at step 1 go on. -/
def State.goOn (rack : Fin 32) (s : State) : State := s.eachPos rack fun t pos s => if (s.posn t pos).step = 1 then s.bringUp t pos else s
/-- BUSBAR_RECOVERED: at or above 52.0 V for 1 s (its least mV is read). -/
def execBusbarRecovered (v : Reading) (s : State) : Out :=
  .next (if v.value < 52000 then s else ((rackTrays v.rack).foldl (fun s t => s.setTray t { s.tray t with busbarWait := false }) s).goOn v.rack)
/-- BUSBAR_OVERVOLTAGE: above 56.0 V a shelf shuts down; 60.0 V is the absolute limit (Table 19.2). -/
def execBusbarOvervoltage (rack : Fin 32) (shelf : Fin 6) (mv : Nat) (s : State) : Out :=
  if 60000 < mv then .fault (.beyondAbsolute "busbar voltage")
  else if mv ≤ 56000 then .next s
  else .next (s.supplyChange rack fun x => { x with shelfDown := addTo x.shelfDown shelf.val })

/-! ### The CDU (R249–R253, R386) -/

/-- A setting on its range and grid, in tenths (Table 12.1). -/
def cduOk (which : CduSetting) (v : Nat) : Bool :=
  match which with
  | .flowCap => gridOk 600 1600 10 v
  | .dtMax => gridOk 50 150 5 v
  | .supplySet => gridOk 200 480 5 v
def AlmLog.withCdu (which : CduSetting) (v : Nat) (l : AlmLog) : AlmLog :=
  match which with
  | .flowCap => { l with flowCap := v }
  | .dtMax => { l with dtMax := v }
  | .supplySet => { l with supplySet := v }
/-- CDU_SETTING_SET (R250, R251). -/
def execCduSettingSet (rack : Fin 32) (which : CduSetting) (tenths : Nat) (s : State) : Out :=
  .next (s.operator ⟨rack, false⟩ fun h s =>
    let l := (s.alm h).log.withCdu which tenths
    if !cduOk which tenths then s.http h 400 "BAD_VALUE"
    else if which ≠ .supplySet ∧ 69 * l.flowCap * l.dtMax < 100 * l.siteCapW then s.http h 400 "COOLING_SHORT"
    else (s.logs rack fun l => { l.withCdu which tenths with actions := l.actions ++ [(0, l.epoch, .settingTaken)] }).http h 200 "OK")
/-- An alarm of the CDU (Table 12.3). -/
def State.cduAlarm (rack : Fin 32) (name : String) (on : Bool) (f : RackSt → RackSt) (s : State) : State :=
  (s.setRack rack ((f (s.rack rack)).emit (.alarm name on))).alarmSet rack name on
/-- FLOW_LIMITED (R252). -/
def execFlowLimited (rack : Fin 32) (s : State) : Out := .next (s.cduAlarm rack "FLOW_LIMITED" true fun x => { x with flowLimited := true })
/-- FLOW_LIMITED_CLEARED. -/
def execFlowLimitedCleared (rack : Fin 32) (s : State) : Out :=
  .next (if (s.rack rack).flowLimited then s.cduAlarm rack "FLOW_LIMITED" false fun x => { x with flowLimited := false } else s)
/-- INLET_HIGH (R386): above 45.0 °C; 55.0 °C is the absolute limit (Table 19.3). -/
def execInletHigh (rack : Fin 32) (tenths : Int) (s : State) : Out :=
  if 550 < tenths then .fault (.beyondAbsolute "facility inlet temperature")
  else if tenths ≤ 450 then .next s
  else .next (s.cduAlarm rack "INLET_HIGH" true fun x => { x with inletHigh := true })
/-- INLET_HIGH_CLEARED: at or below 44.0 °C for 60 s (Table 12.3; the greatest tenth of a °C is read). -/
def execInletHighCleared (v : Reading) (s : State) : Out :=
  .next (if (s.rack v.rack).inletHigh ∧ v.value ≤ 440 then s.cduAlarm v.rack "INLET_HIGH" false fun x => { x with inletHigh := false } else s)
/-- DEW_RISK ("When the facility inlet comes within 2 K of the dew point"); 28.0 °C is the dew point's absolute limit (Table 19.4). -/
def execDewRisk (rack : Fin 32) (dewTenths : Int) (s : State) : Out :=
  if 280 < dewTenths then .fault (.beyondAbsolute "dew point")
  else .next (s.cduAlarm rack "DEW_RISK" true fun x => { x with dewRisk := true })
/-- SECONDARY_LOW (R253): below 150 L/min for 1 s (the greatest flow is read), every package is sent its MIN_CAP. -/
def execSecondaryLow (v : Reading) (s : State) : Out :=
  .next (if 150 ≤ v.value then s else
    ((s.setRack v.rack { s.rack v.rack with secondaryLow := true }).alarmSet v.rack "SECONDARY_LOW" true).recapRack v.rack)
/-- SECONDARY_RESTORED: at or above 150 L/min for 10 s (the least flow is read). -/
def execSecondaryRestored (v : Reading) (s : State) : Out :=
  .next (if v.value < 150 then s else
    ((s.setRack v.rack { s.rack v.rack with secondaryLow := false }).alarmSet v.rack "SECONDARY_LOW" false).recapRack v.rack)

/-! ### Start-up (R367, R374, R379) -/

/-- FLOW_PROVEN: at or above 210 L/min for 5 s (the least flow is read), modules may be powered (Table 18.1). -/
def execFlowProven (v : Reading) (s : State) : Out :=
  .next (if v.value < 210 then s else (s.setRack v.rack { s.rack v.rack with flowProven := true }).goOn v.rack)
/-- BRING_UP_DEADLINE: packages without ADMIT are marked failed, and Chartwright is asked for the variant without them. -/
def execBringUpDeadline (rack : Fin 32) (s : State) : Out :=
  match s.helm rack with
  | none => .next s
  | some a =>
    let failed := ((rackPkgs rack).filter fun p => !(s.pkg p).pkc.admitted).map PkgId.key
    let s1 := s.logs rack fun l => { l with failedPos := failed }
    .next (if failed.isEmpty then s1 else s1.setAlm a ((s1.alm a).emit (.command "BUILD_VARIANT" rack.val failed.length)))
/-- SEA_TRIAL_END (R379): 60 s of load have counted, and a sample has been accepted. -/
def execSeaTrialEnd (p : PkgId) (s : State) : Out :=
  onPkg p s fun k =>
    if k.get F.THR_SEA_TRIAL_ACTIVE = 1 ∧ k.get F.THR_SEA_TRIAL_LOAD_MS = 60000 ∧ k.get F.THR_RESIST_EST_SEEDED = 0 then
      ((k.flag F.THR_SEA_TRIAL_ACTIVE false).recap).settleRates
    else k

end Sys2Proof.Machine
end

