-- ==== Sys2Proof/Machine/Almanac.lean ====
section
/-! DEFINITION. The Almanac pair (R299–R314, R354, R355): the helm lease and its votes, echo mode and sequence numbers, fencing at a CW,
failover, syncing, and the update of an Almanac. Messages between managers and CWs take no time (log 47). -/

namespace Sys2Proof.Machine
open Sys2Proof

def ms (n : Nat) : Nat := n * 10 ^ 6
def AlmId.peer (a : AlmId) : AlmId := ⟨a.rack, !a.sideB⟩
def maxWord (a b : Word) : Word := if a.toNat < b.toNat then b else a
/-- A manager that no longer leads: its Sextant and its PTP master port stop (R299). -/
def AlmSt.leave (r : Role) (x : AlmSt) : AlmSt := { x with role := r, sextant := false, ptp := false }
/-- Reaching a helm (R304, R313). -/
def AlmSt.meetHelm (x : AlmSt) : AlmSt :=
  match x.role with
  | .booting => { x with role := .syncing, updatedAt := none }
  | .adrift => { x with role := .syncing }
  | _ => x

/-! ### Time over management Ethernet (R31, R66, R70) -/

/-- The PTP profile of Table 3.1: domain, ports, messages a second, two-step clocks, and end-to-end delay requests. -/
structure PtpProfile where
  domain : Nat
  eventPort : Nat
  generalPort : Nat
  syncPerS : Nat
  delayReqPerS : Nat
  announcePerS : Nat
  twoStep : Bool
  endToEnd : Bool
  deriving DecidableEq, Repr
def ptpProfile : PtpProfile := ⟨44, 319, 320, 16, 16, 1, true, true⟩
/-- The fleet time master: the helm of the flagship rack; a rack that is a fleet of one is its own. -/
def State.timeMaster (s : State) (rack : Fin 32) : Option AlmId :=
  if s.fleet.isolated.contains rack.val ∨ s.fleet.members.all (· = rack.val) then s.helm rack else s.helm ⟨s.fleet.flagship % 32, Nat.mod_lt _ (by decide)⟩
/-- A clock's part (R66): the grandmaster; a boundary clock, slave of the grandmaster and master of its own rack; a slave of its rack's master; or
none. -/
inductive PtpRole where
  | grandmaster | boundary | slave | none
  deriving DecidableEq, Repr
def State.ptpRole (s : State) (a : AlmId) : PtpRole :=
  let x := s.alm a
  if x.role = .helm ∧ x.ptp then (if s.timeMaster a.rack = some a then .grandmaster else .boundary)
  else if x.role = .standby ∨ x.role = .syncing then .slave else .none
/-- A helm without a fleet time master holds its rack's time on its own oscillator (R70). -/
def State.timeHoldover (s : State) (rack : Fin 32) : Bool := (s.helm rack).isSome && (s.timeMaster rack).isNone

/-! ### RENEW (R301, R302) -/

/-- A manager that runs receives RENEW; a helm that hears a higher epoch enters ADRIFT. -/
def AlmSt.hear (now : Nat) (epoch : Word) (x : AlmSt) : AlmSt :=
  let x1 := { x with heardAt := now, knownHigh := maxWord x.knownHigh epoch }
  if x.role = .helm then (if x.log.epoch.toNat < epoch.toNat then x1.leave .adrift else x1) else x1.meetHelm
/-- The send time of a RENEW: one that comes 95 ms after the last belongs to a new one (R301: 100 ms ± 5 ms). -/
def AlmSt.sending (now : Nat) (x : AlmSt) : AlmSt :=
  if x.renewSent + ms 95 ≤ now then { x with renewSent := now, acks := [], peerAck := false } else x
/-- S is the send time of the latest RENEW that the peer or 15 CWs acknowledged (R302). -/
def AlmSt.acked (x : AlmSt) : AlmSt := if x.peerAck || 15 ≤ x.acks.length then { x with ackedAt := x.renewSent } else x
/-- RENEW reaches the peer or a CW, which acknowledges it. -/
def execRenew (src : AlmId) (epoch : Word) (toPeer : Bool) (slot : Fin 28) (s : State) : Out :=
  let a := s.alm src
  let mine := decide (a.role = .helm) && decide (a.log.epoch = epoch)
  let peer := AlmId.peer src
  let t : TrayId := ⟨src.rack, slot⟩
  let got := if toPeer then decide ((s.alm peer).role ≠ .off) else (s.tray t).running
  let s1 :=
    if !got then s
    else if toPeer then s.setAlm peer ((s.alm peer).hear s.now epoch)
    else s.setTray t ({ s.tray t with renewAt := some s.now, epochSeen := maxWord (s.tray t).epochSeen epoch }.emit (.renewAck slot.val epoch))
  if !mine then .next s1
  else
    let b := (s1.alm src).sending s.now
    let b1 := if !got then b else if toPeer then { b with peerAck := true } else { b with acks := addTo b.acks slot.val }
    .next (s1.setAlm src b1.acked)
/-- LEASE_EXPIRY: at S + 450 ms. -/
def execLeaseExpiry (a : AlmId) (s : State) : Out :=
  onAlm a s fun x => if x.role = .helm ∧ x.ackedAt + ms 450 ≤ s.now then x.leave .adrift else x

/-! ### TAKE (R300, R303) -/

/-- A standby sends TAKE with an epoch above every one it knows. -/
def AlmSt.sendTake (now : Nat) (x : AlmSt) : AlmSt :=
  let epoch := maxWord x.knownHigh x.log.epoch + 1
  { x with takeEpoch := some epoch, takeAt := now, grants := [], knownHigh := epoch }.emit (.takeMsg epoch)
/-- SILENCE_TIMEOUT: 400 ms without RENEW, and any wait for a retry over. -/
def execSilenceTimeout (a : AlmId) (s : State) : Out :=
  onAlm a s fun x =>
    if x.role = .standby ∧ x.takeEpoch = none ∧ x.heardAt + ms 400 ≤ s.now ∧ x.retryAt ≤ s.now then x.sendTake s.now else x
/-- A CW grants a TAKE: 400 ms of silence or a RELINQUISH, and an epoch above the highest it has seen (R303, R355). -/
def CwSt.grants (now : Nat) (epoch : Word) (c : CwSt) : Bool :=
  let silent := match c.renewAt with
    | some r => decide (r + ms 400 ≤ now)
    | none => true
  c.running && (silent || c.relinquished.isSome) && decide (c.epochSeen.toNat < epoch.toNat)
/-- TAKE reaches a CW, which answers with its highest epoch. A CW that restarts gives no vote. -/
def execTake (t : TrayId) (src : AlmId) (epoch : Word) (s : State) : Out :=
  let c := s.tray t
  if t.rack ≠ src.rack ∨ !c.running then .next s
  else
    let granted := c.grants s.now epoch
    let c1 := if granted then { c with epochSeen := epoch, relinquished := none } else c
    let x := (s.alm src)
    let x1 := { x with knownHigh := maxWord x.knownHigh c1.epochSeen }
    let x2 := if granted && decide (x.role = .standby) && decide (x.takeEpoch = some epoch) then { x1 with grants := addTo x1.grants t.slot.val } else x1
    .next ((s.setTray t (c1.emit (.takeAnswer granted c1.epochSeen))).setAlm src x2)
/-- The safe first Chart that some CW of the rack holds (R118). -/
def State.safeImage (s : State) (rack : Fin 32) : List Byte := ((rackTrays rack).findSome? s.goldSafe).getD []
/-- Entry into HELM (R300, R306, R310): sequence numbers go on 2³² higher, the PTP port and the Sextant start, the brake rules count from
now, and the caps are recomputed and sent. -/
def State.enterHelm (a : AlmId) (epoch : Word) (s : State) : State :=
  let x := s.alm a
  let log := { x.log with epoch := epoch, holder := some a.sideB, seqHigh := x.log.seqHigh + 2 ^ 32,
                          safeChart := if x.log.safeChart.isEmpty then s.safeImage a.rack else x.log.safeChart }
  let y := { x with role := .helm, log := log, ackedAt := x.takeAt, renewSent := s.now, acks := [], peerAck := false, takeEpoch := none,
                    grants := [], ptp := true, sextant := true, brakeFrom := s.now }
  ((s.setAlm a y).judgeMode a.rack false).recapRack a.rack
/-- TAKE_GRANT: 15 grants within the round of 50 ms. -/
def execTakeGrant (a : AlmId) (s : State) : Out :=
  let x := s.alm a
  match x.takeEpoch with
  | some e => .next (if x.role = .standby ∧ 15 ≤ x.grants.length ∧ s.now ≤ x.takeAt + ms 50 then s.enterHelm a e else s)
  | none => .next s
/-- TAKE_ROUND_END: the standby retries 200 ms (A) or 700 ms (B) later, and raises PAIR_LOST. -/
def execTakeRoundEnd (a : AlmId) (s : State) : Out :=
  onAlm a s fun x =>
    if x.takeEpoch.isSome && decide (x.takeAt + ms 50 ≤ s.now) && x.grants.length < 15 then
      { x with takeEpoch := none, grants := [], retryAt := s.now + ms (if a.sideB then 700 else 200) }.emit (.alarm "PAIR_LOST" true)
    else x
/-- ALMANAC_BOOT (R304): power-on, and the end of BOOTING once the peer is reached or 10 s have passed. -/
def execAlmanacBoot (a : AlmId) (s : State) : Out :=
  let peer := s.alm (AlmId.peer a)
  let reached := decide (peer.role ≠ .off)
  onAlm a s fun x =>
    if x.role = .off then { x with role := .booting, bootAt := s.now }
    else if x.role ≠ .booting then x
    else if peer.role = .helm then x.meetHelm
    else if reached || decide (x.bootAt + ms 10000 ≤ s.now) then
      let holder := if reached && decide (x.log.epoch.toNat < peer.log.epoch.toNat) then peer.log.holder else x.log.holder
      let first := holder.getD false == a.sideB
      { x with role := .standby, heardAt := x.bootAt, retryAt := if first then s.now else s.now + ms 1000,
               knownHigh := maxWord x.knownHigh x.log.epoch, updatedAt := none }
    else x

/-! ### Echo mode and sequence numbers (R305–R307) -/

/-- ECHO: the standby resends a message unchanged, and its replica keeps the highest number. -/
def execEcho (a : AlmId) (kind : IdemKind) (target : TrayId) (pos : Fin 4) (seq : BitVec 64) (value : Word) (s : State) : Out :=
  onAlm a s fun x =>
    if x.role = .standby then
      { x with log := { x.log with seqHigh := if x.log.seqHigh.toNat < seq.toNat then seq else x.log.seqHigh } }.emit
        (.idem kind target.slot.val pos.val seq value)
    else x
def idemIndex : IdemKind → Nat
  | .cap => 0
  | .telemetry => 1
  | .coolant => 2
  | .shelf => 3
/-- A cap at a CW: it is held, and written to a package that is past step 5; the helm's cap is then acknowledged (R294, R368, R243). -/
def State.takeCap (t : TrayId) (pos : Fin 4) (value : Word) (s : State) : State :=
  let x := s.posn t pos
  let s1 := s.setPosn t pos { x with held := some value.toNat }
  match TrayId.pkgAt t pos with
  | none => s1
  | some p =>
    let s2 := if x.resetN && 5 ≤ x.step then s1.cwWrite p R.PWR_LADDER_CAP value.toNat else s1
    let r := s2.rack t.rack
    if sfind r.caps (PkgId.index p) = some value.toNat then s2.setRack t.rack { r with acked := addTo r.acked (PkgId.index p) } else s2
/-- IDEMPOTENT_MESSAGE (R307): only a number above the highest accepted of its kind and target. -/
def execIdempotentMessage (t : TrayId) (kind : IdemKind) (pos : Fin 4) (seq : BitVec 64) (value : Word) (s : State) : Out :=
  let c := s.tray t
  let key := 4 * idemIndex kind + pos.val
  let newer := match sfind c.seqSeen key with
    | some n => decide (n.toNat < seq.toNat)
    | none => true
  if !newer then .next (s.setTray t { c with discarded := c.discarded + 1 })
  else
    let s1 := s.setTray t { c with seqSeen := sinsert c.seqSeen key seq }
    match kind with
    | .cap => .next (s1.takeCap t pos value)
    | .telemetry => .next (s1.pollPkg t pos)
    | .coolant => .next (match TrayId.pkgAt t pos with
        | some p => s1.cwReport t "COOLANT" pos.val (bits ((s1.pkg p).rg R.THR_COOLANT).toNat 0 12)
        | none => s1)
    | .shelf => .next s1

/-! ### Fenced actions at a CW (R308, Table 14.3) -/

/-- A turn order at a package (R122); a Meridian tray is given the bundle maps that it holds from T0 (R138). -/
def State.orderTurn (t : TrayId) (pos : Fin 4) (lease epoch : Word) (t0 : Nat) (s : State) : State :=
  match TrayId.pkgAt t pos with
  | some p => s.writeGo p lease epoch t0
  | none =>
    let id : RouterId := .meridian t.rack ⟨t.slot.val % 4, Nat.mod_lt _ (by decide)⟩
    match s.helm t.rack with
    | some a => s.setRouter id { s.router id with newMap := (s.alm a).log.shadowChart, mapT0 := t0 }
    | none => s
/-- What a fenced action does at a CW. -/
def State.perform (t : TrayId) (pos : Fin 4) (epoch : Word) (kind : FencedKind) (s : State) : State :=
  let x := s.posn t pos
  match kind, TrayId.pkgAt t pos with
  | .turnGo e t0, _ => s.orderTurn t pos epoch e t0
  | .turnAbort, some p =>
    [(R.CHT_TURN_LEASE, epoch.toNat), (R.CHT_TURN_CTRL, 2 ^ F.CHT_TURN_CTRL_ABORT.lo)].foldl (fun s e => s.cwWrite p e.1 e.2) s
  | .activate, some p => if (s.pkg p).mctpUp then s.setPkg p ((s.pkg p).tryStaged s.now false) else s
  | .quarantineRelease u, some p =>
    let s1 := if (s.pkg p).mctpUp then s.cwStore p false R.FLT_RELEASE (256 + u.toNat) else s
    if x.step = 4 ∧ holdsPackage u.toNat then s1.releaseReset t pos p else s1
  | .attestationRelease, some _ => (s.setPosn t pos { x with blocked := false, attestFails := 0 }).bringUp t pos
  | .swapOut, some _ => s.swapPos t pos
  | .powerOn, some _ => if x.pwrEn then s else (s.setPosn t pos { x with shutdownHold := false }).bringUp t pos
  | .bootSource b, _ => s.setPosn t pos { x with bootOrder := some b }
  | .openDebug, _ => s.openBridge t
  | .relinquish, _ => s.setTray t { s.tray t with relinquished := some epoch }
  | _, _ => s
/-- FENCED_ACTION. -/
def execFencedAction (t : TrayId) (pos : Fin 4) (epoch : Word) (kind : FencedKind) (s : State) : Out :=
  .next (s.fenced t epoch fun s => s.perform t pos epoch kind)
/-- RELINQUISH (R355). -/
def execRelinquish (t : TrayId) (epoch : Word) (s : State) : Out :=
  .next (s.fenced t epoch fun s => s.setTray t { s.tray t with relinquished := some epoch })

/-! ### The standby (R309, R313, R354) -/

/-- STANDBY_LOST. -/
def execStandbyLost (a : AlmId) (s : State) : Out :=
  let peer := AlmId.peer a
  if (s.alm a).role ≠ .helm ∨ (s.alm peer).role ≠ .standby then .next s
  else .next ((s.setAlm peer { s.alm peer with role := .syncing, takeEpoch := none }).alarmSet a.rack "STANDBY_LOST" true)
/-- SYNC_END: the helm's log is copied. -/
def execSyncEnd (a : AlmId) (s : State) : Out :=
  let h := s.alm (AlmId.peer a)
  onAlm a s fun x =>
    if x.role = .syncing ∧ h.role = .helm then
      { x with role := .standby, log := h.log, heardAt := s.now, takeEpoch := none, knownHigh := maxWord x.knownHigh h.log.epoch, updatedAt := none }
    else x
/-- ALMANAC_UPDATE: only while it is the standby; it restarts from the bank it wrote. -/
def execAlmanacUpdate (a : AlmId) (image : List Byte) (s : State) : Out :=
  onAlm a s fun x =>
    if x.role = .standby then
      { x with bank := image, bankOld := x.bank, role := .booting, bootAt := s.now, updatedAt := some s.now, takeEpoch := none }
    else x
/-- PREVIOUS_BANK_RESTART: SYNCING has not been reached 300 s after the update. -/
def execPreviousBankRestart (a : AlmId) (s : State) : Out :=
  onAlm a s fun x =>
    match x.updatedAt with
    | some t => if t + ms 300000 ≤ s.now ∧ x.role = .booting then
        { x with bank := x.bankOld, bankOld := x.bank, bootAt := s.now, updatedAt := none } else x
    | none => x

end Sys2Proof.Machine
end

