-- ==== Sys2Proof/Machine/Redfish.lean ====
section
/-! DEFINITION. The operator's actions over Redfish (R315, R316, Table 14.4, R357): turns, releases, swaps, power, the rack number, updates,
activation, the hand-over (R355), and PSU and pump updates (R356). An action is logged, and then sent (R309). -/

namespace Sys2Proof.Machine
open Sys2Proof

/-- The helm logs a fenced action and sends it under its epoch. -/
def State.sendAction (h : AlmId) (key : Nat) (kind : FencedKind) (s : State) : State :=
  let epoch := (s.alm h).log.epoch
  let s1 := s.logs h.rack fun l => { l with actions := l.actions ++ [(key, epoch, kind)] }
  s1.setAlm h ((s1.alm h).emit (.fenced key epoch kind))

/-! ### Turns (R124, R229, R231, R251, R310, R373, R376) -/

/-- A package of the rack has been sent its first Chart and has no ADMIT yet; one marked failed is not waited for (R374, R376). -/
def State.firstPending (h : AlmId) (s : State) : Bool :=
  (rackPkgs h.rack).any fun p =>
    decide ((s.posn (PkgId.tray p) (PkgId.pos p)).firstGo ≠ 0) && !(s.pkg p).pkc.admitted && !(s.alm h).log.failedPos.contains p.key
/-- Why the helm does not order a turn: a package is not IDLE, a turn or a first Chart is under way, or the new CAPS fails a test. -/
def State.refuseTurn (h : AlmId) (image : List Byte) (s : State) : Option String :=
  let l := (s.alm h).log
  let x := s.rack h.rack
  if l.turnT0.isSome || (rackPkgs h.rack).any (fun p => (s.pkg p).turning) || s.firstPending h then some "BUSY"
  else if x.short image l.siteCapW then some "CAP_SHORT"
  else if x.brakesShort image l.siteCapW then some "BRAKE_SHORT"
  else if 69 * l.flowCap * l.dtMax < 100 * minSum image then some "COOLING_SHORT"
  else none
/-- The service Chart that is turned: from the safe first Chart one with an odd EPOCH, an even one being re-emitted (R373). -/
def AlmLog.toTurn (l : AlmLog) (image : List Byte) : List Byte :=
  if (l.activeChart.isEmpty || chSafe l.activeChart) && decide (chEpoch image % 2 = 0) then reissue image else image
/-- TURN_CHART: the image is stored and sent, and the turn ordered for its start time. Chartwright has checked it as a pair with the active Chart, or
it is not turned (R124; the status of that refusal is the model's choice, log 93). -/
def execTurnChart (a : AlmId) (service : Checked (List Byte)) (startTime : Nat) (s : State) : Out :=
  .next (s.operator a fun h s =>
    let image := (s.alm h).log.toTurn service.image
    match if service.checked then s.refuseTurn h image else some "UNCHECKED_PAIR" with
    | some why => s.http a 400 why
    | none =>
      let s1 := s.logs h.rack fun l => { l with shadowChart := image, turnT0 := some startTime }
      ((s1.setAlm h ((s1.alm h).emit (.image h.rack.val image))).sendAction h h.rack.val (.turnGo (BitVec.ofNat 32 (chEpoch image)) startTime)).http a
        200 "OK")
/-- ABORT_TURN. -/
def execAbortTurn (a : AlmId) (s : State) : Out :=
  .next (s.operator a fun h s => (s.sendAction h h.rack.val .turnAbort).http a 200 "OK")

/-! ### Releases, swaps and power (R290, R295, R296, R331) -/

/-- A fenced action for one package of the rack, after a change of the log. -/
def State.packageAction (a : AlmId) (p : PkgId) (f : AlmLog → AlmLog) (kind : FencedKind) (s : State) : State :=
  s.operator a fun h s =>
    if p.rack ≠ h.rack then s.http a 400 "BAD_VALUE"
    else ((s.logs h.rack f).sendAction h p.key kind).http a 200 "OK"
/-- RELEASE_QUARANTINE. -/
def execReleaseQuarantine (a : AlmId) (p : PkgId) (unit : Byte) (s : State) : Out :=
  .next (s.packageAction a p (fun l => { l with quarantine := l.quarantine.filter (· ≠ (p.key, unit.toNat)) }) (.quarantineRelease unit))
/-- RELEASE_ATTESTATION. -/
def execReleaseAttestation (a : AlmId) (p : PkgId) (s : State) : Out :=
  .next (s.packageAction a p (fun l => { l with attestBlocked := dropFrom l.attestBlocked p.key }) .attestationRelease)
/-- SWAPOUT_REQUEST: Chartwright is asked for the Chart without the package; SWAP_OUT follows the turn. -/
def execSwapoutRequest (a : AlmId) (p : PkgId) (s : State) : Out :=
  .next (s.operator a fun h s =>
    if p.rack ≠ h.rack then s.http a 400 "BAD_VALUE"
    else
      let s1 := s.logs h.rack fun l => { l with actions := l.actions ++ [(p.key, l.epoch, .swapOut)] }
      (s1.setAlm h ((s1.alm h).emit (.command "BUILD_VARIANT" h.rack.val p.key))).http a 200 "OK")
/-- POWER_ON. -/
def execPowerOn (a : AlmId) (p : PkgId) (s : State) : Out := .next (s.packageAction a p id .powerOn)
/-- RACK_NUMBER_SET (R27): 0–31, in effect at the next cold start. -/
def execRackNumberSet (a : AlmId) (n : Nat) (s : State) : Out :=
  .next (s.operator a fun h s =>
    if 31 < n then s.http a 400 "BAD_VALUE"
    else (s.logs h.rack fun l => { l with rackNumber := n, actions := l.actions ++ [(0, l.epoch, .settingTaken)] }).http a 200 "OK")

/-! ### Staging images (R337, R342, R348, R351, R352, R357) -/

/-- The names of R342's codes. -/
def failName (code : Nat) : String := ["OK", "BAD_FORMAT", "TOO_LARGE", "BASE_MISMATCH", "BAD_SIGNATURE", "RESULT_MISMATCH"].getD code "OK"
/-- Room for an image: 15 MiB for kind 1, and else the image area of Table 13.6. -/
def stageLimit (kind : Nat) : Nat := if kind = 1 then bankBytes else 0x1DFF0000
def putEntry (g : Golden) (l : List Golden) : List Golden :=
  l.filter (fun e => !(e.kind = g.kind && e.target = g.target && e.gold == g.gold)) ++ [g]
/-- A CW checks an image against its golden copy and stages it in both NORs. With both golden copies of kind 1 lost it is stored as GOLD
(R351), and in the CW's lifeboat a full image of kind 6 is run (R352). -/
def CwSt.stage (kind target : Nat) (image : List Byte) (c : CwSt) : Nat × CwSt :=
  let base := ((c.golden kind target).map (·.image)).getD []
  let r := applyPatch c.keys base kind (stageLimit kind) image
  if r.1 ≠ 0 then (r.1, c)
  else if c.lifeboat && kind = 6 then (0, { c with bootFlash := r.2, lifeboat := false, running := true })
  else
    let g : Golden := ⟨kind, target, pVersion image, decide (kind = 1) && (c.golden kind target).isNone, true, r.2⟩
    (0, { c with nor0 := putEntry g c.nor0, nor1 := putEntry g c.nor1 })
def isKeyRecord (b : List Byte) : Bool := b.length = 224 && slice b 0 4 = [0x4B, 0x45, 0x59, 0x52]
/-- A golden key record (R343). -/
def CwSt.takeKey (b : List Byte) (c : CwSt) : Nat × CwSt :=
  if keyRecordOk [2] (fun _ slot => (sget {} c.keys slot).gen.toNat) b then (0, { c with keys := sset {} c.keys (u8 b 4) (keyRecordSlot b) })
  else (4, c)
/-- One target of a push: the code of R342, and the machine. A key record for a package goes on to it by PLDM. -/
def State.stageOne (h : AlmId) (image : List Byte) (target : UpdateTarget) (s : State) : Nat × State :=
  let at_ (t : TrayId) (f : CwSt → Nat × CwSt) : Nat × State :=
    if t.rack ≠ h.rack then (1, s) else
      let r := f (s.tray t)
      (r.1, s.setTray t r.2)
  match target with
  | .pkc p =>
    if isKeyRecord image then at_ (PkgId.tray p) fun c => (0, c.emit (.image p.key image))
    else at_ (PkgId.tray p) fun c => c.stage 1 p.position image
  | .cw t => at_ t fun c => if isKeyRecord image then c.takeKey image else c.stage 6 0 image
  | .chip t kind n => at_ t fun c => c.stage (kind.val + 2) n.toNat image
  | .almanac x =>
    if x.rack ≠ h.rack then (1, s)
    else (0, s.logs h.rack fun l => { l with staged := (l.staged.filter fun e => e.1 ≠ x.key) ++ [(x.key, image)] })
/-- UPDATE_PUSH: the first target that refuses names the status. -/
def execUpdatePush (a : AlmId) (targets : List UpdateTarget) (image : List Byte) (s : State) : Out :=
  .next (s.operator a fun h s =>
    let r := targets.foldl (fun (acc : Nat × State) t =>
      let e := acc.2.stageOne h image t
      (if acc.1 = 0 then e.1 else acc.1, e.2)) (0, s)
    r.2.http a (if r.1 = 0 then 200 else 400) (failName r.1))
/-- The key of an update target, and of the CW that serves it. -/
def targetKey : UpdateTarget → Nat
  | .pkc p => p.key
  | .cw t => t.key
  | .chip t kind n => 65536 * t.key + 256 * (kind.val + 2) + n.toNat
  | .almanac x => x.key
def targetRack : UpdateTarget → Fin 32
  | .pkc p => p.rack
  | .cw t => t.rack
  | .chip t _ _ => t.rack
  | .almanac x => x.rack
/-- ACTIVATE. -/
def execActivate (a : AlmId) (target : UpdateTarget) (s : State) : Out :=
  .next (s.operator a fun h s =>
    if targetRack target ≠ h.rack then s.http a 400 "BAD_VALUE"
    else (s.sendAction h (targetKey target) .activate).http a 200 "OK")
/-- HAND_OVER (R355): with the peer in STANDBY and its log whole, the helm sends RELINQUISH and stands by, and the peer sends TAKE at once. -/
def execHandOver (a : AlmId) (s : State) : Out :=
  .next (s.operator a fun h s =>
    let peer := AlmId.peer h
    if (s.alm peer).role ≠ .standby then s.http a 400 "STANDBY_LOST"
    else
      let s1 := s.sendAction h h.rack.val .relinquish
      let x := s1.alm h
      let s2 := s1.setAlm h { x.leave .standby with heardAt := s.now, takeEpoch := none }
      (s2.setAlm peer ({ s2.alm peer with knownHigh := maxWord (s2.alm peer).knownHigh x.log.epoch }.sendTake s.now)).http a 200 "OK")
/-- UNIT_UPDATE (R356): refused with UPDATE_SHORT where the other units could not carry the rack; a failed unit is dead. -/
def execUnitUpdate (rack : Fin 32) (u : RackUnit) (ok : Bool) (s : State) : Out :=
  .next (s.operator ⟨rack, false⟩ fun h s =>
    let x := s.rack rack
    match u with
    | .psu n =>
      if { x with psuFault := addTo x.psuFault n.val }.single < (s.alm h).log.siteCapW then s.http h 400 "UPDATE_SHORT"
      else if ok then s.http h 200 "OK"
      else ((s.supplyChange rack fun x => { x with psuFault := addTo x.psuFault n.val }).alarmSet rack "PSU_DEAD" true).http h 200 "OK"
    | .pump n =>
      if x.pumpBad.contains (1 - n.val) then s.http h 400 "UPDATE_SHORT"
      else if ok then s.http h 200 "OK"
      else ((s.setRack rack { x with pumpBad := addTo x.pumpBad n.val }).alarmSet rack "PUMP_DEAD" true).http h 200 "OK")

end Sys2Proof.Machine
end

