-- ==== Sys2Proof/Machine/Fleet.lean ====
section
/-! DEFINITION. The fleet (R27–R32, R137, R311, R314): discovery and duplicate rack numbers, the flagship's takeover, and fleet turns. -/

namespace Sys2Proof.Machine
open Sys2Proof

/-- A rack that acts as flagship: the fleet's, or a rack that is a fleet of one (R31). -/
def FleetSt.leads (f : FleetSt) (rack : Nat) : Bool := f.isolated.contains rack || f.members.all (· = rack) || f.flagship = rack
/-- The member with a rack number. -/
def State.memberOf (s : State) (number : Nat) : Option Nat :=
  s.fleet.members.find? fun r => (s.rack ⟨r % 32, Nat.mod_lt _ (by decide)⟩).rackNumber = number
/-- The fleet-facing links of a Meridian tray are kept out of service, or begin training again (R145). -/
def holdFleetPorts (held : Bool) (m : RouterSt) : RouterSt :=
  (List.range 144).foldl (fun m n =>
    let x := sget {} m.ports (144 + n)
    if held then { m with ports := sset {} m.ports (144 + n) { x with state := .heldDown } }
    else if x.state = .heldDown then { m with ports := sset {} m.ports (144 + n) (PortSt.powerUp { x with state := .off }) } else m) m
def State.fleetLinks (held : Bool) (rack : Fin 32) (s : State) : State :=
  (List.finRange 4).foldl (fun s pl => s.setRouter (.meridian rack pl) (holdFleetPorts held (s.router (.meridian rack pl)))) s
/-- The winner of a rack number among the racks found: an existing member, or else the lowest Almanac serial number. -/
def State.winner (s : State) (racks : List (Fin 32)) : Option (Fin 32) :=
  match racks.find? fun r => s.fleet.members.contains r.val with
  | some r => some r
  | none =>
    let serial (r : Fin 32) : Nat := Config.almanacSerial (((s.helm r).getD ⟨r, false⟩).key)
    racks.foldl (fun b r => match b with
      | none => some r
      | some q => if serial r < serial q then some r else some q) none
/-- FLEET_DISCOVERY: the flagship's Sextant finds the racks that have a helm and settles duplicate numbers. The spec does not say which rack is the
flagship before a fleet Chart names one: it is the rack whose Sextant first runs discovery while the fleet has no members (DESIGN CHOICE, log 94). -/
def execFleetDiscovery (rack : Fin 32) (s : State) : Out :=
  if (s.helm rack).isNone ∨ !s.fleet.leads rack.val then .next s
  else
    let live := (List.finRange 32).filter fun r => (s.helm r).isSome
    let wins (r : Fin 32) : Bool := s.winner (live.filter fun q => (s.rack q).rackNumber = (s.rack r).rackNumber) = some r
    let kept := live.filter wins
    let out := live.filter fun r => !wins r
    let members := kept.foldl (fun l r => addTo l r.val) (s.fleet.members.filter fun m => !out.any fun r => r.val = m)
    let s1 := out.foldl (fun s r => s.fleetLinks true r) s
    let s2 := (kept.filter fun r => s.fleet.isolated.contains r.val).foldl (fun s r => s.fleetLinks false r) s1
    .next { s2 with fleet := { s2.fleet with members := members, isolated := out.map (·.val),
                                             flagship := if s.fleet.members.isEmpty then rack.val else s.fleet.flagship } }

/-! ### Fleet turns (R137) -/

/-- The fleet region of a rack number: ORDER and WINDOW. -/
def fleetRegion (img : List Byte) (number : Nat) : Option (Nat × Nat) := ((turnRegions img).find? fun r => bit r.2.2 number).map fun r => (r.1, r.2.1)
/-- A physical rack by its number in a list. -/
def rackAt (n : Nat) : Fin 32 := ⟨n % 32, Nat.mod_lt _ (by decide)⟩
/-- What the helm refuses to order as a fleet turn: an image that Chartwright has not checked or that breaks its form, rack images that disagree with it,
or a present rack without an image (R102, R112, R124, R373). -/
def State.fleetOrderOk (s : State) (fleetImage : List Byte) (images : List (Fin 32 × List Byte)) (checked : Bool) : Bool :=
  checked && fleetImageOk fleetImage && parentsAgree fleetImage (images.map (·.2)) &&
    (fleetRacks fleetImage).all fun n => match s.memberOf n with
      | some r => images.any fun e => e.1.val = r
      | none => false
/-- FLEET_TURN: the fleet Chart master sends every rack its image and the fleet T0. -/
def execFleetTurn (rack : Fin 32) (t0 : Nat) (fleetImage : List Byte) (all : Checked (List (Fin 32 × List Byte))) (s : State) : Out :=
  let images := all.image
  match s.helm rack with
  | none => .next s
  | some h =>
    if !s.fleet.leads rack.val || s.fleet.turnT0.isSome then .next s
    else if !s.fleetOrderOk fleetImage images all.checked then .next (s.setAlm h ((s.alm h).emit (.command "FLEET_TURN_REFUSED" rack.val t0)))
    else
      let s1 := { s with fleet := { s.fleet with turnT0 := some t0, turnImage := fleetImage, turnImages := images.map (fun e => (e.1.val, e.2)),
                                                 turnRegion := 0, turnCommits := [], turnMaster := rack.val, withdrawing := none } }
      .next (images.foldl (fun s e => s.setAlm h (((s.alm h).emit (.image e.1.val e.2)).emit (.order e.1.val t0))) s1)
/-- FLEET_ORDER (R311): an order under a term below the highest seen is refused; else the rack's image and T0 are taken, and the rack turns
as one region, unless its own tests refuse the turn (R229, R376). -/
def execFleetOrder (rack : Fin 32) (term : Word) (t0 : Nat) (s : State) : Out :=
  match s.helm rack with
  | none => .next s
  | some h =>
    if term.toNat < (s.alm h).log.term.toNat then .next (s.setAlm h ((s.alm h).emit (.command "STALE_TERM" rack.val term.toNat)))
    else
      let s1 := s.logs rack fun l => { l with term := term }
      match s.fleet.turnImages.find? fun e => e.1 = rack.val with
      | none => .next s1
      | some e =>
        if s.fleet.turnT0 ≠ some t0 then .next s1
        else match s.refuseTurn h e.2 with
        | some why => .next (s1.setAlm h ((s1.alm h).emit (.command why rack.val t0)))
        | none =>
          let s2 := s1.logs rack fun l => { l with shadowChart := e.2, turnT0 := some t0, commits := [] }
          let region := fleetRegion s.fleet.turnImage (s.rack rack).rackNumber
          let s3 := (rackPkgs rack).foldl (fun s p =>
            let k := s.pkg p
            if k.turning then s else s.setPkg p (k.setChart fun c => { c with fleet := region })) s2
          .next (s3.sendAction h rack.val (.turnGo (BitVec.ofNat 32 (chEpoch e.2)) t0))
/-- After the last fleet region, one TR is set at every package that takes the turn: a millisecond ahead on the clock of the rack that leads the turn
(log 29). -/
def State.retireFleet (s : State) : State :=
  let tr := s.rackTime (rackAt s.fleet.turnMaster) + 1000000
  s.fleet.turnImages.foldl (fun s e =>
    (rackPkgs (rackAt e.1)).foldl (fun s p =>
      let k := s.pkg p
      if k.phase = 3 ∧ k.chart.fleet.isSome then
        s.setPkg p ((k.putPhase 4).setChart fun c => { c with tr := some tr })
      else s) s) s
/-- The packages of a rack that take part in a turn: those in service whose Chart engine works. -/
def State.turnPkgs (s : State) (r : Fin 32) : List PkgId := (rackPkgs r).filter fun p => (s.pkg p).pkc.admitted && !(s.pkg p).chartOff
/-- A rack with a helm to report it has committed: every package that takes part has. -/
def State.rackCommitted (s : State) (r : Fin 32) : Bool :=
  (s.helm r).isSome && (s.turnPkgs r).all fun p => decide ((s.pkg p).phase = 3) && (s.pkg p).chart.committed.contains (s.pkg p).ownRegion
/-- The racks of the fleet turn in one fleet region. -/
def State.regionRacks (s : State) (o : Nat) : List Nat :=
  (s.fleet.turnImages.map (·.1)).filter fun r => (fleetRegion s.fleet.turnImage (s.rack (rackAt r)).rackNumber).map (·.1) = some o
/-- No fleet turn is under way. -/
def FleetSt.closed (f : FleetSt) : FleetSt :=
  { f with turnT0 := none, turnImage := [], turnImages := [], turnCommits := [], withdrawing := none, wdCause := (0, 0) }
/-- RACK_COMMIT_REPORT: the helm of a rack that has committed reports it. The next region may enter once every rack of this one has committed; after the
last the fleet image takes effect, and names the flagship and its successors (R31, R32). -/
def execRackCommitReport (rack : Fin 32) (src : Fin 32) (s : State) : Out :=
  if (s.helm rack).isNone ∨ !s.fleet.leads rack.val ∨ s.fleet.turnT0.isNone ∨ s.fleet.withdrawing.isSome ∨ !s.rackCommitted src then .next s
  else
    let img := s.fleet.turnImage
    let commits := addTo s.fleet.turnCommits src.val
    let s1 := { s with fleet := { s.fleet with turnCommits := commits } }.logs rack fun l => { l with commits := addTo l.commits src.val }
    if !(s.regionRacks s.fleet.turnRegion).all commits.contains then .next s1
    else if s.fleet.turnRegion < lastRegion img then .next { s1 with fleet := { s1.fleet with turnRegion := s.fleet.turnRegion + 1 } }
    else
      let s2 := s1.retireFleet
      .next { s2 with fleet := { s2.fleet.closed with
        chart := img, flagship := (s.memberOf (routeFlagship img)).getD s.fleet.flagship, successors := (routeSucc img).filterMap s.memberOf } }

/-! ### Withdrawal of a fleet turn (R134, R137) -/

/-- The racks that have entered, the last region's first. -/
def State.enteredRacks (s : State) : List Nat :=
  ((List.range (s.fleet.turnRegion + 1)).reverse.flatMap s.regionRacks).filter fun r => (s.turnPkgs (rackAt r)).any fun p =>
    decide ((s.pkg p).phase = 3)
/-- The fleet turn is to be withdrawn, the failing rack first. -/
def State.withdrawFleet (first : List Nat) (cause region : Nat) (s : State) : State :=
  if s.fleet.turnT0.isNone ∨ s.fleet.withdrawing.isSome then s
  else { s with fleet := { s.fleet with withdrawing := some (first ++ s.enteredRacks.filter fun r => !first.contains r), wdCause := (cause, region) } }
/-- FLAGSHIP_TAKEOVER (R32, R137): the flagship has had no helm for 2 s, and the first successor with one takes the fleet roles under a new term; a fleet
turn in progress is withdrawn with FLAGSHIP_LOST. -/
def execFlagshipTakeover (rack : Fin 32) (s : State) : Out :=
  let able := s.fleet.successors.filter fun r => (s.helm (rackAt r)).isSome
  let lost := match s.fleet.lostAt with
    | some t => decide (t + 2 * 10 ^ 9 ≤ s.now)
    | none => false
  if able.head? ≠ some rack.val ∨ !lost ∨ (s.helm (rackAt s.fleet.flagship)).isSome then .next s
  else
    let s1 := (s.logs rack fun l => { l with term := l.term + 1 }).withdrawFleet [] 10 s.fleet.turnRegion
    .next { s1 with fleet := { s1.fleet with flagship := rack.val, successors := dropFrom s1.fleet.successors rack.val, turnMaster := rack.val,
                                             lostAt := none } }

end Sys2Proof.Machine
end

