-- ==== Sys2Proof/Machine/Clock.lean ====
section
/-! DEFINITION. What time brings while no command waits (log 2): one always-on cycle of 40 ns passes, and the units that act on their own do what has
come due: Bearing and Chart engines, tray controllers with a first Chart to serve, helms with a turn under way, and the rack that leads a fleet turn. -/

namespace Sys2Proof.Machine
open Sys2Proof

/-- The package and the tray of a key. -/
def keyPkg (n : Nat) : PkgId := ⟨⟨n / 128 % 32, Nat.mod_lt _ (by decide)⟩, ⟨n / 16 % 8, Nat.mod_lt _ (by decide)⟩, ⟨n % 16 % 12, Nat.mod_lt _ (by decide)⟩⟩
def keyTray (n : Nat) : TrayId := ⟨⟨n / 28 % 32, Nat.mod_lt _ (by decide)⟩, ⟨n % 28, Nat.mod_lt _ (by decide)⟩⟩
/-- A package's Bearing engines take the blocks written to them (R208), and its Chart engine the turn messages that have arrived (R128). -/
def State.enginesClock (p : PkgId) (s : State) : State :=
  let r := takeNoticed s.now p s.mem (s.pkg p)
  { s with mem := r.1 }.setPkg p (if r.2.chart.arrived.isEmpty then r.2 else r.2.absorb s.now)

/-! ### The fleet (R32, R134, R135, R137) -/

/-- How a rack of the fleet turn has failed, from T0 + 1 ms on: a package of it withdraws, or takes no part in the turn. Its cause and region. -/
def State.rackFailure (s : State) (r : Fin 32) (image : List Byte) (t0 : Nat) : Option (Nat × Nat) :=
  ((s.turnPkgs r).find? fun p =>
    let k := s.pkg p
    decide (t0 + 1000000 ≤ k.time s.now) && (decide (k.phase = 5) || (decide (k.phase = 0) && decide (k.chart.active ≠ image)))).map fun p =>
      let k := s.pkg p
      if k.chart.goT0 = t0 then (k.get F.CHT_TURN_CAUSE_CAUSE, k.get F.CHT_TURN_CAUSE_CAUSE_REGION) else (6, 0)
/-- Every package of a rack has withdrawn, or never entered. -/
def State.rackWithdrawn (s : State) (r : Fin 32) : Bool :=
  (s.turnPkgs r).all fun p =>
    let k := s.pkg p
    decide (k.phase ≤ 2) || (decide (k.phase = 5) && k.chart.wdSeq.isEmpty)
/-- The rack at the front withdraws, and when it has, the next follows; after the last every package ends the turn WITHDRAWN with its cause. -/
def State.withdrawStep (s : State) : State :=
  let c := s.fleet.wdCause
  match s.fleet.withdrawing with
  | none => s
  | some (r :: rest) =>
    let s1 := (s.turnPkgs (rackAt r)).foldl (fun s p => s.setPkg p ((s.pkg p).fleetWithdraw s.now c.2 c.1)) s
    if s1.rackWithdrawn (rackAt r) then { s1 with fleet := { s1.fleet with withdrawing := some rest } } else s1
  | some [] =>
    let stop (s : State) (p : PkgId) : State :=
      let k := s.pkg p
      if k.turning && k.chart.fleet.isSome then s.setPkg p ((k.turnCause c.1 c.2).endWithdrawn 2) else s
    let s1 := s.fleet.turnImages.foldl (fun s e => (rackPkgs (rackAt e.1)).foldl stop s) s
    { s1 with fleet := s1.fleet.closed }
/-- The rack that leads a fleet turn withdraws it once a rack fails. -/
def State.leadClock (s : State) : State :=
  match s.fleet.turnT0, s.fleet.withdrawing with
  | none, _ => s
  | some t0, none =>
    match s.fleet.turnImages.findSome? (fun e => (s.rackFailure (rackAt e.1) e.2 t0).map fun c => (e.1, c)) with
    | some (r, c) => s.withdrawFleet [r] c.1 c.2
    | none => s
  | some _, some _ => s.withdrawStep
/-- Since when the flagship has had no helm. -/
def State.watchFlagship (s : State) : State :=
  let lost := !s.fleet.members.isEmpty && (s.helm (rackAt s.fleet.flagship)).isNone
  { s with fleet := { s.fleet with lostAt := if lost then some (s.fleet.lostAt.getD s.now) else none } }
def State.fleetClock (s : State) : State :=
  let s1 := s.watchFlagship
  if (s1.helm (rackAt s1.fleet.turnMaster)).isSome then s1.leadClock else s1

/-- One cycle of 40 ns. -/
def State.clock (s : State) : State :=
  let s1 := s.pkgs.foldl (fun s e => s.enginesClock (keyPkg e.1)) s.tick
  let s2 := s1.trays.foldl (fun s e => (List.finRange 4).foldl (fun s pos => s.firstChart (keyTray e.1) pos) s) s1
  ((List.finRange 32).foldl (fun s r => s.turnClock r) s2).fleetClock

end Sys2Proof.Machine
end

