-- ==== Sys2Proof/Machine/Dispatch.lean ====
section
/-! DEFINITION. The dispatch: one arm per constructor of Instr. -/

namespace Sys2Proof.Machine
open Sys2Proof

def exec (i : Instr) (s : State) : Host.Outcome State Fault Refusal :=
  match i with
  | .registerWrite p who off size v => Sys2Proof.Machine.execRegisterWrite p who off size v s
  | .readClear p who off size => Sys2Proof.Machine.execReadClear p who off size s
  | .lowWordRead p who off size => Sys2Proof.Machine.execLowWordRead p who off size s
  | .flagshipTakeover rack => Sys2Proof.Machine.execFlagshipTakeover rack s
  | .fleetDiscovery rack => Sys2Proof.Machine.execFleetDiscovery rack s
  | .aonPkgAddrWrite p who => Sys2Proof.Machine.execAonPkgAddrWrite p who s
  | .pkcBootEnd p => Sys2Proof.Machine.execPkcBootEnd p s
  | .place p who c n w => Sys2Proof.Machine.execPlace p who c n w s
  | .placementEnd p c n => Sys2Proof.Machine.execPlacementEnd p c n s
  | .segmentRelease p who c n w => Sys2Proof.Machine.execSegmentRelease p who c n w s
  | .lendAsk p src sgen pages core tag => Sys2Proof.Machine.execLendAsk p src sgen pages core tag s
  | .lendGrant p tag granted base => Sys2Proof.Machine.execLendGrant p tag granted base s
  | .lendFree p src base pages => Sys2Proof.Machine.execLendFree p src base pages s
  | .lentStorageAccess p pk => Sys2Proof.Machine.execLentStorageAccess p pk s
  | .coreAccess p c a => Sys2Proof.Machine.execCoreAccess p c a s
  | .unitDark p u cause => Sys2Proof.Machine.execUnitDark p u cause s
  | .claspAcquire p src c store line wait => Sys2Proof.Machine.execClaspAcquire p src c store line wait s
  | .claspRelease p c store line => Sys2Proof.Machine.execClaspRelease p c store line s
  | .claspWaitExpiry p c => Sys2Proof.Machine.execClaspWaitExpiry p c s
  | .claspHoldExpiry p store line => Sys2Proof.Machine.execClaspHoldExpiry p store line s
  | .goingDarkNotice l => Sys2Proof.Machine.execGoingDarkNotice l s
  | .backInServiceNotice l => Sys2Proof.Machine.execBackInServiceNotice l s
  | .resetHoldExpiry p u => Sys2Proof.Machine.execResetHoldExpiry p u s
  | .responseArrival p pk => Sys2Proof.Machine.execResponseArrival p pk s
  | .hostPortReset p gts width => Sys2Proof.Machine.execHostPortReset p gts width s
  | .clockSourceLost p srcB => Sys2Proof.Machine.execClockSourceLost p srcB s
  | .force p who w => Sys2Proof.Machine.execForce p who w s
  | .sourceReturn p srcB => Sys2Proof.Machine.execSourceReturn p srcB s
  | .timeStrobe p => Sys2Proof.Machine.execTimeStrobe p s
  | .timeExchange p diffs => Sys2Proof.Machine.execTimeExchange p diffs s
  | .idleEntry p c => Sys2Proof.Machine.execIdleEntry p c s
  | .napEntry p c => Sys2Proof.Machine.execNapEntry p c s
  | .dozeEntry p c => Sys2Proof.Machine.execDozeEntry p c s
  | .enterNap p who c hold => Sys2Proof.Machine.execEnterNap p who c hold s
  | .enterDoze p who c hold => Sys2Proof.Machine.execEnterDoze p who c hold s
  | .wakeToRun p who c hold => Sys2Proof.Machine.execWakeToRun p who c hold s
  | .furlEntry p t => Sys2Proof.Machine.execFurlEntry p t s
  | .moorEntry p => Sys2Proof.Machine.execMoorEntry p s
  | .moorNotice l => Sys2Proof.Machine.execMoorNotice l s
  | .wakePatternSend l => Sys2Proof.Machine.execWakePatternSend l s
  | .wakePattern p q c => Sys2Proof.Machine.execWakePattern p q c s
  | .linkResume l => Sys2Proof.Machine.execLinkResume l s
  | .wakeComplete p c => Sys2Proof.Machine.execWakeComplete p c s
  | .pcieL1Exit p => Sys2Proof.Machine.execPcieL1Exit p s
  | .wake p cores => Sys2Proof.Machine.execWake p cores s
  | .deferredAccessComplete p => Sys2Proof.Machine.execDeferredAccessComplete p s
  | .arm p who w => Sys2Proof.Machine.execArm p who w s
  | .prewakeCancel p who w => Sys2Proof.Machine.execPrewakeCancel p who w s
  | .prewakeStart p slot => Sys2Proof.Machine.execPrewakeStart p slot s
  | .prewakeFree p slot => Sys2Proof.Machine.execPrewakeFree p slot s
  | .start p who u w => Sys2Proof.Machine.execStart p who u w s
  | .csuAbort p who u w => Sys2Proof.Machine.execCsuAbort p who u w s
  | .finish p who u w => Sys2Proof.Machine.execFinish p who u w s
  | .chunk p u tag alive data => Sys2Proof.Machine.execChunk p u tag alive data s
  | .scanEnd p u corrected => Sys2Proof.Machine.execScanEnd p u corrected s
  | .validationEnd p => Sys2Proof.Machine.execValidationEnd p s
  | .beginPort p who => Sys2Proof.Machine.execBeginPort p who s
  | .beginDma p who => Sys2Proof.Machine.execBeginDma p who s
  | .loadCancel p who => Sys2Proof.Machine.execLoadCancel p who s
  | .loadData p who w => Sys2Proof.Machine.execLoadData p who w s
  | .dmaLoadEnd p => Sys2Proof.Machine.execDmaLoadEnd p s
  | .go p who => Sys2Proof.Machine.execGo p who s
  | .operatorAbort p who => Sys2Proof.Machine.execOperatorAbort p who s
  | .prepare p => Sys2Proof.Machine.execPrepare p s
  | .prepareDeadline p => Sys2Proof.Machine.execPrepareDeadline p s
  | .regionEnter p => Sys2Proof.Machine.execRegionEnter p s
  | .drainEnd p => Sys2Proof.Machine.execDrainEnd p s
  | .turnDrained p m => Sys2Proof.Machine.execTurnDrained p m s
  | .turnCommit p m => Sys2Proof.Machine.execTurnCommit p m s
  | .retire p => Sys2Proof.Machine.execRetire p s
  | .leadWindowExpiry p => Sys2Proof.Machine.execLeadWindowExpiry p s
  | .regionDeadline p => Sys2Proof.Machine.execRegionDeadline p s
  | .turnAbort p m => Sys2Proof.Machine.execTurnAbort p m s
  | .withdrawWaitEnd p => Sys2Proof.Machine.execWithdrawWaitEnd p s
  | .withdrawLimit p => Sys2Proof.Machine.execWithdrawLimit p s
  | .turnWithdrawn p m => Sys2Proof.Machine.execTurnWithdrawn p m s
  | .fleetTurn rack t0 fleetImage images => Sys2Proof.Machine.execFleetTurn rack t0 fleetImage images s
  | .rackCommitReport rack src => Sys2Proof.Machine.execRackCommitReport rack src s
  | .blockReceive l b crcOk => Sys2Proof.Machine.execBlockReceive l b crcOk s
  | .nak l bseq => Sys2Proof.Machine.execNak l bseq s
  | .replayTimeout l => Sys2Proof.Machine.execReplayTimeout l s
  | .laneLockLoss l => Sys2Proof.Machine.execLaneLockLoss l s
  | .fastRetrainEnd l identity => Sys2Proof.Machine.execFastRetrainEnd l identity s
  | .fastRetrainTimeout l => Sys2Proof.Machine.execFastRetrainTimeout l s
  | .fullTrainingEnd l ok identity => Sys2Proof.Machine.execFullTrainingEnd l ok identity s
  | .trainingRetry l => Sys2Proof.Machine.execTrainingRetry l s
  | .retrain p who q => Sys2Proof.Machine.execRetrain p who q s
  | .holdDown p who q => Sys2Proof.Machine.execHoldDown p who q s
  | .portRelease p who q => Sys2Proof.Machine.execPortRelease p who q s
  | .packetArrive r inp pk => Sys2Proof.Machine.execPacketArrive r inp pk s
  | .packetDepart l => Sys2Proof.Machine.execPacketDepart l s
  | .requestIssue p c rq => Sys2Proof.Machine.execRequestIssue p c rq s
  | .flowSend p dst cls => Sys2Proof.Machine.execFlowSend p dst cls s
  | .flowPacketReceive p pk => Sys2Proof.Machine.execFlowPacketReceive p pk s
  | .ackTimeExpiry p src cls tree => Sys2Proof.Machine.execAckTimeExpiry p src cls tree s
  | .ack p pk => Sys2Proof.Machine.execAck p pk s
  | .retxTimeExpiry p dst cls tree seq => Sys2Proof.Machine.execRetxTimeExpiry p dst cls tree seq s
  | .inputScan r => Sys2Proof.Machine.execInputScan r s
  | .holdTimeExpiry l => Sys2Proof.Machine.execHoldTimeExpiry l s
  | .requestServe p => Sys2Proof.Machine.execRequestServe p s
  | .mgmtPacket p pk => Sys2Proof.Machine.execMgmtPacket p pk s
  | .castWrite p c kind tree dst addr data => Sys2Proof.Machine.execCastWrite p c kind tree dst addr data s
  | .castSignal p c kind tree dst addr => Sys2Proof.Machine.execCastSignal p c kind tree dst addr s
  | .castArrive p q pk => Sys2Proof.Machine.execCastArrive p q pk s
  | .tallySum p c k => Sys2Proof.Machine.execTallySum p c k s
  | .tallyMax p c k => Sys2Proof.Machine.execTallyMax p c k s
  | .tallyMin p c k => Sys2Proof.Machine.execTallyMin p c k s
  | .tallyTopk p src k => Sys2Proof.Machine.execTallyTopk p src k s
  | .tallyArrive p inp pk => Sys2Proof.Machine.execTallyArrive p inp pk s
  | .mergeWaitExpiry p tree seq => Sys2Proof.Machine.execMergeWaitExpiry p tree seq s
  | .mapSample r => Sys2Proof.Machine.execMapSample r s
  | .mapReport p => Sys2Proof.Machine.execMapReport p s
  | .weightWrite p entries => Sys2Proof.Machine.execWeightWrite p entries s
  | .weightHoldExpiry p => Sys2Proof.Machine.execWeightHoldExpiry p s
  | .queryWrite p c off data => Sys2Proof.Machine.execQueryWrite p c off data s
  | .hostqGo p who t => Sys2Proof.Machine.execHostqGo p who t s
  | .queryStart p t => Sys2Proof.Machine.execQueryStart p t s
  | .queryEnd p x => Sys2Proof.Machine.execQueryEnd p x s
  | .brgAbort p who t => Sys2Proof.Machine.execBrgAbort p who t s
  | .siteCapSet rack watts => Sys2Proof.Machine.execSiteCapSet rack watts s
  | .psuHealthChange rack n healthy => Sys2Proof.Machine.execPsuHealthChange rack n healthy s
  | .feedLost rack x => Sys2Proof.Machine.execFeedLost rack x s
  | .feedPresent rack x => Sys2Proof.Machine.execFeedPresent rack x s
  | .shelfPoll rack inputW packagesW => Sys2Proof.Machine.execShelfPoll rack inputW packagesW s
  | .pwrLadderCapWrite p who w => Sys2Proof.Machine.execPwrLadderCapWrite p who w s
  | .pwrHostCapWrite p who w => Sys2Proof.Machine.execPwrHostCapWrite p who w s
  | .governorTick p tileW uncoreW => Sys2Proof.Machine.execGovernorTick p tileW uncoreW s
  | .pointJudgement p tileW => Sys2Proof.Machine.execPointJudgement p tileW s
  | .pointStepEnd p t drawW => Sys2Proof.Machine.execPointStepEnd p t drawW s
  | .droop p t supplyMv => Sys2Proof.Machine.execDroop p t supplyMv s
  | .droopRecovery p t => Sys2Proof.Machine.execDroopRecovery p t s
  | .brakeAssert p => Sys2Proof.Machine.execBrakeAssert p s
  | .brakeRelease p => Sys2Proof.Machine.execBrakeRelease p s
  | .shelfAutoRelease x => Sys2Proof.Machine.execShelfAutoRelease x s
  | .almanacBrakeRelease rack => Sys2Proof.Machine.execAlmanacBrakeRelease rack s
  | .brakeTest rack ms => Sys2Proof.Machine.execBrakeTest rack ms s
  | .brakeTestEnd rack => Sys2Proof.Machine.execBrakeTestEnd rack s
  | .rateRampStep p => Sys2Proof.Machine.execRateRampStep p s
  | .capacityHoldEnd rack => Sys2Proof.Machine.execCapacityHoldEnd rack s
  | .poweredHour p margins => Sys2Proof.Machine.execPoweredHour p margins s
  | .marginAlarm p n marginMv => Sys2Proof.Machine.execMarginAlarm p n marginMv s
  | .cduSettingSet rack which tenths => Sys2Proof.Machine.execCduSettingSet rack which tenths s
  | .flowLimited rack => Sys2Proof.Machine.execFlowLimited rack s
  | .inletHigh rack tenths => Sys2Proof.Machine.execInletHigh rack tenths s
  | .dewRisk rack dewTenths => Sys2Proof.Machine.execDewRisk rack dewTenths s
  | .secondaryLow x => Sys2Proof.Machine.execSecondaryLow x s
  | .secondaryRestored x => Sys2Proof.Machine.execSecondaryRestored x s
  | .coolantRead t pos temp => Sys2Proof.Machine.execCoolantRead t pos temp s
  | .thrCoolantWrite p who w => Sys2Proof.Machine.execThrCoolantWrite p who w s
  | .coolantStale p => Sys2Proof.Machine.execCoolantStale p s
  | .naturalStepSample p dtMeas dtModel quiet => Sys2Proof.Machine.execNaturalStepSample p dtMeas dtModel quiet s
  | .probePulse p dutyPct drawW => Sys2Proof.Machine.execProbePulse p dutyPct drawW s
  | .thermalCapCompute p => Sys2Proof.Machine.execThermalCapCompute p s
  | .druStep p meas powerMw duty => Sys2Proof.Machine.execDruStep p meas powerMw duty s
  | .sensorFail p n => Sys2Proof.Machine.execSensorFail p n s
  | .junctionTrip p n temp => Sys2Proof.Machine.execJunctionTrip p n temp s
  | .junctionTripRelease p => Sys2Proof.Machine.execJunctionTripRelease p s
  | .thermalShutdown p n temp => Sys2Proof.Machine.execThermalShutdown p n temp s
  | .headingCommit p who w3 => Sys2Proof.Machine.execHeadingCommit p who w3 s
  | .headingExpiry p ix => Sys2Proof.Machine.execHeadingExpiry p ix s
  | .rotationDue p set => Sys2Proof.Machine.execRotationDue p set s
  | .rotationSkip p set => Sys2Proof.Machine.execRotationSkip p set s
  | .migrationEnd p set => Sys2Proof.Machine.execMigrationEnd p set s
  | .heartbeat p inst seq => Sys2Proof.Machine.execHeartbeat p inst seq s
  | .holdCourse p => Sys2Proof.Machine.execHoldCourse p s
  | .readReg p inst off ctrl => Sys2Proof.Machine.execReadReg p inst off ctrl s
  | .writeReg p inst off ctrl words => Sys2Proof.Machine.execWriteReg p inst off ctrl words s
  | .admitLinks p inst => Sys2Proof.Machine.execAdmitLinks p inst s
  | .fence p inst => Sys2Proof.Machine.execFence p inst s
  | .resync p inst => Sys2Proof.Machine.execResync p inst s
  | .getStatus p inst => Sys2Proof.Machine.execGetStatus p inst s
  | .event t pos code data => Sys2Proof.Machine.execEvent t pos code data s
  | .draSet p bytes => Sys2Proof.Machine.execDraSet p bytes s
  | .draGet p => Sys2Proof.Machine.execDraGet p s
  | .draAccessEnd p => Sys2Proof.Machine.execDraAccessEnd p s
  | .setdasa t pos => Sys2Proof.Machine.execSetdasa t pos s
  | .setEndpointId p eid => Sys2Proof.Machine.execSetEndpointId p eid s
  | .getEndpointId p => Sys2Proof.Machine.execGetEndpointId p s
  | .getEndpointUuid p => Sys2Proof.Machine.execGetEndpointUuid p s
  | .getMctpVersionSupport p msgType => Sys2Proof.Machine.execGetMctpVersionSupport p msgType s
  | .getMessageTypeSupport p overPcie => Sys2Proof.Machine.execGetMessageTypeSupport p overPcie s
  | .getVendorDefinedMessageSupport p overPcie selector => Sys2Proof.Machine.execGetVendorDefinedMessageSupport p overPcie selector s
  | .detectorFire p d info0 info1 => Sys2Proof.Machine.execDetectorFire p d info0 info1 s
  | .ucGraceExpiry p slot => Sys2Proof.Machine.execUcGraceExpiry p slot s
  | .ftGraceExpiry p slot => Sys2Proof.Machine.execFtGraceExpiry p slot s
  | .resolved p who slot => Sys2Proof.Machine.execResolved p who slot s
  | .escalate p who slot => Sys2Proof.Machine.execEscalate p who slot s
  | .isolationEnd p u => Sys2Proof.Machine.execIsolationEnd p u s
  | .scopeResetEnd p u => Sys2Proof.Machine.execScopeResetEnd p u s
  | .reactionEnd p ix => Sys2Proof.Machine.execReactionEnd p ix s
  | .hubReset p => Sys2Proof.Machine.execHubReset p s
  | .ceAlarmQuiet p u => Sys2Proof.Machine.execCeAlarmQuiet p u s
  | .ucQuiet p u => Sys2Proof.Machine.execUcQuiet p u s
  | .fltRelease p who w => Sys2Proof.Machine.execFltRelease p who w s
  | .lwClear p who w => Sys2Proof.Machine.execLwClear p who w s
  | .logMirror t pos => Sys2Proof.Machine.execLogMirror t pos s
  | .queryDeviceIdentifiers p => Sys2Proof.Machine.execQueryDeviceIdentifiers p s
  | .getFirmwareParameters p => Sys2Proof.Machine.execGetFirmwareParameters p s
  | .requestUpdate p overPcie => Sys2Proof.Machine.execRequestUpdate p overPcie s
  | .passComponentTable p comps => Sys2Proof.Machine.execPassComponentTable p comps s
  | .updateComponent p comp size => Sys2Proof.Machine.execUpdateComponent p comp size s
  | .requestFirmwareData p data => Sys2Proof.Machine.execRequestFirmwareData p data s
  | .firmwareDataTimeout p => Sys2Proof.Machine.execFirmwareDataTimeout p s
  | .transferComplete p => Sys2Proof.Machine.execTransferComplete p s
  | .verifyComplete p => Sys2Proof.Machine.execVerifyComplete p s
  | .applyComplete p => Sys2Proof.Machine.execApplyComplete p s
  | .activateFirmware p overPcie => Sys2Proof.Machine.execActivateFirmware p overPcie s
  | .pldmGetStatus p => Sys2Proof.Machine.execPldmGetStatus p s
  | .cancelUpdateComponent p => Sys2Proof.Machine.execCancelUpdateComponent p s
  | .cancelUpdate p => Sys2Proof.Machine.execCancelUpdate p s
  | .patchVerifyEnd p => Sys2Proof.Machine.execPatchVerifyEnd p s
  | .trialRunning p => Sys2Proof.Machine.execTrialRunning p s
  | .trialTimeout p => Sys2Proof.Machine.execTrialTimeout p s
  | .goldenPromotion t kind target => Sys2Proof.Machine.execGoldenPromotion t kind target s
  | .pushBegin p who => Sys2Proof.Machine.execPushBegin p who s
  | .pushData p who w => Sys2Proof.Machine.execPushData p who w s
  | .cwActivation t => Sys2Proof.Machine.execCwActivation t s
  | .almanacUpdate a image => Sys2Proof.Machine.execAlmanacUpdate a image s
  | .unitUpdate rack u ok => Sys2Proof.Machine.execUnitUpdate rack u ok s
  | .openDebug t epoch => Sys2Proof.Machine.execOpenDebug t epoch s
  | .closeDebug t => Sys2Proof.Machine.execCloseDebug t s
  | .shiftIr t pos bits => Sys2Proof.Machine.execShiftIr t pos bits s
  | .shiftDr t pos bits => Sys2Proof.Machine.execShiftDr t pos bits s
  | .tapReset t pos => Sys2Proof.Machine.execTapReset t pos s
  | .idle t pos cycles => Sys2Proof.Machine.execIdle t pos cycles s
  | .mgmtAccess p dr => Sys2Proof.Machine.execMgmtAccess p dr s
  | .halt p who c => Sys2Proof.Machine.execHalt p who c s
  | .deferralEnd p c => Sys2Proof.Machine.execDeferralEnd p c s
  | .breakpointMatch p c n pc => Sys2Proof.Machine.execBreakpointMatch p c n pc s
  | .resume p who c => Sys2Proof.Machine.execResume p who c s
  | .step p who c nextPc => Sys2Proof.Machine.execStep p who c nextPc s
  | .releaseClasps p who c => Sys2Proof.Machine.execReleaseClasps p who c s
  | .traceCapture p f port out pk busy => Sys2Proof.Machine.execTraceCapture p f port out pk busy s
  | .traceClear p who f w => Sys2Proof.Machine.execTraceClear p who f w s
  | .flowProven x => Sys2Proof.Machine.execFlowProven x s
  | .bringUpDeadline rack => Sys2Proof.Machine.execBringUpDeadline rack s
  | .seaTrialEnd p => Sys2Proof.Machine.execSeaTrialEnd p s
  | .psuOvervoltage rack n volts => Sys2Proof.Machine.execPsuOvervoltage rack n volts s
  | .psuRejoin rack x => Sys2Proof.Machine.execPsuRejoin rack x s
  | .busbarLow rack mv => Sys2Proof.Machine.execBusbarLow rack mv s
  | .busbarRecovered x => Sys2Proof.Machine.execBusbarRecovered x s
  | .busbarOvervoltage rack shelf mv => Sys2Proof.Machine.execBusbarOvervoltage rack shelf mv s
  | .busbarBrakeAssertion rack mv => Sys2Proof.Machine.execBusbarBrakeAssertion rack mv s
  | .previousBankRestart a => Sys2Proof.Machine.execPreviousBankRestart a s
  | .flowLimitedCleared rack => Sys2Proof.Machine.execFlowLimitedCleared rack s
  | .inletHighCleared x => Sys2Proof.Machine.execInletHighCleared x s
  | .prewakeDue p => Sys2Proof.Machine.execPrewakeDue p s
  | .getVersion p => Sys2Proof.Machine.execGetVersion p s
  | .getCapabilities p => Sys2Proof.Machine.execGetCapabilities p s
  | .negotiateAlgorithms p baseAsym baseHash => Sys2Proof.Machine.execNegotiateAlgorithms p baseAsym baseHash s
  | .getDigests p => Sys2Proof.Machine.execGetDigests p s
  | .getCertificate p slot offset len => Sys2Proof.Machine.execGetCertificate p slot offset len s
  | .challenge p slot nonce => Sys2Proof.Machine.execChallenge p slot nonce s
  | .getMeasurements p nonce => Sys2Proof.Machine.execGetMeasurements p nonce s
  | .cwStart t => Sys2Proof.Machine.execCwStart t s
  | .reflashEnd t kind target => Sys2Proof.Machine.execReflashEnd t kind target s
  | .modPwrGood t pos => Sys2Proof.Machine.execModPwrGood t pos s
  | .pkgReset p => Sys2Proof.Machine.execPkgReset p s
  | .pkcRelease p => Sys2Proof.Machine.execPkcRelease p s
  | .bootTimeout t pos => Sys2Proof.Machine.execBootTimeout t pos s
  | .telemetryPoll t pos => Sys2Proof.Machine.execTelemetryPoll t pos s
  | .thermShdnN t pos => Sys2Proof.Machine.execThermShdnN t pos s
  | .swapOut t pos epoch => Sys2Proof.Machine.execSwapOut t pos epoch s
  | .modPresent t pos serial => Sys2Proof.Machine.execModPresent t pos serial s
  | .modLatchOpen t pos level => Sys2Proof.Machine.execModLatchOpen t pos level s
  | .renew src epoch toPeer slot => Sys2Proof.Machine.execRenew src epoch toPeer slot s
  | .leaseExpiry a => Sys2Proof.Machine.execLeaseExpiry a s
  | .silenceTimeout a => Sys2Proof.Machine.execSilenceTimeout a s
  | .take t src epoch => Sys2Proof.Machine.execTake t src epoch s
  | .takeGrant a => Sys2Proof.Machine.execTakeGrant a s
  | .takeRoundEnd a => Sys2Proof.Machine.execTakeRoundEnd a s
  | .almanacBoot a => Sys2Proof.Machine.execAlmanacBoot a s
  | .echo a kind target pos seq value => Sys2Proof.Machine.execEcho a kind target pos seq value s
  | .idempotentMessage t kind pos seq value => Sys2Proof.Machine.execIdempotentMessage t kind pos seq value s
  | .fencedAction t pos epoch kind => Sys2Proof.Machine.execFencedAction t pos epoch kind s
  | .standbyLost a => Sys2Proof.Machine.execStandbyLost a s
  | .syncEnd a => Sys2Proof.Machine.execSyncEnd a s
  | .fleetOrder rack term t0 => Sys2Proof.Machine.execFleetOrder rack term t0 s
  | .relinquish t epoch => Sys2Proof.Machine.execRelinquish t epoch s
  | .turnChart a x startTime => Sys2Proof.Machine.execTurnChart a x startTime s
  | .abortTurn a => Sys2Proof.Machine.execAbortTurn a s
  | .releaseQuarantine a p unit => Sys2Proof.Machine.execReleaseQuarantine a p unit s
  | .releaseAttestation a p => Sys2Proof.Machine.execReleaseAttestation a p s
  | .swapoutRequest a p => Sys2Proof.Machine.execSwapoutRequest a p s
  | .powerOn a p => Sys2Proof.Machine.execPowerOn a p s
  | .rackNumberSet a n => Sys2Proof.Machine.execRackNumberSet a n s
  | .updatePush a targets image => Sys2Proof.Machine.execUpdatePush a targets image s
  | .activate a target => Sys2Proof.Machine.execActivate a target s
  | .handOver a => Sys2Proof.Machine.execHandOver a s

end Sys2Proof.Machine
end

