-- ==== Sys2Proof/Machine/Step.lean ====
section
/-! DEFINITION. One step of the block: the command at the front of the queue runs with the queue's rest; on an empty queue one
always-on cycle of 40 ns passes (log 2). -/

namespace Sys2Proof.Machine
open Sys2Proof

def step (s : State) : Host.Outcome State Fault Refusal :=
  match s.pending with
  | [] => .next s.clock
  | c :: rest => exec c { s with pending := rest }

/-- The state with the command that a table word spells put at the front of its queue (log 13: the table gives no row bits). -/
def State.withFetchWord (s : State) (nbits w : Nat) : State :=
  match decodeTableWord nbits w with
  | none => s
  | some c => { s with pending := c :: s.pending }

end Sys2Proof.Machine
end

