-- ==== Sys2Proof/Safety.lean ====
section
/-! DEFINITION. What counts as a safe run, in the terms the statements use. -/

namespace Sys2Proof.Machine
open Sys2Proof

/-- The storage of the state is in canonical form. -/
def State.canonical (s : State) : Prop :=
  Memory.wf s.mem = true ∧ swf ({} : Pkg) s.pkgs = true ∧ swf ({} : RouterSt) s.meridians = true ∧
    swf ({} : CwSt) s.trays = true ∧ swf ({} : AlmSt) s.almanacs = true ∧ swf ({} : RackSt) s.racks = true

/-- A step answers a next state: it neither faults nor refuses. -/
def Proceeds (o : Host.Outcome State Fault Refusal) : Prop := ∃ t, o = .next t

/-! ### Accesses to registers -/

/-- An access by `who` to the register at `off` of package `p` is served at once: the requester reaches the package (R346, R359), the block
is powered (R79), no access waits for one, and no pause of an update bars it (R346). -/
def Open (s : State) (p : PkgId) (who : Requester) (off : Nat) : Prop :=
  s.reaches p who = true ∧ ((s.pkg p).blockDomains off).all (s.pkg p).domainOn = true ∧ (s.pkg p).aon.deferred = [] ∧
    (s.pkg p).get F.UPD_STATUS_PAUSED = 0

/-- What a served write leaves: the memory and the package it left, one free value used, and its answer. -/
def State.wrote (s : State) (p : PkgId) (who : Requester) (off : Nat) (m : Mem) (k : Pkg) : State :=
  { s with mem := m, free := s.free + 1 }.setPkg p (k.emit (.busDone who off))

/-- Between two states of a package nothing changed but registers. -/
def OnlyRegs (j k : Pkg) : Prop := k = { j with regs := k.regs }
/-- A package is as it was: nothing but registers could have changed, and every register reads as before. -/
def SamePkg (j k : Pkg) : Prop := OnlyRegs j k ∧ ∀ o, k.rg o = j.rg o

/-- The registers whose writes do more than to store their fields (R392): those with an action field, and those whose description
judges or commits what is written. -/
def actingRegs : List Nat :=
  [R.AON_CLK_CTRL, R.AON_PREWAKE_CTRL, R.CHT_LOAD_CTRL, R.CHT_LOAD_DATA, R.CHT_TURN_CTRL, R.FLT_HANDLE, R.FLT_LW_CLEAR, R.FLT_RELEASE,
   R.FLT_QUAR 0, R.PWR_GUARD 0, R.PWR_LADDER_CAP, R.PWR_HOST_CAP, R.THR_COOLANT, R.THR_HEAD_W 0, R.THR_HEAD_W3, R.CSU_CTRL 0,
   R.DBG_TRACE_CTRL 0, R.DBG_ROUTE_OVR 0, R.UPD_PUSH_CTRL, R.UPD_PUSH_DATA, R.FAB_PORT_CTRL 0 0, R.CORE_PSTATE 0, R.CORE_DBG_CTRL 0,
   R.CORE_SEG_CTRL 0 0, R.BRG_CTRL 0, R.BRG_HOSTQ_GO 0]
/-- The bits of a mask are equal in two words. -/
def sameBits (mask : Nat) (v w : Word) : Prop := v &&& BitVec.ofNat 32 mask = w &&& BitVec.ofNat 32 mask

/-! ### Packages -/

/-- Nothing of a package waits for a segment, a sleeping core or a round: no access, no result, no cast and no contribution. -/
def Pkg.Quiet (k : Pkg) : Prop :=
  k.mem.accesses = [] ∧ k.mem.writes = [] ∧ (∀ e ∈ k.fab.rx, e.1 / 128 % 8 ≠ 2) ∧ k.tally.slots = [] ∧ k.tally.waiting = []
/-- From one state of a package to another a management message joined its flow to a package, unless a check of R156 bars it. -/
def Pkg.Sends (now : Nat) (op : Byte) (dst : Nat) (payload : List Byte) (k j : Pkg) : Prop :=
  k.barred 255 (k.mgmt now op dst payload) = none →
    (j.txFlow (flowKey dst 4 0)).waiting = (k.txFlow (flowKey dst 4 0)).waiting ++ [(k.mgmt now op dst payload, 255)]
/-- A register of the counters of discards of either F-tile. -/
def isDiscardB (o : Nat) : Prop := o = R.FAB_DISCARD_B 0 ∨ o = R.FAB_DISCARD_B 1

/-! ### Links -/

/-- The port at one end of a link, and what its router has sent. -/
def State.port (s : State) (l : LinkId) : PortSt := (s.router l.router).port l.port.val
def State.sent (s : State) : RouterId → List Msg
  | .pkg p => (s.pkg p).out
  | r => (s.router r).out
/-- The identity that the peer of a port must send (R26, R145); none where nothing is cabled to it. -/
def State.expectedAt (s : State) (l : LinkId) : Option Word :=
  match l.router with
  | .pkg p => (s.pkg p).expected l.port.val
  | .meridian r pl => (s.router l.router).merExpected s.fleet.chart pl.val (s.rack r).rackNumber l.port.val
/-- The identity that a port's own end sends. -/
def State.ownIdentity (s : State) (l : LinkId) : Word :=
  match l.router with
  | .pkg p => identityOf (s.pkg p).addr l.port.val
  | .meridian r pl => identityOf (merAddr (s.rack r).rackNumber pl.val) l.port.val
/-- A command on a link proceeds, changes nothing but the unit of that router, and leaves its port so. -/
def PortAfter (c : Instr) (s : State) (l : LinkId) (f : PortSt → State → Prop) : Prop :=
  ∃ t, exec c s = .next t ∧ f (t.port l) t ∧
    match l.router with
    | .pkg p => ∃ (m : Mem) (k : Pkg), t = { s with mem := m }.setPkg p k
    | .meridian _ _ => ∃ x : RouterSt, t = s.setRouter l.router x

/-- The caps that the helm last sent are those that its log and the rack now give (R228, R231). -/
def State.capsFollow (s : State) (rack : Fin 32) : Prop :=
  ∀ a, s.helm rack = some a → (s.rack rack).caps = (s.rack rack).caps2 (s.rackTime rack) (s.alm a).log
/-- An operator's request at a rack that no helm can answer (R302, R316), or that its helm can. -/
def State.noHelm (s : State) (rack : Fin 32) : Prop := ∀ h, s.helm rack = some h → s.mayAct h = false
def State.helmActs (s : State) (rack : Fin 32) (h : AlmId) : Prop := s.helm rack = some h ∧ s.mayAct h = true

end Sys2Proof.Machine
end

