-- ==== Sys2Proof/Certificates/Slice0/Obligations.lean ====
section
/-! DEFINITION. The statements for the provers: what the commands do, family by family, and the rules of the whole machine. A clause
`exec c s = .next t` says that the command completes and gives all of the state it leaves: where t is `s.setPkg p k`, nothing but the
package `p` changes. -/

open Sys2Proof Sys2Proof.Machine

/-! ### The machine as a whole -/

/-- The block's step: the command at the front of the queue runs with the queue's rest. -/
def Obligations.StepRunsFront : Prop :=
  ∀ (s : State) (c : Instr) (rest : List Instr), s.pending = c :: rest → step s = exec c { s with pending := rest }

/-- On an empty queue one always-on cycle of 40 ns passes (the model's choice, log 2), and the units that act on their own act; in a machine with
none of them, nothing else happens.
No command touches the queue or the clock: time passes only on an empty queue (log 2). -/
def Obligations.QueueAndClock : Prop :=
  (∀ s : State, s.pending = [] → ∃ t, step s = .next t ∧ t.now = s.now + 40 ∧ t.pending = [] ∧
     (s.pkgs = [] → s.trays = [] → s.almanacs = [] → s.fleet.members = [] → s.fleet.turnT0 = none → s.fleet.lostAt = none →
       t = { s with now := s.now + 40 })) ∧
  (∀ (c : Instr) (s t : State), exec c s = .next t → t.pending = s.pending ∧ t.now = s.now)

/-- Every step keeps all storage in canonical form, so that equal machines are equal data. -/
def Obligations.StepKeepsCanonical : Prop :=
  ∀ s t : State, s.canonical → step s = .next t → t.canonical

/-- After reset nothing is stored, every register of every package reads its reset value, and both incarnation numbers are zero (R59). -/
def Obligations.ResetState : Prop :=
  State.reset.canonical ∧ State.reset.pending = [] ∧
  (∀ (p : PkgId) (off : Nat), (State.reset.pkg p).rg off = resetWord off) ∧
  (∀ p : PkgId, (State.reset.pkg p).ret.pkgInc = 0 ∧ ∀ c : Nat, (State.reset.pkg p).coreInc c = 0) ∧
  resetWord R.AON_PKG_ADDR = 0xFFFF ∧ resetWord R.AON_PREWAKE_CTRL = 0x000A00FF ∧ resetWord (R.FAB_LINK_CFG 0) ≠ 0 ∧
  (∀ p : PkgId, (State.reset.pkg p).pkc.run = .reset ∧ (State.reset.pkg p).mem = {} ∧ (State.reset.pkg p).flt.log = [])

/-! ### The management space -/

/-- R13, R14, R392: a write that is neither ignored nor rejected, of a register without an action, gives its RW bits the written values, clears its
W1C bits where it writes 1, and leaves every other bit and every other register; the access completes.
R392: a write with a rejected field is refused for all RW and WO fields; its W1C fields still act; the rejection status of the
register ends set, even where the write writes 1 to it; nothing else changes. -/
def Obligations.RegisterWrites : Prop :=
  (∀ (s : State) (p : PkgId) (who : Requester) (off : BitVec 25) (w : Word) (d : RegDesc),
     Open s p who off.toNat → findReg off.toNat = some d → off.toNat < 2 ^ 24 → off.toNat % 4 = 0 → d.base ∉ actingRegs → d.rw &&& d.w1c = 0 →
     (s.pkg p).ignores ⟨s.now, p, who, false, s.upIn p.rack, Config.freeWord s.free⟩ d off.toNat w.toNat = false →
     (s.pkg p).rejects d.base w.toNat = false →
     ∃ k : Pkg, exec (.registerWrite p who off 4 w) s = .next (s.wrote p who off.toNat s.mem k) ∧ OnlyRegs (s.pkg p) k ∧
       (∀ o, o ≠ off.toNat → k.rg o = (s.pkg p).rg o) ∧ sameBits d.rw (k.rg off.toNat) w ∧
       sameBits d.w1c (k.rg off.toNat) ((s.pkg p).rg off.toNat &&& ~~~ w) ∧
       k.rg off.toNat &&& ~~~ BitVec.ofNat 32 (d.rw ||| d.w1c) = (s.pkg p).rg off.toNat &&& ~~~ BitVec.ofNat 32 (d.rw ||| d.w1c)) ∧
  (∀ (s : State) (p : PkgId) (who : Requester) (off : BitVec 25) (w : Word) (d : RegDesc),
     Open s p who off.toNat → findReg off.toNat = some d → off.toNat < 2 ^ 24 → off.toNat % 4 = 0 →
     (s.pkg p).ignores ⟨s.now, p, who, false, s.upIn p.rack, Config.freeWord s.free⟩ d off.toNat w.toNat = false →
     (s.pkg p).rejects d.base w.toNat = true →
     ∃ k : Pkg, exec (.registerWrite p who off 4 w) s = .next (s.wrote p who off.toNat s.mem k) ∧
       OnlyRegs (s.pkg p) k ∧
       (∀ o, o ≠ off.toNat → (∀ f, rejectFlag d.base = some f → o ≠ f.off) → k.rg o = (s.pkg p).rg o) ∧
       k.rg off.toNat &&& BitVec.ofNat 32 d.rw = (s.pkg p).rg off.toNat &&& BitVec.ofNat 32 d.rw ∧
       ((∀ f, rejectFlag d.base = some f → f.off ≠ off.toNat) →
         k.rg off.toNat = (s.pkg p).rg off.toNat &&& ~~~ (w &&& BitVec.ofNat 32 d.w1c)) ∧
       (∀ f, rejectFlag d.base = some f → k.get f = 1))

/-- R18, R62: an access that is narrower than 32 bits, misaligned, or to no described register completes with an error response and has no
effect.
R79: accesses that waited for their block's domains are served in order once they are up; with none waiting nothing happens. A host
write that finds its block off waits, and the block is woken. -/
def Obligations.RefusedAndDeferredAccess : Prop :=
  (∀ (s : State) (p : PkgId) (who : Requester) (off : BitVec 25) (size : Nat) (w : Word), s.reaches p who = true →
     (size ≠ 4 ∨ off.toNat % 4 ≠ 0 ∨ findReg (off.toNat % 2 ^ 24) = none) →
     let t := { s with free := s.free + 1 }.setPkg p ((s.pkg p).emit (.busError who off.toNat))
     exec (.registerWrite p who off size w) s = .next t ∧ exec (.readClear p who off size) s = .next t ∧
       exec (.lowWordRead p who off size) s = .next t) ∧
  (∀ (s : State) (p : PkgId),
     ((s.pkg p).aon.deferred = [] → exec (.deferredAccessComplete p) s =
       .next (s.setPkg p { s.pkg p with aon := { (s.pkg p).aon with deferred := [] } })) ∧
     (∀ who t, s.reaches p who = true → (s.pkg p).get F.UPD_STATUS_PAUSED = 0 → (s.pkg p).domainOn (388 + t.val) = false →
         holdOff (s.pkg p).localImg (s.pkg p).idx (192 + t.val) = false →
       ∃ j : Pkg, exec (.brgAbort p who t) s = .next (s.setPkg p j) ∧ j.aon.deferred = (s.pkg p).aon.deferred ++ [.brgAbort p who t] ∧
         j.domainOn (388 + t.val) = true ∧ j.domainOn (384 + t.val) = true ∧ bit (j.get F.AON_WAKE_CAUSE_CAUSE) 7 = true) ∧
     (∀ who t, s.reaches p who = true → (s.pkg p).get F.UPD_STATUS_PAUSED = 0 → (s.pkg p).aon.deferred = [.brgAbort p who t] →
       exec (.deferredAccessComplete p) s =
         .next (s.setPkg p { s.pkg p with aon := { (s.pkg p).aon with deferred := [] } }|>.busPerform p (writeOp who (R.BRG_CTRL t.val) 1) false).2))

/-- R13, R17: a normal read of an RC register returns it and then clears its RC bits; a read of the alias at +0x0100_0000 returns the same
value and changes nothing.
R16, R67: a read of AON_TIME_LO returns fleet time's low word and latches its high word for the requester; a read of AON_TIME_HI returns
what that requester latched last, and zero where it latched nothing. -/
def Obligations.ReadSideEffects : Prop :=
  (∀ (s : State) (p : PkgId) (who : Requester) (off : BitVec 25) (d : RegDesc),
     let o := off.toNat % 2 ^ 24
     let v := BitVec.ofNat 32 ((s.pkg p).view ⟨s.now, p, who, false, s.upIn p.rack, Config.freeWord s.free⟩ d o)
     Open s p who o → findReg o = some d → o % 4 = 0 → d.words ≤ 1 → d.base ≠ R.FAB_PORT_ERRS 0 0 → d.base ≠ R.FAB_PORT_LEVEL 0 0 →
     (off.toNat < 2 ^ 24 → ∃ k : Pkg,
       exec (.readClear p who off 4) s = .next ({ s with free := s.free + 1 }.setPkg p (k.emit (.busData who off.toNat v))) ∧
       OnlyRegs (s.pkg p) k ∧ (∀ i, i ≠ o → k.rg i = (s.pkg p).rg i) ∧
       k.rg o = (s.pkg p).rg o &&& ~~~ (BitVec.ofNat 32 d.rc)) ∧
     (2 ^ 24 ≤ off.toNat →
       exec (.readClear p who off 4) s = .next ({ s with free := s.free + 1 }.setPkg p ((s.pkg p).emit (.busData who off.toNat v))))) ∧
  (∀ (s : State) (p : PkgId) (who : Requester), Open s p who R.AON_TIME_LO → Open s p who R.AON_TIME_HI →
     (exec (.lowWordRead p who (BitVec.ofNat 25 R.AON_TIME_LO) 4) s = .next ({ s with free := s.free + 1 }.setPkg p
       ({ s.pkg p with latch := sset 0 (s.pkg p).latch (latchKey who R.AON_TIME_HI) (BitVec.ofNat 32 ((s.pkg p).time s.now / 2 ^ 32)) }.emit
         (.busData who R.AON_TIME_LO (BitVec.ofNat 32 ((s.pkg p).time s.now % 2 ^ 32)))))) ∧
     (exec (.lowWordRead p who (BitVec.ofNat 25 R.AON_TIME_HI) 4) s = .next ({ s with free := s.free + 1 }.setPkg p
       ((s.pkg p).emit (.busData who R.AON_TIME_HI (sget 0 (s.pkg p).latch (latchKey who R.AON_TIME_HI)))))))

/-! ### Segments and lending -/

/-- PLACE on an idle entry: STATUS reads BUSY, CEILING and FLOOR take the written values, no storage is held yet, and the outcome is that of
R44, judged in its order: past the address space NO_ROOM, then OVERLAP, then the tiers. With one local tier allowed, storage is taken there
where it has free contiguous pages, and else there is no room.
A write that sets both PLACE and RELEASE is ignored in full, a PLACE of a valid or BUSY entry changes nothing, and RELEASE is ignored
while STATUS = BUSY. -/
def Obligations.PlaceWrites : Prop :=
  (∀ (s : State) (p : PkgId) (who : Requester) (c : Core) (n : Fin 64) (w : Word),
     Open s p who (R.CORE_SEG_CTRL c.val n.val) → (s.pkg p).segValid c.val n.val = false → (s.pkg p).segStatus c.val n.val ≠ 1 →
     bit w.toNat 2 = false →
     let j := s.pkg p
     let base := (j.rg (R.CORE_SEG_BASE c.val n.val)).toNat
     let pages := j.get (F.CORE_SEG_LEN_PAGES c.val n.val)
     let ceiling := bits w.toNat 4 3
     let floor := bits w.toNat 8 3
     ∃ k : Pkg, exec (.place p who c n w) s = .next (s.wrote p who (R.CORE_SEG_CTRL c.val n.val) s.mem k) ∧
       k.segStatus c.val n.val = 1 ∧ k.segValid c.val n.val = false ∧ k.mem.segs = j.mem.segs ∧
       k.get (F.CORE_SEG_CTRL_CEILING c.val n.val) = ceiling ∧ k.get (F.CORE_SEG_CTRL_FLOOR c.val n.val) = floor ∧
       (∀ o, o ≠ R.CORE_SEG_CTRL c.val n.val → ¬ isDiscardB o → k.rg o = j.rg o) ∧
       (2 ^ 32 < base + pages → k.mem.placing = j.mem.placing ++ [⟨c.val, n.val, s.now, none, 3, none⟩]) ∧
       (base + pages ≤ 2 ^ 32 → pages ≠ 0 → j.overlaps c.val n.val = true →
         k.mem.placing = j.mem.placing ++ [⟨c.val, n.val, s.now, none, 4, none⟩]) ∧
       (base + pages ≤ 2 ^ 32 → (pages = 0 ∨ j.overlaps c.val n.val = false) → (pages = 0 ∨ 5 < floor ∨ 5 < ceiling ∨ floor < ceiling) →
         k.mem.placing = j.mem.placing ++ [⟨c.val, n.val, s.now, none, 3, none⟩]) ∧
       (base + pages ≤ 2 ^ 32 → j.overlaps c.val n.val = false → pages ≠ 0 → floor = ceiling → ceiling ≤ 1 →
         k.mem.placing = j.mem.placing ++ [match pickFit (j.used c.val ceiling) (j.tierPages ceiling) pages with
           | some g => ⟨c.val, n.val, s.now, none, 2, some ⟨ceiling, 4096 * g, pages, 0⟩⟩
           | none => ⟨c.val, n.val, s.now, none, 3, none⟩])) ∧
  (∀ (s : State) (p : PkgId) (who : Requester) (c : Core) (n : Fin 64) (w : Word), Open s p who (R.CORE_SEG_CTRL c.val n.val) →
     let same : Host.Outcome State Fault Refusal := .next (s.wrote p who (R.CORE_SEG_CTRL c.val n.val) s.mem (s.pkg p))
     (bit w.toNat 2 = true → exec (.place p who c n w) s = same) ∧
     (bit w.toNat 1 = true → exec (.segmentRelease p who c n w) s = same) ∧
     (bit w.toNat 2 = false → ((s.pkg p).segValid c.val n.val = true ∨ (s.pkg p).segStatus c.val n.val = 1) →
       exec (.place p who c n w) s = same) ∧
     ((s.pkg p).segStatus c.val n.val = 1 → exec (.segmentRelease p who c n w) s = same))

/-- PLACEMENT_END shows an outcome that is known: STATUS, and for storage VALID and PLACED_TIER; the contents of newly placed local storage
are no longer known (R48). Before 50 µs a placement that waits on its lender changes nothing (the model's choice, log 20). RELEASE frees
the storage and leaves STATUS IDLE; for a segment that was lent, LEND_FREE goes to its lender (R46). -/
def Obligations.PlacementEndsAndRelease : Prop :=
  (∀ (s : State) (p : PkgId) (c : Core) (n : Fin 64) (x : Placing),
    (s.pkg p).mem.placing.find? (fun y => y.core = c.val && y.entry = n.val) = some x → x.waitTag = none → (s.pkg p).Quiet →
    x.outcome < 16 → (∀ st, x.store = some st → st.tier < 8) →
    ∃ k : Pkg, exec (.placementEnd p c n) s = .next ({ s with mem := match x.store with
        | some st => eraseStorage p c.val (s.pkg p).spillBase st s.mem
        | none => s.mem }.setPkg p k) ∧
      k.segStatus c.val n.val = x.outcome ∧ k.out = (s.pkg p).out ∧
      (∀ st, x.store = some st → k.segValid c.val n.val = true ∧ k.get (F.CORE_SEG_CTRL_PLACED_TIER c.val n.val) = st.tier ∧
        (x.outcome ≠ 6 → sfind k.mem.segs (segKey c.val n.val) = some st)) ∧
      (x.store = none → k.segValid c.val n.val = (s.pkg p).segValid c.val n.val ∧ k.mem.segs = (s.pkg p).mem.segs) ∧
      (∀ o, o ≠ R.CORE_SEG_CTRL c.val n.val → k.rg o = (s.pkg p).rg o)) ∧
  (∀ (p : PkgId) (c spill : Nat) (st : Storage) (m : Mem) (i : Nat), st.tier ≠ 3 → st.tier ≠ 4 →
    let e := tierSpace c st.tier (st.off + if st.tier = 5 then spill else 0)
    sfind (eraseStorage p c spill st m) i =
      if memKey p e.1 e.2 ≤ i ∧ i < memKey p e.1 e.2 + 4096 * st.pages then none else sfind m i) ∧
  (∀ (s : State) (p : PkgId) (c : Core) (n : Fin 64) (x : Placing),
    (s.pkg p).mem.placing.find? (fun y => y.core = c.val && y.entry = n.val) = some x → x.waitTag ≠ none → s.now < x.at_ + 50000 →
    exec (.placementEnd p c n) s = .next (s.setPkg p (s.pkg p))) ∧
  (∀ (s : State) (p : PkgId) (who : Requester) (c : Core) (n : Fin 64) (w : Word), Open s p who (R.CORE_SEG_CTRL c.val n.val) →
    (s.pkg p).segStatus c.val n.val ≠ 1 → bit w.toNat 1 = false →
    let j := s.pkg p
    let held := (sfind j.mem.segs (segKey c.val n.val)).or (sfind j.mem.lostLent (segKey c.val n.val))
    ∃ k : Pkg, exec (.segmentRelease p who c n w) s = .next (s.wrote p who (R.CORE_SEG_CTRL c.val n.val) s.mem k) ∧
      k.segStatus c.val n.val = 0 ∧ k.segValid c.val n.val = false ∧ k.mem.segs = serase j.mem.segs (segKey c.val n.val) ∧
      k.mem.lostLent = serase j.mem.lostLent (segKey c.val n.val) ∧ k.mem.grants = j.mem.grants ∧
      (∀ o, o ≠ R.CORE_SEG_CTRL c.val n.val → ¬ isDiscardB o → k.rg o = j.rg o) ∧
      (∀ st, held = some st → (st.tier = 3 ∨ st.tier = 4) → j.Sends s.now 0x2B st.lender.toNat (leBytes 8 st.off ++ leBytes 4 st.pages) k) ∧
      ((∀ st, held = some st → st.tier ≠ 3 ∧ st.tier ≠ 4) → k.fab = j.fab ∧ ∀ o, isDiscardB o → k.rg o = j.rg o))

/-- LEND_ASK grants contiguous pages of local HBM inside the lend pool, whose contents are no longer known, and answers GRANTED with their
BASE, or answers that it lacks the space. LEND_GRANT records the storage, or the placement goes on past the tier that asked and ends NO_ROOM
where no tier is left. LEND_FREE ends the grant it names (R46).
The lender executes a request with PKG = 1 against its local HBM only where the whole access lies within a grant it holds for the
package in SRC; it answers any other with a poisoned ACCESS_ERROR (R46), and one to HBM of a dark C-tile with UNIT_RESET (R56). A READ returns the
bytes at BASE + offset; a WRITE stores its payload there and nothing else. -/
def Obligations.LendingAndStorage : Prop :=
  ((∀ (s : State) (p : PkgId) (src : BitVec 16) (sgen : Byte) (pages : Word) (core tag : BitVec 16),
     let k := ((s.pkg p).fromSink 0x2A src.toNat).newerSgen src.toNat sgen
     let pool := gibPages * k.get F.PKC_LEND_POOL_POOL_GIB
     let fit := pickFit (k.used core.toNat 2) (if k.shadowSave then min (k.tierPages 2) belowSave else k.tierPages 2) pages.toNat
     (∀ b, k.lentPages + pages.toNat ≤ pool → fit = some b →
       ∃ j : Pkg, exec (.lendAsk p src sgen pages core tag) s =
           .next ({ s with mem := memErase s.mem (memKey p 0 (4096 * b)) (4096 * pages.toNat) }.setPkg p j) ∧
         j.mem.grants = k.mem.grants ++ [⟨4096 * b, pages.toNat, src, sgen⟩] ∧ j.mem.segs = (s.pkg p).mem.segs ∧
         k.Sends s.now 0x2C src.toNat (leBytes 2 tag.toNat ++ [1, 0, 0, 0, 0, 0] ++ leBytes 8 (4096 * b)) j) ∧
     (pool < k.lentPages + pages.toNat ∨ fit = none →
       ∃ j : Pkg, exec (.lendAsk p src sgen pages core tag) s = .next (s.setPkg p j) ∧ j.mem.grants = k.mem.grants ∧
         j.mem.segs = (s.pkg p).mem.segs ∧ k.Sends s.now 0x2C src.toNat (leBytes 2 tag.toNat ++ [0, 0, 0, 0, 0, 0] ++ leBytes 8 0) j)) ∧
   (∀ (s : State) (p : PkgId) (tag : BitVec 16) (base : BitVec 64) (x : Placing),
     (s.pkg p).mem.placing = [x] → x.waitTag = some tag →
     (∃ j : Pkg, exec (.lendGrant p tag true base) s = .next (s.setPkg p j) ∧
       j.mem.placing = [{ x with waitTag := none, outcome := 2, store := some ⟨x.outcome, base.toNat,
         (s.pkg p).get (F.CORE_SEG_LEN_PAGES x.core x.entry), BitVec.ofNat 16 ((s.pkg p).get (F.CORE_SEG_LENDER_LENDER x.core x.entry))⟩ }] ∧
       j.regs = (s.pkg p).regs) ∧
     ((s.pkg p).get (F.CORE_SEG_CTRL_FLOOR x.core x.entry) ≤ x.outcome →
       ∃ j : Pkg, exec (.lendGrant p tag false base) s = .next (s.setPkg p j) ∧
         j.mem.placing = [⟨x.core, x.entry, x.at_, none, 3, none⟩] ∧ j.regs = (s.pkg p).regs)) ∧
   (∀ (s : State) (p : PkgId) (src : BitVec 16) (base : BitVec 64) (pages : Word),
     ∃ j : Pkg, exec (.lendFree p src base pages) s = .next (s.setPkg p j) ∧ j.regs = (s.pkg p).regs ∧
       j.mem.segs = (s.pkg p).mem.segs ∧
       ∀ g, g ∈ j.mem.grants ↔ g ∈ (s.pkg p).mem.grants ∧ ¬ (g.borrower = src ∧ g.base = base.toNat ∧ g.pages = pages.toNat))) ∧
  (∀ (s : State) (p : PkgId) (pk : Packet),
     let k := (s.pkg p).newerSgen (epPkg pk.src) pk.sgen
     let a := bits pk.addr.toNat 0 44
     let len := opLength pk.opcode pk.want pk.payload
     let inside := k.mem.grants.any (fun g => g.borrower.toNat = epPkg pk.src && g.base ≤ a && a + len ≤ g.base + 4096 * g.pages)
     (inside = false → expectsResponse pk.opcode = true →
       exec (.lentStorageAccess p pk) s = .next (s.setPkg p (k.answer s.now pk stAccessError true []))) ∧
     (inside = true → pk.opcode ≠ opClasp → expectsResponse pk.opcode = true → k.tierDark 0 2 a len = true →
       exec (.lentStorageAccess p pk) s = .next (s.setPkg p (k.answer s.now pk stUnitReset true []))) ∧
     (inside = true → pk.opcode = opRead → k.tierDark 0 2 a len = false → k.spaceIsolated 0 a len = false →
       (linesOf (memKey p 0 a) pk.want).any k.mem.poison.contains = false →
       exec (.lentStorageAccess p pk) s = .next (s.setPkg p (k.answer s.now pk stOK false (memRead s.mem (memKey p 0 a) pk.want)))) ∧
     (inside = true → pk.opcode = opWrite → k.tierDark 0 2 a len = false → k.spaceIsolated 0 a len = false →
       ∃ j : Pkg, exec (.lentStorageAccess p pk) s = .next ({ s with mem := memWrite s.mem (memKey p 0 a) pk.payload }.setPkg p j) ∧
         j.regs = k.regs ∧ j.out = k.out ++ [.packet (k.response s.now pk stOK false [])] ∧
         ∀ b, (b < memKey p 0 a ∨ memKey p 0 a + pk.payload.length ≤ b) →
           memByte (memWrite s.mem (memKey p 0 a) pk.payload) b = memByte s.mem b))

/-- A core's access (R43, R46, R48, R50): it waits on a BUSY segment, completes with UNIT_RESET where its storage is lost or dark and with an error
where no segment leads, goes to its lender as a request with PKG = 1, and else reads or stores local storage; a write changes the bytes it
stores and no other. A core in Idle is then in Run (Table 3.3). -/
def Obligations.CoreAccess : Prop :=
  ∀ (s : State) (p : PkgId) (c : Core) (a : Access), (s.pkg p).coreDark c.val = false →
    let k := (s.pkg p).issues c.val
    (k.locate c.val a.addr.toNat a.len = .busy → exec (.coreAccess p c a) s =
      .next (s.setPkg p { k with mem := { k.mem with accesses := k.mem.accesses ++ [(c.val, a)] } })) ∧
    (k.locate c.val a.addr.toNat a.len = .lost → exec (.coreAccess p c a) s = .next (s.setPkg p (k.emit (.completion c.val 0 stUnitReset [])))) ∧
    (k.locate c.val a.addr.toNat a.len = .none → exec (.coreAccess p c a) s =
      .next (s.setPkg p ((k.raise s.now (det c.val 2) 0 0).emit (.completion c.val 0 stAccessError [])))) ∧
    (∀ tier off lender, k.locate c.val a.addr.toNat a.len = .place tier off lender → (tier = 3 ∨ tier = 4) →
      let pk := k.stamped c.val { k.newPacket s.now (if a.write then opWrite else opRead) 0 (BitVec.ofNat 24 (lender.toNat * 256))
        (endpoint k.addr c.val) a.data with
          pkg := true, incarnation := k.coreInc c.val, want := a.len, addr := BitVec.ofNat 64 (off % 2 ^ 44) }
      (k.barred c.val pk = none → exec (.coreAccess p c a) s = .next (s.setPkg p (k.enqueue (flowKey lender.toNat 0 0) c.val pk))) ∧
      (∀ st, k.barred c.val pk = some st → exec (.coreAccess p c a) s = .next (s.setPkg p (k.emit (.completion c.val 0 st []))))) ∧
    (∀ tier off l, k.locate c.val a.addr.toNat a.len = .place tier off l → tier ≠ 3 → tier ≠ 4 → k.tierDark c.val tier off a.len = true →
      exec (.coreAccess p c a) s = .next (s.setPkg p (k.emit (.completion c.val 0 stUnitReset [])))) ∧
    (∀ tier off l, k.locate c.val a.addr.toNat a.len = .place tier off l → tier ≠ 3 → tier ≠ 4 → k.tierDark c.val tier off a.len = false →
      let sp := (tierSpace c.val tier off).1
      let o := (tierSpace c.val tier off).2
      k.spaceIsolated sp o a.len = false → a.data.length = (if a.write then a.len else 0) →
      (a.write = false → (linesOf (memKey p sp o) a.len).any k.mem.poison.contains = false →
        exec (.coreAccess p c a) s = .next (s.setPkg p (k.emit (.completion c.val 0 stOK (memRead s.mem (memKey p sp o) a.len))))) ∧
      (a.write = true → (sp = 2 → k.claspBars (some c.val) (o / 2 ^ 21) (o % 2 ^ 21) a.len = none) → ∃ j : Pkg,
        exec (.coreAccess p c a) s = .next ({ s with mem := memWrite s.mem (memKey p sp o) a.data }.setPkg p j) ∧
        j.regs = k.regs ∧ j.out = k.out ++ [.completion c.val 0 stOK []] ∧
        ∀ b, (b < memKey p sp o ∨ memKey p sp o + a.len ≤ b) → memByte (memWrite s.mem (memKey p sp o) a.data) b = memByte s.mem b))

/-! ### Clasps -/

/-- R51, R52, R55, R362: what an acquire returns. NOT_LOCAL to another package's core; UNIT_RESET where the store's core is dark; an open status to a
core that holds four clasps or waits for one; NO_SLOT where the store has sixteen; GRANTED for a free line; DBG_HELD while its holder is halted;
and else TIMEOUT for no wait, or a place at the end of the line's queue.
R52–R54: a release passes the line to its first waiter with GRANTED or frees it; a wait that has passed, in cycles of the waiter's C-tile, returns
TIMEOUT; a clasp held 65,536 cycles of its holder's C-tile, its timer running, is broken, its first waiter is granted with GRANTED_AFTER_BREAK
and the fault hub records the CE event of detector 16 × core + 3; and the former holder's release returns CLASP_BROKEN. -/
def Obligations.Clasps : Prop :=
  (∀ (s : State) (p src : PkgId) (c store : Core) (line : Fin 24576) (wait : Fin 1048577),
     let k := (s.pkg p).issues c.val
     let answer (st : Byte) : Host.Outcome State Fault Refusal := .next (s.setPkg p (k.emit (.claspStatus c.val st)))
     let held := (k.mem.clasps.filter (fun x => x.holder = c.val)).length
     let waits := k.mem.clasps.any (fun x => x.waiters.any (fun w => w.core = c.val))
     let inStore := (k.mem.clasps.filter (fun x => x.store = store.val)).length
     (src ≠ p → exec (.claspAcquire p src c store line wait) s =
       .next (s.setPkg p ((s.pkg p).emit (.claspStatus c.val stNotLocal)))) ∧
     (src = p → (s.pkg p).coreDark c.val = false → k.coreDark store.val = true → exec (.claspAcquire p src c store line wait) s = answer stUnitReset) ∧
     (src = p → (s.pkg p).coreDark c.val = false → k.coreDark store.val = false →
       (4 ≤ held ∨ waits = true → exec (.claspAcquire p src c store line wait) s = answer (Config.openStatus 1)) ∧
       (held < 4 → waits = false →
         (16 ≤ inStore → exec (.claspAcquire p src c store line wait) s = answer stNoSlot) ∧
         (inStore < 16 → k.mem.clasps.find? (fun x => x.at store.val line.val) = none →
           exec (.claspAcquire p src c store line wait) s = .next (s.setPkg p
             ((k.setClasps (· ++ [⟨store.val, line.val, c.val, [], s.now, false⟩])).emit (.claspStatus c.val stGranted)))) ∧
         (∀ x, inStore < 16 → k.mem.clasps.find? (fun x => x.at store.val line.val) = some x → k.coreHalted x.holder = true →
           exec (.claspAcquire p src c store line wait) s = answer stDbgHeld) ∧
         (∀ x, inStore < 16 → k.mem.clasps.find? (fun x => x.at store.val line.val) = some x → k.coreHalted x.holder = false →
           (wait.val = 0 → exec (.claspAcquire p src c store line wait) s = answer stTimeout) ∧
           (wait.val ≠ 0 → exec (.claspAcquire p src c store line wait) s = .next (s.setPkg p (k.setClasps (List.map (fun y =>
             if y.at store.val line.val then { y with waiters := y.waiters ++ [⟨c.val, wait.val, s.now, none⟩] } else y))))))))) ∧
  (∀ (s : State) (p : PkgId) (c store : Core) (line : Fin 24576),
     let j := s.pkg p
     let k := j.issues c.val
     let next (now : Nat) (st : Byte) (x : Clasp) (k : Pkg) : Pkg := match x.waiters with
       | [] => k.setClasps (List.filter (fun y => !y.at x.store x.line))
       | w :: rest => (k.setClasps (List.map (fun y => if y.at x.store x.line then
           { y with holder := w.core, waiters := rest, since := if k.coreHalted w.core then 0 else now, paused := k.coreHalted w.core } else y))).claspTell
             now w.core w.rq st
     let due (w : Waiter) : Bool := w.core = c.val && decide (w.since + cyclesNs (j.coreMhz c.val) w.wait ≤ s.now)
     (∀ x, k.mem.broken.contains (c.val, store.val, line.val) = false → k.mem.silent.contains (c.val, store.val, line.val) = false →
       k.mem.clasps.find? (fun x => x.at store.val line.val && x.holder = c.val) = some x → sfind k.dbg.defers c.val = none →
       exec (.claspRelease p c store line) s = .next (s.setPkg p ((next s.now stGranted x k).emit (.claspStatus c.val stOK)))) ∧
     (k.mem.broken.contains (c.val, store.val, line.val) = true → ∃ j : Pkg, exec (.claspRelease p c store line) s =
       .next (s.setPkg p (j.emit (.claspStatus c.val stClaspBroken))) ∧ j.mem.clasps = k.mem.clasps ∧ j.regs = k.regs ∧
         j.mem.broken.contains (c.val, store.val, line.val) = false) ∧
     (∀ w, j.mem.clasps.flatMap (fun x => x.waiters.filter due) = [w] →
       exec (.claspWaitExpiry p c) s = .next (s.setPkg p ((j.claspTell s.now c.val w.rq stTimeout).setClasps
         (List.map (fun x => { x with waiters := x.waiters.filter (fun w => !due w) }))))) ∧
     (∀ x, j.mem.clasps.find? (fun x => x.at store.val line.val) = some x →
       (x.paused = true ∨ s.now < x.since + cyclesNs (j.coreMhz x.holder) 65536) → exec (.claspHoldExpiry p store line) s = .next (s.setPkg p j)) ∧
     (∀ x, j.mem.clasps.find? (fun x => x.at store.val line.val) = some x → x.paused = false →
       x.since + cyclesNs (j.coreMhz x.holder) 65536 ≤ s.now →
       exec (.claspHoldExpiry p store line) s = .next (s.setPkg p
         ((next s.now stGrantedAfterBreak x { j with mem := { j.mem with broken := j.mem.broken ++ [(x.holder, x.store, x.line)] } }).raise s.now
           (det x.holder 3) 0 0))))

/-! ### The always-on domain -/

/-- R64, R65: the loss of the source in use switches to the other one while that is present, a switch counts in SWITCHES and is reported as
a CE event; with both lost HOLDOVER is set and reported; a source that returns in HOLDOVER ends it and is used, and a preferred source
that returns is switched to; FORCE switches to the other source if it is present.
R67–R70: the first TIME_STROBE loads the time and sets LOADED; a later one takes the coarse offset and leaves the time; the time
loaded is also what the rack's tray controllers hold (R66, log 63). An exchange steps nothing and sets a slew of at most 100 ns in all, that
of the mean difference and a 64th of the coarse offset; 100 exchanges in a row within 20 ns set REFINED; a moored package runs none. -/
def Obligations.ClocksAndTime : Prop :=
  (∀ (s : State) (p : PkgId) (b : Bool),
     let k := s.pkg p
     ((k.holdover = true ∨ k.srcActive ≠ b) → exec (.clockSourceLost p b) s = .next (s.setPkg p (k.setSrc b false))) ∧
     (k.holdover = false → k.srcActive = b → k.srcOk (!b) = true →
       ∃ j : Pkg, exec (.clockSourceLost p b) s = .next (s.setPkg p (j.raise s.now (det 254 0) 0 0)) ∧ OnlyRegs k j ∧
         j.srcActive = !b ∧ j.srcOk b = false ∧ j.srcOk (!b) = true ∧ j.holdover = false ∧
         j.get F.AON_CLK_STATUS_SWITCHES = min 255 (k.get F.AON_CLK_STATUS_SWITCHES + 1) ∧
         ∀ o, o ≠ R.AON_CLK_STATUS → j.rg o = k.rg o) ∧
     (k.holdover = false → k.srcActive = b → k.srcOk (!b) = false →
       ∃ j : Pkg, exec (.clockSourceLost p b) s = .next (s.setPkg p (j.raise s.now (det 255 0) 0 0)) ∧ OnlyRegs k j ∧
         j.holdover = true ∧ j.srcOk b = false ∧ j.get F.AON_CLK_STATUS_SWITCHES = k.get F.AON_CLK_STATUS_SWITCHES ∧
         ∀ o, o ≠ R.AON_CLK_STATUS → j.rg o = k.rg o) ∧
     (k.holdover = true →
       ∃ j : Pkg, exec (.sourceReturn p b) s = .next (s.setPkg p (j.conditionEnd s.now)) ∧ OnlyRegs k j ∧ j.holdover = false ∧
         j.srcActive = b ∧ j.srcOk b = true ∧ ∀ o, o ≠ R.AON_CLK_STATUS → j.rg o = k.rg o) ∧
     (k.holdover = false → k.srcActive = b → (decide (k.get F.AON_CLK_CTRL_PREFER = 1) = b ∨ k.srcOk (!b) = false) →
       exec (.sourceReturn p b) s = .next (s.setPkg p (k.setSrc b true))) ∧
     (k.holdover = false → k.srcActive ≠ b → decide (k.get F.AON_CLK_CTRL_PREFER = 1) = b →
       ∃ j : Pkg, exec (.sourceReturn p b) s = .next (s.setPkg p (j.raise s.now (det 254 0) 0 0)) ∧ OnlyRegs k j ∧
         j.srcActive = b ∧ j.srcOk b = true ∧ j.get F.AON_CLK_STATUS_SWITCHES = min 255 (k.get F.AON_CLK_STATUS_SWITCHES + 1)) ∧
     (∀ who w, Open s p who R.AON_CLK_CTRL → k.holdover = false → k.srcOk (!k.srcActive) = true →
       ∃ j : Pkg, exec (.force p who w) s = .next (s.wrote p who R.AON_CLK_CTRL s.mem (j.raise s.now (det 254 0) 0 0)) ∧ OnlyRegs k j ∧
         j.srcActive = !k.srcActive ∧ j.get F.AON_CLK_CTRL_PREFER = bits w.toNat 0 1 ∧
         j.get F.AON_CLK_STATUS_SWITCHES = min 255 (k.get F.AON_CLK_STATUS_SWITCHES + 1) ∧
         ∀ o, o ≠ R.AON_CLK_STATUS → o ≠ R.AON_CLK_CTRL → j.rg o = k.rg o)) ∧
  (∀ (s : State) (p : PkgId),
     let k := s.pkg p
     let held : RackSt := { s.rack p.rack with timeOff := (k.wide R.AON_TIME_LOAD_LO : Int) - s.now }
     (k.loaded = false → ∃ j : Pkg, exec (.timeStrobe p) s = .next ((s.setPkg p j).setRack p.rack held) ∧ j.loaded = true ∧
       j.time s.now = k.wide R.AON_TIME_LOAD_LO % 2 ^ 64 ∧ ∀ o, o ≠ R.AON_TIME_STATUS → j.rg o = k.rg o) ∧
     (k.loaded = true → ∃ j : Pkg, exec (.timeStrobe p) s = .next ((s.setPkg p j).setRack p.rack held) ∧ j.regs = k.regs ∧ (∀ t, j.time t = k.time t) ∧
       j.aon.coarse = (k.wide R.AON_TIME_LOAD_LO : Int) - (k.time s.now : Int)) ∧
     (∀ diffs, k.moored = true → exec (.timeExchange p diffs) s = .next (s.setPkg p k)) ∧
     (∀ diffs, k.moored = false → ∃ j : Pkg, exec (.timeExchange p diffs) s = .next (s.setPkg p j) ∧ j.time s.now = k.time s.now ∧
       -100 ≤ j.aon.slewBy ∧ j.aon.slewBy ≤ 100 ∧ (∀ t, -100 ≤ j.aon.slewed t ∧ j.aon.slewed t ≤ 100) ∧
       (diffs ≠ [] → -100 ≤ meanOf diffs + k.aon.coarse.tdiv 64 → meanOf diffs + k.aon.coarse.tdiv 64 ≤ 100 →
         j.aon.slewBy = meanOf diffs + k.aon.coarse.tdiv 64) ∧
       (diffs ≠ [] → 20 < (meanOf diffs).natAbs → j.aon.goodExchanges = 0) ∧
       (99 ≤ k.aon.goodExchanges → diffs ≠ [] → (meanOf diffs).natAbs ≤ 20 → j.get F.AON_TIME_STATUS_REFINED = 1) ∧
       ∀ o, o ≠ R.AON_TIME_STATUS → j.rg o = k.rg o))

/-! ### Sleeping and waking -/

/-- R72, R73, R55: a core goes from Run to Idle, from Idle to Nap after NAP_AFTER µs and from Nap to Doze after DOZE_AFTER steps of 100 µs, only
as the policy and its own conditions allow; Nap switches off its logic, Doze its store too. With SAVE = 0 its tier-0 segments are LOST; with
SAVE = 1 no segment changes and its store is copied to its save area.
ENTER (R72): Nap and Doze for a core that may sleep, with HOLD_AWAKE clear; with HOLD_AWAKE set by the same write ENTER is ignored; and
a core asked to wake has its wake started, which WAKE_COMPLETE ends in Run with a saved store reloaded (R73). -/
def Obligations.SleepAndWake : Prop :=
  (∀ (s : State) (p : PkgId) (c : Core),
     let k := s.pkg p
     let nap := k.get F.AON_PDOM_POLICY_NAP_AFTER
     let doze := k.get F.AON_PDOM_POLICY_DOZE_AFTER
     (k.coreDark c.val = false → k.pstate c.val = 0 → exec (.idleEntry p c) s = .next (s.setPkg p
       { k.put (F.CORE_PSTATE_STATE c.val) 1 with aon := { k.aon with idleAt := sinsert k.aon.idleAt c.val s.now } })) ∧
     (k.pstate c.val ≠ 0 → exec (.idleEntry p c) s = .next (s.setPkg p k)) ∧
     (k.maySleep c.val = true → k.pstate c.val = 1 → nap ≠ 0 → k.idleFor s.now c.val (1000 * nap) = true → k.phys c.val < 192 →
       ∃ j : Pkg, exec (.napEntry p c) s = .next (s.setPkg p j) ∧
         j = { k with regs := j.regs, aon := { k.aon with idleAt := sinsert k.aon.idleAt c.val s.now } } ∧ j.pstate c.val = 2 ∧
         j.domainOn (k.phys c.val) = false ∧ (∀ d, d < 412 → d ≠ k.phys c.val → j.domainOn d = k.domainOn d)) ∧
     ((k.maySleep c.val = false ∨ k.pstate c.val ≠ 1 ∨ nap = 0 ∨ k.idleFor s.now c.val (1000 * nap) = false) →
       exec (.napEntry p c) s = .next (s.setPkg p k)) ∧
     (k.maySleep c.val = true → k.pstate c.val = 2 → doze ≠ 0 → k.idleFor s.now c.val (100000 * doze) = true → k.dozeBarred c.val = false →
         k.phys c.val < 192 →
       (k.saves = true → ∃ (j : Pkg) (m : Mem), exec (.dozeEntry p c) s = .next ({ s with mem := m }.setPkg p j) ∧ j.pstate c.val = 3 ∧
         j.domainOn (k.phys c.val) = false ∧ j.domainOn (192 + k.phys c.val) = false ∧ j.mem = k.mem ∧ j.ret = k.ret ∧ c.val ∈ j.aon.saved ∧
         (Memory.wf s.mem = true → ∀ o, o < storeBytes → sfind m (memKey p 0 (coreSave c.val + o)) = sfind s.mem (memKey p 2 (storeOff c.val o)))) ∧
       (k.saves = false → ∃ (j : Pkg) (m : Mem), exec (.dozeEntry p c) s = .next ({ s with mem := m }.setPkg p j) ∧ j.pstate c.val = 3 ∧
         (∀ e ∈ k.mem.segs, e.2.tier = 0 → e.1 / 64 = c.val → j.segStatus c.val (e.1 % 64) = 6) ∧
         (∀ e, e ∈ j.mem.segs ↔ e ∈ k.mem.segs ∧ ¬ (e.2.tier = 0 ∧ e.1 / 64 = c.val)))) ∧
     ((k.dozeBarred c.val = true ∨ k.maySleep c.val = false ∨ k.pstate c.val ≠ 2 ∨ doze = 0 ∨ k.idleFor s.now c.val (100000 * doze) = false) →
       exec (.dozeEntry p c) s = .next (s.setPkg p k))) ∧
  (∀ (s : State) (p : PkgId) (who : Requester) (c : Core), Open s p who (R.CORE_PSTATE c.val) →
     (s.pkg p).phys c.val < 192 →
     let k := s.pkg p
     (k.maySleep c.val = true → k.pstate c.val < 2 → ∃ j : Pkg,
       exec (.enterNap p who c false) s = .next (s.wrote p who (R.CORE_PSTATE c.val) s.mem j) ∧ j.pstate c.val = 2 ∧
       j = { k with regs := j.regs, aon := { k.aon with idleAt := sinsert k.aon.idleAt c.val s.now } }) ∧
     (k.maySleep c.val = true → k.pstate c.val < 3 → k.dozeBarred c.val = false → k.saves = true → ∃ (j : Pkg) (m : Mem),
       exec (.enterDoze p who c false) s = .next (s.wrote p who (R.CORE_PSTATE c.val) m j) ∧ j.pstate c.val = 3 ∧ j.mem = k.mem) ∧
     (∃ j : Pkg, exec (.enterNap p who c true) s = .next (s.wrote p who (R.CORE_PSTATE c.val) s.mem j) ∧ OnlyRegs k j ∧
       j.holdAwake c.val = true ∧ j.pstate c.val = k.pstate c.val) ∧
     (∃ j : Pkg, exec (.enterDoze p who c true) s = .next (s.wrote p who (R.CORE_PSTATE c.val) s.mem j) ∧ OnlyRegs k j ∧
       j.holdAwake c.val = true ∧ j.pstate c.val = k.pstate c.val) ∧
     (∀ hold, k.coreDark c.val = false → k.pstate c.val = 1 → ∃ j : Pkg,
       exec (.wakeToRun p who c hold) s = .next (s.wrote p who (R.CORE_PSTATE c.val) s.mem j) ∧ j.pstate c.val = 0 ∧
       j = { k with regs := j.regs, aon := { k.aon with idleAt := serase k.aon.idleAt c.val } }) ∧
     (∀ hold, k.coreDark c.val = false → 2 ≤ k.pstate c.val → k.aon.waking.contains c.val = false → ∃ j : Pkg,
       exec (.wakeToRun p who c hold) s = .next (s.wrote p who (R.CORE_PSTATE c.val) s.mem j) ∧
         j.aon.waking = k.aon.waking ++ [c.val] ∧ j.pstate c.val = k.pstate c.val) ∧
     (k.aon.waking.contains c.val = true → k.dbg.wantHalt.contains c.val = false → k.Quiet → ∃ (j : Pkg) (m : Mem),
       exec (.wakeComplete p c) s = .next ({ s with mem := m }.setPkg p j) ∧ j.pstate c.val = 0 ∧ j.aon.waking = k.aon.waking.erase c.val ∧
       j.mem = k.mem ∧ (c.val ∉ k.aon.saved → m = s.mem) ∧
       (c.val ∈ k.aon.saved → Memory.wf s.mem = true → ∀ o, o < storeBytes →
         sfind m (memKey p 2 (storeOff c.val o)) = sfind s.mem (memKey p 0 (coreSave c.val + o)))))

/-- R75, R76, R77, R85: a C-tile furls only when every core on it has been asleep and its engine idle for FURL_AFTER steps of 100 µs, and no
clasp, unit or scan bars it. A package begins to moor only under the conditions of R76, when each link that was ACTIVE is parked after a
notice; the entry ends with every domain off, and no incarnation number and, with SAVE = 1, no segment changes; it is undone where the
conditions no longer hold. That MOOR_ENTRY both begins and ends the entry is the model's choice (log 80).
R78, Table 3.4: what wakes, and its bit in AON_WAKE_CAUSE. -/
def Obligations.FurlMoorAndWake : Prop :=
  (∀ (s : State) (p : PkgId) (t : Tile),
     let k := s.pkg p
     let engineIdle := (sget ({} : BrgSt) k.brg t.val).running = none ∧ (sget ({} : BrgSt) k.brg t.val).queue = []
     let on (c : Nat) : Prop := k.phys c / 48 = t.val
     let clasped := ∃ x ∈ k.mem.clasps, on x.store ∨ on x.holder
     let scanned := ∃ u < 10, ∃ x, k.csuScan u = some x ∧ x.space = 5 ∧ on x.core
     let after := k.get F.AON_PDOM_POLICY_FURL_AFTER
     let held := ∃ since, sfind k.aon.heldFrom t.val = some since ∧ since + 100000 * after ≤ s.now
     (after ≠ 0 → k.cFurled t.val = false → (k.tileSlots t.val).all k.asleep = true → engineIdle → held → ¬ clasped →
         k.csuBusy (6 + t.val) = false → ¬ scanned →
       ∃ j : Pkg, exec (.furlEntry p t) s = .next (s.setPkg p j) ∧ OnlyRegs k j ∧ j.cFurled t.val = true ∧
         j.domainOn (384 + t.val) = false ∧ j.domainOn (388 + t.val) = false ∧
         (∀ u, u < 4 → u ≠ t.val → j.cFurled u = k.cFurled u) ∧
         (j.get F.AON_PKG_STATE_C_FURLED = 15 → k.scans (fun x => x.space = 1) = false → j.sFurled = true)) ∧
     ((after = 0 ∨ (k.tileSlots t.val).all k.asleep = false ∨ ¬ engineIdle ∨ ¬ held ∨ clasped ∨ k.csuBusy (6 + t.val) = true ∨ scanned) →
       exec (.furlEntry p t) s = .next (s.setPkg p k)) ∧
     (k.mooring = false → k.mayMoor s.now = false → exec (.moorEntry p) s = .next (s.setPkg p k)) ∧
     (k.mayMoor s.now = true → ∃ j : Pkg, exec (.moorEntry p) s = .next (s.setPkg p j) ∧ j.mooring = true ∧
       (∀ q ∈ k.activePorts, (j.port q).state = .parked) ∧ j.ret = k.ret ∧ j.mem = k.mem ∧
       j.out = k.out ++ k.activePorts.map (fun q => Msg.notice q 1)) ∧
     (k.mooring = true → k.moorable s.now = false → exec (.moorEntry p) s = .next (s.setPkg p (k.put F.AON_PKG_STATE_PKG 0))) ∧
     (k.mooring = true → k.moorable s.now = true → k.saves = true → ∃ (j : Pkg) (m : Mem),
       exec (.moorEntry p) s = .next ({ s with mem := m }.setPkg p j) ∧ j.moored = true ∧ (∀ d, d < 412 → j.domainOn d = false) ∧
       j.rt = k.rt ∧ j.ret = k.ret ∧ j.mem = k.mem)) ∧
  (∀ (s : State) (p : PkgId),
     let k := s.pkg p
     (∀ q c, (k.port q.val).state = .parked → ∃ j : Pkg, exec (.wakePattern p q c) s = .next (s.setPkg p j) ∧
       bit (j.get F.AON_WAKE_CAUSE_CAUSE) 0 = true ∧ (∀ d, 392 ≤ d → d < 412 → j.domainOn d = true) ∧ j.sFurled = false ∧
       (bit (k.get F.AON_WAKE_CAUSE_CAUSE) 0 = false → j.get F.AON_WAKE_CAUSE_PORT = q.val) ∧ (k.moored = true → j.moored = false)) ∧
     (∀ q c, (k.port q.val).state ≠ .parked → exec (.wakePattern p q c) s = .next (s.setPkg p k)) ∧
     (∃ j : Pkg, exec (.pcieL1Exit p) s = .next (s.setPkg p j) ∧ bit (j.get F.AON_WAKE_CAUSE_CAUSE) 2 = true ∧
       j.domainOn 410 = true ∧ j.domainOn 411 = true ∧ j.aon.pcieL1 = false ∧ j.moored = false) ∧
     (∀ cores, (∀ c ∈ cores, k.phys c.val < 192) → ∃ j : Pkg, exec (.wake p cores) s = .next (s.setPkg p j) ∧ bit (j.get F.AON_WAKE_CAUSE_CAUSE) 3 = true ∧
       (∀ d, 392 ≤ d → d < 412 → j.domainOn d = true) ∧
       (∀ c ∈ cores, k.coreDark c.val = false → 2 ≤ k.pstate c.val → j.aon.waking.contains c.val = true)))

/-- R81–R83: an arm with all 8 slots full is dropped and sets FULL; another arm adds a slot of AT, CORE and LINGER; a cancel frees exactly
the slots that match AT and CORE; a write with both is ignored; a slot's wake starts no earlier than T − 1.35 ms, and it is freed at T plus
its linger time. -/
def Obligations.PrewakeSlots : Prop :=
  ∀ (s : State) (p : PkgId) (who : Requester) (w : Word), Open s p who R.AON_PREWAKE_CTRL →
    bits w.toNat 16 8 ≠ 0 → (bits w.toNat 0 8 ≤ 191 ∨ bits w.toNat 0 8 = 255) →
    let k := s.pkg p
    let at_ := k.wide R.AON_PREWAKE_AT_LO
    (bit w.toNat 25 = true → exec (.arm p who w) s = .next (s.wrote p who R.AON_PREWAKE_CTRL s.mem k)) ∧
    (bit w.toNat 8 = true → exec (.prewakeCancel p who w) s = .next (s.wrote p who R.AON_PREWAKE_CTRL s.mem k)) ∧
    (bit w.toNat 25 = false → 8 ≤ k.aon.slots.length → ∃ j : Pkg,
      exec (.arm p who w) s = .next (s.wrote p who R.AON_PREWAKE_CTRL s.mem j) ∧ OnlyRegs k j ∧ j.get F.AON_PREWAKE_CTRL_FULL = 1) ∧
    (bit w.toNat 25 = false → k.aon.slots.length < 8 → k.time s.now + 2000000 ≤ at_ → ∃ j : Pkg,
      exec (.arm p who w) s = .next (s.wrote p who R.AON_PREWAKE_CTRL s.mem j) ∧
      j.aon.slots = k.aon.slots ++ [⟨at_, bits w.toNat 0 8, 1000000 * bits w.toNat 16 8, false⟩] ∧
      ∀ o, o ≠ R.AON_PREWAKE_CTRL → j.rg o = k.rg o) ∧
    (bit w.toNat 8 = false → ∃ j : Pkg, exec (.prewakeCancel p who w) s = .next (s.wrote p who R.AON_PREWAKE_CTRL s.mem j) ∧
      j.aon.slots = k.aon.slots.filter (fun x => !(x.t = at_ && x.core = bits w.toNat 0 8))) ∧
    (∀ (i : Fin 8) x, k.aon.slots[i.val]? = some x →
      (k.time s.now + 1350000 < x.t → exec (.prewakeStart p i) s = .next (s.setPkg p k)) ∧
      (x.started = false → x.t ≤ k.time s.now + 1350000 → ∃ (j : Pkg) (m : Mem), exec (.prewakeStart p i) s = .next ({ s with mem := m }.setPkg p j) ∧
        j.aon.slots = k.aon.slots.set i.val { x with started := true } ∧ bit (j.get F.AON_WAKE_CAUSE_CAUSE) 4 = true) ∧
      (k.time s.now < x.t + x.linger → exec (.prewakeFree p i) s = .next (s.setPkg p k)) ∧
      (x.t + x.linger ≤ k.time s.now → ∃ j : Pkg, exec (.prewakeFree p i) s = .next (s.setPkg p j) ∧
        j.aon.slots = k.aon.slots.eraseIdx i.val)) ∧
    (k.prewakeNear s.now = true → exec (.prewakeDue p) s = .next (s.setPkg p (k.put F.AON_PKG_STATE_PREWAKE_DUE 1)))

/-! ### Check-value units -/

/-- R85, R87, R93: a START of an idle unit clears PROGRESS and the counters, sets NEXT to FIRST, and begins the job as BUSY with code NONE and the
CRC of no bytes, its unit's domain and those of a scan's source on, or ends it at once with ERROR and the code of its refusal; a START while BUSY, and writes to units 0 and 1 by the host or
the tray controller, change nothing.
R92, R94: ABORT ends a busy job with ABORTED, FINISH a stream with DONE and VALID; MSI-X vector 48 + unit follows with IRQ set; neither
does anything to a unit that is not BUSY. -/
def Obligations.CsuJobs : Prop :=
  (∀ (s : State) (p : PkgId) (who : Requester) (u : Fin 10) (w : Word), Open s p who (R.CSU_CTRL u.val) →
     let k := s.pkg p
     (u.val < 2 → who ≠ .jtag → exec (.start p who u w) s = .next (s.wrote p who (R.CSU_CTRL u.val) s.mem k)) ∧
     (2 ≤ u.val → k.csuBusy u.val = true → bit w.toNat 1 = false → bit w.toNat 2 = false →
       exec (.start p who u w) s = .next (s.wrote p who (R.CSU_CTRL u.val) s.mem k)) ∧
     (2 ≤ u.val → k.csuBusy u.val = false → bit w.toNat 1 = false → (∀ c, c < 192 → k.phys c < 192) → ∃ j : Pkg,
       exec (.start p who u w) s = .next (s.wrote p who (R.CSU_CTRL u.val) s.mem j) ∧
       j.wide (R.CSU_PROGRESS_LO u.val) = 0 ∧ j.rg (R.CSU_EVENTS u.val) = 0 ∧
       j.get (F.CSU_STREAM_NEXT u.val) = k.get (F.CSU_STREAM_FIRST u.val) ∧ j.get (F.CSU_STATUS_VALID u.val) = 0 ∧
       j.get (F.CSU_CTRL_MODE u.val) = bits w.toNat 8 2 ∧ j.get (F.CSU_CTRL_SPACE u.val) = bits w.toNat 12 4 ∧
       j.get (F.CSU_CTRL_ALG u.val) = bits w.toNat 6 1 ∧ j.mem = k.mem ∧ j.chart = k.chart ∧
       (j.startRefusal u.val = none → j.csuBusy u.val = true ∧ j.get (F.CSU_STATUS_CODE u.val) = 0 ∧
         j.csuJob u.val = { crc := crcInit (j.csu64 u.val), chunks := 0 } ∧ j.domainOn (csuDomain u.val) = true ∧
         (∀ x, j.csuScan u.val = some x → (k.sourceDomains x).all j.domainOn = true)) ∧
       (∀ code, j.startRefusal u.val = some code →
         j.get (F.CSU_STATUS_STATE u.val) = 4 ∧ j.get (F.CSU_STATUS_CODE u.val) = code))) ∧
  (∀ (s : State) (p : PkgId) (who : Requester) (u : Fin 10) (w : Word), Open s p who (R.CSU_CTRL u.val) → 2 ≤ u.val →
     let k := s.pkg p
     (k.csuBusy u.val = true → ∃ j : Pkg, exec (.csuAbort p who u w) s = .next (s.wrote p who (R.CSU_CTRL u.val) s.mem j) ∧
       j.get (F.CSU_STATUS_STATE u.val) = 3 ∧ j.get (F.CSU_STATUS_VALID u.val) = 0 ∧
       j.out = k.out ++ (if k.get (F.CSU_CTRL_IRQ u.val) = 1 then [.msix (48 + u.val)] else []) ∧
       ∀ o, o ≠ R.CSU_STATUS u.val → j.rg o = k.rg o) ∧
     (k.csuBusy u.val = true → k.get (F.CSU_CTRL_MODE u.val) = 1 → bit w.toNat 1 = false → bit w.toNat 0 = false → ∃ j : Pkg,
       exec (.finish p who u w) s = .next (s.wrote p who (R.CSU_CTRL u.val) s.mem j) ∧
       j.get (F.CSU_STATUS_STATE u.val) = 2 ∧ j.get (F.CSU_STATUS_CODE u.val) = 0 ∧ j.get (F.CSU_STATUS_VALID u.val) = 1 ∧
       j.out = k.out ++ (if k.get (F.CSU_CTRL_IRQ u.val) = 1 then [.msix (48 + u.val)] else []) ∧
       j.csuJob u.val = k.csuJob u.val ∧ ∀ o, o ≠ R.CSU_STATUS u.val → j.rg o = k.rg o) ∧
     (k.csuBusy u.val = false → ∃ j : Pkg, exec (.csuAbort p who u w) s = .next (s.wrote p who (R.CSU_CTRL u.val) s.mem j) ∧
       OnlyRegs k j ∧ ∀ o, o ≠ R.CSU_CTRL u.val → j.rg o = k.rg o) ∧
     (k.csuBusy u.val = false → bit w.toNat 1 = false → bit w.toNat 0 = false → ∃ j : Pkg,
       exec (.finish p who u w) s = .next (s.wrote p who (R.CSU_CTRL u.val) s.mem j) ∧
       OnlyRegs k j ∧ ∀ o, o ≠ R.CSU_CTRL u.val → j.rg o = k.rg o) ∧
     (k.csuBusy u.val = true → k.get (F.CSU_CTRL_MODE u.val) = 0 → bit w.toNat 1 = false → bit w.toNat 0 = false →
       exec (.finish p who u w) s = .next (s.wrote p who (R.CSU_CTRL u.val) s.mem k)))

/-- R84, R90, R91: a chunk reaches no unit whose domain is off. It is foreign where the unit is not BUSY in stream mode or TAG differs; else it is absorbed where ALIVE = NEXT, a repeat
where something was absorbed and ALIVE = NEXT − 1, and a skip in every other case.
R86–R88, R94: with no scan running, SCAN_END changes nothing. A scan of the active Chart slot with nothing corrected on the way ends DONE with
the CRC of the bytes of its range; a scan of local HBM that finds an uncorrectable line ends with POISON and PROGRESS at that line, whose
detector fires. -/
def Obligations.CsuWork : Prop :=
  (∀ (s : State) (p : PkgId) (u : Fin 10) (tag : BitVec 16) (alive : Byte) (data : List Byte),
     let k := s.pkg p
     let next := k.get (F.CSU_STREAM_NEXT u.val)
     let mine := k.csuBusy u.val = true ∧ k.get (F.CSU_CTRL_MODE u.val) = 1 ∧ k.get (F.CSU_STREAM_TAG u.val) = tag.toNat
     let count (f : Fld) : Host.Outcome State Fault Refusal := .next (s.setPkg p (k.put f (min 255 (k.get f + 1))))
     (k.domainOn (csuDomain u.val) = false → exec (.chunk p u tag alive data) s = .next (s.setPkg p k)) ∧
     (k.domainOn (csuDomain u.val) = true →
     (¬ mine → exec (.chunk p u tag alive data) s = count (F.CSU_EVENTS_FOREIGN u.val)) ∧
     (mine → alive.toNat = next → ∃ j : Pkg, exec (.chunk p u tag alive data) s = .next (s.setPkg p j) ∧
       j.csuJob u.val = { crc := crcAbsorb (k.csu64 u.val) (k.csuJob u.val).crc data, chunks := (k.csuJob u.val).chunks + 1 } ∧
       j.get (F.CSU_STREAM_NEXT u.val) = (next + 1) % 256 ∧ j.csuBusy u.val = true ∧
       j.wide (R.CSU_PROGRESS_LO u.val) = (k.wide (R.CSU_PROGRESS_LO u.val) + data.length) % 2 ^ 41 ∧
       j.wide (R.CSU_RESULT_LO u.val) = crcFinal (k.csu64 u.val) (crcAbsorb (k.csu64 u.val) (k.csuJob u.val).crc data) % 2 ^ 64) ∧
     (mine → alive.toNat ≠ next → 0 < (k.csuJob u.val).chunks → (alive.toNat + 1) % 256 = next →
       exec (.chunk p u tag alive data) s = count (F.CSU_EVENTS_REPEATS u.val)) ∧
     (mine → alive.toNat ≠ next → ((k.csuJob u.val).chunks = 0 ∨ (alive.toNat + 1) % 256 ≠ next) → ∃ j : Pkg,
       exec (.chunk p u tag alive data) s = .next (s.setPkg p j) ∧ j.get (F.CSU_STATUS_STATE u.val) = 4 ∧
       j.get (F.CSU_STATUS_CODE u.val) = 7 ∧ j.csuJob u.val = k.csuJob u.val))) ∧
  (∀ (s : State) (p : PkgId) (u : Fin 10) (corrected : List Nat),
     let k := s.pkg p
     (k.csuScan u.val = none → exec (.scanEnd p u corrected) s = .next (s.setPkg p k)) ∧
     (∀ x, k.csuScan u.val = some x → x.space = 2 → ∃ j : Pkg, exec (.scanEnd p u []) s = .next (s.setPkg p j) ∧
       j.get (F.CSU_STATUS_STATE u.val) = 2 ∧ j.get (F.CSU_STATUS_VALID u.val) = 1 ∧ j.csuScan u.val = none ∧
       (j.csuJob u.val).crc = crcAbsorb (k.csu64 u.val) (k.csuJob u.val).crc (slice k.chart.active x.off x.len) ∧
       j.wide (R.CSU_RESULT_LO u.val) = crcFinal (k.csu64 u.val) (j.csuJob u.val).crc % 2 ^ 64) ∧
     (∀ x l, k.csuScan u.val = some x → x.space = 0 → (linesOf (memKey p 0 x.off) x.len).find? k.mem.poison.contains = some l →
       let bad := 64 * l - memKey p 0 0
       ∃ j : Pkg, exec (.scanEnd p u []) s =
           .next (s.setPkg p (j.raise s.now (lineDetector 0 bad) (BitVec.ofNat 64 bad) (Config.syndrome bad))) ∧
         j.get (F.CSU_STATUS_STATE u.val) = 4 ∧ j.get (F.CSU_STATUS_CODE u.val) = 3 ∧ j.get (F.CSU_STATUS_VALID u.val) = 0 ∧
         j.wide (R.CSU_PROGRESS_LO u.val) = bad % 2 ^ 64))

/-! ### The Chart slots and the turn -/

/-- R120, R121: a BEGIN discards what the shadow slot held and starts a load, is refused while TURNING, and a CANCEL empties the slot; a word
written outside a port-mode load is discarded, and inside one it is appended, the last one starting validation. The active Chart is left.
R114, R115: validation ends VALID with code 0 or INVALID with a code, and CHT_FAULT_WHERE is zero but after SECTION_CHECK and BAD_FIELD;
only unit 0, which scanned the sections, changes beside them; an image whose first four bytes are not "CHRT" fails with BAD_TAG. A DMA load takes its bytes from host memory, and nothing arrives while
the host port is in reset. -/
def Obligations.ChartLoadAndCheck : Prop :=
  (∀ (s : State) (p : PkgId) (who : Requester), Open s p who R.CHT_LOAD_CTRL → (s.pkg p).chartOff = false →
     let k := s.pkg p
     let done (m : Mem) (j : Pkg) : Host.Outcome State Fault Refusal := .next (s.wrote p who R.CHT_LOAD_CTRL m j)
     (k.shadowState = 5 → ∃ j : Pkg, SamePkg k j ∧ exec (.loadCancel p who) s = done s.mem j ∧
       exec (.beginPort p who) s = done s.mem (j.put F.CHT_SLOT_STATUS_LOAD_REFUSED 1) ∧
       exec (.beginDma p who) s = done s.mem (j.put F.CHT_SLOT_STATUS_LOAD_REFUSED 1)) ∧
     (k.shadowState ≠ 5 → k.get F.CHT_LOAD_LEN_LEN ≠ 0 →
       (∃ j : Pkg, exec (.beginPort p who) s = done s.mem j ∧ j.shadowState = 1 ∧ j.chart.shadow = [] ∧ j.chart.loadPort = true ∧
         j.chart.loadDma = false ∧ j.chart.loadLen = k.get F.CHT_LOAD_LEN_LEN ∧ j.get F.CHT_SLOT_STATUS_CODE = 0 ∧
         j.rg R.CHT_FAULT_WHERE = 0 ∧ j.chart.active = k.chart.active ∧ j.mem = k.mem) ∧
       (∃ j : Pkg, exec (.beginDma p who) s = done s.mem j ∧ j.shadowState = 1 ∧ j.chart.shadow = [] ∧ j.chart.loadPort = false ∧
         j.chart.loadDma = true ∧ j.chart.loadLen = k.get F.CHT_LOAD_LEN_LEN ∧ j.chart.active = k.chart.active ∧ j.mem = k.mem)) ∧
     (k.shadowState ≠ 5 → ∃ j : Pkg, exec (.loadCancel p who) s = done s.mem j ∧ j.shadowState = 0 ∧ j.chart.shadow = [] ∧
       j.chart.loadPort = false ∧ j.chart.loadDma = false ∧ j.rg R.CHT_SHADOW_EPOCH = 0 ∧ j.chart.active = k.chart.active) ∧
     (Open s p who R.CHT_LOAD_DATA → ∀ w : Word,
       (k.chart.loadPort = false → ∃ j : Pkg, SamePkg k j ∧ exec (.loadData p who w) s = .next (s.wrote p who R.CHT_LOAD_DATA s.mem j)) ∧
       (k.chart.loadPort = true →
         let img := (k.chart.shadow ++ leBytes 4 w.toNat).take k.chart.loadLen
         ∃ j : Pkg, exec (.loadData p who w) s = .next (s.wrote p who R.CHT_LOAD_DATA s.mem j) ∧ j.chart.shadow = img ∧
           j.chart.active = k.chart.active ∧ (k.chart.loadLen ≤ img.length → j.shadowState = 2 ∧ j.chart.loadPort = false) ∧
           (img.length < k.chart.loadLen → j.shadowState = k.shadowState ∧ j.chart.loadPort = true) ∧
           (256 ≤ img.length → j.rg R.CHT_SHADOW_EPOCH = BitVec.ofNat 32 (chEpoch img))))) ∧
  (∀ (s : State) (p : PkgId), (s.pkg p).chartOff = false →
     let k := s.pkg p
     (k.shadowState ≠ 2 → exec (.validationEnd p) s = .next (s.setPkg p k)) ∧
     (k.shadowState = 2 → ∃ j : Pkg, exec (.validationEnd p) s = .next (s.setPkg p j) ∧ j.chart = k.chart ∧ j.mem = k.mem ∧
       j.shadowState = (if k.validation.1 = 0 then 3 else 4) ∧ j.get F.CHT_SLOT_STATUS_CODE = k.validation.1 ∧
       (k.validation.1 ≠ 7 → k.validation.1 ≠ 11 → j.rg R.CHT_FAULT_WHERE = 0) ∧
       (∀ o, o ≠ R.CHT_SLOT_STATUS → o ≠ R.CHT_FAULT_WHERE → o ≠ R.AON_DOMAIN_ON 12 → (o < 0x60000 ∨ 0x60100 ≤ o) → j.rg o = k.rg o)) ∧
     (slice k.chart.shadow 0 4 ≠ [0x43, 0x48, 0x52, 0x54] → k.unitState 250 < 3 → k.validation = (1, 0, 0)) ∧
     (k.chart.loadDma = true → k.pkc.hostInReset = false → k.chart.shadow = [] → ∃ j : Pkg,
       exec (.dmaLoadEnd p) s = .next (s.setPkg p j) ∧ j.shadowState = 2 ∧ j.chart.loadDma = false ∧
       j.chart.shadow = memRead s.mem (memKey p 3 (k.wide R.CHT_LOAD_SRC_LO)) k.chart.loadLen ∧ j.chart.active = k.chart.active) ∧
     ((k.chart.loadDma = false ∨ k.pkc.hostInReset = true) → exec (.dmaLoadEnd p) s = .next (s.setPkg p k)))

/-- R122, R123, R125: when a GO is refused, with its cause, and what an accepted one sets; a GO repeated with the same lease, epoch and T0
during its turn is ignored. A refused GO outside a turn reads RESULT = REFUSED; but for STALE_LEASE and LINKS_UP it floods TURN_ABORT for the
epoch and T0 that it carries, which ends a turn of the same epoch and T0 ordered under another lease (the model's reading, log 30).
R126, R125, R370: at T0 a package prepares: it honours both epochs, or takes its first Chart or an image of package scope in one step, but with a link in service ends the turn REFUSED with LINKS_UP; a
shadow slot that is not VALID ends the turn as REFUSED with NOT_VALID; before T0 nothing happens; and a package that has not prepared by
T0 + 1 ms ends it with NOT_READY. -/
def Obligations.TurnStart : Prop :=
  (∀ (s : State) (p : PkgId) (who : Requester), Open s p who R.CHT_TURN_CTRL → (s.pkg p).chartOff = false →
     let k := s.pkg p
     let t0 := k.wide R.CHT_TURN_AT_LO
     let lease := (k.rg R.CHT_TURN_LEASE).toNat
     let epoch := k.rg R.CHT_TURN_EPOCH
     let oneStep := k.chart.active.isEmpty = true ∨ (k.chart.shadow ≠ [] ∧ chScope k.chart.shadow = 0)
     let refused (cause : Nat) : Prop := ∃ j : Pkg, exec (.go p who) s = .next (s.wrote p who R.CHT_TURN_CTRL s.mem j) ∧
       (cause ≠ 1 → cause ≠ 11 → ∃ m, Msg.flood mAbort m k.floodPorts ∈ j.out ∧ m.epoch = epoch ∧ m.t0 = t0 ∧ m.cause.toNat = cause) ∧
       j.get F.CHT_TURN_CAUSE_CAUSE = cause ∧ j.phase = k.phase ∧ (k.turning = false → j.get F.CHT_TURN_STATUS_RESULT = 3) ∧
       j.chart.active = k.chart.active ∧ j.chart.shadow = k.chart.shadow ∧ j.chart.leaseMax = k.chart.leaseMax
     (k.turning = true → k.chart.goT0 = t0 → k.chart.goEpoch = epoch → k.chart.goLease.toNat = lease →
       ∃ j : Pkg, SamePkg k j ∧ exec (.go p who) s = .next (s.wrote p who R.CHT_TURN_CTRL s.mem j)) ∧
     (lease < k.chart.leaseMax → (k.turning = false ∨ k.chart.goLease.toNat ≠ lease) → refused 1) ∧
     (k.chart.leaseMax ≤ lease → k.turning = true → (k.chart.goT0 ≠ t0 ∨ k.chart.goEpoch ≠ epoch) → refused 5) ∧
     (k.chart.leaseMax ≤ lease → k.phase = 1 → k.chart.goT0 = t0 → k.chart.goEpoch = epoch → k.chart.goLease.toNat ≠ lease →
         k.chart.entered = [] → k.chart.committed = [] → ∃ j : Pkg, exec (.go p who) s = .next (s.wrote p who R.CHT_TURN_CTRL s.mem j) ∧
       j.phase = 0 ∧ j.get F.CHT_TURN_STATUS_RESULT = 3 ∧ j.get F.CHT_TURN_CAUSE_CAUSE = 5 ∧ j.chart.active = k.chart.active) ∧
     (k.chart.leaseMax ≤ lease → k.turning = false → t0 < k.time s.now + 10000000 → refused 4) ∧
     (k.chart.leaseMax ≤ lease → k.turning = false → k.time s.now + 10000000 ≤ t0 → k.shadowState = 3 →
       chEpoch k.chart.shadow ≠ epoch.toNat → refused 2) ∧
     (k.chart.leaseMax ≤ lease → k.turning = false → k.time s.now + 10000000 ≤ t0 →
       (k.shadowState = 3 → chEpoch k.chart.shadow = epoch.toNat) → oneStep → k.activePorts ≠ [] → refused 11) ∧
     (k.chart.leaseMax ≤ lease → k.turning = false → k.time s.now + 10000000 ≤ t0 →
       (k.shadowState = 3 → chEpoch k.chart.shadow = epoch.toNat) → (¬ oneStep ∨ k.activePorts = []) → ∃ j : Pkg,
       exec (.go p who) s = .next (s.wrote p who R.CHT_TURN_CTRL s.mem j) ∧ j.phase = 1 ∧ j.ownState = 0 ∧ j.chart.goT0 = t0 ∧
         j.chart.goEpoch = epoch ∧ j.chart.goLease.toNat = lease ∧ j.chart.leaseMax = lease ∧ j.chart.active = k.chart.active ∧
         j.chart.shadow = k.chart.shadow ∧ ∀ o, o ≠ R.CHT_TURN_STATUS → j.rg o = k.rg o)) ∧
  (∀ (s : State) (p : PkgId), (s.pkg p).chartOff = false →
     let k := s.pkg p
     ((k.phase ≠ 1 ∨ k.time s.now < k.chart.goT0) → exec (.prepare p) s = .next (s.setPkg p k)) ∧
     (k.phase = 1 → k.chart.goT0 ≤ k.time s.now → k.shadowState = 3 → chEpoch k.chart.shadow = k.chart.goEpoch.toNat →
         k.chart.active.isEmpty = false → chScope k.chart.shadow ≠ 0 →
       ∃ j : Pkg, exec (.prepare p) s = .next (s.setPkg p j) ∧ j.phase = 2 ∧ j.shadowState = 5 ∧ j.chart.bank2 = true ∧
         j.chart.active = k.chart.active ∧ j.chart.shadow = k.chart.shadow ∧ j.stamp = k.stamp ∧
         (∀ b : Bool, chEpoch k.chart.shadow % 2 = b.toNat → chEpoch k.chart.active % 2 ≠ b.toNat → k.chart.shadow ≠ [] →
           j.tables b = k.chart.shadow)) ∧
     (k.phase = 1 → k.chart.goT0 ≤ k.time s.now → k.shadowState = 3 → chEpoch k.chart.shadow = k.chart.goEpoch.toNat →
         (k.chart.active.isEmpty = true ∨ chScope k.chart.shadow = 0) → k.activePorts ≠ [] →
       ∃ j : Pkg, exec (.prepare p) s = .next (s.setPkg p j) ∧ j.phase = 0 ∧ j.get F.CHT_TURN_STATUS_RESULT = 3 ∧
         j.get F.CHT_TURN_CAUSE_CAUSE = 11 ∧ j.chart.active = k.chart.active ∧ j.chart.shadow = k.chart.shadow) ∧
     (k.phase = 1 → k.chart.goT0 ≤ k.time s.now → k.shadowState = 3 → chEpoch k.chart.shadow = k.chart.goEpoch.toNat →
         (k.chart.active.isEmpty = true ∨ chScope k.chart.shadow = 0) → k.activePorts = [] →
       ∃ j : Pkg, exec (.prepare p) s = .next (s.setPkg p ((j.applyLocal s.now k.chart.shadow).endTurn 1)) ∧
         j.chart.active = k.chart.shadow ∧ j.chart.shadow = [] ∧ j.shadowState = 0 ∧
         j.rg R.CHT_ACTIVE_EPOCH = BitVec.ofNat 32 (chEpoch k.chart.shadow) ∧
         j.get F.CHT_SLOT_STATUS_ACTIVE_STATE = (if chSafe k.chart.shadow then 1 else 2)) ∧
     (k.phase = 1 → k.chart.goT0 ≤ k.time s.now → k.shadowState ≠ 3 → k.shadowState ≠ 5 → k.chart.committed = [] → k.chart.entered = [] →
       ∃ j : Pkg, exec (.prepare p) s = .next (s.setPkg p j) ∧ j.phase = 0 ∧ j.get F.CHT_TURN_STATUS_RESULT = 3 ∧
         j.get F.CHT_TURN_CAUSE_CAUSE = 3 ∧ j.chart.active = k.chart.active ∧ j.chart.shadow = k.chart.shadow) ∧
     (k.phase = 1 → k.chart.goT0 + 1000000 ≤ k.time s.now → k.shadowState ≠ 5 → k.chart.committed = [] → k.chart.entered = [] →
       ∃ j : Pkg, exec (.prepareDeadline p) s = .next (s.setPkg p j) ∧ j.phase = 0 ∧ j.get F.CHT_TURN_CAUSE_CAUSE = 6 ∧
         j.chart.active = k.chart.active) ∧
     ((k.phase ≠ 1 ∨ k.time s.now < k.chart.goT0 + 1000000) → exec (.prepareDeadline p) s = .next (s.setPkg p k)))

/-- R126: region 0 enters at T0 + 1 ms, and a package of it stamps the new bit; a package whose old traffic has completed tells its lead with
TURN_DRAINED; a lead that holds one from every package of its region by its entry plus WINDOW floods TURN_COMMIT (R127), and keeps what comes
earlier or later; at TR the slots swap and RESULT reads TAKEN. -/
def Obligations.TurnSteps : Prop :=
  ∀ (s : State) (p : PkgId), (s.pkg p).chartOff = false →
    let k := s.pkg p
    (k.phase = 2 → k.chart.prepared = true → k.chart.goT0 + 1000000 ≤ k.time s.now → k.chart.fleet = none →
      ∃ j : Pkg, exec (.regionEnter p) s = .next (s.setPkg p j) ∧ j.phase = 3 ∧ j.curRegion = 0 ∧
        j.chart.entered = k.chart.entered ++ [0] ∧
        (k.ownRegion = 0 → k.ownState = 0 → j.ownState = 1 ∧ j.stamp = epochBit k.chart.shadow ∧ j.chart.entryAt = k.time s.now) ∧
        (k.ownRegion ≠ 0 → j.ownState = k.ownState ∧ j.stamp = k.stamp)) ∧
    ((k.phase ≠ 2 ∨ k.time s.now < k.chart.goT0 + 1000000) → exec (.regionEnter p) s = .next (s.setPkg p k)) ∧
    (k.phase = 3 → k.ownState = 1 → k.oldOut = 0 → k.isLead k.ownRegion = false →
      exec (.drainEnd p) s = .next (s.setPkg p (k.emit (.toLead mDrained (k.leadOf k.ownRegion) (k.turnMsg k.ownRegion 0 none))))) ∧
    ((k.phase ≠ 3 ∨ k.ownState ≠ 1 ∨ k.oldOut ≠ 0) → exec (.drainEnd p) s = .next (s.setPkg p k)) ∧
    (∀ m, k.ofTurn m = true → m.order.toNat = k.ownRegion →
        ((k.membersOf k.ownRegion).all (k.chart.drainedFrom ++ [m.sender.val]).contains = false ∨
          k.chart.entryAt + k.turnWindow k.ownRegion < k.time s.now) →
      exec (.turnDrained p m) s = .next (s.setPkg p
        { k with chart := { k.chart with drainedFrom := k.chart.drainedFrom ++ [m.sender.val] } })) ∧
    (∀ m, k.ofTurn m = true → m.order.toNat = k.ownRegion → k.isLead k.ownRegion = true → k.phase = 3 → k.ownState = 1 →
        (k.membersOf k.ownRegion).all (k.chart.drainedFrom ++ [m.sender.val]).contains = true → k.chart.committed.contains k.ownRegion = false →
        k.time s.now ≤ k.chart.entryAt + k.turnWindow k.ownRegion →
      let tr := if k.lastOfTurn k.ownRegion then some (k.time s.now + 1000000) else none
      ∃ j : Pkg, exec (.turnDrained p m) s = .next (s.setPkg p j) ∧ j.chart.committed = k.chart.committed ++ [k.ownRegion] ∧
        Msg.flood mCommit (k.turnMsg k.ownRegion 0 tr) k.floodPorts ∈ j.out) ∧
    (∀ m, (k.ofTurn m = false ∨ m.order.toNat ≠ k.ownRegion) → exec (.turnDrained p m) s = .next (s.setPkg p k)) ∧
    (∀ t, k.chart.tr = some t → k.phase = 4 → t ≤ k.time s.now →
      ∃ j : Pkg, exec (.retire p) s = .next (s.setPkg p j) ∧ j.phase = 0 ∧ j.get F.CHT_TURN_STATUS_RESULT = 1 ∧
        j.chart.active = k.chart.shadow ∧ j.chart.shadow = [] ∧ j.shadowState = 0 ∧ j.chart.bank2 = false ∧
        j.rg R.CHT_ACTIVE_EPOCH = BitVec.ofNat 32 (chEpoch k.chart.shadow)) ∧
    (∀ t, k.chart.tr = some t → k.time s.now < t → exec (.retire p) s = .next (s.setPkg p k))

/-- R128: a flood already received is absorbed and changes nothing; one received for the first time is relayed out of every in-service row and
column link, and acts where it belongs to the turn in progress. A TURN_COMMIT of a region makes the next one enter, and the last one fixes TR.
A TURN_ABORT for a region whose TURN_COMMIT was received is ignored; one before any region has entered ends the turn with its cause. -/
def Obligations.TurnFloods : Prop :=
  ∀ (s : State) (p : PkgId) (m : TurnMsg), (s.pkg p).chartOff = false →
    let k := s.pkg p
    let o := m.order.toNat
    let rackTurn := k.chart.fleet = none ∨ m.cause ≠ 9 ∨ k.phase ≠ 3
    (k.chart.seen.contains (mCommit, m) = true → exec (.turnCommit p m) s = .next (s.setPkg p k)) ∧
    (k.chart.seen.contains (mAbort, m) = true → exec (.turnAbort p m) s = .next (s.setPkg p k)) ∧
    (k.chart.seen.contains (mCommit, m) = false → k.infraUp = true → k.ofTurn m = false →
      exec (.turnCommit p m) s = .next (s.setPkg p (k.sendFlood mCommit m))) ∧
    (k.sendFlood mCommit m).out = k.out ++ [.flood mCommit m k.floodPorts] ∧
    (k.chart.seen.contains (mCommit, m) = false → k.ofTurn m = true → k.phase = 3 → k.chart.committed.contains o = false → k.ownRegion ≠ o →
      (k.lastOfTurn o = true → ∃ j : Pkg, exec (.turnCommit p m) s = .next (s.setPkg p j) ∧ j.phase = 4 ∧ j.chart.tr = m.tr ∧
        j.chart.committed = k.chart.committed ++ [o] ∧ j.out = k.out ++ [.flood mCommit m k.floodPorts]) ∧
      (k.lastOfTurn o = false → k.chart.fleet = none → ∃ j : Pkg, exec (.turnCommit p m) s = .next (s.setPkg p j) ∧ j.phase = 3 ∧
        j.curRegion = (o + 1) % 256 ∧ j.chart.entered = k.chart.entered ++ [o + 1] ∧ j.chart.committed = k.chart.committed ++ [o] ∧
        j.out = k.out ++ [.flood mCommit m k.floodPorts])) ∧
    (k.chart.seen.contains (mAbort, m) = false → k.infraUp = true → (k.ofTurn m = false ∨
        (rackTurn ∧ (k.chart.committed.contains o = true ∨ 4 ≤ k.phase))) →
      exec (.turnAbort p m) s = .next (s.setPkg p (k.sendFlood mAbort m))) ∧
    (k.chart.seen.contains (mAbort, m) = false → k.ofTurn m = true → rackTurn → k.chart.committed.contains o = false →
        k.phase < 4 → k.chart.entered = [] → k.shadowState ≠ 5 → ∃ j : Pkg,
      exec (.turnAbort p m) s = .next (s.setPkg p j) ∧ j.phase = 0 ∧ j.get F.CHT_TURN_CAUSE_CAUSE = m.cause.toNat ∧
        j.get F.CHT_TURN_CAUSE_CAUSE_REGION = o ∧ j.stamp = epochBit k.chart.active ∧ j.chart.bank2 = false ∧
        j.chart.active = k.chart.active ∧ j.out = k.out ++ [.flood mAbort m k.floodPorts])

/-- R127, R134–R137: a lead without every TURN_DRAINED at its limit, and a package at its deadline, flood TURN_ABORT with DRAIN_TIMEOUT and
PEER_DARK; the abort of an entered region begins the withdrawal. An operator's ABORT acts only from T0 until the last commit, and in a fleet
turn withdraws a rack that has committed too. A withdrawing package that has drained tells its lead; a lead that holds TURN_WITHDRAWN from
every package, and the acting lead (log 90) at the limit, floods TURN_WITHDRAWN, at which the next region begins, or after the last the turn
ends WITHDRAWN with both slots as before. -/
def Obligations.TurnWithdrawal : Prop :=
  ∀ (s : State) (p : PkgId), (s.pkg p).chartOff = false →
    let k := s.pkg p
    let o := k.ownRegion
    let lease := (k.rg R.CHT_TURN_LEASE).toNat
    let ended (j : Pkg) : Prop := j.phase = 0 ∧ j.get F.CHT_TURN_STATUS_RESULT = 2 ∧ j.chart.bank2 = false ∧ j.shadowState = 3 ∧
      j.chart.active = k.chart.active ∧ j.chart.shadow = k.chart.shadow ∧ j.stamp = epochBit k.chart.active ∧
      j.ownState = (if k.ownState = 0 then 0 else 4)
    (k.phase = 3 → k.ownState = 1 → k.isLead o = true → k.chart.entryAt + k.turnWindow o ≤ k.time s.now →
      exec (.leadWindowExpiry p) s = .next (s.setPkg p (k.abortTurn s.now o 7))) ∧
    ((k.phase ≠ 3 ∨ k.ownState ≠ 1 ∨ k.time s.now < k.chart.entryAt + k.turnWindow o) →
      exec (.leadWindowExpiry p) s = .next (s.setPkg p k)) ∧
    (k.phase = 3 → k.ownState = 1 → k.chart.entryAt + k.turnWindow o + 1000000 ≤ k.time s.now →
      exec (.regionDeadline p) s = .next (s.setPkg p (k.abortTurn s.now o 8))) ∧
    ((k.phase ≠ 3 ∨ k.ownState ≠ 1 ∨ k.time s.now < k.chart.entryAt + k.turnWindow o + 1000000) →
      exec (.regionDeadline p) s = .next (s.setPkg p k)) ∧
    (∀ cause, k.chart.committed.contains o = false → k.phase < 4 → k.chart.entered ≠ [] → k.ownState = 1 →
      let j := k.abortTurn s.now o cause
      j.phase = 5 ∧ j.ownState = 3 ∧ j.stamp = epochBit k.chart.active ∧ j.chart.wdSeq = o :: (k.chart.entered.reverse.filter (· ≠ o)) ∧
        j.get F.CHT_TURN_CAUSE_CAUSE = cause % 16 ∧ j.chart.active = k.chart.active ∧ j.chart.shadow = k.chart.shadow ∧
        Msg.flood mAbort (k.turnMsg o cause none) k.floodPorts ∈ j.out) ∧
    (∀ who, Open s p who R.CHT_TURN_CTRL → ∃ i : Pkg, SamePkg k i ∧
      let done (j : Pkg) : Host.Outcome State Fault Refusal := .next (s.wrote p who R.CHT_TURN_CTRL s.mem j)
      let early := k.phase = 1 ∧ k.time s.now < k.chart.goT0
      (lease < k.chart.leaseMax → exec (.operatorAbort p who) s = done (i.turnCause 1 0)) ∧
      (k.chart.leaseMax ≤ lease → (k.phase = 0 ∨ 4 ≤ k.phase ∨ early) → exec (.operatorAbort p who) s = done i) ∧
      (k.chart.leaseMax ≤ lease → 1 ≤ k.phase → k.phase ≤ 3 → ¬ early → (k.phase = 3 → k.chart.fleet = none) →
        exec (.operatorAbort p who) s = done (i.abortTurn s.now k.curRegion 9)) ∧
      (k.chart.leaseMax ≤ lease → k.phase = 3 → k.chart.fleet ≠ none →
        exec (.operatorAbort p who) s = done ((i.sendFlood mAbort (k.turnMsg o 9 none)).withdrawAll s.now o 9))) ∧
    (k.phase = 5 → k.ownState = 3 → (k.oldOut = 0 ∨ k.chart.withdrawAt + k.turnWindow o ≤ k.time s.now) → k.isLead o = false →
      ∃ j : Pkg, exec (.withdrawWaitEnd p) s = .next (s.setPkg p (j.emit (.toLead mWithdrawn (j.leadOf o) (j.turnMsg o 0 none)))) ∧
        j.ownState = 4 ∧ j.chart = k.chart) ∧
    ((k.phase ≠ 5 ∨ k.ownState ≠ 3 ∨ (k.oldOut ≠ 0 ∧ k.time s.now < k.chart.withdrawAt + k.turnWindow o)) →
      exec (.withdrawWaitEnd p) s = .next (s.setPkg p k)) ∧
    (∀ r rest, k.chart.wdSeq = r :: rest →
      let m := k.turnMsg r 0 none
      (k.time s.now < k.chart.withdrawAt + k.turnWindow r + 1000000 → exec (.withdrawLimit p) s = .next (s.setPkg p k)) ∧
      (k.phase = 5 → s.withdrawLead p.rack (k.membersOf r) = some k.idx → k.chart.withdrawAt + k.turnWindow r + 1000000 ≤ k.time s.now →
        (rest = [] → k.shadowState = 5 → k.chart.fleet = none → ∃ j : Pkg, exec (.withdrawLimit p) s = .next (s.setPkg p j) ∧ ended j ∧
          Msg.flood mWithdrawn m k.floodPorts ∈ j.out) ∧
        (∀ q l, rest = q :: l → o ≠ q → ∃ j : Pkg, exec (.withdrawLimit p) s = .next (s.setPkg p j) ∧ j.phase = 5 ∧
          j.chart.wdSeq = rest ∧ j.curRegion = q % 256 ∧ j.chart.withdrawAt = k.time s.now ∧
          j.ownState = (if o = r ∧ k.ownState = 3 then 4 else k.ownState) ∧ Msg.flood mWithdrawn m k.floodPorts ∈ j.out))) ∧
    (∀ m, k.ofTurn m = true → k.chart.seen.contains (mWithdrawn, m) = false →
      k.phase = 5 → k.chart.wdSeq = [m.order.toNat] → k.shadowState = 5 → k.chart.fleet = none → ∃ j : Pkg,
        exec (.turnWithdrawn p ⟨m, true⟩) s = .next (s.setPkg p j) ∧ ended j ∧ Msg.flood mWithdrawn m k.floodPorts ∈ j.out) ∧
    (∀ m, k.ofTurn m = true → m.order.toNat = o →
      (k.phase ≠ 5 → exec (.turnWithdrawn p ⟨m, false⟩) s =
        .next (s.setPkg p { k with chart := { k.chart with withdrawnFrom := k.chart.withdrawnFrom ++ [m.sender.val] } })) ∧
      (k.phase = 5 → k.chart.wdSeq = [o] → k.shadowState = 5 → k.chart.fleet = none → k.isLead o = true →
          (k.membersOf o).all (k.chart.withdrawnFrom ++ [m.sender.val]).contains = true → ∃ j : Pkg,
        exec (.turnWithdrawn p ⟨m, false⟩) s = .next (s.setPkg p j) ∧ ended j ∧ Msg.flood mWithdrawn (k.turnMsg o 0 none) k.floodPorts ∈ j.out)) ∧
    (∀ m, k.ofTurn m = false → exec (.turnWithdrawn p ⟨m, false⟩) s = .next (s.setPkg p k)) ∧
    (∀ m, k.ofTurn m = false → k.infraUp = true → k.chart.seen.contains (mWithdrawn, m) = false →
      exec (.turnWithdrawn p ⟨m, true⟩) s = .next (s.setPkg p (k.sendFlood mWithdrawn m)))

/-! ### The link layer -/

/-- R142, R143, R144: a NAK of a block of the replay buffer makes the sender resend from it; a NAK of a block already replayed is a failed
replay, the fourth in a row of which starts a fast retrain and the sixteenth of which, with no block passing between, declares the link down. The
loss of lane lock starts a fast retrain, and the eighth start within 1 s declares the link down instead. A block not acknowledged within
1 µs of its sending is replayed. -/
def Obligations.LinkFailures : Prop :=
  ∀ (s : State) (l : LinkId),
    let x := s.port l
    let recent := x.retrainStarts.filter (fun t => s.now < t + 1000000000)
    let down (y : PortSt) : Prop := y.state = .down ∧ y.downs = min 255 (x.downs + 1) ∧ y.replay = [] ∧ y.training = true
    let again (b : Byte) : Prop := x.replay.head?.map (·.bseq) = some b ∧ x.replayedAt = some b
    let sends (t : State) (bs : List Block) : Prop := ∀ e ∈ bs, Msg.block l.port.val e ∈ t.sent l.router
    (∀ b, (∀ e ∈ x.replay, e.bseq ≠ b) → PortAfter (.nak l b) s l fun y _ => y.state = x.state ∧ y.replay = x.replay) ∧
    (∀ b, (∃ e ∈ x.replay, e.bseq = b) → x.replayedAt ≠ some b → PortAfter (.nak l b) s l fun y t => y.state = x.state ∧
      y.replay = x.replay.dropWhile (fun e => e.bseq ≠ b) ∧ y.replayedAt = some b ∧ y.sameFails = 0 ∧
      y.allFails = (if x.replay.head?.map (·.bseq) = some b then x.allFails else 0) ∧ sends t y.replay) ∧
    (∀ b, again b → x.sameFails < 3 → x.allFails < 15 → PortAfter (.nak l b) s l fun y t => y.state = x.state ∧
      y.sameFails = x.sameFails + 1 ∧ y.allFails = x.allFails + 1 ∧ y.replay = x.replay ∧ sends t x.replay) ∧
    (∀ b, again b → 3 ≤ x.sameFails → x.allFails < 15 → x.state = .active → recent.length < 7 →
      PortAfter (.nak l b) s l fun y _ => y.state = .retraining ∧ y.stoppedAt = some s.now) ∧
    (∀ b, again b → 15 ≤ x.allFails → PortAfter (.nak l b) s l fun y _ => down y) ∧
    (x.state = .active → recent.length < 7 → PortAfter (.laneLockLoss l) s l fun y _ => y.state = .retraining ∧ y.replay = x.replay ∧
      y.retrainStarts = recent ++ [s.now] ∧ y.downs = x.downs) ∧
    (x.state = .active → 7 ≤ recent.length → PortAfter (.laneLockLoss l) s l fun y _ => down y) ∧
    (x.state ≠ .active → PortAfter (.laneLockLoss l) s l fun y _ => y.state = x.state ∧ y.replay = x.replay) ∧
    (∀ b bs at_ rest, x.replay = b :: bs → x.sentAt = at_ :: rest → x.state = .active → at_ + 1000 ≤ s.now →
      PortAfter (.replayTimeout l) s l fun y t => y.state = .active ∧ y.replay = x.replay ∧ y.replayedAt = some b.bseq ∧ sends t x.replay) ∧
    ((x.replay = [] ∨ x.state ≠ .active ∨ ∃ at_ rest, x.sentAt = at_ :: rest ∧ s.now < at_ + 1000) →
      PortAfter (.replayTimeout l) s l fun y _ => y.state = x.state ∧ y.replay = x.replay ∧ y.replayedAt = x.replayedAt)

/-- R26, R143, R144, R145, R166: a retrain or a full training whose ends exchange the right identities makes the port ACTIVE, but a PEER_DARK port
waits for the back-in-service notice. Another identity is a declaration as MISWIRED, after which the port trains again; a PEER_DARK port keeps
its state (log 72). A fast retrain not done after 1.2 ms is abandoned; a port that is DOWN, MISWIRED or PEER_DARK untrained trains again. Full
training starts the link's sequences afresh; failed, it leaves a port that was TRAINING DOWN. -/
def Obligations.LinkTraining : Prop :=
  ∀ (s : State) (l : LinkId),
    let x := s.port l
    let keeps (y : PortSt) : Prop := y.state = x.state ∧ y.identity = x.identity ∧ y.training = x.training
    let told (t : State) : Prop := Msg.identity l.port.val (s.ownIdentity l) ∈ t.sent l.router
    let miswired (y : PortSt) (i : Word) : Prop := y.state = .miswired ∧ y.identity = i ∧ y.replay = [] ∧ y.training = true ∧
      y.downs = min 255 (x.downs + 1)
    (∀ i, x.state ≠ .retraining → PortAfter (.fastRetrainEnd l i) s l fun y _ => keeps y) ∧
    (∀ i, x.state = .retraining → s.expectedAt l = some i → PortAfter (.fastRetrainEnd l i) s l fun y t => y.state = .active ∧
      y.identity = i ∧ y.stoppedAt = none ∧ told t ∧ ∀ e ∈ x.replay, Msg.block l.port.val e ∈ t.sent l.router) ∧
    (∀ i, x.state = .retraining → s.expectedAt l ≠ some i → PortAfter (.fastRetrainEnd l i) s l fun y t => miswired y i ∧ told t) ∧
    (∀ t0, x.state = .retraining → x.stoppedAt = some t0 → t0 + 1200000 ≤ s.now → PortAfter (.fastRetrainTimeout l) s l fun y _ =>
      y.state = .down ∧ y.downs = min 255 (x.downs + 1) ∧ y.training = true) ∧
    (∀ t0, (x.state ≠ .retraining ∨ (x.stoppedAt = some t0 ∧ s.now < t0 + 1200000)) →
      PortAfter (.fastRetrainTimeout l) s l fun y _ => keeps y) ∧
    (∀ ok i, x.training = false → PortAfter (.fullTrainingEnd l ok i) s l fun y _ => keeps y) ∧
    (∀ i, x.training = true → s.expectedAt l = some i →
      (x.state ≠ .peerDark → PortAfter (.fullTrainingEnd l true i) s l fun y t => y.state = .active ∧ y.identity = i ∧ y.training = false ∧
        y.txBseq = 0 ∧ y.rxNext = 0 ∧ y.replay = [] ∧ y.txSent = [] ∧ y.txFreed = [] ∧ told t ∧ Msg.notice l.port.val 2 ∈ t.sent l.router) ∧
      (x.state = .peerDark → PortAfter (.fullTrainingEnd l true i) s l fun y t => y.state = .peerDark ∧ y.training = false ∧
        y.trained = true ∧ told t)) ∧
    (∀ i, x.training = true → s.expectedAt l ≠ some i → PortAfter (.fullTrainingEnd l true i) s l fun y t => told t ∧
      (x.state = .peerDark → y.state = .peerDark ∧ y.trained = false ∧ y.training = false) ∧
      (x.state = .down ∨ x.state = .miswired → y.state = .miswired ∧ y.identity = i ∧ y.training = false) ∧
      (x.state ≠ .peerDark → x.state ≠ .down → x.state ≠ .miswired → miswired y i)) ∧
    (∀ i, x.training = true → x.state ≠ .training → PortAfter (.fullTrainingEnd l false i) s l fun y _ => y.state = x.state ∧
      y.identity = x.identity ∧ y.training = false) ∧
    (∀ i, x.training = true → x.state = .training → PortAfter (.fullTrainingEnd l false i) s l fun y _ => y.state = .down ∧
      y.training = false) ∧
    ((x.state = .down ∨ x.state = .miswired ∨ (x.state = .peerDark ∧ x.trained = false)) →
      PortAfter (.trainingRetry l) s l fun y _ => y.state = x.state ∧ y.training = true) ∧
    (x.state ≠ .down → x.state ≠ .miswired → (x.state = .peerDark → x.trained = true) →
      PortAfter (.trainingRetry l) s l fun y _ => keeps y)

/-- R77, R142, R165, R166 and the requests of FAB_PORT_CTRL: the notices of a link, its parking and waking, the hold time of a stopped
port, and the three requests of FAB_PORT_CTRL, where RELEASE trains only a package that has joined the fabric (R37) and leaves a
port that is isolated or quarantined (the model's choice, log 96). Notices, freed inputs
and acknowledgements travel in blocks without data (the model's choice, log 69). A block whose CRC fails is discarded with a NAK of the
next block due, what follows it is discarded too until that one comes again, and the next block due is taken and acknowledged. -/
def Obligations.LinkNotices : Prop :=
  ∀ (s : State) (l : LinkId),
    let x := s.port l
    PortAfter (.goingDarkNotice l) s l (fun y _ => y.state = .peerDark ∧ y.training = true ∧ y.trained = false) ∧
    (x.state = .peerDark → x.trained = true → PortAfter (.backInServiceNotice l) s l fun y _ => y.state = .active ∧ y.stoppedAt = none ∧
      y.replay = []) ∧
    ((x.state ≠ .peerDark ∨ x.trained = false) → PortAfter (.backInServiceNotice l) s l fun y _ => y.state = x.state ∧
      y.replay = x.replay) ∧
    (x.state = .active → PortAfter (.moorNotice l) s l fun y _ => y.state = .parked) ∧
    (x.state ≠ .active → PortAfter (.moorNotice l) s l fun y _ => y.state = x.state) ∧
    (x.state = .parked → x.outQ ≠ [] → x.stoppedAt = none → PortAfter (.wakePatternSend l) s l fun y t => y.state = .parked ∧
      y.stoppedAt = some s.now ∧ Msg.report "WAKE_PATTERN" l.port.val 0 ∈ t.sent l.router) ∧
    ((x.state ≠ .parked ∨ x.outQ = [] ∨ x.stoppedAt ≠ none) → PortAfter (.wakePatternSend l) s l fun y _ => y.state = x.state ∧
      y.stoppedAt = x.stoppedAt) ∧
    (x.state = .parked → PortAfter (.linkResume l) s l fun y _ => y.state = .active ∧ y.stoppedAt = none) ∧
    (x.state ≠ .parked → PortAfter (.linkResume l) s l fun y _ => y.state = x.state ∧ y.stoppedAt = x.stoppedAt) ∧
    (x.stoppedAt = none → PortAfter (.holdTimeExpiry l) s l fun y _ => y.state = x.state) ∧
    (∀ t0, x.stoppedAt = some t0 → x.state = .parked →
      (match l.router with
        | .pkg p => t0 + (s.pkg p).holdNs ≤ s.now
        | .meridian _ _ => t0 + 2000000 ≤ s.now) →
      PortAfter (.holdTimeExpiry l) s l fun y _ => y.state = .down ∧ y.training = true) ∧
    (∀ t0, x.stoppedAt = some t0 → (match l.router with
        | .pkg p => s.now < t0 + (s.pkg p).holdNs
        | .meridian _ _ => s.now < t0 + 2000000) → PortAfter (.holdTimeExpiry l) s l fun y _ => y.state = x.state) ∧
    (∀ b, x.state ≠ .active → x.state ≠ .peerDark → x.state ≠ .parked → PortAfter (.blockReceive l b true) s l fun y _ =>
      y.state = x.state ∧ y.rxNext = x.rxNext) ∧
    (∀ b, x.state = .active → PortAfter (.blockReceive l b false) s l fun y t => y.state = .active ∧ y.rxNext = x.rxNext ∧
      y.rejecting = true ∧ y.crcBlocks = min 65535 (x.crcBlocks + 1) ∧
      ∃ w : Block, Msg.block l.port.val w ∈ t.sent l.router ∧ w.nak = true ∧ w.ackseq = x.rxNext ∧ w.dataFlits = 0) ∧
    (∀ b, x.state = .active → x.rejecting = true → b.bseq ≠ x.rxNext → PortAfter (.blockReceive l b true) s l fun y _ => y.state = .active ∧
      y.rxNext = x.rxNext ∧ y.rejecting = true ∧ y.replay = x.replay) ∧
    (∀ b, x.state = .active → b.nak = false → b.goingDark = false → b.moor = false → b.backInService = false → b.bseq = x.rxNext →
      b.dataFlits ≠ 0 → PortAfter (.blockReceive l b true) s l fun y t => y.state = .active ∧ y.rxNext = x.rxNext + 1 ∧
        y.rejecting = false ∧ ∃ w : Block, Msg.block l.port.val w ∈ t.sent l.router ∧ w.nak = false ∧ w.ackseq = b.bseq) ∧
    (∀ (p : PkgId) (who : Requester) (q : Port), l = p.link q →
        Open s p who (R.FAB_PORT_CTRL (q.val / 12) (q.val % 12)) →
      (∃ t, exec (.holdDown p who q) s = .next t ∧ (t.port l).state = .heldDown ∧ (t.port l).training = false ∧ (t.port l).replay = []) ∧
      (x.state = .heldDown → 3 ≤ (s.pkg p).unitState (208 + q.val) → ∃ t, exec (.portRelease p who q) s = .next t ∧ (t.port l).state = .heldDown) ∧
      (x.state = .heldDown → (s.pkg p).unitState (208 + q.val) < 3 → ∃ t, exec (.portRelease p who q) s = .next t ∧
        ((s.pkg p).mayTrain = true → (t.port l).state = .training ∧ (t.port l).training = true) ∧
        ((s.pkg p).mayTrain = false → (t.port l).state = .off ∧ (t.port l).training = x.training)) ∧
      (x.state ≠ .heldDown → ∃ t, exec (.portRelease p who q) s = .next t ∧ (t.port l).state = x.state) ∧
      (x.state = .active → (x.retrainStarts.filter (fun t => s.now < t + 1000000000)).length < 7 →
        ∃ t, exec (.retrain p who q) s = .next t ∧ (t.port l).state = .retraining ∧ (t.port l).replay = x.replay) ∧
      (x.state ≠ .active → ∃ t, exec (.retrain p who q) s = .next t ∧ (t.port l).state = x.state))

/-! ### Routers, flows and the receiver -/

/-- R146, R148, R149, R152, R153, R154, R157, R164, R196, R364: what a package's router does with a packet that arrives, by the first rule
that applies; what leaves it frees its input, which an ACTIVE port says in blocks without data (the model's choice, log 69), and a request
that meets a full store waits in its input. A port sends its next packet that has credits, in blocks of which the last one completes it;
and the input scan discards what is older than LIFETIME and nothing else.
R35, R56, R138, R148, R149, R153, R164, R184, R187, R198, R364: what a Meridian tray does with a packet that arrives, by the first rule that
applies: a packet from another rack takes the bit of the map in force here; map reports enter the map agent's sink; what is for a
package of the rack goes down to it, and what is for another rack across its bundle; a tray stands in for a dark package. A port sends
its next packet that has credits, and the input scan discards what is older than LIFETIME. -/
def Obligations.Routers : Prop :=
  (∀ (s : State) (p : PkgId),
     let k := s.pkg p
     let idle (inp : Nat) (l : List Msg) : Prop := ∀ m ∈ l, ∃ b : Block, m = .block inp b ∧ b.dataFlits = 0
     (∀ (inp : Fin 512) (pk : Packet),
       let img := k.tables pk.epoch
       let a := epPkg pk.dst
       let old := k.lifetimeUs < ageUs (k.time s.now) pk
       let ok : Prop := opcodeOk pk.opcode = true ∧ pk.reserved = false ∧ ¬ old
       let known := if pk.pkg then pkgAddrOk a else endpointOk pk.dst
       let uni : Prop := ok ∧ pk.cls ≠ 2 ∧ pk.cls ≠ 3 ∧ known = true
       let next (f : Pkg → Prop) : Prop := ∃ j : Pkg, exec (.packetArrive (.pkg p) inp pk) s = .next (s.setPkg p j) ∧ j.mem.segs = k.mem.segs ∧
         j.fab.tx = k.fab.tx ∧ j.fab.rx = k.fab.rx ∧ j.fab.inbound = k.fab.inbound ∧ j.ret = k.ret ∧ f j
       let discarded (c : Fld) : Prop := next fun j => j.get c = min 255 (k.get c + 1) ∧ (∃ l, j.out = k.out ++ l ∧ idle inp.val l) ∧
         ∀ q, (j.port q).outQ = (k.port q).outQ
       let gone (m : Msg) : Prop := next fun j => j.regs = k.regs ∧ ∃ l, j.out = k.out ++ l ++ [m] ∧ idle inp.val l
       let queued (q : Nat) (x : Packet) : Prop := next fun j => j.out = k.out ∧ j.regs = k.regs ∧
         (j.port q).outQ = (k.port q).outQ ++ [⟨withVc x, inp.val, bufKey (k.isPlane inp.val) pk, k.rt.arrivals⟩]
       let open_ (q : Nat) : Prop := portDown (k.port q).state = false ∧ (k.port q).state ≠ .peerDark
       ((opcodeOk pk.opcode = false ∨ pk.reserved = true) → discarded (F.FAB_DISCARD_B_BAD_HEADER (portTile inp.val))) ∧
       (opcodeOk pk.opcode = true → pk.reserved = false → old → discarded (F.FAB_DISCARD_A_LIFETIME (portTile inp.val))) ∧
       (ok → pk.cls ≠ 2 → pk.cls ≠ 3 → known = false → discarded (F.FAB_DISCARD_B_NO_ENDPOINT (portTile inp.val))) ∧
       (ok → (pk.cls = 2 ∨ pk.cls = 3) → next fun j => j.out = k.out ++ [.delivered inp.val pk] ∧ j.regs = k.regs) ∧
       (uni → a = k.addr → (pk.cls ≠ 0 ∨ k.storeFull = false) → gone (.delivered inp.val pk)) ∧
       (uni → a = k.addr → pk.cls = 0 → k.storeFull = true → next fun j => j.out = k.out ∧ j.regs = k.regs ∧
         j.fab.stalled = k.fab.stalled ++ [(inp.val, pk)]) ∧
       (∀ q, uni → a ≠ k.addr → k.override pk = some q → (k.port q).state ≠ .peerDark → queued q pk) ∧
       (uni → a ≠ k.addr → k.override pk = none → img = [] → discarded (F.FAB_DISCARD_A_EPOCH (portTile inp.val))) ∧
       (uni → a ≠ k.addr → k.override pk = none → img ≠ [] → chScope img ≠ 0 → addrRack a = k.rackNo →
         (k.foreignAbsent img pk = true → gone (.packet (k.response s.now pk stUnitAbsent true []))) ∧
         (k.foreignAbsent img pk = false → inp.val < 24 →
           let e := pairEntry img k.idx (addrIndex a)
           let via := viaPort k.idx (addrIndex a) (if pk.cls = 1 then e.2.1 else e.1)
           (∀ q, via = some q → open_ q → queued q pk) ∧
           (∀ q q2, via = some q → portDown (k.port q).state = true → portPlane k.idx q = none → (k.fallbackPort img pk).1 = some q2 →
             (k.port q2).state ≠ .peerDark → ∃ j : Pkg, exec (.packetArrive (.pkg p) inp pk) s = .next (s.setPkg p j) ∧ j.out = k.out ∧
               (j.port q2).outQ = (k.port q2).outQ ++
                 [⟨withVc { pk with fallback := true }, inp.val, bufKey (k.isPlane inp.val) pk, k.rt.arrivals⟩]) ∧
           (∀ q, via = some q → portDown (k.port q).state = true → portPlane k.idx q = none → (k.fallbackPort img pk).1 = none →
             queued q pk))) ∧
       (uni → a ≠ k.addr → k.override pk = none → img ≠ [] → chScope img ≠ 0 → addrRack a ≠ k.rackNo →
         let plane := planePrimary img (addrRack a)
         (3 < plane → discarded (F.FAB_DISCARD_B_NO_ENDPOINT (portTile inp.val))) ∧
         (plane ≤ 3 → secondPort k.idx plane = none → open_ (20 + plane) → queued (20 + plane) pk))) ∧
     (∀ q : Port, ((k.port q.val).pick (k.isPlane q.val) k.chart.active (k.time s.now) k.rt.first = none ∨ (k.port q.val).state ≠ .active) →
       exec (.packetDepart (p.link q)) s = .next (s.setPkg p k)) ∧
     (∀ (q : Port) (e : Queued), (k.port q.val).pick (k.isPlane q.val) k.chart.active (k.time s.now) k.rt.first = some e →
       (k.port q.val).state = .active → (k.port q.val).replay.length + (flits e.pk + 63) / 64 ≤ 4 → ∃ (j : Pkg) (bs : List Block) (l : List Msg),
       exec (.packetDepart (p.link q)) s = .next (s.setPkg p j) ∧ bs.length = (flits e.pk + 63) / 64 ∧
         bs.getLast?.map (·.packets) = some [e.pk] ∧ (j.port q.val).outQ = (k.port q.val).outQ.erase e ∧
         (j.port q.val).replay = (k.port q.val).replay ++ bs ∧
         sget 0 (j.port q.val).txSent (bufKey (k.isPlane q.val) e.pk) = sget 0 (k.port q.val).txSent (bufKey (k.isPlane q.val) e.pk) + flits e.pk ∧
         j.out = k.out ++ bs.map (Msg.block q.val) ++ l ∧ idle e.inp l ∧ j.regs = k.regs) ∧
     (let bad (pk : Packet) : Bool := decide (k.lifetimeUs < ageUs (k.time s.now) pk)
       ∃ j : Pkg, exec (.inputScan (.pkg p)) s = .next (s.setPkg p j) ∧ j.mem = k.mem ∧ j.fab.inbound = k.fab.inbound ∧ j.fab.tx = k.fab.tx ∧
         j.fab.rx = k.fab.rx ∧ j.fab.stalled = k.fab.stalled.filter (fun e => !bad e.2) ∧
         j.tally.waiting = k.tally.waiting.filter (fun e => !(e.1 < 100 && bad e.2)) ∧
         (∀ q : Port, (j.port q).outQ = (k.port q).outQ.filter (fun e => !bad e.pk)) ∧
         ∃ l, j.out = k.out ++ l ∧ ∀ m ∈ l, ∃ (q : Nat) (b : Block), m = .block q b ∧ b.dataFlits = 0)) ∧
  (∀ (s : State) (r : Fin 32) (pl : Fin 4),
     let id : RouterId := .meridian r pl
     let m := s.router id
     let c := s.merCtx r pl
     let idle (inp : Nat) (l : List Msg) : Prop := ∀ x ∈ l, ∃ b : Block, x = .block inp b ∧ b.dataFlits = 0
     (∀ (inp : Fin 512) (pk0 : Packet),
       let i := inp.val % 288
       let stamp := if c.entered && !m.newMap.isEmpty then m.newMap else m.oldMap
       let pk := if 144 ≤ i then { pk0 with epoch := decide (chEpoch stamp % 2 = 1) } else pk0
       let a := merTarget pk
       let old := merLifetimeUs < ageUs c.time pk
       let ok : Prop := opcodeOk pk.opcode = true ∧ pk.reserved = false ∧ ¬ old
       let report : Prop := pk.cls = 4 ∧ pk.pkg = true ∧ epPkg pk.dst = merAddr c.rack c.plane
       let known := if pk.pkg ∨ pk.cls = 2 ∨ pk.cls = 3 then pkgAddrOk a else endpointOk pk.dst
       let next (f : RouterSt → Prop) : Prop := ∃ x : RouterSt, exec (.packetArrive id inp pk0) s = .next (s.setRouter id x) ∧
         x.oldMap = m.oldMap ∧ x.newMap = m.newMap ∧ x.ovr = m.ovr ∧ f x
       let discarded (key : Nat) : Prop := next fun x => sget 0 x.discards key = min 255 (sget 0 m.discards key + 1) ∧ x.sink = m.sink ∧
         (∃ l, x.out = m.out ++ l ∧ idle i l) ∧ ∀ q, (x.port q).outQ = (m.port q).outQ
       let queued (q : Nat) : Prop := next fun x => x.out = m.out ∧ x.sink = m.sink ∧ x.discards = m.discards ∧
         (x.port q).outQ = (m.port q).outQ ++ [⟨withVc pk, i, bufKey true pk0, m.arrivals⟩]
       let down := (m.spreadOver (addrIndex a) (merDown c.plane (addrIndex a))).1
       let links := merBundle (m.mapFor c.time pk.epoch) c.fleet c.rack c.plane (addrRack a)
       ((opcodeOk pk.opcode = false ∨ pk.reserved = true) → discarded (dropIndex .header)) ∧
       (opcodeOk pk.opcode = true → pk.reserved = false → old → discarded (dropIndex .lifetime)) ∧
       (ok → report → m.sink.length < 1024 → next fun x => x.sink = m.sink ++ [pk] ∧ x.discards = m.discards) ∧
       (ok → report → 1024 ≤ m.sink.length → discarded merSinkDrops) ∧
       (ok → ¬ report → known = false → discarded (dropIndex .noEndpoint)) ∧
       (∀ q, ok → ¬ report → known = true → m.merOverride c.rack pk = some q → (m.port q).state ≠ .peerDark → queued q) ∧
       (ok → ¬ report → known = true → m.merOverride c.rack pk = none → addrRack a = c.rack →
         (∀ q, down = some q → (m.port q).state ≠ .peerDark → queued q) ∧
         (∀ q, down = some q → (m.port q).state = .peerDark → expectsResponse pk.opcode = true → next fun x => ∃ (l : List Msg) (w : Packet),
           x.out = m.out ++ l ++ [.packet w] ∧ idle i l ∧ w.opcode = opResponse ∧ w.status = stUnitReset ∧ w.poison = true ∧ w.dst = pk.src ∧
             w.seq = pk.seq ∧ w.tag = pk.tag)) ∧
       (ok → ¬ report → known = true → m.merOverride c.rack pk = none → addrRack a ≠ c.rack →
         (∀ q, (m.spreadOver (200 + addrRack a) links).1 = some q → (m.port q).state ≠ .peerDark → queued q) ∧
         (links = [] → discarded (dropIndex .noEndpoint)))) ∧
     (∀ q : Fin 288, ((m.port q.val).pick true m.oldMap (s.rackTime r) m.first = none ∨ (m.port q.val).state ≠ .active) →
       exec (.packetDepart ⟨id, q⟩) s = .next s) ∧
     (∀ (q : Fin 288) (e : Queued), (m.port q.val).pick true m.oldMap (s.rackTime r) m.first = some e → (m.port q.val).state = .active →
       (m.port q.val).replay.length + (flits e.pk + 63) / 64 ≤ 4 → ∃ (x : RouterSt) (bs : List Block) (l : List Msg),
       exec (.packetDepart ⟨id, q⟩) s = .next (s.setRouter id x) ∧ bs.length = (flits e.pk + 63) / 64 ∧
         bs.getLast?.map (·.packets) = some [e.pk] ∧ (x.port q.val).outQ = (m.port q.val).outQ.erase e ∧
         (x.port q.val).replay = (m.port q.val).replay ++ bs ∧ x.out = m.out ++ bs.map (Msg.block q.val) ++ l ∧ idle e.inp l) ∧
     (∃ x : RouterSt, exec (.inputScan id) s = .next (s.setRouter id x) ∧ x.oldMap = m.oldMap ∧ x.newMap = m.newMap ∧ x.sink = m.sink ∧
       ∀ q : Fin 288, (x.port q.val).outQ = (m.port q.val).outQ.filter (fun e => decide (ageUs (s.rackTime r) e.pk ≤ merLifetimeUs))))

/-- R40, R156–R160, R162, R163, R59: a request takes the mesh of its own C-tile, is refused at its source with the first check that it fails, or
joins its flow; a flow sends its oldest packet within its window, with the next SEQ and NEWFLOW until it has heard, or refuses it by the
tables it would now be stamped for; an ACK covers what expects no response; a RESYNC or the last resend restarts the flow with the next
FGEN; a response completes its request, but one of another incarnation is counted and not delivered. -/
def Obligations.FlowSource : Prop :=
  ∀ (s : State) (p : PkgId),
    let k := s.pkg p
    (∀ (c : Core) (rq : Request),
      let key := flowKey (epPkg rq.dst) 0 0
      let k1 := k.issues c.val
      let pk := k1.stamped c.val { k1.newPacket s.now rq.opcode 0 rq.dst (endpoint k.addr c.val) rq.payload with
        incarnation := k.coreInc c.val, tag := rq.tag, want := rq.want, addr := BitVec.ofNat 64 (rq.addr.toNat % 2 ^ 44) }
      let live := k.coreDark c.val = false ∧ opcodeClass rq.opcode = 0
      let img := k.tables k.stamp
      let rack := addrRack (epPkg rq.dst)
      let there := endpointOk rq.dst = true ∧ img ≠ [] ∧ (chScope img = 0 → epPkg rq.dst = k.addr) ∧
        (chScope img ≠ 0 → routePresent img rack = true)
      let absent := rack = k.rackNo ∧ allAbsent img (addrIndex (epPkg rq.dst)) = true
      let skein := coreSkein img k.idx c.val
      ((k.coreDark c.val = true ∨ opcodeClass rq.opcode ≠ 0) → exec (.requestIssue p c rq) s = .next (s.setPkg p k)) ∧
      (pk.opcode = rq.opcode ∧ pk.dst = rq.dst ∧ pk.payload = rq.payload ∧ pk.tag = rq.tag ∧ pk.cls = 0 ∧ pk.incarnation = k.coreInc c.val ∧
        pk.epoch = k.stamp) ∧
      (live → k.onMesh c.val rq.dst = true → ∃ j : Pkg, exec (.requestIssue p c rq) s = .next (s.setPkg p j) ∧
        j.fab.mesh = k.fab.mesh ++ [pk] ∧ j.fab.tx = k.fab.tx ∧ j.out = k.out) ∧
      (∀ st, live → k.onMesh c.val rq.dst = false → k1.barred c.val pk = some st → ∃ j : Pkg,
        exec (.requestIssue p c rq) s = .next (s.setPkg p j) ∧ j.out = k.out ++ [.completion c.val rq.tag st []] ∧ j.fab = k.fab) ∧
      (live → k.onMesh c.val rq.dst = false → k1.barred c.val pk = none → ∃ j : Pkg, exec (.requestIssue p c rq) s = .next (s.setPkg p j) ∧
        j.out = k.out ∧ (j.txFlow key).waiting = (k.txFlow key).waiting ++ [(pk, c.val)] ∧ ∀ o, o ≠ key → j.txFlow o = k.txFlow o) ∧
      (¬ there → k1.barred c.val pk = some stNoEndpoint) ∧ (there → absent → k1.barred c.val pk = some stUnitAbsent) ∧
      (there → ¬ absent → reachOk img k.rackNo (skein % 64) rack (addrIndex (epPkg rq.dst)) (epCore rq.dst) = false →
        k1.barred c.val pk = some stNoReach) ∧
      (there → ¬ absent → reachOk img k.rackNo (skein % 64) rack (addrIndex (epPkg rq.dst)) (epCore rq.dst) = true →
        (rq.opcode = opClasp → epPkg rq.dst ≠ k.addr → k1.barred c.val pk = some stNotLocal) ∧
        ((rq.opcode ≠ opClasp ∨ epPkg rq.dst = k.addr) → k1.barred c.val pk = if skein = 0xFF then some stNoReach else none))) ∧
    (∀ (dst : BitVec 16) (cls : BitVec 3), cls ≠ 2 →
      let key := flowKey dst.toNat cls.toNat 0
      let f := k.txFlow key
      let w := k.window k.idx (addrIndex dst.toNat) (addrRack dst.toNat) cls.toNat
      (f.waiting = [] → exec (.flowSend p dst cls) s = .next (s.setPkg p k)) ∧
      (∀ pk0 core rest, f.waiting = (pk0, core) :: rest → pk0.cls ≠ 2 →
        let pk := k.stamped core pk0
        (∀ st, k.barred core pk = some st → ∃ j : Pkg, exec (.flowSend p dst cls) s = .next (s.setPkg p j) ∧
          (j.txFlow key).waiting = rest ∧ (j.txFlow key).out = f.out ∧
          j.out = k.out ++ (if core < 192 then [.completion core pk.tag st []] else [])) ∧
        (k.barred core pk = none → w ≤ f.out.length → exec (.flowSend p dst cls) s = .next (s.setPkg p k)) ∧
        (k.barred core pk = none → f.out.length < w → (∀ o ∈ f.out, o.pk.cls ≠ 2) →
            (expectsResponse pk.opcode = true → pk.cls = 0 → k.respOut < k.reserve) → ∃ (j : Pkg) (o : TxOut),
          exec (.flowSend p dst cls) s = .next (s.setPkg p j) ∧
          o.pk = { pk with seq := f.seq, fgen := f.fgen, sgen := k.ret.pkgInc, newflow := !f.acked, birth := k.birth s.now } ∧
          o.sentAt = s.now ∧ o.resends = 0 ∧ o.core = core ∧ j.out = k.out ++ [.packet o.pk] ∧ j.regs = k.regs ∧
          (j.txFlow key).seq = f.seq + 1 ∧ (j.txFlow key).waiting = rest ∧ (j.txFlow key).out = f.out ++ [o]))) ∧
    (∀ pk : Packet, bits pk.addr.toNat 0 3 ≠ 2 →
      let key := flowKey (epPkg pk.src) (bits pk.addr.toNat 0 3) 0
      let f := k.txFlow key
      ((pk.fgen ≠ f.fgen ∨ (f.out = [] ∧ f.seq = 0)) →
        exec (.ack p pk) s = .next (s.setPkg p (k.newerSgen (epPkg pk.src) pk.sgen))) ∧
      (pk.fgen = f.fgen → (f.out ≠ [] ∨ f.seq ≠ 0) → pk.status = stResync → ∃ j : Pkg, exec (.ack p pk) s = .next (s.setPkg p j) ∧
        (j.txFlow key).seq = 0 ∧ (j.txFlow key).fgen = f.fgen + 1 ∧ (j.txFlow key).out = [] ∧ (j.txFlow key).acked = false ∧
        (j.txFlow key).waiting = f.waiting) ∧
      (pk.fgen = f.fgen → (f.out ≠ [] ∨ f.seq ≠ 0) → pk.status ≠ stResync → ∃ j : Pkg, exec (.ack p pk) s = .next (s.setPkg p j) ∧
        (j.txFlow key).acked = true ∧ (j.txFlow key).seq = f.seq ∧
        (j.txFlow key).out = f.out.filter (fun o => !(serialGt pk.seq o.pk.seq && !expectsResponse o.pk.opcode)) ∧
        ∀ o ∈ f.out, serialGt pk.seq o.pk.seq = true → expectsResponse o.pk.opcode = false → o.pk.cls ≠ 4 → o.core < 192 →
          Msg.completion o.core o.pk.tag pk.status [] ∈ j.out)) ∧
    (∀ (dst : BitVec 16) (cls : BitVec 3) (tree : Byte) (seq : Word) (o : TxOut), cls ≠ 2 → o.pk.cls ≠ 2 →
      let key := flowKey dst.toNat cls.toNat 0
      let f := k.txFlow key
      let limit := k.get (F.FAB_LINK_CFG_RETX_LIMIT 0)
      let again : Packet := { k.stamped o.core o.pk with birth := k.birth s.now, newflow := !f.acked, status := 0 }
      f.out.find? (fun x => x.pk.seq = seq) = some o →
      let late := o.sentAt + 1000000 * k.get (F.FAB_LINK_CFG_RETX_TIME 0) ≤ s.now
      (¬ late → exec (.retxTimeExpiry p dst cls tree seq) s = .next (s.setPkg p k)) ∧
      (late → limit ≤ o.resends + 1 → ∃ j : Pkg, exec (.retxTimeExpiry p dst cls tree seq) s = .next (s.setPkg p j) ∧
        (j.txFlow key).seq = 0 ∧ (j.txFlow key).fgen = f.fgen + 1 ∧ (j.txFlow key).out = [] ∧ (j.txFlow key).acked = false ∧
        Msg.packet again ∈ j.out ∧ (o.core < 192 → o.pk.cls ≠ 4 → Msg.completion o.core o.pk.tag stPathDown [] ∈ j.out)) ∧
      (late → o.resends + 1 < limit → ∃ j : Pkg, exec (.retxTimeExpiry p dst cls tree seq) s = .next (s.setPkg p j) ∧
        (∀ x ∈ (j.txFlow key).out, x.pk.seq = seq → x.resends = o.resends + 1 ∧ x.sentAt = s.now ∧ x.pk.birth = k.birth s.now ∧
          x.pk.epoch = k.stamp) ∧ (j.txFlow key).seq = f.seq ∧ (j.txFlow key).fgen = f.fgen ∧ j.out = k.out ++ [.packet again] ∧
        j.get (F.FAB_FLOW_EVENTS_RETRANSMITS (k.tileOf key)) = min 65535 (k.get (F.FAB_FLOW_EVENTS_RETRANSMITS (k.tileOf key)) + 1))) ∧
    (∀ pk : Packet,
      let c := epCore pk.dst
      let key := flowKey (epPkg pk.src) 0 0
      let hit := (k.txFlow key).out.find? (fun o => o.pk.seq = pk.seq && o.pk.fgen = pk.fgen && expectsResponse o.pk.opcode && o.core = c)
      (pk.incarnation = k.coreInc c → hit = none →
        exec (.responseArrival p pk) s = .next (s.setPkg p (k.newerSgen (epPkg pk.src) pk.sgen))) ∧
      (pk.incarnation ≠ k.coreInc c → ∃ j : Pkg, exec (.responseArrival p pk) s = .next (s.setPkg p j) ∧
        j.get (F.CORE_STALE_RESP_COUNT (c % 192)) = min 4294967295 (k.get (F.CORE_STALE_RESP_COUNT (c % 192)) + 1) ∧
        (∀ o, o ≠ R.CORE_STALE_RESP (c % 192) → j.rg o = k.rg o) ∧ j.out = k.out ∧
        ∀ o, hit = some o → (j.txFlow key).out = (k.txFlow key).out.erase o) ∧
      (∀ o, pk.incarnation = k.coreInc c → hit = some o → o.pk.cls ≠ 4 → c < 192 → ∃ j : Pkg,
        exec (.responseArrival p pk) s = .next (s.setPkg p j) ∧ (j.txFlow key).out = (k.txFlow key).out.erase o ∧ (j.txFlow key).acked = true ∧
          Msg.completion c o.pk.tag pk.status (if pk.poison then [] else pk.payload) ∈ j.out))

/-- R161, R162, R196, R198, R56: Table 7.7 for a packet that has reached its receiver; ACK_TIME; the sink of management packets, which discards what
meets it full before it is sequenced; the inbound store, at which the next request waits while it is full; and the service of a recorded
request, which a dark core answers with a poisoned UNIT_RESET and a placed segment with its data. -/
def Obligations.FlowReceiver : Prop :=
  ∀ (s : State) (p : PkgId),
    let k := s.pkg p
    (∀ pk : Packet, pk.cls ≠ 0 → pk.cls ≠ 4 → exec (.flowPacketReceive p pk) s = .next (s.setPkg p k)) ∧
    (∀ pk : Packet, pk.cls ≠ 4 → exec (.mgmtPacket p pk) s = .next (s.setPkg p k)) ∧
    (∀ (pk : Packet) (c : Instr), k.mem.grants = [] →
        ((c = .flowPacketReceive p pk ∧ (pk.cls = 0 ∨ pk.cls = 4)) ∨ (c = .mgmtPacket p pk ∧ pk.cls = 4)) →
      let key := flowOf pk
      let tile := k.tileOf key
      let next (f : Pkg → Prop) : Prop := ∃ j : Pkg, exec c s = .next (s.setPkg p j) ∧ j.mem = k.mem ∧ f j
      let same (j : Pkg) : Prop := j.fab.inbound = k.fab.inbound ∧ j.fab.sink = k.fab.sink ∧ j.fab.stalled = k.fab.stalled ∧ j.fab.tx = k.fab.tx
      (genCase (k.rxFlow key) pk = .stale → next fun j => j.fab = k.fab ∧ j.out = k.out ∧
        j.get (F.FAB_DISCARD_B_STALE_FLOW tile) = min 255 (k.get (F.FAB_DISCARD_B_STALE_FLOW tile) + 1)) ∧
      (genCase (k.rxFlow key) pk = .unknown → next fun j => j.fab = k.fab ∧
        j.get (F.FAB_FLOW_EVENTS_RESYNCS tile) = min 15 (k.get (F.FAB_FLOW_EVENTS_RESYNCS tile) + 1) ∧
        ∃ a : Packet, j.out = k.out ++ [.packet a] ∧ a.opcode = opAck ∧
          a.status = stResync ∧ a.fgen = pk.fgen ∧ a.dst = BitVec.ofNat 24 (epPkg pk.src * 256)) ∧
      (∀ f, ((genCase (k.rxFlow key) pk = .current ∧ k.rxFlow key = some f) ∨ (genCase (k.rxFlow key) pk = .fresh ∧ f = freshRx pk)) →
        let d := (pk.seq - f.next).toNat
        (512 ≤ d → d < 2147483648 → next fun j => same j ∧ j.rxFlow key = some f ∧ j.out = k.out ∧
          j.get (F.FAB_DISCARD_B_REORDER_FULL tile) = min 255 (k.get (F.FAB_DISCARD_B_REORDER_FULL tile) + 1)) ∧
        (pk.cls = 4 → 2147483648 ≤ d → next fun j => same j ∧ j.rxFlow key = some { f with unacked := 0, firstUnacked := none } ∧
          j.get (F.FAB_FLOW_EVENTS_DUPLICATES tile) = min 255 (k.get (F.FAB_FLOW_EVENTS_DUPLICATES tile) + 1) ∧
          ∃ a : Packet, j.out = k.out ++ [.packet a] ∧ a.opcode = opAck ∧ a.status = stOK ∧ a.seq = f.next ∧ a.fgen = f.fgen) ∧
        (d < 512 → f.held.any (fun h => h.seq = pk.seq) = true → next fun j => same j ∧ j.rxFlow key = some f ∧ j.out = k.out ∧
          j.regs = k.regs) ∧
        (d = 0 → f.held = [] → pk.cls = 0 → k.storeFull = true → next fun j => j.rxFlow key = some f ∧ j.out = k.out ∧
          j.fab.stalled = k.fab.stalled ++ [(200, pk)] ∧ j.fab.inbound = k.fab.inbound) ∧
        (d = 0 → f.held = [] → pk.cls = 4 → Config.turnOpcode pk.opcode = false → 1024 ≤ k.fab.sink.length → f.unacked < k.ackCountNow →
          next fun j => same j ∧ j.rxFlow key = some f ∧ j.out = k.out ∧
            j.get F.FLT_DROPS_MGMT_SINK = min 65535 (k.get F.FLT_DROPS_MGMT_SINK + 1)) ∧
        (d = 0 → f.held = [] → (pk.cls = 0 → k.storeFull = false) →
            (pk.cls = 4 → Config.turnOpcode pk.opcode = true ∨ k.fab.sink.length < 1024) → next fun j =>
          (∃ g, j.rxFlow key = some g ∧ g.next = f.next + 1 ∧ g.held = [] ∧ g.fgen = f.fgen ∧ g.sgen = f.sgen) ∧
          (pk.cls = 0 → j.fab.inbound = k.fab.inbound ++ [pk]) ∧
          (pk.cls = 4 → Config.turnOpcode pk.opcode = false → j.fab.sink = k.fab.sink ++ [pk]) ∧
          (∀ x, pk.cls = 4 → Config.turnOpcode pk.opcode = true → Config.turnMessage pk.opcode pk.payload = some x →
            j.chart.arrived = k.chart.arrived ++ [(x.1.val + 1, x.2)]) ∧
          (f.unacked + 1 < k.ackCountNow → j.out = k.out) ∧
          (k.ackCountNow ≤ f.unacked + 1 → ∃ a : Packet, j.out = k.out ++ [.packet a] ∧ a.opcode = opAck ∧ a.status = stOK ∧
            a.seq = f.next + 1 ∧ a.fgen = f.fgen)) ∧
        (0 < d → d < 512 → f.held.any (fun h => h.seq = pk.seq) = false → k.reorderUsed tile + storeSize pk ≤ 2097152 →
          f.held.all (fun h => h.seq ≠ f.next) = true → next fun j => same j ∧ ∃ g, j.rxFlow key = some g ∧ g.next = f.next ∧
            g.held = f.held ++ [pk]))) ∧
    (∀ (src : BitVec 16) (cls : BitVec 3) (tree : Byte),
      let key := flowKey src.toNat cls.toNat (tree.toNat % 128)
      ((k.rxFlow key).all (fun f => f.firstUnacked.all (fun t => s.now < t + 1000 * ackTime k.chart.active)) = true →
        exec (.ackTimeExpiry p src cls tree) s = .next (s.setPkg p k)) ∧
      (∀ f t, k.rxFlow key = some f → f.firstUnacked = some t → t + 1000 * ackTime k.chart.active ≤ s.now → ∃ (j : Pkg) (a : Packet),
        exec (.ackTimeExpiry p src cls tree) s = .next (s.setPkg p j) ∧ j.rxFlow key = some { f with unacked := 0, firstUnacked := none } ∧
          j.out = k.out ++ [.packet a] ∧ a.opcode = opAck ∧ a.status = stOK ∧ a.seq = f.next ∧ a.fgen = f.fgen)) ∧
    (k.fab.inbound = [] → k.fab.mesh = [] → exec (.requestServe p) s = .next (s.setPkg p k)) ∧
    (∀ rq : Packet, k.fab.inbound = [rq] → k.fab.mesh = [] → k.fab.stalled = [] →
        (∀ e ∈ k.fab.rx, e.1 / 128 % 8 = 0 → e.2.held = [] ∧ e.2.unacked < k.ackCountNow) →
        rq.pkg = false → addrRack (epPkg rq.src) = k.rackNo → k.paused (epCore rq.dst) = false →
      let c := epCore rq.dst
      let served (f : Pkg → Prop) : Prop := ∃ j : Pkg, exec (.requestServe p) s = .next (s.setPkg p j) ∧ j.fab.inbound = [] ∧ j.mem = k.mem ∧ f j
      (k.coreDark c = true → expectsResponse rq.opcode = true → served fun j => j.regs = k.regs ∧
        j.out = k.out ++ [.packet (k.response s.now rq stUnitReset true [])]) ∧
      (k.coreDark c = true → expectsResponse rq.opcode = false → served fun j => j.out = k.out ∧
        let n := F.FAB_DISCARD_A_STANDIN (k.crossTile false rq)
        j.get n = min 255 (k.get n + 1)) ∧
      (∀ tier off l, k.coreDark c = false → k.pstate c < 2 → rq.opcode = opRead →
          k.locate c (bits rq.addr.toNat 0 44) rq.want = .place tier off l → tier < 3 → k.tierDark c tier off rq.want = false →
        let x := tierSpace c tier off
        k.spaceIsolated x.1 x.2 rq.want = false → (linesOf (memKey p x.1 x.2) rq.want).any k.mem.poison.contains = false →
        served fun j => j.regs = k.regs ∧ j.out = k.out ++ [.packet (k.response s.now rq stOK false (memRead s.mem (memKey p x.1 x.2) rq.want))]))

/-! ### Dark units and resets -/

/-- R56–R60, R324, R375 and the resets of the host port: a unit that goes dark answers what was recorded for it, and a package tells its
links; the reset of a unit raises the incarnation number of each of its cores by 1, and waits until 100 µs after the last increment; the
reset of a package raises all of them, and forgets its memory (the model's reading, log 38). An isolated host port stays in reset (log 96). -/
def Obligations.UnitResets : Prop :=
  ∀ (s : State) (p : PkgId),
    let k := s.pkg p
    let pos := s.posn (PkgId.tray p) (PkgId.pos p)
    (∀ (u : DarkUnit) (cause : DarkCause), ∃ t, exec (.unitDark p u cause) s = .next t ∧ ((t.pkg p).dark.dark.contains (u, cause) = true) ∧
      ∀ e ∈ k.dark.dark, e ∈ (t.pkg p).dark.dark) ∧
    (∀ u : DarkUnit, u ≠ .package → k.resetReady u ≤ s.now → ∃ t, exec (.unitDark p u .reset) s = .next t ∧
      ∀ c, (t.pkg p).coreInc c = k.coreInc c + (if c ∈ k.unitCores u then 1 else 0)) ∧
    (∀ c : Core, ∃ t, exec (.unitDark p (.core c) .reset) s = .next t ∧
      (∀ rq ∈ k.fab.inbound, rq.pkg = false → epCore rq.dst = c.val → expectsResponse rq.opcode = true →
        Msg.packet (k.response s.now rq stUnitReset true []) ∈ (t.pkg p).out) ∧
      (∀ rq ∈ (t.pkg p).fab.inbound, rq.pkg = true ∨ epCore rq.dst ≠ c.val)) ∧
    (∀ u : DarkUnit, u ≠ .package → s.now < k.resetReady u → ∃ t, exec (.unitDark p u .reset) s = .next t ∧
      (∀ c, (t.pkg p).coreInc c = k.coreInc c) ∧ (t.pkg p).dark.heldResets = k.dark.heldResets ++ [u]) ∧
    (∀ u, u ≠ .package → (k.dark.heldResets.contains u = false ∨ s.now < k.resetReady u) →
      exec (.resetHoldExpiry p u) s = .next (s.setPkg p k)) ∧
    (∀ u : DarkUnit, u ≠ .package → k.dark.heldResets.contains u = true → k.resetReady u ≤ s.now → ∃ t,
      exec (.resetHoldExpiry p u) s = .next t ∧ (∀ c, (t.pkg p).coreInc c = k.coreInc c + (if c ∈ k.unitCores u then 1 else 0)) ∧
        (t.pkg p).dark.heldResets = k.dark.heldResets.erase u) ∧
    (k.dark.heldResets.contains .package = true → k.resetReady .package ≤ s.now → pos.step ≠ 4 → ∃ t,
      exec (.resetHoldExpiry p .package) s = .next t ∧ (t.pkg p).ret.pkgInc = k.ret.pkgInc + 1 ∧
        t.mem = memErase s.mem (memKey p 0 0) (3 * 2 ^ 64)) ∧
    (k.flt.fencedAt = none → exec (.hubReset p) s = .next s) ∧
    (∀ f, k.flt.fencedAt = some f → (s.now < f + 100000000 ∨ s.now < k.resetReady .package) → exec (.hubReset p) s = .next s) ∧
    (∀ (f : Nat) (c : Instr),
        ((c = .pkgReset p ∧ (pos.pwrGood = false ∨ s.quarantined p = [])) ∨ (c = .hubReset p ∧ k.flt.fencedAt = some f ∧ f + 100000000 ≤ s.now)) →
      k.resetReady .package ≤ s.now → ∃ t, exec c s = .next t ∧ (t.pkg p).ret.pkgInc = k.ret.pkgInc + 1 ∧
        (∀ d, d < 192 → (t.pkg p).coreInc d = k.coreInc d + 1) ∧ (t.pkg p).ret.lw = k.ret.lw ∧
        t.mem = memErase s.mem (memKey p 0 0) (3 * 2 ^ 64) ∧ (t.pkg p).upd.bank0 = k.upd.bank0 ∧ (t.pkg p).upd.bank1 = k.upd.bank1) ∧
    (s.now < k.resetReady .package → ∃ t, exec (.pkgReset p) s = .next t ∧ (t.pkg p).ret.pkgInc = k.ret.pkgInc ∧
      (t.pkg p).pkgDark = true ∧ (t.pkg p).dark.heldResets.contains .package = true ∧ t.mem = s.mem ∧
      ∀ q ∈ k.activePorts, Msg.notice q 0 ∈ (t.pkg p).out) ∧
    (∀ gts width, (gts < 16 ∨ width < 8 ∨ 3 ≤ k.unitState 251) → ∃ j : Pkg, exec (.hostPortReset p gts width) s = .next (s.setPkg p j) ∧
      j.pkc.hostInReset = true ∧ (∀ e ∈ k.mem.segs, e.1 < 12288 → e.2.tier = 5 → j.segStatus (e.1 / 64) (e.1 % 64) = 6) ∧
      (∀ e, e ∈ j.mem.segs ↔ e ∈ k.mem.segs ∧ e.2.tier ≠ 5)) ∧
    (∀ gts width, 16 ≤ gts → 8 ≤ width → k.unitState 251 < 3 → ∃ j : Pkg, exec (.hostPortReset p gts width) s = .next (s.setPkg p j) ∧
      j.pkc.hostInReset = false ∧ j.pkc.hostGts = gts ∧ j.pkc.hostWidth = width ∧ j.mem = k.mem ∧ j.regs = k.regs)

/-! ### Casts, tally rounds, congestion maps and weights -/

/-- R169–R173, R133: a cast is refused at its sender or joins its cast flow; a cast that arrives for a tree the package is not on, or that the turn
changes, is an orphan, and one of its tree leaves by every tree port but the one it came by; CAST_WRITE writes at the core that DST names, and
CAST_SIGNAL raises its event there. -/
def Obligations.Casts : Prop :=
  ∀ (s : State) (p : PkgId),
    let k := s.pkg p
    (∀ (c : Core) (kind : BitVec 2) (tree : Fin 64) (dst : Byte) (addr : BitVec 44) (data : List Byte) (i : Instr) (op : Byte),
        ((op = 0x10 ∧ i = .castWrite p c kind tree dst addr data) ∨ (op = 0x11 ∧ data = [] ∧ i = .castSignal p c kind tree dst addr)) →
      let fits := data.length ≤ 32 + 64 * (treeBuffer (k.tree tree.val) - 1)
      let key := flowKey k.addr 2 (if kind = 1 then tree.val else if kind = 2 then 64 else 65)
      ((kind = 0 ∨ k.coreDark c.val = true) → exec i s = .next (s.setPkg p k)) ∧
      (kind = 1 → k.coreDark c.val = false → k.treeHeld tree.val = true →
        exec i s = .next (s.setPkg p ((k.issues c.val).emit (.completion c.val 0 stTurnHold [])))) ∧
      (kind = 1 → k.coreDark c.val = false → k.treeHeld tree.val = false → onTree (k.tree tree.val) k.idx = true → ¬ fits →
        exec i s = .next (s.setPkg p ((k.issues c.val).emit (.completion c.val 0 stAccessError [])))) ∧
      (kind ≠ 0 → k.coreDark c.val = false →
          (kind = 1 → k.treeHeld tree.val = false ∧ onTree (k.tree tree.val) k.idx = true ∧ fits) →
        ∃ (j : Pkg) (pk : Packet), exec i s = .next (s.setPkg p j) ∧ pk.opcode = op ∧ pk.castKind = kind ∧ pk.cls = 2 ∧ pk.payload = data ∧
          pk.addr = addr.zeroExtend 64 ∧ pk.dst = dst.zeroExtend 24 ∧ (kind = 1 → pk.tree.toNat = tree.val) ∧ (kind ≠ 1 → pk.tree = 0) ∧
          (j.txFlow key).waiting = (k.txFlow key).waiting ++ [(pk, c.val)] ∧ j.regs = (k.issues c.val).regs ∧ j.out = k.out)) ∧
    (∀ (q : Port) (pk : Packet), pk.cls ≠ 2 → exec (.castArrive p q pk) s = .next (s.setPkg p k)) ∧
    (∀ (q : Port) (pk : Packet) (d : Fld), pk.cls = 2 →
        ((k.tables pk.epoch = [] ∧ d = F.FAB_DISCARD_A_EPOCH (portTile q.val)) ∨
          (k.tables pk.epoch ≠ [] ∧ pk.castKind = 1 ∧ (onTree (k.tree pk.tree.toNat) k.idx = false ∨ k.serves pk = false) ∧
            d = F.FAB_CAST_EVENTS_CAST_ORPHAN (portTile q.val))) → ∃ (j : Pkg) (l : List Msg),
      exec (.castArrive p q pk) s = .next (s.setPkg p j) ∧ j.fab = k.fab ∧ j.out = k.out ++ l ∧
        (∀ m ∈ l, ∃ b : Block, m = .block q.val b ∧ b.dataFlits = 0) ∧ j.get d = min 255 (k.get d + 1)) ∧
    (∀ (q : Port) (pk : Packet), pk.cls = 2 → pk.castKind = 1 → k.tables pk.epoch ≠ [] → onTree (k.tree pk.tree.toNat) k.idx = true →
        k.serves pk = true → k.isPlane q.val = false → ∃ t, exec (.castArrive p q pk) s = .next t ∧
      ∀ o ∈ k.treePorts pk.tree.toNat, o ≠ q.val → (k.port o).state ≠ .peerDark →
        ⟨pk, q.val, bufKey false pk, k.rt.arrivals⟩ ∈ ((t.pkg p).port o).outQ) ∧
    (∀ (q : Port) (pk : Packet) (f : RxFlow), pk.cls = 2 → pk.castKind = 2 ∨ pk.castKind = 3 → k.tables pk.epoch ≠ [] →
        bits pk.dst.toNat 0 6 < 48 → k.coreDark (epCore pk.dst) = false → k.pstate (epCore pk.dst) < 2 → k.mem.grants = [] →
        genCase (k.rxFlow (flowOf pk)) pk = .current → k.rxFlow (flowOf pk) = some f → pk.seq = f.next → f.held = [] →
      let a := bits pk.addr.toNat 0 44
      let taken (j : Pkg) : Prop := ∃ g, j.rxFlow (flowOf pk) = some g ∧ g.next = f.next + 1
      (pk.opcode = 0x11 → ∃ j : Pkg, exec (.castArrive p q pk) s = .next (s.setPkg p j) ∧ taken j ∧ Msg.signal (epCore pk.dst) a ∈ j.out) ∧
      (∀ tier off l, pk.opcode = 0x10 → k.locate (epCore pk.dst) a pk.payload.length = .place tier off l → tier = 1 ∨ tier = 2 →
        k.tierDark (epCore pk.dst) tier off pk.payload.length = false →
        let x := tierSpace (epCore pk.dst) tier off
        k.spaceIsolated x.1 x.2 pk.payload.length = false → ∃ j : Pkg, taken j ∧
        exec (.castArrive p q pk) s = .next ({ s with mem := memWrite s.mem (memKey p x.1 x.2) pk.payload }.setPkg p j)))

/-- R177–R181, R184: a contribution is refused, held or taken; a package without children and with LOCAL = 1 sends its round up at once, merged,
with the completion of its core; a contribution for a closed round is late; a round that has waited MERGE_WAIT goes up with PATH_DOWN. -/
def Obligations.TallyRounds : Prop :=
  ∀ (s : State) (p : PkgId),
    let k := s.pkg p
    let idle := k.tally.slots = [] ∧ k.tally.waiting = []
    let slot (t : Nat) (pk : Packet) : Queued := ⟨pk, 24 + t % 2, 3, k.rt.arrivals⟩
    (∀ (x : Contribution) (op : Byte) (src : Nat) (i : Instr),
        ((∃ c : Core, src = c.val ∧ ((op = opSum ∧ i = .tallySum p c x) ∨ (op = opMax ∧ i = .tallyMax p c x) ∨
            (op = opMin ∧ i = .tallyMin p c x))) ∨
          (∃ e : Fin 196, src = e.val ∧ op = opTopk ∧ i = .tallyTopk p e x)) →
      let t := x.tree.val
      let r := k.tree t
      let dark := if src < 192 then k.coreDark src else k.dark.dark.any (fun e => engineOf e.1 src)
      let last := sfind k.tally.last (64 * src + t)
      (dark = true → exec i s = .next (s.setPkg p k)) ∧
      (dark = false → k.treeHeld t = true → exec i s = .next (s.setPkg p ((k.issues src).emit (.completion src 0 stTurnHold [])))) ∧
      (∀ l, dark = false → k.treeHeld t = false → onTree r k.idx = true → treeReverse r = true → last = some l → serialGt x.seq l = false →
        exec i s = .next (s.setPkg p ((k.issues src).emit (.completion src 0 stAccessError [])))) ∧
      (∀ n q, dark = false → k.treeHeld t = false → onTree r k.idx = true → treeReverse r = true →
          (∀ l, last = some l → serialGt x.seq l = true) → idle → k.tally.closed.contains (t, x.seq) = false →
          0 < k.window k.idx (treeRoot r) k.rackNo 3 → treeChildren r k.idx = [] → treeRoot r ≠ k.idx → treeParent r k.idx = some (n, q) →
          (k.port q).state ≠ .peerDark → k.get (F.FAB_TREE_STATE_LOCAL (t % 2) t) = 1 → 4 ≤ x.payload.length → x.payload.length ≤ 4096 →
          (op = opTopk → (tFormat x.addr.toNat = 4 ∨ tFormat x.addr.toNat = 5) ∧ 1 ≤ tK x.addr.toNat ∧ tK x.addr.toNat ≤ 512 ∧
            x.payload.length % 8 = 0 ∧ topSorted (tFormat x.addr.toNat) (tDesc x.addr.toNat) (elements (tFormat x.addr.toNat) x.payload) = true) →
          (op ≠ opTopk → tFormat x.addr.toNat ≤ 3 ∧ tK x.addr.toNat = 0 ∧ x.payload.length % elemBytes (tFormat x.addr.toNat) = 0) →
        ∃ (j : Pkg) (up : Packet), exec i s = .next (s.setPkg p j) ∧ (j.port q).outQ = (k.port q).outQ ++ [slot t up] ∧
          up.payload = (combine op x.addr.toNat [x.payload]).1 ∧ up.opcode = op ∧ up.status = stOK ∧ up.seq = x.seq ∧ up.dst = x.dst ∧
          up.pkg = true ∧ up.cls = 3 ∧ Msg.completion src 0 stOK [] ∈ j.out ∧ j.tally.slots = [] ∧
          j.tally.closed.contains (t, x.seq) = true ∧ sfind j.tally.last (64 * src + t) = some x.seq)) ∧
    (∀ (inp : Fin 64) (pk : Packet), (pk.cls ≠ 3 ∨ 24 ≤ inp.val) → exec (.tallyArrive p inp pk) s = .next (s.setPkg p k)) ∧
    (∀ (inp : Fin 64) (pk : Packet), pk.cls = 3 → inp.val < 24 →
      let t := pk.tree.toNat
      let c1 := F.FAB_CAST_EVENTS_CAST_ORPHAN (portTile inp.val)
      let c2 := F.FAB_CAST_EVENTS_TALLY_LATE (t % 2)
      (k.tallyExpected inp.val pk = false → ∃ j : Pkg, exec (.tallyArrive p inp pk) s = .next (s.setPkg p j) ∧ j.tally = k.tally ∧
        j.fab = k.fab ∧ j.get c1 = min 255 (k.get c1 + 1)) ∧
      (k.tallyExpected inp.val pk = true → idle → k.tally.closed.contains (t, pk.seq) = true → ∃ j : Pkg,
        exec (.tallyArrive p inp pk) s = .next (s.setPkg p j) ∧ j.tally = k.tally ∧ j.get c2 = min 255 (k.get c2 + 1)) ∧
      (k.tallyExpected inp.val pk = true → idle → k.tally.closed.contains (t, pk.seq) = false → k.isPlane inp.val = false →
          1 ≤ k.get (F.FAB_TREE_STATE_LOCAL (t % 2) t) → ∃ (j : Pkg) (x : MergeSlot), exec (.tallyArrive p inp pk) s = .next (s.setPkg p j) ∧
        j.tally.slots = [x] ∧ x.tree = t ∧ x.seq = pk.seq ∧ x.opcode = pk.opcode ∧ x.dst = pk.dst ∧ x.closed = false ∧
          x.parts.length = 1 ∧ x.openedAt = s.now)) ∧
    (∀ (tree : Fin 64) (seq : Word),
      let wait := 100000 * k.get (F.FAB_TREE_CFG_MERGE_WAIT 0)
      ((∀ x ∈ k.tally.slots, x.tree = tree.val → x.seq = seq → x.closed = true ∨ s.now < x.openedAt + wait) →
        exec (.mergeWaitExpiry p tree seq) s = .next (s.setPkg p k)) ∧
      (∀ x n q, k.tally.slots = [x] → k.tally.waiting = [] → x.tree = tree.val → x.seq = seq → x.closed = false →
          x.openedAt + wait ≤ s.now → treeRoot (k.tree tree.val) ≠ k.idx → treeParent (k.tree tree.val) k.idx = some (n, q) →
          (k.port q).state ≠ .peerDark → ∃ (j : Pkg) (up : Packet), exec (.mergeWaitExpiry p tree seq) s = .next (s.setPkg p j) ∧
        (j.port q).outQ = (k.port q).outQ ++ [slot tree.val up] ∧ 5 ≤ up.status.toNat ∧ up.seq = seq ∧ j.tally.slots = [] ∧
        j.tally.closed.contains (tree.val, seq) = true))

/-- R186–R190: every output port's level is sampled, and a map agent passes its sink on (then: the model's choice, log 71); once in each
millisecond a package in service sends NOW and PEAK of its 24 ports by its first link to the map agent's plane and clears the reported
PEAK (layout and agent: the model's choice, log 74); the entries of a WEIGHT_WRITE apply together or not at all; after WEIGHT_HOLD the
weights are static again. -/
def Obligations.MapsAndWeights : Prop :=
  (∀ (s : State) (r : RouterId), ∃ m : RouterSt, exec (.mapSample r) s = .next (s.setRouter r m) ∧ m.sink = [] ∧
    m.out = (s.router r).out ++ (s.router r).sink.map Msg.bridged ∧ ∀ q : Fin 288,
      let x := (s.router r).port q.val
      let level := min 255 (((x.outQ.map (fun e => flits e.pk)).foldl (· + ·) 0 + 3) / 4)
      let y := m.port q.val
      y.now = level ∧ y.peakRead = max x.peakRead level ∧ y.peakReport = max x.peakReport level ∧ y.outQ = x.outQ ∧ y.state = x.state) ∧
  ∀ (s : State) (p : PkgId),
    let k := s.pkg p
    let round := if k.time s.now < 8000 * k.idx then 0 else (k.time s.now - 8000 * k.idx) / 1000000 + 1
    let plane := s.mapAgent p.rack
    ((k.pkgDark = true ∨ round ≤ k.fab.reported) → exec (.mapReport p) s = .next (s.setPkg p k)) ∧
    (k.pkgDark = false → k.fab.reported < round → (k.port (20 + plane)).state ≠ .peerDark → ∃ (j : Pkg) (pk : Packet),
      exec (.mapReport p) s = .next (s.setPkg p j) ∧ pk.opcode = 0x28 ∧ pk.cls = 4 ∧ pk.pkg = true ∧
      pk.dst = BitVec.ofNat 24 (merAddr k.rackNo plane * 256) ∧
      pk.payload = (List.range 24).flatMap (fun q => [BitVec.ofNat 8 (k.port q).now, BitVec.ofNat 8 (k.port q).peakReport]) ∧
      (j.port (20 + plane)).outQ = (k.port (20 + plane)).outQ ++ [⟨pk, 25, 4, k.rt.arrivals⟩] ∧ j.fab.reported = round ∧ j.out = k.out ∧
      (∀ q : Port, (j.port q.val).peakReport = 0 ∧ (j.port q.val).now = (k.port q.val).now ∧
        (j.port q.val).peakRead = (k.port q.val).peakRead) ∧ j.regs = k.regs) ∧
    (∀ es : List Word, es.all weightOk = false → ∃ j : Pkg, exec (.weightWrite p es) s = .next (s.setPkg p j) ∧ OnlyRegs k j ∧
      j.get (F.FAB_DISCARD_B_BAD_HEADER 0) = min 255 (k.get (F.FAB_DISCARD_B_BAD_HEADER 0) + 1) ∧
      ∀ o, o ≠ R.FAB_DISCARD_B 0 → j.rg o = k.rg o) ∧
    (∀ es : List Word, es.all weightOk = true → ∃ j : Pkg, exec (.weightWrite p es) s = .next (s.setPkg p j) ∧
      j.get (F.FAB_WEIGHT_STATUS_STALE 0) = 0 ∧ j.fab.weightAt = s.now ∧ j.out = k.out ∧
      (∀ a w b, es = a ++ w :: b → (∀ v ∈ b, weightKind v ≠ weightKind w ∨ weightIndex v ≠ weightIndex w) →
        (weightKind w = 0 → j.get (F.FAB_WEIGHT_MIS_SHARE 0 (weightIndex w)) = bits w.toNat 16 8 ∧
          j.get (F.FAB_WEIGHT_MIS_PLANE 0 (weightIndex w)) = bits w.toNat 24 2) ∧
        (weightKind w = 1 → j.get (F.FAB_PLANE_SPREAD_SECOND 0 (weightIndex w)) = bits w.toNat 16 8))) ∧
    (s.now < k.fab.weightAt + 1000000 * k.get (F.FAB_TREE_CFG_WEIGHT_HOLD 0) → exec (.weightHoldExpiry p) s = .next (s.setPkg p k)) ∧
    (k.fab.weightAt + 1000000 * k.get (F.FAB_TREE_CFG_WEIGHT_HOLD 0) ≤ s.now → ∃ j : Pkg,
      exec (.weightHoldExpiry p) s = .next (s.setPkg p j) ∧ OnlyRegs k j ∧ j.get (F.FAB_WEIGHT_STATUS_STALE 0) = 1 ∧
      (∀ d, d < 96 → j.get (F.FAB_WEIGHT_MIS_SHARE 0 d) = 0 ∧ j.get (F.FAB_WEIGHT_MIS_PLANE 0 d) = k.get (F.FAB_WEIGHT_MIS_PLANE 0 d)) ∧
      (∀ q, q < 4 → j.get (F.FAB_PLANE_SPREAD_SECOND 0 q) = 128))

/-! ### Bearing search -/

/-- R208–R212, R214, R215, Table 10.2, where no block waits to be taken: the staged block and a write that covers a watched area are taken by the
engines they reach; a write to a core that sleeps waits for it; an engine held off takes none; a query that fails a check ends at once with
its code; the head of the queue starts when nothing runs; a query whose scan was whole ends OK or POISON_SKIPPED, and SOURCE_LOST after a
loss, and sets BRG_LAST and its code; ABORT ends the running query and all that wait with ABORTED. -/
def Obligations.BearingQueries : Prop :=
  ∀ (s : State) (p : PkgId) (t : Tile), (s.pkg p).mem.written = [] →
    let k := s.pkg p
    let e := k.engine t.val
    let made (b : List Byte) : Query := ⟨b, (k.shardList t.val (qCollection b)).map (fun r => (r.base, r.sketches, r.shard)), k.mergeTree (qCollection b)⟩
    let ended (j : Pkg) (b : List Byte) (code n : Nat) : Prop := j.rg (R.BRG_LAST t.val) = qRound b ∧
      j.rg (R.BRG_LAST_CODE t.val) = BitVec.ofNat 32 (n * 65536 + code)
    (∀ who, Open s p who (R.BRG_HOSTQ_GO t.val) →
      let b := k.hostBlock t.val
      (k.engineOff t.val = true → ∃ j : Pkg, SamePkg k j ∧ exec (.hostqGo p who t) s = .next (s.wrote p who (R.BRG_HOSTQ_GO t.val) s.mem j)) ∧
      (k.engineOff t.val = false → k.takeOutcome t.val b = none → ∃ j : Pkg,
        exec (.hostqGo p who t) s = .next (s.wrote p who (R.BRG_HOSTQ_GO t.val) s.mem j) ∧ (j.engine t.val).queue = e.queue ++ [made b] ∧
          (j.engine t.val).running = e.running ∧ j.domainOn (388 + t.val) = true ∧ j.cFurled t.val = false) ∧
      (∀ code, k.engineOff t.val = false → k.takeOutcome t.val b = some code → ∃ r, exec (.hostqGo p who t) s = .next r ∧
        ended (r.pkg p) b code 0 ∧ ((r.pkg p).engine t.val).queue = e.queue)) ∧
    (∀ (c : Core) (off : Fin 1572864) (data : List Byte), k.coreDark c.val = true → exec (.queryWrite p c off data) s = .next (s.setPkg p k)) ∧
    (∀ (c : Core) (off : Fin 1572864) (data : List Byte), k.coreDark c.val = false → 2 ≤ k.pstate c.val → off.val + data.length ≤ 1572864 →
      ∃ j : Pkg, exec (.queryWrite p c off data) s = .next (s.setPkg p j) ∧ j.brg = k.brg ∧ j.aon.waking.contains c.val = true ∧
        j.mem.writes = k.mem.writes ++ [(c.val, Config.storeWindow.toNat + off.val, data)]) ∧
    (∀ (c : Core) (off : Fin 1572864) (data : List Byte), k.coreDark c.val = false → k.pstate c.val < 2 → k.mem.writes = [] →
        off.val + data.length ≤ 1572864 → k.claspBars none c.val off.val data.length = none →
      ((∀ u, u < 4 → k.get (F.BRG_QCFG_STEWARD u) ≠ c.val) → ∃ j : Pkg, exec (.queryWrite p c off data) s =
        .next ({ s with mem := memWrite s.mem (memKey p 2 (storeOff c.val off.val)) data }.setPkg p j) ∧ j.brg = k.brg) ∧
      (∀ b, k.areaBlock t.val c.val off.val data = some b → (∀ u, u < 4 → u ≠ t.val → k.areaBlock u c.val off.val data = none) →
          k.engineOff t.val = false → k.takeOutcome t.val b = none → ∃ j : Pkg, exec (.queryWrite p c off data) s =
        .next ({ s with mem := memWrite s.mem (memKey p 2 (storeOff c.val off.val)) data }.setPkg p j) ∧
          (j.engine t.val).queue = e.queue ++ [made b])) ∧
    ((e.running ≠ none ∨ e.queue = [] ∨ k.engineOff t.val = true) → exec (.queryStart p t) s = .next (s.setPkg p k)) ∧
    (∀ q rest, e.running = none → e.queue = q :: rest → k.engineOff t.val = false → ∃ j : Pkg,
      exec (.queryStart p t) s = .next (s.setPkg p j) ∧ j.engine t.val = ⟨rest, some q, s.now, false,
        (List.range 8).filter (fun st => q.reads st && k.stackDark st), []⟩ ∧ j.regs = k.regs) ∧
    (∀ offs, e.running = none → exec (.queryEnd p ⟨t, offs⟩) s = .next (s.setPkg p k)) ∧
    (∀ q offs, e.running = some q →
      let l := e.readSketches q s.free
      let x := scanAll p (scanMemory (s.free + 1) e.before s.mem) k.mem.poison q.block l
      let lost := e.lost = true ∨ e.dead ≠ []
      (e.lost = false → e.dead = [] → e.before = [] → l = scanOrder q.shards ∧
        x = scanAll p s.mem k.mem.poison q.block (scanOrder q.shards)) ∧
      (∃ n, l = (scanOrder q.shards).take n) ∧
      ∃ r, exec (.queryEnd p ⟨t, offs⟩) s = .next r ∧ ((r.pkg p).engine t.val).running = none ∧
        (lost → ended (r.pkg p) q.block 7 x.kept.length) ∧
        (¬ lost → ended (r.pkg p) q.block (if x.skipped = 0 then 0 else 6) x.kept.length)) ∧
    (∀ who, Open s p who (R.BRG_CTRL t.val) →
      (∃ r, exec (.brgAbort p who t) s = .next r ∧ ((r.pkg p).engine t.val).running = none ∧ ((r.pkg p).engine t.val).queue = []) ∧
      (∀ q, (e.running.toList ++ e.queue).getLast? = some q → ∃ r, exec (.brgAbort p who t) s = .next r ∧ ended (r.pkg p) q.block 8 0))

/-- R206, R212, R213: what a scan of a list of sketches keeps: the entries ascend, are at most K_SCAN and lie within MAX_DIST; every sketch
listed is either compared or skipped; and a sketch that is compared within MAX_DIST is kept, unless K_SCAN entries not above it are. -/
def Obligations.ScanKeepsNearest : Prop :=
  ∀ (p : PkgId) (m : Mem) (poison : List Nat) (b : List Byte) (l : List ((Nat × Nat × Nat) × Nat)),
    let x := scanAll p m poison b l
    let len := 16 * qUnits b
    let limit := if qMaxDist b = 0xFFFF then 2048 else qMaxDist b
    x.kept.Pairwise (· ≤ ·) ∧ x.kept.length ≤ qKScan b ∧ x.scanned + x.skipped = l.length ∧
    ∀ e ∈ l,
      let key := memKey p 0 (e.1.1 + len * e.2)
      let d := distance (memRead m key len) (slice b 64 len)
      let entry := d * 2 ^ 48 + e.1.2.2 * 2 ^ 32 + e.2
      (linesOf key len).any poison.contains = false → d ≤ limit →
        entry ∈ x.kept ∨ (x.kept.length = qKScan b ∧ ∀ y ∈ x.kept, y ≤ entry)

/-! ### The package's power -/

/-- R232, R233, Table 11.2: the ladder cap is written by the tray controller alone; a cap on its range and grid is taken, EFFECTIVE and LIMITER follow
and EFFECTIVE exceeds no limit in force; another sets REJECT and leaves the cap.
R221, R240, R243, R302: who asserts the brake line, and who lets it go: the shelves above 52.0 V with both feeds, and the helm when every
package has acknowledged a cap computed with S no more than C (the model's reading, log 87) and 10 ms have passed. -/
def Obligations.PackageCapsAndBrake : Prop :=
  (∀ (s : State) (p : PkgId) (who : Requester) (w : Word),
     let k := s.pkg p
     let taken (off : Nat) (f : Fld) (i : Instr) : Prop := ∃ j : Pkg, exec i s = .next (s.wrote p who off s.mem j) ∧
       j.get f = w.toNat % 2048 ∧ j.effective = j.capLimit.2 ∧ j.get F.PWR_CAP_STATUS_LIMITER = j.capLimit.1 ∧
       (∀ l ∈ j.baseLimits, j.effective ≤ l.2) ∧ ∀ o, o ≠ off → o ≠ R.PWR_CAP_STATUS → j.rg o = k.rg o
     let rejected (off : Nat) (i : Instr) : Prop := ∃ j : Pkg, exec i s = .next (s.wrote p who off s.mem j) ∧ OnlyRegs k j ∧
       j.get F.PWR_CAP_STATUS_REJECT = 1 ∧ j.effective = k.effective ∧ ∀ o, o ≠ R.PWR_CAP_STATUS → j.rg o = k.rg o
     let good := 150 ≤ w.toNat % 2048 ∧ w.toNat % 2048 ≤ 1150 ∧ w.toNat % 2048 % 5 = 0
     (Open s p who R.PWR_LADDER_CAP →
       (who ≠ .cw → exec (.pwrLadderCapWrite p who w) s = .next (s.wrote p who R.PWR_LADDER_CAP s.mem k)) ∧
       (who = .cw → good → taken R.PWR_LADDER_CAP F.PWR_LADDER_CAP_CAP (.pwrLadderCapWrite p who w)) ∧
       (who = .cw → ¬ good → rejected R.PWR_LADDER_CAP (.pwrLadderCapWrite p who w))) ∧
     (Open s p who R.PWR_HOST_CAP →
       (good → taken R.PWR_HOST_CAP F.PWR_HOST_CAP_CAP (.pwrHostCapWrite p who w)) ∧
       (¬ good → rejected R.PWR_HOST_CAP (.pwrHostCapWrite p who w)))) ∧
  (∀ (s : State) (rack : Fin 32),
     let x := s.rack rack
     let line (b : Bool) (y : RackSt) : Prop := y.out = x.out ++ (if y.brake == x.brake then [] else [Msg.line "BRAKE" y.brake]) ∧
       (b = true → x.brake = false → y.brakeAt = s.now) ∧ y.feedA = x.feedA ∧ y.feedB = x.feedB ∧ y.caps = x.caps
     (∀ mv, 50000 ≤ mv → exec (.busbarBrakeAssertion rack mv) s = .next (s.setRack rack x)) ∧
     (∀ mv, mv < 50000 → ∃ y : RackSt, exec (.busbarBrakeAssertion rack mv) s = .next (s.setRack rack y) ∧ y.brakeShelf = true ∧ line true y) ∧
     (∀ mv : Int, (x.feedA = false ∨ x.feedB = false ∨ mv < 52000) → exec (.shelfAutoRelease ⟨rack, mv⟩) s = .next (s.setRack rack x)) ∧
     (∀ mv : Int, x.feedA = true → x.feedB = true → 52000 ≤ mv → ∃ y : RackSt, exec (.shelfAutoRelease ⟨rack, mv⟩) s = .next (s.setRack rack y) ∧ y.brakeShelf = false ∧
       y.brakeTest = x.brakeTest ∧ line false y) ∧
     (s.noHelm rack → exec (.almanacBrakeRelease rack) s = .next s) ∧
     (∀ a, s.helm rack = some a → ((∃ e ∈ x.caps, x.acked.contains e.1 = false) ∨ x.single < x.effCap (s.alm a).log.siteCapW ∨ s.now < max x.brakeAt (s.alm a).brakeFrom + 10000000) →
       exec (.almanacBrakeRelease rack) s = .next s) ∧
     (∀ a, s.helmActs rack a → (∀ e ∈ x.caps, x.acked.contains e.1 = true) → x.effCap (s.alm a).log.siteCapW ≤ x.single → max x.brakeAt (s.alm a).brakeFrom + 10000000 ≤ s.now →
       ∃ t, exec (.almanacBrakeRelease rack) s = .next t ∧ (t.rack rack).brakeShelf = false ∧ (t.rack rack).brakeTest = x.brakeTest ∧
         line false (t.rack rack)) ∧
     (∀ ms, s.noHelm rack → exec (.brakeTest rack ms) s = .next (s.http ⟨rack, false⟩ 503 "RETRY")) ∧
     (∀ h ms, s.helmActs rack h → (ms = 0 ∨ 1000 < ms) → exec (.brakeTest rack ms) s = .next (s.http h 400 "BAD_VALUE")) ∧
     (∀ h ms, s.helmActs rack h → 1 ≤ ms → ms ≤ 1000 → ∃ t, exec (.brakeTest rack ms) s = .next t ∧ (t.rack rack).brake = true ∧
       (t.rack rack).brakeTest = true ∧ (t.rack rack).testUntil = s.now + ms * 1000000 ∧ line true (t.rack rack)) ∧
     (x.brakeTest = true → x.testUntil ≤ s.now → ∃ y : RackSt, exec (.brakeTestEnd rack) s = .next (s.setRack rack y) ∧
       y.brakeTest = false ∧ y.brakeShelf = x.brakeShelf ∧ line false y) ∧
     ((x.brakeTest = false ∨ s.now < x.testUntil) → exec (.brakeTestEnd rack) s = .next (s.setRack rack x)))

/-- R234–R238, R241, R244: falls of RATE act at once and rises by one step; under the brake no RATE exceeds BRAKE; a tick of the governor sets each
share, drives RATE to 1 when the draw outside the C-tiles uses the cap up, lowers it in an excess, steps a tile down whose draw was measured at
RATE 1, and reports UNMET when no running tile can be lowered; the slow path moves a tile's point down or up by its RATE over the last 10 ms. -/
def Obligations.GovernorAndBrake : Prop :=
  ∀ (s : State) (p : PkgId),
    let k := s.pkg p
    (∃ j : Pkg, exec (.brakeAssert p) s = .next (s.setPkg p j) ∧ j.braked = true ∧ j.get F.PWR_CAP_STATUS_BRAKED = 1 ∧
      (∀ t, t < 4 → j.rate t ≤ k.brakeRate ∧ j.rate t ≤ k.rate t) ∧
      j.get F.PWR_EVENTS_BRAKES = min 255 (k.get F.PWR_EVENTS_BRAKES + if k.braked then 0 else 1) ∧ j.thr.probeAt = none) ∧
    (∃ j : Pkg, exec (.brakeRelease p) s = .next (s.setPkg p j) ∧ j.braked = false ∧ j.get F.PWR_CAP_STATUS_BRAKED = 0 ∧
      ∀ t, t < 4 → j.rate t ≤ k.rate t) ∧
    (∃ j : Pkg, exec (.rateRampStep p) s = .next (s.setPkg p j) ∧ OnlyRegs k j ∧ ∀ t, t < 4 → k.rate t < 64 →
      (k.rate t < k.rateLimit t → j.rate t = k.rate t + 1) ∧ (k.rateLimit t ≤ k.rate t → j.rate t = k.rateLimit t)) ∧
    (∀ (tileW : List Nat) (u : Nat),
      let draw := tileW.foldl (· + ·) u
      ∃ j : Pkg, exec (.governorTick p tileW u) s = .next (s.setPkg p j) ∧
        (∀ t, t < 4 → j.rate t ≤ k.rate t ∧ j.get (F.PWR_TILE_STATE_LIMIT_W t) = k.share u t ∧
          (k.effective ≤ u → k.tileFurled t = false → j.rate t ≤ 1) ∧
          (k.excess draw = true → k.tileFurled t = false → j.rate t ≤ max 1 (k.rate t - 1))) ∧
        (draw ≤ k.effective → j.get F.PWR_CAP_STATUS_UNMET = 0) ∧
        (∀ t, t < 4 → k.excess draw = true → k.rate t = 1 → k.point t < 5 → k.isStepping t = false → k.tileFurled t = false →
          sfind j.pwr.stepping t = some (k.point t + 1)) ∧
        (∀ t, t < 4 → k.tileFurled t = false → ¬ (k.point t = 5 ∧ k.rate t = 1) → j.get F.PWR_CAP_STATUS_UNMET = 0) ∧
        (k.effective < draw → k.get F.PWR_CAP_STATUS_UNMET = 0 → (∀ t, t < 4 → k.tileFurled t = true ∨ (k.point t = 5 ∧ k.rate t = 1)) →
          j.get F.PWR_CAP_STATUS_UNMET = 1 ∧ j.get F.PWR_EVENTS_UNMET = min 255 (k.get F.PWR_EVENTS_UNMET + 1))) ∧
    (∀ tileW : List Nat, ∃ j : Pkg, exec (.pointJudgement p tileW) s = .next (s.setPkg p j) ∧ j.regs = k.regs ∧ j.pwr.ticks = 0 ∧
      ∀ t, t < 4 → k.isStepping t = false → k.tileFurled t = false → 0 < k.pwr.ticks →
        (sget 0 k.pwr.rateSum t ≤ 40 * k.pwr.ticks → k.point t < 5 → sfind j.pwr.stepping t = some (k.point t + 1)) ∧
        (40 * k.pwr.ticks < sget 0 k.pwr.rateSum t → sget 64 k.pwr.rateMin t = 64 →
          100 * tileW.getD t 0 < 85 * k.get (F.PWR_TILE_STATE_LIMIT_W t) → 0 < k.point t →
          (k.braked = false → sfind j.pwr.stepping t = some (k.point t - 1)) ∧ (k.braked = true → sfind j.pwr.stepping t = none))) ∧
    (∀ (t : Tile) (w : Nat), k.isStepping t.val = false → exec (.pointStepEnd p t w) s = .next (s.setPkg p k)) ∧
    (∀ (t : Tile) (w q : Nat), sfind k.pwr.stepping t.val = some q → q < 6 →
      (k.excess w = false → ∃ j : Pkg, exec (.pointStepEnd p t w) s = .next (s.setPkg p j) ∧ j.point t.val = q ∧ j.isStepping t.val = false ∧
        j.guardNow t.val = k.get (guardFld t.val)) ∧
      (k.excess w = true → k.rate t.val = 1 → q < 5 → k.tileFurled t.val = false → ∃ j : Pkg,
        exec (.pointStepEnd p t w) s = .next (s.setPkg p j) ∧ j.point t.val = q ∧ sfind j.pwr.stepping t.val = some (q + 1)))

/-- R239, R246, R247, R379: droop skips, below the set point less D, and their count; the guard bands at an evaluation and at a margin alarm; the end of the sea trial. -/
def Obligations.DroopAndAgeing : Prop :=
  ∀ (s : State) (p : PkgId),
    let k := s.pkg p
    (∀ (t : Tile) (mv : Nat), (k.setPoint t.val ≤ mv + k.droopMv t.val ∨ k.pwr.skipping.contains t.val = true) →
      exec (.droop p t mv) s = .next (s.setPkg p k)) ∧
    (∀ (t : Tile) (mv : Nat), mv + k.droopMv t.val < k.setPoint t.val → k.pwr.skipping.contains t.val = false → ∃ j : Pkg,
      exec (.droop p t mv) s = .next (s.setPkg p j) ∧ j.pwr.skipping = k.pwr.skipping ++ [t.val] ∧
        j.get F.PWR_EVENTS_DROOPS = min 65535 (k.get F.PWR_EVENTS_DROOPS + 1) ∧ ∀ o, o ≠ R.PWR_EVENTS → j.rg o = k.rg o) ∧
    (∀ t : Tile, exec (.droopRecovery p t) s =
      .next (s.setPkg p { k with pwr := { k.pwr with skipping := k.pwr.skipping.filter (· ≠ t.val) } })) ∧
    (∀ margins : List Nat,
      let h := min 1048575 (k.get F.PWR_AGE_HOURS_HOURS + 1)
      (h % 1000 ≠ 0 → ∃ j : Pkg, exec (.poweredHour p margins) s = .next (s.setPkg p j) ∧ OnlyRegs k j ∧ j.get F.PWR_AGE_HOURS_HOURS = h ∧
        ∀ o, o ≠ R.PWR_AGE_HOURS → j.rg o = k.rg o) ∧
      (h % 1000 = 0 → ∃ j : Pkg, exec (.poweredHour p margins) s = .next (s.setPkg p j) ∧ j.get F.PWR_AGE_HOURS_HOURS = h ∧
        ∀ n, n < 8 → 15 ≤ j.get (guardFld n) ∧ j.get (guardFld n) ≤ 60 ∧ j.get (F.PWR_GUARD_MARGIN_MV n) = min 255 (margins.getD n 0) ∧
          ((∀ e, sfind k.pwr.guardAt n = some e → e.1 ≠ s.now) →
            let m := margins.getD n 0
            let g := (k.get (guardFld n) : Int)
            (j.get (guardFld n) : Int) = max 15 (min 60 (if 15 ≤ m then g - min 5 ((m : Int) - 10) else if m < 5 then g + 5 else g))))) ∧
    (∀ (n : Fin 8) (mv : Nat), 2 ≤ mv → exec (.marginAlarm p n mv) s = .next (s.setPkg p k)) ∧
    (∀ (n : Fin 8) (mv : Nat), mv < 2 → (∀ e, sfind k.pwr.guardAt n.val = some e → e.1 ≠ s.now) → ∃ j : Pkg,
      exec (.marginAlarm p n mv) s = .next (s.setPkg p (j.raise s.now (marginDet n.val) 0 0)) ∧
        j.get (guardFld n.val) = max 15 (min 60 (k.get (guardFld n.val) + 5))) ∧
    (k.get F.THR_SEA_TRIAL_ACTIVE = 1 → k.get F.THR_SEA_TRIAL_LOAD_MS = 60000 → k.get F.THR_RESIST_EST_SEEDED = 0 → ∃ j : Pkg,
      exec (.seaTrialEnd p) s = .next (s.setPkg p j) ∧ j.get F.THR_SEA_TRIAL_ACTIVE = 0 ∧ j.effective = (lowestLimit k.baseLimits).2) ∧
    ((k.get F.THR_SEA_TRIAL_ACTIVE ≠ 1 ∨ k.get F.THR_SEA_TRIAL_LOAD_MS ≠ 60000 ∨ k.get F.THR_RESIST_EST_SEEDED ≠ 0) →
      exec (.seaTrialEnd p) s = .next (s.setPkg p k))

/-! ### The rack's power and coolant -/

/-- R228: the division of a pool that covers the minimum caps: the caps sum to no more than the pool, each is a multiple of 5 W, at least its
package's MIN_CAP rounded down to that grid and at most 1,150 W, and only a package with a core that is not held off gets one.
R224–R231, R243, R245, R367, R374, R382, R385: the site cap, the feeds and PSUs, OVERHEAD and bring-up. A request that no helm can answer gets 503;
a refused one its status; what changes the supply is followed by the caps of the new state. -/
def Obligations.RackPower : Prop :=
  (∀ (img : List Byte) (pool : Nat), minSum img ≤ pool →
     sumNat ((poolCaps img pool).map (·.2)) ≤ pool ∧
     ∀ e ∈ poolCaps img pool, capped img e.1 = true ∧ e.2 % 5 = 0 ∧
       (capsMin img e.1 ≤ 1150 → capsMin img e.1 / 5 * 5 ≤ e.2 ∧ e.2 ≤ 1150)) ∧
  (∀ (s : State) (rack : Fin 32),
     let x := s.rack rack
     (∀ w, s.noHelm rack → exec (.siteCapSet rack w) s = .next (s.http ⟨rack, false⟩ 503 "RETRY")) ∧
     (∀ h w, s.helmActs rack h → (w < 40000 ∨ 132000 < w ∨ w % 500 ≠ 0) → exec (.siteCapSet rack w) s = .next (s.http h 400 "BAD_VALUE")) ∧
     (∀ h w, s.helmActs rack h → 40000 ≤ w → w ≤ 132000 → w % 500 = 0 → x.effCap w < x.overheadW + minSum (s.alm h).log.capsChart →
       exec (.siteCapSet rack w) s = .next (s.http h 400 "CAP_SHORT")) ∧
     (∀ h w why, s.helmActs rack h → x.refuseCap (s.alm h).log w = some why → exec (.siteCapSet rack w) s = .next (s.http h 400 why)) ∧
     (∀ h w, s.helmActs rack h → x.refuseCap (s.alm h).log w = none → ∃ t, exec (.siteCapSet rack w) s = .next t ∧
       (t.alm h).log.siteCapW = w ∧ (t.rack rack).capacity = decide (x.single < w) ∧ t.capsFollow rack ∧ Msg.http 200 "OK" ∈ (t.alm h).out) ∧
     (∀ n b, ∃ t, exec (.psuHealthChange rack n b) s = .next t ∧ (t.rack rack).psuFault.contains n.val = !b ∧ t.capsFollow rack ∧
       (t.rack rack).brakeShelf = x.brakeShelf) ∧
     (∀ b (v : Nat), 184 ≤ v → exec (.feedLost rack ⟨b, v⟩) s = .next s) ∧
     (∀ b (v : Nat), v < 184 → ∃ t, exec (.feedLost rack ⟨b, v⟩) s = .next t ∧ (t.rack rack).feed b = false ∧ (t.rack rack).feed (!b) = x.feed (!b) ∧ t.capsFollow rack ∧
       (x.capacity = true → (t.rack rack).brakeShelf = true ∧ (t.rack rack).feedLostHold = true) ∧
       (x.capacity = false → (t.rack rack).brakeShelf = x.brakeShelf ∧ (t.rack rack).feedLostHold = x.feedLostHold)) ∧
     (∀ b (lo hi : Nat), (lo < 207 ∨ 264 < hi) → exec (.feedPresent rack ⟨b, lo, hi⟩) s = .next s ∧ ∀ n, exec (.psuRejoin rack ⟨n, lo, hi⟩) s = .next s) ∧
     (∀ b (lo hi : Nat), 207 ≤ lo → hi ≤ 264 → ∃ t, exec (.feedPresent rack ⟨b, lo, hi⟩) s = .next t ∧ (t.rack rack).feed b = true ∧ (t.rack rack).feed (!b) = x.feed (!b) ∧ t.capsFollow rack ∧
       (x.feed (!b) = true → x.feedLostHold = true → (t.rack rack).feedBack = some s.now) ∧
       (x.feedA = false → x.feedB = false → (t.rack rack).started = s.now ∧ (t.rack rack).overheadW = 20000 ∧ (t.rack rack).flowProven = false) ∧
       ((x.feedA = true ∨ x.feedB = true) → (t.rack rack).started = x.started ∧ (t.rack rack).flowProven = x.flowProven)) ∧
     ((∀ f, x.feedBack = some f → s.now < f + 10000000000) → exec (.capacityHoldEnd rack) s = .next s) ∧
     (∀ f, x.feedBack = some f → f + 10000000000 ≤ s.now → ∃ t, exec (.capacityHoldEnd rack) s = .next t ∧
       (t.rack rack).feedLostHold = false ∧ (t.rack rack).feedBack = none ∧ t.capsFollow rack) ∧
     (∀ i q, ∃ t, exec (.shelfPoll rack i q) s = .next t ∧ (t.rack rack).overheadW % 500 = 0 ∧ i - q + 1000 ≤ (t.rack rack).overheadW ∧
       (∀ e ∈ x.inputs, s.now ≤ e.1 + 60000000000 → e.2.1 - e.2.2 + 1000 ≤ (t.rack rack).overheadW) ∧
       ((t.rack rack).overheadW ≠ x.overheadW → t.capsFollow rack) ∧
       (s.now < x.started + 60000000000 → 20000 ≤ (t.rack rack).overheadW)) ∧
     (∀ n v, 300 < v → exec (.psuOvervoltage rack n v) s = .fault (.beyondAbsolute "feed voltage")) ∧
     (∀ n v, v ≤ 270 → exec (.psuOvervoltage rack n v) s = .next s) ∧
     (∀ n v, 270 < v → v ≤ 300 → ∃ t, exec (.psuOvervoltage rack n v) s = .next t ∧ (t.rack rack).psuGood n.val = false ∧ t.capsFollow rack) ∧
     (∀ (n : Fin 36) (lo hi : Nat), 207 ≤ lo → hi ≤ 264 → ∃ t, exec (.psuRejoin rack ⟨n, lo, hi⟩) s = .next t ∧ (t.rack rack).psuOver.contains n.val = false ∧ t.capsFollow rack) ∧
     (∀ f v, 60000 < v → exec (.busbarOvervoltage rack f v) s = .fault (.beyondAbsolute "busbar voltage")) ∧
     (∀ f v, v ≤ 56000 → exec (.busbarOvervoltage rack f v) s = .next s) ∧
     (∀ f v, 56000 < v → v ≤ 60000 → ∃ t, exec (.busbarOvervoltage rack f v) s = .next t ∧ (t.rack rack).shelfDown.contains f.val = true ∧
       t.capsFollow rack) ∧
     (∀ v, 48000 ≤ v → exec (.busbarLow rack v) s = .next s) ∧
     (∀ v, v < 48000 → ∃ t, exec (.busbarLow rack v) s = .next t ∧ ∀ slot : Fin 28, (t.tray ⟨rack, slot⟩).busbarWait = true ∧
       Msg.report "BUSBAR_LOW" 0 v ∈ (t.tray ⟨rack, slot⟩).out ∧ ∀ pos : Fin 4, (t.posn ⟨rack, slot⟩ pos).pwrEn = false ∧
         ((s.posn ⟨rack, slot⟩ pos).pwrEn = true → (t.posn ⟨rack, slot⟩ pos).step = 1)) ∧
     (∀ v : Int, v < 52000 → exec (.busbarRecovered ⟨rack, v⟩) s = .next s) ∧
     (∀ v : Int, 52000 ≤ v → ∃ t, exec (.busbarRecovered ⟨rack, v⟩) s = .next t ∧ ∀ slot : Fin 28, (t.tray ⟨rack, slot⟩).busbarWait = false) ∧
     (∀ f : Int, f < 210 → exec (.flowProven ⟨rack, f⟩) s = .next s) ∧
     (∀ f : Int, 210 ≤ f → ∃ t, exec (.flowProven ⟨rack, f⟩) s = .next t ∧ (t.rack rack).flowProven = true) ∧
     (s.helm rack = none → exec (.bringUpDeadline rack) s = .next s) ∧
     (∀ a, s.helm rack = some a → ∃ t, exec (.bringUpDeadline rack) s = .next t ∧
       let failed := ((rackPkgs rack).filter fun p => !(s.pkg p).pkc.admitted).map PkgId.key
       (t.alm a).log.failedPos = failed ∧ (failed ≠ [] → Msg.command "BUILD_VARIANT" rack.val failed.length ∈ (t.alm a).out)))

/-- R250–R253, R380, R386 and Tables 12.1 and 12.3: a CDU setting gets 503 where no helm may act, BAD_VALUE off its grid or range,
COOLING_SHORT where the new heat limit falls below the site cap, and is else kept and answered OK. FLOW_LIMITED, INLET_HIGH, DEW_RISK and
SECONDARY_LOW are raised and cleared, each by its own threshold, in the rack and in the helm's log; SECONDARY_LOW gives every package its
MIN_CAP outside a turn, and its end restores the division; an inlet above 55.0 °C or a dew point above 28.0 °C lies beyond the absolute
limit and stops the machine. -/
def Obligations.CoolantAlarms : Prop :=
  ∀ (s : State) (rack : Fin 32),
    let x := s.rack rack
    let alarm (t : State) (name : String) (on : Bool) : Prop := ∀ a, s.helm rack = some a → (t.alm a).log.alarms.contains name = on
    (∀ c v, s.noHelm rack → exec (.cduSettingSet rack c v) s = .next (s.http ⟨rack, false⟩ 503 "RETRY")) ∧
    (∀ h c v, s.helmActs rack h → cduOk c v = false → exec (.cduSettingSet rack c v) s = .next (s.http h 400 "BAD_VALUE")) ∧
    (∀ h c v, s.helmActs rack h → cduOk c v = true → c ≠ .supplySet →
      69 * ((s.alm h).log.withCdu c v).flowCap * ((s.alm h).log.withCdu c v).dtMax < 100 * (s.alm h).log.siteCapW →
      exec (.cduSettingSet rack c v) s = .next (s.http h 400 "COOLING_SHORT")) ∧
    (∀ h c v, s.helmActs rack h → cduOk c v = true →
      (c ≠ .supplySet → 100 * (s.alm h).log.siteCapW ≤ 69 * ((s.alm h).log.withCdu c v).flowCap * ((s.alm h).log.withCdu c v).dtMax) →
      ∃ t, exec (.cduSettingSet rack c v) s = .next t ∧ Msg.http 200 "OK" ∈ (t.alm h).out ∧
        (match c with
          | .flowCap => (t.alm h).log.flowCap = v ∧ (t.alm h).log.dtMax = (s.alm h).log.dtMax
          | .dtMax => (t.alm h).log.dtMax = v ∧ (t.alm h).log.flowCap = (s.alm h).log.flowCap
          | .supplySet => (t.alm h).log.supplySet = v)) ∧
    (∃ t, exec (.flowLimited rack) s = .next t ∧ (t.rack rack).flowLimited = true ∧ alarm t "FLOW_LIMITED" true) ∧
    (x.flowLimited = true → ∃ t, exec (.flowLimitedCleared rack) s = .next t ∧ (t.rack rack).flowLimited = false ∧ alarm t "FLOW_LIMITED" false) ∧
    (x.flowLimited = false → exec (.flowLimitedCleared rack) s = .next s) ∧
    (∀ v : Int, 550 < v → exec (.inletHigh rack v) s = .fault (.beyondAbsolute "facility inlet temperature")) ∧
    (∀ v : Int, v ≤ 450 → exec (.inletHigh rack v) s = .next s) ∧
    (∀ v : Int, 450 < v → v ≤ 550 → ∃ t, exec (.inletHigh rack v) s = .next t ∧ (t.rack rack).inletHigh = true ∧ alarm t "INLET_HIGH" true) ∧
    (∀ v : Int, x.inletHigh = true → v ≤ 440 → ∃ t, exec (.inletHighCleared ⟨rack, v⟩) s = .next t ∧ (t.rack rack).inletHigh = false ∧ alarm t "INLET_HIGH" false) ∧
    (∀ v : Int, (x.inletHigh = false ∨ 440 < v) → exec (.inletHighCleared ⟨rack, v⟩) s = .next s) ∧
    (∀ v : Int, 280 < v → exec (.dewRisk rack v) s = .fault (.beyondAbsolute "dew point")) ∧
    (∀ v : Int, v ≤ 280 → ∃ t, exec (.dewRisk rack v) s = .next t ∧ (t.rack rack).dewRisk = true ∧ alarm t "DEW_RISK" true) ∧
    (∀ f : Int, 150 ≤ f → exec (.secondaryLow ⟨rack, f⟩) s = .next s) ∧ (∀ f : Int, f < 150 → exec (.secondaryRestored ⟨rack, f⟩) s = .next s) ∧
    (∀ f : Int, f < 150 → ∃ t, exec (.secondaryLow ⟨rack, f⟩) s = .next t ∧ (t.rack rack).secondaryLow = true ∧ alarm t "SECONDARY_LOW" true ∧ t.capsFollow rack ∧
      ∀ a, s.helm rack = some a → (s.alm a).log.turnT0 = none →
        (t.rack rack).caps = (cappedOf (s.alm a).log.capsChart).map fun n => (n, capsMin (s.alm a).log.capsChart n)) ∧
    (∀ f : Int, 150 ≤ f → ∃ t, exec (.secondaryRestored ⟨rack, f⟩) s = .next t ∧ (t.rack rack).secondaryLow = false ∧ alarm t "SECONDARY_LOW" false ∧ t.capsFollow rack)

/-! ### The package's heat -/

/-- R254–R259: the coolant temperature and its age; the resistance estimate, which a sample moves an eighth of the way towards the clamped
sample; probe pulses; and the thermal cap. RESIST_HIGH is judged against ALARM at each change. -/
def Obligations.CoolantAndResistance : Prop :=
  (∀ (r : Nat) (a b : Int), 150 ≤ r → r ≤ 1200 → 150 ≤ newEst r a b ∧ newEst r a b ≤ 1200) ∧
  (∀ (k : Pkg) (now : Nat), ((k.get F.THR_RESIST_CFG_ALARM ≤ k.est ∨ k.thr.rawLow = true) → (k.judgeResist now).alarmLive 0 = true) ∧
    (k.est + 20 < k.get F.THR_RESIST_CFG_ALARM → k.thr.rawLow = false → (k.judgeResist now).alarmLive 0 = false)) ∧
  (∀ k : Pkg, k.recap.effective ≤ k.get F.THR_CAP_CAP) ∧
  ∀ (s : State) (p : PkgId),
    let k := s.pkg p
    let fresh (j : Pkg) (temp : Nat) : Prop := j.get F.THR_COOLANT_TEMP = temp ∧ j.stale = false ∧ j.coolant = temp ∧ j.alarmLive 1 = false ∧
      j.thr.coolantAt = s.now
    (∀ (t : TrayId) (pos : Fin 4) (temp : BitVec 12), (TrayId.pkgAt t pos = none ∨ (s.posn t pos).resetN = false) →
      exec (.coolantRead t pos temp) s = .next s) ∧
    (∀ (t : TrayId) (pos : Fin 4) (temp : BitVec 12), TrayId.pkgAt t pos = some p → (s.posn t pos).resetN = true →
      k.get F.UPD_STATUS_PAUSED = 0 → ∃ u, exec (.coolantRead t pos temp) s = .next u ∧ fresh (u.pkg p) temp.toNat) ∧
    (∀ (who : Requester) (w : Word), Open s p who R.THR_COOLANT →
      (who ≠ .cw → exec (.thrCoolantWrite p who w) s = .next (s.wrote p who R.THR_COOLANT s.mem k)) ∧
      (who = .cw → ∃ j : Pkg, exec (.thrCoolantWrite p who w) s = .next (s.wrote p who R.THR_COOLANT s.mem j) ∧
        fresh j (w.toNat % 4096) ∧ ∀ o, o ≠ R.THR_COOLANT → o ≠ R.THR_ALARM → j.rg o = k.rg o)) ∧
    (s.now < k.thr.coolantAt + 501000000 → exec (.coolantStale p) s = .next (s.setPkg p k)) ∧
    (k.thr.coolantAt + 501000000 ≤ s.now → ∃ j : Pkg, exec (.coolantStale p) s = .next (s.setPkg p j) ∧ OnlyRegs k j ∧
      j.stale = true ∧ j.coolant = 800 ∧ j.alarmLive 1 = true ∧ j.get F.THR_COOLANT_TEMP = k.get F.THR_COOLANT_TEMP) ∧
    (∀ (a b : Int) (quiet : Bool),
      let k0 := (k.endProbe false).settleRates
      ((quiet = false ∨ k.noSample s.now = true ∨ b.natAbs < 2000) →
        exec (.naturalStepSample p a b quiet) s = .next (s.setPkg p k0)) ∧
      (quiet = true → k.noSample s.now = false → 2000 ≤ b.natAbs → ∃ j : Pkg,
        exec (.naturalStepSample p a b quiet) s = .next (s.setPkg p (j.judgeResist s.now)) ∧ (j.est : Int) = newEst k.est a b ∧
          j.get F.THR_RESIST_EST_SEEDED = 0 ∧ j.get F.THR_EVENTS_STEPS = min 255 (k.get F.THR_EVENTS_STEPS + 1) ∧ j.thr.lastSample = s.now)) ∧
    (∀ duty draw : Nat,
      let s1 : State := { s with free := s.free + 1 }
      let barred := k.get F.THR_RESIST_CFG_PROBE_EN = 0 ∨ s.now < k.thr.lastSample + 1000000000 * k.get F.THR_RESIST_CFG_PROBE_IDLE ∨
        k.braked = true ∨ k.thr.probeAt.isSome = true
      (barred → exec (.probePulse p duty draw) s = .next (s1.setPkg p k)) ∧
      (¬ barred → ∃ j : Pkg, exec (.probePulse p duty draw) s = .next (s1.setPkg p j) ∧ j.thr.probeAt = some s.now ∧
        j.get F.THR_EVENTS_PROBES = min 255 (k.get F.THR_EVENTS_PROBES + 1) ∧
        (duty < 90 → draw + 40 ≤ k.effective → ∀ t, t < 4 → j.rate t = k.rate t) ∧
        ((90 ≤ duty ∨ k.effective < draw + 40) → ∀ t, t < 4 → j.rate t ≤ k.rate t ∧ (2 ≤ k.rate t → j.rate t < k.rate t)))) ∧
    (k.est = 0 → exec (.thermalCapCompute p) s = .next (s.setPkg p k)) ∧
    (k.est ≠ 0 → ∃ j : Pkg, exec (.thermalCapCompute p) s = .next (s.setPkg p ((j.judgeResist s.now).recap)) ∧
      let raw := (1600 - k.coolant) * 625 / k.est
      j.get F.THR_CAP_RAW = min 4095 raw ∧ j.get F.THR_CAP_CAP = max 150 (min 1150 (raw / 5 * 5)) ∧ j.thr.rawLow = decide (raw < 150) ∧
        ∀ o, o ≠ R.THR_CAP → j.rg o = k.rg o)

/-- R261–R267: the DRU reports its peak and moves each C-tile's FRATE by it; RATE never exceeds FRATE; a failed sensor reads 0xFFFF and holds
FRATE; a trip holds every RATE at 1; the shutdown drives its line. -/
def Obligations.ForecastAndTrips : Prop :=
  ∀ (s : State) (p : PkgId),
    let k := s.pkg p
    (∀ meas mw duty : List Nat,
      (k.pwr.govHold = true → exec (.druStep p meas mw duty) s = .next (s.setPkg p k)) ∧
      (k.pwr.govHold = false →
        let pk := peakOf (k.horizon (s.moduleKey p) ((Config.fusedResist (s.moduleKey p)).toNat / k.est) mw duty
          (k.time s.now / 1000000 * 1000000) 1 (nodes.map (k.startTemp meas)) 8)
        ∃ j : Pkg, exec (.druStep p meas mw duty) s = .next (s.setPkg p j) ∧ j.get F.THR_FORECAST_PEAK = tempWord pk.1 ∧
          j.get F.THR_FORECAST_NODE = pk.2.1 ∧ j.get F.THR_FORECAST_STEP = pk.2.2 ∧
          (∀ n, n < 64 → k.thr.sensorBad.contains n = true → j.get (F.THR_NODE_MEAS n) = 0xFFFF) ∧
          (∀ t, t < 4 →
            let held (v : Nat) : Nat := if k.sensorHold t then min v 32 else v
            (1600 ≤ pk.1 → (32 ≤ pk.2.1 ∨ pk.2.1 / 8 = t) → j.frate t = held (max 1 (k.frate t - 8))) ∧
            (pk.1 ≤ 1568 → k.frate t < 64 → j.frate t = held (k.frate t + 1)) ∧
            (1568 < pk.1 → (pk.1 < 1600 ∨ (pk.2.1 < 32 ∧ pk.2.1 / 8 ≠ t)) → j.frate t = k.frate t) ∧
            j.rate t ≤ k.rate t ∧ j.rate t ≤ j.frate t) ∧
          (j.alarmLive 2 = true ↔ ∃ t, t < 4 ∧ j.frate t < 64))) ∧
    (∀ n : Fin 64, (k.thr.sensorBad.contains n.val = true → exec (.sensorFail p n) s = .next (s.setPkg p k)) ∧
      (k.thr.sensorBad.contains n.val = false → ∃ j : Pkg, exec (.sensorFail p n) s = .next (s.setPkg p j) ∧
        j.thr.sensorBad = k.thr.sensorBad ++ [n.val] ∧ j.get (F.THR_NODE_MEAS n.val) = 0xFFFF ∧ j.alarmLive 4 = true ∧
        ∀ t, t < 4 → j.rate t ≤ j.frate t ∧ (j.sensorHold t = true → j.frate t ≤ 32) ∧ (j.sensorHold t = false → j.frate t = k.frate t))) ∧
    (∀ (n : Fin 64) (temp : BitVec 16),
      ((temp.toNat < 1680 ∨ k.alarmLive 3 = true) → exec (.junctionTrip p n temp) s = .next (s.setPkg p k)) ∧
      (1680 ≤ temp.toNat → k.alarmLive 3 = false → ∃ j : Pkg,
        exec (.junctionTrip p n temp) s = .next (s.setPkg p (j.raise s.now (det 255 2) 0 0)) ∧ j.alarmLive 3 = true ∧
          j.get (F.THR_NODE_MEAS n.val) = temp.toNat ∧ ∀ t, t < 4 → j.rate t ≤ 1) ∧
      ((temp.toNat < 1840 ∨ k.thr.shutdown = true) → exec (.thermalShutdown p n temp) s = .next (s.setPkg p k)) ∧
      (1840 ≤ temp.toNat → k.thr.shutdown = false → ∃ j : Pkg,
        j.thr.shutdown = true ∧ j.get (F.THR_NODE_MEAS n.val) = temp.toNat ∧ j.out = k.out ++ [.line "THERM_SHDN_N" false] ∧
          ((j.raise s.now (det 255 4) 0 0).pkgDark = k.pkgDark →
            exec (.thermalShutdown p n temp) s = .next (s.setPkg p (j.raise s.now (det 255 4) 0 0))) ∧
          ∃ t, exec (.thermalShutdown p n temp) s = .next t ∧ (t.pkg p).thr.shutdown = true)) ∧
    (k.alarmLive 3 = false → exec (.junctionTripRelease p) s = .next (s.setPkg p k)) ∧
    (k.alarmLive 3 = true → ∃ j : Pkg, exec (.junctionTripRelease p) s = .next (s.setPkg p j) ∧ j.alarmLive 3 = false ∧
      ∀ t, t < 4 → j.rate t ≤ k.rate t)

/-- R268–R274: a commit of THR_HEAD_W3 checks the requester's four words, sets HEAD_BAD or HEAD_FULL, or keeps the heading until START +
DURATION, with a pre-wake slot where W3 asks for one; a rotation that may run advances its set's shift by one, one that may not within
100 µs is counted, and the sets of another Chart wait for a migration to end. -/
def Obligations.HeadingsAndRotation : Prop :=
  ∀ (s : State) (p : PkgId),
    let k := s.pkg p
    (∀ (who : Requester) (w3 : Word), Open s p who R.THR_HEAD_W3 →
      let begin_ := k.headWord who 0 + 2 ^ 32 * k.headWord who 1
      let w2 := k.headWord who 2
      let stop := begin_ + bits w2 16 8 * 1000000
      let now := k.time s.now
      let bad := 2 ^ 24 ≤ w2 ∨ bits w2 16 8 = 0 ∨ 64 < bits w2 8 8 ∨ 195 < bits w2 0 8 ∨ 1 < w3.toNat ∨ now + 10000000000 < begin_
      let refused (b : Nat) : Prop := ∃ j : Pkg, exec (.headingCommit p who w3) s = .next (s.wrote p who R.THR_HEAD_W3 s.mem j) ∧
        OnlyRegs k j ∧ bit (j.get F.THR_ALARM_SEEN) b = true ∧ ∀ o, o ≠ R.THR_ALARM → j.rg o = k.rg o
      (bad → refused 6) ∧ (¬ bad → 32 ≤ k.thr.headings.length → refused 5) ∧
      (¬ bad → k.thr.headings.length < 32 → ∃ (m : Mem) (j : Pkg), exec (.headingCommit p who w3) s = .next (s.wrote p who R.THR_HEAD_W3 m j) ∧
        (now < stop → j.thr.headings = k.thr.headings ++ [⟨max begin_ now, stop, bits w2 8 8, bits w2 0 8⟩] ∧
          j.get F.THR_HEAD_STATUS_USED = k.thr.headings.length + 1) ∧
        (stop ≤ now → j.thr.headings = k.thr.headings) ∧
        (w3.toNat = 1 → k.coreIdleForever (headCore (bits w2 0 8)) = false → k.aon.slots.length < 8 →
          ∃ b, ⟨max begin_ now, headCore (bits w2 0 8), stop - max begin_ now, b⟩ ∈ j.aon.slots) ∧
        (w3.toNat = 0 → m = s.mem ∧ j.aon = k.aon ∧ ∀ o, o ≠ R.THR_HEAD_STATUS → j.rg o = k.rg o))) ∧
    (∀ i : Fin 32, (∀ x, k.thr.headings[i.val]? = some x → x.stop ≤ k.time s.now → ∃ j : Pkg,
        exec (.headingExpiry p i) s = .next (s.setPkg p j) ∧ j.thr.headings = k.thr.headings.eraseIdx i.val ∧
          j.get F.THR_HEAD_STATUS_USED = (k.thr.headings.length - 1) % 64 ∧ ∀ o, o ≠ R.THR_HEAD_STATUS → j.rg o = k.rg o) ∧
      ((∀ x, k.thr.headings[i.val]? = some x → k.time s.now < x.stop) → exec (.headingExpiry p i) s = .next (s.setPkg p k))) ∧
    (∀ i : Fin 32, sfind k.thr.rotas i.val = none → exec (.rotationDue p i) s = .next (s.setPkg p k) ∧
      exec (.rotationSkip p i) s = .next (s.setPkg p k) ∧ exec (.migrationEnd p i) s = .next (s.setPkg p k)) ∧
    (∀ (i : Fin 32) (x : Rota), sfind k.thr.rotas i.val = some x →
      ((x.migrating = true ∨ s.now < x.due ∨ k.mayRotate x = false ∨ k.thr.rotaWait ≠ none) → exec (.rotationDue p i) s = .next (s.setPkg p k)) ∧
      (x.migrating = false → x.due ≤ s.now → k.mayRotate x = true → k.thr.rotaWait = none → 1 ≤ x.members.length → x.members.length ≤ 64 → ∃ j : Pkg,
        exec (.rotationDue p i) s = .next (s.setPkg p j) ∧
          j.get (F.THR_ROTA_SHIFT i.val) = (k.get (F.THR_ROTA_SHIFT i.val) + 1) % x.members.length ∧
          (∀ o, o ≠ R.THR_ROTA i.val → j.rg o = k.rg o) ∧ (∃ y, sfind j.thr.rotas i.val = some y ∧ y.migrating = true ∧
            y.due = s.now + 1000000 * x.intervalMs ∧ y.members = x.members)) ∧
      ((x.migrating = true ∨ s.now < x.due + 100000) → exec (.rotationSkip p i) s = .next (s.setPkg p k)) ∧
      (x.migrating = false → x.due + 100000 ≤ s.now → ∃ j : Pkg, exec (.rotationSkip p i) s = .next (s.setPkg p j) ∧
        j.get F.THR_EVENTS_ROTA_SKIPS = min 255 (k.get F.THR_EVENTS_ROTA_SKIPS + 1) ∧ (∀ o, o ≠ R.THR_EVENTS → j.rg o = k.rg o) ∧
        sfind j.thr.rotas i.val = some { x with due := x.due + 1000000 * x.intervalMs }) ∧
      (k.dbg.wantHalt = [] → k.thr.rotaWait = none →
        exec (.migrationEnd p i) s = .next (s.setPkg p (k.setRota i.val { x with migrating := false }))) ∧
      (∀ img, k.dbg.wantHalt = [] → k.thr.rotaWait = some img → (k.setRota i.val { x with migrating := false }).migrates = false →
        exec (.migrationEnd p i) s = .next (s.setPkg p ((k.setRota i.val { x with migrating := false }).takeRota s.now img))))

/-! ### The tray controller and its packages -/

/-- Table 13.5, R279, R291–R293, R349, R372: the CW's commands. HEARTBEAT is accepted where its SEQ differs from the last accepted; 30 ms after
that the package holds course under SAFE_CAP until RESYNC. ADMIT is sent once the package is attested, has an active Chart and that Chart's epoch is
the one its helm names, and lets the links train; FENCE takes the package dark; lifeboat mode turns all but HEARTBEAT, GET_STATUS and register
accesses away. A register command with a bad COUNT or length is refused, and one whose first word is
refused has no effect. -/
def Obligations.CommandMessages : Prop :=
  ∀ (s : State) (p : PkgId) (inst : BitVec 5),
    let k := s.pkg p
    let answered (command completion : Nat) (data : List Byte) (j : Pkg) : State := s.setPkg p (j.emit (.cwAnswer inst.toNat command completion data))
    (k.mctpUp = false → (∀ seq, exec (.heartbeat p inst seq) s = .next (s.setPkg p k)) ∧
      (s.mayAdmit p = true → exec (.admitLinks p inst) s = .next (s.setPkg p k)) ∧
      exec (.fence p inst) s = .next (s.setPkg p k) ∧ exec (.resync p inst) s = .next (s.setPkg p k) ∧
      exec (.getStatus p inst) s = .next (s.setPkg p k)) ∧
    (((s.posn (PkgId.tray p) (PkgId.pos p)).attested = false ∨ k.get F.CHT_SLOT_STATUS_ACTIVE_STATE = 0 ∨
      s.namedEpoch p.rack ≠ some (k.rg R.CHT_ACTIVE_EPOCH).toNat) → exec (.admitLinks p inst) s = .next s) ∧
    (k.mctpUp = true →
      (∀ seq, k.pkc.hbSeq = some seq → exec (.heartbeat p inst seq) s = .next (answered 1 0 [k.stateByte] k)) ∧
      (∀ seq, k.pkc.hbSeq ≠ some seq → exec (.heartbeat p inst seq) s =
        .next (answered 1 0 [k.stateByte] { k with pkc := { k.pkc with hbSeq := some seq, hbAt := some s.now } })) ∧
      exec (.getStatus p inst) s = .next (answered 7 0 ([k.stateByte] ++ leBytes 4 (k.rg R.CHT_ACTIVE_EPOCH).toNat ++ [k.ret.pkgInc]) k)) ∧
    (k.pkc.run = .lifeboat → (s.mayAdmit p = true → exec (.admitLinks p inst) s = .next (answered 4 1 [] k)) ∧ exec (.fence p inst) s = .next (answered 5 1 [] k) ∧
      exec (.resync p inst) s = .next (answered 6 1 [] k)) ∧
    (k.pkc.run = .running →
      (s.mayAdmit p = true → k.pkc.bootDone = false → exec (.admitLinks p inst) s = .next (answered 4 4 [] k)) ∧
      (s.mayAdmit p = true → k.pkc.bootDone = true → ∃ j : Pkg, exec (.admitLinks p inst) s = .next (answered 4 0 [] j) ∧ j.pkc.admitted = true ∧ j.regs = k.regs ∧
        ∀ q, q < 24 → ((k.port q).state = .off → (j.port q).state = .training) ∧ ((k.port q).state ≠ .off → j.port q = k.port q)) ∧
      (∃ t, exec (.fence p inst) s = .next t ∧ (t.pkg p).pkgDark = true ∧ (t.pkg p).pkc.fenced = true ∧
        Msg.cwAnswer inst.toNat 5 0 [] ∈ (t.pkg p).out) ∧
      (k.pkc.holdCourse = false → exec (.resync p inst) s = .next (answered 6 4 [] k)) ∧
      (k.pkc.holdCourse = true → ∃ j : Pkg, exec (.resync p inst) s = .next (answered 6 0 [] j) ∧ j.pkc.holdCourse = false ∧
        (∀ l ∈ j.baseLimits, l.1 ≠ 3) ∧ j.effective = j.capLimit.2)) ∧
    ((k.paused_ = true ∨ k.pkc.hbAt = none ∨ ∃ t, k.pkc.hbAt = some t ∧ s.now < t + 30000000) →
      exec (.holdCourse p) s = .next (s.setPkg p k)) ∧
    (∀ t, k.paused_ = false → k.pkc.hbAt = some t → t + 30000000 ≤ s.now → ∃ j : Pkg, exec (.holdCourse p) s = .next (s.setPkg p j) ∧
      j.pkc.holdCourse = true ∧ j.effective ≤ k.safeLimit ∧ j.get F.PWR_LADDER_CAP_CAP = k.get F.PWR_LADDER_CAP_CAP ∧ j.ret = k.ret) ∧
    (∀ (off : Word) (ctrl : Byte) (ws : List Word), k.mctpUp = true →
      let n := ctrl.toNat % 16
      let offs := wordOffsets off.toNat n (bit ctrl.toNat 7)
      let powered := k.aon.deferred = [] ∧ ∀ o ∈ offs, (k.blockDomains (o % 2 ^ 24)).all k.domainOn = true
      let refused (command : Nat) : State := { s with free := s.free + n }.setPkg p (k.emit (.cwAnswer inst.toNat command 5 []))
      ((n = 0 ∨ n = 15) → exec (.readReg p inst off ctrl) s = .next (answered 2 3 [] k) ∧
        exec (.writeReg p inst off ctrl ws) s = .next (answered 3 3 [] k)) ∧
      (1 ≤ n → n ≤ 14 →
        (ws.length ≠ n → exec (.writeReg p inst off ctrl ws) s = .next (answered 3 2 [] k)) ∧
        (k.busRefuses off.toNat 4 = true → exec (.readReg p inst off ctrl) s = .next (refused 2) ∧
          (ws.length = n → exec (.writeReg p inst off ctrl ws) s = .next (refused 3))) ∧
        (powered → (∀ o ∈ offs, k.busRefuses o 4 = false) →
          (∃ t data, exec (.readReg p inst off ctrl) s = .next t ∧ data.length = 4 * n ∧ Msg.cwAnswer inst.toNat 2 0 data ∈ (t.pkg p).out) ∧
          (ws.length = n → ∃ t, exec (.writeReg p inst off ctrl ws) s = .next t ∧ Msg.cwAnswer inst.toNat 3 0 [] ∈ (t.pkg p).out))))

/-- R21, R36, R276, R280, R281: direct register access. A DRA_SET that is not well formed gets its status at once; another is BUSY until
its access executes, and one that arrives meanwhile is not acknowledged; DRA_GET changes nothing. AON_PKG_ADDR is taken from the tray
controller only, while the PKC is in reset, and names the Almanac's rack number with the row and the column that the slot and the board
position give. The tray controller's write of it is an access of one word, which DRA_GET reports as served (the model's reading, log 52).
-/
def Obligations.DirectRegisterAccess : Prop :=
  ∀ (s : State) (p : PkgId),
    let k := s.pkg p
    (∀ b, k.pkc.draStatus = 3 → exec (.draSet p b) s = .next (s.setPkg p (k.emit .nack))) ∧
    (∀ b st, k.pkc.draStatus ≠ 3 → draBad b = some st → (st = 2 ∨ st = 4) ∧ exec (.draSet p b) s =
      .next (s.setPkg p { k with pkc := { k.pkc with draStatus := st, draDone := 0, draData := [], draBytes := [] } })) ∧
    (∀ b, crc8 (b.take (b.length - 1)) ≠ u8 b (b.length - 1) → draBad b = some 2) ∧
    (∀ b, k.pkc.draStatus ≠ 3 → draBad b = none →
      1 ≤ draCount b ∧ draCount b ≤ 4 ∧ ∃ j : Pkg, exec (.draSet p b) s = .next (s.setPkg p j) ∧ j.pkc.draStatus = 3 ∧ j.pkc.draBytes = b ∧
        ((∀ o ∈ k.goodWords (draOp b), (k.blockDomains o).all k.domainOn = true) → j.regs = k.regs)) ∧
    exec (.draGet p) s = .next (s.setPkg p (k.emit (.draData k.pkc.draStatus k.pkc.draDone k.pkc.draData))) ∧
    (k.pkc.draStatus ≠ 3 → exec (.draAccessEnd p) s = .next s) ∧
    (k.pkc.draStatus = 3 → draBad k.pkc.draBytes = none →
      let n := draCount k.pkc.draBytes
      (k.busRefuses (draOffset k.pkc.draBytes) 4 = true → ∃ t, exec (.draAccessEnd p) s = .next t ∧ t.mem = s.mem ∧
        (t.pkg p).regs = k.regs ∧ (t.pkg p).pkc.draStatus = 1 ∧ (t.pkg p).pkc.draDone = 0 ∧ (t.pkg p).pkc.draData = []) ∧
      ((∀ w ∈ (draOp k.pkc.draBytes).words, k.busRefuses w.1 4 = false) → ∃ t, exec (.draAccessEnd p) s = .next t ∧
        (t.pkg p).pkc.draStatus = 0 ∧ (t.pkg p).pkc.draDone = n ∧
          (t.pkg p).pkc.draData.length = if draIsWrite k.pkc.draBytes then 0 else n)) ∧
    (∀ (t : TrayId) (pos : Fin 4), TrayId.pkgAt t pos = none → exec (.setdasa t pos) s = .next s) ∧
    (∀ (t : TrayId) (pos : Fin 4), TrayId.pkgAt t pos = some p → exec (.setdasa t pos) s =
      .next (s.setPkg p { k with pkc := { k.pkc with i3cAddr := BitVec.ofNat 8 (48 + pos.val) } })) ∧
    (∀ who, (k.pkc.run ≠ .reset ∨ who ≠ .cw) → exec (.aonPkgAddrWrite p who) s = .next s) ∧
    (k.pkc.run = .reset → ∃ j : Pkg, exec (.aonPkgAddrWrite p .cw) s = .next (s.setPkg p j) ∧ OnlyRegs k { j with pkc := k.pkc } ∧
      ((s.rack p.rack).rackNumber < 32 → j.addr = 128 * (s.rack p.rack).rackNumber + 16 * p.row.val + p.col.val ∧ j.rackNo = (s.rack p.rack).rackNumber ∧
        j.idx = 12 * p.row.val + p.col.val) ∧ (∀ o, o ≠ R.AON_PKG_ADDR → j.rg o = k.rg o) ∧
      (k.pkc.draStatus ≠ 3 → j.pkc = { k.pkc with draStatus := 0, draDone := 1, draData := [], draBytes := [] }) ∧
      (k.pkc.draStatus = 3 → j.pkc = k.pkc))

/-- R277, R289, Tables 13.3, 13.11: which control and SPDM requests a package answers, in which order, and over which bus. The codes and
layouts are those of the standards (the model's choice, log 39). -/
def Obligations.StandardMessages : Prop :=
  ∀ (s : State) (p : PkgId),
    let k := s.pkg p
    let key := s.moduleKey p
    let mctpSays (i : Instr) (c : Nat) (b : List Byte) : Prop := exec i s = .next (s.setPkg p (k.emit (.mctp c b)))
    let spdm (i : Instr) (c : Nat) (b : List Byte) : Prop := exec i s = .next (s.setPkg p (k.emit (.spdm c b)))
    (k.mctpUp = true →
      (∀ eid, exec (.setEndpointId p eid) s = .next (s.setPkg p ({ k with pkc := { k.pkc with eid := eid } }.emit (.mctp 1 [0, 0, eid, 0])))) ∧
      mctpSays (.getEndpointId p) 2 [0, k.pkc.eid, 0, 0] ∧ mctpSays (.getEndpointUuid p) 3 (0 :: leBytes 16 (Config.uuid key).toNat) ∧
      (∀ m : Byte, (m = 0xFF ∨ m = 0 ∨ m = 1 ∨ m = 5 ∨ m = 0x7F) → mctpSays (.getMctpVersionSupport p m) 4 [0, 1, 0xF1, 0xF3, 0xFF, 0]) ∧
      (∀ m : Byte, m ≠ 0xFF → m ≠ 0 → m ≠ 1 → m ≠ 5 → m ≠ 0x7F → mctpSays (.getMctpVersionSupport p m) 4 [0x80]) ∧
      mctpSays (.getMessageTypeSupport p true) 5 [0, 1, 1] ∧ mctpSays (.getMessageTypeSupport p false) 5 [0, 3, 1, 5, 0x7F] ∧
      mctpSays (.getVendorDefinedMessageSupport p false 0) 6 [0, 0xFF, 1, 0, 0, 0xD8, 0x1A, 0, 0] ∧
      (∀ x b, (x = true ∨ b ≠ 0) → mctpSays (.getVendorDefinedMessageSupport p x b) 6 [2])) ∧
    (k.pkc.run = .running →
      (exec (.getVersion p) s = .next (s.setPkg p ({ k with pkc := { k.pkc with spdmStep := 1, challengeOk := false } }.emit (.spdm 4 [1, 0, 0x12])))) ∧
      (k.pkc.spdmStep < 1 → spdm (.getCapabilities p) 0x7F [4]) ∧
      (1 ≤ k.pkc.spdmStep → exec (.getCapabilities p) s = .next (s.setPkg p
        ({ k with pkc := { k.pkc with spdmStep := max 2 k.pkc.spdmStep } }.emit (.spdm 0x61 (Config.spdmCaps key))))) ∧
      (∀ a h, k.pkc.spdmStep < 2 → spdm (.negotiateAlgorithms p a h) 0x7F [4]) ∧
      (∀ a h, 2 ≤ k.pkc.spdmStep → bit a.toNat 7 = true → bit h.toNat 1 = true → exec (.negotiateAlgorithms p a h) s = .next (s.setPkg p
        ({ k with pkc := { k.pkc with spdmStep := 3 } }.emit (.spdm 0x63 (leBytes 4 0x80 ++ leBytes 4 2))))) ∧
      (∀ a h, 2 ≤ k.pkc.spdmStep → (bit a.toNat 7 = false ∨ bit h.toNat 1 = false) → spdm (.negotiateAlgorithms p a h) 0x7F [1]) ∧
      (k.pkc.spdmStep < 3 → spdm (.getDigests p) 0x7F [4] ∧ (∀ sl o n, spdm (.getCertificate p sl o n) 0x7F [4]) ∧
        (∀ sl n, spdm (.challenge p sl n) 0x7F [4]) ∧ ∀ n, spdm (.getMeasurements p n) 0x7F [4]) ∧
      (3 ≤ k.pkc.spdmStep → spdm (.getDigests p) 1 (1 :: leBytes 48 (sha384 (Config.certChain key)).toNat) ∧
        (∀ sl o n, sl ≠ 0 → spdm (.getCertificate p sl o n) 0x7F [1]) ∧
        (∀ o n, let part := slice (Config.certChain key) o.toNat n.toNat
          spdm (.getCertificate p 0 o n) 2
            (0 :: (leBytes 2 part.length ++ leBytes 2 ((Config.certChain key).length - o.toNat - part.length) ++ part))) ∧
        (∀ sl n, sl ≠ 0 → spdm (.challenge p sl n) 0x7F [1]) ∧
        (∀ n, exec (.challenge p 0 n) s = .next (s.setPkg p
          ({ k with pkc := { k.pkc with challengeOk := Config.chainGood key && signatureGood key (challengeBody key n) } }.emit
            (.spdm 3 (signed key (challengeBody key n)))))) ∧
        (∀ n, (s.posn (PkgId.tray p) (PkgId.pos p)).step ≠ 8 → spdm (.getMeasurements p n) 0x60 (signed key (k.measurements key n)))))

/-- R36, R284–R290, R297, R37, R367: bring-up, step by step. The flash is compared before power; power waits for the coolant flow and a closed latch;
PKG_RESET_N and the records come with MOD_PWR_GOOD, unless a quarantine holds the package; PKC_HOLD_N rises only after step 5 and under a
helm, with the address written; BOOT_DONE needs an address; two misses boot into lifeboat; a second attestation failure removes the power and blocks the module. -/
def Obligations.BringUp : Prop :=
  (∀ (s : State) (t : TrayId) (pos : Fin 4), (s.posn t pos).latchOpen = true → s.bringUp t pos = s) ∧
  ∀ (s : State) (p : PkgId) (t : TrayId) (pos : Fin 4), TrayId.pkgAt t pos = some p →
    let k := s.pkg p
    let c := s.tray t
    let x := s.posn t pos
    let match_ (g : Golden) : Bool := c.matches (k.bankImg k.activeBank) g
    let free_ := x.latchOpen = false ∧ x.pwrEn = false ∧ x.pwrGood = false ∧ x.blocked = false ∧ x.shutdownHold = false
    (∀ serial, ∃ u, exec (.modPresent t pos serial) s = .next u ∧ (u.posn t pos).present = true ∧ (u.posn t pos).serial = serial ∧
      ((x.latchOpen = true ∨ x.pwrEn = true) → (u.posn t pos).pwrEn = x.pwrEn) ∧
      (x.serial = serial → x.pwrEn = false → (x.blocked = true ∨ x.shutdownHold = true) → (u.posn t pos).pwrEn = false) ∧
      (free_ → ((s.rack t.rack).flowProven = false ∨ c.busbarWait = true) → (u.posn t pos).pwrEn = false ∧ (u.posn t pos).step = 1) ∧
      (free_ → x.serial = serial → (s.rack t.rack).flowProven = true → c.busbarWait = false →
        (∀ g, c.golden 1 pos.val = some g → match_ g = true → (u.posn t pos).pwrEn = true ∧ (u.posn t pos).step = 3 ∧
          (u.posn t pos).flashBad = false) ∧
        (c.golden 1 pos.val = none → (u.posn t pos).pwrEn = true ∧ (u.posn t pos).step = 3) ∧
        (∀ g, c.golden 1 pos.val = some g → match_ g = false → (u.posn t pos).pwrEn = false ∧ (u.posn t pos).step = 2))) ∧
    (x.pwrEn = true → ∃ u, exec (.modLatchOpen t pos true) s = .next u ∧ (u.posn t pos).pwrEn = false ∧ (u.posn t pos).resetN = false ∧
      (u.posn t pos).latchOpen = true ∧ Msg.report "SWAP_FORCED" pos.val 0 ∈ (u.tray t).out) ∧
    (x.pwrEn = false → exec (.modLatchOpen t pos true) s = .next (s.setPosn t pos { x with latchOpen := true })) ∧
    (x.unseated = false → exec (.modLatchOpen t pos false) s = .next (s.setPosn t pos { x with latchOpen := false })) ∧
    ((x.pwrEn = false ∨ x.pwrGood = true) → exec (.modPwrGood t pos) s = .next s) ∧
    (x.pwrEn = true → x.pwrGood = false → ∃ u, exec (.modPwrGood t pos) s = .next u ∧ (u.posn t pos).pwrGood = true ∧
      let held := (s.quarantined p).any holdsPackage || k.dark.heldResets.contains .package
      (held = true → (u.posn t pos).resetN = x.resetN ∧ (u.posn t pos).step = 4) ∧
      (held = false → (u.posn t pos).resetN = true ∧ (u.posn t pos).step = 5 ∧ (u.posn t pos).bootSrc = c.chooseSource pos.val ∧
        (u.posn t pos).mirrorBoot = (if x.mirrorSerial = some x.serial then x.mirrorBoot + 1 else 0) ∧
        (k.pkc.run = .reset → (u.pkg p).get F.FLT_BOOT_BOOT = (u.posn t pos).mirrorBoot % 65536))) ∧
    (PkgId.tray p = t → p.position = pos.val →
      ((x.step ≠ 5 ∨ s.helm p.rack = none) → exec (.pkcRelease p) s = .next s) ∧
      (x.step = 5 → s.helm p.rack ≠ none → ∃ u, exec (.pkcRelease p) s = .next u ∧ (u.posn t pos).holdN = true ∧ (u.posn t pos).step = 7 ∧
        (u.posn t pos).since = s.now ∧ (u.pkg p).pkc.bootSrc = x.bootSrc ∧
        (u.pkg p).pkc.run = (if x.bootSrc = 3 then .lifeboat else if x.bootSrc = 2 then .romWait else .booting) ∧
        ((s.rack p.rack).rackNumber < 32 → (u.pkg p).addr = 128 * (s.rack p.rack).rackNumber + 16 * p.row.val + p.col.val) ∧
        (k.est ≠ 0 → (u.pkg p).est = k.est) ∧
        (k.est = 0 → 150 ≤ (u.pkg p).est ∧ (u.pkg p).get F.THR_RESIST_EST_SEEDED = 1 ∧ (u.pkg p).get F.THR_SEA_TRIAL_ACTIVE = 1))) ∧
    (k.pkc.run ≠ .booting → exec (.pkcBootEnd p) s = .next (s.setPkg p k)) ∧
    (k.pkc.run = .booting → ∃ j : Pkg, exec (.pkcBootEnd p) s = .next (s.setPkg p j) ∧ j.pkc.run = .running ∧ j.pkc.hbAt = some s.now ∧
      (k.rg R.AON_PKG_ADDR = 0xFFFF → j.pkc.bootDone = k.pkc.bootDone ∧ j.out = k.out ++ [.cwEvent 2 0]) ∧
      (k.rg R.AON_PKG_ADDR ≠ 0xFFFF → j.pkc.bootDone = true ∧ j.out = k.out ++ [.cwEvent 1 0])) ∧
    ((x.step ≠ 7 ∨ x.bootSrc = 3 ∨ s.now < x.since + 10000000000) → exec (.bootTimeout t pos) s = .next s) ∧
    (x.step = 7 → x.bootSrc ≠ 3 → x.since + 10000000000 ≤ s.now → ∃ u, exec (.bootTimeout t pos) s = .next u ∧
      (u.posn t pos).holdN = false ∧ (u.posn t pos).misses = x.misses + 1 ∧
      (x.misses = 1 → Msg.report "BOOT_FAIL" pos.val 0 ∈ (u.tray t).out) ∧
      ((u.posn t pos).step = 5 → 1 ≤ x.misses → (u.posn t pos).bootSrc = 3)) ∧
    (∀ code data, ∃ u, exec (.event t pos code data) s = .next u ∧ u.pkgs = s.pkgs ∧
      Msg.report "EVENT" pos.val (code.toNat + 256 * data.toNat) ∈ (u.tray t).out ∧
      (code = 1 → x.step = 7 → (u.posn t pos).step = 8 ∧ (u.posn t pos).misses = 0) ∧
      ((code ≠ 1 ∨ x.step ≠ 7) → u.posn t pos = x) ∧
      (code = 5 → bits data.toNat 56 8 = 8 → ∀ a, s.helm t.rack = some a →
        (u.alm a).log.quarantine.contains (p.key, bits data.toNat 32 16) = true)) ∧
    (∀ nonce, PkgId.tray p = t → PkgId.pos p = pos → k.pkc.run = .running → 3 ≤ k.pkc.spdmStep → x.step = 8 →
      ∃ u, exec (.getMeasurements p nonce) s = .next u ∧
        (s.attests p nonce = true → (u.posn t pos).step = 9 ∧ (u.posn t pos).attested = true ∧ Msg.report "READY" pos.val 0 ∈ (u.tray t).out) ∧
        (s.attests p nonce = false → x.attestFails = 0 → (u.posn t pos).attestFails = 1 ∧ (u.posn t pos).holdN = false ∧
          (c.golden 1 pos.val ≠ none → (u.posn t pos).step = 2)) ∧
        (s.attests p nonce = false → x.attestFails ≠ 0 → (u.posn t pos).pwrEn = false ∧ (u.posn t pos).blocked = true ∧
          Msg.report "ATTEST_FAIL" pos.val 0 ∈ (u.tray t).out))

/-- R145, R275, R282–R285, R294–R296, R308: the CW's own state. A start makes both golden copies equal the good one and leaves every line as it is; a
Meridian tray whose switch leaves reset begins full training on the ports that are OFF, and no other start or reflash touches a port; a
reflash is compared again; a poll records the module; a shutdown or a fenced swap removes the power. -/
def Obligations.TrayController : Prop :=
  ∀ (s : State) (t : TrayId),
    let c := s.tray t
    (∃ u, exec (.cwStart t) s = .next u ∧ (u.tray t).debugOpen = false ∧ u.pkgs = s.pkgs ∧ (∀ pos, u.posn t pos = s.posn t pos) ∧
      (u.tray t).epochSeen = c.epochSeen ∧ (u.tray t).lifeboat = c.lost.any (fun e => e.1 = 6) ∧ (u.tray t).running = !(u.tray t).lifeboat ∧
      ∀ kind target, goldFind (u.tray t).nor0 kind target = c.golden kind target ∧ goldFind (u.tray t).nor1 kind target = c.golden kind target) ∧
    (∀ (c1 : CwSt), ((t.slot.val < 24 ∨ c1.switchUp = false ∨ c.switchUp = true) → s.setChips t c1 = s.setTray t c1) ∧
      ∀ pl : Fin 4, t.slot.val = 24 + pl.val → c1.switchUp = true → c.switchUp = false → (s.setChips t c1).tray t = c1 ∧ ∀ q, q < 288 →
        let x := (s.router (.meridian t.rack pl)).port q
        let y := ((s.setChips t c1).router (.meridian t.rack pl)).port q
        (x.state = .off → y = { x with state := .training, training := true }) ∧ (x.state ≠ .off → y = x)) ∧
    (exec (.cwStart t) s = .next ((s.setChips t c.restart).checkRunning t)) ∧
    (∀ (kind : Fin 8) (target : Byte), c.golden kind.val target.toNat = none → exec (.reflashEnd t kind target) s = .next s) ∧
    (∀ (kind : Fin 8) (target : Byte) (g : Golden), c.golden kind.val target.toNat = some g → 2 ≤ kind.val → kind.val ≤ 5 →
      let img := Config.reflashed s.free g.image
      let key := 256 * kind.val + target.toNat
      ∃ u, exec (.reflashEnd t kind target) s = .next u ∧ sget [] (u.tray t).chipImages key = img ∧
        (u.tray t).chipOut.contains key = c.matches img g ∧ (u.tray t).chipHeld.contains key = !c.matches img g ∧
        (c.matches img g = false → Msg.report "REFLASH_FAIL" target.toNat kind.val ∈ (u.tray t).out)) ∧
    (∀ (pos : Fin 4) (p : PkgId) (g : Golden), TrayId.pkgAt t pos = some p → c.golden 1 pos.val = some g →
      let x := s.posn t pos
      let img := Config.reflashed s.free g.image
      (x.step ≠ 2 → exec (.reflashEnd t 1 (BitVec.ofNat 8 pos.val)) s = .next s) ∧
      (x.step = 2 → x.pwrGood = false → ∃ u, exec (.reflashEnd t 1 (BitVec.ofNat 8 pos.val)) s = .next u ∧
        (u.posn t pos).flashBad = !c.matches img g ∧ (u.pkg p).bankImg (u.pkg p).activeBank = img ∧
        (u.posn t pos).pwrEn = true ∧ (u.posn t pos).step = 3 ∧
        (c.matches img g = false → Msg.report "REFLASH_FAIL" pos.val 1 ∈ (u.tray t).out))) ∧
    (∀ pos : Fin 4,
      let x := s.posn t pos
      (TrayId.pkgAt t pos = none → exec (.telemetryPoll t pos) s = .next s) ∧
      (∀ p, TrayId.pkgAt t pos = some p → (x.resetN = false ∨ (s.pkg p).mctpUp = false) → exec (.telemetryPoll t pos) s = .next s) ∧
      (∀ p, TrayId.pkgAt t pos = some p → x.resetN = true → (s.pkg p).mctpUp = true → ∃ u, exec (.telemetryPoll t pos) s = .next u ∧
        Msg.report "FLEET_TIME" pos.val ((s.pkg p).time s.now) ∈ (u.tray t).out ∧
        ∃ r, (u.tray t).record x.serial = some r ∧ r.hours = (s.pkg p).get F.PWR_AGE_HOURS_HOURS) ∧
      (∃ u, exec (.thermShdnN t pos) s = .next u ∧ (u.posn t pos).pwrEn = false ∧ (u.posn t pos).resetN = false ∧
        (u.posn t pos).shutdownHold = true ∧ Msg.report "THERMAL_SHUTDOWN" pos.val 0 ∈ (u.tray t).out) ∧
      (∀ epoch, epoch.toNat < c.epochSeen.toNat → exec (.swapOut t pos epoch) s = .next (s.cwReport t "LEASE_STALE" 0 epoch.toNat)) ∧
      (∀ epoch p, c.epochSeen.toNat ≤ epoch.toNat → TrayId.pkgAt t pos = some p → ∃ u, exec (.swapOut t pos epoch) s = .next u ∧
        (u.tray t).epochSeen = epoch ∧ (u.posn t pos).pwrEn = false ∧ (u.posn t pos).holdN = false ∧ (u.posn t pos).resetN = false ∧
        (u.posn t pos).indicator = true))

/-! ### The Almanac pair -/

/-- R300–R304, R355: RENEW and its acknowledgements, the end of the lease at S + 450 ms, TAKE after 400 ms of silence, a CW's vote (one for each
epoch, and none below what it has seen), entry into HELM on 15 grants, and the start. -/
def Obligations.HelmLease : Prop :=
  ∀ (s : State) (a : AlmId),
    let x := s.alm a
    let other := AlmId.peer a
    ((x.role ≠ .helm ∨ s.now < x.ackedAt + 450000000) → exec (.leaseExpiry a) s = .next (s.setAlm a x)) ∧
    (x.role = .helm → x.ackedAt + 450000000 ≤ s.now →
      exec (.leaseExpiry a) s = .next (s.setAlm a { x with role := .adrift, sextant := false, ptp := false })) ∧
    ((x.role ≠ .standby ∨ x.takeEpoch ≠ none ∨ s.now < x.heardAt + 400000000 ∨ s.now < x.retryAt) →
      exec (.silenceTimeout a) s = .next (s.setAlm a x)) ∧
    (x.role = .standby → x.takeEpoch = none → x.heardAt + 400000000 ≤ s.now → x.retryAt ≤ s.now → ∃ y : AlmSt,
      exec (.silenceTimeout a) s = .next (s.setAlm a y) ∧ y.role = .standby ∧ y.takeEpoch = some (maxWord x.knownHigh x.log.epoch + 1) ∧
        y.out = x.out ++ [.takeMsg (maxWord x.knownHigh x.log.epoch + 1)] ∧ y.takeAt = s.now ∧ y.grants = []) ∧
    (∀ (t : TrayId) (epoch : Word), (t.rack ≠ a.rack ∨ (s.tray t).running = false) → exec (.take t a epoch) s = .next s) ∧
    (∀ (t : TrayId) (epoch : Word), t.rack = a.rack → (s.tray t).running = true →
      let c := s.tray t
      let vote := c.grants s.now epoch
      (vote = true → c.epochSeen.toNat < epoch.toNat ∧ (c.relinquished = none → ∀ r, c.renewAt = some r → r + 400000000 ≤ s.now)) ∧
      ∃ u, exec (.take t a epoch) s = .next u ∧ (u.tray t).out = c.out ++ [.takeAnswer vote (u.tray t).epochSeen] ∧
        (vote = true → (u.tray t).epochSeen = epoch ∧ ∀ n e, e.toNat ≤ epoch.toNat → (u.tray t).grants n e = false) ∧
        (vote = false → (u.tray t).epochSeen = c.epochSeen ∧ (u.alm a).grants = x.grants) ∧
        (vote = true → x.role = .standby → x.takeEpoch = some epoch → (u.alm a).grants = addTo x.grants t.slot.val) ∧
        (u.alm a).role = x.role) ∧
    ((x.takeEpoch = none ∨ x.role ≠ .standby ∨ x.grants.length < 15 ∨ x.takeAt + 50000000 < s.now) → exec (.takeGrant a) s = .next s) ∧
    (∀ e, x.takeEpoch = some e → x.role = .standby → 15 ≤ x.grants.length → s.now ≤ x.takeAt + 50000000 → ∃ u,
      exec (.takeGrant a) s = .next u ∧ (u.alm a).role = .helm ∧ (u.alm a).log.epoch = e ∧ (u.alm a).log.holder = some a.sideB ∧
        (u.alm a).ackedAt = x.takeAt ∧ (u.alm a).ptp = true ∧ (u.alm a).sextant = true ∧ (u.alm a).brakeFrom = s.now ∧
        (x.log.seqHigh.toNat < 2 ^ 63 → x.log.seqHigh.toNat + 2 ^ 32 ≤ (u.alm a).log.seqHigh.toNat) ∧ u.capsFollow a.rack) ∧
    ((x.takeEpoch = none ∨ s.now < x.takeAt + 50000000 ∨ 15 ≤ x.grants.length) → exec (.takeRoundEnd a) s = .next (s.setAlm a x)) ∧
    (x.takeEpoch ≠ none → x.takeAt + 50000000 ≤ s.now → x.grants.length < 15 → ∃ y : AlmSt, exec (.takeRoundEnd a) s = .next (s.setAlm a y) ∧
      y.takeEpoch = none ∧ y.role = x.role ∧ y.retryAt = s.now + (if a.sideB then 700000000 else 200000000) ∧
      y.out = x.out ++ [.alarm "PAIR_LOST" true]) ∧
    (x.role = .off → exec (.almanacBoot a) s = .next (s.setAlm a { x with role := .booting, bootAt := s.now })) ∧
    (x.role ≠ .off → x.role ≠ .booting → exec (.almanacBoot a) s = .next (s.setAlm a x)) ∧
    (x.role = .booting → (s.alm other).role = .helm → ∃ y : AlmSt, exec (.almanacBoot a) s = .next (s.setAlm a y) ∧ y.role = .syncing) ∧
    (x.role = .booting → (s.alm other).role = .off → s.now < x.bootAt + 10000000000 → exec (.almanacBoot a) s = .next (s.setAlm a x)) ∧
    (x.role = .booting → (s.alm other).role ≠ .helm → ((s.alm other).role ≠ .off ∨ x.bootAt + 10000000000 ≤ s.now) → ∃ y : AlmSt,
      exec (.almanacBoot a) s = .next (s.setAlm a y) ∧ y.role = .standby ∧ (y.retryAt = s.now ∨ y.retryAt = s.now + 1000000000) ∧
        ((s.alm other).role = .off → (y.retryAt = s.now ↔ x.log.holder.getD false = a.sideB))) ∧
    (∀ (epoch : Word) (slot : Fin 28),
      let t : TrayId := ⟨a.rack, slot⟩
      let mine := x.role = .helm ∧ x.log.epoch = epoch
      ((s.tray t).running = false → ∃ u, exec (.renew a epoch false slot) s = .next u ∧ u.trays = s.trays) ∧
      ((s.tray t).running = true → ∃ u, exec (.renew a epoch false slot) s = .next u ∧ (u.tray t).renewAt = some s.now ∧
        (u.tray t).epochSeen = maxWord (s.tray t).epochSeen epoch ∧ (u.tray t).out = (s.tray t).out ++ [.renewAck slot.val epoch] ∧
        (mine → (u.alm a).acks.contains slot.val = true ∧ (15 ≤ (u.alm a).acks.length → (u.alm a).ackedAt = (u.alm a).renewSent))) ∧
      ((s.alm other).role = .off → ∃ u, exec (.renew a epoch true slot) s = .next u ∧ u.alm other = s.alm other ∧ u.trays = s.trays) ∧
      ((s.alm other).role ≠ .off → ∃ u, exec (.renew a epoch true slot) s = .next u ∧ (u.alm other).heardAt = s.now ∧ u.trays = s.trays ∧
        ((s.alm other).role = .helm → (s.alm other).log.epoch.toNat < epoch.toNat → (u.alm other).role = .adrift ∧
          (u.alm other).sextant = false ∧ (u.alm other).ptp = false) ∧
        (((s.alm other).role = .adrift ∨ (s.alm other).role = .booting) → (u.alm other).role = .syncing) ∧
        ((s.alm other).role = .standby → (u.alm other).role = .standby) ∧
        (mine → (u.alm a).peerAck = true ∧ (u.alm a).ackedAt = (u.alm a).renewSent)))

/-- R305–R309, R313, R354, R355: the standby echoes messages unchanged; a CW takes a message only above the highest number it accepted of its
kind and target; it executes an action only under an epoch at least the highest seen, which it records, and refuses another with LEASE_STALE;
and how a standby is lost, syncs, updates and falls back to its previous bank. -/
def Obligations.StreamsAndFencing : Prop :=
  ∀ (s : State) (a : AlmId),
    let x := s.alm a
    let other := AlmId.peer a
    (∀ kind t pos seq v, x.role ≠ .standby → exec (.echo a kind t pos seq v) s = .next (s.setAlm a x)) ∧
    (∀ kind (t : TrayId) (pos : Fin 4) seq v, x.role = .standby → ∃ y : AlmSt, exec (.echo a kind t pos seq v) s = .next (s.setAlm a y) ∧
      y.out = x.out ++ [.idem kind t.slot.val pos.val seq v] ∧ y.role = .standby ∧ seq.toNat ≤ y.log.seqHigh.toNat ∧
      x.log.seqHigh.toNat ≤ y.log.seqHigh.toNat) ∧
    (∀ (t : TrayId) kind (pos : Fin 4) (seq : BitVec 64) (v : Word),
      let c := s.tray t
      let key := 4 * idemIndex kind + pos.val
      (∀ n, sfind c.seqSeen key = some n → seq.toNat ≤ n.toNat →
        exec (.idempotentMessage t kind pos seq v) s = .next (s.setTray t { c with discarded := c.discarded + 1 })) ∧
      ((∀ n, sfind c.seqSeen key = some n → n.toNat < seq.toNat) → ∃ u, exec (.idempotentMessage t kind pos seq v) s = .next u ∧
        sfind (u.tray t).seqSeen key = some seq ∧ (u.tray t).discarded = c.discarded ∧
        (kind = .cap → (u.posn t pos).held = some v.toNat ∧ ∀ p, TrayId.pkgAt t pos = some p → (s.posn t pos).resetN = true →
          5 ≤ (s.posn t pos).step → 150 ≤ v.toNat → v.toNat ≤ 1150 → v.toNat % 5 = 0 → (u.pkg p).get F.PWR_LADDER_CAP_CAP = v.toNat))) ∧
    (∀ (t : TrayId) (pos : Fin 4) (epoch : Word) kind,
      let c := s.tray t
      (epoch.toNat < c.epochSeen.toNat → exec (.fencedAction t pos epoch kind) s = .next (s.cwReport t "LEASE_STALE" 0 epoch.toNat) ∧
        exec (.relinquish t epoch) s = .next (s.cwReport t "LEASE_STALE" 0 epoch.toNat)) ∧
      (c.epochSeen.toNat ≤ epoch.toNat →
        (∃ u, exec (.relinquish t epoch) s = .next u ∧ (u.tray t).epochSeen = epoch ∧ (u.tray t).relinquished = some epoch) ∧
        ∃ u, exec (.fencedAction t pos epoch kind) s = .next u ∧ (u.tray t).epochSeen = epoch ∧
          (kind = .openDebug → (u.tray t).debugOpen = true) ∧ (kind = .relinquish → (u.tray t).relinquished = some epoch) ∧
          (∀ b, kind = .bootSource b → (u.posn t pos).bootOrder = some b) ∧
          (∀ e t0 (pl : Fin 4) h, kind = .turnGo e t0 → t.slot.val = 24 + pl.val → s.helm t.rack = some h →
            (u.router (.meridian t.rack pl)).newMap = (s.alm h).log.shadowChart ∧ (u.router (.meridian t.rack pl)).mapT0 = t0) ∧
          (TrayId.pkgAt t pos ≠ none → (kind = .attestationRelease → (u.posn t pos).blocked = false) ∧
            (kind = .powerOn → (s.posn t pos).pwrEn = false → (u.posn t pos).shutdownHold = false) ∧
            (kind = .swapOut → (u.posn t pos).pwrEn = false ∧ (u.posn t pos).indicator = true)))) ∧
    ((x.role ≠ .helm ∨ (s.alm other).role ≠ .standby) → exec (.standbyLost a) s = .next s) ∧
    (x.role = .helm → (s.alm other).role = .standby → ∃ u, exec (.standbyLost a) s = .next u ∧ (u.alm other).role = .syncing ∧
      (u.alm a).role = .helm ∧ (u.alm a).log.alarms.contains "STANDBY_LOST" = true) ∧
    ((x.role ≠ .syncing ∨ (s.alm other).role ≠ .helm) → exec (.syncEnd a) s = .next (s.setAlm a x)) ∧
    (x.role = .syncing → (s.alm other).role = .helm → ∃ y : AlmSt, exec (.syncEnd a) s = .next (s.setAlm a y) ∧ y.role = .standby ∧
      y.log = (s.alm other).log ∧ y.heardAt = s.now) ∧
    (∀ img, x.role ≠ .standby → exec (.almanacUpdate a img) s = .next (s.setAlm a x)) ∧
    (∀ img, x.role = .standby → exec (.almanacUpdate a img) s = .next (s.setAlm a { x with
      bank := img, bankOld := x.bank, role := .booting, bootAt := s.now, updatedAt := some s.now, takeEpoch := none })) ∧
    ((x.role ≠ .booting ∨ x.updatedAt = none ∨ ∃ t, x.updatedAt = some t ∧ s.now < t + 300000000000) →
      exec (.previousBankRestart a) s = .next (s.setAlm a x)) ∧
    (∀ t, x.role = .booting → x.updatedAt = some t → t + 300000000000 ≤ s.now → exec (.previousBankRestart a) s =
      .next (s.setAlm a { x with bank := x.bankOld, bankOld := x.bank, bootAt := s.now, updatedAt := none }))

/-- R124, R229, R251, R290, R295, R296, R309, R310, R315, R316, R331, R355–R357, R373: an operator's request at either manager. With no
helm that may act it gets 503; the helm refuses it with its status, or logs the action, sends it under its epoch, and answers. A turn's
image must be checked as a pair with the active Chart; one with an even EPOCH that would follow the safe first Chart is re-emitted with
EPOCH one higher. The status of an unchecked pair is the model's name (log 93). -/
def Obligations.OperatorActions : Prop :=
  ∀ (s : State) (a : AlmId),
    let no (i : Instr) : Prop := exec i s = .next (s.http a 503 "RETRY")
    let bad (i : Instr) (why : String) : Prop := exec i s = .next (s.http a 400 why)
    (s.noHelm a.rack → (∀ img t0 ck, no (.turnChart a ⟨img, ck⟩ t0)) ∧ no (.abortTurn a) ∧ (∀ p u, no (.releaseQuarantine a p u)) ∧
      (∀ p, no (.releaseAttestation a p) ∧ no (.swapoutRequest a p) ∧ no (.powerOn a p)) ∧ (∀ n, no (.rackNumberSet a n)) ∧
      (∀ ts img, no (.updatePush a ts img)) ∧ (∀ t, no (.activate a t)) ∧ no (.handOver a) ∧
      ∀ u ok, exec (.unitUpdate a.rack u ok) s = .next (s.http ⟨a.rack, false⟩ 503 "RETRY")) ∧
    ∀ h : AlmId, s.helmActs a.rack h →
      let l := (s.alm h).log
      let sent (i : Instr) (key : Nat) (kind : FencedKind) (f : AlmLog → Prop) : Prop := ∃ t, exec i s = .next t ∧
        (key, l.epoch, kind) ∈ (t.alm h).log.actions ∧ Msg.fenced key l.epoch kind ∈ (t.alm h).out ∧ Msg.http 200 "OK" ∈ (t.alm a).out ∧
        t.pkgs = s.pkgs ∧ t.trays = s.trays ∧ f (t.alm h).log
      (∀ service t0,
        let img := l.toTurn service
        ((chEpoch service % 2 = 1 ∨ (l.activeChart ≠ [] ∧ chSafe l.activeChart = false)) → img = service) ∧
        (chEpoch service % 2 = 0 → (l.activeChart = [] ∨ chSafe l.activeChart = true) → 0x100 ≤ service.length → 0x110 ≤ (sec service 10).1 →
          chEpoch img = chEpoch service + 1) ∧
        bad (.turnChart a ⟨service, false⟩ t0) "UNCHECKED_PAIR" ∧
        (∀ why, s.refuseTurn h img = some why → bad (.turnChart a ⟨service, true⟩ t0) why) ∧
        (s.refuseTurn h img = none → sent (.turnChart a ⟨service, true⟩ t0) h.rack.val (.turnGo (BitVec.ofNat 32 (chEpoch img)) t0) fun m =>
          m.turnT0 = some t0 ∧ m.shadowChart = img)) ∧
      sent (.abortTurn a) h.rack.val .turnAbort (fun _ => True) ∧
      (∀ (p : PkgId) (u : Byte), p.rack ≠ h.rack → bad (.releaseQuarantine a p u) "BAD_VALUE" ∧ bad (.releaseAttestation a p) "BAD_VALUE" ∧
        bad (.swapoutRequest a p) "BAD_VALUE" ∧ bad (.powerOn a p) "BAD_VALUE") ∧
      (∀ (p : PkgId) (u : Byte), p.rack = h.rack →
        sent (.releaseQuarantine a p u) p.key (.quarantineRelease u) (fun m => m.quarantine = l.quarantine.filter (· ≠ (p.key, u.toNat))) ∧
        sent (.releaseAttestation a p) p.key .attestationRelease (fun m => m.attestBlocked = l.attestBlocked.filter (· ≠ p.key)) ∧
        sent (.powerOn a p) p.key .powerOn (fun m => m.siteCapW = l.siteCapW) ∧
        ∃ t, exec (.swapoutRequest a p) s = .next t ∧ (p.key, l.epoch, FencedKind.swapOut) ∈ (t.alm h).log.actions ∧
          Msg.command "BUILD_VARIANT" h.rack.val p.key ∈ (t.alm h).out ∧ t.trays = s.trays) ∧
      (∀ n, 31 < n → bad (.rackNumberSet a n) "BAD_VALUE") ∧
      (∀ n, n ≤ 31 → ∃ t, exec (.rackNumberSet a n) s = .next t ∧ (t.alm h).log.rackNumber = n ∧ t.racks = s.racks ∧
        Msg.http 200 "OK" ∈ (t.alm a).out) ∧
      (∀ ts img, ∃ t, exec (.updatePush a ts img) s = .next t ∧ t.pkgs = s.pkgs) ∧
      (∀ (p : PkgId) img, p.rack = h.rack → isKeyRecord img = false →
        let r := (s.tray (PkgId.tray p)).stage 1 p.position img
        exec (.updatePush a [.pkc p] img) s =
          .next ((s.setTray (PkgId.tray p) r.2).http a (if r.1 = 0 then 200 else 400) (failName r.1))) ∧
      (∀ t, targetRack t ≠ h.rack → bad (.activate a t) "BAD_VALUE") ∧
      (∀ t, targetRack t = h.rack → sent (.activate a t) (targetKey t) .activate (fun _ => True)) ∧
      ((s.alm (AlmId.peer h)).role ≠ .standby → bad (.handOver a) "STANDBY_LOST") ∧
      ((s.alm (AlmId.peer h)).role = .standby → ∃ t, exec (.handOver a) s = .next t ∧ (t.alm h).role = .standby ∧
        Msg.fenced h.rack.val l.epoch .relinquish ∈ (t.alm h).out ∧ ∃ e, (t.alm (AlmId.peer h)).takeEpoch = some e ∧
          Msg.takeMsg e ∈ (t.alm (AlmId.peer h)).out) ∧
      (∀ (n : Fin 36) ok,
        let single := { s.rack a.rack with psuFault := addTo (s.rack a.rack).psuFault n.val }.single
        (single < l.siteCapW → exec (.unitUpdate a.rack (.psu n) ok) s = .next (s.http h 400 "UPDATE_SHORT")) ∧
        (l.siteCapW ≤ single → exec (.unitUpdate a.rack (.psu n) true) s = .next (s.http h 200 "OK") ∧
          ∃ t, exec (.unitUpdate a.rack (.psu n) false) s = .next t ∧ (t.rack a.rack).psuFault.contains n.val = true ∧
            (t.alm h).log.alarms.contains "PSU_DEAD" = true)) ∧
      (∀ (n : Fin 2) ok,
        ((s.rack a.rack).pumpBad.contains (1 - n.val) = true → exec (.unitUpdate a.rack (.pump n) ok) s = .next (s.http h 400 "UPDATE_SHORT")) ∧
        ((s.rack a.rack).pumpBad.contains (1 - n.val) = false → exec (.unitUpdate a.rack (.pump n) true) s = .next (s.http h 200 "OK") ∧
          ∃ t, exec (.unitUpdate a.rack (.pump n) false) s = .next t ∧ (t.rack a.rack).pumpBad.contains n.val = true ∧
            (t.alm h).log.alarms.contains "PUMP_DEAD" = true))

/-- R27–R32, R66, R102, R112, R134, R137, R311, R314: discovery leaves one member for each rack number and keeps the others' fleet links
out; the rack that first discovers a fleet without members leads it (the model's choice, log 94). A checked fleet turn whose images agree
is sent to every rack, and another is not; helms refuse an order under a stale term, or one that their own tests refuse. A region enters
once every rack of the one before it has reported its commits. When the flagship has had no helm for 2 s its first successor with one
takes the fleet roles, the fleet time among them, under a new term, and the fleet turn is withdrawn rack by rack. Which images the helm
refuses beyond R102 and R112, and which rack is withdrawn first, is the model's reading (log 82, log 29). -/
def Obligations.FleetRoles : Prop :=
  ∀ (s : State) (rack : Fin 32),
    let f := s.fleet
    let able := f.successors.filter fun r => (s.helm (rackAt r)).isSome
    let lost := (s.helm (rackAt f.flagship)) = none ∧ ∃ t, f.lostAt = some t ∧ t + 2000000000 ≤ s.now
    ((s.helm rack = none ∨ f.leads rack.val = false) → exec (.fleetDiscovery rack) s = .next s) ∧
    (s.helm rack ≠ none → f.leads rack.val = true → ∃ t, exec (.fleetDiscovery rack) s = .next t ∧ t.pkgs = s.pkgs ∧
      (f.members = [] → t.fleet.flagship = rack.val) ∧ (f.members ≠ [] → t.fleet.flagship = f.flagship) ∧
      (∀ q r : Fin 32, s.helm q ≠ none → s.helm r ≠ none → (s.rack q).rackNumber = (s.rack r).rackNumber →
        t.fleet.members.contains q.val = true → t.fleet.members.contains r.val = true → q = r) ∧
      (∀ r : Fin 32, s.helm r ≠ none → t.fleet.members.contains r.val = !t.fleet.isolated.contains r.val) ∧
      (∀ (r : Fin 32) (pl : Fin 4) n, n < 144 →
        let x := (s.router (.meridian r pl)).port (144 + n)
        let y := (t.router (.meridian r pl)).port (144 + n)
        (t.fleet.isolated.contains r.val = true → y.state = .heldDown) ∧
        (t.fleet.isolated.contains r.val = false → f.isolated.contains r.val = false → y = x) ∧
        (s.helm r ≠ none → t.fleet.isolated.contains r.val = false → f.isolated.contains r.val = true → x.state = .heldDown → y.state = .training))) ∧
    (∀ t0 img images ck, (s.helm rack = none ∨ f.leads rack.val = false ∨ f.turnT0 ≠ none) → exec (.fleetTurn rack t0 img ⟨images, ck⟩) s = .next s) ∧
    (∀ t0 img images ck h, s.helm rack = some h → f.leads rack.val = true → f.turnT0 = none →
      (s.fleetOrderOk img images ck = false → exec (.fleetTurn rack t0 img ⟨images, ck⟩) s =
        .next (s.setAlm h ((s.alm h).emit (.command "FLEET_TURN_REFUSED" rack.val t0)))) ∧
      (s.fleetOrderOk img images ck = true → ck = true ∧ fleetImageOk img = true ∧ parentsAgree img (images.map (·.2)) = true ∧ ∃ t,
        exec (.fleetTurn rack t0 img ⟨images, ck⟩) s = .next t ∧ t.fleet.turnT0 = some t0 ∧ t.fleet.turnImage = img ∧ t.fleet.turnRegion = 0 ∧
        t.fleet.turnCommits = [] ∧ t.fleet.turnMaster = rack.val ∧ t.fleet.withdrawing = none ∧ t.pkgs = s.pkgs ∧
        ∀ e ∈ images, Msg.image e.1.val e.2 ∈ (t.alm h).out ∧ Msg.order e.1.val t0 ∈ (t.alm h).out)) ∧
    (∀ term t0, s.helm rack = none → exec (.fleetOrder rack term t0) s = .next s) ∧
    (∀ term t0 h, s.helm rack = some h → term.toNat < (s.alm h).log.term.toNat → exec (.fleetOrder rack term t0) s =
      .next (s.setAlm h ((s.alm h).emit (.command "STALE_TERM" rack.val term.toNat)))) ∧
    (∀ term t0 h, s.helm rack = some h → (s.alm h).log.term.toNat ≤ term.toNat → ∃ t, exec (.fleetOrder rack term t0) s = .next t ∧
      (t.alm h).log.term = term ∧ ∀ e, f.turnImages.find? (fun e => e.1 = rack.val) = some e → f.turnT0 = some t0 →
        (∀ why, s.refuseTurn h e.2 = some why → Msg.command why rack.val t0 ∈ (t.alm h).out ∧ (t.alm h).log.turnT0 = (s.alm h).log.turnT0 ∧
          (t.alm h).log.shadowChart = (s.alm h).log.shadowChart ∧ t.pkgs = s.pkgs) ∧
        (s.refuseTurn h e.2 = none → (t.alm h).log.shadowChart = e.2 ∧ (t.alm h).log.turnT0 = some t0 ∧
          Msg.fenced rack.val (s.alm h).log.epoch (.turnGo (BitVec.ofNat 32 (chEpoch e.2)) t0) ∈ (t.alm h).out)) ∧
    (∀ src, (s.helm rack = none ∨ f.leads rack.val = false ∨ f.turnT0 = none ∨ f.withdrawing ≠ none ∨ s.rackCommitted src = false) →
      exec (.rackCommitReport rack src) s = .next s) ∧
    (∀ src : Fin 32, s.helm rack ≠ none → f.leads rack.val = true → f.turnT0 ≠ none → f.withdrawing = none → s.rackCommitted src = true →
      let done := (s.regionRacks f.turnRegion).all (addTo f.turnCommits src.val).contains
      ∃ t, exec (.rackCommitReport rack src) s = .next t ∧
        (done = false → t.fleet.turnRegion = f.turnRegion ∧ t.fleet.turnCommits = addTo f.turnCommits src.val ∧ t.fleet.turnT0 = f.turnT0) ∧
        (done = true → f.turnRegion < lastRegion f.turnImage → t.fleet.turnRegion = f.turnRegion + 1 ∧ t.fleet.turnT0 = f.turnT0) ∧
        (done = true → lastRegion f.turnImage ≤ f.turnRegion → t.fleet.turnT0 = none ∧ t.fleet.chart = f.turnImage ∧
          t.fleet.flagship = (s.memberOf (routeFlagship f.turnImage)).getD f.flagship ∧
          t.fleet.successors = (routeSucc f.turnImage).filterMap s.memberOf)) ∧
    ((able.head? ≠ some rack.val ∨ ¬ lost) → exec (.flagshipTakeover rack) s = .next s) ∧
    (able.head? = some rack.val → lost → ∃ t, exec (.flagshipTakeover rack) s = .next t ∧ t.fleet.flagship = rack.val ∧ t.fleet.turnT0 = f.turnT0 ∧
      (f.turnT0 ≠ none → t.fleet.withdrawing ≠ none) ∧
      (f.turnT0 ≠ none → f.withdrawing = none → t.fleet.withdrawing = some s.enteredRacks ∧ t.fleet.wdCause.1 = 10) ∧
      t.fleet.successors = f.successors.filter (· ≠ rack.val) ∧ t.fleet.turnMaster = rack.val ∧ t.pkgs = s.pkgs ∧
      (∀ a, s.helm rack = some a → (t.alm a).log.term = (s.alm a).log.term + 1) ∧
      ∀ r : Fin 32, f.isolated.contains r.val = false → (∃ m ∈ f.members, m ≠ r.val) → t.timeMaster r = s.helm rack) ∧
    ((∃ m ∈ f.members, ∃ n ∈ f.members, m ≠ n) → ∀ a b : AlmId, f.isolated.contains a.rack.val = false → f.isolated.contains b.rack.val = false →
      s.ptpRole a = .grandmaster → s.ptpRole b = .grandmaster → a = b) ∧
    (∀ t0, f.turnT0 = some t0 →
      (∀ e c, f.withdrawing = none → f.turnImages.findSome? (fun e => (s.rackFailure (rackAt e.1) e.2 t0).map fun c => (e.1, c)) = some (e, c) →
        s.leadClock.fleet.withdrawing = some (e :: s.enteredRacks.filter (· ≠ e)) ∧ s.leadClock.pkgs = s.pkgs) ∧
      (∀ r rest, f.withdrawing = some (r :: rest) →
        (∀ p : PkgId, p.rack ≠ rackAt r → s.leadClock.pkg p = s.pkg p) ∧
        s.leadClock.fleet.withdrawing = some (if s.leadClock.rackWithdrawn (rackAt r) then rest else r :: rest)) ∧
      (f.withdrawing = some [] → s.leadClock.fleet.turnT0 = none ∧ s.leadClock.fleet.chart = f.chart ∧
        ∀ e ∈ f.turnImages, ∀ p : PkgId, p.rack = rackAt e.1 → (s.pkg p).chart.fleet.isSome = true → (s.leadClock.pkg p).turning = false))

/-! ### Faults -/

/-- R317–R321, R326, Table 15.4: what a detector's event does. A reserved number does nothing; a shadowed event is counted, and leaves slots, unit
states and reactions as they are; a CE takes no slot; a UC or FT event takes the lowest free slot with its class's grace, is logged as RAISED
under the next SEQ, and raises its vector; a UC event puts its unit in UC. -/
def Obligations.DetectorEvents : Prop :=
  ∀ (s : State) (p : PkgId) (d : Fin 4096) (i0 i1 : BitVec 64),
    let k := s.pkg p
    let u := detUnit d.val
    let cls := detClass d.val
    let fired (f : Pkg → Prop) : Prop := ∃ t, exec (.detectorFire p d i0 i1) s = .next t ∧ f (t.pkg p)
    (2944 ≤ d.val → exec (.detectorFire p d i0 i1) s = .next (s.setPkg p k)) ∧
    (d.val < 2944 → d.val ≠ det 253 0 →
      fired (fun j =>
        (d.val < 1536 → bit (j.get (F.CORE_FAULT_STATUS_BITS (d.val / 8))) (d.val % 8) = true) ∧
        (cls = clsCE → j.get F.FLT_COUNTS_CE = min 65535 (k.get F.FLT_COUNTS_CE + 1)) ∧
        (cls = clsUC → j.get F.FLT_COUNTS_UC = min 255 (k.get F.FLT_COUNTS_UC + 1)) ∧
        (cls = clsFT → j.get F.FLT_COUNTS_FT = min 255 (k.get F.FLT_COUNTS_FT + 1))) ∧
      (k.shadowed d.val = true → fired fun j => j.flt.pend = k.flt.pend ∧ j.flt.units = k.flt.units ∧ j.flt.reactions = k.flt.reactions) ∧
      (k.shadowed d.val = false → cls = clsCE → fired fun j => j.flt.pend = k.flt.pend ∧ j.flt.reactions = k.flt.reactions ∧
        ((k.unit u).state = 0 → k.quarBit u = false →
          ((((k.unit u).ceTimes.filter (fun t => s.now < t + 1000000000)).length + 1 ≥ k.get F.FLT_CFG_CE_RATE) ↔ j.unitState u = 1))) ∧
      (∀ i, k.shadowed d.val = false → cls ≠ clsCE → i < 16 → sfind k.flt.pend i = none → (∀ n, n < i → sfind k.flt.pend n ≠ none) →
        fired fun j =>
          sfind j.flt.pend i = some ⟨cls, d.val, u, k.flt.seq, s.now + (if cls = clsFT then 100000 * k.get F.FLT_CFG_FT_GRACE else
            1000000 * k.get F.FLT_CFG_UC_GRACE)⟩ ∧
          (∀ n, n ≠ i → sfind j.flt.pend n = sfind k.flt.pend n) ∧ j.flt.reactions = k.flt.reactions ∧
          Msg.msix (if cls = clsFT then 41 else 40) ∈ j.out ∧
          (cls = clsUC → k.quarBit u = false → j.unitState u = 2) ∧
          (k.lwOnly = false → j.rg R.FLT_LOG_HEAD = k.flt.seq ∧ ∃ e, sfind j.flt.log (k.flt.seq.toNat % 4096) = some e ∧ e.seq = k.flt.seq ∧
            e.kind = 0 ∧ e.cls = cls ∧ e.detector = d.val ∧ e.unit = u ∧ e.info0 = i0 ∧ e.info1 = i1 ∧ e.time = k.time s.now) ∧
          (k.lwOnly = true → j.flt.log = k.flt.log ∧ j.flt.seq = k.flt.seq + 1)))

/-- R321–R325: a grace that has not expired changes nothing; at expiry a UC event starts the isolation of its unit, or is logged as NO_ACTION
where it has none, and an FT event fences the package; RESOLVED ends a UC grace and nothing else, and an FT slot ignores it; a verdict for an
empty slot or after expiry only sets LATE. -/
def Obligations.GraceAndVerdicts : Prop :=
  ∀ (s : State) (p : PkgId) (slot : Fin 16),
    let k := s.pkg p
    let x? := sfind k.flt.pend slot.val
    let isolates (x : Pend) (j : Pkg) : Prop := j.flt.pend = serase k.flt.pend slot.val ∧ (j.unit x.unit).state = 3 ∧
      j.flt.reactions = k.flt.reactions ++ [⟨0, x.unit, x.unit, x.seq⟩]
    let quiet (x : Pend) : Bool := noIsolation x || decide (3 ≤ k.unitState x.unit)
    ((x? = none ∨ ∃ x, x? = some x ∧ (x.cls ≠ clsUC ∨ s.now < x.expires)) → exec (.ucGraceExpiry p slot) s = .next (s.setPkg p k)) ∧
    ((x? = none ∨ ∃ x, x? = some x ∧ (x.cls ≠ clsFT ∨ s.now < x.expires)) → exec (.ftGraceExpiry p slot) s = .next (s.setPkg p k)) ∧
    (∀ x, x? = some x → x.cls = clsUC → x.expires ≤ s.now →
      (quiet x = false → ∃ j : Pkg, exec (.ucGraceExpiry p slot) s = .next (s.setPkg p j) ∧ isolates x j) ∧
      (quiet x = true → ∃ j : Pkg, exec (.ucGraceExpiry p slot) s = .next (s.setPkg p j) ∧
        j.flt.pend = serase k.flt.pend slot.val ∧ j.flt.reactions = k.flt.reactions)) ∧
    (∀ x, x? = some x → x.cls = clsFT → x.expires ≤ s.now → k.get F.FLT_STATUS_FENCED = 0 → ∃ t, exec (.ftGraceExpiry p slot) s = .next t ∧
      (t.pkg p).get F.FLT_STATUS_FENCED = 1 ∧ (t.pkg p).pkgDark = true ∧ (t.pkg p).flt.fencedAt = some s.now ∧
      ∀ e ∈ (t.pkg p).flt.pend, e.2.cls ≠ clsUC) ∧
    (∀ who, Open s p who R.FLT_HANDLE →
      (x? = none ∨ (∃ x, x? = some x ∧ x.expires ≤ s.now) → ∀ i ∈ [Instr.resolved p who slot, Instr.escalate p who slot], ∃ j : Pkg,
        exec i s = .next (s.wrote p who R.FLT_HANDLE s.mem j) ∧ OnlyRegs k j ∧ j.get F.FLT_STATUS_LATE = 1 ∧
          ∀ o, o ≠ R.FLT_STATUS → j.rg o = k.rg o) ∧
      (∀ x, x? = some x → s.now < x.expires →
        (x.cls = clsFT → ∃ j : Pkg, exec (.resolved p who slot) s = .next (s.wrote p who R.FLT_HANDLE s.mem j) ∧ SamePkg k j) ∧
        (x.cls ≠ clsFT → ∃ j : Pkg, exec (.resolved p who slot) s = .next (s.wrote p who R.FLT_HANDLE s.mem j) ∧
          j.flt.pend = serase k.flt.pend slot.val ∧ j.flt.reactions = k.flt.reactions ∧ (j.unit x.unit).state = (k.unit x.unit).state ∧
          (j.unit x.unit).lastUc = s.now) ∧
        (x.cls ≠ clsFT → quiet x = false → ∃ j : Pkg, exec (.escalate p who slot) s = .next (s.wrote p who R.FLT_HANDLE s.mem j) ∧ isolates x j) ∧
        (x.cls = clsFT → k.get F.FLT_STATUS_FENCED = 0 → ∃ t, exec (.escalate p who slot) s = .next t ∧
          (t.pkg p).get F.FLT_STATUS_FENCED = 1 ∧ (t.pkg p).pkgDark = true)))

/-- R323, R326, R328–R331, R334, R335: an isolation ends in the reset of its scope, which ends in UC and counts its quiet period from there, and
returns an isolated port to service unless it is quarantined (how is the model's choice, log 96); an exit is kept with its time, and the
fourth within 24 h quarantines the unit; a release clears the history and starts the scope's reset; the last words clear; the mirror follows
the log. -/
def Obligations.RecoveryAndQuarantine : Prop :=
  ∀ (s : State) (p : PkgId) (u : Byte),
    let k := s.pkg p
    let n := u.toNat
    let s1 : State := { s with free := s.free + 1 }
    let isolation := k.flt.reactions.find? fun r => r.kind = 0 && r.index = n
    let scope := k.flt.reactions.find? fun r => 1 ≤ r.kind && r.kind ≤ 6 && r.unit = n
    (isolation = none → exec (.isolationEnd p u) s = .next (s.setPkg p k)) ∧
    (∀ r, isolation = some r → n < 192 → ∃ t, exec (.isolationEnd p u) s = .next t ∧
      (coreUnit n, if k.quarBit n then DarkCause.fence else DarkCause.reset) ∈ (t.pkg p).dark.dark ∧
      (ctileUnit (k.phys n / 48), DarkCause.reset) ∈ (t.pkg p).dark.dark ∧
      (t.pkg p).flt.reactions = k.flt.reactions.erase r ++ [⟨1, k.phys n / 48, n, r.raised⟩] ∧
      (k.resetReady (ctileUnit (k.phys n / 48)) ≤ s.now → ∀ c ∈ k.unitCores (ctileUnit (k.phys n / 48)),
        (t.pkg p).coreInc c = k.coreInc c + 1)) ∧
    (∀ r, scope = some r → k.scopeHeld (r.kind, r.index) = true → exec (.scopeResetEnd p u) s = .next (s1.setPkg p k)) ∧
    (∀ r, scope = some r → k.scopeHeld (r.kind, r.index) = false → ∃ j : Pkg, exec (.scopeResetEnd p u) s = .next (s1.setPkg p j) ∧
      (j.unit n).state = (if r.raised = 0 then 0 else 2) ∧ (r.raised ≠ 0 → (j.unit n).lastUc = s.now) ∧
      j.flt.reactions = k.flt.reactions.erase r ∧ (∀ du, scopeUnit (r.kind, r.index) = some du → (du, DarkCause.reset) ∉ j.dark.dark) ∧
      (r.kind = 2 → 208 ≤ n → n < 232 → (k.port (n - 208)).state = .heldDown → (j.port (n - 208)).state =
        if k.unitState n = 3 then (if k.mayTrain = true then .training else .off) else .heldDown) ∧
      (r.kind = 5 → n = 251 → j.pkc.hostInReset =
        if k.unitState 251 = 3 then decide (k.pkc.hostGts < 16 ∨ k.pkc.hostWidth < 8) else k.pkc.hostInReset)) ∧
    (scope = none → k.scopeOf n = none → exec (.scopeResetEnd p u) s = .next (s1.setPkg p k)) ∧
    (∀ i, k.flt.reactions[i]? = none → exec (.reactionEnd p i) s = .next s) ∧
    (∀ i r, k.flt.reactions[i]? = some r →
      (6 < r.kind → exec (.reactionEnd p i) s = .next s) ∧
      (r.kind = 0 → r.index = n → exec (.reactionEnd p i) s = exec (.isolationEnd p u) s) ∧
      (1 ≤ r.kind → r.kind ≤ 6 → r.unit = n → exec (.reactionEnd p i) s = exec (.scopeResetEnd p u) s)) ∧
    (let left (i : Instr) : Prop := ∃ t, exec i s = .next t ∧
        ((t.pkg p).unit n).exits = ((k.unit n).exits ++ [k.time s.now]).drop ((k.unit n).exits.length + 1 - 4) ∧
        (k.recoveries s.now n < 3 → (t.pkg p).unitState n = 0) ∧
        (n ≠ 255 → (k.unit n).exits.length = 3 → (∀ e ∈ (k.unit n).exits, k.time s.now < e + dayNs) → (t.pkg p).quarBit n = true)
      let quiet := k.unitState n = 2 ∧ (k.flt.pend.any fun e => e.2.unit = n) = false ∧ (n = 255 → k.conditionLive = false) ∧
        (k.unit n).lastUc + 60000000000 ≤ s.now
      ((k.unitState n ≠ 1 ∨ s.now < (k.unit n).lastCe + 10000000000) → exec (.ceAlarmQuiet p u) s = .next (s.setPkg p k)) ∧
      (k.unitState n = 1 → (k.unit n).lastCe + 10000000000 ≤ s.now → left (.ceAlarmQuiet p u)) ∧
      (¬ quiet → exec (.ucQuiet p u) s = .next (s.setPkg p k)) ∧ (quiet → left (.ucQuiet p u))) ∧
    (∀ who (w : Word), Open s p who R.FLT_RELEASE → w.toNat % 256 = n →
      (who ≠ .cw → exec (.fltRelease p who w) s = .next (s.wrote p who R.FLT_RELEASE s.mem k)) ∧
      (who = .cw → (bit w.toNat 8 = false ∨ k.quarBit n = false) → ∃ j : Pkg,
        exec (.fltRelease p who w) s = .next (s.wrote p who R.FLT_RELEASE s.mem j) ∧ SamePkg k j) ∧
      (who = .cw → bit w.toNat 8 = true → k.quarBit n = true → ∃ j : Pkg,
        exec (.fltRelease p who w) s = .next (s.wrote p who R.FLT_RELEASE s.mem j) ∧ j.quarBit n = false ∧ (j.unit n).exits = [] ∧
          (∀ sc, k.scopeOf n = some sc → j.flt.reactions = k.flt.reactions ++ [⟨sc.1, sc.2, n, 0⟩] ∧ (j.unit n).state = 3))) ∧
    (∀ who w, Open s p who R.FLT_LW_CLEAR → ∃ j : Pkg, exec (.lwClear p who w) s = .next (s.wrote p who R.FLT_LW_CLEAR s.mem j) ∧
      j.ret.lw = [] ∧ j.ret.lwOverrun = 0 ∧ j.ret.pkgInc = k.ret.pkgInc ∧ ∀ o, j.rg o = k.rg o) ∧
    (∀ (t : TrayId) (pos : Fin 4),
      (TrayId.pkgAt t pos = none → exec (.logMirror t pos) s = .next s) ∧
      (TrayId.pkgAt t pos = some p → ((s.posn t pos).resetN = false ∨ k.mctpUp = false) → exec (.logMirror t pos) s = .next s) ∧
      (TrayId.pkgAt t pos = some p → (s.posn t pos).resetN = true → k.mctpUp = true → ∃ v, exec (.logMirror t pos) s = .next v ∧
        (v.posn t pos).mirrorTop = k.rg R.FLT_LOG_HEAD ∧ (v.pkg p).rg R.FLT_MIRRORED = k.rg R.FLT_LOG_HEAD ∧
        ∀ e ∈ k.flt.log.map (·.2), (k.rg R.FLT_MIRRORED).toNat < e.seq.toNat → e.seq.toNat ≤ (k.rg R.FLT_LOG_HEAD).toNat →
          (sfind (v.posn t pos).mirror (1 + e.seq.toNat % 16383)).isSome = true))

/-! ### Updates -/

/-- R338, R339, R343, R345, R346, Table 16.2: the PLDM update sequence. A package whose PKC does not run answers nothing, but refuses
RequestUpdate with ERROR while PAUSED; out of sequence it answers NOT_IN_UPDATE_MODE; it asks for chunks of its size until the image is in; a cancel
ends the transfer CANCELLED, and an image's bank is invalid; the check leaves the image READY in the inactive
bank, or FAILED with its code; a good key record fills its slot; ActivateFirmware needs STAGE READY, no turn, and over PCIe lifeboat mode. The
completion and command codes are those of log 37. -/
def Obligations.UpdateSequence : Prop :=
  ∀ (s : State) (p : PkgId),
    let k := s.pkg p
    let up := k.mctpUp = true
    let answered (command code : Nat) (payload : List Byte) (j : Pkg) : Host.Outcome State Fault Refusal :=
      .next (s.setPkg p (j.emit (.pldm command code payload)))
    let invalid (j : Pkg) : Prop := bit (j.get F.UPD_STATUS_BANK_VALID) (1 - k.activeBank) = false
    let cancelled (j : Pkg) : Prop := j.upd.component = none ∧ (k.upd.component ≠ none → j.get F.UPD_STATUS_FAIL = 6) ∧
      (k.upd.component = some 1 → j.stage = 4 ∧ invalid j)
    (k.mctpUp = false → ∀ i ∈ [Instr.queryDeviceIdentifiers p, .getFirmwareParameters p, .transferComplete p, .verifyComplete p, .applyComplete p,
      .pldmGetStatus p, .cancelUpdateComponent p, .cancelUpdate p], exec i s = .next (s.setPkg p k)) ∧
    (k.mctpUp = false → ∀ comps comp size data viaPcie, ∀ i ∈ [Instr.passComponentTable p comps, .updateComponent p comp size,
      .requestFirmwareData p data, .activateFirmware p viaPcie], exec i s = .next (s.setPkg p k)) ∧
    (up → exec (.queryDeviceIdentifiers p) s = answered 0x01 0 (Config.deviceIds (s.moduleKey p)) k ∧
      exec (.getFirmwareParameters p) s =
        answered 0x02 0 (leBytes 8 (k.wide R.UPD_ACTIVE_VERSION_LO) ++ leBytes 8 (k.wide R.UPD_STAGED_VERSION_LO)) k ∧
      exec (.pldmGetStatus p) s = answered 0x1B 0 [BitVec.ofNat 8 k.updateState, BitVec.ofNat 8 k.stage,
        BitVec.ofNat 8 (k.get F.UPD_STATUS_FAIL)] k) ∧
    (∀ viaPcie,
      (k.paused_ = true → exec (.requestUpdate p viaPcie) s = answered 0x10 1 [] k) ∧
      (k.paused_ = false → k.mctpUp = false → exec (.requestUpdate p viaPcie) s = .next (s.setPkg p k)) ∧
      (k.paused_ = false → up → ∃ j : Pkg, exec (.requestUpdate p viaPcie) s = answered 0x10 0 [] j ∧ j.upd.requested = true ∧
        j.upd.overPcie = viaPcie ∧ j.upd.component = none ∧ (k.stage ≠ 3 → j.regs = k.regs) ∧
        (k.stage = 3 → j.stage = 0 ∧ invalid j ∧ j.wide R.UPD_STAGED_VERSION_LO = 0))) ∧
    (up → k.upd.requested = false → (∀ comps, exec (.passComponentTable p comps) s = answered 0x13 0x80 [] k) ∧
      (∀ comp size, exec (.updateComponent p comp size) s = answered 0x14 0x80 [] k) ∧
      exec (.cancelUpdateComponent p) s = answered 0x1C 0x80 [] k ∧ exec (.cancelUpdate p) s = answered 0x1D 0x80 [] k) ∧
    (up → k.upd.requested = true →
      (∀ comps, exec (.passComponentTable p comps) s = answered 0x13 0 (comps.map fun c => if c = 1 ∨ c = 0x10 ∨ c = 0x11 then 0 else 1) k) ∧
      (∀ comp size, comp ≠ 1 → comp ≠ 0x10 → comp ≠ 0x11 → exec (.updateComponent p comp size) s = answered 0x14 1 [] k) ∧
      (∀ comp size, comp = 1 ∨ comp = 0x10 ∨ comp = 0x11 → ∃ j : Pkg, exec (.updateComponent p comp size) s =
        answered 0x15 0 (leBytes 4 0 ++ leBytes 4 (min (if k.upd.overPcie then 4032 else 1024) size)) j ∧ j.upd.component = some comp ∧
        j.upd.size = size ∧ j.upd.received = [] ∧ j.upd.complete = false ∧ j.upd.askedAt = s.now ∧ Msg.pldm 0x14 0 [] ∈ j.out ∧
        (comp = 1 → j.stage = 1 ∧ j.get F.UPD_STATUS_FAIL = 0 ∧ invalid j) ∧ (comp ≠ 1 → j.regs = k.regs)) ∧
      (∃ j : Pkg, exec (.cancelUpdateComponent p) s = answered 0x1C 0 [] j ∧ cancelled j ∧ j.upd.requested = true) ∧
      (∃ j : Pkg, exec (.cancelUpdate p) s = answered 0x1D 0 [] j ∧ cancelled j ∧ j.upd.requested = false)) ∧
    (∀ data, up → (k.upd.component = none ∨ k.upd.complete = true) → exec (.requestFirmwareData p data) s = .next (s.setPkg p k)) ∧
    (∀ data, up → k.upd.component ≠ none → k.upd.complete = false →
      let got := k.upd.received ++ data.take (min (if k.upd.overPcie then 4032 else 1024) (k.upd.size - k.upd.received.length))
      (got.length < k.upd.size → ∃ j : Pkg, exec (.requestFirmwareData p data) s = answered 0x15 0 (leBytes 4 got.length ++
        leBytes 4 (min (if k.upd.overPcie then 4032 else 1024) (k.upd.size - got.length))) j ∧ j.upd.received = got ∧ j.upd.askedAt = s.now ∧
        j.regs = k.regs) ∧
      (k.upd.size ≤ got.length → ∃ j : Pkg, exec (.requestFirmwareData p data) s = answered 0x16 0 [] j ∧ j.upd.received = got ∧
        j.upd.complete = true ∧ j.regs = k.regs)) ∧
    (up → (if k.upd.complete = true ∧ k.upd.component = some 1 ∧ k.stage = 1 then
        ∃ j : Pkg, exec (.transferComplete p) s = .next (s.setPkg p j) ∧ OnlyRegs k j ∧ j.stage = 2
      else exec (.transferComplete p) s = .next (s.setPkg p k))) ∧
    ((k.upd.component ≠ some 1 ∨ k.stage ≠ 2) → exec (.patchVerifyEnd p) s = .next (s.setPkg p k)) ∧
    (k.upd.component = some 1 → k.stage = 2 →
      let r := applyPatch k.fwKeys (if k.lifeboat then [] else k.bankImg k.activeBank) 1 bankBytes k.upd.received
      ∃ j : Pkg, exec (.patchVerifyEnd p) s = .next (s.setPkg p j) ∧ j.upd.verified = some r.1 ∧ j.get F.UPD_STATUS_FAIL = r.1 ∧
        j.activeBank = k.activeBank ∧ j.bankImg k.activeBank = k.bankImg k.activeBank ∧
        (r.1 = 0 → j.stage = 3 ∧ j.bankImg (1 - k.activeBank) = r.2 ∧ bit (j.get F.UPD_STATUS_BANK_VALID) (1 - k.activeBank) = true ∧
          j.wide R.UPD_STAGED_VERSION_LO = (pVersion k.upd.received).toNat) ∧
        (r.1 ≠ 0 → j.stage = 4 ∧ j.bankImg (1 - k.activeBank) = k.bankImg (1 - k.activeBank))) ∧
    (up → (k.upd.component = none → exec (.verifyComplete p) s = answered 0x17 0x80 [] k) ∧
      (∀ c, k.upd.component = some c → k.upd.complete = false → exec (.verifyComplete p) s = .next (s.setPkg p k)) ∧
      (k.upd.component = some 1 → k.upd.complete = true →
        (k.upd.verified = none → exec (.verifyComplete p) s = .next (s.setPkg p k)) ∧
        (∀ r, k.upd.verified = some r → exec (.verifyComplete p) s = answered 0x17 0 [BitVec.ofNat 8 r] k)) ∧
      (∀ c, k.upd.component = some c → c ≠ 1 → k.upd.complete = true →
        let r := if k.keyRecordGood c then 0 else 4
        ∃ j : Pkg, exec (.verifyComplete p) s = answered 0x17 0 [BitVec.ofNat 8 r] j ∧ j.upd.verified = some r ∧ j.regs = k.regs)) ∧
    (up → ((k.upd.component = none ∨ k.upd.verified ≠ some 0) → exec (.applyComplete p) s = .next (s.setPkg p k)) ∧
      (∀ c, k.upd.component = some c → k.upd.verified = some 0 → ∃ j : Pkg, exec (.applyComplete p) s = answered 0x18 0 [] j ∧
        j.upd.component = none ∧ (c = 1 → j.stage = 3 ∧ j.upd.fwKeys = k.upd.fwKeys ∧ j.upd.chartKeys = k.upd.chartKeys) ∧
        (c = 0x10 → sget {} j.upd.fwKeys (u8 k.upd.received 4) = keyRecordSlot k.upd.received ∧ j.upd.chartKeys = k.upd.chartKeys) ∧
        (c = 0x11 → sget {} j.upd.chartKeys (u8 k.upd.received 4) = keyRecordSlot k.upd.received ∧ j.upd.fwKeys = k.upd.fwKeys))) ∧
    (∀ viaPcie, up →
      ((k.stage ≠ 3 ∨ k.turning = true ∨ (viaPcie = true ∧ k.lifeboat = false)) → exec (.activateFirmware p viaPcie) s = answered 0x1A 1 [] k) ∧
      (k.stage = 3 → k.turning = false → (viaPcie = true → k.lifeboat = true) → ∃ j : Pkg,
        exec (.activateFirmware p viaPcie) s = .next (s.setPkg p j) ∧ Msg.pldm 0x1A 0 [] ∈ j.out ∧ j.paused_ = true ∧ j.mctpUp = false ∧
        j.upd.trial = some (false, s.now) ∧ j.activeBank = k.activeBank ∧ j.upd.bank0 = k.upd.bank0 ∧ j.upd.bank1 = k.upd.bank1 ∧
        ∀ off, pausedBlock (off % 2 ^ 24) = true → j.busRefuses off 4 = true))

/-- R339: a package whose agent leaves a RequestFirmwareData unanswered for 5 s ends the transfer, sets FAIL to CANCELLED and marks the inactive
bank invalid; before that, and with no transfer, the time does nothing. -/
def Obligations.TransferTimeout : Prop :=
  ∀ (s : State) (p : PkgId),
    let k := s.pkg p
    let unanswered := k.upd.component ≠ none ∧ k.upd.complete = false ∧ k.upd.askedAt + 5000000000 ≤ s.now
    (unanswered → ∃ j : Pkg, exec (.firmwareDataTimeout p) s = .next (s.setPkg p j) ∧ j.upd.component = none ∧ j.upd.received = [] ∧
      j.upd.complete = false ∧ j.get F.UPD_STATUS_FAIL = 6 ∧ bit (j.get F.UPD_STATUS_BANK_VALID) (1 - k.activeBank) = false ∧
      j.activeBank = k.activeBank ∧ j.upd.bank0 = k.upd.bank0 ∧ j.upd.bank1 = k.upd.bank1 ∧ j.out = k.out) ∧
    (¬ unanswered → exec (.firmwareDataTimeout p) s = .next (s.setPkg p k))

/-- R346–R350, R352: a trial PKC that runs moves the bank pointer and ends the pause, and the events that waited are sent; one that does not
within 60 ms is rolled back, and after 60 ms more the PKC is in lifeboat mode; the CW reports both. A push is taken only under BOOTSRC 2 or in
lifeboat mode, and its last word checks, writes and boots the image; the CW promotes a staged golden entry once the package, or the CW, runs its
image, and of the other kinds at once, and runs a staged image of its own that verifies. -/
def Obligations.TrialsAndPushes : Prop :=
  ∀ (s : State) (p : PkgId) (tr : TrayId),
    let k := s.pkg p
    let c := s.tray tr
    (k.upd.trial = none → exec (.trialRunning p) s = .next (s.setPkg p k) ∧ exec (.trialTimeout p) s = .next (s.setPkg p k)) ∧
    (∀ back since, k.upd.trial = some (back, since) →
      (∃ j : Pkg, exec (.trialRunning p) s = .next (s.setPkg p j) ∧ j.upd.trial = none ∧ j.paused_ = false ∧ j.pkc.run = .running ∧
        j.lifeboat = false ∧ j.activeBank = (if back then k.activeBank else 1 - k.activeBank) ∧ (back = false → j.stage = 0) ∧
        (back = true → Msg.report "UPDATE_FAILED" 0 (k.get F.UPD_STATUS_FAIL) ∈ j.out) ∧
        j.wide R.UPD_ACTIVE_VERSION_LO = (k.bankVer j.activeBank).toNat ∧ ∀ e ∈ k.flt.heldEvents, Msg.cwEvent 5 e ∈ j.out) ∧
      (s.now < since + 60000000 → exec (.trialTimeout p) s = .next (s.setPkg p k)) ∧
      (since + 60000000 ≤ s.now → ∃ j : Pkg, exec (.trialTimeout p) s = .next (s.setPkg p j) ∧ j.activeBank = k.activeBank ∧
        (back = false → j.upd.trial = some (true, s.now) ∧ j.get F.UPD_STATUS_FAIL = 8 ∧ j.stage = 4 ∧ j.paused_ = k.paused_) ∧
        (back = true → j.upd.trial = none ∧ j.lifeboat = true ∧ j.pkc.run = .lifeboat ∧ j.paused_ = false ∧
          Msg.report "UPDATE_FAILED" 0 (k.get F.UPD_STATUS_FAIL) ∈ j.out))) ∧
    (∀ who,
      (∀ w, Open s p who R.UPD_PUSH_LEN → k.pushOpen = false → exec (.registerWrite p who (BitVec.ofNat 25 R.UPD_PUSH_LEN) 4 w) s =
        .next (s.wrote p who R.UPD_PUSH_LEN s.mem k)) ∧
      (Open s p who R.UPD_PUSH_CTRL →
        (k.pushOpen = false → ∃ j : Pkg, exec (.pushBegin p who) s = .next (s.wrote p who R.UPD_PUSH_CTRL s.mem j) ∧ SamePkg k j) ∧
        (k.pushOpen = true → ∃ j : Pkg, exec (.pushBegin p who) s = .next (s.wrote p who R.UPD_PUSH_CTRL s.mem j) ∧ j.upd.pushing = true ∧
          j.upd.received = [] ∧ j.get F.UPD_STATUS_FAIL = 0)) ∧
      (∀ w : Word, Open s p who R.UPD_PUSH_DATA →
        let got := k.upd.received ++ leBytes 4 w.toNat
        let r := applyPatch k.fwKeys [] 1 bankBytes got
        ((k.pushOpen = false ∨ k.upd.pushing = false) → ∃ j : Pkg,
          exec (.pushData p who w) s = .next (s.wrote p who R.UPD_PUSH_DATA s.mem j) ∧ SamePkg k j) ∧
        (k.pushOpen = true → k.upd.pushing = true → ∃ j : Pkg, exec (.pushData p who w) s = .next (s.wrote p who R.UPD_PUSH_DATA s.mem j) ∧
          (got.length < k.get F.UPD_PUSH_LEN_LEN → j.upd.received = got ∧ j.upd.pushing = true ∧ j.pkc = k.pkc) ∧
          (k.get F.UPD_PUSH_LEN_LEN ≤ got.length → j.upd.pushing = false ∧
            (r.1 ≠ 0 → j.get F.UPD_STATUS_FAIL = r.1 ∧ j.pkc = k.pkc ∧ j.upd.bank0 = k.upd.bank0 ∧ j.upd.bank1 = k.upd.bank1) ∧
            (r.1 = 0 → j.activeBank = 1 - k.activeBank ∧ j.bankImg j.activeBank = r.2 ∧ j.pkc.run = .booting ∧ j.lifeboat = false))))) ∧
    (∀ (kind : Fin 8) (target : Byte),
      let promotes : Prop := ∃ d, exec (.goldenPromotion tr kind target) s = .next (s.setTray tr d) ∧
        ∀ a b, (a, b) ∈ [(c.nor0, d.nor0), (c.nor1, d.nor1)] →
          (stagedFind a kind.val target.toNat = none → b = a) ∧
          (∀ g, stagedFind a kind.val target.toNat = some g → goldFind b kind.val target.toNat = some { g with gold := true } ∧
            stagedFind b kind.val target.toNat = none ∧ ∀ o ∈ a, (o.kind ≠ kind.val ∨ o.target ≠ target.toNat) → o ∈ b)
      let keeps : Prop := exec (.goldenPromotion tr kind target) s = .next (s.setTray tr c)
      (c.staged kind.val target.toNat = none → keeps) ∧
      (∀ g, c.staged kind.val target.toNat = some g →
        (∀ (pos : Fin 4) (q : PkgId), kind.val = 1 → target.toNat = pos.val → TrayId.pkgAt tr pos = some q →
          let runs := (s.pkg q).pkc.run = .running ∧ c.matches ((s.pkg q).bankImg (s.pkg q).activeBank) g = true
          (runs → promotes) ∧ (¬ runs → keeps)) ∧
        (kind.val = 6 → (c.running = true ∧ c.bootFlash = g.image → promotes) ∧ (¬ (c.running = true ∧ c.bootFlash = g.image) → keeps)) ∧
        (kind.val ≠ 1 → kind.val ≠ 6 → promotes))) ∧
    (∃ v, exec (.cwActivation tr) s = .next v ∧ (v.tray tr).debugOpen = false ∧
      ∀ g, c.staged 6 0 = some g →
        (trailerOk c.keys g.image = true → (v.tray tr).bootFlash = g.image) ∧
        (trailerOk c.keys g.image = false → (v.tray tr).bootFlash = c.bootFlash ∧ Msg.report "UPDATE_FAILED" 0 6 ∈ (v.tray tr).out))

/-! ### Debug -/

/-- R358, R359, R364, R365, Tables 17.1 and 17.2: the bridge opens on an action of a current epoch and closes again; closed, its messages do
nothing; open, a shift moves the register that the instruction selects, which leaves from its low end. MGMT_ACCESS reads what a read by JTAG
reads, refuses with ERROR, and is BUSY while its block wakes; only JTAG and the CW write an override entry, and OVERRIDE's changes are reported. -/
def Obligations.DebugBridge : Prop :=
  ∀ (s : State) (tr : TrayId) (pos : Fin 4),
    let c := s.tray tr
    let shown (op v : Nat) : Msg := .report "BRIDGE" (256 * op + pos.val) v
    (∀ epoch : Word, (epoch.toNat < c.epochSeen.toNat → exec (.openDebug tr epoch) s = .next (s.cwReport tr "LEASE_STALE" 0 epoch.toNat)) ∧
      (c.epochSeen.toNat ≤ epoch.toNat → ∃ v, exec (.openDebug tr epoch) s = .next v ∧ v.pkgs = s.pkgs ∧
        v.tray tr = { c with epochSeen := epoch, debugOpen := true })) ∧
    exec (.closeDebug tr) s = .next (s.setTray tr { c with debugOpen := false }) ∧
    (∀ tdi cycles, c.debugOpen = false → ∀ i ∈ [Instr.shiftIr tr pos tdi, .shiftDr tr pos tdi, .tapReset tr pos, .idle tr pos cycles],
      exec i s = .next (s.setTray tr c)) ∧
    (c.debugOpen = true →
      (∃ d, exec (.tapReset tr pos) s = .next (s.setTray tr d) ∧ (d.at pos.val).ir = 0x01) ∧
      (∀ cycles, ∃ d, exec (.idle tr pos cycles) s = .next (s.setTray tr d) ∧ (d.at pos.val).ir = (c.at pos.val).ir ∧
        (d.at pos.val).dr = (c.at pos.val).dr ∧ shown 4 cycles.val ∈ d.out) ∧
      (∀ tdi : List Bool, tdi.length = 8 → ∃ d v, exec (.shiftIr tr pos tdi) s = .next (s.setTray tr d) ∧
        (d.at pos.val).ir = BitVec.ofNat 8 (bitsNat tdi) ∧ shown 1 v ∈ d.out ∧ v % 4 = 1) ∧
      (∀ tdi : List Bool, ∃ d, exec (.shiftDr tr pos tdi) s = .next (s.setTray tr d) ∧ (d.at pos.val).ir = (c.at pos.val).ir ∧
        ((c.at pos.val).ir = 0x01 → tdi.length = 32 → (d.at pos.val).dr = tdi ∧
          shown 2 (Config.idcode (4 * tr.key + pos.val)).toNat ∈ d.out) ∧
        ((c.at pos.val).ir = 0x20 → tdi.length = 64 → ∀ p, TrayId.pkgAt tr pos = some p → (d.at pos.val).dr = tdi ∧
          shown 2 (((s.pkg p).pkc.jtagStatus + 2 ^ 32 * (s.pkg p).pkc.jtagRead.toNat) % 2 ^ 64) ∈ d.out) ∧
        ((c.at pos.val).ir ∉ [0x01, 0x02, 0x03, 0x20] → shown 2 (bitsNat ((false :: tdi).take tdi.length)) ∈ d.out))) ∧
    (∀ (p : PkgId) (dr : BitVec 64),
      let k := s.pkg p
      let lo := (dr.truncate 32).toNat
      let off := 4 * bits lo 2 24
      let data : Word := (dr >>> 32).truncate 32
      let after (j : Pkg) : State := { s with free := s.free + 1 }.setPkg p j
      (s.reaches p .jtag = false → exec (.mgmtAccess p dr) s = .next s) ∧
      (s.reaches p .jtag = true → k.busRefuses off 4 = true →
        exec (.mgmtAccess p dr) s = .next (after { k with pkc := { k.pkc with jtagRead := 0, jtagStatus := 1 } })) ∧
      (s.reaches p .jtag = true → k.busRefuses off 4 = false → (k.blockDomains (off % 2 ^ 24)).any (fun d => !k.domainOn d) = true →
        ∃ j : Pkg, exec (.mgmtAccess p dr) s = .next (s.setPkg p j) ∧ j.pkc.jtagStatus = 2 ∧
          j.aon.deferred = k.aon.deferred ++ [.mgmtAccess p dr]) ∧
      (Open s p .jtag (off % 2 ^ 24) → k.busRefuses off 4 = false → bit lo 1 = false → ∃ (j : Pkg) (v : Word),
        exec (.mgmtAccess p dr) s = .next (after { j with pkc := { j.pkc with jtagRead := v, jtagStatus := 0 } }) ∧
        exec (.readClear p .jtag (BitVec.ofNat 25 off) 4) s = .next (after (j.emit (.busData .jtag off v)))) ∧
      (∀ n : Fin 8, off = R.DBG_ROUTE_OVR n.val →
        (∀ w, Open s p .host off → exec (.registerWrite p .host (BitVec.ofNat 25 off) 4 w) s = .next (s.wrote p .host off s.mem k)) ∧
        (Open s p .jtag off → bit lo 1 = true → bits data.toNat 28 3 ≠ 5 → bits data.toNat 28 3 ≠ 6 →
          (bits data.toNat 20 8 ≤ 31 ∨ bits data.toNat 20 8 = 255) → (bits data.toNat 12 8 ≤ 95 ∨ bits data.toNat 12 8 = 255) →
          bits data.toNat 0 9 ≤ 23 → ∃ j : Pkg, exec (.mgmtAccess p dr) s = .next (after j) ∧
            j.rg off = (k.rg off &&& ~~~ 0xFFFFF1FF) ||| (data &&& 0xFFFFF1FF) ∧ j.pkc.jtagStatus = 0 ∧
            (j.overrides ≠ k.overrides → Msg.report "ROUTE_OVERRIDE" 0 j.overrides.toNat ∈ j.out))))

/-- R361–R363, R366: HALT stops a running core that holds no clasp with CAUSE 1, defers while it holds one, and wakes a sleeping core first; at
the deferral's end the core halts with its clasps held and paused and their waiters answered DBG_HELD; a breakpoint halts with CAUSE 2 at its
address and STEP with CAUSE 3; RESUME and RELEASE_CLASPS free the clasps, whose next use is CLASP_BROKEN. A matching header is recorded, or
counted in MISSED; CLEAR empties the buffer. -/
def Obligations.HaltsAndTraces : Prop :=
  ∀ (s : State) (p : PkgId) (who : Requester) (c : Core),
    let k := s.pkg p
    let n := c.val
    let ctrl := R.CORE_DBG_CTRL n
    let mine := k.mem.clasps.filter fun x => x.holder = n
    let wrote (i : Instr) (f : Pkg → Prop) : Prop := ∃ j : Pkg, exec i s = .next (s.wrote p who ctrl s.mem j) ∧ f j
    let status (j : Pkg) (halted deferring expired : Bool) (cause : Nat) : Prop := j.coreHalted n = halted ∧
      j.get (F.CORE_DBG_STATUS_DEFERRING n) = deferring.toNat ∧ j.get (F.CORE_DBG_STATUS_DEFER_EXPIRED n) = expired.toNat ∧
      j.get (F.CORE_DBG_STATUS_CAUSE n) = cause
    let freed (j : Pkg) : Prop := j.claspsOf n = 0 ∧ ∀ x ∈ mine, (n, x.store, x.line) ∈ j.mem.silent
    let quiet := k.coreDark n = false ∧ k.coreHalted n = false ∧ sfind k.dbg.defers n = none
    let asleep := 2 ≤ k.pstate n ∨ k.aon.waking.contains n = true ∨ k.paused n = true
    (Open s p who ctrl →
      (¬ quiet → wrote (.halt p who c) (SamePkg k)) ∧
      (quiet → asleep → wrote (.halt p who c) fun j => n ∈ j.dbg.wantHalt ∧ j.coreHalted n = false ∧ j.mem.clasps = k.mem.clasps) ∧
      (quiet → ¬ asleep → k.claspsOf n = 0 → wrote (.halt p who c) fun j => status j true false false 1 ∧ j.mem = k.mem) ∧
      (quiet → ¬ asleep → k.claspsOf n ≠ 0 → wrote (.halt p who c) fun j => j.coreHalted n = false ∧
        j.get (F.CORE_DBG_STATUS_DEFERRING n) = 1 ∧ sfind j.dbg.defers n = some (s.now, 1) ∧ j.mem = k.mem) ∧
      (k.coreHalted n = false → wrote (.resume p who c) fun j => sfind j.dbg.defers n = none ∧ n ∉ j.dbg.wantHalt ∧
        j.get (F.CORE_DBG_STATUS_DEFERRING n) = 0 ∧ j.mem = k.mem) ∧
      (k.coreHalted n = false → ∀ pc, wrote (.step p who c pc) (SamePkg k)) ∧
      (k.coreHalted n = false → wrote (.releaseClasps p who c) (SamePkg k)) ∧
      (k.coreHalted n = true → ∀ pc, wrote (.step p who c pc) fun j => j.coreHalted n = true ∧ j.get (F.CORE_DBG_STATUS_CAUSE n) = 3 ∧
        j.wide (R.CORE_DBG_PC_LO n) = pc.toNat ∧ j.mem = k.mem) ∧
      (k.coreHalted n = true → (∀ x ∈ mine, x.waiters = []) →
        (wrote (.resume p who c) fun j => freed j ∧ j.rg (R.CORE_DBG_STATUS n) = 0) ∧
        (wrote (.releaseClasps p who c) fun j => freed j ∧ j.coreHalted n = true))) ∧
    ((∀ d, sfind k.dbg.defers n = some d → s.now < d.1 + cyclesNs (k.coreMhz n) 4096) → exec (.deferralEnd p c) s = .next (s.setPkg p k)) ∧
    (∀ d, sfind k.dbg.defers n = some d → d.1 + cyclesNs (k.coreMhz n) 4096 ≤ s.now → ∃ j : Pkg, exec (.deferralEnd p c) s = .next (s.setPkg p j) ∧
      status j true false (!mine.isEmpty) (d.2 % 8) ∧ sfind j.dbg.defers n = none ∧ j.claspsOf n = k.claspsOf n ∧
      (∀ y ∈ j.mem.clasps, y.holder = n → y.waiters = [] ∧ y.paused = true) ∧
      ∀ x ∈ mine, ∀ w ∈ x.waiters, w.rq = none → Msg.claspStatus w.core stDbgHeld ∈ j.out) ∧
    (∀ (b : Fin 4) (pc : BitVec 44),
      let hit := k.breakAt n b.val = some (pc.toNat / 4 * 4) ∧ k.running n = true ∧ k.coreHalted n = false
      (¬ hit → exec (.breakpointMatch p c b pc) s = .next (s.setPkg p k)) ∧
      (hit → quiet → ¬ asleep → ∃ j : Pkg, exec (.breakpointMatch p c b pc) s = .next (s.setPkg p j) ∧ j.mem = k.mem ∧
        (k.claspsOf n = 0 → status j true false false 2 ∧ j.wide (R.CORE_DBG_PC_LO n) = pc.toNat) ∧
        (k.claspsOf n ≠ 0 → j.coreHalted n = false ∧ sfind j.dbg.defers n = some (s.now, 2)))) ∧
    (∀ (f : Fin 2) (port : Byte) (out busy : Bool) (pk : Packet),
      let l := k.traceBuf f.val
      let ring := k.get (F.DBG_TRACE_CTRL_RING f.val) = 1
      (k.traceMatch f.val port.toNat out pk = false → exec (.traceCapture p f port out pk busy) s = .next (s.setPkg p k)) ∧
      (k.traceMatch f.val port.toNat out pk = true → (busy = true ∨ (¬ ring ∧ 1024 ≤ l.length)) → ∃ j : Pkg,
        exec (.traceCapture p f port out pk busy) s = .next (s.setPkg p j) ∧ OnlyRegs k j ∧
        j.get (F.DBG_TRACE_STATUS_MISSED f.val) = min 65535 (k.get (F.DBG_TRACE_STATUS_MISSED f.val) + 1)) ∧
      (k.traceMatch f.val port.toNat out pk = true → busy = false → (ring ∨ l.length < 1024) → ∃ j : Pkg,
        exec (.traceCapture p f port out pk busy) s = .next (s.setPkg p j) ∧
        j.traceBuf f.val = (l ++ ([⟨{ pk with payload := [] }, pk.payload.length, k.time s.now, port, out, k.counted f.val⟩] : List TraceRec)).drop
          (l.length + 1 - 1024) ∧
        j.get (F.DBG_TRACE_STATUS_COUNT f.val) = min 1024 (l.length + 1) ∧
        (j.get (F.DBG_TRACE_STATUS_FULL f.val) = 1 ↔ 1024 ≤ l.length + 1) ∧
        j.get (F.DBG_TRACE_STATUS_MISSED f.val) = k.get (F.DBG_TRACE_STATUS_MISSED f.val)) ∧
      (∀ w, Open s p who (R.DBG_TRACE_CTRL f.val) → ∃ j : Pkg,
        exec (.traceClear p who f w) s = .next (s.wrote p who (R.DBG_TRACE_CTRL f.val) s.mem j) ∧ j.traceBuf f.val = [] ∧
          j.rg (R.DBG_TRACE_STATUS f.val) = 0 ∧ j.traceBuf (1 - f.val) = k.traceBuf (1 - f.val)))
end

