-- ==== Sys2Proof/Laws/State.lean ====
section
/-! SUPPORT. What each update of a record leaves in each field, one lemma per field per update. -/

namespace Sys2Proof.Machine
open Sys2Proof

/-! ### A package -/

@[simp] theorem Pkg.setRg_regs (k : Pkg) (off : Nat) (v : Word) : (k.setRg off v).regs = sset (resetWord off) k.regs off v := rfl
@[simp] theorem Pkg.setRg_latch (k : Pkg) (off : Nat) (v : Word) : (k.setRg off v).latch = k.latch := rfl
@[simp] theorem Pkg.setRg_ret (k : Pkg) (off : Nat) (v : Word) : (k.setRg off v).ret = k.ret := rfl
@[simp] theorem Pkg.setRg_aon (k : Pkg) (off : Nat) (v : Word) : (k.setRg off v).aon = k.aon := rfl
@[simp] theorem Pkg.setRg_pkc (k : Pkg) (off : Nat) (v : Word) : (k.setRg off v).pkc = k.pkc := rfl
@[simp] theorem Pkg.setRg_mem (k : Pkg) (off : Nat) (v : Word) : (k.setRg off v).mem = k.mem := rfl
@[simp] theorem Pkg.setRg_dark (k : Pkg) (off : Nat) (v : Word) : (k.setRg off v).dark = k.dark := rfl
@[simp] theorem Pkg.setRg_chart (k : Pkg) (off : Nat) (v : Word) : (k.setRg off v).chart = k.chart := rfl
@[simp] theorem Pkg.setRg_rt (k : Pkg) (off : Nat) (v : Word) : (k.setRg off v).rt = k.rt := rfl
@[simp] theorem Pkg.setRg_fab (k : Pkg) (off : Nat) (v : Word) : (k.setRg off v).fab = k.fab := rfl
@[simp] theorem Pkg.setRg_tally (k : Pkg) (off : Nat) (v : Word) : (k.setRg off v).tally = k.tally := rfl
@[simp] theorem Pkg.setRg_csu (k : Pkg) (off : Nat) (v : Word) : (k.setRg off v).csu = k.csu := rfl
@[simp] theorem Pkg.setRg_brg (k : Pkg) (off : Nat) (v : Word) : (k.setRg off v).brg = k.brg := rfl
@[simp] theorem Pkg.setRg_pwr (k : Pkg) (off : Nat) (v : Word) : (k.setRg off v).pwr = k.pwr := rfl
@[simp] theorem Pkg.setRg_thr (k : Pkg) (off : Nat) (v : Word) : (k.setRg off v).thr = k.thr := rfl
@[simp] theorem Pkg.setRg_flt (k : Pkg) (off : Nat) (v : Word) : (k.setRg off v).flt = k.flt := rfl
@[simp] theorem Pkg.setRg_upd (k : Pkg) (off : Nat) (v : Word) : (k.setRg off v).upd = k.upd := rfl
@[simp] theorem Pkg.setRg_dbg (k : Pkg) (off : Nat) (v : Word) : (k.setRg off v).dbg = k.dbg := rfl
@[simp] theorem Pkg.setRg_out (k : Pkg) (off : Nat) (v : Word) : (k.setRg off v).out = k.out := rfl

@[simp] theorem Pkg.put_latch (k : Pkg) (f : Fld) (v : Nat) : (k.put f v).latch = k.latch := rfl
@[simp] theorem Pkg.put_ret (k : Pkg) (f : Fld) (v : Nat) : (k.put f v).ret = k.ret := rfl
@[simp] theorem Pkg.put_aon (k : Pkg) (f : Fld) (v : Nat) : (k.put f v).aon = k.aon := rfl
@[simp] theorem Pkg.put_pkc (k : Pkg) (f : Fld) (v : Nat) : (k.put f v).pkc = k.pkc := rfl
@[simp] theorem Pkg.put_mem (k : Pkg) (f : Fld) (v : Nat) : (k.put f v).mem = k.mem := rfl
@[simp] theorem Pkg.put_dark (k : Pkg) (f : Fld) (v : Nat) : (k.put f v).dark = k.dark := rfl
@[simp] theorem Pkg.put_chart (k : Pkg) (f : Fld) (v : Nat) : (k.put f v).chart = k.chart := rfl
@[simp] theorem Pkg.put_rt (k : Pkg) (f : Fld) (v : Nat) : (k.put f v).rt = k.rt := rfl
@[simp] theorem Pkg.put_fab (k : Pkg) (f : Fld) (v : Nat) : (k.put f v).fab = k.fab := rfl
@[simp] theorem Pkg.put_tally (k : Pkg) (f : Fld) (v : Nat) : (k.put f v).tally = k.tally := rfl
@[simp] theorem Pkg.put_csu (k : Pkg) (f : Fld) (v : Nat) : (k.put f v).csu = k.csu := rfl
@[simp] theorem Pkg.put_brg (k : Pkg) (f : Fld) (v : Nat) : (k.put f v).brg = k.brg := rfl
@[simp] theorem Pkg.put_pwr (k : Pkg) (f : Fld) (v : Nat) : (k.put f v).pwr = k.pwr := rfl
@[simp] theorem Pkg.put_thr (k : Pkg) (f : Fld) (v : Nat) : (k.put f v).thr = k.thr := rfl
@[simp] theorem Pkg.put_flt (k : Pkg) (f : Fld) (v : Nat) : (k.put f v).flt = k.flt := rfl
@[simp] theorem Pkg.put_upd (k : Pkg) (f : Fld) (v : Nat) : (k.put f v).upd = k.upd := rfl
@[simp] theorem Pkg.put_dbg (k : Pkg) (f : Fld) (v : Nat) : (k.put f v).dbg = k.dbg := rfl
@[simp] theorem Pkg.put_out (k : Pkg) (f : Fld) (v : Nat) : (k.put f v).out = k.out := rfl

@[simp] theorem Pkg.flag_latch (k : Pkg) (f : Fld) (b : Bool) : (k.flag f b).latch = k.latch := rfl
@[simp] theorem Pkg.flag_ret (k : Pkg) (f : Fld) (b : Bool) : (k.flag f b).ret = k.ret := rfl
@[simp] theorem Pkg.flag_aon (k : Pkg) (f : Fld) (b : Bool) : (k.flag f b).aon = k.aon := rfl
@[simp] theorem Pkg.flag_pkc (k : Pkg) (f : Fld) (b : Bool) : (k.flag f b).pkc = k.pkc := rfl
@[simp] theorem Pkg.flag_mem (k : Pkg) (f : Fld) (b : Bool) : (k.flag f b).mem = k.mem := rfl
@[simp] theorem Pkg.flag_dark (k : Pkg) (f : Fld) (b : Bool) : (k.flag f b).dark = k.dark := rfl
@[simp] theorem Pkg.flag_chart (k : Pkg) (f : Fld) (b : Bool) : (k.flag f b).chart = k.chart := rfl
@[simp] theorem Pkg.flag_rt (k : Pkg) (f : Fld) (b : Bool) : (k.flag f b).rt = k.rt := rfl
@[simp] theorem Pkg.flag_fab (k : Pkg) (f : Fld) (b : Bool) : (k.flag f b).fab = k.fab := rfl
@[simp] theorem Pkg.flag_tally (k : Pkg) (f : Fld) (b : Bool) : (k.flag f b).tally = k.tally := rfl
@[simp] theorem Pkg.flag_csu (k : Pkg) (f : Fld) (b : Bool) : (k.flag f b).csu = k.csu := rfl
@[simp] theorem Pkg.flag_brg (k : Pkg) (f : Fld) (b : Bool) : (k.flag f b).brg = k.brg := rfl
@[simp] theorem Pkg.flag_pwr (k : Pkg) (f : Fld) (b : Bool) : (k.flag f b).pwr = k.pwr := rfl
@[simp] theorem Pkg.flag_thr (k : Pkg) (f : Fld) (b : Bool) : (k.flag f b).thr = k.thr := rfl
@[simp] theorem Pkg.flag_flt (k : Pkg) (f : Fld) (b : Bool) : (k.flag f b).flt = k.flt := rfl
@[simp] theorem Pkg.flag_upd (k : Pkg) (f : Fld) (b : Bool) : (k.flag f b).upd = k.upd := rfl
@[simp] theorem Pkg.flag_dbg (k : Pkg) (f : Fld) (b : Bool) : (k.flag f b).dbg = k.dbg := rfl
@[simp] theorem Pkg.flag_out (k : Pkg) (f : Fld) (b : Bool) : (k.flag f b).out = k.out := rfl

@[simp] theorem Pkg.count_latch (k : Pkg) (f : Fld) (n : Nat) : (k.count f n).latch = k.latch := rfl
@[simp] theorem Pkg.count_ret (k : Pkg) (f : Fld) (n : Nat) : (k.count f n).ret = k.ret := rfl
@[simp] theorem Pkg.count_aon (k : Pkg) (f : Fld) (n : Nat) : (k.count f n).aon = k.aon := rfl
@[simp] theorem Pkg.count_pkc (k : Pkg) (f : Fld) (n : Nat) : (k.count f n).pkc = k.pkc := rfl
@[simp] theorem Pkg.count_mem (k : Pkg) (f : Fld) (n : Nat) : (k.count f n).mem = k.mem := rfl
@[simp] theorem Pkg.count_dark (k : Pkg) (f : Fld) (n : Nat) : (k.count f n).dark = k.dark := rfl
@[simp] theorem Pkg.count_chart (k : Pkg) (f : Fld) (n : Nat) : (k.count f n).chart = k.chart := rfl
@[simp] theorem Pkg.count_rt (k : Pkg) (f : Fld) (n : Nat) : (k.count f n).rt = k.rt := rfl
@[simp] theorem Pkg.count_fab (k : Pkg) (f : Fld) (n : Nat) : (k.count f n).fab = k.fab := rfl
@[simp] theorem Pkg.count_tally (k : Pkg) (f : Fld) (n : Nat) : (k.count f n).tally = k.tally := rfl
@[simp] theorem Pkg.count_csu (k : Pkg) (f : Fld) (n : Nat) : (k.count f n).csu = k.csu := rfl
@[simp] theorem Pkg.count_brg (k : Pkg) (f : Fld) (n : Nat) : (k.count f n).brg = k.brg := rfl
@[simp] theorem Pkg.count_pwr (k : Pkg) (f : Fld) (n : Nat) : (k.count f n).pwr = k.pwr := rfl
@[simp] theorem Pkg.count_thr (k : Pkg) (f : Fld) (n : Nat) : (k.count f n).thr = k.thr := rfl
@[simp] theorem Pkg.count_flt (k : Pkg) (f : Fld) (n : Nat) : (k.count f n).flt = k.flt := rfl
@[simp] theorem Pkg.count_upd (k : Pkg) (f : Fld) (n : Nat) : (k.count f n).upd = k.upd := rfl
@[simp] theorem Pkg.count_dbg (k : Pkg) (f : Fld) (n : Nat) : (k.count f n).dbg = k.dbg := rfl
@[simp] theorem Pkg.count_out (k : Pkg) (f : Fld) (n : Nat) : (k.count f n).out = k.out := rfl

@[simp] theorem Pkg.orBits_latch (k : Pkg) (f : Fld) (v : Nat) : (k.orBits f v).latch = k.latch := rfl
@[simp] theorem Pkg.orBits_ret (k : Pkg) (f : Fld) (v : Nat) : (k.orBits f v).ret = k.ret := rfl
@[simp] theorem Pkg.orBits_aon (k : Pkg) (f : Fld) (v : Nat) : (k.orBits f v).aon = k.aon := rfl
@[simp] theorem Pkg.orBits_pkc (k : Pkg) (f : Fld) (v : Nat) : (k.orBits f v).pkc = k.pkc := rfl
@[simp] theorem Pkg.orBits_mem (k : Pkg) (f : Fld) (v : Nat) : (k.orBits f v).mem = k.mem := rfl
@[simp] theorem Pkg.orBits_dark (k : Pkg) (f : Fld) (v : Nat) : (k.orBits f v).dark = k.dark := rfl
@[simp] theorem Pkg.orBits_chart (k : Pkg) (f : Fld) (v : Nat) : (k.orBits f v).chart = k.chart := rfl
@[simp] theorem Pkg.orBits_rt (k : Pkg) (f : Fld) (v : Nat) : (k.orBits f v).rt = k.rt := rfl
@[simp] theorem Pkg.orBits_fab (k : Pkg) (f : Fld) (v : Nat) : (k.orBits f v).fab = k.fab := rfl
@[simp] theorem Pkg.orBits_tally (k : Pkg) (f : Fld) (v : Nat) : (k.orBits f v).tally = k.tally := rfl
@[simp] theorem Pkg.orBits_csu (k : Pkg) (f : Fld) (v : Nat) : (k.orBits f v).csu = k.csu := rfl
@[simp] theorem Pkg.orBits_brg (k : Pkg) (f : Fld) (v : Nat) : (k.orBits f v).brg = k.brg := rfl
@[simp] theorem Pkg.orBits_pwr (k : Pkg) (f : Fld) (v : Nat) : (k.orBits f v).pwr = k.pwr := rfl
@[simp] theorem Pkg.orBits_thr (k : Pkg) (f : Fld) (v : Nat) : (k.orBits f v).thr = k.thr := rfl
@[simp] theorem Pkg.orBits_flt (k : Pkg) (f : Fld) (v : Nat) : (k.orBits f v).flt = k.flt := rfl
@[simp] theorem Pkg.orBits_upd (k : Pkg) (f : Fld) (v : Nat) : (k.orBits f v).upd = k.upd := rfl
@[simp] theorem Pkg.orBits_dbg (k : Pkg) (f : Fld) (v : Nat) : (k.orBits f v).dbg = k.dbg := rfl
@[simp] theorem Pkg.orBits_out (k : Pkg) (f : Fld) (v : Nat) : (k.orBits f v).out = k.out := rfl

@[simp] theorem Pkg.clearBits_latch (k : Pkg) (f : Fld) (v : Nat) : (k.clearBits f v).latch = k.latch := rfl
@[simp] theorem Pkg.clearBits_ret (k : Pkg) (f : Fld) (v : Nat) : (k.clearBits f v).ret = k.ret := rfl
@[simp] theorem Pkg.clearBits_aon (k : Pkg) (f : Fld) (v : Nat) : (k.clearBits f v).aon = k.aon := rfl
@[simp] theorem Pkg.clearBits_pkc (k : Pkg) (f : Fld) (v : Nat) : (k.clearBits f v).pkc = k.pkc := rfl
@[simp] theorem Pkg.clearBits_mem (k : Pkg) (f : Fld) (v : Nat) : (k.clearBits f v).mem = k.mem := rfl
@[simp] theorem Pkg.clearBits_dark (k : Pkg) (f : Fld) (v : Nat) : (k.clearBits f v).dark = k.dark := rfl
@[simp] theorem Pkg.clearBits_chart (k : Pkg) (f : Fld) (v : Nat) : (k.clearBits f v).chart = k.chart := rfl
@[simp] theorem Pkg.clearBits_rt (k : Pkg) (f : Fld) (v : Nat) : (k.clearBits f v).rt = k.rt := rfl
@[simp] theorem Pkg.clearBits_fab (k : Pkg) (f : Fld) (v : Nat) : (k.clearBits f v).fab = k.fab := rfl
@[simp] theorem Pkg.clearBits_tally (k : Pkg) (f : Fld) (v : Nat) : (k.clearBits f v).tally = k.tally := rfl
@[simp] theorem Pkg.clearBits_csu (k : Pkg) (f : Fld) (v : Nat) : (k.clearBits f v).csu = k.csu := rfl
@[simp] theorem Pkg.clearBits_brg (k : Pkg) (f : Fld) (v : Nat) : (k.clearBits f v).brg = k.brg := rfl
@[simp] theorem Pkg.clearBits_pwr (k : Pkg) (f : Fld) (v : Nat) : (k.clearBits f v).pwr = k.pwr := rfl
@[simp] theorem Pkg.clearBits_thr (k : Pkg) (f : Fld) (v : Nat) : (k.clearBits f v).thr = k.thr := rfl
@[simp] theorem Pkg.clearBits_flt (k : Pkg) (f : Fld) (v : Nat) : (k.clearBits f v).flt = k.flt := rfl
@[simp] theorem Pkg.clearBits_upd (k : Pkg) (f : Fld) (v : Nat) : (k.clearBits f v).upd = k.upd := rfl
@[simp] theorem Pkg.clearBits_dbg (k : Pkg) (f : Fld) (v : Nat) : (k.clearBits f v).dbg = k.dbg := rfl
@[simp] theorem Pkg.clearBits_out (k : Pkg) (f : Fld) (v : Nat) : (k.clearBits f v).out = k.out := rfl

@[simp] theorem Pkg.setWide_latch (k : Pkg) (off v : Nat) : (k.setWide off v).latch = k.latch := rfl
@[simp] theorem Pkg.setWide_ret (k : Pkg) (off v : Nat) : (k.setWide off v).ret = k.ret := rfl
@[simp] theorem Pkg.setWide_aon (k : Pkg) (off v : Nat) : (k.setWide off v).aon = k.aon := rfl
@[simp] theorem Pkg.setWide_pkc (k : Pkg) (off v : Nat) : (k.setWide off v).pkc = k.pkc := rfl
@[simp] theorem Pkg.setWide_mem (k : Pkg) (off v : Nat) : (k.setWide off v).mem = k.mem := rfl
@[simp] theorem Pkg.setWide_dark (k : Pkg) (off v : Nat) : (k.setWide off v).dark = k.dark := rfl
@[simp] theorem Pkg.setWide_chart (k : Pkg) (off v : Nat) : (k.setWide off v).chart = k.chart := rfl
@[simp] theorem Pkg.setWide_rt (k : Pkg) (off v : Nat) : (k.setWide off v).rt = k.rt := rfl
@[simp] theorem Pkg.setWide_fab (k : Pkg) (off v : Nat) : (k.setWide off v).fab = k.fab := rfl
@[simp] theorem Pkg.setWide_tally (k : Pkg) (off v : Nat) : (k.setWide off v).tally = k.tally := rfl
@[simp] theorem Pkg.setWide_csu (k : Pkg) (off v : Nat) : (k.setWide off v).csu = k.csu := rfl
@[simp] theorem Pkg.setWide_brg (k : Pkg) (off v : Nat) : (k.setWide off v).brg = k.brg := rfl
@[simp] theorem Pkg.setWide_pwr (k : Pkg) (off v : Nat) : (k.setWide off v).pwr = k.pwr := rfl
@[simp] theorem Pkg.setWide_thr (k : Pkg) (off v : Nat) : (k.setWide off v).thr = k.thr := rfl
@[simp] theorem Pkg.setWide_flt (k : Pkg) (off v : Nat) : (k.setWide off v).flt = k.flt := rfl
@[simp] theorem Pkg.setWide_upd (k : Pkg) (off v : Nat) : (k.setWide off v).upd = k.upd := rfl
@[simp] theorem Pkg.setWide_dbg (k : Pkg) (off v : Nat) : (k.setWide off v).dbg = k.dbg := rfl
@[simp] theorem Pkg.setWide_out (k : Pkg) (off v : Nat) : (k.setWide off v).out = k.out := rfl

@[simp] theorem Pkg.setDomain_latch (k : Pkg) (b : Bool) (d : Nat) : (k.setDomain b d).latch = k.latch := rfl
@[simp] theorem Pkg.setDomain_ret (k : Pkg) (b : Bool) (d : Nat) : (k.setDomain b d).ret = k.ret := rfl
@[simp] theorem Pkg.setDomain_aon (k : Pkg) (b : Bool) (d : Nat) : (k.setDomain b d).aon = k.aon := rfl
@[simp] theorem Pkg.setDomain_pkc (k : Pkg) (b : Bool) (d : Nat) : (k.setDomain b d).pkc = k.pkc := rfl
@[simp] theorem Pkg.setDomain_mem (k : Pkg) (b : Bool) (d : Nat) : (k.setDomain b d).mem = k.mem := rfl
@[simp] theorem Pkg.setDomain_dark (k : Pkg) (b : Bool) (d : Nat) : (k.setDomain b d).dark = k.dark := rfl
@[simp] theorem Pkg.setDomain_chart (k : Pkg) (b : Bool) (d : Nat) : (k.setDomain b d).chart = k.chart := rfl
@[simp] theorem Pkg.setDomain_rt (k : Pkg) (b : Bool) (d : Nat) : (k.setDomain b d).rt = k.rt := rfl
@[simp] theorem Pkg.setDomain_fab (k : Pkg) (b : Bool) (d : Nat) : (k.setDomain b d).fab = k.fab := rfl
@[simp] theorem Pkg.setDomain_tally (k : Pkg) (b : Bool) (d : Nat) : (k.setDomain b d).tally = k.tally := rfl
@[simp] theorem Pkg.setDomain_csu (k : Pkg) (b : Bool) (d : Nat) : (k.setDomain b d).csu = k.csu := rfl
@[simp] theorem Pkg.setDomain_brg (k : Pkg) (b : Bool) (d : Nat) : (k.setDomain b d).brg = k.brg := rfl
@[simp] theorem Pkg.setDomain_pwr (k : Pkg) (b : Bool) (d : Nat) : (k.setDomain b d).pwr = k.pwr := rfl
@[simp] theorem Pkg.setDomain_thr (k : Pkg) (b : Bool) (d : Nat) : (k.setDomain b d).thr = k.thr := rfl
@[simp] theorem Pkg.setDomain_flt (k : Pkg) (b : Bool) (d : Nat) : (k.setDomain b d).flt = k.flt := rfl
@[simp] theorem Pkg.setDomain_upd (k : Pkg) (b : Bool) (d : Nat) : (k.setDomain b d).upd = k.upd := rfl
@[simp] theorem Pkg.setDomain_dbg (k : Pkg) (b : Bool) (d : Nat) : (k.setDomain b d).dbg = k.dbg := rfl
@[simp] theorem Pkg.setDomain_out (k : Pkg) (b : Bool) (d : Nat) : (k.setDomain b d).out = k.out := rfl

@[simp] theorem Pkg.emit_regs (k : Pkg) (m : Msg) : (k.emit m).regs = k.regs := rfl
@[simp] theorem Pkg.emit_latch (k : Pkg) (m : Msg) : (k.emit m).latch = k.latch := rfl
@[simp] theorem Pkg.emit_ret (k : Pkg) (m : Msg) : (k.emit m).ret = k.ret := rfl
@[simp] theorem Pkg.emit_aon (k : Pkg) (m : Msg) : (k.emit m).aon = k.aon := rfl
@[simp] theorem Pkg.emit_pkc (k : Pkg) (m : Msg) : (k.emit m).pkc = k.pkc := rfl
@[simp] theorem Pkg.emit_mem (k : Pkg) (m : Msg) : (k.emit m).mem = k.mem := rfl
@[simp] theorem Pkg.emit_dark (k : Pkg) (m : Msg) : (k.emit m).dark = k.dark := rfl
@[simp] theorem Pkg.emit_chart (k : Pkg) (m : Msg) : (k.emit m).chart = k.chart := rfl
@[simp] theorem Pkg.emit_rt (k : Pkg) (m : Msg) : (k.emit m).rt = k.rt := rfl
@[simp] theorem Pkg.emit_fab (k : Pkg) (m : Msg) : (k.emit m).fab = k.fab := rfl
@[simp] theorem Pkg.emit_tally (k : Pkg) (m : Msg) : (k.emit m).tally = k.tally := rfl
@[simp] theorem Pkg.emit_csu (k : Pkg) (m : Msg) : (k.emit m).csu = k.csu := rfl
@[simp] theorem Pkg.emit_brg (k : Pkg) (m : Msg) : (k.emit m).brg = k.brg := rfl
@[simp] theorem Pkg.emit_pwr (k : Pkg) (m : Msg) : (k.emit m).pwr = k.pwr := rfl
@[simp] theorem Pkg.emit_thr (k : Pkg) (m : Msg) : (k.emit m).thr = k.thr := rfl
@[simp] theorem Pkg.emit_flt (k : Pkg) (m : Msg) : (k.emit m).flt = k.flt := rfl
@[simp] theorem Pkg.emit_upd (k : Pkg) (m : Msg) : (k.emit m).upd = k.upd := rfl
@[simp] theorem Pkg.emit_dbg (k : Pkg) (m : Msg) : (k.emit m).dbg = k.dbg := rfl
@[simp] theorem Pkg.emit_out (k : Pkg) (m : Msg) : (k.emit m).out = k.out ++ [m] := rfl

@[simp] theorem Pkg.emits_regs (k : Pkg) (l : List Msg) : (k.emits l).regs = k.regs := rfl
@[simp] theorem Pkg.emits_latch (k : Pkg) (l : List Msg) : (k.emits l).latch = k.latch := rfl
@[simp] theorem Pkg.emits_ret (k : Pkg) (l : List Msg) : (k.emits l).ret = k.ret := rfl
@[simp] theorem Pkg.emits_aon (k : Pkg) (l : List Msg) : (k.emits l).aon = k.aon := rfl
@[simp] theorem Pkg.emits_pkc (k : Pkg) (l : List Msg) : (k.emits l).pkc = k.pkc := rfl
@[simp] theorem Pkg.emits_mem (k : Pkg) (l : List Msg) : (k.emits l).mem = k.mem := rfl
@[simp] theorem Pkg.emits_dark (k : Pkg) (l : List Msg) : (k.emits l).dark = k.dark := rfl
@[simp] theorem Pkg.emits_chart (k : Pkg) (l : List Msg) : (k.emits l).chart = k.chart := rfl
@[simp] theorem Pkg.emits_rt (k : Pkg) (l : List Msg) : (k.emits l).rt = k.rt := rfl
@[simp] theorem Pkg.emits_fab (k : Pkg) (l : List Msg) : (k.emits l).fab = k.fab := rfl
@[simp] theorem Pkg.emits_tally (k : Pkg) (l : List Msg) : (k.emits l).tally = k.tally := rfl
@[simp] theorem Pkg.emits_csu (k : Pkg) (l : List Msg) : (k.emits l).csu = k.csu := rfl
@[simp] theorem Pkg.emits_brg (k : Pkg) (l : List Msg) : (k.emits l).brg = k.brg := rfl
@[simp] theorem Pkg.emits_pwr (k : Pkg) (l : List Msg) : (k.emits l).pwr = k.pwr := rfl
@[simp] theorem Pkg.emits_thr (k : Pkg) (l : List Msg) : (k.emits l).thr = k.thr := rfl
@[simp] theorem Pkg.emits_flt (k : Pkg) (l : List Msg) : (k.emits l).flt = k.flt := rfl
@[simp] theorem Pkg.emits_upd (k : Pkg) (l : List Msg) : (k.emits l).upd = k.upd := rfl
@[simp] theorem Pkg.emits_dbg (k : Pkg) (l : List Msg) : (k.emits l).dbg = k.dbg := rfl
@[simp] theorem Pkg.emits_out (k : Pkg) (l : List Msg) : (k.emits l).out = k.out ++ l := rfl

@[simp] theorem Pkg.setPkc_regs (k : Pkg) (f : PkcSt → PkcSt) : (k.setPkc f).regs = k.regs := rfl
@[simp] theorem Pkg.setPkc_latch (k : Pkg) (f : PkcSt → PkcSt) : (k.setPkc f).latch = k.latch := rfl
@[simp] theorem Pkg.setPkc_ret (k : Pkg) (f : PkcSt → PkcSt) : (k.setPkc f).ret = k.ret := rfl
@[simp] theorem Pkg.setPkc_aon (k : Pkg) (f : PkcSt → PkcSt) : (k.setPkc f).aon = k.aon := rfl
@[simp] theorem Pkg.setPkc_pkc (k : Pkg) (f : PkcSt → PkcSt) : (k.setPkc f).pkc = f k.pkc := rfl
@[simp] theorem Pkg.setPkc_mem (k : Pkg) (f : PkcSt → PkcSt) : (k.setPkc f).mem = k.mem := rfl
@[simp] theorem Pkg.setPkc_dark (k : Pkg) (f : PkcSt → PkcSt) : (k.setPkc f).dark = k.dark := rfl
@[simp] theorem Pkg.setPkc_chart (k : Pkg) (f : PkcSt → PkcSt) : (k.setPkc f).chart = k.chart := rfl
@[simp] theorem Pkg.setPkc_rt (k : Pkg) (f : PkcSt → PkcSt) : (k.setPkc f).rt = k.rt := rfl
@[simp] theorem Pkg.setPkc_fab (k : Pkg) (f : PkcSt → PkcSt) : (k.setPkc f).fab = k.fab := rfl
@[simp] theorem Pkg.setPkc_tally (k : Pkg) (f : PkcSt → PkcSt) : (k.setPkc f).tally = k.tally := rfl
@[simp] theorem Pkg.setPkc_csu (k : Pkg) (f : PkcSt → PkcSt) : (k.setPkc f).csu = k.csu := rfl
@[simp] theorem Pkg.setPkc_brg (k : Pkg) (f : PkcSt → PkcSt) : (k.setPkc f).brg = k.brg := rfl
@[simp] theorem Pkg.setPkc_pwr (k : Pkg) (f : PkcSt → PkcSt) : (k.setPkc f).pwr = k.pwr := rfl
@[simp] theorem Pkg.setPkc_thr (k : Pkg) (f : PkcSt → PkcSt) : (k.setPkc f).thr = k.thr := rfl
@[simp] theorem Pkg.setPkc_flt (k : Pkg) (f : PkcSt → PkcSt) : (k.setPkc f).flt = k.flt := rfl
@[simp] theorem Pkg.setPkc_upd (k : Pkg) (f : PkcSt → PkcSt) : (k.setPkc f).upd = k.upd := rfl
@[simp] theorem Pkg.setPkc_dbg (k : Pkg) (f : PkcSt → PkcSt) : (k.setPkc f).dbg = k.dbg := rfl
@[simp] theorem Pkg.setPkc_out (k : Pkg) (f : PkcSt → PkcSt) : (k.setPkc f).out = k.out := rfl

@[simp] theorem Pkg.setAon_regs (k : Pkg) (f : AonSt → AonSt) : (k.setAon f).regs = k.regs := rfl
@[simp] theorem Pkg.setAon_latch (k : Pkg) (f : AonSt → AonSt) : (k.setAon f).latch = k.latch := rfl
@[simp] theorem Pkg.setAon_ret (k : Pkg) (f : AonSt → AonSt) : (k.setAon f).ret = k.ret := rfl
@[simp] theorem Pkg.setAon_aon (k : Pkg) (f : AonSt → AonSt) : (k.setAon f).aon = f k.aon := rfl
@[simp] theorem Pkg.setAon_pkc (k : Pkg) (f : AonSt → AonSt) : (k.setAon f).pkc = k.pkc := rfl
@[simp] theorem Pkg.setAon_mem (k : Pkg) (f : AonSt → AonSt) : (k.setAon f).mem = k.mem := rfl
@[simp] theorem Pkg.setAon_dark (k : Pkg) (f : AonSt → AonSt) : (k.setAon f).dark = k.dark := rfl
@[simp] theorem Pkg.setAon_chart (k : Pkg) (f : AonSt → AonSt) : (k.setAon f).chart = k.chart := rfl
@[simp] theorem Pkg.setAon_rt (k : Pkg) (f : AonSt → AonSt) : (k.setAon f).rt = k.rt := rfl
@[simp] theorem Pkg.setAon_fab (k : Pkg) (f : AonSt → AonSt) : (k.setAon f).fab = k.fab := rfl
@[simp] theorem Pkg.setAon_tally (k : Pkg) (f : AonSt → AonSt) : (k.setAon f).tally = k.tally := rfl
@[simp] theorem Pkg.setAon_csu (k : Pkg) (f : AonSt → AonSt) : (k.setAon f).csu = k.csu := rfl
@[simp] theorem Pkg.setAon_brg (k : Pkg) (f : AonSt → AonSt) : (k.setAon f).brg = k.brg := rfl
@[simp] theorem Pkg.setAon_pwr (k : Pkg) (f : AonSt → AonSt) : (k.setAon f).pwr = k.pwr := rfl
@[simp] theorem Pkg.setAon_thr (k : Pkg) (f : AonSt → AonSt) : (k.setAon f).thr = k.thr := rfl
@[simp] theorem Pkg.setAon_flt (k : Pkg) (f : AonSt → AonSt) : (k.setAon f).flt = k.flt := rfl
@[simp] theorem Pkg.setAon_upd (k : Pkg) (f : AonSt → AonSt) : (k.setAon f).upd = k.upd := rfl
@[simp] theorem Pkg.setAon_dbg (k : Pkg) (f : AonSt → AonSt) : (k.setAon f).dbg = k.dbg := rfl
@[simp] theorem Pkg.setAon_out (k : Pkg) (f : AonSt → AonSt) : (k.setAon f).out = k.out := rfl

@[simp] theorem Pkg.setPwr_regs (k : Pkg) (f : PwrSt → PwrSt) : (k.setPwr f).regs = k.regs := rfl
@[simp] theorem Pkg.setPwr_latch (k : Pkg) (f : PwrSt → PwrSt) : (k.setPwr f).latch = k.latch := rfl
@[simp] theorem Pkg.setPwr_ret (k : Pkg) (f : PwrSt → PwrSt) : (k.setPwr f).ret = k.ret := rfl
@[simp] theorem Pkg.setPwr_aon (k : Pkg) (f : PwrSt → PwrSt) : (k.setPwr f).aon = k.aon := rfl
@[simp] theorem Pkg.setPwr_pkc (k : Pkg) (f : PwrSt → PwrSt) : (k.setPwr f).pkc = k.pkc := rfl
@[simp] theorem Pkg.setPwr_mem (k : Pkg) (f : PwrSt → PwrSt) : (k.setPwr f).mem = k.mem := rfl
@[simp] theorem Pkg.setPwr_dark (k : Pkg) (f : PwrSt → PwrSt) : (k.setPwr f).dark = k.dark := rfl
@[simp] theorem Pkg.setPwr_chart (k : Pkg) (f : PwrSt → PwrSt) : (k.setPwr f).chart = k.chart := rfl
@[simp] theorem Pkg.setPwr_rt (k : Pkg) (f : PwrSt → PwrSt) : (k.setPwr f).rt = k.rt := rfl
@[simp] theorem Pkg.setPwr_fab (k : Pkg) (f : PwrSt → PwrSt) : (k.setPwr f).fab = k.fab := rfl
@[simp] theorem Pkg.setPwr_tally (k : Pkg) (f : PwrSt → PwrSt) : (k.setPwr f).tally = k.tally := rfl
@[simp] theorem Pkg.setPwr_csu (k : Pkg) (f : PwrSt → PwrSt) : (k.setPwr f).csu = k.csu := rfl
@[simp] theorem Pkg.setPwr_brg (k : Pkg) (f : PwrSt → PwrSt) : (k.setPwr f).brg = k.brg := rfl
@[simp] theorem Pkg.setPwr_pwr (k : Pkg) (f : PwrSt → PwrSt) : (k.setPwr f).pwr = f k.pwr := rfl
@[simp] theorem Pkg.setPwr_thr (k : Pkg) (f : PwrSt → PwrSt) : (k.setPwr f).thr = k.thr := rfl
@[simp] theorem Pkg.setPwr_flt (k : Pkg) (f : PwrSt → PwrSt) : (k.setPwr f).flt = k.flt := rfl
@[simp] theorem Pkg.setPwr_upd (k : Pkg) (f : PwrSt → PwrSt) : (k.setPwr f).upd = k.upd := rfl
@[simp] theorem Pkg.setPwr_dbg (k : Pkg) (f : PwrSt → PwrSt) : (k.setPwr f).dbg = k.dbg := rfl
@[simp] theorem Pkg.setPwr_out (k : Pkg) (f : PwrSt → PwrSt) : (k.setPwr f).out = k.out := rfl

@[simp] theorem Pkg.setThr_regs (k : Pkg) (f : ThrSt → ThrSt) : (k.setThr f).regs = k.regs := rfl
@[simp] theorem Pkg.setThr_latch (k : Pkg) (f : ThrSt → ThrSt) : (k.setThr f).latch = k.latch := rfl
@[simp] theorem Pkg.setThr_ret (k : Pkg) (f : ThrSt → ThrSt) : (k.setThr f).ret = k.ret := rfl
@[simp] theorem Pkg.setThr_aon (k : Pkg) (f : ThrSt → ThrSt) : (k.setThr f).aon = k.aon := rfl
@[simp] theorem Pkg.setThr_pkc (k : Pkg) (f : ThrSt → ThrSt) : (k.setThr f).pkc = k.pkc := rfl
@[simp] theorem Pkg.setThr_mem (k : Pkg) (f : ThrSt → ThrSt) : (k.setThr f).mem = k.mem := rfl
@[simp] theorem Pkg.setThr_dark (k : Pkg) (f : ThrSt → ThrSt) : (k.setThr f).dark = k.dark := rfl
@[simp] theorem Pkg.setThr_chart (k : Pkg) (f : ThrSt → ThrSt) : (k.setThr f).chart = k.chart := rfl
@[simp] theorem Pkg.setThr_rt (k : Pkg) (f : ThrSt → ThrSt) : (k.setThr f).rt = k.rt := rfl
@[simp] theorem Pkg.setThr_fab (k : Pkg) (f : ThrSt → ThrSt) : (k.setThr f).fab = k.fab := rfl
@[simp] theorem Pkg.setThr_tally (k : Pkg) (f : ThrSt → ThrSt) : (k.setThr f).tally = k.tally := rfl
@[simp] theorem Pkg.setThr_csu (k : Pkg) (f : ThrSt → ThrSt) : (k.setThr f).csu = k.csu := rfl
@[simp] theorem Pkg.setThr_brg (k : Pkg) (f : ThrSt → ThrSt) : (k.setThr f).brg = k.brg := rfl
@[simp] theorem Pkg.setThr_pwr (k : Pkg) (f : ThrSt → ThrSt) : (k.setThr f).pwr = k.pwr := rfl
@[simp] theorem Pkg.setThr_thr (k : Pkg) (f : ThrSt → ThrSt) : (k.setThr f).thr = f k.thr := rfl
@[simp] theorem Pkg.setThr_flt (k : Pkg) (f : ThrSt → ThrSt) : (k.setThr f).flt = k.flt := rfl
@[simp] theorem Pkg.setThr_upd (k : Pkg) (f : ThrSt → ThrSt) : (k.setThr f).upd = k.upd := rfl
@[simp] theorem Pkg.setThr_dbg (k : Pkg) (f : ThrSt → ThrSt) : (k.setThr f).dbg = k.dbg := rfl
@[simp] theorem Pkg.setThr_out (k : Pkg) (f : ThrSt → ThrSt) : (k.setThr f).out = k.out := rfl

@[simp] theorem Pkg.setFlt_regs (k : Pkg) (f : FltSt → FltSt) : (k.setFlt f).regs = k.regs := rfl
@[simp] theorem Pkg.setFlt_latch (k : Pkg) (f : FltSt → FltSt) : (k.setFlt f).latch = k.latch := rfl
@[simp] theorem Pkg.setFlt_ret (k : Pkg) (f : FltSt → FltSt) : (k.setFlt f).ret = k.ret := rfl
@[simp] theorem Pkg.setFlt_aon (k : Pkg) (f : FltSt → FltSt) : (k.setFlt f).aon = k.aon := rfl
@[simp] theorem Pkg.setFlt_pkc (k : Pkg) (f : FltSt → FltSt) : (k.setFlt f).pkc = k.pkc := rfl
@[simp] theorem Pkg.setFlt_mem (k : Pkg) (f : FltSt → FltSt) : (k.setFlt f).mem = k.mem := rfl
@[simp] theorem Pkg.setFlt_dark (k : Pkg) (f : FltSt → FltSt) : (k.setFlt f).dark = k.dark := rfl
@[simp] theorem Pkg.setFlt_chart (k : Pkg) (f : FltSt → FltSt) : (k.setFlt f).chart = k.chart := rfl
@[simp] theorem Pkg.setFlt_rt (k : Pkg) (f : FltSt → FltSt) : (k.setFlt f).rt = k.rt := rfl
@[simp] theorem Pkg.setFlt_fab (k : Pkg) (f : FltSt → FltSt) : (k.setFlt f).fab = k.fab := rfl
@[simp] theorem Pkg.setFlt_tally (k : Pkg) (f : FltSt → FltSt) : (k.setFlt f).tally = k.tally := rfl
@[simp] theorem Pkg.setFlt_csu (k : Pkg) (f : FltSt → FltSt) : (k.setFlt f).csu = k.csu := rfl
@[simp] theorem Pkg.setFlt_brg (k : Pkg) (f : FltSt → FltSt) : (k.setFlt f).brg = k.brg := rfl
@[simp] theorem Pkg.setFlt_pwr (k : Pkg) (f : FltSt → FltSt) : (k.setFlt f).pwr = k.pwr := rfl
@[simp] theorem Pkg.setFlt_thr (k : Pkg) (f : FltSt → FltSt) : (k.setFlt f).thr = k.thr := rfl
@[simp] theorem Pkg.setFlt_flt (k : Pkg) (f : FltSt → FltSt) : (k.setFlt f).flt = f k.flt := rfl
@[simp] theorem Pkg.setFlt_upd (k : Pkg) (f : FltSt → FltSt) : (k.setFlt f).upd = k.upd := rfl
@[simp] theorem Pkg.setFlt_dbg (k : Pkg) (f : FltSt → FltSt) : (k.setFlt f).dbg = k.dbg := rfl
@[simp] theorem Pkg.setFlt_out (k : Pkg) (f : FltSt → FltSt) : (k.setFlt f).out = k.out := rfl

@[simp] theorem Pkg.setUpd_regs (k : Pkg) (f : UpdSt → UpdSt) : (k.setUpd f).regs = k.regs := rfl
@[simp] theorem Pkg.setUpd_latch (k : Pkg) (f : UpdSt → UpdSt) : (k.setUpd f).latch = k.latch := rfl
@[simp] theorem Pkg.setUpd_ret (k : Pkg) (f : UpdSt → UpdSt) : (k.setUpd f).ret = k.ret := rfl
@[simp] theorem Pkg.setUpd_aon (k : Pkg) (f : UpdSt → UpdSt) : (k.setUpd f).aon = k.aon := rfl
@[simp] theorem Pkg.setUpd_pkc (k : Pkg) (f : UpdSt → UpdSt) : (k.setUpd f).pkc = k.pkc := rfl
@[simp] theorem Pkg.setUpd_mem (k : Pkg) (f : UpdSt → UpdSt) : (k.setUpd f).mem = k.mem := rfl
@[simp] theorem Pkg.setUpd_dark (k : Pkg) (f : UpdSt → UpdSt) : (k.setUpd f).dark = k.dark := rfl
@[simp] theorem Pkg.setUpd_chart (k : Pkg) (f : UpdSt → UpdSt) : (k.setUpd f).chart = k.chart := rfl
@[simp] theorem Pkg.setUpd_rt (k : Pkg) (f : UpdSt → UpdSt) : (k.setUpd f).rt = k.rt := rfl
@[simp] theorem Pkg.setUpd_fab (k : Pkg) (f : UpdSt → UpdSt) : (k.setUpd f).fab = k.fab := rfl
@[simp] theorem Pkg.setUpd_tally (k : Pkg) (f : UpdSt → UpdSt) : (k.setUpd f).tally = k.tally := rfl
@[simp] theorem Pkg.setUpd_csu (k : Pkg) (f : UpdSt → UpdSt) : (k.setUpd f).csu = k.csu := rfl
@[simp] theorem Pkg.setUpd_brg (k : Pkg) (f : UpdSt → UpdSt) : (k.setUpd f).brg = k.brg := rfl
@[simp] theorem Pkg.setUpd_pwr (k : Pkg) (f : UpdSt → UpdSt) : (k.setUpd f).pwr = k.pwr := rfl
@[simp] theorem Pkg.setUpd_thr (k : Pkg) (f : UpdSt → UpdSt) : (k.setUpd f).thr = k.thr := rfl
@[simp] theorem Pkg.setUpd_flt (k : Pkg) (f : UpdSt → UpdSt) : (k.setUpd f).flt = k.flt := rfl
@[simp] theorem Pkg.setUpd_upd (k : Pkg) (f : UpdSt → UpdSt) : (k.setUpd f).upd = f k.upd := rfl
@[simp] theorem Pkg.setUpd_dbg (k : Pkg) (f : UpdSt → UpdSt) : (k.setUpd f).dbg = k.dbg := rfl
@[simp] theorem Pkg.setUpd_out (k : Pkg) (f : UpdSt → UpdSt) : (k.setUpd f).out = k.out := rfl

@[simp] theorem Pkg.setDbg_regs (k : Pkg) (f : DbgSt → DbgSt) : (k.setDbg f).regs = k.regs := rfl
@[simp] theorem Pkg.setDbg_latch (k : Pkg) (f : DbgSt → DbgSt) : (k.setDbg f).latch = k.latch := rfl
@[simp] theorem Pkg.setDbg_ret (k : Pkg) (f : DbgSt → DbgSt) : (k.setDbg f).ret = k.ret := rfl
@[simp] theorem Pkg.setDbg_aon (k : Pkg) (f : DbgSt → DbgSt) : (k.setDbg f).aon = k.aon := rfl
@[simp] theorem Pkg.setDbg_pkc (k : Pkg) (f : DbgSt → DbgSt) : (k.setDbg f).pkc = k.pkc := rfl
@[simp] theorem Pkg.setDbg_mem (k : Pkg) (f : DbgSt → DbgSt) : (k.setDbg f).mem = k.mem := rfl
@[simp] theorem Pkg.setDbg_dark (k : Pkg) (f : DbgSt → DbgSt) : (k.setDbg f).dark = k.dark := rfl
@[simp] theorem Pkg.setDbg_chart (k : Pkg) (f : DbgSt → DbgSt) : (k.setDbg f).chart = k.chart := rfl
@[simp] theorem Pkg.setDbg_rt (k : Pkg) (f : DbgSt → DbgSt) : (k.setDbg f).rt = k.rt := rfl
@[simp] theorem Pkg.setDbg_fab (k : Pkg) (f : DbgSt → DbgSt) : (k.setDbg f).fab = k.fab := rfl
@[simp] theorem Pkg.setDbg_tally (k : Pkg) (f : DbgSt → DbgSt) : (k.setDbg f).tally = k.tally := rfl
@[simp] theorem Pkg.setDbg_csu (k : Pkg) (f : DbgSt → DbgSt) : (k.setDbg f).csu = k.csu := rfl
@[simp] theorem Pkg.setDbg_brg (k : Pkg) (f : DbgSt → DbgSt) : (k.setDbg f).brg = k.brg := rfl
@[simp] theorem Pkg.setDbg_pwr (k : Pkg) (f : DbgSt → DbgSt) : (k.setDbg f).pwr = k.pwr := rfl
@[simp] theorem Pkg.setDbg_thr (k : Pkg) (f : DbgSt → DbgSt) : (k.setDbg f).thr = k.thr := rfl
@[simp] theorem Pkg.setDbg_flt (k : Pkg) (f : DbgSt → DbgSt) : (k.setDbg f).flt = k.flt := rfl
@[simp] theorem Pkg.setDbg_upd (k : Pkg) (f : DbgSt → DbgSt) : (k.setDbg f).upd = k.upd := rfl
@[simp] theorem Pkg.setDbg_dbg (k : Pkg) (f : DbgSt → DbgSt) : (k.setDbg f).dbg = f k.dbg := rfl
@[simp] theorem Pkg.setDbg_out (k : Pkg) (f : DbgSt → DbgSt) : (k.setDbg f).out = k.out := rfl

@[simp] theorem Pkg.setChart_regs (k : Pkg) (f : ChartSt → ChartSt) : (k.setChart f).regs = k.regs := rfl
@[simp] theorem Pkg.setChart_latch (k : Pkg) (f : ChartSt → ChartSt) : (k.setChart f).latch = k.latch := rfl
@[simp] theorem Pkg.setChart_ret (k : Pkg) (f : ChartSt → ChartSt) : (k.setChart f).ret = k.ret := rfl
@[simp] theorem Pkg.setChart_aon (k : Pkg) (f : ChartSt → ChartSt) : (k.setChart f).aon = k.aon := rfl
@[simp] theorem Pkg.setChart_pkc (k : Pkg) (f : ChartSt → ChartSt) : (k.setChart f).pkc = k.pkc := rfl
@[simp] theorem Pkg.setChart_mem (k : Pkg) (f : ChartSt → ChartSt) : (k.setChart f).mem = k.mem := rfl
@[simp] theorem Pkg.setChart_dark (k : Pkg) (f : ChartSt → ChartSt) : (k.setChart f).dark = k.dark := rfl
@[simp] theorem Pkg.setChart_chart (k : Pkg) (f : ChartSt → ChartSt) : (k.setChart f).chart = f k.chart := rfl
@[simp] theorem Pkg.setChart_rt (k : Pkg) (f : ChartSt → ChartSt) : (k.setChart f).rt = k.rt := rfl
@[simp] theorem Pkg.setChart_fab (k : Pkg) (f : ChartSt → ChartSt) : (k.setChart f).fab = k.fab := rfl
@[simp] theorem Pkg.setChart_tally (k : Pkg) (f : ChartSt → ChartSt) : (k.setChart f).tally = k.tally := rfl
@[simp] theorem Pkg.setChart_csu (k : Pkg) (f : ChartSt → ChartSt) : (k.setChart f).csu = k.csu := rfl
@[simp] theorem Pkg.setChart_brg (k : Pkg) (f : ChartSt → ChartSt) : (k.setChart f).brg = k.brg := rfl
@[simp] theorem Pkg.setChart_pwr (k : Pkg) (f : ChartSt → ChartSt) : (k.setChart f).pwr = k.pwr := rfl
@[simp] theorem Pkg.setChart_thr (k : Pkg) (f : ChartSt → ChartSt) : (k.setChart f).thr = k.thr := rfl
@[simp] theorem Pkg.setChart_flt (k : Pkg) (f : ChartSt → ChartSt) : (k.setChart f).flt = k.flt := rfl
@[simp] theorem Pkg.setChart_upd (k : Pkg) (f : ChartSt → ChartSt) : (k.setChart f).upd = k.upd := rfl
@[simp] theorem Pkg.setChart_dbg (k : Pkg) (f : ChartSt → ChartSt) : (k.setChart f).dbg = k.dbg := rfl
@[simp] theorem Pkg.setChart_out (k : Pkg) (f : ChartSt → ChartSt) : (k.setChart f).out = k.out := rfl

@[simp] theorem Pkg.setTally_regs (k : Pkg) (f : TallySt → TallySt) : (k.setTally f).regs = k.regs := rfl
@[simp] theorem Pkg.setTally_latch (k : Pkg) (f : TallySt → TallySt) : (k.setTally f).latch = k.latch := rfl
@[simp] theorem Pkg.setTally_ret (k : Pkg) (f : TallySt → TallySt) : (k.setTally f).ret = k.ret := rfl
@[simp] theorem Pkg.setTally_aon (k : Pkg) (f : TallySt → TallySt) : (k.setTally f).aon = k.aon := rfl
@[simp] theorem Pkg.setTally_pkc (k : Pkg) (f : TallySt → TallySt) : (k.setTally f).pkc = k.pkc := rfl
@[simp] theorem Pkg.setTally_mem (k : Pkg) (f : TallySt → TallySt) : (k.setTally f).mem = k.mem := rfl
@[simp] theorem Pkg.setTally_dark (k : Pkg) (f : TallySt → TallySt) : (k.setTally f).dark = k.dark := rfl
@[simp] theorem Pkg.setTally_chart (k : Pkg) (f : TallySt → TallySt) : (k.setTally f).chart = k.chart := rfl
@[simp] theorem Pkg.setTally_rt (k : Pkg) (f : TallySt → TallySt) : (k.setTally f).rt = k.rt := rfl
@[simp] theorem Pkg.setTally_fab (k : Pkg) (f : TallySt → TallySt) : (k.setTally f).fab = k.fab := rfl
@[simp] theorem Pkg.setTally_tally (k : Pkg) (f : TallySt → TallySt) : (k.setTally f).tally = f k.tally := rfl
@[simp] theorem Pkg.setTally_csu (k : Pkg) (f : TallySt → TallySt) : (k.setTally f).csu = k.csu := rfl
@[simp] theorem Pkg.setTally_brg (k : Pkg) (f : TallySt → TallySt) : (k.setTally f).brg = k.brg := rfl
@[simp] theorem Pkg.setTally_pwr (k : Pkg) (f : TallySt → TallySt) : (k.setTally f).pwr = k.pwr := rfl
@[simp] theorem Pkg.setTally_thr (k : Pkg) (f : TallySt → TallySt) : (k.setTally f).thr = k.thr := rfl
@[simp] theorem Pkg.setTally_flt (k : Pkg) (f : TallySt → TallySt) : (k.setTally f).flt = k.flt := rfl
@[simp] theorem Pkg.setTally_upd (k : Pkg) (f : TallySt → TallySt) : (k.setTally f).upd = k.upd := rfl
@[simp] theorem Pkg.setTally_dbg (k : Pkg) (f : TallySt → TallySt) : (k.setTally f).dbg = k.dbg := rfl
@[simp] theorem Pkg.setTally_out (k : Pkg) (f : TallySt → TallySt) : (k.setTally f).out = k.out := rfl

@[simp] theorem Pkg.setRun_regs (k : Pkg) (r : PkcRun) : (k.setRun r).regs = k.regs := rfl
@[simp] theorem Pkg.setRun_latch (k : Pkg) (r : PkcRun) : (k.setRun r).latch = k.latch := rfl
@[simp] theorem Pkg.setRun_ret (k : Pkg) (r : PkcRun) : (k.setRun r).ret = k.ret := rfl
@[simp] theorem Pkg.setRun_aon (k : Pkg) (r : PkcRun) : (k.setRun r).aon = k.aon := rfl
@[simp] theorem Pkg.setRun_pkc (k : Pkg) (r : PkcRun) : (k.setRun r).pkc = { k.pkc with run := r } := rfl
@[simp] theorem Pkg.setRun_mem (k : Pkg) (r : PkcRun) : (k.setRun r).mem = k.mem := rfl
@[simp] theorem Pkg.setRun_dark (k : Pkg) (r : PkcRun) : (k.setRun r).dark = k.dark := rfl
@[simp] theorem Pkg.setRun_chart (k : Pkg) (r : PkcRun) : (k.setRun r).chart = k.chart := rfl
@[simp] theorem Pkg.setRun_rt (k : Pkg) (r : PkcRun) : (k.setRun r).rt = k.rt := rfl
@[simp] theorem Pkg.setRun_fab (k : Pkg) (r : PkcRun) : (k.setRun r).fab = k.fab := rfl
@[simp] theorem Pkg.setRun_tally (k : Pkg) (r : PkcRun) : (k.setRun r).tally = k.tally := rfl
@[simp] theorem Pkg.setRun_csu (k : Pkg) (r : PkcRun) : (k.setRun r).csu = k.csu := rfl
@[simp] theorem Pkg.setRun_brg (k : Pkg) (r : PkcRun) : (k.setRun r).brg = k.brg := rfl
@[simp] theorem Pkg.setRun_pwr (k : Pkg) (r : PkcRun) : (k.setRun r).pwr = k.pwr := rfl
@[simp] theorem Pkg.setRun_thr (k : Pkg) (r : PkcRun) : (k.setRun r).thr = k.thr := rfl
@[simp] theorem Pkg.setRun_flt (k : Pkg) (r : PkcRun) : (k.setRun r).flt = k.flt := rfl
@[simp] theorem Pkg.setRun_upd (k : Pkg) (r : PkcRun) : (k.setRun r).upd = k.upd := rfl
@[simp] theorem Pkg.setRun_dbg (k : Pkg) (r : PkcRun) : (k.setRun r).dbg = k.dbg := rfl
@[simp] theorem Pkg.setRun_out (k : Pkg) (r : PkcRun) : (k.setRun r).out = k.out := rfl

@[simp] theorem Pkg.setPort_regs (k : Pkg) (q : Nat) (x : PortSt) : (k.setPort q x).regs = k.regs := rfl
@[simp] theorem Pkg.setPort_latch (k : Pkg) (q : Nat) (x : PortSt) : (k.setPort q x).latch = k.latch := rfl
@[simp] theorem Pkg.setPort_ret (k : Pkg) (q : Nat) (x : PortSt) : (k.setPort q x).ret = k.ret := rfl
@[simp] theorem Pkg.setPort_aon (k : Pkg) (q : Nat) (x : PortSt) : (k.setPort q x).aon = k.aon := rfl
@[simp] theorem Pkg.setPort_pkc (k : Pkg) (q : Nat) (x : PortSt) : (k.setPort q x).pkc = k.pkc := rfl
@[simp] theorem Pkg.setPort_mem (k : Pkg) (q : Nat) (x : PortSt) : (k.setPort q x).mem = k.mem := rfl
@[simp] theorem Pkg.setPort_dark (k : Pkg) (q : Nat) (x : PortSt) : (k.setPort q x).dark = k.dark := rfl
@[simp] theorem Pkg.setPort_chart (k : Pkg) (q : Nat) (x : PortSt) : (k.setPort q x).chart = k.chart := rfl
@[simp] theorem Pkg.setPort_fab (k : Pkg) (q : Nat) (x : PortSt) : (k.setPort q x).fab = k.fab := rfl
@[simp] theorem Pkg.setPort_tally (k : Pkg) (q : Nat) (x : PortSt) : (k.setPort q x).tally = k.tally := rfl
@[simp] theorem Pkg.setPort_csu (k : Pkg) (q : Nat) (x : PortSt) : (k.setPort q x).csu = k.csu := rfl
@[simp] theorem Pkg.setPort_brg (k : Pkg) (q : Nat) (x : PortSt) : (k.setPort q x).brg = k.brg := rfl
@[simp] theorem Pkg.setPort_pwr (k : Pkg) (q : Nat) (x : PortSt) : (k.setPort q x).pwr = k.pwr := rfl
@[simp] theorem Pkg.setPort_thr (k : Pkg) (q : Nat) (x : PortSt) : (k.setPort q x).thr = k.thr := rfl
@[simp] theorem Pkg.setPort_flt (k : Pkg) (q : Nat) (x : PortSt) : (k.setPort q x).flt = k.flt := rfl
@[simp] theorem Pkg.setPort_upd (k : Pkg) (q : Nat) (x : PortSt) : (k.setPort q x).upd = k.upd := rfl
@[simp] theorem Pkg.setPort_dbg (k : Pkg) (q : Nat) (x : PortSt) : (k.setPort q x).dbg = k.dbg := rfl
@[simp] theorem Pkg.setPort_out (k : Pkg) (q : Nat) (x : PortSt) : (k.setPort q x).out = k.out := rfl

@[simp] theorem Pkg.setPstate_latch (k : Pkg) (c v : Nat) : (k.setPstate c v).latch = k.latch := rfl
@[simp] theorem Pkg.setPstate_ret (k : Pkg) (c v : Nat) : (k.setPstate c v).ret = k.ret := rfl
@[simp] theorem Pkg.setPstate_aon (k : Pkg) (c v : Nat) : (k.setPstate c v).aon = k.aon := rfl
@[simp] theorem Pkg.setPstate_pkc (k : Pkg) (c v : Nat) : (k.setPstate c v).pkc = k.pkc := rfl
@[simp] theorem Pkg.setPstate_mem (k : Pkg) (c v : Nat) : (k.setPstate c v).mem = k.mem := rfl
@[simp] theorem Pkg.setPstate_dark (k : Pkg) (c v : Nat) : (k.setPstate c v).dark = k.dark := rfl
@[simp] theorem Pkg.setPstate_chart (k : Pkg) (c v : Nat) : (k.setPstate c v).chart = k.chart := rfl
@[simp] theorem Pkg.setPstate_rt (k : Pkg) (c v : Nat) : (k.setPstate c v).rt = k.rt := rfl
@[simp] theorem Pkg.setPstate_fab (k : Pkg) (c v : Nat) : (k.setPstate c v).fab = k.fab := rfl
@[simp] theorem Pkg.setPstate_tally (k : Pkg) (c v : Nat) : (k.setPstate c v).tally = k.tally := rfl
@[simp] theorem Pkg.setPstate_csu (k : Pkg) (c v : Nat) : (k.setPstate c v).csu = k.csu := rfl
@[simp] theorem Pkg.setPstate_brg (k : Pkg) (c v : Nat) : (k.setPstate c v).brg = k.brg := rfl
@[simp] theorem Pkg.setPstate_pwr (k : Pkg) (c v : Nat) : (k.setPstate c v).pwr = k.pwr := rfl
@[simp] theorem Pkg.setPstate_thr (k : Pkg) (c v : Nat) : (k.setPstate c v).thr = k.thr := rfl
@[simp] theorem Pkg.setPstate_flt (k : Pkg) (c v : Nat) : (k.setPstate c v).flt = k.flt := rfl
@[simp] theorem Pkg.setPstate_upd (k : Pkg) (c v : Nat) : (k.setPstate c v).upd = k.upd := rfl
@[simp] theorem Pkg.setPstate_dbg (k : Pkg) (c v : Nat) : (k.setPstate c v).dbg = k.dbg := rfl
@[simp] theorem Pkg.setPstate_out (k : Pkg) (c v : Nat) : (k.setPstate c v).out = k.out := rfl

/-! ### The whole machine -/

@[simp] theorem State.setPkg_now (s : State) (p : PkgId) (k : Pkg) : (s.setPkg p k).now = s.now := rfl
@[simp] theorem State.setPkg_free (s : State) (p : PkgId) (k : Pkg) : (s.setPkg p k).free = s.free := rfl
@[simp] theorem State.setPkg_mem (s : State) (p : PkgId) (k : Pkg) : (s.setPkg p k).mem = s.mem := rfl
@[simp] theorem State.setPkg_pkgs (s : State) (p : PkgId) (k : Pkg) : (s.setPkg p k).pkgs = sset {} s.pkgs p.key k := rfl
@[simp] theorem State.setPkg_meridians (s : State) (p : PkgId) (k : Pkg) : (s.setPkg p k).meridians = s.meridians := rfl
@[simp] theorem State.setPkg_trays (s : State) (p : PkgId) (k : Pkg) : (s.setPkg p k).trays = s.trays := rfl
@[simp] theorem State.setPkg_almanacs (s : State) (p : PkgId) (k : Pkg) : (s.setPkg p k).almanacs = s.almanacs := rfl
@[simp] theorem State.setPkg_racks (s : State) (p : PkgId) (k : Pkg) : (s.setPkg p k).racks = s.racks := rfl
@[simp] theorem State.setPkg_fleet (s : State) (p : PkgId) (k : Pkg) : (s.setPkg p k).fleet = s.fleet := rfl
@[simp] theorem State.setPkg_pending (s : State) (p : PkgId) (k : Pkg) : (s.setPkg p k).pending = s.pending := rfl

@[simp] theorem State.setTray_now (s : State) (t : TrayId) (c : CwSt) : (s.setTray t c).now = s.now := rfl
@[simp] theorem State.setTray_free (s : State) (t : TrayId) (c : CwSt) : (s.setTray t c).free = s.free := rfl
@[simp] theorem State.setTray_mem (s : State) (t : TrayId) (c : CwSt) : (s.setTray t c).mem = s.mem := rfl
@[simp] theorem State.setTray_pkgs (s : State) (t : TrayId) (c : CwSt) : (s.setTray t c).pkgs = s.pkgs := rfl
@[simp] theorem State.setTray_meridians (s : State) (t : TrayId) (c : CwSt) : (s.setTray t c).meridians = s.meridians := rfl
@[simp] theorem State.setTray_trays (s : State) (t : TrayId) (c : CwSt) : (s.setTray t c).trays = sset {} s.trays t.key c := rfl
@[simp] theorem State.setTray_almanacs (s : State) (t : TrayId) (c : CwSt) : (s.setTray t c).almanacs = s.almanacs := rfl
@[simp] theorem State.setTray_racks (s : State) (t : TrayId) (c : CwSt) : (s.setTray t c).racks = s.racks := rfl
@[simp] theorem State.setTray_fleet (s : State) (t : TrayId) (c : CwSt) : (s.setTray t c).fleet = s.fleet := rfl
@[simp] theorem State.setTray_pending (s : State) (t : TrayId) (c : CwSt) : (s.setTray t c).pending = s.pending := rfl

@[simp] theorem State.setAlm_now (s : State) (a : AlmId) (x : AlmSt) : (s.setAlm a x).now = s.now := rfl
@[simp] theorem State.setAlm_free (s : State) (a : AlmId) (x : AlmSt) : (s.setAlm a x).free = s.free := rfl
@[simp] theorem State.setAlm_mem (s : State) (a : AlmId) (x : AlmSt) : (s.setAlm a x).mem = s.mem := rfl
@[simp] theorem State.setAlm_pkgs (s : State) (a : AlmId) (x : AlmSt) : (s.setAlm a x).pkgs = s.pkgs := rfl
@[simp] theorem State.setAlm_meridians (s : State) (a : AlmId) (x : AlmSt) : (s.setAlm a x).meridians = s.meridians := rfl
@[simp] theorem State.setAlm_trays (s : State) (a : AlmId) (x : AlmSt) : (s.setAlm a x).trays = s.trays := rfl
@[simp] theorem State.setAlm_almanacs (s : State) (a : AlmId) (x : AlmSt) : (s.setAlm a x).almanacs = sset {} s.almanacs a.key x := rfl
@[simp] theorem State.setAlm_racks (s : State) (a : AlmId) (x : AlmSt) : (s.setAlm a x).racks = s.racks := rfl
@[simp] theorem State.setAlm_fleet (s : State) (a : AlmId) (x : AlmSt) : (s.setAlm a x).fleet = s.fleet := rfl
@[simp] theorem State.setAlm_pending (s : State) (a : AlmId) (x : AlmSt) : (s.setAlm a x).pending = s.pending := rfl

@[simp] theorem State.setRack_now (s : State) (r : Fin 32) (x : RackSt) : (s.setRack r x).now = s.now := rfl
@[simp] theorem State.setRack_free (s : State) (r : Fin 32) (x : RackSt) : (s.setRack r x).free = s.free := rfl
@[simp] theorem State.setRack_mem (s : State) (r : Fin 32) (x : RackSt) : (s.setRack r x).mem = s.mem := rfl
@[simp] theorem State.setRack_pkgs (s : State) (r : Fin 32) (x : RackSt) : (s.setRack r x).pkgs = s.pkgs := rfl
@[simp] theorem State.setRack_meridians (s : State) (r : Fin 32) (x : RackSt) : (s.setRack r x).meridians = s.meridians := rfl
@[simp] theorem State.setRack_trays (s : State) (r : Fin 32) (x : RackSt) : (s.setRack r x).trays = s.trays := rfl
@[simp] theorem State.setRack_almanacs (s : State) (r : Fin 32) (x : RackSt) : (s.setRack r x).almanacs = s.almanacs := rfl
@[simp] theorem State.setRack_racks (s : State) (r : Fin 32) (x : RackSt) : (s.setRack r x).racks = sset {} s.racks r.val x := rfl
@[simp] theorem State.setRack_fleet (s : State) (r : Fin 32) (x : RackSt) : (s.setRack r x).fleet = s.fleet := rfl
@[simp] theorem State.setRack_pending (s : State) (r : Fin 32) (x : RackSt) : (s.setRack r x).pending = s.pending := rfl

@[simp] theorem State.setPosn_now (s : State) (t : TrayId) (pos : Fin 4) (x : PosSt) : (s.setPosn t pos x).now = s.now := rfl
@[simp] theorem State.setPosn_free (s : State) (t : TrayId) (pos : Fin 4) (x : PosSt) : (s.setPosn t pos x).free = s.free := rfl
@[simp] theorem State.setPosn_mem (s : State) (t : TrayId) (pos : Fin 4) (x : PosSt) : (s.setPosn t pos x).mem = s.mem := rfl
@[simp] theorem State.setPosn_pkgs (s : State) (t : TrayId) (pos : Fin 4) (x : PosSt) : (s.setPosn t pos x).pkgs = s.pkgs := rfl
@[simp] theorem State.setPosn_meridians (s : State) (t : TrayId) (pos : Fin 4) (x : PosSt) : (s.setPosn t pos x).meridians = s.meridians := rfl
@[simp] theorem State.setPosn_almanacs (s : State) (t : TrayId) (pos : Fin 4) (x : PosSt) : (s.setPosn t pos x).almanacs = s.almanacs := rfl
@[simp] theorem State.setPosn_racks (s : State) (t : TrayId) (pos : Fin 4) (x : PosSt) : (s.setPosn t pos x).racks = s.racks := rfl
@[simp] theorem State.setPosn_fleet (s : State) (t : TrayId) (pos : Fin 4) (x : PosSt) : (s.setPosn t pos x).fleet = s.fleet := rfl
@[simp] theorem State.setPosn_pending (s : State) (t : TrayId) (pos : Fin 4) (x : PosSt) : (s.setPosn t pos x).pending = s.pending := rfl

@[simp] theorem State.cwReport_now (s : State) (t : TrayId) (n : String) (pos d : Nat) : (s.cwReport t n pos d).now = s.now := rfl
@[simp] theorem State.cwReport_free (s : State) (t : TrayId) (n : String) (pos d : Nat) : (s.cwReport t n pos d).free = s.free := rfl
@[simp] theorem State.cwReport_mem (s : State) (t : TrayId) (n : String) (pos d : Nat) : (s.cwReport t n pos d).mem = s.mem := rfl
@[simp] theorem State.cwReport_pkgs (s : State) (t : TrayId) (n : String) (pos d : Nat) : (s.cwReport t n pos d).pkgs = s.pkgs := rfl
@[simp] theorem State.cwReport_meridians (s : State) (t : TrayId) (n : String) (pos d : Nat) : (s.cwReport t n pos d).meridians = s.meridians := rfl
@[simp] theorem State.cwReport_almanacs (s : State) (t : TrayId) (n : String) (pos d : Nat) : (s.cwReport t n pos d).almanacs = s.almanacs := rfl
@[simp] theorem State.cwReport_racks (s : State) (t : TrayId) (n : String) (pos d : Nat) : (s.cwReport t n pos d).racks = s.racks := rfl
@[simp] theorem State.cwReport_fleet (s : State) (t : TrayId) (n : String) (pos d : Nat) : (s.cwReport t n pos d).fleet = s.fleet := rfl
@[simp] theorem State.cwReport_pending (s : State) (t : TrayId) (n : String) (pos d : Nat) : (s.cwReport t n pos d).pending = s.pending := rfl

@[simp] theorem State.setRouter_now (s : State) (r : RouterId) (x : RouterSt) : (s.setRouter r x).now = s.now := by cases r <;> rfl
@[simp] theorem State.setRouter_free (s : State) (r : RouterId) (x : RouterSt) : (s.setRouter r x).free = s.free := by cases r <;> rfl
@[simp] theorem State.setRouter_mem (s : State) (r : RouterId) (x : RouterSt) : (s.setRouter r x).mem = s.mem := by cases r <;> rfl
@[simp] theorem State.setRouter_trays (s : State) (r : RouterId) (x : RouterSt) : (s.setRouter r x).trays = s.trays := by cases r <;> rfl
@[simp] theorem State.setRouter_almanacs (s : State) (r : RouterId) (x : RouterSt) : (s.setRouter r x).almanacs = s.almanacs := by cases r <;> rfl
@[simp] theorem State.setRouter_racks (s : State) (r : RouterId) (x : RouterSt) : (s.setRouter r x).racks = s.racks := by cases r <;> rfl
@[simp] theorem State.setRouter_fleet (s : State) (r : RouterId) (x : RouterSt) : (s.setRouter r x).fleet = s.fleet := by cases r <;> rfl
@[simp] theorem State.setRouter_pending (s : State) (r : RouterId) (x : RouterSt) : (s.setRouter r x).pending = s.pending := by cases r <;> rfl

end Sys2Proof.Machine
end

