-- ==== Sys2Proof/Laws/Ops.lean ====
section
/-! SUPPORT. What the shared operations can do: sparse arrays and memory keep their canonical form and read back what was written, registers
and their fields, and the units of the machine. -/

namespace Sys2Proof.Machine
open Sys2Proof

/-! ### Sparse arrays -/

section
variable {α : Type}

theorem sortedFrom_weaken : ∀ (m : SMap α) {a b : Nat}, a ≤ b → sortedFrom b m = true → sortedFrom a m = true
  | [], _, _, _, _ => rfl
  | (k, _) :: _, _, _, hab, h => by
    simp only [sortedFrom, Bool.and_eq_true, decide_eq_true_eq] at h ⊢
    exact ⟨hab.trans h.1, h.2⟩

theorem sfind_below : ∀ (m : SMap α) {b n : Nat}, sortedFrom b m = true → n < b → sfind m n = none
  | [], _, _, _, _ => rfl
  | (k, v) :: t, b, n, h, hn => by
    simp only [sortedFrom, Bool.and_eq_true, decide_eq_true_eq] at h
    have hk : ¬ n = k := by omega
    simp only [sfind, hk, if_false]
    exact sfind_below t h.2 (by omega)

theorem sget_eq_sfind (d : α) : ∀ (m : SMap α) (n : Nat), sget d m n = (sfind m n).getD d
  | [], _ => rfl
  | (k, v) :: t, n => by
    by_cases h : n = k
    · simp [sget, sfind, h]
    · simp [sget, sfind, h, sget_eq_sfind d t n]

theorem sortedFrom_sinsert : ∀ (m : SMap α) {b n : Nat} (v : α), b ≤ n → sortedFrom b m = true → sortedFrom b (sinsert m n v) = true
  | [], b, n, v, hb, _ => by simp [sinsert, sortedFrom, hb]
  | (k, w) :: t, b, n, v, hb, h => by
    simp only [sortedFrom, Bool.and_eq_true, decide_eq_true_eq] at h
    unfold sinsert
    split
    · simp only [sortedFrom, Bool.and_eq_true, decide_eq_true_eq]; exact ⟨hb, by omega, h.2⟩
    · split
      · rename_i _ he; subst he
        simp only [sortedFrom, Bool.and_eq_true, decide_eq_true_eq]; exact ⟨hb, h.2⟩
      · simp only [sortedFrom, Bool.and_eq_true, decide_eq_true_eq]
        exact ⟨h.1, sortedFrom_sinsert t v (by omega) h.2⟩

theorem sortedFrom_filter (p : Nat × α → Bool) : ∀ (m : SMap α) {b : Nat}, sortedFrom b m = true → sortedFrom b (m.filter p) = true
  | [], _, _ => rfl
  | (k, v) :: t, b, h => by
    simp only [sortedFrom, Bool.and_eq_true, decide_eq_true_eq] at h
    rw [List.filter_cons]
    split
    · simp only [sortedFrom, Bool.and_eq_true, decide_eq_true_eq]; exact ⟨h.1, sortedFrom_filter p t h.2⟩
    · exact sortedFrom_weaken _ (by omega) (sortedFrom_filter p t h.2)

@[simp] theorem sfind_sinsert_same : ∀ (m : SMap α) (n : Nat) (v : α), sfind (sinsert m n v) n = some v
  | [], n, v => by simp [sinsert, sfind]
  | (k, w) :: t, n, v => by
    unfold sinsert
    split
    · simp [sfind]
    · split
      · simp [sfind]
      · rename_i _ h; simp [sfind, h, sfind_sinsert_same t n v]

theorem sfind_sinsert_ne {n i : Nat} (h : i ≠ n) : ∀ (m : SMap α) (v : α), sfind (sinsert m n v) i = sfind m i
  | [], v => by simp [sinsert, sfind, h]
  | (k, w) :: t, v => by
    unfold sinsert
    split
    · simp [sfind, h]
    · split
      · rename_i _ he; subst he; simp [sfind, h]
      · simp only [sfind]; split
        · rfl
        · exact sfind_sinsert_ne h t v

theorem sfind_serase_ne {n i : Nat} (h : i ≠ n) : ∀ (m : SMap α), sfind (serase m n) i = sfind m i
  | [] => rfl
  | (k, w) :: t => by
    unfold serase
    rw [List.filter_cons]
    split
    · simp only [sfind]; split
      · rfl
      · exact sfind_serase_ne h t
    · rename_i hk
      have : k = n := by simpa using hk
      subst this
      simp only [sfind, h, if_false]
      exact sfind_serase_ne h t

@[simp] theorem sfind_serase_same (n : Nat) : ∀ (m : SMap α), sfind (serase m n) n = none
  | [] => rfl
  | (k, w) :: t => by
    unfold serase
    rw [List.filter_cons]
    split
    · rename_i hk
      have hk' : ¬ n = k := fun e => by simp [e] at hk
      simp only [sfind, hk', if_false]
      exact sfind_serase_same n t
    · exact sfind_serase_same n t

theorem mem_sinsert_cases {e : Nat × α} {n : Nat} {v : α} : ∀ {m : SMap α}, e ∈ sinsert m n v → e = (n, v) ∨ e ∈ m
  | [], h => by simp [sinsert] at h; exact .inl h
  | (k, w) :: t, h => by
    unfold sinsert at h
    split at h
    · simp only [List.mem_cons] at h ⊢; tauto
    · split at h
      · simp only [List.mem_cons] at h ⊢; tauto
      · simp only [List.mem_cons] at h ⊢
        rcases h with h | h
        · exact .inr (.inl h)
        · rcases mem_sinsert_cases h with h | h
          · exact .inl h
          · exact .inr (.inr h)

variable [DecidableEq α]

@[simp] theorem sget_sset_same (d : α) (m : SMap α) (n : Nat) (v : α) : sget d (sset d m n v) n = v := by
  rw [sget_eq_sfind]
  unfold sset
  split
  · rename_i h; rw [sfind_serase_same, h]; rfl
  · rw [sfind_sinsert_same]; rfl

theorem sget_sset_ne (d e : α) (m : SMap α) {n i : Nat} (v : α) (h : i ≠ n) : sget d (sset e m n v) i = sget d m i := by
  rw [sget_eq_sfind, sget_eq_sfind]
  unfold sset
  split
  · rw [sfind_serase_ne h]
  · rw [sfind_sinsert_ne h]

/-- A write keeps the canonical form of a sparse array. -/
theorem swf_sset (d : α) (m : SMap α) (n : Nat) (v : α) (h : swf d m = true) : swf d (sset d m n v) = true := by
  simp only [swf, Bool.and_eq_true, List.all_eq_true, decide_eq_true_eq] at h ⊢
  unfold sset
  split
  · exact ⟨sortedFrom_filter _ _ h.1, fun e he => h.2 e (List.mem_of_mem_filter he)⟩
  · rename_i hv
    refine ⟨sortedFrom_sinsert _ _ (Nat.zero_le _) h.1, fun e he => ?_⟩
    rcases mem_sinsert_cases he with rfl | he
    · exact hv
    · exact h.2 e he

end

/-! ### Memory -/

theorem wf_memWriteByte (m : Mem) (key : Nat) (b : Byte) (h : Memory.wf m = true) : Memory.wf (memWriteByte m key b) = true :=
  sortedFrom_sinsert m b (Nat.zero_le _) h

theorem wf_memWrite : ∀ (l : List Byte) (m : Mem) (key : Nat), Memory.wf m = true → Memory.wf (memWrite m key l) = true
  | [], _, _, h => h
  | b :: t, m, key, h => wf_memWrite t _ _ (wf_memWriteByte m key b h)

theorem wf_memErase (m : Mem) (key len : Nat) (h : Memory.wf m = true) : Memory.wf (memErase m key len) = true :=
  sortedFrom_filter _ m h

theorem wf_memCopy (m : Mem) (src dst len : Nat) (h : Memory.wf m = true) : Memory.wf (memCopy m src dst len) = true := by
  have key : ∀ (l m : Mem), Memory.wf m = true → Memory.wf (l.foldl (fun m e => memWriteByte m (e.1 - src + dst) e.2) m) = true := by
    intro l
    induction l with
    | nil => exact fun _ h => h
    | cons e t ih => exact fun m h => ih _ (wf_memWriteByte m _ _ h)
  exact key _ _ (wf_memErase m dst len h)

@[simp] theorem memByte_memWriteByte_same (m : Mem) (key : Nat) (b : Byte) : memByte (memWriteByte m key b) key = b := by
  simp [memByte, memWriteByte]

theorem memByte_memWriteByte_ne (m : Mem) {key a : Nat} (b : Byte) (h : a ≠ key) : memByte (memWriteByte m key b) a = memByte m a := by
  simp [memByte, memWriteByte, sfind_sinsert_ne h]

/-- A write leaves every byte outside the stored ones. -/
theorem memByte_memWrite_out : ∀ (l : List Byte) (m : Mem) (key a : Nat), (a < key ∨ key + l.length ≤ a) →
    memByte (memWrite m key l) a = memByte m a
  | [], _, _, _, _ => rfl
  | b :: t, m, key, a, h => by
    simp only [memWrite, List.length_cons] at h ⊢
    rw [memByte_memWrite_out t _ _ _ (by omega), memByte_memWriteByte_ne _ _ (by omega)]

/-! ### Registers -/

@[simp] theorem Pkg.rg_setRg_same (k : Pkg) (off : Nat) (v : Word) : (k.setRg off v).rg off = v := by
  unfold Pkg.rg Pkg.setRg sset
  split
  · rename_i h; simp [h]
  · simp

theorem Pkg.rg_setRg_ne (k : Pkg) {off o : Nat} (v : Word) (h : o ≠ off) : (k.setRg off v).rg o = k.rg o := by
  unfold Pkg.rg Pkg.setRg sset
  split
  · simp [sfind_serase_ne h]
  · simp [sfind_sinsert_ne h]

/-- A register reads alike after a change of anything but the registers. -/
theorem Pkg.rg_of_regs {j k : Pkg} (h : j.regs = k.regs) (o : Nat) : j.rg o = k.rg o := by unfold Pkg.rg; rw [h]
theorem Pkg.get_of_regs {j k : Pkg} (h : j.regs = k.regs) (f : Fld) : j.get f = k.get f := by unfold Pkg.get; rw [Pkg.rg_of_regs h]

theorem Pkg.get_put_reg_ne (k : Pkg) (f g : Fld) (v : Nat) (h : g.off ≠ f.off) : (k.put f v).get g = k.get g := by
  unfold Pkg.get Pkg.put; rw [Pkg.rg_setRg_ne _ _ h]

theorem putBits_bit (w : Word) (lo width v i : Nat) (hi : i < 32) :
    (putBits w lo width v).toNat.testBit i = if lo ≤ i ∧ i < lo + width then (v % 2 ^ width).testBit (i - lo) else w.toNat.testBit i := by
  have hm : ((2 ^ width - 1) <<< lo % 2 ^ 32).testBit i = decide (lo ≤ i ∧ i < lo + width) := by
    rw [Nat.testBit_mod_two_pow, Nat.testBit_shiftLeft, Nat.testBit_two_pow_sub_one]
    by_cases h1 : lo ≤ i <;> by_cases h2 : i < lo + width <;> simp [hi, h1, h2] <;> omega
  have hv : ((v % 2 ^ width) <<< lo % 2 ^ 32).testBit i = (decide (lo ≤ i) && (v % 2 ^ width).testBit (i - lo)) := by
    rw [Nat.testBit_mod_two_pow, Nat.testBit_shiftLeft]; simp [hi]
  unfold putBits
  rw [BitVec.toNat_or, BitVec.toNat_and, Nat.testBit_or, Nat.testBit_and, BitVec.toNat_ofNat, hv]
  have hn : (~~~ (BitVec.ofNat 32 ((2 ^ width - 1) <<< lo))).toNat.testBit i = !decide (lo ≤ i ∧ i < lo + width) := by
    have := BitVec.getLsbD_not (x := BitVec.ofNat 32 ((2 ^ width - 1) <<< lo)) (i := i)
    simp only [BitVec.getLsbD, BitVec.toNat_ofNat, hm] at this
    rw [this]; simp [hi]
  rw [hn]
  by_cases h1 : lo ≤ i
  · by_cases h2 : i < lo + width
    · simp [h1, h2]
    · have hb : (v % 2 ^ width).testBit (i - lo) = false := by
        apply Nat.testBit_lt_two_pow
        exact lt_of_lt_of_le (Nat.mod_lt _ (by positivity)) (Nat.pow_le_pow_right (by omega) (by omega))
      rw [hb]; simp [h1, h2]
  · simp [h1]

/-- A field reads back what was put in it. -/
@[simp] theorem Pkg.get_put_same (k : Pkg) (f : Fld) (v : Nat) (h : f.lo + f.width ≤ 32) : (k.put f v).get f = v % 2 ^ f.width := by
  unfold Pkg.get Pkg.put
  rw [Pkg.rg_setRg_same]
  apply Nat.eq_of_testBit_eq
  intro i
  unfold bits
  rw [Nat.testBit_mod_two_pow, Nat.testBit_shiftRight]
  by_cases hi : i < f.width
  · rw [putBits_bit _ _ _ _ _ (by omega)]
    simp [hi]
  · have : (v % 2 ^ f.width).testBit i = false := by
      apply Nat.testBit_lt_two_pow
      exact lt_of_lt_of_le (Nat.mod_lt _ (by positivity)) (Nat.pow_le_pow_right (by omega) (by omega))
    simp [hi, this]

/-- A field of the same register that does not overlap is left. -/
theorem Pkg.get_put_disjoint (k : Pkg) (f g : Fld) (v : Nat) (hg : g.lo + g.width ≤ 32) (ho : g.off = f.off)
    (h : g.lo + g.width ≤ f.lo ∨ f.lo + f.width ≤ g.lo) : (k.put f v).get g = k.get g := by
  unfold Pkg.get Pkg.put
  rw [ho, Pkg.rg_setRg_same]
  apply Nat.eq_of_testBit_eq
  intro i
  unfold bits
  rw [Nat.testBit_mod_two_pow, Nat.testBit_shiftRight, Nat.testBit_mod_two_pow, Nat.testBit_shiftRight]
  by_cases hi : i < g.width
  · rw [putBits_bit _ _ _ _ _ (by omega)]
    have : ¬ (f.lo ≤ g.lo + i ∧ g.lo + i < f.lo + f.width) := by omega
    simp [hi, this]
  · simp [hi]

/-! ### The units of the machine -/

theorem PkgId.key_inj {p q : PkgId} (h : p.key = q.key) : p = q := by
  obtain ⟨r, a, c⟩ := p; obtain ⟨r', a', c'⟩ := q
  simp only [PkgId.key] at h
  have h1 : r.val = r'.val := by omega
  have h2 : a.val = a'.val := by omega
  have h3 : c.val = c'.val := by omega
  simp [Fin.ext_iff, h1, h2, h3]

theorem TrayId.key_inj {t u : TrayId} (h : t.key = u.key) : t = u := by
  obtain ⟨r, a⟩ := t; obtain ⟨r', a'⟩ := u
  simp only [TrayId.key] at h
  have h1 : r.val = r'.val := by omega
  have h2 : a.val = a'.val := by omega
  simp [Fin.ext_iff, h1, h2]

theorem AlmId.key_inj {a b : AlmId} (h : a.key = b.key) : a = b := by
  obtain ⟨r, x⟩ := a; obtain ⟨r', y⟩ := b
  simp only [AlmId.key] at h
  have h1 : r.val = r'.val := by cases x <;> cases y <;> simp [Bool.toNat] at h <;> omega
  have h2 : x = y := by cases x <;> cases y <;> simp [Bool.toNat] at h ⊢ <;> omega
  simp [Fin.ext_iff, h1, h2]

@[simp] theorem State.pkg_setPkg_same (s : State) (p : PkgId) (k : Pkg) : (s.setPkg p k).pkg p = k := by
  simp [State.pkg, State.setPkg]
theorem State.pkg_setPkg_ne (s : State) {p q : PkgId} (k : Pkg) (h : q ≠ p) : (s.setPkg p k).pkg q = s.pkg q := by
  simp only [State.pkg, State.setPkg]
  exact sget_sset_ne _ _ _ _ fun e => h (PkgId.key_inj e)
@[simp] theorem State.tray_setTray_same (s : State) (t : TrayId) (c : CwSt) : (s.setTray t c).tray t = c := by
  simp [State.tray, State.setTray]
theorem State.tray_setTray_ne (s : State) {t u : TrayId} (c : CwSt) (h : u ≠ t) : (s.setTray t c).tray u = s.tray u := by
  simp only [State.tray, State.setTray]
  exact sget_sset_ne _ _ _ _ fun e => h (TrayId.key_inj e)
@[simp] theorem State.alm_setAlm_same (s : State) (a : AlmId) (x : AlmSt) : (s.setAlm a x).alm a = x := by
  simp [State.alm, State.setAlm]
theorem State.alm_setAlm_ne (s : State) {a b : AlmId} (x : AlmSt) (h : b ≠ a) : (s.setAlm a x).alm b = s.alm b := by
  simp only [State.alm, State.setAlm]
  exact sget_sset_ne _ _ _ _ fun e => h (AlmId.key_inj e)
@[simp] theorem State.rack_setRack_same (s : State) (r : Fin 32) (x : RackSt) : (s.setRack r x).rack r = x := by
  simp [State.rack, State.setRack]
theorem State.rack_setRack_ne (s : State) {r q : Fin 32} (x : RackSt) (h : q ≠ r) : (s.setRack r x).rack q = s.rack q := by
  simp only [State.rack, State.setRack]
  exact sget_sset_ne _ _ _ _ fun e => h (Fin.ext e)

@[simp] theorem State.tray_setPkg (s : State) (p : PkgId) (k : Pkg) (t : TrayId) : (s.setPkg p k).tray t = s.tray t := rfl
@[simp] theorem State.alm_setPkg (s : State) (p : PkgId) (k : Pkg) (a : AlmId) : (s.setPkg p k).alm a = s.alm a := rfl
@[simp] theorem State.rack_setPkg (s : State) (p : PkgId) (k : Pkg) (r : Fin 32) : (s.setPkg p k).rack r = s.rack r := rfl
@[simp] theorem State.pkg_setTray (s : State) (t : TrayId) (c : CwSt) (p : PkgId) : (s.setTray t c).pkg p = s.pkg p := rfl
@[simp] theorem State.alm_setTray (s : State) (t : TrayId) (c : CwSt) (a : AlmId) : (s.setTray t c).alm a = s.alm a := rfl
@[simp] theorem State.rack_setTray (s : State) (t : TrayId) (c : CwSt) (r : Fin 32) : (s.setTray t c).rack r = s.rack r := rfl
@[simp] theorem State.pkg_setAlm (s : State) (a : AlmId) (x : AlmSt) (p : PkgId) : (s.setAlm a x).pkg p = s.pkg p := rfl
@[simp] theorem State.tray_setAlm (s : State) (a : AlmId) (x : AlmSt) (t : TrayId) : (s.setAlm a x).tray t = s.tray t := rfl
@[simp] theorem State.rack_setAlm (s : State) (a : AlmId) (x : AlmSt) (r : Fin 32) : (s.setAlm a x).rack r = s.rack r := rfl
@[simp] theorem State.pkg_setRack (s : State) (r : Fin 32) (x : RackSt) (p : PkgId) : (s.setRack r x).pkg p = s.pkg p := rfl
@[simp] theorem State.tray_setRack (s : State) (r : Fin 32) (x : RackSt) (t : TrayId) : (s.setRack r x).tray t = s.tray t := rfl
@[simp] theorem State.alm_setRack (s : State) (r : Fin 32) (x : RackSt) (a : AlmId) : (s.setRack r x).alm a = s.alm a := rfl

@[simp] theorem CwSt.at_setPos_same (c : CwSt) (n : Nat) (x : PosSt) : (c.setPos n x).at n = x := by simp [CwSt.at, CwSt.setPos]
theorem CwSt.at_setPos_ne (c : CwSt) {n i : Nat} (x : PosSt) (h : i ≠ n) : (c.setPos n x).at i = c.at i := by
  simp only [CwSt.at, CwSt.setPos]; exact sget_sset_ne _ _ _ _ h
@[simp] theorem State.posn_setPosn_same (s : State) (t : TrayId) (pos : Fin 4) (x : PosSt) : (s.setPosn t pos x).posn t pos = x := by
  simp [State.posn, State.setPosn]

/-! ### The canonical form of the state -/

theorem State.canonical_setPkg {s : State} (h : s.canonical) (p : PkgId) (k : Pkg) : (s.setPkg p k).canonical :=
  ⟨h.1, swf_sset _ _ _ _ h.2.1, h.2.2⟩
theorem State.canonical_setTray {s : State} (h : s.canonical) (t : TrayId) (c : CwSt) : (s.setTray t c).canonical :=
  ⟨h.1, h.2.1, h.2.2.1, swf_sset _ _ _ _ h.2.2.2.1, h.2.2.2.2⟩
theorem State.canonical_setAlm {s : State} (h : s.canonical) (a : AlmId) (x : AlmSt) : (s.setAlm a x).canonical :=
  ⟨h.1, h.2.1, h.2.2.1, h.2.2.2.1, swf_sset _ _ _ _ h.2.2.2.2.1, h.2.2.2.2.2⟩
theorem State.canonical_setRack {s : State} (h : s.canonical) (r : Fin 32) (x : RackSt) : (s.setRack r x).canonical :=
  ⟨h.1, h.2.1, h.2.2.1, h.2.2.2.1, h.2.2.2.2.1, swf_sset _ _ _ _ h.2.2.2.2.2⟩
theorem State.canonical_setRouter {s : State} (h : s.canonical) (r : RouterId) (x : RouterSt) : (s.setRouter r x).canonical := by
  cases r with
  | pkg p => exact State.canonical_setPkg h p _
  | meridian k p => exact ⟨h.1, h.2.1, swf_sset _ _ _ _ h.2.2.1, h.2.2.2⟩
theorem State.canonical_mem {s : State} (h : s.canonical) {m : Mem} (hm : Memory.wf m = true) : { s with mem := m }.canonical :=
  ⟨hm, h.2⟩

/-! ### Steps -/

theorem step_idle (s : State) (h : s.pending = []) : step s = .next s.clock := by unfold step; rw [h]
@[simp] theorem State.tick_now (s : State) : s.tick.now = s.now + 40 := rfl
@[simp] theorem State.tick_mem (s : State) : s.tick.mem = s.mem := rfl
@[simp] theorem State.tick_pending (s : State) : s.tick.pending = s.pending := rfl
theorem step_front (s : State) (c : Instr) (rest : List Instr) (h : s.pending = c :: rest) : step s = exec c { s with pending := rest } := by
  unfold step; rw [h]

end Sys2Proof.Machine
end

