-- ==== Sys2Proof/Laws/Bus.lean ====
section
/-! SUPPORT. What an access to a register does: where the register map places the registers that commands write, and a write through an
open window. -/

namespace Sys2Proof.Machine
open Sys2Proof

/-! ### The register map -/

/-- A line of the core table does not cover an offset whose place in the core's window it does not hold. -/
theorem core_miss (d : RegDesc) (o : Nat) (hd : d.s1 = 0x1000) (hz : ∀ q, (if d.s2 = 0 then q else q % d.s2) = 0 → d.base ≤ o →
    q = (o - d.base) % 0x1000 → (if d.s2 = 0 then 0 else q / d.s2) < d.n2 → False) : ¬ d.covers o = true := by
  intro h
  simp only [RegDesc.covers, Bool.and_eq_true, decide_eq_true_eq, beq_iff_eq, hd] at h
  exact hz _ h.2.2 h.1 rfl h.2.1.2

theorem findReg_core (o : Nat) (d : RegDesc) (ho : 0x400000 ≤ o) (hs : o < 0x4C0000) (h : RegTable.core.find? (·.covers o) = some d) :
    findReg o = some d := by
  unfold findReg regBlock
  repeat rw [if_neg (by omega)]
  rw [if_pos hs, h]

theorem findReg_CORE_SEG_CTRL (c : Core) (n : Fin 64) : findReg (R.CORE_SEG_CTRL c.val n.val) =
    some ⟨"CORE_SEG_CTRL", 0x400408, 192, 0x1000, 64, 0x10, 0x0, 0x770, 0x0, 0x0, 0x6, 0, 1⟩ := by
  have e : R.CORE_SEG_CTRL c.val n.val = 0x400408 + (4096 * c.val + 16 * n.val) := by unfold R.CORE_SEG_CTRL; omega
  have := c.isLt
  apply findReg_core _ _ (by omega) (by omega)
  rw [e]
  unfold RegTable.core
  iterate 7 rw [List.find?_cons_of_neg (by refine core_miss _ _ rfl fun q h0 hb hq hj => ?_; simp at h0 hb hq hj; omega)]
  rw [List.find?_cons_of_pos (by simp [RegDesc.covers] <;> omega)]
theorem findReg_CORE_PSTATE (c : Core) : findReg (R.CORE_PSTATE c.val) =
    some ⟨"CORE_PSTATE", 0x400100, 192, 0x1000, 1, 0x0, 0x0, 0x10, 0x0, 0x0, 0x300, 0, 1⟩ := by
  have e : R.CORE_PSTATE c.val = 0x400100 + 4096 * c.val := by unfold R.CORE_PSTATE; omega
  have := c.isLt
  apply findReg_core _ _ (by omega) (by omega)
  rw [e]
  unfold RegTable.core
  iterate 4 rw [List.find?_cons_of_neg (by refine core_miss _ _ rfl fun q h0 hb hq hj => ?_; simp at h0 hb hq hj; omega)]
  rw [List.find?_cons_of_pos (by simp [RegDesc.covers] <;> omega)]
theorem findReg_CORE_DBG_CTRL (c : Core) : findReg (R.CORE_DBG_CTRL c.val) =
    some ⟨"CORE_DBG_CTRL", 0x400800, 192, 0x1000, 1, 0x0, 0x0, 0x0, 0x0, 0x0, 0xf, 0, 1⟩ := by
  have e : R.CORE_DBG_CTRL c.val = 0x400800 + 4096 * c.val := by unfold R.CORE_DBG_CTRL; omega
  have := c.isLt
  apply findReg_core _ _ (by omega) (by omega)
  rw [e]
  unfold RegTable.core
  iterate 9 rw [List.find?_cons_of_neg (by refine core_miss _ _ rfl fun q h0 hb hq hj => ?_; simp at h0 hb hq hj; omega)]
  rw [List.find?_cons_of_pos (by simp [RegDesc.covers] <;> omega)]
theorem findReg_CSU_CTRL : ∀ u : Fin 10, findReg (R.CSU_CTRL u.val) =
    some ⟨"CSU_CTRL", 0x60000, 10, 0x100, 1, 0x0, 0x0, 0xfff3c0, 0x0, 0x0, 0x7, 0, 1⟩ := by decide +kernel
theorem findReg_BRG_CTRL : ∀ t : Tile, findReg (R.BRG_CTRL t.val) =
    some ⟨"BRG_CTRL", 0x800000, 4, 0x10000, 1, 0x0, 0x0, 0x0, 0x0, 0x0, 0x1, 0, 1⟩ := by decide +kernel
theorem findReg_BRG_HOSTQ_GO : ∀ t : Tile, findReg (R.BRG_HOSTQ_GO t.val) =
    some ⟨"BRG_HOSTQ_GO", 0x800240, 4, 0x10000, 1, 0x0, 0x0, 0x0, 0x0, 0x0, 0x1, 0, 1⟩ := by decide +kernel
theorem findReg_DBG_TRACE_CTRL : ∀ f : Fin 2, findReg (R.DBG_TRACE_CTRL f.val) =
    some ⟨"DBG_TRACE_CTRL", 0x70200, 2, 0x80, 1, 0x0, 0x0, 0x3, 0x0, 0x0, 0x4, 0, 1⟩ := by decide +kernel
theorem findReg_FAB_PORT_CTRL : ∀ q : Port, findReg (R.FAB_PORT_CTRL (q.val / 12) (q.val % 12)) =
    some ⟨"FAB_PORT_CTRL", 0x100104, 2, 0x80000, 12, 0x10, 0x0, 0x0, 0x0, 0x0, 0x7, 0, 1⟩ := by decide +kernel
theorem findReg_AON_CLK_CTRL : findReg R.AON_CLK_CTRL =
    some ⟨"AON_CLK_CTRL", 0x10, 1, 0x0, 1, 0x0, 0x0, 0x1, 0x0, 0x0, 0x2, 0, 1⟩ := by decide +kernel
theorem findReg_AON_PREWAKE_CTRL : findReg R.AON_PREWAKE_CTRL =
    some ⟨"AON_PREWAKE_CTRL", 0x58, 1, 0x0, 1, 0x0, 0xa00ff, 0xff00ff, 0x1000000, 0x0, 0x2000100, 0, 1⟩ := by decide +kernel
theorem findReg_CHT_LOAD_CTRL : findReg R.CHT_LOAD_CTRL =
    some ⟨"CHT_LOAD_CTRL", 0x20010, 1, 0x0, 1, 0x0, 0x0, 0x0, 0x0, 0x0, 0x7, 0, 1⟩ := by decide +kernel
theorem findReg_CHT_LOAD_DATA : findReg R.CHT_LOAD_DATA =
    some ⟨"CHT_LOAD_DATA", 0x20014, 1, 0x0, 1, 0x0, 0x0, 0x0, 0x0, 0x0, 0xffffffff, 0, 1⟩ := by decide +kernel
theorem findReg_CHT_TURN_CTRL : findReg R.CHT_TURN_CTRL =
    some ⟨"CHT_TURN_CTRL", 0x20040, 1, 0x0, 1, 0x0, 0x0, 0x0, 0x0, 0x0, 0x3, 0, 1⟩ := by decide +kernel
theorem findReg_PWR_LADDER_CAP : findReg R.PWR_LADDER_CAP =
    some ⟨"PWR_LADDER_CAP", 0x40000, 1, 0x0, 1, 0x0, 0x96, 0x7ff, 0x0, 0x0, 0x0, 0, 1⟩ := by decide +kernel
theorem findReg_PWR_HOST_CAP : findReg R.PWR_HOST_CAP =
    some ⟨"PWR_HOST_CAP", 0x40004, 1, 0x0, 1, 0x0, 0x47e, 0x7ff, 0x0, 0x0, 0x0, 0, 1⟩ := by decide +kernel
theorem findReg_THR_COOLANT : findReg R.THR_COOLANT =
    some ⟨"THR_COOLANT", 0x50008, 1, 0x0, 1, 0x0, 0x8320, 0xfff, 0x0, 0x0, 0x0, 0, 1⟩ := by decide +kernel
theorem findReg_THR_HEAD_W3 : findReg R.THR_HEAD_W3 =
    some ⟨"THR_HEAD_W3", 0x5002c, 1, 0x0, 1, 0x0, 0x0, 0x0, 0x0, 0x0, 0xffffffff, 0, 1⟩ := by decide +kernel
theorem findReg_FLT_HANDLE : findReg R.FLT_HANDLE =
    some ⟨"FLT_HANDLE", 0x30010, 1, 0x0, 1, 0x0, 0x0, 0x0, 0x0, 0x0, 0x30f, 0, 1⟩ := by decide +kernel
theorem findReg_FLT_RELEASE : findReg R.FLT_RELEASE =
    some ⟨"FLT_RELEASE", 0x30320, 1, 0x0, 1, 0x0, 0x0, 0x0, 0x0, 0x0, 0x1ff, 0, 1⟩ := by decide +kernel
theorem findReg_FLT_LW_CLEAR : findReg R.FLT_LW_CLEAR =
    some ⟨"FLT_LW_CLEAR", 0x30224, 1, 0x0, 1, 0x0, 0x0, 0x0, 0x0, 0x0, 0x1, 0, 1⟩ := by decide +kernel
theorem findReg_UPD_PUSH_CTRL : findReg R.UPD_PUSH_CTRL =
    some ⟨"UPD_PUSH_CTRL", 0x80020, 1, 0x0, 1, 0x0, 0x0, 0x0, 0x0, 0x0, 0x1, 0, 1⟩ := by decide +kernel
theorem findReg_UPD_PUSH_DATA : findReg R.UPD_PUSH_DATA =
    some ⟨"UPD_PUSH_DATA", 0x80028, 1, 0x0, 1, 0x0, 0x0, 0x0, 0x0, 0x0, 0xffffffff, 0, 1⟩ := by decide +kernel

/-! ### A write through an open window -/

theorem Pkg.goodWords_write {k : Pkg} {who : Requester} {off : Nat} {w : Word} (h : k.busRefuses off 4 = false) (hl : off < 2 ^ 24) :
    k.goodWords (writeOp who off w) = [off] := by
  have : off % 2 ^ 24 = off := Nat.mod_eq_of_lt hl
  simp only [Pkg.goodWords, writeOp, List.map_cons, List.map_nil, List.takeWhile_cons, h, Bool.not_false, if_true, List.takeWhile_nil, this]

/-- What a write to an open register does. -/
theorem busAccess_write {i : Instr} {p : PkgId} {who : Requester} {off : Nat} {w : Word} {d : RegDesc} {s : State}
    (hi : busOpOf i = some (p, writeOp who off w)) (ho : Open s p who off) (hd : findReg off = some d) (hl : off < 2 ^ 24) (ha : off % 4 = 0)
    (hk : (busWrite ⟨s.now, p, who, false, s.upIn p.rack, Config.freeWord s.free⟩ d off w s.mem (s.pkg p)).2.pkgDark = (s.pkg p).pkgDark) :
    busAccess i s =
      let r := busWrite ⟨s.now, p, who, false, s.upIn p.rack, Config.freeWord s.free⟩ d off w s.mem (s.pkg p)
      .next (s.wrote p who off r.1 r.2) := by
  obtain ⟨h1, h2, h3, h4⟩ := ho
  have hm : off % 2 ^ 24 = off := Nat.mod_eq_of_lt hl
  have hr : (s.pkg p).busRefuses off 4 = false := by
    have : ¬ (2 ^ 25 ≤ off) := by omega
    unfold Pkg.busRefuses
    rw [hm, hd, h4]
    simp [ha]; omega
  have hdef : (s.pkg p).mustDefer (writeOp who off w) = false := by
    simp only [Pkg.mustDefer, Pkg.opDomains, Pkg.goodWords_write hr hl, h3, List.flatMap_cons, List.flatMap_nil, List.append_nil, List.any_nil,
      Bool.or_false]
    rw [List.any_eq_false]
    intro d hd
    have := (List.all_eq_true.1 h2) d hd
    simp [this]
  unfold busAccess
  rw [hi]
  simp only [writeOp] at hdef ⊢
  simp only [h1, hdef, Bool.not_true, Bool.false_eq_true, if_false, State.busPerform, busWords, busOne, hr, hm, hd, BusOp.reply]
  simp only [Host.Outcome.next.injEq]
  rw [if_neg]
  · rfl
  · have e : ∀ (k : Pkg) (x : Msg), (k.emit x).pkgDark = k.pkgDark := fun _ _ => rfl
    simp only [List.any_cons, Option.isNone_some, List.any_nil, Bool.or_false, Bool.false_eq_true, if_false, e]
    simp [hk]

end Sys2Proof.Machine
end

