-- ==== Sys2Proof/WellFormed.lean ====
section
/-! DEFINITION. What a command must meet beyond its operands' types: what the wire or the register that carries an operand can
hold. A command that does not meet it cannot reach the machine. -/

namespace Sys2Proof

/-- LEN runs from 0 to 4,096 (R146); management payloads are at most 256 B (Table 7.6). -/
def Packet.wf (k : Packet) : Bool := k.payload.length ≤ 4096 && (k.cls ≠ 4 || k.payload.length ≤ 256)
/-- Six cumulative credit bytes and at most 64 packet flits (Table 7.2). -/
def Block.wf (b : Block) : Bool := b.credits.length == 6 && b.dataFlits ≤ 64 && b.packets.all (·.wf)
/-- A package has ports 0–23 (R23). -/
def LinkId.wf (l : LinkId) : Bool :=
  match l.router with
  | .pkg _ => l.port.val < 24
  | .meridian _ _ => true
/-- Four C-tile draws (R234). -/
def fourTiles (l : List Nat) : Bool := l.length == 4

def wellFormed : Instr → Bool
  | .registerWrite _ _ _ size _ => size == 1 || size == 2 || size == 4
  | .readClear _ _ _ size => size == 1 || size == 2 || size == 4
  | .lowWordRead _ _ _ size => size == 1 || size == 2 || size == 4
  | .lentStorageAccess _ k => k.wf
  | .coreAccess _ _ a => if a.write then a.data.length == a.len else a.data.isEmpty
  | .responseArrival _ k => k.wf
  | .blockReceive l b _ => l.wf && b.wf
  | .nak l _ => l.wf
  | .replayTimeout l => l.wf
  | .laneLockLoss l => l.wf
  | .fastRetrainEnd l _ => l.wf
  | .fastRetrainTimeout l => l.wf
  | .fullTrainingEnd l _ _ => l.wf
  | .trainingRetry l => l.wf
  | .goingDarkNotice l => l.wf
  | .backInServiceNotice l => l.wf
  | .moorNotice l => l.wf
  | .wakePatternSend l => l.wf
  | .linkResume l => l.wf
  | .packetDepart l => l.wf
  | .holdTimeExpiry l => l.wf
  | .packetArrive _ _ k => k.wf
  | .requestIssue _ _ rq => rq.payload.length ≤ 4096
  | .flowPacketReceive _ k => k.wf
  | .ack _ k => k.wf
  | .mgmtPacket _ k => k.wf
  | .castWrite _ _ kind _ _ _ d => d.length ≤ 4096 && kind ≠ 0
  | .castSignal _ _ kind _ _ _ => kind ≠ 0
  | .castArrive _ _ k => k.wf
  | .tallySum _ _ k => k.payload.length ≤ 4096
  | .tallyMax _ _ k => k.payload.length ≤ 4096
  | .tallyMin _ _ k => k.payload.length ≤ 4096
  | .tallyTopk _ _ k => k.payload.length ≤ 4096
  | .tallyArrive _ _ k => k.wf
  | .chunk _ _ _ _ d => 1 ≤ d.length && d.length ≤ 2 ^ 24
  | .weightWrite _ es => es.length ≤ 64
  | .governorTick _ t _ => fourTiles t
  | .pointJudgement _ t => fourTiles t
  | .poweredHour _ m => m.length == 8
  | .druStep _ m p d => m.length == 64 && p.length == 64 && d.length == 192
  | .writeReg _ _ _ _ w => w.length ≤ 15
  | .draSet _ b => b.length ≤ 22
  | .shiftIr _ _ b => 1 ≤ b.length && b.length ≤ 4096
  | .shiftDr _ _ b => 1 ≤ b.length && b.length ≤ 4096
  | .requestFirmwareData _ d => d.length ≤ 4032
  | _ => true

end Sys2Proof
end

