-- ==== Sys2Proof/Tests/Slice0.lean ====
section
/-! SUPPORT. The model's own tests: what WellFormed refuses, what the spec's tables and worked examples give, and for every statement a
state and operands that meet its hypotheses. -/

namespace Sys2Proof.Tests
open Sys2Proof Sys2Proof.Machine
set_option Elab.async false

/-! ### Small states -/

def p0 : PkgId := ⟨0, 0, 0⟩
def p1 : PkgId := ⟨0, 0, 1⟩
def t0 : TrayId := ⟨0, 0⟩
def almA : AlmId := ⟨0, false⟩
def almB : AlmId := ⟨0, true⟩
/-- A package in service, every domain on. -/
def up : Pkg := (List.range 13).foldl (fun k i => k.setRg (R.AON_DOMAIN_ON i) (if i = 12 then 0x0FFFFFFF else 0xFFFFFFFF))
  { pkc := { run := .running, bootDone := true } }
/-- The machine after reset but for one package. -/
def one (k : Pkg) : State := State.reset.setPkg p0 k
def oneAt (now : Nat) (k : Pkg) : State := { one k with now := now }
/-- One package and its tray controller. -/
def withTray (k : Pkg) (c : CwSt) : State := (one k).setTray t0 c
/-- Almanac A of rack 0 in HELM, with the lease just acknowledged, and its rack. -/
def helmed (l : AlmLog) (x : RackSt) : State := (State.reset.setAlm almA { role := .helm, log := l }).setRack 0 x
/-- A packet with nothing in it. -/
def pk0 : Packet :=
  { opcode := 1, epoch := false, pkg := false, poison := false, newflow := false, fallback := false, misrouted := false, castKind := 0, vc := 0,
    cls := 0, status := 0, dst := 0, tree := 0, src := 0, incarnation := 0, seq := 0, birth := 0, sgen := 0, fgen := 0, tag := 0, addr := 0,
    reserved := false, want := 0, payload := [] }
def block0 : Block :=
  { bseq := 0, ackseq := 0, nak := false, goingDark := false, moor := false, backInService := false, castTree := 0,
    credits := List.replicate 6 0, dataFlits := 0, crc := 0, packets := [] }
def link0 : LinkId := p0.link 0
def msg0 : TurnMsg := { epoch := 7, order := 0, sender := 1, t0 := 0, cause := 0, tr := none }
/-- What a command's next state satisfies. -/
def leaves (c : Instr) (s : State) (P : State → Bool) : Bool :=
  match exec c s with
  | .next t => P t
  | _ => false
/-! ### WellFormed: a term that each check refuses -/

theorem test_wf_size : wellFormed (.registerWrite p0 .host 0 3 0) = false ∧ wellFormed (.readClear p0 .host 0 8) = false ∧
    wellFormed (.lowWordRead p0 .host 0 0) = false ∧ wellFormed (.registerWrite p0 .host 0 4 0) = true := by decide
theorem test_wf_payload : wellFormed (.flowPacketReceive p0 { pk0 with payload := List.replicate 4097 0 }) = false ∧
    wellFormed (.lentStorageAccess p0 { pk0 with payload := List.replicate 4097 0 }) = false ∧
    wellFormed (.responseArrival p0 { pk0 with payload := List.replicate 4097 0 }) = false ∧
    wellFormed (.ack p0 { pk0 with payload := List.replicate 4097 0 }) = false ∧
    wellFormed (.packetArrive (.pkg p0) 0 { pk0 with payload := List.replicate 4097 0 }) = false ∧
    wellFormed (.castArrive p0 0 { pk0 with payload := List.replicate 4097 0 }) = false ∧
    wellFormed (.tallyArrive p0 0 { pk0 with payload := List.replicate 4097 0 }) = false := by decide +kernel
theorem test_wf_management_payload : wellFormed (.mgmtPacket p0 { pk0 with cls := 4, payload := List.replicate 257 0 }) = false ∧
    wellFormed (.mgmtPacket p0 { pk0 with cls := 4, payload := List.replicate 256 0 }) = true := by decide +kernel
theorem test_wf_access : wellFormed (.coreAccess p0 0 ⟨0, true, 2, [1]⟩) = false ∧ wellFormed (.coreAccess p0 0 ⟨0, false, 2, [1, 2]⟩) = false := by
  decide
theorem test_wf_link : (∀ i ∈ [Instr.nak ⟨.pkg p0, 24⟩ 0, .replayTimeout ⟨.pkg p0, 24⟩, .laneLockLoss ⟨.pkg p0, 24⟩,
    .fastRetrainEnd ⟨.pkg p0, 24⟩ 0, .fastRetrainTimeout ⟨.pkg p0, 24⟩, .fullTrainingEnd ⟨.pkg p0, 24⟩ true 0, .trainingRetry ⟨.pkg p0, 24⟩,
    .goingDarkNotice ⟨.pkg p0, 24⟩, .backInServiceNotice ⟨.pkg p0, 24⟩, .moorNotice ⟨.pkg p0, 24⟩, .wakePatternSend ⟨.pkg p0, 24⟩,
    .linkResume ⟨.pkg p0, 24⟩, .packetDepart ⟨.pkg p0, 24⟩, .holdTimeExpiry ⟨.pkg p0, 24⟩], wellFormed i = false) ∧
    wellFormed (.nak ⟨.meridian 0 0, 287⟩ 0) = true := by decide
theorem test_wf_block : wellFormed (.blockReceive link0 { block0 with dataFlits := 65 } true) = false ∧
    wellFormed (.blockReceive link0 { block0 with credits := [] } true) = false ∧
    wellFormed (.blockReceive ⟨.pkg p0, 24⟩ block0 true) = false ∧ wellFormed (.blockReceive link0 block0 true) = true := by decide
theorem test_wf_request : wellFormed (.requestIssue p0 0 ⟨1, 0, 0, 0, 0, List.replicate 4097 0⟩) = false := by decide +kernel
theorem test_wf_cast : wellFormed (.castWrite p0 0 0 0 0 0 []) = false ∧ wellFormed (.castSignal p0 0 0 0 0 0) = false ∧
    wellFormed (.castWrite p0 0 1 0 0 0 (List.replicate 4097 0)) = false ∧ wellFormed (.castSignal p0 0 3 0 0 0) = true := by decide +kernel
theorem test_wf_tally : (∀ i ∈ [Instr.tallySum p0 0 ⟨0, 0, 0, 0, List.replicate 4097 0⟩, .tallyMax p0 0 ⟨0, 0, 0, 0, List.replicate 4097 0⟩,
    .tallyMin p0 0 ⟨0, 0, 0, 0, List.replicate 4097 0⟩, .tallyTopk p0 0 ⟨0, 0, 0, 0, List.replicate 4097 0⟩], wellFormed i = false) := by
  decide +kernel
theorem test_wf_chunk : wellFormed (.chunk p0 0 0 0 []) = false ∧ wellFormed (.chunk p0 0 0 0 [0]) = true := by decide
theorem test_wf_weights : wellFormed (.weightWrite p0 (List.replicate 65 0)) = false ∧ wellFormed (.weightWrite p0 (List.replicate 64 0)) = true := by
  decide +kernel
theorem test_wf_lists : wellFormed (.governorTick p0 [1, 2, 3] 0) = false ∧ wellFormed (.pointJudgement p0 []) = false ∧
    wellFormed (.poweredHour p0 [1]) = false ∧ wellFormed (.druStep p0 [] [] []) = false ∧ wellFormed (.writeReg p0 0 0 1 (List.replicate 16 0)) = false ∧
    wellFormed (.draSet p0 (List.replicate 23 0)) = false ∧ wellFormed (.shiftIr t0 0 []) = false ∧ wellFormed (.shiftDr t0 0 []) = false ∧
    wellFormed (.requestFirmwareData p0 (List.replicate 4033 0)) = false := by decide +kernel

/-! ### States and operands that meet the hypotheses of the statements: the management space, storage and clasps -/

theorem witness_StepRunsFront : { State.reset with pending := [Instr.pkgReset p0] }.pending = Instr.pkgReset p0 :: [] := rfl
theorem witness_QueueAndClock : State.reset.pending = [] ∧ ∃ t, exec (.mapReport p0) (one up) = .next t := ⟨rfl, _, rfl⟩
theorem witness_StepKeepsCanonical : (one up).canonical ∧ ∃ t, step { one up with pending := [.mapReport p0] } = .next t :=
  ⟨by unfold State.canonical; decide +kernel, _, rfl⟩
theorem witness_RegisterWrites_taken : Open (one up) p0 .host (BitVec.ofNat 25 (R.FAB_LINK_CFG 0)).toNat ∧
    (BitVec.ofNat 25 (R.FAB_LINK_CFG 0)).toNat < 2 ^ 24 ∧ (BitVec.ofNat 25 (R.FAB_LINK_CFG 0)).toNat % 4 = 0 ∧
    (findReg (BitVec.ofNat 25 (R.FAB_LINK_CFG 0)).toNat).any (fun d => !actingRegs.contains d.base && decide (d.rw &&& d.w1c = 0) &&
      !up.ignores ⟨0, p0, .host, false, (one up).upIn 0, Config.freeWord 0⟩ d (R.FAB_LINK_CFG 0) (0x1 * 2 ^ 28 + 20 * 2 ^ 16 + 19 * 2 ^ 8 + 16) &&
      !up.rejects d.base (0x1 * 2 ^ 28 + 20 * 2 ^ 16 + 19 * 2 ^ 8 + 16)) = true := by
  unfold Open; decide +kernel
theorem witness_RegisterWrites_rejected : Open (one up) p0 .host (BitVec.ofNat 25 (R.FAB_LINK_CFG 0)).toNat ∧
    (findReg (BitVec.ofNat 25 (R.FAB_LINK_CFG 0)).toNat).any (fun d => !up.ignores ⟨0, p0, .host, false, (one up).upIn 0, Config.freeWord 0⟩ d
      (R.FAB_LINK_CFG 0) 0 && up.rejects d.base 0 && decide (rejectFlag d.base = some (F.FAB_LINK_CFG_REJECT 0))) = true := by
  unfold Open; decide +kernel
theorem witness_RegisterWrites_relation : up.rejects (R.FAB_LINK_CFG 0) (0x1 * 2 ^ 28 + 20 * 2 ^ 16 + 19 * 2 ^ 8 + 16) = false ∧
    up.rejects (R.FAB_LINK_CFG 0) (0x1 * 2 ^ 28 + 9 * 2 ^ 16 + 1 * 2 ^ 8 + 16) = true := by decide +kernel
/-- A package whose power domain 388 is off, and one with an access that waits. -/
def dim : Pkg := up.setDomains false [388]
def waits : Pkg := { up with aon := { up.aon with deferred := [.brgAbort p0 .host 0] } }
theorem witness_RefusedAndDeferredAccess : (one up).reaches p0 .host = true ∧ (one up).reaches p0 .cw = true ∧ findReg 0x0001FFFC = none ∧
    (one dim).reaches p0 .host = true ∧ dim.get F.UPD_STATUS_PAUSED = 0 ∧ dim.domainOn 388 = false ∧
    holdOff dim.localImg dim.idx 192 = false ∧ waits.aon.deferred = [.brgAbort p0 .host 0] ∧ up.aon.deferred = [] ∧
    (one waits).reaches p0 .host = true ∧ waits.get F.UPD_STATUS_PAUSED = 0 := by decide +kernel
theorem witness_ReadSideEffects : Open (one up) p0 .host R.FLT_COUNTS ∧ (findReg R.FLT_COUNTS).any (fun d => decide (d.words ≤ 1 ∧ d.rc ≠ 0)) = true ∧
    R.FLT_COUNTS ≠ R.FAB_PORT_ERRS 0 0 ∧ R.FLT_COUNTS ≠ R.FAB_PORT_LEVEL 0 0 ∧ Open (one up) p0 .host R.AON_TIME_LO ∧
    Open (one up) p0 .host R.AON_TIME_HI := by unfold Open; decide +kernel
/-- A package with entry 0 of core 0 set to `pages` pages at page `base`. -/
def seg (base pages : Nat) : Pkg := (up.setRg (R.CORE_SEG_BASE 0 0) (BitVec.ofNat 32 base)).put (F.CORE_SEG_LEN_PAGES 0 0) pages
/-- A package whose entries 0 and 1 of core 0 both name page 0, entry 1 placed. -/
def twice : Pkg := (((seg 0 1).setRg (R.CORE_SEG_BASE 0 1) 0).put (F.CORE_SEG_LEN_PAGES 0 1) 1).put (F.CORE_SEG_CTRL_VALID 0 1) 1
theorem witness_PlaceWrites : Open (one (seg 0 1)) p0 .host (R.CORE_SEG_CTRL 0 0) ∧ (seg 0 1).segValid 0 0 = false ∧ (seg 0 1).segStatus 0 0 ≠ 1 ∧
    (seg 0 1).overlaps 0 0 = false ∧ (seg 0 1).get (F.CORE_SEG_LEN_PAGES 0 0) = 1 ∧ bits 0x112 4 3 = bits 0x112 8 3 ∧ bit 0x112 2 = false ∧
    2 ^ 32 < ((seg 0xFFFFFFFF 2).rg (R.CORE_SEG_BASE 0 0)).toNat + (seg 0xFFFFFFFF 2).get (F.CORE_SEG_LEN_PAGES 0 0) ∧
    ((seg 0xFFFFFFFF 1).rg (R.CORE_SEG_BASE 0 0)).toNat + (seg 0xFFFFFFFF 1).get (F.CORE_SEG_LEN_PAGES 0 0) ≤ 2 ^ 32 ∧
    bits 0x212 8 3 < bits 0x212 4 3 + 2 ∧ bits 0x120 8 3 < bits 0x120 4 3 ∧ bits 0x620 8 3 = 6 ∧ bit 4 2 = true ∧ bit 2 1 = true ∧
    twice.overlaps 0 0 = true ∧ twice.segValid 0 1 = true ∧
    ((seg 0 1).put (F.CORE_SEG_CTRL_STATUS 0 0) 1).segStatus 0 0 = 1 ∧ Open (one twice) p0 .cw (R.CORE_SEG_CTRL 0 1) := by unfold Open; decide +kernel
/-- A package with one placement under way. -/
def placed (x : Placing) : Pkg := { up with mem := { up.mem with placing := [x] } }
def placedAt : Placing := ⟨0, 0, 0, none, 2, some ⟨0, 0, 1, 0⟩⟩
def refusedAt : Placing := ⟨191, 63, 0, none, 3, none⟩
def askedAt : Placing := ⟨0, 0, 0, some 1, 3, none⟩
theorem witness_PlacementEndsAndRelease :
    (placed placedAt).mem.placing.find? (fun y => y.core = 0 && y.entry = 0) = some placedAt ∧ placedAt.waitTag = none ∧
    (placed placedAt).Quiet ∧ (placed refusedAt).Quiet ∧ placedAt.outcome < 16 ∧ placedAt.store = some ⟨0, 0, 1, 0⟩ ∧ refusedAt.store = none ∧
    (placed refusedAt).mem.placing.find? (fun y => y.core = 191 && y.entry = 63) = some refusedAt ∧ refusedAt.waitTag = none ∧
    (placed askedAt).mem.placing.find? (fun y => y.core = 0 && y.entry = 0) = some askedAt ∧ askedAt.waitTag ≠ none ∧
    49999 < askedAt.at_ + 50000 ∧
    Open (one up) p0 .cw (R.CORE_SEG_CTRL 0 63) ∧ up.segStatus 0 63 ≠ 1 ∧ bit 0 1 = false ∧
    (sfind up.mem.segs (segKey 0 63)).or (sfind up.mem.lostLent (segKey 0 63)) = none := by unfold Open Pkg.Quiet; decide +kernel
/-- A package whose entry 0 of core 0 held storage of package 1, now lost. -/
def borrowed : Pkg := { up with mem := { up.mem with lostLent := [(segKey 0 0, ⟨3, 4096, 1, 1⟩)] } }
theorem witness_PlacementEndsAndRelease_lent : Open (one borrowed) p0 .host (R.CORE_SEG_CTRL 0 0) ∧ borrowed.segStatus 0 0 ≠ 1 ∧
    (sfind borrowed.mem.segs (segKey 0 0)).or (sfind borrowed.mem.lostLent (segKey 0 0)) = some ⟨3, 4096, 1, 1⟩ := by unfold Open; decide +kernel
/-- A package with a dark unit. -/
def dark (u : DarkUnit) (k : Pkg) : Pkg := { k with dark := { k.dark with dark := [(u, .reset)] } }
/-- The package that answers a LEND_ASK of package 1, its pool of so many GiB; and one that has lent page 1. -/
def lends (gib : Nat) : Pkg := ((up.put F.PKC_LEND_POOL_POOL_GIB gib).fromSink 0x2A 1).newerSgen 1 0
def lent : Pkg := { up with mem := { up.mem with grants := [⟨4096, 1, 1, 0⟩] } }
def inside (addr n : Nat) : Bool :=
  lent.mem.grants.any (fun g => g.borrower.toNat = epPkg 0x100 && g.base ≤ addr && addr + opLength opWrite 0 (List.replicate n 0) ≤ g.base + 4096 * g.pages)
theorem witness_LendingAndStorage :
    gibPages * (lends 0).get F.PKC_LEND_POOL_POOL_GIB < (lends 0).lentPages + 1 ∧
    (lends 1).lentPages + gibPages ≤ gibPages * (lends 1).get F.PKC_LEND_POOL_POOL_GIB ∧
    fits ((lends 1).used 0 2) (if (lends 1).shadowSave then min ((lends 1).tierPages 2) belowSave else (lends 1).tierPages 2) gibPages = [0] ∧
    (placed askedAt).mem.placing = [askedAt] ∧ askedAt.waitTag = some 1 ∧
    (lent.newerSgen (epPkg 0x100) 0).mem.grants = lent.mem.grants ∧ inside 4096 4096 = true ∧ inside 4095 1 = false ∧ inside 8191 2 = false ∧
    inside 8191 1 = true ∧ lent.spaceIsolated 0 4096 64 = false ∧ expectsResponse opRead = true ∧ expectsResponse opWrite = true ∧
    opWrite ≠ opClasp ∧ lent.tierDark 0 2 4096 4096 = false ∧ (dark (.ctile 0) lent).tierDark 0 2 4096 4096 = true ∧ lent.mem.poison = [] ∧
    (placed askedAt).get (F.CORE_SEG_CTRL_FLOOR 0 0) ≤ askedAt.outcome := by decide +kernel
/-- Where there is room, the allocator gives some of it. -/
theorem pickFit_gives (u : List (Nat × Nat)) (limit pages b : Nat) (h : fits u limit pages = [b]) : pickFit u limit pages = some b := by
  unfold pickFit; simp [h, Nat.mod_one]
/-- Entry 0 of core 0 is valid, with so many pages from page 0, in a tier. -/
def stored (tier : Nat) : Pkg :=
  let k := (((seg 0 400).put (F.CORE_SEG_CTRL_STATUS 0 0) 2).put (F.CORE_SEG_CTRL_VALID 0 0) 1).put (F.CORE_SEG_CTRL_PLACED_TIER 0 0) tier
  { k with mem := { k.mem with segs := [(segKey 0 0, ⟨tier, 0, 400, 0⟩)] } }
/-- An access longer than a core store is in no core-store window, wherever the window lies. -/
theorem no_window (a : Nat) : ¬ (Config.storeWindow.toNat ≤ a ∧ a + (storeBytes + 1) ≤ Config.storeWindow.toNat + storeBytes) := by
  omega
theorem witness_CoreAccess_place : (stored 2).locate 0 0 (storeBytes + 1) = .place 2 0 0 ∧ (stored 2).coreDark 0 = false ∧
    (stored 2).pstate 0 = 0 ∧ (stored 2).tierDark 0 2 0 (storeBytes + 1) = false ∧ (stored 2).spaceIsolated 0 0 (storeBytes + 1) = false ∧
    (stored 2).mem.poison = [] ∧ (stored 2).mem.clasps = [] ∧ (dark (.ctile 0) (stored 2)).tierDark 191 2 0 (storeBytes + 1) = true ∧
    (tierSpace 0 0 0).1 = 2 ∧ (tierSpace 0 1 0).1 ≠ 2 := by
  refine ⟨?_, by decide +kernel⟩
  unfold Pkg.locate; simp only [if_neg (no_window 0)]; decide +kernel
theorem witness_CoreAccess_lent : (stored 3).locate 0 0 (storeBytes + 1) = .place 3 0 0 ∧ (stored 4).locate 0 0 (storeBytes + 1) = .place 4 0 0 := by
  unfold Pkg.locate; simp only [if_neg (no_window 0)]; decide +kernel
theorem witness_CoreAccess_none : up.locate 0 0 (storeBytes + 1) = .none ∧
    ((seg 0 400).put (F.CORE_SEG_CTRL_STATUS 0 0) 1).locate 0 0 (storeBytes + 1) = .busy ∧
    { stored 2 with mem := up.mem }.locate 0 0 (storeBytes + 1) = .lost := by
  unfold Pkg.locate; rw [if_neg (no_window 0), if_neg (no_window 0), if_neg (no_window 0)]; decide +kernel
/-- A package with one clasp, or sixteen. -/
def clasped (x : Clasp) : Pkg := { up with mem := { up.mem with clasps := [x] } }
def held : Clasp := ⟨1, 0, 2, [⟨3, 10, 0, none⟩], 0, false⟩
def full : Pkg := { up with mem := { up.mem with clasps := (List.range 16).map fun n => (⟨1, n, 4 + n / 4, [], 0, false⟩ : Clasp) } }
theorem witness_Clasps_acquire : up.coreDark 0 = false ∧ up.coreDark 1 = false ∧ up.mem.clasps = [] ∧ p1 ≠ p0 ∧
    16 ≤ (full.mem.clasps.filter (fun x => x.store = 1)).length ∧ full.coreDark 1 = false ∧
    (full.mem.clasps.filter (fun x => x.holder = 0)).length < 4 ∧
    (clasped held).mem.clasps.find? (fun x => x.at 1 0) = some held ∧ (clasped held).coreHalted 2 = false ∧
    (clasped held).mem.clasps.any (fun x => x.waiters.any (fun w => w.core = 0)) = false ∧
    (clasped held).mem.clasps.any (fun x => x.waiters.any (fun w => w.core = 3)) = true ∧
    4 ≤ (full.mem.clasps.filter (fun x => x.holder = 4)).length ∧ (dark (.core 1) up).coreDark 1 = true ∧ (dark (.core 1) up).coreDark 0 = false ∧
    ((clasped held).flag (F.CORE_DBG_STATUS_HALTED 2) true).coreHalted 2 = true ∧ up.pstate 0 = 0 := by decide +kernel
theorem witness_Clasps_end : (clasped held).mem.broken.contains (2, 1, 0) = false ∧ (clasped held).mem.silent.contains (2, 1, 0) = false ∧
    (clasped held).mem.clasps.find? (fun x => x.at 1 0 && x.holder = 2) = some held ∧ sfind (clasped held).dbg.defers 2 = none ∧
    (clasped held).coreMhz 3 = 1900 ∧ (clasped held).coreMhz 2 = 1900 ∧ cyclesNs 1900 10 = 6 ∧ cyclesNs 1900 65536 = 34493 ∧
    (clasped held).mem.clasps.flatMap (fun x => x.waiters.filter fun w => decide (w.core = 3) && decide (w.since + cyclesNs 1900 w.wait ≤ 6)) =
      [⟨3, 10, 0, none⟩] ∧ held.since + 34493 ≤ 34493 ∧ 34492 < held.since + 34493 ∧ held.paused = false ∧
    { up with mem := { up.mem with broken := [(2, 1, 0)] } }.mem.broken.contains (2, 1, 0) = true := by decide +kernel

/-! ### The always-on domain, sleep and the check-value units -/

/-- A package whose core 0 has been in a sleep state since time 0. -/
def naps (st : Nat) : Pkg :=
  (((up.put (F.CORE_PSTATE_STATE 0) st).put F.AON_PDOM_POLICY_NAP_AFTER 1).put F.AON_PDOM_POLICY_DOZE_AFTER 1).setAon fun a => { a with idleAt := [(0, 0)] }
def allAsleep : Pkg := (((List.range 48).foldl (fun k c => k.setPstate c 2) up).put F.AON_PDOM_POLICY_FURL_AFTER 1).setAon fun a =>
  { a with heldFrom := [(0, 0)] }
theorem witness_ClocksAndTime :
    (up.put F.AON_CLK_STATUS_HOLDOVER 1).holdover = true ∧ up.holdover = false ∧ up.srcActive = false ∧
    (up.setSrc true true).srcOk true = true ∧ (up.setSrc true false).srcOk true = false ∧ Open (one (up.setSrc true true)) p0 .host R.AON_CLK_CTRL ∧
    (up.setSrc true true).srcActive = false ∧ (up.setSrc false true).get F.AON_CLK_CTRL_PREFER = 0 ∧
    ((up.put F.AON_CLK_CTRL_PREFER 1).setSrc true true).get F.AON_CLK_CTRL_PREFER = 1 ∧ (up.setSrc true true).srcOk (!(up.setSrc true true).srcActive) = true ∧
    up.loaded = false ∧ (up.put F.AON_TIME_STATUS_LOADED 1).loaded = true ∧ up.moored = false ∧
    (up.put F.AON_PKG_STATE_PKG 2).moored = true ∧ meanOf [100] + up.aon.coarse.tdiv 64 = 100 ∧ (meanOf [20]).natAbs ≤ 20 ∧
    20 < (meanOf [-21]).natAbs ∧ 99 ≤ ({ up with aon := { up.aon with goodExchanges := 99 } } : Pkg).aon.goodExchanges := by
  unfold Open; decide +kernel
theorem witness_SleepAndWake :
    up.coreDark 0 = false ∧ up.pstate 0 = 0 ∧ (naps 1).maySleep 0 = true ∧ (naps 1).pstate 0 = 1 ∧ (naps 1).get F.AON_PDOM_POLICY_NAP_AFTER = 1 ∧
    (naps 1).idleFor 1000 0 1000 = true ∧ (naps 1).idleFor 999 0 1000 = false ∧ (naps 2).idleFor 100000 0 100000 = true ∧ (naps 2).idleFor 99999 0 100000 = false ∧
    (naps 1).phys 0 < 192 ∧ (naps 2).maySleep 0 = true ∧ (naps 2).pstate 0 = 2 ∧ (naps 2).get F.AON_PDOM_POLICY_DOZE_AFTER = 1 ∧
    (naps 2).dozeBarred 0 = false ∧ (naps 2).saves = false ∧ ((naps 2).put F.AON_PDOM_POLICY_SAVE 1).saves = true ∧
    (clasped ⟨0, 0, 2, [], 0, false⟩).dozeBarred 0 = true ∧ (up.put (F.CORE_PSTATE_HOLD_AWAKE 0) 1).maySleep 0 = false := by decide +kernel
theorem witness_SleepAndWake_enter : Open (one (naps 1)) p0 .host (R.CORE_PSTATE 0) ∧ Open (one ((naps 2).put F.AON_PDOM_POLICY_SAVE 1)) p0 .cw
      (R.CORE_PSTATE 0) ∧ (naps 2).aon.waking.contains 0 = false ∧
    ({ naps 2 with aon := { up.aon with waking := [0], saved := [0] } } : Pkg).aon.waking.contains 0 = true ∧ up.dbg.wantHalt.contains 0 = false ∧
    (naps 2).Quiet ∧ (one up).mem = [] ∧ Memory.wf (one up).mem = true ∧ up.pstate 0 < 2 ∧ up.maySleep 0 = true ∧ (naps 2).coreDark 0 = false ∧
    0 ∉ up.aon.saved := by
  unfold Open Pkg.Quiet; decide +kernel
theorem witness_FurlMoorAndWake_furl : allAsleep.get F.AON_PDOM_POLICY_FURL_AFTER ≠ 0 ∧ allAsleep.cFurled 0 = false ∧
    (allAsleep.tileSlots 0).all allAsleep.asleep = true ∧ (sget ({} : BrgSt) allAsleep.brg 0).running = none ∧
    allAsleep.mem.clasps.any (fun x => decide (allAsleep.phys x.store / 48 = 0) || decide (allAsleep.phys x.holder / 48 = 0)) = false ∧
    (sget ({} : BrgSt) allAsleep.brg 0).queue = [] ∧ sfind allAsleep.aon.heldFrom 0 = some 0 ∧ 0 + 100000 * allAsleep.get F.AON_PDOM_POLICY_FURL_AFTER ≤ 100000 ∧
    (List.range 10).all (fun u => decide (allAsleep.csuScan u = none)) = true ∧ sfind up.aon.heldFrom 0 = none ∧
    allAsleep.csuBusy 6 = false ∧ (up.tileSlots 0).all up.asleep = false := by decide +kernel
def rests : Pkg := { (((List.range 192).foldl (fun k c => k.setPstate c 3) up).put F.AON_PKG_STATE_C_FURLED 15).put F.AON_PKG_STATE_S_FURLED 1
  |>.put F.AON_PDOM_POLICY_MOOR_AFTER 1 |>.put F.AON_PDOM_POLICY_SAVE 1 with aon := { up.aon with pcieL1 := true, heldFrom := [(4, 0)] } }
theorem witness_FurlMoorAndWake_moor : rests.mayMoor 1000000 = true ∧ rests.saves = true ∧ up.mayMoor 0 = false ∧
    up.mooring = false ∧ rests.mayMoor 999999 = false ∧ (rests.put F.AON_PKG_STATE_PKG 1).mooring = true ∧ (rests.put F.AON_PKG_STATE_PKG 1).moorable 0 = true ∧
    (up.put F.AON_PKG_STATE_PKG 1).mooring = true ∧ (up.put F.AON_PKG_STATE_PKG 1).moorable 0 = false := by decide +kernel
theorem witness_FurlMoorAndWake_wake : ((up.setPort 0 { state := .parked }).port 0).state = .parked ∧ (up.port 0).state ≠ .parked ∧
    bit (up.get F.AON_WAKE_CAUSE_CAUSE) 0 = false ∧ rests.aon.pcieL1 = true ∧ (naps 2).phys 0 < 192 ∧ (naps 2).coreDark 0 = false ∧
    2 ≤ (naps 2).pstate 0 ∧ (rests.put F.AON_PKG_STATE_PKG 2).moored = true := by decide +kernel
def armed (n : Nat) : Pkg := { up with aon := { up.aon with slots := List.replicate n ⟨1350000, 255, 1000000, false⟩ } }
theorem witness_PrewakeSlots : Open (one (armed 8)) p0 .host R.AON_PREWAKE_CTRL ∧ bits 0x010100BF 16 8 ≠ 0 ∧ bits 0x010100BF 0 8 ≤ 191 ∧
    bit 0x010100BF 25 = false ∧ bit 0x030100BF 25 = true ∧ bit 0x010101BF 8 = true ∧ 8 ≤ (armed 8).aon.slots.length ∧
    (armed 7).aon.slots.length < 8 ∧ (armed 0).time 0 + 2000000 ≤ (up.setWide R.AON_PREWAKE_AT_LO 2000000).wide R.AON_PREWAKE_AT_LO ∧
    (armed 1).aon.slots[0]? = some ⟨1350000, 255, 1000000, false⟩ ∧ (1350000 : Nat) ≤ up.time 0 + 1350000 ∧
    up.time 0 + 1350000 < 1350001 ∧ up.time 2349999 < 1350000 + 1000000 ∧ 1350000 + 1000000 ≤ up.time 2350000 ∧
    bit 0x010100BF 8 = false ∧ 0xFF = 255 ∧ (armed 1).prewakeNear 0 = true := by unfold Open; decide +kernel
def csu (st mode : Nat) : Pkg := (up.put (F.CSU_STATUS_STATE 2) st).put (F.CSU_CTRL_MODE 2) mode
theorem witness_CsuJobs : Open (one (csu 1 1)) p0 .host (R.CSU_CTRL 2) ∧ (csu 1 1).csuBusy 2 = true ∧ (csu 0 1).csuBusy 2 = false ∧
    Open (one up) p0 .host (R.CSU_CTRL 1) ∧ Open (one (csu 0 1)) p0 .host (R.CSU_CTRL 2) ∧ (∀ c, c < 192 → (csu 0 1).phys c < 192) ∧
    (((csu 0 1).put (F.CSU_CTRL_CORE 2) 0).setWide (R.CSU_LEN_LO 2) 1).startRefusal 2 = none ∧
    (((csu 0 0).put (F.CSU_CTRL_SPACE 2) 5).setWide (R.CSU_LEN_LO 2) storeBytes).startRefusal 2 = none ∧
    bit 0x101 1 = false ∧ bit 0x101 2 = false ∧ ((csu 0 0).put (F.CSU_CTRL_SPACE 2) 15).startRefusal 2 ≠ none ∧ (csu 1 1).get (F.CSU_CTRL_MODE 2) = 1 ∧
    (csu 1 0).get (F.CSU_CTRL_MODE 2) = 0 ∧ bit 4 1 = false ∧ bit 4 0 = false := by unfold Open; decide +kernel
/-- A scan of the first 64 B of a space. -/
def scan (space : Nat) : Pkg := ((csu 1 0).put (F.CSU_CTRL_SPACE 2) space).setWide (R.CSU_LEN_LO 2) 64
theorem witness_CsuWork : (csu 1 1).get (F.CSU_STREAM_TAG 2) = 0 ∧ (csu 1 1).get (F.CSU_STREAM_NEXT 2) = 0 ∧
    ((csu 1 1).put (F.CSU_STREAM_NEXT 2) 1).get (F.CSU_STREAM_NEXT 2) = (0 + 1) % 256 ∧
    0 < (((csu 1 1).setCsu 2 { chunks := 1 }).csuJob 2).chunks ∧ ((csu 1 1).csuJob 2).chunks = 0 ∧
    up.csuScan 2 = none ∧ (scan 2).csuScan 2 = some ⟨2, 0, 0, 64⟩ ∧ (scan 0).csuScan 2 = some ⟨0, 0, 0, 64⟩ ∧
    (csu 1 1).domainOn (csuDomain 2) = true ∧ (dim.setDomains false [410]).domainOn (csuDomain 2) = false ∧ (csu 1 1).csuBusy 2 = true ∧
    (linesOf (memKey p0 0 0) 64).find? [memKey p0 0 0 / 64].contains = some (memKey p0 0 0 / 64) := by decide +kernel

/-! ### SHA-384 and ECDSA (R113, log 7) -/

/-- The digest of "abc" in the example of FIPS 180-4, as a number whose little-endian bytes it is. -/
def abcDigest : Nat := leNat (leBytes 48
  0xcb00753f45a35e8bb5a03d699ac65007272c32ab0eded1631a8b605a43ff5bed8086072ba1e7cc2358baeca134c825a7).reverse
theorem test_sha384_abc : (sha384 [0x61, 0x62, 0x63]).toNat = abcDigest := by decide +kernel
/-- The public key of the private key 4242, by the formulas of FIPS 186; the signatures below are computed apart by the same formulas. -/
def pub0 : BitVec 384 × BitVec 384 :=
  (0x63110061e15a51190cef8c3d91f0d705e8a3015d93ba0d39a29cf53272ef075aa258c6a1784f7f42f377dd785ac4ce37,
   0x71b53105a5e6f27b81772370315927b9fbd4d7bbc8f09daa492a946184e76ba7c5cd12cf48d70da86ef6d7a1cdcde8fd)
theorem test_ecdsa_verifies : ecdsaVerify pub0.1 pub0.2 (BitVec.ofNat 384 abcDigest)
    0xb37699e0d518a4d370dbdaaaea3788850fa03f8186d1f78fdfbae6540aa670b31c8ada0fff3e737bd69520560fe0ce60
    0xbff23ad899c01c2eb57f0bba3110bdbf0bce399be6a337e5807a9c08631912b1239dde575613ec40cd2a3e72de370a19 = true := by decide +kernel
def keys0 : SMap KeySlot := [(0, { key := some pub0 })]
/-- A full image of 8 bytes and its trailer (R340), signed under the private key 4242. -/
def image0 : List Byte := leBytes 120
  0x2939b1e5726abfd0cfac9aa9a09dc7fbfd4066afa65978d133a74901066b84dea5777decac851ceb8dfc09f6525ece22c345f6efcf4004575285a73acb4bc4ce67b6a2ea453331f8198ac96be462e4d30cd400bba63bd50ea85cf6459f85ab0f00000000000000000000000000000100434b502036395753
/-- Its patch image: one INSERT (Tables 16.3, 16.4), signed under the same key. -/
def patch0 : List Byte := leBytes 384 (leNat (leBytes 152
  0x7800000002000000000000000000000080000000012d2ea585d7af38ec70837af755bb4f97880d960dbc1e60f64cecd596228024cb2a0c6874e5bbe3687c12255b371acca50000000000000000000000000000000000000000000000000000000000000000000000000000000000000000000000000000007800000000000000000000000000000000000000070000010148435450) + 2 ^ 1216 * leNat image0 + 2 ^ 2176 *
  0x9b483d6f8636df42025413e081c94dcfd4c809d12423753498f80290a92cd699c9027365cb728d7c97c410214706e38dc345f6efcf4004575285a73acb4bc4ce67b6a2ea453331f8198ac96be462e4d30cd400bba63bd50ea85cf6459f85ab0f00000000000000000000000000000100)
theorem test_patch_applies : applyPatch keys0 [] 1 bankBytes patch0 = (0, image0) ∧ trailerOk keys0 image0 = true := by decide +kernel

/-! ### The Chart slots and the turn -/

/-- An image with sections of Table 5.1, each given by its order, COUNT and body. -/
def image (epoch scope : Nat) (secs : List (Nat × Nat × List Byte)) : List Byte :=
  let head : List Byte := [0x43, 0x48, 0x52, 0x54] ++ leBytes 4 0 ++ leBytes 4 epoch ++ leBytes 1 scope ++ leBytes 1 secs.length ++ leBytes 50 0
  let at_ (i : Nat) : Nat := 0x40 + 16 * secs.length + (((secs.take i).map fun s => 16 + s.2.2.length).foldl (· + ·) 0) + 16
  head ++ ((indexed secs).flatMap fun s => (secName s.2.1).map (BitVec.ofNat 8) ++ leBytes 4 (at_ s.1) ++ leBytes 4 s.2.2.2.length) ++
    secs.flatMap fun s => leBytes 8 0 ++ leBytes 4 s.2.1 ++ leBytes 4 0 ++ s.2.2
/-- Tree 1: REVERSE, root 0, BUFFER 8, from package 0 on its port 1 to package 1, which delivers. -/
def tree1 : List Byte :=
  [1, 1, 0, 0, 8, 0, 0, 0] ++ leBytes 24 0 ++ leBytes 4 2 ++ leBytes 3 0 ++ [1] ++ leBytes 376 0
/-- Two regions of 100 µs: ORDER 0 with the packages of `mask`, and ORDER 1 with package 2. -/
def regions (mask : Nat) : List Byte := [0, 1, 0, 0] ++ leBytes 12 mask ++ [1, 1, 0, 0] ++ leBytes 12 4
def imgOf (epoch mask : Nat) : List Byte := image epoch 1 [(4, 1, tree1), (9, 2, regions mask), (3, 0, [])]
/-- Package 1 of rack 0 in a turn from epoch 1 to epoch 2, region 0 being the packages of `mask`. -/
def turnAt (ph own shadow mask : Nat) (c : ChartSt → ChartSt) : Pkg :=
  { ((((up.put F.AON_PKG_ADDR_ADDR 1).put F.CHT_TURN_STATUS_PHASE ph).put F.CHT_TURN_STATUS_OWN_STATE own).put F.CHT_SLOT_STATUS_SHADOW_STATE
      shadow) with chart := c { active := imgOf 1 mask, shadow := imgOf 2 mask, goEpoch := 2, goT0 := 0 } }
theorem witness_ChartLoadAndCheck : Open (one up) p0 .host R.CHT_LOAD_CTRL ∧ up.chartOff = false ∧ up.shadowState ≠ 5 ∧ up.moored = false ∧
    (up.put F.CHT_LOAD_LEN_LEN 4).get F.CHT_LOAD_LEN_LEN ≠ 0 ∧ (up.put F.CHT_SLOT_STATUS_SHADOW_STATE 5).shadowState = 5 ∧
    Open (one up) p0 .host R.CHT_LOAD_DATA ∧ up.chart.loadPort = false ∧
    ((([] : List Byte) ++ leBytes 4 0).take 4).length = 4 ∧ ((([] : List Byte) ++ leBytes 4 0).take 8).length < 8 ∧
    ({ up.chart with loadPort := true, loadLen := 8 } : ChartSt).loadPort = true ∧ ({ up.chart with loadDma := true } : ChartSt).loadDma = true ∧
    up.chart.loadDma = false ∧ up.chart.shadow = [] ∧
    (up.put F.CHT_SLOT_STATUS_SHADOW_STATE 2).shadowState = 2 ∧ slice up.chart.shadow 0 4 ≠ [0x43, 0x48, 0x52, 0x54] ∧
    up.unitState 250 < 3 ∧ up.pkc.hostInReset = false := by unfold Open; decide +kernel
/-- A package with an order staged: AT, LEASE and EPOCH. -/
def staged (at_ lease epoch : Nat) : Pkg :=
  ((up.setWide R.CHT_TURN_AT_LO at_).setRg R.CHT_TURN_LEASE (BitVec.ofNat 32 lease)).setRg R.CHT_TURN_EPOCH (BitVec.ofNat 32 epoch)
def valid3 (k : Pkg) : Pkg := { k.put F.CHT_SLOT_STATUS_SHADOW_STATE 3 with chart := { k.chart with active := imgOf 1 2, shadow := imgOf 2 2 } }
theorem witness_TurnStart_go : Open (one (staged 10000000 0 2)) p0 .host R.CHT_TURN_CTRL ∧ (staged 10000000 0 2).turning = false ∧
    ((staged 0 0 2).put F.CHT_TURN_STATUS_PHASE 1).turning = true ∧ (0 : Nat) < { up.chart with leaseMax := 1 }.leaseMax ∧
    (staged 9999999 0 2).wide R.CHT_TURN_AT_LO < up.time 0 + 10000000 ∧ up.time 0 + 10000000 ≤ (staged 10000000 0 2).wide R.CHT_TURN_AT_LO ∧
    (valid3 (staged 10000000 0 2)).shadowState = 3 ∧ chEpoch (imgOf 2 2) = 2 ∧ chEpoch (imgOf 2 2) ≠ 3 ∧
    up.chart.active.isEmpty = true ∧ up.activePorts = [] ∧ (up.setPort 0 { state := .active }).activePorts ≠ [] ∧
    (imgOf 1 2).isEmpty = false ∧ chScope (imgOf 2 2) ≠ 0 ∧ up.chartOff = false ∧ (turnAt 1 0 3 2 id).chart.goLease = 0 ∧
    (turnAt 1 0 3 2 id).wide R.CHT_TURN_AT_LO = (turnAt 1 0 3 2 id).chart.goT0 ∧
    ((turnAt 1 0 3 2 id).setRg R.CHT_TURN_EPOCH 2).rg R.CHT_TURN_EPOCH = (turnAt 1 0 3 2 id).chart.goEpoch ∧
    (((turnAt 1 0 3 2 id).setRg R.CHT_TURN_EPOCH 2).setRg R.CHT_TURN_LEASE 1).rg R.CHT_TURN_LEASE ≠ (turnAt 1 0 3 2 id).chart.goLease ∧
    (turnAt 1 0 3 2 id).chart.leaseMax = 0 ∧ (turnAt 1 0 3 2 id).chart.entered = [] ∧ (turnAt 1 0 3 2 id).chart.committed = [] ∧
    ((turnAt 1 0 3 2 id).setRg R.CHT_TURN_EPOCH 3).rg R.CHT_TURN_EPOCH ≠ (turnAt 1 0 3 2 id).chart.goEpoch := by unfold Open; decide +kernel
theorem witness_TurnStart_prepare : (turnAt 1 0 3 2 id).phase = 1 ∧ (turnAt 1 0 3 2 id).chart.goT0 ≤ (turnAt 1 0 3 2 id).time 0 ∧
    (turnAt 1 0 3 2 id).shadowState = 3 ∧ chEpoch (imgOf 2 2) = (2 : Word).toNat ∧ (turnAt 1 0 3 2 id).chartOff = false ∧
    chScope (image 2 0 []) = 0 ∧ (turnAt 1 0 4 2 id).shadowState ≠ 3 ∧ (turnAt 1 0 4 2 id).shadowState ≠ 5 ∧
    ((turnAt 1 0 3 2 id).setPort 0 { state := .active }).activePorts ≠ [] ∧ (turnAt 1 0 3 2 id).activePorts = [] ∧
    (turnAt 1 0 3 2 fun c => { c with active := [] }).chart.active.isEmpty = true ∧ (turnAt 1 0 4 2 id).chart.committed = [] ∧
    (turnAt 1 0 4 2 id).chart.entered = [] ∧ 0 + 1000000 ≤ (turnAt 1 0 3 2 id).time 1000000 ∧
    (turnAt 1 0 3 2 id).time 999999 < 0 + 1000000 ∧ chEpoch (imgOf 2 2) % 2 = false.toNat ∧ chEpoch (imgOf 1 2) % 2 ≠ false.toNat := by
  decide +kernel
/-- A message of that turn about a region. -/
def turnOf (order : Byte) (sender : Fin 96) : TurnMsg := { epoch := 2, order := order, sender := sender, t0 := 0, cause := 7, tr := some 5 }
theorem witness_TurnSteps : (turnAt 2 0 5 2 fun c => { c with prepared := true }).phase = 2 ∧ (turnAt 2 0 5 2 id).chart.fleet = none ∧
    (turnAt 2 0 5 2 id).ownRegion = 0 ∧ (turnAt 2 0 5 2 id).ownState = 0 ∧ (turnAt 3 1 5 3 id).oldOut = 0 ∧ (turnAt 3 1 5 3 id).ownState = 1 ∧
    (turnAt 3 1 5 3 id).isLead 0 = false ∧ (turnAt 3 1 5 10 id).isLead 0 = true ∧ (turnAt 3 1 5 10 id).ofTurn (turnOf 0 1) = true ∧
    ((turnAt 3 1 5 10 id).membersOf 0).all ([1] : List Nat).contains = false ∧
    ((turnAt 3 1 5 10 id).membersOf 0).all ([1, 3] : List Nat).contains = true ∧
    ((turnAt 3 1 5 10 id).chart.drainedFrom ++ [3]).contains 1 = false ∧ (turnAt 3 1 5 10 id).time 100000 ≤ (turnAt 3 1 5 10 id).chart.entryAt + 100000 ∧
    (turnAt 3 1 5 10 id).chart.entryAt + (turnAt 3 1 5 10 id).turnWindow 0 < (turnAt 3 1 5 10 id).time 100001 ∧
    (turnAt 3 1 5 10 id).chart.committed.contains 0 = false ∧ up.ofTurn (turnOf 0 1) = false ∧
    (turnAt 4 2 5 2 fun c => { c with tr := some 5 }).phase = 4 ∧ 5 ≤ up.time 5 ∧ up.time 4 < 5 := by decide +kernel
theorem witness_TurnFloods : (turnAt 3 1 5 2 fun c => { c with seen := [(mCommit, turnOf 0 1), (mAbort, turnOf 0 1)] }).chart.seen.contains
      (mCommit, turnOf 0 1) = true ∧ up.moored = false ∧ up.ofTurn (turnOf 0 1) = false ∧
    (turnAt 3 1 5 2 id).ofTurn (turnOf 1 1) = true ∧ (turnAt 3 1 5 2 id).ownRegion ≠ 1 ∧ (turnAt 3 1 5 2 id).lastOfTurn 1 = true ∧
    ((turnAt 3 1 5 2 id).put F.CHT_TURN_STATUS_OWN_REGION 1).ownRegion ≠ 0 ∧ (turnAt 3 1 5 2 id).lastOfTurn 0 = false ∧
    (turnAt 3 1 5 2 fun c => { c with committed := [1] }).chart.committed.contains 1 = true ∧
    (turnAt 1 0 3 2 id).chart.entered = [] ∧ (turnAt 1 0 3 2 id).shadowState ≠ 5 ∧ (turnAt 1 0 3 2 id).phase < 4 ∧ up.infraUp = true ∧
    (turnAt 3 1 5 2 id).chart.fleet = none ∧ (turnAt 3 1 5 2 id).phase = 3 ∧ 4 ≤ (turnAt 4 2 5 2 id).phase ∧ (turnAt 3 1 5 2 id).ownRegion ≠ 2 := by decide +kernel
def withdraws (l : List Nat) : Pkg := turnAt 5 3 5 10 fun c => { c with wdSeq := l }
theorem witness_TurnWithdrawal : (turnAt 3 1 5 10 id).turnWindow 0 = 100000 ∧ (turnAt 3 1 5 10 id).isLead 0 = true ∧
    0 + 100000 ≤ (turnAt 3 1 5 10 id).time 100000 ∧ 0 + 100000 + 1000000 ≤ (turnAt 3 1 5 10 id).time 1100000 ∧
    (turnAt 3 1 5 10 fun c => { c with entered := [0] }).chart.entered ≠ [] ∧ Open (one (turnAt 3 1 5 10 id)) p0 .host R.CHT_TURN_CTRL ∧
    ((turnAt 3 1 5 10 id).rg R.CHT_TURN_LEASE).toNat < 1 ∧ (withdraws [0]).phase = 5 ∧ (withdraws [0]).ownState = 3 ∧
    (withdraws [0]).oldOut = 0 ∧ (turnAt 5 3 5 3 id).isLead 0 = false ∧ (withdraws [0]).isLead 0 = true ∧ (withdraws [0]).shadowState = 5 ∧
    (withdraws [0]).turnWindow 0 = 100000 ∧ (withdraws [0, 1]).chart.wdSeq = [0, 1] ∧ (withdraws [0]).ofTurn (turnOf 0 1) = true ∧
    (one (turnAt 5 3 5 10 id)).withdrawLead 0 ((turnAt 5 3 5 10 id).membersOf 0) = some 1 ∧ (turnAt 5 3 5 10 id).idx = 1 ∧
    (turnAt 5 3 5 10 id).ownRegion ≠ 1 ∧ (turnAt 1 0 3 2 fun c => { c with goT0 := 5 }).time 4 < 5 ∧ (turnAt 2 0 5 2 id).phase ≤ 3 ∧
    (turnAt 3 1 5 10 fun c => { c with fleet := some (0, 0) }).chart.fleet ≠ none ∧ ((withdraws [0]).membersOf 0).all ([1, 3] : List Nat).contains = true ∧
    (withdraws [0]).chart.seen.contains (mWithdrawn, turnOf 0 1) = false ∧ (withdraws [0]).infraUp = true ∧ up.infraUp = true ∧
    (1 : Nat) = (withdraws [0]).leadOf 0 ∧ (turnAt 3 1 5 10 id).leadOf 0 ≠ 3 ∧ (turnAt 3 1 5 10 id).phase ≠ 5 := by
  unfold Open; decide +kernel

/-! ### Links, routers, flows and resets -/

def blk (b : Byte) : Block := { block0 with bseq := b }
/-- One package whose port 0 is as given. -/
def linked (x : PortSt) : State := one (up.setPort 0 x)
/-- The same at a later time. -/
def linkedAt (now : Nat) (x : PortSt) : State := { linked x with now := now }
/-- A package that may train its links: its address is set and the PKC has admitted them. -/
def joins (x : PortSt) : State := one { (up.put F.AON_PKG_ADDR_ADDR 1).setPort 0 x with pkc := { up.pkc with admitted := true } }
theorem witness_LinkFailures : (∀ e ∈ ((linked { replay := [blk 3] }).port link0).replay, e.bseq ≠ 4) ∧
    ((∃ e ∈ ((linked { replay := [blk 3] }).port link0).replay, e.bseq = 3) ∧ ((linked { replay := [blk 3] }).port link0).replayedAt ≠ some 3) ∧
    (let x := (linked { replay := [blk 3], replayedAt := some 3, sameFails := 2, allFails := 14 }).port link0
     (x.replay.head?.map (·.bseq) = some 3 ∧ x.replayedAt = some 3) ∧ x.sameFails < 3 ∧ x.allFails < 15) ∧
    (let x := (linked { replay := [blk 3], replayedAt := some 3, sameFails := 3, allFails := 14, state := .active }).port link0
     (x.replay.head?.map (·.bseq) = some 3 ∧ x.replayedAt = some 3) ∧ 3 ≤ x.sameFails ∧ x.allFails < 15 ∧ x.state = .active ∧
       (x.retrainStarts.filter (fun t => 0 < t + 1000000000)).length < 7) ∧
    (let x := (linked { replay := [blk 3], replayedAt := some 3, sameFails := 3, allFails := 15 }).port link0
     (x.replay.head?.map (·.bseq) = some 3 ∧ x.replayedAt = some 3) ∧ 15 ≤ x.allFails) ∧
    (let x := (linked { state := .active, retrainStarts := List.replicate 6 0 }).port link0
     x.state = .active ∧ (x.retrainStarts.filter (fun t => 0 < t + 1000000000)).length < 7) ∧
    (let x := (linked { state := .active, retrainStarts := List.replicate 7 0 }).port link0
     x.state = .active ∧ 7 ≤ (x.retrainStarts.filter (fun t => 999999999 < t + 1000000000)).length) ∧
    ((linked { state := .down }).port link0).state ≠ .active ∧
    (let s := linkedAt 1000 { state := .active, replay := [blk 3], sentAt := [0] }
     (s.port link0).replay = blk 3 :: [] ∧ (s.port link0).sentAt = 0 :: [] ∧ (s.port link0).state = .active ∧ 0 + 1000 ≤ s.now) ∧
    ((linked {}).port link0).replay = [] ∧ ((linkedAt 999 { replay := [blk 3], sentAt := [0] }).port link0).sentAt = 0 :: [] ∧
    (linkedAt 999 {}).now < 0 + 1000 := by decide +kernel
theorem witness_LinkTraining : ((linked {}).port link0).state ≠ .retraining ∧
    (let s := joins { state := .retraining, stoppedAt := some 0 }
     (s.port link0).state = .retraining ∧ s.expectedAt link0 = some (identityOf 0 1) ∧ s.expectedAt link0 ≠ some 0) ∧
    (let s := linkedAt 1200000 { state := .retraining, stoppedAt := some 0 }
     (s.port link0).state = .retraining ∧ (s.port link0).stoppedAt = some 0 ∧ 0 + 1200000 ≤ s.now) ∧
    (((linkedAt 1199999 { state := .retraining, stoppedAt := some 0 }).port link0).stoppedAt = some 0 ∧ (linkedAt 1199999 {}).now < 0 + 1200000) ∧
    ((linked {}).port link0).training = false ∧
    (let s := joins { training := true, state := .training }
     s.expectedAt link0 = some 1 ∧ (s.port link0).training = true ∧ (s.port link0).state ≠ .peerDark ∧ (s.port link0).state ≠ .down ∧ (s.port link0).state ≠ .miswired) ∧
    (let s := joins { training := true, state := .peerDark }
     s.expectedAt link0 = some 1 ∧ (s.port link0).training = true ∧ (s.port link0).state = .peerDark ∧ (s.port link0).state ≠ .training ∧ (s.port link0).trained = false) ∧
    (let s := joins { training := true, state := .down }
     s.expectedAt link0 = some 1 ∧ (s.port link0).training = true ∧ (s.port link0).state = .down ∧ (s.port link0).state ≠ .training) ∧
    ((linked { state := .miswired }).port link0).state = .miswired := by decide +kernel
theorem witness_LinkNotices_isolated : up.unitState 208 < 3 ∧ 3 ≤ (up.setUnit 208 { state := 3 }).unitState 208 := by decide +kernel
theorem witness_LinkNotices : (let x := (linked { state := .peerDark, trained := true }).port link0
     x.state = .peerDark ∧ x.trained = true) ∧
    ((linked { state := .peerDark }).port link0).trained = false ∧ ((linked { state := .active }).port link0).state = .active ∧
    ((linked {}).port link0).state ≠ .active ∧
    (let x := (linked { state := .parked, outQ := [⟨pk0, 0, 0, 0⟩] }).port link0
     x.state = .parked ∧ x.outQ ≠ [] ∧ x.stoppedAt = none) ∧
    ((linked { state := .parked }).port link0).outQ = [] ∧ ((linked { state := .parked }).port link0).state = .parked ∧
    ((linked {}).port link0).stoppedAt = none ∧
    (let s := linkedAt (up.holdNs) { state := .parked, stoppedAt := some 0 }
     (s.port link0).stoppedAt = some 0 ∧ (s.port link0).state = .parked ∧ 0 + (s.pkg p0).holdNs ≤ s.now) ∧
    (let s := linkedAt (up.holdNs - 1) { state := .parked, stoppedAt := some 0 }
     (s.port link0).stoppedAt = some 0 ∧ s.now < 0 + (s.pkg p0).holdNs) ∧
    (let x := (linked { state := .heldDown }).port link0
     x.state ≠ .active ∧ x.state ≠ .peerDark ∧ x.state ≠ .parked) ∧
    (let x := (linked { state := .active, rejecting := true, rxNext := 4 }).port link0
     x.state = .active ∧ x.rejecting = true ∧ (blk 5).bseq ≠ x.rxNext) ∧
    (let x := (linked { state := .active, rxNext := 4 }).port link0
     let b := { blk 4 with dataFlits := 1 }
     x.state = .active ∧ b.nak = false ∧ b.goingDark = false ∧ b.moor = false ∧ b.backInService = false ∧ b.bseq = x.rxNext ∧ b.dataFlits ≠ 0) ∧
    (link0 = p0.link 0 ∧ Open (linked { state := .heldDown }) p0 .host (R.FAB_PORT_CTRL 0 0)) ∧
    ((linked { state := .heldDown }).port link0).state = .heldDown ∧ ((linked {}).pkg p0).mayTrain = false ∧
    ((joins { state := .heldDown }).pkg p0).mayTrain = true ∧ ((joins { state := .heldDown }).port link0).state = .heldDown ∧
    Open (joins { state := .heldDown }) p0 .host (R.FAB_PORT_CTRL 0 0) ∧
    (((linked { state := .active }).port link0).retrainStarts.filter (fun t => 0 < t + 1000000000)).length < 7 := by unfold Open; decide +kernel

/-- Package 1 of rack 0 with an active Chart of rack scope. -/
def charted : Pkg := { up.put F.AON_PKG_ADDR_ADDR 1 with chart := { up.chart with active := imgOf 1 2 } }
/-- A READ from core 0 of package 0 to core 0 of a package, under epoch 1. -/
def rd (pkg : Nat) : Packet := { pk0 with epoch := true, dst := BitVec.ofNat 24 (256 * pkg), want := 64 }
/-- The same from rack 1, and an override of every unicast packet to its own rack onto port 5. -/
def abroad : Packet := { rd 1 with src := BitVec.ofNat 24 (256 * 128) }
def diverted : Pkg := charted.setRg (R.DBG_ROUTE_OVR 0) (BitVec.ofNat 32 (2 ^ 31 + 7 * 2 ^ 28 + 255 * 2 ^ 20 + 255 * 2 ^ 12 + 5))
/-- An inbound store with no room. -/
def crowded : Pkg := { charted with fab := { charted.fab with inbound := List.replicate 65536 pk0 } }
theorem witness_Routers_package : (opcodeOk 0xFF = false ∧ opcodeOk (rd 0).opcode = true ∧ (rd 0).reserved = false) ∧
    charted.lifetimeUs < ageUs (charted.time 20000000) (rd 0) ∧
    (¬ charted.lifetimeUs < ageUs (charted.time 0) (rd 0) ∧ (rd 0).cls ≠ 2 ∧ (rd 0).cls ≠ 3 ∧ (rd 0).pkg = false ∧ endpointOk (rd 0).dst = true) ∧
    endpointOk 0x3F = false ∧ (epPkg (rd 1).dst = charted.addr ∧ charted.storeFull = false ∧ (rd 1).cls = 0) ∧
    (epPkg (rd 0).dst ≠ diverted.addr ∧ diverted.override (rd 0) = some 5 ∧ (diverted.port 5).state ≠ .peerDark) ∧
    (epPkg (rd 0).dst ≠ charted.addr ∧ charted.override (rd 0) = none ∧ charted.tables true = imgOf 1 2 ∧ imgOf 1 2 ≠ [] ∧
      chScope (imgOf 1 2) ≠ 0 ∧ addrRack (epPkg (rd 0).dst) = charted.rackNo ∧ charted.foreignAbsent (imgOf 1 2) (rd 0) = false) ∧
    up.tables true = [] ∧ (viaPort 1 0 (pairEntry (imgOf 1 2) 1 (addrIndex (epPkg (rd 0).dst))).1 = some 0) ∧
    (portDown (charted.setPort 0 { state := .active } |>.port 0).state = false ∧ (charted.setPort 0 { state := .active } |>.port 0).state ≠ .peerDark) ∧
    (portDown (charted.port 0).state = true ∧ portPlane charted.idx 0 = none ∧ (charted.fallbackPort (imgOf 1 2) (rd 0)).1 = none) ∧
    (addrRack (epPkg (rd 128).dst) ≠ charted.rackNo ∧ planePrimary (imgOf 1 2) 1 ≤ 3 ∧ secondPort charted.idx (planePrimary (imgOf 1 2) 1) = none) ∧
    (charted.port 0).pick false charted.chart.active 0 charted.rt.first = none := by decide +kernel
theorem witness_Routers_full : crowded.storeFull = true ∧ epPkg (rd 1).dst = crowded.addr ∧ (rd 1).cls = 0 := by
  refine ⟨?_, by decide +kernel, rfl⟩
  show decide (65536 ≤ (List.replicate 65536 pk0).length) = true
  rw [List.length_replicate]; rfl
/-- A route to package 0 by port 0 with a fallback at package 2, and no plane to rack 1. -/
def routed : Pkg :=
  { charted with chart := { charted.chart with active := image 1 1 [(3, 0, leBytes 0x14 0 ++ [0xFF, 0xFF, 0, 0] ++ leBytes 0x678 0 ++ [0, 0, 1, 2])] } }
theorem witness_Routers_routes : (let img := routed.chart.active
     routed.tables true = img ∧ (viaPort 1 0 (pairEntry img 1 0).1 = some 0 ∧ portDown (routed.port 0).state = true ∧ portPlane routed.idx 0 = none ∧
       (routed.fallbackPort img (rd 0)).1 = some 2 ∧ (routed.port 2).state ≠ .peerDark) ∧
     (addrRack (epPkg (rd 128).dst) ≠ routed.rackNo ∧ 3 < planePrimary img 1)) ∧
    (let img := image 1 1 [(1, 0, leBytes 0x200 0 ++ List.replicate 192 0xFF)]
     img ≠ [] ∧ chScope img ≠ 0 ∧ charted.foreignAbsent img { abroad with dst := 0 } = true ∧ addrRack (epPkg (0 : BitVec 24)) = charted.rackNo) := by decide +kernel
/-- A port with one packet to send and credits for it. -/
def sends : PortSt := { state := .active, outQ := [⟨{ rd 0 with cls := 4, vc := 4 }, 30, 4, 0⟩] }
def sending : Pkg := charted.setPort 0 sends
theorem witness_Routers_departure : (sending.port 0).pick false charted.chart.active 0 sending.rt.first =
      some ⟨{ rd 0 with cls := 4, vc := 4 }, 30, 4, 0⟩ ∧ (sending.port 0).state = .active ∧ charted.isPlane 0 = false ∧
    (sending.port 0).replay.length + (flits (rd 0) + 63) / 64 ≤ 4 := by decide +kernel
def mer : RouterId := .meridian 0 0
def merWith (r : RouterSt) : State := State.reset.setRouter mer r
/-- A map report for the map agent of plane 0 of rack 0. -/
def report0 : Packet := { pk0 with opcode := 0x28, cls := 4, pkg := true, dst := BitVec.ofNat 24 (merAddr 0 0 * 256) }
theorem witness_Routers_meridian : merLifetimeUs < ageUs 20000000 (rd 0) ∧ ¬ merLifetimeUs < ageUs 0 (rd 0) ∧
    (report0.cls = 4 ∧ report0.pkg = true ∧ epPkg report0.dst = merAddr ((merWith {}).merCtx 0 0).rack ((merWith {}).merCtx 0 0).plane ∧
      opcodeOk report0.opcode = true ∧ report0.reserved = false) ∧
    ({ sink := [report0] } : RouterSt).sink.length < 1024 ∧ (List.replicate 1024 report0).length ≥ 1024 ∧
    ({ rd 0 with dst := 0x3F }.pkg = false ∧ endpointOk 0x3F = false) ∧
    (let r : RouterSt := { ovr := [(0, BitVec.ofNat 32 (2 ^ 31 + 7 * 2 ^ 28 + 255 * 2 ^ 20 + 255 * 2 ^ 12 + 5))] }
     r.merOverride 0 (rd 0) = some 5 ∧ (r.port 5).state ≠ .peerDark) ∧
    (let r : RouterSt := ({} : RouterSt).setPort 0 { state := .active }
     r.merOverride 0 (rd 0) = none ∧ addrRack (merTarget (rd 0)) = ((merWith r).merCtx 0 0).rack ∧ (r.spreadOver 0 (merDown 0 0)).1 = some 0 ∧
       (r.port 0).state ≠ .peerDark) ∧
    (let r : RouterSt := (({} : RouterSt).setPort 0 { state := .peerDark }).setPort 96 { state := .peerDark }
     (r.spreadOver 0 (merDown 0 0)).1 = some 0 ∧ (r.port 0).state = .peerDark ∧ expectsResponse (rd 0).opcode = true) ∧
    (let r : RouterSt := ({} : RouterSt).setPort 148 { state := .active }
     let links := merBundle (r.mapFor 0 true) [] 0 0 (addrRack (merTarget (rd 128)))
     addrRack (merTarget (rd 128)) ≠ ((merWith r).merCtx 0 0).rack ∧ (r.spreadOver 201 links).1 = some 148 ∧ (r.port 148).state ≠ .peerDark) ∧
    ({} : RouterSt).mapFor 0 true = [] ∧ (({} : RouterSt).port 0).pick true [] 0 ({} : RouterSt).first = none := by decide +kernel
/-- A rack image whose bundle map names no peer, so that no link leads to another rack. -/
def uncabled : List Byte := image 1 1 [(3, 0, leBytes 0x90 0 ++ List.replicate 1152 0xFF)]
theorem witness_Routers_meridian_uncabled : merBundle uncabled [] 0 0 1 = [] := by decide +kernel
def merSending : RouterSt := ({} : RouterSt).setPort 0 sends
theorem witness_Routers_meridian_departure : (merSending.port 0).pick true [] 0 merSending.first = some ⟨{ rd 0 with cls := 4, vc := 4 }, 30, 4, 0⟩ ∧
    (merSending.port 0).state = .active ∧ (merSending.port 0).replay.length + (flits (rd 0) + 63) / 64 ≤ 4 := by decide +kernel

/-- An image of package scope: the reach of each of its skeins is `reach`, read as one number, and core 0 and the others are in these. -/
def skeins (reach : Nat) (own rest : Byte) : List Byte :=
  image 2 0 [(1, 0, leBytes 512 reach ++ [own] ++ List.replicate 191 rest)]
/-- Package 1 of rack 0, alone, with that Chart. -/
def alone (reach : Nat) (own rest : Byte) : Pkg :=
  { up.put F.AON_PKG_ADDR_ADDR 1 with chart := { up.chart with active := skeins reach own rest } }
/-- A READ of core 0 of that package from core 0 to a core of it, as it is stamped. -/
def ask (k : Pkg) (op : Byte) (dst : BitVec 24) : Packet :=
  k.stamped 0 { (k.issues 0).newPacket 0 op 0 dst (endpoint k.addr 0) [] with incarnation := k.coreInc 0, want := 64 }
def there (k : Pkg) (dst : BitVec 24) : Prop :=
  endpointOk dst = true ∧ k.tables k.stamp ≠ [] ∧ chScope (k.tables k.stamp) = 0 ∧ epPkg dst = k.addr ∧ addrRack (epPkg dst) = k.rackNo
theorem witness_FlowSource_issue : (alone 1 0 0).coreDark 0 = false ∧ opcodeClass 1 = 0 ∧ opcodeClass 0x10 ≠ 0 ∧
    (alone 1 0 0).onMesh 0 0x101 = true ∧ (alone 1 0 0).onMesh 0 0x140 = false ∧
    (there (alone 1 0 0) 0x140 ∧ allAbsent (skeins 1 0 0) 1 = false ∧ reachOk (skeins 1 0 0) 0 0 0 1 48 = true ∧
      ((alone 1 0 0).issues 0).barred 0 (ask (alone 1 0 0) 1 0x140) = none) ∧
    (there (alone 0 0 0) 0x140 ∧ reachOk (skeins 0 0 0) 0 0 0 1 48 = false ∧
      ((alone 0 0 0).issues 0).barred 0 (ask (alone 0 0 0) 1 0x140) = some stNoReach) ∧
    (there (alone 1 0xFF 0xFF) 0x140 ∧ allAbsent (skeins 1 0xFF 0xFF) 1 = true) ∧
    (there (alone 1 0xFF 0) 0x100 ∧ allAbsent (skeins 1 0xFF 0) 1 = false ∧ reachOk (skeins 1 0xFF 0) 0 63 0 1 0 = true ∧
      coreSkein (skeins 1 0xFF 0) 1 0 = 0xFF) ∧
    endpointOk 0x3F = false ∧ up.tables up.stamp = [] ∧ opClasp ≠ 1 := by unfold there; decide +kernel
/-- A flow to package 1 with what it has sent and what waits. -/
def flowing (out : List TxOut) (waiting : List (Packet × Nat)) (seq : Word) : Pkg :=
  (alone 1 0 0).setTx (flowKey 1 0 0) { seq := seq, out := out, waiting := waiting }
def wait1 : Packet := { pk0 with dst := 0x140, want := 64 }
def sent1 (resends : Nat) : TxOut := ⟨{ wait1 with seq := 4 }, 0, resends, [], [], 0⟩
theorem witness_FlowSource_send : ((alone 1 0 0).txFlow (flowKey 1 0 0)).waiting = [] ∧
    (let k := flowing [] [(wait1, 0)] 0
     (k.txFlow (flowKey 1 0 0)).waiting = (wait1, 0) :: [] ∧ wait1.cls ≠ 2 ∧ k.barred 0 (k.stamped 0 wait1) = none ∧
       (k.txFlow (flowKey 1 0 0)).out.length < k.window k.idx (addrIndex 1) (addrRack 1) 0 ∧ k.respOut < k.reserve) ∧
    (let k := flowing (List.replicate 512 (sent1 0)) [(wait1, 0)] 516
     k.barred 0 (k.stamped 0 wait1) = none ∧ k.window k.idx (addrIndex 1) (addrRack 1) 0 ≤ (k.txFlow (flowKey 1 0 0)).out.length) ∧
    (let k := flowing [] [({ wait1 with dst := 0x3F }, 0)] 0
     k.barred 0 (k.stamped 0 { wait1 with dst := 0x3F }) = some stNoEndpoint) := by decide +kernel
theorem witness_FlowSource_answers : bits pk0.addr.toNat 0 3 ≠ 2 ∧ ((alone 1 0 0).txFlow (flowKey 1 0 0)).out = [] ∧
    (let k := flowing [sent1 0] [] 5
     let f := k.txFlow (flowKey 1 0 0)
     f.out ≠ [] ∧ pk0.fgen = f.fgen ∧ pk0.status ≠ stResync ∧ f.out.find? (fun x => x.pk.seq = 4) = some (sent1 0) ∧ (sent1 0).pk.cls ≠ 2 ∧
       ¬ (sent1 0).sentAt + 1000000 * k.get (F.FAB_LINK_CFG_RETX_TIME 0) ≤ 0 ∧
       (sent1 0).sentAt + 1000000 * k.get (F.FAB_LINK_CFG_RETX_TIME 0) ≤ 1000000000 ∧
       (sent1 0).resends + 1 < k.get (F.FAB_LINK_CFG_RETX_LIMIT 0)) ∧
    (flowing [sent1 0] [] 5).get (F.FAB_LINK_CFG_RETX_LIMIT 0) ≤ (sent1 14).resends + 1 ∧
    (let k := flowing [sent1 0] [] 5
     let r := { pk0 with opcode := opResponse, cls := 1, src := 0x100, dst := 0x100, seq := 4 }
     r.incarnation = k.coreInc (epCore r.dst) ∧ (k.txFlow (flowKey (epPkg r.src) 0 0)).out.find? (fun o => o.pk.seq = r.seq &&
       o.pk.fgen = r.fgen && expectsResponse o.pk.opcode && o.core = epCore r.dst) = some (sent1 0) ∧ (sent1 0).pk.cls ≠ 4 ∧ epCore r.dst < 192) ∧
    { pk0 with incarnation := 1 }.incarnation ≠ up.coreInc 0 ∧ (up.txFlow (flowKey 0 0 0)).out.find? (fun o => o.pk.seq = 4) = none := by
  decide +kernel
/-- A receiver that expects SEQ 4. -/
def rx4 : RxFlow := ⟨0, 1, 4, [], 1, some 0, []⟩
def receives : Pkg :=
  { charted with chart := { charted.chart with active := image 1 1 [(5, 0, leBytes 0x10 0 ++ [8, 1] ++ leBytes 206 0)] } }.setRx 0 rx4
/-- A packet of that flow. -/
def in4 (cls : BitVec 3) (seq : Word) : Packet := { rd 0 with cls := cls, fgen := 1, seq := seq }
def fillsStore : Pkg := { receives with fab := { receives.fab with inbound := crowded.fab.inbound } }
theorem witness_FlowReceiver : receives.mem.grants = [] ∧ (in4 0 4).cls = 0 ∧ (in4 4 4).cls = 4 ∧ (rd 0).cls ≠ 4 ∧ ({ rd 0 with cls := 1 } : Packet).cls ≠ 0 ∧
    genCase (some rx4) (rd 0) = .stale ∧ genCase none (rd 0) = .unknown ∧ genCase none { rd 0 with newflow := true } = .fresh ∧
    (genCase (receives.rxFlow (flowOf (in4 0 4))) (in4 0 4) = .current ∧ receives.rxFlow (flowOf (in4 0 4)) = some rx4) ∧
    (512 ≤ ((in4 0 516).seq - rx4.next).toNat ∧ ((in4 0 516).seq - rx4.next).toNat < 2147483648) ∧
    2147483648 ≤ ((in4 4 3).seq - rx4.next).toNat ∧
    (({ rx4 with held := [in4 0 6] } : RxFlow).held.any (fun h => h.seq = (in4 0 6).seq) = true ∧ ((in4 0 6).seq - rx4.next).toNat < 512) ∧
    (((in4 0 4).seq - rx4.next).toNat = 0 ∧ rx4.held = [] ∧ receives.storeFull = false ∧ rx4.unacked + 1 < receives.ackCountNow) ∧
    receives.ackCountNow ≤ ({ rx4 with unacked := receives.ackCountNow - 1 } : RxFlow).unacked + 1 ∧ receives.fab.sink.length < 1024 ∧
    1024 ≤ ({ receives.fab with sink := List.replicate 1024 pk0 } : FabSt).sink.length ∧
    (0 < ((in4 0 515).seq - rx4.next).toNat ∧ ((in4 0 515).seq - rx4.next).toNat < 512 ∧
      rx4.held.any (fun h => h.seq = (in4 0 515).seq) = false ∧ receives.reorderUsed (receives.tileOf 0) + storeSize (in4 0 515) ≤ 2097152 ∧
      rx4.held.all (fun h => h.seq ≠ rx4.next) = true) ∧
    (receives.rxFlow 0 = some rx4 ∧ rx4.firstUnacked = some 0 ∧ 0 + 1000 * ackTime receives.chart.active ≤ 1000 ∧
      999 < 0 + 1000 * ackTime receives.chart.active) := by decide +kernel
theorem witness_FlowReceiver_full : fillsStore.storeFull = true := by
  show decide (65536 ≤ (List.replicate 65536 pk0).length) = true
  rw [List.length_replicate]; rfl
/-- A package with one request recorded, to core 0, whose segment in tier 1 it covers. -/
def serving (rq : Packet) : Pkg :=
  { (stored 1).put F.AON_PKG_ADDR_ADDR 1 with chart := receives.chart, fab := { receives.fab with inbound := [rq] } }
theorem witness_FlowReceiver_serve : up.fab.inbound = [] ∧ up.fab.mesh = [] ∧
    (let rq := { rd 1 with want := storeBytes + 1 }
     let k := serving rq
     (k.fab.inbound = [rq] ∧ k.fab.mesh = [] ∧ k.fab.stalled = [] ∧ (∀ e ∈ k.fab.rx, e.1 / 128 % 8 = 0 → e.2.held = [] ∧ e.2.unacked < k.ackCountNow) ∧
       rq.pkg = false ∧ addrRack (epPkg rq.src) = k.rackNo ∧ k.paused (epCore rq.dst) = false) ∧ k.coreDark 0 = false ∧ k.pstate 0 < 2 ∧
     rq.opcode = opRead ∧ k.tierDark 0 1 0 rq.want = false ∧ k.spaceIsolated (tierSpace 0 1 0).1 (tierSpace 0 1 0).2 rq.want = false ∧
     k.mem.poison = [] ∧ expectsResponse rq.opcode = true) ∧
    (dark (.core 0) up).coreDark (epCore (rd 0).dst) = true ∧ expectsResponse 3 = false := by decide +kernel
theorem witness_FlowReceiver_place : (serving { rd 1 with want := storeBytes + 1 }).locate 0 (bits (rd 1).addr.toNat 0 44) (storeBytes + 1) =
    .place 1 0 0 := by
  have h : bits (rd 1).addr.toNat 0 44 = 0 := by decide +kernel
  rw [h]; unfold Pkg.locate; rw [if_neg (no_window 0)]; decide +kernel
def lately : Pkg := { up with dark := { incAt := [(0, 0), (192, 0)] } }
theorem witness_UnitResets : DarkUnit.core 0 ≠ .package ∧ up.resetReady (.core 0) ≤ 0 ∧ 0 < lately.resetReady (.core 0) ∧ 0 < lately.resetReady .package ∧
    (let k := { up with dark := { heldResets := [.core 0] } }
     k.dark.heldResets.contains (.core 0) = true ∧ k.resetReady (.core 0) ≤ 0) ∧
    (let k := { up with dark := { heldResets := [.package] } }
     k.dark.heldResets.contains .package = true ∧ k.resetReady .package ≤ 0 ∧ ((one k).posn (PkgId.tray p0) (PkgId.pos p0)).step ≠ 4) ∧
    up.dark.heldResets.contains (.core 0) = false ∧ up.flt.fencedAt = none ∧
    (let k := { up with flt := { up.flt with fencedAt := some 0 } }
     k.flt.fencedAt = some 0 ∧ 0 + 100000000 ≤ 100000000 ∧ k.resetReady .package ≤ 100000000 ∧ (99999999 : Nat) < 0 + 100000000) ∧
    (one up).quarantined p0 = [] ∧ up.resetReady .package ≤ 0 ∧ (15 : Nat) < 16 ∧ (7 : Nat) < 8 ∧ (16 : Nat) ≤ 16 ∧ (8 : Nat) ≤ 8 ∧
    up.unitState 251 < 3 ∧ 3 ≤ (up.setUnit 251 { state := 3 }).unitState 251 := by decide +kernel

/-! ### Casts, tally rounds, maps and Bearing search -/

/-- A row cast to core 0 at the package that expects SEQ 4 of that flow. -/
def rowCast : Packet := { pk0 with opcode := 0x11, cls := 2, castKind := 2, epoch := true, fgen := 1, seq := 4 }
def hearsCasts : Pkg := charted.setRx (flowOf rowCast) rx4
/-- A cast on tree 1, which comes to the root from its bridge or to package 1 from package 0. -/
def treeCast : Packet := { rowCast with castKind := 1, tree := 1 }
def rootPkg : Pkg := { up with regs := (charted.put F.AON_PKG_ADDR_ADDR 0).regs, chart := charted.chart }
theorem witness_Casts : charted.coreDark 0 = false ∧
    (charted.treeHeld 1 = false ∧ onTree (charted.tree 1) charted.idx = true ∧ ([] : List Byte).length ≤ 32 + 64 * (treeBuffer (charted.tree 1) - 1)) ∧
    ¬ (List.replicate 481 (0 : Byte)).length ≤ 32 + 64 * (treeBuffer (charted.tree 1) - 1) ∧
    ((turnAt 3 1 5 2 fun c => { c with bank2 := true, shadow := image 2 1 [] }).coreDark 0 = false ∧
      (turnAt 3 1 5 2 fun c => { c with bank2 := true, shadow := image 2 1 [] }).treeHeld 1 = true) ∧
    up.tables true = [] ∧ (charted.tables true ≠ [] ∧ onTree (charted.tree 2) charted.idx = false) ∧
    (treeCast.cls = 2 ∧ treeCast.castKind = 1 ∧ charted.tables treeCast.epoch ≠ [] ∧ onTree (charted.tree treeCast.tree.toNat) charted.idx = true ∧
      charted.serves treeCast = true ∧ charted.isPlane 0 = false) ∧
    (1 ∈ rootPkg.treePorts 1 ∧ (rootPkg.port 1).state ≠ .peerDark ∧ rootPkg.isPlane 5 = false ∧ rootPkg.serves treeCast = true ∧
      rootPkg.tables treeCast.epoch ≠ [] ∧ onTree (rootPkg.tree 1) rootPkg.idx = true) ∧
    (rowCast.cls = 2 ∧ rowCast.castKind = 2 ∧ hearsCasts.tables rowCast.epoch ≠ [] ∧ bits rowCast.dst.toNat 0 6 < 48 ∧
      hearsCasts.coreDark (epCore rowCast.dst) = false ∧ hearsCasts.pstate (epCore rowCast.dst) < 2 ∧ hearsCasts.mem.grants = [] ∧
      genCase (hearsCasts.rxFlow (flowOf rowCast)) rowCast = .current ∧ hearsCasts.rxFlow (flowOf rowCast) = some rx4 ∧ rowCast.seq = rx4.next ∧
      rx4.held = []) := by decide +kernel
theorem witness_Casts_write : (serving pk0).locate 0 0 (storeBytes + 1) = .place 1 0 0 ∧ (serving pk0).tierDark 0 1 0 (storeBytes + 1) = false ∧
    (serving pk0).spaceIsolated (tierSpace 0 1 0).1 (tierSpace 0 1 0).2 (storeBytes + 1) = false := by
  refine ⟨?_, by decide +kernel⟩
  unfold Pkg.locate; rw [if_neg (no_window 0)]; decide +kernel
/-- A whole round's contribution: SUM of one 32-bit element. -/
def merged : MergeSlot := ⟨1, 0, opSum, 0, 0, 4, 1, [], [], false, false, false, 0⟩
theorem witness_TallyRounds : (charted.coreDark 0 = false ∧ charted.treeHeld 1 = false ∧ onTree (charted.tree 1) charted.idx = true ∧
      treeReverse (charted.tree 1) = true ∧ sfind charted.tally.last (64 * 0 + 1) = none ∧ charted.tally.slots = [] ∧ charted.tally.waiting = [] ∧
      charted.tally.closed.contains (1, 1) = false ∧ 0 < charted.window charted.idx (treeRoot (charted.tree 1)) charted.rackNo 3 ∧
      treeChildren (charted.tree 1) charted.idx = [] ∧ treeRoot (charted.tree 1) ≠ charted.idx ∧ treeParent (charted.tree 1) charted.idx = some (0, 0) ∧
      (charted.port 0).state ≠ .peerDark ∧ (charted.put (F.FAB_TREE_STATE_LOCAL 1 1) 1).get (F.FAB_TREE_STATE_LOCAL (1 % 2) 1) = 1) ∧
    (tFormat 0 ≤ 3 ∧ tK 0 = 0 ∧ 4 % elemBytes (tFormat 0) = 0 ∧ 4 ≤ (leBytes 4 1).length ∧ (leBytes 4 1).length ≤ 4096) ∧
    (tFormat (4 * 2 ^ 44 + 2 ^ 49) = 4 ∧ tK (4 * 2 ^ 44 + 2 ^ 49) = 1 ∧ (leBytes 8 1).length % 8 = 0 ∧
      topSorted 4 (tDesc (4 * 2 ^ 44 + 2 ^ 49)) (elements 4 (leBytes 8 1)) = true) ∧
    (sfind ({ last := [(1, 1)] } : TallySt).last (64 * 0 + 1) = some 1 ∧ serialGt (0 : Word) 1 = false ∧ serialGt (2 : Word) 1 = true) ∧
    up.dark.dark.any (fun e => engineOf e.1 192) = false ∧ (dark (.core 0) up).coreDark 0 = true ∧
    (turnAt 3 1 5 2 fun c => { c with bank2 := true, shadow := image 2 1 [] }).treeHeld 1 = true ∧
    charted.tallyExpected 0 { pk0 with cls := 3, tree := 2 } = false ∧
    (let k := rootPkg.put (F.FAB_TREE_STATE_LOCAL 1 1) 1
     k.tallyExpected 1 { pk0 with cls := 3, tree := 1 } = true ∧ k.tally.slots = [] ∧ k.tally.waiting = [] ∧ k.tally.closed.contains (1, 0) = false ∧
       k.isPlane 1 = false ∧ 1 ≤ k.get (F.FAB_TREE_STATE_LOCAL (1 % 2) 1)) ∧
    ({ closed := [(1, 0)] } : TallySt).closed.contains (1, 0) = true ∧
    (merged.tree = 1 ∧ merged.seq = 0 ∧ merged.closed = false ∧ merged.openedAt + 100000 * up.get (F.FAB_TREE_CFG_MERGE_WAIT 0) ≤ 1000000000 ∧
      0 < merged.openedAt + 100000 * up.get (F.FAB_TREE_CFG_MERGE_WAIT 0)) := by decide +kernel
theorem witness_MapsAndWeights : up.pkgDark = false ∧ (dark .package up).pkgDark = true ∧
    (up.time 791999 < 8000 * up.idx ∧ up.time 792000 = 8000 * up.idx ∧ up.fab.reported = 0 ∧ (up.port (20 + (one up).mapAgent 0)).state ≠ .peerDark) ∧
    ([0] : List Word).all weightOk = true ∧ ([0xFF] : List Word).all weightOk = false ∧
    (0 : Nat) < 0 + 1000000 * up.get (F.FAB_TREE_CFG_WEIGHT_HOLD 0) ∧ 0 + 1000000 * up.get (F.FAB_TREE_CFG_WEIGHT_HOLD 0) ≤ 1000000000 := by
  decide +kernel
/-- A SHARD record: shard 0 of collection 1, two sketches of one unit at byte 0 of C-tile 0 of package 1, MERGE_TREE 1. -/
def shard0 : List Byte := leBytes 2 1 ++ leBytes 2 0 ++ [0, 1, 0, 1] ++ leBytes 8 0 ++ leBytes 8 2 ++ [1] ++ leBytes 7 0
/-- A query block of collection 1: UNITS 1, K_SCAN 1, K_MERGE 1. -/
def query1 : List Byte := leBytes 2 1 ++ [1, 0, 1, 0, 1, 0] ++ leBytes 72 0
def sharded : Pkg :=
  { charted with chart := { charted.chart with active := image 1 1 [(6, 1, shard0), (2, 0, leBytes 4000 0), (3, 0, [])] },
                 regs := sinsert (sinsert charted.regs (R.BRG_HOSTQ 0 0) 0x00010001) (R.BRG_HOSTQ 0 1) 0x00010001 }
def query : Query := ⟨query1, [(0, 2, 0)], some 1⟩
theorem witness_BearingQueries : Open (one sharded) p0 .host (R.BRG_HOSTQ_GO 0) ∧ Open (one sharded) p0 .host (R.BRG_CTRL 0) ∧
    sharded.engineOff 0 = false ∧ { sharded with dark := { dark := [(.ctile 0, .reset)] } }.engineOff 0 = true ∧
    sharded.hostBlock 0 = query1 ∧ sharded.takeOutcome 0 query1 = none ∧ sharded.takeOutcome 0 [] = some 3 ∧
    sharded.takeOutcome 1 query1 = some 1 ∧ (sharded.engine 0).running = none ∧ (sharded.engine 0).queue = [] := by unfold Open; decide +kernel
theorem witness_BearingQueries_run : (sharded.setEngine 0 { queue := [query] }).engine 0 = { queue := [query] } ∧
    (sharded.setEngine 0 { queue := [query] }).engineOff 0 = false ∧ (sharded.setEngine 0 { running := some query }).engine 0 = { running := some query } ∧
    (sharded.setEngine 0 { running := some query, lost := true }).engine 0 = { running := some query, lost := true } ∧
    ([query] : List Query).getLast? = some query ∧ sharded.coreDark 0 = false ∧ sharded.pstate 0 < 2 ∧ sharded.mem.written = [] ∧
    sharded.claspBars none 0 0 80 = none ∧ (sharded.setRg (R.BRG_QCFG 0) 0).areaBlock 0 0 0 query1 = some query1 ∧
    (∀ u, u < 4 → u ≠ 0 → (sharded.setRg (R.BRG_QCFG 0) 0).areaBlock u 0 0 query1 = none) ∧
    (∀ u, u < 4 → sharded.get (F.BRG_QCFG_STEWARD u) ≠ 191) ∧ sharded.mem.writes = [] ∧ 1572784 + query1.length ≤ 1572864 ∧
    ((naps 2).coreDark 0 = false ∧ 2 ≤ (naps 2).pstate 0 ∧ (naps 2).mem.written = []) ∧ (dark (.core 0) sharded).coreDark 0 = true ∧
    ((sharded.setEngine 0 { running := some query, dead := [0] }).engine 0).dead ≠ [] ∧
    (let e := (sharded.setEngine 0 { running := some query }).engine 0
     e.lost = false ∧ e.dead = [] ∧ e.before = []) := by decide +kernel
theorem witness_ScanKeepsNearest : ((0, 2, 0), 1) ∈ scanOrder query.shards ∧ (linesOf (memKey p0 0 16) 16).any ([] : List Nat).contains = false ∧
    distance (memRead ((List.range 16).map fun i => (memKey p0 0 16 + i, 0)) (memKey p0 0 16) 16) (slice query1 64 16) ≤ (if qMaxDist query1 = 0xFFFF then 2048 else qMaxDist query1) := by
  decide +kernel

/-! ### Power and heat of a package, power and coolant of a rack -/

theorem witness_PackageCapsAndBrake : Open (one up) p0 .cw R.PWR_LADDER_CAP ∧ Open (one up) p0 .host R.PWR_HOST_CAP ∧
    (150 ≤ (150 : Word).toNat % 2048 ∧ (1150 : Word).toNat % 2048 ≤ 1150 ∧ (1150 : Word).toNat % 2048 % 5 = 0) ∧
    ¬ (150 ≤ (149 : Word).toNat % 2048) ∧ ¬ ((1152 : Word).toNat % 2048 % 5 = 0) := by unfold Open; decide +kernel
def fed : RackSt := { feedA := true, feedB := true, flowProven := true }
theorem witness_PackageCapsAndBrake_line : (49999 : Nat) < 50000 ∧ ({} : RackSt).feedA = false ∧ fed.feedA = true ∧ fed.feedB = true ∧
    State.reset.noHelm 0 ∧ (helmed {} fed).helmActs 0 almA ∧ (∀ e ∈ fed.caps, fed.acked.contains e.1 = false) ∧
    { fed with caps := [(0, 150)] }.acked.contains 0 = false ∧ max fed.brakeAt 0 + 10000000 ≤ 10000000 ∧ (9999999 : Nat) < max fed.brakeAt 0 + 10000000 ∧
    fed.effCap 40000 ≤ fed.single ∧ { fed with capacity := true }.single < { fed with capacity := true }.effCap 132000 ∧
    (51999 : Nat) < 52000 ∧ (1000 : Nat) < 1001 ∧ { fed with brakeTest := true }.testUntil ≤ 0 ∧ fed.brakeTest = false := by
  unfold State.noHelm State.helmActs; decide +kernel
/-- A package whose four C-tiles are at a point and RATE. -/
def atPoint (point rate : Nat) : Pkg :=
  (List.range 4).foldl (fun k t => (k.put (F.PWR_TILE_STATE_POINT t) point).put (F.PWR_TILE_STATE_RATE t) rate) (up.put F.PWR_BRAKE_RATE 64)
def judged (sum ticks rmin : Nat) : Pkg :=
  (atPoint 1 64).setPwr fun x => { x with ticks := ticks, rateSum := [(0, sum)], rateMin := [(0, rmin)] }
theorem witness_GovernorAndBrake : (atPoint 0 1).rate 0 < 64 ∧ (atPoint 0 1).rate 0 < (atPoint 0 1).rateLimit 0 ∧
    ((atPoint 0 1).put F.PWR_BRAKE_LINE 1).braked = true ∧ (atPoint 0 1).tileFurled 0 = false ∧ (atPoint 0 1).effective ≤ 150 ∧
    (atPoint 0 1).excess 151 = true ∧ (atPoint 0 1).excess 0 = false ∧ (atPoint 5 1).get F.PWR_CAP_STATUS_UNMET = 0 ∧
    1 ≤ (atPoint 5 1).brakeRate ∧ (∀ t, t < 4 → (atPoint 5 1).point t = 5 ∧ (atPoint 5 1).rate t = 1 ∧ 1 ≤ (atPoint 5 1).frate t ∧
      1 ≤ sget 64 (atPoint 5 1).thr.probeLimit t) ∧ (atPoint 5 1).effective < 151 ∧ (atPoint 0 1).isStepping 0 = false ∧ (atPoint 0 1).point 0 < 5 ∧
    ¬ ((atPoint 0 1).point 0 = 5 ∧ (atPoint 0 1).rate 0 = 1) ∧ (atPoint 0 64).rate 0 = 64 := by decide +kernel
theorem witness_GovernorAndBrake_points : (judged 40 1 64).isStepping 0 = false ∧ 0 < (judged 40 1 64).pwr.ticks ∧
    sget 0 (judged 40 1 64).pwr.rateSum 0 ≤ 40 * 1 ∧ (judged 40 1 64).point 0 < 5 ∧ 40 * 1 < sget 0 (judged 41 1 64).pwr.rateSum 0 ∧
    sget 64 (judged 41 1 64).pwr.rateMin 0 = 64 ∧ 100 * ([] : List Nat).getD 0 0 < 85 * ((judged 41 1 64).put (F.PWR_TILE_STATE_LIMIT_W 0) 1).get
      (F.PWR_TILE_STATE_LIMIT_W 0) ∧ 0 < (judged 41 1 64).point 0 ∧ (judged 41 1 64).braked = false ∧
    ((judged 41 1 64).put F.PWR_BRAKE_LINE 1).braked = true ∧
    (let k := (atPoint 0 1).startStep 0 4
     sfind k.pwr.stepping 0 = some 4 ∧ k.excess 151 = true ∧ k.excess 0 = false ∧ k.rate 0 = 1 ∧ k.tileFurled 0 = false) := by decide +kernel
theorem witness_DroopAndAgeing : (up.setPoint 0 - up.droopMv 0 - 1) + up.droopMv 0 < up.setPoint 0 ∧
    up.setPoint 0 ≤ (up.setPoint 0 - up.droopMv 0) + up.droopMv 0 ∧ up.pwr.skipping.contains 0 = false ∧ min 1048575 (up.get F.PWR_AGE_HOURS_HOURS + 1) % 1000 ≠ 0 ∧
    min 1048575 ((up.put F.PWR_AGE_HOURS_HOURS 999).get F.PWR_AGE_HOURS_HOURS + 1) % 1000 = 0 ∧ sfind up.pwr.guardAt 0 = none ∧
    ((up.put F.THR_SEA_TRIAL_ACTIVE 1).put F.THR_SEA_TRIAL_LOAD_MS 60000).get F.THR_SEA_TRIAL_LOAD_MS = 60000 ∧
    up.get F.THR_RESIST_EST_SEEDED = 0 ∧ up.get F.THR_SEA_TRIAL_ACTIVE ≠ 1 := by decide +kernel
theorem witness_RackPower : minSum [] ≤ 0 ∧ State.reset.noHelm 0 ∧ (helmed {} fed).helmActs 0 almA ∧ fed.refuseCap {} 40000 = none ∧
    fed.effCap 40000 < { fed with overheadW := 40001 }.overheadW + minSum ({} : AlmLog).capsChart ∧
    ({ fed with capacity := true } : RackSt).capacity = true ∧ fed.feed true = true ∧ { fed with feedBack := some 0 }.feedBack = some 0 ∧
    ({ fed with feedLostHold := true }.feed false = true ∧ { fed with feedLostHold := true }.feedLostHold = true) ∧
    { fed with inputs := [(0, 300, 200)] }.inputs ≠ [] ∧ (59999999999 : Nat) < ({} : RackSt).started + 60000000000 ∧
    (183 < 184 ∧ 206 < 207 ∧ 264 < 265 ∧ 300 < 301 ∧ 270 < 271 ∧ 60000 < 60001 ∧ 56000 < 56001 ∧ 47999 < 48000 ∧ 51999 < 52000 ∧ 209 < 210) ∧
    (39999 < 40000 ∧ 132000 < 132001 ∧ 40001 % 500 ≠ 0 ∧ 132000 % 500 = 0) ∧ ({} : RackSt).feedA = false ∧ (helmed {} fed).helm 0 = some almA ∧ State.reset.helm 0 = none := by
  unfold State.noHelm State.helmActs; decide +kernel
theorem witness_CoolantAlarms : (helmed {} fed).helmActs 0 almA ∧ cduOk .flowCap 0 = false ∧ cduOk .flowCap 1200 = true ∧
    69 * (({} : AlmLog).withCdu .dtMax 50).flowCap * (({} : AlmLog).withCdu .dtMax 50).dtMax < 100 * 132000 ∧
    100 * ({} : AlmLog).siteCapW ≤ 69 * (({} : AlmLog).withCdu .flowCap 1200).flowCap * (({} : AlmLog).withCdu .flowCap 1200).dtMax ∧
    { fed with flowLimited := true }.flowLimited = true ∧ (450 : Int) < 451 ∧ (550 : Int) < 551 ∧ (440 : Int) < 441 ∧ (280 : Int) < 281 ∧ (149 : Nat) < 150 ∧ ({} : RackSt).flowLimited = false ∧
    ({} : RackSt).inletHigh = false ∧ { fed with inletHigh := true }.inletHigh = true ∧
    ({} : AlmLog).turnT0 = none := by unfold State.helmActs; decide +kernel
theorem witness_CoolantAndResistance : (150 ≤ 570 ∧ 570 ≤ 1200) ∧ TrayId.pkgAt t0 0 = some p0 ∧
    ((withTray up { pos := [(0, { resetN := true })] }).posn t0 0).resetN = true ∧ (State.reset.posn t0 0).resetN = false ∧
    (TrayId.pkgAt ⟨0, 24⟩ 0 = none) ∧ up.get F.UPD_STATUS_PAUSED = 0 ∧ Open (one up) p0 .cw R.THR_COOLANT ∧ (501000000 : Nat) ≤ 501000000 ∧
    ((up.setRg R.THR_COOLANT 480).put F.THR_RESIST_EST_EST 570).noSample 0 = false ∧ up.noSample 0 = true ∧ 2000 ≤ (-2000 : Int).natAbs ∧
    (up.put F.THR_RESIST_CFG_PROBE_EN 0).get F.THR_RESIST_CFG_PROBE_EN = 0 ∧ (up.put F.THR_RESIST_CFG_PROBE_EN 1).get F.THR_RESIST_CFG_PROBE_EN ≠ 0 ∧
    0 + 1000000000 * up.get F.THR_RESIST_CFG_PROBE_IDLE ≤ 10 ^ 15 ∧ up.braked = false ∧ up.thr.probeAt.isSome = false ∧
    (up.put F.THR_RESIST_EST_EST 570).est ≠ 0 ∧ (up.put F.THR_RESIST_EST_EST 0).est = 0 := by unfold Open; decide +kernel
theorem witness_CoolantAndResistance_alarm : (up.put F.THR_RESIST_EST_EST 1000).get F.THR_RESIST_CFG_ALARM ≤ (up.put F.THR_RESIST_EST_EST 1200).est ∧
    (up.put F.THR_RESIST_EST_EST 150).est + 20 < up.get F.THR_RESIST_CFG_ALARM ∧ up.thr.rawLow = false := by decide +kernel
theorem witness_ForecastAndTrips : up.pwr.govHold = false ∧ up.thr.sensorBad.contains 0 = false ∧ up.alarmLive 3 = false ∧
    (1679 : BitVec 16).toNat < 1680 ∧ (1839 : BitVec 16).toNat < 1840 ∧ up.thr.sensorBad = [] ∧ (1680 : BitVec 16).toNat = 1680 ∧ (up.put F.THR_ALARM_LIVE 8).alarmLive 3 = true ∧ up.thr.shutdown = false ∧
    (1840 : BitVec 16).toNat = 1840 ∧ (up.raise 0 (det 255 4) 0 0).pkgDark = up.pkgDark := by decide +kernel
/-- The host has written W0–W2 of a heading of 1 ms at core 0 from a start. -/
def headed (start n : Nat) : Pkg :=
  (((up.headWrite .host 0 (BitVec.ofNat 32 start)).headWrite .host 2 0x00010000)).setThr fun x => { x with headings := List.replicate n ⟨0, 5, 0, 0⟩ }
theorem witness_HeadingsAndRotation : Open (one (headed 0 31)) p0 .host R.THR_HEAD_W3 ∧ (headed 0 31).headWord .host 2 = 0x10000 ∧
    bits ((headed 0 31).headWord .host 2) 16 8 = 1 ∧ ¬ (2 ^ 24 ≤ (headed 0 31).headWord .host 2) ∧ up.headWord .host 2 = 0 ∧ bits 0 16 8 = 0 ∧
    32 ≤ (headed 0 32).thr.headings.length ∧ (headed 0 31).thr.headings.length < 32 ∧ (headed 0 31).time 999999 < 0 + 1 * 1000000 ∧
    0 + 1 * 1000000 ≤ (headed 0 31).time 1000000 ∧ (headed 0 1).thr.headings[0]? = some ⟨0, 5, 0, 0⟩ ∧ (5 : Nat) ≤ up.time 5 ∧ up.time 4 < 5 ∧
    sfind up.thr.rotas 0 = none ∧ (headed 0 31).coreIdleForever (headCore 0) = false ∧ (headed 0 31).aon.slots.length < 8 := by
  unfold Open; decide +kernel
def rota1 : Rota := ⟨[0, 1], 10, 0, 0, false⟩
theorem witness_HeadingsAndRotation_rota : sfind (up.setRota 0 rota1).thr.rotas 0 = some rota1 ∧ up.mayRotate rota1 = true ∧ rota1.migrating = false ∧
    rota1.due ≤ 0 ∧ rota1.due + 100000 ≤ 100000 ∧ { rota1 with migrating := true }.migrating = true ∧ up.dbg.wantHalt = [] ∧ up.thr.rotaWait = none ∧
    (1 ≤ rota1.members.length ∧ rota1.members.length ≤ 64) ∧ (99999 : Nat) < rota1.due + 100000 ∧
    (let k := (up.setRota 0 { rota1 with migrating := true }).setThr fun x => { x with rotaWait := some [] }
     k.thr.rotaWait = some [] ∧ (k.setRota 0 { rota1 with migrating := false }).migrates = false) := by decide +kernel

/-! ### The tray controller and the Almanac pair -/

theorem witness_CommandMessages : up.mctpUp = true ∧ ({} : Pkg).mctpUp = false ∧ { up.pkc with hbSeq := some 5 }.hbSeq = some 5 ∧
    up.pkc.hbSeq ≠ some 5 ∧ { up.pkc with run := .lifeboat }.run = .lifeboat ∧ up.pkc.run = .running ∧ up.pkc.bootDone = true ∧
    { up.pkc with bootDone := false }.bootDone = false ∧ up.pkc.holdCourse = false ∧ { up.pkc with holdCourse := true }.holdCourse = true ∧
    up.paused_ = false ∧ (30000000 : Nat) < 30000001 ∧ (0x0E : Byte).toNat % 16 = 14 ∧ (0x8F : Byte).toNat % 16 = 15 ∧
    wordOffsets R.FLT_COUNTS 2 (bit (0x82 : Byte).toNat 7) = [R.FLT_COUNTS, R.FLT_COUNTS] ∧ up.busRefuses 0x1FFFC 4 = true ∧
    up.busRefuses R.FLT_COUNTS 4 = false ∧ (up.blockDomains R.FLT_COUNTS).all up.domainOn = true ∧ up.aon.deferred = [] := by decide +kernel
/-- Rack 0 with a helm that names epoch 2, package 0 under it and attested. -/
def attested : State :=
  ((helmed { activeChart := imgOf 2 2 } fed).setTray t0 { pos := [(0, { attested := true })] }).setPkg p0
    ((up.put F.CHT_SLOT_STATUS_ACTIVE_STATE 2).setRg R.CHT_ACTIVE_EPOCH 2)
theorem witness_CommandMessages_admit : attested.mayAdmit p0 = true ∧ (one up).mayAdmit p0 = false ∧
    ((one up).posn (PkgId.tray p0) (PkgId.pos p0)).attested = false ∧ (attested.pkg p0).pkc.run = .running ∧
    attested.namedEpoch 0 ≠ some 3 ∧ ({} : Pkg).get F.CHT_SLOT_STATUS_ACTIVE_STATE = 0 ∧ up.pkc.hbAt = none ∧ (29999999 : Nat) < 0 + 30000000 := by
  decide +kernel
/-- A DRA_SET that reads the register at offset 0, with its PEC. -/
def draRead : List Byte := [1, 0, 0, 0, 0, BitVec.ofNat 8 (crc8 [1, 0, 0, 0, 0])]
theorem witness_DirectRegisterAccess : { up.pkc with draStatus := 3 }.draStatus = 3 ∧ up.pkc.draStatus ≠ 3 ∧ draBad draRead = none ∧
    draBad [1, 0, 0, 0, 0] = some 2 ∧ draBad [0, 0, 0, 0, 0, BitVec.ofNat 8 (crc8 [0, 0, 0, 0, 0])] = some 4 ∧
    crc8 (([1, 0, 0, 0, 0, 0] : List Byte).take 5) ≠ u8 [1, 0, 0, 0, 0, 0] 5 ∧ up.busRefuses (draOffset draRead) 4 = false ∧
    up.busRefuses 0x1FFFC 4 = true ∧ (∀ o ∈ up.goodWords (draOp draRead), (up.blockDomains o).all up.domainOn = true) ∧
    TrayId.pkgAt t0 0 = some p0 ∧ TrayId.pkgAt ⟨0, 24⟩ 0 = none ∧ up.pkc.run ≠ .reset ∧ ({} : Pkg).pkc.run = .reset ∧
    ({} : Pkg).pkc.draStatus ≠ 3 ∧ { ({} : Pkg).pkc with draStatus := 3 }.run = .reset ∧
    ((one {}).rack p0.rack).rackNumber < 32 ∧ draCount draRead = 1 ∧
    (∀ w ∈ (draOp draRead).words, up.busRefuses w.1 4 = false) := by decide +kernel
theorem witness_StandardMessages : up.mctpUp = true ∧ (2 : Byte) ≠ 0xFF ∧ up.pkc.spdmStep < 1 ∧ 3 ≤ { up.pkc with spdmStep := 3 }.spdmStep ∧
    bit (0x80 : Word).toNat 7 = true ∧ bit (2 : Word).toNat 1 = true ∧ bit (0 : Word).toNat 7 = false ∧
    ((one up).posn (PkgId.tray p0) (PkgId.pos p0)).step ≠ 8 := by decide +kernel
/-- A tray whose golden copies hold an image for position 0 that no key verifies. -/
def gold1 : Golden := ⟨1, 0, 1, true, true, [1]⟩
def posAt (x : PosSt) : State := ((withTray {} { running := true, nor0 := [gold1], pos := [(0, x)] }).setRack 0 fed).setAlm almA { role := .helm }
theorem witness_BringUp : TrayId.pkgAt t0 0 = some p0 ∧ PkgId.tray p0 = t0 ∧ PkgId.pos p0 = 0 ∧
    ((posAt { latchOpen := true }).posn t0 0).latchOpen = true ∧ ((posAt { serial := 7 }).posn t0 0).pwrEn = false ∧
    ((posAt {}).rack 0).flowProven = true ∧ (State.reset.rack 0).flowProven = false ∧ ((posAt {}).tray t0).golden 1 0 = some gold1 ∧
    ((posAt {}).tray t0).matches [] gold1 = false ∧ ((posAt { blocked := true }).posn t0 0).blocked = true ∧
    ((posAt { pwrEn := true }).posn t0 0).pwrGood = false ∧ (State.reset.quarantined p0).any holdsPackage = false ∧
    ({ posAt {} with almanacs := [] }.setAlm almA { role := .helm, log := { quarantine := [(p0.key, 255)] } }).quarantined p0 = [255] ∧
    ((posAt { step := 5, pwrEn := true }).posn t0 0).step = 5 ∧ (posAt {}).helm 0 ≠ none ∧ State.reset.helm 0 = none := by decide +kernel
theorem witness_BringUp_boot : ({} : Pkg).est = 0 ∧ (up.put F.THR_RESIST_EST_EST 570).est ≠ 0 ∧ { up.pkc with run := .booting }.run = .booting ∧
    up.rg R.AON_PKG_ADDR = 0xFFFF ∧ (up.put F.AON_PKG_ADDR_ADDR 1).rg R.AON_PKG_ADDR ≠ 0xFFFF ∧
    ((posAt { step := 7, misses := 1 }).posn t0 0).bootSrc ≠ 3 ∧ (10000000000 : Nat) ≤ 0 + 10000000000 ∧
    ((posAt { step := 8, attestFails := 1 }).posn t0 0).attestFails ≠ 0 ∧ bits (0x0800000000000000 : BitVec 64).toNat 56 8 = 8 ∧
    ((posAt { unseated := false }).posn t0 0).unseated = false ∧
    (({} : CwSt).golden 1 0 = none ∧ ({} : CwSt).busbarWait = false ∧ { busbarWait := true : CwSt }.busbarWait = true) ∧
    { latchOpen := true, pwrEn := true : PosSt }.pwrEn = true ∧ ((posAt { pwrEn := true, pwrGood := true }).posn t0 0).pwrGood = true ∧
    ((posAt {}).rack p0.rack).rackNumber < 32 ∧ 3 ≤ { up.pkc with spdmStep := 3 }.spdmStep := by decide +kernel
theorem witness_TrayController : ((posAt {}).tray t0).golden 2 0 = none ∧ { (posAt {}).tray t0 with nor0 := [{ gold1 with kind := 2 }] }.golden 2 0 =
      some { gold1 with kind := 2 } ∧ ((posAt { step := 2 }).posn t0 0).step = 2 ∧ ((posAt { step := 2 }).posn t0 0).pwrGood = false ∧
    ((posAt { resetN := true, serial := 7 }).posn t0 0).resetN = true ∧ up.mctpUp = true ∧
    (4 : Word).toNat < { (posAt {}).tray t0 with epochSeen := 5 }.epochSeen.toNat ∧ ((posAt {}).tray t0).epochSeen.toNat ≤ (0 : Word).toNat ∧
    (let c : CwSt := { chipOut := [chipKey 5 0] }
     c.switchUp = true ∧ ((posAt {}).tray ⟨0, 24⟩).switchUp = false ∧ (posAt {}).router (.meridian 0 0) = {} ∧ ({} : RouterSt).port 0 = {}) ∧
    ((posAt { resetN := true, step := 5 }).posn t0 0).resetN = true ∧ ((one {}).pkg p0).mctpUp = false := by decide +kernel
/-- Both managers in given roles, and tray 0 of their rack running. -/
def pair (a b : AlmSt) : State := ((State.reset.setAlm almA a).setAlm almB b).setTray t0 { running := true }
theorem witness_HelmLease : ((pair { role := .helm } {}).alm almA).role = .helm ∧ ((pair { role := .standby } {}).alm almA).role = .standby ∧
    (400000000 : Nat) ≤ 0 + 400000000 ∧ ((pair {} {}).tray t0).running = true ∧ t0.rack = almA.rack ∧ ((pair {} {}).tray t0).grants 0 1 = true ∧
    { (pair {} {}).tray t0 with renewAt := some 0 }.grants 399999999 1 = false ∧ { (pair {} {}).tray t0 with renewAt := some 0 }.grants 400000000 1 = true ∧
    ((pair {} {}).tray t0).grants 0 0 = false ∧ { running := true, renewAt := some 0, relinquished := some 0 : CwSt }.grants 0 1 = true ∧
    15 ≤ (List.range 15).length ∧ (List.range 14).length < 15 ∧ (50000000 : Nat) ≤ 0 + 50000000 ∧
    ((pair { role := .booting } { role := .helm }).alm almB).role = .helm ∧ AlmId.peer almA = almB ∧ (10000000000 : Nat) ≤ 0 + 10000000000 ∧
    ({} : AlmSt).role = .off ∧ (0 : Nat) < 2 ^ 63 := by decide +kernel
theorem witness_HelmLease_peer : ((pair { role := .helm } { role := .helm, log := { epoch := 1 } }).alm almB).log.epoch.toNat < (2 : Word).toNat ∧
    ((pair { role := .helm, log := { epoch := 2 } } { role := .adrift }).alm almB).role = .adrift ∧
    ((pair { role := .helm, log := { epoch := 2 } } {}).alm almA).log.epoch = 2 := by decide +kernel
theorem witness_StreamsAndFencing : ((pair { role := .standby } { role := .helm }).alm almA).role = .standby ∧
    sfind { seqSeen := [(0, 5)] : CwSt }.seqSeen (4 * idemIndex .cap + 0) = some 5 ∧ (5 : BitVec 64).toNat ≤ (5 : BitVec 64).toNat ∧
    (5 : BitVec 64).toNat < (6 : BitVec 64).toNat ∧ sfind ({} : CwSt).seqSeen 0 = none ∧ TrayId.pkgAt t0 0 = some p0 ∧
    ((posAt { resetN := true, step := 5 }).posn t0 0).resetN = true ∧ (150 : Word).toNat % 5 = 0 ∧ (4 : Word).toNat < (5 : Word).toNat ∧
    ((pair { role := .syncing } { role := .helm }).alm almA).role = .syncing ∧ { role := .booting, updatedAt := some 0 : AlmSt }.updatedAt = some 0 ∧
    (300000000000 : Nat) ≤ 0 + 300000000000 ∧ (⟨0, 24⟩ : TrayId).slot.val = 24 + (0 : Fin 4).val ∧ (pair { role := .helm } {}).helm 0 = some almA := by
  decide +kernel
theorem witness_OperatorActions : State.reset.noHelm 0 ∧ (helmed {} fed).helmActs 0 almA ∧ (helmed {} fed).refuseTurn almA [] = none ∧
    (helmed { turnT0 := some 0 } fed).refuseTurn almA [] = some "BUSY" ∧ p0.rack = almA.rack ∧ (⟨1, 0, 0⟩ : PkgId).rack ≠ almA.rack ∧
    (31 : Nat) < 32 ∧ isKeyRecord [] = false ∧ targetRack (.pkc p0) = almA.rack ∧ targetRack (.pkc ⟨1, 0, 0⟩) ≠ almA.rack ∧
    ((pair { role := .helm } { role := .standby }).alm (AlmId.peer almA)).role = .standby ∧
    ({} : AlmLog).siteCapW ≤ { fed with psuFault := addTo fed.psuFault 0 }.single ∧ ({} : RackSt).pumpBad.contains 1 = false ∧
    chEpoch (imgOf 3 2) % 2 = 1 ∧ (chEpoch (imgOf 2 2) % 2 = 0 ∧ ({} : AlmLog).activeChart = []) ∧
    (imgOf 1 2 ≠ [] ∧ chSafe (imgOf 1 2) = false) := by
  unfold State.noHelm State.helmActs; decide +kernel
/-- The fleet image of one rack: rack 0 is the flagship, has no successor and no peer, and its one region enters at once. -/
def fleetSecs : List (Nat × List Byte) :=
  [(3, [0xFF, 0, 0xFF, 0xFF, 0xFF, 0, 0, 0] ++ leBytes 8 1 ++ (List.range 32).flatMap (fun _ => [0xFF, 0xFF, 0, 0]) ++ List.replicate 1152 0xFF),
   (9, [0, 1, 0, 0] ++ leBytes 12 1), (10, leBytes 112 0)]
def fleetImg : List Byte :=
  let entry (o at_ len : Nat) : List Byte := (secName o).map (BitVec.ofNat 8) ++ leBytes 4 at_ ++ leBytes 4 len
  let head := [0x43, 0x48, 0x52, 0x54, 1, 0] ++ leBytes 2 256 ++ leBytes 4 2 ++ [2, 3, 0, 0] ++ leBytes 4 0x6C0 ++ leBytes 44 0 ++
    (entry 3 0x110 1296 ++ entry 9 0x630 16 ++ entry 10 0x650 112) ++ leBytes 136 0
  head ++ leBytes 8 (crc64 head) ++ fleetSecs.flatMap fun x => leBytes 8 (crc64 x.2) ++ leBytes 4 1 ++ [1, 0, 0, 0] ++ x.2
/-- A rack image compiled from it. -/
def rackImg : List Byte := leBytes 0x18 0 ++ leBytes 4 2 ++ leBytes 4 0 ++ leBytes 8 (chHeaderCheck fleetImg)
set_option maxRecDepth 20000 in
theorem fleet_form : fleetFormOk fleetImg = true := by decide +kernel
set_option maxRecDepth 20000 in
theorem fleet_parent : parentsAgree fleetImg [rackImg] = true := by decide +kernel
theorem fleet_block : fleetBlock fleetImg 0 = 0x120 ∧ fleetRacks fleetImg = [0] := by decide +kernel
theorem fleet_peers : (slice fleetImg 0x1A0 1152).all (· = 0xFF) = true := by decide +kernel
/-- No bundle of that fleet image names a peer. -/
theorem fleet_bundle {p q : Nat} (hp : p < 4) (hq : q < 144) : bundlePeer fleetImg 0 p q = none := by
  have h := List.all_eq_true.mp fleet_peers
  have n : (slice fleetImg 0x1A0 1152).length = 1152 := by decide +kernel
  have e : u8 fleetImg (0x1A0 + (288 * p + 2 * q)) = 0xFF := by
    have b : 288 * p + 2 * q < (slice fleetImg 0x1A0 1152).length := by omega
    have := h _ (List.getElem_mem b)
    simp only [slice, List.getElem_take, List.getElem_drop, decide_eq_true_eq] at this
    rw [u8, List.getD_eq_getElem?_getD, List.getElem?_eq_getElem (by simp only [slice, List.length_take, List.length_drop] at b; omega),
      Option.getD_some, this]
    rfl
  have o : 0x120 + 0x80 + 288 * p + 2 * q = 0x1A0 + (288 * p + 2 * q) := by omega
  simp only [bundlePeer, fleetBundle, fleet_block.1, o, e, if_true]
theorem fleet_route : fleetRouteOk fleetImg = true := by
  have free (q : Nat) : freePort fleetImg q || q / 4 = 0 := by
    by_cases h : q / 4 = 0
    · simp [h]
    · have : (fleetRacks fleetImg).contains (q / 4) = false := by rw [fleet_block.2]; simp [h]
      simp only [fleetRacks, List.contains_eq_mem, List.mem_filter, List.mem_range, decide_eq_false_iff_not, not_and] at this
      simp only [freePort, Bool.or_eq_true, decide_eq_true_eq, Bool.not_eq_true']
      by_cases k : 128 ≤ q
      · exact .inl (.inl k)
      · exact .inl (.inr (by simpa using this (by omega)))
  have ports : ∀ p < 4, ∀ q < 144, bundlePortOk fleetImg 0 p q = true := fun p hp q hq => by
    simp only [bundlePortOk, fleet_bundle hp hq, free q, Bool.true_or]
  simp only [fleetRouteOk, fleet_block.2, List.all_cons, List.all_nil, Bool.and_true]
  have a : (List.range 4).all (fun p => (List.range 144).all (bundlePortOk fleetImg 0 p)) = true := by
    simp only [List.all_eq_true, List.mem_range]; exact ports
  rw [a, Bool.and_true]; decide +kernel
theorem witness_OperatorActions_reissue : 0x100 ≤ fleetImg.length ∧ 0x110 ≤ (sec fleetImg 10).1 ∧ chEpoch fleetImg % 2 = 0 := by decide +kernel
/-- Rack 0 with a helm and a fleet. -/
def fleeted (f : FleetSt) : State := { helmed { term := 1 } fed with fleet := f }
/-- Package 0 takes part in a turn of that fleet: it is in a phase of it, and has committed its region. -/
def fleetPkg (ph : Nat) : Pkg :=
  { turnAt ph 2 5 1 id with pkc := { up.pkc with admitted := true },
                            chart := { active := imgOf 1 1, shadow := imgOf 2 1, goEpoch := 2, committed := [0], fleet := some (0, 0) } }
def turning (f : FleetSt) (ph : Nat) : State :=
  (fleeted { f with turnT0 := some 0, turnImages := [(0, imgOf 2 1)], turnImage := fleetImg }).setPkg p0 (fleetPkg ph)
theorem witness_FleetRoles : (fleeted {}).helm 0 = some almA ∧ ({} : FleetSt).leads 0 = true ∧ { members := [1], flagship := 1 : FleetSt }.leads 0 = false ∧
    State.reset.helm 0 = none ∧ (0 : Word).toNat < ((fleeted {}).alm almA).log.term.toNat ∧ ((fleeted {}).alm almA).log.term.toNat ≤ (1 : Word).toNat ∧
    ((fleeted {}).fleet.members = [] ∧ (fleeted { members := [0] }).fleet.members ≠ []) ∧
    (let s := turning {} 3
     s.fleet.turnImages.find? (fun e => e.1 = (0 : Fin 32).val) = some (0, imgOf 2 1) ∧ s.fleet.turnT0 = some 0) := by decide +kernel
theorem witness_FleetRoles_order : ((fleeted { members := [0] }).fleetOrderOk fleetImg [(0, rackImg)] true = true ∧
      (fleeted { members := [0] }).helm 0 = some almA ∧ (fleeted { members := [0] }).fleet.leads 0 = true ∧
      (fleeted { members := [0] }).fleet.turnT0 = none) ∧
    (fleeted { members := [0] }).fleetOrderOk fleetImg [(0, rackImg)] false = false := by
  have m : (fleeted { members := [0] }).memberOf 0 = some 0 := by decide +kernel
  have i : fleetImageOk fleetImg = true := by
    rw [fleetImageOk, fleet_form, fleet_route]; decide +kernel
  refine ⟨⟨?_, by decide +kernel⟩, rfl⟩
  simp [State.fleetOrderOk, i, fleet_parent, fleet_block.2, m]
theorem witness_FleetRoles_commits : (let s := turning {} 3
     s.helm 0 ≠ none ∧ s.fleet.leads 0 = true ∧ s.fleet.turnT0 ≠ none ∧ s.fleet.withdrawing = none ∧ s.rackCommitted 0 = true ∧
       (s.regionRacks s.fleet.turnRegion).all (addTo s.fleet.turnCommits (0 : Fin 32).val).contains = true) ∧
    (turning {} 2).rackCommitted 0 = false ∧ (turning {} 3).regionRacks 0 = [0] ∧
    ([0] : List Nat).all (addTo [] 1).contains = false := by decide +kernel
theorem witness_FleetRoles_regions : lastRegion fleetImg ≤ 0 ∧ 0 < lastRegion (imgOf 1 2) := by decide +kernel
/-- The flagship, rack 1, has had no helm since time 0, and rack 0 is its first successor with one. -/
def leaderless : State := { fleeted { members := [0, 1], flagship := 1, successors := [0], lostAt := some 0 } with now := 2000000000 }
theorem witness_FleetRoles_takeover : ((leaderless.fleet.successors.filter fun r => (leaderless.helm (rackAt r)).isSome).head? = some (0 : Fin 32).val) ∧
    leaderless.helm (rackAt leaderless.fleet.flagship) = none ∧ leaderless.fleet.lostAt = some 0 ∧ 0 + 2000000000 ≤ leaderless.now ∧
    leaderless.fleet.isolated.contains 0 = false ∧ 1 ∈ leaderless.fleet.members ∧ 1 ≠ (0 : Fin 32).val ∧
    (fleeted { members := [0, 1] }).ptpRole almA = .none ∧ (({ fleeted { members := [0, 1] } with almanacs := [] }.setAlm almA
      { role := .helm, ptp := true }).ptpRole almA) = .grandmaster := by decide +kernel
theorem witness_FleetRoles_withdraw : (let s := { turning {} 5 with now := 1000000 }
     s.fleet.turnT0 = some 0 ∧ s.fleet.withdrawing = none ∧ (s.fleet.turnImages.findSome? (fun e =>
       (s.rackFailure (rackAt e.1) e.2 0).map fun c => (e.1, c))).isSome = true) ∧
    (turning { withdrawing := some [0] } 5).fleet.withdrawing = some (0 :: []) ∧ (turning { withdrawing := some [] } 5).fleet.withdrawing = some [] ∧
    ((turning { withdrawing := some [] } 5).pkg p0).chart.fleet.isSome = true ∧ p0.rack = rackAt 0 ∧ (⟨1, 0, 0⟩ : PkgId).rack ≠ rackAt 0 := by
  decide +kernel

/-! ### Faults, updates and debug -/

def quar (u : Nat) : Pkg := up.setQuar u true
theorem witness_DetectorEvents : (2944 : Nat) ≤ 2944 ∧ (2943 : Nat) < 2944 ∧ 0 ≠ det 253 0 ∧ up.shadowed 1 = false ∧ detClass 1 ≠ clsCE ∧
    detClass 3 = clsCE ∧ detClass (det 250 0) = clsFT ∧ ({ up with flt := { reactions := [⟨1, 0, 0, 1⟩] } } : Pkg).shadowed 0 = true ∧
    sfind up.flt.pend 0 = none ∧ sfind ({ pend := [(0, ⟨clsUC, 1, 0, 1, 5⟩)] } : FltSt).pend 0 ≠ none ∧ up.flt.lwOnly = false ∧ up.quarBit 0 = false ∧
    (up.unit 0).state = 0 := by decide +kernel
/-- A package with one event in slot 0 whose grace ends at 5. -/
def pends (cls d : Nat) : Pkg := { up with flt := { pend := [(0, ⟨cls, d, detUnit d, 1, 5⟩)] } }
theorem witness_GraceAndVerdicts : sfind (pends clsUC 1).flt.pend 0 = some ⟨clsUC, 1, 0, 1, 5⟩ ∧ noIsolation ⟨clsUC, 1, 0, 1, 5⟩ = false ∧
    noIsolation ⟨clsUC, det 255 0, 255, 1, 5⟩ = true ∧ (pends clsUC 1).unitState 0 < 3 ∧ (5 : Nat) ≤ 5 ∧ (4 : Nat) < 5 ∧
    (pends clsFT (det 250 0)).get F.FLT_STATUS_FENCED = 0 ∧ Open (one (pends clsUC 1)) p0 .host R.FLT_HANDLE ∧ clsFT ≠ clsUC := by
  unfold Open; decide +kernel
def reacts (r : Reaction) : Pkg := { up with flt := { reactions := [r] } }
def unitAt (x : UnitSt) : Pkg := { up with flt := { units := [(5, x)] } }
/-- A link port that is isolated returns to training when its F-tile's reset ends, and one that is quarantined stays HELD_DOWN. -/
theorem witness_RecoveryAndQuarantine_port :
    (let k := { (reacts ⟨2, 0, 208, 1⟩).setUnit 208 { state := 3 } with rt := { ports := [(0, { state := .heldDown })] } }
     k.flt.reactions.find? (fun r => 1 ≤ r.kind && r.kind ≤ 6 && r.unit = 208) = some ⟨2, 0, 208, 1⟩ ∧ k.scopeHeld (2, 0) = false ∧
     k.unitState 208 = 3 ∧ (k.port 0).state = .heldDown ∧ (k.setQuar 208 true).unitState 208 = 4) ∧
    (reacts ⟨5, 0, 251, 1⟩).flt.reactions.find? (fun r => 1 ≤ r.kind && r.kind ≤ 6 && r.unit = 251) = some ⟨5, 0, 251, 1⟩ := by decide +kernel
theorem witness_RecoveryAndQuarantine : (reacts ⟨0, 5, 5, 1⟩).flt.reactions.find? (fun r => r.kind = 0 && r.index = 5) = some ⟨0, 5, 5, 1⟩ ∧
    (reacts ⟨1, 0, 5, 1⟩).flt.reactions.find? (fun r => 1 ≤ r.kind && r.kind ≤ 6 && r.unit = 5) = some ⟨1, 0, 5, 1⟩ ∧
    (reacts ⟨1, 0, 5, 1⟩).scopeHeld (1, 0) = false ∧
    ({ reacts ⟨1, 0, 5, 1⟩ with dark := { heldResets := [.ctile 0] } } : Pkg).scopeHeld (1, 0) = true ∧ up.scopeOf 254 = none ∧
    (reacts ⟨8, 0, 248, 1⟩).flt.reactions[0]? = some ⟨8, 0, 248, 1⟩ ∧ (unitAt { state := 1 }).unitState 5 = 1 ∧
    (unitAt { state := 2 }).unitState 5 = 2 ∧ ((unitAt { state := 2 }).unit 5).lastUc + 60000000000 ≤ 60000000000 ∧
    ((unitAt { state := 2, exits := [0, 0, 0] }).unit 5).exits.length = 3 ∧ (∀ e ∈ ([0, 0, 0] : List Nat), up.time 0 < e + dayNs) ∧
    (unitAt { state := 2 }).recoveries 0 5 < 3 ∧ Open (one (quar 5)) p0 .cw R.FLT_RELEASE ∧ bit (0x105 : Word).toNat 8 = true ∧
    (0x105 : Word).toNat % 256 = 5 ∧ (quar 5).quarBit 5 = true ∧ up.quarBit 5 = false ∧ up.scopeOf 5 = some (1, 0) ∧
    Open (one up) p0 .host R.FLT_LW_CLEAR := by unfold Open; decide +kernel
def upd (x : UpdSt) : Pkg := { up with upd := x }
theorem witness_UpdateSequence : up.mctpUp = true ∧ up.upd.requested = false ∧ (upd { requested := true }).upd.requested = true ∧
    (up.put F.UPD_STATUS_PAUSED 1).paused_ = true ∧ (up.put F.UPD_STATUS_STAGE 3).stage = 3 ∧ (2 : BitVec 16) ≠ 1 ∧
    (upd { component := some 1, size := 1025 }).upd.component ≠ none ∧
    (([] : List Byte) ++ (List.replicate 1024 0).take (min 1024 (1025 - 0))).length < 1025 ∧
    1024 ≤ (([] : List Byte) ++ (List.replicate 1024 0).take (min 1024 (1024 - 0))).length ∧
    ((upd { component := some 1, complete := true }).put F.UPD_STATUS_STAGE 1).stage = 1 ∧
    ((upd { component := some 1 }).put F.UPD_STATUS_STAGE 2).stage = 2 ∧
    (applyPatch [] [] 1 bankBytes []).1 ≠ 0 ∧ (applyPatch keys0 [] 1 bankBytes patch0).1 = 0 ∧ (upd { component := some 1, verified := some 0 }).upd.verified = some 0 ∧ up.turning = false ∧
    (up.put F.UPD_STATUS_LIFEBOAT 1).lifeboat = true := by decide +kernel
theorem witness_TransferTimeout : (upd { component := some 1 }).upd.component ≠ none ∧ (upd { component := some 1 }).upd.complete = false ∧
    (upd { component := some 1 }).upd.askedAt + 5000000000 ≤ 5000000000 := by decide +kernel
theorem witness_TrialsAndPushes_promotion : ({ keys := keys0 : CwSt }.matches image0 ⟨1, 0, 1, false, true, image0⟩) = true ∧
    ({ upd := { bank0 := image0 } : Pkg }).bankImg 0 = image0 ∧ ({ upd := { bank0 := image0 } : Pkg }).activeBank = 0 ∧
    ({ pkc := { run := .running } : Pkg }).pkc.run = .running ∧ TrayId.pkgAt t0 0 = some p0 ∧
    { nor0 := [⟨1, 0, 1, false, true, image0⟩] : CwSt }.staged 1 0 = some ⟨1, 0, 1, false, true, image0⟩ ∧
    { nor0 := [⟨3, 0, 1, false, true, [1]⟩] : CwSt }.staged 3 0 = some ⟨3, 0, 1, false, true, [1]⟩ ∧
    { running := true, bootFlash := [1] : CwSt }.bootFlash = [1] := by decide +kernel
theorem witness_TrialsAndPushes : up.upd.trial = none ∧ (upd { trial := some (false, 0) }).upd.trial = some (false, 0) ∧
    (upd { trial := some (true, 0) }).upd.trial = some (true, 0) ∧ (60000000 : Nat) ≤ 0 + 60000000 ∧
    Open (one { up with pkc := { run := .lifeboat } }) p0 .host R.UPD_PUSH_CTRL ∧ ({ up with pkc := { run := .romWait } } : Pkg).pushOpen = true ∧
    up.pushOpen = false ∧ Open (one up) p0 .host R.UPD_PUSH_DATA ∧ (upd { pushing := true }).upd.pushing = true ∧
    (([] : List Byte) ++ leBytes 4 0).length < ((up.put F.UPD_PUSH_LEN_LEN 8).get F.UPD_PUSH_LEN_LEN) ∧
    (applyPatch [] [] 1 bankBytes (leBytes 4 0)).1 ≠ 0 ∧ (applyPatch keys0 [] 1 bankBytes (patch0.take 380 ++ leBytes 4 (leAt patch0 380 4))).1 = 0 ∧ stagedFind [{ gold1 with gold := false }] 1 0 = some { gold1 with gold := false } ∧
    stagedFind [gold1] 1 0 = none ∧ { nor0 := [⟨6, 0, 1, false, true, [1]⟩] : CwSt }.staged 6 0 = some ⟨6, 0, 1, false, true, [1]⟩ ∧
    trailerOk [] [1] = false ∧ trailerOk keys0 image0 = true := by unfold Open; decide +kernel
/-- The MGMT_ACCESS data register of a write of a word at the word offset of a register. -/
def jtagWrite (off : Nat) (w : Word) : BitVec 64 := BitVec.ofNat 64 (w.toNat * 2 ^ 32 + off + 2)
/-- The bridge is open and position 0 selects MGMT_ACCESS. -/
def jtagged (k : Pkg) : State := withTray k { debugOpen := true, pos := [(0, { ir := 0x20 })] }
theorem witness_DebugBridge : (4 : Word).toNat < { epochSeen := 5 : CwSt }.epochSeen.toNat ∧ ({} : CwSt).debugOpen = false ∧
    (List.replicate 8 true).length = 8 ∧ ({ ir := 0x20 } : PosSt).ir = 0x20 ∧ ({} : PosSt).ir = 0x01 ∧ TrayId.pkgAt t0 0 = some p0 ∧
    (jtagged up).reaches p0 .jtag = true ∧ up.busRefuses 0x1FFFC 4 = true ∧ Open (jtagged up) p0 .jtag R.FLT_COUNTS ∧
    4 * bits (R.FLT_COUNTS + 0) 2 24 = R.FLT_COUNTS ∧ (dim.blockDomains (R.BRG_CTRL 0)).any (fun d => !dim.domainOn d) = true ∧
    dim.busRefuses (R.BRG_CTRL 0) 4 = false ∧ bits ((jtagWrite (R.DBG_ROUTE_OVR 0) 0xF0FF0017).truncate 32 : Word).toNat 1 1 = 1 ∧
    bits (0xFFFFF017 : Word).toNat 28 3 = 7 ∧ bits (0xFFFFF017 : Word).toNat 20 8 = 255 ∧ bits (0xFFFFF017 : Word).toNat 0 9 ≤ 23 ∧
    Open (jtagged up) p0 .jtag (R.DBG_ROUTE_OVR 0) := by unfold Open; decide +kernel
def halted : Pkg := up.put (F.CORE_DBG_STATUS_HALTED 0) 1
def traced (ring : Nat) (n : Nat) : Pkg :=
  { (((up.put (F.DBG_TRACE_CTRL_RING 0) ring).put ⟨R.DBG_TRACE_CTRL 0, 0, 1⟩ 1).setRg (R.DBG_TRACE_PORTS 0) 0x03FFFFFF).setRg (R.DBG_TRACE_MATCH 0)
      0x0070FFFF with dbg := { trace0 := List.replicate n ⟨pk0, 0, 0, 0, false, 0⟩ } }
theorem witness_HaltsAndTraces : Open (jtagged halted) p0 .jtag (R.CORE_DBG_CTRL 0) ∧ halted.coreHalted 0 = true ∧ up.coreDark 0 = false ∧
    up.coreHalted 0 = false ∧ sfind up.dbg.defers 0 = none ∧ up.pstate 0 = 0 ∧ up.paused 0 = false ∧ 2 ≤ (naps 2).pstate 0 ∧ up.claspsOf 0 = 0 ∧
    (clasped ⟨1, 0, 0, [], 0, false⟩).claspsOf 0 ≠ 0 ∧ sfind ({ defers := [(0, (0, 1))] } : DbgSt).defers 0 = some (0, 1) ∧
    (cyclesNs (up.coreMhz 0) 4096 ≤ cyclesNs (up.coreMhz 0) 4096 ∧ 0 < cyclesNs (up.coreMhz 0) 4096) ∧ (up.setRg (R.CORE_DBG_BP_LO 0 0) 0x41).breakAt 0 0 = some 0x40 ∧ up.running 0 = true ∧
    up.breakAt 0 0 = none := by unfold Open; decide +kernel
theorem witness_HaltsAndTraces_trace : (traced 0 0).traceMatch 0 0 false pk0 = true ∧ up.traceMatch 0 0 false pk0 = false ∧
    (traced 1 0).get (F.DBG_TRACE_CTRL_RING 0) = 1 ∧ (traced 0 1023).dbg.trace0.length < 1024 ∧ 1024 ≤ (traced 0 1024).dbg.trace0.length ∧
    Open (jtagged (traced 0 0)) p0 .jtag (R.DBG_TRACE_CTRL 0) := by unfold Open; decide +kernel

/-! ### Values that the spec's tables and passages state -/

/-- Table 4.2: the check values over the ASCII bytes "123456789". -/
def ascii9 : List Byte := (List.range 9).map fun i => BitVec.ofNat 8 (0x31 + i)
theorem test_crc32c : crcFinal false (crcAbsorb false (crcInit false) ascii9) = 0xE3069283 := by decide +kernel
theorem test_crc64 : crcFinal true (crcAbsorb true (crcInit true) ascii9) = 0x6C40DF5F0B497347 := by decide +kernel
/-- Chapter 1: 3.5.11 has package address 0x01DB and rack index 71. -/
theorem test_package_address : addrOf 3 71 = 0x1DB ∧ addrIndex 0x1DB = 71 ∧ addrRack 0x1DB = 3 := by decide +kernel
/-- Table 5.9: the section lengths of the example, which end at 0xFC70. -/
theorem test_section_lengths : (List.range 10).map (fun i => secLength 1 (i + 1) (([0, 96, 96, 2, 4, 8, 2, 96, 8, 1] : List Nat).getD i 0)) =
    [0x4A00, 0xF00, 0x9510, 0x340, 0x100, 0x100, 0x90, 0x600, 0x80, 0x70] := by decide +kernel
/-- Table 8.4: the merged round 7 of tree 5. -/
def round7 : List (List Byte) :=
  let e (k i : Nat) : List Byte := leBytes 8 (k * 2 ^ 48 + i)
  [e 12 0x100000041 ++ e 19 0x100000007 ++ e 40 0x1000000A2, e 9 0x200000010 ++ e 19 0x200000003 ++ e 55 0x200000099,
    e 12 0x300000001 ++ e 30 0x300000020 ++ e 31 0x300000021]
theorem test_topk_round : combine opTopk 0x0008400000040000 round7 =
    (leBytes 8 0x0009000200000010 ++ leBytes 8 0x000C000100000041 ++ leBytes 8 0x000C000300000001 ++ leBytes 8 0x0013000100000007, false) := by
  decide +kernel
/-- Chapter 8: FAB_TREE_STATE of tree 5 at its root and at its two members. -/
def tree5 : List Byte :=
  [5, 1, 0x47, 0, 8, 0, 0, 0, 0, 0, 0, 0, 8, 0, 0, 0, 0x81, 0, 0, 0] ++ leBytes 12 0 ++ leBytes 140 0 ++ [0, 0, 0, 1] ++ leBytes 112 0 ++
    [0, 0, 0, 1] ++ leBytes 24 0 ++ [0x10, 0x40, 0, 1] ++ leBytes 96 0
def at5 (n : Nat) : Pkg :=
  { (up.put F.AON_PKG_ADDR_ADDR (addrOf 3 n)).put (F.FAB_TREE_STATE_LOCAL 1 5) 1 with chart := { active := image 2 1 [(4, 1, tree5)] } }
def seen (k : Pkg) (off : Nat) : Nat :=
  match findReg off with
  | some d => k.view ⟨0, p0, .host, false, 0, 0⟩ d off
  | none => 0
theorem test_tree_state : seen (at5 71) 0x180214 = 0xDF000001 ∧ seen (at5 64) 0x180214 = 0x8B000001 ∧ seen (at5 35) 0x180214 = 0x91000001 := by
  decide +kernel
/-- Chapter 11: the division of 124.0 kW among 96 packages alike gives each 1,140 W. -/
theorem test_pool_division : (divide 97 80700 ((List.range 96).map fun n => (n, 300, 1))).map (fun r => down5 r.2.1) = List.replicate 96 1140 := by
  decide +kernel
/-- Chapter 12: the sample of 120.000 s and the recompute of 120.100 s. -/
theorem test_resistance_sample : newEst 570 11400 10000 = 580 := by decide +kernel
def fouled : Pkg := (((((up.setRg R.THR_COOLANT 704).put F.THR_RESIST_EST_EST 580).put F.PWR_LADDER_CAP_CAP 1140).put F.PWR_CAP_STATUS_EFFECTIVE 1140))
theorem test_thermal_cap : leaves (.thermalCapCompute p0) (one fouled) (fun t => (t.pkg p0).rg R.THR_CAP == 0x03C503C5 &&
    (t.pkg p0).rg R.PWR_CAP_STATUS == 0x000023C5) = true := by decide +kernel
/-- Chapter 12: the heading of 200.000 s, from the words the host wrote. -/
def wrote3 : Pkg := ((((up.headWrite .host 0 0x91495D80).headWrite .host 1 0x2E).headWrite .host 2 0x001440C2).setAon fun a =>
  { a with timeOff := 200000000000 })
theorem test_heading : leaves (.headingCommit p0 .host 0) (one wrote3) (fun t =>
    (t.pkg p0).thr.headings == [⟨200006000000, 200026000000, 64, 194⟩] && (t.pkg p0).get F.THR_HEAD_STATUS_USED == 1) = true := by decide +kernel
/-- Chapter 15: detector 905 takes slot 0, and its last word. -/
def sixthousand : Pkg := { up with flt := { seq := 0x1A2B } }
theorem test_detector_905 : leaves (.detectorFire p0 905 0 0) (one sixthousand) (fun t => seen (t.pkg p0) (R.FLT_PEND 0) == 0xA3890071 &&
    (t.pkg p0).rg (R.CORE_FAULT_STATUS 113) == 2 && (t.pkg p0).unitState 113 == 2 && (t.pkg p0).flt.seq == 0x1A2C) = true := by decide +kernel
theorem test_fault_status_offset : R.CORE_FAULT_STATUS 113 = 0x4710C0 ∧ R.FLT_UNIT 113 = 0x305C4 := by decide +kernel
theorem test_last_word : lastWord { logEntry clsUC 0 905 113 0 0 with seq := 0x1A2B } = 0x40E25C6B := by decide +kernel
/-- Chapter 15: the quarantine of core 113 reads in FLT_QUAR3. -/
theorem test_quarantine_word : (quar 113).rg (R.FLT_QUAR 3) = 0x00020000 ∧ R.FLT_QUAR 3 = 0x3030C := by decide +kernel
/-- Chapter 18: the sea-trial limit under a ladder cap of 1,140 W. -/
theorem test_sea_limit : seaLimit 1140 = 910 := by decide +kernel

end Sys2Proof.Tests
end

section
/-! PROOF. What a register write does (R13, R14), and that one with a rejected field is refused as a whole (R392). -/

namespace Sys2Proof.Machine
open Sys2Proof

/-! ### Masks of a word -/

/-- Masks that share no bit select no bit together. -/
theorem getLsbD_of_disjoint {m n : Nat} (h : m &&& n = 0) (i : Nat) :
    ((BitVec.ofNat 32 m).getLsbD i && (BitVec.ofNat 32 n).getLsbD i) = false := by
  rw [← BitVec.getLsbD_and, ← BitVec.ofNat_and, h, BitVec.getLsbD_zero]

/-- Clearing bits outside a mask leaves the bits of the mask. -/
theorem sameBits_clear {m n : Nat} (h : m &&& n = 0) (v w : Word) : sameBits m (v &&& ~~~ (w &&& BitVec.ofNat 32 n)) v := by
  refine BitVec.eq_of_getLsbD_eq fun i hi => ?_
  have hd := getLsbD_of_disjoint h i
  simp only [BitVec.getLsbD_and, BitVec.getLsbD_not, hi, decide_true, Bool.true_and]
  grind

/-- The bits of a mask, replaced by those of `w`, are those of `w`. -/
theorem sameBits_replace (m : Nat) (v w : Word) : sameBits m ((v &&& ~~~ BitVec.ofNat 32 m) ||| (w &&& BitVec.ofNat 32 m)) w := by
  refine BitVec.eq_of_getLsbD_eq fun i hi => ?_
  simp only [BitVec.getLsbD_and, BitVec.getLsbD_or, BitVec.getLsbD_not, hi, decide_true, Bool.true_and]
  grind

/-- A field of one bit outside a mask leaves the bits of the mask. -/
theorem sameBits_putBits {m lo : Nat} (h : m.testBit lo = false) (w : Word) (v : Nat) : sameBits m (putBits w lo 1 v) w := by
  refine BitVec.eq_of_getLsbD_eq fun i hi => ?_
  have hp := putBits_bit w lo 1 v i hi
  simp only [BitVec.testBit_toNat] at hp
  simp only [BitVec.getLsbD_and, hp]
  by_cases hlo : i = lo
  · subst hlo
    simp [BitVec.getLsbD_ofNat, h]
  · rw [if_neg (by omega)]

/-! ### Lines of the register map -/

/-- No bit is of type RW and of type W1C (Table 0.4). -/
theorem rw_disjoint_w1c {off : Nat} {d : RegDesc} (h : findReg off = some d) : d.rw &&& d.w1c = 0 := by
  have hall : (regBlock off).all (fun e => e.rw &&& e.w1c == 0) = true := by
    unfold regBlock
    iterate 14 refine iteInduction (motive := fun t : List RegDesc => t.all (fun e => e.rw &&& e.w1c == 0) = true) (fun _ => by decide) fun _ => ?_
    decide
  exact beq_iff_eq.1 (List.all_eq_true.1 hall d (List.mem_of_find?_eq_some h))

/-- The rejection statuses that writes raise. -/
theorem rejectFlag_cases {b : Nat} {f : Fld} (h : rejectFlag b = some f) :
    f = F.FLT_STATUS_REJECT ∨ f = F.FAB_LINK_CFG_REJECT 0 ∨ f = F.DBG_STATUS_REJECT := by
  unfold rejectFlag at h
  split_ifs at h <;> simp [← Option.some.inj h]

/-- A rejection status is one bit of a register. -/
theorem rejectFlag_width {b : Nat} {f : Fld} (h : rejectFlag b = some f) : f.width = 1 ∧ f.lo + f.width ≤ 32 := by
  rcases rejectFlag_cases h with rfl | rfl | rfl <;> decide

/-- A rejection status that stands in the very register it speaks of is no RW field of it. -/
theorem rejectFlag_not_rw {d : RegDesc} {f : Fld} (hf : rejectFlag d.base = some f) (hd : findReg f.off = some d) :
    d.rw.testBit f.lo = false := by
  have hw : (findReg f.off).all (fun e => !e.rw.testBit f.lo) = true := by
    rcases rejectFlag_cases hf with rfl | rfl | rfl <;> decide +kernel
  simpa [hd] using hw

/-! ### The fields that a write stores -/

theorem Pkg.storeFields_onlyRegs (d : RegDesc) (off : Nat) (w : Word) (k : Pkg) : OnlyRegs k (k.storeFields d off w) := rfl
theorem Pkg.storeFields_rg_ne (d : RegDesc) {off o : Nat} (w : Word) (k : Pkg) (h : o ≠ off) : (k.storeFields d off w).rg o = k.rg o :=
  Pkg.rg_setRg_ne k _ h
theorem Pkg.storeFields_rg (d : RegDesc) (off : Nat) (w : Word) (k : Pkg) : (k.storeFields d off w).rg off =
    ((k.rg off &&& ~~~ BitVec.ofNat 32 d.rw) ||| (w &&& BitVec.ofNat 32 d.rw)) &&& ~~~ (w &&& BitVec.ofNat 32 d.w1c) :=
  Pkg.rg_setRg_same k off _

/-- The RW bits take the written values (R14). -/
theorem Pkg.storeFields_rw {d : RegDesc} (h : d.rw &&& d.w1c = 0) (off : Nat) (w : Word) (k : Pkg) :
    sameBits d.rw ((k.storeFields d off w).rg off) w := by
  rw [Pkg.storeFields_rg]
  exact (sameBits_clear h _ w).trans (sameBits_replace d.rw (k.rg off) w)

/-- The W1C bits are cleared where the write writes 1 (Table 0.4). -/
theorem Pkg.storeFields_w1c {d : RegDesc} (h : d.rw &&& d.w1c = 0) (off : Nat) (w : Word) (k : Pkg) :
    sameBits d.w1c ((k.storeFields d off w).rg off) (k.rg off &&& ~~~ w) := by
  rw [Pkg.storeFields_rg]
  refine BitVec.eq_of_getLsbD_eq fun i hi => ?_
  have hd := getLsbD_of_disjoint h i
  simp only [BitVec.getLsbD_and, BitVec.getLsbD_or, BitVec.getLsbD_not, hi, decide_true, Bool.true_and]
  grind

/-- Bits of neither type are left (R13). -/
theorem Pkg.storeFields_rest (d : RegDesc) (off : Nat) (w : Word) (k : Pkg) :
    (k.storeFields d off w).rg off &&& ~~~ BitVec.ofNat 32 (d.rw ||| d.w1c) = k.rg off &&& ~~~ BitVec.ofNat 32 (d.rw ||| d.w1c) := by
  rw [Pkg.storeFields_rg, BitVec.ofNat_or]
  refine BitVec.eq_of_getLsbD_eq fun i hi => ?_
  simp only [BitVec.getLsbD_and, BitVec.getLsbD_or, BitVec.getLsbD_not, hi, decide_true, Bool.true_and]
  grind

theorem Pkg.storeClears_rg_ne (d : RegDesc) {off o : Nat} (w : Word) (k : Pkg) (h : o ≠ off) : (k.storeClears d off w).rg o = k.rg o :=
  Pkg.rg_setRg_ne k _ h
theorem Pkg.storeClears_rg (d : RegDesc) (off : Nat) (w : Word) (k : Pkg) :
    (k.storeClears d off w).rg off = k.rg off &&& ~~~ (w &&& BitVec.ofNat 32 d.w1c) :=
  Pkg.rg_setRg_same k off _

/-! ### A write that is taken, and one that is refused -/

/-- A register outside `actingRegs` has no action. -/
theorem busAct_of_not_acting (x : Bus) {d : RegDesc} (off : Nat) (w : Word) (m : Mem) (k : Pkg) (h : d.base ∉ actingRegs) :
    busAct x d off w m k = (m, k) := by
  simp only [actingRegs, List.mem_cons, List.not_mem_nil, or_false, not_or] at h
  simp only [busAct, h, if_false, ite_self]

/-- A write that is neither ignored nor rejected, of a register without an action, stores its fields. -/
theorem busWrite_taken {x : Bus} {d : RegDesc} {off : Nat} {w : Word} (m : Mem) {k : Pkg} (ha : d.base ∉ actingRegs)
    (hi : k.ignores x d off w.toNat = false) (hr : k.rejects d.base w.toNat = false) :
    busWrite x d off w m k = (m, k.storeFields d off w) := by
  have hb := ha
  simp only [actingRegs, List.mem_cons, List.not_mem_nil, or_false, not_or] at hb
  simp only [busWrite, hi, hr, hb, false_and, Bool.false_eq_true, if_false, busAct_of_not_acting _ _ _ _ _ ha]

/-- What a refused write leaves of the package (R392): its W1C fields have acted, and the rejection status of the register, where
there is one, is set. -/
def Pkg.refusedWrite (d : RegDesc) (off : Nat) (w : Word) (k : Pkg) : Pkg :=
  ((rejectFlag d.base).map fun f => (k.storeClears d off w).flag f true).getD (k.storeClears d off w)

theorem busWrite_rejected {x : Bus} {d : RegDesc} {off : Nat} {w : Word} (m : Mem) {k : Pkg}
    (hi : k.ignores x d off w.toNat = false) (hr : k.rejects d.base w.toNat = true) :
    busWrite x d off w m k = (m, k.refusedWrite d off w) := by
  simp only [busWrite, hi, hr, Bool.false_eq_true, if_false, if_true, Pkg.refusedWrite]
  cases rejectFlag d.base <;> rfl

theorem Pkg.refusedWrite_of_none {d : RegDesc} (h : rejectFlag d.base = none) (off : Nat) (w : Word) (k : Pkg) :
    k.refusedWrite d off w = k.storeClears d off w := by simp [Pkg.refusedWrite, h]
theorem Pkg.refusedWrite_of_some {d : RegDesc} {f : Fld} (h : rejectFlag d.base = some f) (off : Nat) (w : Word) (k : Pkg) :
    k.refusedWrite d off w = (k.storeClears d off w).flag f true := by simp [Pkg.refusedWrite, h]

theorem Pkg.refusedWrite_onlyRegs (d : RegDesc) (off : Nat) (w : Word) (k : Pkg) : OnlyRegs k (k.refusedWrite d off w) := by
  cases hf : rejectFlag d.base with
  | none => rw [Pkg.refusedWrite_of_none hf]; rfl
  | some f => rw [Pkg.refusedWrite_of_some hf]; rfl

/-- Outside the register of its rejection status, a refused write leaves what its W1C fields leave. -/
theorem Pkg.refusedWrite_rg_ne {d : RegDesc} {o : Nat} (h : ∀ f, rejectFlag d.base = some f → o ≠ f.off) (off : Nat) (w : Word) (k : Pkg) :
    (k.refusedWrite d off w).rg o = (k.storeClears d off w).rg o := by
  cases hf : rejectFlag d.base with
  | none => rw [Pkg.refusedWrite_of_none hf]
  | some f => rw [Pkg.refusedWrite_of_some hf]; exact Pkg.rg_setRg_ne _ _ (h f hf)

/-- The rejection status ends set, even where the write writes 1 to it (R392). -/
theorem Pkg.refusedWrite_flag {d : RegDesc} {f : Fld} (h : rejectFlag d.base = some f) (off : Nat) (w : Word) (k : Pkg) :
    (k.refusedWrite d off w).get f = 1 := by
  obtain ⟨hw, hl⟩ := rejectFlag_width h
  rw [Pkg.refusedWrite_of_some h, Pkg.flag, Pkg.get_put_same _ _ _ hl, hw]
  rfl

/-- Every RW field of the register keeps its value (R392). -/
theorem Pkg.refusedWrite_rw {off : Nat} {d : RegDesc} (hd : findReg off = some d) (w : Word) (k : Pkg) :
    sameBits d.rw ((k.refusedWrite d off w).rg off) (k.rg off) := by
  have hc : sameBits d.rw ((k.storeClears d off w).rg off) (k.rg off) := by
    rw [Pkg.storeClears_rg]
    exact sameBits_clear (rw_disjoint_w1c hd) _ _
  by_cases hs : ∀ f, rejectFlag d.base = some f → off ≠ f.off
  · rwa [Pkg.refusedWrite_rg_ne hs]
  · push Not at hs
    obtain ⟨f, hf, rfl⟩ := hs
    rw [Pkg.refusedWrite_of_some hf, Pkg.flag, Pkg.put, Pkg.rg_setRg_same, (rejectFlag_width hf).1]
    exact (sameBits_putBits (rejectFlag_not_rw hf hd) _ _).trans hc

/-! ### The command -/

/-- A register write through an open window that changes nothing but registers leaves what it wrote, and completes. -/
theorem exec_registerWrite {s : State} {p : PkgId} {who : Requester} {off : BitVec 25} {w : Word} {d : RegDesc} {k : Pkg}
    (ho : Open s p who off.toNat) (hd : findReg off.toNat = some d) (hl : off.toNat < 2 ^ 24) (ha : off.toNat % 4 = 0)
    (hw : busWrite ⟨s.now, p, who, false, s.upIn p.rack, Config.freeWord s.free⟩ d off.toNat w s.mem (s.pkg p) = (s.mem, k))
    (hk : OnlyRegs (s.pkg p) k) : exec (.registerWrite p who off 4 w) s = .next (s.wrote p who off.toNat s.mem k) := by
  have hdark : k.pkgDark = (s.pkg p).pkgDark := by rw [hk]; rfl
  have h := busAccess_write (i := .registerWrite p who off 4 w) rfl ho hd hl ha (by rw [hw]; exact hdark)
  rwa [hw] at h

/-- Settles O5: a taken write stores its fields (`busWrite_taken`), a rejected one leaves `Pkg.refusedWrite` (`busWrite_rejected`), and
either is what the command leaves, for neither touches the package's darkness (`exec_registerWrite`). -/
theorem registerWrites : Obligations.RegisterWrites := by
  constructor
  · intro s p who off w d ho hd hl ha hact hdis hi hr
    have hk := Pkg.storeFields_onlyRegs d off.toNat w (s.pkg p)
    exact ⟨_, exec_registerWrite ho hd hl ha (busWrite_taken s.mem hact hi hr) hk, hk, fun _ h => Pkg.storeFields_rg_ne d w _ h,
      Pkg.storeFields_rw hdis .., Pkg.storeFields_w1c hdis .., Pkg.storeFields_rest ..⟩
  · intro s p who off w d ho hd hl ha hi hr
    have hk := Pkg.refusedWrite_onlyRegs d off.toNat w (s.pkg p)
    refine ⟨_, exec_registerWrite ho hd hl ha (busWrite_rejected s.mem hi hr) hk, hk, fun o h hf => ?_, Pkg.refusedWrite_rw hd .., fun hf => ?_,
      fun f hf => Pkg.refusedWrite_flag hf ..⟩
    · rw [Pkg.refusedWrite_rg_ne hf, Pkg.storeClears_rg_ne d w _ h]
    · rw [Pkg.refusedWrite_rg_ne fun f h => (hf f h).symm, Pkg.storeClears_rg]

end Sys2Proof.Machine
end

section
/-! PROOF. A RequestFirmwareData that the agent leaves unanswered for 5 s ends the transfer (R339). -/

namespace Sys2Proof.Machine
open Sys2Proof

/-! ### Fields of UPD_STATUS -/

/-- A bit that is cleared in a field reads 0. -/
theorem Pkg.bit_clearBits (k : Pkg) (f : Fld) (b : Nat) (h : f.lo + f.width ≤ 32) : bit ((k.clearBits f (2 ^ b)).get f) b = false := by
  rw [Pkg.clearBits, Pkg.get_put_same _ _ _ h, bit, Nat.testBit_mod_two_pow, Nat.testBit_and, Nat.testBit_xor, Nat.testBit_two_pow_sub_one,
    Nat.testBit_two_pow_self]
  by_cases hb : b < f.width <;> simp [hb]

/-- A bank that is marked invalid is not valid. -/
theorem Pkg.bit_bankValid_false (k : Pkg) (b : Nat) : bit ((k.bankValid b false).get F.UPD_STATUS_BANK_VALID) b = false :=
  k.bit_clearBits _ b (by decide)
/-- To mark a bank invalid leaves which bank is active. -/
theorem Pkg.activeBank_bankValid_false (k : Pkg) (b : Nat) : (k.bankValid b false).activeBank = k.activeBank :=
  k.get_put_disjoint F.UPD_STATUS_BANK_VALID _ _ (by decide) rfl (by decide)

/-- STAGE, and the staged version with it, leave the other fields of UPD_STATUS. -/
theorem Pkg.get_putStage_disjoint (k : Pkg) (v : Nat) (g : Fld) (hg : g.lo + g.width ≤ 32) (ho : g.off = R.UPD_STATUS)
    (h : g.lo + g.width ≤ F.UPD_STATUS_STAGE.lo ∨ F.UPD_STATUS_STAGE.lo + F.UPD_STATUS_STAGE.width ≤ g.lo) :
    (k.putStage v).get g = k.get g := by
  have hlo : g.off ≠ R.UPD_STAGED_VERSION_LO := by rw [ho]; decide
  have hhi : g.off ≠ R.UPD_STAGED_VERSION_LO + 4 := by rw [ho]; decide
  rw [← k.get_put_disjoint F.UPD_STATUS_STAGE g v hg ho h]
  simp only [Pkg.get, Pkg.putStage, Pkg.setWide, Pkg.rg_setRg_ne _ _ hhi, Pkg.rg_setRg_ne _ _ hlo]

/-! ### A transfer that ends -/

theorem Pkg.abandonTransfer_of_none {k : Pkg} (h : k.upd.component = none) : k.abandonTransfer = k := by
  simp only [Pkg.abandonTransfer, h]

/-- A transfer ends alike for every component (R339): the inactive bank is marked invalid, STAGE may follow, FAIL becomes CANCELLED and the
transfer is forgotten. -/
theorem Pkg.abandonTransfer_of_some {k : Pkg} {c : BitVec 16} (h : k.upd.component = some c) :
    ∃ j : Pkg, k.abandonTransfer = (j.putFail 6).dropTransfer ∧
      (j = k.bankValid (1 - k.activeBank) false ∨ ∃ v, j = (k.bankValid (1 - k.activeBank) false).putStage v) := by
  simp only [Pkg.abandonTransfer, h]
  refine ⟨_, rfl, ?_⟩
  split_ifs
  · exact .inr ⟨4, rfl⟩
  · exact .inr ⟨0, rfl⟩
  · exact .inl rfl

theorem Pkg.get_endTransfer_fail (k : Pkg) : (k.putFail 6).dropTransfer.get F.UPD_STATUS_FAIL = 6 :=
  k.get_put_same F.UPD_STATUS_FAIL 6 (by decide)
/-- FAIL and the forgotten transfer leave the other fields of UPD_STATUS. -/
theorem Pkg.get_endTransfer_disjoint (k : Pkg) (g : Fld) (hg : g.lo + g.width ≤ F.UPD_STATUS_FAIL.lo) (ho : g.off = R.UPD_STATUS) :
    (k.putFail 6).dropTransfer.get g = k.get g :=
  k.get_put_disjoint F.UPD_STATUS_FAIL g 6 (hg.trans (by decide)) ho (.inl hg)

/-! ### The command -/

/-- 5 s after a request that stands, the transfer ends. -/
theorem exec_firmwareDataTimeout_due {s : State} {p : PkgId} (hc : (s.pkg p).upd.complete = false)
    (ht : (s.pkg p).upd.askedAt + 5000000000 ≤ s.now) :
    exec (.firmwareDataTimeout p) s = .next (s.setPkg p (s.pkg p).abandonTransfer) := by
  change execFirmwareDataTimeout p s = _
  simp [execFirmwareDataTimeout, onPkg, hc, ht]

/-- Before that, or once all data is in, the time does nothing. -/
theorem exec_firmwareDataTimeout_early {s : State} {p : PkgId}
    (h : ¬ ((s.pkg p).upd.complete = false ∧ (s.pkg p).upd.askedAt + 5000000000 ≤ s.now)) :
    exec (.firmwareDataTimeout p) s = .next (s.setPkg p (s.pkg p)) := by
  change execFirmwareDataTimeout p s = _
  simp [execFirmwareDataTimeout, onPkg, h]

/-- Settles O57: `Pkg.abandonTransfer` ends the transfer of any component and marks the inactive bank invalid, and what it puts in STAGE and
FAIL overlaps neither the bank's bit nor the bank pointer. -/
theorem transferTimeout : Obligations.TransferTimeout := by
  intro s p k unanswered
  constructor
  · rintro ⟨hcomp, hc, ht⟩
    obtain ⟨c, hcomp⟩ := Option.ne_none_iff_exists'.1 hcomp
    obtain ⟨j, hj, hstage⟩ := Pkg.abandonTransfer_of_some hcomp
    obtain ⟨hregs, hvalid, hactive⟩ : OnlyRegs k j ∧ bit (j.get F.UPD_STATUS_BANK_VALID) (1 - k.activeBank) = false ∧
        j.activeBank = k.activeBank := by
      have hvalid := k.bit_bankValid_false (1 - k.activeBank)
      have hactive := k.activeBank_bankValid_false (1 - k.activeBank)
      rcases hstage with rfl | ⟨v, rfl⟩
      · exact ⟨rfl, hvalid, hactive⟩
      · refine ⟨rfl, ?_, (Pkg.get_putStage_disjoint _ v F.UPD_STATUS_ACTIVE_BANK (by decide) rfl (by decide)).trans hactive⟩
        rwa [Pkg.get_putStage_disjoint _ _ _ (by decide) rfl (by decide)]
    have hbank0 : j.upd.bank0 = k.upd.bank0 := by rw [hregs]
    have hbank1 : j.upd.bank1 = k.upd.bank1 := by rw [hregs]
    have hout : j.out = k.out := by rw [hregs]
    refine ⟨(j.putFail 6).dropTransfer, hj ▸ exec_firmwareDataTimeout_due hc ht, rfl, rfl, rfl, j.get_endTransfer_fail, ?_,
      (j.get_endTransfer_disjoint _ (by decide) rfl).trans hactive, hbank0, hbank1, hout⟩
    rwa [j.get_endTransfer_disjoint _ (by decide) rfl]
  · intro h
    by_cases hdue : k.upd.complete = false ∧ k.upd.askedAt + 5000000000 ≤ s.now
    · have hnone : k.upd.component = none := by_contra fun hcomp => h ⟨hcomp, hdue⟩
      rw [exec_firmwareDataTimeout_due hdue.1 hdue.2, Pkg.abandonTransfer_of_none hnone]
    · exact exec_firmwareDataTimeout_early hdue

end Sys2Proof.Machine
end

section
/-! PROOF. No command touches the queue or the clock, and every step keeps all storage in canonical form (log 2): what each function that
writes memory leaves of its form, what each change of the machine keeps, and the commands one by one. -/

namespace Sys2Proof.Machine
open Sys2Proof

/-! ### Functions that write memory keep its form -/

theorem wf_foldl {β γ : Type} {f : Mem × γ → β → Mem × γ} (hf : ∀ mk b, Memory.wf mk.1 = true → Memory.wf (f mk b).1 = true) :
    ∀ (l : List β) (mk : Mem × γ), Memory.wf mk.1 = true → Memory.wf (l.foldl f mk).1 = true
  | [], _, h => h
  | b :: l, mk, h => wf_foldl hf l _ (hf mk b h)

theorem wf_foldl_mem {β : Type} {f : Mem → β → Mem} (hf : ∀ m b, Memory.wf m = true → Memory.wf (f m b) = true) :
    ∀ (l : List β) (m : Mem), Memory.wf m = true → Memory.wf (l.foldl f m) = true
  | [], _, h => h
  | b :: l, m, h => wf_foldl_mem hf l _ (hf m b h)

/-- The case split of a function that answers memory beside something else. -/
theorem wf_ite {γ : Type} {c : Prop} [Decidable c] {a b : Mem × γ} (ha : Memory.wf a.1 = true) (hb : Memory.wf b.1 = true) :
    Memory.wf (if c then a else b).1 = true := by
  split_ifs <;> assumption

section
variable {m : Mem} (h : Memory.wf m = true)
include h

theorem wf_storageOp (now : Nat) (p : PkgId) (space off : Nat) (op : Byte) (want : Nat) (payload : List Byte) (k : Pkg) :
    Memory.wf (storageOp now p space off op want payload m k).1 = true :=
  wf_ite h (wf_ite h (wf_ite h (wf_ite (wf_memWrite _ _ _ h) (wf_memWrite _ _ _ h))))

theorem wf_claspedOp (now : Nat) (p : PkgId) (who : Option Nat) (space off : Nat) (op : Byte) (want : Nat) (payload : List Byte) (k : Pkg) :
    Memory.wf (claspedOp now p who space off op want payload m k).1 = true := by
  unfold claspedOp
  dsimp only
  split
  · exact h
  · exact wf_storageOp h ..

theorem wf_coreAccessOp (now : Nat) (p : PkgId) (c : Nat) (a : Access) (k : Pkg) : Memory.wf (coreAccessOp now p c a m k).1 = true := by
  unfold coreAccessOp
  dsimp only
  split
  · exact h
  · exact h
  · exact h
  · refine wf_ite ?_ (wf_ite h (wf_claspedOp h ..))
    split <;> exact h

theorem wf_retryAccesses (now : Nat) (p : PkgId) (k : Pkg) : Memory.wf (retryAccesses now p m k).1 = true :=
  wf_foldl (fun _ e h => wf_coreAccessOp h now p e.1 e.2 _) _ _ h

theorem wf_lentAccess (now : Nat) (p : PkgId) (rq : Packet) (k : Pkg) : Memory.wf (lentAccess now p rq m k).1 = true :=
  wf_ite (wf_ite h (wf_storageOp h ..)) h

theorem wf_eraseStorage (p : PkgId) (c spill : Nat) (st : Storage) : Memory.wf (eraseStorage p c spill st m) = true := by
  unfold eraseStorage
  dsimp only
  split
  · exact h
  · exact wf_memErase _ _ _ h

theorem wf_writeResult (now : Nat) (p : PkgId) (c a : Nat) (data : List Byte) (k : Pkg) :
    Memory.wf (writeResult now p c a data m k).1 = true := by
  refine wf_ite h ?_
  split
  · exact wf_ite h (wf_ite h (wf_claspedOp h ..))
  · exact h
  · exact h

theorem wf_sendRound (now : Nat) (p : PkgId) (x : MergeSlot) (k : Pkg) : Memory.wf (sendRound now p x m k).1 = true := by
  refine wf_ite (wf_ite h (wf_ite h (wf_writeResult h ..))) ?_
  dsimp only
  split <;> exact h

omit h in
theorem wf_flushTree (now : Nat) (p : PkgId) (t : Nat) : ∀ (n : Nat) (mk : Mem × Pkg), Memory.wf mk.1 = true →
    Memory.wf (flushTree now p t n mk).1 = true
  | 0, _, h => h
  | n + 1, (m, k), h => by
    unfold flushTree
    split
    · split_ifs
      · exact h
      · exact h
      · exact wf_flushTree now p t n _ (wf_sendRound h ..)
    · exact h

theorem wf_flushRounds (now : Nat) (p : PkgId) (k : Pkg) : Memory.wf (flushRounds now p m k).1 = true :=
  wf_foldl (fun _ t h => wf_flushTree now p t 33 _ h) _ _ h

omit h in
theorem wf_settle (now : Nat) (p : PkgId) : ∀ (n : Nat) (mk : Mem × Pkg), Memory.wf mk.1 = true → Memory.wf (settle now p n mk).1 = true
  | 0, _, h => h
  | n + 1, mk, h => by
    have hf := wf_flushRounds h now p mk.2
    unfold settle
    dsimp only
    generalize flushRounds now p mk.1 mk.2 = r at hf
    split
    · exact hf
    · exact wf_settle now p n (r.1, _) hf

theorem wf_tallySettle (now : Nat) (p : PkgId) (k : Pkg) : Memory.wf (tallySettle now p m k).1 = true :=
  wf_ite h (wf_settle now p _ _ h)

theorem wf_contribute (now : Nat) (p : PkgId) (op : Byte) (src : Nat) (x : Contribution) (k : Pkg) :
    Memory.wf (contribute now p op src x m k).1 = true := by
  unfold contribute
  split
  · exact h
  · exact wf_tallySettle h ..

omit h in
/-- What delivers a packet keeps the form of memory. -/
def Deliver.Wf (dl : Deliver) : Prop := ∀ pk mk, Memory.wf mk.1 = true → Memory.wf (dl pk mk).1 = true

omit h in
theorem wf_runDeliver {dl : Deliver} (hd : dl.Wf) (key now : Nat) : ∀ (n : Nat) (mk : Mem × Pkg), Memory.wf mk.1 = true →
    Memory.wf (runDeliver dl key now n mk).1 = true
  | 0, _, h => h
  | n + 1, (m, k), h => by
    unfold runDeliver
    split
    · exact h
    · split
      · exact h
      · split
        · exact h
        · exact h
        · exact wf_runDeliver hd key now n _ (hd _ _ h)

omit h in
theorem wf_resumeFlows {dl : Deliver} (hd : dl.Wf) (now cls : Nat) {mk : Mem × Pkg} (h : Memory.wf mk.1 = true) :
    Memory.wf (resumeFlows now dl cls mk).1 = true := by
  refine wf_foldl (fun mk key h => ?_) _ _ h
  exact wf_runDeliver hd key now 513 mk h

theorem wf_receivePacket {dl : Deliver} (hd : dl.Wf) (now : Nat) (pk : Packet) (k : Pkg) :
    Memory.wf (receivePacket now dl pk m k).1 = true := by
  have hj (f : RxFlow) := wf_runDeliver hd (flowOf pk) now 513 (m, (k.newerSgen (epPkg pk.src) pk.sgen).setRx (flowOf pk) f) h
  unfold receivePacket
  dsimp only
  split
  · exact h
  · exact h
  all_goals exact wf_ite (wf_ite h (wf_ite h (wf_ite h (hj _)))) (wf_ite h h)

omit h in
theorem deliverUnicast_wf : Deliver.Wf deliverUnicast := fun pk mk h => by
  unfold deliverUnicast
  split_ifs <;> exact h

theorem wf_serve (now : Nat) (p : PkgId) (mesh : Bool) (rq : Packet) (k : Pkg) : Memory.wf (serve now p mesh rq m k).1 = true := by
  refine wf_ite (wf_lentAccess h ..) (wf_ite h (wf_ite h (wf_ite h (wf_ite h ?_))))
  split
  · exact h
  · exact h
  · exact h
  · exact wf_ite h (wf_ite h (wf_claspedOp h ..))

omit h in
theorem wf_unstall (now : Nat) {mk : Mem × Pkg} (h : Memory.wf mk.1 = true) : Memory.wf (unstall now mk).1 = true := by
  unfold unstall
  split
  · exact wf_resumeFlows deliverUnicast_wf now 0 h
  · exact h

theorem wf_castWriteHere (now : Nat) (p : PkgId) (pk : Packet) (k : Pkg) : Memory.wf (castWriteHere now p pk m k).1 = true :=
  wf_ite h (wf_ite h (wf_ite h (wf_writeResult h ..)))

theorem wf_writeOrWait (now : Nat) (p : PkgId) (c a : Nat) (data : List Byte) (k : Pkg) :
    Memory.wf (writeOrWait now p c a data m k).1 = true :=
  wf_ite h (wf_writeResult h ..)

theorem wf_castWriteOwn (now : Nat) (p : PkgId) (pk : Packet) (k : Pkg) : Memory.wf (castWriteOwn now p pk m k).1 = true :=
  wf_ite (wf_writeOrWait h ..) (wf_castWriteHere h ..)

omit h in
theorem deliverCast_wf (now : Nat) (p : PkgId) : Deliver.Wf (deliverCast now p) := fun pk mk h =>
  have hw : Memory.wf (if mk.2.deliversCast pk then castWriteHere now p pk mk.1 mk.2 else (mk.1, mk.2, stOK)).1 = true :=
    wf_ite (wf_castWriteHere h ..) h
  wf_ite hw hw

theorem wf_castArrive (now : Nat) (p : PkgId) (q : Nat) (pk : Packet) (k : Pkg) : Memory.wf (castArrive now p q pk m k).1 = true :=
  wf_ite h (wf_ite h (wf_ite h (wf_receivePacket h (deliverCast_wf now p) ..)))

theorem wf_retryWrites (now : Nat) (p : PkgId) (k : Pkg) : Memory.wf (retryWrites now p m k).1 = true :=
  wf_foldl (fun _ w h => wf_writeOrWait h now p w.1 w.2.1 w.2.2 _) _ _ h

theorem wf_goOn (now : Nat) (p : PkgId) (k : Pkg) : Memory.wf (goOn now p m k).1 = true :=
  wf_tallySettle (wf_retryWrites (wf_resumeFlows (deliverCast_wf now p) now 2 (wf_retryAccesses h now p k)) now p _) now p _

theorem wf_loseStores (p : PkgId) (cs : Nat → Bool) (k : Pkg) : Memory.wf (loseStores p cs m k).1 = true :=
  wf_foldl_mem (fun _ _ h => wf_memErase _ _ _ h) _ _ h

theorem wf_reloadStore (p : PkgId) (c : Nat) (k : Pkg) : Memory.wf (reloadStore p c m k).1 = true :=
  wf_ite (wf_memCopy _ _ _ _ h) h

theorem wf_toDoze (p : PkgId) (c : Nat) (k : Pkg) : Memory.wf (toDoze p c m k).1 = true :=
  wf_ite (wf_memErase _ _ _ (wf_memCopy _ _ _ _ h)) (wf_loseStores h ..)

theorem wf_enterState (now : Nat) (p : PkgId) (c enter : Nat) (k : Pkg) : Memory.wf (enterState now p c enter m k).1 = true :=
  wf_ite h (wf_ite (wf_ite (wf_toDoze h ..) h) (wf_ite h h))

theorem wf_moorStile (p : PkgId) (k : Pkg) : Memory.wf (moorStile p m k) = true :=
  sortedFrom_filter _ _ (wf_foldl_mem (fun _ _ h => wf_memCopy _ _ _ _ h) _ _ h)

theorem wf_endMoor (p : PkgId) (k : Pkg) : Memory.wf (endMoor p m k).1 = true :=
  wf_foldl (fun _ c h => wf_toDoze h p c _) _ _ (wf_moorStile h p k)

theorem wf_startSlot (now : Nat) (p : PkgId) (i : Nat) (x : Prewake) (k : Pkg) : Memory.wf (startSlot now p i x m k).1 = true :=
  wf_ite (wf_reloadStore h ..) h

theorem wf_armSlot (now : Nat) (p : PkgId) (x : Prewake) (k : Pkg) : Memory.wf (armSlot now p x m k).1 = true :=
  wf_ite h (wf_ite (wf_startSlot h ..) h)

theorem wf_prewakeCtrl (now : Nat) (p : PkgId) (armB cancelB : Bool) (k : Pkg) : Memory.wf (prewakeCtrl now p armB cancelB m k).1 = true :=
  wf_ite h (wf_ite (wf_armSlot h ..) h)

theorem wf_engineContribute (now : Nat) (p : PkgId) (t tree : Nat) (b : List Byte) (status : Byte) (payload : List Byte) (k : Pkg) :
    Memory.wf (engineContribute now p t tree b status payload m k).1 = true :=
  wf_ite h (wf_tallySettle h ..)

theorem wf_endQuery (now : Nat) (p : PkgId) (t : Nat) (b : List Byte) (tree : Option Nat) (code : Nat) (entries : List Nat)
    (scanned skipped ns : Nat) (k : Pkg) : Memory.wf (endQuery now p t b tree code entries scanned skipped ns m k).1 = true := by
  have hr (c : Prop) [Decidable c] (core a : Nat) (data : List Byte) :
      Memory.wf (if c then ((writeOrWait now p core a data m k).1, (writeOrWait now p core a data m k).2.1) else (m, k)).1 = true :=
    wf_ite (wf_writeOrWait h ..) h
  unfold endQuery
  dsimp only
  split
  · exact wf_engineContribute (hr ..) ..
  · exact hr ..

theorem wf_takeQuery (now : Nat) (p : PkgId) (t : Nat) (b : List Byte) (k : Pkg) : Memory.wf (takeQuery now p t b m k).1 = true := by
  refine wf_ite h ?_
  dsimp only
  split
  · exact wf_endQuery h ..
  · exact h

theorem wf_takeNoticed (now : Nat) (p : PkgId) (k : Pkg) : Memory.wf (takeNoticed now p m k).1 = true :=
  wf_foldl (fun _ w h => wf_takeQuery h now p w.1 w.2 _) _ _ h

theorem wf_hostqGo (now : Nat) (p : PkgId) (t : Nat) (k : Pkg) : Memory.wf (hostqGo now p t m k).1 = true :=
  wf_takeQuery (wf_takeNoticed h now p k) ..

theorem wf_brgAbort (now : Nat) (p : PkgId) (t : Nat) (k : Pkg) : Memory.wf (brgAbort now p t m k).1 = true :=
  wf_foldl (fun _ q h => wf_endQuery h now p t q.block q.tree 8 [] 0 0 0 _) _ _ (wf_takeNoticed h now p k)

theorem wf_commitHeading (now : Nat) (p : PkgId) (who : Requester) (w3 : Word) (k : Pkg) :
    Memory.wf (commitHeading now p who w3 m k).1 = true :=
  wf_ite h (wf_ite h (wf_ite (wf_armSlot h ..) h))

theorem wf_isolate (now : Nat) (p : PkgId) (u : Nat) (k : Pkg) : Memory.wf (isolate now p u m k).1 = true :=
  wf_ite h (wf_ite h (wf_ite (wf_brgAbort h ..) (wf_ite h (wf_ite h (wf_ite h (wf_ite h (wf_ite h (wf_ite h (wf_ite h (wf_ite h
    (wf_ite h h)))))))))))

theorem wf_isolationDone (now : Nat) (p : PkgId) (u : Nat) (k : Pkg) : Memory.wf (isolationDone now p u m k).1 = true := by
  unfold isolationDone
  split
  · exact h
  · dsimp only
    split
    · exact wf_tallySettle (wf_isolate h ..) ..
    · exact wf_isolate h ..

theorem wf_quarantine (now : Nat) (p : PkgId) (u : Nat) (k : Pkg) : Memory.wf (quarantine now p u m k).1 = true :=
  wf_ite h (wf_ite h (wf_isolate h ..))

theorem wf_exitUnit (now : Nat) (p : PkgId) (u cls : Nat) (k : Pkg) : Memory.wf (exitUnit now p u cls m k).1 = true :=
  wf_ite (wf_quarantine h ..) h

theorem wf_forgetMemory (p : PkgId) : Memory.wf (forgetMemory p m) = true := wf_memErase _ _ _ h

theorem wf_pkgResetOp (now : Nat) (p : PkgId) (k : Pkg) : Memory.wf (pkgResetOp now p m k).1 = true := by
  unfold pkgResetOp
  dsimp only
  split
  · exact wf_forgetMemory h p
  · exact h

theorem wf_expireHold (now : Nat) (p : PkgId) (u : DarkUnit) (k : Pkg) : Memory.wf (expireHold now p u m k).1 = true := by
  refine wf_ite h ?_
  dsimp only
  split
  · exact wf_forgetMemory h p
  · exact wf_goOn h ..
  · exact wf_goOn h ..

theorem wf_quarSet (now : Nat) (p : PkgId) (i old new : Nat) (k : Pkg) : Memory.wf (quarSet now p i old new m k).1 = true :=
  wf_foldl (fun _ b h => wf_isolate h now p (32 * i + b) _) _ _ h

theorem wf_busAct (x : Bus) (d : RegDesc) (off : Nat) (w : Word) (k : Pkg) : Memory.wf (busAct x d off w m k).1 = true := by
  exact wf_ite (wf_ite h (wf_ite (wf_prewakeCtrl h ..) (wf_ite h (wf_ite h (wf_ite h h)))))
    (wf_ite (wf_ite h (wf_ite h (wf_ite h (wf_ite h h)))) (wf_ite (wf_ite h (wf_ite h (wf_ite h (wf_ite h h))))
      (wf_ite (wf_ite (wf_tallySettle h ..) h) (wf_ite (wf_ite (wf_enterState h ..) (wf_ite h h))
        (wf_ite (wf_ite (wf_brgAbort h ..) h) (wf_ite (wf_ite (wf_hostqGo h ..) h) h))))))

theorem wf_busWrite (x : Bus) (d : RegDesc) (off : Nat) (w : Word) (k : Pkg) : Memory.wf (busWrite x d off w m k).1 = true :=
  wf_ite h (wf_ite h (wf_ite h (wf_ite h (wf_ite h (wf_ite h (wf_ite h (wf_ite (wf_commitHeading h ..) (wf_ite (wf_quarSet h ..)
    (wf_ite h (wf_ite (wf_busAct h ..) (wf_busAct h ..)))))))))))

theorem wf_busOne {x : Bus} {off size : Nat} {w : Option Word} {k : Pkg} {r : Word × Mem × Pkg} (hr : busOne x off size w m k = some r) :
    Memory.wf r.2.1 = true := by
  unfold busOne at hr
  split_ifs at hr
  split at hr
  · cases hr
  · split at hr
    · cases hr; exact h
    · cases hr; exact wf_busWrite h ..

omit h in
theorem wf_busWords (x : Bus) : ∀ (l : List (Nat × Option Word)) (free size : Nat) (mk : Mem × Pkg), Memory.wf mk.1 = true →
    Memory.wf (busWords x free size l mk).2.2.1 = true
  | [], _, _, _, h => h
  | w :: rest, free, size, mk, h => by
    unfold busWords
    split
    · exact h
    · next r hr => exact wf_busWords x rest (free + 1) size _ (wf_busOne h hr)

end

end Sys2Proof.Machine
end

section
/-! PROOF. What the shared changes of the machine keep. -/

namespace Sys2Proof.Machine
open Sys2Proof

/-! ### What a change of the machine keeps -/

/-- From one state to another neither the queue nor the clock moved, and storage in canonical form stayed so. -/
structure State.Keeps (s t : State) : Prop where
  canonical : s.canonical → t.canonical
  pending : t.pending = s.pending
  now : t.now = s.now

/-- A command that proceeds keeps them. -/
structure OutKeeps (s : State) (o : Out) : Prop where
  keeps : ∀ t, o = .next t → s.Keeps t

namespace State.Keeps

@[refl] theorem refl (s : State) : s.Keeps s := ⟨id, rfl, rfl⟩
theorem trans {s t u : State} (h : s.Keeps t) (k : t.Keeps u) : s.Keeps u :=
  ⟨fun c => k.canonical (h.canonical c), k.pending.trans h.pending, k.now.trans h.now⟩

theorem foldl {β : Type} {f : State → β → State} (hf : ∀ (s : State) b, s.Keeps (f s b)) : ∀ (l : List β) (s : State), s.Keeps (l.foldl f s)
  | [], s => .refl s
  | b :: l, s => (hf s b).trans (foldl hf l _)

section
variable {s t : State} (h : s.Keeps t)
include h

theorem ite {c : Prop} [Decidable c] {u : State} (k : s.Keeps u) : s.Keeps (if c then t else u) := by
  split_ifs <;> assumption
theorem setPkg (p : PkgId) (k : Pkg) : s.Keeps (t.setPkg p k) :=
  ⟨fun c => State.canonical_setPkg (h.canonical c) p k, h.pending, h.now⟩
theorem setTray (r : TrayId) (c : CwSt) : s.Keeps (t.setTray r c) :=
  ⟨fun k => State.canonical_setTray (h.canonical k) r c, h.pending, h.now⟩
theorem setAlm (a : AlmId) (x : AlmSt) : s.Keeps (t.setAlm a x) :=
  ⟨fun k => State.canonical_setAlm (h.canonical k) a x, h.pending, h.now⟩
theorem setRack (r : Fin 32) (x : RackSt) : s.Keeps (t.setRack r x) :=
  ⟨fun k => State.canonical_setRack (h.canonical k) r x, h.pending, h.now⟩
theorem setRouter (r : RouterId) (x : RouterSt) : s.Keeps (t.setRouter r x) :=
  ⟨fun k => State.canonical_setRouter (h.canonical k) r x, by simp [h.pending], by simp [h.now]⟩
theorem setPosn (r : TrayId) (pos : Fin 4) (x : PosSt) : s.Keeps (t.setPosn r pos x) := h.setTray ..
theorem cwReport (r : TrayId) (n : String) (pos d : Nat) : s.Keeps (t.cwReport r n pos d) := h.setTray ..
theorem fleet (f : FleetSt) : s.Keeps { t with fleet := f } := ⟨h.canonical, h.pending, h.now⟩
theorem free (n : Nat) : s.Keeps { t with free := n } := ⟨h.canonical, h.pending, h.now⟩
theorem mem {m : Mem} (hm : Memory.wf t.mem = true → Memory.wf m = true) : s.Keeps { t with mem := m } :=
  ⟨fun c => State.canonical_mem (h.canonical c) (hm (h.canonical c).1), h.pending, h.now⟩

theorem next : OutKeeps s (.next t) := ⟨by rintro _ ⟨rfl⟩; exact h⟩

end

end State.Keeps

theorem OutKeeps.ite {s : State} {c : Prop} [Decidable c] {a b : Out} (ha : OutKeeps s a) (hb : OutKeeps s b) : OutKeeps s (if c then a else b) := by
  split_ifs <;> assumption
theorem OutKeeps.fault {s : State} (r : Fault) : OutKeeps s (.fault r) := ⟨by rintro _ ⟨⟩⟩

variable (s : State)

theorem outKeeps_onPkg (p : PkgId) (f : Pkg → Pkg) : OutKeeps s (onPkg p s f) := ((State.Keeps.refl s).setPkg ..).next
theorem outKeeps_onPkgFree (p : PkgId) (f : BitVec 64 → Pkg → Pkg) : OutKeeps s (onPkgFree p s f) := (((State.Keeps.refl s).free _).setPkg ..).next
theorem outKeeps_onTray (t : TrayId) (f : CwSt → CwSt) : OutKeeps s (onTray t s f) := ((State.Keeps.refl s).setTray ..).next
theorem outKeeps_onAlm (a : AlmId) (f : AlmSt → AlmSt) : OutKeeps s (onAlm a s f) := ((State.Keeps.refl s).setAlm ..).next
theorem outKeeps_onRack (r : Fin 32) (f : RackSt → RackSt) : OutKeeps s (onRack r s f) := ((State.Keeps.refl s).setRack ..).next
theorem outKeeps_onRouter (r : RouterId) (f : RouterSt → RouterSt) : OutKeeps s (onRouter r s f) := ((State.Keeps.refl s).setRouter ..).next
theorem outKeeps_onPkgMem (p : PkgId) {f : Mem → Pkg → Mem × Pkg} (hf : ∀ m k, Memory.wf m = true → Memory.wf (f m k).1 = true) :
    OutKeeps s (onPkgMem p s f) := (((State.Keeps.refl s).mem (hf _ _)).setPkg ..).next

/-! ### Packages and memory -/

theorem State.keeps_loseLender (rack : Fin 32) (lender : Nat) : s.Keeps (s.loseLender rack lender) :=
  .foldl (fun s _ => (State.Keeps.refl s).setPkg ..) _ _
theorem outKeeps_onPkgGrave (p : PkgId) {f : Mem → Pkg → Mem × Pkg} (hf : ∀ m k, Memory.wf m = true → Memory.wf (f m k).1 = true) :
    OutKeeps s (onPkgGrave p s f) := by
  have h : s.Keeps ({ s with mem := (f s.mem (s.pkg p)).1 }.setPkg p (f s.mem (s.pkg p)).2) := ((State.Keeps.refl s).mem (hf _ _)).setPkg ..
  exact (State.Keeps.ite (h.trans (State.keeps_loseLender ..)) h).next
theorem State.keeps_pkgGone (p : PkgId) {f : Mem → Pkg → Mem × Pkg} (hf : ∀ m k, Memory.wf m = true → Memory.wf (f m k).1 = true) :
    s.Keeps (s.pkgGone p f) := (((State.Keeps.refl s).mem (hf _ _)).setPkg ..).trans (State.keeps_loseLender ..)
theorem State.keeps_resetPkg (p : PkgId) : s.Keeps (s.resetPkg p) := s.keeps_pkgGone p fun _ k h => wf_pkgResetOp h _ p k

/-- What the words of an access bring: the words read, whether all were served, and memory and package. -/
def State.busRun (s : State) (p : PkgId) (op : BusOp) (dra : Bool) : List Word × Bool × Mem × Pkg :=
  match op.next, op.words with
  | some v, [w] =>
    match busOne ⟨s.now, p, op.who, dra, s.upIn p.rack, v⟩ w.1 op.size w.2 s.mem (s.pkg p) with
    | some e => ([e.1], true, e.2.1, e.2.2)
    | none => ([], false, s.mem, s.pkg p)
  | _, _ => busWords ⟨s.now, p, op.who, dra, s.upIn p.rack, 0⟩ s.free op.size op.words (s.mem, s.pkg p)
/-- What an access leaves: what it brought and its answer; where the package has gone dark by it, what it lent is lost. -/
def State.busLeaves (s : State) (p : PkgId) (op : BusOp) (dra : Bool) (r : List Word × Bool × Mem × Pkg) : State :=
  let k := if dra then r.2.2.2 else op.reply r.1 r.2.1 r.2.2.2
  let s1 := { s with mem := r.2.2.1, free := s.free + op.words.length }.setPkg p k
  if k.pkgDark && !(s.pkg p).pkgDark then s1.loseLender p.rack (s.pkg p).addr else s1
theorem State.busPerform_eq (p : PkgId) (op : BusOp) (dra : Bool) : s.busPerform p op dra =
    (((s.busRun p op dra).1, (s.busRun p op dra).2.1), s.busLeaves p op dra (s.busRun p op dra)) := rfl

theorem State.wf_busRun (h : Memory.wf s.mem = true) (p : PkgId) (op : BusOp) (dra : Bool) : Memory.wf (s.busRun p op dra).2.2.1 = true := by
  unfold State.busRun
  split
  · split
    · next e he => exact wf_busOne h he
    · exact h
  · exact wf_busWords _ _ _ _ _ h

/-- An access keeps them: its words are writes that keep the form of memory. -/
theorem State.keeps_busPerform (p : PkgId) (op : BusOp) (dra : Bool) : s.Keeps (s.busPerform p op dra).2 := by
  have h (k : Pkg) : s.Keeps ({ s with mem := (s.busRun p op dra).2.2.1, free := s.free + op.words.length }.setPkg p k) :=
    (((State.Keeps.refl s).mem fun h => s.wf_busRun h p op dra).free _).setPkg ..
  exact State.Keeps.ite ((h _).trans (State.keeps_loseLender ..)) (h _)

theorem outKeeps_busAccess (i : Instr) : OutKeeps s (busAccess i s) := by
  unfold busAccess
  split
  · exact (State.Keeps.refl s).next
  · exact .ite (State.Keeps.refl s).next (.ite (outKeeps_onPkg s _ _) (State.keeps_busPerform ..).next)

end Sys2Proof.Machine
end

section
/-! PROOF. What the operations of tray controllers, racks, Almanacs and the fleet keep. -/

namespace Sys2Proof.Machine
open Sys2Proof

namespace State

section
variable (s : State)

/-! ### The log of the helm, alarms and messages -/

theorem keeps_logs (rack : Fin 32) (f : AlmLog → AlmLog) : s.Keeps (s.logs rack f) := by
  unfold logs
  split
  · rfl
  · exact .ite (((Keeps.refl s).setAlm ..).setAlm ..) ((Keeps.refl s).setAlm ..)

theorem keeps_alarmSet (rack : Fin 32) (name : String) (on : Bool) : s.Keeps (s.alarmSet rack name on) := by
  unfold alarmSet
  split
  · rfl
  · exact .ite (.refl s) ((s.keeps_logs ..).setAlm ..)

theorem keeps_sendIdem (rack : Fin 32) (kind : IdemKind) (slot pos : Nat) (value : Word) : s.Keeps (s.sendIdem rack kind slot pos value) := by
  unfold sendIdem
  split
  · rfl
  · exact (s.keeps_logs ..).setAlm ..

theorem keeps_http (a : AlmId) (code : Nat) (status : String) : s.Keeps (s.http a code status) := (Keeps.refl s).setAlm ..

/-- An operator's request keeps them where what the helm does keeps them. -/
theorem keeps_operator (a : AlmId) {f : AlmId → State → State} (hf : ∀ h s, Keeps s (f h s)) : s.Keeps (s.operator a f) := by
  unfold State.operator
  split
  · exact .ite (hf _ _) (s.keeps_http ..)
  · exact s.keeps_http ..

/-! ### Power of a rack -/

theorem keeps_recapRack (rack : Fin 32) : s.Keeps (s.recapRack rack) := by
  unfold recapRack
  split
  · rfl
  · refine Keeps.trans ?_ (.foldl (fun s e => s.keeps_sendIdem ..) _ _)
    exact (((Keeps.refl s).setRack ..).trans (keeps_alarmSet ..)).trans (keeps_alarmSet ..)

theorem keeps_judgeMode (rack : Fin 32) (psu : Bool) : s.Keeps (s.judgeMode rack psu) := by
  unfold judgeMode
  split
  · rfl
  · have h (x : RackSt) : s.Keeps (s.setRack rack x) := (Keeps.refl s).setRack ..
    exact .ite ((h _).trans (keeps_alarmSet ..)) (.ite ((h _).trans (keeps_alarmSet ..)) (h _))

theorem keeps_supplyChange (rack : Fin 32) (f : RackSt → RackSt) : s.Keeps (s.supplyChange rack f) :=
  (((Keeps.refl s).setRack ..).trans (keeps_judgeMode ..)).trans (keeps_recapRack ..)

theorem keeps_setting (rack : Fin 32) (h : AlmId) (f : AlmLog → AlmLog) : s.Keeps (s.setting rack h f) :=
  ((((s.keeps_logs ..).trans (keeps_judgeMode ..)).trans (keeps_recapRack ..))).trans (keeps_http ..)

theorem keeps_settleTurn (rack : Fin 32) : s.Keeps (s.settleTurn rack) := by
  unfold settleTurn
  split
  · rfl
  · dsimp only
    split
    · rfl
    · refine .ite (.refl s) ?_
      exact ((s.keeps_logs ..).trans (.foldl (fun s _ => (Keeps.refl s).setRouter ..) _ _)).trans (keeps_recapRack ..)

theorem keeps_turnClock (rack : Fin 32) : s.Keeps (s.turnClock rack) := by
  unfold turnClock
  dsimp only
  split
  · exact s.keeps_settleTurn rack
  · exact .ite ((s.keeps_settleTurn rack).trans (keeps_recapRack ..)) (s.keeps_settleTurn rack)

theorem keeps_cduAlarm (rack : Fin 32) (name : String) (on : Bool) (f : RackSt → RackSt) : s.Keeps (s.cduAlarm rack name on f) :=
  ((Keeps.refl s).setRack ..).trans (keeps_alarmSet ..)

theorem keeps_eachPos (rack : Fin 32) {f : TrayId → Fin 4 → State → State} (hf : ∀ t pos s, Keeps s (f t pos s)) : s.Keeps (s.eachPos rack f) :=
  .foldl (fun s _ => .foldl (fun s _ => hf _ _ s) _ s) _ s

/-! ### Tray controllers -/

theorem keeps_checkRunning (t : TrayId) : s.Keeps (s.checkRunning t) := by
  refine .foldl (fun s pos => ?_) _ _
  dsimp only
  split
  · exact .ite ((Keeps.refl s).setTray ..) (.refl s)
  · rfl

theorem keeps_setChips (t : TrayId) (c : CwSt) : s.Keeps (s.setChips t c) := by
  have h : s.Keeps (s.setTray t c) := (Keeps.refl s).setTray ..
  unfold setChips
  dsimp only
  split
  · exact .ite (h.setRouter ..) h
  · exact h

theorem keeps_writeAddress (p : PkgId) : s.Keeps (s.writeAddress p) := (Keeps.refl s).setPkg ..

theorem keeps_cwStore (p : PkgId) (dra : Bool) (off v : Nat) : s.Keeps (s.cwStore p dra off v) :=
  Keeps.trans (.ite ((Keeps.refl s).setPkg ..) (.refl s)) (keeps_busPerform ..)

theorem keeps_cwWrite (p : PkgId) (off v : Nat) : s.Keeps (s.cwWrite p off v) := s.keeps_cwStore ..

theorem keeps_cwRead (p : PkgId) (offs : List Nat) : s.Keeps (s.cwRead p offs).2 := by
  unfold cwRead
  dsimp only
  exact Keeps.trans (.ite ((Keeps.refl s).setPkg ..) (.refl s)) (keeps_busPerform ..)

/-- Writes of a list of registers. -/
theorem keeps_cwWrites (p : PkgId) (l : List (Nat × Nat)) : s.Keeps (l.foldl (fun s e => s.cwWrite p e.1 e.2) s) :=
  .foldl (fun s _ => s.keeps_cwWrite ..) _ _

theorem keeps_stepFive (t : TrayId) (pos : Fin 4) (p : PkgId) : s.Keeps (s.stepFive t pos p) := by
  unfold stepFive
  extract_lets
  exact .ite (((((Keeps.refl s).setPosn ..).trans (keeps_cwWrites ..)).setPkg ..).trans (keeps_writeAddress ..))
    ((((Keeps.refl s).setPosn ..).trans (keeps_cwWrites ..)).setPkg ..)

theorem keeps_releaseReset (t : TrayId) (pos : Fin 4) (p : PkgId) : s.Keeps (s.releaseReset t pos p) :=
  .ite ((Keeps.refl s).setPosn ..) (s.keeps_stepFive ..)

theorem keeps_powerUp (t : TrayId) (pos : Fin 4) (p : PkgId) : s.Keeps (s.powerUp t pos p) :=
  .ite (s.keeps_releaseReset ..) ((Keeps.refl s).setPosn ..)

theorem keeps_compareFlash (t : TrayId) (pos : Fin 4) (p : PkgId) : s.Keeps (s.compareFlash t pos p) := by
  unfold compareFlash
  dsimp only
  split
  · exact s.keeps_powerUp ..
  · exact .ite (((Keeps.refl s).setPosn ..).trans (keeps_powerUp ..)) ((Keeps.refl s).setPosn ..)

theorem keeps_bringUp (t : TrayId) (pos : Fin 4) : s.Keeps (s.bringUp t pos) := by
  unfold bringUp
  dsimp only
  split
  · rfl
  · exact .ite (.refl s) (.ite ((Keeps.refl s).setPosn ..) (s.keeps_compareFlash ..))

theorem keeps_powerOff (t : TrayId) (pos : Fin 4) : s.Keeps (s.powerOff t pos) := by
  unfold powerOff
  dsimp only
  split
  · exact (Keeps.refl s).setPosn ..
  · exact ((Keeps.refl s).setPosn ..).trans (keeps_pkgGone _ _ fun _ _ h => wf_forgetMemory h _)

theorem keeps_goOn (rack : Fin 32) : s.Keeps (s.goOn rack) :=
  s.keeps_eachPos rack fun _ _ s => .ite (s.keeps_bringUp ..) (.refl s)

theorem keeps_countRecovery (p : PkgId) : s.Keeps (s.countRecovery p) := s.keeps_logs ..

theorem keeps_loadPort (p : PkgId) (img : List Byte) : s.Keeps (s.loadPort p img) := by
  have h : s.Keeps ((s.cwWrite p R.CHT_LOAD_LEN img.length).cwWrite p R.CHT_LOAD_CTRL 1) := (s.keeps_cwWrite ..).trans (keeps_cwWrite ..)
  exact .ite (h.setPkg ..) h

theorem keeps_writeGo (p : PkgId) (lease epoch : Word) (t0 : Nat) : s.Keeps (s.writeGo p lease epoch t0) := s.keeps_cwWrites ..

theorem keeps_firstChart (t : TrayId) (pos : Fin 4) : s.Keeps (s.firstChart t pos) := by
  unfold firstChart
  dsimp only
  split
  · rfl
  · refine .ite (.refl s) (.ite ?_ (.ite (((Keeps.refl s).setPosn ..).trans (keeps_writeGo ..)) (.refl s)))
    split
    · exact ((Keeps.refl s).setPosn ..).trans (keeps_loadPort ..)
    · rfl

theorem keeps_pollPkg (t : TrayId) (pos : Fin 4) : s.Keeps (s.pollPkg t pos) := by
  unfold pollPkg
  split
  · rfl
  · exact .ite (.refl s) ((s.keeps_cwRead ..).setTray ..)

theorem keeps_fenced (t : TrayId) (epoch : Word) {f : State → State} (hf : ∀ s, Keeps s (f s)) : s.Keeps (s.fenced t epoch f) :=
  .ite ((Keeps.refl s).cwReport ..) (((Keeps.refl s).setTray ..).trans (hf _))

theorem keeps_swapPos (t : TrayId) (pos : Fin 4) : s.Keeps (s.swapPos t pos) := by
  unfold swapPos
  split
  · rfl
  · exact ((Keeps.ite ((Keeps.refl s).setPkg ..) (.refl s)).trans (keeps_powerOff ..)).setPosn ..

theorem keeps_openBridge (t : TrayId) : s.Keeps (s.openBridge t) := (Keeps.refl s).setTray ..

/-! ### Actions of the helm at a tray controller -/

theorem keeps_orderTurn (t : TrayId) (pos : Fin 4) (lease epoch : Word) (t0 : Nat) : s.Keeps (s.orderTurn t pos lease epoch t0) := by
  unfold orderTurn
  split
  · exact s.keeps_writeGo ..
  · dsimp only
    split
    · exact (Keeps.refl s).setRouter ..
    · rfl

theorem keeps_perform (t : TrayId) (pos : Fin 4) (epoch : Word) (kind : FencedKind) : s.Keeps (s.perform t pos epoch kind) := by
  unfold perform
  dsimp only
  split
  · exact s.keeps_orderTurn ..
  · exact s.keeps_cwWrites ..
  · exact .ite ((Keeps.refl s).setPkg ..) (.refl s)
  · have h (u : Byte) (p : PkgId) : s.Keeps (if (s.pkg p).mctpUp then s.cwStore p false R.FLT_RELEASE (256 + u.toNat) else s) :=
      .ite (s.keeps_cwStore ..) (.refl s)
    exact .ite ((h _ _).trans (keeps_releaseReset ..)) (h _ _)
  · exact ((Keeps.refl s).setPosn ..).trans (keeps_bringUp ..)
  · exact s.keeps_swapPos ..
  · exact .ite (.refl s) (((Keeps.refl s).setPosn ..).trans (keeps_bringUp ..))
  · exact (Keeps.refl s).setPosn ..
  · exact s.keeps_openBridge ..
  · exact (Keeps.refl s).setTray ..
  · rfl

/-! ### Almanacs and the operator -/

theorem keeps_enterHelm (a : AlmId) (epoch : Word) : s.Keeps (s.enterHelm a epoch) :=
  (((Keeps.refl s).setAlm ..).trans (keeps_judgeMode ..)).trans (keeps_recapRack ..)

theorem keeps_sendAction (h : AlmId) (key : Nat) (kind : FencedKind) : s.Keeps (s.sendAction h key kind) := (s.keeps_logs ..).setAlm ..

theorem keeps_packageAction (a : AlmId) (p : PkgId) (f : AlmLog → AlmLog) (kind : FencedKind) : s.Keeps (s.packageAction a p f kind) :=
  s.keeps_operator a fun _ s => .ite (s.keeps_http ..) (((s.keeps_logs ..).trans (keeps_sendAction ..)).trans (keeps_http ..))

theorem keeps_stageOne (h : AlmId) (image : List Byte) (target : UpdateTarget) : s.Keeps (s.stageOne h image target).2 := by
  have hat (t : TrayId) (n : Nat) (c : CwSt) : s.Keeps (if t.rack ≠ h.rack then (1, s) else (n, s.setTray t c)).2 := by
    split
    · rfl
    · exact (Keeps.refl s).setTray ..
  unfold stageOne
  cases target with
  | pkc p =>
    dsimp only
    split
    · exact hat ..
    · exact hat ..
  | cw t => dsimp only; exact hat ..
  | chip t kind n => dsimp only; exact hat ..
  | almanac x =>
    dsimp only
    split
    · rfl
    · dsimp only; exact s.keeps_logs ..

/-! ### The fleet -/

theorem keeps_fleetLinks (held : Bool) (rack : Fin 32) : s.Keeps (s.fleetLinks held rack) := .foldl (fun s _ => (Keeps.refl s).setRouter ..) _ _

theorem keeps_retireFleet : s.Keeps s.retireFleet :=
  .foldl (fun s _ => .foldl (fun s _ => .ite ((Keeps.refl s).setPkg ..) (.refl s)) _ s) _ _

theorem keeps_withdrawFleet (first : List Nat) (cause region : Nat) : s.Keeps (s.withdrawFleet first cause region) :=
  .ite (.refl s) ((Keeps.refl s).fleet _)

theorem keeps_withdrawStep : s.Keeps s.withdrawStep := by
  unfold withdrawStep
  dsimp only
  split
  · rfl
  · have h (l : List PkgId) (c : Nat × Nat) : s.Keeps (l.foldl (fun s p => s.setPkg p ((s.pkg p).fleetWithdraw s.now c.2 c.1)) s) :=
      .foldl (fun s _ => (Keeps.refl s).setPkg ..) _ _
    exact .ite ((h _ _).fleet _) (h _ _)
  · exact Keeps.fleet (.foldl (fun s _ => .foldl (fun s _ => .ite ((Keeps.refl s).setPkg ..) (.refl s)) _ s) _ _) _

theorem keeps_leadClock : s.Keeps s.leadClock := by
  unfold leadClock
  split
  · rfl
  · split
    · exact s.keeps_withdrawFleet ..
    · rfl
  · exact s.keeps_withdrawStep

theorem keeps_fleetClock : s.Keeps s.fleetClock := by
  have h : s.Keeps s.watchFlagship := (Keeps.refl s).fleet _
  exact .ite (h.trans (keeps_leadClock _)) h

theorem keeps_enginesClock (p : PkgId) : s.Keeps (s.enginesClock p) := ((Keeps.refl s).mem fun h => wf_takeNoticed h ..).setPkg ..

/-! ### One cycle -/

/-- Time passes, and the packages observe it. -/
theorem canonical_tick (h : s.canonical) : s.tick.canonical := by
  obtain ⟨hm, hp, hrest⟩ := h
  refine ⟨hm, ?_, hrest⟩
  have key : ∀ (l m : SMap Pkg), swf {} m = true → swf {} (l.foldl (fun m e => sset {} m e.1 (e.2.observe s.now)) m) = true := by
    intro l
    induction l with
    | nil => exact fun _ h => h
    | cons e l ih => exact fun m h => ih _ (swf_sset {} m e.1 _ h)
  exact key s.pkgs s.pkgs hp

/-- After the clock has moved, what the units do of themselves keeps them. -/
theorem keeps_clock : s.tick.Keeps s.clock := by
  unfold clock
  dsimp only
  refine Keeps.trans ?_ (keeps_fleetClock _)
  refine Keeps.trans ?_ (.foldl (fun s r => s.keeps_turnClock r) _ _)
  refine Keeps.trans ?_ (.foldl (fun s _ => .foldl (fun s _ => s.keeps_firstChart ..) _ s) _ _)
  exact .foldl (fun s _ => s.keeps_enginesClock _) _ _

end

end State

end Sys2Proof.Machine
end

section
/-! PROOF. What the commands keep, and with it the statements on the queue, the clock and the canonical form. -/

namespace Sys2Proof.Machine
open Sys2Proof

section
variable (s : State)

theorem OutKeeps.stay : OutKeeps s (.next s) := (State.Keeps.refl s).next

/-! ### Commands that act on packages -/

theorem outKeeps_onPort (l : LinkId) (f : Ends → PortSt → PortStep) : OutKeeps s (onPort l s f) := by
  unfold onPort
  split
  · exact outKeeps_onPkgMem s _ fun _ _ h => wf_tallySettle h ..
  · exact outKeeps_onRouter ..

theorem outKeeps_coreContribute (op : Byte) (p : PkgId) (src : Nat) (x : Contribution) : OutKeeps s (coreContribute op p src x s) :=
  outKeeps_onPkgMem s _ fun _ _ h => wf_ite h (wf_contribute h ..)

theorem outKeeps_placementEnd (p : PkgId) (c : Core) (n : Fin 64) : OutKeeps s (execPlacementEnd p c n s) := by
  refine outKeeps_onPkgMem s _ fun m k h => ?_
  have hfin (j : Pkg) : Memory.wf (match j.mem.placing.find? (fun x : Placing => x.core = c.val && x.entry = n.val && x.waitTag.isNone) with
      | some x => goOn s.now p (match x.store with | some st => eraseStorage p x.core j.spillBase st m | none => m) (j.showPlaced x)
      | none => (m, j)).1 = true := by
    split
    · refine wf_goOn ?_ ..
      split
      · exact wf_eraseStorage h ..
      · exact h
    · exact h
  dsimp only
  split
  · exact h
  · exact wf_ite (hfin _) (wf_ite h (hfin _))

theorem outKeeps_lendAsk (p : PkgId) (src : BitVec 16) (sgen : Byte) (pages : Word) (core tag : BitVec 16) :
    OutKeeps s (execLendAsk p src sgen pages core tag s) := by
  refine outKeeps_onPkgMem s _ fun m k h => ?_
  dsimp only
  split
  · exact wf_memErase _ _ _ h
  · exact h

theorem outKeeps_prewakeStart (p : PkgId) (slot : Fin 8) : OutKeeps s (execPrewakeStart p slot s) := by
  refine outKeeps_onPkgMem s _ fun m k h => ?_
  split
  · exact wf_ite (wf_startSlot h ..) h
  · exact h

theorem outKeeps_flowSend (p : PkgId) (dst : BitVec 16) (cls : BitVec 3) : OutKeeps s (execFlowSend p dst cls s) := by
  refine outKeeps_onPkgMem s _ fun m k h => ?_
  dsimp only
  split
  · exact h
  · split
    · exact h
    · exact wf_ite (wf_castWriteOwn h ..) h

theorem outKeeps_requestServe (p : PkgId) : OutKeeps s (execRequestServe p s) := by
  refine outKeeps_onPkgMem s _ fun m k h => ?_
  dsimp only
  split
  · exact wf_unstall _ (wf_serve h ..)
  · exact wf_serve h ..
  · exact h

theorem outKeeps_queryStart (p : PkgId) (t : Tile) : OutKeeps s (execQueryStart p t s) := by
  refine outKeeps_onPkgMem s _ fun m k h => ?_
  have hr := wf_takeNoticed h s.now p k
  dsimp only
  split
  · exact wf_ite hr hr
  · exact hr

theorem outKeeps_queryEnd (p : PkgId) (x : ScanOf) : OutKeeps s (execQueryEnd p x s) := by
  unfold execQueryEnd
  dsimp only
  split
  · exact (((State.Keeps.refl s).mem fun h => wf_takeNoticed h ..).setPkg ..).next
  · exact ((((State.Keeps.refl s).mem fun h => wf_endQuery (wf_takeNoticed h ..) ..).free _).setPkg ..).next

theorem outKeeps_reactionEnd (p : PkgId) (i : Nat) : OutKeeps s (execReactionEnd p i s) := by
  unfold execReactionEnd
  split
  · exact .stay s
  · exact .ite (outKeeps_onPkgMem s _ fun _ _ h => wf_isolationDone h ..) (.ite (outKeeps_onPkgFree ..) (.stay s))

theorem outKeeps_hubReset (p : PkgId) : OutKeeps s (execHubReset p s) := by
  unfold execHubReset
  split
  · exact .stay s
  · exact .ite (.stay s) (s.keeps_pkgGone _ fun _ _ h => wf_forgetMemory h _).next

theorem outKeeps_deferredAccessComplete (p : PkgId) : OutKeeps s (execDeferredAccessComplete p s) := by
  refine State.Keeps.next (((State.Keeps.refl s).setPkg ..).trans (.foldl (fun s i => ?_) _ _))
  split
  · exact s.keeps_busPerform ..
  · rfl

theorem outKeeps_draAccessEnd (p : PkgId) : OutKeeps s (execDraAccessEnd p s) :=
  .ite (.stay s) ((s.keeps_busPerform ..).setPkg ..).next

/-! ### Commands on links and routers -/

theorem outKeeps_blockReceive (l : LinkId) (b : Block) (crcOk : Bool) : OutKeeps s (execBlockReceive l b crcOk s) := by
  unfold execBlockReceive
  dsimp only
  split
  · exact outKeeps_onPkgMem s _ fun _ _ h => wf_tallySettle h ..
  · exact ((State.Keeps.refl s).setRouter ..).next

theorem outKeeps_packetDepart (l : LinkId) : OutKeeps s (execPacketDepart l s) := by
  unfold execPacketDepart
  dsimp only
  split
  · exact outKeeps_onPkg ..
  · split
    · exact .stay s
    · exact ((State.Keeps.refl s).setRouter ..).next

theorem keeps_arriveAt (r : RouterId) (inp : Nat) (pk : Packet) : s.Keeps (arriveAt r inp pk s) := by
  unfold arriveAt
  split
  · exact (State.Keeps.refl s).setPkg ..
  · exact (State.Keeps.refl s).setRouter ..

theorem outKeeps_goingDarkNotice (l : LinkId) : OutKeeps s (execGoingDarkNotice l s) := by
  unfold execGoingDarkNotice
  split
  · exact outKeeps_onPkgMem s _ fun _ _ h => wf_tallySettle h ..
  · exact outKeeps_onRouter ..

theorem outKeeps_holdTimeExpiry (l : LinkId) : OutKeeps s (execHoldTimeExpiry l s) := by
  unfold execHoldTimeExpiry
  split
  · exact outKeeps_onPkgMem s _ fun _ _ h => wf_tallySettle h ..
  · exact outKeeps_onRouter ..

theorem outKeeps_linkResume (l : LinkId) : OutKeeps s (execLinkResume l s) := by
  unfold execLinkResume
  split
  · exact outKeeps_onPkgMem s _ fun _ _ h => wf_tallySettle h ..
  · exact outKeeps_onRouter ..

theorem outKeeps_inputScan (r : RouterId) : OutKeeps s (execInputScan r s) := by
  unfold execInputScan
  split
  · exact outKeeps_onPkg ..
  · exact ((State.Keeps.refl s).setRouter ..).next

/-! ### Commands of tray controllers -/

theorem outKeeps_checkedChips (t : TrayId) (c : CwSt) : OutKeeps s (.next ((s.setChips t c).checkRunning t)) :=
  ((s.keeps_setChips ..).trans (State.keeps_checkRunning ..)).next

theorem outKeeps_setdasa (t : TrayId) (pos : Fin 4) : OutKeeps s (execSetdasa t pos s) := by
  unfold execSetdasa
  split
  · exact outKeeps_onPkg ..
  · exact .stay s

theorem outKeeps_modPresent (t : TrayId) (pos : Fin 4) (serial : BitVec 64) : OutKeeps s (execModPresent t pos serial s) := by
  unfold execModPresent
  extract_lets x new x1 s1
  have h1 : s.Keeps s1 := (State.Keeps.refl s).setPosn ..
  split
  · exact h1.next
  · extract_lets s2
    have h2 : s.Keeps s2 := .ite (h1.setPkg ..) h1
    exact (State.Keeps.ite h2 (h2.trans (State.keeps_bringUp ..))).next

theorem outKeeps_modLatchOpen (t : TrayId) (pos : Fin 4) (level : Bool) : OutKeeps s (execModLatchOpen t pos level s) := by
  have h (x : PosSt) : s.Keeps (s.setPosn t pos x) := (State.Keeps.refl s).setPosn ..
  exact .ite (((h _).trans (State.keeps_powerOff ..)).cwReport ..).next
    (.ite ((h _).trans (State.keeps_bringUp ..)).next (h _).next)

theorem outKeeps_modPwrGood (t : TrayId) (pos : Fin 4) : OutKeeps s (execModPwrGood t pos s) := by
  unfold execModPwrGood
  dsimp only
  split
  · exact .stay s
  · exact .ite (.stay s) ((((State.Keeps.refl s).setPosn ..).setPkg ..).trans (State.keeps_releaseReset ..)).next

theorem outKeeps_pkcRelease (p : PkgId) : OutKeeps s (execPkcRelease p s) :=
  .ite (.stay s) (((s.keeps_writeAddress p).setTray ..).setPkg ..).next

theorem outKeeps_pkgReset (p : PkgId) : OutKeeps s (execPkgReset p s) := by
  have h : s.Keeps ((if (s.pkg p).flt.fencedAt.isSome then s.countRecovery p else s).resetPkg p) :=
    (State.Keeps.ite (s.keeps_countRecovery p) (.refl s)).trans (State.keeps_resetPkg ..)
  exact (State.Keeps.ite ((h.setPosn ..).trans (State.keeps_compareFlash ..)) h).next

theorem outKeeps_resetHoldExpiry (p : PkgId) (u : DarkUnit) : OutKeeps s (execResetHoldExpiry p u s) := by
  have h : s.Keeps ({ s with mem := (expireHold s.now p u s.mem (s.pkg p)).1 }.setPkg p (expireHold s.now p u s.mem (s.pkg p)).2) :=
    ((State.Keeps.refl s).mem fun h => wf_expireHold h ..).setPkg ..
  exact (State.Keeps.ite (h.trans (State.keeps_releaseReset ..)) h).next

theorem outKeeps_reflashEnd (t : TrayId) (kind : Fin 8) (target : Byte) : OutKeeps s (execReflashEnd t kind target s) := by
  have h1 : s.Keeps { s with free := s.free + 1 } := (State.Keeps.refl s).free _
  unfold execReflashEnd
  dsimp only
  split
  · exact .stay s
  · refine .ite (h1.trans (State.keeps_setChips ..)).next (.ite ?_ (.stay s))
    split
    · exact .stay s
    · refine .ite (.stay s) (State.Keeps.trans (.ite ?_ ?_) (State.keeps_powerUp ..)).next
      · exact (h1.setPkg ..).setPosn ..
      · exact ((h1.setPkg ..).setPosn ..).cwReport ..

theorem outKeeps_bootTimeout (t : TrayId) (pos : Fin 4) : OutKeeps s (execBootTimeout t pos s) := by
  unfold execBootTimeout
  dsimp only
  split
  · exact .stay s
  · have h (p : PkgId) (x : PosSt) : s.Keeps ((s.resetPkg p).setPosn t pos x) := (s.keeps_resetPkg p).setPosn ..
    exact .ite (.stay s) ((State.Keeps.ite ((h _ _).cwReport ..) (h _ _)).trans (State.keeps_releaseReset ..)).next

theorem outKeeps_event (t : TrayId) (pos : Fin 4) (code : Byte) (data : BitVec 64) : OutKeeps s (execEvent t pos code data s) := by
  unfold execEvent
  extract_lets x s1
  have h1 : s.Keeps s1 := (State.Keeps.ite ((State.Keeps.refl s).setPosn ..) (.refl s)).cwReport ..
  split
  · exact h1.next
  · exact (State.Keeps.ite (h1.trans (State.keeps_logs ..)) h1).next

theorem outKeeps_getMeasurements (p : PkgId) (nonce : BitVec 256) : OutKeeps s (execGetMeasurements p nonce s) := by
  have h (k : Pkg) : s.Keeps (s.setPkg p k) := (State.Keeps.refl s).setPkg ..
  have hr (k : Pkg) (t : TrayId) (pos : Fin 4) (x : PosSt) : s.Keeps (((s.setPkg p k).resetPkg p).setPosn t pos x) :=
    ((h k).trans (State.keeps_resetPkg ..)).setPosn ..
  unfold execGetMeasurements
  extract_lets
  refine .ite (.stay s) (.ite (h _).next (.ite (h _).next (.ite (((h _).setPosn ..).cwReport ..).next (.ite ?_ ?_))))
  · exact (State.Keeps.ite ((hr _ _ _ _).trans (State.keeps_releaseReset ..)) (hr _ _ _ _)).next
  · exact (((((h _).trans (State.keeps_powerOff ..)).cwReport ..).setPosn ..).trans (State.keeps_logs ..)).next

theorem outKeeps_coolantRead (t : TrayId) (pos : Fin 4) (temp : BitVec 12) : OutKeeps s (execCoolantRead t pos temp s) := by
  unfold execCoolantRead
  split
  · exact .stay s
  · exact (State.Keeps.ite (s.keeps_cwWrite ..) (.refl s)).next

theorem outKeeps_logMirror (t : TrayId) (pos : Fin 4) : OutKeeps s (execLogMirror t pos s) := by
  unfold execLogMirror
  split
  · exact .stay s
  · exact .ite (.stay s) (((State.Keeps.refl s).setPosn ..).trans (State.keeps_cwWrite ..)).next

theorem outKeeps_thermShdnN (t : TrayId) (pos : Fin 4) : OutKeeps s (execThermShdnN t pos s) :=
  (((s.keeps_powerOff ..).cwReport ..).setPosn ..).next

theorem keeps_takeCap (t : TrayId) (pos : Fin 4) (value : Word) : s.Keeps (s.takeCap t pos value) := by
  unfold State.takeCap
  extract_lets x s1
  have h1 : s.Keeps s1 := (State.Keeps.refl s).setPosn ..
  split
  · exact h1
  · extract_lets s2 r
    have h2 : s.Keeps s2 := .ite (h1.trans (State.keeps_cwWrite ..)) h1
    exact .ite (h2.setRack ..) h2

theorem outKeeps_idempotentMessage (t : TrayId) (kind : IdemKind) (pos : Fin 4) (seq : BitVec 64) (value : Word) :
    OutKeeps s (execIdempotentMessage t kind pos seq value s) := by
  have h1 (c : CwSt) : s.Keeps (s.setTray t c) := (State.Keeps.refl s).setTray ..
  refine .ite (h1 _).next ?_
  split
  · exact ((h1 _).trans (keeps_takeCap ..)).next
  · exact ((h1 _).trans (State.keeps_pollPkg ..)).next
  · split
    · exact ((h1 _).cwReport ..).next
    · exact (h1 _).next
  · exact (h1 _).next

/-! ### Commands of a rack and of its managers -/

theorem outKeeps_almanacBrakeRelease (rack : Fin 32) : OutKeeps s (execAlmanacBrakeRelease rack s) := by
  unfold execAlmanacBrakeRelease
  split
  · exact .stay s
  · exact .ite ((s.keeps_logs ..).setRack ..).next (.stay s)

theorem outKeeps_capacityHoldEnd (rack : Fin 32) : OutKeeps s (execCapacityHoldEnd rack s) := by
  unfold execCapacityHoldEnd
  split
  · exact (State.Keeps.ite (s.keeps_supplyChange ..) (.refl s)).next
  · exact .stay s

theorem outKeeps_shelfPoll (rack : Fin 32) (inputW packagesW : Nat) : OutKeeps s (execShelfPoll rack inputW packagesW s) := by
  have h (x : RackSt) : s.Keeps (s.setRack rack x) := (State.Keeps.refl s).setRack ..
  exact ((State.Keeps.ite (h _) ((h _).trans (State.keeps_recapRack ..))).trans (State.keeps_turnClock ..)).next

theorem outKeeps_busbarLow (rack : Fin 32) (mv : Nat) : OutKeeps s (execBusbarLow rack mv s) := by
  refine .ite (.stay s) ((s.keeps_eachPos rack fun t pos s => ?_).trans (.foldl (fun s _ => (State.Keeps.refl s).setTray ..) _ _)).next
  exact .ite ((s.keeps_powerOff ..).setPosn ..) (.refl s)

theorem outKeeps_bringUpDeadline (rack : Fin 32) : OutKeeps s (execBringUpDeadline rack s) := by
  unfold execBringUpDeadline
  split
  · exact .stay s
  · exact (State.Keeps.ite (s.keeps_logs ..) ((s.keeps_logs ..).setAlm ..)).next

theorem outKeeps_siteCapSet (rack : Fin 32) (watts : Nat) : OutKeeps s (execSiteCapSet rack watts s) := by
  refine (s.keeps_operator _ fun h s => ?_).next
  split
  · exact s.keeps_http ..
  · exact s.keeps_setting ..

theorem outKeeps_brakeTest (rack : Fin 32) (ms : Nat) : OutKeeps s (execBrakeTest rack ms s) :=
  (s.keeps_operator _ fun _ s => .ite (s.keeps_http ..) (((s.keeps_logs ..).setRack ..).trans (State.keeps_http ..))).next

theorem outKeeps_cduSettingSet (rack : Fin 32) (which : CduSetting) (tenths : Nat) : OutKeeps s (execCduSettingSet rack which tenths s) :=
  (s.keeps_operator _ fun _ s => .ite (s.keeps_http ..) (.ite (s.keeps_http ..) ((s.keeps_logs ..).trans (State.keeps_http ..)))).next

theorem outKeeps_unitUpdate (rack : Fin 32) (u : RackUnit) (ok : Bool) : OutKeeps s (execUnitUpdate rack u ok s) := by
  refine (s.keeps_operator _ fun h s => ?_).next
  dsimp only
  split
  · exact .ite (s.keeps_http ..) (.ite (s.keeps_http ..)
      (((s.keeps_supplyChange ..).trans (State.keeps_alarmSet ..)).trans (State.keeps_http ..)))
  · exact .ite (s.keeps_http ..) (.ite (s.keeps_http ..)
      ((((State.Keeps.refl s).setRack ..).trans (State.keeps_alarmSet ..)).trans (State.keeps_http ..)))

theorem outKeeps_renew (src : AlmId) (epoch : Word) (toPeer : Bool) (slot : Fin 28) : OutKeeps s (execRenew src epoch toPeer slot s) := by
  have h1 (b c : Bool) (p : AlmId) (x : AlmSt) (t : TrayId) (y : CwSt) :
      s.Keeps (if !b then s else if c then s.setAlm p x else s.setTray t y) :=
    .ite (.refl s) (.ite ((State.Keeps.refl s).setAlm ..) ((State.Keeps.refl s).setTray ..))
  exact .ite (h1 ..).next ((h1 ..).setAlm ..).next

theorem outKeeps_take (t : TrayId) (src : AlmId) (epoch : Word) : OutKeeps s (execTake t src epoch s) :=
  .ite (.stay s) (((State.Keeps.refl s).setTray ..).setAlm ..).next

theorem outKeeps_takeGrant (a : AlmId) : OutKeeps s (execTakeGrant a s) := by
  unfold execTakeGrant
  dsimp only
  split
  · exact (State.Keeps.ite (s.keeps_enterHelm ..) (.refl s)).next
  · exact .stay s

theorem outKeeps_standbyLost (a : AlmId) : OutKeeps s (execStandbyLost a s) :=
  .ite (.stay s) (((State.Keeps.refl s).setAlm ..).trans (State.keeps_alarmSet ..)).next

theorem outKeeps_turnChart (a : AlmId) (x : Checked (List Byte)) (startTime : Nat) : OutKeeps s (execTurnChart a x startTime s) := by
  refine (s.keeps_operator _ fun h s => ?_).next
  dsimp only
  split
  · exact s.keeps_http ..
  · exact (((s.keeps_logs ..).setAlm ..).trans (State.keeps_sendAction ..)).trans (State.keeps_http ..)

theorem outKeeps_abortTurn (a : AlmId) : OutKeeps s (execAbortTurn a s) :=
  (s.keeps_operator _ fun _ s => (s.keeps_sendAction ..).trans (State.keeps_http ..)).next

theorem outKeeps_swapoutRequest (a : AlmId) (p : PkgId) : OutKeeps s (execSwapoutRequest a p s) :=
  (s.keeps_operator _ fun _ s => .ite (s.keeps_http ..) (((s.keeps_logs ..).setAlm ..).trans (State.keeps_http ..))).next

theorem outKeeps_rackNumberSet (a : AlmId) (n : Nat) : OutKeeps s (execRackNumberSet a n s) :=
  (s.keeps_operator _ fun _ s => .ite (s.keeps_http ..) ((s.keeps_logs ..).trans (State.keeps_http ..))).next

theorem outKeeps_activate (a : AlmId) (target : UpdateTarget) : OutKeeps s (execActivate a target s) :=
  (s.keeps_operator _ fun _ s => .ite (s.keeps_http ..) ((s.keeps_sendAction ..).trans (State.keeps_http ..))).next

theorem outKeeps_updatePush (a : AlmId) (targets : List UpdateTarget) (image : List Byte) : OutKeeps s (execUpdatePush a targets image s) := by
  refine (s.keeps_operator _ fun h s => State.Keeps.trans ?_ (State.keeps_http ..)).next
  have key : ∀ (l : List UpdateTarget) (acc : Nat × State), s.Keeps acc.2 → s.Keeps (l.foldl (fun (acc : Nat × State) t =>
      (if acc.1 = 0 then (acc.2.stageOne h image t).1 else acc.1, (acc.2.stageOne h image t).2)) acc).2 := by
    intro l
    induction l with
    | nil => exact fun _ h => h
    | cons t l ih => exact fun acc h => ih _ (h.trans (State.keeps_stageOne ..))
  exact key targets (0, s) (.refl s)

theorem outKeeps_handOver (a : AlmId) : OutKeeps s (execHandOver a s) :=
  (s.keeps_operator _ fun _ s => .ite (s.keeps_http ..) ((((s.keeps_sendAction ..).setAlm ..).setAlm ..).trans (State.keeps_http ..))).next

/-! ### Commands of the fleet -/

theorem outKeeps_fleetDiscovery (rack : Fin 32) : OutKeeps s (execFleetDiscovery rack s) :=
  .ite (.stay s) (State.Keeps.fleet ((State.Keeps.foldl (fun s _ => s.keeps_fleetLinks ..) _ s).trans
    (.foldl (fun s _ => s.keeps_fleetLinks ..) _ _)) _).next

theorem outKeeps_fleetTurn (rack : Fin 32) (t0 : Nat) (fleetImage : List Byte) (all : Checked (List (Fin 32 × List Byte))) :
    OutKeeps s (execFleetTurn rack t0 fleetImage all s) := by
  unfold execFleetTurn
  dsimp only
  split
  · exact .stay s
  · exact .ite (.stay s) (.ite ((State.Keeps.refl s).setAlm ..).next
      (((State.Keeps.refl s).fleet _).trans (.foldl (fun s _ => (State.Keeps.refl s).setAlm ..) _ _)).next)

theorem outKeeps_fleetOrder (rack : Fin 32) (term : Word) (t0 : Nat) : OutKeeps s (execFleetOrder rack term t0 s) := by
  unfold execFleetOrder
  split
  · exact .stay s
  · refine .ite ((State.Keeps.refl s).setAlm ..).next ?_
    extract_lets s1
    have h1 : s.Keeps s1 := s.keeps_logs ..
    split
    · exact h1.next
    · refine .ite h1.next ?_
      split
      · exact (h1.setAlm ..).next
      · exact (((h1.trans (State.keeps_logs ..)).trans
          (.foldl (fun s _ => .ite (.refl s) ((State.Keeps.refl s).setPkg ..)) _ _)).trans (State.keeps_sendAction ..)).next

theorem outKeeps_rackCommitReport (rack src : Fin 32) : OutKeeps s (execRackCommitReport rack src s) := by
  have h1 (f : FleetSt) (g : AlmLog → AlmLog) : s.Keeps ({ s with fleet := f }.logs rack g) :=
    ((State.Keeps.refl s).fleet f).trans (State.keeps_logs ..)
  exact .ite (.stay s) (.ite (h1 ..).next (.ite ((h1 ..).fleet _).next (((h1 ..).trans (State.keeps_retireFleet _)).fleet _).next))

theorem outKeeps_flagshipTakeover (rack : Fin 32) : OutKeeps s (execFlagshipTakeover rack s) :=
  .ite (.stay s) (State.Keeps.fleet ((s.keeps_logs ..).trans (State.keeps_withdrawFleet ..)) _).next

theorem outKeeps_chartPkg (p : PkgId) (f : Pkg → Pkg) : OutKeeps s (chartPkg p s f) := outKeeps_onPkg s p _
theorem outKeeps_onBridge (t : TrayId) (pos : Fin 4) (f : PosSt → PosSt × List Bool) (op : Nat) : OutKeeps s (onBridge t pos s f op) :=
  outKeeps_onTray s t _

theorem outKeeps_shiftDr (t : TrayId) (pos : Fin 4) (bits : List Bool) : OutKeeps s (execShiftDr t pos bits s) := by
  unfold execShiftDr
  exact outKeeps_onBridge s ..

theorem outKeeps_almanacBoot (a : AlmId) : OutKeeps s (execAlmanacBoot a s) := by
  unfold execAlmanacBoot
  exact outKeeps_onAlm s ..

end

/-! ### Every command -/

theorem exec_keeps (c : Instr) (s : State) : OutKeeps s (exec c s) := by
  unfold exec
  cases c
  all_goals dsimp only
  case registerWrite | readClear | lowWordRead | place | segmentRelease | force | enterNap | enterDoze | wakeToRun | arm |
      prewakeCancel | start | csuAbort | finish | beginPort | beginDma | loadCancel | loadData | go | operatorAbort | retrain |
      holdDown | portRelease | hostqGo | brgAbort | pwrLadderCapWrite | pwrHostCapWrite | thrCoolantWrite | headingCommit | resolved |
      escalate | fltRelease | lwClear | pushBegin | pushData | mgmtAccess | halt | resume | step | releaseClasps | traceClear => exact outKeeps_busAccess ..
  case pkcBootEnd | lendGrant | lendFree | claspAcquire | claspRelease | claspWaitExpiry | claspHoldExpiry | responseArrival |
      hostPortReset | clockSourceLost | sourceReturn | timeExchange | idleEntry | napEntry | furlEntry | wakePattern | pcieL1Exit |
      wake | prewakeFree | chunk | scanEnd | requestIssue | ackTimeExpiry | ack | retxTimeExpiry | castWrite | castSignal | mapReport |
      weightWrite | weightHoldExpiry | governorTick | pointJudgement | pointStepEnd | droop | droopRecovery | brakeAssert |
      brakeRelease | rateRampStep | poweredHour | marginAlarm | coolantStale | naturalStepSample | thermalCapCompute | druStep |
      sensorFail | junctionTrip | junctionTripRelease | headingExpiry | rotationDue | rotationSkip | migrationEnd | holdCourse | draSet |
      draGet | requestUpdate | firmwareDataTimeout | patchVerifyEnd | trialRunning | trialTimeout | deferralEnd | breakpointMatch |
      traceCapture | seaTrialEnd | prewakeDue |
      
       heartbeat | resync | getStatus | setEndpointId | getEndpointId | getEndpointUuid | getMctpVersionSupport |
      getMessageTypeSupport | getVendorDefinedMessageSupport | queryDeviceIdentifiers | getFirmwareParameters | passComponentTable |
      updateComponent | requestFirmwareData | transferComplete | verifyComplete | applyComplete | activateFirmware | pldmGetStatus |
      cancelUpdateComponent | cancelUpdate | getVersion | getCapabilities | negotiateAlgorithms | getDigests | getCertificate |
      challenge => exact outKeeps_onPkg ..
  case validationEnd | dmaLoadEnd | prepare | prepareDeadline | regionEnter | drainEnd | turnDrained | turnCommit | retire | leadWindowExpiry |
      regionDeadline | turnAbort | withdrawWaitEnd | withdrawLimit | turnWithdrawn => exact outKeeps_chartPkg ..
  case probePulse | scopeResetEnd => exact outKeeps_onPkgFree ..
  case backInServiceNotice | moorNotice | wakePatternSend | nak | replayTimeout | laneLockLoss | fastRetrainEnd | fastRetrainTimeout |
      fullTrainingEnd | trainingRetry => exact outKeeps_onPort ..
  case tallySum | tallyMax | tallyMin | tallyTopk => exact outKeeps_coreContribute ..
  case goldenPromotion | closeDebug => exact outKeeps_onTray ..
  case shiftIr | tapReset | idle => exact outKeeps_onBridge ..
  case shiftDr => exact outKeeps_shiftDr s ..
  case almanacUpdate | previousBankRestart | leaseExpiry | silenceTimeout | takeRoundEnd | echo | syncEnd => exact outKeeps_onAlm ..
  case almanacBoot a => exact outKeeps_almanacBoot s a
  case shelfAutoRelease | brakeTestEnd | busbarBrakeAssertion => exact outKeeps_onRack ..
  case releaseQuarantine | releaseAttestation | powerOn => exact (s.keeps_packageAction ..).next
  case psuHealthChange => exact (s.keeps_supplyChange ..).next
  case feedLost | psuRejoin => exact (State.Keeps.ite (s.keeps_supplyChange ..) (.refl s)).next
  case psuOvervoltage | busbarOvervoltage => exact .ite (.fault _) (.ite (.stay s) (s.keeps_supplyChange ..).next)
  case flowLimited => exact (s.keeps_cduAlarm ..).next
  case flowLimitedCleared | inletHighCleared => exact (State.Keeps.ite (s.keeps_cduAlarm ..) (.refl s)).next
  case inletHigh => exact .ite (.fault _) (.ite (.stay s) (s.keeps_cduAlarm ..).next)
  case dewRisk => exact .ite (.fault _) (s.keeps_cduAlarm ..).next
  case secondaryLow | secondaryRestored => exact (State.Keeps.ite (.refl s) ((((State.Keeps.refl s).setRack ..).trans (State.keeps_alarmSet ..)).trans (State.keeps_recapRack ..))).next
  case flowProven => exact (State.Keeps.ite (.refl s) (((State.Keeps.refl s).setRack ..).trans (State.keeps_goOn ..))).next
  case busbarRecovered => exact (State.Keeps.ite (.refl s)
    ((State.Keeps.foldl (fun s _ => (State.Keeps.refl s).setTray ..) _ _).trans (State.keeps_goOn ..))).next
  case feedPresent => exact .ite (.stay s) (((State.Keeps.refl s).setRack ..).trans (State.keeps_supplyChange ..)).next
  case readReg => exact .ite (outKeeps_onPkg ..) (outKeeps_busAccess ..)
  case writeReg => exact .ite (outKeeps_onPkg ..) (.ite (outKeeps_onPkg ..) (outKeeps_busAccess ..))
  case admitLinks => exact .ite (outKeeps_onPkg ..) (.stay s)
  case aonPkgAddrWrite => exact (State.Keeps.ite (s.keeps_writeAddress ..) (.refl s)).next
  case packetArrive => exact (keeps_arriveAt s ..).next
  case cwStart | cwActivation => exact outKeeps_checkedChips s ..
  case telemetryPoll => exact (s.keeps_pollPkg ..).next
  case openDebug => exact (s.keeps_fenced _ _ fun s => s.keeps_openBridge _).next
  case swapOut => exact (s.keeps_fenced _ _ fun s => s.keeps_swapPos ..).next
  case fencedAction => exact (s.keeps_fenced _ _ fun s => s.keeps_perform ..).next
  case relinquish => exact (s.keeps_fenced _ _ fun s => (State.Keeps.refl s).setTray ..).next
  case timeStrobe => exact (((State.Keeps.refl s).setPkg ..).setRack ..).next
  case mapSample => exact ((State.Keeps.refl s).setRouter ..).next
  case lentStorageAccess => exact outKeeps_onPkgMem s _ fun _ _ h => wf_lentAccess h ..
  case coreAccess => exact outKeeps_onPkgMem s _ fun _ _ h => wf_ite h (wf_coreAccessOp h ..)
  case dozeEntry => exact outKeeps_onPkgMem s _ fun _ _ h => wf_ite (wf_toDoze h ..) h
  case moorEntry => exact outKeeps_onPkgMem s _ fun _ _ h => wf_ite (wf_ite (wf_endMoor h ..) h) h
  case wakeComplete => exact outKeeps_onPkgMem s _ fun _ _ h => wf_ite (wf_goOn (wf_reloadStore h ..) ..) h
  case flowPacketReceive => exact outKeeps_onPkgMem s _ fun _ _ h => wf_ite (wf_receivePacket h deliverUnicast_wf ..) h
  case mgmtPacket => exact outKeeps_onPkgMem s _ fun _ _ h => wf_ite h (wf_receivePacket h deliverUnicast_wf ..)
  case castArrive => exact outKeeps_onPkgMem s _ fun _ _ h => wf_castArrive h ..
  case tallyArrive => exact outKeeps_onPkgMem s _ fun _ _ h => wf_ite h (wf_ite (wf_tallySettle h ..) h)
  case mergeWaitExpiry => exact outKeeps_onPkgMem s _ fun _ _ h => wf_ite (wf_tallySettle h ..) h
  case queryWrite => exact outKeeps_onPkgMem s _ fun _ _ h => wf_ite h (wf_takeNoticed (wf_writeOrWait h ..) ..)
  case isolationEnd => exact outKeeps_onPkgMem s _ fun _ _ h => wf_isolationDone h ..
  case detectorFire | ucGraceExpiry | ftGraceExpiry => exact outKeeps_onPkgGrave s _ fun _ _ h => h
  case unitDark => exact outKeeps_onPkgGrave s _ fun _ _ h => wf_goOn h ..
  case thermalShutdown => exact outKeeps_onPkgGrave s _ fun _ _ h => wf_ite h h
  case fence => exact outKeeps_onPkgGrave s _ fun _ _ h => wf_ite h (wf_ite h (wf_tallySettle h ..))
  case ceAlarmQuiet => exact outKeeps_onPkgGrave s _ fun _ _ h => wf_ite (wf_exitUnit h ..) h
  case ucQuiet => exact outKeeps_onPkgGrave s _ fun _ _ h => wf_ite (wf_exitUnit h ..) h
  case flagshipTakeover => exact outKeeps_flagshipTakeover s ..
  case resetHoldExpiry => exact outKeeps_resetHoldExpiry s ..
  case deferredAccessComplete => exact outKeeps_deferredAccessComplete s ..
  case fleetTurn => exact outKeeps_fleetTurn s ..
  case blockReceive => exact outKeeps_blockReceive s ..
  case packetDepart => exact outKeeps_packetDepart s ..
  case queryEnd => exact outKeeps_queryEnd s ..
  case shelfPoll => exact outKeeps_shelfPoll s ..
  case event => exact outKeeps_event s ..
  case draAccessEnd => exact outKeeps_draAccessEnd s ..
  case getMeasurements => exact outKeeps_getMeasurements s ..
  case reflashEnd => exact outKeeps_reflashEnd s ..
  case modPwrGood => exact outKeeps_modPwrGood s ..
  case pkgReset => exact outKeeps_pkgReset s ..
  case pkcRelease => exact outKeeps_pkcRelease s ..
  case bootTimeout => exact outKeeps_bootTimeout s ..
  case thermShdnN => exact outKeeps_thermShdnN s ..
  case modPresent => exact outKeeps_modPresent s ..
  case modLatchOpen => exact outKeeps_modLatchOpen s ..
  case renew => exact outKeeps_renew s ..
  case take => exact outKeeps_take s ..
  case takeGrant => exact outKeeps_takeGrant s ..
  case idempotentMessage => exact outKeeps_idempotentMessage s ..
  case standbyLost => exact outKeeps_standbyLost s ..
  case fleetDiscovery => exact outKeeps_fleetDiscovery s ..
  case rackCommitReport => exact outKeeps_rackCommitReport s ..
  case busbarLow => exact outKeeps_busbarLow s ..
  case siteCapSet => exact outKeeps_siteCapSet s ..
  case brakeTest => exact outKeeps_brakeTest s ..
  case cduSettingSet => exact outKeeps_cduSettingSet s ..
  case unitUpdate => exact outKeeps_unitUpdate s ..
  case turnChart => exact outKeeps_turnChart s ..
  case abortTurn => exact outKeeps_abortTurn s ..
  case swapoutRequest => exact outKeeps_swapoutRequest s ..
  case rackNumberSet => exact outKeeps_rackNumberSet s ..
  case updatePush => exact outKeeps_updatePush s ..
  case activate => exact outKeeps_activate s ..
  case handOver => exact outKeeps_handOver s ..
  case placementEnd => exact outKeeps_placementEnd s ..
  case lendAsk => exact outKeeps_lendAsk s ..
  case prewakeStart => exact outKeeps_prewakeStart s ..
  case flowSend => exact outKeeps_flowSend s ..
  case requestServe => exact outKeeps_requestServe s ..
  case queryStart => exact outKeeps_queryStart s ..
  case goingDarkNotice => exact outKeeps_goingDarkNotice s ..
  case linkResume => exact outKeeps_linkResume s ..
  case inputScan => exact outKeeps_inputScan s ..
  case holdTimeExpiry => exact outKeeps_holdTimeExpiry s ..
  case almanacBrakeRelease => exact outKeeps_almanacBrakeRelease s ..
  case capacityHoldEnd => exact outKeeps_capacityHoldEnd s ..
  case coolantRead => exact outKeeps_coolantRead s ..
  case setdasa => exact outKeeps_setdasa s ..
  case reactionEnd => exact outKeeps_reactionEnd s ..
  case hubReset => exact outKeeps_hubReset s ..
  case logMirror => exact outKeeps_logMirror s ..
  case bringUpDeadline => exact outKeeps_bringUpDeadline s ..
  case fleetOrder => exact outKeeps_fleetOrder s ..

/-! ### A machine without units -/

section
variable {s : State}

theorem State.helm_of_no_almanacs (ha : s.almanacs = []) (r : Fin 32) : s.helm r = none := by
  have hrole (a : AlmId) : (s.alm a).role = .off := by rw [State.alm, ha]; rfl
  simp [State.helm, hrole]

theorem State.turnClock_of_no_almanacs (ha : s.almanacs = []) (r : Fin 32) : s.turnClock r = s := by
  have hs : s.settleTurn r = s := by simp [State.settleTurn, State.helm_of_no_almanacs ha]
  simp [State.turnClock, hs, State.helm_of_no_almanacs ha]

theorem State.fleetClock_of_no_fleet (hm : s.fleet.members = []) (h0 : s.fleet.turnT0 = none) (hl : s.fleet.lostAt = none) :
    s.fleetClock = s := by
  have hw : s.watchFlagship = s := by
    obtain ⟨now, free, mem, pkgs, meridians, trays, almanacs, racks, fleet, pending⟩ := s
    cases fleet
    simp_all [State.watchFlagship]
  simp [State.fleetClock, hw, State.leadClock, h0]

/-- Where there is no unit, a cycle lets time pass alone. -/
theorem State.clock_of_empty (hp : s.pkgs = []) (ht : s.trays = []) (ha : s.almanacs = []) (hm : s.fleet.members = [])
    (h0 : s.fleet.turnT0 = none) (hl : s.fleet.lostAt = none) : s.clock = { s with now := s.now + 40 } := by
  have htick : s.tick = { s with now := s.now + 40 } := by simp [State.tick, hp]
  have hturn (l : List (Fin 32)) : ∀ t : State, t.almanacs = [] → l.foldl (fun s r => s.turnClock r) t = t := by
    induction l with
    | nil => exact fun t _ => rfl
    | cons r l ih => exact fun t h => by rw [List.foldl_cons, State.turnClock_of_no_almanacs h, ih t h]
  unfold State.clock
  rw [htick, hp, List.foldl_nil]
  dsimp only
  rw [ht, List.foldl_nil, hturn]
  · exact State.fleetClock_of_no_fleet hm h0 hl
  · exact ha

end

/-! ### The statements -/

/-- Settles O1: it is the second branch of `step`. -/
theorem stepRunsFront : Obligations.StepRunsFront := fun s c rest h => step_front s c rest h

/-- Settles O2: an empty queue runs the clock, which moves by 40 ns and then keeps queue and clock (`State.keeps_clock`); without packages, trays,
Almanacs and a fleet no unit acts. No command touches either (`exec_keeps`). -/
theorem queueAndClock : Obligations.QueueAndClock := by
  refine ⟨fun s hs => ⟨s.clock, step_idle s hs, ?_, ?_, ?_⟩, fun c s t h => ?_⟩
  · rw [s.keeps_clock.now, State.tick_now]
  · rw [s.keeps_clock.pending, State.tick_pending, hs]
  · intro hp ht ha hm h0 hl
    exact State.clock_of_empty hp ht ha hm h0 hl
  · exact ⟨((exec_keeps c s).keeps t h).pending, ((exec_keeps c s).keeps t h).now⟩

/-- Settles O3: a step is a cycle of the clock (`State.canonical_tick`, `State.keeps_clock`) or a command (`exec_keeps`). -/
theorem stepKeepsCanonical : Obligations.StepKeepsCanonical := by
  intro s t h hs
  cases hq : s.pending with
  | nil =>
    rw [step_idle s hq] at hs
    obtain rfl := Host.Outcome.next.inj hs
    exact s.keeps_clock.canonical (s.canonical_tick h)
  | cons c rest =>
    rw [step_front s c rest hq] at hs
    exact ((exec_keeps c _).keeps t hs).canonical h

/-- Settles O4: nothing is stored, and what a sparse array does not list reads as its default. -/
theorem resetState : Obligations.ResetState := by
  refine ⟨⟨rfl, rfl, rfl, rfl, rfl, rfl⟩, rfl, fun p off => rfl, fun p => ⟨rfl, fun c => rfl⟩, ?_, ?_, ?_, fun p => ⟨rfl, rfl, rfl⟩⟩
  · rfl
  · rfl
  · have h : resetWord (R.FAB_LINK_CFG 0) = 0x800a0304 := rfl
    rw [h]
    decide

end Sys2Proof.Machine
end

section
/-! PROOF. Which domains a wake powers, and accesses that are refused or wait for their block (R18, R62, R79). -/

namespace Sys2Proof.Machine
open Sys2Proof

/-! ### Fields -/

theorem Pkg.rg_put_ne (k : Pkg) (f : Fld) (v : Nat) {o : Nat} (h : o ≠ f.off) : (k.put f v).rg o = k.rg o := Pkg.rg_setRg_ne k _ h

/-- A bit that is set in a field reads 1. -/
theorem Pkg.bit_orBits (k : Pkg) (f : Fld) {b : Nat} (h : f.lo + f.width ≤ 32) (hb : b < f.width) : bit ((k.orBits f (2 ^ b)).get f) b = true := by
  rw [Pkg.orBits, Pkg.get_put_same _ _ _ h, bit, Nat.testBit_mod_two_pow, Nat.testBit_or, Nat.testBit_two_pow_self]
  simp [hb]

/-! ### Power domains -/

theorem Pkg.domainOn_of_rg {j k : Pkg} (h : ∀ i, j.rg (R.AON_DOMAIN_ON i) = k.rg (R.AON_DOMAIN_ON i)) (d : Nat) : j.domainOn d = k.domainOn d := by
  rw [Pkg.domainOn, h, Pkg.domainOn]

/-- The registers of the domains lie above the always-on registers that a wake writes. -/
theorem Pkg.domainOn_put (k : Pkg) (f : Fld) (v : Nat) (h : f.off < 0x200) (d : Nat) : (k.put f v).domainOn d = k.domainOn d :=
  Pkg.domainOn_of_rg (fun i => k.rg_put_ne f v (by unfold R.AON_DOMAIN_ON; omega)) d

theorem Pkg.domainOn_setDomain_same (k : Pkg) (b : Bool) (d : Nat) : (k.setDomain b d).domainOn d = b := by
  have h := putBits_bit (k.rg (R.AON_DOMAIN_ON (d / 32))) (d % 32) 1 b.toNat (d % 32) (Nat.mod_lt _ (by decide))
  rw [Pkg.domainOn, Pkg.setDomain, Pkg.rg_setRg_same, bit, h]
  cases b <;> simp
theorem Pkg.domainOn_setDomain_ne (k : Pkg) (b : Bool) {d e : Nat} (h : e ≠ d) : (k.setDomain b d).domainOn e = k.domainOn e := by
  by_cases hr : e / 32 = d / 32
  · have hb := putBits_bit (k.rg (R.AON_DOMAIN_ON (d / 32))) (d % 32) 1 b.toNat (e % 32) (Nat.mod_lt _ (by decide))
    rw [Pkg.domainOn, Pkg.setDomain, hr, Pkg.rg_setRg_same, bit, hb, if_neg (by omega), Pkg.domainOn, hr, bit]
  · rw [Pkg.domainOn, Pkg.setDomain, Pkg.rg_setRg_ne _ _ (by unfold R.AON_DOMAIN_ON; omega), Pkg.domainOn]

theorem Pkg.domainOn_setDomains : ∀ (ds : List Nat) (k : Pkg) (b : Bool) (d : Nat),
    (k.setDomains b ds).domainOn d = if d ∈ ds then b else k.domainOn d
  | [], k, b, d => by simp [Pkg.setDomains]
  | e :: ds, k, b, d => by
    have ih := Pkg.domainOn_setDomains ds (k.setDomain b e) b d
    rw [Pkg.setDomains] at ih
    rw [Pkg.setDomains, List.foldl_cons, ih]
    by_cases h : d = e
    · subst h; simp [Pkg.domainOn_setDomain_same]
    · simp [h, Pkg.domainOn_setDomain_ne]

theorem Pkg.domainOn_power (ds : List Nat) (k : Pkg) (d : Nat) : (k.power ds).domainOn d = (decide (d ∈ ds) || k.domainOn d) := by
  have h : ((k.setDomains true ds).clearBits F.AON_PKG_STATE_C_FURLED
      ((((List.range 4).filter (fun t => ds.contains (384 + t))).map (2 ^ ·)).foldl (· + ·) 0)).domainOn d = (decide (d ∈ ds) || k.domainOn d) := by
    rw [Pkg.clearBits, Pkg.domainOn_put _ _ _ (by decide), Pkg.domainOn_setDomains]
    by_cases hd : d ∈ ds <;> simp [hd]
  unfold Pkg.power
  dsimp only
  split
  · rw [Pkg.domainOn_put _ _ _ (by decide), h]
  · exact h

theorem Pkg.domainOn_leaveMoor (v : Nat) (k : Pkg) (d : Nat) : (k.leaveMoor v).domainOn d = k.domainOn d := by
  unfold Pkg.leaveMoor
  split_ifs
  · exact Pkg.domainOn_put _ _ _ (by decide) _
  · exact Pkg.domainOn_put _ _ _ (by decide) _
  · rfl

theorem Pkg.domainOn_wakeDomains (ds : List Nat) (k : Pkg) (d : Nat) : (k.wakeDomains ds).domainOn d = (decide (d ∈ ds) || k.domainOn d) := by
  rw [Pkg.wakeDomains, Pkg.domainOn_leaveMoor, Pkg.domainOn_power]
theorem Pkg.domainOn_wakeCause (k : Pkg) (b d : Nat) : (k.wakeCause b).domainOn d = k.domainOn d := Pkg.domainOn_put _ _ _ (by decide) _

/-! What a wake leaves unchanged: everything but registers. -/

theorem OnlyRegs.refl (k : Pkg) : OnlyRegs k k := rfl
theorem OnlyRegs.trans {j k l : Pkg} (h : OnlyRegs j k) (h' : OnlyRegs k l) : OnlyRegs j l :=
  Eq.trans h' (by rw [h])
theorem OnlyRegs.foldl {β : Type} {f : Pkg → β → Pkg} (hf : ∀ k b, OnlyRegs k (f k b)) : ∀ (l : List β) (k : Pkg), OnlyRegs k (l.foldl f k)
  | [], k => .refl k
  | b :: l, k => (hf k b).trans (OnlyRegs.foldl hf l _)
theorem OnlyRegs.setRg (k : Pkg) (o : Nat) (v : Word) : OnlyRegs k (k.setRg o v) := rfl
theorem OnlyRegs.put (k : Pkg) (f : Fld) (v : Nat) : OnlyRegs k (k.put f v) := rfl
theorem OnlyRegs.ite {c : Prop} [Decidable c] {j k l : Pkg} (h : OnlyRegs j k) (h' : OnlyRegs j l) : OnlyRegs j (if c then k else l) := by
  split
  · exact h
  · exact h'
theorem OnlyRegs.aon {j k : Pkg} (h : OnlyRegs j k) : k.aon = j.aon := by rw [h]

theorem Pkg.power_onlyRegs (ds : List Nat) (k : Pkg) : OnlyRegs k (k.power ds) := by
  have h : OnlyRegs k (k.setDomains true ds) := .foldl (fun k _ => .setRg k ..) _ _
  exact .ite ((h.trans (.put ..)).trans (.put ..)) (h.trans (.put ..))
theorem Pkg.leaveMoor_onlyRegs (v : Nat) (k : Pkg) : OnlyRegs k (k.leaveMoor v) := .ite (.put ..) (.ite (.put ..) (.refl k))
theorem Pkg.wakeDomains_onlyRegs (ds : List Nat) (k : Pkg) : OnlyRegs k (k.wakeDomains ds) := (k.power_onlyRegs ds).trans (Pkg.leaveMoor_onlyRegs ..)

/-! ### Accesses that are refused -/

theorem Pkg.busRefuses_of {k : Pkg} {off size : Nat} (h : size ≠ 4 ∨ off % 4 ≠ 0 ∨ findReg (off % 2 ^ 24) = none) : k.busRefuses off size = true := by
  unfold Pkg.busRefuses
  rcases h with h | h | h
  · simp [h]
  · simp [h]
  · rw [h]
    simp

/-- An access of one refused word needs no domain, so it does not wait. -/
theorem Pkg.mustDefer_of_refused {k : Pkg} {op : BusOp} {off : Nat} {w : Option Word} (hw : op.words = [(off, w)])
    (hr : k.busRefuses off op.size = true) : k.mustDefer op = false := by
  have hd : k.opDomains op = [] := by simp [Pkg.opDomains, Pkg.goodWords, hw, hr]
  simp [Pkg.mustDefer, hd]
  intro i _
  split <;> simp

/-- An access of one word that is refused completes with an error response and has no effect (R18, R62). -/
theorem busAccess_refused {i : Instr} {p : PkgId} {who : Requester} {off size : Nat} {w : Option Word} {s : State}
    (hi : busOpOf i = some (p, ⟨who, size, [(off, w)], none, .bus⟩)) (hreach : s.reaches p who = true)
    (hr : (s.pkg p).busRefuses off size = true) :
    busAccess i s = .next ({ s with free := s.free + 1 }.setPkg p ((s.pkg p).emit (.busError who off))) := by
  have hone (x : Bus) : busOne x off size w s.mem (s.pkg p) = none := by simp [busOne, hr]
  unfold busAccess
  rw [hi]
  dsimp only
  rw [hreach, Pkg.mustDefer_of_refused rfl hr]
  simp [State.busPerform, busWords, hone, BusOp.reply]
  intro h h'
  rw [show ((s.pkg p).emit (.busError who off)).pkgDark = (s.pkg p).pkgDark from rfl, h'] at h
  cases h

/-! ### Accesses that wait -/

theorem BRG_CTRL_bounds (t : Tile) : 0x800000 ≤ R.BRG_CTRL t.val ∧ R.BRG_CTRL t.val < 2 ^ 24 ∧ R.BRG_CTRL t.val % 4 = 0 := by
  have := t.isLt
  unfold R.BRG_CTRL
  omega

/-- A Bearing engine that is not held off is served by its own domain and its tile's. -/
theorem Pkg.blockDomains_BRG_CTRL {k : Pkg} {t : Tile} (h : holdOff k.localImg k.idx (192 + t.val) = false) :
    k.blockDomains (R.BRG_CTRL t.val) = [388 + t.val, 384 + t.val] := by
  obtain ⟨hlo, hhi, -⟩ := BRG_CTRL_bounds t
  have ht : (R.BRG_CTRL t.val - 0x800000) / 0x10000 = t.val := by have := t.isLt; unfold R.BRG_CTRL; omega
  have hf : ¬ (R.BRG_CTRL t.val = R.FLT_BOOT) ∧ ¬ (R.BRG_CTRL t.val ≤ R.FLT_LW_STATUS) ∧ ¬ (R.BRG_CTRL t.val < R.FLT_RELEASE) := by
    have : R.FLT_BOOT < 0x800000 ∧ R.FLT_LW_STATUS < 0x800000 ∧ R.FLT_RELEASE < 0x800000 := by decide
    omega
  unfold Pkg.blockDomains
  rw [if_neg (by omega), if_neg (by simp [hf]; omega)]
  iterate 7 rw [if_neg (by omega)]
  simp [ht, h]

theorem Pkg.busRefuses_BRG_CTRL {k : Pkg} (h : k.get F.UPD_STATUS_PAUSED = 0) (t : Tile) : k.busRefuses (R.BRG_CTRL t.val) 4 = false := by
  obtain ⟨hlo, hhi, ha⟩ := BRG_CTRL_bounds t
  rw [Pkg.busRefuses, Nat.mod_eq_of_lt hhi, findReg_BRG_CTRL, h]
  simp [ha]
  omega

/-- The block of a Bearing engine is woken by an access to it (R79). -/
theorem Pkg.wakeBlock_BRG_CTRL {k : Pkg} {t : Tile} (h : holdOff k.localImg k.idx (192 + t.val) = false) :
    k.wakeBlock (R.BRG_CTRL t.val) = (k.wakeDomains [388 + t.val, 384 + t.val]).wakeCause 7 := by
  have hw : windowCore (R.BRG_CTRL t.val) = none := by
    rw [windowCore, if_neg]
    have := (BRG_CTRL_bounds t).1
    omega
  unfold Pkg.wakeBlock
  rw [hw]
  dsimp only
  rw [Pkg.blockDomains_BRG_CTRL h]

/-- A write of BRG_CTRL that finds the engine off waits, and the engine and its tile are woken. -/
theorem exec_brgAbort_waits {s : State} {p : PkgId} {who : Requester} {t : Tile} (hreach : s.reaches p who = true)
    (hp : (s.pkg p).get F.UPD_STATUS_PAUSED = 0) (hoff : (s.pkg p).domainOn (388 + t.val) = false)
    (hh : holdOff (s.pkg p).localImg (s.pkg p).idx (192 + t.val) = false) :
    exec (.brgAbort p who t) s = .next (s.setPkg p (((s.pkg p).wakeBlock (R.BRG_CTRL t.val)).setAon
      fun a => { a with deferred := a.deferred ++ [.brgAbort p who t] })) := by
  have hwords : (s.pkg p).goodWords (writeOp who (R.BRG_CTRL t.val) 1) = [R.BRG_CTRL t.val] :=
    Pkg.goodWords_write (Pkg.busRefuses_BRG_CTRL hp t) (BRG_CTRL_bounds t).2.1
  have hdefer : (s.pkg p).mustDefer (writeOp who (R.BRG_CTRL t.val) 1) = true := by
    rw [Pkg.mustDefer, Pkg.opDomains, hwords]
    simp [Pkg.blockDomains_BRG_CTRL hh, hoff]
  change busAccess (.brgAbort p who t) s = _
  unfold busAccess
  rw [show busOpOf (.brgAbort p who t) = some (p, writeOp who (R.BRG_CTRL t.val) 1) from rfl]
  dsimp only [onPkg]
  rw [show (writeOp who (R.BRG_CTRL t.val) 1).who = who from rfl, hreach, hdefer, hwords, List.filter_cons_of_pos
    (by simp [Pkg.blockDomains_BRG_CTRL hh, hoff])]
  rfl

/-- Settles O6: a refused word needs no domain and has no effect (`busAccess_refused`); a waiting one wakes its block
(`Pkg.wakeBlock_BRG_CTRL`) and stands at the end of the list, which the domains' rise serves in order. -/
theorem refusedAndDeferredAccess : Obligations.RefusedAndDeferredAccess := by
  refine ⟨fun s p who off size w hreach h => ?_, fun s p => ⟨fun h => ?_, fun who t hreach hp hoff hh => ?_, fun who t hreach hp h => ?_⟩⟩
  · have hr : (s.pkg p).busRefuses off.toNat size = true := Pkg.busRefuses_of h
    exact ⟨busAccess_refused (i := .registerWrite p who off size w) rfl hreach hr,
      busAccess_refused (i := .readClear p who off size) rfl hreach hr, busAccess_refused (i := .lowWordRead p who off size) rfl hreach hr⟩
  · change execDeferredAccessComplete p s = _
    simp [execDeferredAccessComplete, h]
  · refine ⟨_, exec_brgAbort_waits hreach hp hoff hh, ?_⟩
    rw [Pkg.wakeBlock_BRG_CTRL hh]
    have hk := (s.pkg p).wakeDomains_onlyRegs [388 + t.val, 384 + t.val]
    refine ⟨by rw [← hk.aon]; rfl, ?_, ?_, Pkg.bit_orBits _ F.AON_WAKE_CAUSE_CAUSE (by decide) (by decide)⟩
    · change Pkg.domainOn (Pkg.wakeCause _ 7) _ = true
      rw [Pkg.domainOn_wakeCause, Pkg.domainOn_wakeDomains]
      simp
    · change Pkg.domainOn (Pkg.wakeCause _ 7) _ = true
      rw [Pkg.domainOn_wakeCause, Pkg.domainOn_wakeDomains]
      simp
  · change execDeferredAccessComplete p s = _
    simp [execDeferredAccessComplete, h, busOpOf]

end Sys2Proof.Machine
end

section
/-! PROOF. What reads of registers return and change (R13, R16, R17). -/

namespace Sys2Proof.Machine
open Sys2Proof

/-! ### Reads through an open window -/

theorem Pkg.latchUpper_dark (x : Bus) (d : RegDesc) (off : Nat) (k : Pkg) : (k.latchUpper x d off).dark = k.dark := by
  have h : ∀ (l : List Nat) (k : Pkg), (l.foldl (fun k n =>
      { k with latch := sset 0 k.latch (latchKey x.who (off + 4 * (n + 1))) (match findReg (off + 4 * (n + 1)) with
        | some e => BitVec.ofNat 32 (k.view x e (off + 4 * (n + 1)))
        | none => 0) }) k).dark = k.dark := by
    intro l
    induction l with
    | nil => exact fun _ => rfl
    | cons n l ih => exact fun k => by rw [List.foldl_cons, ih]
  exact h _ k
theorem Pkg.readClears_dark (k : Pkg) (d : RegDesc) (off : Nat) : (k.readClears d off).dark = k.dark := by
  unfold Pkg.readClears
  dsimp only
  split_ifs <;> rfl
theorem Pkg.busRead_dark (x : Bus) (d : RegDesc) (off : Nat) (plain : Bool) (k : Pkg) : (k.busRead x d off plain).2.dark = k.dark := by
  unfold Pkg.busRead
  dsimp only
  split_ifs <;> simp [Pkg.readClears_dark, Pkg.latchUpper_dark]

/-- What a read of an open register returns and leaves. -/
theorem busAccess_read {i : Instr} {p : PkgId} {who : Requester} {off : Nat} {d : RegDesc} {s : State}
    (hi : busOpOf i = some (p, ⟨who, 4, [(off, none)], none, .bus⟩)) (ho : Open s p who (off % 2 ^ 24)) (hd : findReg (off % 2 ^ 24) = some d)
    (hl : off < 2 ^ 25) (ha : off % 4 = 0) :
    busAccess i s =
      let r := (s.pkg p).busRead ⟨s.now, p, who, false, s.upIn p.rack, Config.freeWord s.free⟩ d (off % 2 ^ 24) (decide (off < 2 ^ 24))
      .next ({ s with free := s.free + 1 }.setPkg p (r.2.emit (.busData who off r.1))) := by
  obtain ⟨hreach, hon, hdef, hpause⟩ := ho
  have hr : (s.pkg p).busRefuses off 4 = false := by
    rw [Pkg.busRefuses, hd, hpause]
    simp [ha]
    omega
  have hwait : (s.pkg p).mustDefer ⟨who, 4, [(off, none)], none, .bus⟩ = false := by
    have hw : (s.pkg p).opDomains ⟨who, 4, [(off, none)], none, .bus⟩ = (s.pkg p).blockDomains (off % 2 ^ 24) := by
      simp [Pkg.opDomains, Pkg.goodWords, hr]
    rw [Pkg.mustDefer, hw, hdef]
    rw [List.all_eq_true] at hon
    simpa using hon
  have hone (x : Bus) : busOne x off 4 none s.mem (s.pkg p) =
      some (((s.pkg p).busRead x d (off % 2 ^ 24) (decide (off < 2 ^ 24))).1, s.mem,
        ((s.pkg p).busRead x d (off % 2 ^ 24) (decide (off < 2 ^ 24))).2) := by
    rw [busOne, hr, hd]
    rfl
  unfold busAccess
  rw [hi]
  dsimp only
  rw [hreach, hwait]
  simp only [State.busPerform, busWords, hone, BusOp.reply, Bool.not_true, Bool.false_eq_true, if_false, Host.Outcome.next.injEq]
  rw [if_neg]
  · rfl
  · simp [Pkg.pkgDark, Pkg.busRead_dark]

/-! ### What the reads of the statement do -/

/-- A register of one word shows its value; a plain read clears its RC fields. -/
theorem Pkg.busRead_of_words_le {d : RegDesc} (h : d.words ≤ 1) (x : Bus) (off : Nat) (plain : Bool) (k : Pkg) :
    k.busRead x d off plain = (BitVec.ofNat 32 (k.view x d off), if plain then k.readClears d off else k) := by
  have hw : ¬ 1 < d.words := by omega
  simp only [Pkg.busRead, hw, false_and, if_false]

/-- The RC fields that are bits of a stored word are cleared, and nothing else. -/
theorem Pkg.readClears_word {d : RegDesc} (he : d.base ≠ R.FAB_PORT_ERRS 0 0) (hl : d.base ≠ R.FAB_PORT_LEVEL 0 0) (k : Pkg) (off : Nat) :
    OnlyRegs k (k.readClears d off) ∧ (∀ i, i ≠ off → (k.readClears d off).rg i = k.rg i) ∧
      (k.readClears d off).rg off = k.rg off &&& ~~~ BitVec.ofNat 32 d.rc := by
  unfold Pkg.readClears
  dsimp only
  rw [if_neg he, if_neg hl]
  split_ifs with h
  · exact ⟨rfl, fun _ _ => rfl, by rw [h, show ~~~ BitVec.ofNat 32 0 = BitVec.allOnes 32 from by decide, BitVec.and_allOnes]⟩
  · exact ⟨rfl, fun i hi => Pkg.rg_setRg_ne k _ hi, Pkg.rg_setRg_same k ..⟩

theorem findReg_AON_TIME_LO : findReg R.AON_TIME_LO = some ⟨"AON_TIME_LO", 0x20, 1, 0x0, 1, 0x0, 0x0, 0x0, 0x0, 0x0, 0x0, 0, 2⟩ := by decide +kernel
theorem findReg_AON_TIME_HI : findReg R.AON_TIME_HI = some ⟨"AON_TIME_HI", 0x24, 1, 0x0, 1, 0x0, 0x0, 0x0, 0x0, 0x0, 0x0, 1, 2⟩ := by decide +kernel

/-- The low word of fleet time, whose read latches the high word (R16, R67). -/
theorem Pkg.busRead_AON_TIME_LO (x : Bus) (plain : Bool) (k : Pkg) :
    k.busRead x ⟨"AON_TIME_LO", 0x20, 1, 0x0, 1, 0x0, 0x0, 0x0, 0x0, 0x0, 0x0, 0, 2⟩ R.AON_TIME_LO plain =
      (BitVec.ofNat 32 (k.time x.now % 2 ^ 32),
        { k with latch := sset 0 k.latch (latchKey x.who R.AON_TIME_HI) (BitVec.ofNat 32 (k.time x.now / 2 ^ 32)) }) := by
  have hhi : findReg (R.AON_TIME_LO + 4 * (0 + 1)) = _ := findReg_AON_TIME_HI
  have hview : k.view x ⟨"AON_TIME_LO", 0x20, 1, 0x0, 1, 0x0, 0x0, 0x0, 0x0, 0x0, 0x0, 0, 2⟩ R.AON_TIME_LO = k.time x.now % 2 ^ 32 := rfl
  have hup : k.view x ⟨"AON_TIME_HI", 0x24, 1, 0x0, 1, 0x0, 0x0, 0x0, 0x0, 0x0, 0x0, 1, 2⟩ R.AON_TIME_HI = k.time x.now / 2 ^ 32 := rfl
  rw [Pkg.busRead, if_neg (by simp)]
  simp only [Pkg.latchUpper, hview, List.range_succ, List.range_zero, List.nil_append, List.foldl_cons, List.foldl_nil, hhi, Pkg.readClears]
  simp only [if_true, ite_self, show (1 : Nat) < 2 from by decide]
  rfl
/-- The high word comes from the latch of the requester (R16). -/
theorem Pkg.busRead_AON_TIME_HI (x : Bus) (plain : Bool) (k : Pkg) :
    k.busRead x ⟨"AON_TIME_HI", 0x24, 1, 0x0, 1, 0x0, 0x0, 0x0, 0x0, 0x0, 0x0, 1, 2⟩ R.AON_TIME_HI plain =
      (sget 0 k.latch (latchKey x.who R.AON_TIME_HI), k) := by
  rw [Pkg.busRead, if_pos (by simp)]

/-- Settles O7: what each read returns and changes is `Pkg.busRead`, for one word (`Pkg.busRead_of_words_le`) and for the two of fleet time. -/
theorem readSideEffects : Obligations.ReadSideEffects := by
  refine ⟨?_, fun s p who hlo hhi => ⟨?_, ?_⟩⟩
  · intro s p who off d o v ho hd ha hw he hl
    have ha' : off.toNat % 4 = 0 := by omega
    have h := busAccess_read (i := .readClear p who off 4) rfl ho hd off.isLt ha'
    rw [Pkg.busRead_of_words_le hw] at h
    constructor
    · intro hlt
      rw [decide_eq_true hlt] at h
      exact ⟨_, h, Pkg.readClears_word he hl ..⟩
    · intro hge
      rw [decide_eq_false (by omega)] at h
      exact h
  · have h := busAccess_read (i := .lowWordRead p who (BitVec.ofNat 25 R.AON_TIME_LO) 4) (off := R.AON_TIME_LO) rfl hlo findReg_AON_TIME_LO
      (by decide) (by decide)
    rw [show R.AON_TIME_LO % 2 ^ 24 = R.AON_TIME_LO from rfl, Pkg.busRead_AON_TIME_LO] at h
    exact h
  · have h := busAccess_read (i := .lowWordRead p who (BitVec.ofNat 25 R.AON_TIME_HI) 4) (off := R.AON_TIME_HI) rfl hhi findReg_AON_TIME_HI
      (by decide) (by decide)
    rw [show R.AON_TIME_HI % 2 ^ 24 = R.AON_TIME_HI from rfl, Pkg.busRead_AON_TIME_HI] at h
    exact h

end Sys2Proof.Machine
end

section
/-! PROOF. Management messages: what their sending leaves unchanged, and that they join their flow (R146, R156, R198). -/

namespace Sys2Proof.Machine
open Sys2Proof

/-! ### What decides a message -/

/-- Two states of a package stamp, address and check a management message alike. -/
structure Pkg.SendsAlike (j k : Pkg) : Prop where
  aon : k.aon = j.aon
  ret : k.ret = j.ret
  chart : k.chart = j.chart
  addr : k.addr = j.addr
  stamp : k.stamp = j.stamp

theorem Pkg.SendsAlike.refl (k : Pkg) : k.SendsAlike k := ⟨rfl, rfl, rfl, rfl, rfl⟩
theorem Pkg.SendsAlike.trans {i j k : Pkg} (h : i.SendsAlike j) (h' : j.SendsAlike k) : i.SendsAlike k :=
  ⟨h'.aon.trans h.aon, h'.ret.trans h.ret, h'.chart.trans h.chart, h'.addr.trans h.addr, h'.stamp.trans h.stamp⟩
/-- A change of any register but those of the address and the stamp. -/
theorem Pkg.SendsAlike.setRg (k : Pkg) {o : Nat} (v : Word) (ha : R.AON_PKG_ADDR ≠ o) (hs : R.CHT_SLOT_STATUS ≠ o) : k.SendsAlike (k.setRg o v) :=
  ⟨rfl, rfl, rfl, congrArg (fun w => bits (BitVec.toNat w) 0 16) (Pkg.rg_setRg_ne k v ha),
    congrArg (fun w => decide (bits (BitVec.toNat w) F.CHT_SLOT_STATUS_STAMP.lo 1 = 1)) (Pkg.rg_setRg_ne k v hs)⟩
theorem Pkg.SendsAlike.put (k : Pkg) {f : Fld} (v : Nat) (ha : R.AON_PKG_ADDR ≠ f.off) (hs : R.CHT_SLOT_STATUS ≠ f.off) : k.SendsAlike (k.put f v) :=
  .setRg k _ ha hs
/-- A change of nothing that a message carries. -/
theorem Pkg.SendsAlike.of_eq {j k : Pkg} (hr : k.regs = j.regs) (ha : k.aon = j.aon) (hret : k.ret = j.ret) (hc : k.chart = j.chart) :
    j.SendsAlike k :=
  ⟨ha, hret, hc, Pkg.get_of_regs hr _, by rw [Pkg.stamp, Pkg.stamp, Pkg.get_of_regs hr]⟩

section
variable {j k : Pkg} (h : j.SendsAlike k)
include h

theorem Pkg.SendsAlike.mgmt (now : Nat) (op : Byte) (dst : Nat) (payload : List Byte) : k.mgmt now op dst payload = j.mgmt now op dst payload := by
  simp only [Pkg.mgmt, Pkg.newPacket, Pkg.birth, Pkg.time, h.aon, h.ret, h.addr, h.stamp]

theorem Pkg.SendsAlike.refusal (pk : Packet) : k.refusal pk = j.refusal pk := by
  have ht (e : Bool) : k.tables e = j.tables e := by simp only [Pkg.tables, h.chart]
  simp only [Pkg.refusal, ht, h.addr, Pkg.rackNo] <;> rfl

theorem Pkg.SendsAlike.barred {pk : Packet} (hc : pk.cls ≠ 2) (core : Nat) : k.barred core pk = j.barred core pk := by
  have ht (e : Bool) : k.tables e = j.tables e := by simp only [Pkg.tables, h.chart]
  simp only [Pkg.barred, hc, if_false, h.refusal, ht, h.stamp, Pkg.idx, h.addr] <;> rfl

theorem Pkg.SendsAlike.barred_mgmt (now : Nat) (op : Byte) (dst : Nat) (payload : List Byte) :
    k.barred 255 (k.mgmt now op dst payload) = j.barred 255 (j.mgmt now op dst payload) := by
  rw [h.mgmt, h.barred (show (4 : BitVec 3) ≠ 2 by decide)]

end

/-! ### Sending -/

/-- A message joins its flow, or it is counted in FAB_DISCARD_B of the flow's F-tile. -/
theorem Pkg.enqueueMgmt_eq (now : Nat) (op : Byte) (dst : Nat) (payload : List Byte) (k : Pkg) :
    k.enqueueMgmt now op dst payload = k.enqueue (flowKey dst 4 0) 255 (k.mgmt now op dst payload) ∨
      ((∃ st, k.barred 255 (k.mgmt now op dst payload) = some st) ∧ (k.enqueueMgmt now op dst payload = k ∨ ∃ t, t < 2 ∧
        k.enqueueMgmt now op dst payload = k.count (F.FAB_DISCARD_B_NO_ENDPOINT t) 1)) := by
  unfold Pkg.enqueueMgmt
  cases hb : k.barred 255 (k.mgmt now op dst payload) with
  | none => exact .inl (by simp only [hb])
  | some st =>
    refine .inr ⟨⟨st, rfl⟩, ?_⟩
    simp only [hb, Pkg.refuse]
    rw [if_neg (show ¬ 255 < 192 by decide)]
    split_ifs
    · exact .inl rfl
    · refine .inr ⟨_, ?_, rfl⟩
      unfold Pkg.flowTile
      split_ifs <;> omega

/-- A message changes nothing but the flows and, where it is discarded, its counter. -/
theorem Pkg.enqueueMgmt_frame (now : Nat) (op : Byte) (dst : Nat) (payload : List Byte) (k : Pkg) :
    k.enqueueMgmt now op dst payload = { k with regs := (k.enqueueMgmt now op dst payload).regs, fab := (k.enqueueMgmt now op dst payload).fab } := by
  rcases k.enqueueMgmt_eq now op dst payload with h | ⟨-, h | ⟨t, -, h⟩⟩ <;> rw [h] <;> rfl

theorem Pkg.enqueueMgmt_rg (now : Nat) (op : Byte) (dst : Nat) (payload : List Byte) (k : Pkg) {o : Nat} (ho : ¬ isDiscardB o) :
    (k.enqueueMgmt now op dst payload).rg o = k.rg o := by
  rcases k.enqueueMgmt_eq now op dst payload with h | ⟨-, h | ⟨t, ht, h⟩⟩
  · rw [h]
    exact Pkg.rg_of_regs rfl o
  · rw [h]
  · rw [h, Pkg.count, Pkg.rg_put_ne]
    unfold isDiscardB at ho
    interval_cases t
    · exact fun e => ho (.inl e)
    · exact fun e => ho (.inr e)

/-- A message that no check bars stands at the end of its flow. -/
theorem Pkg.sends_enqueueMgmt {now : Nat} {op : Byte} {dst : Nat} {payload : List Byte} {j k : Pkg} (ha : j.SendsAlike k) (hf : k.fab = j.fab) :
    j.Sends now op dst payload (k.enqueueMgmt now op dst payload) := by
  intro hb
  rw [← ha.barred_mgmt] at hb
  rcases k.enqueueMgmt_eq now op dst payload with h | ⟨⟨st, h⟩, -⟩
  · rw [h, ha.mgmt]
    simp [Pkg.enqueue, Pkg.setTx, Pkg.txFlow, hf]
  · rw [hb] at h
    cases h

end Sys2Proof.Machine
end

section
/-! PROOF. PLACE and RELEASE: what a write of CORE_SEG_CTRL sets in motion (R44–R48). -/

namespace Sys2Proof.Machine
open Sys2Proof

/-! ### Bits of a written word -/

theorem bit_or (v m b : Nat) : bit (v ||| m) b = (bit v b || bit m b) := Nat.testBit_or ..

/-- An action bit below a field leaves what the field holds. -/
theorem bits_or_of_lt {m lo : Nat} (h : m < 2 ^ lo) (v width : Nat) : bits (v ||| m) lo width = bits v lo width := by
  unfold bits
  rw [Nat.shiftRight_or_distrib, Nat.shiftRight_eq_div_pow m, Nat.div_eq_of_lt h, Nat.or_zero]

theorem bits_lt (v lo width : Nat) : bits v lo width < 2 ^ width := Nat.mod_lt _ (Nat.two_pow_pos _)

/-! ### The registers of segments -/

theorem CORE_SEG_CTRL_bounds (c : Core) (n : Fin 64) : 0x400408 ≤ R.CORE_SEG_CTRL c.val n.val ∧ R.CORE_SEG_CTRL c.val n.val < 0x4C0000 ∧
    R.CORE_SEG_CTRL c.val n.val % 4 = 0 ∧ (R.CORE_SEG_CTRL c.val n.val - 0x400408) / 0x1000 = c.val ∧
    (R.CORE_SEG_CTRL c.val n.val - 0x400408) % 0x1000 / 0x10 = n.val := by
  have hc := c.isLt
  have hn := n.isLt
  unfold R.CORE_SEG_CTRL
  refine ⟨?_, ?_, ?_, ?_, ?_⟩ <;> omega

/-- The control register of a segment is not one of another entry, nor a base, a length or a lender, nor a counter of discards. -/
theorem CORE_SEG_CTRL_ne_other {c n i : Nat} (h : i ≠ n) : R.CORE_SEG_CTRL c i ≠ R.CORE_SEG_CTRL c n := by
  unfold R.CORE_SEG_CTRL; omega
theorem CORE_SEG_BASE_ne_CTRL (c i n : Nat) : R.CORE_SEG_BASE c i ≠ R.CORE_SEG_CTRL c n := by
  unfold R.CORE_SEG_CTRL R.CORE_SEG_BASE; omega
theorem CORE_SEG_LEN_ne_CTRL (c i n : Nat) : R.CORE_SEG_LEN c i ≠ R.CORE_SEG_CTRL c n := by
  unfold R.CORE_SEG_CTRL R.CORE_SEG_LEN; omega
theorem not_isDiscardB_CORE_SEG_CTRL (c n : Nat) : ¬ isDiscardB (R.CORE_SEG_CTRL c n) := by
  unfold isDiscardB R.CORE_SEG_CTRL R.FAB_DISCARD_B; omega

/-- The line of the register map that describes the control registers of segments. -/
def segCtrlDesc : RegDesc := ⟨"CORE_SEG_CTRL", 0x400408, 192, 0x1000, 64, 0x10, 0x0, 0x770, 0x0, 0x0, 0x6, 0, 1⟩

theorem busWrite_CORE_SEG_CTRL (x : Bus) (c : Core) (n : Fin 64) (w : Word) (m : Mem) (k : Pkg) :
    busWrite x segCtrlDesc (R.CORE_SEG_CTRL c.val n.val) w m k = (m, k.segCtrlWrite x.now x.up c.val n.val w) := by
  have hi : k.ignores x segCtrlDesc (R.CORE_SEG_CTRL c.val n.val) w.toNat = false := rfl
  have hr : k.rejects segCtrlDesc.base w.toNat = false := rfl
  have hb : segCtrlDesc.base = R.CORE_SEG_CTRL 0 0 := rfl
  obtain ⟨-, -, -, hrow, hcol⟩ := CORE_SEG_CTRL_bounds c n
  have hrow : regRow segCtrlDesc (R.CORE_SEG_CTRL c.val n.val) = c.val := by simp [regRow, segCtrlDesc, hrow]
  have hcol : regCol segCtrlDesc (R.CORE_SEG_CTRL c.val n.val) = n.val := by simp [regCol, segCtrlDesc, hcol]
  unfold busWrite
  dsimp only
  rw [hi, hr, if_pos hb, hrow, hcol]
  rfl

/-! ### What a placement and a release leave -/

theorem Pkg.record_dark (now c n at_ pages : Nat) (t : Tried) (k : Pkg) : (k.record now c n at_ pages t).dark = k.dark := by
  cases t with
  | ask tier =>
    unfold Pkg.record
    dsimp only
    rw [Pkg.enqueueMgmt_frame]
    rfl
  | _ => rfl

theorem Pkg.place_dark (now : Nat) (up : Nat → Bool) (c n : Nat) (k : Pkg) : (k.place now up c n).dark = k.dark := by
  unfold Pkg.place
  dsimp only
  split_ifs <;> first | rw [Pkg.record_dark]; rfl | rfl

theorem Pkg.release_dark (now c n : Nat) (k : Pkg) : (k.release now c n).dark = k.dark := by
  unfold Pkg.release
  dsimp only
  split
  · split_ifs
    · rw [Pkg.enqueueMgmt_frame]
      rfl
    · rfl
  · rfl

theorem Pkg.segCtrlWrite_dark (now : Nat) (up : Nat → Bool) (c n : Nat) (w : Word) (k : Pkg) : (k.segCtrlWrite now up c n w).dark = k.dark := by
  unfold Pkg.segCtrlWrite
  dsimp only
  split_ifs <;> simp [Pkg.release_dark, Pkg.place_dark]

/-- A write of a segment's control register through an open window. -/
theorem busAccess_CORE_SEG_CTRL {i : Instr} {s : State} {p : PkgId} {who : Requester} {c : Core} {n : Fin 64} {w : Word}
    (hi : busOpOf i = some (p, writeOp who (R.CORE_SEG_CTRL c.val n.val) w)) (ho : Open s p who (R.CORE_SEG_CTRL c.val n.val)) :
    busAccess i s = .next (s.wrote p who (R.CORE_SEG_CTRL c.val n.val) s.mem
      ((s.pkg p).segCtrlWrite s.now (s.upIn p.rack) c.val n.val w)) := by
  obtain ⟨-, hhi, ha, -⟩ := CORE_SEG_CTRL_bounds c n
  have h := busAccess_write (d := segCtrlDesc) hi ho (findReg_CORE_SEG_CTRL c n) (by omega) ha
    (by rw [busWrite_CORE_SEG_CTRL]; unfold Pkg.pkgDark; rw [Pkg.segCtrlWrite_dark])
  rwa [busWrite_CORE_SEG_CTRL] at h

/-! ### PLACE -/

/-- What a PLACE does to an idle entry before its outcome is judged: CEILING and FLOOR are taken, and STATUS is BUSY. -/
def Pkg.busySeg (c n ceiling floor : Nat) (k : Pkg) : Pkg :=
  ((k.put (F.CORE_SEG_CTRL_CEILING c n) ceiling).put (F.CORE_SEG_CTRL_FLOOR c n) floor).put (F.CORE_SEG_CTRL_STATUS c n) 1

theorem Pkg.busySeg_rg (c n ceiling floor : Nat) (k : Pkg) {o : Nat} (h : o ≠ R.CORE_SEG_CTRL c n) : (k.busySeg c n ceiling floor).rg o = k.rg o := by
  unfold Pkg.busySeg
  rw [Pkg.rg_put_ne _ _ _ h, Pkg.rg_put_ne _ _ _ h, Pkg.rg_put_ne _ _ _ h]
theorem Pkg.segStatus_busySeg (c n ceiling floor : Nat) (k : Pkg) : (k.busySeg c n ceiling floor).segStatus c n = 1 :=
  Pkg.get_put_same _ (F.CORE_SEG_CTRL_STATUS c n) 1 (Nat.le_of_ble_eq_true rfl)
/-- A field of the control register that PLACE leaves. -/
theorem Pkg.get_busySeg (c n ceiling floor : Nat) (k : Pkg) {f : Fld} (ho : f.off = R.CORE_SEG_CTRL c n) (hf : f.lo + f.width ≤ 4) :
    (k.busySeg c n ceiling floor).get f = k.get f := by
  unfold Pkg.busySeg
  have h : f.lo + f.width ≤ 32 := by omega
  rw [Pkg.get_put_disjoint _ _ _ _ h ho (.inl (le_trans hf (Nat.le_of_ble_eq_true rfl))), Pkg.get_put_disjoint _ _ _ _ h ho (.inl (le_trans hf (Nat.le_of_ble_eq_true rfl))),
    Pkg.get_put_disjoint _ _ _ _ h ho (.inl (le_trans hf (Nat.le_of_ble_eq_true rfl)))]
theorem Pkg.ceiling_busySeg (c n : Nat) {ceiling : Nat} (floor : Nat) (k : Pkg) (h : ceiling < 8) :
    (k.busySeg c n ceiling floor).get (F.CORE_SEG_CTRL_CEILING c n) = ceiling := by
  unfold Pkg.busySeg
  rw [Pkg.get_put_disjoint _ (F.CORE_SEG_CTRL_STATUS c n) (F.CORE_SEG_CTRL_CEILING c n) _ (Nat.le_of_ble_eq_true rfl) rfl (.inl (Nat.le_of_ble_eq_true rfl)),
    Pkg.get_put_disjoint _ (F.CORE_SEG_CTRL_FLOOR c n) (F.CORE_SEG_CTRL_CEILING c n) _ (Nat.le_of_ble_eq_true rfl) rfl (.inl (Nat.le_of_ble_eq_true rfl)),
    Pkg.get_put_same _ (F.CORE_SEG_CTRL_CEILING c n) _ (Nat.le_of_ble_eq_true rfl)]
  exact Nat.mod_eq_of_lt h
theorem Pkg.floor_busySeg (c n ceiling : Nat) {floor : Nat} (k : Pkg) (h : floor < 8) :
    (k.busySeg c n ceiling floor).get (F.CORE_SEG_CTRL_FLOOR c n) = floor := by
  unfold Pkg.busySeg
  rw [Pkg.get_put_disjoint _ (F.CORE_SEG_CTRL_STATUS c n) (F.CORE_SEG_CTRL_FLOOR c n) _ (Nat.le_of_ble_eq_true rfl) rfl (.inl (Nat.le_of_ble_eq_true rfl)),
    Pkg.get_put_same _ (F.CORE_SEG_CTRL_FLOOR c n) _ (Nat.le_of_ble_eq_true rfl)]
  exact Nat.mod_eq_of_lt h

theorem Pkg.get_of_rg {j k : Pkg} {f : Fld} (h : j.rg f.off = k.rg f.off) : j.get f = k.get f := by rw [Pkg.get, h, Pkg.get]

/-- Whether an entry overlaps another says nothing of its own control register. -/
theorem Pkg.overlaps_congr {j k : Pkg} {c n : Nat} (h : ∀ o, o ≠ R.CORE_SEG_CTRL c n → k.rg o = j.rg o) : k.overlaps c n = j.overlaps c n := by
  have hb (i : Nat) : k.rg (R.CORE_SEG_BASE c i) = j.rg (R.CORE_SEG_BASE c i) := h _ (CORE_SEG_BASE_ne_CTRL c i n)
  have hl (i : Nat) : k.get (F.CORE_SEG_LEN_PAGES c i) = j.get (F.CORE_SEG_LEN_PAGES c i) := Pkg.get_of_rg (h _ (CORE_SEG_LEN_ne_CTRL c i n))
  simp only [Pkg.overlaps, hb, hl]
  refine congrArg (fun f => (List.range 64).any f) (funext fun i => ?_)
  by_cases hi : i = n
  · simp [hi]
  · have hr := h _ (CORE_SEG_CTRL_ne_other hi)
    rw [show k.segValid c i = j.segValid c i by unfold Pkg.segValid; rw [Pkg.get_of_rg hr],
      show k.segStatus c i = j.segStatus c i from Pkg.get_of_rg hr]

section
variable (now c n at_ pages : Nat) (t : Tried) (k : Pkg)

theorem Pkg.record_segs : (k.record now c n at_ pages t).mem.segs = k.mem.segs := by
  cases t with
  | ask tier =>
    unfold Pkg.record
    dsimp only
    rw [Pkg.enqueueMgmt_frame]
    rfl
  | _ => rfl
theorem Pkg.record_rg {o : Nat} (ho : ¬ isDiscardB o) : (k.record now c n at_ pages t).rg o = k.rg o := by
  cases t with
  | ask tier =>
    unfold Pkg.record
    dsimp only
    rw [Pkg.enqueueMgmt_rg _ _ _ _ _ ho]
    rfl
  | _ => rfl
theorem Pkg.record_noRoom : (k.record now c n at_ pages .noRoom).mem.placing = k.mem.placing ++ [⟨c, n, at_, none, 3, none⟩] := rfl
theorem Pkg.record_placed (st : Storage) :
    (k.record now c n at_ pages (.placed st)).mem.placing = k.mem.placing ++ [⟨c, n, at_, none, 2, some st⟩] := rfl

end

/-- The outcome of a placement, judged in the order of R44: past the address space, then an overlap, then the tiers. -/
def Pkg.judged (now : Nat) (c n pages : Nat) (ovl : Bool) (floor ceiling base : Nat) (t : Tried) (k : Pkg) : Pkg :=
  if 2 ^ 32 < base + pages then k.record now c n now pages .noRoom
  else if pages ≠ 0 ∧ ovl = true then k.setPlacing (· ++ [⟨c, n, now, none, 4, none⟩])
  else if pages = 0 ∨ 5 < floor ∨ 5 < ceiling then k.record now c n now pages .noRoom
  else k.record now c n now pages t

theorem Pkg.judged_segs (now c n pages : Nat) (ovl : Bool) (floor ceiling base : Nat) (t : Tried) (k : Pkg) :
    (k.judged now c n pages ovl floor ceiling base t).mem.segs = k.mem.segs := by
  unfold Pkg.judged
  split_ifs
  · exact Pkg.record_segs ..
  · rfl
  · exact Pkg.record_segs ..
  · exact Pkg.record_segs ..
theorem Pkg.judged_rg (now c n pages : Nat) (ovl : Bool) (floor ceiling base : Nat) (t : Tried) (k : Pkg) {o : Nat} (ho : ¬ isDiscardB o) :
    (k.judged now c n pages ovl floor ceiling base t).rg o = k.rg o := by
  unfold Pkg.judged
  split_ifs
  · exact Pkg.record_rg _ _ _ _ _ _ _ ho
  · rfl
  · exact Pkg.record_rg _ _ _ _ _ _ _ ho
  · exact Pkg.record_rg _ _ _ _ _ _ _ ho

section
variable {k : Pkg} {c n : Nat} {w : Word} (now : Nat) (up : Nat → Bool)

/-- PLACE of an idle entry: the limits are taken and the tiers are tried. -/
theorem Pkg.segCtrlWrite_of_place (h1 : bit w.toNat 1 = true) (h2 : bit w.toNat 2 = false) (hv : k.segValid c n = false)
    (hs : k.segStatus c n ≠ 1) : k.segCtrlWrite now up c n w = ((k.put (F.CORE_SEG_CTRL_CEILING c n) (bits w.toNat 4 3)).put
      (F.CORE_SEG_CTRL_FLOOR c n) (bits w.toNat 8 3)).place now up c n := by
  simp [Pkg.segCtrlWrite, h1, h2, hv, hs]
/-- PLACE and RELEASE at once are ignored in full. -/
theorem Pkg.segCtrlWrite_both (h1 : bit w.toNat 1 = true) (h2 : bit w.toNat 2 = true) : k.segCtrlWrite now up c n w = k := by
  simp [Pkg.segCtrlWrite, h1, h2]
theorem Pkg.segCtrlWrite_place_locked (h2 : bit w.toNat 2 = false) (hl : k.segValid c n = true ∨ k.segStatus c n = 1) :
    k.segCtrlWrite now up c n w = k := by
  simp [Pkg.segCtrlWrite, h2, hl]
theorem Pkg.segCtrlWrite_release_busy (h2 : bit w.toNat 2 = true) (hs : k.segStatus c n = 1) : k.segCtrlWrite now up c n w = k := by
  simp [Pkg.segCtrlWrite, h2, hs]

end

theorem bit_or_place (w : Word) : bit (w ||| 2).toNat 1 = true ∧ bit (w ||| 2).toNat 2 = bit w.toNat 2 := by
  rw [show (w ||| 2).toNat = w.toNat ||| 2 from BitVec.toNat_or .., bit_or, bit_or]
  exact ⟨Bool.or_true _, Bool.or_false _⟩
theorem bit_or_release (w : Word) : bit (w ||| 4).toNat 2 = true ∧ bit (w ||| 4).toNat 1 = bit w.toNat 1 := by
  rw [show (w ||| 4).toNat = w.toNat ||| 4 from BitVec.toNat_or .., bit_or, bit_or]
  exact ⟨Bool.or_true _, Bool.or_false _⟩

/-- PLACE on an entry that is neither valid nor BUSY. -/
theorem Pkg.segCtrlWrite_place {k : Pkg} {c n : Nat} {w : Word} (now : Nat) (up : Nat → Bool) (hv : k.segValid c n = false)
    (hs : k.segStatus c n ≠ 1) (hw : bit w.toNat 2 = false) :
    ∃ j : Pkg, j.mem = k.mem ∧ j.pkc = k.pkc ∧
      k.segCtrlWrite now up c n (w ||| 2) = (k.busySeg c n (bits w.toNat 4 3) (bits w.toNat 8 3)).judged now c n
        (k.get (F.CORE_SEG_LEN_PAGES c n)) (k.overlaps c n) (bits w.toNat 8 3) (bits w.toNat 4 3) (k.rg (R.CORE_SEG_BASE c n)).toNat
        (j.tryTiers up c (bits w.toNat 4 3) (k.get (F.CORE_SEG_LENDER_LENDER c n)) (k.get (F.CORE_SEG_LEN_PAGES c n))
          (tiersFrom (bits w.toNat 4 3) (bits w.toNat 8 3))) := by
  have hval : (w ||| 2).toNat = w.toNat ||| 2 := BitVec.toNat_or ..
  have hc : bits (w ||| 2).toNat 4 3 = bits w.toNat 4 3 := by rw [hval, bits_or_of_lt (by decide)]
  have hf : bits (w ||| 2).toNat 8 3 = bits w.toNat 8 3 := by rw [hval, bits_or_of_lt (by decide)]
  let j := (k.put (F.CORE_SEG_CTRL_CEILING c n) (bits w.toNat 4 3)).put (F.CORE_SEG_CTRL_FLOOR c n) (bits w.toNat 8 3)
  have hj (o : Nat) (h : o ≠ R.CORE_SEG_CTRL c n) : j.rg o = k.rg o := by
    rw [Pkg.rg_put_ne _ _ _ h, Pkg.rg_put_ne _ _ _ h]
  have hlen : j.get (F.CORE_SEG_LEN_PAGES c n) = k.get (F.CORE_SEG_LEN_PAGES c n) := Pkg.get_of_rg (hj _ (CORE_SEG_LEN_ne_CTRL c n n))
  have hlender : j.get (F.CORE_SEG_LENDER_LENDER c n) = k.get (F.CORE_SEG_LENDER_LENDER c n) :=
    Pkg.get_of_rg (hj _ (by unfold R.CORE_SEG_CTRL; change R.CORE_SEG_LENDER c n ≠ _; unfold R.CORE_SEG_LENDER; omega))
  have hbase : j.rg (R.CORE_SEG_BASE c n) = k.rg (R.CORE_SEG_BASE c n) := hj _ (CORE_SEG_BASE_ne_CTRL c n n)
  have hceil : j.get (F.CORE_SEG_CTRL_CEILING c n) = bits w.toNat 4 3 := by
    rw [Pkg.get_put_disjoint _ (F.CORE_SEG_CTRL_FLOOR c n) (F.CORE_SEG_CTRL_CEILING c n) _ (Nat.le_of_ble_eq_true rfl) rfl
      (.inl (Nat.le_of_ble_eq_true rfl)), Pkg.get_put_same _ (F.CORE_SEG_CTRL_CEILING c n) _ (Nat.le_of_ble_eq_true rfl)]
    exact Nat.mod_eq_of_lt (bits_lt ..)
  have hfloor : j.get (F.CORE_SEG_CTRL_FLOOR c n) = bits w.toNat 8 3 := by
    rw [Pkg.get_put_same _ (F.CORE_SEG_CTRL_FLOOR c n) _ (Nat.le_of_ble_eq_true rfl)]
    exact Nat.mod_eq_of_lt (bits_lt ..)
  refine ⟨j, rfl, rfl, ?_⟩
  have hplace : k.segCtrlWrite now up c n (w ||| 2) = j.place now up c n := by
    rw [Pkg.segCtrlWrite_of_place now up (bit_or_place w).1 ((bit_or_place w).2.trans hw) hv hs, hc, hf]
  rw [hplace]
  unfold Pkg.place
  dsimp only
  rw [hlen, hlender, hbase, hceil, hfloor, Pkg.overlaps_congr hj]
  rfl

theorem tiersFrom_of_lt {a b : Nat} (h : b < a) : tiersFrom a b = [] := by
  rw [tiersFrom, show b + 1 - a = 0 by omega]
  rfl
theorem tiersFrom_self (a : Nat) : tiersFrom a a = [a] := by
  rw [tiersFrom, show a + 1 - a = 1 by omega]
  simp

/-- A core's store or the S-tile, tried alone (R44). -/
theorem Pkg.tryTiers_one (k : Pkg) (up : Nat → Bool) (c ceiling lender pages : Nat) {t : Nat} (ht : t ≤ 1) :
    k.tryTiers up c ceiling lender pages [t] = match pickFit (k.used c t) (k.tierPages t) pages with
      | some s => .placed ⟨t, 4096 * s, pages, 0⟩
      | none => .noRoom := by
  unfold Pkg.tryTiers
  rw [if_neg (by omega)]
  simp only [show ¬ t = 2 by omega, false_and, if_false]
  split <;> rename_i h <;> simp [h, Pkg.tryTiers]

theorem Pkg.used_of_mem {j k : Pkg} (h : j.mem = k.mem) (c t : Nat) : j.used c t = k.used c t := by
  unfold Pkg.used
  rw [h]
theorem Pkg.tierPages_one {j k : Pkg} {t : Nat} (ht : t ≤ 1) : j.tierPages t = k.tierPages t := by
  interval_cases t <;> rfl

/-- Settles O8: PLACE on an idle entry is judged in the order of R44 (`Pkg.segCtrlWrite_place`); the other writes change nothing. -/
theorem placeWrites : Obligations.PlaceWrites := by
  constructor
  · intro s p who c n w ho hv hs hw j base pages ceiling floor
    obtain ⟨i, himem, hipkc, hwrite⟩ := Pkg.segCtrlWrite_place s.now (s.upIn p.rack) hv hs hw
    refine ⟨_, busAccess_CORE_SEG_CTRL (i := .place p who c n w) rfl ho, ?_⟩
    have hjudged : _ = (j.busySeg c.val n.val ceiling floor).judged s.now c.val n.val pages (j.overlaps c.val n.val) floor ceiling base
      (i.tryTiers (s.upIn p.rack) c.val ceiling (j.get (F.CORE_SEG_LENDER_LENDER c.val n.val)) pages (tiersFrom ceiling floor)) := hwrite
    rw [hjudged]
    have hctrl {f : Fld} (hf : f.off = R.CORE_SEG_CTRL c.val n.val) := Pkg.get_of_rg (f := f)
      (Pkg.judged_rg s.now c.val n.val pages (j.overlaps c.val n.val) floor ceiling base (i.tryTiers (s.upIn p.rack) c.val ceiling
        (j.get (F.CORE_SEG_LENDER_LENDER c.val n.val)) pages (tiersFrom ceiling floor)) (j.busySeg c.val n.val ceiling floor)
        (by rw [hf]; exact not_isDiscardB_CORE_SEG_CTRL _ _))
    refine ⟨?_, ?_, ?_, ?_, ?_, ?_, ?_, ?_, ?_, ?_⟩
    · exact (hctrl rfl).trans (Pkg.segStatus_busySeg ..)
    · unfold Pkg.segValid at hv ⊢
      rw [hctrl rfl, Pkg.get_busySeg _ _ _ _ _ rfl (Nat.le_of_ble_eq_true rfl)]
      exact hv
    · exact Pkg.judged_segs ..
    · exact (hctrl rfl).trans (Pkg.ceiling_busySeg _ _ _ _ (bits_lt ..))
    · exact (hctrl rfl).trans (Pkg.floor_busySeg _ _ _ _ (bits_lt ..))
    · intro o hne hd
      rw [Pkg.judged_rg _ _ _ _ _ _ _ _ _ _ hd, Pkg.busySeg_rg _ _ _ _ _ hne]
    · intro h
      rw [Pkg.judged, if_pos h]
      rfl
    · intro h hp hover
      rw [Pkg.judged, if_neg (by omega), if_pos ⟨hp, hover⟩]
      rfl
    · intro h hp hno
      rw [Pkg.judged, if_neg (by omega), if_neg (by rintro ⟨h0, h1⟩; exact hp.elim h0 fun hp => by rw [hp] at h1; cases h1)]
      by_cases hrange : pages = 0 ∨ 5 < floor ∨ 5 < ceiling
      · rw [if_pos hrange]
        rfl
      · rw [if_neg hrange, tiersFrom_of_lt (by omega)]
        rfl
    · intro h hover hp heq hone
      rw [Pkg.judged, if_neg (by omega), if_neg (by simp [hover]), if_neg (by omega), heq, tiersFrom_self, Pkg.tryTiers_one _ _ _ _ _ _ hone,
        Pkg.used_of_mem himem, Pkg.tierPages_one (k := j) hone]
      cases pickFit (j.used c.val ceiling) (j.tierPages ceiling) pages <;> rfl
  · intro s p who c n w ho same
    have hsame {i : Instr} {w' : Word} (hi : busOpOf i = some (p, writeOp who (R.CORE_SEG_CTRL c.val n.val) w'))
        (h : (s.pkg p).segCtrlWrite s.now (s.upIn p.rack) c.val n.val w' = s.pkg p) : busAccess i s = same := by
      rw [busAccess_CORE_SEG_CTRL hi ho, h]
    obtain ⟨hp1, hp2⟩ := bit_or_place w
    obtain ⟨hr2, hr1⟩ := bit_or_release w
    exact ⟨fun h => hsame (i := .place p who c n w) rfl (Pkg.segCtrlWrite_both _ _ hp1 (hp2.trans h)),
      fun h => hsame (i := .segmentRelease p who c n w) rfl (Pkg.segCtrlWrite_both _ _ (hr1.trans h) hr2),
      fun h hl => hsame (i := .place p who c n w) rfl (Pkg.segCtrlWrite_place_locked _ _ (hp2.trans h) hl),
      fun h => hsame (i := .segmentRelease p who c n w) rfl (Pkg.segCtrlWrite_release_busy _ _ hr2 h)⟩

end Sys2Proof.Machine
end

section
/-! PROOF. How a placement ends and how storage is released (R46, R48–R50). -/

namespace Sys2Proof.Machine
open Sys2Proof

/-! ### A package where nothing waits -/

theorem Pkg.Quiet.of_eq {j k : Pkg} (h : j.Quiet) (ha : k.mem.accesses = j.mem.accesses) (hw : k.mem.writes = j.mem.writes)
    (hf : k.fab = j.fab) (ht : k.tally = j.tally) : k.Quiet := by
  unfold Pkg.Quiet at h ⊢
  rwa [ha, hw, hf, ht]

/-- Where nothing waits, nothing goes on. -/
theorem goOn_of_quiet {k : Pkg} (h : k.Quiet) (now : Nat) (p : PkgId) (m : Mem) : goOn now p m k = (m, k) := by
  obtain ⟨hacc, hwr, hrx, hslots, hwait⟩ := h
  have h1 : retryAccesses now p m k = (m, k) := by
    rw [retryAccesses, hacc, List.foldl_nil]
    refine Prod.ext rfl ?_
    conv_rhs => rw [show k = { k with mem := { k.mem with accesses := k.mem.accesses } } from rfl, hacc]
  have h2 : resumeFlows now (deliverCast now p) 2 (m, k) = (m, k) := by
    have hnone : (k.fab.rx.map (·.1)).filter (fun key => key / 128 % 8 = 2) = [] := by
      rw [List.filter_eq_nil_iff]
      intro key hkey
      obtain ⟨e, he, rfl⟩ := List.mem_map.1 hkey
      simpa using hrx e he
    rw [resumeFlows, hnone, List.foldl_nil]
  have h3 : retryWrites now p m k = (m, k) := by
    rw [retryWrites, hwr, List.foldl_nil]
    refine Prod.ext rfl ?_
    conv_rhs => rw [show k = { k with mem := { k.mem with writes := k.mem.writes } } from rfl, hwr]
  unfold goOn
  rw [h1]
  dsimp only
  rw [h2]
  dsimp only
  rw [h3]
  exact if_pos ⟨hslots, hwait⟩

/-! ### The outcome of a placement shows -/

/-- What the control register of an entry shows once its placement has ended. -/
def Pkg.shownPlaced (x : Placing) (k : Pkg) : Pkg :=
  let k1 := k.put (F.CORE_SEG_CTRL_STATUS x.core x.entry) x.outcome
  match x.store with
  | none => k1
  | some st => (k1.put (F.CORE_SEG_CTRL_PLACED_TIER x.core x.entry) st.tier).put (F.CORE_SEG_CTRL_VALID x.core x.entry) 1

theorem Pkg.put_setPlacing (k : Pkg) (g : List Placing → List Placing) (f : Fld) (v : Nat) : (k.setPlacing g).put f v = (k.put f v).setPlacing g := rfl

theorem OnlyRegs.fab {j k : Pkg} (h : OnlyRegs j k) : k.fab = j.fab := by rw [h]
theorem OnlyRegs.tally {j k : Pkg} (h : OnlyRegs j k) : k.tally = j.tally := by rw [h]
theorem OnlyRegs.out {j k : Pkg} (h : OnlyRegs j k) : k.out = j.out := by rw [h]

theorem Pkg.shownPlaced_onlyRegs (x : Placing) (k : Pkg) : OnlyRegs k (k.shownPlaced x) := by
  unfold Pkg.shownPlaced
  dsimp only
  cases x.store <;> rfl

/-- The end of a placement changes the control register, and which storage is held or lost. -/
structure Pkg.EndsPlacing (x : Placing) (k j : Pkg) : Prop where
  regs : j.regs = (k.shownPlaced x).regs
  accesses : j.mem.accesses = k.mem.accesses
  writes : j.mem.writes = k.mem.writes
  fab : j.fab = k.fab
  tally : j.tally = k.tally
  out : j.out = k.out
  segs_of_none : x.store = none → j.mem.segs = k.mem.segs
  segs_of_some : ∀ st, x.store = some st → x.outcome ≠ 6 → sfind j.mem.segs (segKey x.core x.entry) = some st

theorem Pkg.showPlaced_ends (x : Placing) (k : Pkg) : k.EndsPlacing x (k.showPlaced x) := by
  unfold Pkg.showPlaced
  dsimp only
  split
  · next h => exact ⟨by unfold Pkg.shownPlaced; rw [h]; rfl, rfl, rfl, rfl, rfl, rfl, fun _ => rfl, fun _ hst => by rw [h] at hst; cases hst⟩
  · next st h =>
    have hregs : (((k.setPlacing (List.filter (· ≠ x))).put (F.CORE_SEG_CTRL_STATUS x.core x.entry) x.outcome).put
        (F.CORE_SEG_CTRL_PLACED_TIER x.core x.entry) st.tier |>.put (F.CORE_SEG_CTRL_VALID x.core x.entry) 1).regs = (k.shownPlaced x).regs := by
      rw [Pkg.put_setPlacing, Pkg.put_setPlacing, Pkg.put_setPlacing, Pkg.shownPlaced, h]
      rfl
    have hnone {P : Prop} (hn : x.store = none) : P := by rw [h] at hn; cases hn
    split
    · refine ⟨hregs, rfl, rfl, rfl, rfl, rfl, hnone, fun st' hst _ => ?_⟩
      obtain rfl := Option.some.inj (h.symm.trans hst)
      exact sfind_sinsert_same ..
    · next h6 =>
      split
      · exact ⟨hregs, rfl, rfl, rfl, rfl, rfl, hnone, fun _ _ hne => absurd hne h6⟩
      · exact ⟨hregs, rfl, rfl, rfl, rfl, rfl, hnone, fun _ _ hne => absurd hne h6⟩

/-- PLACEMENT_END of a known outcome where nothing waits. -/
theorem exec_placementEnd {s : State} {p : PkgId} {c : Core} {n : Fin 64} {x : Placing}
    (hx : (s.pkg p).mem.placing.find? (fun y => y.core = c.val && y.entry = n.val) = some x) (ht : x.waitTag = none) (hq : (s.pkg p).Quiet) :
    exec (.placementEnd p c n) s = .next ({ s with mem := match x.store with
      | some st => eraseStorage p c.val (s.pkg p).spillBase st s.mem
      | none => s.mem }.setPkg p ((s.pkg p).showPlaced x)) := by
  have hcore : x.core = c.val := by
    have := List.find?_some hx
    simp only [Bool.and_eq_true, decide_eq_true_eq] at this
    exact this.1
  have hfind : (s.pkg p).mem.placing.find? (fun y => y.core = c.val && y.entry = n.val && y.waitTag.isNone) = some x := by
    rw [List.find?_eq_some_iff_append] at hx ⊢
    obtain ⟨hp, as, bs, hl, hno⟩ := hx
    refine ⟨by rw [hp, ht]; rfl, as, bs, hl, fun a ha => ?_⟩
    have := hno a ha
    simp only [Bool.not_eq_true'] at this ⊢
    rw [this, Bool.false_and]
  have hquiet : ((s.pkg p).showPlaced x).Quiet := by
    have h := (s.pkg p).showPlaced_ends x
    exact hq.of_eq h.accesses h.writes h.fab h.tally
  change execPlacementEnd p c n s = _
  unfold execPlacementEnd onPkgMem
  dsimp only
  rw [hx]
  dsimp only
  rw [if_pos (by rw [ht]; rfl), hfind]
  dsimp only
  rw [goOn_of_quiet hquiet, hcore] <;> rfl

/-! ### The contents of newly placed storage -/

theorem sfind_filter {α : Type} (p : Nat → Bool) : ∀ (m : SMap α) (i : Nat), sfind (m.filter fun e => p e.1) i = if p i then sfind m i else none
  | [], i => by simp [sfind]
  | (n, v) :: m, i => by
    have ih := sfind_filter p m i
    by_cases hn : p n
    · by_cases hi : i = n
      · subst hi; simp [hn, sfind]
      · simp [hn, sfind, hi, ih]
    · by_cases hi : i = n
      · subst hi; simpa [hn, sfind] using ih
      · simp [hn, sfind, hi, ih]

theorem sfind_memErase (m : Mem) (key len i : Nat) : sfind (memErase m key len) i = if key ≤ i ∧ i < key + len then none else sfind m i := by
  rw [memErase, sfind_filter fun n => !(key ≤ n && n < key + len)]
  by_cases h : key ≤ i ∧ i < key + len
  · simp [h]
  · rw [if_neg h, if_pos]
    simp only [Bool.not_eq_true', Bool.and_eq_false_iff, decide_eq_false_iff_not]
    omega

/-! ### RELEASE -/

/-- The state of a package once an entry is released: STATUS is IDLE, VALID clears, and its storage is freed (R49). -/
def Pkg.freed (c n : Nat) (k : Pkg) : Pkg :=
  { (k.put (F.CORE_SEG_CTRL_STATUS c n) 0).put (F.CORE_SEG_CTRL_VALID c n) 0 with
    mem := { k.mem with segs := serase k.mem.segs (segKey c n), lostLent := serase k.mem.lostLent (segKey c n) } }

theorem Pkg.freed_regs (c n : Nat) (k : Pkg) :
    (k.freed c n).regs = ((k.put (F.CORE_SEG_CTRL_STATUS c n) 0).put (F.CORE_SEG_CTRL_VALID c n) 0).regs := rfl
theorem Pkg.freed_rg (c n : Nat) (k : Pkg) {o : Nat} (h : o ≠ R.CORE_SEG_CTRL c n) : (k.freed c n).rg o = k.rg o := by
  rw [Pkg.rg_of_regs (Pkg.freed_regs c n k), Pkg.rg_put_ne _ _ _ h, Pkg.rg_put_ne _ _ _ h]
theorem Pkg.freed_status (c n : Nat) (k : Pkg) : (k.freed c n).get (F.CORE_SEG_CTRL_STATUS c n) = 0 := by
  rw [Pkg.get_of_regs (Pkg.freed_regs c n k), Pkg.get_put_disjoint _ (F.CORE_SEG_CTRL_VALID c n) (F.CORE_SEG_CTRL_STATUS c n) _
    (Nat.le_of_ble_eq_true rfl) rfl (.inr (Nat.le_of_ble_eq_true rfl)), Pkg.get_put_same _ (F.CORE_SEG_CTRL_STATUS c n) _ (Nat.le_of_ble_eq_true rfl)]
  rfl
theorem Pkg.freed_valid (c n : Nat) (k : Pkg) : (k.freed c n).get (F.CORE_SEG_CTRL_VALID c n) = 0 := by
  rw [Pkg.get_of_regs (Pkg.freed_regs c n k), Pkg.get_put_same _ (F.CORE_SEG_CTRL_VALID c n) _ (Nat.le_of_ble_eq_true rfl)]
  rfl
theorem Pkg.freed_sendsAlike (c n : Nat) (k : Pkg) : k.SendsAlike (k.freed c n) := by
  have ha : F.AON_PKG_ADDR_ADDR.off ≠ R.CORE_SEG_CTRL c n := by
    change R.AON_PKG_ADDR ≠ _; unfold R.AON_PKG_ADDR R.CORE_SEG_CTRL; omega
  have hs : F.CHT_SLOT_STATUS_STAMP.off ≠ R.CORE_SEG_CTRL c n := by
    change R.CHT_SLOT_STATUS ≠ _; unfold R.CHT_SLOT_STATUS R.CORE_SEG_CTRL; omega
  exact ⟨rfl, rfl, rfl, Pkg.get_of_rg (k.freed_rg c n ha), by unfold Pkg.stamp; rw [Pkg.get_of_rg (Pkg.freed_rg c n k hs)]⟩

/-- The storage that an entry holds, or that it lost at a lender that is gone. -/
def Pkg.heldBy (c n : Nat) (k : Pkg) : Option Storage := (sfind k.mem.segs (segKey c n)).or (sfind k.mem.lostLent (segKey c n))

theorem Pkg.release_lent {k : Pkg} {c n : Nat} {st : Storage} (now : Nat) (h : k.heldBy c n = some st) (ht : st.tier = 3 ∨ st.tier = 4) :
    k.release now c n = (k.freed c n).enqueueMgmt now 0x2B st.lender.toNat (leBytes 8 st.off ++ leBytes 4 st.pages) := by
  rw [Pkg.heldBy] at h
  simp only [Pkg.release, h]
  rw [if_pos ht]
  rfl
theorem Pkg.release_local {k : Pkg} {c n : Nat} (now : Nat) (h : ∀ st, k.heldBy c n = some st → st.tier ≠ 3 ∧ st.tier ≠ 4) :
    k.release now c n = k.freed c n := by
  unfold Pkg.heldBy at h
  unfold Pkg.release
  dsimp only
  split
  · next st hst =>
    have := h st hst
    rw [if_neg (by omega)]
    rfl
  · rfl

/-- RELEASE of an entry that is not BUSY: the limits may be taken, and the entry is freed. -/
theorem Pkg.segCtrlWrite_release {k : Pkg} {c n : Nat} {w : Word} (now : Nat) (up : Nat → Bool) (h1 : bit w.toNat 1 = false)
    (h2 : bit w.toNat 2 = true) (hs : k.segStatus c n ≠ 1) : ∃ j : Pkg, OnlyRegs k j ∧ (∀ o, o ≠ R.CORE_SEG_CTRL c n → j.rg o = k.rg o) ∧
      k.segCtrlWrite now up c n w = j.release now c n := by
  cases hv : k.segValid c n with
  | true => exact ⟨k, rfl, fun _ _ => rfl, by simp [Pkg.segCtrlWrite, h1, h2, hs, hv]⟩
  | false =>
    refine ⟨_, ?_, ?_, by simp only [Pkg.segCtrlWrite, h1, h2, hs, hv, Bool.false_and, Bool.false_eq_true, if_false, decide_false,
      Bool.or_false, if_true]; rfl⟩
    · rfl
    · intro o h
      rw [Pkg.rg_put_ne _ _ _ h, Pkg.rg_put_ne _ _ _ h]

/-! ### What the control register shows -/

section
variable {x : Placing} (k : Pkg)

theorem Pkg.shownPlaced_status (h : x.outcome < 16) : (k.shownPlaced x).get (F.CORE_SEG_CTRL_STATUS x.core x.entry) = x.outcome := by
  have hst : (k.put (F.CORE_SEG_CTRL_STATUS x.core x.entry) x.outcome).get (F.CORE_SEG_CTRL_STATUS x.core x.entry) = x.outcome := by
    rw [Pkg.get_put_same _ (F.CORE_SEG_CTRL_STATUS x.core x.entry) _ (Nat.le_of_ble_eq_true rfl)]
    exact Nat.mod_eq_of_lt h
  unfold Pkg.shownPlaced
  dsimp only
  split
  · exact hst
  · rw [Pkg.get_put_disjoint _ (F.CORE_SEG_CTRL_VALID x.core x.entry) (F.CORE_SEG_CTRL_STATUS x.core x.entry) _ (Nat.le_of_ble_eq_true rfl) rfl
      (.inr (Nat.le_of_ble_eq_true rfl)), Pkg.get_put_disjoint _ (F.CORE_SEG_CTRL_PLACED_TIER x.core x.entry)
      (F.CORE_SEG_CTRL_STATUS x.core x.entry) _ (Nat.le_of_ble_eq_true rfl) rfl (.inr (Nat.le_of_ble_eq_true rfl)), hst]

theorem Pkg.shownPlaced_valid {st : Storage} (h : x.store = some st) : (k.shownPlaced x).get (F.CORE_SEG_CTRL_VALID x.core x.entry) = 1 := by
  rw [Pkg.shownPlaced, h]
  dsimp only
  rw [Pkg.get_put_same _ (F.CORE_SEG_CTRL_VALID x.core x.entry) _ (Nat.le_of_ble_eq_true rfl)]
  rfl

theorem Pkg.shownPlaced_tier {st : Storage} (h : x.store = some st) (ht : st.tier < 8) :
    (k.shownPlaced x).get (F.CORE_SEG_CTRL_PLACED_TIER x.core x.entry) = st.tier := by
  rw [Pkg.shownPlaced, h]
  dsimp only
  rw [Pkg.get_put_disjoint _ (F.CORE_SEG_CTRL_VALID x.core x.entry) (F.CORE_SEG_CTRL_PLACED_TIER x.core x.entry) _
    (Nat.le_of_ble_eq_true rfl) rfl (.inr (Nat.le_of_ble_eq_true rfl)),
    Pkg.get_put_same _ (F.CORE_SEG_CTRL_PLACED_TIER x.core x.entry) _ (Nat.le_of_ble_eq_true rfl)]
  exact Nat.mod_eq_of_lt ht

theorem Pkg.shownPlaced_valid_of_none (h : x.store = none) :
    (k.shownPlaced x).get (F.CORE_SEG_CTRL_VALID x.core x.entry) = k.get (F.CORE_SEG_CTRL_VALID x.core x.entry) := by
  rw [Pkg.shownPlaced, h]
  dsimp only
  rw [Pkg.get_put_disjoint _ (F.CORE_SEG_CTRL_STATUS x.core x.entry) (F.CORE_SEG_CTRL_VALID x.core x.entry) _
    (Nat.le_of_ble_eq_true rfl) rfl (.inl (Nat.le_of_ble_eq_true rfl))]

theorem Pkg.shownPlaced_rg {o : Nat} (h : o ≠ R.CORE_SEG_CTRL x.core x.entry) : (k.shownPlaced x).rg o = k.rg o := by
  unfold Pkg.shownPlaced
  dsimp only
  split
  · rw [Pkg.rg_put_ne _ _ _ h]
  · rw [Pkg.rg_put_ne _ _ _ h, Pkg.rg_put_ne _ _ _ h, Pkg.rg_put_ne _ _ _ h]

end

/-! ### The statement -/

/-- A release leaves the grants of others, and of the registers only those that it may change. -/
theorem Pkg.release_frame (now c n : Nat) (k : Pkg) :
    (k.release now c n).mem = (k.freed c n).mem ∧ ∀ o, ¬ isDiscardB o → (k.release now c n).rg o = (k.freed c n).rg o := by
  by_cases h : ∀ st, k.heldBy c n = some st → st.tier ≠ 3 ∧ st.tier ≠ 4
  · rw [Pkg.release_local now h]
    exact ⟨rfl, fun _ _ => rfl⟩
  · push Not at h
    obtain ⟨st, hst, ht⟩ := h
    rw [Pkg.release_lent now hst (by by_cases h3 : st.tier = 3; exact .inl h3; exact .inr (ht h3))]
    refine ⟨?_, fun o ho => Pkg.enqueueMgmt_rg _ _ _ _ _ ho⟩
    rw [Pkg.enqueueMgmt_frame]

/-- Settles O9: a known outcome shows as `Pkg.EndsPlacing` says, storage is forgotten by `memErase`, and a release leaves `Pkg.freed` with
LEND_FREE on its way to a lender. -/
theorem placementEndsAndRelease : Obligations.PlacementEndsAndRelease := by
  refine ⟨fun s p c n x hx ht hq ho htier => ?_, fun p c spill st m i h3 h4 => ?_, fun s p c n x hx ht hnow => ?_, ?_⟩
  · have h := (s.pkg p).showPlaced_ends x
    obtain ⟨hcore, hentry⟩ : x.core = c.val ∧ x.entry = n.val := by simpa using List.find?_some hx
    refine ⟨_, exec_placementEnd hx ht hq, ?_⟩
    rw [← hcore, ← hentry]
    refine ⟨(Pkg.get_of_regs h.regs _).trans (Pkg.shownPlaced_status _ ho), h.out, fun st hst => ⟨?_, ?_, h.segs_of_some st hst⟩,
      fun hn => ⟨?_, h.segs_of_none hn⟩, fun o hne => (Pkg.rg_of_regs h.regs o).trans (Pkg.shownPlaced_rg _ hne)⟩
    · rw [Pkg.segValid, Pkg.get_of_regs h.regs, Pkg.shownPlaced_valid _ hst]
      rfl
    · rw [Pkg.get_of_regs h.regs, Pkg.shownPlaced_tier _ hst (htier st hst)]
    · rw [Pkg.segValid, Pkg.get_of_regs h.regs, Pkg.shownPlaced_valid_of_none _ hn, Pkg.segValid]
  · intro e
    rw [eraseStorage, if_neg (by omega)]
    exact sfind_memErase ..
  · change execPlacementEnd p c n s = _
    unfold execPlacementEnd onPkgMem
    dsimp only
    rw [hx]
    dsimp only
    rw [if_neg (by cases hw : x.waitTag with | none => exact absurd hw ht | some _ => simp), if_pos hnow]
  · intro s p who c n w ho hs h1 j held
    obtain ⟨hr2, hr1⟩ := bit_or_release w
    obtain ⟨i, hregs, hrg, hwrite⟩ := Pkg.segCtrlWrite_release s.now (s.upIn p.rack) (hr1.trans h1) hr2 hs
    have hmem : i.mem = j.mem := by rw [hregs]
    have hfab : i.fab = j.fab := hregs.fab
    have hheld : i.heldBy c.val n.val = held := by rw [Pkg.heldBy, hmem]
    obtain ⟨hrmem, hrrg⟩ := i.release_frame s.now c.val n.val
    have hctrl := hrrg _ (not_isDiscardB_CORE_SEG_CTRL c.val n.val)
    refine ⟨_, busAccess_CORE_SEG_CTRL (i := .segmentRelease p who c n w) rfl ho, ?_⟩
    rw [hwrite]
    refine ⟨?_, ?_, ?_, ?_, ?_, fun o hne hd => ?_, fun st hst ht => ?_, fun hl => ?_⟩
    · rw [Pkg.segStatus, Pkg.get_of_rg (f := F.CORE_SEG_CTRL_STATUS c.val n.val) hctrl, Pkg.freed_status]
    · rw [Pkg.segValid, Pkg.get_of_rg (f := F.CORE_SEG_CTRL_VALID c.val n.val) hctrl, Pkg.freed_valid]
      rfl
    · rw [hrmem, ← hmem]
      rfl
    · rw [hrmem, ← hmem]
      rfl
    · rw [hrmem, ← hmem]
      rfl
    · rw [hrrg o hd, Pkg.freed_rg _ _ _ hne, hrg o hne]
    · rw [Pkg.release_lent _ (hheld.trans hst) ht]
      have halike : j.SendsAlike i := by
        have ha : F.AON_PKG_ADDR_ADDR.off ≠ R.CORE_SEG_CTRL c.val n.val := by
          change R.AON_PKG_ADDR ≠ _; unfold R.AON_PKG_ADDR R.CORE_SEG_CTRL; omega
        have hst : F.CHT_SLOT_STATUS_STAMP.off ≠ R.CORE_SEG_CTRL c.val n.val := by
          change R.CHT_SLOT_STATUS ≠ _; unfold R.CHT_SLOT_STATUS R.CORE_SEG_CTRL; omega
        exact ⟨hregs.aon, by rw [hregs], by rw [hregs], Pkg.get_of_rg (hrg _ ha), by unfold Pkg.stamp; rw [Pkg.get_of_rg (hrg _ hst)]⟩
      exact Pkg.sends_enqueueMgmt (halike.trans (i.freed_sendsAlike c.val n.val)) hfab
    · rw [Pkg.release_local _ (hheld ▸ hl)]
      refine ⟨hfab, fun o hd => ?_⟩
      have hne : o ≠ R.CORE_SEG_CTRL c.val n.val := fun e => not_isDiscardB_CORE_SEG_CTRL c.val n.val (e ▸ hd)
      rw [Pkg.freed_rg _ _ _ hne, hrg o hne]

end Sys2Proof.Machine
end

section
/-! PROOF. Lending of HBM: grants, their end, and what the lender executes for a borrower (R45, R46, R56). -/

namespace Sys2Proof.Machine
open Sys2Proof

/-! ### Reads and writes of storage -/

theorem storageOp_read {k : Pkg} {space off want : Nat} {p : PkgId} (now : Nat) (payload : List Byte) (m : Mem)
    (hi : k.spaceIsolated space off want = false) (hb : (linesOf (memKey p space off) want).any k.mem.poison.contains = false) :
    storageOp now p space off opRead want payload m k = (m, k, ⟨stOK, false, memRead m (memKey p space off) want⟩) := by
  simp [storageOp, opLength, hi, hb]

/-- A write stores its payload; of the package it changes neither registers nor what it has sent, nor what a message carries. -/
theorem storageOp_write {k : Pkg} {space off : Nat} {payload : List Byte} (now : Nat) (p : PkgId) (want : Nat) (m : Mem)
    (hi : k.spaceIsolated space off payload.length = false) : ∃ j : Pkg,
    storageOp now p space off opWrite want payload m k = (memWrite m (memKey p space off) payload, j, ⟨stOK, false, []⟩) ∧
      j.regs = k.regs ∧ j.out = k.out ∧ k.SendsAlike j := by
  have hscan (k : Pkg) : (if space = 0 ∧ opWrite ≠ opRead then k.noteScans p m off payload.length else k).regs = k.regs ∧
      (if space = 0 ∧ opWrite ≠ opRead then k.noteScans p m off payload.length else k).out = k.out ∧
      k.SendsAlike (if space = 0 ∧ opWrite ≠ opRead then k.noteScans p m off payload.length else k) := by
    split
    · exact ⟨rfl, rfl, .of_eq rfl rfl rfl rfl⟩
    · exact ⟨rfl, rfl, .refl k⟩
  have hnotice (k : Pkg) : (k.noticeWrite space off payload).regs = k.regs ∧ (k.noticeWrite space off payload).out = k.out ∧
      k.SendsAlike (k.noticeWrite space off payload) := by
    unfold Pkg.noticeWrite
    split
    · exact ⟨rfl, rfl, .of_eq rfl rfl rfl rfl⟩
    · exact ⟨rfl, rfl, .refl k⟩
  have hop : opLength opWrite want payload = payload.length := rfl
  have hr : ¬ (opWrite = opRead ∨ opWrite = opAtomic) := by decide
  unfold storageOp
  dsimp only
  rw [hop, hi]
  simp only [Bool.false_eq_true, if_false, hr, false_and, show opWrite ≠ opRead from by decide, show opWrite ≠ opAtomic from by decide]
  obtain ⟨hr1, ho1, ha1⟩ := hscan k
  simp only [show opWrite ≠ opRead from by decide, not_false_eq_true, ne_eq] at hr1 ho1 ha1 ⊢
  refine ⟨_, rfl, ?_⟩
  generalize (if space = 0 ∧ True then k.noteScans p m off payload.length else k) = i at hr1 ho1 ha1 ⊢
  let clean := i.mem.poison.filter (fun l => !(wholeLines (memKey p space off) payload.length).contains l)
  obtain ⟨hr2, ho2, ha2⟩ := hnotice { i with mem := { i.mem with poison := clean } }
  have ha3 : i.SendsAlike { i with mem := { i.mem with poison := clean } } := .of_eq rfl rfl rfl rfl
  exact ⟨hr2.trans hr1, ho2.trans ho1, (ha1.trans ha3).trans ha2⟩

theorem Pkg.SendsAlike.response {j k : Pkg} (h : j.SendsAlike k) (now : Nat) (rq : Packet) (status : Byte) (poison : Bool) (data : List Byte) :
    k.response now rq status poison data = j.response now rq status poison data := by
  simp only [Pkg.response, Pkg.newPacket, Pkg.birth, Pkg.time, h.aon, h.ret, h.addr, h.stamp]

/-! ### Grants -/

/-- LEND_ASK that finds pages inside the pool. -/
theorem exec_lendAsk_some {s : State} {p : PkgId} {src : BitVec 16} {sgen : Byte} {pages : Word} {core tag : BitVec 16} {k : Pkg} {b : Nat}
    (hk : k = ((s.pkg p).fromSink 0x2A src.toNat).newerSgen src.toNat sgen)
    (hp : k.lentPages + pages.toNat ≤ gibPages * k.get F.PKC_LEND_POOL_POOL_GIB)
    (hf : pickFit (k.used core.toNat 2) (if k.shadowSave then min (k.tierPages 2) belowSave else k.tierPages 2) pages.toNat = some b) :
    exec (.lendAsk p src sgen pages core tag) s = .next ({ s with mem := memErase s.mem (memKey p 0 (4096 * b)) (4096 * pages.toNat) }.setPkg p
      ((k.setGrants (· ++ [(⟨4096 * b, pages.toNat, src, sgen⟩ : Grant)])).enqueueMgmt s.now 0x2C src.toNat
        (leBytes 2 tag.toNat ++ [1, 0, 0, 0, 0, 0] ++ leBytes 8 (4096 * b)))) := by
  change execLendAsk p src sgen pages core tag s = _
  unfold execLendAsk onPkgMem
  dsimp only
  rw [← hk, if_pos hp, hf] <;> rfl

/-- LEND_ASK beyond the pool, or without contiguous pages. -/
theorem exec_lendAsk_none {s : State} {p : PkgId} {src : BitVec 16} {sgen : Byte} {pages : Word} {core tag : BitVec 16} {k : Pkg}
    (hk : k = ((s.pkg p).fromSink 0x2A src.toNat).newerSgen src.toNat sgen)
    (h : gibPages * k.get F.PKC_LEND_POOL_POOL_GIB < k.lentPages + pages.toNat ∨
      pickFit (k.used core.toNat 2) (if k.shadowSave then min (k.tierPages 2) belowSave else k.tierPages 2) pages.toNat = none) :
    exec (.lendAsk p src sgen pages core tag) s = .next (s.setPkg p (k.enqueueMgmt s.now 0x2C src.toNat
      (leBytes 2 tag.toNat ++ [0, 0, 0, 0, 0, 0] ++ leBytes 8 0))) := by
  have hnone : (if k.lentPages + pages.toNat ≤ gibPages * k.get F.PKC_LEND_POOL_POOL_GIB then
      pickFit (k.used core.toNat 2) (if k.shadowSave then min (k.tierPages 2) belowSave else k.tierPages 2) pages.toNat else none) = none := by
    rcases h with h | h
    · rw [if_neg (by omega)]
    · rw [h, ite_self]
  change execLendAsk p src sgen pages core tag s = _
  unfold execLendAsk onPkgMem
  dsimp only
  rw [← hk, hnone]

/-- A message leaves the memory side of the package as it was. -/
theorem Pkg.enqueueMgmt_mem (now : Nat) (op : Byte) (dst : Nat) (payload : List Byte) (k : Pkg) :
    (k.enqueueMgmt now op dst payload).mem = k.mem := by
  rw [Pkg.enqueueMgmt_frame]

/-- LEND_GRANT for the placement that waits on it. -/
theorem exec_lendGrant {s : State} {p : PkgId} {tag : BitVec 16} {x : Placing} (granted : Bool) (base : BitVec 64)
    (hx : (s.pkg p).mem.placing = [x]) (ht : x.waitTag = some tag) :
    exec (.lendGrant p tag granted base) s = .next (s.setPkg p (
      let k1 := (s.pkg p).fromSink 0x2C ((s.pkg p).get (F.CORE_SEG_LENDER_LENDER x.core x.entry))
      if granted then k1.setPlacing (List.map fun y => if y = x then { y with waitTag := none, outcome := 2, store := some ⟨x.outcome, base.toNat,
        (s.pkg p).get (F.CORE_SEG_LEN_PAGES x.core x.entry), BitVec.ofNat 16 ((s.pkg p).get (F.CORE_SEG_LENDER_LENDER x.core x.entry))⟩ } else y)
      else k1.continuePlace s.now (s.upIn p.rack) x)) := by
  have hfind : (s.pkg p).mem.placing.find? (fun x => x.waitTag = some tag) = some x := by simp [hx, ht]
  change execLendGrant p tag granted base s = _
  unfold execLendGrant onPkg
  dsimp only
  rw [hfind]

/-- A placement whose last tier was the lender's ends NO_ROOM. -/
theorem Pkg.continuePlace_end {k : Pkg} {x : Placing} (now : Nat) (up : Nat → Bool) (h : k.get (F.CORE_SEG_CTRL_FLOOR x.core x.entry) ≤ x.outcome) :
    k.continuePlace now up x = k.setPlacing fun l => l.filter (· ≠ x) ++ [⟨x.core, x.entry, x.at_, none, 3, none⟩] := by
  unfold Pkg.continuePlace
  dsimp only
  rw [tiersFrom_of_lt (by omega)]
  rfl

/-! ### The lender's accesses -/

section
variable {s : State} {p : PkgId} {pk : Packet} {k : Pkg} (hk : k = (s.pkg p).newerSgen (epPkg pk.src) pk.sgen)
include hk

/-- A request with PKG = 1 lies within a grant. -/
def Pkg.insideGrant (k : Pkg) (pk : Packet) : Bool :=
  k.mem.grants.any fun g => g.borrower.toNat = epPkg pk.src && g.base ≤ bits pk.addr.toNat 0 44 &&
    bits pk.addr.toNat 0 44 + opLength pk.opcode pk.want pk.payload ≤ g.base + 4096 * g.pages

theorem lentAccess_outside (now : Nat) (m : Mem) (h : k.insideGrant pk = false) :
    lentAccess now p pk m (s.pkg p) = (m, k, ⟨stAccessError, true, []⟩) := by
  unfold lentAccess
  dsimp only
  rw [← hk, if_neg]
  rintro ⟨-, hin⟩
  have h' : k.insideGrant pk = true := hin
  rw [h] at h'
  cases h'

theorem lentAccess_inside (now : Nat) (m : Mem) (h : k.insideGrant pk = true) (hc : pk.opcode ≠ opClasp) :
    lentAccess now p pk m (s.pkg p) =
      if k.tierDark 0 2 (bits pk.addr.toNat 0 44) (opLength pk.opcode pk.want pk.payload) then (m, k, ⟨stUnitReset, true, []⟩)
      else storageOp now p 0 (bits pk.addr.toNat 0 44) pk.opcode pk.want pk.payload m k := by
  unfold lentAccess
  dsimp only
  rw [← hk, if_pos ⟨hc, h⟩]

end

theorem exec_lentStorageAccess {s : State} {p : PkgId} {pk : Packet} {m : Mem} {j : Pkg} {a : Answer}
    (h : lentAccess s.now p pk s.mem (s.pkg p) = (m, j, a)) (he : expectsResponse pk.opcode = true) :
    exec (.lentStorageAccess p pk) s = .next ({ s with mem := m }.setPkg p (j.answer s.now pk a.status a.poison a.data)) := by
  change execLentStorageAccess p pk s = _
  unfold execLentStorageAccess onPkgMem
  dsimp only
  rw [h]
  dsimp only
  rw [if_pos he]

/-- Settles O10: LEND_ASK by whether pages are found in the pool, LEND_GRANT by its answer, LEND_FREE as a filter of the grants, and the
lender's accesses by whether they lie within a grant. -/
theorem lendingAndStorage : Obligations.LendingAndStorage := by
  refine ⟨⟨?_, fun s p tag base x hx ht => ⟨?_, fun hfl => ?_⟩, fun s p src base pages => ?_⟩, ?_⟩
  · intro s p src sgen pages core tag k pool fit
    have hsegs : k.mem.segs = (s.pkg p).mem.segs := rfl
    constructor
    · intro b hp hb
      refine ⟨_, exec_lendAsk_some rfl hp hb, ?_, ?_, Pkg.sends_enqueueMgmt (.of_eq rfl rfl rfl rfl) rfl⟩
      · rw [Pkg.enqueueMgmt_mem]
        rfl
      · rw [Pkg.enqueueMgmt_mem]
        exact hsegs
    · intro h
      refine ⟨_, exec_lendAsk_none rfl h, ?_, ?_, Pkg.sends_enqueueMgmt (.refl k) rfl⟩
      · rw [Pkg.enqueueMgmt_mem]
      · rw [Pkg.enqueueMgmt_mem]
        exact hsegs
  · refine ⟨_, exec_lendGrant true base hx ht, ?_, rfl⟩
    simp [Pkg.setPlacing, Pkg.fromSink, hx]
  · refine ⟨_, exec_lendGrant false base hx ht, ?_, ?_⟩
    · dsimp only
      rw [if_neg Bool.false_ne_true, Pkg.continuePlace_end _ _ (by exact hfl)]
      simp [Pkg.setPlacing, Pkg.fromSink, hx]
    · dsimp only
      rw [if_neg Bool.false_ne_true, Pkg.continuePlace_end _ _ (by exact hfl)]
      rfl
  · refine ⟨_, rfl, rfl, rfl, fun g => ?_⟩
    simp only [Pkg.setGrants, Pkg.fromSink, List.mem_filter, Bool.not_eq_true', Bool.and_eq_false_iff, decide_eq_false_iff_not, not_and_or,
      or_assoc]
  · intro s p pk k a len inside
    refine ⟨fun h he => ?_, fun h hc he hd => ?_, fun h ho hd hi hb => ?_, fun h ho hd hi => ?_⟩
    · exact exec_lentStorageAccess (lentAccess_outside rfl _ _ h) he
    · have hacc := lentAccess_inside (s := s) (p := p) (pk := pk) rfl s.now s.mem h hc
      rw [if_pos hd] at hacc
      exact exec_lentStorageAccess hacc he
    · have hacc := lentAccess_inside (s := s) (p := p) (pk := pk) rfl s.now s.mem h (by rw [ho]; decide)
      have hlen : len = pk.want := by simp [len, ho, opLength]
      rw [if_neg (by rw [hd]; decide), ho, storageOp_read _ _ _ (hlen ▸ hi) hb] at hacc
      exact exec_lentStorageAccess hacc (by rw [ho]; decide)
    · have hacc := lentAccess_inside (s := s) (p := p) (pk := pk) rfl s.now s.mem h (by rw [ho]; decide)
      have hlen : len = pk.payload.length := by simp [len, ho, opLength, show opWrite ≠ opRead from by decide, show opWrite ≠ opAtomic from by decide]
      obtain ⟨j, hj, hregs, hout, halike⟩ := storageOp_write s.now p pk.want s.mem (hlen ▸ hi)
      rw [if_neg (by rw [hd]; decide), ho, hj] at hacc
      refine ⟨_, exec_lentStorageAccess hacc (by rw [ho]; decide), hregs, ?_, fun b hb => memByte_memWrite_out _ _ _ _ hb⟩
      rw [Pkg.answer, halike.response, ← hout]
      rfl

end Sys2Proof.Machine
end

section
/-! PROOF. What a core's access to its address space does (R43, R46, R48, R50). -/

namespace Sys2Proof.Machine
open Sys2Proof

/-- A core that is not dark accesses its address space. -/
theorem exec_coreAccess {s : State} {p : PkgId} {c : Core} {a : Access} (h : (s.pkg p).coreDark c.val = false) {m : Mem} {j : Pkg}
    (hr : coreAccessOp s.now p c.val a s.mem ((s.pkg p).issues c.val) = (m, j)) :
    exec (.coreAccess p c a) s = .next ({ s with mem := m }.setPkg p j) := by
  change execCoreAccess p c a s = _
  unfold execCoreAccess onPkgMem
  dsimp only
  rw [if_neg (by rw [h]; decide), hr]

/-! ### One equation for each place that an address leads to -/

section
variable {k : Pkg} {c : Nat} {a : Access} (now : Nat) (p : PkgId) (m : Mem)

theorem coreAccessOp_busy (h : k.locate c a.addr.toNat a.len = .busy) :
    coreAccessOp now p c a m k = (m, { k with mem := { k.mem with accesses := k.mem.accesses ++ [(c, a)] } }) := by
  rw [coreAccessOp, h]
theorem coreAccessOp_lost (h : k.locate c a.addr.toNat a.len = .lost) :
    coreAccessOp now p c a m k = (m, k.emit (.completion c 0 stUnitReset [])) := by
  rw [coreAccessOp, h]
theorem coreAccessOp_none (h : k.locate c a.addr.toNat a.len = .none) :
    coreAccessOp now p c a m k = (m, (k.raise now (det c 2) 0 0).emit (.completion c 0 stAccessError [])) := by
  rw [coreAccessOp, h]

/-- The request that carries an access to lent storage. -/
def Pkg.lentRequest (now c off : Nat) (lender : BitVec 16) (a : Access) (k : Pkg) : Packet :=
  k.stamped c { k.newPacket now (if a.write then opWrite else opRead) 0 (BitVec.ofNat 24 (lender.toNat * 256)) (endpoint k.addr c) a.data with
    pkg := true, incarnation := k.coreInc c, want := a.len, addr := BitVec.ofNat 64 (off % 2 ^ 44) }

variable {tier off : Nat} {lender : BitVec 16} (h : k.locate c a.addr.toNat a.len = .place tier off lender)
include h

theorem coreAccessOp_lent (ht : tier = 3 ∨ tier = 4) : coreAccessOp now p c a m k =
    match k.barred c (k.lentRequest now c off lender a) with
    | some st => (m, k.refuse c (k.lentRequest now c off lender a) st)
    | none => (m, k.enqueue (flowKey lender.toNat 0 0) c (k.lentRequest now c off lender a)) := by
  rw [coreAccessOp, h]
  dsimp only
  rw [if_pos ht]
  rfl

theorem coreAccessOp_dark (h3 : tier ≠ 3) (h4 : tier ≠ 4) (hd : k.tierDark c tier off a.len = true) :
    coreAccessOp now p c a m k = (m, k.emit (.completion c 0 stUnitReset [])) := by
  rw [coreAccessOp, h]
  dsimp only
  rw [if_neg (by omega), if_pos hd]

theorem coreAccessOp_local (h3 : tier ≠ 3) (h4 : tier ≠ 4) (hd : k.tierDark c tier off a.len = false) : coreAccessOp now p c a m k =
    let r := claspedOp now p (some c) (tierSpace c tier off).1 (tierSpace c tier off).2 (if a.write then opWrite else opRead) a.len a.data m k
    (r.1, r.2.1.emit (.completion c 0 r.2.2.status r.2.2.data)) := by
  rw [coreAccessOp, h]
  dsimp only
  rw [if_neg (by omega), if_neg (by rw [hd]; decide)]

end

/-- A read meets no clasp. -/
theorem claspedOp_read (now : Nat) (p : PkgId) (who : Option Nat) (space off want : Nat) (payload : List Byte) (m : Mem) (k : Pkg) :
    claspedOp now p who space off opRead want payload m k = storageOp now p space off opRead want payload m k := by
  unfold claspedOp
  simp
/-- A write outside the core stores, or to a line that no clasp bars. -/
theorem claspedOp_write {who : Option Nat} {space off : Nat} {payload : List Byte} {k : Pkg}
    (h : space = 2 → k.claspBars who (off / 2 ^ 21) (off % 2 ^ 21) payload.length = none) (now : Nat) (p : PkgId) (want : Nat) (m : Mem) :
    claspedOp now p who space off opWrite want payload m k = storageOp now p space off opWrite want payload m k := by
  have hbar : (if space = 2 ∧ opWrite ≠ opRead then k.claspBars who (off / 2 ^ 21) (off % 2 ^ 21) (opLength opWrite want payload) else none) = none := by
    split
    · next hs => exact h hs.1
    · rfl
  unfold claspedOp
  simp only [hbar]

/-- A request of a core that a check bars completes with its status at once. -/
theorem Pkg.refuse_lentRequest (now : Nat) (c : Core) (off : Nat) (lender : BitVec 16) (a : Access) (st : Byte) (k : Pkg) :
    k.refuse c.val (k.lentRequest now c.val off lender a) st = k.emit (.completion c.val 0 st []) := by
  have hresp : expectsResponse (k.lentRequest now c.val off lender a).opcode = true := by
    change expectsResponse (if a.write then opWrite else opRead) = true
    cases a.write <;> rfl
  unfold Pkg.refuse
  rw [if_pos (.inr hresp), if_pos c.isLt]
  rfl

/-- Settles O11: one equation of `coreAccessOp` for each place that `Pkg.locate` gives; local storage is read or written by `storageOp`. -/
theorem coreAccess : Obligations.CoreAccess := by
  intro s p c a hdark k
  refine ⟨fun h => ?_, fun h => ?_, fun h => ?_, ?_, fun tier off l h h3 h4 hd => ?_, ?_⟩
  · exact exec_coreAccess hdark (coreAccessOp_busy _ _ _ h)
  · exact exec_coreAccess hdark (coreAccessOp_lost _ _ _ h)
  · exact exec_coreAccess hdark (coreAccessOp_none _ _ _ h)
  · intro tier off lender h ht pk
    have hl := coreAccessOp_lent s.now p s.mem h ht
    refine ⟨fun hb => ?_, fun st hb => ?_⟩
    · rw [show k.barred c.val (k.lentRequest s.now c.val off lender a) = none from hb] at hl
      exact exec_coreAccess hdark hl
    · rw [show k.barred c.val (k.lentRequest s.now c.val off lender a) = some st from hb] at hl
      dsimp only at hl
      rw [Pkg.refuse_lentRequest] at hl
      exact exec_coreAccess hdark hl
  · exact exec_coreAccess hdark (coreAccessOp_dark _ _ _ h h3 h4 hd)
  · intro tier off l h h3 h4 hd sp o hi hlen
    have hloc := coreAccessOp_local s.now p s.mem h h3 h4 hd
    refine ⟨fun hw hb => ?_, fun hw hbar => ?_⟩
    · rw [hw, if_neg Bool.false_ne_true, claspedOp_read, storageOp_read _ _ _ hi hb] at hloc
      exact exec_coreAccess hdark hloc
    · rw [hw, if_pos rfl] at hlen
      obtain ⟨j, hj, hregs, hout, -⟩ := storageOp_write s.now p a.len s.mem (hlen ▸ hi)
      rw [hw, if_pos rfl, claspedOp_write (by rw [hlen]; exact hbar), hj] at hloc
      refine ⟨_, exec_coreAccess hdark hloc, hregs, ?_, fun b hb => memByte_memWrite_out _ _ _ _ (by rwa [hlen])⟩
      rw [← hout]
      rfl

end Sys2Proof.Machine
end

section
/-! PROOF. Clasps: acquire, release and the two expiries (R51–R55, R362). -/

namespace Sys2Proof.Machine
open Sys2Proof

/-! ### Acquire -/

theorem exec_claspAcquire_notLocal {s : State} {p src : PkgId} (c store : Core) (line : Fin 24576) (wait : Fin 1048577) (h : src ≠ p) :
    exec (.claspAcquire p src c store line wait) s = .next (s.setPkg p ((s.pkg p).emit (.claspStatus c.val stNotLocal))) := by
  change execClaspAcquire p src c store line wait s = _
  unfold execClaspAcquire onPkg
  dsimp only
  rw [if_pos h]
theorem exec_claspAcquire {s : State} {p : PkgId} {c : Core} (store : Core) (line : Fin 24576) (wait : Fin 1048577)
    (h : (s.pkg p).coreDark c.val = false) : exec (.claspAcquire p p c store line wait) s =
      .next (s.setPkg p (((s.pkg p).issues c.val).claspAcquire s.now c.val store.val line.val wait.val none)) := by
  change execClaspAcquire p p c store line wait s = _
  unfold execClaspAcquire onPkg
  dsimp only
  rw [if_neg (by simp), if_neg (by rw [h]; decide)]

section
variable {k : Pkg} {c store line wait : Nat} (now : Nat)

theorem Pkg.claspAcquire_dark (h : k.coreDark store = true) :
    k.claspAcquire now c store line wait none = k.emit (.claspStatus c stUnitReset) := by
  unfold Pkg.claspAcquire
  dsimp only
  rw [if_pos h]
  rfl

variable (hd : k.coreDark store = false)
include hd

theorem Pkg.claspAcquire_limit (h : 4 ≤ (k.mem.clasps.filter (fun x => x.holder = c)).length ∨
    k.mem.clasps.any (fun x => x.waiters.any (fun w => w.core = c)) = true) :
    k.claspAcquire now c store line wait none = k.emit (.claspStatus c (Config.openStatus 1)) := by
  unfold Pkg.claspAcquire
  dsimp only
  rw [if_neg (by rw [hd]; decide), if_pos h]
  rfl

variable (hh : (k.mem.clasps.filter (fun x => x.holder = c)).length < 4)
  (hw : k.mem.clasps.any (fun x => x.waiters.any (fun w => w.core = c)) = false)
include hh hw

theorem Pkg.claspAcquire_noSlot (h : 16 ≤ (k.mem.clasps.filter (fun x => x.store = store)).length) :
    k.claspAcquire now c store line wait none = k.emit (.claspStatus c stNoSlot) := by
  unfold Pkg.claspAcquire
  dsimp only
  rw [if_neg (by rw [hd]; decide), if_neg (by rw [hw]; simpa using hh), if_pos h]
  rfl

variable (hs : (k.mem.clasps.filter (fun x => x.store = store)).length < 16)
include hs

theorem Pkg.claspAcquire_free (h : k.mem.clasps.find? (fun x => x.at store line) = none) :
    k.claspAcquire now c store line wait none = (k.setClasps (· ++ [⟨store, line, c, [], now, false⟩])).emit (.claspStatus c stGranted) := by
  unfold Pkg.claspAcquire
  dsimp only
  rw [if_neg (by rw [hd]; decide), if_neg (by rw [hw]; simpa using hh), if_neg (by omega), h]
  rfl

theorem Pkg.claspAcquire_held {x : Clasp} (h : k.mem.clasps.find? (fun x => x.at store line) = some x) :
    k.claspAcquire now c store line wait none =
      if k.coreHalted x.holder then k.emit (.claspStatus c stDbgHeld)
      else if wait = 0 then k.emit (.claspStatus c stTimeout)
      else k.setClasps (List.map (fun y => if y.at store line then { y with waiters := y.waiters ++ [⟨c, wait, now, none⟩] } else y)) := by
  unfold Pkg.claspAcquire
  dsimp only
  rw [if_neg (by rw [hd]; decide), if_neg (by rw [hw]; simpa using hh), if_neg (by omega), h]
  rfl

end

/-! ### Release and expiry -/

theorem Pkg.keep_dbg (rq : Packet) (status : Byte) (result : BitVec 64) (k : Pkg) : (k.keep rq status result).dbg = k.dbg := by
  unfold Pkg.keep
  split
  · rfl
  · dsimp only
    split <;> rfl

/-- To answer a waiter leaves the halts that wait. -/
theorem Pkg.claspTell_dbg (now c : Nat) (rq : Option Packet) (status : Byte) (k : Pkg) : (k.claspTell now c rq status).dbg = k.dbg := by
  cases rq with
  | none => rfl
  | some pk => exact Pkg.keep_dbg pk status 0 k
theorem claspNext_dbg (now : Nat) (status : Byte) (x : Clasp) (k : Pkg) : (claspNext now status x k).dbg = k.dbg := by
  unfold claspNext
  split
  · rfl
  · rw [Pkg.claspTell_dbg]
    rfl

theorem Pkg.haltIfFree_of_none {k : Pkg} {c : Nat} (now : Nat) (h : sfind k.dbg.defers c = none) : k.haltIfFree now c = k := by
  rw [Pkg.haltIfFree, h]

theorem exec_claspRelease_holder {s : State} {p : PkgId} {c store : Core} {line : Fin 24576} {k : Pkg} {x : Clasp} (hk : k = (s.pkg p).issues c.val)
    (hb : k.mem.broken.contains (c.val, store.val, line.val) = false) (hs : k.mem.silent.contains (c.val, store.val, line.val) = false)
    (hx : k.mem.clasps.find? (fun x => x.at store.val line.val && x.holder = c.val) = some x) (hd : sfind k.dbg.defers c.val = none) :
    exec (.claspRelease p c store line) s = .next (s.setPkg p ((claspNext s.now stGranted x k).emit (.claspStatus c.val stOK))) := by
  change execClaspRelease p c store line s = _
  unfold execClaspRelease onPkg
  dsimp only
  rw [← hk, hb, hs, if_neg (by decide), hx]
  dsimp only
  rw [Pkg.haltIfFree_of_none]
  rw [Pkg.emit_dbg, claspNext_dbg, hd]

theorem exec_claspRelease_broken {s : State} {p : PkgId} {c store : Core} {line : Fin 24576} {k : Pkg} (hk : k = (s.pkg p).issues c.val)
    (hb : k.mem.broken.contains (c.val, store.val, line.val) = true) : exec (.claspRelease p c store line) s =
      .next (s.setPkg p ((k.forgetBroken c.val store.val line.val).emit (.claspStatus c.val stClaspBroken))) := by
  change execClaspRelease p c store line s = _
  unfold execClaspRelease onPkg
  dsimp only
  rw [← hk, hb, if_pos (by rfl)]

theorem Pkg.forgetBroken_contains (c store line : Nat) (k : Pkg) : (k.forgetBroken c store line).mem.broken.contains (c, store, line) = false := by
  simp [Pkg.forgetBroken]

/-- A waiter's wait has passed, in cycles of its C-tile's clock (R52). -/
def Pkg.waitDue (now c : Nat) (k : Pkg) (w : Waiter) : Bool := w.core = c && decide (w.since + cyclesNs (k.coreMhz c) w.wait ≤ now)

theorem exec_claspWaitExpiry_one {s : State} {p : PkgId} {c : Core} {w : Waiter}
    (hw : (s.pkg p).mem.clasps.flatMap (fun x => x.waiters.filter ((s.pkg p).waitDue s.now c.val)) = [w]) :
    exec (.claspWaitExpiry p c) s = .next (s.setPkg p (((s.pkg p).claspTell s.now c.val w.rq stTimeout).setClasps
      (List.map (fun x => { x with waiters := x.waiters.filter (fun w => !(s.pkg p).waitDue s.now c.val w) })))) := by
  have hcore : w.core = c.val := by
    have hmem : w ∈ (s.pkg p).mem.clasps.flatMap (fun x => x.waiters.filter ((s.pkg p).waitDue s.now c.val)) := by simp [hw]
    obtain ⟨x, -, hx⟩ := List.mem_flatMap.1 hmem
    have := (List.mem_filter.1 hx).2
    simp only [Pkg.waitDue, Bool.and_eq_true, decide_eq_true_eq] at this
    exact this.1
  have htell : (s.pkg p).tellWaiters s.now stTimeout (fun _ => true) ((s.pkg p).waitDue s.now c.val) =
      (s.pkg p).claspTell s.now c.val w.rq stTimeout := by
    rw [Pkg.tellWaiters, List.filter_true, hw, ← hcore]
    rfl
  change Host.Outcome.next (s.setPkg p (((s.pkg p).tellWaiters s.now stTimeout (fun _ => true) ((s.pkg p).waitDue s.now c.val)).setClasps _)) = _
  rw [htell]
  rfl

section
variable {s : State} {p : PkgId} {store : Core} {line : Fin 24576} {x : Clasp}
  (hx : (s.pkg p).mem.clasps.find? (fun x => x.at store.val line.val) = some x)
include hx

theorem exec_claspHoldExpiry_early (h : x.paused = true ∨ s.now < x.since + cyclesNs ((s.pkg p).coreMhz x.holder) 65536) :
    exec (.claspHoldExpiry p store line) s = .next (s.setPkg p (s.pkg p)) := by
  change execClaspHoldExpiry p store line s = _
  unfold execClaspHoldExpiry onPkg
  dsimp only
  rw [hx]
  dsimp only
  rw [if_pos h]
theorem exec_claspHoldExpiry_due (hp : x.paused = false) (h : x.since + cyclesNs ((s.pkg p).coreMhz x.holder) 65536 ≤ s.now) :
    exec (.claspHoldExpiry p store line) s = .next (s.setPkg p ((claspNext s.now stGrantedAfterBreak x
      { s.pkg p with mem := { (s.pkg p).mem with broken := (s.pkg p).mem.broken ++ [(x.holder, x.store, x.line)] } }).raise s.now
        (det x.holder 3) 0 0)) := by
  change execClaspHoldExpiry p store line s = _
  unfold execClaspHoldExpiry onPkg
  dsimp only
  rw [hx]
  dsimp only
  rw [if_neg (by rw [hp]; simp; omega)]

end

/-- Settles O12: one equation for each answer of `Pkg.claspAcquire`, in its order; a release and an expiry pass the line on by `claspNext`. -/
theorem clasps : Obligations.Clasps := by
  constructor
  · intro s p src c store line wait k answer held waits inStore
    refine ⟨exec_claspAcquire_notLocal c store line wait, ?_, ?_⟩
    · rintro rfl hc hs
      rw [exec_claspAcquire store line wait hc, Pkg.claspAcquire_dark _ hs]
    · rintro rfl hc hs
      have hexec := exec_claspAcquire store line wait hc
      refine ⟨fun h => ?_, fun hh hw => ⟨fun h => ?_, fun hi h => ?_, fun x hi h hx => ?_, fun x hi h hx => ⟨fun h0 => ?_, fun h0 => ?_⟩⟩⟩
      · rw [hexec, Pkg.claspAcquire_limit _ hs h]
      · rw [hexec, Pkg.claspAcquire_noSlot _ hs hh hw h]
      · rw [hexec, Pkg.claspAcquire_free _ hs hh hw hi h]
      · rw [hexec, Pkg.claspAcquire_held _ hs hh hw hi h, if_pos hx]
      · rw [hexec, Pkg.claspAcquire_held _ hs hh hw hi h, if_neg (by rw [hx]; decide), if_pos h0]
      · rw [hexec, Pkg.claspAcquire_held _ hs hh hw hi h, if_neg (by rw [hx]; decide), if_neg h0]
  · intro s p c store line j k next due
    have hnext (now : Nat) (st : Byte) (x : Clasp) (k : Pkg) : claspNext now st x k = next now st x k := by
      unfold claspNext
      simp only [next]
      cases x.waiters <;> rfl
    refine ⟨fun x hb hs hx hd => ?_, fun hb => ⟨_, exec_claspRelease_broken rfl hb, rfl, rfl, Pkg.forgetBroken_contains ..⟩,
      fun w hw => exec_claspWaitExpiry_one hw, fun x hx h => exec_claspHoldExpiry_early hx h, fun x hx hp h => ?_⟩
    · rw [exec_claspRelease_holder rfl hb hs hx hd, hnext]
    · rw [exec_claspHoldExpiry_due hx hp h, hnext]

end Sys2Proof.Machine
end

section
/-! PROOF. What the log of the fault hub changes of a package (R319–R321, R332–R336). -/

namespace Sys2Proof.Machine
open Sys2Proof

/-- Between two states of a package nothing changed but its registers, the retention bank, the fault hub and what it has sent. -/
def LogOnly (j k : Pkg) : Prop := k = { j with regs := k.regs, ret := k.ret, flt := k.flt, out := k.out }

section
variable {j k : Pkg}

theorem LogOnly.refl (k : Pkg) : LogOnly k k := rfl
theorem LogOnly.trans {l : Pkg} (h : LogOnly j k) (h' : LogOnly k l) : LogOnly j l :=
  Eq.trans h' (by rw [h])
theorem LogOnly.foldl {β : Type} {f : Pkg → β → Pkg} (hf : ∀ k b, LogOnly k (f k b)) : ∀ (l : List β) (k : Pkg), LogOnly k (l.foldl f k)
  | [], k => .refl k
  | b :: l, k => (hf k b).trans (LogOnly.foldl hf l _)
theorem LogOnly.ite {c : Prop} [Decidable c] {l : Pkg} (h : LogOnly j k) (h' : LogOnly j l) : LogOnly j (if c then k else l) := by
  split
  · exact h
  · exact h'
theorem LogOnly.setRg (k : Pkg) (o : Nat) (v : Word) : LogOnly k (k.setRg o v) := rfl
theorem LogOnly.put (k : Pkg) (f : Fld) (v : Nat) : LogOnly k (k.put f v) := rfl
theorem LogOnly.setFlt (k : Pkg) (f : FltSt) : LogOnly k { k with flt := f } := rfl
theorem LogOnly.setRet (k : Pkg) (r : Retention) : LogOnly k { k with ret := r } := rfl
theorem LogOnly.emit (k : Pkg) (m : Msg) : LogOnly k (k.emit m) := rfl
theorem LogOnly.of_onlyRegs (h : OnlyRegs j k) : LogOnly j k := by rw [h]; rfl

variable (h : LogOnly j k)
include h

theorem LogOnly.aon : k.aon = j.aon := by rw [h]
theorem LogOnly.pkc : k.pkc = j.pkc := by rw [h]
theorem LogOnly.mem : k.mem = j.mem := by rw [h]
theorem LogOnly.dark : k.dark = j.dark := by rw [h]
theorem LogOnly.chart : k.chart = j.chart := by rw [h]
theorem LogOnly.fab : k.fab = j.fab := by rw [h]
theorem LogOnly.dbg : k.dbg = j.dbg := by rw [h]
theorem LogOnly.pkgDark : k.pkgDark = j.pkgDark := by rw [Pkg.pkgDark, h.dark, Pkg.pkgDark]

end

/-! ### The log -/

theorem Pkg.notifyFault_logOnly (e : LogEntry) (k : Pkg) : LogOnly k (k.notifyFault e) :=
  .ite (LogOnly.trans (.ite (.setFlt ..) (.emit ..)) (.emit ..)) (.refl k)
theorem Pkg.pushLast_logOnly (w : Word) (k : Pkg) : LogOnly k (k.pushLast w) := .ite (.setRet ..) (.setRet ..)

theorem Pkg.log_logOnly (now : Nat) (e : LogEntry) (k : Pkg) : LogOnly k (k.log now e) := by
  unfold Pkg.log
  dsimp only
  refine .ite (.trans (.trans (.setFlt ..) (Pkg.pushLast_logOnly ..)) (Pkg.notifyFault_logOnly ..)) (.ite (.put ..) ?_)
  have h1 : LogOnly k (if k.slotKept then k.count F.FLT_DROPS_LOST_UNMIRRORED 1 else k) := .ite (.put ..) (.refl k)
  exact (((h1.trans (.setFlt _ _)).trans (.setRg ..)).trans (.setFlt ..)).trans (Pkg.notifyFault_logOnly ..)

theorem Pkg.logEvent_logOnly (now d flags : Nat) (info0 info1 : BitVec 64) (k : Pkg) : LogOnly k (k.logEvent now d flags info0 info1) := by
  unfold Pkg.logEvent
  dsimp only
  split
  · exact .setFlt ..
  · exact .ite (Pkg.log_logOnly ..) (.trans (Pkg.log_logOnly ..) (.setFlt ..))

theorem Pkg.ceRate_logOnly (now d : Nat) (k : Pkg) : LogOnly k (k.ceRate now d) := by
  have h (x : UnitSt) : LogOnly k (k.setUnit (detUnit d) x) := .setFlt ..
  exact .ite ((h _).trans (Pkg.log_logOnly ..)) (h _)

/-- The event of a detector of class CE is counted, logged and rated. -/
theorem Pkg.raise_logOnly {d : Nat} (h : detClass d = clsCE) (now : Nat) (info0 info1 : BitVec 64) (k : Pkg) :
    LogOnly k (k.raise now d info0 info1) := by
  have h0 : LogOnly k ((if d < 1536 then k.coreFault (d / 8) (d % 8) else k).countFault (detClass d)) := LogOnly.trans (.ite (.put ..) (.refl k)) (.put ..)
  have h1 (j : Pkg) : LogOnly j { j.flag F.FLT_STATUS_LOG_FAIL true with flt := { j.flt with lwOnly := true } } := rfl
  unfold Pkg.raise
  dsimp only
  rw [if_pos h]
  exact .ite (.refl k) ((h0.trans (.ite (h1 _) (.refl _))).trans
    (.ite (Pkg.logEvent_logOnly ..) (.trans (Pkg.logEvent_logOnly ..) (Pkg.ceRate_logOnly ..))))

end Sys2Proof.Machine
end

section
/-! PROOF. Clock sources, and fleet time with its slew (R64–R70). -/

namespace Sys2Proof.Machine
open Sys2Proof

/-- What a write to an open register leaves, from what the register makes of it. -/
theorem busAccess_writes {i : Instr} {p : PkgId} {who : Requester} {off : Nat} {w : Word} {d : RegDesc} {s : State} {m : Mem} {j : Pkg}
    (hi : busOpOf i = some (p, writeOp who off w)) (ho : Open s p who off) (hd : findReg off = some d) (hl : off < 2 ^ 24) (ha : off % 4 = 0)
    (hw : busWrite ⟨s.now, p, who, false, s.upIn p.rack, Config.freeWord s.free⟩ d off w s.mem (s.pkg p) = (m, j))
    (hdark : j.pkgDark = (s.pkg p).pkgDark) : busAccess i s = .next (s.wrote p who off m j) := by
  have h := busAccess_write hi ho hd hl ha (by rw [hw]; exact hdark)
  rwa [hw] at h

/-! ### Flags and counters -/

theorem Pkg.get_flag_same (k : Pkg) (f : Fld) (b : Bool) (h : f.lo + f.width ≤ 32) (hw : 0 < f.width) : (k.flag f b).get f = b.toNat := by
  rw [Pkg.flag, Pkg.get_put_same _ _ _ h]
  have : 2 ^ 1 ≤ 2 ^ f.width := Nat.pow_le_pow_right (by decide) hw
  exact Nat.mod_eq_of_lt (by cases b <;> simp <;> omega)
theorem Pkg.get_flag_disjoint (k : Pkg) (f g : Fld) (b : Bool) (hg : g.lo + g.width ≤ 32) (ho : g.off = f.off)
    (h : g.lo + g.width ≤ f.lo ∨ f.lo + f.width ≤ g.lo) : (k.flag f b).get g = k.get g := k.get_put_disjoint f g _ hg ho h
theorem Pkg.get_count_disjoint (k : Pkg) (f g : Fld) (n : Nat) (hg : g.lo + g.width ≤ 32) (ho : g.off = f.off)
    (h : g.lo + g.width ≤ f.lo ∨ f.lo + f.width ≤ g.lo) : (k.count f n).get g = k.get g := k.get_put_disjoint f g _ hg ho h
/-- A counter saturates (R15). -/
theorem Pkg.get_count_same (k : Pkg) (f : Fld) (n : Nat) (h : f.lo + f.width ≤ 32) : (k.count f n).get f = min (2 ^ f.width - 1) (k.get f + n) := by
  rw [Pkg.count, Pkg.get_put_same _ _ _ h, satAdd]
  exact Nat.mod_eq_of_lt (lt_of_le_of_lt (Nat.min_le_left ..) (Nat.sub_lt (Nat.two_pow_pos _) Nat.one_pos))

/-! ### The sources as AON_CLK_STATUS shows them -/

/-- The flag of a source. -/
def srcFld (b : Bool) : Fld := if b then F.AON_CLK_STATUS_B_OK else F.AON_CLK_STATUS_A_OK

theorem Pkg.srcOk_eq (k : Pkg) (b : Bool) : k.srcOk b = decide (k.get (srcFld b) = 1) := by cases b <;> rfl
theorem Pkg.setSrc_eq (b v : Bool) (k : Pkg) : k.setSrc b v = k.flag (srcFld b) v := by cases b <;> rfl

section
variable (k : Pkg) (b c v : Bool)

theorem Pkg.srcOk_setSrc_same : (k.setSrc b v).srcOk b = v := by
  rw [Pkg.setSrc_eq, Pkg.srcOk_eq, Pkg.get_flag_same _ _ _ (by cases b <;> decide) (by cases b <;> decide)]
  cases v <;> rfl
theorem Pkg.srcOk_setSrc_other : (k.setSrc b v).srcOk (!b) = k.srcOk (!b) := by
  rw [Pkg.setSrc_eq, Pkg.srcOk_eq, Pkg.srcOk_eq, Pkg.get_flag_disjoint _ _ _ _ (by cases b <;> decide) (by cases b <;> rfl)
    (by cases b <;> decide)]
theorem Pkg.srcActive_setSrc : (k.setSrc b v).srcActive = k.srcActive := by
  rw [Pkg.setSrc_eq, Pkg.srcActive, Pkg.get_flag_disjoint _ _ _ _ (by decide) (by cases b <;> rfl) (by cases b <;> decide), Pkg.srcActive]
theorem Pkg.holdover_setSrc : (k.setSrc b v).holdover = k.holdover := by
  rw [Pkg.setSrc_eq, Pkg.holdover, Pkg.get_flag_disjoint _ _ _ _ (by decide) (by cases b <;> rfl) (by cases b <;> decide), Pkg.holdover]
theorem Pkg.switches_setSrc : (k.setSrc b v).get F.AON_CLK_STATUS_SWITCHES = k.get F.AON_CLK_STATUS_SWITCHES := by
  rw [Pkg.setSrc_eq, Pkg.get_flag_disjoint _ _ _ _ (by decide) (by cases b <;> rfl) (by cases b <;> decide)]
theorem Pkg.setSrc_rg {o : Nat} (h : o ≠ R.AON_CLK_STATUS) : (k.setSrc b v).rg o = k.rg o := by
  rw [Pkg.setSrc_eq]
  exact Pkg.rg_put_ne _ _ _ (by cases b <;> exact h)

/-- The registers after a switch, before it is reported. -/
def Pkg.switched (b : Bool) (k : Pkg) : Pkg := (k.flag F.AON_CLK_STATUS_ACTIVE b).count F.AON_CLK_STATUS_SWITCHES 1

theorem Pkg.srcActive_switched : (k.switched b).srcActive = b := by
  rw [Pkg.srcActive, Pkg.switched, Pkg.get_count_disjoint _ _ _ _ (by decide) (by rfl) (by decide), Pkg.get_flag_same _ _ _ (by decide) (by decide)]
  cases b <;> rfl
theorem Pkg.switches_switched : (k.switched b).get F.AON_CLK_STATUS_SWITCHES = min 255 (k.get F.AON_CLK_STATUS_SWITCHES + 1) := by
  rw [Pkg.switched, Pkg.get_count_same _ _ _ (by decide), Pkg.get_flag_disjoint _ _ _ _ (by decide) (by rfl) (by decide)]
  rfl
theorem Pkg.srcOk_switched : (k.switched b).srcOk c = k.srcOk c := by
  rw [Pkg.srcOk_eq, Pkg.switched, Pkg.get_count_disjoint _ _ _ _ (by cases c <;> decide) (by cases c <;> rfl) (by cases c <;> decide),
    Pkg.get_flag_disjoint _ _ _ _ (by cases c <;> decide) (by cases c <;> rfl) (by cases c <;> decide), Pkg.srcOk_eq]
theorem Pkg.holdover_switched : (k.switched b).holdover = k.holdover := by
  rw [Pkg.holdover, Pkg.switched, Pkg.get_count_disjoint _ _ _ _ (by decide) (by rfl) (by decide),
    Pkg.get_flag_disjoint _ _ _ _ (by decide) (by rfl) (by decide), Pkg.holdover]
theorem Pkg.switched_rg {o : Nat} (h : o ≠ R.AON_CLK_STATUS) : (k.switched b).rg o = k.rg o := by
  rw [Pkg.switched, Pkg.count, Pkg.rg_put_ne _ _ _ h, Pkg.flag, Pkg.rg_put_ne _ _ _ h]

end

theorem Pkg.setSrc_onlyRegs (b v : Bool) (k : Pkg) : OnlyRegs k (k.setSrc b v) := rfl
theorem Pkg.switched_onlyRegs (b : Bool) (k : Pkg) : OnlyRegs k (k.switched b) := rfl

/-! ### Loss and return of a source -/

section
variable {s : State} {p : PkgId} {b : Bool}

theorem exec_clockSourceLost_unused (h : (s.pkg p).holdover = true ∨ (s.pkg p).srcActive ≠ b) :
    exec (.clockSourceLost p b) s = .next (s.setPkg p ((s.pkg p).setSrc b false)) := by
  change execClockSourceLost p b s = _
  unfold execClockSourceLost onPkg
  dsimp only
  rw [if_pos h]
/-- The source in use is lost: the other one is switched to, or HOLDOVER is set. -/
theorem exec_clockSourceLost_used (hh : (s.pkg p).holdover = false) (ha : (s.pkg p).srcActive = b) :
    exec (.clockSourceLost p b) s = .next (s.setPkg p (if (s.pkg p).srcOk (!b) then
      (((s.pkg p).setSrc b false).switched (!b)).raise s.now (det 254 0) 0 0
      else (((s.pkg p).setSrc b false).flag F.AON_CLK_STATUS_HOLDOVER true).raise s.now (det 255 0) 0 0)) := by
  change execClockSourceLost p b s = _
  unfold execClockSourceLost onPkg
  dsimp only
  rw [if_neg (by rw [hh, ha]; simp), Pkg.srcOk_setSrc_other]
  rfl

theorem exec_sourceReturn_holdover (hh : (s.pkg p).holdover = true) : exec (.sourceReturn p b) s = .next (s.setPkg p
    (((((s.pkg p).setSrc b true).flag F.AON_CLK_STATUS_HOLDOVER false).flag F.AON_CLK_STATUS_ACTIVE b).conditionEnd s.now)) := by
  change execSourceReturn p b s = _
  unfold execSourceReturn onPkg
  dsimp only
  rw [if_pos hh]
theorem exec_sourceReturn (hh : (s.pkg p).holdover = false) :
    exec (.sourceReturn p b) s = .next (s.setPkg p (((s.pkg p).setSrc b true).selectSource s.now)) := by
  change execSourceReturn p b s = _
  unfold execSourceReturn onPkg
  dsimp only
  rw [if_neg (by rw [hh]; decide)]

end

/-- The preferred source. -/
def Pkg.preferred (k : Pkg) : Bool := decide (k.get F.AON_CLK_CTRL_PREFER = 1)

theorem Pkg.selectSource_stays {k : Pkg} (now : Nat) (h : k.srcActive = (if k.srcOk k.preferred then k.preferred else !k.preferred)) :
    k.selectSource now = k := by
  unfold Pkg.preferred at h
  unfold Pkg.selectSource
  dsimp only
  rw [if_pos]
  simp [h]
theorem Pkg.selectSource_switches {k : Pkg} (now : Nat) (hh : k.holdover = false) (hp : k.srcOk k.preferred = true) (ha : k.srcActive ≠ k.preferred) :
    k.selectSource now = (k.switched k.preferred).raise now (det 254 0) 0 0 := by
  unfold Pkg.preferred at hp ha ⊢
  unfold Pkg.selectSource
  by_cases h1 : k.get F.AON_CLK_CTRL_PREFER = 1
  · simp only [h1, decide_true] at hp ha ⊢
    simp [hp, ha, hh, Pkg.switchTo, Pkg.switched]
  · simp only [h1, decide_false] at hp ha ⊢
    simp [hp, ha, hh, Pkg.switchTo, Pkg.switched]
theorem Pkg.forceClock_switches {k : Pkg} (now : Nat) (hh : k.holdover = false) (ho : k.srcOk (!k.srcActive) = true) :
    k.forceClock now = (k.switched (!k.srcActive)).raise now (det 254 0) 0 0 := by
  unfold Pkg.forceClock
  rw [hh, ho, if_neg (by decide)]
  rfl

/-! ### FORCE -/

/-- The line of the register map that describes AON_CLK_CTRL. -/
def clkCtrlDesc : RegDesc := ⟨"AON_CLK_CTRL", 0x10, 1, 0x0, 1, 0x0, 0x0, 0x1, 0x0, 0x0, 0x2, 0, 1⟩

theorem busWrite_AON_CLK_CTRL {x : Bus} {w : Word} (m : Mem) (k : Pkg) (h : bit w.toNat 1 = true) :
    busWrite x clkCtrlDesc R.AON_CLK_CTRL w m k = (m, (k.storeFields clkCtrlDesc R.AON_CLK_CTRL w).forceClock x.now) := by
  have hi : k.ignores x clkCtrlDesc R.AON_CLK_CTRL w.toNat = false := rfl
  have hr : k.rejects clkCtrlDesc.base w.toNat = false := rfl
  unfold busWrite
  dsimp only
  rw [hi, hr]
  change (m, if bit w.toNat 1 then _ else _) = _
  rw [if_pos h]

/-- The stored PREFER of a write is its bit 0. -/
theorem Pkg.prefer_storeFields (w : Word) (k : Pkg) :
    (k.storeFields clkCtrlDesc R.AON_CLK_CTRL w).get F.AON_CLK_CTRL_PREFER = bits w.toNat 0 1 := by
  have hbit (v : Word) : bits v.toNat 0 1 = (v.getLsbD 0).toNat := by
    rw [bits, Nat.shiftRight_zero, Nat.pow_one, BitVec.getLsbD, Nat.testBit_zero]
    rcases Nat.mod_two_eq_zero_or_one v.toNat with h | h <;> simp [h]
  rw [Pkg.get]
  change bits ((k.storeFields clkCtrlDesc R.AON_CLK_CTRL w).rg R.AON_CLK_CTRL).toNat 0 1 = _
  rw [Pkg.storeFields_rg, hbit, hbit]
  simp [clkCtrlDesc]

theorem Pkg.srcOk_storeFields (w : Word) (b : Bool) (k : Pkg) : (k.storeFields clkCtrlDesc R.AON_CLK_CTRL w).srcOk b = k.srcOk b := by
  rw [Pkg.srcOk_eq, Pkg.srcOk_eq, Pkg.get_of_rg (Pkg.storeFields_rg_ne _ _ _ (by cases b <;> decide))]
theorem Pkg.srcActive_storeFields (w : Word) (k : Pkg) : (k.storeFields clkCtrlDesc R.AON_CLK_CTRL w).srcActive = k.srcActive := by
  rw [Pkg.srcActive, Pkg.srcActive, Pkg.get_of_rg (Pkg.storeFields_rg_ne _ _ _ (by decide))]
theorem Pkg.holdover_storeFields (w : Word) (k : Pkg) : (k.storeFields clkCtrlDesc R.AON_CLK_CTRL w).holdover = k.holdover := by
  rw [Pkg.holdover, Pkg.holdover, Pkg.get_of_rg (Pkg.storeFields_rg_ne _ _ _ (by decide))]

/-- FORCE while the other source is present. -/
theorem exec_force {s : State} {p : PkgId} {who : Requester} {w : Word} {j : Pkg} (ho : Open s p who R.AON_CLK_CTRL)
    (hh : (s.pkg p).holdover = false) (hok : (s.pkg p).srcOk (!(s.pkg p).srcActive) = true)
    (hj : j = ((s.pkg p).storeFields clkCtrlDesc R.AON_CLK_CTRL (w ||| 2)).switched (!(s.pkg p).srcActive)) :
    exec (.force p who w) s = .next (s.wrote p who R.AON_CLK_CTRL s.mem (j.raise s.now (det 254 0) 0 0)) := by
  have hb : bit (w ||| 2).toNat 1 = true := (bit_or_place w).1
  have hforce : ((s.pkg p).storeFields clkCtrlDesc R.AON_CLK_CTRL (w ||| 2)).forceClock s.now = j.raise s.now (det 254 0) 0 0 := by
    rw [Pkg.forceClock_switches _ ((Pkg.holdover_storeFields ..).trans hh) (by rw [Pkg.srcActive_storeFields, Pkg.srcOk_storeFields, hok]),
      Pkg.srcActive_storeFields, ← hj]
  have hw := busWrite_AON_CLK_CTRL (x := ⟨s.now, p, who, false, s.upIn p.rack, Config.freeWord s.free⟩) s.mem (s.pkg p) hb
  rw [hforce] at hw
  have hdark : (j.raise s.now (det 254 0) 0 0).pkgDark = (s.pkg p).pkgDark := by
    rw [(Pkg.raise_logOnly (by decide) s.now 0 0 j).pkgDark, hj]
    rfl
  exact busAccess_writes (i := .force p who w) (d := clkCtrlDesc) rfl ho findReg_AON_CLK_CTRL (by decide) (by decide) hw hdark

/-! ### Fleet time -/

/-- A slew that starts has not come to anything yet. -/
theorem AonSt.slewed_start {a : AonSt} {now : Nat} (h : a.slewAt = now) : a.slewed now = 0 := by
  unfold AonSt.slewed
  rw [h, Nat.sub_self]
  dsimp only
  split <;> simp_all
  omega
theorem Pkg.time_start {k : Pkg} {now : Nat} (h : k.aon.slewAt = now) : k.time now = (((now : Int) + k.aon.timeOff) % 2 ^ 64).toNat := by
  rw [Pkg.time, AonSt.slewed_start h, Int.add_zero]
/-- What has come of a slew of at most 100 ns is at most 100 ns. -/
theorem AonSt.slewed_bounds {a : AonSt} (hl : -100 ≤ a.slewBy) (hu : a.slewBy ≤ 100) (t : Nat) : -100 ≤ a.slewed t ∧ a.slewed t ≤ 100 := by
  unfold AonSt.slewed
  dsimp only
  generalize (t - a.slewAt) / 10000 = n
  split <;> omega

theorem Pkg.strobe_first {k : Pkg} (now : Nat) (h : k.loaded = false) : k.strobe now =
    (k.setAon fun a => { a with timeOff := (k.wide R.AON_TIME_LOAD_LO : Int) - now, slewBy := 0, slewAt := now }).flag F.AON_TIME_STATUS_LOADED true := by
  rw [Pkg.strobe, h]
  rfl
theorem Pkg.strobe_later {k : Pkg} (now : Nat) (h : k.loaded = true) :
    k.strobe now = k.setAon fun a => { a with coarse := (k.wide R.AON_TIME_LOAD_LO : Int) - (k.time now : Int) } := by
  rw [Pkg.strobe, h]
  rfl

/-- The mean difference of an exchange, 0 without one. -/
def meanOr0 (diffs : List Int) : Int := if diffs = [] then 0 else meanOf diffs
/-- Consecutive exchanges within 20 ns, after one more. -/
def Pkg.goodAfter (diffs : List Int) (k : Pkg) : Nat :=
  if diffs = [] then k.aon.goodExchanges else if (meanOr0 diffs).natAbs ≤ 20 then k.aon.goodExchanges + 1 else 0
/-- The always-on state after an exchange: the slew so far is taken into the offset, and the next one starts. -/
def Pkg.exchangeAon (now : Nat) (diffs : List Int) (k : Pkg) : AonSt :=
  { k.aon with timeOff := k.aon.timeOff + k.aon.slewed now, slewAt := now,
               slewBy := max (-100) (min 100 (meanOr0 diffs + k.aon.coarse.tdiv 64)), goodExchanges := k.goodAfter diffs }

theorem exec_timeExchange_moored {s : State} {p : PkgId} (diffs : List Int) (h : (s.pkg p).moored = true) :
    exec (.timeExchange p diffs) s = .next (s.setPkg p (s.pkg p)) := by
  change execTimeExchange p diffs s = _
  unfold execTimeExchange onPkg
  dsimp only
  rw [if_pos h]

/-- An exchange sets the slew, OFFSET, and REFINED after 100 good ones. -/
theorem exec_timeExchange {s : State} {p : PkgId} (diffs : List Int) (h : (s.pkg p).moored = false) :
    ∃ j : Pkg, exec (.timeExchange p diffs) s = .next (s.setPkg p j) ∧ j.aon = (s.pkg p).exchangeAon s.now diffs ∧
      (100 ≤ (s.pkg p).goodAfter diffs → j.get F.AON_TIME_STATUS_REFINED = 1) ∧ ∀ o, o ≠ R.AON_TIME_STATUS → j.rg o = (s.pkg p).rg o := by
  have hoff : ∃ k2 : Pkg, OnlyRegs ((s.pkg p).setAon fun _ => (s.pkg p).exchangeAon s.now diffs) k2 ∧
      (∀ o, o ≠ R.AON_TIME_STATUS → k2.rg o = (s.pkg p).rg o) ∧
      (if diffs = [] then (s.pkg p).setAon fun _ => (s.pkg p).exchangeAon s.now diffs
        else ((s.pkg p).setAon fun _ => (s.pkg p).exchangeAon s.now diffs).put F.AON_TIME_STATUS_OFFSET (sat16 (meanOr0 diffs))) = k2 := by
    refine ⟨_, ?_, fun o ho => ?_, rfl⟩
    · split <;> rfl
    · split
      · exact Pkg.rg_of_regs rfl o
      · rw [Pkg.rg_put_ne _ _ _ ho]
        exact Pkg.rg_of_regs rfl o
  obtain ⟨k2, hregs, hrg, hk2⟩ := hoff
  have hexec : exec (.timeExchange p diffs) s =
      .next (s.setPkg p (if 100 ≤ (s.pkg p).goodAfter diffs then k2.flag F.AON_TIME_STATUS_REFINED true else k2)) := by
    rw [← hk2]
    change execTimeExchange p diffs s = _
    unfold execTimeExchange onPkg
    dsimp only
    rw [if_neg (by rw [h]; decide)]
    rfl
  refine ⟨_, hexec, ?_, fun hg => ?_, fun o ho => ?_⟩
  · split
    · exact hregs.aon
    · exact hregs.aon
  · rw [if_pos hg, Pkg.get_flag_same _ _ _ (by decide) (by decide)]
    rfl
  · split
    · rw [Pkg.flag, Pkg.rg_put_ne _ _ _ ho, hrg o ho]
    · exact hrg o ho

theorem exec_timeStrobe (s : State) (p : PkgId) : exec (.timeStrobe p) s = .next ((s.setPkg p ((s.pkg p).strobe s.now)).setRack p.rack
    { s.rack p.rack with timeOff := ((s.pkg p).wide R.AON_TIME_LOAD_LO : Int) - s.now }) := rfl

/-- Settles O13: the switches of `Pkg.switched`, reported by `Pkg.raise`, and the slew of `Pkg.exchangeAon`. -/
theorem clocksAndTime : Obligations.ClocksAndTime := by
  constructor
  · intro s p b k
    have hother (hh : k.holdover = false) (ha : k.srcActive = b) := exec_clockSourceLost_used (s := s) (p := p) (b := b) hh ha
    refine ⟨exec_clockSourceLost_unused, fun hh ha ho => ?_, fun hh ha ho => ?_, fun hh => ?_, fun hh ha hp => ?_, fun hh ha hp => ?_,
      fun who w hopen hh ho => ?_⟩
    · have h := hother hh ha
      rw [if_pos ho] at h
      exact ⟨_, h, rfl, Pkg.srcActive_switched .., by rw [Pkg.srcOk_switched, Pkg.srcOk_setSrc_same],
        by rw [Pkg.srcOk_switched, Pkg.srcOk_setSrc_other, ho], by rw [Pkg.holdover_switched, Pkg.holdover_setSrc, hh],
        by rw [Pkg.switches_switched, Pkg.switches_setSrc], fun o hne => by rw [Pkg.switched_rg _ _ hne, Pkg.setSrc_rg _ _ _ hne]⟩
    · have h := hother hh ha
      rw [if_neg (by rw [ho]; decide)] at h
      refine ⟨_, h, rfl, ?_, ?_, ?_, fun o hne => ?_⟩
      · rw [Pkg.holdover, Pkg.get_flag_same _ _ _ (by decide) (by decide)]
        rfl
      · rw [Pkg.srcOk_eq, Pkg.get_flag_disjoint _ _ _ _ (by cases b <;> decide) (by cases b <;> rfl) (by cases b <;> decide), ← Pkg.srcOk_eq,
          Pkg.srcOk_setSrc_same]
      · rw [Pkg.get_flag_disjoint _ _ _ _ (by decide) (by rfl) (by decide), Pkg.switches_setSrc]
      · rw [Pkg.flag, Pkg.rg_put_ne _ _ _ hne, Pkg.setSrc_rg _ _ _ hne]
    · refine ⟨_, exec_sourceReturn_holdover hh, rfl, ?_, ?_, ?_, fun o hne => ?_⟩
      · rw [Pkg.holdover, Pkg.get_flag_disjoint _ _ _ _ (by decide) (by rfl) (by decide), Pkg.get_flag_same _ _ _ (by decide) (by decide)]
        rfl
      · rw [Pkg.srcActive, Pkg.get_flag_same _ _ _ (by decide) (by decide)]
        cases b <;> rfl
      · rw [Pkg.srcOk_eq, Pkg.get_flag_disjoint _ _ _ _ (by cases b <;> decide) (by cases b <;> rfl) (by cases b <;> decide),
          Pkg.get_flag_disjoint _ _ _ _ (by cases b <;> decide) (by cases b <;> rfl) (by cases b <;> decide), ← Pkg.srcOk_eq,
          Pkg.srcOk_setSrc_same]
      · rw [Pkg.flag, Pkg.rg_put_ne _ _ _ hne, Pkg.flag, Pkg.rg_put_ne _ _ _ hne, Pkg.setSrc_rg _ _ _ hne]
    · rw [exec_sourceReturn hh, Pkg.selectSource_stays]
      have hpref : (k.setSrc b true).preferred = k.preferred := by
        rw [Pkg.preferred, Pkg.get_of_rg (Pkg.setSrc_rg k b true (by decide)), Pkg.preferred]
      change (k.setSrc b true).srcActive = (if (k.setSrc b true).srcOk (k.setSrc b true).preferred then _ else _)
      rw [Pkg.srcActive_setSrc, ha, hpref]
      by_cases hb : k.preferred = b
      · rw [hb, Pkg.srcOk_setSrc_same, if_pos rfl]
      · have hb' : k.preferred = !b := by cases b <;> simp_all
        rw [hb', Pkg.srcOk_setSrc_other, hp.resolve_left hb]
        simp
    · have hpref : (k.setSrc b true).preferred = b := by
        rw [Pkg.preferred, Pkg.get_of_rg (Pkg.setSrc_rg k b true (by decide))]
        exact hp
      refine ⟨_, ?_, Pkg.switched_onlyRegs b (k.setSrc b true), Pkg.srcActive_switched .., by rw [Pkg.srcOk_switched, Pkg.srcOk_setSrc_same],
        by rw [Pkg.switches_switched, Pkg.switches_setSrc]⟩
      rw [exec_sourceReturn hh, Pkg.selectSource_switches _ ((Pkg.holdover_setSrc ..).trans hh), hpref]
      · rw [hpref, Pkg.srcOk_setSrc_same]
      · rw [hpref, Pkg.srcActive_setSrc]
        exact ha
    · refine ⟨_, exec_force hopen hh ho rfl, rfl, Pkg.srcActive_switched .., ?_, ?_, fun o hne hne' => ?_⟩
      · rw [Pkg.get_of_rg (Pkg.switched_rg _ _ (by decide)), Pkg.prefer_storeFields, bits, Nat.shiftRight_zero,
          show (w ||| 2).toNat = w.toNat ||| 2 from BitVec.toNat_or .., bits, Nat.shiftRight_zero, Nat.pow_one, Nat.or_mod_two_pow (n := 1)]
        simp
      · rw [Pkg.switches_switched, Pkg.get_of_rg (Pkg.storeFields_rg_ne _ _ _ (by decide))]
      · rw [Pkg.switched_rg _ _ hne, Pkg.storeFields_rg_ne _ _ _ hne']
  · intro s p k held
    refine ⟨fun h => ⟨_, exec_timeStrobe s p, ?_⟩, fun h => ⟨_, exec_timeStrobe s p, ?_⟩, fun diffs h => exec_timeExchange_moored diffs h,
      fun diffs h => ?_⟩
    · rw [Pkg.strobe_first _ h]
      refine ⟨?_, ?_, fun o ho => ?_⟩
      · rw [Pkg.loaded, Pkg.get_flag_same _ _ _ (by decide) (by decide)]
        rfl
      · rw [Pkg.time_start (now := s.now) (by rfl), Pkg.flag_aon, Pkg.setAon]
        dsimp only
        omega
      · rw [Pkg.flag, Pkg.rg_put_ne _ _ _ ho]
        exact Pkg.rg_of_regs rfl o
    · rw [Pkg.strobe_later _ h]
      exact ⟨rfl, fun t => rfl, rfl⟩
    · obtain ⟨j, hexec, haon, hrefined, hrg⟩ := exec_timeExchange diffs h
      have hby : j.aon.slewBy = max (-100) (min 100 (meanOr0 diffs + k.aon.coarse.tdiv 64)) := by rw [haon]; rfl
      have hgood : j.aon.goodExchanges = k.goodAfter diffs := by rw [haon]; rfl
      have hmean (hne : diffs ≠ []) : meanOr0 diffs = meanOf diffs := if_neg hne
      refine ⟨j, hexec, ?_, by omega, by omega, AonSt.slewed_bounds (by omega) (by omega), fun hne hl hu => ?_, fun hne hm => ?_,
        fun hg hne hm => hrefined ?_, hrg⟩
      · rw [Pkg.time_start (by rw [haon]; rfl), haon]
        simp only [Pkg.exchangeAon, Pkg.time, Int.add_assoc, k]
      · rw [hby, hmean hne]
        omega
      · rw [hgood, Pkg.goodAfter, if_neg hne, hmean hne, if_neg (by omega)]
      · change 100 ≤ k.goodAfter diffs
        rw [Pkg.goodAfter, if_neg hne, hmean hne, if_pos hm]
        omega

end Sys2Proof.Machine
end

section
/-! PROOF. What a Bearing scan keeps (O35): the entries kept are the least of those compared. -/
namespace Sys2Proof.Machine
open Sys2Proof

theorem mem_keepEntry (x z : Nat) (l : List Nat) : z ∈ keepEntry x l ↔ z = x ∨ z ∈ l := by
  induction l with
  | nil => simp [keepEntry]
  | cons y t ih =>
    unfold keepEntry
    split
    · simp
    · simp only [List.mem_cons, ih]; tauto

theorem keepEntry_sorted (x : Nat) {l : List Nat} (h : l.Pairwise (· ≤ ·)) : (keepEntry x l).Pairwise (· ≤ ·) := by
  induction l with
  | nil => simp [keepEntry]
  | cons y t ih =>
    obtain ⟨hy, ht⟩ := List.pairwise_cons.1 h
    unfold keepEntry
    split
    · rename_i hlt
      refine List.pairwise_cons.2 ⟨fun z hz => ?_, h⟩
      rcases List.mem_cons.1 hz with rfl | hz
      · exact hlt.le
      · exact hlt.le.trans (hy z hz)
    · rename_i hge
      refine List.pairwise_cons.2 ⟨fun z hz => ?_, ih ht⟩
      rcases (mem_keepEntry x z t).1 hz with rfl | hz
      · exact Nat.not_lt.1 hge
      · exact hy z hz

theorem keepEntry_length (x : Nat) (l : List Nat) : (keepEntry x l).length = l.length + 1 := by
  induction l with
  | nil => rfl
  | cons y t ih =>
    unfold keepEntry
    split <;> simp [ih]

/-- An entry pushed in front of a full list pushes out one that is not below it. -/
theorem keepEntry_take_le (x e : Nat) {l : List Nat} (h : ∀ y ∈ l, y ≤ e) : ∀ y ∈ (keepEntry x l).take l.length, y ≤ e := by
  induction l with
  | nil => simp
  | cons y t ih =>
    obtain ⟨hy, ht⟩ := List.forall_mem_cons.1 h
    unfold keepEntry
    split
    · rename_i hlt
      intro z hz
      rw [List.length_cons, List.take_succ_cons] at hz
      rcases List.mem_cons.1 hz with rfl | hz
      · omega
      · exact h z (List.mem_of_mem_take hz)
    · intro z hz
      rw [List.length_cons, List.take_succ_cons] at hz
      rcases List.mem_cons.1 hz with rfl | hz
      · exact hy
      · exact ih ht z hz

/-- The entry is kept, or the list is full of entries not above it. -/
def Settled (n entry : Nat) (l : List Nat) : Prop := entry ∈ l ∨ (l.length = n ∧ ∀ y ∈ l, y ≤ entry)

theorem settled_take {n entry : Nat} {l : List Nat} (hs : l.Pairwise (· ≤ ·)) (hm : entry ∈ l) : Settled n entry (l.take n) := by
  rw [← List.take_append_drop n l, List.mem_append] at hm
  rw [← List.take_append_drop n l] at hs
  rcases hm with hm | hm
  · exact .inl hm
  · refine .inr ⟨?_, fun y hy => (List.pairwise_append.1 hs).2.2 y hy entry hm⟩
    have := List.length_pos_of_mem hm
    rw [List.length_drop] at this
    rw [List.length_take]; omega

theorem settled_keep {n entry : Nat} {l : List Nat} (x : Nat) (hs : l.Pairwise (· ≤ ·)) (h : Settled n entry l) :
    Settled n entry ((keepEntry x l).take n) := by
  rcases h with h | ⟨hl, h⟩
  · exact settled_take (keepEntry_sorted x hs) ((mem_keepEntry x entry l).2 (.inr h))
  · refine .inr ⟨?_, hl ▸ keepEntry_take_le x entry h⟩
    rw [List.length_take, keepEntry_length]; omega

/-- The key of a scan's entry. -/
def scanKey (p : PkgId) (m : Mem) (b : List Byte) (e : (Nat × Nat × Nat) × Nat) : Nat :=
  distance (memRead m (memKey p 0 (e.1.1 + 16 * qUnits b * e.2)) (16 * qUnits b)) (slice b 64 (16 * qUnits b)) * 2 ^ 48 +
    e.1.2.2 * 2 ^ 32 + e.2

/-- A sketch that the scan reads whole and finds within MAX_DIST. -/
def ScanHit (p : PkgId) (m : Mem) (poison : List Nat) (b : List Byte) (e : (Nat × Nat × Nat) × Nat) : Prop :=
  (linesOf (memKey p 0 (e.1.1 + 16 * qUnits b * e.2)) (16 * qUnits b)).any poison.contains = false ∧
  distance (memRead m (memKey p 0 (e.1.1 + 16 * qUnits b * e.2)) (16 * qUnits b)) (slice b 64 (16 * qUnits b)) ≤
    if qMaxDist b = 0xFFFF then 2048 else qMaxDist b

/-- What a scan of the sketches l has made of its kept entries and counts. -/
structure ScanDone (p : PkgId) (m : Mem) (poison : List Nat) (b : List Byte) (l : List ((Nat × Nat × Nat) × Nat)) (x : Scan) : Prop where
  sorted : x.kept.Pairwise (· ≤ ·)
  short : x.kept.length ≤ qKScan b
  counts : x.scanned + x.skipped = l.length
  settled : ∀ e ∈ l, ScanHit p m poison b e → Settled (qKScan b) (scanKey p m b e) x.kept

/-- A sketch with an uncorrectable line is skipped. -/
theorem sketch_poison {p : PkgId} {m : Mem} {poison : List Nat} {b : List Byte} {e : (Nat × Nat × Nat) × Nat} (x : Scan)
    (h : (linesOf (memKey p 0 (e.1.1 + 16 * qUnits b * e.2)) (16 * qUnits b)).any poison.contains = true) :
    x.sketch p m poison b e.1 e.2 = { x with skipped := x.skipped + 1 } := if_pos h
/-- Another is compared, and kept where it lies within MAX_DIST. -/
theorem sketch_compared {p : PkgId} {m : Mem} {poison : List Nat} {b : List Byte} {e : (Nat × Nat × Nat) × Nat} (x : Scan)
    (h : (linesOf (memKey p 0 (e.1.1 + 16 * qUnits b * e.2)) (16 * qUnits b)).any poison.contains = false) :
    x.sketch p m poison b e.1 e.2 = { x with
      scanned := x.scanned + 1,
      kept := if distance (memRead m (memKey p 0 (e.1.1 + 16 * qUnits b * e.2)) (16 * qUnits b)) (slice b 64 (16 * qUnits b)) ≤
          (if qMaxDist b = 0xFFFF then 2048 else qMaxDist b)
        then (keepEntry (scanKey p m b e) x.kept).take (qKScan b) else x.kept } := if_neg (by rw [h]; exact Bool.false_ne_true)

theorem sketch_cases (p : PkgId) (m : Mem) (poison : List Nat) (b : List Byte) (e : (Nat × Nat × Nat) × Nat) (x : Scan) :
    (¬ ScanHit p m poison b e ∧ (x.sketch p m poison b e.1 e.2).kept = x.kept ∨
      ScanHit p m poison b e ∧ (x.sketch p m poison b e.1 e.2).kept = (keepEntry (scanKey p m b e) x.kept).take (qKScan b)) ∧
    (x.sketch p m poison b e.1 e.2).scanned + (x.sketch p m poison b e.1 e.2).skipped = x.scanned + x.skipped + 1 := by
  cases hp : (linesOf (memKey p 0 (e.1.1 + 16 * qUnits b * e.2)) (16 * qUnits b)).any poison.contains with
  | true =>
    rw [sketch_poison x hp]
    exact ⟨.inl ⟨fun h => Bool.noConfusion (hp.symm.trans h.1), rfl⟩, (Nat.add_assoc ..).symm⟩
  | false =>
    rw [sketch_compared x hp]
    refine ⟨?_, Nat.add_right_comm ..⟩
    by_cases hd : distance (memRead m (memKey p 0 (e.1.1 + 16 * qUnits b * e.2)) (16 * qUnits b)) (slice b 64 (16 * qUnits b)) ≤
        if qMaxDist b = 0xFFFF then 2048 else qMaxDist b
    · exact .inr ⟨⟨hp, hd⟩, if_pos hd⟩
    · exact .inl ⟨fun h => hd h.2, if_neg hd⟩

theorem ScanDone.sketch {p : PkgId} {m : Mem} {poison : List Nat} {b : List Byte} {l : List ((Nat × Nat × Nat) × Nat)} {x : Scan}
    (h : ScanDone p m poison b l x) (e : (Nat × Nat × Nat) × Nat) :
    ScanDone p m poison b (l ++ [e]) (x.sketch p m poison b e.1 e.2) := by
  obtain ⟨hk, hn⟩ := sketch_cases p m poison b e x
  have hc : (x.sketch p m poison b e.1 e.2).scanned + (x.sketch p m poison b e.1 e.2).skipped = (l ++ [e]).length := by
    rw [hn, h.counts, List.length_append, List.length_singleton]
  rcases hk with ⟨hm, hk⟩ | ⟨-, hk⟩
  · refine ⟨hk ▸ h.sorted, hk ▸ h.short, hc, fun e' he hh => ?_⟩
    rcases List.mem_append.1 he with he | he
    · exact hk ▸ h.settled e' he hh
    · exact absurd (List.mem_singleton.1 he ▸ hh) hm
  · have hs := keepEntry_sorted (scanKey p m b e) h.sorted
    refine ⟨hk ▸ hs.sublist (List.take_sublist _ _), hk ▸ List.length_take_le _ _, hc, fun e' he hh => ?_⟩
    rw [hk]
    rcases List.mem_append.1 he with he | he
    · exact settled_keep _ h.sorted (h.settled e' he hh)
    · rw [List.mem_singleton.1 he]
      exact settled_take hs ((mem_keepEntry _ _ _).2 (.inl rfl))

theorem scanAll_done (p : PkgId) (m : Mem) (poison : List Nat) (b : List Byte) (l : List ((Nat × Nat × Nat) × Nat)) :
    ScanDone p m poison b l (scanAll p m poison b l) := by
  induction l using List.reverseRecOn with
  | nil => exact ⟨List.Pairwise.nil, Nat.zero_le _, rfl, fun e he => absurd he List.not_mem_nil⟩
  | append_singleton l e ih =>
    have h := ih.sketch e
    rw [scanAll] at h
    rw [scanAll, List.foldl_append, List.foldl_cons, List.foldl_nil]
    exact h

/-- Settles O35, by induction on the list of sketches: each sketch keeps the entries sorted and settled. -/
theorem scanKeepsNearest : Obligations.ScanKeepsNearest := by
  unfold Obligations.ScanKeepsNearest
  intro p m poison b l
  obtain ⟨hs, hn, hc, hk⟩ := scanAll_done p m poison b l
  refine ⟨hs, hn, hc, fun e he => ?_⟩
  intro key d entry hp hd
  have h := hk e he ⟨hp, hd⟩
  unfold Settled scanKey at h
  exact h

end Sys2Proof.Machine
end

section
/-! PROOF. The pre-wake slots (R81–R83): what a write of AON_PREWAKE_CTRL does, and a slot's start and end. -/
namespace Sys2Proof.Machine
open Sys2Proof

/-! ### Fields of a stored word -/

theorem testBit_bits (v lo n i : Nat) : (bits v lo n).testBit i = (decide (i < n) && v.testBit (lo + i)) := by
  rw [bits, Nat.testBit_mod_two_pow, Nat.testBit_shiftRight]
theorem bits_or (v m lo n : Nat) : bits (v ||| m) lo n = bits v lo n ||| bits m lo n := by
  refine Nat.eq_of_testBit_eq fun i => ?_
  simp only [testBit_bits, Nat.testBit_or, Bool.and_or_distrib_left]

/-- A read-write field holds what was written (R13). -/
theorem Pkg.get_storeFields_rw {d : RegDesc} {off lo n : Nat} {f : Fld} (hf : f = ⟨off, lo, n⟩) (hl : lo + n ≤ 32)
    (hd : ∀ i, i < n → d.rw.testBit (lo + i) = true ∧ d.w1c.testBit (lo + i) = false) (w : Word) (k : Pkg) :
    (k.storeFields d off w).get f = bits w.toNat lo n := by
  subst hf
  rw [Pkg.get]
  refine Nat.eq_of_testBit_eq fun i => ?_
  rw [testBit_bits, testBit_bits]
  by_cases hi : i < n
  · obtain ⟨hr, hc⟩ := hd i hi
    have hlt : lo + i < 32 := by omega
    have hb : ((k.storeFields d off w).rg off).getLsbD (lo + i) = w.getLsbD (lo + i) := by
      have hr' : (BitVec.ofNat 32 d.rw).getLsbD (lo + i) = true := by rw [BitVec.getLsbD_ofNat, hr, decide_eq_true hlt]; rfl
      have hc' : (BitVec.ofNat 32 d.w1c).getLsbD (lo + i) = false := by rw [BitVec.getLsbD_ofNat, hc, Bool.and_false]
      rw [Pkg.storeFields_rg]
      simp only [BitVec.getLsbD_and, BitVec.getLsbD_or, BitVec.getLsbD_not, hr', hc', hlt]
      simp
    rw [BitVec.getLsbD, BitVec.getLsbD] at hb
    rw [hb]
  · simp [hi]

/-! ### Writes of AON_PREWAKE_CTRL -/

/-- The line of the register map that describes AON_PREWAKE_CTRL. -/
def prewakeCtrlDesc : RegDesc := ⟨"AON_PREWAKE_CTRL", 0x58, 1, 0x0, 1, 0x0, 0xa00ff, 0xff00ff, 0x1000000, 0x0, 0x2000100, 0, 1⟩

/-- The fields that a write of AON_PREWAKE_CTRL must hold to be taken (R82). -/
def PrewakeFields (w : Nat) : Prop := bits w 16 8 ≠ 0 ∧ (bits w 0 8 ≤ 191 ∨ bits w 0 8 = 255)

theorem busWrite_AON_PREWAKE_CTRL_ignored {x : Bus} {w : Word} (m : Mem) (k : Pkg) (ha : bit w.toNat 8 = true) (hc : bit w.toNat 25 = true) :
    busWrite x prewakeCtrlDesc R.AON_PREWAKE_CTRL w m k = (m, k) := by
  have hi : k.ignores x prewakeCtrlDesc R.AON_PREWAKE_CTRL w.toNat = true := by
    change (bit w.toNat 8 && bit w.toNat 25) = true
    rw [ha, hc]; rfl
  unfold busWrite
  dsimp only
  rw [hi, if_pos rfl]
theorem busWrite_AON_PREWAKE_CTRL {x : Bus} {w : Word} (m : Mem) (k : Pkg) (hw : PrewakeFields w.toNat) (hb : (bit w.toNat 8 && bit w.toNat 25) = false) :
    busWrite x prewakeCtrlDesc R.AON_PREWAKE_CTRL w m k =
      prewakeCtrl x.now x.p (bit w.toNat 8) (bit w.toNat 25) m (k.storeFields prewakeCtrlDesc R.AON_PREWAKE_CTRL w) := by
  have hi : k.ignores x prewakeCtrlDesc R.AON_PREWAKE_CTRL w.toNat = false := hb
  have hr : k.rejects prewakeCtrlDesc.base w.toNat = false := by
    change (decide (bits w.toNat 16 8 = 0) || (decide (191 < bits w.toNat 0 8) && decide (bits w.toNat 0 8 ≠ 255))) = false
    obtain ⟨h0, h1⟩ := hw
    simp only [Bool.or_eq_false_iff, Bool.and_eq_false_iff, decide_eq_false_iff_not]
    omega
  unfold busWrite
  dsimp only
  rw [hi, hr]
  rfl

/-- What a write of AON_PREWAKE_CTRL stores. -/
abbrev Pkg.prewakeStored (k : Pkg) (w : Word) : Pkg := k.storeFields prewakeCtrlDesc R.AON_PREWAKE_CTRL w

theorem Pkg.prewakeStored_core (w : Word) (k : Pkg) : (k.prewakeStored w).get F.AON_PREWAKE_CTRL_CORE = bits w.toNat 0 8 :=
  Pkg.get_storeFields_rw rfl (by decide) (by decide) w k
theorem Pkg.prewakeStored_linger (w : Word) (k : Pkg) : (k.prewakeStored w).get F.AON_PREWAKE_CTRL_LINGER = bits w.toNat 16 8 :=
  Pkg.get_storeFields_rw rfl (by decide) (by decide) w k
theorem Pkg.prewakeStored_at (w : Word) (k : Pkg) : (k.prewakeStored w).wide R.AON_PREWAKE_AT_LO = k.wide R.AON_PREWAKE_AT_LO := by
  rw [Pkg.wide, Pkg.wide, Pkg.storeFields_rg_ne _ _ _ (by decide), Pkg.storeFields_rg_ne _ _ _ (by decide)]

/-- The slot that a write arms. -/
abbrev Pkg.newSlot (k : Pkg) (w : Word) : Prewake := ⟨k.wide R.AON_PREWAKE_AT_LO, bits w.toNat 0 8, 1000000 * bits w.toNat 16 8, false⟩

theorem prewakeCtrl_arm (now : Nat) (p : PkgId) (m : Mem) (k : Pkg) (w : Word) :
    prewakeCtrl now p true false m (k.prewakeStored w) = armSlot now p (k.newSlot w) m (k.prewakeStored w) := by
  simp only [prewakeCtrl, Pkg.newSlot, Bool.and_false, Bool.false_eq_true, if_false, if_true, Pkg.prewakeStored_core, Pkg.prewakeStored_linger,
    Pkg.prewakeStored_at]
theorem prewakeCtrl_cancel (now : Nat) (p : PkgId) (m : Mem) (k : Pkg) (w : Word) :
    prewakeCtrl now p false true m (k.prewakeStored w) =
      (m, (k.prewakeStored w).freeSlots now fun x => x.t = k.wide R.AON_PREWAKE_AT_LO && x.core = bits w.toNat 0 8) := by
  simp only [prewakeCtrl, Bool.false_and, Bool.false_eq_true, if_false, if_true, Pkg.prewakeStored_core, Pkg.prewakeStored_at]

theorem armSlot_full {now : Nat} {p : PkgId} {x : Prewake} {m : Mem} {k : Pkg} (h : 8 ≤ k.aon.slots.length) :
    armSlot now p x m k = (m, k.flag F.AON_PREWAKE_CTRL_FULL true) := if_pos h
/-- A slot with T at least 2 ms away waits. -/
theorem armSlot_later {now : Nat} {p : PkgId} {x : Prewake} {m : Mem} {k : Pkg} (h : k.aon.slots.length < 8) (ht : k.time now + 2000000 ≤ x.t) :
    armSlot now p x m k = (m, k.setAon fun a => { a with slots := a.slots ++ [x] }) := by
  unfold armSlot
  dsimp only
  rw [if_neg (Nat.not_le.2 h), if_neg (Nat.not_lt.2 ht)]

theorem Pkg.freeSlots_aon (now : Nat) (f : Prewake → Bool) (k : Pkg) :
    (k.freeSlots now f).aon.slots = k.aon.slots.filter (fun x => !f x) ∧ (k.freeSlots now f).dark = k.dark := by
  unfold Pkg.freeSlots
  dsimp only
  split <;> exact ⟨rfl, rfl⟩

section
variable {s : State} {p : PkgId} {who : Requester} {w : Word} (ho : Open s p who R.AON_PREWAKE_CTRL)
include ho

/-- ARM and CANCEL in one write are ignored (R83). -/
theorem exec_arm_ignored (h : bit w.toNat 25 = true) : exec (.arm p who w) s = .next (s.wrote p who R.AON_PREWAKE_CTRL s.mem (s.pkg p)) := by
  have h8 : bit (w ||| 0x100).toNat 8 = true := by rw [BitVec.toNat_or, bit_or]; exact Bool.or_true _
  have h25 : bit (w ||| 0x100).toNat 25 = true := by rw [BitVec.toNat_or, bit_or, h]; rfl
  exact busAccess_writes (i := .arm p who w) (d := prewakeCtrlDesc) rfl ho findReg_AON_PREWAKE_CTRL (by decide) (by decide)
    (busWrite_AON_PREWAKE_CTRL_ignored _ _ h8 h25) rfl
theorem exec_prewakeCancel_ignored (h : bit w.toNat 8 = true) :
    exec (.prewakeCancel p who w) s = .next (s.wrote p who R.AON_PREWAKE_CTRL s.mem (s.pkg p)) := by
  have h8 : bit (w ||| 0x2000000).toNat 8 = true := by rw [BitVec.toNat_or, bit_or, h]; rfl
  have h25 : bit (w ||| 0x2000000).toNat 25 = true := by rw [BitVec.toNat_or, bit_or]; exact Bool.or_true _
  exact busAccess_writes (i := .prewakeCancel p who w) (d := prewakeCtrlDesc) rfl ho findReg_AON_PREWAKE_CTRL (by decide) (by decide)
    (busWrite_AON_PREWAKE_CTRL_ignored _ _ h8 h25) rfl

variable (hw : PrewakeFields w.toNat)
include hw

theorem exec_arm {m : Mem} {j : Pkg} (h : bit w.toNat 25 = false)
    (hj : armSlot s.now p ((s.pkg p).newSlot w) s.mem ((s.pkg p).prewakeStored (w ||| 0x100)) = (m, j)) (hdark : j.dark = (s.pkg p).dark) :
    exec (.arm p who w) s = .next (s.wrote p who R.AON_PREWAKE_CTRL m j) := by
  have h0 : bits (w ||| 0x100).toNat 0 8 = bits w.toNat 0 8 := by rw [BitVec.toNat_or, bits_or]; exact Nat.or_zero _
  have h16 : bits (w ||| 0x100).toNat 16 8 = bits w.toNat 16 8 := by rw [BitVec.toNat_or, bits_or]; exact Nat.or_zero _
  have h8 : bit (w ||| 0x100).toNat 8 = true := by rw [BitVec.toNat_or, bit_or]; exact Bool.or_true _
  have h25 : bit (w ||| 0x100).toNat 25 = false := by rw [BitVec.toNat_or, bit_or, h]; rfl
  have hw' : PrewakeFields (w ||| 0x100).toNat := by rw [PrewakeFields, h0, h16]; exact hw
  refine busAccess_writes (i := .arm p who w) (d := prewakeCtrlDesc) rfl ho findReg_AON_PREWAKE_CTRL (by decide) (by decide)
    (Eq.trans (busWrite_AON_PREWAKE_CTRL _ _ hw' (by rw [h25]; exact Bool.and_false _)) ?_) (by rw [Pkg.pkgDark, hdark]; rfl)
  rw [h8, h25, prewakeCtrl_arm, Pkg.newSlot, h0, h16]
  exact hj
theorem exec_prewakeCancel (h : bit w.toNat 8 = false) :
    exec (.prewakeCancel p who w) s = .next (s.wrote p who R.AON_PREWAKE_CTRL s.mem (((s.pkg p).prewakeStored (w ||| 0x2000000)).freeSlots s.now
      fun x => x.t = (s.pkg p).wide R.AON_PREWAKE_AT_LO && x.core = bits w.toNat 0 8)) := by
  have h0 : bits (w ||| 0x2000000).toNat 0 8 = bits w.toNat 0 8 := by rw [BitVec.toNat_or, bits_or]; exact Nat.or_zero _
  have h16 : bits (w ||| 0x2000000).toNat 16 8 = bits w.toNat 16 8 := by rw [BitVec.toNat_or, bits_or]; exact Nat.or_zero _
  have h8 : bit (w ||| 0x2000000).toNat 8 = false := by rw [BitVec.toNat_or, bit_or, h]; rfl
  have h25 : bit (w ||| 0x2000000).toNat 25 = true := by rw [BitVec.toNat_or, bit_or]; exact Bool.or_true _
  have hw' : PrewakeFields (w ||| 0x2000000).toNat := by rw [PrewakeFields, h0, h16]; exact hw
  refine busAccess_writes (i := .prewakeCancel p who w) (d := prewakeCtrlDesc) rfl ho findReg_AON_PREWAKE_CTRL (by decide) (by decide)
    (Eq.trans (busWrite_AON_PREWAKE_CTRL _ _ hw' (by rw [h8]; rfl)) ?_) (by rw [Pkg.pkgDark, (Pkg.freeSlots_aon ..).2]; rfl)
  rw [h8, h25, prewakeCtrl_cancel, h0]
end

/-! ### The start and the end of a slot -/

theorem Pkg.put_onlyCause (k : Pkg) (f : Fld) (v : Nat) (h : f.off ≠ R.AON_WAKE_CAUSE) :
    (k.put f v).get F.AON_WAKE_CAUSE_CAUSE = k.get F.AON_WAKE_CAUSE_CAUSE := k.get_put_reg_ne f _ v h.symm
theorem Pkg.setDomains_wakeCause (b : Bool) : ∀ (ds : List Nat) (k : Pkg), (k.setDomains b ds).get F.AON_WAKE_CAUSE_CAUSE = k.get F.AON_WAKE_CAUSE_CAUSE
  | [], _ => rfl
  | d :: ds, k => (Pkg.setDomains_wakeCause b ds (k.setDomain b d)).trans
      (Pkg.get_of_rg (Pkg.rg_setRg_ne _ _ (by unfold R.AON_DOMAIN_ON; simp [F.AON_WAKE_CAUSE_CAUSE, R.AON_WAKE_CAUSE]; omega)))
/-- What is powered has no part in the causes of a wake. -/
theorem Pkg.power_wakeCause (ds : List Nat) (k : Pkg) : (k.power ds).get F.AON_WAKE_CAUSE_CAUSE = k.get F.AON_WAKE_CAUSE_CAUSE := by
  unfold Pkg.power
  dsimp only
  split
  · rw [Pkg.put_onlyCause _ _ _ (by decide), Pkg.clearBits, Pkg.put_onlyCause _ _ _ (by decide), Pkg.setDomains_wakeCause]
  · rw [Pkg.clearBits, Pkg.put_onlyCause _ _ _ (by decide), Pkg.setDomains_wakeCause]

theorem reloadStore_pkg (p : PkgId) (c : Nat) (m : Mem) (k : Pkg) : (∀ o, (reloadStore p c m k).2.rg o = k.rg o) ∧
    (reloadStore p c m k).2.aon.slots = k.aon.slots := by
  unfold reloadStore
  split <;> exact ⟨fun _ => rfl, rfl⟩

/-- The wake of a slot starts the slot and sets bit 4 of the causes (R78, R82). -/
theorem startSlot_spec (now : Nat) (p : PkgId) (i : Nat) (x : Prewake) (m : Mem) (k : Pkg) :
    (startSlot now p i x m k).2.aon.slots = k.aon.slots.set i { x with started := true } ∧
    bit ((startSlot now p i x m k).2.get F.AON_WAKE_CAUSE_CAUSE) 4 = true := by
  have hc : bit ((k.wakeInfra.wakeCause 4).get F.AON_WAKE_CAUSE_CAUSE) 4 = true := Pkg.bit_orBits _ _ (by decide) (by decide)
  have ha : (k.wakeInfra.wakeCause 4).aon = k.aon := (((k.power_onlyRegs _).trans (Pkg.leaveMoor_onlyRegs ..)).trans (.put ..)).aon
  generalize hk1 : (k.wakeInfra.wakeCause 4) = k1 at hc ha
  have hslots : k1.aon.slots.set i { x with started := true } = k.aon.slots.set i { x with started := true } := by rw [ha]
  unfold startSlot
  rw [hk1]
  dsimp only
  split
  · obtain ⟨hr, hs⟩ := reloadStore_pkg p x.core m ((if k.pstate x.core = 3 then
      ((k1.setAon fun a => { a with slots := a.slots.set i { x with started := true } }).toIdle now x.core).setPstate x.core 2
      else k1.setAon fun a => { a with slots := a.slots.set i { x with started := true } }).power [192 + k.phys x.core, 384 + k.phys x.core / 48])
    have hne (c : Nat) : (F.CORE_PSTATE_STATE c).off ≠ R.AON_WAKE_CAUSE := by
      simp [F.CORE_PSTATE_STATE, R.CORE_PSTATE, R.AON_WAKE_CAUSE]; omega
    rw [hs, Pkg.get_of_rg (hr _), (Pkg.power_onlyRegs _ _).aon, Pkg.power_wakeCause]
    split
    · rw [Pkg.setPstate, Pkg.put_onlyCause _ _ _ (hne _)]
      refine ⟨hslots, ?_⟩
      rw [Pkg.toIdle]
      change bit (((k1.setAon _).setPstate _ _).get _) 4 = true
      rw [Pkg.setPstate, Pkg.put_onlyCause _ _ _ (hne _)]
      exact hc
    · exact ⟨hslots, hc⟩
  · exact ⟨hslots, hc⟩

section
variable {s : State} {p : PkgId} {i : Fin 8} {x : Prewake} (hx : (s.pkg p).aon.slots[i.val]? = some x)
include hx

theorem exec_prewakeStart : exec (.prewakeStart p i) s =
    (let r := if !x.started ∧ x.t ≤ (s.pkg p).time s.now + 1350000 then startSlot s.now p i.val x s.mem (s.pkg p) else (s.mem, s.pkg p)
     .next ({ s with mem := r.1 }.setPkg p r.2)) := by
  change execPrewakeStart p i s = _
  unfold execPrewakeStart onPkgMem
  dsimp only
  rw [hx] <;> rfl
theorem exec_prewakeFree : exec (.prewakeFree p i) s = .next (s.setPkg p (if x.t + x.linger ≤ (s.pkg p).time s.now then
      (let k1 := (s.pkg p).setAon fun a => { a with slots := a.slots.eraseIdx i.val }
       if k1.prewakeNear s.now then k1 else k1.flag F.AON_PKG_STATE_PREWAKE_DUE false) else s.pkg p)) := by
  change execPrewakeFree p i s = _
  unfold execPrewakeFree onPkg
  dsimp only
  rw [hx] <;> rfl
end

/-- Settles O16: every write goes through `prewakeCtrl`, and a slot's start through `startSlot`. -/
theorem prewakeSlots : Obligations.PrewakeSlots := by
  unfold Obligations.PrewakeSlots
  intro s p who w ho h16 h0 k at_
  have hw : PrewakeFields w.toNat := ⟨h16, h0⟩
  refine ⟨exec_arm_ignored ho, exec_prewakeCancel_ignored ho, fun h25 hfull => ?_, fun h25 hfree ht => ?_, fun h8 => ?_, fun i x hx => ⟨fun ht => ?_,
    fun hn ht => ?_, fun ht => ?_, fun ht => ?_⟩, fun hn => ?_⟩
  · refine ⟨_, exec_arm ho hw h25 (armSlot_full hfull) rfl, rfl, ?_⟩
    rw [Pkg.get_flag_same _ _ _ (by decide) (by decide)]
    rfl
  · refine ⟨_, exec_arm ho hw h25 (armSlot_later hfree ht) rfl, rfl, fun o hne => ?_⟩
    exact Pkg.storeFields_rg_ne _ _ _ hne
  · exact ⟨_, exec_prewakeCancel ho hw h8, (Pkg.freeSlots_aon ..).1⟩
  · rw [exec_prewakeStart hx, if_neg fun h => absurd h.2 (Nat.not_le.2 ht)]
  · rw [exec_prewakeStart hx, if_pos ⟨by simp [hn], ht⟩]
    exact ⟨_, _, rfl, startSlot_spec ..⟩
  · rw [exec_prewakeFree hx, if_neg (Nat.not_le.2 ht)]
  · rw [exec_prewakeFree hx, if_pos ht]
    refine ⟨_, rfl, ?_⟩
    dsimp only
    split <;> rfl
  · change Host.Outcome.next (s.setPkg p (if k.prewakeNear s.now then _ else k)) = _
    rw [if_pos hn]
    rfl

end Sys2Proof.Machine
end

section
/-! PROOF. The sleep and wake of cores (R72–R74). -/
namespace Sys2Proof.Machine
open Sys2Proof

/-! ### Copies of memory -/

/-- What lists of bytes, moved to another place, leave at a key. -/
theorem sfind_moved (src dst o : Nat) : ∀ (l : Mem) (b : Nat) (m : Mem), sortedFrom b l = true → src ≤ b →
    sfind (l.foldl (fun m e => memWriteByte m (e.1 - src + dst) e.2) m) (dst + o) = (sfind l (src + o)).or (sfind m (dst + o))
  | [], _, _, _, _ => rfl
  | (key, v) :: t, b, m, h, hb => by
    simp only [sortedFrom, Bool.and_eq_true, decide_eq_true_eq] at h
    rw [List.foldl_cons, sfind_moved src dst o t (key + 1) _ h.2 (by omega), sfind, memWriteByte]
    by_cases hk : src + o = key
    · subst hk
      rw [if_pos rfl, sfind_below t h.2 (Nat.lt_succ_self _), show src + o - src + dst = dst + o by omega, sfind_sinsert_same]
      rfl
    · rw [if_neg hk, sfind_sinsert_ne (by dsimp only; omega)]

/-- The keys of a range, in order, begin at its start. -/
theorem sortedFrom_range {m : Mem} {src len : Nat} (h : Memory.wf m = true) :
    sortedFrom src (m.filter fun e => src ≤ e.1 && e.1 < src + len) = true := by
  have key : ∀ (l : Mem) (b : Nat), sortedFrom b l = true → (∀ e ∈ l, src ≤ e.1) → sortedFrom src l = true
    | [], _, _, _ => rfl
    | (n, v) :: t, b, h, hl => by
      simp only [sortedFrom, Bool.and_eq_true, decide_eq_true_eq] at h ⊢
      exact ⟨hl _ List.mem_cons_self, h.2⟩
  refine key _ 0 (sortedFrom_filter _ m h) fun e he => ?_
  have := (List.mem_filter.1 he).2
  simp only [Bool.and_eq_true, decide_eq_true_eq] at this
  exact this.1

/-- A copied byte reads as the source's. -/
theorem sfind_memCopy {m : Mem} (h : Memory.wf m = true) {src dst len o : Nat} (ho : o < len) :
    sfind (memCopy m src dst len) (dst + o) = sfind m (src + o) := by
  rw [memCopy, sfind_moved src dst o _ src _ (sortedFrom_range h) le_rfl, sfind_memErase, if_pos ⟨by omega, by omega⟩, Option.or_none,
    sfind_filter fun n => src ≤ n && n < src + len, if_pos]
  simp only [Bool.and_eq_true, decide_eq_true_eq]
  omega

/-! ### The state of a core -/

theorem CORE_PSTATE_ne_DOMAIN (c d : Nat) (h : d < 412) : R.AON_DOMAIN_ON (d / 32) ≠ R.CORE_PSTATE c := by
  unfold R.AON_DOMAIN_ON R.CORE_PSTATE
  omega
theorem Pkg.pstate_setDomain (b : Bool) {d : Nat} (hd : d < 412) (c : Nat) (k : Pkg) : (k.setDomain b d).pstate c = k.pstate c :=
  Pkg.get_of_rg (Pkg.rg_setRg_ne _ _ (CORE_PSTATE_ne_DOMAIN c d hd).symm)
theorem Pkg.pstate_setPstate (c v : Nat) (h : v < 8) (k : Pkg) : (k.setPstate c v).pstate c = v := by
  rw [Pkg.pstate, Pkg.setPstate, Pkg.get_put_same _ _ _ (Nat.le_of_ble_eq_true rfl)]
  exact Nat.mod_eq_of_lt h
theorem Pkg.domainOn_setPstate (c v : Nat) {d : Nat} (hd : d < 412) (k : Pkg) : (k.setPstate c v).domainOn d = k.domainOn d := by
  rw [Pkg.domainOn, Pkg.setPstate, Pkg.rg_put_ne _ _ _ (CORE_PSTATE_ne_DOMAIN c d hd), Pkg.domainOn]

/-! ### Idle and Nap -/

theorem Pkg.toNap_frame (now c : Nat) (k : Pkg) :
    k.toNap now c = { k with regs := (k.toNap now c).regs, aon := { k.aon with idleAt := sinsert k.aon.idleAt c now } } := rfl
theorem Pkg.pstate_toNap (now : Nat) {c : Nat} {k : Pkg} (h : k.phys c < 192) : (k.toNap now c).pstate c = 2 := by
  rw [Pkg.toNap, Pkg.pstate_setDomain _ (by omega), Pkg.pstate_setPstate _ _ (by decide)]
theorem Pkg.domainOn_toNap (now : Nat) {c : Nat} (k : Pkg) : (k.toNap now c).domainOn (k.phys c) = false ∧
    ∀ d, d < 412 → d ≠ k.phys c → (k.toNap now c).domainOn d = k.domainOn d := by
  refine ⟨Pkg.domainOn_setDomain_same .., fun d hd hne => ?_⟩
  rw [Pkg.toNap, Pkg.domainOn_setDomain_ne _ _ hne, Pkg.domainOn_setPstate _ _ hd]
  exact Pkg.domainOn_setPstate _ _ hd k

/-! ### Doze -/

section
variable {p : PkgId} {c : Nat} {m : Mem} {k : Pkg}

theorem toDoze_saves (h : k.saves = true) : toDoze p c m k = saveStore p c m ((k.setPstate c 3).setDomains false [k.phys c, 192 + k.phys c]) := if_pos h
theorem toDoze_loses (h : k.saves = false) :
    toDoze p c m k = loseStores p (fun x => x == c) m ((k.setPstate c 3).setDomains false [k.phys c, 192 + k.phys c]) := by
  unfold toDoze
  dsimp only
  rw [h] <;> rfl

/-- Entering Doze leaves everything but registers, memory and the list of saved stores. -/
theorem dozing_pstate (hp : k.phys c < 192) : ((k.setPstate c 3).setDomains false [k.phys c, 192 + k.phys c]).pstate c = 3 := by
  change (((k.setPstate c 3).setDomain false (k.phys c)).setDomain false (192 + k.phys c)).pstate c = 3
  rw [Pkg.pstate_setDomain _ (by omega), Pkg.pstate_setDomain _ (by omega), Pkg.pstate_setPstate _ _ (by decide)]
theorem dozing_domainOn {d : Nat} (hd : d = k.phys c ∨ d = 192 + k.phys c) :
    ((k.setPstate c 3).setDomains false [k.phys c, 192 + k.phys c]).domainOn d = false := by
  rw [Pkg.domainOn_setDomains, if_pos]
  simpa using hd

/-- A core store and the save area lie in different spaces. -/
theorem coreSave_lt (hc : c < 192) {o : Nat} (ho : o < storeBytes) : coreSave c + o < 2 ^ 64 := by
  unfold coreSave hbmBytes saveArea storeBytes at *
  omega
theorem memKey_save_lt (hc : c < 192) {o : Nat} (ho : o < storeBytes) : memKey p 0 (coreSave c + o) < memKey p 2 0 := by
  have := coreSave_lt hc ho
  unfold memKey
  omega

/-- A saved store's bytes lie in its save area (R73). -/
theorem sfind_saveStore (hc : c < 192) (h : Memory.wf m = true) {o : Nat} (ho : o < storeBytes) :
    sfind (saveStore p c m k).1 (memKey p 0 (coreSave c + o)) = sfind m (memKey p 2 (storeOff c o)) := by
  have hlt := memKey_save_lt (p := p) hc ho
  have hdst : memKey p 0 (coreSave c + o) = memKey p 0 (coreSave c) + o := by unfold memKey; omega
  have hsrc : memKey p 2 (storeOff c o) = memKey p 2 (storeOff c 0) + o := by unfold memKey storeOff; omega
  have hge : memKey p 2 0 ≤ memKey p 2 (storeOff c 0) := by unfold memKey; omega
  rw [saveStore, sfind_memErase, if_neg (by omega), hdst, sfind_memCopy h ho, hsrc]
/-- A reloaded store holds the bytes of its save area (R73). -/
theorem sfind_reloaded (h : Memory.wf m = true) {o : Nat} (ho : o < storeBytes) :
    sfind (memCopy m (memKey p 0 (coreSave c)) (memKey p 2 (storeOff c 0)) storeBytes) (memKey p 2 (storeOff c o)) =
      sfind m (memKey p 0 (coreSave c + o)) := by
  have hdst : memKey p 0 (coreSave c + o) = memKey p 0 (coreSave c) + o := by unfold memKey; omega
  have hsrc : memKey p 2 (storeOff c o) = memKey p 2 (storeOff c 0) + o := by unfold memKey storeOff; omega
  rw [hdst, hsrc, sfind_memCopy h ho]
end

/-- The status of a segment that is lost reads LOST. -/
theorem foldl_put_six (c n : Nat) : ∀ (l : List (Nat × Storage)) (k : Pkg), ((∃ e ∈ l, e.1 / 64 = c ∧ e.1 % 64 = n) ∨ k.segStatus c n = 6) →
    (l.foldl (fun k e => k.put (F.CORE_SEG_CTRL_STATUS (e.1 / 64) (e.1 % 64)) 6) k).segStatus c n = 6
  | [], k, h => by simpa using h
  | e :: l, k, h => by
    rw [List.foldl_cons]
    refine foldl_put_six c n l _ ?_
    by_cases ho : (F.CORE_SEG_CTRL_STATUS c n).off = (F.CORE_SEG_CTRL_STATUS (e.1 / 64) (e.1 % 64)).off
    · have hf : F.CORE_SEG_CTRL_STATUS c n = F.CORE_SEG_CTRL_STATUS (e.1 / 64) (e.1 % 64) := congrArg (fun x : Nat => (⟨x, _, _⟩ : Fld)) ho
      refine .inr ?_
      rw [Pkg.segStatus, hf, Pkg.get_put_same _ _ _ (Nat.le_of_ble_eq_true rfl)]
      rfl
    · rcases h with ⟨e', he', hc, hn⟩ | h
      · rcases List.mem_cons.1 he' with rfl | he'
        · rw [hc, hn] at ho
          exact absurd rfl ho
        · exact .inl ⟨e', he', hc, hn⟩
      · exact .inr ((Pkg.get_put_reg_ne _ _ _ _ ho).trans h)

theorem foldl_put_frame (l : List (Nat × Storage)) (k : Pkg) : OnlyRegs k (l.foldl (fun k e => k.put (F.CORE_SEG_CTRL_STATUS (e.1 / 64) (e.1 % 64)) 6) k) :=
  .foldl (fun k _ => .put ..) l k

theorem Pkg.loseSegs_status (f : Nat → Storage → Bool) (k : Pkg) {e : Nat × Storage} (he : e ∈ k.mem.segs) (hf : f e.1 e.2 = true) :
    (k.loseSegs f).segStatus (e.1 / 64) (e.1 % 64) = 6 :=
  foldl_put_six _ _ _ k (.inl ⟨e, List.mem_filter.2 ⟨he, hf⟩, rfl, rfl⟩)
theorem Pkg.loseSegs_segs (f : Nat → Storage → Bool) (k : Pkg) : (k.loseSegs f).mem.segs = k.mem.segs.filter (fun e => !f e.1 e.2) := by
  unfold Pkg.loseSegs
  dsimp only
  rw [foldl_put_frame]
theorem CORE_PSTATE_ne_SEG (c i n : Nat) (hn : n < 64) : R.CORE_PSTATE c ≠ R.CORE_SEG_CTRL i n := by
  unfold R.CORE_PSTATE R.CORE_SEG_CTRL
  omega
theorem foldl_put_pstate (c : Nat) : ∀ (l : List (Nat × Storage)) (k : Pkg),
    (l.foldl (fun k e => k.put (F.CORE_SEG_CTRL_STATUS (e.1 / 64) (e.1 % 64)) 6) k).pstate c = k.pstate c
  | [], _ => rfl
  | _ :: l, _ => (foldl_put_pstate c l _).trans (Pkg.get_put_reg_ne _ _ _ _ (CORE_PSTATE_ne_SEG c _ _ (Nat.mod_lt _ (by decide))))
theorem Pkg.loseSegs_pstate (f : Nat → Storage → Bool) (k : Pkg) (c : Nat) : (k.loseSegs f).pstate c = k.pstate c := foldl_put_pstate c _ k

end Sys2Proof.Machine
end

section
/-! PROOF. The sleep commands and the writes of CORE_PSTATE (R72, R73). -/
namespace Sys2Proof.Machine
open Sys2Proof

/-- A field that no write changes keeps its value (R13). -/
theorem Pkg.get_storeFields_ro {d : RegDesc} {off lo n : Nat} {f : Fld} (hf : f = ⟨off, lo, n⟩) (hl : lo + n ≤ 32)
    (hd : ∀ i, i < n → d.rw.testBit (lo + i) = false ∧ d.w1c.testBit (lo + i) = false) (w : Word) (k : Pkg) :
    (k.storeFields d off w).get f = k.get f := by
  subst hf
  rw [Pkg.get, Pkg.get]
  refine Nat.eq_of_testBit_eq fun i => ?_
  rw [testBit_bits, testBit_bits]
  by_cases hi : i < n
  · obtain ⟨hr, hc⟩ := hd i hi
    have hlt : lo + i < 32 := by omega
    have hb : ((k.storeFields d off w).rg off).getLsbD (lo + i) = (k.rg off).getLsbD (lo + i) := by
      have hr' : (BitVec.ofNat 32 d.rw).getLsbD (lo + i) = false := by rw [BitVec.getLsbD_ofNat, hr, Bool.and_false]
      have hc' : (BitVec.ofNat 32 d.w1c).getLsbD (lo + i) = false := by rw [BitVec.getLsbD_ofNat, hc, Bool.and_false]
      rw [Pkg.storeFields_rg]
      simp only [BitVec.getLsbD_and, BitVec.getLsbD_or, BitVec.getLsbD_not, hr', hc', hlt]
      simp
    rw [BitVec.getLsbD, BitVec.getLsbD] at hb
    rw [hb]
  · simp [hi]

/-! ### The commands -/

section
variable {s : State} {p : PkgId} {c : Core}

theorem exec_idleEntry (hd : (s.pkg p).coreDark c.val = false) (hp : (s.pkg p).pstate c.val = 0) :
    exec (.idleEntry p c) s = .next (s.setPkg p ((s.pkg p).toIdle s.now c.val)) := by
  change execIdleEntry p c s = _
  unfold execIdleEntry onPkg
  dsimp only
  rw [if_neg (by rw [hd, hp]; simp)]
theorem exec_idleEntry_other (hp : (s.pkg p).pstate c.val ≠ 0) : exec (.idleEntry p c) s = .next (s.setPkg p (s.pkg p)) := by
  change execIdleEntry p c s = _
  unfold execIdleEntry onPkg
  dsimp only
  rw [if_pos (.inr hp)]

/-- The conditions of NAP_ENTRY (R72). -/
abbrev Pkg.mayNap (now c : Nat) (k : Pkg) : Prop :=
  k.maySleep c = true ∧ k.pstate c = 1 ∧ k.get F.AON_PDOM_POLICY_NAP_AFTER ≠ 0 ∧
    k.idleFor now c (1000 * k.get F.AON_PDOM_POLICY_NAP_AFTER) = true
theorem exec_napEntry (s : State) (p : PkgId) (c : Core) : exec (.napEntry p c) s = .next (s.setPkg p
    (if (s.pkg p).mayNap s.now c.val then (s.pkg p).toNap s.now c.val else s.pkg p)) := rfl

/-- The conditions of DOZE_ENTRY (R73). -/
abbrev Pkg.mayDoze (now c : Nat) (k : Pkg) : Prop :=
  k.maySleep c = true ∧ k.pstate c = 2 ∧ k.get F.AON_PDOM_POLICY_DOZE_AFTER ≠ 0 ∧
    k.idleFor now c (100000 * k.get F.AON_PDOM_POLICY_DOZE_AFTER) = true ∧ (!k.dozeBarred c) = true
theorem exec_dozeEntry (h : (s.pkg p).mayDoze s.now c.val) : exec (.dozeEntry p c) s =
    .next ({ s with mem := (toDoze p c.val s.mem (s.pkg p)).1 }.setPkg p (toDoze p c.val s.mem (s.pkg p)).2) := by
  change execDozeEntry p c s = _
  unfold execDozeEntry onPkgMem
  dsimp only
  rw [if_pos h]
theorem exec_dozeEntry_not (h : ¬ (s.pkg p).mayDoze s.now c.val) : exec (.dozeEntry p c) s = .next (s.setPkg p (s.pkg p)) := by
  change execDozeEntry p c s = _
  unfold execDozeEntry onPkgMem
  dsimp only
  rw [if_neg h]
end

/-! ### Writes of CORE_PSTATE -/

/-- The line of the register map that describes CORE_PSTATE. -/
def pstateDesc : RegDesc := ⟨"CORE_PSTATE", 0x400100, 192, 0x1000, 1, 0x0, 0x0, 0x10, 0x0, 0x0, 0x300, 0, 1⟩

theorem CORE_PSTATE_bounds (c : Core) : R.CORE_PSTATE c.val < 2 ^ 24 ∧ R.CORE_PSTATE c.val % 4 = 0 ∧ (R.CORE_PSTATE c.val - 0x400100) / 0x1000 = c.val := by
  have := c.isLt
  unfold R.CORE_PSTATE
  omega

theorem busWrite_CORE_PSTATE (x : Bus) (c : Core) (w : Word) (m : Mem) (k : Pkg) :
    busWrite x pstateDesc (R.CORE_PSTATE c.val) w m k =
      enterState x.now x.p c.val (bits w.toNat 8 2) m (k.storeFields pstateDesc (R.CORE_PSTATE c.val) w) := by
  have hi : k.ignores x pstateDesc (R.CORE_PSTATE c.val) w.toNat = false := rfl
  have hr : k.rejects pstateDesc.base w.toNat = false := rfl
  obtain ⟨-, -, hrow⟩ := CORE_PSTATE_bounds c
  have hrow : regRow pstateDesc (R.CORE_PSTATE c.val) = c.val := by
    simp [regRow, pstateDesc, hrow]
  unfold busWrite busAct
  dsimp only
  rw [hi, hr, hrow]
  rfl

/-- What a write of CORE_PSTATE with some HOLD_AWAKE stores. -/
abbrev Pkg.held (k : Pkg) (c : Core) (w : Word) : Pkg := k.storeFields pstateDesc (R.CORE_PSTATE c.val) w

section
variable (k : Pkg) (c : Core) (w : Word)

theorem Pkg.held_onlyRegs : OnlyRegs k (k.held c w) := rfl
theorem Pkg.pstate_held : (k.held c w).pstate c.val = k.pstate c.val := Pkg.get_storeFields_ro (n := 3) (by rfl) (by decide) (by decide) w k
theorem Pkg.holdAwake_held : (k.held c w).holdAwake c.val = decide (bits w.toNat 4 1 = 1) :=
  congrArg (fun n : Nat => decide (n = 1)) (Pkg.get_storeFields_rw (n := 1) (by rfl) (by decide) (by decide) w k)
theorem CORE_PSTATE_ge : 0x400100 ≤ R.CORE_PSTATE c.val := by unfold R.CORE_PSTATE; omega
theorem Pkg.get_held {f : Fld} (h : f.off < 0x400000) : (k.held c w).get f = k.get f := by
  have := CORE_PSTATE_ge c
  exact Pkg.get_of_rg (Pkg.storeFields_rg_ne _ _ _ (by omega))
end

section
variable {s : State} {p : PkgId} {who : Requester} {c : Core} (ho : Open s p who (R.CORE_PSTATE c.val))
include ho

/-- A command that writes CORE_PSTATE with some ENTER. -/
theorem exec_CORE_PSTATE {i : Instr} {w : Word} {m : Mem} {j : Pkg} (hi : busOpOf i = some (p, writeOp who (R.CORE_PSTATE c.val) w))
    (hx : exec i s = busAccess i s) (hj : enterState s.now p c.val (bits w.toNat 8 2) s.mem ((s.pkg p).held c w) = (m, j)) (hdark : j.dark = (s.pkg p).dark) :
    exec i s = .next (s.wrote p who (R.CORE_PSTATE c.val) m j) := by
  obtain ⟨hlt, h4, -⟩ := CORE_PSTATE_bounds c
  rw [hx]
  exact busAccess_writes (d := pstateDesc) hi ho (findReg_CORE_PSTATE c) hlt h4 ((busWrite_CORE_PSTATE ..).trans hj)
    (by rw [Pkg.pkgDark, hdark]; rfl)
end

/-! ### ENTER -/

theorem enterState_nap (now : Nat) (p : PkgId) (c : Nat) (m : Mem) (k : Pkg) :
    enterState now p c 1 m k = (m, if k.maySleep c ∧ k.pstate c < 2 then k.toNap now c else k) := rfl
theorem enterState_doze (now : Nat) (p : PkgId) (c : Nat) (m : Mem) (k : Pkg) :
    enterState now p c 2 m k = if k.maySleep c ∧ k.pstate c < 3 ∧ !k.dozeBarred c then toDoze p c m k else (m, k) := rfl
theorem enterState_wake (now : Nat) (p : PkgId) (c : Nat) (m : Mem) (k : Pkg) :
    enterState now p c 3 m k =
      (m, if k.coreDark c then k else if k.pstate c = 1 then k.issues c else (if k.moored then k.wakeInfra else k).wakeCore c) := rfl

end Sys2Proof.Machine
end

section
/-! PROOF. The sleep and wake of cores (R72–R74): the obligation. -/
namespace Sys2Proof.Machine
open Sys2Proof

/-! ### What a write of CORE_PSTATE leaves of the conditions of sleep -/

theorem Pkg.phys_congr {j k : Pkg} (ht : j.thr.rotas = k.thr.rotas) (hr : ∀ i, j.get (F.THR_ROTA_SHIFT i) = k.get (F.THR_ROTA_SHIFT i)) (c : Nat) :
    j.phys c = k.phys c := by
  unfold Pkg.phys
  simp only [ht, hr]
theorem Pkg.coreDark_congr {j k : Pkg} (hd : j.dark = k.dark) (c : Nat) (hp : j.phys c = k.phys c) : j.coreDark c = k.coreDark c := by
  rw [Pkg.coreDark, hd, hp, Pkg.coreDark]
theorem Pkg.csuScan_congr {j k : Pkg} (h : ∀ o, 0x60000 ≤ o → o < 0x400000 → j.rg o = k.rg o) {u : Nat} (hu : u < 10) : j.csuScan u = k.csuScan u := by
  have hg (f : Fld) (hl : 0x60000 ≤ f.off) (hf : f.off < 0x400000) : j.get f = k.get f := Pkg.get_of_rg (h _ hl hf)
  have hw (o : Nat) (hl : 0x60000 ≤ o) (ho : o + 4 < 0x400000) : j.wide o = k.wide o := by
    rw [Pkg.wide, h _ hl (by omega), h _ (by omega) ho, Pkg.wide]
  have hb : j.csuBusy u = k.csuBusy u := by
    rw [Pkg.csuBusy, hg _ (by simp [F.CSU_STATUS_STATE, R.CSU_STATUS]; omega) (by simp [F.CSU_STATUS_STATE, R.CSU_STATUS]; omega), Pkg.csuBusy]
  have hc : 0x60000 ≤ R.CSU_CTRL u ∧ R.CSU_CTRL u < 0x400000 := by unfold R.CSU_CTRL; omega
  have ha : 0x60000 ≤ R.CSU_ADDR_LO u ∧ R.CSU_ADDR_LO u + 4 < 0x400000 := by unfold R.CSU_ADDR_LO; omega
  have hl : 0x60000 ≤ R.CSU_LEN_LO u ∧ R.CSU_LEN_LO u + 4 < 0x400000 := by unfold R.CSU_LEN_LO; omega
  unfold Pkg.csuScan
  rw [hb, hg (F.CSU_CTRL_MODE u) hc.1 hc.2, hg (F.CSU_CTRL_SPACE u) hc.1 hc.2, hg (F.CSU_CTRL_CORE u) hc.1 hc.2, hw _ ha.1 ha.2, hw _ hl.1 hl.2]
theorem Pkg.scans_congr {j k : Pkg} (h : ∀ o, 0x60000 ≤ o → o < 0x400000 → j.rg o = k.rg o) (f : Scanning → Bool) : j.scans f = k.scans f := by
  refine List.any_congr_left_ fun u hu => ?_
  rw [Pkg.csuScan_congr h (List.mem_range.1 hu)]
where
  List.any_congr_left_ {α : Type} {l : List α} {f g : α → Bool} (h : ∀ a ∈ l, f a = g a) : l.any f = l.any g := by
    induction l with
    | nil => rfl
    | cons a l ih => simp_all

section
variable (k : Pkg) (c : Core) (w : Word)

theorem Pkg.held_rg {o : Nat} (h : o < 0x400000) : (k.held c w).rg o = k.rg o := by
  have := CORE_PSTATE_ge c
  exact Pkg.storeFields_rg_ne _ _ _ (by omega)
/-- The place of a slot is not among what a write of CORE_PSTATE stores. -/
theorem Pkg.phys_held (n : Nat) : (k.held c w).phys n = k.phys n := by
  refine Pkg.phys_congr (j := k.held c w) (k := k) rfl (fun i => ?_) n
  by_cases h : (F.THR_ROTA_SHIFT i).off = R.CORE_PSTATE c.val
  · exact Pkg.get_storeFields_ro (lo := 8) (n := 8) (congrArg (fun o : Nat => (⟨o, 8, 8⟩ : Fld)) h) (by decide) (by decide) w k
  · exact Pkg.get_of_rg (Pkg.storeFields_rg_ne _ _ _ h)
theorem Pkg.coreDark_held (n : Nat) : (k.held c w).coreDark n = k.coreDark n := Pkg.coreDark_congr (j := k.held c w) (k := k) rfl n (k.phys_held c w n)
theorem Pkg.coreHalted_held (n : Nat) : (k.held c w).coreHalted n = k.coreHalted n := by
  have h : (F.CORE_DBG_STATUS_HALTED n).off ≠ R.CORE_PSTATE c.val := by
    have := c.isLt
    simp only [F.CORE_DBG_STATUS_HALTED, R.CORE_DBG_STATUS, R.CORE_PSTATE]
    omega
  rw [Pkg.coreHalted, Pkg.get_of_rg (Pkg.storeFields_rg_ne _ _ _ h), Pkg.coreHalted]
theorem Pkg.saves_held : (k.held c w).saves = k.saves := by
  rw [Pkg.saves, Pkg.get_held _ _ _ (by decide), Pkg.saves]
/-- A write without HOLD_AWAKE lets a core sleep as before. -/
theorem Pkg.maySleep_held (h : bits w.toNat 4 1 = 0) (hk : k.maySleep c.val = true) : (k.held c w).maySleep c.val = true := by
  unfold Pkg.maySleep at hk ⊢
  rw [Pkg.coreDark_held, Pkg.coreHalted_held, Pkg.holdAwake_held, h]
  simp only [Bool.and_eq_true] at hk ⊢
  exact ⟨⟨⟨hk.1.1.1, rfl⟩, hk.1.2⟩, hk.2⟩
/-- A write with HOLD_AWAKE keeps the core awake. -/
theorem Pkg.maySleep_held_awake (h : bits w.toNat 4 1 = 1) : (k.held c w).maySleep c.val = false := by
  unfold Pkg.maySleep
  rw [Pkg.holdAwake_held, h]
  simp
theorem Pkg.dozeBarred_held : (k.held c w).dozeBarred c.val = k.dozeBarred c.val := by
  unfold Pkg.dozeBarred
  rw [Pkg.scans_congr fun o _ h => k.held_rg c w h]
  rfl
end

/-! ### The wake of a core -/

theorem Pkg.pstate_put {f : Fld} (h : f.off < 0x400000) (v c : Nat) (k : Pkg) : (k.put f v).pstate c = k.pstate c := by
  refine Pkg.get_of_rg (Pkg.rg_put_ne _ _ _ ?_)
  simp only [F.CORE_PSTATE_STATE, R.CORE_PSTATE]
  omega
theorem Pkg.pstate_setDomains (b : Bool) (c : Nat) : ∀ (ds : List Nat) (k : Pkg), (∀ d ∈ ds, d < 412) → (k.setDomains b ds).pstate c = k.pstate c
  | [], _, _ => rfl
  | d :: ds, k, h => by
    obtain ⟨hd, hds⟩ := List.forall_mem_cons.1 h
    exact (Pkg.pstate_setDomains b c ds _ hds).trans (Pkg.pstate_setDomain b hd c k)
theorem Pkg.pstate_power {ds : List Nat} (h : ∀ d ∈ ds, d < 412) (c : Nat) (k : Pkg) : (k.power ds).pstate c = k.pstate c := by
  unfold Pkg.power
  dsimp only
  split
  · rw [Pkg.pstate_put (by decide), Pkg.clearBits, Pkg.pstate_put (by decide), Pkg.pstate_setDomains _ _ _ _ h]
  · rw [Pkg.clearBits, Pkg.pstate_put (by decide), Pkg.pstate_setDomains _ _ _ _ h]
theorem Pkg.pstate_leaveMoor (v c : Nat) (k : Pkg) : (k.leaveMoor v).pstate c = k.pstate c := by
  unfold Pkg.leaveMoor
  split_ifs
  · exact Pkg.pstate_put (by decide) _ _ _
  · exact Pkg.pstate_put (by decide) _ _ _
  · rfl
theorem infraDomains_lt : ∀ d ∈ infraDomains, d < 412 := by decide
theorem Pkg.pstate_wakeInfra (c : Nat) (k : Pkg) : k.wakeInfra.pstate c = k.pstate c := by
  rw [Pkg.wakeInfra, Pkg.pstate_leaveMoor, Pkg.pstate_power infraDomains_lt]
theorem Pkg.wakeInfra_onlyRegs (k : Pkg) : OnlyRegs k k.wakeInfra := (k.power_onlyRegs _).trans (Pkg.leaveMoor_onlyRegs ..)

/-- Everything but registers and the always-on domain's state is left. -/
def AonOnly (j k : Pkg) : Prop := k = { j with regs := k.regs, aon := k.aon }

theorem AonOnly.refl (k : Pkg) : AonOnly k k := rfl
theorem AonOnly.trans {j k l : Pkg} (h : AonOnly j k) (h' : AonOnly k l) : AonOnly j l := Eq.trans h' (by rw [h])
theorem AonOnly.of_onlyRegs {j k : Pkg} (h : OnlyRegs j k) : AonOnly j k := by rw [h]; rfl
theorem AonOnly.setAon (f : AonSt → AonSt) (k : Pkg) : AonOnly k (k.setAon f) := rfl
theorem AonOnly.ite {c : Prop} [Decidable c] {j k l : Pkg} (h : AonOnly j k) (h' : AonOnly j l) : AonOnly j (if c then k else l) := by
  split
  · exact h
  · exact h'
theorem AonOnly.foldl {β : Type} {f : Pkg → β → Pkg} (hf : ∀ k b, AonOnly k (f k b)) : ∀ (l : List β) (k : Pkg), AonOnly k (l.foldl f k)
  | [], k => .refl k
  | b :: l, k => (hf k b).trans (AonOnly.foldl hf l _)
section
variable {j k : Pkg} (h : AonOnly j k)
include h
theorem AonOnly.mem : k.mem = j.mem := by rw [h]
theorem AonOnly.dark : k.dark = j.dark := by rw [h]
theorem AonOnly.out : k.out = j.out := by rw [h]
theorem AonOnly.ret : k.ret = j.ret := by rw [h]
theorem AonOnly.rt : k.rt = j.rt := by rw [h]
theorem AonOnly.fab : k.fab = j.fab := by rw [h]
theorem AonOnly.tally : k.tally = j.tally := by rw [h]
theorem AonOnly.dbg : k.dbg = j.dbg := by rw [h]
theorem AonOnly.thr : k.thr = j.thr := by rw [h]
end

theorem Pkg.wakeCore_aonOnly (c : Nat) (k : Pkg) : AonOnly k (k.wakeCore c) :=
  .ite (.refl k) (.trans (.of_onlyRegs (((k.power_onlyRegs _).trans (.put ..)).trans (Pkg.leaveMoor_onlyRegs ..))) (.setAon ..))

/-- A sleeping core that is not waking starts to wake. -/
theorem Pkg.wakeCore_starts {c : Nat} {k : Pkg} (hp : 2 ≤ k.pstate c) (hw : k.aon.waking.contains c = false) :
    k.wakeCore c = (((k.power (coreDomains (k.phys c))).put F.AON_PKG_STATE_S_FURLED 0).leaveMoor 3).setAon fun a => { a with waking := a.waking ++ [c] } := by
  unfold Pkg.wakeCore
  rw [if_neg (by simp only [hw, Bool.or_false, decide_eq_true_eq]; omega)]
theorem Pkg.wakeCore_waking {c : Nat} {k : Pkg} (hp : 2 ≤ k.pstate c) (hw : k.aon.waking.contains c = false) :
    (k.wakeCore c).aon.waking = k.aon.waking ++ [c] := by
  rw [Pkg.wakeCore_starts hp hw, Pkg.setAon, (Pkg.leaveMoor_onlyRegs ..).aon]
  change (k.power _).aon.waking ++ [c] = _
  rw [(Pkg.power_onlyRegs ..).aon]
theorem Pkg.pstate_wakeCore {c : Nat} {k : Pkg} (h : k.phys c < 192) (n : Nat) : (k.wakeCore c).pstate n = k.pstate n := by
  unfold Pkg.wakeCore
  split
  · rfl
  · have hds : ∀ d ∈ coreDomains (k.phys c), d < 412 := by
      intro d hd
      simp only [coreDomains, List.mem_cons, List.not_mem_nil, or_false] at hd
      omega
    exact (Pkg.pstate_leaveMoor ..).trans ((Pkg.pstate_put (by decide) _ _ _).trans (Pkg.pstate_power hds n k))

theorem Pkg.issues_idle {c : Nat} {k : Pkg} (hc : c < 192) (h : k.pstate c = 1) :
    k.issues c = (k.setPstate c 0).setAon fun a => { a with idleAt := serase a.idleAt c } := if_pos ⟨hc, h⟩

/-! ### WAKE_COMPLETE -/

/-- A core that has woken: its store reloaded, its state Run. -/
def Pkg.woken (c : Nat) (k : Pkg) : Pkg :=
  ((k.setPstate c 0).setAon fun a => { a with waking := a.waking.erase c, idleAt := serase a.idleAt c }).awake

theorem Pkg.awake_onlyRegs (k : Pkg) : OnlyRegs k k.awake := .ite (.put ..) (.refl k)
theorem Pkg.pstate_awake (c : Nat) (k : Pkg) : k.awake.pstate c = k.pstate c := by
  unfold Pkg.awake
  split
  · exact Pkg.pstate_put (by decide) _ _ _
  · rfl
theorem Pkg.woken_aonOnly (c : Nat) (k : Pkg) : AonOnly k (k.woken c) :=
  .trans (.trans (.of_onlyRegs (.put ..)) (.setAon ..)) (.of_onlyRegs (Pkg.awake_onlyRegs _))
theorem Pkg.woken_waking (c : Nat) (k : Pkg) : (k.woken c).aon.waking = k.aon.waking.erase c := by
  rw [Pkg.woken, (Pkg.awake_onlyRegs _).aon]
  rfl
theorem Pkg.pstate_woken (c : Nat) (k : Pkg) : (k.woken c).pstate c = 0 := by
  rw [Pkg.woken, Pkg.pstate_awake]
  exact Pkg.pstate_setPstate c 0 (by decide) k

theorem reloadStore_unsaved {p : PkgId} {c : Nat} {m : Mem} {k : Pkg} (h : c ∉ k.aon.saved) : reloadStore p c m k = (m, k) :=
  if_neg (by simpa using h)
theorem reloadStore_saved {p : PkgId} {c : Nat} {m : Mem} {k : Pkg} (h : c ∈ k.aon.saved) : reloadStore p c m k =
    (memCopy m (memKey p 0 (coreSave c)) (memKey p 2 (storeOff c 0)) storeBytes,
      k.setAon fun a => { a with saved := a.saved.filter (· ≠ c) }) := if_pos (by simpa using h)
theorem reloadStore_aonOnly (p : PkgId) (c : Nat) (m : Mem) (k : Pkg) : AonOnly k (reloadStore p c m k).2 ∧
    (reloadStore p c m k).2.aon.waking = k.aon.waking := by
  unfold reloadStore
  split <;> exact ⟨rfl, rfl⟩

theorem exec_wakeComplete {s : State} {p : PkgId} {c : Core} (hw : (s.pkg p).aon.waking.contains c.val = true)
    (hh : (s.pkg p).dbg.wantHalt.contains c.val = false) (hq : (s.pkg p).Quiet) :
    exec (.wakeComplete p c) s = .next ({ s with mem := (reloadStore p c.val s.mem (s.pkg p)).1 }.setPkg p
      ((reloadStore p c.val s.mem (s.pkg p)).2.woken c.val)) := by
  have hf : AonOnly (s.pkg p) ((reloadStore p c.val s.mem (s.pkg p)).2.woken c.val) := (reloadStore_aonOnly ..).1.trans (Pkg.woken_aonOnly ..)
  have hhalt : ((reloadStore p c.val s.mem (s.pkg p)).2.woken c.val).haltIfWanted s.now c.val = (reloadStore p c.val s.mem (s.pkg p)).2.woken c.val := by
    unfold Pkg.haltIfWanted
    rw [hf.dbg, hh]
    rfl
  have hgo := goOn_of_quiet (hq.of_eq (congrArg _ hf.mem) (congrArg _ hf.mem) hf.fab hf.tally) s.now p (reloadStore p c.val s.mem (s.pkg p)).1
  change execWakeComplete p c s = _
  unfold execWakeComplete onPkgMem
  dsimp only
  rw [if_pos hw]
  unfold Pkg.woken at hhalt hgo ⊢
  rw [hhalt, hgo]

/-! ### The writes of ENTER -/

/-- A state that differs from a package with its registers replaced differs so from the package. -/
theorem aon_frame {k k1 j : Pkg} {f : AonSt → AonSt} (h : OnlyRegs k k1) (h1 : j = { k1 with regs := j.regs, aon := f k1.aon }) :
    j = { k with regs := j.regs, aon := f k.aon } := by
  obtain ⟨r, rfl⟩ : ∃ r, k1 = { k with regs := r } := ⟨_, h⟩
  exact h1

/-- The word that asks for ENTER with some HOLD_AWAKE. -/
def enterWord (e : Nat) (hold : Bool) : Word := BitVec.ofNat 32 (0x100 * e + 16 * hold.toNat)
theorem enterWord_enter : ∀ (e : Fin 4) (hold : Bool), bits (enterWord e.val hold).toNat 8 2 = e.val := by decide
theorem enterWord_hold : ∀ (e : Fin 4) (hold : Bool), bits (enterWord e.val hold).toNat 4 1 = hold.toNat := by decide

section
variable {s : State} {p : PkgId} {who : Requester} {c : Core} {hold : Bool} {m : Mem} {j : Pkg} (ho : Open s p who (R.CORE_PSTATE c.val))
include ho

theorem exec_enterNap (hj : enterState s.now p c.val 1 s.mem ((s.pkg p).held c (enterWord 1 hold)) = (m, j)) (hdark : j.dark = (s.pkg p).dark) :
    exec (.enterNap p who c hold) s = .next (s.wrote p who (R.CORE_PSTATE c.val) m j) :=
  exec_CORE_PSTATE (w := enterWord 1 hold) ho rfl rfl (by rw [show bits (enterWord 1 hold).toNat 8 2 = 1 from enterWord_enter 1 hold]; exact hj) hdark
theorem exec_enterDoze (hj : enterState s.now p c.val 2 s.mem ((s.pkg p).held c (enterWord 2 hold)) = (m, j)) (hdark : j.dark = (s.pkg p).dark) :
    exec (.enterDoze p who c hold) s = .next (s.wrote p who (R.CORE_PSTATE c.val) m j) :=
  exec_CORE_PSTATE (w := enterWord 2 hold) ho rfl rfl (by rw [show bits (enterWord 2 hold).toNat 8 2 = 2 from enterWord_enter 2 hold]; exact hj) hdark
theorem exec_wakeToRun (hj : enterState s.now p c.val 3 s.mem ((s.pkg p).held c (enterWord 3 hold)) = (m, j)) (hdark : j.dark = (s.pkg p).dark) :
    exec (.wakeToRun p who c hold) s = .next (s.wrote p who (R.CORE_PSTATE c.val) m j) :=
  exec_CORE_PSTATE (w := enterWord 3 hold) ho rfl rfl (by rw [show bits (enterWord 3 hold).toNat 8 2 = 3 from enterWord_enter 3 hold]; exact hj) hdark
end

section
variable {now : Nat} {p : PkgId} {c : Core} {m : Mem} {k k1 : Pkg} (hr : OnlyRegs k k1)

/-- ENTER 1 for a core that may sleep. -/
theorem enterState_nap_sleeps (hm : k1.maySleep c.val = true) (hp : k1.pstate c.val < 2) : enterState now p c.val 1 m k1 = (m, k1.toNap now c.val) := by
  rw [enterState_nap, if_pos ⟨hm, hp⟩]
theorem enterState_nap_awake (hm : k1.maySleep c.val = false) : enterState now p c.val 1 m k1 = (m, k1) := by
  rw [enterState_nap, if_neg (by rw [hm]; simp)]
/-- ENTER 2 for a core that may sleep, its store to be saved. -/
theorem enterState_doze_saves (hm : k1.maySleep c.val = true) (hp : k1.pstate c.val < 3) (hb : k1.dozeBarred c.val = false) (hs : k1.saves = true) :
    enterState now p c.val 2 m k1 = saveStore p c.val m ((k1.setPstate c.val 3).setDomains false [k1.phys c.val, 192 + k1.phys c.val]) := by
  rw [enterState_doze, if_pos ⟨hm, hp, by rw [hb]; rfl⟩, toDoze_saves hs]
theorem enterState_doze_awake (hm : k1.maySleep c.val = false) : enterState now p c.val 2 m k1 = (m, k1) := by
  rw [enterState_doze, if_neg (by rw [hm]; simp)]
/-- ENTER 3 for a core in Idle. -/
theorem enterState_wake_idle (hd : k1.coreDark c.val = false) (hp : k1.pstate c.val = 1) :
    enterState now p c.val 3 m k1 = (m, (k1.setPstate c.val 0).setAon fun a => { a with idleAt := serase a.idleAt c.val }) := by
  rw [enterState_wake, if_neg (by rw [hd]; exact Bool.false_ne_true), if_pos hp, Pkg.issues_idle c.isLt hp]
/-- ENTER 3 for a core in Nap or deeper. -/
theorem enterState_wake_asleep (hd : k1.coreDark c.val = false) (hp : 2 ≤ k1.pstate c.val) :
    enterState now p c.val 3 m k1 = (m, (if k1.moored then k1.wakeInfra else k1).wakeCore c.val) := by
  rw [enterState_wake, if_neg (by rw [hd]; exact Bool.false_ne_true), if_neg (by omega)]
end

theorem THR_ROTA_ge (i : Nat) : 0x50200 ≤ (F.THR_ROTA_SHIFT i).off := by simp only [F.THR_ROTA_SHIFT, R.THR_ROTA]; omega
theorem Pkg.shift_put {f : Fld} (h : f.off < 0x50200) (v i : Nat) (k : Pkg) : (k.put f v).get (F.THR_ROTA_SHIFT i) = k.get (F.THR_ROTA_SHIFT i) := by
  have := THR_ROTA_ge i
  exact Pkg.get_put_reg_ne _ _ _ _ (by omega)
theorem Pkg.shift_setDomains (b : Bool) (i : Nat) : ∀ (ds : List Nat) (k : Pkg), (∀ d ∈ ds, d < 412) →
    (k.setDomains b ds).get (F.THR_ROTA_SHIFT i) = k.get (F.THR_ROTA_SHIFT i)
  | [], _, _ => rfl
  | d :: ds, k, h => by
    obtain ⟨hd, hds⟩ := List.forall_mem_cons.1 h
    have := THR_ROTA_ge i
    exact (Pkg.shift_setDomains b i ds _ hds).trans (Pkg.get_of_rg (Pkg.rg_setRg_ne _ _ (by unfold R.AON_DOMAIN_ON; omega)))
theorem Pkg.shift_power {ds : List Nat} (h : ∀ d ∈ ds, d < 412) (i : Nat) (k : Pkg) :
    (k.power ds).get (F.THR_ROTA_SHIFT i) = k.get (F.THR_ROTA_SHIFT i) := by
  unfold Pkg.power
  dsimp only
  split
  · rw [Pkg.shift_put (by decide), Pkg.clearBits, Pkg.shift_put (by decide), Pkg.shift_setDomains _ _ _ _ h]
  · rw [Pkg.clearBits, Pkg.shift_put (by decide), Pkg.shift_setDomains _ _ _ _ h]
theorem Pkg.shift_leaveMoor (v i : Nat) (k : Pkg) : (k.leaveMoor v).get (F.THR_ROTA_SHIFT i) = k.get (F.THR_ROTA_SHIFT i) := by
  unfold Pkg.leaveMoor
  split_ifs
  · exact Pkg.shift_put (by decide) _ _ _
  · exact Pkg.shift_put (by decide) _ _ _
  · rfl
theorem Pkg.phys_wakeInfra (n : Nat) (k : Pkg) : k.wakeInfra.phys n = k.phys n :=
  Pkg.phys_congr (congrArg ThrSt.rotas (AonOnly.of_onlyRegs k.wakeInfra_onlyRegs).thr)
    (fun i => (Pkg.shift_leaveMoor 3 i _).trans (Pkg.shift_power infraDomains_lt i k)) n

/-- The infrastructure, where the package is moored, comes up before the core's own wake. -/
theorem Pkg.infraIfMoored (k : Pkg) (c : Nat) : OnlyRegs k (if k.moored then k.wakeInfra else k) ∧
    (if k.moored then k.wakeInfra else k).pstate c = k.pstate c ∧ (if k.moored then k.wakeInfra else k).phys c = k.phys c := by
  split
  · exact ⟨k.wakeInfra_onlyRegs, Pkg.pstate_wakeInfra c k, Pkg.phys_wakeInfra c k⟩
  · exact ⟨.refl k, rfl, rfl⟩

/-- Settles O14: the entries of sleep and the writes of ENTER by the conditions of `maySleep`, the store's copy by `sfind_memCopy`. -/
theorem sleepAndWake : Obligations.SleepAndWake := by
  unfold Obligations.SleepAndWake
  refine ⟨fun s p c => ?_, fun s p who c ho hphys => ?_⟩
  · intro k nap doze
    refine ⟨exec_idleEntry, exec_idleEntry_other, fun hm hp ha hi hphys => ?_, fun h => ?_, fun hm hp ha hi hb hphys => ?_, fun h => ?_⟩
    · rw [exec_napEntry, if_pos ⟨hm, hp, ha, hi⟩]
      exact ⟨_, rfl, Pkg.toNap_frame .., Pkg.pstate_toNap _ hphys, Pkg.domainOn_toNap _ k⟩
    · rw [exec_napEntry, if_neg]
      rintro ⟨hm, hp, ha, hi⟩
      rcases h with h | h | h | h
      · exact Bool.false_ne_true (h.symm.trans hm)
      · exact h hp
      · exact ha h
      · exact Bool.false_ne_true (h.symm.trans hi)
    · rw [exec_dozeEntry ⟨hm, hp, ha, hi, by rw [hb]; rfl⟩]
      refine ⟨fun hs => ?_, fun hs => ?_⟩
      · rw [toDoze_saves hs]
        exact ⟨_, _, rfl, dozing_pstate hphys, dozing_domainOn (.inl rfl), dozing_domainOn (.inr rfl), rfl, rfl,
          List.mem_append_right _ List.mem_cons_self, fun hwf o hlt => sfind_saveStore c.isLt hwf hlt⟩
      · rw [toDoze_loses hs]
        refine ⟨_, _, rfl, (Pkg.loseSegs_pstate ..).trans (dozing_pstate hphys), fun e he ht hc => ?_, fun e => ?_⟩
        · rw [← hc]
          exact Pkg.loseSegs_status _ _ he (by simp [ht, hc])
        · rw [loseStores, Pkg.loseSegs_segs, List.mem_filter]
          refine and_congr_right fun _ => ?_
          simp only [Bool.not_eq_true', Bool.and_eq_false_iff, decide_eq_false_iff_not, beq_eq_false_iff_ne, not_and_or]
    · rw [exec_dozeEntry_not]
      rintro ⟨hm, hp, ha, hi, hb⟩
      rcases h with h | h | h | h | h
      · rw [h] at hb; cases hb
      · exact Bool.false_ne_true (h.symm.trans hm)
      · exact h hp
      · exact ha h
      · exact Bool.false_ne_true (h.symm.trans hi)
  · intro k
    have hr (w : Word) : OnlyRegs k (k.held c w) := k.held_onlyRegs c w
    have hpw (w : Word) : (k.held c w).phys c.val < 192 := by rw [Pkg.phys_held]; exact hphys
    have hps (w : Word) : (k.held c w).pstate c.val = k.pstate c.val := k.pstate_held c w
    have hdk (w : Word) : (k.held c w).coreDark c.val = k.coreDark c.val := k.coreDark_held c w c.val
    refine ⟨fun hm hp => ?_, fun hm hp hb hs => ?_, ?_, ?_, fun hold hd hp => ?_, fun hold hd hp hwk => ?_, fun hwk hwh hq => ?_⟩
    · have hm' := k.maySleep_held c (enterWord 1 false) (enterWord_hold 1 false) hm
      exact ⟨_, exec_enterNap ho (enterState_nap_sleeps hm' ((hps _).trans_lt hp)) rfl, Pkg.pstate_toNap _ (hpw _), 
        aon_frame (f := fun a => { a with idleAt := sinsert a.idleAt c.val s.now }) (hr _) (Pkg.toNap_frame ..)⟩
    · have hm' := k.maySleep_held c (enterWord 2 false) (enterWord_hold 2 false) hm
      exact ⟨_, _, exec_enterDoze ho (enterState_doze_saves hm' ((hps _).trans_lt hp) ((k.dozeBarred_held c _).trans hb) ((k.saves_held c _).trans hs)) rfl,
        dozing_pstate (hpw _), rfl⟩
    · exact ⟨_, exec_enterNap ho (enterState_nap_awake (k.maySleep_held_awake c _ (enterWord_hold 1 true))) rfl, hr _,
        (k.holdAwake_held c _).trans (decide_eq_true (enterWord_hold 1 true)), hps _⟩
    · exact ⟨_, exec_enterDoze ho (enterState_doze_awake (k.maySleep_held_awake c _ (enterWord_hold 2 true))) rfl, hr _,
        (k.holdAwake_held c _).trans (decide_eq_true (enterWord_hold 2 true)), hps _⟩
    · exact ⟨_, exec_wakeToRun ho (enterState_wake_idle ((hdk _).trans hd) ((hps _).trans hp)) rfl, Pkg.pstate_setPstate _ _ (by decide) _,
        aon_frame (f := fun a => { a with idleAt := serase a.idleAt c.val }) (hr (enterWord 3 hold)) rfl⟩
    · obtain ⟨hr2, hps2, hph2⟩ := (k.held c (enterWord 3 hold)).infraIfMoored c.val
      have hwk2 := (congrArg AonSt.waking (hr2.aon.trans (hr (enterWord 3 hold)).aon))
      have hp2 : 2 ≤ (if (k.held c (enterWord 3 hold)).moored then (k.held c (enterWord 3 hold)).wakeInfra else k.held c (enterWord 3 hold)).pstate c.val :=
        hp.trans_eq (hps2.trans (hps _)).symm
      refine ⟨_, exec_wakeToRun ho (enterState_wake_asleep ((hdk _).trans hd) (hp.trans_eq (hps _).symm)) ?_, ?_, ?_⟩
      · exact ((AonOnly.of_onlyRegs ((hr _).trans hr2)).trans (Pkg.wakeCore_aonOnly ..)).dark
      · rw [Pkg.wakeCore_waking hp2 (by rw [hwk2]; exact hwk), hwk2]
      · exact (Pkg.pstate_wakeCore (hph2.trans_lt (hpw _)) _).trans (hps2.trans (hps _))
    · refine ⟨_, _, exec_wakeComplete hwk hwh hq, Pkg.pstate_woken .., ?_, ?_, fun hn => ?_, fun hs hwf o hlt => ?_⟩
      · rw [Pkg.woken_waking, (reloadStore_aonOnly ..).2]
      · exact ((reloadStore_aonOnly ..).1.trans (Pkg.woken_aonOnly ..)).mem
      · rw [reloadStore_unsaved hn]
      · rw [reloadStore_saved hs]
        exact sfind_reloaded hwf hlt

end Sys2Proof.Machine
end

section
/-! PROOF. Furling, mooring and the wake events (R75–R78, Table 3.4). -/
namespace Sys2Proof.Machine
open Sys2Proof

theorem Pkg.setDomains_onlyRegs (b : Bool) (ds : List Nat) (k : Pkg) : OnlyRegs k (k.setDomains b ds) := .foldl (fun k _ => .setRg k ..) _ _

/-! ### Furling -/

section
variable (s : State) (p : PkgId) (t : Tile)

/-- What lets FURL_ENTRY act (R75). -/
def Pkg.mayFurl (now t : Nat) (k : Pkg) : Prop :=
  k.get F.AON_PDOM_POLICY_FURL_AFTER ≠ 0 ∧ k.tileIdle t = true ∧
    k.heldFor now t (100000 * k.get F.AON_PDOM_POLICY_FURL_AFTER) = true ∧ k.furlBarred t = false

/-- A C-tile as it furls, before the S-tile is judged. -/
def Pkg.furled (t : Nat) (k : Pkg) : Pkg := (k.orBits F.AON_PKG_STATE_C_FURLED (2 ^ t)).setDomains false [384 + t, 388 + t]

variable {s p t}
theorem exec_furlEntry (h : (s.pkg p).mayFurl s.now t.val) (hc : (s.pkg p).cFurled t.val = false) :
    exec (.furlEntry p t) s = .next (s.setPkg p ((s.pkg p).furled t.val).furlStile) := by
  obtain ⟨ha, hi, hh, hb⟩ := h
  change execFurlEntry p t s = _
  unfold execFurlEntry onPkg
  dsimp only
  rw [if_neg (by rw [hi, hh, hb]; simpa using ha), if_neg (by rw [hc]; exact Bool.false_ne_true), Pkg.furled]
theorem exec_furlEntry_not (h : ¬ (s.pkg p).mayFurl s.now t.val) : exec (.furlEntry p t) s = .next (s.setPkg p (s.pkg p)) := by
  change execFurlEntry p t s = _
  unfold execFurlEntry onPkg
  dsimp only
  rw [if_pos]
  by_contra hn
  simp only [not_or, Bool.not_eq_true', Bool.not_eq_false, Bool.not_eq_true] at hn
  exact h ⟨hn.1, hn.2.1, hn.2.2.1, hn.2.2.2⟩
end

theorem Pkg.furlBarred_eq_false (k : Pkg) (t : Nat) : k.furlBarred t = false ↔
    (¬ ∃ x ∈ k.mem.clasps, k.phys x.store / 48 = t ∨ k.phys x.holder / 48 = t) ∧ k.csuBusy (6 + t) = false ∧
      ¬ ∃ u < 10, ∃ x, k.csuScan u = some x ∧ x.space = 5 ∧ k.phys x.core / 48 = t := by
  have hs : k.scans (fun x => decide (x.space = 5) && decide (k.phys x.core / 48 = t)) = true ↔
      ∃ u < 10, ∃ x, k.csuScan u = some x ∧ x.space = 5 ∧ k.phys x.core / 48 = t := by
    simp only [Pkg.scans, List.any_eq_true, List.mem_range, Option.any_eq_true, Bool.and_eq_true, decide_eq_true_eq]
  rw [← hs, Pkg.furlBarred, Bool.or_eq_false_iff, Bool.or_eq_false_iff, Bool.not_eq_true, and_assoc]
  refine and_congr_left fun _ => ?_
  rw [← Bool.not_eq_true, List.any_eq_true]
  simp only [Bool.or_eq_true, decide_eq_true_eq]
theorem Pkg.tileIdle_eq_true (k : Pkg) (t : Nat) : k.tileIdle t = true ↔
    (k.tileSlots t).all k.asleep = true ∧ (sget ({} : BrgSt) k.brg t).running = none ∧ (sget ({} : BrgSt) k.brg t).queue = [] := by
  rw [Pkg.tileIdle, Bool.and_eq_true, Bool.and_eq_true, Option.isNone_iff_eq_none, List.isEmpty_iff, and_assoc]
theorem Pkg.heldFor_eq_true (now i ns : Nat) (k : Pkg) : k.heldFor now i ns = true ↔ ∃ since, sfind k.aon.heldFrom i = some since ∧ since + ns ≤ now := by
  rw [Pkg.heldFor, Option.any_eq_true]
  simp only [decide_eq_true_eq]

section
variable (t : Tile) (k : Pkg)

theorem Pkg.furled_onlyRegs : OnlyRegs k (k.furled t.val) := .trans (.put ..) (Pkg.setDomains_onlyRegs ..)
theorem Pkg.get_setDomains {f : Fld} (hf : f.off < 0x200) (b : Bool) : ∀ (ds : List Nat) (k : Pkg), (k.setDomains b ds).get f = k.get f
  | [], _ => rfl
  | d :: ds, k => (Pkg.get_setDomains hf b ds _).trans (Pkg.get_of_rg (Pkg.rg_setRg_ne _ _ (by unfold R.AON_DOMAIN_ON; omega)))
theorem Pkg.furled_cFurled (u : Nat) (hu : u < 4) : (k.furled t.val).cFurled u = (k.cFurled u || decide (t.val = u)) := by
  rw [Pkg.cFurled, Pkg.furled, Pkg.get_setDomains (by decide), Pkg.orBits, Pkg.get_put_same _ _ _ (by decide), bit, Nat.testBit_mod_two_pow,
    Nat.testBit_or, Nat.testBit_two_pow, Pkg.cFurled, bit, decide_eq_true (show u < F.AON_PKG_STATE_C_FURLED.width from hu), Bool.true_and]
theorem Pkg.domainOn_furled {d : Nat} (hd : d = 384 + t.val ∨ d = 388 + t.val) : (k.furled t.val).domainOn d = false := by
  rw [Pkg.furled, Pkg.domainOn_setDomains, if_pos]
  simpa using hd
theorem Pkg.setDomains_rg (b : Bool) {o : Nat} (ho : 0x60000 ≤ o) : ∀ (ds : List Nat) (k : Pkg), (∀ d ∈ ds, d < 412) → (k.setDomains b ds).rg o = k.rg o
  | [], _, _ => rfl
  | d :: ds, k, h => by
    obtain ⟨hd, hds⟩ := List.forall_mem_cons.1 h
    exact (Pkg.setDomains_rg b ho ds _ hds).trans (Pkg.rg_setRg_ne _ _ (by unfold R.AON_DOMAIN_ON; omega))
theorem Pkg.scans_furled (f : Scanning → Bool) : (k.furled t.val).scans f = k.scans f := by
  refine Pkg.scans_congr (fun o hl _ => ?_) f
  have ht := t.isLt
  rw [Pkg.furled, Pkg.setDomains_rg _ hl _ _ (by simp; omega)]
  exact Pkg.rg_put_ne _ _ _ (by simp only [F.AON_PKG_STATE_C_FURLED, R.AON_PKG_STATE]; omega)
end

theorem Pkg.furlStile_onlyRegs (k : Pkg) : OnlyRegs k k.furlStile := .ite (.put ..) (.refl k)
theorem Pkg.furlStile_cases (k : Pkg) : k.furlStile = k.put F.AON_PKG_STATE_S_FURLED 1 ∨ k.furlStile = k := by
  unfold Pkg.furlStile
  split
  · exact .inl rfl
  · exact .inr rfl
/-- The S-tile's furling leaves the C-tiles and the domains. -/
theorem Pkg.furlStile_rest (k : Pkg) : k.furlStile.get F.AON_PKG_STATE_C_FURLED = k.get F.AON_PKG_STATE_C_FURLED ∧
    ∀ d, k.furlStile.domainOn d = k.domainOn d := by
  rcases k.furlStile_cases with h | h <;> rw [h]
  · exact ⟨Pkg.get_put_disjoint _ _ _ _ (by decide) rfl (by decide), Pkg.domainOn_put _ _ _ (by decide)⟩
  · exact ⟨rfl, fun _ => rfl⟩
theorem Pkg.furlStile_sFurled {k : Pkg} (hc : k.get F.AON_PKG_STATE_C_FURLED = 15) (hs : k.scans (fun x => decide (x.space = 1)) = false) :
    k.furlStile.sFurled = true := by
  rw [Pkg.furlStile, if_pos (by rw [hs, hc]; rfl), Pkg.sFurled, Pkg.get_put_same _ _ _ (by decide)]
  rfl

/-! ### Mooring -/

section
variable {s : State} {p : PkgId}

theorem exec_moorEntry_not (hm : (s.pkg p).mooring = false) (h : (s.pkg p).mayMoor s.now = false) : exec (.moorEntry p) s = .next (s.setPkg p (s.pkg p)) := by
  change execMoorEntry p s = _
  unfold execMoorEntry onPkgMem
  dsimp only
  rw [if_neg (by rw [hm]; exact Bool.false_ne_true), if_neg (by rw [h]; exact Bool.false_ne_true)]
theorem Pkg.not_mooring_of_mayMoor {now : Nat} {k : Pkg} (h : k.mayMoor now = true) : k.mooring = false := by
  simp only [Pkg.mayMoor, Bool.and_eq_true, Bool.not_eq_true'] at h
  exact h.1.1.1.2
theorem exec_moorEntry_begins (h : (s.pkg p).mayMoor s.now = true) : exec (.moorEntry p) s = .next (s.setPkg p (s.pkg p).beginMoor) := by
  change execMoorEntry p s = _
  unfold execMoorEntry onPkgMem
  dsimp only
  rw [if_neg (by rw [Pkg.not_mooring_of_mayMoor h]; exact Bool.false_ne_true), if_pos h]
theorem exec_moorEntry_undone (hm : (s.pkg p).mooring = true) (h : (s.pkg p).moorable s.now = false) :
    exec (.moorEntry p) s = .next (s.setPkg p ((s.pkg p).put F.AON_PKG_STATE_PKG 0)) := by
  have hnot : (s.pkg p).moored = false := by
    rw [Pkg.mooring, decide_eq_true_eq] at hm
    rw [Pkg.moored, hm]
    rfl
  change execMoorEntry p s = _
  unfold execMoorEntry onPkgMem
  dsimp only
  rw [if_pos hm, if_neg (by rw [h]; exact Bool.false_ne_true), Pkg.leaveMoor, if_neg (by rw [hnot]; exact Bool.false_ne_true), if_pos hm]
theorem exec_moorEntry_ends (hm : (s.pkg p).mooring = true) (h : (s.pkg p).moorable s.now = true) :
    exec (.moorEntry p) s = .next ({ s with mem := (endMoor p s.mem (s.pkg p)).1 }.setPkg p (endMoor p s.mem (s.pkg p)).2) := by
  change execMoorEntry p s = _
  unfold execMoorEntry onPkgMem
  dsimp only
  rw [if_pos hm, if_pos h]
end

/-- The links that are parked. -/
def Pkg.parkAll (qs : List Nat) (k : Pkg) : Pkg := qs.foldl (fun k q => k.setPort q { k.port q with state := .parked }) k

theorem Pkg.parkAll_parked {q : Nat} : ∀ (qs : List Nat) (k : Pkg), q ∈ qs ∨ (k.port q).state = .parked → ((k.parkAll qs).port q).state = .parked
  | [], k, h => by simpa [Pkg.parkAll] using h
  | x :: qs, k, h => by
    refine Pkg.parkAll_parked qs (k.setPort x { k.port x with state := .parked }) ?_
    by_cases hq : q = x
    · subst hq
      refine .inr ?_
      rw [Pkg.port, Pkg.setPort, sget_sset_same]
    · rcases h with h | h
      · exact .inl ((List.mem_cons.1 h).resolve_left hq)
      · refine .inr ?_
        rw [Pkg.port, Pkg.setPort, sget_sset_ne _ _ _ _ hq]
        exact h
theorem Pkg.parkAll_frame : ∀ (qs : List Nat) (k : Pkg), k.parkAll qs = { k with rt := (k.parkAll qs).rt }
  | [], _ => rfl
  | x :: qs, k => by
    have ih := Pkg.parkAll_frame qs (k.setPort x { k.port x with state := .parked })
    change (k.setPort x { k.port x with state := .parked }).parkAll qs = { k with rt := ((k.setPort x { k.port x with state := .parked }).parkAll qs).rt }
    rw [ih]
    rfl
theorem Pkg.beginMoor_eq (k : Pkg) : k.beginMoor = ((k.noticeAll 1).parkAll k.activePorts).put F.AON_PKG_STATE_PKG 1 := rfl

/-- Taking a core into Doze with its store saved leaves everything but registers, the always-on state and memory; SAVE still reads 1. -/
theorem toDoze_aonOnly {p : PkgId} {c : Nat} {m : Mem} {k : Pkg} (h : k.saves = true) : AonOnly k (toDoze p c m k).2 ∧ (toDoze p c m k).2.saves = true := by
  rw [toDoze_saves h]
  have hr : OnlyRegs k ((k.setPstate c 3).setDomains false [k.phys c, 192 + k.phys c]) := .trans (.put ..) (Pkg.setDomains_onlyRegs ..)
  refine ⟨.trans (.of_onlyRegs hr) (AonOnly.setAon (fun a => { a with saved := a.saved ++ [c] }) _), ?_⟩
  have hg : ((k.setPstate c 3).setDomains false [k.phys c, 192 + k.phys c]).get F.AON_PDOM_POLICY_SAVE = k.get F.AON_PDOM_POLICY_SAVE := by
    rw [Pkg.get_setDomains (by decide), Pkg.setPstate, Pkg.get_put_reg_ne _ _ _ _ (by
      simp only [F.AON_PDOM_POLICY_SAVE, R.AON_PDOM_POLICY, F.CORE_PSTATE_STATE, R.CORE_PSTATE]; omega)]
  rw [Pkg.saves] at h ⊢
  rw [← h, ← hg]
  rfl
theorem foldl_toDoze_aonOnly (p : PkgId) : ∀ (cs : List Nat) (mk : Mem × Pkg), mk.2.saves = true →
    AonOnly mk.2 (cs.foldl (fun mk c => toDoze p c mk.1 mk.2) mk).2
  | [], mk, _ => .refl mk.2
  | c :: cs, mk, h => by
    obtain ⟨h1, h2⟩ := toDoze_aonOnly (p := p) (c := c) (m := mk.1) h
    exact h1.trans (foldl_toDoze_aonOnly p cs (toDoze p c mk.1 mk.2) h2)
theorem moorStores_aonOnly {p : PkgId} {m : Mem} {k : Pkg} (h : k.saves = true) : AonOnly k (moorStores p m k).2 := by
  rw [moorStores]
  exact foldl_toDoze_aonOnly p _ (m, k) h
theorem Pkg.get_setAon (a : AonSt → AonSt) (k : Pkg) (f : Fld) : (k.setAon a).get f = k.get f := rfl
theorem Pkg.domainOn_setAon (a : AonSt → AonSt) (k : Pkg) (d : Nat) : (k.setAon a).domainOn d = k.domainOn d := rfl
theorem endMoor_pkg (p : PkgId) (m : Mem) (k : Pkg) : (endMoor p m k).2 =
    (((moorStores p (moorStile p m k) k).2.setDomains false allDomains).put F.AON_PKG_STATE_PKG 2).setAon fun a => { a with pcieL1 := true } := rfl
theorem endMoor_aonOnly {p : PkgId} {m : Mem} {k : Pkg} (h : k.saves = true) : AonOnly k (endMoor p m k).2 := by
  have hm := moorStores_aonOnly (p := p) (m := moorStile p m k) h
  rw [endMoor_pkg]
  generalize (moorStores p (moorStile p m k) k).2 = j at hm
  generalize allDomains = ds
  exact .trans (hm.trans (.of_onlyRegs ((Pkg.setDomains_onlyRegs ..).trans (.put ..)))) (.setAon ..)
theorem Pkg.sealed_moored (ds : List Nat) (k : Pkg) : ((k.setDomains false ds).put F.AON_PKG_STATE_PKG 2).moored = true ∧
    ∀ d ∈ ds, ((k.setDomains false ds).put F.AON_PKG_STATE_PKG 2).domainOn d = false := by
  refine ⟨?_, fun d hd => ?_⟩
  · rw [Pkg.moored, Pkg.get_put_same _ _ _ (by decide)]
    rfl
  · rw [Pkg.domainOn_put _ _ _ (by decide), Pkg.domainOn_setDomains, if_pos hd]
theorem endMoor_moored (p : PkgId) (m : Mem) (k : Pkg) : (endMoor p m k).2.moored = true ∧ ∀ d ∈ allDomains, (endMoor p m k).2.domainOn d = false := by
  rw [endMoor_pkg]
  generalize (moorStores p (moorStile p m k) k).2 = j
  obtain ⟨h1, h2⟩ := j.sealed_moored allDomains
  rw [Pkg.moored, Pkg.get_setAon, ← Pkg.moored]
  exact ⟨h1, fun d hd => (Pkg.domainOn_setAon ..).trans (h2 d hd)⟩

/-! ### Waking -/

/-- What the wakes of cores keep: the causes of the wake, what is powered, and that nothing furls or moors. -/
structure KeepsAwake (j k : Pkg) : Prop where
  frame : AonOnly j k
  cause : k.rg R.AON_WAKE_CAUSE = j.rg R.AON_WAKE_CAUSE
  domains : ∀ d, j.domainOn d = true → k.domainOn d = true
  sFurled : j.sFurled = false → k.sFurled = false
  moored : j.moored = false → k.moored = false
  waking : ∀ c, j.aon.waking.contains c = true → k.aon.waking.contains c = true

theorem KeepsAwake.refl (k : Pkg) : KeepsAwake k k := ⟨.refl k, rfl, fun _ h => h, id, id, fun _ h => h⟩
theorem KeepsAwake.trans {j k l : Pkg} (h : KeepsAwake j k) (h' : KeepsAwake k l) : KeepsAwake j l :=
  ⟨h.frame.trans h'.frame, h'.cause.trans h.cause, fun d x => h'.domains d (h.domains d x), fun x => h'.sFurled (h.sFurled x),
    fun x => h'.moored (h.moored x), fun c x => h'.waking c (h.waking c x)⟩

theorem Pkg.rg_setDomains {o : Nat} (ho : o < 0x200) (b : Bool) : ∀ (ds : List Nat) (k : Pkg), (k.setDomains b ds).rg o = k.rg o
  | [], _ => rfl
  | d :: ds, k => (Pkg.rg_setDomains ho b ds _).trans (Pkg.rg_setRg_ne _ _ (by unfold R.AON_DOMAIN_ON; omega))
/-- Powering domains leaves every register below theirs but that of the package's state. -/
theorem Pkg.rg_power {o : Nat} (ho : o < 0x200) (hne : o ≠ R.AON_PKG_STATE) (ds : List Nat) (k : Pkg) : (k.power ds).rg o = k.rg o := by
  unfold Pkg.power
  dsimp only
  split
  · rw [Pkg.rg_put_ne _ _ _ hne, Pkg.clearBits, Pkg.rg_put_ne _ _ _ hne, Pkg.rg_setDomains ho]
  · rw [Pkg.clearBits, Pkg.rg_put_ne _ _ _ hne, Pkg.rg_setDomains ho]
theorem Pkg.rg_leaveMoor {o : Nat} (hne : o ≠ R.AON_PKG_STATE) (v : Nat) (k : Pkg) : (k.leaveMoor v).rg o = k.rg o := by
  unfold Pkg.leaveMoor
  split_ifs
  · exact Pkg.rg_put_ne _ _ _ hne
  · exact Pkg.rg_put_ne _ _ _ hne
  · rfl
theorem Pkg.get_PKG_power (ds : List Nat) (k : Pkg) : (k.power ds).get F.AON_PKG_STATE_PKG = k.get F.AON_PKG_STATE_PKG := by
  have h (j : Pkg) (f : Fld) (v : Nat) (ho : f.off = R.AON_PKG_STATE) (hl : 2 ≤ f.lo) : (j.put f v).get F.AON_PKG_STATE_PKG = j.get F.AON_PKG_STATE_PKG :=
    Pkg.get_put_disjoint _ _ _ _ (by decide) ho.symm (.inl hl)
  unfold Pkg.power
  dsimp only
  split
  · rw [h _ _ _ rfl (by decide), Pkg.clearBits, h _ _ _ rfl (by decide), Pkg.get_setDomains (by decide)]
  · rw [Pkg.clearBits, h _ _ _ rfl (by decide), Pkg.get_setDomains (by decide)]
/-- A wake leaves no package moored. -/
theorem Pkg.moored_leaveMoor {v : Nat} (hv : v < 4) (h2 : v ≠ 2) (k : Pkg) : (k.leaveMoor v).moored = false := by
  unfold Pkg.leaveMoor
  split_ifs with h1 h3
  · rw [Pkg.moored, Pkg.get_put_same _ _ _ (by decide), show v % 2 ^ F.AON_PKG_STATE_PKG.width = v from Nat.mod_eq_of_lt hv, decide_eq_false h2]
  · rw [Pkg.moored, Pkg.get_put_same _ _ _ (by decide)]
    rfl
  · exact Bool.eq_false_iff.2 h1
theorem Pkg.sFurled_leaveMoor (v : Nat) (k : Pkg) : (k.leaveMoor v).sFurled = k.sFurled := by
  have h (w : Nat) : (k.put F.AON_PKG_STATE_PKG w).sFurled = k.sFurled := by
    rw [Pkg.sFurled, Pkg.get_put_disjoint k F.AON_PKG_STATE_PKG F.AON_PKG_STATE_S_FURLED w (by decide) rfl (by decide), Pkg.sFurled]
  unfold Pkg.leaveMoor
  split_ifs
  · exact h v
  · exact h 0
  · rfl

theorem Pkg.wakeCore_keepsAwake (c : Nat) (k : Pkg) : KeepsAwake k (k.wakeCore c) := by
  by_cases h : (decide (k.pstate c < 2) || k.aon.waking.contains c) = true
  · rw [Pkg.wakeCore, if_pos h]
    exact .refl k
  · have hw := k.wakeCore_aonOnly c
    have he : k.wakeCore c = (((k.power (coreDomains (k.phys c))).put F.AON_PKG_STATE_S_FURLED 0).leaveMoor 3).setAon
        fun a => { a with waking := a.waking ++ [c] } := if_neg h
    refine ⟨hw, ?_, fun d hd => ?_, fun _ => ?_, fun _ => ?_, fun n hn => ?_⟩
    · rw [he]
      change (((k.power _).put _ 0).leaveMoor 3).rg _ = _
      rw [Pkg.rg_leaveMoor (by decide), Pkg.rg_put_ne _ _ _ (by decide), Pkg.rg_power (by decide) (by decide)]
    · rw [he]
      change (((k.power _).put _ 0).leaveMoor 3).domainOn d = true
      rw [Pkg.domainOn_leaveMoor, Pkg.domainOn_put _ _ _ (by decide), Pkg.domainOn_power, hd, Bool.or_true]
    · rw [he]
      change (((k.power _).put _ 0).leaveMoor 3).sFurled = false
      rw [Pkg.sFurled_leaveMoor, Pkg.sFurled, Pkg.get_put_same _ _ _ (by decide)]
      rfl
    · rw [he]
      exact Pkg.moored_leaveMoor (by decide) (by decide) _
    · simp only [Bool.or_eq_true, decide_eq_true_eq, not_or, Bool.not_eq_true] at h
      rw [Pkg.wakeCore_waking (by omega) h.2, List.contains_eq_mem, decide_eq_true_eq, List.mem_append]
      rw [List.contains_eq_mem, decide_eq_true_eq] at hn
      exact .inl hn
theorem Pkg.wakeCores_keepsAwake : ∀ (cs : List Nat) (k : Pkg), KeepsAwake k (k.wakeCores cs)
  | [], k => .refl k
  | c :: cs, k => by
    have h1 : KeepsAwake k (if k.coreDark c then k else k.wakeCore c) := by
      split
      · exact .refl k
      · exact k.wakeCore_keepsAwake c
    exact h1.trans (Pkg.wakeCores_keepsAwake cs _)

/-- The infrastructure is up. -/
theorem Pkg.wakeInfra_up (k : Pkg) : (∀ d, 392 ≤ d → d < 412 → k.wakeInfra.domainOn d = true) ∧ k.wakeInfra.sFurled = false ∧
    k.wakeInfra.moored = false ∧ k.wakeInfra.rg R.AON_WAKE_CAUSE = k.rg R.AON_WAKE_CAUSE := by
  refine ⟨fun d hl hu => ?_, ?_, Pkg.moored_leaveMoor (by decide) (by decide) _, ?_⟩
  · rw [Pkg.wakeInfra, Pkg.domainOn_leaveMoor, Pkg.domainOn_power, decide_eq_true, Bool.true_or]
    exact List.mem_map.2 ⟨d - 392, List.mem_range.2 (by omega), by omega⟩
  · rw [Pkg.wakeInfra, Pkg.sFurled_leaveMoor, Pkg.power, if_pos (by decide), Pkg.sFurled, Pkg.get_put_same _ _ _ (by decide)]
    rfl
  · rw [Pkg.wakeInfra, Pkg.rg_leaveMoor (by decide), Pkg.rg_power (by decide) (by decide)]
/-- A cause of a wake is kept in its register alone. -/
theorem Pkg.wakeCause_rest (b : Nat) (k : Pkg) : (∀ d, (k.wakeCause b).domainOn d = k.domainOn d) ∧ (k.wakeCause b).sFurled = k.sFurled ∧
    (k.wakeCause b).moored = k.moored := by
  refine ⟨fun d => Pkg.domainOn_wakeCause k b d, ?_, ?_⟩
  · rw [Pkg.sFurled, Pkg.wakeCause, Pkg.orBits, Pkg.get_put_reg_ne _ _ _ _ (by decide), Pkg.sFurled]
  · rw [Pkg.moored, Pkg.wakeCause, Pkg.orBits, Pkg.get_put_reg_ne _ _ _ _ (by decide), Pkg.moored]
theorem Pkg.wakeCause_bit {b : Nat} (hb : b < 8) (k : Pkg) : bit ((k.wakeCause b).get F.AON_WAKE_CAUSE_CAUSE) b = true :=
  Pkg.bit_orBits _ _ (by decide) hb

/-- The wake of a core that sleeps, among others, starts: nothing that they wake moves the slots of cores or their states. -/
theorem Pkg.wakeCores_waking {c : Nat} : ∀ (cs : List Nat) (k : Pkg), (∀ n ∈ cs, k.phys n < 192) → k.coreDark c = false → 2 ≤ k.pstate c →
    c ∈ cs ∨ k.aon.waking.contains c = true → (k.wakeCores cs).aon.waking.contains c = true
  | [], k, _, _, _, h => h.resolve_left List.not_mem_nil
  | n :: cs, k, hp, hd, hs, h => by
    obtain ⟨hn, hcs⟩ := List.forall_mem_cons.1 hp
    have hshift (i : Nat) : (k.wakeCore n).get (F.THR_ROTA_SHIFT i) = k.get (F.THR_ROTA_SHIFT i) := by
      unfold Pkg.wakeCore
      split
      · rfl
      · have hds : ∀ d ∈ coreDomains (k.phys n), d < 412 := by
          intro d hd
          simp only [coreDomains, List.mem_cons, List.not_mem_nil, or_false] at hd
          omega
        exact (Pkg.shift_leaveMoor ..).trans ((Pkg.shift_put (by decide) _ _ _).trans (Pkg.shift_power hds i k))
    have hphys (x : Nat) : (k.wakeCore n).phys x = k.phys x := Pkg.phys_congr (congrArg ThrSt.rotas (k.wakeCore_aonOnly n).thr) hshift x
    have hdark : (k.wakeCore n).coreDark c = false := (Pkg.coreDark_congr (k.wakeCore_aonOnly n).dark c (hphys c)).trans hd
    change ((if k.coreDark n then k else k.wakeCore n).wakeCores cs).aon.waking.contains c = true
    by_cases hcn : c = n
    · subst hcn
      rw [hd, if_neg Bool.false_ne_true]
      refine Pkg.wakeCores_waking cs _ (fun x hx => (hphys x).trans_lt (hcs x hx)) hdark (hs.trans_eq (Pkg.pstate_wakeCore hn c).symm) (.inr ?_)
      by_cases hw : k.aon.waking.contains c = true
      · exact (k.wakeCore_keepsAwake c).waking c hw
      · rw [Pkg.wakeCore_waking hs (Bool.eq_false_iff.2 hw)]
        simp
    · have h' : c ∈ cs ∨ k.aon.waking.contains c = true := h.imp_left fun h => (List.mem_cons.1 h).resolve_left hcn
      by_cases hdn : k.coreDark n = true
      · rw [if_pos hdn]
        exact Pkg.wakeCores_waking cs k hcs hd hs h'
      · rw [if_neg hdn]
        exact Pkg.wakeCores_waking cs _ (fun x hx => (hphys x).trans_lt (hcs x hx)) hdark (hs.trans_eq (Pkg.pstate_wakeCore hn c).symm)
          (h'.imp_right fun h => (k.wakeCore_keepsAwake n).waking c h)

end Sys2Proof.Machine
end

section
/-! PROOF. Furling, mooring and the wake events: the obligation. -/
namespace Sys2Proof.Machine
open Sys2Proof

section
variable {s : State} {p : PkgId}

theorem exec_wakePattern {q : Port} {c : Option Core} (h : ((s.pkg p).port q.val).state = .parked) :
    exec (.wakePattern p q c) s = .next (s.setPkg p (((s.pkg p).wakeInfra.wakeCauseLink q.val).wakeCores (c.toList.map (·.val)))) := by
  change execWakePattern p q c s = _
  unfold execWakePattern onPkg
  dsimp only
  rw [if_neg (not_not.2 h)]
theorem exec_wakePattern_not {q : Port} {c : Option Core} (h : ((s.pkg p).port q.val).state ≠ .parked) :
    exec (.wakePattern p q c) s = .next (s.setPkg p (s.pkg p)) := by
  change execWakePattern p q c s = _
  unfold execWakePattern onPkg
  dsimp only
  rw [if_pos h]
end

theorem exec_wake (s : State) (p : PkgId) (cores : List Core) :
    exec (.wake p cores) s = .next (s.setPkg p (((s.pkg p).wakeInfra.wakeCause 3).wakeCores (cores.map (·.val)))) := rfl

/-- The cause of a wake by a link, and its port where no link wake is noted yet. -/
theorem Pkg.wakeCauseLink_spec {q : Nat} (hq : q < 32) (k : Pkg) : bit ((k.wakeCauseLink q).get F.AON_WAKE_CAUSE_CAUSE) 0 = true ∧
    (∀ d, (k.wakeCauseLink q).domainOn d = k.domainOn d) ∧ (k.wakeCauseLink q).sFurled = k.sFurled ∧ (k.wakeCauseLink q).moored = k.moored ∧
    (bit (k.get F.AON_WAKE_CAUSE_CAUSE) 0 = false → (k.wakeCauseLink q).get F.AON_WAKE_CAUSE_PORT = q) := by
  unfold Pkg.wakeCauseLink
  refine ⟨Pkg.wakeCause_bit (by decide) _, fun d => ?_, ?_, ?_, fun hb => ?_⟩
  · rw [(Pkg.wakeCause_rest 0 _).1]
    split
    · rfl
    · exact Pkg.domainOn_put _ _ _ (by decide) d
  · rw [(Pkg.wakeCause_rest 0 _).2.1]
    split
    · rfl
    · rw [Pkg.sFurled, Pkg.get_put_reg_ne _ _ _ _ (by decide), Pkg.sFurled]
  · rw [(Pkg.wakeCause_rest 0 _).2.2]
    split
    · rfl
    · rw [Pkg.moored, Pkg.get_put_reg_ne _ _ _ _ (by decide), Pkg.moored]
  · rw [if_neg (by rw [hb]; exact Bool.false_ne_true), Pkg.wakeCause, Pkg.orBits,
      Pkg.get_put_disjoint _ F.AON_WAKE_CAUSE_CAUSE F.AON_WAKE_CAUSE_PORT _ (by decide) rfl (by decide), Pkg.get_put_same _ _ _ (by decide)]
    exact Nat.mod_eq_of_lt hq

theorem Pkg.wakeCause_onlyRegs (b : Nat) (k : Pkg) : OnlyRegs k (k.wakeCause b) := .put ..
theorem Pkg.phys_wakeCause (b n : Nat) (k : Pkg) : (k.wakeCause b).phys n = k.phys n :=
  Pkg.phys_congr (congrArg ThrSt.rotas (AonOnly.of_onlyRegs (k.wakeCause_onlyRegs b)).thr)
    (fun i => Pkg.shift_put (f := F.AON_WAKE_CAUSE_CAUSE) (by decide) _ i k) n
theorem Pkg.pstate_wakeCause (b c : Nat) (k : Pkg) : (k.wakeCause b).pstate c = k.pstate c := Pkg.pstate_put (f := F.AON_WAKE_CAUSE_CAUSE) (by decide) _ c k

/-- Settles O15: the entries by their conditions, the wakes by what the waking of cores keeps. -/
theorem furlMoorAndWake : Obligations.FurlMoorAndWake := by
  unfold Obligations.FurlMoorAndWake
  refine ⟨fun s p t => ?_, fun s p => ?_⟩
  · intro k engineIdle on clasped scanned after held
    have hfurl : k.mayFurl s.now t.val ↔ after ≠ 0 ∧ ((k.tileSlots t.val).all k.asleep = true ∧ engineIdle) ∧ held ∧
        ¬ clasped ∧ k.csuBusy (6 + t.val) = false ∧ ¬ scanned := by
      rw [Pkg.mayFurl, Pkg.tileIdle_eq_true, Pkg.heldFor_eq_true, Pkg.furlBarred_eq_false]
    refine ⟨fun ha hc hs he hh hcl hb hsc => ?_, fun h => ?_, exec_moorEntry_not, fun h => ?_, exec_moorEntry_undone, fun hm h hs => ?_⟩
    · have hrest := (k.furled t.val).furlStile_rest
      refine ⟨_, exec_furlEntry (hfurl.2 ⟨ha, ⟨hs, he⟩, hh, hcl, hb, hsc⟩) hc, (k.furled_onlyRegs t).trans (Pkg.furlStile_onlyRegs _), ?_, ?_, ?_,
        fun u hu hne => ?_, fun h15 hscan => ?_⟩
      · rw [Pkg.cFurled, hrest.1, ← Pkg.cFurled, Pkg.furled_cFurled t k _ t.isLt, decide_eq_true rfl, Bool.or_true]
      · exact (hrest.2 _).trans (k.domainOn_furled t (.inl rfl))
      · exact (hrest.2 _).trans (k.domainOn_furled t (.inr rfl))
      · rw [Pkg.cFurled, hrest.1, ← Pkg.cFurled, Pkg.furled_cFurled t k _ hu, decide_eq_false (Ne.symm hne), Bool.or_false]
      · exact Pkg.furlStile_sFurled (hrest.1.symm.trans h15) ((k.scans_furled t _).trans hscan)
    · refine exec_furlEntry_not fun hf => ?_
      obtain ⟨ha, ⟨hs, he⟩, hh, hcl, hb, hsc⟩ := hfurl.1 hf
      rcases h with h | h | h | h | h | h | h
      · exact ha h
      · exact Bool.false_ne_true (h.symm.trans hs)
      · exact h he
      · exact h hh
      · exact hcl h
      · exact Bool.false_ne_true (hb.symm.trans h)
      · exact hsc h
    · refine ⟨_, exec_moorEntry_begins h, ?_, fun q hq => ?_, ?_, ?_, ?_⟩
      · rw [Pkg.beginMoor_eq, Pkg.mooring, Pkg.get_put_same _ _ _ (by decide)]
        rfl
      · exact Pkg.parkAll_parked _ (k.noticeAll 1) (.inl hq)
      · rw [Pkg.beginMoor_eq, Pkg.parkAll_frame] <;> rfl
      · rw [Pkg.beginMoor_eq, Pkg.parkAll_frame] <;> rfl
      · rw [Pkg.beginMoor_eq, Pkg.parkAll_frame] <;> rfl
    · have hf := endMoor_aonOnly (p := p) (m := s.mem) hs
      obtain ⟨h1, h2⟩ := endMoor_moored p s.mem k
      exact ⟨_, _, exec_moorEntry_ends hm h, h1, fun d hd => h2 d (List.mem_range.2 hd), hf.rt, hf.ret, hf.mem⟩
  · intro k
    obtain ⟨hup, hfur, hmoor, hcause⟩ := k.wakeInfra_up
    refine ⟨fun q c hq => ?_, fun q c hq => exec_wakePattern_not hq, ?_, fun cores hc => ?_⟩
    · obtain ⟨h0, hd, hs, hm, hp⟩ := Pkg.wakeCauseLink_spec (q := q.val) (by omega) k.wakeInfra
      have hw := (k.wakeInfra.wakeCauseLink q.val).wakeCores_keepsAwake (c.toList.map (·.val))
      refine ⟨_, exec_wakePattern hq, ?_, fun d hl hu => hw.domains d ((hd d).trans (hup d hl hu)), hw.sFurled (hs.trans hfur), fun hb => ?_,
        fun _ => hw.moored (hm.trans hmoor)⟩
      · rw [Pkg.get_of_rg hw.cause]
        exact h0
      · rw [Pkg.get_of_rg hw.cause]
        exact hp (by rw [Pkg.get_of_rg hcause]; exact hb)
    · have hrest := Pkg.wakeCause_rest 2 ((k.setAon fun a => { a with pcieL1 := false }).wakeDomains [411, 410])
      refine ⟨(((k.setAon fun a => { a with pcieL1 := false }).wakeDomains [411, 410]).wakeCause 2).stir, rfl, ?_, ?_, ?_, ?_, ?_⟩
      · exact Pkg.wakeCause_bit (by decide) _
      · rw [Pkg.stir, Pkg.domainOn_setAon, hrest.1, Pkg.domainOn_wakeDomains]
        rfl
      · rw [Pkg.stir, Pkg.domainOn_setAon, hrest.1, Pkg.domainOn_wakeDomains]
        rfl
      · have hr : OnlyRegs (k.setAon fun a => { a with pcieL1 := false })
            (((k.setAon fun a => { a with pcieL1 := false }).wakeDomains [411, 410]).wakeCause 2) := (Pkg.wakeDomains_onlyRegs ..).trans (.put ..)
        rw [Pkg.stir, Pkg.setAon, hr.aon] <;> rfl
      · rw [Pkg.stir, Pkg.moored, Pkg.get_setAon, ← Pkg.moored, hrest.2.2]
        exact Pkg.moored_leaveMoor (by decide) (by decide) _
    · have hw := (k.wakeInfra.wakeCause 3).wakeCores_keepsAwake (cores.map (·.val))
      have hrest := Pkg.wakeCause_rest 3 k.wakeInfra
      have hphys (n : Nat) : (k.wakeInfra.wakeCause 3).phys n = k.phys n :=
        (Pkg.phys_wakeCause 3 n _).trans (Pkg.phys_wakeInfra n k)
      refine ⟨_, exec_wake s p cores, ?_, fun d hl hu => ?_, fun c hc' hd hp => ?_⟩
      · rw [Pkg.get_of_rg hw.cause]
        exact Pkg.wakeCause_bit (by decide) _
      · refine hw.domains d ?_
        rw [hrest.1]
        exact hup d hl hu
      · refine Pkg.wakeCores_waking _ _ (fun n hn => ?_) ?_ ?_ (.inl (List.mem_map.2 ⟨c, hc', rfl⟩))
        · obtain ⟨x, hx, rfl⟩ := List.mem_map.1 hn
          exact (hphys _).trans_lt (hc x hx)
        · exact (Pkg.coreDark_congr (k := k) (AonOnly.of_onlyRegs (k.wakeInfra_onlyRegs.trans (Pkg.wakeCause_onlyRegs ..))).dark c.val (hphys _)).trans hd
        · exact hp.trans_eq ((Pkg.pstate_wakeCause ..).trans (Pkg.pstate_wakeInfra c.val k)).symm

end Sys2Proof.Machine
end

section
/-! PROOF. Check-value jobs (R85, R93): a refutation. -/
namespace Sys2Proof.Machine
open Sys2Proof

/-- The package that a command leaves. -/
def pkgAfter (i : Instr) (s : State) (p : PkgId) : Pkg :=
  match exec i s with
  | .next t => t.pkg p
  | _ => {}
theorem pkgAfter_of_next {i : Instr} {s t : State} (p : PkgId) (h : exec i s = .next t) : pkgAfter i s p = t.pkg p := by
  rw [pkgAfter, h]
theorem pkgAfter_of_wrote {i : Instr} {s : State} {p : PkgId} {who : Requester} {off : Nat} {m : Mem} {j : Pkg}
    (h : exec i s = .next (s.wrote p who off m j)) : pkgAfter i s p = j.emit (.busDone who off) := by
  rw [pkgAfter_of_next p h, State.wrote, State.pkg_setPkg_same]

/-! ### Concrete states of refutations -/

/-- The first package of rack 0. -/
def pkg0 : PkgId := ⟨0, 0, 0⟩
/-- A package with every domain on, its PKC running. -/
def onPkg0 : Pkg := (List.range 13).foldl (fun k i => k.setRg (R.AON_DOMAIN_ON i) (if i = 12 then 0x0FFFFFFF else 0xFFFFFFFF))
  { pkc := { run := .running, bootDone := true } }
/-- The machine after reset but for one package. -/
def only (k : Pkg) : State := State.reset.setPkg pkg0 k

/-- A rotation set numbered 0x4000, whose shift field is bits 15:8 of CSU_CTRL of unit 2. -/
def farRota : Pkg :=
  let k := (onPkg0.setDomains false [197, 199]).setWide (R.CSU_LEN_LO 2) 64
  { k with thr := { k.thr with rotas := [(0x4000, ⟨[5, 6, 7], 0, 0, 0, false⟩)] } }
/-- START of a scan of the store of core 5. -/
def startScan : Instr := .start pkg0 .host 2 0x00055000

/-- Refutes O17: no hypothesis bounds the numbers of the rotation sets. Set 0x4000 has its shift in CSU_CTRL of unit 2 (R.THR_ROTA 0x4000 =
R.CSU_CTRL 2), so the START that stores SPACE = 5 there moves slot 5 to core 7: the domain of core 7's store is powered, and that of
core 5, where the slot ran as the command began, stays off. -/
theorem not_csuJobs : ¬ Obligations.CsuJobs := by
  unfold Obligations.CsuJobs
  intro h
  have ho : Open (only farRota) pkg0 .host (R.CSU_CTRL 2) := by unfold Open; decide +kernel
  have hpkg : (only farRota).pkg pkg0 = farRota := by decide +kernel
  obtain ⟨j, he, -, -, -, -, -, -, -, -, -, hstart, -⟩ := (h.1 (only farRota) pkg0 .host 2 0x00055000 ho).2.2 (by decide) (by decide +kernel)
    (by decide) (by rw [hpkg]; decide +kernel)
  have hj := pkgAfter_of_wrote he
  have hrun : (pkgAfter startScan (only farRota) pkg0).startRefusal 2 = none ∧
      (pkgAfter startScan (only farRota) pkg0).csuScan 2 = some ⟨5, 5, 0, 64⟩ ∧
      (farRota.sourceDomains ⟨5, 5, 0, 64⟩).all (pkgAfter startScan (only farRota) pkg0).domainOn = false := by decide +kernel
  obtain ⟨hr, hs, hd⟩ := hrun
  have hj : pkgAfter startScan (only farRota) pkg0 = j.emit (.busDone .host (R.CSU_CTRL 2)) := hj
  rw [hj] at hr hs hd
  have hon := (hstart hr).2.2.2.2 ⟨5, 5, 0, 64⟩ hs
  rw [hpkg] at hon
  exact Bool.false_ne_true (hd.symm.trans hon)

end Sys2Proof.Machine
end

section
/-! PROOF. Check-value units: chunks and scans (R84–R91, R94). -/
namespace Sys2Proof.Machine
open Sys2Proof

/-! ### 64-bit registers -/

theorem Pkg.rg_setWide_ne (k : Pkg) (off v : Nat) {o : Nat} (h : o ≠ off) (h4 : o ≠ off + 4) : (k.setWide off v).rg o = k.rg o := by
  rw [Pkg.setWide, Pkg.rg_setRg_ne _ _ h4, Pkg.rg_setRg_ne _ _ h]
theorem Pkg.wide_setWide_same (k : Pkg) (off v : Nat) : (k.setWide off v).wide off = v % 2 ^ 64 := by
  rw [Pkg.wide, Pkg.setWide, Pkg.rg_setRg_same, Pkg.rg_setRg_ne _ _ (by omega), Pkg.rg_setRg_same, BitVec.toNat_ofNat, BitVec.toNat_ofNat]
  omega
theorem Pkg.wide_of_rg {j k : Pkg} {off : Nat} (h : j.rg off = k.rg off) (h4 : j.rg (off + 4) = k.rg (off + 4)) : j.wide off = k.wide off := by
  rw [Pkg.wide, h, h4, Pkg.wide]
theorem Pkg.get_setWide (k : Pkg) (off v : Nat) {f : Fld} (h : f.off ≠ off) (h4 : f.off ≠ off + 4) : (k.setWide off v).get f = k.get f :=
  Pkg.get_of_rg (k.rg_setWide_ne off v h h4)
theorem Pkg.wide_put (k : Pkg) (f : Fld) (v : Nat) {off : Nat} (h : off ≠ f.off) (h4 : off + 4 ≠ f.off) : (k.put f v).wide off = k.wide off :=
  Pkg.wide_of_rg (k.rg_put_ne f v h) (k.rg_put_ne f v h4)

/-! ### The end of a job -/

section
variable (k : Pkg) (u state code : Nat)

/-- The status of a job that ends. -/
def Pkg.csuStatus : Pkg := ((k.put (F.CSU_STATUS_STATE u) state).put (F.CSU_STATUS_CODE u) code).flag (F.CSU_STATUS_VALID u) (decide (state = 2))
theorem Pkg.csuEnd_eq : k.csuEnd u state code = if k.get (F.CSU_CTRL_IRQ u) = 1 then (k.csuStatus u state code).emit (.msix (48 + u)) else
    k.csuStatus u state code := rfl
theorem Pkg.csuEnd_regs : (k.csuEnd u state code).regs = (k.csuStatus u state code).regs := by
  rw [Pkg.csuEnd_eq]
  split <;> rfl
theorem Pkg.csuEnd_rg (o : Nat) : (k.csuEnd u state code).rg o = (k.csuStatus u state code).rg o := by
  rw [Pkg.rg, Pkg.csuEnd_regs, Pkg.rg]
theorem Pkg.csuEnd_csu : (k.csuEnd u state code).csu = k.csu := by
  rw [Pkg.csuEnd_eq]
  split <;> rfl
theorem Pkg.csuEnd_rg_ne {o : Nat} (h : o ≠ R.CSU_STATUS u) : (k.csuEnd u state code).rg o = k.rg o := by
  rw [Pkg.csuEnd_rg, Pkg.csuStatus, Pkg.flag, Pkg.rg_put_ne _ _ _ h, Pkg.rg_put_ne _ _ _ h, Pkg.rg_put_ne _ _ _ h]
theorem Pkg.csuEnd_state (h : state < 8) : (k.csuEnd u state code).get (F.CSU_STATUS_STATE u) = state := by
  rw [Pkg.get_of_rg (Pkg.csuEnd_rg ..), Pkg.csuStatus,
    Pkg.get_flag_disjoint _ (F.CSU_STATUS_VALID u) (F.CSU_STATUS_STATE u) _ (Nat.le_of_ble_eq_true rfl) rfl (.inl (Nat.le_of_ble_eq_true rfl)),
    Pkg.get_put_disjoint _ (F.CSU_STATUS_CODE u) (F.CSU_STATUS_STATE u) _ (Nat.le_of_ble_eq_true rfl) rfl (.inl (Nat.le_of_ble_eq_true rfl)),
    Pkg.get_put_same _ _ _ (Nat.le_of_ble_eq_true rfl)]
  exact Nat.mod_eq_of_lt h
theorem Pkg.csuEnd_code (h : code < 16) : (k.csuEnd u state code).get (F.CSU_STATUS_CODE u) = code := by
  rw [Pkg.get_of_rg (Pkg.csuEnd_rg ..), Pkg.csuStatus,
    Pkg.get_flag_disjoint _ (F.CSU_STATUS_VALID u) (F.CSU_STATUS_CODE u) _ (Nat.le_of_ble_eq_true rfl) rfl (.inl (Nat.le_of_ble_eq_true rfl)),
    Pkg.get_put_same _ _ _ (Nat.le_of_ble_eq_true rfl)]
  exact Nat.mod_eq_of_lt h
theorem Pkg.csuEnd_valid : (k.csuEnd u state code).get (F.CSU_STATUS_VALID u) = (decide (state = 2)).toNat := by
  rw [Pkg.get_of_rg (Pkg.csuEnd_rg ..), Pkg.csuStatus, Pkg.get_flag_same _ _ _ (Nat.le_of_ble_eq_true rfl) Nat.one_pos]
theorem Pkg.csuEnd_idle (h : state < 8) (h1 : state ≠ 1) : (k.csuEnd u state code).csuScan u = none := by
  have hb : (k.csuEnd u state code).csuBusy u = false := by
    rw [Pkg.csuBusy, k.csuEnd_state u state code h, decide_eq_false h1]
  rw [Pkg.csuScan, hb, if_neg (fun h => Bool.false_ne_true h.1)]
end

/-! ### Bytes that join the CRC -/

section
variable (k : Pkg) (u : Fin 10) (data : List Byte)

theorem CSU_regs : R.CSU_CTRL u.val = 0x60000 + 256 * u.val ∧ R.CSU_STATUS u.val = 0x60004 + 256 * u.val ∧
    R.CSU_PROGRESS_LO u.val = 0x60020 + 256 * u.val ∧ R.CSU_RESULT_LO u.val = 0x60018 + 256 * u.val ∧
    R.CSU_STREAM u.val = 0x60028 + 256 * u.val ∧ R.CSU_EVENTS u.val = 0x6002c + 256 * u.val :=
  ⟨rfl, rfl, rfl, rfl, rfl, rfl⟩

/-- The CRC once some bytes have joined it. -/
def Pkg.csuNext : BitVec 64 := crcAbsorb (k.csu64 u.val) (k.csuJob u.val).crc data

theorem Pkg.csuTake_job : (k.csuTake u.val data).csuJob u.val = { crc := k.csuNext u data, chunks := (k.csuJob u.val).chunks + 1 } := by
  change sget {} (sset {} k.csu u.val _) u.val = _
  rw [sget_sset_same]
  rfl
theorem Pkg.csuTake_rg {o : Nat} (ho : o < R.CSU_RESULT_LO u.val ∨ R.CSU_PROGRESS_LO u.val + 4 < o) : (k.csuTake u.val data).rg o = k.rg o := by
  obtain ⟨-, -, hp, hr, -⟩ := CSU_regs u
  unfold Pkg.csuTake
  dsimp only
  rw [Pkg.rg_setWide_ne _ _ _ (by omega) (by omega), Pkg.rg_setWide_ne _ _ _ (by omega) (by omega)]
  rfl
theorem Pkg.csuTake_progress : (k.csuTake u.val data).wide (R.CSU_PROGRESS_LO u.val) = (k.wide (R.CSU_PROGRESS_LO u.val) + data.length) % 2 ^ 41 := by
  obtain ⟨-, -, hp, hr, -⟩ := CSU_regs u
  unfold Pkg.csuTake
  dsimp only
  rw [Pkg.wide_of_rg (Pkg.rg_setWide_ne _ _ _ (by omega) (by omega)) (Pkg.rg_setWide_ne _ _ _ (by omega) (by omega)), Pkg.wide_setWide_same]
  omega
theorem Pkg.csuTake_result : (k.csuTake u.val data).wide (R.CSU_RESULT_LO u.val) = crcFinal (k.csu64 u.val) (k.csuNext u data) % 2 ^ 64 := by
  unfold Pkg.csuTake
  dsimp only
  rw [Pkg.wide_setWide_same]
  rfl
end

/-! ### CHUNK -/

section
variable {s : State} {p : PkgId} {u : Fin 10} {tag : BitVec 16} {alive : Byte} {data : List Byte}

/-- A unit takes chunks of a stream with this TAG (R90). -/
def Pkg.streams (k : Pkg) (u : Nat) (tag : BitVec 16) : Prop :=
  k.csuBusy u = true ∧ k.get (F.CSU_CTRL_MODE u) = 1 ∧ k.get (F.CSU_STREAM_TAG u) = tag.toNat

theorem Pkg.not_streams {k : Pkg} {n : Nat} : ¬ k.streams n tag ↔
    (!k.csuBusy n || decide (k.get (F.CSU_CTRL_MODE n) ≠ 1) || decide (k.get (F.CSU_STREAM_TAG n) ≠ tag.toNat)) = true := by
  simp only [Pkg.streams, Bool.or_eq_true, Bool.not_eq_true', decide_eq_true_eq, not_and_or, Bool.not_eq_true, or_assoc, ne_eq]
theorem exec_chunk_off (h : (s.pkg p).domainOn (csuDomain u.val) = false) : exec (.chunk p u tag alive data) s = .next (s.setPkg p (s.pkg p)) := by
  change execChunk p u tag alive data s = _
  unfold execChunk onPkg
  dsimp only
  rw [if_pos (by rw [h]; rfl)]
variable (hd : (s.pkg p).domainOn (csuDomain u.val) = true)
include hd
theorem exec_chunk_foreign (h : ¬ (s.pkg p).streams u.val tag) :
    exec (.chunk p u tag alive data) s = .next (s.setPkg p ((s.pkg p).count (F.CSU_EVENTS_FOREIGN u.val) 1)) := by
  change execChunk p u tag alive data s = _
  unfold execChunk onPkg
  dsimp only
  rw [if_neg (by rw [hd]; exact Bool.false_ne_true), if_pos (Pkg.not_streams.1 h)]
variable (hm : (s.pkg p).streams u.val tag)
include hm
theorem exec_chunk_taken (h : alive.toNat = (s.pkg p).get (F.CSU_STREAM_NEXT u.val)) : exec (.chunk p u tag alive data) s =
    .next (s.setPkg p (((s.pkg p).csuTake u.val data).put (F.CSU_STREAM_NEXT u.val) ((s.pkg p).get (F.CSU_STREAM_NEXT u.val) + 1))) := by
  change execChunk p u tag alive data s = _
  unfold execChunk onPkg
  dsimp only
  rw [if_neg (by rw [hd]; exact Bool.false_ne_true), if_neg (fun hn => Pkg.not_streams.2 hn hm), if_pos h]
theorem exec_chunk_repeat (h : alive.toNat ≠ (s.pkg p).get (F.CSU_STREAM_NEXT u.val))
    (hr : 0 < ((s.pkg p).csuJob u.val).chunks ∧ (alive.toNat + 1) % 256 = (s.pkg p).get (F.CSU_STREAM_NEXT u.val)) :
    exec (.chunk p u tag alive data) s = .next (s.setPkg p ((s.pkg p).count (F.CSU_EVENTS_REPEATS u.val) 1)) := by
  change execChunk p u tag alive data s = _
  unfold execChunk onPkg
  dsimp only
  rw [if_neg (by rw [hd]; exact Bool.false_ne_true), if_neg (fun hn => Pkg.not_streams.2 hn hm), if_neg h, if_pos hr]
theorem exec_chunk_skip (h : alive.toNat ≠ (s.pkg p).get (F.CSU_STREAM_NEXT u.val))
    (hr : ¬ (0 < ((s.pkg p).csuJob u.val).chunks ∧ (alive.toNat + 1) % 256 = (s.pkg p).get (F.CSU_STREAM_NEXT u.val))) :
    exec (.chunk p u tag alive data) s = .next (s.setPkg p ((s.pkg p).csuEnd u.val 4 7)) := by
  change execChunk p u tag alive data s = _
  unfold execChunk onPkg
  dsimp only
  rw [if_neg (by rw [hd]; exact Bool.false_ne_true), if_neg (fun hn => Pkg.not_streams.2 hn hm), if_neg h, if_neg hr]
end

/-! ### SCAN_END -/

section
variable {s : State} {p : PkgId} {u : Fin 10} {x : Scanning}

theorem exec_scanEnd_none {corrected : List Nat} (h : (s.pkg p).csuScan u.val = none) :
    exec (.scanEnd p u corrected) s = .next (s.setPkg p (s.pkg p)) := by
  change execScanEnd p u corrected s = _
  unfold execScanEnd onPkg
  dsimp only
  rw [h] <;> rfl
theorem exec_scanEnd_done (h : (s.pkg p).csuScan u.val = some x) (hb : (s.pkg p).scanPoisoned p x = none) : exec (.scanEnd p u []) s =
    .next (s.setPkg p (((s.pkg p).csuTake u.val (scanBytes p (s.pkg p) s.mem x.space x.core x.off x.len)).csuEnd u.val 2 0)) := by
  change execScanEnd p u [] s = _
  unfold execScanEnd onPkg
  dsimp only
  rw [h]
  dsimp only
  rw [hb] <;> rfl
theorem exec_scanEnd_poison {bad : Nat} (h : (s.pkg p).csuScan u.val = some x) (hb : (s.pkg p).scanPoisoned p x = some bad) : exec (.scanEnd p u []) s =
    .next (s.setPkg p ((((s.pkg p).setWide (R.CSU_PROGRESS_LO u.val) bad).csuEnd u.val 4 3).raise s.now
      (((eccPlace x.space x.core bad).map fun q => lineDetector q.1 q.2).getD 0) (BitVec.ofNat 64 bad) (Config.syndrome bad))) := by
  change execScanEnd p u [] s = _
  unfold execScanEnd onPkg
  dsimp only
  rw [h]
  dsimp only
  rw [hb] <;> rfl
/-- No line of the Chart slots has a detector of its own. -/
theorem Pkg.scanPoisoned_chart (k : Pkg) (h : x.space = 2) : k.scanPoisoned p x = none := by
  rw [Pkg.scanPoisoned, eccPlace, h] <;> rfl
theorem Pkg.scanPoisoned_hbm {k : Pkg} {l : Nat} (h : x.space = 0) (hl : (linesOf (memKey p 0 x.off) x.len).find? k.mem.poison.contains = some l) :
    k.scanPoisoned p x = some (64 * l - memKey p 0 0) := by
  have hk : memKey p 0 x.off - x.off = memKey p 0 0 := by unfold memKey; omega
  have he : eccPlace x.space x.core x.off = some (0, x.off) := by rw [h]; rfl
  rw [Pkg.scanPoisoned, he, Option.bind_some]
  dsimp only
  rw [hl, Option.map_some, hk]
end

/-- Settles O18: each outcome of a chunk by its own rule, and a scan's end by the first poisoned line. -/
theorem csuWork : Obligations.CsuWork := by
  unfold Obligations.CsuWork
  refine ⟨fun s p u tag alive data => ?_, fun s p u corrected => ?_⟩
  · intro k next mine count
    obtain ⟨-, hst, hpr, hre, hsr, hev⟩ := CSU_regs u
    refine ⟨exec_chunk_off, fun hd => ⟨fun h => exec_chunk_foreign hd h, fun hm h => ?_, fun hm h h0 hr => exec_chunk_repeat hd hm h ⟨h0, hr⟩,
      fun hm h hr => ?_⟩⟩
    · have hrg {o : Nat} (ho : o < R.CSU_RESULT_LO u.val) (hne : o ≠ R.CSU_STREAM u.val) :
          ((k.csuTake u.val data).put (F.CSU_STREAM_NEXT u.val) (next + 1)).rg o = k.rg o :=
        (Pkg.rg_put_ne _ _ _ hne).trans (Pkg.csuTake_rg k u data (.inl ho))
      refine ⟨_, exec_chunk_taken hd hm h, Pkg.csuTake_job k u data, ?_, ?_, ?_, ?_⟩
      · exact Pkg.get_put_same _ _ _ (Nat.le_of_ble_eq_true rfl)
      · rw [Pkg.csuBusy, Pkg.get_of_rg (hrg (o := R.CSU_STATUS u.val) (by omega) (by omega))]
        exact hm.1
      · rw [Pkg.wide_put _ (F.CSU_STREAM_NEXT u.val) _ (show R.CSU_PROGRESS_LO u.val ≠ R.CSU_STREAM u.val by omega)
          (show R.CSU_PROGRESS_LO u.val + 4 ≠ R.CSU_STREAM u.val by omega)]
        exact Pkg.csuTake_progress k u data
      · rw [Pkg.wide_put _ (F.CSU_STREAM_NEXT u.val) _ (show R.CSU_RESULT_LO u.val ≠ R.CSU_STREAM u.val by omega)
          (show R.CSU_RESULT_LO u.val + 4 ≠ R.CSU_STREAM u.val by omega)]
        exact Pkg.csuTake_result k u data
    · have hr' : ¬ (0 < (k.csuJob u.val).chunks ∧ (alive.toNat + 1) % 256 = next) := fun ⟨h0, h1⟩ => hr.elim (fun h => absurd h0 (by omega)) (fun h => h h1)
      refine ⟨_, exec_chunk_skip hd hm h hr', Pkg.csuEnd_state _ _ _ _ (by decide), Pkg.csuEnd_code _ _ _ _ (by decide), ?_⟩
      rw [Pkg.csuJob, Pkg.csuEnd_csu, Pkg.csuJob]
  · intro k
    obtain ⟨-, hst, hpr, hre, -⟩ := CSU_regs u
    refine ⟨exec_scanEnd_none, fun x hx h2 => ?_, fun x l hx h0 hl => ?_⟩
    · have hb := exec_scanEnd_done hx (Pkg.scanPoisoned_chart (p := p) k h2)
      rw [h2] at hb
      have hjob : ((k.csuTake u.val (slice k.chart.active x.off x.len)).csuEnd u.val 2 0).csuJob u.val =
          { crc := k.csuNext u (slice k.chart.active x.off x.len), chunks := (k.csuJob u.val).chunks + 1 } := by
        rw [Pkg.csuJob, Pkg.csuEnd_csu, ← Pkg.csuJob]
        exact Pkg.csuTake_job ..
      refine ⟨_, hb, Pkg.csuEnd_state _ _ _ _ (by decide), Pkg.csuEnd_valid .., Pkg.csuEnd_idle _ _ _ _ (by decide) (by decide), ?_, ?_⟩
      · exact congrArg CsuJob.crc hjob
      · rw [Pkg.wide_of_rg (Pkg.csuEnd_rg_ne _ _ _ _ (by omega)) (Pkg.csuEnd_rg_ne _ _ _ _ (by omega))]
        exact (Pkg.csuTake_result ..).trans (congrArg (fun c => crcFinal (k.csu64 u.val) c % 2 ^ 64) (congrArg CsuJob.crc hjob).symm)
    · intro bad
      have hb := exec_scanEnd_poison hx (Pkg.scanPoisoned_hbm h0 hl)
      rw [h0] at hb
      refine ⟨_, hb, Pkg.csuEnd_state _ _ _ _ (by decide), Pkg.csuEnd_code _ _ _ _ (by decide), Pkg.csuEnd_valid .., ?_⟩
      rw [Pkg.wide_of_rg (Pkg.csuEnd_rg_ne _ _ _ _ (by omega)) (Pkg.csuEnd_rg_ne _ _ _ _ (by omega))]
      exact Pkg.wide_setWide_same ..

end Sys2Proof.Machine
end

section
/-! PROOF. The messages of a turn and what their handling keeps (R126–R128). -/
namespace Sys2Proof.Machine
open Sys2Proof

/-! ### Fields of registers through the other units -/

theorem Pkg.get_setChart (f : ChartSt → ChartSt) (k : Pkg) (g : Fld) : (k.setChart f).get g = k.get g := Pkg.get_of_regs rfl g
theorem Pkg.rg_setChart (f : ChartSt → ChartSt) (k : Pkg) (o : Nat) : (k.setChart f).rg o = k.rg o := rfl
theorem Pkg.chart_setChart (f : ChartSt → ChartSt) (k : Pkg) : (k.setChart f).chart = f k.chart := rfl
theorem Pkg.out_setChart (f : ChartSt → ChartSt) (k : Pkg) : (k.setChart f).out = k.out := rfl
theorem Pkg.aon_setChart (f : ChartSt → ChartSt) (k : Pkg) : (k.setChart f).aon = k.aon := rfl
theorem Pkg.get_emit (m : Msg) (k : Pkg) (g : Fld) : (k.emit m).get g = k.get g := Pkg.get_of_regs rfl g
theorem Pkg.out_emit (m : Msg) (k : Pkg) : (k.emit m).out = k.out ++ [m] := rfl

/-! ### What a turn reads -/

/-- Between two states of a package its Chart, clock, dark units, storage, address and the registers of the Chart engine are kept; no message is lost. -/
structure Pkg.TurnKept (j k : Pkg) : Prop where
  chart : k.chart = j.chart
  aon : k.aon = j.aon
  dark : k.dark = j.dark
  mem : k.mem = j.mem
  addr : k.rg R.AON_PKG_ADDR = j.rg R.AON_PKG_ADDR
  regs : ∀ o, 0x20000 ≤ o → o < 0x60000 → k.rg o = j.rg o
  out : ∀ m ∈ j.out, m ∈ k.out

theorem Pkg.TurnKept.refl (k : Pkg) : k.TurnKept k := ⟨rfl, rfl, rfl, rfl, rfl, fun _ _ _ => rfl, fun _ h => h⟩
theorem Pkg.TurnKept.trans {i j k : Pkg} (h : i.TurnKept j) (h' : j.TurnKept k) : i.TurnKept k :=
  ⟨h'.chart.trans h.chart, h'.aon.trans h.aon, h'.dark.trans h.dark, h'.mem.trans h.mem, h'.addr.trans h.addr, fun o a b => (h'.regs o a b).trans (h.regs o a b),
    fun m hm => h'.out m (h.out m hm)⟩
theorem Pkg.TurnKept.foldl {β : Type} {f : Pkg → β → Pkg} (hf : ∀ (k : Pkg) b, k.TurnKept (f k b)) : ∀ (l : List β) (k : Pkg), k.TurnKept (l.foldl f k)
  | [], k => .refl k
  | b :: l, k => (hf k b).trans (Pkg.TurnKept.foldl hf l _)
theorem Pkg.TurnKept.ite {c : Prop} [Decidable c] {j k l : Pkg} (h : j.TurnKept k) (h' : j.TurnKept l) : j.TurnKept (if c then k else l) := by
  split
  · exact h
  · exact h'
theorem Pkg.TurnKept.of_regs {j k : Pkg} (hr : k.regs = j.regs) (hc : k.chart = j.chart) (ha : k.aon = j.aon) (hd : k.dark = j.dark)
    (hm : k.mem = j.mem) (ho : ∀ m ∈ j.out, m ∈ k.out) : j.TurnKept k :=
  ⟨hc, ha, hd, hm, Pkg.rg_of_regs hr _, fun o _ _ => Pkg.rg_of_regs hr o, ho⟩
theorem Pkg.TurnKept.put (k : Pkg) {f : Fld} (v : Nat) (h0 : f.off ≠ 0) (h : f.off < 0x20000 ∨ 0x60000 ≤ f.off) : k.TurnKept (k.put f v) :=
  ⟨rfl, rfl, rfl, rfl, Pkg.rg_put_ne _ _ _ (Ne.symm h0), fun o _ _ => Pkg.rg_put_ne _ _ _ (by omega), fun _ h => h⟩

section
variable {j k : Pkg} (h : j.TurnKept k)
include h
theorem Pkg.TurnKept.get {f : Fld} (h0 : 0x20000 ≤ f.off) (h1 : f.off < 0x60000) : k.get f = j.get f := Pkg.get_of_rg (h.regs _ h0 h1)
theorem Pkg.TurnKept.idx : k.idx = j.idx := congrArg addrIndex (Pkg.get_of_rg (f := F.AON_PKG_ADDR_ADDR) h.addr)
theorem Pkg.TurnKept.time (now : Nat) : k.time now = j.time now := by rw [Pkg.time, h.aon, ← Pkg.time]
theorem Pkg.TurnKept.phase : k.phase = j.phase := h.get (by decide) (by decide)
theorem Pkg.TurnKept.shadowState : k.shadowState = j.shadowState := h.get (by decide) (by decide)
theorem Pkg.TurnKept.ownState : k.ownState = j.ownState := h.get (by decide) (by decide)
theorem Pkg.TurnKept.ownRegion : k.ownRegion = j.ownRegion := h.get (by decide) (by decide)
theorem Pkg.TurnKept.curRegion : k.curRegion = j.curRegion := h.get (by decide) (by decide)
theorem Pkg.TurnKept.stamp : k.stamp = j.stamp := congrArg (fun n : Nat => decide (n = 1)) (h.get (f := F.CHT_SLOT_STATUS_STAMP) (by decide) (by decide))
theorem Pkg.TurnKept.ofTurn (m : TurnMsg) : k.ofTurn m = j.ofTurn m := by
  rw [Pkg.ofTurn, Pkg.turning, h.phase, h.chart, ← Pkg.turning, ← Pkg.ofTurn]
theorem Pkg.TurnKept.lastOfTurn (o : Nat) : k.lastOfTurn o = j.lastOfTurn o := by rw [Pkg.lastOfTurn, h.chart, ← Pkg.lastOfTurn]
theorem Pkg.TurnKept.turnSet : k.turnSet = j.turnSet := by unfold Pkg.turnSet; rw [h.chart]
theorem Pkg.TurnKept.membersOf (o : Nat) : k.membersOf o = j.membersOf o := by rw [Pkg.membersOf, h.turnSet, ← Pkg.membersOf]
theorem Pkg.TurnKept.turnMsg (o cause : Nat) (tr : Option Nat) : k.turnMsg o cause tr = j.turnMsg o cause tr := by
  unfold Pkg.turnMsg
  rw [h.chart]
  simp only [h.idx]
end

/-! ### Waking and the discard of packets keep it -/

theorem Pkg.rg_setDomains_infra {o : Nat} (ho : o ≠ R.AON_DOMAIN_ON 12) (b : Bool) : ∀ (ds : List Nat) (k : Pkg), (∀ d ∈ ds, d / 32 = 12) →
    (k.setDomains b ds).rg o = k.rg o
  | [], _, _ => rfl
  | d :: ds, k, h => by
    obtain ⟨hd, hds⟩ := List.forall_mem_cons.1 h
    exact (Pkg.rg_setDomains_infra ho b ds _ hds).trans (Pkg.rg_setRg_ne _ _ (by rw [hd]; exact ho))
theorem Pkg.rg_wakeInfra {o : Nat} (ho : o ≠ R.AON_DOMAIN_ON 12) (hs : o ≠ R.AON_PKG_STATE) (k : Pkg) : k.wakeInfra.rg o = k.rg o := by
  rw [Pkg.wakeInfra, Pkg.rg_leaveMoor hs]
  unfold Pkg.power
  dsimp only
  split
  · rw [Pkg.rg_put_ne _ _ _ hs, Pkg.clearBits, Pkg.rg_put_ne _ _ _ hs, Pkg.rg_setDomains_infra ho _ _ _ (by decide)]
  · rw [Pkg.clearBits, Pkg.rg_put_ne _ _ _ hs, Pkg.rg_setDomains_infra ho _ _ _ (by decide)]
theorem Pkg.wakeForChart_onlyRegs (k : Pkg) : OnlyRegs k k.wakeForChart := .ite (.refl k) (k.wakeInfra_onlyRegs.trans (.put ..))
theorem Pkg.rg_wakeForChart {o : Nat} (ho : o ≠ R.AON_DOMAIN_ON 12) (hs : o ≠ R.AON_PKG_STATE) (hc : o ≠ R.AON_WAKE_CAUSE) (k : Pkg) :
    k.wakeForChart.rg o = k.rg o := by
  unfold Pkg.wakeForChart
  split
  · rfl
  · exact (Pkg.rg_put_ne _ _ _ hc).trans (k.rg_wakeInfra ho hs)
theorem Pkg.wakeForChart_kept (k : Pkg) : k.TurnKept k.wakeForChart := by
  have h := k.wakeForChart_onlyRegs
  refine ⟨by rw [h], by rw [h], by rw [h], by rw [h], k.rg_wakeForChart (by decide) (by decide) (by decide), fun o h0 h1 => ?_, fun m hm => by rw [h]; exact hm⟩
  refine k.rg_wakeForChart ?_ ?_ ?_
  · simp [R.AON_DOMAIN_ON]; omega
  · simp [R.AON_PKG_STATE]; omega
  · simp [R.AON_WAKE_CAUSE]; omega
theorem Pkg.wakeForChart_out (k : Pkg) : k.wakeForChart.out = k.out := by rw [k.wakeForChart_onlyRegs]
theorem Pkg.wakeForChart_rt (k : Pkg) : k.wakeForChart.rt = k.rt := by rw [k.wakeForChart_onlyRegs]
theorem Pkg.floodPorts_of {j k : Pkg} (hi : k.idx = j.idx) (hr : k.rt = j.rt) : k.floodPorts = j.floodPorts := by
  unfold Pkg.floodPorts Pkg.port
  rw [hi, hr]
theorem Pkg.wakeForChart_floodPorts (k : Pkg) : k.wakeForChart.floodPorts = k.floodPorts :=
  Pkg.floodPorts_of k.wakeForChart_kept.idx k.wakeForChart_rt
theorem Pkg.wakeForChart_up {k : Pkg} (h : k.infraUp = true) : k.wakeForChart = k := if_pos h

theorem portTile_lt (inp : Nat) : portTile inp = 0 ∨ portTile inp = 1 := by
  unfold portTile
  split <;> omega
theorem Pkg.drop_kept (inp : Nat) (d : Drop) (k : Pkg) : k.TurnKept (k.drop inp d) := by
  have h : ∀ d : Drop, (dropField 0 d).off ≠ 0 ∧ 0x60000 ≤ (dropField 0 d).off ∧ (dropField 1 d).off ≠ 0 ∧ 0x60000 ≤ (dropField 1 d).off := by
    intro d
    cases d <;> decide
  obtain ⟨h0, h0', h1, h1'⟩ := h d
  obtain hf | hf := portTile_lt inp
  · exact .put _ _ (by rw [hf]; exact h0) (.inr (by rw [hf]; exact h0'))
  · exact .put _ _ (by rw [hf]; exact h1) (.inr (by rw [hf]; exact h1'))
theorem Pkg.setPort_kept (q : Nat) (x : PortSt) (k : Pkg) : k.TurnKept (k.setPort q x) := .of_regs rfl rfl rfl rfl rfl fun _ h => h
theorem Pkg.emits_kept (ms : List Msg) (k : Pkg) : k.TurnKept (k.emits ms) := .of_regs rfl rfl rfl rfl rfl fun _ h => List.mem_append_left _ h
theorem Pkg.freeInput_kept (inp key n : Nat) (k : Pkg) : k.TurnKept (k.freeInput inp key n) :=
  .ite (.refl k) ((k.setPort_kept inp _).trans (Pkg.emits_kept ..))
theorem Pkg.leave_kept (e : Queued) (k : Pkg) : k.TurnKept (k.leave e) := .ite (.refl k) (k.freeInput_kept ..)
theorem Pkg.purge_kept (d : Drop) (bad : Packet → Bool) (q : Nat) (k : Pkg) : k.TurnKept (k.purge d bad q) :=
  (k.setPort_kept q _).trans (.foldl (fun k e => (k.leave_kept e).trans (Pkg.drop_kept ..)) _ _)
theorem Pkg.purgeInputs_kept (d : Drop) (bad : Packet → Bool) (k : Pkg) : k.TurnKept (k.purgeInputs d bad) := by
  unfold Pkg.purgeInputs
  dsimp only
  refine .trans ?_ (.foldl (fun k e => ?_) _ _)
  · exact .of_regs rfl rfl rfl rfl rfl fun _ h => h
  · exact (Pkg.freeInput_kept ..).trans (Pkg.drop_kept ..)
theorem Pkg.purgeAll_kept (d : Drop) (bad : Packet → Bool) (k : Pkg) : k.TurnKept (k.purgeAll d bad) :=
  (Pkg.TurnKept.foldl (fun k q => k.purge_kept d bad q) _ k).trans (Pkg.purgeInputs_kept ..)

/-! ### Floods -/

theorem Pkg.sendFlood_out (kind : Nat) (m : TurnMsg) (k : Pkg) : (k.sendFlood kind m).out = k.out ++ [.flood kind m k.floodPorts] := rfl
theorem Pkg.sendFlood_regs (kind : Nat) (m : TurnMsg) (k : Pkg) : (k.sendFlood kind m).regs = k.regs := rfl
theorem Pkg.sendFlood_chart (kind : Nat) (m : TurnMsg) (k : Pkg) : (k.sendFlood kind m).chart = { k.chart with seen := k.chart.seen ++ [(kind, m)] } := rfl
theorem Pkg.get_sendFlood (kind : Nat) (m : TurnMsg) (k : Pkg) (f : Fld) : (k.sendFlood kind m).get f = k.get f := Pkg.get_of_regs rfl f
theorem Pkg.sendFlood_ofTurn (kind : Nat) (m m' : TurnMsg) (k : Pkg) : (k.sendFlood kind m).ofTurn m' = k.ofTurn m' := rfl
theorem chartPkg_on {s : State} {p : PkgId} (f : Pkg → Pkg) (h : (s.pkg p).chartOff = false) : chartPkg p s f = .next (s.setPkg p (f (s.pkg p))) := by
  unfold chartPkg onPkg
  dsimp only
  rw [if_neg (by rw [h]; exact Bool.false_ne_true)]
section
variable {k : Pkg} {kind : Nat} {m : TurnMsg} (act : Pkg → Pkg)
theorem Pkg.takeFlood_seen (h : k.chart.seen.contains (kind, m) = true) : k.takeFlood kind m act = k := if_pos h
variable (h : k.chart.seen.contains (kind, m) = false)
include h
theorem Pkg.takeFlood_new : k.takeFlood kind m act =
    if k.ofTurn m then act (k.wakeForChart.sendFlood kind m) else k.wakeForChart.sendFlood kind m := by
  unfold Pkg.takeFlood
  rw [if_neg (by rw [h]; exact Bool.false_ne_true)]
  dsimp only
  rw [Pkg.sendFlood_ofTurn, k.wakeForChart_kept.ofTurn]
theorem Pkg.takeFlood_acts (hm : k.ofTurn m = true) : k.takeFlood kind m act = act (k.wakeForChart.sendFlood kind m) := by
  rw [k.takeFlood_new act h, if_pos hm]
theorem Pkg.takeFlood_relayed (hm : k.ofTurn m = false) : k.takeFlood kind m act = k.wakeForChart.sendFlood kind m := by
  rw [k.takeFlood_new act h, if_neg (by rw [hm]; exact Bool.false_ne_true)]
end
/-- What a flood that was relayed leaves of the package. -/
theorem Pkg.relayed_get (kind : Nat) (m : TurnMsg) (k : Pkg) {f : Fld} (h0 : 0x20000 ≤ f.off) (h1 : f.off < 0x60000) :
    (k.wakeForChart.sendFlood kind m).get f = k.get f := by
  rw [Pkg.get_sendFlood, k.wakeForChart_kept.get h0 h1]
theorem Pkg.relayed_chart (kind : Nat) (m : TurnMsg) (k : Pkg) :
    (k.wakeForChart.sendFlood kind m).chart = { k.chart with seen := k.chart.seen ++ [(kind, m)] } := by
  rw [Pkg.sendFlood_chart, k.wakeForChart_kept.chart]
theorem Pkg.relayed_out (kind : Nat) (m : TurnMsg) (k : Pkg) :
    (k.wakeForChart.sendFlood kind m).out = k.out ++ [.flood kind m k.floodPorts] := by
  rw [Pkg.sendFlood_out, k.wakeForChart_out, k.wakeForChart_floodPorts]

end Sys2Proof.Machine
end

section
/-! PROOF. The ends of a turn, and its flooded messages (R126–R128, R134, R135). -/
namespace Sys2Proof.Machine
open Sys2Proof

/-! ### The end of a turn -/

theorem Pkg.endTurn_out (r : Nat) (k : Pkg) : (k.endTurn r).out = k.out := rfl
theorem Pkg.endTurn_chart (r : Nat) (k : Pkg) : (k.endTurn r).chart = { k.chart with
    entered := [], committed := [], wdSeq := [], drainedFrom := [], withdrawnFrom := [], tr := none, fleet := none } := rfl
theorem Pkg.endTurn_rg (r : Nat) (k : Pkg) {o : Nat} (h : o ≠ R.CHT_TURN_STATUS) : (k.endTurn r).rg o = k.rg o := by
  rw [Pkg.endTurn, Pkg.rg_setChart, Pkg.rg_put_ne _ _ _ h, Pkg.putPhase, Pkg.rg_put_ne _ _ _ h]
theorem Pkg.endTurn_get (r : Nat) (k : Pkg) {f : Fld} (h : f.off ≠ R.CHT_TURN_STATUS) : (k.endTurn r).get f = k.get f :=
  Pkg.get_of_rg (k.endTurn_rg r h)
theorem Pkg.endTurn_phase (r : Nat) (k : Pkg) : (k.endTurn r).phase = 0 := by
  rw [Pkg.phase, Pkg.endTurn, Pkg.get_setChart, Pkg.putPhase]
  simp (disch := decide) only [Pkg.get_put_disjoint, Pkg.get_put_same]
  rfl
theorem Pkg.endTurn_result {r : Nat} (hr : r < 8) (k : Pkg) : (k.endTurn r).get F.CHT_TURN_STATUS_RESULT = r := by
  rw [Pkg.endTurn, Pkg.get_setChart, Pkg.get_put_same _ _ _ (by decide)]
  exact Nat.mod_eq_of_lt hr
theorem Pkg.endTurn_ownState (r : Nat) (k : Pkg) : (k.endTurn r).ownState = k.ownState := by
  rw [Pkg.ownState, Pkg.endTurn, Pkg.get_setChart, Pkg.putPhase]
  simp (disch := decide) only [Pkg.get_put_disjoint]
  rfl

theorem Pkg.stamp_setStamp (b : Bool) (k : Pkg) : (k.setStamp b).stamp = b := by
  rw [Pkg.stamp, Pkg.setStamp, Pkg.get_flag_same _ _ _ (by decide) (by decide)]
  cases b <;> rfl
theorem Pkg.stamp_of_rg {j k : Pkg} (h : j.rg R.CHT_SLOT_STATUS = k.rg R.CHT_SLOT_STATUS) : j.stamp = k.stamp :=
  congrArg (fun n : Nat => decide (n = 1)) (Pkg.get_of_rg (f := F.CHT_SLOT_STATUS_STAMP) h)
theorem Pkg.stamp_of_get {j k : Pkg} (h : j.get F.CHT_SLOT_STATUS_STAMP = k.get F.CHT_SLOT_STATUS_STAMP) : j.stamp = k.stamp :=
  congrArg (fun n : Nat => decide (n = 1)) h

/-- What a turn that ends without effect leaves: the banks and the slots as they were before it (R134, R135). -/
structure Pkg.Undone (k j : Pkg) (result : Nat) : Prop where
  phase : j.phase = 0
  result : j.get F.CHT_TURN_STATUS_RESULT = result
  bank2 : j.chart.bank2 = false
  active : j.chart.active = k.chart.active
  shadow : j.chart.shadow = k.chart.shadow
  stamp : j.stamp = epochBit k.chart.active
  ownState : j.ownState = if k.ownState = 0 then 0 else 4
  shadowState : j.shadowState = if k.shadowState = 5 then 3 else k.shadowState
  cause : j.rg R.CHT_TURN_CAUSE = k.rg R.CHT_TURN_CAUSE
  leaseMax : j.chart.leaseMax = k.chart.leaseMax
  dark : j.dark = k.dark
  out : ∀ m ∈ k.out, m ∈ j.out

/-- The package of a withdrawn turn just before its phase ends: own traffic takes the active Chart, and the shadow slot is VALID again. -/
def Pkg.backOut (k : Pkg) : Pkg :=
  let k1 := (k.setStamp (epochBit k.chart.active)).setChart fun c => { c with bank2 := false, prepared := false }
  if k1.shadowState = 5 then (k1.purgeEpoch (epochBit k1.chart.shadow)).putShadow 3 else k1
theorem Pkg.endWithdrawn_eq (result : Nat) (k : Pkg) : k.endWithdrawn result = (k.backOut.endTurn result).setOwn (if k.ownState = 0 then 0 else 4) := rfl
theorem Pkg.stamped_shadowState (b : Bool) (f : ChartSt → ChartSt) (k : Pkg) : ((k.setStamp b).setChart f).shadowState = k.shadowState := by
  rw [Pkg.shadowState, Pkg.get_setChart, Pkg.setStamp, Pkg.get_flag_disjoint _ F.CHT_SLOT_STATUS_STAMP F.CHT_SLOT_STATUS_SHADOW_STATE _ (by decide) rfl (by decide)]
  rfl
theorem Pkg.backOut_valid {k : Pkg} (h : k.shadowState ≠ 5) :
    k.backOut = (k.setStamp (epochBit k.chart.active)).setChart fun c => { c with bank2 := false, prepared := false } := by
  unfold Pkg.backOut
  dsimp only
  rw [if_neg (by rw [Pkg.stamped_shadowState]; exact h)]
theorem Pkg.backOut_turning {k : Pkg} (h : k.shadowState = 5) : ∃ j : Pkg, k.backOut = j.putShadow 3 ∧
    ((k.setStamp (epochBit k.chart.active)).setChart fun c => { c with bank2 := false, prepared := false }).TurnKept j := by
  refine ⟨_, ?_, Pkg.purgeAll_kept .epoch (fun pk => pk.epoch == epochBit k.chart.shadow) _⟩
  unfold Pkg.backOut
  dsimp only
  rw [if_pos (by rw [Pkg.stamped_shadowState]; exact h)]
  rfl
theorem Pkg.backOut_chart (k : Pkg) : k.backOut.chart = { k.chart with bank2 := false, prepared := false } := by
  by_cases h : k.shadowState = 5
  · obtain ⟨j, hj, hk⟩ := Pkg.backOut_turning h
    rw [hj, Pkg.putShadow, Pkg.put_chart, hk.chart, Pkg.chart_setChart, Pkg.setStamp, Pkg.flag_chart]
  · rw [Pkg.backOut_valid h, Pkg.chart_setChart, Pkg.setStamp, Pkg.flag_chart]
theorem Pkg.backOut_rg {o : Nat} (ho : o ≠ R.CHT_SLOT_STATUS) (h0 : 0x20000 ≤ o) (h1 : o < 0x60000) (k : Pkg) : k.backOut.rg o = k.rg o := by
  by_cases h : k.shadowState = 5
  · obtain ⟨j, hj, hk⟩ := Pkg.backOut_turning h
    rw [hj, Pkg.putShadow, Pkg.rg_put_ne _ _ _ ho, hk.regs o h0 h1, Pkg.rg_setChart, Pkg.setStamp, Pkg.flag, Pkg.rg_put_ne _ _ _ ho]
  · rw [Pkg.backOut_valid h, Pkg.rg_setChart, Pkg.setStamp, Pkg.flag, Pkg.rg_put_ne _ _ _ ho]
theorem Pkg.backOut_stamp (k : Pkg) : k.backOut.stamp = epochBit k.chart.active := by
  by_cases h : k.shadowState = 5
  · obtain ⟨j, hj, hk⟩ := Pkg.backOut_turning h
    rw [hj, Pkg.putShadow, Pkg.stamp_of_get (Pkg.get_put_disjoint _ F.CHT_SLOT_STATUS_SHADOW_STATE _ _ (by decide) rfl (by decide)), hk.stamp]
    exact Pkg.stamp_setStamp ..
  · rw [Pkg.backOut_valid h]
    exact Pkg.stamp_setStamp ..
theorem Pkg.backOut_shadowState (k : Pkg) : k.backOut.shadowState = if k.shadowState = 5 then 3 else k.shadowState := by
  by_cases h : k.shadowState = 5
  · obtain ⟨j, hj, -⟩ := Pkg.backOut_turning h
    rw [if_pos h, hj]
    exact Pkg.get_put_same _ _ _ (by decide)
  · rw [if_neg h, Pkg.backOut_valid h, Pkg.stamped_shadowState]
theorem Pkg.backOut_dark (k : Pkg) : k.backOut.dark = k.dark := by
  by_cases h : k.shadowState = 5
  · obtain ⟨j, hj, hk⟩ := Pkg.backOut_turning h
    rw [hj]
    exact hk.dark
  · rw [Pkg.backOut_valid h]
    rfl
theorem Pkg.backOut_out (k : Pkg) : ∀ m ∈ k.out, m ∈ k.backOut.out := by
  by_cases h : k.shadowState = 5
  · obtain ⟨j, hj, hk⟩ := Pkg.backOut_turning h
    rw [hj]
    exact hk.out
  · rw [Pkg.backOut_valid h]
    exact fun _ hm => hm
theorem Pkg.endWithdrawn_undone {result : Nat} (hr : result < 8) (k : Pkg) : k.Undone (k.endWithdrawn result) result := by
  have hrg : ∀ o, o ≠ R.CHT_TURN_STATUS → (k.endWithdrawn result).rg o = k.backOut.rg o := fun o ho =>
    (Pkg.rg_put_ne _ _ _ ho).trans (Pkg.endTurn_rg _ _ ho)
  have hch : (k.endWithdrawn result).chart = (k.backOut.endTurn result).chart := rfl
  rw [Pkg.endTurn_chart, Pkg.backOut_chart] at hch
  refine ⟨?_, ?_, by rw [hch], by rw [hch], by rw [hch], ?_, ?_, ?_, ?_, by rw [hch], k.backOut_dark, k.backOut_out⟩
  · exact (Pkg.get_put_disjoint _ F.CHT_TURN_STATUS_OWN_STATE F.CHT_TURN_STATUS_PHASE _ (by decide) rfl (by decide)).trans (Pkg.endTurn_phase ..)
  · exact (Pkg.get_put_disjoint _ F.CHT_TURN_STATUS_OWN_STATE F.CHT_TURN_STATUS_RESULT _ (by decide) rfl (by decide)).trans (Pkg.endTurn_result hr _)
  · rw [Pkg.stamp_of_rg (hrg _ (by decide)), Pkg.backOut_stamp]
  · refine (Pkg.get_put_same _ F.CHT_TURN_STATUS_OWN_STATE _ (by decide)).trans ?_
    split <;> rfl
  · exact (Pkg.get_of_rg (f := F.CHT_SLOT_STATUS_SHADOW_STATE) (hrg _ (by decide))).trans (Pkg.backOut_shadowState k)
  · rw [hrg _ (by decide), Pkg.backOut_rg (by decide) (by decide) (by decide)]
/-- A turn that ends before the second bank was loaded sends nothing. -/
theorem Pkg.endWithdrawn_out {k : Pkg} (h : k.shadowState ≠ 5) (result : Nat) : (k.endWithdrawn result).out = k.out := by
  rw [Pkg.endWithdrawn_eq, Pkg.backOut_valid h]
  rfl

/-! ### Causes -/

theorem Pkg.turnCause_chart (c o : Nat) (k : Pkg) : (k.turnCause c o).chart = k.chart := rfl
theorem Pkg.turnCause_out (c o : Nat) (k : Pkg) : (k.turnCause c o).out = k.out := rfl
theorem Pkg.turnCause_rg (c o : Nat) (k : Pkg) {a : Nat} (h : a ≠ R.CHT_TURN_CAUSE) : (k.turnCause c o).rg a = k.rg a := by
  rw [Pkg.turnCause, Pkg.rg_put_ne _ _ _ h, Pkg.rg_put_ne _ _ _ h]
theorem Pkg.turnCause_get (c o : Nat) (k : Pkg) {f : Fld} (h : f.off ≠ R.CHT_TURN_CAUSE) : (k.turnCause c o).get f = k.get f :=
  Pkg.get_of_rg (k.turnCause_rg c o h)
theorem Pkg.turnCause_cause (c o : Nat) (k : Pkg) : (k.turnCause c o).get F.CHT_TURN_CAUSE_CAUSE = c % 16 := by
  rw [Pkg.turnCause]
  simp (disch := decide) only [Pkg.get_put_disjoint, Pkg.get_put_same]
  rfl
theorem Pkg.turnCause_region (c o : Nat) (k : Pkg) : (k.turnCause c o).get F.CHT_TURN_CAUSE_CAUSE_REGION = o % 256 := by
  rw [Pkg.turnCause, Pkg.get_put_same _ _ _ (by decide)]
  rfl

/-! ### The abort of a turn -/

section
variable {now o cause : Nat} {k : Pkg}

theorem Pkg.onAbort_ignored (h : k.chart.committed.contains o = true ∨ 4 ≤ k.phase) : k.onAbort now o cause = k :=
  if_pos (by simpa using h)
theorem Pkg.onAbort_acts (hc : k.chart.committed.contains o = false) (hp : k.phase < 4) : k.onAbort now o cause = k.withdrawAll now o cause :=
  if_neg (by simpa using ⟨by simpa using hc, hp⟩)
/-- The abort of a turn of which no region has entered. -/
theorem Pkg.withdrawAll_unentered (h : k.chart.entered = []) :
    k.withdrawAll now o cause = (k.turnCause cause o).endWithdrawn (if cause ≤ 5 ∨ cause = 11 then 3 else 2) := if_pos h
theorem Pkg.withdrawAll_entered (h : k.chart.entered ≠ []) : k.withdrawAll now o cause =
    (((k.turnCause cause o).putPhase 5).setChart fun c => { c with wdSeq := o :: (k.chart.entered.reverse.filter (· ≠ o)) }).beginWithdraw now :=
  if_neg h
end

/-! ### The commit of a region -/

section
variable {now o : Nat} {tr : Option Nat} {k : Pkg}

theorem Pkg.onCommit_other (hp : k.phase = 3) (hc : k.chart.committed.contains o = false) (ho : k.ownRegion ≠ o) (hf : k.chart.fleet.isSome = false) :
    k.onCommit now o tr =
      if k.lastOfTurn o then ((k.setChart fun c => { c with committed := c.committed ++ [o] }).putPhase 4).setChart fun c => { c with tr := tr }
      else (k.setChart fun c => { c with committed := c.committed ++ [o] }).enterRegion now (o + 1) := by
  have hn : ¬ (k.phase ≠ 3 ∨ k.chart.committed.contains o = true) := by simpa [hp] using hc
  have hown : ¬ ((k.setChart fun c => { c with committed := c.committed ++ [o] }).ownRegion = o ∧
      (k.setChart fun c => { c with committed := c.committed ++ [o] }).ownState = 1) := fun h => ho h.1
  unfold Pkg.onCommit
  rw [if_neg hn]
  dsimp only
  rw [if_neg hown, if_neg (by rw [Pkg.chart_setChart, hf]; exact Bool.false_ne_true)]
  rfl
/-- A region enters at a package. -/
theorem Pkg.enterRegion_spec (now o : Nat) (k : Pkg) : (k.enterRegion now o).phase = 3 ∧ (k.enterRegion now o).curRegion = o % 256 ∧
    (k.enterRegion now o).chart.entered = k.chart.entered ++ [o] ∧ (k.enterRegion now o).chart.committed = k.chart.committed ∧
    (k.enterRegion now o).out = k.out ∧
    (k.ownRegion = o → k.ownState = 0 → (k.enterRegion now o).ownState = 1 ∧ (k.enterRegion now o).stamp = epochBit k.chart.shadow ∧
      (k.enterRegion now o).chart.entryAt = k.time now) ∧
    (k.ownRegion ≠ o → (k.enterRegion now o).ownState = k.ownState ∧ (k.enterRegion now o).stamp = k.stamp) := by
  have hr : (((k.putPhase 3).put F.CHT_TURN_STATUS_CUR_REGION o).setChart fun c => { c with entered := c.entered ++ [o] }).ownRegion = k.ownRegion := by
    rw [Pkg.ownRegion, Pkg.get_setChart, Pkg.putPhase]
    simp (disch := decide) only [Pkg.get_put_disjoint]
    rfl
  have hs : (((k.putPhase 3).put F.CHT_TURN_STATUS_CUR_REGION o).setChart fun c => { c with entered := c.entered ++ [o] }).ownState = k.ownState := by
    rw [Pkg.ownState, Pkg.get_setChart, Pkg.putPhase]
    simp (disch := decide) only [Pkg.get_put_disjoint]
    rfl
  unfold Pkg.enterRegion
  dsimp only
  rw [hr, hs]
  split
  next h =>
    refine ⟨?_, ?_, rfl, rfl, rfl, fun _ _ => ⟨?_, ?_, rfl⟩, fun hn => absurd h.1 hn⟩
    · unfold Pkg.phase Pkg.setOwn Pkg.setStamp Pkg.flag Pkg.putPhase
      simp (disch := decide) only [Pkg.get_setChart, Pkg.get_put_reg_ne, Pkg.get_put_disjoint, Pkg.get_put_same]
      rfl
    · unfold Pkg.curRegion Pkg.setOwn Pkg.setStamp Pkg.flag Pkg.putPhase
      simp (disch := decide) only [Pkg.get_setChart, Pkg.get_put_reg_ne, Pkg.get_put_disjoint, Pkg.get_put_same]
      rfl
    · unfold Pkg.ownState Pkg.setOwn Pkg.setStamp Pkg.flag Pkg.putPhase
      simp (disch := decide) only [Pkg.get_setChart, Pkg.get_put_reg_ne, Pkg.get_put_same]
      rfl
    · exact (Pkg.stamp_of_get (Pkg.get_setChart ..)).trans (Pkg.stamp_setStamp ..)
  next h =>
    refine ⟨?_, ?_, rfl, rfl, rfl, fun h1 h2 => absurd ⟨h1, h2⟩ h, fun _ => ⟨hs, ?_⟩⟩
    · unfold Pkg.phase Pkg.putPhase
      simp (disch := decide) only [Pkg.get_setChart, Pkg.get_put_disjoint, Pkg.get_put_same]
      rfl
    · unfold Pkg.curRegion Pkg.putPhase
      simp (disch := decide) only [Pkg.get_setChart, Pkg.get_put_same]
      rfl
    · refine Pkg.stamp_of_get ?_
      unfold Pkg.putPhase
      simp (disch := decide) only [Pkg.get_setChart, Pkg.get_put_reg_ne]
end

/-! ### The obligation -/

section
variable {s : State} {p : PkgId} (h : (s.pkg p).chartOff = false) (m : TurnMsg)
include h
theorem exec_turnCommit : exec (.turnCommit p m) s = .next (s.setPkg p ((s.pkg p).takeCommit s.now m)) := chartPkg_on _ h
theorem exec_turnAbort : exec (.turnAbort p m) s = .next (s.setPkg p ((s.pkg p).takeAbort s.now m)) := chartPkg_on _ h
end

/-- A TURN_ABORT of a rack's turn acts on its region. -/
theorem Pkg.takeAbort_rack {now : Nat} {m : TurnMsg} {k : Pkg} (hs : k.chart.seen.contains (mAbort, m) = false) (hm : k.ofTurn m = true)
    (hr : k.chart.fleet = none ∨ m.cause ≠ 9 ∨ k.phase ≠ 3) :
    k.takeAbort now m = (k.wakeForChart.sendFlood mAbort m).onAbort now m.order.toNat m.cause.toNat := by
  rw [Pkg.takeAbort, Pkg.takeFlood_acts _ hs hm, if_neg]
  rintro ⟨hf, hc, hp⟩
  rw [Pkg.relayed_chart] at hf
  rw [Pkg.phase, k.relayed_get _ _ (by decide) (by decide)] at hp
  obtain hr | hr | hr := hr
  · rw [hr] at hf
    exact Bool.false_ne_true hf
  · exact hr hc
  · exact hr hp

/-- Settles O22: a flood is relayed once, and acts on what `TurnKept` says that the relay left as it was. -/
theorem turnFloods : Obligations.TurnFloods := by
  unfold Obligations.TurnFloods
  intro s p m hon
  dsimp only
  rw [exec_turnCommit hon, exec_turnAbort hon]
  generalize s.pkg p = k
  have hphase : ∀ kind, (k.wakeForChart.sendFlood kind m).phase = k.phase := fun _ => k.relayed_get _ _ (by decide) (by decide)
  have hown : ∀ kind, (k.wakeForChart.sendFlood kind m).ownRegion = k.ownRegion := fun _ => k.relayed_get _ _ (by decide) (by decide)
  have hlast : ∀ kind o, (k.wakeForChart.sendFlood kind m).lastOfTurn o = k.lastOfTurn o := fun kind o => by
    rw [Pkg.lastOfTurn, Pkg.relayed_chart, ← Pkg.lastOfTurn]
  refine ⟨fun hs => ?_, fun hs => ?_, fun hs hu hm => ?_, rfl, fun hs hm hp hc ho => ⟨fun hl => ?_, fun hl hf => ?_⟩, fun hs hu hm => ?_,
    fun hs hm hr hc hp he h5 => ?_⟩
  · rw [Pkg.takeCommit, Pkg.takeFlood_seen _ hs]
  · rw [Pkg.takeAbort, Pkg.takeFlood_seen _ hs]
  · rw [Pkg.takeCommit, Pkg.takeFlood_relayed _ hs hm, Pkg.wakeForChart_up hu]
  · have hf : k.chart.fleet.isSome = false := by
      rw [Pkg.lastOfTurn, Bool.and_eq_true, Option.isNone_iff_eq_none] at hl
      rw [hl.1]
      rfl
    refine ⟨_, congrArg (fun j => Host.Outcome.next (s.setPkg p j)) ((Pkg.takeFlood_acts _ hs hm).trans ((Pkg.onCommit_other
      ((hphase _).trans hp) (by rw [Pkg.relayed_chart]; exact hc) (by rw [hown]; exact ho) (by rw [Pkg.relayed_chart]; exact hf)).trans
      (if_pos (by rw [hlast]; exact hl)))), ?_, rfl, ?_, Pkg.relayed_out ..⟩
    · rw [Pkg.phase, Pkg.get_setChart]
      exact Pkg.get_put_same _ _ _ (by decide)
    · rw [Pkg.chart_setChart, Pkg.putPhase, Pkg.put_chart, Pkg.chart_setChart, Pkg.relayed_chart]
  · have hf' : k.chart.fleet.isSome = false := by rw [hf]; rfl
    obtain ⟨h1, h2, h3, h4, h5, -⟩ := Pkg.enterRegion_spec s.now (m.order.toNat + 1)
      ((k.wakeForChart.sendFlood mCommit m).setChart fun c => { c with committed := c.committed ++ [m.order.toNat] })
    refine ⟨_, congrArg (fun j => Host.Outcome.next (s.setPkg p j)) ((Pkg.takeFlood_acts _ hs hm).trans ((Pkg.onCommit_other
      ((hphase _).trans hp) (by rw [Pkg.relayed_chart]; exact hc) (by rw [hown]; exact ho) (by rw [Pkg.relayed_chart]; exact hf')).trans
      (if_neg (by rw [hlast, hl]; exact Bool.false_ne_true)))), h1, h2, ?_, ?_, ?_⟩
    · rw [h3, Pkg.chart_setChart, Pkg.relayed_chart]
    · rw [h4, Pkg.chart_setChart, Pkg.relayed_chart]
    · rw [h5, Pkg.out_setChart, Pkg.relayed_out]
  · obtain hm | ⟨hr, hc⟩ := hm
    · rw [Pkg.takeAbort, Pkg.takeFlood_relayed _ hs hm, Pkg.wakeForChart_up hu]
    · by_cases hm : k.ofTurn m = true
      · rw [Pkg.takeAbort_rack hs hm hr, Pkg.onAbort_ignored (by rw [Pkg.relayed_chart, hphase]; exact hc), Pkg.wakeForChart_up hu]
      · rw [Pkg.takeAbort, Pkg.takeFlood_relayed _ hs (Bool.eq_false_iff.2 hm), Pkg.wakeForChart_up hu]
  · have hj : k.takeAbort s.now m = ((k.wakeForChart.sendFlood mAbort m).turnCause m.cause.toNat m.order.toNat).endWithdrawn
        (if m.cause.toNat ≤ 5 ∨ m.cause.toNat = 11 then 3 else 2) := by
      rw [Pkg.takeAbort_rack hs hm hr, Pkg.onAbort_acts (by rw [Pkg.relayed_chart]; exact hc) (by rw [hphase]; exact hp),
        Pkg.withdrawAll_unentered (by rw [Pkg.relayed_chart]; exact he)]
    have hu := ((k.wakeForChart.sendFlood mAbort m).turnCause m.cause.toNat m.order.toNat).endWithdrawn_undone
      (result := if m.cause.toNat ≤ 5 ∨ m.cause.toNat = 11 then 3 else 2) (by split <;> decide)
    have hshadow : ((k.wakeForChart.sendFlood mAbort m).turnCause m.cause.toNat m.order.toNat).shadowState ≠ 5 := by
      rw [Pkg.shadowState, Pkg.turnCause_get _ _ _ (by decide), k.relayed_get _ _ (by decide) (by decide)]
      exact h5
    have hchart : ((k.wakeForChart.sendFlood mAbort m).turnCause m.cause.toNat m.order.toNat).chart =
        { k.chart with seen := k.chart.seen ++ [(mAbort, m)] } := k.relayed_chart _ _
    refine ⟨_, congrArg (fun j => Host.Outcome.next (s.setPkg p j)) hj, hu.phase, ?_, ?_, ?_, hu.bank2, ?_, ?_⟩
    · rw [Pkg.get_of_rg (f := F.CHT_TURN_CAUSE_CAUSE) hu.cause, Pkg.turnCause_cause]
      exact Nat.mod_eq_of_lt m.cause.isLt
    · rw [Pkg.get_of_rg (f := F.CHT_TURN_CAUSE_CAUSE_REGION) hu.cause, Pkg.turnCause_region]
      exact Nat.mod_eq_of_lt m.order.isLt
    · rw [hu.stamp, hchart]
    · rw [hu.active, hchart]
    · rw [Pkg.endWithdrawn_out hshadow, Pkg.turnCause_out, Pkg.relayed_out]

end Sys2Proof.Machine
end

section
/-! PROOF. The start of a turn (R122, R123, R125, R126, R370). -/
namespace Sys2Proof.Machine
open Sys2Proof

/-! ### A write that stores nothing -/

theorem Pkg.storeFields_same {d : RegDesc} (hr : d.rw = 0) (hc : d.w1c = 0) (off : Nat) (w : Word) (k : Pkg) : SamePkg k (k.storeFields d off w) := by
  refine ⟨rfl, fun o => ?_⟩
  unfold Pkg.storeFields
  dsimp only
  by_cases ho : o = off
  · subst ho
    rw [Pkg.rg_setRg_same, hr, hc]
    rw [BitVec.and_zero, BitVec.or_zero, BitVec.not_zero, BitVec.and_allOnes, BitVec.and_allOnes]
  · exact Pkg.rg_setRg_ne _ _ ho

section
variable {j k : Pkg} (h : SamePkg j k)
include h
theorem SamePkg.kept : j.TurnKept k := ⟨by rw [h.1], by rw [h.1], by rw [h.1], by rw [h.1], h.2 _, fun o _ _ => h.2 o, fun m hm => by rw [h.1]; exact hm⟩
theorem SamePkg.rt : k.rt = j.rt := by rw [h.1]
theorem SamePkg.dark : k.dark = j.dark := by rw [h.1]
theorem SamePkg.get (f : Fld) : k.get f = j.get f := Pkg.get_of_rg (h.2 _)
theorem SamePkg.wide (off : Nat) : k.wide off = j.wide off := Pkg.wide_of_rg (h.2 _) (h.2 _)
theorem SamePkg.floodPorts : k.floodPorts = j.floodPorts := Pkg.floodPorts_of h.kept.idx h.rt
theorem SamePkg.activePorts : k.activePorts = j.activePorts := by rw [Pkg.activePorts, h.rt, ← Pkg.activePorts]
theorem SamePkg.turning : k.turning = j.turning := by rw [Pkg.turning, h.kept.phase, ← Pkg.turning]
end

theorem SamePkg.chartOff {j k : Pkg} (h : SamePkg j k) : k.chartOff = j.chartOff := by
  unfold Pkg.chartOff Pkg.unitState Pkg.quarBit Pkg.unit Pkg.pkgDark
  rw [h.dark, h.2, h.1]
theorem SamePkg.goRefusal {j k : Pkg} (h : SamePkg j k) (now : Nat) : k.goRefusal now = j.goRefusal now := by
  unfold Pkg.goRefusal
  rw [h.kept.chart, h.wide, h.2, h.2, h.turning, h.kept.time, h.kept.shadowState, h.activePorts]

/-! ### GO -/

section
variable {k : Pkg} {now : Nat}

/-- A GO carries the T0 and the epoch of the turn ordered last. -/
def Pkg.goSame (k : Pkg) : Prop := k.chart.goT0 = k.wide R.CHT_TURN_AT_LO ∧ k.chart.goEpoch = k.rg R.CHT_TURN_EPOCH
/-- A GO that repeats the order of the turn in progress, lease and all. -/
def Pkg.goRepeats (k : Pkg) : Prop := k.turning = true ∧ k.goSame ∧ k.chart.goLease.toNat = (k.rg R.CHT_TURN_LEASE).toNat

theorem Pkg.go_repeated (h : k.goRepeats) : k.go now = k := by
  obtain ⟨ht, ⟨h0, he⟩, hl⟩ := h
  unfold Pkg.go
  dsimp only
  split
  · rfl
  · rw [if_pos (by simp [ht, h0, he, hl])]
theorem Pkg.not_goRepeats (h : ¬ k.goRepeats) : ¬ ((k.turning && (decide (k.chart.goT0 = k.wide R.CHT_TURN_AT_LO) &&
    decide (k.chart.goEpoch = k.rg R.CHT_TURN_EPOCH)) && decide (k.chart.goLease.toNat = (k.rg R.CHT_TURN_LEASE).toNat)) = true) := by
  simpa [Pkg.goRepeats, Pkg.goSame] using h

/-- The TURN_ABORT that a refused GO floods: for the order it carries. -/
def Pkg.goAbort (cause : Nat) (k : Pkg) : TurnMsg := { k.turnMsg 0 cause none with epoch := k.rg R.CHT_TURN_EPOCH, t0 := k.wide R.CHT_TURN_AT_LO }
/-- The registers after a refusal. -/
def Pkg.goRefused (cause : Nat) (k : Pkg) : Pkg := if k.turning then k.turnCause cause 0 else (k.turnCause cause 0).put F.CHT_TURN_STATUS_RESULT 3
theorem Pkg.go_refused {cause : Nat} (hoff : k.chartOff = false) (hn : ¬ k.goRepeats) (hr : k.goRefusal now = some cause) :
    k.go now = if cause = 1 ∨ cause = 11 then k.goRefused cause
      else if k.turning && (decide (k.chart.goT0 = k.wide R.CHT_TURN_AT_LO) && decide (k.chart.goEpoch = k.rg R.CHT_TURN_EPOCH)) then
        ((k.goRefused cause).sendFlood mAbort { (k.goRefused cause).turnMsg 0 cause none with
          epoch := k.rg R.CHT_TURN_EPOCH, t0 := k.wide R.CHT_TURN_AT_LO }).onAbort now 0 cause
      else (k.goRefused cause).sendFlood mAbort { (k.goRefused cause).turnMsg 0 cause none with
          epoch := k.rg R.CHT_TURN_EPOCH, t0 := k.wide R.CHT_TURN_AT_LO } := by
  unfold Pkg.go
  dsimp only
  rw [if_neg (by rw [hoff]; exact Bool.false_ne_true), if_neg (Pkg.not_goRepeats hn), hr]
  rfl
theorem Pkg.go_accepted (hoff : k.chartOff = false) (hn : ¬ k.goRepeats) (hr : k.goRefusal now = none) :
    k.go now = ((k.putPhase 1).setOwn 0).setChart fun c =>
      { c with leaseMax := max c.leaseMax (k.rg R.CHT_TURN_LEASE).toNat, goT0 := k.wide R.CHT_TURN_AT_LO, goEpoch := k.rg R.CHT_TURN_EPOCH,
               goLease := k.rg R.CHT_TURN_LEASE, entered := [], committed := [], wdSeq := [], drainedFrom := [], withdrawnFrom := [], tr := none,
               seen := if decide (k.chart.goT0 = k.wide R.CHT_TURN_AT_LO) && decide (k.chart.goEpoch = k.rg R.CHT_TURN_EPOCH) then [] else c.seen } := by
  unfold Pkg.go
  dsimp only
  rw [if_neg (by rw [hoff]; exact Bool.false_ne_true), if_neg (Pkg.not_goRepeats hn), hr]

theorem Pkg.goRefused_chart (cause : Nat) : (k.goRefused cause).chart = k.chart := by
  unfold Pkg.goRefused
  split <;> rfl
theorem Pkg.goRefused_floodPorts (cause : Nat) : (k.goRefused cause).floodPorts = k.floodPorts := by
  unfold Pkg.goRefused
  split
  · exact Pkg.floodPorts_of (congrArg addrIndex (Pkg.turnCause_get (f := F.AON_PKG_ADDR_ADDR) _ _ _ (by decide))) rfl
  · exact Pkg.floodPorts_of (congrArg addrIndex ((Pkg.get_put_reg_ne _ _ F.AON_PKG_ADDR_ADDR _ (by decide)).trans
      (Pkg.turnCause_get _ _ _ (by decide)))) rfl
theorem Pkg.goRefused_spec {cause : Nat} (hc : cause < 16) : (k.goRefused cause).get F.CHT_TURN_CAUSE_CAUSE = cause ∧
    (k.goRefused cause).phase = k.phase ∧ (k.turning = false → (k.goRefused cause).get F.CHT_TURN_STATUS_RESULT = 3) := by
  have hcause : (k.turnCause cause 0).get F.CHT_TURN_CAUSE_CAUSE = cause := (k.turnCause_cause cause 0).trans (Nat.mod_eq_of_lt hc)
  have hphase : (k.turnCause cause 0).phase = k.phase := k.turnCause_get cause 0 (by decide)
  unfold Pkg.goRefused
  split
  next ht => exact ⟨hcause, hphase, fun hf => absurd (ht.symm.trans hf) (by decide)⟩
  next ht =>
    refine ⟨(Pkg.get_put_reg_ne _ _ _ _ (by decide)).trans hcause, ?_, fun _ => Pkg.get_put_same _ _ _ (by decide)⟩
    exact (Pkg.get_put_disjoint _ F.CHT_TURN_STATUS_RESULT F.CHT_TURN_STATUS_PHASE _ (by decide) rfl (by decide)).trans hphase
theorem Pkg.goRefused_dark (cause : Nat) : (k.goRefused cause).dark = k.dark := by
  unfold Pkg.goRefused
  split <;> rfl
/-- A GO was refused with a cause, and the turn in progress goes on. -/
def Pkg.RefusedGo (k j : Pkg) (cause : Nat) : Prop :=
  (cause ≠ 1 → cause ≠ 11 → ∃ m, Msg.flood mAbort m k.floodPorts ∈ j.out ∧ m.epoch = k.rg R.CHT_TURN_EPOCH ∧
    m.t0 = k.wide R.CHT_TURN_AT_LO ∧ m.cause.toNat = cause) ∧
  j.get F.CHT_TURN_CAUSE_CAUSE = cause ∧ j.phase = k.phase ∧ (k.turning = false → j.get F.CHT_TURN_STATUS_RESULT = 3) ∧
  j.chart.active = k.chart.active ∧ j.chart.shadow = k.chart.shadow ∧ j.chart.leaseMax = k.chart.leaseMax
/-- What a refused GO leaves where it does not end the turn in progress. -/
theorem Pkg.go_refusal {cause : Nat} (hoff : k.chartOff = false) (hn : ¬ k.goRepeats) (hr : k.goRefusal now = some cause) (hc : cause < 16)
    (hs : cause = 1 ∨ cause = 11 ∨ ¬ (k.turning = true ∧ k.goSame)) :
    (k.go now).dark = k.dark ∧ k.RefusedGo (k.go now) cause := by
  unfold Pkg.RefusedGo
  obtain ⟨h1, h2, h3⟩ := k.goRefused_spec hc
  rw [Pkg.go_refused hoff hn hr]
  split
  next hq =>
    rw [k.goRefused_chart cause]
    exact ⟨k.goRefused_dark _, fun ha hb => absurd hq (by simp [ha, hb]), h1, h2, h3, rfl, rfl, rfl⟩
  next hq =>
    obtain ⟨hq1, hq11⟩ := not_or.1 hq
    have hns : ¬ (k.turning && (decide (k.chart.goT0 = k.wide R.CHT_TURN_AT_LO) && decide (k.chart.goEpoch = k.rg R.CHT_TURN_EPOCH))) = true := by
      simpa [hq1, hq11, Pkg.goSame] using hs
    rw [if_neg hns, Pkg.sendFlood_chart, k.goRefused_chart cause]
    rw [Pkg.sendFlood_out, k.goRefused_floodPorts]
    exact ⟨k.goRefused_dark _, fun _ _ => ⟨_, List.mem_append_right _ (List.mem_singleton.2 rfl), rfl, rfl, Nat.mod_eq_of_lt hc⟩, h1, h2, h3, rfl, rfl, rfl⟩
/-- A GO under another lease for the turn in progress ends it (log 30). -/
theorem Pkg.go_ends (hoff : k.chartOff = false) (hn : ¬ k.goRepeats) (hr : k.goRefusal now = some 5) (hp : k.phase = 1) (hs : k.goSame)
    (he : k.chart.entered = []) (hc : k.chart.committed = []) : ∃ j : Pkg, j.chart.active = k.chart.active ∧ j.dark = k.dark ∧
      j.Undone (k.go now) 3 ∧ j.get F.CHT_TURN_CAUSE_CAUSE = 5 := by
  have ht : k.turning = true := by rw [Pkg.turning, hp]; rfl
  have hphase : (k.goRefused 5).phase = 1 := ((k.goRefused_spec (by decide)).2.1).trans hp
  refine ⟨((k.goRefused 5).sendFlood mAbort { (k.goRefused 5).turnMsg 0 5 none with
    epoch := k.rg R.CHT_TURN_EPOCH, t0 := k.wide R.CHT_TURN_AT_LO }).turnCause 5 0, ?_, ?_, ?_, Pkg.turnCause_cause ..⟩
  · rw [Pkg.turnCause_chart, Pkg.sendFlood_chart, k.goRefused_chart]
  · unfold Pkg.goRefused
    split <;> rfl
  · rw [Pkg.go_refused hoff hn hr, if_neg (by decide), if_pos (by simp [ht, hs.1, hs.2]), Pkg.onAbort_acts, Pkg.withdrawAll_unentered]
    · exact Pkg.endWithdrawn_undone (by decide) _
    · rw [Pkg.sendFlood_chart, k.goRefused_chart, he]
    · rw [Pkg.sendFlood_chart, k.goRefused_chart, hc]
      rfl
    · rw [Pkg.phase, Pkg.get_sendFlood, ← Pkg.phase, hphase]
      decide
end

section
variable {s : State} {p : PkgId} {who : Requester} (ho : Open s p who R.CHT_TURN_CTRL)
include ho

/-- The description of CHT_TURN_CTRL. -/
def turnCtrlDesc : RegDesc := ⟨"CHT_TURN_CTRL", 0x20040, 1, 0x0, 1, 0x0, 0x0, 0x0, 0x0, 0x0, 0x3, 0, 1⟩
omit ho in
theorem busWrite_CHT_TURN_CTRL (x : Bus) (w : Word) (m : Mem) (k : Pkg) : busWrite x turnCtrlDesc R.CHT_TURN_CTRL w m k =
    (m, (k.storeFields turnCtrlDesc R.CHT_TURN_CTRL w).turnCtrl x.now (bit w.toNat 0) (bit w.toNat 1)) := by
  have hi : k.ignores x turnCtrlDesc R.CHT_TURN_CTRL w.toNat = false := rfl
  have hr : k.rejects turnCtrlDesc.base w.toNat = false := rfl
  unfold busWrite busAct
  dsimp only
  rw [hi, hr]
  rfl
omit ho in
/-- A write of CHT_TURN_CTRL stores nothing. -/
theorem Pkg.turnStored (w : Word) (k : Pkg) : SamePkg k (k.storeFields turnCtrlDesc R.CHT_TURN_CTRL w) := Pkg.storeFields_same rfl rfl _ _ _
theorem exec_CHT_TURN_CTRL {i : Instr} {w : Word} {j : Pkg} (hi : busOpOf i = some (p, writeOp who R.CHT_TURN_CTRL w))
    (hx : exec i s = busAccess i s)
    (hj : ((s.pkg p).storeFields turnCtrlDesc R.CHT_TURN_CTRL w).turnCtrl s.now (bit w.toNat 0) (bit w.toNat 1) = j)
    (hd : j.pkgDark = (s.pkg p).pkgDark) : exec i s = .next (s.wrote p who R.CHT_TURN_CTRL s.mem j) := by
  rw [hx]
  exact busAccess_writes (d := turnCtrlDesc) hi ho findReg_CHT_TURN_CTRL (by decide) (by decide)
    ((busWrite_CHT_TURN_CTRL ..).trans (congrArg _ hj)) hd
theorem exec_go : ∃ i : Pkg, SamePkg (s.pkg p) i ∧
    ((i.go s.now).dark = i.dark → exec (.go p who) s = .next (s.wrote p who R.CHT_TURN_CTRL s.mem (i.go s.now))) :=
  ⟨_, (s.pkg p).turnStored 1, fun hd => exec_CHT_TURN_CTRL ho rfl rfl rfl (by
    rw [Pkg.pkgDark, hd, ((s.pkg p).turnStored 1).dark, ← Pkg.pkgDark])⟩
end

section
variable {k : Pkg} {now : Nat}

theorem Pkg.goRefusal_stale (h : (k.rg R.CHT_TURN_LEASE).toNat < k.chart.leaseMax) : k.goRefusal now = some 1 := if_pos h
variable (hl : k.chart.leaseMax ≤ (k.rg R.CHT_TURN_LEASE).toNat)
include hl
theorem Pkg.goRefusal_turning (h : k.turning = true) : k.goRefusal now = some 5 := by
  unfold Pkg.goRefusal
  dsimp only
  rw [if_neg (Nat.not_lt.2 hl), if_pos h]
variable (ht : k.turning = false)
include ht
theorem Pkg.goRefusal_late (h : k.wide R.CHT_TURN_AT_LO < k.time now + 10000000) : k.goRefusal now = some 4 := by
  unfold Pkg.goRefusal
  dsimp only
  rw [if_neg (Nat.not_lt.2 hl), if_neg (by rw [ht]; exact Bool.false_ne_true), if_pos h]
variable (h0 : k.time now + 10000000 ≤ k.wide R.CHT_TURN_AT_LO)
include h0
theorem Pkg.goRefusal_epoch (hs : k.shadowState = 3) (he : chEpoch k.chart.shadow ≠ (k.rg R.CHT_TURN_EPOCH).toNat) : k.goRefusal now = some 2 := by
  unfold Pkg.goRefusal
  dsimp only
  rw [if_neg (Nat.not_lt.2 hl), if_neg (by rw [ht]; exact Bool.false_ne_true), if_neg (Nat.not_lt.2 h0), if_pos ⟨hs, he⟩]
theorem Pkg.goRefusal_inTime (he : k.shadowState = 3 → chEpoch k.chart.shadow = (k.rg R.CHT_TURN_EPOCH).toNat) : k.goRefusal now =
    if (k.chart.active.isEmpty = true ∨ (k.chart.shadow ≠ [] ∧ chScope k.chart.shadow = 0)) ∧ k.activePorts ≠ [] then some 11 else none := by
  unfold Pkg.goRefusal
  dsimp only
  rw [if_neg (Nat.not_lt.2 hl), if_neg (by rw [ht]; exact Bool.false_ne_true), if_neg (Nat.not_lt.2 h0), if_neg (fun h => h.2 (he h.1))]
  simp
end

/-! ### The swap of the slots -/

theorem Pkg.putStatus_kept (u v : Nat) {f : Fld} (hf : f.off = R.CSU_STATUS u) (k : Pkg) : k.TurnKept (k.put f v) :=
  .put k v (by rw [hf, R.CSU_STATUS]; omega) (.inr (by rw [hf, R.CSU_STATUS]; omega))
theorem Pkg.csuStatus_kept (u state code : Nat) (k : Pkg) : k.TurnKept (k.csuStatus u state code) :=
  ((k.putStatus_kept u state rfl).trans (Pkg.putStatus_kept u code rfl _)).trans (Pkg.putStatus_kept u _ rfl _)
theorem Pkg.emit_kept (m : Msg) (k : Pkg) : k.TurnKept (k.emit m) := .of_regs rfl rfl rfl rfl rfl fun _ h => List.mem_append_left _ h
theorem Pkg.csuEnd_kept (u state code : Nat) (k : Pkg) : k.TurnKept (k.csuEnd u state code) := by
  rw [Pkg.csuEnd_eq]
  exact .ite ((k.csuStatus_kept u state code).trans (Pkg.emit_kept ..)) (k.csuStatus_kept u state code)
theorem Pkg.csuStop_kept (code : Nat) (f : Scanning → Bool) (k : Pkg) : k.TurnKept (k.csuStop code f) :=
  .foldl (fun k u => .ite (k.csuEnd_kept u 4 code) (.refl k)) _ _
/-- The shadow slot is emptied, and with it any load. -/
theorem Pkg.emptyShadow_spec (k : Pkg) :
    k.emptyShadow.chart = { k.chart with shadow := [], loadPort := false, loadDma := false } ∧ k.emptyShadow.shadowState = 0 ∧
    k.emptyShadow.rg R.CHT_SHADOW_EPOCH = 0 ∧ k.emptyShadow.stamp = k.stamp ∧ k.emptyShadow.dark = k.dark ∧ k.emptyShadow.mem = k.mem ∧
    ∀ o, 0x20000 ≤ o → o < 0x60000 → o ≠ R.CHT_SLOT_STATUS → o ≠ R.CHT_SHADOW_EPOCH → k.emptyShadow.rg o = k.rg o := by
  have h : (((k.setChart fun c => { c with shadow := [], loadPort := false, loadDma := false }).putShadow 0).setRg R.CHT_SHADOW_EPOCH 0).TurnKept
      k.emptyShadow := Pkg.csuStop_kept ..
  refine ⟨h.chart, h.shadowState.trans ?_, (h.regs _ (by decide) (by decide)).trans (Pkg.rg_setRg_same ..), h.stamp.trans ?_, h.dark, h.mem,
    fun o h0 h1 hs he => (h.regs o h0 h1).trans ?_⟩
  · exact (Pkg.get_of_rg (Pkg.rg_setRg_ne _ _ (by decide))).trans (Pkg.get_put_same _ F.CHT_SLOT_STATUS_SHADOW_STATE _ (by decide))
  · refine Pkg.stamp_of_get ((Pkg.get_of_rg (Pkg.rg_setRg_ne _ _ (by decide))).trans ?_)
    exact Pkg.get_put_disjoint _ F.CHT_SLOT_STATUS_SHADOW_STATE F.CHT_SLOT_STATUS_STAMP _ (by decide) rfl (by decide)
  · rw [Pkg.rg_setRg_ne _ _ he, Pkg.putShadow, Pkg.rg_put_ne _ _ _ hs, Pkg.rg_setChart]
theorem Pkg.freshTrees_kept (old new : List Byte) (k : Pkg) : k.TurnKept (k.freshTrees old new) := .of_regs rfl rfl rfl rfl rfl fun _ h => h
/-- The shadow image is the active one once the slots have swapped. -/
theorem Pkg.swapSlots_spec (k : Pkg) : k.swapSlots.chart.active = k.chart.shadow ∧ k.swapSlots.chart.shadow = [] ∧
    k.swapSlots.chart.bank2 = false ∧ k.swapSlots.shadowState = 0 ∧
    k.swapSlots.rg R.CHT_ACTIVE_EPOCH = BitVec.ofNat 32 (chEpoch k.chart.shadow) ∧
    k.swapSlots.get F.CHT_SLOT_STATUS_ACTIVE_STATE = if chSafe k.chart.shadow then 1 else 2 := by
  have hk : k.TurnKept ((k.freshTrees k.chart.active k.chart.shadow).csuStop 4 (fun x => x.space = 2)) :=
    (k.freshTrees_kept ..).trans (Pkg.csuStop_kept ..)
  unfold Pkg.swapSlots
  dsimp only
  generalize (k.freshTrees k.chart.active k.chart.shadow).csuStop 4 (fun x => x.space = 2) = k1 at hk
  obtain ⟨hc, hs, -⟩ := Pkg.emptyShadow_spec (k1.setChart fun c =>
    { c with active := k.chart.shadow, bank2 := false, prepared := false, tr := none })
  generalize (k1.setChart fun c => { c with active := k.chart.shadow, bank2 := false, prepared := false, tr := none }).emptyShadow = k2 at hc hs
  rw [Pkg.chart_setChart] at hc
  unfold Pkg.setStamp
  rw [Pkg.flag_chart, Pkg.put_chart, Pkg.setRg_chart, hc]
  refine ⟨rfl, rfl, rfl, ?_, ?_, ?_⟩
  · rw [Pkg.shadowState, Pkg.get_flag_disjoint _ F.CHT_SLOT_STATUS_STAMP F.CHT_SLOT_STATUS_SHADOW_STATE _ (by decide) rfl (by decide),
      Pkg.get_put_disjoint _ F.CHT_SLOT_STATUS_ACTIVE_STATE F.CHT_SLOT_STATUS_SHADOW_STATE _ (by decide) rfl (by decide),
      Pkg.get_of_rg (Pkg.rg_setRg_ne _ _ (by decide)), ← Pkg.shadowState, hs]
  · rw [Pkg.flag, Pkg.rg_put_ne _ _ _ (by decide), Pkg.rg_put_ne _ _ _ (by decide), Pkg.rg_setRg_same]
  · rw [Pkg.get_flag_disjoint _ F.CHT_SLOT_STATUS_STAMP F.CHT_SLOT_STATUS_ACTIVE_STATE _ (by decide) rfl (by decide),
      Pkg.get_put_same _ _ _ (by decide)]
    split <;> rfl

/-! ### Preparation -/

/-- The abort, by the package itself, of a turn of which no region has entered. -/
theorem Pkg.abortTurn_unentered {now o cause : Nat} {k : Pkg} (hc : k.chart.committed = []) (he : k.chart.entered = []) (hp : k.phase = 1) :
    ∃ j : Pkg, j.chart.active = k.chart.active ∧ j.chart.shadow = k.chart.shadow ∧ j.get F.CHT_TURN_CAUSE_CAUSE = cause % 16 ∧
      j.Undone (k.abortTurn now o cause) (if cause ≤ 5 ∨ cause = 11 then 3 else 2) := by
  refine ⟨(k.sendFlood mAbort (k.turnMsg o cause none)).turnCause cause o, rfl, rfl, Pkg.turnCause_cause .., ?_⟩
  rw [Pkg.abortTurn, Pkg.onAbort_acts (by rw [Pkg.sendFlood_chart, hc]; rfl)
    (by rw [Pkg.phase, Pkg.get_sendFlood, ← Pkg.phase, hp]; decide), Pkg.withdrawAll_unentered (by rw [Pkg.sendFlood_chart, he])]
  exact Pkg.endWithdrawn_undone (by split <;> decide) _

/-- A package that honours both epochs. -/
theorem Pkg.bothBanks_spec {region : Nat} {j : Pkg} (k : Pkg) (h : (((k.putPhase 2).putShadow 5).setChart fun c =>
    { c with bank2 := true, prepared := true }).put F.CHT_TURN_STATUS_OWN_REGION region = j) :
    j.phase = 2 ∧ j.shadowState = 5 ∧ j.chart = { k.chart with bank2 := true, prepared := true } ∧ j.stamp = k.stamp := by
  subst h
  refine ⟨?_, ?_, rfl, Pkg.stamp_of_get ?_⟩
  · unfold Pkg.phase Pkg.putShadow Pkg.putPhase
    simp (disch := decide) only [Pkg.get_setChart, Pkg.get_put_reg_ne, Pkg.get_put_disjoint, Pkg.get_put_same]
    rfl
  · unfold Pkg.shadowState Pkg.putShadow Pkg.putPhase
    simp (disch := decide) only [Pkg.get_setChart, Pkg.get_put_reg_ne, Pkg.get_put_same]
    rfl
  · unfold Pkg.putShadow Pkg.putPhase
    simp (disch := decide) only [Pkg.get_setChart, Pkg.get_put_reg_ne, Pkg.get_put_disjoint]
/-- The second bank honours the epoch of the shadow image where the active one is of the other. -/
theorem Pkg.tables_second {k : Pkg} {b : Bool} (ha : chEpoch k.chart.active % 2 ≠ b.toNat) (h2 : k.chart.bank2 = true)
    (hs : k.chart.shadow ≠ []) (hb : chEpoch k.chart.shadow % 2 = b.toNat) : k.tables b = k.chart.shadow := by
  rw [Pkg.tables, if_neg (by simp [ha]), if_pos (by simp [h2, hs, hb])]

section
variable {s : State} {p : PkgId} (hoff : (s.pkg p).chartOff = false)
include hoff

theorem exec_prepare_waits (h : (s.pkg p).phase ≠ 1 ∨ (s.pkg p).time s.now < (s.pkg p).chart.goT0) : exec (.prepare p) s = .next (s.setPkg p (s.pkg p)) := by
  change execPrepare p s = _
  rw [execPrepare, chartPkg_on _ hoff]
  have hn : ¬ ((s.pkg p).phase = 1 ∧ (s.pkg p).chart.goT0 ≤ (s.pkg p).time s.now) := fun hn => h.elim (absurd hn.1) (Nat.not_lt.2 hn.2)
  dsimp only
  rw [if_neg hn, if_pos h]
theorem exec_prepareDeadline : exec (.prepareDeadline p) s = .next (s.setPkg p
    (if (s.pkg p).phase = 1 ∧ (s.pkg p).chart.goT0 + 1000000 ≤ (s.pkg p).time s.now then (s.pkg p).abortTurn s.now 0 6 else s.pkg p)) := by
  change execPrepareDeadline p s = _
  rw [execPrepareDeadline, chartPkg_on _ hoff]
omit hoff in
/-- What preparation makes of a package whose infrastructure is up. -/
def Pkg.prepared (now : Nat) (k : Pkg) : Pkg :=
  if k.shadowState ≠ 3 then k.abortTurn now 0 3
  else if chEpoch k.chart.shadow ≠ k.chart.goEpoch.toNat then k.abortTurn now 0 2
  else if (k.chart.active.isEmpty ∨ chScope k.chart.shadow = 0) ∧ k.activePorts ≠ [] then (k.turnCause 11 0).endWithdrawn 3
  else if k.chart.active.isEmpty ∨ chScope k.chart.shadow = 0 then
    let img := k.chart.shadow
    (k.swapSlots.applyLocal now img).endTurn 1
  else
    let k1 := (k.putPhase 2).putShadow 5
    (k1.setChart fun c => { c with bank2 := true, prepared := true }).put F.CHT_TURN_STATUS_OWN_REGION
      (match k1.chart.fleet with | some (o, _) => o | none => regionOf k1.chart.shadow k1.idx)
theorem exec_prepare (hp : (s.pkg p).phase = 1) (ht : (s.pkg p).chart.goT0 ≤ (s.pkg p).time s.now) :
    exec (.prepare p) s = .next (s.setPkg p ((s.pkg p).wakeForChart.prepared s.now)) := by
  have hk := (s.pkg p).wakeForChart_kept
  change execPrepare p s = _
  rw [execPrepare, chartPkg_on _ hoff]
  have hyes : (s.pkg p).phase = 1 ∧ (s.pkg p).chart.goT0 ≤ (s.pkg p).time s.now := ⟨hp, ht⟩
  have hno : ¬ ((s.pkg p).wakeForChart.phase ≠ 1 ∨ (s.pkg p).wakeForChart.time s.now < (s.pkg p).wakeForChart.chart.goT0) := by
    rw [hk.phase, hk.time, hk.chart]
    exact fun hn => hn.elim (absurd hp) (Nat.not_lt.2 ht)
  dsimp only
  rewrite [if_pos hyes, if_neg hno]
  rfl
end

/-- Settles O20: GO by the causes of its refusal in their order, and the preparation by the image of the shadow slot. -/
theorem turnStart : Obligations.TurnStart := by
  unfold Obligations.TurnStart
  refine ⟨fun s p who ho hoff => ?_, fun s p hoff => ?_⟩
  · obtain ⟨i, hi, hx⟩ := exec_go ho
    dsimp only
    rw [← hi.chartOff] at hoff
    have hrg : ∀ o, (s.pkg p).rg o = i.rg o := fun o => (hi.2 o).symm
    simp only [← hi.kept.chart, ← hi.wide, hrg, ← hi.turning, ← hi.kept.phase, ← hi.kept.time, ← hi.kept.shadowState, ← hi.activePorts, ← hi.floodPorts]
    have hrefuse : ∀ cause, cause < 16 → ¬ i.goRepeats → i.goRefusal s.now = some cause →
        (cause = 1 ∨ cause = 11 ∨ ¬ (i.turning = true ∧ i.goSame)) →
        ∃ j : Pkg, exec (.go p who) s = .next (s.wrote p who R.CHT_TURN_CTRL s.mem j) ∧ i.RefusedGo j cause := fun cause hc hn hr hs => by
      obtain ⟨hd, hrest⟩ := Pkg.go_refusal (now := s.now) hoff hn hr hc hs
      exact ⟨_, hx hd, hrest⟩
    have hidle : i.turning = false → ¬ i.goRepeats := fun ht hr => Bool.false_ne_true (ht.symm.trans hr.1)
    refine ⟨fun ht h0 he hl => ?_, fun hl ht => ?_, fun hl ht h => ?_, fun hl hp h0 he hn hent hcom => ?_, fun hl ht h => ?_, fun hl ht h0 hs he => ?_,
      fun hl ht h0 he h1 ha => ?_, fun hl ht h0 he h => ?_⟩
    · have hg := Pkg.go_repeated (now := s.now) (k := i) ⟨ht, ⟨h0, he⟩, hl⟩
      exact ⟨i, hi, (hx (congrArg Pkg.dark hg)).trans (by rw [hg])⟩
    · refine hrefuse 1 (by decide) (fun hr => ?_) (Pkg.goRefusal_stale hl) (.inl rfl)
      obtain ht | ht := ht
      · exact hidle ht hr
      · exact ht hr.2.2
    · refine hrefuse 5 (by decide) (fun hr => ?_) (Pkg.goRefusal_turning hl ht) (.inr (.inr fun hs => ?_))
      · exact h.elim (absurd hr.2.1.1) (absurd hr.2.1.2)
      · exact h.elim (absurd hs.2.1) (absurd hs.2.2)
    · have ht : i.turning = true := by rw [Pkg.turning, hp]; rfl
      obtain ⟨j, hact, hdark, hu, hcause⟩ := Pkg.go_ends (now := s.now) hoff (fun hr => hn hr.2.2) (Pkg.goRefusal_turning hl ht) hp ⟨h0, he⟩ hent hcom
      exact ⟨_, hx (hu.dark.trans hdark), hu.phase, hu.result, (Pkg.get_of_rg hu.cause).trans hcause, hu.active.trans hact⟩
    · exact hrefuse 4 (by decide) (hidle ht) (Pkg.goRefusal_late hl ht h) (.inr (.inr fun hs => Bool.false_ne_true (ht.symm.trans hs.1)))
    · exact hrefuse 2 (by decide) (hidle ht) (Pkg.goRefusal_epoch hl ht h0 hs he) (.inr (.inr fun hs => Bool.false_ne_true (ht.symm.trans hs.1)))
    · exact hrefuse 11 (by decide) (hidle ht) ((Pkg.goRefusal_inTime hl ht h0 he).trans (if_pos ⟨h1, ha⟩)) (.inr (.inl rfl))
    · have hr : i.goRefusal s.now = none := (Pkg.goRefusal_inTime hl ht h0 he).trans (if_neg fun hc => h.elim (absurd hc.1) (absurd · hc.2))
      have hg := Pkg.go_accepted (now := s.now) hoff (hidle ht) hr
      refine ⟨_, hx (by rw [hg]; rfl), ?_⟩
      rw [hg]
      refine ⟨?_, ?_, rfl, rfl, rfl, Nat.max_eq_right hl, rfl, rfl, fun o hne => ?_⟩
      · unfold Pkg.phase Pkg.setOwn Pkg.putPhase
        simp (disch := decide) only [Pkg.get_setChart, Pkg.get_put_disjoint, Pkg.get_put_same]
        rfl
      · exact Pkg.get_put_same _ F.CHT_TURN_STATUS_OWN_STATE _ (by decide)
      · exact (Pkg.rg_put_ne _ _ _ hne).trans (Pkg.rg_put_ne _ _ _ hne)
  · have hk := (s.pkg p).wakeForChart_kept
    have hact : (s.pkg p).wakeForChart.activePorts = (s.pkg p).activePorts := by rw [Pkg.activePorts, Pkg.wakeForChart_rt, ← Pkg.activePorts]
    dsimp only
    refine ⟨exec_prepare_waits hoff, fun hp ht hs he ha hsc => ?_, fun hp ht hs he h1 ha => ?_, fun hp ht hs he h1 ha => ?_, fun hp ht hs h5 hc he => ?_,
      fun hp ht h5 hc he => ?_, fun h => ?_⟩
    · refine ⟨_, exec_prepare hoff hp ht, ?_⟩
      rw [Pkg.prepared, if_neg (not_not.2 (hk.shadowState.trans hs)), if_neg (not_not.2 (by rw [hk.chart]; exact he)),
        if_neg (by rw [hk.chart, ha]; simp [hsc]), if_neg (by rw [hk.chart, ha]; simp [hsc])]
      dsimp only
      generalize hr : Pkg.put _ F.CHT_TURN_STATUS_OWN_REGION _ = j
      obtain ⟨hph, hsh, hch, hst⟩ := Pkg.bothBanks_spec (s.pkg p).wakeForChart hr
      rw [hk.chart] at hch
      refine ⟨hph, hsh, by rw [hch], by rw [hch], by rw [hch], hst.trans hk.stamp, fun b hb hnb hne => ?_⟩
      refine (Pkg.tables_second (by rw [hch]; exact hnb) (by rw [hch]) (by rw [hch]; exact hne) (by rw [hch]; exact hb)).trans ?_
      rw [hch]
    · refine ⟨_, exec_prepare hoff hp ht, ?_⟩
      rw [Pkg.prepared, if_neg (not_not.2 (hk.shadowState.trans hs)), if_neg (not_not.2 (by rw [hk.chart]; exact he)),
        if_pos (by rw [hk.chart, hact]; exact ⟨h1, ha⟩)]
      have hu := ((s.pkg p).wakeForChart.turnCause 11 0).endWithdrawn_undone (result := 3) (by decide)
      exact ⟨hu.phase, hu.result, (Pkg.get_of_rg hu.cause).trans (Pkg.turnCause_cause ..), hu.active.trans (congrArg _ hk.chart),
        hu.shadow.trans (congrArg _ hk.chart)⟩
    · refine ⟨(s.pkg p).wakeForChart.swapSlots, ?_, ?_⟩
      · rw [exec_prepare hoff hp ht, Pkg.prepared, if_neg (not_not.2 (hk.shadowState.trans hs)), if_neg (not_not.2 (by rw [hk.chart]; exact he)),
          if_neg (fun h => h.2 (hact.trans ha)), if_pos (by rw [hk.chart]; exact h1), hk.chart]
      · obtain ⟨h1, h2, -, h3, h4, h5⟩ := (s.pkg p).wakeForChart.swapSlots_spec
        rw [hk.chart] at h1 h4 h5
        exact ⟨h1, h2, h3, h4, h5⟩
    · obtain ⟨j, h1, h2, h3, hu⟩ := Pkg.abortTurn_unentered (now := s.now) (o := 0) (cause := 3) (k := (s.pkg p).wakeForChart)
        ((congrArg _ hk.chart).trans hc) ((congrArg _ hk.chart).trans he) (hk.phase.trans hp)
      refine ⟨_, exec_prepare hoff hp ht, ?_⟩
      rw [Pkg.prepared, if_pos (by rw [hk.shadowState]; exact hs)]
      exact ⟨hu.phase, hu.result, (Pkg.get_of_rg hu.cause).trans h3, (hu.active.trans h1).trans (congrArg _ hk.chart),
        (hu.shadow.trans h2).trans (congrArg _ hk.chart)⟩
    · obtain ⟨j, h1, h2, h3, hu⟩ := Pkg.abortTurn_unentered (now := s.now) (o := 0) (cause := 6) hc he hp
      refine ⟨_, (exec_prepareDeadline hoff).trans (by rw [if_pos ⟨hp, ht⟩]), ?_⟩
      exact ⟨hu.phase, (Pkg.get_of_rg hu.cause).trans h3, hu.active.trans h1⟩
    · rw [exec_prepareDeadline hoff, if_neg (fun hn => h.elim (absurd hn.1) (Nat.not_lt.2 hn.2))]

end Sys2Proof.Machine
end

section
/-! PROOF. What the local settings of an image leave of the turn (Table 6.2). -/
namespace Sys2Proof.Machine
open Sys2Proof

/-- Between two states of a package its Chart is kept, it is dark or not as before, and no message is lost. -/
structure Pkg.ChartKept (j k : Pkg) : Prop where
  chart : k.chart = j.chart
  pkgDark : k.pkgDark = j.pkgDark
  out : ∀ m ∈ j.out, m ∈ k.out

theorem Pkg.ChartKept.refl (k : Pkg) : k.ChartKept k := ⟨rfl, rfl, fun _ h => h⟩
theorem Pkg.ChartKept.trans {i j k : Pkg} (h : i.ChartKept j) (h' : j.ChartKept k) : i.ChartKept k :=
  ⟨h'.chart.trans h.chart, h'.pkgDark.trans h.pkgDark, fun m hm => h'.out m (h.out m hm)⟩
theorem Pkg.ChartKept.foldl {β : Type} {f : Pkg → β → Pkg} (hf : ∀ (k : Pkg) b, k.ChartKept (f k b)) : ∀ (l : List β) (k : Pkg), k.ChartKept (l.foldl f k)
  | [], k => .refl k
  | b :: l, k => (hf k b).trans (Pkg.ChartKept.foldl hf l _)
theorem Pkg.ChartKept.ite {c : Prop} [Decidable c] {j k l : Pkg} (h : j.ChartKept k) (h' : j.ChartKept l) : j.ChartKept (if c then k else l) := by
  split
  · exact h
  · exact h'
theorem Pkg.ChartKept.of_eq {j k : Pkg} (hc : k.chart = j.chart) (hd : k.dark = j.dark) (ho : ∀ m ∈ j.out, m ∈ k.out) : j.ChartKept k :=
  ⟨hc, congrArg (fun d : DarkSt => d.dark.any fun e => decide (e.1 = .package)) hd, ho⟩
theorem Pkg.ChartKept.regs {j k : Pkg} (h : OnlyRegs j k) : j.ChartKept k := .of_eq (by rw [h]) (by rw [h]) fun m hm => by rw [h]; exact hm
theorem Pkg.ChartKept.put (k : Pkg) (f : Fld) (v : Nat) : k.ChartKept (k.put f v) := .of_eq rfl rfl fun _ h => h
theorem Pkg.ChartKept.emit (m : Msg) (k : Pkg) : k.ChartKept (k.emit m) := .of_eq rfl rfl fun _ h => List.mem_append_left _ h
theorem Pkg.TurnKept.chartKept {j k : Pkg} (h : j.TurnKept k) : j.ChartKept k := .of_eq h.chart h.dark h.out

section
variable (now : Nat) (k : Pkg)

theorem Pkg.keep_chartKept (rq : Packet) (st : Byte) (r : BitVec 64) : k.ChartKept (k.keep rq st r) := by
  unfold Pkg.keep
  split
  · exact .refl k
  · split
    · exact .refl k
    · exact .of_eq rfl rfl fun _ h => h
theorem Pkg.standIn_chartKept (b : Bool) (rq : Packet) : k.ChartKept (k.standIn now b rq) :=
  .ite ((k.keep_chartKept ..).trans (.emit ..)) (.put ..)
theorem Pkg.meshDone_chartKept (rq : Packet) (st : Byte) (d : List Byte) : k.ChartKept (k.meshDone rq st d) := .ite (.emit ..) (.put ..)
theorem Pkg.answerMesh_chartKept (u : DarkUnit) (cs : List Nat) : k.ChartKept (k.answerMesh u cs) := by
  unfold Pkg.answerMesh
  dsimp only
  refine .trans ?_ (.foldl (fun k r => k.meshDone_chartKept r _ _) _ _)
  exact .of_eq rfl rfl fun _ h => h

theorem Pkg.claspTell_chartKept (c : Nat) (rq : Option Packet) (st : Byte) : k.ChartKept (k.claspTell now c rq st) := by
  cases rq with
  | none => exact .emit ..
  | some pk => exact (k.keep_chartKept ..).trans (.emit ..)
theorem Pkg.claspStoreDark_chartKept (p : Nat → Bool) : k.ChartKept (k.claspStoreDark now p) := by
  have h : k.ChartKept (k.tellWaiters now stUnitReset (fun x => p x.store) (fun w => w.rq.isSome)) :=
    .foldl (fun k (w : Waiter) => k.claspTell_chartKept now w.core w.rq _) _ _
  exact h.trans (.of_eq rfl rfl fun _ h => h)
theorem Pkg.answerRecorded_chartKept (u : DarkUnit) : k.ChartKept (k.answerRecorded now u) := by
  unfold Pkg.answerRecorded
  dsimp only
  refine .trans (.trans (.trans ?_ (.foldl (fun k r => k.standIn_chartKept now _ r) _ _)) (Pkg.answerMesh_chartKept ..)) (Pkg.claspStoreDark_chartKept ..)
  exact .of_eq rfl rfl fun _ h => h
theorem Pkg.addDark_core_chartKept (c : Core) (cause : DarkCause) : k.ChartKept (k.addDark (.core c) cause) := by
  unfold Pkg.addDark
  split
  · exact .refl k
  · refine ⟨rfl, ?_, fun _ h => h⟩
    simp [Pkg.pkgDark]
theorem Pkg.engineSourceLost_chartKept (sts : List Nat) : k.ChartKept (k.engineSourceLost sts) := .of_eq rfl rfl fun _ h => h
theorem Pkg.setThr_chartKept (f : ThrSt → ThrSt) : k.ChartKept (k.setThr f) := .of_eq rfl rfl fun _ h => h
theorem Pkg.goDark_core_chartKept (c : Core) : k.ChartKept (k.goDark now (.core c) .holdOff) := by
  have h : k.ChartKept (((k.addDark (.core c) .holdOff).answerRecorded now (.core c))) :=
    (k.addDark_core_chartKept c .holdOff).trans (Pkg.answerRecorded_chartKept ..)
  unfold Pkg.goDark
  dsimp only
  simp only [reduceCtorEq, ↓reduceIte]
  exact (h.trans (Pkg.csuStop_kept ..).chartKept).trans (Pkg.engineSourceLost_chartKept ..)
theorem Pkg.holdCore_chartKept (c : Core) : k.ChartKept (k.holdCore now c) :=
  (k.goDark_core_chartKept now c).trans (.regs (Pkg.setDomains_onlyRegs ..))
theorem Pkg.leaveHold_chartKept (c : Core) : k.ChartKept (k.leaveHold now c) := by
  have h : k.ChartKept (k.removeDark (fun e => decide (e = (.core c, .holdOff)))) := by
    refine ⟨rfl, ?_, fun _ h => h⟩
    simp only [Pkg.pkgDark, Pkg.removeDark, List.any_filter]
    refine congrArg (List.any k.dark.dark) (funext fun e => ?_)
    obtain ⟨u, cause⟩ := e
    cases u <;> simp
  exact (h.trans (.regs (Pkg.setDomains_onlyRegs ..))).trans (.of_eq rfl rfl fun _ h => h)
theorem Pkg.bumpCore_chartKept (c : Nat) : k.ChartKept (k.bumpCore now c) := ⟨rfl, rfl, fun _ h => h⟩
theorem Pkg.releaseHold_chartKept (c : Core) : k.ChartKept (k.releaseHold now c) :=
  .ite ((k.leaveHold_chartKept now c).trans (Pkg.bumpCore_chartKept ..)) (.ite (.refl k) ⟨rfl, rfl, fun _ h => h⟩)
theorem Pkg.holdEngine_chartKept (held : Bool) (t : Nat) : k.ChartKept (k.holdEngine held t) := by
  unfold Pkg.holdEngine
  split
  · exact .trans (.regs (k.setDomains_onlyRegs false [388 + t])) (.of_eq rfl rfl fun _ h => h)
  · exact .ite (.regs (Pkg.setDomains_onlyRegs ..)) (.refl k)
theorem Pkg.applyPdom_chartKept (img : List Byte) : k.ChartKept (k.applyPdom now img) := by
  unfold Pkg.applyPdom
  dsimp only
  refine .trans (.trans ?_ (.foldl (fun k c => ?_) _ _)) (.foldl (fun k t => k.holdEngine_chartKept _ t) _ _)
  · exact .regs rfl
  · refine .ite (k.holdCore_chartKept now c) (.ite ?_ (.ite (k.releaseHold_chartKept now c) (.refl k)))
    exact ⟨rfl, rfl, fun _ h => h⟩
theorem Pkg.endProbe_chartKept (b : Bool) : k.ChartKept (k.endProbe b) := by
  unfold Pkg.endProbe
  split
  · exact .refl k
  · exact .of_eq rfl rfl fun _ h => h
theorem Pkg.recap_chartKept : k.ChartKept k.recap := by
  have h : k.ChartKept ((k.put F.PWR_CAP_STATUS_EFFECTIVE k.capLimit.2).put F.PWR_CAP_STATUS_LIMITER k.capLimit.1) := .regs rfl
  exact .ite (h.trans (Pkg.endProbe_chartKept ..)) h
theorem Pkg.settleRates_chartKept : k.ChartKept k.settleRates := by
  have h : k.ChartKept (tiles4.foldl (fun k t => k.put (F.PWR_TILE_STATE_RATE t) (min (k.rate t) (k.rateLimit t))) k) :=
    .foldl (fun k t => .put ..) _ _
  exact h.trans (.put ..)
theorem Pkg.applyCaps_chartKept (img : List Byte) : k.ChartKept (k.applyCaps img) := by
  have h : k.ChartKept (tiles4.foldl (fun k' t => k'.put (F.PWR_TILE_STATE_BUDGET_W t) (if img.isEmpty then 240 else capsBudget img k.idx t)) k) :=
    .foldl (fun k t => .put ..) _ _
  exact (((h.trans (.put ..)).trans (.put ..)).trans (Pkg.recap_chartKept _)).trans (Pkg.settleRates_chartKept _)
theorem Pkg.takeRota_chartKept (img : List Byte) : k.ChartKept (k.takeRota now img) := by
  unfold Pkg.takeRota
  dsimp only
  refine .trans ?_ (Pkg.setThr_chartKept ..)
  refine .trans ?_ (.foldl (fun k x => ?_) _ _)
  · exact .foldl (fun k i => .regs (.setRg k ..)) _ _
  · exact .regs rfl
/-- PDOM, CAPS and ROTA leave the Chart, the package dark or not, and what was sent. -/
theorem Pkg.applyLocal_chartKept (img : List Byte) : k.ChartKept (k.applyLocal now img) := by
  have h := (k.applyPdom_chartKept now img).trans (Pkg.applyCaps_chartKept _ img)
  refine h.trans ?_
  exact .ite (Pkg.setThr_chartKept ..) (Pkg.takeRota_chartKept ..)

end
end Sys2Proof.Machine
end

section
/-! PROOF. A turn's entry, drain and retirement (R126, R127). -/
namespace Sys2Proof.Machine
open Sys2Proof

theorem Pkg.onCommit_spec {now o : Nat} {tr : Option Nat} {k : Pkg} (hp : k.phase = 3) (hc : k.chart.committed.contains o = false) :
    (k.onCommit now o tr).chart.committed = k.chart.committed ++ [o] ∧ ∀ m ∈ k.out, m ∈ (k.onCommit now o tr).out := by
  have hn : ¬ (k.phase ≠ 3 ∨ k.chart.committed.contains o = true) := by simpa [hp] using hc
  unfold Pkg.onCommit
  rw [if_neg hn]
  dsimp only
  generalize hk1 : k.setChart (fun c => { c with committed := c.committed ++ [o] }) = k1
  have h1 : k1.chart.committed = k.chart.committed ++ [o] ∧ ∀ m ∈ k.out, m ∈ k1.out := by
    subst hk1
    exact ⟨rfl, fun _ h => h⟩
  generalize hk2 : (if k1.ownRegion = o ∧ k1.ownState = 1 then (k1.setOwn 2).applyLocal now k1.chart.shadow else k1) = k2
  have h12 : k1.ChartKept k2 := by
    subst hk2
    exact .ite (.trans (.regs (.put ..)) (Pkg.applyLocal_chartKept ..)) (.refl k1)
  have h2 : k2.chart.committed = k.chart.committed ++ [o] ∧ ∀ m ∈ k.out, m ∈ k2.out :=
    ⟨by rw [h12.chart, h1.1], fun m hm => h12.out m (h1.2 m hm)⟩
  split_ifs
  · exact h2
  · exact h2
  · obtain ⟨-, -, -, hcom, hout, -⟩ := k2.enterRegion_spec now (o + 1)
    rw [hcom, hout]
    exact h2

section
variable {s : State} {p : PkgId} (hoff : (s.pkg p).chartOff = false)
include hoff

theorem exec_regionEnter (hp : (s.pkg p).phase = 2) (hb : (s.pkg p).chart.prepared = true)
    (ht : (s.pkg p).chart.goT0 + 1000000 ≤ (s.pkg p).time s.now) (hf : (s.pkg p).chart.fleet = none) :
    exec (.regionEnter p) s = .next (s.setPkg p ((s.pkg p).wakeForChart.enterRegion s.now 0)) := by
  have hn : ¬ ((s.pkg p).phase ≠ 2 ∨ (!(s.pkg p).chart.prepared) = true ∨ (s.pkg p).time s.now < (s.pkg p).chart.goT0 + 1000000) := by
    rw [hb]
    exact fun h => h.elim (absurd hp) fun h => h.elim Bool.false_ne_true (Nat.not_lt.2 ht)
  change execRegionEnter p s = _
  rw [execRegionEnter, chartPkg_on _ hoff]
  rw [if_neg hn, hf]
theorem exec_regionEnter_waits (h : (s.pkg p).phase ≠ 2 ∨ (s.pkg p).time s.now < (s.pkg p).chart.goT0 + 1000000) :
    exec (.regionEnter p) s = .next (s.setPkg p (s.pkg p)) := by
  have hy : (s.pkg p).phase ≠ 2 ∨ (!(s.pkg p).chart.prepared) = true ∨ (s.pkg p).time s.now < (s.pkg p).chart.goT0 + 1000000 :=
    h.elim .inl fun h => .inr (.inr h)
  change execRegionEnter p s = _
  rw [execRegionEnter, chartPkg_on _ hoff]
  rw [if_pos hy]
theorem exec_drainEnd : exec (.drainEnd p) s = (let k := s.pkg p
    .next (s.setPkg p (if k.phase ≠ 3 ∨ k.ownState ≠ 1 ∨ k.oldOut ≠ 0 then k
      else if k.isLead k.ownRegion then (k.setChart fun c => { c with drainedFrom := c.drainedFrom ++ [k.idx] }).leadDrained s.now
      else k.emit (.toLead mDrained (k.leadOf k.ownRegion) (k.turnMsg k.ownRegion 0 none))))) := by
  change execDrainEnd p s = _
  rw [execDrainEnd, chartPkg_on _ hoff]
theorem exec_turnDrained (m : TurnMsg) : exec (.turnDrained p m) s = .next (s.setPkg p ((s.pkg p).takeDrained s.now m)) := chartPkg_on _ hoff
theorem exec_retire {t : Nat} (ht : (s.pkg p).chart.tr = some t) : exec (.retire p) s = .next (s.setPkg p
    (if (s.pkg p).phase = 4 ∧ t ≤ (s.pkg p).time s.now then (((s.pkg p).purgeEpoch (epochBit (s.pkg p).chart.active)).swapSlots).endTurn 1
      else s.pkg p)) := by
  change execRetire p s = _
  rw [execRetire, chartPkg_on _ hoff]
  rw [ht]
end

/-- A TURN_DRAINED that its package keeps. -/
def Pkg.drainedBy (m : TurnMsg) (k : Pkg) : Pkg := k.setChart fun c => { c with drainedFrom := c.drainedFrom ++ [m.sender.val] }

section
variable {now : Nat} {m : TurnMsg} {k : Pkg}
theorem Pkg.takeDrained_ignored (h : k.ofTurn m = false ∨ m.order.toNat ≠ k.ownRegion) : k.takeDrained now m = k :=
  if_neg fun hn => h.elim (fun h => Bool.false_ne_true (h.symm.trans hn.1)) (absurd hn.2)
theorem Pkg.takeDrained_kept (h : k.ofTurn m = true) (ho : m.order.toNat = k.ownRegion) : k.takeDrained now m = (k.drainedBy m).leadDrained now :=
  if_pos ⟨h, ho⟩
end

/-- The lead that holds TURN_DRAINED from every package of its region in time commits the region. -/
theorem Pkg.leadDrained_commits {now : Nat} {k : Pkg} (hc : k.chart.committed.contains k.ownRegion = false) (h : k.phase = 3 ∧ k.ownState = 1 ∧
    k.isLead k.ownRegion = true ∧ (k.membersOf k.ownRegion).all k.chart.drainedFrom.contains = true ∧ k.time now ≤ k.chart.entryAt + k.turnWindow k.ownRegion) :
    (k.leadDrained now).chart.committed = k.chart.committed ++ [k.ownRegion] ∧
    Msg.flood mCommit (k.turnMsg k.ownRegion 0 (if k.lastOfTurn k.ownRegion then some (k.time now + 1000000) else none)) k.floodPorts ∈
      (k.leadDrained now).out := by
  unfold Pkg.leadDrained
  dsimp only
  rw [if_pos h]
  generalize (if k.lastOfTurn k.ownRegion then some (k.time now + 1000000) else none) = tr
  obtain ⟨hcom, hout⟩ := Pkg.onCommit_spec (now := now) (o := k.ownRegion) (tr := tr)
    (k := k.sendFlood mCommit (k.turnMsg k.ownRegion 0 tr)) h.1 hc
  exact ⟨hcom, hout _ (List.mem_append_right _ (List.mem_singleton.2 rfl))⟩

/-- Settles O21: the entry, the drain, the lead's commit and the swap, each by the one step that makes it. -/
theorem turnSteps : Obligations.TurnSteps := by
  unfold Obligations.TurnSteps
  intro s p hoff
  have hk := (s.pkg p).wakeForChart_kept
  dsimp only
  refine ⟨fun hp hb ht hf => ?_, exec_regionEnter_waits hoff, fun hp h1 h0 hl => ?_, fun h => ?_, fun m hm ho h => ?_, fun m hm ho hl hp h1 hall hc ht => ?_,
    fun m h => ?_, fun t htr hp ht => ?_, fun t htr ht => ?_⟩
  · obtain ⟨h1, h2, h3, -, -, h4, h5⟩ := Pkg.enterRegion_spec s.now 0 (s.pkg p).wakeForChart
    rw [hk.chart] at h3 h4
    rw [hk.ownRegion, hk.ownState] at h4 h5
    rw [hk.time] at h4
    rw [hk.stamp] at h5
    exact ⟨_, exec_regionEnter hoff hp hb ht hf, h1, h2, h3, h4, h5⟩
  · rw [exec_drainEnd hoff]
    dsimp only
    rw [if_neg (by rw [hp, h1, h0]; decide), if_neg (by rw [hl]; exact Bool.false_ne_true)]
  · rw [exec_drainEnd hoff]
    dsimp only
    rw [if_pos h]
  · rw [exec_turnDrained hoff, Pkg.takeDrained_kept hm ho]
    refine congrArg (fun j => Host.Outcome.next (s.setPkg p j)) (if_neg ?_)
    rintro ⟨-, -, -, hall, ht⟩
    obtain h | h := h
    · exact Bool.false_ne_true (h.symm.trans hall)
    · exact Nat.not_lt.2 ht h
  · obtain ⟨hcom, hout⟩ := Pkg.leadDrained_commits (k := (s.pkg p).drainedBy m) hc ⟨hp, h1, hl, hall, ht⟩
    exact ⟨_, (exec_turnDrained hoff m).trans (by rw [Pkg.takeDrained_kept hm ho]), hcom, hout⟩
  · rw [exec_turnDrained hoff, Pkg.takeDrained_ignored h]
  · have hpu : (s.pkg p).TurnKept ((s.pkg p).purgeEpoch (epochBit (s.pkg p).chart.active)) := Pkg.purgeAll_kept ..
    refine ⟨_, (exec_retire hoff htr).trans (by rw [if_pos ⟨hp, ht⟩]), ?_⟩
    obtain ⟨h1, h2, h3, h4, h5, -⟩ := ((s.pkg p).purgeEpoch (epochBit (s.pkg p).chart.active)).swapSlots_spec
    rw [hpu.chart] at h1 h5
    generalize ((s.pkg p).purgeEpoch (epochBit (s.pkg p).chart.active)).swapSlots = z at h1 h2 h3 h4 h5
    exact ⟨Pkg.endTurn_phase .., Pkg.endTurn_result (by decide) _, h1, h2, (Pkg.endTurn_get _ _ (by decide)).trans h4, h3,
      (Pkg.endTurn_rg _ _ (by decide)).trans h5⟩
  · rw [exec_retire hoff htr, if_neg (fun h => Nat.not_le.2 ht h.2)]

end Sys2Proof.Machine
end

section
/-! PROOF. Abort and withdrawal of a turn (R127, R134–R137). -/
namespace Sys2Proof.Machine
open Sys2Proof

/-! ### A region that has withdrawn -/

/-- A package of the region that has withdrawn discards what it holds of the new epoch. -/
def Pkg.regionBack (o : Nat) (k : Pkg) : Pkg :=
  if k.ownRegion = o ∧ k.ownState = 3 then (k.purgeEpoch (epochBit k.chart.shadow)).setOwn 4 else k
theorem Pkg.purged_spec (b : Bool) (k : Pkg) : ((k.purgeEpoch b).setOwn 4).chart = k.chart ∧ ((k.purgeEpoch b).setOwn 4).ownState = 4 ∧
    ((k.purgeEpoch b).setOwn 4).phase = k.phase ∧ ((k.purgeEpoch b).setOwn 4).ownRegion = k.ownRegion ∧
    ((k.purgeEpoch b).setOwn 4).shadowState = k.shadowState ∧ ((k.purgeEpoch b).setOwn 4).idx = k.idx ∧
    ((k.purgeEpoch b).setOwn 4).aon = k.aon ∧ ((k.purgeEpoch b).setOwn 4).dark = k.dark ∧ ∀ m ∈ k.out, m ∈ ((k.purgeEpoch b).setOwn 4).out := by
  have h : k.TurnKept (k.purgeEpoch b) := Pkg.purgeAll_kept ..
  generalize k.purgeEpoch b = j at h
  refine ⟨h.chart, Pkg.get_put_same _ F.CHT_TURN_STATUS_OWN_STATE _ (by decide), ?_, ?_, ?_, ?_, h.aon, h.dark, h.out⟩
  · exact (Pkg.get_put_disjoint _ F.CHT_TURN_STATUS_OWN_STATE F.CHT_TURN_STATUS_PHASE _ (by decide) rfl (by decide)).trans h.phase
  · exact (Pkg.get_put_disjoint _ F.CHT_TURN_STATUS_OWN_STATE F.CHT_TURN_STATUS_OWN_REGION _ (by decide) rfl (by decide)).trans h.ownRegion
  · exact (Pkg.get_put_reg_ne _ F.CHT_TURN_STATUS_OWN_STATE F.CHT_SLOT_STATUS_SHADOW_STATE _ (by decide)).trans h.shadowState
  · exact (congrArg addrIndex (Pkg.get_put_reg_ne _ F.CHT_TURN_STATUS_OWN_STATE F.AON_PKG_ADDR_ADDR _ (by decide))).trans h.idx
theorem Pkg.regionBack_spec (o : Nat) (k : Pkg) : (k.regionBack o).chart = k.chart ∧
    (k.regionBack o).ownState = (if k.ownRegion = o ∧ k.ownState = 3 then 4 else k.ownState) ∧ (k.regionBack o).phase = k.phase ∧
    (k.regionBack o).ownRegion = k.ownRegion ∧ (k.regionBack o).shadowState = k.shadowState ∧ (k.regionBack o).aon = k.aon ∧
    ∀ m ∈ k.out, m ∈ (k.regionBack o).out := by
  unfold Pkg.regionBack
  split
  next h =>
    obtain ⟨h1, h2, h3, h4, h5, -, h6, -, h7⟩ := k.purged_spec (epochBit k.chart.shadow)
    exact ⟨h1, h2, h3, h4, h5, h6, h7⟩
  next h => exact ⟨rfl, rfl, rfl, rfl, rfl, rfl, fun _ h => h⟩
theorem Pkg.onWithdrawn_acts {now o : Nat} {k : Pkg} (hp : k.phase = 5) (hw : k.chart.wdSeq.head? = some o) :
    k.onWithdrawn now o = ((k.regionBack o).setChart fun c => { c with wdSeq := c.wdSeq.drop 1 }).beginWithdraw now :=
  if_neg fun h => h.elim (absurd hp) (absurd hw)

/-! ### The region that withdraws next -/

theorem Pkg.beginWithdraw_none {now : Nat} {k : Pkg} (hw : k.chart.wdSeq = []) (hf : k.chart.fleet = none) : k.beginWithdraw now = k.endWithdrawn 2 := by
  unfold Pkg.beginWithdraw
  rw [hw, hf]
  rfl
/-- The state in which a region begins to withdraw. -/
def Pkg.withdrawing (now o : Nat) (k : Pkg) : Pkg := (k.put F.CHT_TURN_STATUS_CUR_REGION o).setChart fun c => { c with withdrawAt := k.time now }
section
variable (now o : Nat) (k : Pkg)
theorem Pkg.withdrawing_spec : (k.withdrawing now o).phase = k.phase ∧ (k.withdrawing now o).ownState = k.ownState ∧
    (k.withdrawing now o).ownRegion = k.ownRegion ∧ (k.withdrawing now o).curRegion = o % 256 := by
  refine ⟨?_, ?_, ?_, ?_⟩
  · exact (Pkg.get_setChart ..).trans (Pkg.get_put_disjoint _ F.CHT_TURN_STATUS_CUR_REGION F.CHT_TURN_STATUS_PHASE _ (by decide) rfl (by decide))
  · exact (Pkg.get_setChart ..).trans (Pkg.get_put_disjoint _ F.CHT_TURN_STATUS_CUR_REGION F.CHT_TURN_STATUS_OWN_STATE _ (by decide) rfl (by decide))
  · exact (Pkg.get_setChart ..).trans (Pkg.get_put_disjoint _ F.CHT_TURN_STATUS_CUR_REGION F.CHT_TURN_STATUS_OWN_REGION _ (by decide) rfl (by decide))
  · exact (Pkg.get_setChart ..).trans (Pkg.get_put_same _ F.CHT_TURN_STATUS_CUR_REGION _ (by decide))
end
section
variable {now o : Nat} {rest : List Nat} {k : Pkg} (hw : k.chart.wdSeq = o :: rest)
include hw
theorem Pkg.beginWithdraw_other (ho : k.ownRegion ≠ o) : k.beginWithdraw now = k.withdrawing now o := by
  obtain ⟨-, -, hr, -⟩ := k.withdrawing_spec now o
  unfold Pkg.beginWithdraw
  rw [hw]
  exact if_pos (by rw [← hr] at ho; exact ho)
theorem Pkg.beginWithdraw_entered (ho : k.ownRegion = o) (h1 : k.ownState = 1) :
    k.beginWithdraw now = ((k.withdrawing now o).setOwn 3).setStamp (epochBit k.chart.active) := by
  obtain ⟨-, hs, hr, -⟩ := k.withdrawing_spec now o
  have hr' : ¬ (k.withdrawing now o).ownRegion ≠ o := not_not.2 (hr.trans ho)
  have hs' : (k.withdrawing now o).ownState = 1 ∨ (k.withdrawing now o).ownState = 2 := .inl (hs.trans h1)
  have h2 : ¬ (k.withdrawing now o).ownState = 2 := by rw [hs, h1]; decide
  unfold Pkg.withdrawing at hr' hs' h2
  unfold Pkg.beginWithdraw
  rw [hw]
  dsimp only
  rw [if_neg hr', if_pos hs', if_neg h2]
  rfl
end

/-! ### What counts as withdrawn -/

/-- The turn has ended WITHDRAWN with both slots as before. -/
def Pkg.Ended (k j : Pkg) : Prop :=
  j.phase = 0 ∧ j.get F.CHT_TURN_STATUS_RESULT = 2 ∧ j.chart.bank2 = false ∧ j.shadowState = 3 ∧ j.chart.active = k.chart.active ∧
    j.chart.shadow = k.chart.shadow ∧ j.stamp = epochBit k.chart.active ∧ j.ownState = (if k.ownState = 0 then 0 else 4)
/-- The withdrawal of the last region ends the turn. -/
theorem Pkg.onWithdrawn_last {now o : Nat} {k : Pkg} (hp : k.phase = 5) (hw : k.chart.wdSeq = [o]) (h5 : k.shadowState = 5) (hf : k.chart.fleet = none) :
    k.Ended (k.onWithdrawn now o) ∧ ∀ m ∈ k.out, m ∈ (k.onWithdrawn now o).out := by
  obtain ⟨hc, hs, -, -, hsh, -, hout⟩ := k.regionBack_spec o
  have hwd : ((k.regionBack o).setChart fun c => { c with wdSeq := c.wdSeq.drop 1 }).chart.wdSeq = [] := by
    rw [Pkg.chart_setChart, hc, hw]
    rfl
  have hu := Pkg.endWithdrawn_undone (result := 2) (by decide) ((k.regionBack o).setChart fun c => { c with wdSeq := c.wdSeq.drop 1 })
  rw [Pkg.onWithdrawn_acts hp (by rw [hw]; rfl), Pkg.beginWithdraw_none hwd (by rw [Pkg.chart_setChart, hc, hf])]
  generalize ((k.regionBack o).setChart fun c => { c with wdSeq := c.wdSeq.drop 1 }).endWithdrawn 2 = j at hu
  have hown : ((k.regionBack o).setChart fun c => { c with wdSeq := c.wdSeq.drop 1 }).ownState = (k.regionBack o).ownState := rfl
  have hshadow : ((k.regionBack o).setChart fun c => { c with wdSeq := c.wdSeq.drop 1 }).shadowState = k.shadowState := hsh
  have hact := hu.active
  have hshd := hu.shadow
  have hst := hu.stamp
  rw [Pkg.chart_setChart, hc] at hact hshd hst
  refine ⟨⟨hu.phase, hu.result, hu.bank2, ?_, hact, hshd, hst, ?_⟩, fun m hm => hu.out m (hout m hm)⟩
  · rw [hu.shadowState, hshadow, if_pos h5]
  · rw [hu.ownState, hown, hs]
    split_ifs <;> simp_all
/-- The withdrawal of a region before the last begins the next one. -/
theorem Pkg.onWithdrawn_next {now r q : Nat} {l : List Nat} {k : Pkg} (hp : k.phase = 5) (hw : k.chart.wdSeq = r :: q :: l) (ho : k.ownRegion ≠ q) :
    (k.onWithdrawn now r).phase = 5 ∧ (k.onWithdrawn now r).chart.wdSeq = q :: l ∧ (k.onWithdrawn now r).curRegion = q % 256 ∧
    (k.onWithdrawn now r).chart.withdrawAt = k.time now ∧
    (k.onWithdrawn now r).ownState = (if k.ownRegion = r ∧ k.ownState = 3 then 4 else k.ownState) ∧ ∀ m ∈ k.out, m ∈ (k.onWithdrawn now r).out := by
  obtain ⟨hc, hs, hph, hr, -, ha, hout⟩ := k.regionBack_spec r
  have hwd : ((k.regionBack r).setChart fun c => { c with wdSeq := c.wdSeq.drop 1 }).chart.wdSeq = q :: l := by
    rw [Pkg.chart_setChart, hc, hw]
    rfl
  have hown : ((k.regionBack r).setChart fun c => { c with wdSeq := c.wdSeq.drop 1 }).ownRegion ≠ q := fun h => ho (hr.symm.trans h)
  obtain ⟨h1, h2, -, h4⟩ := ((k.regionBack r).setChart fun c => { c with wdSeq := c.wdSeq.drop 1 }).withdrawing_spec now q
  rw [Pkg.onWithdrawn_acts hp (by rw [hw]; rfl), Pkg.beginWithdraw_other hwd hown]
  refine ⟨h1.trans (hph.trans hp), hwd, h4, ?_, h2.trans hs, hout⟩
  change (k.regionBack r).time now = k.time now
  rw [Pkg.time, ha, Pkg.time]

/-! ### Abort -/

/-- The abort of the region that the package's own is, once it has entered. -/
theorem Pkg.withdrawAll_own {now cause : Nat} {k : Pkg} (he : k.chart.entered ≠ []) (h1 : k.ownState = 1) :
    let j := k.withdrawAll now k.ownRegion cause
    j.phase = 5 ∧ j.ownState = 3 ∧ j.stamp = epochBit k.chart.active ∧
      j.chart.wdSeq = k.ownRegion :: (k.chart.entered.reverse.filter (· ≠ k.ownRegion)) ∧ j.get F.CHT_TURN_CAUSE_CAUSE = cause % 16 ∧
      j.chart.active = k.chart.active ∧ j.chart.shadow = k.chart.shadow ∧ j.out = k.out := by
  have hr : (((k.turnCause cause k.ownRegion).putPhase 5).setChart fun c =>
      { c with wdSeq := k.ownRegion :: (k.chart.entered.reverse.filter (· ≠ k.ownRegion)) }).ownRegion = k.ownRegion :=
    (Pkg.get_setChart ..).trans ((Pkg.get_put_disjoint _ F.CHT_TURN_STATUS_PHASE F.CHT_TURN_STATUS_OWN_REGION _ (by decide) rfl (by decide)).trans
      (k.turnCause_get _ _ (by decide)))
  have hs : (((k.turnCause cause k.ownRegion).putPhase 5).setChart fun c =>
      { c with wdSeq := k.ownRegion :: (k.chart.entered.reverse.filter (· ≠ k.ownRegion)) }).ownState = k.ownState :=
    (Pkg.get_setChart ..).trans ((Pkg.get_put_disjoint _ F.CHT_TURN_STATUS_PHASE F.CHT_TURN_STATUS_OWN_STATE _ (by decide) rfl (by decide)).trans
      (k.turnCause_get _ _ (by decide)))
  dsimp only
  rw [Pkg.withdrawAll_entered he, Pkg.beginWithdraw_entered rfl hr (hs.trans h1)]
  refine ⟨?_, ?_, Pkg.stamp_setStamp .., rfl, ?_, rfl, rfl, rfl⟩
  · unfold Pkg.phase Pkg.setStamp Pkg.flag Pkg.setOwn Pkg.withdrawing Pkg.putPhase
    simp (disch := decide) only [Pkg.get_setChart, Pkg.get_put_reg_ne, Pkg.get_put_disjoint, Pkg.get_put_same]
    rfl
  · unfold Pkg.ownState Pkg.setStamp Pkg.flag Pkg.setOwn
    simp (disch := decide) only [Pkg.get_put_reg_ne, Pkg.get_put_same]
    rfl
  · unfold Pkg.setStamp Pkg.flag Pkg.setOwn Pkg.withdrawing Pkg.putPhase
    simp (disch := decide) only [Pkg.get_setChart, Pkg.get_put_reg_ne]
    exact Pkg.turnCause_cause ..

/-! ### An abort darkens nothing -/

theorem Pkg.pkgDark_setChart (f : ChartSt → ChartSt) (k : Pkg) : (k.setChart f).pkgDark = k.pkgDark := rfl
theorem Pkg.pkgDark_setStamp (b : Bool) (k : Pkg) : (k.setStamp b).pkgDark = k.pkgDark := rfl
theorem Pkg.pkgDark_emit (m : Msg) (k : Pkg) : (k.emit m).pkgDark = k.pkgDark := rfl
theorem Pkg.withdrawn_pkgDark (k : Pkg) : k.withdrawn.pkgDark = k.pkgDark := by
  obtain ⟨-, -, -, -, -, -, -, hd, -⟩ := k.purged_spec (epochBit k.chart.shadow)
  have h : ((k.purgeEpoch (epochBit k.chart.shadow)).setOwn 4).pkgDark = k.pkgDark := by rw [Pkg.pkgDark, hd, ← Pkg.pkgDark]
  unfold Pkg.withdrawn
  dsimp only
  generalize (k.purgeEpoch (epochBit k.chart.shadow)).setOwn 4 = j at h
  split
  · rw [Pkg.pkgDark_setChart, h]
  · rw [Pkg.pkgDark_emit, h]
theorem Pkg.beginWithdraw_cons {now o : Nat} {rest : List Nat} {k : Pkg} (hw : k.chart.wdSeq = o :: rest) :
    k.beginWithdraw now =
      if (k.withdrawing now o).ownRegion ≠ o then k.withdrawing now o
      else if (k.withdrawing now o).ownState = 1 ∨ (k.withdrawing now o).ownState = 2 then
        let k2 := if (k.withdrawing now o).ownState = 2 then ((k.withdrawing now o).setOwn 3).applyLocal now (k.withdrawing now o).chart.active
          else (k.withdrawing now o).setOwn 3
        k2.setStamp (epochBit k2.chart.active)
      else if (k.withdrawing now o).ownState = 0 then (k.withdrawing now o).withdrawn
      else k.withdrawing now o := by
  unfold Pkg.beginWithdraw
  rw [hw]
  rfl
theorem Pkg.beginWithdraw_pkgDark (now : Nat) (k : Pkg) : (k.beginWithdraw now).pkgDark = k.pkgDark := by
  cases hw : k.chart.wdSeq with
  | nil =>
    unfold Pkg.beginWithdraw
    rw [hw]
    dsimp only
    split
    · rfl
    · rw [Pkg.pkgDark, (Pkg.endWithdrawn_undone (by decide) k).dark, ← Pkg.pkgDark]
  | cons o rest =>
    have h1 : (k.withdrawing now o).pkgDark = k.pkgDark := rfl
    have h2 : (k.withdrawing now o).ChartKept (if (k.withdrawing now o).ownState = 2 then
        ((k.withdrawing now o).setOwn 3).applyLocal now (k.withdrawing now o).chart.active else (k.withdrawing now o).setOwn 3) :=
      .ite (.trans (.regs (.put ..)) (Pkg.applyLocal_chartKept ..)) (.regs (.put ..))
    rw [Pkg.beginWithdraw_cons hw, ← h1]
    generalize k.withdrawing now o = w at h2
    dsimp only
    generalize (if w.ownState = 2 then (w.setOwn 3).applyLocal now w.chart.active else w.setOwn 3) = z at h2
    split_ifs
    · rfl
    · rw [Pkg.pkgDark_setStamp, h2.pkgDark]
    · exact Pkg.withdrawn_pkgDark w
    · rfl
theorem Pkg.withdrawAll_pkgDark (now o cause : Nat) (k : Pkg) : (k.withdrawAll now o cause).pkgDark = k.pkgDark := by
  by_cases he : k.chart.entered = []
  · rw [Pkg.withdrawAll_unentered he, Pkg.pkgDark, (Pkg.endWithdrawn_undone (by split <;> decide) _).dark]
    rfl
  · rw [Pkg.withdrawAll_entered he, Pkg.beginWithdraw_pkgDark]
    rfl
theorem Pkg.abortTurn_pkgDark (now o cause : Nat) (k : Pkg) : (k.abortTurn now o cause).pkgDark = k.pkgDark := by
  unfold Pkg.abortTurn Pkg.onAbort
  split
  · rfl
  · rw [Pkg.withdrawAll_pkgDark]
    rfl
theorem Pkg.operatorAbort_pkgDark (now : Nat) (k : Pkg) : (k.operatorAbort now).pkgDark = k.pkgDark := by
  unfold Pkg.operatorAbort
  split_ifs
  · rfl
  · rfl
  · rfl
  · rw [Pkg.withdrawAll_pkgDark]
    rfl
  · exact Pkg.abortTurn_pkgDark ..
  · rfl

theorem exec_operatorAbort {s : State} {p : PkgId} {who : Requester} (ho : Open s p who R.CHT_TURN_CTRL) : ∃ i : Pkg, SamePkg (s.pkg p) i ∧
    exec (.operatorAbort p who) s = .next (s.wrote p who R.CHT_TURN_CTRL s.mem (i.operatorAbort s.now)) :=
  ⟨_, (s.pkg p).turnStored 2, exec_CHT_TURN_CTRL ho rfl rfl rfl (Pkg.operatorAbort_pkgDark ..)⟩

/-! ### The packages' reports -/

section
variable {s : State} {p : PkgId} (hoff : (s.pkg p).chartOff = false)
include hoff

theorem exec_leadWindowExpiry : exec (.leadWindowExpiry p) s = (let k := s.pkg p
    .next (s.setPkg p (if k.phase = 3 ∧ k.ownState = 1 ∧ k.isLead k.ownRegion ∧ k.chart.entryAt + k.turnWindow k.ownRegion ≤ k.time s.now then
      k.abortTurn s.now k.ownRegion 7 else k))) := by
  change execLeadWindowExpiry p s = _
  rw [execLeadWindowExpiry, chartPkg_on _ hoff]
theorem exec_regionDeadline : exec (.regionDeadline p) s = (let k := s.pkg p
    .next (s.setPkg p (if k.phase = 3 ∧ k.ownState = 1 ∧ k.chart.entryAt + k.turnWindow k.ownRegion + 1000000 ≤ k.time s.now then
      k.abortTurn s.now k.ownRegion 8 else k))) := by
  change execRegionDeadline p s = _
  rw [execRegionDeadline, chartPkg_on _ hoff]
theorem exec_withdrawWaitEnd : exec (.withdrawWaitEnd p) s = (let k := s.pkg p
    .next (s.setPkg p (if k.phase = 5 ∧ k.ownState = 3 ∧ (k.oldOut = 0 ∨ k.chart.withdrawAt + k.turnWindow k.ownRegion ≤ k.time s.now) then
      k.withdrawn.leadWithdrawn s.now else k))) := by
  change execWithdrawWaitEnd p s = _
  rw [execWithdrawWaitEnd, chartPkg_on _ hoff]
theorem exec_withdrawLimit {r : Nat} {rest : List Nat} (hw : (s.pkg p).chart.wdSeq = r :: rest) : exec (.withdrawLimit p) s = (let k := s.pkg p
    .next (s.setPkg p (if k.phase = 5 ∧ k.chart.withdrawAt + k.turnWindow r + 1000000 ≤ k.time s.now ∧
      s.withdrawLead p.rack (k.membersOf r) = some k.idx then (k.sendFlood mWithdrawn (k.turnMsg r 0 none)).onWithdrawn s.now r else k))) := by
  change execWithdrawLimit p s = _
  rw [execWithdrawLimit, chartPkg_on _ hoff, hw]
  dsimp only
  unfold Pkg.floodWithdrawn
  rw [hw]
theorem exec_turnWithdrawn (m : Arrived) : exec (.turnWithdrawn p m) s = .next (s.setPkg p ((s.pkg p).takeWithdrawn s.now m.flood m.msg)) :=
  chartPkg_on _ hoff
end

/-- A package that is not the lead of its region tells the lead that it has withdrawn. -/
theorem Pkg.withdrawn_tells {now : Nat} {k : Pkg} (hl : k.isLead k.ownRegion = false) : ∃ j : Pkg, k.withdrawn.leadWithdrawn now =
    j.emit (.toLead mWithdrawn (j.leadOf k.ownRegion) (j.turnMsg k.ownRegion 0 none)) ∧ j.ownState = 4 ∧ j.chart = k.chart := by
  obtain ⟨h1, h2, -, h4, -, h6, -⟩ := k.purged_spec (epochBit k.chart.shadow)
  generalize hj : (k.purgeEpoch (epochBit k.chart.shadow)).setOwn 4 = j at h1 h2 h4 h6
  have hset : j.turnSet = k.turnSet := by unfold Pkg.turnSet; rw [h1]
  have hlead : j.isLead k.ownRegion = false := by
    rw [Pkg.isLead, Pkg.leadOf, Pkg.membersOf, hset, h6, ← Pkg.membersOf, ← Pkg.leadOf, ← Pkg.isLead, hl]
  refine ⟨j, ?_, h2, h1⟩
  unfold Pkg.withdrawn
  dsimp only
  rw [hj, if_neg (by rw [hlead]; exact Bool.false_ne_true)]
  refine if_neg fun h => ?_
  have hl' : j.isLead j.ownRegion = true := h.2.2.1
  rw [h4, hlead] at hl'
  exact Bool.false_ne_true hl'

theorem Pkg.operatorAbort_cases {now : Nat} {k : Pkg} (hoff : k.chartOff = false) : k.operatorAbort now =
    if (k.rg R.CHT_TURN_LEASE).toNat < k.chart.leaseMax then k.turnCause 1 0
    else if k.phase = 1 ∧ k.time now < k.chart.goT0 then k
    else if k.phase = 3 ∧ k.chart.fleet.isSome then (k.sendFlood mAbort (k.turnMsg k.ownRegion 9 none)).withdrawAll now k.ownRegion 9
    else if 1 ≤ k.phase ∧ k.phase ≤ 3 then k.abortTurn now k.curRegion 9
    else k := if_neg (by rw [hoff]; exact Bool.false_ne_true)
theorem Pkg.Ended.of_chart {i k j : Pkg} {c : List (Nat × TurnMsg)} (h : i.Ended j) (hc : i.chart = { k.chart with seen := c })
    (ho : i.ownState = k.ownState) : k.Ended j := by
  unfold Pkg.Ended at h ⊢
  rw [hc, ho] at h
  exact h

/-- A TURN_WITHDRAWN of a package of the region, kept by its lead. -/
def Pkg.withdrawnBy (m : TurnMsg) (k : Pkg) : Pkg := k.setChart fun c => { c with withdrawnFrom := c.withdrawnFrom ++ [m.sender.val] }
theorem Pkg.takeWithdrawn_one (now : Nat) (m : TurnMsg) (k : Pkg) : k.takeWithdrawn now false m =
    if k.ofTurn m ∧ m.order.toNat = k.ownRegion then (k.withdrawnBy m).leadWithdrawn now else k := rfl
theorem Pkg.leadWithdrawn_waits {now : Nat} {k : Pkg} (hp : k.phase ≠ 5) : k.leadWithdrawn now = k := if_neg fun h => hp h.1
theorem Pkg.leadWithdrawn_floods {now : Nat} {rest : List Nat} {k : Pkg} (hp : k.phase = 5) (hw : k.chart.wdSeq = k.ownRegion :: rest)
    (hl : k.isLead k.ownRegion = true) (hall : (k.membersOf k.ownRegion).all k.chart.withdrawnFrom.contains = true) :
    k.leadWithdrawn now = (k.sendFlood mWithdrawn (k.turnMsg k.ownRegion 0 none)).onWithdrawn now k.ownRegion := by
  unfold Pkg.leadWithdrawn
  dsimp only
  rw [if_pos ⟨hp, by rw [hw]; rfl, hl, hall⟩, Pkg.floodWithdrawn, hw]

/-- Settles O23: the limits of R127, the abort of an entered region, and the order in which regions withdraw. -/
theorem turnWithdrawal : Obligations.TurnWithdrawal := by
  unfold Obligations.TurnWithdrawal
  intro s p hoff
  dsimp only
  refine ⟨fun hp h1 hl ht => ?_, fun h => ?_, fun hp h1 ht => ?_, fun h => ?_, fun cause hc hp he h1 => ?_, fun who ho => ?_, fun hp h3 h hl => ?_,
    fun h => ?_, fun r rest hw => ⟨fun ht => ?_, fun hp hl ht => ⟨fun hr h5 hf => ?_, fun q l hr ho => ?_⟩⟩, fun m hm hs hp hw h5 hf => ?_,
    fun m hm ho => ⟨fun hp => ?_, fun hp hw h5 hf hl hall => ?_⟩, fun m hm => ?_, fun m hm hu hs => ?_⟩
  · rw [exec_leadWindowExpiry hoff]
    dsimp only
    rw [if_pos ⟨hp, h1, hl, ht⟩]
  · rw [exec_leadWindowExpiry hoff]
    dsimp only
    rw [if_neg]
    rintro ⟨hp, h1, -, ht⟩
    exact h.elim (absurd hp) fun h => h.elim (absurd h1) (Nat.not_lt.2 ht)
  · rw [exec_regionDeadline hoff]
    dsimp only
    rw [if_pos ⟨hp, h1, ht⟩]
  · rw [exec_regionDeadline hoff]
    dsimp only
    rw [if_neg]
    rintro ⟨hp, h1, ht⟩
    exact h.elim (absurd hp) fun h => h.elim (absurd h1) (Nat.not_lt.2 ht)
  · obtain ⟨a1, a2, a3, a4, a5, a6, a7, a8⟩ := Pkg.withdrawAll_own (now := s.now) (cause := cause)
      (k := (s.pkg p).sendFlood mAbort ((s.pkg p).turnMsg (s.pkg p).ownRegion cause none)) he h1
    rw [Pkg.abortTurn, Pkg.onAbort_acts (k := (s.pkg p).sendFlood mAbort ((s.pkg p).turnMsg (s.pkg p).ownRegion cause none)) hc hp]
    exact ⟨a1, a2, a3, a4, a5, a6, a7, a8 ▸ List.mem_append_right _ (List.mem_singleton.2 rfl)⟩
  · obtain ⟨i, hi, hx⟩ := exec_operatorAbort ho
    refine ⟨i, hi, ?_⟩
    rw [hx, Pkg.operatorAbort_cases (hi.chartOff.trans hoff), hi.2, hi.kept.chart, hi.kept.phase, hi.kept.time, hi.kept.curRegion, hi.kept.ownRegion,
      hi.kept.turnMsg]
    refine ⟨fun hl => by rw [if_pos hl], fun hl h => ?_, fun hl h1 h3 hn hf => ?_, fun hl hp hf => ?_⟩
    · rw [if_neg (Nat.not_lt.2 hl)]
      obtain h | h | h := h
      · rw [if_neg (by rw [h]; simp), if_neg (by rw [h]; simp), if_neg (by rw [h]; simp)]
      · rw [if_neg (fun hn => absurd (hn.1 ▸ h) (by decide)), if_neg (fun hn => absurd (hn.1 ▸ h) (by decide)), if_neg (by omega)]
      · rw [if_pos h]
    · rw [if_neg (Nat.not_lt.2 hl), if_neg hn, if_neg, if_pos ⟨h1, h3⟩]
      rintro ⟨hp, hs⟩
      rw [hf hp] at hs
      exact Bool.false_ne_true hs
    · rw [if_neg (Nat.not_lt.2 hl), if_neg (fun hn => absurd (hp.symm.trans hn.1) (by decide)), if_pos ⟨hp, Option.isSome_iff_ne_none.2 hf⟩]
  · obtain ⟨j, hj, hs, hc⟩ := Pkg.withdrawn_tells (now := s.now) hl
    refine ⟨j, ?_, hs, hc⟩
    rw [exec_withdrawWaitEnd hoff]
    dsimp only
    rw [if_pos ⟨hp, h3, h⟩, hj]
  · rw [exec_withdrawWaitEnd hoff]
    dsimp only
    rw [if_neg]
    rintro ⟨hp, h3, ht⟩
    obtain h | h | ⟨h0, h⟩ := h
    · exact h hp
    · exact h h3
    · exact ht.elim (absurd · h0) (Nat.not_le.2 h)
  · rw [exec_withdrawLimit hoff hw]
    dsimp only
    rw [if_neg (fun h => Nat.not_le.2 ht h.2.1)]
  · obtain ⟨hE, hout⟩ := Pkg.onWithdrawn_last (now := s.now) (o := r) (k := (s.pkg p).sendFlood mWithdrawn ((s.pkg p).turnMsg r 0 none)) hp
      (by rw [Pkg.sendFlood_chart, hw, hr]) h5 hf
    refine ⟨_, (exec_withdrawLimit hoff hw).trans (by dsimp only; rw [if_pos ⟨hp, ht, hl⟩]), hE,
      hout _ (List.mem_append_right _ (List.mem_singleton.2 rfl))⟩
  · obtain ⟨b1, b2, b3, b4, b5, hout⟩ := Pkg.onWithdrawn_next (now := s.now) (r := r) (q := q) (l := l)
      (k := (s.pkg p).sendFlood mWithdrawn ((s.pkg p).turnMsg r 0 none)) hp (by rw [Pkg.sendFlood_chart, hw, hr]) ho
    refine ⟨_, (exec_withdrawLimit hoff hw).trans (by dsimp only; rw [if_pos ⟨hp, ht, hl⟩]), b1, hr ▸ b2, b3, b4, b5,
      hout _ (List.mem_append_right _ (List.mem_singleton.2 rfl))⟩
  · have hc : ((s.pkg p).wakeForChart.sendFlood mWithdrawn m).chart = _ := (s.pkg p).relayed_chart mWithdrawn m
    obtain ⟨hE, hout⟩ := Pkg.onWithdrawn_last (now := s.now) (o := m.order.toNat) (k := (s.pkg p).wakeForChart.sendFlood mWithdrawn m)
      (((s.pkg p).relayed_get _ _ (f := F.CHT_TURN_STATUS_PHASE) (by decide) (by decide)).trans hp) (by rw [hc, hw])
      (((s.pkg p).relayed_get _ _ (f := F.CHT_SLOT_STATUS_SHADOW_STATE) (by decide) (by decide)).trans h5) (by rw [hc, hf])
    rw [Pkg.relayed_out] at hout
    refine ⟨_, (exec_turnWithdrawn hoff _).trans (congrArg (fun j => Host.Outcome.next (s.setPkg p j)) (Pkg.takeFlood_acts _ hs hm)),
      hE.of_chart hc ((s.pkg p).relayed_get _ _ (f := F.CHT_TURN_STATUS_OWN_STATE) (by decide) (by decide)),
      hout _ (List.mem_append_right _ (List.mem_singleton.2 rfl))⟩
  · rw [exec_turnWithdrawn hoff, Pkg.takeWithdrawn_one, if_pos ⟨hm, ho⟩, Pkg.leadWithdrawn_waits (by exact hp)]
    rfl
  · obtain ⟨hE, hout⟩ := Pkg.onWithdrawn_last (now := s.now) (o := (s.pkg p).ownRegion)
      (k := ((s.pkg p).withdrawnBy m).sendFlood mWithdrawn ((s.pkg p).turnMsg (s.pkg p).ownRegion 0 none)) hp hw h5 hf
    refine ⟨_, (exec_turnWithdrawn hoff _).trans (congrArg (fun j => Host.Outcome.next (s.setPkg p j))
      (((Pkg.takeWithdrawn_one ..).trans (if_pos ⟨hm, ho⟩)).trans (Pkg.leadWithdrawn_floods hp hw hl hall))), hE,
      hout _ (List.mem_append_right _ (List.mem_singleton.2 rfl))⟩
  · rw [exec_turnWithdrawn hoff, Pkg.takeWithdrawn_one, if_neg (fun h => Bool.false_ne_true (hm.symm.trans h.1))]
  · rw [exec_turnWithdrawn hoff]
    refine congrArg (fun j => Host.Outcome.next (s.setPkg p j)) ((Pkg.takeFlood_relayed _ hs hm).trans ?_)
    rw [Pkg.wakeForChart_up hu]

end Sys2Proof.Machine
end

section
/-! PROOF. Loading and validating a Chart image (R114, R115, R120, R121). -/
namespace Sys2Proof.Machine
open Sys2Proof

/-! ### Unit 0 at work -/

/-- Between two states of a package only check-value unit 0 worked: its registers, its job, its domain and what it sent changed. -/
structure Pkg.UnitKept (j k : Pkg) : Prop where
  chart : k.chart = j.chart
  dark : k.dark = j.dark
  mem : k.mem = j.mem
  regs : ∀ o, o ≠ R.AON_DOMAIN_ON 12 → (o < 0x60000 ∨ 0x60100 ≤ o) → k.rg o = j.rg o

theorem Pkg.UnitKept.refl (k : Pkg) : k.UnitKept k := ⟨rfl, rfl, rfl, fun _ _ _ => rfl⟩
theorem Pkg.UnitKept.trans {i j k : Pkg} (h : i.UnitKept j) (h' : j.UnitKept k) : i.UnitKept k :=
  ⟨h'.chart.trans h.chart, h'.dark.trans h.dark, h'.mem.trans h.mem, fun o h1 h2 => (h'.regs o h1 h2).trans (h.regs o h1 h2)⟩
theorem Pkg.UnitKept.foldl {β : Type} {f : Pkg → β → Pkg} (hf : ∀ (k : Pkg) b, k.UnitKept (f k b)) : ∀ (l : List β) (k : Pkg), k.UnitKept (l.foldl f k)
  | [], k => .refl k
  | b :: l, k => (hf k b).trans (Pkg.UnitKept.foldl hf l _)
theorem Pkg.UnitKept.ite {c : Prop} [Decidable c] {j k l : Pkg} (h : j.UnitKept k) (h' : j.UnitKept l) : j.UnitKept (if c then k else l) := by
  split
  · exact h
  · exact h'
section
variable (k : Pkg)
theorem Pkg.UnitKept.setRg {o : Nat} (v : Word) (h0 : 0x60000 ≤ o) (h1 : o < 0x60100) : k.UnitKept (k.setRg o v) :=
  ⟨rfl, rfl, rfl, fun _ _ h => Pkg.rg_setRg_ne _ _ (by omega)⟩
theorem Pkg.UnitKept.setWide {o : Nat} (v : Nat) (h0 : 0x60000 ≤ o) (h1 : o + 4 < 0x60100) : k.UnitKept (k.setWide o v) :=
  (Pkg.UnitKept.setRg k _ h0 (by omega)).trans (.setRg _ _ (by omega) h1)
theorem Pkg.UnitKept.put {f : Fld} (v : Nat) (h0 : 0x60000 ≤ f.off) (h1 : f.off < 0x60100) : k.UnitKept (k.put f v) := .setRg k _ h0 h1
theorem Pkg.UnitKept.setCsu (u : Nat) (x : CsuJob) : k.UnitKept (k.setCsu u x) := ⟨rfl, rfl, rfl, fun _ _ _ => rfl⟩
theorem Pkg.UnitKept.emit (m : Msg) : k.UnitKept (k.emit m) := ⟨rfl, rfl, rfl, fun _ _ _ => rfl⟩
theorem Pkg.csuEnd_unitKept (state code : Nat) : k.UnitKept (k.csuEnd 0 state code) := by
  have h : k.UnitKept (k.csuStatus 0 state code) :=
    ((Pkg.UnitKept.put k (f := F.CSU_STATUS_STATE 0) _ (by decide) (by decide)).trans
      (.put _ (f := F.CSU_STATUS_CODE 0) _ (by decide) (by decide))).trans (.put _ (f := F.CSU_STATUS_VALID 0) _ (by decide) (by decide))
  rw [Pkg.csuEnd_eq]
  exact .ite (h.trans (.emit ..)) h
theorem Pkg.csuTake_unitKept (data : List Byte) : k.UnitKept (k.csuTake 0 data) :=
  ((Pkg.UnitKept.setCsu k 0 _).trans (.setWide _ (o := R.CSU_PROGRESS_LO 0) _ (by decide) (by decide))).trans
    (.setWide _ (o := R.CSU_RESULT_LO 0) _ (by decide) (by decide))
/-- To put what a field reads changes nothing. -/
theorem Pkg.rg_put_get (f : Fld) (hf : f.lo + f.width ≤ 32) (o : Nat) : (k.put f (k.get f)).rg o = k.rg o := by
  by_cases ho : o = f.off
  · subst ho
    refine (Pkg.rg_setRg_same ..).trans (BitVec.eq_of_toNat_eq (Nat.eq_of_testBit_eq fun i => ?_))
    by_cases hi : i < 32
    · rw [putBits_bit _ _ _ _ _ hi, Nat.testBit_mod_two_pow, Pkg.get, testBit_bits]
      split
      next h => simp [show i - f.lo < f.width by omega, show f.lo + (i - f.lo) = i by omega]
      next h => rfl
    · rw [Nat.testBit_lt_two_pow (lt_of_lt_of_le (BitVec.isLt _) (Nat.pow_le_pow_right (by decide) (Nat.not_lt.1 hi))),
        Nat.testBit_lt_two_pow (lt_of_lt_of_le (BitVec.isLt _) (Nat.pow_le_pow_right (by decide) (Nat.not_lt.1 hi)))]
  · exact Pkg.rg_put_ne _ _ _ ho
theorem Pkg.rg_clearBits_zero (f : Fld) (hf : f.lo + f.width ≤ 32) (o : Nat) : (k.clearBits f 0).rg o = k.rg o := by
  have hv : k.get f % 2 ^ f.width = k.get f := Nat.mod_eq_of_lt (Nat.mod_lt _ (Nat.two_pow_pos _))
  rw [Pkg.clearBits, Nat.xor_zero, Nat.and_two_pow_sub_one_eq_mod, hv]
  exact k.rg_put_get f hf o
/-- The infrastructure's domain of unit 0 is powered, and the state of the package stays. -/
theorem Pkg.power_unitKept (ds : List Nat) (h : ∀ d ∈ ds, d = 410) : k.UnitKept (k.power ds) := by
  have hc : ∀ d, d ≠ 410 → ds.contains d = false := fun d hd => by
    rw [← Bool.not_eq_true, List.contains_iff_mem]
    exact fun hm => hd (h d hm)
  have hf : (List.range 4).filter (fun t => ds.contains (384 + t)) = [] := by
    rw [List.filter_eq_nil_iff]
    intro t ht
    rw [hc _ (by have := List.mem_range.1 ht; omega)]
    exact Bool.false_ne_true
  have ha : (List.range 4).any (fun i => ds.contains (406 + i)) = false := by
    rw [List.any_eq_false]
    intro i hi
    rw [hc _ (by have := List.mem_range.1 hi; omega)]
    exact Bool.false_ne_true
  have hs : OnlyRegs k (k.power ds) := k.power_onlyRegs ds
  refine ⟨by rw [hs], by rw [hs], by rw [hs], fun o h12 _ => ?_⟩
  unfold Pkg.power
  dsimp only
  rw [hf, ha, if_neg Bool.false_ne_true]
  exact (Pkg.rg_clearBits_zero _ _ (by decide) o).trans (Pkg.rg_setDomains_infra h12 _ _ _ (fun d hd => by rw [h d hd]))
/-- Unit 0 once a job of it has begun, before its refusal is judged. -/
def Pkg.csuBegun (k : Pkg) : Pkg :=
  let k1 := (((k.setWide (R.CSU_PROGRESS_LO 0) 0).setRg (R.CSU_EVENTS 0) 0).put (F.CSU_STREAM_NEXT 0)
    (k.get (F.CSU_STREAM_FIRST 0))).setCsu 0 { crc := crcInit (k.csu64 0), chunks := 0 }
  ((((k1.put (F.CSU_STATUS_STATE 0) 1).put (F.CSU_STATUS_CODE 0) 0).flag (F.CSU_STATUS_VALID 0) false)).setWide
    (R.CSU_RESULT_LO 0) (crcFinal (k.csu64 0) (crcInit (k.csu64 0)))
theorem Pkg.csuBegun_unitKept : k.UnitKept k.csuBegun :=
  (((((((Pkg.UnitKept.setWide k (o := R.CSU_PROGRESS_LO 0) _ (by decide) (by decide)).trans
    (.setRg _ (o := R.CSU_EVENTS 0) _ (by decide) (by decide))).trans (.put _ (f := F.CSU_STREAM_NEXT 0) _ (by decide) (by decide))).trans
    (.setCsu ..)).trans (.put _ (f := F.CSU_STATUS_STATE 0) _ (by decide) (by decide))).trans
    (.put _ (f := F.CSU_STATUS_CODE 0) _ (by decide) (by decide))).trans (.put _ (f := F.CSU_STATUS_VALID 0) _ (by decide) (by decide))).trans
    (.setWide _ (o := R.CSU_RESULT_LO 0) _ (by decide) (by decide))
theorem Pkg.csuBegun_space : k.csuBegun.get (F.CSU_CTRL_SPACE 0) = k.get (F.CSU_CTRL_SPACE 0) := by
  unfold Pkg.csuBegun Pkg.flag
  dsimp only
  rw [Pkg.get_setWide _ _ _ (by decide) (by decide), Pkg.get_put_reg_ne _ _ _ _ (by decide), Pkg.get_put_reg_ne _ _ _ _ (by decide),
    Pkg.get_put_reg_ne _ _ _ _ (by decide)]
  refine (Pkg.get_of_regs rfl _).trans ((Pkg.get_put_reg_ne _ (F.CSU_STREAM_NEXT 0) _ _ (by decide)).trans ?_)
  exact (Pkg.get_of_rg (Pkg.rg_setRg_ne _ _ (by decide))).trans (Pkg.get_setWide _ _ _ (by decide) (by decide))
/-- Unit 0 scans the shadow slot: its source lies in the infrastructure. -/
theorem Pkg.csuStart_unitKept (hs : k.get (F.CSU_CTRL_SPACE 0) = 3) : k.UnitKept (k.csuStart 0) := by
  have hb := k.csuBegun_unitKept
  have hsp : k.csuBegun.get (F.CSU_CTRL_SPACE 0) = 3 := k.csuBegun_space.trans hs
  have heq : k.csuStart 0 = if k.csuBusy 0 then k else match k.csuBegun.startRefusal 0 with
      | some code => k.csuBegun.csuEnd 0 4 code
      | none => k.csuBegun.csuPower 0 := rfl
  rw [heq]
  generalize k.csuBegun = k2 at hb hsp
  split
  · exact .refl k
  · split
    · exact hb.trans (Pkg.csuEnd_unitKept ..)
    · refine hb.trans (Pkg.power_unitKept _ _ fun d hd => ?_)
      rw [List.mem_cons] at hd
      obtain hd | hd := hd
      · exact hd
      · unfold Pkg.csuScan at hd
        split at hd
        · simpa [Pkg.sourceDomains, hsp] using hd
        · simp at hd
theorem Pkg.csuSection_unitKept (o : Nat) : k.UnitKept (k.csuSection o) := by
  have h : k.UnitKept (((k.setRg (R.CSU_CTRL 0) 0x3040).setWide (R.CSU_ADDR_LO 0) (sec k.chart.shadow o).1).setWide (R.CSU_LEN_LO 0)
      (sec k.chart.shadow o).2) :=
    ((Pkg.UnitKept.setRg k (o := R.CSU_CTRL 0) _ (by decide) (by decide)).trans (.setWide _ (o := R.CSU_ADDR_LO 0) _ (by decide) (by decide))).trans
      (.setWide _ (o := R.CSU_LEN_LO 0) _ (by decide) (by decide))
  refine h.trans (Pkg.csuStart_unitKept _ ?_)
  rw [Pkg.get_setWide _ _ _ (by decide) (by decide), Pkg.get_setWide _ _ _ (by decide) (by decide)]
  exact congrArg (fun w : Word => bits w.toNat 12 4) (Pkg.rg_setRg_same ..)
theorem Pkg.csuSectionEnd_unitKept (o : Nat) : k.UnitKept (k.csuSectionEnd o) :=
  .ite ((k.csuTake_unitKept _).trans (Pkg.csuEnd_unitKept ..)) (.refl k)
theorem Pkg.csuValidate_unitKept : k.UnitKept k.csuValidate := by
  unfold Pkg.csuValidate
  split
  · cases (sectionsOf k.chart.shadow).head? with
    | none => exact .refl k
    | some o => exact k.csuSection_unitKept o
  · exact .refl k
theorem Pkg.csuValidated_unitKept : k.UnitKept k.csuValidated := by
  unfold Pkg.csuValidated
  split
  · exact .refl k
  · exact (k.csuSectionEnd_unitKept _).trans (.foldl (fun k o => (k.csuSection_unitKept o).trans (Pkg.csuSectionEnd_unitKept ..)) _ _)
end
/-! ### Writes of CHT_LOAD_CTRL and CHT_LOAD_DATA -/

def loadCtrlDesc : RegDesc := ⟨"CHT_LOAD_CTRL", 0x20010, 1, 0x0, 1, 0x0, 0x0, 0x0, 0x0, 0x0, 0x7, 0, 1⟩
def loadDataDesc : RegDesc := ⟨"CHT_LOAD_DATA", 0x20014, 1, 0x0, 1, 0x0, 0x0, 0x0, 0x0, 0x0, 0xffffffff, 0, 1⟩
section
variable {s : State} {p : PkgId} {who : Requester} {i : Instr} {w : Word} {j : Pkg} (hx : exec i s = busAccess i s)
include hx

/-- What is stored of a word for a register without fields that keep what is written. -/
abbrev Pkg.rewritten (off : Nat) (k : Pkg) : Pkg := k.setRg off (k.rg off)
omit hx in
theorem Pkg.storeFields_rewritten {d : RegDesc} (hr : d.rw = 0) (hc : d.w1c = 0) (off : Nat) (w : Word) (k : Pkg) :
    k.storeFields d off w = k.rewritten off := by
  unfold Pkg.storeFields
  rw [hr, hc]
  refine congrArg (k.setRg off) ?_
  change (k.rg off &&& ~~~0#32 ||| w &&& 0#32) &&& ~~~(w &&& 0#32) = k.rg off
  rw [BitVec.and_zero, BitVec.or_zero, BitVec.not_zero, BitVec.and_allOnes, BitVec.and_allOnes]
omit hx in
theorem Pkg.rewritten_same (off : Nat) (k : Pkg) : SamePkg k (k.rewritten off) := by
  refine ⟨rfl, fun o => ?_⟩
  by_cases ho : o = off
  · subst ho
    exact Pkg.rg_setRg_same ..
  · exact Pkg.rg_setRg_ne _ _ ho
theorem exec_CHT_LOAD_CTRL (ho : Open s p who R.CHT_LOAD_CTRL) (hi : busOpOf i = some (p, writeOp who R.CHT_LOAD_CTRL w))
    (hj : ((s.pkg p).rewritten R.CHT_LOAD_CTRL).loadCtrl (bit w.toNat 0) (bit w.toNat 1) (bit w.toNat 2) = j) (hd : j.dark = (s.pkg p).dark) :
    exec i s = .next (s.wrote p who R.CHT_LOAD_CTRL s.mem j) := by
  rw [hx]
  refine busAccess_writes (d := loadCtrlDesc) hi ho findReg_CHT_LOAD_CTRL (by decide) (by decide) ?_ (by rw [Pkg.pkgDark, hd, ← Pkg.pkgDark])
  rw [← Pkg.storeFields_rewritten (d := loadCtrlDesc) rfl rfl R.CHT_LOAD_CTRL w] at hj
  subst hj
  rfl
theorem exec_CHT_LOAD_DATA (ho : Open s p who R.CHT_LOAD_DATA) (hi : busOpOf i = some (p, writeOp who R.CHT_LOAD_DATA w))
    (hj : ((s.pkg p).rewritten R.CHT_LOAD_DATA).loadWord w = j) (hd : j.dark = (s.pkg p).dark) :
    exec i s = .next (s.wrote p who R.CHT_LOAD_DATA s.mem j) := by
  rw [hx]
  refine busAccess_writes (d := loadDataDesc) hi ho findReg_CHT_LOAD_DATA (by decide) (by decide) ?_ (by rw [Pkg.pkgDark, hd, ← Pkg.pkgDark])
  rw [← Pkg.storeFields_rewritten (d := loadDataDesc) rfl rfl R.CHT_LOAD_DATA w] at hj
  subst hj
  rfl
end

/-! ### Loads -/

theorem Pkg.beginLoad_refused {dma : Bool} {k : Pkg} (hoff : k.chartOff = false) (h5 : k.shadowState = 5) :
    k.beginLoad dma = k.put F.CHT_SLOT_STATUS_LOAD_REFUSED 1 := by
  unfold Pkg.beginLoad
  rw [if_neg (by rw [hoff]; exact Bool.false_ne_true), if_pos h5]
  rfl
/-- A BEGIN discards the shadow slot and starts a load. -/
theorem Pkg.beginLoad_spec {dma : Bool} {k : Pkg} (hoff : k.chartOff = false) (h5 : k.shadowState ≠ 5) (hl : k.get F.CHT_LOAD_LEN_LEN ≠ 0) :
    (k.beginLoad dma).shadowState = 1 ∧ (k.beginLoad dma).chart = { k.chart with
      shadow := [], loadPort := !dma, loadDma := dma, loadLen := k.get F.CHT_LOAD_LEN_LEN } ∧
    (k.beginLoad dma).get F.CHT_SLOT_STATUS_CODE = 0 ∧ (k.beginLoad dma).rg R.CHT_FAULT_WHERE = 0 ∧ (k.beginLoad dma).mem = k.mem ∧
    (k.beginLoad dma).dark = k.dark := by
  have hk := k.wakeForChart_kept
  obtain ⟨hc, -, -, -, hd, hm, -⟩ := k.wakeForChart.emptyShadow_spec
  have hbegin : k.beginLoad dma = (((((k.wakeForChart.emptyShadow).put F.CHT_SLOT_STATUS_CODE 0).setRg R.CHT_FAULT_WHERE 0).setChart fun c =>
      { c with loadPort := !dma && decide (k.get F.CHT_LOAD_LEN_LEN ≠ 0), loadDma := dma, loadLen := k.get F.CHT_LOAD_LEN_LEN }).putShadow 1) := by
    unfold Pkg.beginLoad
    dsimp only
    rw [if_neg (by rw [hoff]; exact Bool.false_ne_true), if_neg h5, if_neg (fun h => hl h.1)]
  rw [hbegin]
  rw [hk.chart] at hc
  rw [hk.dark] at hd
  rw [hk.mem] at hm
  generalize k.wakeForChart.emptyShadow = z at hc hd hm
  refine ⟨Pkg.get_put_same _ F.CHT_SLOT_STATUS_SHADOW_STATE _ (by decide), ?_, ?_, ?_, hm, hd⟩
  · rw [Pkg.putShadow, Pkg.put_chart, Pkg.chart_setChart, Pkg.setRg_chart, Pkg.put_chart, hc, decide_eq_true hl, Bool.and_true]
  · refine (Pkg.get_put_disjoint _ F.CHT_SLOT_STATUS_SHADOW_STATE F.CHT_SLOT_STATUS_CODE _ (by decide) rfl (by decide)).trans ?_
    rw [Pkg.get_setChart, Pkg.get_of_rg (Pkg.rg_setRg_ne _ _ (by decide)), Pkg.get_put_same _ _ _ (by decide)]
    rfl
  · exact (Pkg.rg_put_ne _ _ _ (by decide)).trans ((Pkg.rg_setChart ..).trans (Pkg.rg_setRg_same ..))

/-- The shadow image as more bytes have come. -/
def Pkg.loadedImage (data : List Byte) (k : Pkg) : List Byte := (k.chart.shadow ++ data).take k.chart.loadLen
/-- Bytes join the image, and the last ones start validation. -/
theorem Pkg.loadBytes_spec (data : List Byte) (k : Pkg) :
    (k.loadBytes data).chart.shadow = k.loadedImage data ∧ (k.loadBytes data).chart.active = k.chart.active ∧ (k.loadBytes data).dark = k.dark ∧
    (k.chart.loadLen ≤ (k.loadedImage data).length → (k.loadBytes data).shadowState = 2 ∧ (k.loadBytes data).chart.loadPort = false ∧
      (k.loadBytes data).chart.loadDma = false) ∧
    ((k.loadedImage data).length < k.chart.loadLen → (k.loadBytes data).shadowState = k.shadowState ∧
      (k.loadBytes data).chart.loadPort = k.chart.loadPort) ∧
    (256 ≤ (k.loadedImage data).length → (k.loadBytes data).rg R.CHT_SHADOW_EPOCH = BitVec.ofNat 32 (chEpoch (k.loadedImage data))) := by
  have heq : k.loadBytes data =
      (let done := decide (k.chart.loadLen ≤ (k.loadedImage data).length)
       let k1 := k.setChart fun c => { c with shadow := k.loadedImage data, loadPort := c.loadPort && !done, loadDma := c.loadDma && !done }
       let k2 := if 256 ≤ (k.loadedImage data).length then k1.setRg R.CHT_SHADOW_EPOCH (BitVec.ofNat 32 (chEpoch (k.loadedImage data))) else k1
       if done then (k2.putShadow 2).csuValidate else k2) := rfl
  rw [heq]
  dsimp only
  generalize k.loadedImage data = img
  generalize hd : decide (k.chart.loadLen ≤ img.length) = done
  have hd' : k.chart.loadLen ≤ img.length ↔ done = true := by rw [← hd, decide_eq_true_eq]
  generalize hk2 : (if 256 ≤ img.length then (k.setChart fun c =>
      { c with shadow := img, loadPort := c.loadPort && !done, loadDma := c.loadDma && !done }).setRg R.CHT_SHADOW_EPOCH (BitVec.ofNat 32 (chEpoch img))
    else k.setChart fun c => { c with shadow := img, loadPort := c.loadPort && !done, loadDma := c.loadDma && !done }) = k2
  have h2 : k2.chart = { k.chart with shadow := img, loadPort := k.chart.loadPort && !done, loadDma := k.chart.loadDma && !done } ∧ k2.dark = k.dark ∧
      k2.shadowState = k.shadowState ∧ (256 ≤ img.length → k2.rg R.CHT_SHADOW_EPOCH = BitVec.ofNat 32 (chEpoch img)) := by
    subst hk2
    split
    next h => exact ⟨rfl, rfl, (Pkg.get_of_rg (Pkg.rg_setRg_ne _ _ (by decide))).trans (Pkg.get_setChart ..), fun _ => Pkg.rg_setRg_same ..⟩
    next h => exact ⟨rfl, rfl, Pkg.get_setChart .., fun hn => absurd hn h⟩
  obtain ⟨hc, hdark, hs, he⟩ := h2
  cases done with
  | true =>
    have hv := (k2.putShadow 2).csuValidate_unitKept
    rw [if_pos rfl]
    generalize (k2.putShadow 2).csuValidate = j at hv
    have hc' : j.chart = _ := hv.chart.trans hc
    refine ⟨by rw [hc'], by rw [hc'], hv.dark.trans hdark, fun _ => ⟨?_, by rw [hc']; simp, by rw [hc']; simp⟩, fun h => ?_, fun h => ?_⟩
    · refine (Pkg.get_of_rg (hv.regs _ (by decide) (by decide))).trans ?_
      exact Pkg.get_put_same _ F.CHT_SLOT_STATUS_SHADOW_STATE _ (by decide)
    · exact absurd (hd'.2 rfl) (Nat.not_le.2 h)
    · exact (hv.regs _ (by decide) (by decide)).trans ((Pkg.rg_put_ne _ _ _ (by decide)).trans (he h))
  | false =>
    rw [if_neg Bool.false_ne_true]
    exact ⟨by rw [hc], by rw [hc], hdark, fun h => absurd (hd'.1 h) Bool.false_ne_true, fun _ => ⟨hs, by rw [hc]; simp⟩, he⟩

/-! ### Validation -/

theorem formFault_lt {addr : Nat} {img : List Byte} {c : Nat} (h : formFault addr img = some c) : c ≤ 6 := by
  unfold formFault at h
  split_ifs at h <;> simp_all <;> omega
/-- A validation's code is one of Table 5.6, and only SECTION_CHECK and BAD_FIELD show where. -/
theorem validate_spec (x : ChartCtx) (img : List Byte) : (validate x img).1 ≤ 12 ∧
    ((validate x img).1 ≠ 7 → (validate x img).1 ≠ 11 → (validate x img).2 = (0, 0)) := by
  unfold validate
  split
  next c h => exact ⟨(formFault_lt h).trans (by decide), fun _ _ => rfl⟩
  · split
    · exact ⟨(by decide : 7 ≤ 12), fun h => absurd rfl h⟩
    · dsimp only
      split
      · exact ⟨(by decide : 8 ≤ 12), fun _ _ => rfl⟩
      · split
        · exact ⟨(by decide : 9 ≤ 12), fun _ _ => rfl⟩
        · split
          · exact ⟨(by decide : 10 ≤ 12), fun _ _ => rfl⟩
          · split
            · exact ⟨(by decide : 11 ≤ 12), fun _ h => absurd rfl h⟩
            · split
              · exact ⟨(by decide : 12 ≤ 12), fun _ _ => rfl⟩
              · exact ⟨(by decide : 0 ≤ 12), fun _ _ => rfl⟩
theorem Pkg.validation_spec (k : Pkg) : k.validation.1 ≤ 12 ∧ (k.validation.1 ≠ 7 → k.validation.1 ≠ 11 → k.validation.2 = (0, 0)) := by
  unfold Pkg.validation
  dsimp only
  split
  · exact ⟨(by decide : 9 ≤ 12), fun _ _ => rfl⟩
  · exact validate_spec ..
theorem memRead_length (m : Mem) : ∀ (n key : Nat), (memRead m key n).length = n
  | 0, _ => rfl
  | n + 1, key => congrArg (· + 1) (memRead_length m n (key + 1))

theorem Pkg.cancelLoad_spec {k : Pkg} (h5 : k.shadowState ≠ 5) : k.cancelLoad.shadowState = 0 ∧
    k.cancelLoad.chart = { k.chart with shadow := [], loadPort := false, loadDma := false } ∧ k.cancelLoad.rg R.CHT_SHADOW_EPOCH = 0 ∧
    k.cancelLoad.dark = k.dark := by
  obtain ⟨hc, hs, he, -, hd, -⟩ := k.emptyShadow_spec
  unfold Pkg.cancelLoad
  rw [if_neg h5]
  exact ⟨hs, hc, he, hd⟩
/-- What CHT_FAULT_WHERE shows of an outcome of validation. -/
def faultWord (r : Nat × Nat × Nat) : Word := BitVec.ofNat 32 (r.2.1 * 2 ^ 28 + r.2.2)
theorem faultWord_zero {r : Nat × Nat × Nat} (h : r.2 = (0, 0)) : faultWord r = 0 := by
  obtain ⟨c, o, w⟩ := r
  obtain ⟨rfl, rfl⟩ := Prod.mk.inj h
  simp [faultWord]
/-- The image, its code and its fault's place after validation. -/
def Pkg.validated (k : Pkg) : Pkg :=
  let r := k.validation
  ((k.csuValidated.putShadow (if r.1 = 0 then 3 else 4)).put F.CHT_SLOT_STATUS_CODE r.1).setRg R.CHT_FAULT_WHERE (faultWord r)
theorem Pkg.validated_spec (k : Pkg) : k.validated.chart = k.chart ∧ k.validated.mem = k.mem ∧
    k.validated.shadowState = (if k.validation.1 = 0 then 3 else 4) ∧ k.validated.get F.CHT_SLOT_STATUS_CODE = k.validation.1 ∧
    (k.validation.1 ≠ 7 → k.validation.1 ≠ 11 → k.validated.rg R.CHT_FAULT_WHERE = 0) ∧
    (∀ o, o ≠ R.CHT_SLOT_STATUS → o ≠ R.CHT_FAULT_WHERE → o ≠ R.AON_DOMAIN_ON 12 → (o < 0x60000 ∨ 0x60100 ≤ o) → k.validated.rg o = k.rg o) := by
  obtain ⟨hlt, hwhere⟩ := k.validation_spec
  have hv := k.csuValidated_unitKept
  unfold Pkg.validated
  dsimp only
  generalize k.csuValidated = j at hv
  generalize k.validation = r at hlt hwhere
  have hzero : r.1 ≠ 7 → r.1 ≠ 11 → faultWord r = 0 := fun h7 h11 => faultWord_zero (hwhere h7 h11)
  generalize faultWord r = word at hzero
  refine ⟨?_, ?_, ?_, ?_, fun h7 h11 => ?_, fun o h1 h2 h3 h4 => ?_⟩
  · rw [Pkg.setRg_chart, Pkg.put_chart, Pkg.putShadow, Pkg.put_chart, hv.chart]
  · rw [Pkg.setRg_mem, Pkg.put_mem, Pkg.putShadow, Pkg.put_mem, hv.mem]
  · refine (Pkg.get_of_rg (Pkg.rg_setRg_ne _ _ (by decide))).trans
      ((Pkg.get_put_disjoint _ F.CHT_SLOT_STATUS_CODE F.CHT_SLOT_STATUS_SHADOW_STATE _ (by decide) rfl (by decide)).trans
        ((Pkg.get_put_same _ F.CHT_SLOT_STATUS_SHADOW_STATE _ (by decide)).trans ?_))
    split <;> rfl
  · refine (Pkg.get_of_rg (Pkg.rg_setRg_ne _ _ (by decide))).trans ((Pkg.get_put_same _ F.CHT_SLOT_STATUS_CODE _ (by decide)).trans ?_)
    exact Nat.mod_eq_of_lt (lt_of_le_of_lt hlt (by decide))
  · rw [Pkg.rg_setRg_same, hzero h7 h11]
  · rw [Pkg.rg_setRg_ne _ _ h2, Pkg.rg_put_ne _ _ _ h1, Pkg.putShadow, Pkg.rg_put_ne _ _ _ h1, hv.regs o h3 h4]
theorem Pkg.validation_tag {k : Pkg} (ht : slice k.chart.shadow 0 4 ≠ [0x43, 0x48, 0x52, 0x54]) (hu : k.unitState 250 < 3) : k.validation = (1, 0, 0) := by
  have hf : formFault k.addr k.chart.shadow = some 1 := if_pos ht
  unfold Pkg.validation validate
  dsimp only
  rw [hf, if_neg (fun h => Nat.not_le.2 hu h.1)]

section
variable {s : State} {p : PkgId} (hoff : (s.pkg p).chartOff = false)
include hoff
theorem exec_validationEnd : exec (.validationEnd p) s = .next (s.setPkg p (if (s.pkg p).shadowState ≠ 2 then s.pkg p else (s.pkg p).validated)) := by
  change execValidationEnd p s = _
  rw [execValidationEnd, chartPkg_on _ hoff]
  rfl
theorem exec_dmaLoadEnd : exec (.dmaLoadEnd p) s = .next (s.setPkg p (if (s.pkg p).chart.loadDma ∧ !(s.pkg p).pkc.hostInReset then
    (s.pkg p).loadBytes (memRead s.mem (memKey p 3 ((s.pkg p).wide R.CHT_LOAD_SRC_LO)) (s.pkg p).chart.loadLen) else s.pkg p)) := by
  change execDmaLoadEnd p s = _
  rw [execDmaLoadEnd, chartPkg_on _ hoff]
end

/-- Settles O19: the actions of the two load registers by what each leaves of the shadow slot, and validation by unit 0's part in it. -/
theorem chartLoadAndCheck : Obligations.ChartLoadAndCheck := by
  unfold Obligations.ChartLoadAndCheck
  refine ⟨fun s p who ho hoff => ?_, fun s p hoff => ?_⟩
  · have hs := (s.pkg p).rewritten_same R.CHT_LOAD_CTRL
    have hoff' := hs.chartOff.trans hoff
    have hl := hs.get F.CHT_LOAD_LEN_LEN
    have hsh := hs.kept.shadowState
    dsimp only
    refine ⟨fun h5 => ⟨_, hs, ?_, ?_, ?_⟩, fun h5 hlen => ⟨?_, ?_⟩, fun h5 => ?_, fun hod w => ⟨fun hp => ?_, fun hp => ?_⟩⟩
    · refine exec_CHT_LOAD_CTRL rfl ho rfl ?_ hs.dark
      exact if_pos (hsh.trans h5)
    · exact exec_CHT_LOAD_CTRL rfl ho rfl (Pkg.beginLoad_refused hoff' (hsh.trans h5)) hs.dark
    · exact exec_CHT_LOAD_CTRL rfl ho rfl (Pkg.beginLoad_refused hoff' (hsh.trans h5)) hs.dark
    · obtain ⟨h1, h2, h3, h4, hm, hd⟩ := Pkg.beginLoad_spec (dma := false) hoff' (by rw [hsh]; exact h5) (by rw [hl]; exact hlen)
      rw [hs.kept.chart, hl] at h2
      refine ⟨_, exec_CHT_LOAD_CTRL (j := ((s.pkg p).rewritten R.CHT_LOAD_CTRL).beginLoad false) rfl ho rfl rfl (hd.trans hs.dark), h1, ?_, ?_, ?_, ?_, h3, h4, ?_, hm.trans hs.kept.mem⟩
      all_goals simp only [h2, Bool.not_false, Bool.not_true]
    · obtain ⟨h1, h2, -, -, hm, hd⟩ := Pkg.beginLoad_spec (dma := true) hoff' (by rw [hsh]; exact h5) (by rw [hl]; exact hlen)
      rw [hs.kept.chart, hl] at h2
      refine ⟨_, exec_CHT_LOAD_CTRL (j := ((s.pkg p).rewritten R.CHT_LOAD_CTRL).beginLoad true) rfl ho rfl rfl (hd.trans hs.dark), h1, ?_, ?_, ?_, ?_, ?_, hm.trans hs.kept.mem⟩
      all_goals simp only [h2, Bool.not_false, Bool.not_true]
    · obtain ⟨h1, h2, h3, hd⟩ := Pkg.cancelLoad_spec (by rw [hsh]; exact h5)
      rw [hs.kept.chart] at h2
      refine ⟨_, exec_CHT_LOAD_CTRL (j := ((s.pkg p).rewritten R.CHT_LOAD_CTRL).cancelLoad) rfl ho rfl rfl (hd.trans hs.dark), h1, ?_, ?_, ?_, h3, ?_⟩
      all_goals simp only [h2, Bool.not_false, Bool.not_true]
    · have hsd := (s.pkg p).rewritten_same R.CHT_LOAD_DATA
      refine ⟨_, hsd, exec_CHT_LOAD_DATA rfl hod rfl (if_neg ?_) hsd.dark⟩
      rw [hsd.kept.chart, hp]
      exact Bool.false_ne_true
    · have hsd := (s.pkg p).rewritten_same R.CHT_LOAD_DATA
      obtain ⟨h1, h2, hd, h3, h4, h5⟩ := ((s.pkg p).rewritten R.CHT_LOAD_DATA).loadBytes_spec (leBytes 4 w.toNat)
      have himg : ((s.pkg p).rewritten R.CHT_LOAD_DATA).loadedImage (leBytes 4 w.toNat) = (s.pkg p).loadedImage (leBytes 4 w.toNat) := rfl
      rw [himg] at h1 h3 h4 h5
      rw [hsd.kept.shadowState, hsd.kept.chart, hp] at h4
      refine ⟨_, exec_CHT_LOAD_DATA (j := ((s.pkg p).rewritten R.CHT_LOAD_DATA).loadBytes (leBytes 4 w.toNat)) rfl hod rfl (if_pos ?_)
        (hd.trans hsd.dark), h1, h2, fun h => ⟨(h3 h).1, (h3 h).2.1⟩, h4, h5⟩
      rw [hsd.kept.chart, hp, hsd.chartOff, hoff]
      rfl
  · have hmem := memRead_length s.mem (s.pkg p).chart.loadLen (memKey p 3 ((s.pkg p).wide R.CHT_LOAD_SRC_LO))
    dsimp only
    refine ⟨fun h => ?_, fun h => ?_, Pkg.validation_tag, fun hd hr he => ?_, fun h => ?_⟩
    · rw [exec_validationEnd hoff, if_pos h]
    · obtain ⟨h1, h2, h3, h4, h5, h6⟩ := (s.pkg p).validated_spec
      exact ⟨_, (exec_validationEnd hoff).trans (by rw [if_neg (not_not.2 h)]), h1, h2, h3, h4, h5, h6⟩
    · obtain ⟨h1, h2, -, h3, -⟩ := (s.pkg p).loadBytes_spec (memRead s.mem (memKey p 3 ((s.pkg p).wide R.CHT_LOAD_SRC_LO)) (s.pkg p).chart.loadLen)
      have himg : (s.pkg p).loadedImage (memRead s.mem (memKey p 3 ((s.pkg p).wide R.CHT_LOAD_SRC_LO)) (s.pkg p).chart.loadLen) =
          memRead s.mem (memKey p 3 ((s.pkg p).wide R.CHT_LOAD_SRC_LO)) (s.pkg p).chart.loadLen := by
        rw [Pkg.loadedImage, he, List.nil_append, List.take_of_length_le (le_of_eq hmem)]
      rw [himg] at h1 h3
      obtain ⟨h4, -, h5⟩ := h3 (le_of_eq hmem.symm)
      exact ⟨_, (exec_dmaLoadEnd hoff).trans (by rw [if_pos ⟨hd, by rw [hr]; rfl⟩]), h4, h5, h1, h2⟩
    · rw [exec_dmaLoadEnd hoff, if_neg]
      rintro ⟨hd, hr⟩
      obtain h | h := h
      · exact Bool.false_ne_true (h.symm.trans hd)
      · rw [h] at hr
        exact Bool.false_ne_true hr

end Sys2Proof.Machine
end

section
/-! PROOF. The managers' log, a rack's alarms and caps, and the settings and alarms of the CDU (R228–R231, R249–R253, R315, R386). -/
namespace Sys2Proof.Machine
open Sys2Proof

variable {s t u : State} {rack : Fin 32} {a b : AlmId}

/-! ### What is written to the helm's log -/

/-- A manager without the entries of its log that the bookkeeping of alarms, messages and actions moves, and without what it sent. -/
def AlmSt.shell (x : AlmSt) : AlmSt := { x with log := { x.log with alarms := [], seqHigh := 0, actions := [] }, out := [] }

/-- Between two states nothing but alarms, sequence numbers and actions were logged, and nothing but managers sent. -/
structure State.Logged (s t : State) : Prop where
  rest : t = { s with almanacs := t.almanacs }
  shell : ∀ a, (t.alm a).shell = (s.alm a).shell
  out : ∀ a m, m ∈ (s.alm a).out → m ∈ (t.alm a).out

theorem State.Logged.refl (s : State) : s.Logged s := ⟨rfl, fun _ => rfl, fun _ _ h => h⟩
theorem State.Logged.trans (h : s.Logged t) (h' : t.Logged u) : s.Logged u :=
  ⟨by rw [h'.rest, h.rest], fun a => (h'.shell a).trans (h.shell a), fun a m hm => h'.out a m (h.out a m hm)⟩
theorem State.Logged.foldl {β : Type} {f : State → β → State} (hf : ∀ s b, State.Logged s (f s b)) :
    ∀ (l : List β) (s : State), s.Logged (l.foldl f s)
  | [], s => .refl s
  | b :: l, s => (hf s b).trans (State.Logged.foldl hf l _)

theorem State.Logged.racks (h : s.Logged t) : t.racks = s.racks := by rw [h.rest]
theorem State.Logged.rackSame (h : s.Logged t) (r : Fin 32) : t.rack r = s.rack r := by simp only [State.rack, h.racks]
theorem State.Logged.pkgs (h : s.Logged t) : t.pkgs = s.pkgs := by rw [h.rest]
theorem State.Logged.trays (h : s.Logged t) : t.trays = s.trays := by rw [h.rest]
theorem State.Logged.now (h : s.Logged t) : t.now = s.now := by rw [h.rest]
theorem State.Logged.rackTime (h : s.Logged t) (r : Fin 32) : t.rackTime r = s.rackTime r := by
  simp only [State.rackTime, h.rackSame, h.now]
theorem State.Logged.role (h : s.Logged t) (a : AlmId) : (t.alm a).role = (s.alm a).role := by
  simpa [AlmSt.shell] using congrArg AlmSt.role (h.shell a)
theorem State.Logged.epoch (h : s.Logged t) (a : AlmId) : (t.alm a).log.epoch = (s.alm a).log.epoch := by
  simpa [AlmSt.shell] using congrArg (fun x => x.log.epoch) (h.shell a)

/-- Which manager is the helm is a matter of roles and epochs. -/
theorem helm_congr (hr : ∀ a : AlmId, a.rack = rack → (t.alm a).role = (s.alm a).role)
    (he : ∀ a : AlmId, a.rack = rack → (t.alm a).log.epoch = (s.alm a).log.epoch) : t.helm rack = s.helm rack := by
  simp only [State.helm, hr ⟨rack, false⟩ rfl, hr ⟨rack, true⟩ rfl, he ⟨rack, false⟩ rfl, he ⟨rack, true⟩ rfl]
theorem State.Logged.helm (h : s.Logged t) (r : Fin 32) : t.helm r = s.helm r :=
  helm_congr (fun a _ => h.role a) (fun a _ => h.epoch a)
theorem State.helm_setRack (r q : Fin 32) (x : RackSt) : (s.setRack q x).helm r = s.helm r := rfl

theorem alm_rack_of_helm (h : s.helm rack = some a) : a.rack = rack := by
  simp only [State.helm] at h
  split at h
  · cases h; rfl
  · split at h
    · cases h; rfl
    · cases h
theorem AlmId.peer_ne (a : AlmId) : AlmId.peer a ≠ a := by
  obtain ⟨r, b⟩ := a
  cases b <;> simp [AlmId.peer]
/-- The helm is not its own peer, and its log takes what is logged. -/
theorem State.logs_helm (f : AlmLog → AlmLog) (h : s.helm rack = some a) :
    (s.logs rack f).alm a = { s.alm a with log := f (s.alm a).log } := by
  have hp : (⟨rack, !a.sideB⟩ : AlmId) ≠ a := by
    have := AlmId.peer_ne a
    rwa [AlmId.peer, alm_rack_of_helm h] at this
  simp only [State.logs, h]
  split
  · rw [State.alm_setAlm_ne _ _ hp.symm, State.alm_setAlm_same]
  · exact State.alm_setAlm_same ..
/-- What is logged, at each manager. -/
theorem State.logs_alm (f : AlmLog → AlmLog) (b : AlmId) :
    (s.logs rack f).alm b = s.alm b ∨ (s.logs rack f).alm b = { s.alm b with log := f (s.alm b).log } := by
  unfold State.logs
  cases h : s.helm rack with
  | none => exact .inl rfl
  | some a =>
    dsimp only
    by_cases hb : b = a
    · subst hb
      right
      have := State.logs_helm f h
      unfold State.logs at this
      rw [h] at this
      exact this
    · split
      · by_cases hp : b = ⟨rack, !a.sideB⟩
        · subst hp
          rw [State.alm_setAlm_same, State.alm_setAlm_ne _ _ hb]
          exact .inr rfl
        · rw [State.alm_setAlm_ne _ _ hp, State.alm_setAlm_ne _ _ hb]
          exact .inl rfl
      · rw [State.alm_setAlm_ne _ _ hb]
        exact .inl rfl
theorem State.logs_rest (f : AlmLog → AlmLog) : s.logs rack f = { s with almanacs := (s.logs rack f).almanacs } := by
  unfold State.logs
  split
  · rfl
  · dsimp only
    split <;> rfl
/-- Logging alarms, numbers and actions is bookkeeping. -/
theorem State.logs_logged {f : AlmLog → AlmLog}
    (hf : ∀ l, { f l with alarms := [], seqHigh := 0, actions := [] } = { l with alarms := [], seqHigh := 0, actions := [] }) :
    s.Logged (s.logs rack f) := by
  refine ⟨State.logs_rest f, fun b => ?_, fun b m hm => ?_⟩
  · rcases s.logs_alm (rack := rack) f b with h | h <;> rw [h]
    simp only [AlmSt.shell, hf]
  · rcases s.logs_alm (rack := rack) f b with h | h <;> rw [h] <;> exact hm
theorem State.setAlm_emit_logged (a : AlmId) (m : Msg) : s.Logged (s.setAlm a ((s.alm a).emit m)) := by
  refine ⟨rfl, fun b => ?_, fun b m hm => ?_⟩
  · by_cases hb : b = a
    · subst hb; rw [State.alm_setAlm_same]; rfl
    · rw [State.alm_setAlm_ne _ _ hb]
  · by_cases hb : b = a
    · subst hb; rw [State.alm_setAlm_same]; exact List.mem_append_left _ hm
    · rw [State.alm_setAlm_ne _ _ hb]; exact hm
theorem State.http_logged (a : AlmId) (code : Nat) (status : String) : s.Logged (s.http a code status) := s.setAlm_emit_logged a _
theorem State.http_told (a : AlmId) (code : Nat) (status : String) : Msg.http code status ∈ ((s.http a code status).alm a).out := by
  simp [State.http, AlmSt.emit]

/-! ### Alarms -/

theorem State.alarmSet_logged (name : String) (on : Bool) : s.Logged (s.alarmSet rack name on) := by
  unfold State.alarmSet
  cases s.helm rack with
  | none => exact .refl s
  | some a =>
    dsimp only
    split
    · exact .refl s
    · refine .trans ?_ (State.setAlm_emit_logged ..)
      exact State.logs_logged fun _ => rfl

/-- An alarm set is in the helm's log, one cleared is not. -/
theorem State.alarmSet_contains (name : String) (on : Bool) (h : s.helm rack = some a) :
    ((s.alarmSet rack name on).alm a).log.alarms.contains name = on := by
  simp only [State.alarmSet, h]
  split
  next he => exact of_decide_eq_true (by simpa using he)
  next he =>
    rw [State.alm_setAlm_same]
    simp only [AlmSt.emit, State.logs_helm _ h]
    cases on <;> simp
/-- An alarm of another name stays as it is. -/
theorem State.alarmSet_contains_ne {name other : String} (on : Bool) (hn : other ≠ name) (h : s.helm rack = some a) :
    ((s.alarmSet rack name on).alm a).log.alarms.contains other = (s.alm a).log.alarms.contains other := by
  simp only [State.alarmSet, h]
  split
  next => rfl
  next =>
    rw [State.alm_setAlm_same]
    simp only [AlmSt.emit, State.logs_helm _ h]
    cases on
    · rw [if_neg (by decide)]; simp [List.contains_eq_mem, List.mem_filter, hn]
    · rw [if_pos rfl]; simp [List.contains_eq_mem, hn]

theorem State.sendIdem_logged (kind : IdemKind) (slot pos : Nat) (value : Word) : s.Logged (s.sendIdem rack kind slot pos value) := by
  unfold State.sendIdem
  cases s.helm rack with
  | none => exact .refl s
  | some a =>
    refine .trans ?_ (State.setAlm_emit_logged ..)
    exact State.logs_logged fun _ => rfl
theorem State.sendIdem_alarms (kind : IdemKind) (slot pos : Nat) (value : Word) (h : s.helm rack = some a) :
    ((s.sendIdem rack kind slot pos value).alm a).log.alarms = (s.alm a).log.alarms := by
  simp only [State.sendIdem, h, State.alm_setAlm_same, AlmSt.emit, State.logs_helm _ h]

/-! ### Caps -/

/-- A rack without its caps, what was judged of them, its mode, and what it sent. -/
def RackSt.supply (x : RackSt) : RackSt :=
  { x with caps := [], dual := false, acked := [], capShort := false, brakeShort := false, capacity := false, out := [] }
/-- The caps to send follow from the supply and the Charts, the mode of the turn and the site cap in the log. -/
theorem RackSt.caps2_congr {x y : RackSt} {l m : AlmLog} (time : Nat) (hx : x.supply = y.supply)
    (hl : { l with alarms := [], seqHigh := 0, actions := [] } = { m with alarms := [], seqHigh := 0, actions := [] }) :
    x.caps2 time l = y.caps2 time m := by
  have e : ∀ (x : RackSt) (l : AlmLog), x.caps2 time l = x.supply.caps2 time { l with alarms := [], seqHigh := 0, actions := [] } :=
    fun _ _ => rfl
  rw [e x, e y, hx, hl]

/-- What the recomputation of a rack's caps leaves: the rack but for its caps and what was judged of them, and all but logs and messages. -/
structure State.Recapped (rack : Fin 32) (s t : State) : Prop where
  rest : t = { s with almanacs := t.almanacs, racks := t.racks }
  other : ∀ r, r ≠ rack → t.rack r = s.rack r
  supply : (t.rack rack).supply = (s.rack rack).supply
  rackOut : (t.rack rack).out = (s.rack rack).out
  shell : ∀ a, (t.alm a).shell = (s.alm a).shell
  out : ∀ a m, m ∈ (s.alm a).out → m ∈ (t.alm a).out

theorem State.Logged.recapped (h : s.Logged t) (rack : Fin 32) : s.Recapped rack t :=
  ⟨by rw [h.rest], fun r _ => h.rackSame r, by rw [h.rackSame], by rw [h.rackSame], h.shell, h.out⟩
theorem State.Recapped.refl (rack : Fin 32) (s : State) : s.Recapped rack s := (State.Logged.refl s).recapped rack
theorem State.Recapped.trans (h : s.Recapped rack t) (h' : t.Recapped rack u) : s.Recapped rack u :=
  ⟨by rw [h'.rest, h.rest], fun r hr => (h'.other r hr).trans (h.other r hr), h'.supply.trans h.supply, h'.rackOut.trans h.rackOut,
    fun a => (h'.shell a).trans (h.shell a), fun a m hm => h'.out a m (h.out a m hm)⟩
theorem State.setRack_recapped {x : RackSt} (h : x.supply = (s.rack rack).supply) (ho : x.out = (s.rack rack).out) :
    s.Recapped rack (s.setRack rack x) :=
  ⟨rfl, fun r hr => State.rack_setRack_ne s x hr, by rw [State.rack_setRack_same, h], by rw [State.rack_setRack_same, ho], fun _ => rfl,
    fun _ _ hm => hm⟩

theorem State.Recapped.now (h : s.Recapped rack t) : t.now = s.now := by rw [h.rest]
theorem State.Recapped.pkgs (h : s.Recapped rack t) : t.pkgs = s.pkgs := by rw [h.rest]
theorem State.Recapped.trays (h : s.Recapped rack t) : t.trays = s.trays := by rw [h.rest]
theorem State.Recapped.helm (h : s.Recapped rack t) (r : Fin 32) : t.helm r = s.helm r :=
  helm_congr (fun a _ => by simpa [AlmSt.shell] using congrArg AlmSt.role (h.shell a))
    (fun a _ => by simpa [AlmSt.shell] using congrArg (fun x => x.log.epoch) (h.shell a))
theorem State.Recapped.rackTime (h : s.Recapped rack t) : t.rackTime rack = s.rackTime rack := by
  have := congrArg RackSt.timeOff h.supply
  simp only [State.rackTime, h.now]
  rw [show (t.rack rack).timeOff = (s.rack rack).timeOff from this]

theorem State.recapRack_none (h : s.helm rack = none) : s.recapRack rack = s := by simp only [State.recapRack, h]
/-- The rack after the helm recomputed its caps. -/
def State.capped (rack : Fin 32) (l : AlmLog) (s : State) : RackSt :=
  { s.rack rack with
    caps := (s.rack rack).caps2 (s.rackTime rack) l, dual := l.dual (s.rackTime rack), acked := []
    capShort := (s.rack rack).short l.capsChart l.siteCapW, brakeShort := (s.rack rack).brakesShort l.capsChart l.siteCapW }
/-- The helm sends each package its cap. -/
def State.sendCaps (rack : Fin 32) (caps : SMap Nat) (s : State) : State :=
  caps.foldl (fun s e => s.sendIdem rack .cap (e.1 / 12 * 3 + e.1 % 12 / 4) (e.1 % 4) (BitVec.ofNat 32 e.2)) s
theorem State.sendCaps_logged (rack : Fin 32) (caps : SMap Nat) (s : State) : s.Logged (s.sendCaps rack caps) :=
  .foldl (fun _ _ => State.sendIdem_logged ..) _ _
theorem State.sendCaps_alarms : ∀ (caps : SMap Nat) (s : State), s.helm rack = some a →
    ((s.sendCaps rack caps).alm a).log.alarms = (s.alm a).log.alarms
  | [], _, _ => rfl
  | _ :: l, _, h => (State.sendCaps_alarms l _ (((State.sendIdem_logged ..).helm rack).trans h)).trans (State.sendIdem_alarms _ _ _ _ h)
theorem State.recapRack_some (h : s.helm rack = some a) :
    s.recapRack rack = (((s.setRack rack (s.capped rack (s.alm a).log)).alarmSet rack "CAP_SHORT"
      ((s.rack rack).short (s.alm a).log.capsChart (s.alm a).log.siteCapW)).alarmSet rack "BRAKE_SHORT"
        ((s.rack rack).brakesShort (s.alm a).log.capsChart (s.alm a).log.siteCapW)).sendCaps rack
          ((s.rack rack).caps2 (s.rackTime rack) (s.alm a).log) := by
  unfold State.recapRack
  rw [h]
  rfl
theorem State.recapRack_logged (h : s.helm rack = some a) :
    (s.setRack rack (s.capped rack (s.alm a).log)).Logged (s.recapRack rack) := by
  rw [State.recapRack_some h]
  exact ((State.alarmSet_logged ..).trans (State.alarmSet_logged ..)).trans (State.sendCaps_logged ..)
theorem State.recapRack_recapped (rack : Fin 32) (s : State) : s.Recapped rack (s.recapRack rack) := by
  cases h : s.helm rack with
  | none => rw [State.recapRack_none h]; exact .refl rack s
  | some a => exact (State.setRack_recapped (x := s.capped rack (s.alm a).log) rfl rfl).trans ((State.recapRack_logged h).recapped rack)
theorem State.recapRack_caps (h : s.helm rack = some a) :
    ((s.recapRack rack).rack rack).caps = (s.rack rack).caps2 (s.rackTime rack) (s.alm a).log := by
  rw [(State.recapRack_logged h).rackSame, State.rack_setRack_same]; rfl
theorem State.recapRack_capacity (rack : Fin 32) (s : State) : ((s.recapRack rack).rack rack).capacity = (s.rack rack).capacity := by
  cases h : s.helm rack with
  | none => rw [State.recapRack_none h]
  | some a => rw [(State.recapRack_logged h).rackSame, State.rack_setRack_same]; rfl
/-- Alarms of other names stand through a recomputation of the caps. -/
theorem State.recapRack_contains {name : String} (h1 : name ≠ "CAP_SHORT") (h2 : name ≠ "BRAKE_SHORT") (h : s.helm rack = some a) :
    ((s.recapRack rack).alm a).log.alarms.contains name = (s.alm a).log.alarms.contains name := by
  have hh : (s.setRack rack (s.capped rack (s.alm a).log)).helm rack = some a := h
  have ha := ((State.alarmSet_logged (rack := rack) "CAP_SHORT" ((s.rack rack).short (s.alm a).log.capsChart (s.alm a).log.siteCapW)).helm rack).trans hh
  have hb := ((State.alarmSet_logged (rack := rack) "BRAKE_SHORT" ((s.rack rack).brakesShort (s.alm a).log.capsChart (s.alm a).log.siteCapW)).helm rack).trans ha
  rw [State.recapRack_some h, State.sendCaps_alarms _ _ hb, State.alarmSet_contains_ne _ h2 ha, State.alarmSet_contains_ne _ h1 hh]
  rfl
/-- After the helm recomputed them, the caps are those of its log and the rack. -/
theorem State.recapRack_follow (rack : Fin 32) (s : State) : (s.recapRack rack).capsFollow rack := by
  intro a h
  have hr := State.recapRack_recapped rack s
  rw [hr.helm] at h
  rw [State.recapRack_caps h, hr.rackTime]
  exact RackSt.caps2_congr _ hr.supply.symm (congrArg AlmSt.log (hr.shell a)).symm

end Sys2Proof.Machine
end

section
/-! PROOF. The settings and alarms of the CDU (R249–R253, R315, R386). -/
namespace Sys2Proof.Machine
open Sys2Proof

variable {s t u : State} {rack : Fin 32} {a h : AlmId}

/-! ### An operator's request -/

/-- A request that no helm can answer gets 503. -/
theorem State.operator_retry {at_ : AlmId} (f : AlmId → State → State) (hn : s.noHelm at_.rack) :
    s.operator at_ f = s.http at_ 503 "RETRY" := by
  unfold State.operator
  cases hh : s.helm at_.rack with
  | none => rfl
  | some b => exact if_neg (by simp [hn b hh])
/-- The helm that may act answers a request. -/
theorem State.operator_helm {at_ : AlmId} (f : AlmId → State → State) (hh : s.helmActs at_.rack h) : s.operator at_ f = f h s := by
  unfold State.operator
  rw [hh.1]
  exact if_pos hh.2

/-! ### Alarms of the CDU -/

/-- An alarm of the CDU is raised or cleared in the rack and in the helm's log. -/
theorem State.cduAlarm_spec (name : String) (on : Bool) (f : RackSt → RackSt) :
    ((s.cduAlarm rack name on f).rack rack) = (f (s.rack rack)).emit (.alarm name on) ∧
      ∀ a, s.helm rack = some a → ((s.cduAlarm rack name on f).alm a).log.alarms.contains name = on := by
  refine ⟨?_, fun a ha => State.alarmSet_contains name on (by exact ha)⟩
  rw [State.cduAlarm, (State.alarmSet_logged name on).rackSame, State.rack_setRack_same]

/-- The secondary flow falls short or is restored: the rack notes it, the alarm stands so, and the caps follow. -/
def State.secondary (rack : Fin 32) (low : Bool) (s : State) : State :=
  ((s.setRack rack { s.rack rack with secondaryLow := low }).alarmSet rack "SECONDARY_LOW" low).recapRack rack
theorem State.secondary_recapped (rack : Fin 32) (low : Bool) (s : State) :
    (s.setRack rack { s.rack rack with secondaryLow := low }).Recapped rack (s.secondary rack low) :=
  ((State.alarmSet_logged ..).recapped rack).trans (State.recapRack_recapped ..)
theorem State.secondary_follow (rack : Fin 32) (low : Bool) (s : State) : (s.secondary rack low).capsFollow rack :=
  State.recapRack_follow _ _
theorem State.secondary_rack (rack : Fin 32) (low : Bool) (s : State) : ((s.secondary rack low).rack rack).secondaryLow = low := by
  have := congrArg RackSt.secondaryLow (s.secondary_recapped rack low).supply
  rw [State.rack_setRack_same] at this
  exact this
theorem State.secondary_alarm (low : Bool) (ha : s.helm rack = some a) :
    ((s.secondary rack low).alm a).log.alarms.contains "SECONDARY_LOW" = low := by
  have ha' : (s.setRack rack { s.rack rack with secondaryLow := low }).helm rack = some a := ha
  have hb := ((State.alarmSet_logged (rack := rack) "SECONDARY_LOW" low).helm rack).trans ha'
  rw [State.secondary, State.recapRack_contains (by decide) (by decide) hb]
  exact State.alarmSet_contains _ _ ha'
/-- While the secondary flow is low and no turn runs, every package gets its MIN_CAP. -/
theorem State.secondary_low_caps (ha : s.helm rack = some a) (ht : (s.alm a).log.turnT0 = none) :
    ((s.secondary rack true).rack rack).caps =
      (cappedOf (s.alm a).log.capsChart).map fun n => (n, capsMin (s.alm a).log.capsChart n) := by
  have hr := s.secondary_recapped rack true
  have hc := State.recapRack_follow rack ((s.setRack rack { s.rack rack with secondaryLow := true }).alarmSet rack "SECONDARY_LOW" true)
    a ((hr.helm rack).trans ha)
  have hl := congrArg AlmSt.log (hr.shell a)
  refine hc.trans ((RackSt.caps2_congr (y := { s.rack rack with secondaryLow := true }) (m := (s.alm a).log) _ ?_ hl).trans ?_)
  · exact hr.supply.trans (by rw [State.rack_setRack_same])
  · simp only [RackSt.caps2, AlmLog.dual, ht, Bool.false_eq_true, if_false, RackSt.imageCaps, Bool.true_or, if_true]

/-! ### The obligation -/

/-- Settles O40: the settings are an operator's requests, the alarms are set in the rack and in the log, and the caps are recomputed. -/
theorem coolantAlarms : Obligations.CoolantAlarms := by
  unfold Obligations.CoolantAlarms
  intro s rack
  dsimp only
  refine ⟨fun c v hn => ?_, fun h c v hh hc => ?_, fun h c v hh hc hne hlt => ?_, fun h c v hh hc hle => ?_, ?_, fun hx => ?_, fun hx => ?_,
    fun v hv => ?_, fun v hv => ?_, fun v h1 h2 => ?_, fun v hx hv => ?_, fun v hx => ?_, fun v hv => ?_, fun v hv => ?_,
    fun f hf => ?_, fun f hf => ?_, fun f hf => ?_, fun f hf => ?_⟩
  · exact congrArg Host.Outcome.next (State.operator_retry (at_ := ⟨rack, false⟩) _ hn)
  · refine congrArg Host.Outcome.next ((State.operator_helm (at_ := ⟨rack, false⟩) _ hh).trans ?_)
    simp [hc]
  · refine congrArg Host.Outcome.next ((State.operator_helm (at_ := ⟨rack, false⟩) _ hh).trans ?_)
    have : ((s.alm h).log.withCdu c v).siteCapW = (s.alm h).log.siteCapW := by cases c <;> rfl
    dsimp only
    rw [if_neg (by simp [hc]), if_pos ⟨hne, by rw [this]; exact hlt⟩]
  · have hs : ((s.alm h).log.withCdu c v).siteCapW = (s.alm h).log.siteCapW := by cases c <;> rfl
    refine ⟨_, congrArg Host.Outcome.next ((State.operator_helm (at_ := ⟨rack, false⟩) _ hh).trans
      ((if_neg (by simp [hc])).trans (if_neg (fun e => by have := hle e.1; rw [hs] at e; omega)))), State.http_told .., ?_⟩
    simp only [State.http, State.alm_setAlm_same, AlmSt.emit, State.logs_helm _ hh.1]
    cases c <;> simp [AlmLog.withCdu]
  · have := s.cduAlarm_spec (rack := rack) "FLOW_LIMITED" true fun x => { x with flowLimited := true }
    exact ⟨_, rfl, by rw [this.1]; rfl, this.2⟩
  · have := s.cduAlarm_spec (rack := rack) "FLOW_LIMITED" false fun x => { x with flowLimited := false }
    exact ⟨_, congrArg Host.Outcome.next (if_pos hx), by rw [this.1]; rfl, this.2⟩
  · exact congrArg Host.Outcome.next (if_neg (by simp [hx]))
  · exact if_pos hv
  · exact (if_neg (by omega)).trans (if_pos hv)
  · have := s.cduAlarm_spec (rack := rack) "INLET_HIGH" true fun x => { x with inletHigh := true }
    exact ⟨_, (if_neg (by omega)).trans (if_neg (by omega)), by rw [this.1]; rfl, this.2⟩
  · have := s.cduAlarm_spec (rack := rack) "INLET_HIGH" false fun x => { x with inletHigh := false }
    exact ⟨_, congrArg Host.Outcome.next (if_pos ⟨hx, hv⟩), by rw [this.1]; rfl, this.2⟩
  · refine congrArg Host.Outcome.next (if_neg fun e => ?_)
    rcases hx with hx | hx
    · exact absurd (hx.symm.trans e.1) (by decide)
    · exact absurd e.2 (Int.not_le.2 hx)
  · exact if_pos hv
  · have := s.cduAlarm_spec (rack := rack) "DEW_RISK" true fun x => { x with dewRisk := true }
    exact ⟨_, if_neg (by omega), by rw [this.1]; rfl, this.2⟩
  · exact congrArg Host.Outcome.next (if_pos hf)
  · exact congrArg Host.Outcome.next (if_pos hf)
  · exact ⟨s.secondary rack true, congrArg Host.Outcome.next (if_neg (Int.not_le.2 hf)), s.secondary_rack rack true,
      fun a => State.secondary_alarm true, s.secondary_follow rack true, fun a => State.secondary_low_caps⟩
  · exact ⟨s.secondary rack false, congrArg Host.Outcome.next (if_neg (Int.not_lt.2 hf)), s.secondary_rack rack false,
      fun a => State.secondary_alarm false, s.secondary_follow rack false⟩

end Sys2Proof.Machine
end

section
/-! PROOF. The division of a pool of watts among the packages (R228). -/
namespace Sys2Proof.Machine
open Sys2Proof

/-- The watts that the rows hold in all. -/
def capTotal (rows : List CapRow) : Rat := (rows.map (·.2.1)).sum
/-- What a round adds to a row. -/
def CapRow.raise (left : Rat) (sum : Nat) (r : CapRow) : CapRow :=
  if 0 < r.2.2 ∧ r.2.1 < 1150 then (r.1, r.2.1 + left * r.2.2 / sum, r.2.2) else r
/-- A row is cut at the most that a package may get. -/
def CapRow.cut (r : CapRow) : CapRow := (r.1, min 1150 r.2.1, r.2.2)
/-- The shares that take part in a round. -/
def shareSum (rows : List CapRow) : Nat :=
  sumNat ((rows.filter fun r => decide (0 < r.2.2) && decide (r.2.1 < 1150)).map (·.2.2))
/-- What the cut of some rows takes away. -/
def cutSpill (rows : List CapRow) : Rat := (rows.map fun r => max 0 (r.2.1 - 1150)).foldl (· + ·) 0

theorem sumNat_cons (n : Nat) (l : List Nat) : sumNat (n :: l) = n + sumNat l := by
  simp only [sumNat, List.foldl_eq_foldr, ← List.sum_eq_foldr, List.sum_cons]
theorem cutSpill_eq (rows : List CapRow) : cutSpill rows = (rows.map fun r => max 0 (r.2.1 - 1150)).sum := List.sum_eq_foldl.symm
theorem cutSpill_nonneg (rows : List CapRow) : 0 ≤ cutSpill rows := by
  rw [cutSpill_eq]
  exact List.sum_nonneg fun x hx => by
    obtain ⟨r, _, rfl⟩ := List.mem_map.1 hx
    exact le_max_left ..

theorem divide_zero (left : Rat) (rows : List CapRow) : divide 0 left rows = rows := rfl
theorem divide_succ (n : Nat) (left : Rat) (rows : List CapRow) : divide (n + 1) left rows =
    if left = 0 ∨ shareSum rows = 0 then rows
    else divide n (cutSpill (rows.map (CapRow.raise left (shareSum rows)))) ((rows.map (CapRow.raise left (shareSum rows))).map CapRow.cut) :=
  rfl

/-- A round hands out what is left in proportion to the shares. -/
theorem capTotal_raise (left : Rat) (sum : Nat) (rows : List CapRow) :
    capTotal (rows.map (CapRow.raise left sum)) = capTotal rows + left * (shareSum rows : Nat) / sum := by
  induction rows with
  | nil => simp [capTotal, shareSum, sumNat]
  | cons r l ih =>
    simp only [capTotal, shareSum, List.map_cons, List.sum_cons, List.filter_cons] at ih ⊢
    rw [ih]
    by_cases h : 0 < r.2.2 ∧ r.2.1 < 1150
    · rw [if_pos (by simpa using h), List.map_cons, sumNat_cons, CapRow.raise, if_pos h]
      push_cast
      ring
    · rw [if_neg (by simpa using h), CapRow.raise, if_neg h]
      ring
theorem capTotal_cut (rows : List CapRow) : capTotal (rows.map CapRow.cut) + cutSpill rows = capTotal rows := by
  rw [cutSpill_eq]
  induction rows with
  | nil => simp [capTotal]
  | cons r l ih =>
    simp only [capTotal, List.map_cons, List.sum_cons] at ih ⊢
    rw [← ih]
    have : min 1150 r.2.1 + max 0 (r.2.1 - 1150) = r.2.1 := by
      rcases le_total r.2.1 1150 with h | h
      · rw [min_eq_right h, max_eq_left (by linarith)]; ring
      · rw [min_eq_left h, max_eq_right (by linarith)]; ring
    simp only [CapRow.cut]
    linarith

/-- The rows never hold more than they held and what was left. -/
theorem capTotal_divide : ∀ (n : Nat) (left : Rat) (rows : List CapRow), 0 ≤ left →
    capTotal (divide n left rows) ≤ capTotal rows + left
  | 0, left, rows, h => by rw [divide_zero]; linarith
  | n + 1, left, rows, h => by
    rw [divide_succ]
    split
    · linarith
    next hn =>
      have hs : ((shareSum rows : Nat) : Rat) ≠ 0 := Nat.cast_ne_zero.2 fun e => hn (.inr e)
      refine (capTotal_divide n _ _ (cutSpill_nonneg _)).trans (le_of_eq ?_)
      rw [capTotal_cut, capTotal_raise, mul_div_assoc, div_self hs, mul_one]
/-- A row after the division comes from a row before it, which only grew, to no more than 1,150 W. -/
theorem mem_divide : ∀ (n : Nat) (left : Rat) (rows : List CapRow), 0 ≤ left → ∀ e ∈ divide n left rows, ∃ r ∈ rows, e.1 = r.1 ∧
    (0 ≤ r.2.1 → 0 ≤ e.2.1) ∧ (r.2.1 ≤ 1150 → r.2.1 ≤ e.2.1 ∧ e.2.1 ≤ 1150)
  | 0, _, _, _, e, he => ⟨e, he, rfl, id, fun h => ⟨le_refl _, h⟩⟩
  | n + 1, left, rows, hl, e, he => by
    rw [divide_succ] at he
    split at he
    · exact ⟨e, he, rfl, id, fun h => ⟨le_refl _, h⟩⟩
    · obtain ⟨r, hr, h1, h0, h2⟩ := mem_divide n _ _ (cutSpill_nonneg _) e he
      obtain ⟨x, hx, rfl⟩ := List.mem_map.1 hr
      obtain ⟨y, hy, rfl⟩ := List.mem_map.1 hx
      have hi : (CapRow.raise left (shareSum rows) y).1 = y.1 := by unfold CapRow.raise; split <;> rfl
      have hg : y.2.1 ≤ (CapRow.raise left (shareSum rows) y).2.1 := by
        unfold CapRow.raise
        split
        · have : 0 ≤ left * (y.2.2 : Rat) / (shareSum rows : Nat) := by positivity
          exact le_add_of_nonneg_right this
        · exact le_refl _
      have hc : ((CapRow.raise left (shareSum rows) y).cut).2.1 = min 1150 (CapRow.raise left (shareSum rows) y).2.1 := rfl
      rw [hc] at h0 h2
      refine ⟨y, hy, h1.trans hi, fun h => h0 (le_min (by norm_num) (h.trans hg)), fun h => ?_⟩
      obtain ⟨h3, h4⟩ := h2 (min_le_left ..)
      exact ⟨(le_min h hg).trans h3, h4⟩

theorem down5_mod (x : Rat) : down5 x % 5 = 0 := Nat.mul_mod_left ..
theorem down5_le {x : Rat} (h : 0 ≤ x) : (down5 x : Rat) ≤ x := by
  have h1 : (down5 x : Rat) ≤ (x.floor.toNat : Nat) := Nat.cast_le.2 (Nat.div_mul_le_self ..)
  have h2 : ((x.floor.toNat : Nat) : Rat) = ((x.floor : Int) : Rat) := by
    exact_mod_cast congrArg (Int.cast (R := Rat)) (Int.toNat_of_nonneg (Rat.le_floor_iff.2 (by exact_mod_cast h)))
  exact h1.trans (h2 ▸ Rat.floor_le x)
theorem le_down5 {n : Nat} {x : Rat} (h : (n : Rat) ≤ x) : n / 5 * 5 ≤ down5 x := by
  have h1 : (n : Int) ≤ x.floor := Rat.le_floor_iff.2 (by exact_mod_cast h)
  exact Nat.mul_le_mul_right _ (Nat.div_le_div_right (by omega))
theorem sumNat_cast (l : List CapRow) (h : ∀ r ∈ l, 0 ≤ r.2.1) :
    ((sumNat (l.map fun r => down5 r.2.1) : Nat) : Rat) ≤ capTotal l := by
  induction l with
  | nil => simp [sumNat, capTotal]
  | cons r l ih =>
    rw [List.map_cons, sumNat_cons, capTotal, List.map_cons, List.sum_cons]
    push_cast
    exact add_le_add (down5_le (h r List.mem_cons_self)) (ih fun x hx => h x (List.mem_cons_of_mem _ hx))

/-- The rows that a pool is divided into. -/
def capRows (img : List Byte) : List CapRow := (cappedOf img).map fun n => (n, ((capsMin img n : Nat) : Rat), capsShare img n)
theorem capTotal_rows (img : List Byte) : capTotal (capRows img) = (minSum img : Nat) := by
  unfold capTotal capRows minSum
  induction cappedOf img with
  | nil => simp [sumNat]
  | cons n l ih =>
    simp only [List.map_cons, List.sum_cons] at ih ⊢
    rw [ih, sumNat_cons]
    push_cast
    rfl
theorem poolCaps_eq (img : List Byte) (p : Nat) :
    poolCaps img p = (divide 97 ((p - minSum img : Nat) : Rat) (capRows img)).map fun r => (r.1, down5 r.2.1) := rfl

/-- The caps of a pool that covers the minimum caps sum to no more than the pool. -/
theorem sum_poolCaps {img : List Byte} {pool : Nat} (h : minSum img ≤ pool) : sumNat ((poolCaps img pool).map (·.2)) ≤ pool := by
  have hl : (0 : Rat) ≤ ((pool - minSum img : Nat) : Rat) := Nat.cast_nonneg _
  have h0 : ∀ e ∈ divide 97 ((pool - minSum img : Nat) : Rat) (capRows img), 0 ≤ e.2.1 := fun e he => by
    obtain ⟨r, hr, _, h1, _⟩ := mem_divide _ _ _ hl e he
    obtain ⟨n, _, rfl⟩ := List.mem_map.1 hr
    exact h1 (Nat.cast_nonneg _)
  rw [poolCaps_eq, List.map_map]
  have h1 := (sumNat_cast _ h0).trans (capTotal_divide 97 _ (capRows img) hl)
  rw [capTotal_rows] at h1
  have h2 : ((minSum img : Nat) : Rat) + ((pool - minSum img : Nat) : Rat) = (pool : Nat) := by
    rw [← Nat.cast_add, Nat.add_sub_cancel' h]
  rw [h2] at h1
  exact_mod_cast h1
/-- Each cap is on the grid, of a package that gets one, and between its minimum and 1,150 W. -/
theorem mem_poolCaps {img : List Byte} {pool : Nat} {e : Nat × Nat} (he : e ∈ poolCaps img pool) :
    capped img e.1 = true ∧ e.2 % 5 = 0 ∧ (capsMin img e.1 ≤ 1150 → capsMin img e.1 / 5 * 5 ≤ e.2 ∧ e.2 ≤ 1150) := by
  rw [poolCaps_eq] at he
  obtain ⟨x, hx, rfl⟩ := List.mem_map.1 he
  obtain ⟨r, hr, h1, h0, h2⟩ := mem_divide _ _ _ (Nat.cast_nonneg _) x hx
  obtain ⟨n, hn, rfl⟩ := List.mem_map.1 hr
  have hc : capped img n = true := by
    unfold cappedOf at hn
    split at hn
    · simp at hn
    · exact (List.mem_filter.1 hn).2
  dsimp only at h1 h0 h2 ⊢
  rw [h1]
  refine ⟨hc, down5_mod _, fun hm => ?_⟩
  obtain ⟨h3, h4⟩ := h2 (by exact_mod_cast hm)
  refine ⟨le_down5 h3, ?_⟩
  exact_mod_cast (down5_le (h0 (Nat.cast_nonneg _))).trans h4

end Sys2Proof.Machine
end

section
/-! PROOF. Resets, isolation and halts (R60, R323, R361): refutations. -/
namespace Sys2Proof.Machine
open Sys2Proof

/-- A rotation set whose shift field, bits 15:8 of its register, is CODE of a check-value unit: R.THR_ROTA of its number is R.CSU_STATUS of
the unit. -/
def codeRota (u : Nat) (members : List Nat) (k : Pkg) : Pkg :=
  { k with thr := { k.thr with rotas := [((R.CSU_STATUS u - 0x50200) / 4, ⟨members, 0, 0, 0, false⟩)] } }

/-- Slot 0 runs on core 0 of C-tile 0 while unit 6, that of the tile, is busy. -/
def busyTile : Pkg := codeRota 6 [0, 1, 48, 2] (({} : Pkg).put (F.CSU_STATUS_STATE 6) 1)

/-- Refutes O30: no hypothesis bounds the numbers of the rotation sets. The reset of C-tile 0 ends the tile's check-value job with code 6, which
is the shift of the set: slot 0 moves to core 48 of C-tile 1 before the incarnation numbers rise, and its own does not. -/
theorem not_unitResets : ¬ Obligations.UnitResets := by
  unfold Obligations.UnitResets
  intro h
  have hk : (only busyTile).pkg pkg0 = busyTile := State.pkg_setPkg_same ..
  obtain ⟨t, he, hc⟩ := (h (only busyTile) pkg0).2.1 (.ctile 0) (by decide) (by decide +kernel)
  have hj := pkgAfter_of_next pkg0 he
  have h0 := hc 0
  rw [← hj, hk] at h0
  exact absurd h0 (by decide +kernel)

/-- Slot 0 runs on core 0, whose store unit 6 scans, and its isolation runs. -/
def scannedCore : Pkg :=
  let k := codeRota 6 [0, 48, 1, 2] ((({} : Pkg).put (F.CSU_STATUS_STATE 6) 1).put (F.CSU_CTRL_SPACE 6) 5)
  { k with flt := { k.flt with reactions := [⟨0, 0, 0, 1⟩] } }

/-- Refutes O55: no hypothesis bounds the numbers of the rotation sets. The end of the isolation of slot 0 ends the scan of its store with
code 5, which is the shift of the set: the slot moves to C-tile 1, and that tile is reset, not the one the slot ran on. -/
theorem not_recoveryAndQuarantine : ¬ Obligations.RecoveryAndQuarantine := by
  unfold Obligations.RecoveryAndQuarantine
  intro h
  have hk : (only scannedCore).pkg pkg0 = scannedCore := State.pkg_setPkg_same ..
  obtain ⟨t, he, -, hd, -⟩ := (h (only scannedCore) pkg0 0).2.1 ⟨0, 0, 0, 1⟩ (by rw [hk]; decide +kernel) (by decide)
  have hj := pkgAfter_of_next pkg0 he
  rw [← hj, hk] at hd
  exact absurd hd (by decide +kernel)

/-- Core 0 naps, and its slot runs on a core whose number makes the domain of its store bit 0 of CORE_DBG_STATUS of core 0. -/
def napsFar : Pkg :=
  let far := (R.CORE_DBG_STATUS 0 - R.AON_DOMAIN_ON 0) / 4 * 32 - 192
  let k := ((onPkg0.setPstate 0 2).put (F.THR_ROTA_SHIFT 0) 1).setDomains true [far, 384 + far / 48]
  { k with thr := { k.thr with rotas := [(0, ⟨[0, far], 0, 0, 0, false⟩)] } }

/-- Refutes O60: no hypothesis bounds the members of a rotation set. HALT of a core in Nap powers the store of the core that the slot runs
on, whose domain's bit is here HALTED of the core: the core reads as halted before it has woken. -/
theorem not_haltsAndTraces : ¬ Obligations.HaltsAndTraces := by
  unfold Obligations.HaltsAndTraces
  intro h
  have hk : (only napsFar).pkg pkg0 = napsFar := State.pkg_setPkg_same ..
  have ho : Open (only napsFar) pkg0 .host (R.CORE_DBG_CTRL 0) := by unfold Open; decide +kernel
  obtain ⟨j, he, -, hh, -⟩ := ((h (only napsFar) pkg0 .host 0).1 ho).2.1 (by rw [hk]; decide +kernel) (by rw [hk]; decide +kernel)
  have hj := pkgAfter_of_wrote he
  have : (pkgAfter (.halt pkg0 .host 0) (only napsFar) pkg0).coreHalted 0 = true := by decide +kernel
  rw [hj] at this
  exact Bool.false_ne_true (hh.symm.trans this)

end Sys2Proof.Machine
end

section
/-! PROOF. What a tray controller's work at one board position leaves (R280–R287, R296, R385). -/
namespace Sys2Proof.Machine
open Sys2Proof

variable {s u v : State} {t : TrayId} {pos : Fin 4} {p : PkgId}

/-! ### Accesses to a package -/

/-- Between two states nothing but memory, free values and packages changed. -/
def State.PkgsOnly (s u : State) : Prop := u = { s with mem := u.mem, free := u.free, pkgs := u.pkgs }

theorem State.PkgsOnly.refl (s : State) : s.PkgsOnly s := rfl
theorem State.PkgsOnly.trans (h : s.PkgsOnly u) (h' : u.PkgsOnly v) : s.PkgsOnly v := by
  unfold State.PkgsOnly at *
  rw [h', h]
theorem State.PkgsOnly.foldl {β : Type} {f : State → β → State} (hf : ∀ s b, State.PkgsOnly s (f s b)) :
    ∀ (l : List β) (s : State), s.PkgsOnly (l.foldl f s)
  | [], s => .refl s
  | b :: l, s => (hf s b).trans (State.PkgsOnly.foldl hf l _)
theorem State.PkgsOnly.ite {c : Prop} [Decidable c] (h : s.PkgsOnly u) (h' : s.PkgsOnly v) : s.PkgsOnly (if c then u else v) := by
  split_ifs <;> assumption
theorem State.PkgsOnly.now (h : s.PkgsOnly u) : u.now = s.now := by rw [h]
theorem State.PkgsOnly.tray (h : s.PkgsOnly u) (t : TrayId) : u.tray t = s.tray t := by rw [h]; rfl
theorem State.PkgsOnly.posn (h : s.PkgsOnly u) (t : TrayId) (pos : Fin 4) : u.posn t pos = s.posn t pos := by rw [h]; rfl
theorem State.PkgsOnly.rack (h : s.PkgsOnly u) (r : Fin 32) : u.rack r = s.rack r := by rw [h]; rfl
theorem State.PkgsOnly.alm (h : s.PkgsOnly u) (a : AlmId) : u.alm a = s.alm a := by rw [h]; rfl
theorem State.PkgsOnly.helm (h : s.PkgsOnly u) (r : Fin 32) : u.helm r = s.helm r := by rw [h]; rfl

theorem State.PkgsOnly.all (s : State) (m : Mem) (n : Nat) (l : SMap Pkg) : s.PkgsOnly { s with mem := m, free := n, pkgs := l } := rfl
theorem State.PkgsOnly.setPkg (s : State) (p : PkgId) (k : Pkg) : s.PkgsOnly (s.setPkg p k) := rfl
theorem State.PkgsOnly.loseLender (s : State) (rack : Fin 32) (lender : Nat) : s.PkgsOnly (s.loseLender rack lender) :=
  .foldl (fun s _ => .setPkg s _ _) _ _
theorem State.PkgsOnly.pkgGone (s : State) (p : PkgId) (f : Mem → Pkg → Mem × Pkg) : s.PkgsOnly (s.pkgGone p f) :=
  .trans (.all s (f s.mem (s.pkg p)).1 s.free _) (.loseLender ..)
theorem State.PkgsOnly.busPerform (s : State) (p : PkgId) (op : BusOp) (dra : Bool) : s.PkgsOnly (s.busPerform p op dra).2 := by
  rw [State.busPerform_eq]
  have h (k : Pkg) : s.PkgsOnly ({ s with mem := (s.busRun p op dra).2.2.1, free := s.free + op.words.length }.setPkg p k) := .all s _ _ _
  exact .ite ((h _).trans (.loseLender ..)) (h _)
theorem State.PkgsOnly.cwStore (s : State) (p : PkgId) (dra : Bool) (off v : Nat) : s.PkgsOnly (s.cwStore p dra off v) :=
  .trans (.ite (.setPkg s p _) (.refl s)) (.busPerform ..)
theorem State.PkgsOnly.cwWrites (s : State) (p : PkgId) (l : List (Nat × Nat)) : s.PkgsOnly (l.foldl (fun s e => s.cwWrite p e.1 e.2) s) :=
  .foldl (fun s _ => .cwStore s ..) _ _
theorem State.PkgsOnly.cwRead (s : State) (p : PkgId) (offs : List Nat) : s.PkgsOnly (s.cwRead p offs).2 := by
  unfold State.cwRead
  dsimp only
  exact .trans (.ite (.setPkg s p _) (.refl s)) (.busPerform ..)
theorem State.PkgsOnly.writeAddress (s : State) (p : PkgId) : s.PkgsOnly (s.writeAddress p) := .setPkg ..

/-! ### The work at one board position -/

/-- Between two states, beside memory, free values and packages, only a board position of a tray changed, and its controller reported. -/
structure State.AtPos (t : TrayId) (pos : Fin 4) (s u : State) : Prop where
  rest : u = { s with mem := u.mem, free := u.free, pkgs := u.pkgs, trays := u.trays }
  other : ∀ t', t' ≠ t → u.tray t' = s.tray t'
  shell : { u.tray t with pos := [], out := [] } = { s.tray t with pos := [], out := [] }
  at_ : ∀ q : Fin 4, q ≠ pos → (u.tray t).at q.val = (s.tray t).at q.val
  told : ∀ m, m ∈ (s.tray t).out → m ∈ (u.tray t).out

theorem State.PkgsOnly.atPos (h : s.PkgsOnly u) (t : TrayId) (pos : Fin 4) : s.AtPos t pos u :=
  ⟨by rw [h], fun t' _ => h.tray t', by rw [h.tray], fun _ _ => by rw [h.tray], fun m hm => by rwa [h.tray]⟩
theorem State.AtPos.refl (t : TrayId) (pos : Fin 4) (s : State) : s.AtPos t pos s := (State.PkgsOnly.refl s).atPos t pos
theorem State.AtPos.trans (h : s.AtPos t pos u) (h' : u.AtPos t pos v) : s.AtPos t pos v :=
  ⟨by rw [h'.rest, h.rest], fun t' ht => (h'.other t' ht).trans (h.other t' ht), h'.shell.trans h.shell,
    fun q hq => (h'.at_ q hq).trans (h.at_ q hq), fun m hm => h'.told m (h.told m hm)⟩
theorem State.AtPos.ite {c : Prop} [Decidable c] (h : s.AtPos t pos u) (h' : s.AtPos t pos v) : s.AtPos t pos (if c then u else v) := by
  split_ifs <;> assumption
theorem State.AtPos.now (h : s.AtPos t pos u) : u.now = s.now := by rw [h.rest]
theorem State.AtPos.rack (h : s.AtPos t pos u) (r : Fin 32) : u.rack r = s.rack r := by rw [h.rest]; rfl
theorem State.AtPos.alm (h : s.AtPos t pos u) (a : AlmId) : u.alm a = s.alm a := by rw [h.rest]; rfl
theorem State.AtPos.helm (h : s.AtPos t pos u) (r : Fin 32) : u.helm r = s.helm r := by rw [h.rest]; rfl
theorem State.AtPos.busbarWait (h : s.AtPos t pos u) (t' : TrayId) : (u.tray t').busbarWait = (s.tray t').busbarWait := by
  by_cases ht : t' = t
  · subst ht
    have := congrArg CwSt.busbarWait h.shell
    simpa using this
  · rw [h.other t' ht]
/-- Another board position stays as it is. -/
theorem State.AtPos.posn (h : s.AtPos t pos u) {t' : TrayId} {q : Fin 4} (hne : (t', q) ≠ (t, pos)) : u.posn t' q = s.posn t' q := by
  by_cases ht : t' = t
  · subst ht; exact h.at_ q fun e => hne (by rw [e])
  · simp only [State.posn, h.other t' ht]

theorem State.setPosn_atPos (s : State) (t : TrayId) (pos : Fin 4) (x : PosSt) : s.AtPos t pos (s.setPosn t pos x) := by
  refine ⟨rfl, fun t' ht => State.tray_setTray_ne s _ ht, ?_, fun q hq => ?_, fun m hm => ?_⟩ <;>
    rw [State.setPosn, State.tray_setTray_same]
  · rfl
  · exact CwSt.at_setPos_ne _ _ fun e => hq (Fin.ext e)
  · exact hm
theorem State.cwReport_atPos (s : State) (t : TrayId) (pos : Fin 4) (name : String) (n data : Nat) : s.AtPos t pos (s.cwReport t name n data) := by
  refine ⟨rfl, fun t' ht => State.tray_setTray_ne s _ ht, ?_, fun q _ => ?_, fun m hm => ?_⟩ <;>
    rw [State.cwReport, State.tray_setTray_same]
  · rfl
  · rfl
  · exact List.mem_append_left _ hm

theorem State.stepFive_atPos (s : State) (t : TrayId) (pos : Fin 4) (p : PkgId) : s.AtPos t pos (s.stepFive t pos p) := by
  unfold State.stepFive
  dsimp only
  have h (x : PosSt) (l : List (Nat × Nat)) : s.AtPos t pos (l.foldl (fun s e => s.cwWrite p e.1 e.2) (s.setPosn t pos x)) :=
    .trans (s.setPosn_atPos t pos x) ((State.PkgsOnly.cwWrites ..).atPos t pos)
  have h' (u : State) (hu : s.AtPos t pos u) (k : Pkg) : s.AtPos t pos (u.setPkg p k) := hu.trans ((State.PkgsOnly.setPkg ..).atPos t pos)
  exact .ite ((h' _ (h _ _) _).trans ((State.PkgsOnly.writeAddress ..).atPos t pos)) (h' _ (h _ _) _)
theorem State.releaseReset_atPos (s : State) (t : TrayId) (pos : Fin 4) (p : PkgId) : s.AtPos t pos (s.releaseReset t pos p) :=
  .ite (s.setPosn_atPos ..) (s.stepFive_atPos ..)
theorem State.powerUp_atPos (s : State) (t : TrayId) (pos : Fin 4) (p : PkgId) : s.AtPos t pos (s.powerUp t pos p) :=
  .ite (s.releaseReset_atPos ..) (s.setPosn_atPos ..)
theorem State.compareFlash_atPos (s : State) (t : TrayId) (pos : Fin 4) (p : PkgId) : s.AtPos t pos (s.compareFlash t pos p) := by
  unfold State.compareFlash
  dsimp only
  split
  · exact s.powerUp_atPos ..
  · exact .ite (.trans (s.setPosn_atPos ..) (State.powerUp_atPos ..)) (s.setPosn_atPos ..)
theorem State.bringUp_atPos (s : State) (t : TrayId) (pos : Fin 4) : s.AtPos t pos (s.bringUp t pos) := by
  unfold State.bringUp
  dsimp only
  split
  · exact .refl t pos s
  · exact .ite (.refl t pos s) (.ite (s.setPosn_atPos ..) (s.compareFlash_atPos ..))
theorem State.powerOff_atPos (s : State) (t : TrayId) (pos : Fin 4) : s.AtPos t pos (s.powerOff t pos) := by
  unfold State.powerOff
  dsimp only
  split
  · exact s.setPosn_atPos ..
  · exact .trans (s.setPosn_atPos ..) (State.PkgsOnly.atPos (.pkgGone ..) t pos)
/-- MOD_PWR_EN has fallen. -/
theorem State.posn_powerOff (s : State) (t : TrayId) (pos : Fin 4) :
    (s.powerOff t pos).posn t pos = { (s.posn t pos).heldLow with pwrEn := false, pwrGood := false, step := 0 } := by
  unfold State.powerOff
  dsimp only
  split
  · rw [State.posn_setPosn_same]
  · rw [(State.PkgsOnly.pkgGone ..).posn, State.posn_setPosn_same]

/-! ### Every board position of a rack -/

/-- Something done at one board position after another. -/
def State.overPos (f : TrayId → Fin 4 → State → State) (l : List (TrayId × Fin 4)) (s : State) : State := l.foldl (fun s e => f e.1 e.2 s) s
/-- The board positions of a rack's compute trays. -/
def rackPositions (rack : Fin 32) : List (TrayId × Fin 4) := (rackTrays rack).flatMap fun t => (List.finRange 4).map fun pos => (t, pos)
theorem State.eachPos_eq (rack : Fin 32) (f : TrayId → Fin 4 → State → State) (s : State) :
    s.eachPos rack f = s.overPos f (rackPositions rack) := by
  simp only [State.eachPos, State.overPos, rackPositions, List.foldl_flatMap, List.foldl_map]
theorem mem_rackPositions (rack : Fin 32) (slot : Fin 28) (pos : Fin 4) : (⟨rack, slot⟩, pos) ∈ rackPositions rack := by
  simp [rackPositions, rackTrays, List.mem_flatMap]
theorem nodup_rackPositions (rack : Fin 32) : (rackPositions rack).Nodup := by
  have e : rackPositions rack = ((List.finRange 28).flatMap fun n => (List.finRange 4).map fun pos => (n, pos)).map fun e => (⟨rack, e.1⟩, e.2) := by
    simp [rackPositions, rackTrays, List.flatMap_map, List.map_flatMap, Function.comp_def]
  rw [e]
  refine List.Nodup.map (fun a b h => ?_) (by decide)
  simpa [Prod.ext_iff] using h

/-- Work at board positions leaves racks, managers and what the busbar lets wait. -/
theorem State.overPos_frame {f : TrayId → Fin 4 → State → State} (hf : ∀ t pos s, State.AtPos t pos s (f t pos s)) (r : Fin 32) (t : TrayId) :
    ∀ (l : List (TrayId × Fin 4)) (s : State), (s.overPos f l).rack r = s.rack r ∧ ((s.overPos f l).tray t).busbarWait = (s.tray t).busbarWait
  | [], _ => ⟨rfl, rfl⟩
  | e :: l, s => by
    have h := State.overPos_frame hf r t l (f e.1 e.2 s)
    exact ⟨h.1.trans ((hf ..).rack r), h.2.trans ((hf ..).busbarWait t)⟩
/-- What is done at board positions leaves each other one. -/
theorem State.posn_overPos_of_notMem {f : TrayId → Fin 4 → State → State} (hf : ∀ t pos s, State.AtPos t pos s (f t pos s)) :
    ∀ (l : List (TrayId × Fin 4)) (s : State), (t, pos) ∉ l → (s.overPos f l).posn t pos = s.posn t pos
  | [], _, _ => rfl
  | e :: l, s, hn => (State.posn_overPos_of_notMem hf l _ fun h => hn (List.mem_cons_of_mem _ h)).trans
      ((hf e.1 e.2 s).posn fun he => hn (he ▸ List.mem_cons_self ..))
/-- What is done once at a board position depends on that position alone, and so leaves it the same. -/
theorem State.posn_overPos {f : TrayId → Fin 4 → State → State} {g : PosSt → PosSt} (hf : ∀ t pos s, State.AtPos t pos s (f t pos s))
    (hg : ∀ t pos s, (f t pos s).posn t pos = g (s.posn t pos)) :
    ∀ (l : List (TrayId × Fin 4)) (s : State), l.Nodup → (t, pos) ∈ l → (s.overPos f l).posn t pos = g (s.posn t pos)
  | [], _, _, h => absurd h List.not_mem_nil
  | e :: l, s, hd, hm => by
    rw [List.nodup_cons] at hd
    by_cases he : e = (t, pos)
    · subst he
      exact (State.posn_overPos_of_notMem hf l _ hd.1).trans (hg ..)
    · have hl : (t, pos) ∈ l := (List.mem_cons.1 hm).resolve_left fun h => he h.symm
      refine (State.posn_overPos hf hg l _ hd.2 hl).trans ?_
      rw [(hf e.1 e.2 s).posn fun h => he h.symm]

end Sys2Proof.Machine
end

section
/-! PROOF. A rack's supply: the site cap, feeds, PSUs, OVERHEAD, the busbar and bring-up (R222–R231, R245, R367, R374, R381, R382, R385). -/
namespace Sys2Proof.Machine
open Sys2Proof

variable {s t u : State} {rack : Fin 32} {a h : AlmId}

/-! ### A change of the supply -/

/-- What does not depend on the caps and their judgement is a matter of the supply. -/
theorem RackSt.of_supply {α : Type} {x y : RackSt} (g : RackSt → α) (hs : x.supply = y.supply) (hg : ∀ z : RackSt, g z.supply = g z) :
    g x = g y := by
  rw [← hg x, hs, hg]
theorem RackSt.feed_congr {x y : RackSt} (hs : x.supply = y.supply) (b : Bool) : x.feed b = y.feed b :=
  RackSt.of_supply (fun z => z.feed b) hs fun _ => rfl

theorem State.judgeMode_recapped (rack : Fin 32) (psu : Bool) (s : State) : s.Recapped rack (s.judgeMode rack psu) := by
  unfold State.judgeMode
  cases s.helm rack with
  | none => exact .refl rack s
  | some a =>
    dsimp only
    generalize decide ((s.rack rack).single < (s.alm a).log.siteCapW) = c
    have h : s.Recapped rack (s.setRack rack { s.rack rack with capacity := c }) := State.setRack_recapped rfl rfl
    split_ifs
    · exact h.trans ((State.alarmSet_logged ..).recapped rack)
    · exact h.trans ((State.alarmSet_logged ..).recapped rack)
    · exact h
/-- Capacity mode is the helm's judgement of the site cap. -/
theorem State.judgeMode_capacity (psu : Bool) (hh : s.helm rack = some a) :
    ((s.judgeMode rack psu).rack rack).capacity = decide ((s.rack rack).single < (s.alm a).log.siteCapW) := by
  unfold State.judgeMode
  rw [hh]
  dsimp only
  generalize decide ((s.rack rack).single < (s.alm a).log.siteCapW) = c
  have h : ((s.setRack rack { s.rack rack with capacity := c }).rack rack).capacity = c := by rw [State.rack_setRack_same]
  split_ifs
  · rw [(State.alarmSet_logged ..).rackSame, h]
  · rw [(State.alarmSet_logged ..).rackSame, h]
  · exact h

theorem State.Logged.capsFollow (h : s.Logged t) (hc : s.capsFollow rack) : t.capsFollow rack := by
  intro a ha
  rw [h.helm] at ha
  rw [h.rackSame, hc a ha, h.rackTime]
  exact RackSt.caps2_congr _ rfl (congrArg AlmSt.log (h.shell a)).symm

/-- A change of the supply is that of the rack, and the caps of the new state follow it. -/
theorem State.supplyChange_supply (rack : Fin 32) (f : RackSt → RackSt) (s : State) :
    ((s.supplyChange rack f).rack rack).supply = (f (s.rack rack)).supply := by
  refine (State.recapRack_recapped rack _).supply.trans ((State.judgeMode_recapped rack true _).supply.trans ?_)
  rw [State.rack_setRack_same]
theorem State.supplyChange_follow (rack : Fin 32) (f : RackSt → RackSt) (s : State) : (s.supplyChange rack f).capsFollow rack :=
  State.recapRack_follow _ _

theorem addTo_contains (l : List Nat) (n : Nat) : (addTo l n).contains n = true := by
  unfold addTo
  split
  · assumption
  · simp
theorem dropFrom_contains (l : List Nat) (n : Nat) : (dropFrom l n).contains n = false := by simp [dropFrom]

/-! ### The site cap -/

/-- A setting is logged, judged and followed by the caps, and answered OK. -/
theorem State.setting_spec (f : AlmLog → AlmLog) (hf : ∀ l, (f l).epoch = l.epoch) (hh : s.helm rack = some h) :
    (((s.setting rack h f).alm h).log.siteCapW = (f (s.alm h).log).siteCapW) ∧
      ((s.setting rack h f).rack rack).capacity = decide ((s.rack rack).single < (f (s.alm h).log).siteCapW) ∧
      (s.setting rack h f).capsFollow rack ∧ Msg.http 200 "OK" ∈ ((s.setting rack h f).alm h).out := by
  have key (g : AlmLog → AlmLog) (hg : ∀ l, (g l).epoch = l.epoch ∧ (g l).siteCapW = (f l).siteCapW) :
      ((((((s.logs rack g).judgeMode rack false).recapRack rack)).http h 200 "OK").alm h).log.siteCapW = (f (s.alm h).log).siteCapW ∧
      ((((((s.logs rack g).judgeMode rack false).recapRack rack)).http h 200 "OK").rack rack).capacity =
        decide ((s.rack rack).single < (f (s.alm h).log).siteCapW) := by
    have ha := State.logs_helm g hh
    have hlog : ((s.logs rack g).alm h).log.siteCapW = (f (s.alm h).log).siteCapW := by rw [ha]; exact (hg _).2
    have hrack : (s.logs rack g).rack rack = s.rack rack := by rw [State.logs_rest]; rfl
    have hhelm : (s.logs rack g).helm rack = some h := by
      refine (helm_congr (fun b _ => ?_) fun b _ => ?_).trans hh <;>
        rcases s.logs_alm (rack := rack) g b with e | e <;> rw [e]
      exact (hg _).1
    have hr := (State.judgeMode_recapped rack false (s.logs rack g)).trans (State.recapRack_recapped rack _)
    refine ⟨?_, ?_⟩
    · have h1 := congrArg (fun x => x.log.siteCapW) (((State.http_logged h 200 "OK").shell h).trans (hr.shell h))
      simp only [AlmSt.shell] at h1
      exact h1.trans hlog
    · rw [(State.http_logged ..).rackSame, State.recapRack_capacity, State.judgeMode_capacity _ hhelm, hlog, hrack]
  have := key (fun l => { f l with actions := l.actions ++ [(0, l.epoch, .settingTaken)] }) fun l => ⟨hf l, rfl⟩
  exact ⟨this.1, this.2, (State.http_logged ..).capsFollow (State.recapRack_follow _ _), State.http_told ..⟩

theorem RackSt.refuseCap_badValue (x : RackSt) (l : AlmLog) {w : Nat} (hw : w < 40000 ∨ 132000 < w ∨ w % 500 ≠ 0) :
    x.refuseCap l w = some "BAD_VALUE" := if_pos hw
theorem RackSt.refuseCap_capShort {x : RackSt} {l : AlmLog} {w : Nat} (h1 : 40000 ≤ w) (h2 : w ≤ 132000) (h3 : w % 500 = 0)
    (h4 : x.effCap w < x.overheadW + minSum l.capsChart) : x.refuseCap l w = some "CAP_SHORT" :=
  (if_neg (by omega)).trans (if_pos (by simp [RackSt.short, h4]))
/-- The helm refuses a site cap with its status. -/
theorem exec_siteCapSet_refused {w : Nat} {why : String} (hh : s.helmActs rack h) (hw : (s.rack rack).refuseCap (s.alm h).log w = some why) :
    exec (.siteCapSet rack w) s = .next (s.http h 400 why) := by
  refine congrArg Host.Outcome.next ((State.operator_helm (at_ := ⟨rack, false⟩) _ hh).trans ?_)
  simp only [hw]

/-! ### Feeds -/

theorem RackSt.drive_eq (now : Nat) (f : RackSt → RackSt) (x : RackSt) :
    ∃ at_ out, x.drive now f = { f x with brakeAt := at_, out := out } := by
  unfold RackSt.drive
  dsimp only
  split
  · exact ⟨_, _, rfl⟩
  · exact ⟨_, _, rfl⟩
/-- A feed that is lost; in capacity mode the shelves assert the brake, and S is held. -/
theorem RackSt.loseFeed_spec (now : Nat) (b : Bool) (x : RackSt) :
    (x.loseFeed now b).feed b = false ∧ (x.loseFeed now b).feed (!b) = x.feed (!b) ∧
      (x.capacity = true → (x.loseFeed now b).brakeShelf = true ∧ (x.loseFeed now b).feedLostHold = true) ∧
      (x.capacity = false → (x.loseFeed now b).brakeShelf = x.brakeShelf ∧ (x.loseFeed now b).feedLostHold = x.feedLostHold) := by
  cases hc : x.capacity
  · cases b <;> simp [RackSt.loseFeed, hc, RackSt.feed]
  · have h : ∃ at_ out, x.loseFeed now b = { (if b then { x with feedB := false, feedBack := none } else { x with feedA := false, feedBack := none }) with
        feedLostHold := true, brakeShelf := true, brakeAt := at_, out := out } := by
      simp only [RackSt.loseFeed, hc, if_true]
      exact RackSt.drive_eq ..
    obtain ⟨at_, out, h⟩ := h
    rw [h]
    cases b <;> simp [RackSt.feed]

/-- The rack with a feed that is present again. -/
def RackSt.feedOn (now : Nat) (b : Bool) (x : RackSt) : RackSt :=
  let y := if b then { x with feedB := true } else { x with feedA := true }
  if y.feedA && y.feedB && y.feedLostHold then { y with feedBack := some now } else y
/-- A rack without any feed starts cold. -/
def RackSt.coldStart (now number : Nat) (x : RackSt) : RackSt :=
  if x.feedA || x.feedB then x else { x with started := now, inputs := [], overheadW := 20000, flowProven := false, rackNumber := number }
theorem RackSt.feedOn_spec (now : Nat) (b : Bool) (x : RackSt) :
    (x.feedOn now b).feed b = true ∧ (x.feedOn now b).feed (!b) = x.feed (!b) ∧
      (x.feed (!b) = true → x.feedLostHold = true → (x.feedOn now b).feedBack = some now) ∧
      (x.feedOn now b).started = x.started ∧ (x.feedOn now b).overheadW = x.overheadW ∧ (x.feedOn now b).flowProven = x.flowProven := by
  unfold RackSt.feedOn
  dsimp only
  cases b <;> split_ifs <;> simp_all [RackSt.feed]
theorem RackSt.coldStart_feed (now number : Nat) (x : RackSt) (b : Bool) : (x.coldStart now number).feed b = x.feed b := by
  unfold RackSt.coldStart
  split_ifs
  · rfl
  · cases b <;> rfl
theorem RackSt.coldStart_hold (now number : Nat) (x : RackSt) : (x.coldStart now number).feedLostHold = x.feedLostHold := by
  unfold RackSt.coldStart; split_ifs <;> rfl
theorem RackSt.coldStart_cold (now number : Nat) {x : RackSt} (ha : x.feedA = false) (hb : x.feedB = false) :
    (x.coldStart now number).started = now ∧ (x.coldStart now number).overheadW = 20000 ∧ (x.coldStart now number).flowProven = false := by
  simp [RackSt.coldStart, ha, hb]
theorem RackSt.coldStart_warm (now number : Nat) {x : RackSt} (hx : x.feedA = true ∨ x.feedB = true) : x.coldStart now number = x :=
  if_pos (by simpa using hx)

/-! ### OVERHEAD and the turn that a rack orders -/

theorem le_foldl_max : ∀ (l : List Nat) (b : Nat), b ≤ l.foldl max b ∧ ∀ n ∈ l, n ≤ l.foldl max b
  | [], b => ⟨le_refl b, fun _ h => absurd h List.not_mem_nil⟩
  | n :: l, b => by
    obtain ⟨h1, h2⟩ := le_foldl_max l (max b n)
    refine ⟨le_trans (le_max_left ..) h1, fun m hm => ?_⟩
    rcases List.mem_cons.1 hm with rfl | hm
    · exact le_trans (le_max_right ..) h1
    · exact h2 m hm
/-- OVERHEAD is a multiple of 500 W, at least 1,000 W above each measurement, and at least 20.0 kW after a cold start. -/
theorem RackSt.overheadNow_spec (x : RackSt) (now : Nat) :
    x.overheadNow now % 500 = 0 ∧ (∀ e ∈ x.inputs, e.2.1 - e.2.2 + 1000 ≤ x.overheadNow now) ∧
      (now < x.started + 60000000000 → 20000 ≤ x.overheadNow now) := by
  have hw : ∀ e ∈ x.inputs, e.2.1 - e.2.2 ≤ (x.inputs.map fun e => e.2.1 - e.2.2).foldl max 0 := fun e he =>
    (le_foldl_max _ 0).2 _ (List.mem_map.2 ⟨e, he, rfl⟩)
  unfold RackSt.overheadNow
  dsimp only
  generalize (x.inputs.map fun e => e.2.1 - e.2.2).foldl max 0 = w at hw
  have hv : w + 1000 ≤ (w + 1000 + 499) / 500 * 500 := by omega
  split_ifs with hn
  · refine ⟨?_, fun e he => ?_, fun _ => le_max_left ..⟩
    · rcases max_choice 20000 ((w + 1000 + 499) / 500 * 500) with h | h <;> rw [h]
      exact Nat.mul_mod_left ..
    · exact le_trans (by have := hw e he; omega) (le_max_right ..)
  · exact ⟨Nat.mul_mod_left .., fun e he => by have := hw e he; omega, fun h => absurd h hn⟩

theorem State.rack_foldl {β : Type} {f : State → β → State} (hf : ∀ s b, (f s b).racks = s.racks) (r : Fin 32) :
    ∀ (l : List β) (s : State), (l.foldl f s).rack r = s.rack r
  | [], _ => rfl
  | b :: l, s => (State.rack_foldl hf r l _).trans (by simp only [State.rack, hf])
theorem State.logs_rack (f : AlmLog → AlmLog) (r : Fin 32) : (s.logs rack f).rack r = s.rack r := by rw [State.logs_rest]; rfl
/-- The rack with one more measurement, and those of the last 60 s. -/
def RackSt.measured (now i q : Nat) (x : RackSt) : RackSt :=
  { x with inputs := (x.inputs.filter fun (e : Nat × Nat × Nat) => now ≤ e.1 + 60 * 10 ^ 9) ++ [(now, i, q)] }
/-- The rack after a poll of its shelves. -/
def RackSt.polled (now i q : Nat) (x : RackSt) : RackSt := { x.measured now i q with overheadW := (x.measured now i q).overheadNow now }
/-- The helm's part in a turn leaves the rack's supply, and the caps that follow. -/
theorem State.settleTurn_spec (rack : Fin 32) (s : State) :
    ((s.settleTurn rack).rack rack).supply = (s.rack rack).supply ∧ (s.capsFollow rack → (s.settleTurn rack).capsFollow rack) := by
  unfold State.settleTurn
  split
  · exact ⟨rfl, id⟩
  · dsimp only
    split
    · exact ⟨rfl, id⟩
    · split
      · exact ⟨rfl, id⟩
      · refine ⟨(State.recapRack_recapped rack _).supply.trans ?_, fun _ => State.recapRack_follow _ _⟩
        refine congrArg RackSt.supply ((State.rack_foldl ?_ rack _ _).trans (State.logs_rack ..))
        intro s b
        rfl
theorem State.turnClock_spec (rack : Fin 32) (s : State) :
    ((s.turnClock rack).rack rack).supply = (s.rack rack).supply ∧ (s.capsFollow rack → (s.turnClock rack).capsFollow rack) := by
  have hs := s.settleTurn_spec rack
  unfold State.turnClock
  dsimp only
  split
  · exact hs
  · split
    · exact ⟨(State.recapRack_recapped rack _).supply.trans hs.1, fun _ => State.recapRack_follow _ _⟩
    · exact hs

/-! ### The busbar -/

/-- A CW reports that the busbar is low, and waits for it. -/
def CwSt.waitsBusbar (m : Msg) (c : CwSt) : CwSt := { c.emit m with busbarWait := true }
theorem CwSt.waitsBusbar_told (m : Msg) (c : CwSt) : m ∈ (c.waitsBusbar m).out := List.mem_append_right _ (List.mem_singleton.2 rfl)
theorem CwSt.waitsBusbar_at (m : Msg) (c : CwSt) (n : Nat) : (c.waitsBusbar m).at n = c.at n := rfl
/-- BUSBAR_LOW at a board position: the power of a module that has it goes, and its bring-up waits at step 1. -/
def State.dropPower (t : TrayId) (pos : Fin 4) (s : State) : State :=
  if (s.posn t pos).pwrEn then
    let s2 := s.powerOff t pos
    s2.setPosn t pos { s2.posn t pos with step := 1 }
  else s
def PosSt.dropped (x : PosSt) : PosSt := if x.pwrEn then { x.heldLow with pwrEn := false, pwrGood := false, step := 1 } else x
theorem State.dropPower_atPos (t : TrayId) (pos : Fin 4) (s : State) : s.AtPos t pos (s.dropPower t pos) :=
  .ite ((s.powerOff_atPos ..).trans (State.setPosn_atPos ..)) (.refl ..)
theorem State.posn_dropPower (t : TrayId) (pos : Fin 4) (s : State) : (s.dropPower t pos).posn t pos = (s.posn t pos).dropped := by
  unfold State.dropPower PosSt.dropped
  split
  · rw [State.posn_setPosn_same, State.posn_powerOff]
  · rfl
theorem PosSt.dropped_spec (x : PosSt) : x.dropped.pwrEn = false ∧ (x.pwrEn = true → x.dropped.step = 1) := by
  unfold PosSt.dropped
  cases hx : x.pwrEn <;> simp [hx]

/-- Every tray of a rack takes a change; board positions stay where the change leaves them. -/
theorem State.tray_overTrays (f : CwSt → CwSt) (slot : Fin 28) : ∀ (l : List TrayId) (s : State), l.Nodup →
    ((l.foldl (fun s t => s.setTray t (f (s.tray t))) s).tray ⟨rack, slot⟩) =
      if (⟨rack, slot⟩ : TrayId) ∈ l then f (s.tray ⟨rack, slot⟩) else s.tray ⟨rack, slot⟩
  | [], _, _ => rfl
  | t :: l, s, hd => by
    rw [List.nodup_cons] at hd
    rw [List.foldl_cons, State.tray_overTrays f slot l _ hd.2]
    by_cases ht : (⟨rack, slot⟩ : TrayId) = t
    · subst ht
      rw [if_neg hd.1, if_pos (List.mem_cons_self ..), State.tray_setTray_same]
    · rw [State.tray_setTray_ne _ _ ht]
      simp only [List.mem_cons, ht, false_or]
theorem State.tray_rackTrays (f : CwSt → CwSt) (slot : Fin 28) (s : State) :
    (((rackTrays rack).foldl (fun s t => s.setTray t (f (s.tray t))) s).tray ⟨rack, slot⟩) = f (s.tray ⟨rack, slot⟩) := by
  have hd : (rackTrays rack).Nodup := (List.nodup_finRange 28).map fun a b hab => by simpa using hab
  rw [State.tray_overTrays f slot _ s hd, if_pos (by simp [rackTrays])]

/-- The modules that wait at step 1. -/
def State.bringOn (t : TrayId) (pos : Fin 4) (s : State) : State := if (s.posn t pos).step = 1 then s.bringUp t pos else s
theorem State.bringOn_atPos (t : TrayId) (pos : Fin 4) (s : State) : s.AtPos t pos (s.bringOn t pos) := .ite (s.bringUp_atPos ..) (.refl ..)
theorem State.goOn_frame (rack r : Fin 32) (t : TrayId) (s : State) :
    (s.goOn rack).rack r = s.rack r ∧ ((s.goOn rack).tray t).busbarWait = (s.tray t).busbarWait := by
  have e : s.goOn rack = s.overPos (fun t pos s => s.bringOn t pos) (rackPositions rack) := s.eachPos_eq ..
  rw [e]
  exact State.overPos_frame (fun t pos s => s.bringOn_atPos t pos) r t _ s

/-- BUSBAR_LOW at a rack: every tray waits and reports, and every module's power is off. -/
theorem exec_busbarLow (mv : Nat) (hv : mv < 48000) : ∃ u, exec (.busbarLow rack mv) s = .next u ∧
    ∀ slot : Fin 28, (u.tray ⟨rack, slot⟩).busbarWait = true ∧ Msg.report "BUSBAR_LOW" 0 mv ∈ (u.tray ⟨rack, slot⟩).out ∧
      ∀ pos : Fin 4, u.posn ⟨rack, slot⟩ pos = (s.posn ⟨rack, slot⟩ pos).dropped := by
  have h0 : exec (.busbarLow rack mv) s = .next ((rackTrays rack).foldl
      (fun s t => s.setTray t ((s.tray t).waitsBusbar (.report "BUSBAR_LOW" 0 mv)))
      (s.eachPos rack fun t pos s => s.dropPower t pos)) := if_neg (by omega)
  refine ⟨_, h0, fun slot => ?_⟩
  have hf := State.tray_rackTrays (rack := rack) (CwSt.waitsBusbar (.report "BUSBAR_LOW" 0 mv)) slot
    (s.eachPos rack fun t pos s => s.dropPower t pos)
  have hp (pos : Fin 4) : (s.eachPos rack fun t pos s => s.dropPower t pos).posn ⟨rack, slot⟩ pos = (s.posn ⟨rack, slot⟩ pos).dropped := by
    rw [State.eachPos_eq]
    exact State.posn_overPos (fun t pos s => s.dropPower_atPos t pos) (fun t pos s => s.posn_dropPower t pos) _ _
      (nodup_rackPositions rack) (mem_rackPositions rack slot pos)
  refine ⟨?_, ?_, fun pos => ?_⟩
  · rw [hf]; rfl
  · rw [hf]; exact CwSt.waitsBusbar_told ..
  · rw [State.posn, hf, CwSt.waitsBusbar_at]; exact hp pos

/-- SHELF_POLL: OVERHEAD covers every measurement of the last 60 s, and the caps follow where it changes. -/
theorem exec_shelfPoll (i q : Nat) : ∃ t, exec (.shelfPoll rack i q) s = .next t ∧ (t.rack rack).overheadW % 500 = 0 ∧
    i - q + 1000 ≤ (t.rack rack).overheadW ∧
    (∀ e ∈ (s.rack rack).inputs, s.now ≤ e.1 + 60000000000 → e.2.1 - e.2.2 + 1000 ≤ (t.rack rack).overheadW) ∧
    ((t.rack rack).overheadW ≠ (s.rack rack).overheadW → t.capsFollow rack) ∧
    (s.now < (s.rack rack).started + 60000000000 → 20000 ≤ (t.rack rack).overheadW) := by
  have h0 : exec (.shelfPoll rack i q) s = .next ((if ((s.rack rack).polled s.now i q).overheadW = (s.rack rack).overheadW
    then s.setRack rack ((s.rack rack).polled s.now i q) else (s.setRack rack ((s.rack rack).polled s.now i q)).recapRack rack).turnClock rack) := rfl
  obtain ⟨h1, h2, h3⟩ := RackSt.overheadNow_spec ((s.rack rack).measured s.now i q) s.now
  have hover : ((s.rack rack).polled s.now i q).overheadW = ((s.rack rack).measured s.now i q).overheadNow s.now := rfl
  rw [← hover] at h1 h2 h3
  have hmem (e : Nat × Nat × Nat) (he : e ∈ (s.rack rack).inputs) (hn : s.now ≤ e.1 + 60000000000) :
      e ∈ ((s.rack rack).measured s.now i q).inputs :=
    List.mem_append_left _ (List.mem_filter.2 ⟨he, by simpa using hn⟩)
  have hnew : (s.now, i, q) ∈ ((s.rack rack).measured s.now i q).inputs := List.mem_append_right _ (List.mem_singleton.2 rfl)
  have hx := State.rack_setRack_same s rack ((s.rack rack).polled s.now i q)
  generalize ((s.rack rack).polled s.now i q) = x at h0 h1 h2 h3 hx
  have hsup : ∀ u : State, (u.rack rack).supply = x.supply → ((u.turnClock rack).rack rack).overheadW = x.overheadW := fun u hu =>
    RackSt.of_supply RackSt.overheadW ((u.turnClock_spec rack).1.trans hu) fun _ => rfl
  refine ⟨_, h0, ?_⟩
  split_ifs with he
  · rw [hsup _ (by rw [hx])]
    exact ⟨h1, h2 _ hnew, fun e hm hn => h2 e (hmem e hm hn), fun hne => absurd he hne, h3⟩
  · rw [hsup _ ((State.recapRack_recapped rack _).supply.trans (by rw [hx]))]
    exact ⟨h1, h2 _ hnew, fun e hm hn => h2 e (hmem e hm hn), fun _ => (State.turnClock_spec rack _).2 (State.recapRack_follow _ _), h3⟩

/-! ### The obligation -/

/-- Settles O39: the division of the pool; settings are an operator's requests; each change of the supply is followed by the caps. -/
theorem rackPower : Obligations.RackPower := by
  unfold Obligations.RackPower
  refine ⟨fun img pool hp => ⟨sum_poolCaps hp, fun e he => mem_poolCaps he⟩, fun s rack => ?_⟩
  dsimp only
  refine ⟨fun w hn => ?_, fun h w hh hw => ?_, fun h w hh h1 h2 h3 h4 => ?_, fun h w why hh hw => ?_, fun h w hh hw => ?_, fun n b => ?_,
    fun b v hv => ?_, fun b v hv => ?_, fun b lo hi hr => ?_, fun b lo hi hlo hhi => ?_, fun hf => ?_, fun f hf hle => ?_, fun i q => ?_,
    fun n v hv => ?_, fun n v hv => ?_, fun n v h1 h2 => ?_, fun n lo hi hlo hhi => ?_, fun f v hv => ?_, fun f v hv => ?_, fun f v h1 h2 => ?_,
    fun v hv => ?_, fun v hv => ?_, fun v hv => ?_, fun v hv => ?_, fun f hf => ?_, fun f hf => ?_, fun hn => ?_, fun a ha => ?_⟩
  · exact congrArg Host.Outcome.next (State.operator_retry (at_ := ⟨rack, false⟩) _ hn)
  · exact exec_siteCapSet_refused hh (RackSt.refuseCap_badValue _ _ hw)
  · exact exec_siteCapSet_refused hh (RackSt.refuseCap_capShort h1 h2 h3 h4)
  · exact exec_siteCapSet_refused hh hw
  · refine ⟨s.setting rack h fun l => { l with siteCapW := w }, ?_, State.setting_spec _ (fun _ => rfl) hh.1⟩
    refine congrArg Host.Outcome.next ((State.operator_helm (at_ := ⟨rack, false⟩) _ hh).trans ?_)
    simp only [hw]
  · have hs := State.supplyChange_supply rack
      (fun x => { x with psuFault := if b then dropFrom x.psuFault n.val else addTo x.psuFault n.val }) s
    refine ⟨_, rfl, ?_, State.supplyChange_follow _ _ _, (RackSt.of_supply RackSt.brakeShelf hs fun _ => rfl).trans rfl⟩
    refine (RackSt.of_supply (fun x => x.psuFault.contains n.val) hs fun _ => rfl).trans ?_
    cases b
    · exact addTo_contains ..
    · exact dropFrom_contains ..
  · exact congrArg Host.Outcome.next (if_neg (by exact Nat.not_lt.2 hv))
  · have hs := State.supplyChange_supply rack (RackSt.loseFeed s.now b) s
    obtain ⟨h1, h2, h3, h4⟩ := RackSt.loseFeed_spec s.now b (s.rack rack)
    have hb := RackSt.of_supply RackSt.brakeShelf hs fun _ => rfl
    have hl := RackSt.of_supply RackSt.feedLostHold hs fun _ => rfl
    exact ⟨_, congrArg Host.Outcome.next (if_pos hv), (RackSt.feed_congr hs b).trans h1, (RackSt.feed_congr hs _).trans h2,
      State.supplyChange_follow _ _ _, fun hc => ⟨hb.trans (h3 hc).1, hl.trans (h3 hc).2⟩, fun hc => ⟨hb.trans (h4 hc).1, hl.trans (h4 hc).2⟩⟩
  · have hp : phaseOk lo hi = false := by simp [phaseOk]; omega
    exact ⟨if_pos (by simp [hp]), fun n => congrArg Host.Outcome.next (if_neg (by simp [hp]))⟩
  · have hp : phaseOk lo hi = true := by simp [phaseOk]; omega
    generalize hnum : (if (s.alm ⟨rack, false⟩).log.epoch.toNat < (s.alm ⟨rack, true⟩).log.epoch.toNat then (s.alm ⟨rack, true⟩).log.rackNumber
      else (s.alm ⟨rack, false⟩).log.rackNumber) = number
    have hs := State.supplyChange_supply rack (RackSt.feedOn s.now b) (s.setRack rack ((s.rack rack).coldStart s.now number))
    rw [State.rack_setRack_same] at hs
    obtain ⟨h1, h2, h3, h4, h5, h6⟩ := RackSt.feedOn_spec s.now b ((s.rack rack).coldStart s.now number)
    rw [RackSt.coldStart_feed] at h2 h3
    rw [RackSt.coldStart_hold] at h3
    have g4 := (RackSt.of_supply RackSt.started hs fun _ => rfl).trans h4
    have g5 := (RackSt.of_supply RackSt.overheadW hs fun _ => rfl).trans h5
    have g6 := (RackSt.of_supply RackSt.flowProven hs fun _ => rfl).trans h6
    refine ⟨_, (if_neg (by simp [hp])).trans ?_, (RackSt.feed_congr hs b).trans h1, (RackSt.feed_congr hs _).trans h2,
      State.supplyChange_follow _ _ _, fun hx hy => (RackSt.of_supply RackSt.feedBack hs fun _ => rfl).trans (h3 hx hy), fun ha hb => ?_, fun hx => ?_⟩
    · subst hnum; rfl
    · obtain ⟨c1, c2, c3⟩ := RackSt.coldStart_cold s.now number ha hb
      exact ⟨g4.trans c1, g5.trans c2, g6.trans c3⟩
    · exact ⟨g4.trans (by rw [RackSt.coldStart_warm _ _ hx]), g6.trans (by rw [RackSt.coldStart_warm _ _ hx])⟩
  · change execCapacityHoldEnd rack s = _
    unfold execCapacityHoldEnd
    split
    next f hb => exact congrArg Host.Outcome.next (if_neg (Nat.not_le.2 (hf f hb)))
    next => rfl
  · have hs := State.supplyChange_supply rack (fun x => { x with feedLostHold := false, feedBack := none }) s
    refine ⟨_, ?_, RackSt.of_supply RackSt.feedLostHold hs (fun _ => rfl), RackSt.of_supply RackSt.feedBack hs (fun _ => rfl), State.supplyChange_follow _ _ _⟩
    change execCapacityHoldEnd rack s = _
    unfold execCapacityHoldEnd
    rw [hf]
    exact congrArg Host.Outcome.next (if_pos hle)
  · exact exec_shelfPoll i q
  · exact if_pos hv
  · exact (if_neg (by omega)).trans (if_pos hv)
  · have hs := State.supplyChange_supply rack (fun x => { x with psuOver := addTo x.psuOver n.val }) s
    refine ⟨_, (if_neg (by omega)).trans (if_neg (by omega)), (RackSt.of_supply (fun z => z.psuGood n.val) hs fun _ => rfl).trans ?_, State.supplyChange_follow _ _ _⟩
    simp only [RackSt.psuGood, addTo_contains, Bool.not_true, Bool.and_false, Bool.false_and]
  · have hp : phaseOk lo hi = true := by simp [phaseOk]; omega
    have hs := State.supplyChange_supply rack (fun x => { x with psuOver := dropFrom x.psuOver n.val }) s
    exact ⟨_, congrArg Host.Outcome.next (if_pos hp), (RackSt.of_supply (fun x => x.psuOver.contains n.val) hs fun _ => rfl).trans (dropFrom_contains ..),
      State.supplyChange_follow _ _ _⟩
  · exact if_pos hv
  · exact (if_neg (by omega)).trans (if_pos hv)
  · have hs := State.supplyChange_supply rack (fun x => { x with shelfDown := addTo x.shelfDown f.val }) s
    exact ⟨_, (if_neg (by omega)).trans (if_neg (by omega)), (RackSt.of_supply (fun x => x.shelfDown.contains f.val) hs fun _ => rfl).trans (addTo_contains ..),
      State.supplyChange_follow _ _ _⟩
  · exact if_pos hv
  · obtain ⟨u, hu, hslot⟩ := exec_busbarLow (s := s) (rack := rack) v hv
    refine ⟨u, hu, fun slot => ⟨(hslot slot).1, (hslot slot).2.1, fun pos => ?_⟩⟩
    rw [(hslot slot).2.2 pos]
    exact (s.posn ⟨rack, slot⟩ pos).dropped_spec
  · exact congrArg Host.Outcome.next (if_pos hv)
  · refine ⟨_, congrArg Host.Outcome.next (if_neg (Int.not_lt.2 hv)), fun slot => (State.goOn_frame rack rack ⟨rack, slot⟩ _).2.trans ?_⟩
    exact congrArg CwSt.busbarWait (State.tray_rackTrays (rack := rack) (fun c => { c with busbarWait := false }) slot s)
  · exact congrArg Host.Outcome.next (if_pos hf)
  · refine ⟨_, congrArg Host.Outcome.next (if_neg (Int.not_lt.2 hf)), (congrArg RackSt.flowProven (State.goOn_frame rack rack ⟨rack, 0⟩ _).1).trans ?_⟩
    rw [State.rack_setRack_same]
  · change execBringUpDeadline rack s = _
    unfold execBringUpDeadline
    rw [hn]
  · have hl := State.logs_helm (fun l => { l with failedPos := ((rackPkgs rack).filter fun p => !(s.pkg p).pkc.admitted).map PkgId.key }) ha
    change ∃ t, execBringUpDeadline rack s = _ ∧ _
    unfold execBringUpDeadline
    rw [ha]
    dsimp only
    generalize ((rackPkgs rack).filter fun p => !(s.pkg p).pkc.admitted).map PkgId.key = failed at hl
    by_cases hf : failed = []
    · subst hf
      refine ⟨_, rfl, ?_, fun h => absurd rfl h⟩
      rw [List.isEmpty_nil, if_pos rfl, hl]
    · refine ⟨_, rfl, ?_, fun _ => ?_⟩ <;> rw [if_neg (by simpa using hf), State.alm_setAlm_same, hl]
      · rfl
      · exact List.mem_append_right _ (List.mem_singleton.2 rfl)

end Sys2Proof.Machine
end

section
/-! PROOF. What the going dark of a unit leaves (R50, R56–R58), and what the log of the fault hub leaves (R319, R332–R336). -/
namespace Sys2Proof.Machine
open Sys2Proof

variable {i j k : Pkg}

/-! ### Going dark -/

/-- A register outside the check-value units, the F-tiles, the cores and the engines. -/
def centralReg (o : Nat) : Prop := o < 0x60000 ∨ 0x70000 ≤ o ∧ o < 0x100000
/-- Between two states of a package only what the darkness of a unit touches changed. -/
structure Pkg.Darkened (j k : Pkg) : Prop where
  rest : k = { j with regs := k.regs, dark := k.dark, fab := k.fab, mem := k.mem, brg := k.brg, out := k.out }
  rg : ∀ o, centralReg o → k.rg o = j.rg o
  told : ∀ m ∈ j.out, m ∈ k.out

theorem Pkg.Darkened.refl (k : Pkg) : k.Darkened k := ⟨rfl, fun _ _ => rfl, fun _ h => h⟩
theorem Pkg.Darkened.trans (h : i.Darkened j) (h' : j.Darkened k) : i.Darkened k :=
  ⟨h'.rest.trans (by rw [h.rest]), fun o ho => (h'.rg o ho).trans (h.rg o ho), fun m hm => h'.told m (h.told m hm)⟩
theorem Pkg.Darkened.ite {c : Prop} [Decidable c] (h : i.Darkened j) (h' : i.Darkened k) : i.Darkened (if c then j else k) := by
  split_ifs <;> assumption
theorem Pkg.Darkened.foldl {β : Type} {f : Pkg → β → Pkg} (hf : ∀ (k : Pkg) b, k.Darkened (f k b)) : ∀ (l : List β) (k : Pkg), k.Darkened (l.foldl f k)
  | [], k => .refl k
  | b :: l, k => (hf k b).trans (Pkg.Darkened.foldl hf l _)
/-- A change of the dark units, the fabric, the memory or the engines. -/
theorem Pkg.Darkened.units (k : Pkg) (d : DarkSt) (f : FabSt) (m : MemSt) (b : SMap BrgSt) :
    k.Darkened { k with dark := d, fab := f, mem := m, brg := b } := ⟨rfl, fun _ _ => rfl, fun _ h => h⟩
theorem Pkg.Darkened.put (k : Pkg) (f : Fld) (v : Nat) (h : ¬ centralReg f.off) : k.Darkened (k.put f v) :=
  ⟨rfl, fun _ ho => Pkg.rg_put_ne k f v fun e => h (e ▸ ho), fun _ h => h⟩
theorem Pkg.Darkened.emit (k : Pkg) (m : Msg) : k.Darkened (k.emit m) := ⟨rfl, fun _ _ => rfl, fun _ h => List.mem_append_left _ h⟩
theorem Pkg.Darkened.emits (k : Pkg) (l : List Msg) : k.Darkened (k.emits l) := ⟨rfl, fun _ _ => rfl, fun _ h => List.mem_append_left _ h⟩

theorem Pkg.Darkened.get (h : j.Darkened k) (f : Fld) (hf : centralReg f.off) : k.get f = j.get f := by rw [Pkg.get, h.rg _ hf]; rfl
theorem Pkg.Darkened.flt (h : j.Darkened k) : k.flt = j.flt := by rw [h.rest]
theorem Pkg.Darkened.thr (h : j.Darkened k) : k.thr = j.thr := by rw [h.rest]
theorem Pkg.Darkened.pkc (h : j.Darkened k) : k.pkc = j.pkc := by rw [h.rest]
theorem Pkg.Darkened.chart (h : j.Darkened k) : k.chart = j.chart := by rw [h.rest]

theorem not_centralReg_core {o : Nat} (h : 0x400000 ≤ o) : ¬ centralReg o := by unfold centralReg; omega
theorem Pkg.keep_darkened (rq : Packet) (st : Byte) (r : BitVec 64) (k : Pkg) : k.Darkened (k.keep rq st r) := by
  unfold Pkg.keep
  split
  · exact .refl k
  · exact .ite (.refl k) (.units k k.dark _ k.mem k.brg)
theorem Pkg.answer_darkened (now : Nat) (rq : Packet) (st : Byte) (poison : Bool) (d : List Byte) (k : Pkg) :
    k.Darkened (k.answer now rq st poison d) := .emit ..
theorem ite_lt {c : Prop} [Decidable c] {a b n : Nat} (ha : a < n) (hb : b < n) : (if c then a else b) < n := by
  split <;> assumption
theorem crossTile_lt (memory : Bool) (rq : Packet) (k : Pkg) : k.crossTile memory rq < 2 := by
  have h : (if memory then (bit rq.addr.toNat 12).toNat else epCore rq.dst / 48 % 2) < 2 := by
    split
    · exact Bool.toNat_lt _
    · exact Nat.mod_lt _ (by decide)
  unfold Pkg.crossTile
  dsimp only
  exact ite_lt (Nat.lt_of_le_of_lt (Nat.sub_le ..) (by decide)) h
theorem Pkg.standIn_darkened (now : Nat) (b : Bool) (rq : Packet) (k : Pkg) : k.Darkened (k.standIn now b rq) := by
  refine .ite ((k.keep_darkened ..).trans (Pkg.answer_darkened ..)) (.put _ _ _ ?_)
  have := crossTile_lt b rq k
  simp only [F.FAB_DISCARD_A_STANDIN, R.FAB_DISCARD_A, centralReg]
  omega
theorem Pkg.meshDone_darkened (rq : Packet) (st : Byte) (d : List Byte) (k : Pkg) : k.Darkened (k.meshDone rq st d) :=
  .ite (.emit ..) (.put _ _ _ (not_centralReg_core (by simp only [F.CORE_STALE_RESP_COUNT, R.CORE_STALE_RESP]; omega)))
theorem Pkg.answerMesh_darkened (u : DarkUnit) (cs : List Nat) (k : Pkg) : k.Darkened (k.answerMesh u cs) := by
  unfold Pkg.answerMesh
  dsimp only
  exact .trans (.units k k.dark _ k.mem k.brg) (.foldl (fun k r => k.meshDone_darkened r _ _) _ _)
theorem Pkg.claspTell_darkened (now c : Nat) (rq : Option Packet) (st : Byte) (k : Pkg) : k.Darkened (k.claspTell now c rq st) := by
  cases rq with
  | none => exact .emit ..
  | some pk => exact (k.keep_darkened ..).trans (Pkg.answer_darkened ..)
theorem Pkg.tellWaiters_darkened (now : Nat) (st : Byte) (p : Clasp → Bool) (q : Waiter → Bool) (k : Pkg) : k.Darkened (k.tellWaiters now st p q) :=
  .foldl (fun k (w : Waiter) => k.claspTell_darkened now w.core w.rq st) _ _
theorem Pkg.claspStoreDark_darkened (now : Nat) (p : Nat → Bool) (k : Pkg) : k.Darkened (k.claspStoreDark now p) :=
  (k.tellWaiters_darkened ..).trans (.units _ _ _ _ _)
theorem Pkg.answerRecorded_darkened (now : Nat) (u : DarkUnit) (k : Pkg) : k.Darkened (k.answerRecorded now u) := by
  unfold Pkg.answerRecorded
  dsimp only
  exact .trans (.trans (.trans (.units k k.dark _ k.mem k.brg) (.foldl (fun k r => k.standIn_darkened now _ r) _ _)) (Pkg.answerMesh_darkened ..))
    (Pkg.claspStoreDark_darkened ..)
theorem Pkg.addDark_darkened (u : DarkUnit) (cause : DarkCause) (k : Pkg) : k.Darkened (k.addDark u cause) :=
  .ite (.refl k) (.units k _ k.fab k.mem k.brg)
theorem Pkg.csuEnd_darkened {u : Nat} (hu : u < 10) (state code : Nat) (k : Pkg) : k.Darkened (k.csuEnd u state code) := by
  have hc : ¬ centralReg (R.CSU_STATUS u) := by simp only [R.CSU_STATUS, centralReg]; omega
  have h : k.Darkened (k.csuStatus u state code) := .trans (.trans (.put _ _ _ hc) (.put _ _ _ hc)) (.put _ _ _ hc)
  rw [Pkg.csuEnd_eq]
  exact .ite (h.trans (.emit ..)) h
theorem Pkg.csuUnits_darkened {f : Pkg → Nat → Pkg} (hf : ∀ (k : Pkg) u, u < 10 → k.Darkened (f k u)) :
    ∀ (l : List Nat) (k : Pkg), (∀ u ∈ l, u < 10) → k.Darkened (l.foldl f k)
  | [], k, _ => .refl k
  | u :: l, k, h => (hf k u (h u (List.mem_cons_self ..))).trans (Pkg.csuUnits_darkened hf l _ fun v hv => h v (List.mem_cons_of_mem _ hv))
theorem Pkg.csuStop_darkened (code : Nat) (p : Scanning → Bool) (k : Pkg) : k.Darkened (k.csuStop code p) :=
  Pkg.csuUnits_darkened (fun k _ hu => .ite (k.csuEnd_darkened hu ..) (.refl k)) _ _ fun _ hu => List.mem_range.1 hu
theorem Pkg.csuReset_darkened {us : List Nat} (h : ∀ u ∈ us, u < 10) (k : Pkg) : k.Darkened (k.csuReset us) :=
  Pkg.csuUnits_darkened (fun k _ hu => .ite (k.csuEnd_darkened hu ..) (.refl k)) _ _ h
theorem csuUnits_lt (u : DarkUnit) : ∀ n ∈ csuUnits u, n < 10 := by
  intro n hn
  cases u <;> simp [csuUnits] at hn <;> omega
/-- A unit that goes dark leaves all but the dark units, the fabric, memory, engines, and the registers of units. -/
theorem Pkg.goDark_darkened (now : Nat) (u : DarkUnit) (cause : DarkCause) (k : Pkg) : k.Darkened (k.goDark now u cause) := by
  have h0 : k.Darkened (if cause = .reset then k.csuReset (csuUnits u) else k) := .ite (k.csuReset_darkened (csuUnits_lt u)) (.refl k)
  have h1 := (h0.trans (Pkg.addDark_darkened u cause _)).trans (Pkg.answerRecorded_darkened now u _)
  unfold Pkg.goDark
  dsimp only
  generalize (Pkg.answerRecorded _ _ _) = l at h1
  have h2 (f : Scanning → Bool) : k.Darkened ((l.csuStop 5 f).engineSourceLost (unitStacks u)) :=
    (h1.trans (l.csuStop_darkened 5 f)).trans (.units _ _ _ _ _)
  exact .ite ((h2 _).trans (.emits ..)) (h2 _)
theorem Pkg.loseSegs_darkened (p : Nat → Storage → Bool) (k : Pkg) : k.Darkened (k.loseSegs p) := by
  unfold Pkg.loseSegs
  dsimp only
  refine .trans (.foldl (fun k e => .put k _ _ (not_centralReg_core ?_)) _ _) (.units _ _ _ _ _)
  simp only [F.CORE_SEG_CTRL_STATUS, R.CORE_SEG_CTRL]
  omega
theorem Pkg.loseLent_darkened (lender : Nat) (k : Pkg) : k.Darkened (k.loseLent lender) := Pkg.loseSegs_darkened ..
/-- What a lender's going dark leaves of each package. -/
theorem State.loseLender_darkened (rack : Fin 32) (lender : Nat) (s : State) (p : PkgId) : (s.pkg p).Darkened ((s.loseLender rack lender).pkg p) := by
  have h : ∀ (l : List (Fin 96)) (s : State), (s.pkg p).Darkened
      ((l.foldl (fun s n => s.setPkg (indexPkg rack n) ((s.pkg (indexPkg rack n)).loseLent lender)) s).pkg p) := by
    intro l
    induction l with
    | nil => exact fun s => .refl _
    | cons n l ih =>
      intro s
      refine .trans ?_ (ih _)
      by_cases hp : p = indexPkg rack n
      · subst hp; rw [State.pkg_setPkg_same]; exact Pkg.loseLent_darkened ..
      · rw [State.pkg_setPkg_ne _ _ hp]; exact .refl _
  exact h _ s

/-- After the change of one package that may have gone dark by it, that package keeps what darkness leaves. -/
theorem onPkgGrave_darkened (p : PkgId) (s : State) (f : Mem → Pkg → Mem × Pkg) :
    ∃ t, onPkgGrave p s f = .next t ∧ (f s.mem (s.pkg p)).2.Darkened (t.pkg p) ∧
      ((f s.mem (s.pkg p)).2.pkgDark = (s.pkg p).pkgDark → t = { s with mem := (f s.mem (s.pkg p)).1 }.setPkg p (f s.mem (s.pkg p)).2) := by
  refine ⟨_, rfl, ?_, fun h => if_neg (by rw [h]; simp)⟩
  split
  · have := State.loseLender_darkened p.rack (s.pkg p).addr ({ s with mem := (f s.mem (s.pkg p)).1 }.setPkg p (f s.mem (s.pkg p)).2) p
    rwa [State.pkg_setPkg_same] at this
  · rw [State.pkg_setPkg_same]; exact .refl _
theorem Pkg.loseSegs_dark (p : Nat → Storage → Bool) (k : Pkg) : (k.loseSegs p).dark = k.dark := by
  have h : ∀ (l : SMap Storage) (k : Pkg), (l.foldl (fun k e => k.put (F.CORE_SEG_CTRL_STATUS (e.1 / 64) (e.1 % 64)) 6) k).dark = k.dark := by
    intro l
    induction l with
    | nil => exact fun _ => rfl
    | cons e l ih => exact fun k => ih _
  exact h _ k
theorem State.loseLender_dark (rack : Fin 32) (lender : Nat) (s : State) (p : PkgId) :
    ((s.loseLender rack lender).pkg p).dark = (s.pkg p).dark := by
  have h : ∀ (l : List (Fin 96)) (s : State),
      ((l.foldl (fun s n => s.setPkg (indexPkg rack n) ((s.pkg (indexPkg rack n)).loseLent lender)) s).pkg p).dark = (s.pkg p).dark := by
    intro l
    induction l with
    | nil => exact fun s => rfl
    | cons n l ih =>
      intro s
      refine (ih _).trans ?_
      by_cases hp : p = indexPkg rack n
      · subst hp; rw [State.pkg_setPkg_same]; exact Pkg.loseSegs_dark ..
      · rw [State.pkg_setPkg_ne _ _ hp]
  exact h _ s
/-- A package that is set, and may lose what a lender held. -/
theorem State.lost_darkened (s : State) (p : PkgId) (k : Pkg) (lender : Nat) (c : Prop) [Decidable c] :
    k.Darkened ((if c then (s.setPkg p k).loseLender p.rack lender else s.setPkg p k).pkg p) ∧
      ((if c then (s.setPkg p k).loseLender p.rack lender else s.setPkg p k).pkg p).dark = k.dark := by
  have h := State.loseLender_darkened p.rack lender (s.setPkg p k) p
  have h' := State.loseLender_dark p.rack lender (s.setPkg p k) p
  rw [State.pkg_setPkg_same] at h h'
  split
  · exact ⟨h, h'⟩
  · rw [State.pkg_setPkg_same]; exact ⟨.refl k, rfl⟩
theorem onPkgGrave_dark (p : PkgId) (s : State) (f : Mem → Pkg → Mem × Pkg) {t : State} (h : onPkgGrave p s f = .next t) :
    (t.pkg p).dark = (f s.mem (s.pkg p)).2.dark := by
  rw [← Host.Outcome.next.inj h]
  exact (State.lost_darkened ..).2
/-- A served write that may make the package dark. -/
theorem busAccess_write_grave {i : Instr} {p : PkgId} {who : Requester} {off : Nat} {w : Word} {d : RegDesc} {s : State}
    (hi : busOpOf i = some (p, writeOp who off w)) (ho : Open s p who off) (hd : findReg off = some d) (hl : off < 2 ^ 24) (ha : off % 4 = 0) :
    ∃ t, busAccess i s = .next t ∧
      (busWrite ⟨s.now, p, who, false, s.upIn p.rack, Config.freeWord s.free⟩ d off w s.mem (s.pkg p)).2.Darkened (t.pkg p) ∧
      (t.pkg p).dark = (busWrite ⟨s.now, p, who, false, s.upIn p.rack, Config.freeWord s.free⟩ d off w s.mem (s.pkg p)).2.dark := by
  obtain ⟨h1, h2, h3, h4⟩ := ho
  have hm : off % 2 ^ 24 = off := Nat.mod_eq_of_lt hl
  have hr : (s.pkg p).busRefuses off 4 = false := by
    have : ¬ (2 ^ 25 ≤ off) := by omega
    unfold Pkg.busRefuses
    rw [hm, hd, h4]
    simp [ha]; omega
  have hdef : (s.pkg p).mustDefer (writeOp who off w) = false := by
    simp only [Pkg.mustDefer, Pkg.opDomains, Pkg.goodWords_write hr hl, h3, List.flatMap_cons, List.flatMap_nil, List.append_nil, List.any_nil,
      Bool.or_false]
    rw [List.any_eq_false]
    intro d hd
    have := (List.all_eq_true.1 h2) d hd
    simp [this]
  unfold busAccess
  rw [hi]
  simp only [writeOp] at hdef ⊢
  simp only [h1, hdef, Bool.not_true, Bool.false_eq_true, if_false, State.busPerform, busWords, busOne, hr, hm, hd, BusOp.reply]
  generalize busWrite _ d off w s.mem (s.pkg p) = r
  refine ⟨_, rfl, ?_⟩
  generalize hk : r.2.emit _ = k
  have hd : r.2.Darkened k := hk ▸ .emit ..
  have hdark : k.dark = r.2.dark := by subst hk; rfl
  obtain ⟨h5, h6⟩ := State.lost_darkened { s with mem := r.1, free := s.free + [(off, some w)].length } p k (s.pkg p).addr
    ((k.pkgDark && !(s.pkg p).pkgDark) = true)
  exact ⟨hd.trans h5, h6.trans hdark⟩
theorem Pkg.pkgDark_noticeAll (n : Nat) (k : Pkg) : (k.noticeAll n).pkgDark = k.pkgDark := rfl
/-- A dark package stays dark through what else darkness does. -/
theorem Pkg.pkgDark_goDark (now : Nat) (cause : DarkCause) (k : Pkg) : (k.goDark now .package cause).pkgDark = true := by
  have h0 : ∀ k : Pkg, (k.addDark .package cause).pkgDark = true := by
    intro k
    unfold Pkg.addDark Pkg.pkgDark
    split
    · next h => exact List.any_eq_true.2 ⟨(.package, cause), by simpa using h, by simp⟩
    · simp
  unfold Pkg.goDark
  dsimp only
  rw [if_pos rfl]
  have h1 (k : Pkg) (f : Scanning → Bool) (sts : List Nat) :
      (((k.answerRecorded now .package).csuStop 5 f).engineSourceLost sts).pkgDark = k.pkgDark :=
    (((Pkg.answerRecorded_chartKept now k .package).trans (Pkg.csuStop_kept ..).chartKept).trans (Pkg.engineSourceLost_chartKept ..)).pkgDark
  exact (Pkg.pkgDark_noticeAll ..).trans ((h1 _ _ _).trans (h0 _))

end Sys2Proof.Machine
end

section
/-! PROOF. The fault hub: what its log, its notices and a detector's event leave, and what they set (R317–R326, R332–R336). -/
namespace Sys2Proof.Machine
open Sys2Proof

variable {i j k : Pkg} {now : Nat}

/-! ### The log -/

/-- Between two states of a package only the log, the last words and the events that wait for the PKC changed. -/
structure Pkg.Logs (j k : Pkg) : Prop where
  rest : LogOnly j k
  rg : ∀ o, o ≠ R.FLT_DROPS → o ≠ R.FLT_LOG_HEAD → k.rg o = j.rg o
  flt : k.flt = { j.flt with seq := k.flt.seq, log := k.flt.log, lastOf := k.flt.lastOf, heldEvents := k.flt.heldEvents }
  ret : k.ret = { j.ret with lw := k.ret.lw, lwOverrun := k.ret.lwOverrun }
  told : ∀ m ∈ j.out, m ∈ k.out

theorem Pkg.Logs.refl (k : Pkg) : k.Logs k := ⟨.refl k, fun _ _ _ => rfl, rfl, rfl, fun _ h => h⟩
theorem Pkg.Logs.trans (h : i.Logs j) (h' : j.Logs k) : i.Logs k :=
  ⟨h.rest.trans h'.rest, fun o h1 h2 => (h'.rg o h1 h2).trans (h.rg o h1 h2), h'.flt.trans (by rw [h.flt]), h'.ret.trans (by rw [h.ret]),
    fun m hm => h'.told m (h.told m hm)⟩
theorem Pkg.Logs.ite {c : Prop} [Decidable c] (h : i.Logs j) (h' : i.Logs k) : i.Logs (if c then j else k) := by split <;> assumption
theorem Pkg.Logs.foldl {β : Type} {f : Pkg → β → Pkg} (hf : ∀ (k : Pkg) b, k.Logs (f k b)) : ∀ (l : List β) (k : Pkg), k.Logs (l.foldl f k)
  | [], k => .refl k
  | b :: l, k => (hf k b).trans (Pkg.Logs.foldl hf l _)
theorem Pkg.Logs.emit (k : Pkg) (m : Msg) : k.Logs (k.emit m) := ⟨rfl, fun _ _ _ => rfl, rfl, rfl, fun _ h => List.mem_append_left _ h⟩
theorem Pkg.Logs.drops (k : Pkg) (f : Fld) (h : f.off = R.FLT_DROPS) (n : Nat) : k.Logs (k.count f n) :=
  ⟨rfl, fun _ ho _ => Pkg.rg_put_ne _ _ _ (by rwa [h]), rfl, rfl, fun _ h => h⟩
theorem Pkg.Logs.head (k : Pkg) (w : Word) : k.Logs (k.setRg R.FLT_LOG_HEAD w) :=
  ⟨rfl, fun _ _ ho => Pkg.rg_setRg_ne _ _ ho, rfl, rfl, fun _ h => h⟩
theorem Pkg.Logs.entries (k : Pkg) (l : SMap LogEntry) : k.Logs { k with flt := { k.flt with log := l } } :=
  ⟨rfl, fun _ _ _ => rfl, rfl, rfl, fun _ h => h⟩
theorem Pkg.Logs.next (k : Pkg) : k.Logs { k with flt := { k.flt with seq := k.flt.seq + 1 } } := ⟨rfl, fun _ _ _ => rfl, rfl, rfl, fun _ h => h⟩
theorem Pkg.Logs.last (k : Pkg) (l : SMap Word) : k.Logs { k with flt := { k.flt with lastOf := l } } := ⟨rfl, fun _ _ _ => rfl, rfl, rfl, fun _ h => h⟩

theorem Pkg.Logs.get (h : j.Logs k) (f : Fld) (h1 : f.off ≠ R.FLT_DROPS) (h2 : f.off ≠ R.FLT_LOG_HEAD) : k.get f = j.get f := by
  rw [Pkg.get, h.rg _ h1 h2]; rfl
theorem Pkg.Logs.pend (h : j.Logs k) : k.flt.pend = j.flt.pend := by rw [h.flt]
theorem Pkg.Logs.units (h : j.Logs k) : k.flt.units = j.flt.units := by rw [h.flt]
theorem Pkg.Logs.reactions (h : j.Logs k) : k.flt.reactions = j.flt.reactions := by rw [h.flt]
theorem Pkg.Logs.lwOnly (h : j.Logs k) : k.flt.lwOnly = j.flt.lwOnly := by rw [h.flt]
theorem Pkg.Logs.fencedAt (h : j.Logs k) : k.flt.fencedAt = j.flt.fencedAt := by rw [h.flt]
theorem Pkg.Logs.unit (h : j.Logs k) (u : Nat) : k.unit u = j.unit u := by rw [Pkg.unit, h.units, Pkg.unit]
theorem Pkg.quarBit_of_rg (h : ∀ o, 0x30300 ≤ o → k.rg o = j.rg o) (u : Nat) : k.quarBit u = j.quarBit u := by
  rw [Pkg.quarBit, h _ (by unfold R.FLT_QUAR; omega), Pkg.quarBit]
theorem Pkg.Logs.quarBit (h : j.Logs k) (u : Nat) : k.quarBit u = j.quarBit u :=
  Pkg.quarBit_of_rg (fun o ho => h.rg o (by unfold R.FLT_DROPS; omega) (by unfold R.FLT_LOG_HEAD; omega)) u
theorem Pkg.Logs.unitState (h : j.Logs k) (u : Nat) : k.unitState u = j.unitState u := by
  rw [Pkg.unitState, h.quarBit, h.unit, Pkg.unitState]

theorem Pkg.Logs.held (k : Pkg) (l : List (BitVec 64)) : k.Logs { k with flt := { k.flt with heldEvents := l } } :=
  ⟨rfl, fun _ _ _ => rfl, rfl, rfl, fun _ h => h⟩
theorem Pkg.Logs.words (k : Pkg) (l : List Word) (n : Nat) : k.Logs { k with ret := { k.ret with lw := l, lwOverrun := n } } :=
  ⟨rfl, fun _ _ _ => rfl, rfl, rfl, fun _ h => h⟩
theorem Pkg.notifyFault_logs (e : LogEntry) (k : Pkg) : k.Logs (k.notifyFault e) :=
  .ite (.trans (.ite (.held ..) (.emit ..)) (.emit ..)) (.refl k)
theorem Pkg.pushLast_logs (w : Word) (k : Pkg) : k.Logs (k.pushLast w) := .ite (.words k _ k.ret.lwOverrun) (.words ..)
theorem Pkg.log_logs (now : Nat) (e : LogEntry) (k : Pkg) : k.Logs (k.log now e) := by
  unfold Pkg.log
  dsimp only
  refine .ite (.trans (.trans (.next k) (Pkg.pushLast_logs ..)) (Pkg.notifyFault_logs ..)) (.ite (.drops k _ rfl 1) ?_)
  have h1 : k.Logs (if k.slotKept then k.count F.FLT_DROPS_LOST_UNMIRRORED 1 else k) := .ite (.drops k _ rfl 1) (.refl k)
  exact ((((h1.trans (.next _)).trans (.head ..)).trans (.entries ..)).trans (Pkg.notifyFault_logs ..))
theorem Pkg.logEvent_logs (now d flags : Nat) (i0 i1 : BitVec 64) (k : Pkg) : k.Logs (k.logEvent now d flags i0 i1) := by
  unfold Pkg.logEvent
  dsimp only
  split
  · exact .entries ..
  · exact .ite (Pkg.log_logs ..) (.trans (Pkg.log_logs ..) (.last ..))

/-- What a UC or FT entry of kind other than a rate alarm tells. -/
theorem Pkg.notifyFault_told {e : LogEntry} (hc : e.cls ≠ 0) (hf : e.flags % 2 = 0) (hk : e.kind ≠ 6) (k : Pkg) :
    Msg.msix (if e.cls = clsFT then 41 else 40) ∈ (k.notifyFault e).out := by
  unfold Pkg.notifyFault
  rw [if_pos (.inl ⟨hc, hf⟩), if_neg hk]
  exact List.mem_append_right _ (List.mem_singleton.2 rfl)
theorem Pkg.notifyFault_flt (e : LogEntry) (k : Pkg) : (k.notifyFault e).flt.log = k.flt.log ∧ (k.notifyFault e).flt.seq = k.flt.seq ∧
    (k.notifyFault e).regs = k.regs := by
  unfold Pkg.notifyFault
  split
  · split <;> exact ⟨rfl, rfl, rfl⟩
  · exact ⟨rfl, rfl, rfl⟩
theorem Pkg.pushLast_flt (w : Word) (k : Pkg) : (k.pushLast w).flt = k.flt := by
  unfold Pkg.pushLast
  split <;> rfl

/-- A UC or FT entry is written under the next SEQ, or to the last words. -/
theorem Pkg.log_grave {e : LogEntry} (hc : e.cls ≠ 0) (k : Pkg) :
    (k.lwOnly = false → (k.log now e).rg R.FLT_LOG_HEAD = k.flt.seq ∧
      sfind (k.log now e).flt.log (k.flt.seq.toNat % 4096) = some (k.fillEntry now e)) ∧
    (k.lwOnly = true → (k.log now e).flt.log = k.flt.log ∧ (k.log now e).flt.seq = k.flt.seq + 1) ∧
    (k.log now e).flt.seq = k.flt.seq + 1 := by
  have hseq : (k.fillEntry now e).seq = k.flt.seq := rfl
  have hcls : (k.fillEntry now e).cls = e.cls := rfl
  unfold Pkg.log
  dsimp only
  generalize k.fillEntry now e = x at *
  have hn (l : Pkg) := l.notifyFault_flt x
  refine ⟨fun h => ?_, fun h => ?_, ?_⟩
  · rw [if_neg (by simp [h]), if_neg (by simp [hcls, hc])]
    refine ⟨?_, ?_⟩
    · refine (Pkg.rg_of_regs (hn _).2.2 _).trans ?_
      change (Pkg.setRg _ _ _).rg _ = _
      rw [Pkg.rg_setRg_same, hseq]
    · rw [(hn _).1]
      dsimp only
      rw [hseq, sfind_sinsert_same]
  · rw [if_pos h, (hn _).1, (hn _).2.1, Pkg.pushLast_flt]
    exact ⟨rfl, rfl⟩
  · by_cases h : k.lwOnly = true
    · rw [if_pos h, (hn _).2.1, Pkg.pushLast_flt]
    · rw [if_neg h, if_neg (by simp [hcls, hc]), (hn _).2.1]
      dsimp only [Pkg.setRg]
      split <;> rfl
theorem Pkg.log_told {e : LogEntry} (hc : e.cls ≠ 0) (hf : e.flags % 2 = 0) (hk : e.kind ≠ 6) (k : Pkg) :
    Msg.msix (if e.cls = clsFT then 41 else 40) ∈ (k.log now e).out := by
  have hcls : (k.fillEntry now e).cls = e.cls := rfl
  have hkind : (k.fillEntry now e).kind = e.kind := rfl
  have hfl : (k.fillEntry now e).flags % 2 = 0 := by
    change (e.flags + if k.turning then fTurn else 0) % 2 = 0
    split
    · simp only [fTurn]; omega
    · exact hf
  unfold Pkg.log
  dsimp only
  generalize k.fillEntry now e = x at *
  split
  · have := Pkg.notifyFault_told (hcls ▸ hc) hfl (hkind ▸ hk) ({ k with flt := { k.flt with seq := k.flt.seq + 1 } }.pushLast (lastWord x))
    rwa [hcls] at this
  · rw [if_neg (by simp [hcls, hc])]
    have (l : Pkg) := Pkg.notifyFault_told (hcls ▸ hc) hfl (hkind ▸ hk) l
    rw [hcls] at this
    exact this _

/-! ### What the hub touches -/

/-- A register that the hub itself may write, beside the count of events: its status, its drops and the head of its log; or one of the AON
block, when a moored package wakes. -/
def hubReg (o : Nat) : Prop := o < 0x10000 ∨ o = R.FLT_STATUS ∨ o = R.FLT_DROPS ∨ o = R.FLT_LOG_HEAD
/-- Between two states of a package only what the hub touches changed, and no unit went dark. -/
structure Pkg.Noted (j k : Pkg) : Prop where
  rest : LogOnly j k
  rg : ∀ o, ¬ hubReg o → k.rg o = j.rg o
  told : ∀ m ∈ j.out, m ∈ k.out
/-- Between two states of a package only what the hub and a fence touch changed. -/
structure Pkg.Hubbed (j k : Pkg) : Prop where
  rest : k = { j with regs := k.regs, ret := k.ret, flt := k.flt, out := k.out, dark := k.dark, fab := k.fab, mem := k.mem, brg := k.brg }
  rg : ∀ o, ¬ hubReg o → centralReg o → k.rg o = j.rg o
  told : ∀ m ∈ j.out, m ∈ k.out

theorem Pkg.Noted.refl (k : Pkg) : k.Noted k := ⟨.refl k, fun _ _ => rfl, fun _ h => h⟩
theorem Pkg.Noted.trans (h : i.Noted j) (h' : j.Noted k) : i.Noted k :=
  ⟨h.rest.trans h'.rest, fun o ho => (h'.rg o ho).trans (h.rg o ho), fun m hm => h'.told m (h.told m hm)⟩
theorem Pkg.Noted.ite {c : Prop} [Decidable c] (h : i.Noted j) (h' : i.Noted k) : i.Noted (if c then j else k) := by split <;> assumption
theorem Pkg.Noted.get (h : j.Noted k) (f : Fld) (hf : ¬ hubReg f.off) : k.get f = j.get f := by rw [Pkg.get, h.rg _ hf]; rfl
theorem Pkg.Logs.noted (h : j.Logs k) : j.Noted k :=
  ⟨h.rest, fun o ho => h.rg o (fun e => ho (.inr (.inr (.inl e)))) (fun e => ho (.inr (.inr (.inr e)))), h.told⟩
theorem Pkg.Noted.setFlt (k : Pkg) (f : FltSt) : k.Noted { k with flt := f } := ⟨rfl, fun _ _ => rfl, fun _ h => h⟩
theorem Pkg.Noted.put (k : Pkg) (f : Fld) (v : Nat) (h : hubReg f.off) : k.Noted (k.put f v) :=
  ⟨rfl, fun _ ho => Pkg.rg_put_ne _ _ _ fun e => ho (e ▸ h), fun _ h => h⟩
theorem Pkg.Noted.hubbed (h : j.Noted k) : j.Hubbed k := ⟨by rw [h.rest], fun o ho _ => h.rg o ho, h.told⟩
theorem Pkg.Hubbed.refl (k : Pkg) : k.Hubbed k := (Pkg.Noted.refl k).hubbed
theorem Pkg.Hubbed.trans (h : i.Hubbed j) (h' : j.Hubbed k) : i.Hubbed k :=
  ⟨h'.rest.trans (by rw [h.rest]), fun o ho hc => (h'.rg o ho hc).trans (h.rg o ho hc), fun m hm => h'.told m (h.told m hm)⟩
theorem Pkg.Hubbed.ite {c : Prop} [Decidable c] (h : i.Hubbed j) (h' : i.Hubbed k) : i.Hubbed (if c then j else k) := by split <;> assumption
theorem Pkg.Hubbed.foldl {β : Type} {f : Pkg → β → Pkg} (hf : ∀ (k : Pkg) b, k.Hubbed (f k b)) : ∀ (l : List β) (k : Pkg), k.Hubbed (l.foldl f k)
  | [], k => .refl k
  | b :: l, k => (hf k b).trans (Pkg.Hubbed.foldl hf l _)
theorem Pkg.Darkened.hubbed (h : j.Darkened k) : j.Hubbed k := ⟨by rw [h.rest], fun o _ hc => h.rg o hc, h.told⟩
theorem Pkg.Hubbed.get (h : j.Hubbed k) (f : Fld) (hf : ¬ hubReg f.off) (hc : centralReg f.off) : k.get f = j.get f := by
  rw [Pkg.get, h.rg _ hf hc]; rfl
theorem Pkg.Hubbed.thr (h : j.Hubbed k) : k.thr = j.thr := by rw [h.rest]
theorem Pkg.Hubbed.pwr (h : j.Hubbed k) : k.pwr = j.pwr := by rw [h.rest]

theorem Pkg.setUnit_noted (u : Nat) (x : UnitSt) (k : Pkg) : k.Noted (k.setUnit u x) := .setFlt ..
theorem Pkg.unit_setUnit (u : Nat) (x : UnitSt) (k : Pkg) : (k.setUnit u x).unit u = x := sget_sset_same ..
theorem Pkg.ceRate_noted (now d : Nat) (k : Pkg) : k.Noted (k.ceRate now d) := by
  unfold Pkg.ceRate
  dsimp only
  exact .ite ((Pkg.setUnit_noted ..).trans (Pkg.log_logs ..).noted) (Pkg.setUnit_noted ..)
theorem Pkg.escalateUc_noted (now by_ : Nat) (x : Pend) (k : Pkg) : k.Noted (k.escalateUc now by_ x) := by
  unfold Pkg.escalateUc
  dsimp only
  exact .ite (.ite (Pkg.log_logs ..).noted ((Pkg.log_logs ..).noted.trans (Pkg.setUnit_noted ..)))
    (.ite (Pkg.log_logs ..).noted (((Pkg.log_logs ..).noted.trans (Pkg.setUnit_noted ..)).trans (.setFlt ..)))
theorem Pkg.rg_setDomains_central {o : Nat} (h : 0x10000 ≤ o) (b : Bool) : ∀ (ds : List Nat) (k : Pkg), (∀ d ∈ ds, d < 416) → (k.setDomains b ds).rg o = k.rg o
  | [], _, _ => rfl
  | d :: ds, k, hd => (Pkg.rg_setDomains_central h b ds _ fun e he => hd e (List.mem_cons_of_mem _ he)).trans
      (Pkg.rg_setRg_ne _ _ (by have := hd d (List.mem_cons_self ..); unfold R.AON_DOMAIN_ON; omega))
theorem Pkg.rg_wakeDomains_central {o : Nat} (h : 0x10000 ≤ o) (ds : List Nat) (hd : ∀ d ∈ ds, d < 416) (k : Pkg) : (k.wakeDomains ds).rg o = k.rg o := by
  have hs : o ≠ R.AON_PKG_STATE := by unfold R.AON_PKG_STATE; omega
  refine (Pkg.rg_leaveMoor hs _ _).trans ?_
  unfold Pkg.power
  dsimp only
  split
  · rw [Pkg.rg_put_ne _ _ _ hs, Pkg.clearBits, Pkg.rg_put_ne _ _ _ hs, Pkg.rg_setDomains_central h _ _ _ hd]
  · rw [Pkg.clearBits, Pkg.rg_put_ne _ _ _ hs, Pkg.rg_setDomains_central h _ _ _ hd]
theorem Pkg.wakeHtile_noted (k : Pkg) : k.Noted k.wakeHtile := by
  refine .ite (.refl k) ⟨.of_onlyRegs ((k.wakeDomains_onlyRegs _).trans (.put ..)), fun o ho => ?_, fun m hm => ?_⟩
  · have hlo : 0x10000 ≤ o := by unfold hubReg at ho; omega
    refine (Pkg.rg_put_ne _ _ _ (by simp only [F.AON_WAKE_CAUSE_CAUSE, R.AON_WAKE_CAUSE]; omega)).trans ?_
    exact Pkg.rg_wakeDomains_central hlo _ (by decide) k
  · have := (k.wakeDomains_onlyRegs [410]).trans (.put _ F.AON_WAKE_CAUSE_CAUSE ((k.wakeDomains [410]).get F.AON_WAKE_CAUSE_CAUSE ||| 2 ^ 5))
    rw [show (k.wakeDomains [410]).wakeCause 5 = (k.wakeDomains [410]).put F.AON_WAKE_CAUSE_CAUSE
      ((k.wakeDomains [410]).get F.AON_WAKE_CAUSE_CAUSE ||| 2 ^ 5) from rfl, this]
    exact hm
theorem Pkg.wakeHtile_flt (k : Pkg) : k.wakeHtile.flt = k.flt := by
  unfold Pkg.wakeHtile
  split
  · rfl
  · have := (k.wakeDomains_onlyRegs [410])
    rw [Pkg.wakeCause, Pkg.orBits]
    change (k.wakeDomains [410]).flt = k.flt
    rw [this]

/-! ### The fence -/

/-- The pending event of a fenced package ends: it is logged and its slot freed. -/
def Pkg.endPend (now : Nat) (raised : Word) (k : Pkg) (e : Nat × Pend) : Pkg :=
  (k.log now { logEntry clsUC 12 e.2.detector e.2.unit fHardware raised with info0 := BitVec.ofNat 64 e.2.seq.toNat }).freePend e.1
theorem Pkg.freePend_noted (n : Nat) (k : Pkg) : k.Noted (k.freePend n) := .setFlt ..
theorem Pkg.endPend_noted (now : Nat) (raised : Word) (k : Pkg) (e : Nat × Pend) : k.Noted (k.endPend now raised e) :=
  (Pkg.log_logs ..).noted.trans (Pkg.freePend_noted ..)
theorem Pkg.endPend_fenced (now : Nat) (raised : Word) (k : Pkg) (e : Nat × Pend) :
    (k.endPend now raised e).get F.FLT_STATUS_FENCED = k.get F.FLT_STATUS_FENCED := (Pkg.log_logs ..).get _ (by decide) (by decide)
/-- What still waits when some slots are freed waited before, in another slot. -/
theorem Pkg.mem_endPends (now : Nat) (raised : Word) : ∀ (l : List (Nat × Pend)) (k : Pkg) (e : Nat × Pend),
    e ∈ (l.foldl (Pkg.endPend now raised) k).flt.pend → e ∈ k.flt.pend ∧ ∀ x ∈ l, e.1 ≠ x.1
  | [], _, _, h => ⟨h, fun _ hx => absurd hx List.not_mem_nil⟩
  | x :: l, k, e, h => by
    obtain ⟨h1, h2⟩ := Pkg.mem_endPends now raised l _ e h
    have h3 : (k.endPend now raised x).flt.pend = serase k.flt.pend x.1 := congrArg (fun p => serase p x.1) (Pkg.log_logs ..).pend
    rw [h3, serase, List.mem_filter] at h1
    refine ⟨h1.1, fun y hy => ?_⟩
    rcases List.mem_cons.1 hy with rfl | hy
    · simpa using h1.2
    · exact h2 y hy

/-- The package as its fence is logged, and the UC events that wait then. -/
def Pkg.fenceLogged (now : Nat) (detector unit : Nat) (raised : Word) (cls : Nat) (k : Pkg) : Pkg :=
  (k.flag F.FLT_STATUS_FENCED true).log now (logEntry cls 5 detector unit fHardware raised)
def Pkg.fencePends (now : Nat) (raised : Word) (k : Pkg) : Pkg :=
  (k.flt.pend.filter fun e => e.2.cls = clsUC).foldl (fun k e => (k.log now { logEntry clsUC 12 e.2.detector e.2.unit fHardware raised with
    info0 := BitVec.ofNat 64 e.2.seq.toNat }).freePend e.1) k
theorem Pkg.fencePends_eq (now : Nat) (raised : Word) (k : Pkg) :
    k.fencePends now raised = (k.flt.pend.filter fun e => e.2.cls = clsUC).foldl (Pkg.endPend now raised) k := rfl
theorem Pkg.fencePkg_eq (now d unit : Nat) (raised : Word) (cls : Nat) (h : k.get F.FLT_STATUS_FENCED ≠ 1) :
    ∃ x : FltSt, k.fencePkg now d unit raised cls =
      { (((k.fenceLogged now d unit raised cls).fencePends now raised).goDark now .package .fence) with flt := x } ∧
      x.fencedAt = some now ∧ x.pend = ((k.fenceLogged now d unit raised cls).fencePends now raised).flt.pend := by
  have hd := Pkg.goDark_darkened now .package .fence ((k.fenceLogged now d unit raised cls).fencePends now raised)
  unfold Pkg.fencePkg
  rw [if_neg h]
  unfold Pkg.fencePends Pkg.fenceLogged at *
  dsimp only at *
  generalize Pkg.goDark now .package .fence _ = l at *
  refine ⟨{ (l.addReaction ⟨8, 0, unit, raised⟩).flt with fencedAt := some now }, rfl, rfl, ?_⟩
  exact (congrArg FltSt.pend hd.flt :)
theorem Pkg.fenceLogged_noted (now d unit : Nat) (raised : Word) (cls : Nat) (k : Pkg) : k.Noted (k.fenceLogged now d unit raised cls) :=
  (Pkg.Noted.put k _ _ (.inr (.inl rfl))).trans (Pkg.log_logs ..).noted
theorem Pkg.Noted.foldl {β : Type} {f : Pkg → β → Pkg} (hf : ∀ (k : Pkg) b, k.Noted (f k b)) : ∀ (l : List β) (k : Pkg), k.Noted (l.foldl f k)
  | [], k => .refl k
  | b :: l, k => (hf k b).trans (Pkg.Noted.foldl hf l _)
theorem Pkg.fencePends_noted (now : Nat) (raised : Word) (k : Pkg) : k.Noted (k.fencePends now raised) :=
  .foldl (fun k e => k.endPend_noted now raised e) _ _
theorem Pkg.fencePkg_hubbed (now d unit : Nat) (raised : Word) (cls : Nat) (k : Pkg) : k.Hubbed (k.fencePkg now d unit raised cls) := by
  by_cases h : k.get F.FLT_STATUS_FENCED = 1
  · rw [Pkg.fencePkg, if_pos h]; exact .refl k
  · obtain ⟨x, hx, _, _⟩ := Pkg.fencePkg_eq now d unit raised cls h
    rw [hx]
    exact ((((k.fenceLogged_noted ..).trans (Pkg.fencePends_noted ..)).hubbed).trans (Pkg.goDark_darkened ..).hubbed).trans (Pkg.Noted.setFlt ..).hubbed
/-- A fenced package: FENCED is set, it is dark since now, and no UC event waits. -/
theorem Pkg.fencePkg_spec (now d unit : Nat) (raised : Word) (cls : Nat) (h : k.get F.FLT_STATUS_FENCED ≠ 1) :
    (k.fencePkg now d unit raised cls).get F.FLT_STATUS_FENCED = 1 ∧ (k.fencePkg now d unit raised cls).pkgDark = true ∧
      (k.fencePkg now d unit raised cls).flt.fencedAt = some now ∧ ∀ e ∈ (k.fencePkg now d unit raised cls).flt.pend, e.2.cls ≠ clsUC := by
  obtain ⟨x, hx, hf, hp⟩ := Pkg.fencePkg_eq now d unit raised cls h
  rw [hx]
  have hdark := Pkg.pkgDark_goDark now .fence ((k.fenceLogged now d unit raised cls).fencePends now raised)
  have hget := (Pkg.goDark_darkened now .package .fence ((k.fenceLogged now d unit raised cls).fencePends now raised)).get F.FLT_STATUS_FENCED
    (by unfold centralReg; decide)
  generalize ((k.fenceLogged now d unit raised cls).fencePends now raised).goDark now .package .fence = l at hdark hget
  refine ⟨?_, hdark, hf, fun e he => ?_⟩
  · have h1 : (k.fenceLogged now d unit raised cls).get F.FLT_STATUS_FENCED = 1 :=
      ((Pkg.log_logs ..).get _ (by decide) (by decide)).trans (Pkg.get_flag_same _ _ _ (by decide) (by decide))
    have h2 : ∀ (l : List (Nat × Pend)) (k : Pkg), (l.foldl (Pkg.endPend now raised) k).get F.FLT_STATUS_FENCED = k.get F.FLT_STATUS_FENCED := by
      intro l
      induction l with
      | nil => exact fun _ => rfl
      | cons e l ih => exact fun k => (ih _).trans (k.endPend_fenced now raised e)
    exact hget.trans ((h2 _ _).trans h1)
  · intro hc
    have he' : e ∈ ((k.fenceLogged now d unit raised cls).fencePends now raised).flt.pend := hp ▸ he
    obtain ⟨h1, h2⟩ := Pkg.mem_endPends now raised _ _ e he'
    exact h2 e (List.mem_filter.2 ⟨h1, by simpa using hc⟩) rfl

/-! ### Escalation -/

theorem Pkg.escalate_hubbed (now by_ : Nat) (x : Pend) (k : Pkg) : k.Hubbed (k.escalate now by_ x) :=
  .ite (Pkg.fencePkg_hubbed ..) (Pkg.escalateUc_noted ..).hubbed
/-- The escalation of an event that has no unit to isolate, or whose unit is isolated already, is only logged. -/
theorem Pkg.escalateUc_quiet (now by_ : Nat) {x : Pend} (h : noIsolation x = true ∨ 3 ≤ k.unitState x.unit) :
    (k.escalateUc now by_ x).flt.pend = k.flt.pend ∧ (k.escalateUc now by_ x).flt.reactions = k.flt.reactions := by
  have hl (e : LogEntry) : (k.log now e).flt.pend = k.flt.pend ∧ (k.log now e).flt.reactions = k.flt.reactions :=
    ⟨(Pkg.log_logs ..).pend, (Pkg.log_logs ..).reactions⟩
  unfold Pkg.escalateUc
  dsimp only
  split
  · split
    · exact hl _
    · exact hl _
  next hn =>
    rw [if_pos (h.resolve_left hn)]
    exact hl _
/-- The isolation of a unit begins. -/
theorem Pkg.escalateUc_isolates (now by_ : Nat) {x : Pend} (h : noIsolation x = false) (h3 : k.unitState x.unit < 3) :
    (k.escalateUc now by_ x).flt.pend = k.flt.pend ∧ ((k.escalateUc now by_ x).unit x.unit).state = 3 ∧
      (k.escalateUc now by_ x).flt.reactions = k.flt.reactions ++ [⟨0, x.unit, x.unit, x.seq⟩] := by
  unfold Pkg.escalateUc
  dsimp only
  rw [if_neg (by simp [h]), if_neg (by omega)]
  have hl := k.log_logs now (logEntry clsUC 3 x.detector x.unit by_ x.seq)
  generalize k.log now (logEntry clsUC 3 x.detector x.unit by_ x.seq) = l at hl
  refine ⟨hl.pend, ?_, ?_⟩
  · exact (congrArg UnitSt.state (Pkg.unit_setUnit x.unit { l.unit x.unit with state := 3, detector := x.detector, raised := x.seq } l)).trans rfl
  · exact congrArg (· ++ [(⟨0, x.unit, x.unit, x.seq⟩ : Reaction)]) hl.reactions

/-! ### A detector fires -/

/-- The event of a detector is counted, in its core's register too where it is a core's. -/
def Pkg.faultCounted (d : Nat) (k : Pkg) : Pkg := (if d < 1536 then k.coreFault (d / 8) (d % 8) else k).countFault (detClass d)
theorem Pkg.faultCounted_onlyRegs (d : Nat) (k : Pkg) : OnlyRegs k (k.faultCounted d) := by
  unfold Pkg.faultCounted
  split
  · exact (OnlyRegs.put ..).trans (.put ..)
  · exact .put ..
theorem Pkg.faultCounted_flt (d : Nat) (k : Pkg) : (k.faultCounted d).flt = k.flt := by rw [k.faultCounted_onlyRegs d]
theorem Pkg.rg_faultCounted {o : Nat} (h : o < 0x400000) (ho : o ≠ R.FLT_COUNTS) (d : Nat) (k : Pkg) : (k.faultCounted d).rg o = k.rg o := by
  have h1 (k : Pkg) : (k.countFault (detClass d)).rg o = k.rg o := Pkg.rg_put_ne _ _ _ (by split_ifs <;> exact ho)
  unfold Pkg.faultCounted
  split
  · refine (h1 _).trans (Pkg.rg_put_ne _ _ _ ?_)
    simp only [F.CORE_FAULT_STATUS_BITS, R.CORE_FAULT_STATUS]
    omega
  · exact h1 k
theorem Pkg.get_countFault {f : Fld} {d : Nat} (hf : f = (if detClass d = 0 then F.FLT_COUNTS_CE else if detClass d = 1 then F.FLT_COUNTS_UC else F.FLT_COUNTS_FT))
    (hw : f.lo + f.width ≤ 32) (k : Pkg) : (k.faultCounted d).get f = min (2 ^ f.width - 1) (k.get f + 1) := by
  have ho : f.off = R.FLT_COUNTS := by rw [hf]; split_ifs <;> rfl
  unfold Pkg.faultCounted Pkg.countFault
  rw [← hf, Pkg.get_count_same _ _ _ hw]
  split
  · rw [Pkg.coreFault, Pkg.orBits, Pkg.get_put_reg_ne]
    rw [ho]
    simp only [F.CORE_FAULT_STATUS_BITS, R.CORE_FAULT_STATUS, R.FLT_COUNTS]
    omega
  · rfl
theorem Pkg.faultCounted_core {d : Nat} (h : d < 1536) (k : Pkg) : bit ((k.faultCounted d).get (F.CORE_FAULT_STATUS_BITS (d / 8))) (d % 8) = true := by
  have hne : (F.CORE_FAULT_STATUS_BITS (d / 8)).off ≠ R.FLT_COUNTS := by
    simp only [F.CORE_FAULT_STATUS_BITS, R.CORE_FAULT_STATUS, R.FLT_COUNTS]; omega
  unfold Pkg.faultCounted Pkg.countFault
  rw [if_pos h, Pkg.count, Pkg.get_put_reg_ne _ _ _ _ (by split_ifs <;> exact hne)]
  exact Pkg.bit_orBits _ _ (Nat.le_of_ble_eq_true rfl) (Nat.mod_lt _ (by decide))

/-- The event of a detector other than that of the log's memory. -/
theorem Pkg.raise_eq {d : Nat} (h : d < 2944) (hd : d ≠ det 253 0) (i0 i1 : BitVec 64) : k.raise now d i0 i1 =
    if k.shadowed d then (k.faultCounted d).logEvent now d fShadowed i0 i1
    else if detClass d = clsCE then ((k.faultCounted d).logEvent now d 0 i0 i1).ceRate now d
    else ((k.faultCounted d).logEvent now d 0 i0 i1).gravely now d k.flt.seq := by
  have h1 : ¬ (d = det 253 0 ∧ (!k.shadowed d) = true) := fun e => hd e.1
  have h2 : k.flt.seq = (k.faultCounted d).flt.seq := by rw [Pkg.faultCounted_flt]
  unfold Pkg.raise
  rw [if_neg (by unfold detCount; omega), h2]
  dsimp only
  rw [if_neg h1]
  cases k.shadowed d <;> rfl

theorem Pkg.setUc_noted {c : Prop} [Decidable c] (u : Nat) (x : UnitSt) (k : Pkg) : k.Noted (if c then k.setUnit u x else k) :=
  .ite (Pkg.setUnit_noted ..) (.refl k)
theorem Pkg.takeSlot_hubbed (now d : Nat) (seq : Word) (k : Pkg) : k.Hubbed (k.takeSlot now d seq) := by
  unfold Pkg.takeSlot
  dsimp only
  split
  · exact (Pkg.Noted.setFlt ..).hubbed
  · exact Pkg.escalate_hubbed ..
theorem Pkg.gravely_hubbed (now d : Nat) (seq : Word) (k : Pkg) : k.Hubbed (k.gravely now d seq) := by
  unfold Pkg.gravely
  dsimp only
  exact ((Pkg.setUc_noted ..).trans (.ite (Pkg.wakeHtile_noted _) (.refl _))).hubbed.trans (Pkg.takeSlot_hubbed ..)
theorem Pkg.takeSlot_noted {d : Nat} (h : detClass d ≠ clsFT) (now : Nat) (seq : Word) (k : Pkg) : k.Noted (k.takeSlot now d seq) := by
  unfold Pkg.takeSlot
  dsimp only
  split
  · exact .setFlt ..
  · rw [Pkg.escalate, if_neg h]
    exact Pkg.escalateUc_noted ..
theorem Pkg.gravely_noted {d : Nat} (h : detClass d ≠ clsFT) (now : Nat) (seq : Word) (k : Pkg) : k.Noted (k.gravely now d seq) := by
  unfold Pkg.gravely
  dsimp only
  exact ((Pkg.setUc_noted ..).trans (.ite (Pkg.wakeHtile_noted _) (.refl _))).trans (Pkg.takeSlot_noted h ..)
/-- What a detector's event does after it is counted. -/
theorem Pkg.raise_hubbed {d : Nat} (h : d < 2944) (hd : d ≠ det 253 0) (i0 i1 : BitVec 64) : (k.faultCounted d).Hubbed (k.raise now d i0 i1) := by
  rw [Pkg.raise_eq h hd]
  exact .ite (Pkg.logEvent_logs ..).noted.hubbed (.ite ((Pkg.logEvent_logs ..).noted.trans (Pkg.ceRate_noted ..)).hubbed
    ((Pkg.logEvent_logs ..).noted.hubbed.trans (Pkg.gravely_hubbed ..)))
theorem Pkg.raise_noted {d : Nat} (h : d < 2944) (hd : d ≠ det 253 0) (hc : detClass d ≠ clsFT) (i0 i1 : BitVec 64) :
    (k.faultCounted d).Noted (k.raise now d i0 i1) := by
  rw [Pkg.raise_eq h hd]
  exact .ite (Pkg.logEvent_logs ..).noted (.ite ((Pkg.logEvent_logs ..).noted.trans (Pkg.ceRate_noted ..))
    ((Pkg.logEvent_logs ..).noted.trans (Pkg.gravely_noted hc ..)))

end Sys2Proof.Machine
end

section
/-! PROOF. Detectors' events, graces and verdicts (R317–R326). -/
namespace Sys2Proof.Machine
open Sys2Proof

variable {s : State} {p : PkgId} {i j k : Pkg} {now d : Nat} {i0 i1 : BitVec 64}

/-! ### What darkness leaves of the hub -/

theorem Pkg.Darkened.quarBit (h : j.Darkened k) {u : Nat} (hu : u < 256) : k.quarBit u = j.quarBit u := by
  rw [Pkg.quarBit, h.rg _ (by unfold centralReg R.FLT_QUAR; omega), Pkg.quarBit]
theorem Pkg.Darkened.unitState (h : j.Darkened k) {u : Nat} (hu : u < 256) : k.unitState u = j.unitState u := by
  rw [Pkg.unitState, h.quarBit hu, Pkg.unit, h.flt]
  rfl
theorem detUnit_lt {d : Nat} (h : d < 2944) : detUnit d < 256 := by unfold detUnit; split_ifs <;> omega
/-- The detectors of cores are of class CE or UC. -/
theorem detClass_core {d : Nat} (h : d < 1536) : detClass d ≠ clsFT := by
  have hu : detUnit d < 192 := by unfold detUnit; rw [if_pos h]; omega
  unfold detClass
  dsimp only
  rw [if_pos hu]
  split <;> decide
/-! ### Events of class CE -/

/-- A CE takes no slot and starts nothing; a unit that is OK is in CE_ALARM with its CE_RATE-th event of a second. -/
theorem Pkg.ceRate_spec (now d : Nat) (k : Pkg) :
    (k.ceRate now d).flt.pend = k.flt.pend ∧ (k.ceRate now d).flt.reactions = k.flt.reactions ∧
      ((k.unit (detUnit d)).state = 0 → k.quarBit (detUnit d) = false →
        (((k.unit (detUnit d)).ceTimes.filter fun t => now < t + 10 ^ 9).length + 1 ≥ k.get F.FLT_CFG_CE_RATE ↔ (k.ceRate now d).unitState (detUnit d) = 1)) := by
  unfold Pkg.ceRate
  dsimp only
  generalize ((k.unit (detUnit d)).ceTimes.filter fun t => now < t + 10 ^ 9).length + 1 = n
  generalize (k.unit (detUnit d)).ceTimes.filter (fun t => now < t + 10 ^ 9) ++ [now] = times
  generalize (sfind k.flt.lastOf d).getD 0 = ref
  have h (x : UnitSt) {c : Prop} [Decidable c] (e : LogEntry) :
      (if c then (k.setUnit (detUnit d) x).log now e else k.setUnit (detUnit d) x).flt.pend = k.flt.pend ∧
      (if c then (k.setUnit (detUnit d) x).log now e else k.setUnit (detUnit d) x).flt.reactions = k.flt.reactions ∧
      (k.quarBit (detUnit d) = false →
        (if c then (k.setUnit (detUnit d) x).log now e else k.setUnit (detUnit d) x).unitState (detUnit d) = x.state) := by
    have hs (hq : k.quarBit (detUnit d) = false) : (k.setUnit (detUnit d) x).unitState (detUnit d) = x.state := by
      have hq' : (k.setUnit (detUnit d) x).quarBit (detUnit d) = false := hq
      rw [Pkg.unitState, if_neg (by simp [hq']), Pkg.unit_setUnit]
    have hl := (k.setUnit (detUnit d) x).log_logs now e
    split
    · exact ⟨hl.pend, hl.reactions, fun hq => (hl.unitState _).trans (hs hq)⟩
    · exact ⟨rfl, rfl, hs⟩
  refine ⟨(h _ _).1, (h _ _).2.1, fun h0 hq => ?_⟩
  rw [(h _ _).2.2 hq]
  split
  next hr => simp only [iff_true]; omega
  next hr => rw [h0]; simp only [h0, and_true, true_and, not_or, not_lt] at hr; simp; omega

/-! ### Events of class UC and FT -/

/-- The unit of a UC event is in UC, unless its isolation has begun. -/
def UnitSt.inUc (now d : Nat) (seq : Word) (x : UnitSt) : UnitSt :=
  { x with state := if x.state < 3 then 2 else x.state, lastUc := now, detector := d, raised := seq }
def Pkg.ucNoted (now d : Nat) (seq : Word) (k : Pkg) : Pkg :=
  if detClass d = clsUC then k.setUnit (detUnit d) ((k.unit (detUnit d)).inUc now d seq) else k
theorem Pkg.gravely_eq (now d : Nat) (seq : Word) (k : Pkg) : k.gravely now d seq =
    (if (k.ucNoted now d seq).moored then (k.ucNoted now d seq).wakeHtile else k.ucNoted now d seq).takeSlot now d seq := rfl
theorem Pkg.ucNoted_spec (now d : Nat) (seq : Word) (k : Pkg) : (k.ucNoted now d seq).flt = { k.flt with
    units := if detClass d = clsUC then sset {} k.flt.units (detUnit d) ((k.unit (detUnit d)).inUc now d seq) else k.flt.units } ∧
    (∀ o, (k.ucNoted now d seq).rg o = k.rg o) ∧ (k.ucNoted now d seq).out = k.out := by
  unfold Pkg.ucNoted
  split <;> exact ⟨rfl, fun _ => rfl, rfl⟩
/-- A UC or FT event that finds a free slot takes it, with its class's grace. -/
theorem Pkg.gravely_free {seq : Word} {n : Nat} (hn : (List.range 16).find? (fun i => (sfind k.flt.pend i).isNone) = some n) :
    (k.gravely now d seq).flt = { k.flt with
      units := if detClass d = clsUC then sset {} k.flt.units (detUnit d) ((k.unit (detUnit d)).inUc now d seq) else k.flt.units
      pend := sinsert k.flt.pend n ⟨detClass d, d, detUnit d, seq, now + k.grace (detClass d)⟩ } ∧
    (∀ o, 0x10000 ≤ o → (k.gravely now d seq).rg o = k.rg o) ∧ (∀ m ∈ k.out, m ∈ (k.gravely now d seq).out) := by
  obtain ⟨hflt, hrg, hout⟩ := k.ucNoted_spec now d seq
  rw [Pkg.gravely_eq]
  generalize k.ucNoted now d seq = j at hflt hrg hout ⊢
  have hw : (if j.moored then j.wakeHtile else j).flt = j.flt ∧ (∀ o, 0x10000 ≤ o → (if j.moored then j.wakeHtile else j).rg o = j.rg o) ∧
      ∀ m ∈ j.out, m ∈ (if j.moored then j.wakeHtile else j).out := by
    split
    · refine ⟨j.wakeHtile_flt, fun o ho => ?_, j.wakeHtile_noted.told⟩
      unfold Pkg.wakeHtile
      split
      · rfl
      · refine (Pkg.rg_put_ne _ _ _ (by simp only [F.AON_WAKE_CAUSE_CAUSE, R.AON_WAKE_CAUSE]; omega)).trans ?_
        exact Pkg.rg_wakeDomains_central ho _ (by decide) j
    · exact ⟨rfl, fun _ _ => rfl, fun _ h => h⟩
  generalize (if j.moored then j.wakeHtile else j) = l at hw
  obtain ⟨hlf, hlr, hlo⟩ := hw
  have hg : l.grace (detClass d) = k.grace (detClass d) := by
    have hr : ∀ o, 0x10000 ≤ o → l.rg o = k.rg o := fun o ho => (hlr o ho).trans (hrg o)
    have hget (f : Fld) (hf : 0x10000 ≤ f.off) : l.get f = k.get f := by rw [Pkg.get, hr _ hf]; rfl
    rw [Pkg.grace, hget _ (by decide), hget _ (by decide), Pkg.grace]
  have hp : l.flt.pend = k.flt.pend := by rw [hlf, hflt]
  unfold Pkg.takeSlot
  dsimp only
  rw [hp, hn, hg]
  dsimp only
  refine ⟨?_, fun o ho => (hlr o ho).trans (hrg o), fun m hm => hlo m (hout ▸ hm)⟩
  rw [hlf, hflt]
/-- The lowest free slot. -/
theorem find_free {l : SMap Pend} {n : Nat} (h16 : n < 16) (hn : sfind l n = none) (h : ∀ i, i < n → sfind l i ≠ none) :
    (List.range 16).find? (fun i => (sfind l i).isNone) = some n := by
  rw [List.find?_range_eq_some]
  refine ⟨by simp [hn], List.mem_range.2 h16, fun i hi => ?_⟩
  simpa [Option.isSome_iff_ne_none] using h i hi

/-! ### What is logged of an event -/

/-- The entry of a detector's event. -/
def eventEntry (d flags : Nat) (i0 i1 : BitVec 64) : LogEntry :=
  { logEntry (detClass d) (if d = det 253 0 then 10 else 0) d (detUnit d) flags 0 with info0 := i0, info1 := i1 }
theorem Pkg.logEvent_eq (hc : detClass d ≠ clsCE) (flags : Nat) (k : Pkg) : k.logEvent now d flags i0 i1 =
    if (k.log now (eventEntry d flags i0 i1)).flt.seq = k.flt.seq then k.log now (eventEntry d flags i0 i1)
    else { k.log now (eventEntry d flags i0 i1) with
      flt := { (k.log now (eventEntry d flags i0 i1)).flt with
        lastOf := sinsert (k.log now (eventEntry d flags i0 i1)).flt.lastOf d k.flt.seq } } := by
  unfold Pkg.logEvent
  rw [if_neg (fun e => hc e.1)]
  rfl
theorem Pkg.logEvent_grave (hc : detClass d ≠ clsCE) (flags : Nat) (k : Pkg) :
    (k.logEvent now d flags i0 i1).flt.log = (k.log now (eventEntry d flags i0 i1)).flt.log ∧
      (k.logEvent now d flags i0 i1).flt.seq = (k.log now (eventEntry d flags i0 i1)).flt.seq ∧
      (k.logEvent now d flags i0 i1).regs = (k.log now (eventEntry d flags i0 i1)).regs ∧
      (k.logEvent now d flags i0 i1).out = (k.log now (eventEntry d flags i0 i1)).out := by
  rw [Pkg.logEvent_eq hc]
  generalize k.log now (eventEntry d flags i0 i1) = l
  split <;> exact ⟨rfl, rfl, rfl, rfl⟩

/-! ### Detectors -/

/-- The line that an error makes uncorrectable is poisoned. -/
def Pkg.errorMarked (p : PkgId) (d off : Nat) (k : Pkg) : Pkg :=
  match errorPlace d off with
  | some e => if k.mem.poison.contains (memKey p e.1 e.2 / 64) then k else { k with mem := { k.mem with poison := k.mem.poison ++ [memKey p e.1 e.2 / 64] } }
  | none => k
theorem Pkg.errorMarked_mem (p : PkgId) (d off : Nat) (k : Pkg) : ∃ m, k.errorMarked p d off = { k with mem := m } := by
  unfold Pkg.errorMarked
  split
  · split
    · exact ⟨k.mem, rfl⟩
    · exact ⟨_, rfl⟩
  · exact ⟨k.mem, rfl⟩
/-- A detector's event at a package. -/
theorem exec_detectorFire (s : State) (p : PkgId) (d : Fin 4096) (i0 i1 : BitVec 64) : ∃ m t, exec (.detectorFire p d i0 i1) s = .next t ∧
    ({ s.pkg p with mem := m }.raise s.now d.val i0 i1).Darkened (t.pkg p) ∧
    (({ s.pkg p with mem := m }.raise s.now d.val i0 i1).pkgDark = (s.pkg p).pkgDark →
      t = s.setPkg p ({ s.pkg p with mem := m }.raise s.now d.val i0 i1)) := by
  obtain ⟨m, hm⟩ := (s.pkg p).errorMarked_mem p d.val i0.toNat
  obtain ⟨t, ht, hd, he⟩ := onPkgGrave_darkened p s fun mm k => (mm, (k.errorMarked p d.val i0.toNat).raise s.now d.val i0 i1)
  dsimp only at hd he
  rw [hm] at hd he
  exact ⟨m, t, ht, hd, he⟩

/-- The counts of an event, however it ends. -/
theorem Pkg.raise_counts (h : d < 2944) (hd : d ≠ det 253 0) (k : Pkg) :
    (detClass d = clsCE → (k.raise now d i0 i1).get F.FLT_COUNTS_CE = min 65535 (k.get F.FLT_COUNTS_CE + 1)) ∧
    (detClass d = clsUC → (k.raise now d i0 i1).get F.FLT_COUNTS_UC = min 255 (k.get F.FLT_COUNTS_UC + 1)) ∧
    (detClass d = clsFT → (k.raise now d i0 i1).get F.FLT_COUNTS_FT = min 255 (k.get F.FLT_COUNTS_FT + 1)) := by
  have hr (f : Fld) (ho : f.off = R.FLT_COUNTS) : (k.raise now d i0 i1).get f = (k.faultCounted d).get f :=
    (Pkg.raise_hubbed h hd i0 i1).get f (by rw [ho]; unfold hubReg; decide) (by rw [ho]; unfold centralReg; decide)
  refine ⟨fun hc => ?_, fun hc => ?_, fun hc => ?_⟩ <;> rw [hr _ rfl, Pkg.get_countFault (by rw [hc]; rfl) (by decide)] <;> rfl
theorem Pkg.raise_shadowed (h : d < 2944) (hd : d ≠ det 253 0) (hs : k.shadowed d = true) :
    (k.raise now d i0 i1).flt.pend = k.flt.pend ∧ (k.raise now d i0 i1).flt.units = k.flt.units ∧
      (k.raise now d i0 i1).flt.reactions = k.flt.reactions := by
  have hl := (k.faultCounted d).logEvent_logs now d fShadowed i0 i1
  rw [Pkg.raise_eq h hd, if_pos hs, hl.pend, hl.units, hl.reactions, Pkg.faultCounted_flt]
  exact ⟨rfl, rfl, rfl⟩
theorem Pkg.raise_ce (h : d < 2944) (hd : d ≠ det 253 0) (hs : k.shadowed d = false) (hc : detClass d = clsCE) :
    (k.raise now d i0 i1).flt.pend = k.flt.pend ∧ (k.raise now d i0 i1).flt.reactions = k.flt.reactions ∧
      ((k.unit (detUnit d)).state = 0 → k.quarBit (detUnit d) = false →
        (((k.unit (detUnit d)).ceTimes.filter fun t => now < t + 10 ^ 9).length + 1 ≥ k.get F.FLT_CFG_CE_RATE ↔
          (k.raise now d i0 i1).unitState (detUnit d) = 1)) := by
  have hl := (k.faultCounted d).logEvent_logs now d 0 i0 i1
  have hu : ((k.faultCounted d).logEvent now d 0 i0 i1).unit (detUnit d) = k.unit (detUnit d) := by
    rw [hl.unit, Pkg.unit, Pkg.faultCounted_flt, Pkg.unit]
  have hq : ((k.faultCounted d).logEvent now d 0 i0 i1).quarBit (detUnit d) = k.quarBit (detUnit d) := by
    have := detUnit_lt h
    rw [hl.quarBit, Pkg.quarBit, Pkg.rg_faultCounted (by unfold R.FLT_QUAR; omega) (by unfold R.FLT_QUAR R.FLT_COUNTS; omega), Pkg.quarBit]
  have hr : ((k.faultCounted d).logEvent now d 0 i0 i1).get F.FLT_CFG_CE_RATE = k.get F.FLT_CFG_CE_RATE := by
    rw [hl.get _ (by decide) (by decide), Pkg.get, Pkg.rg_faultCounted (by decide) (by decide)]
    rfl
  have hp : ((k.faultCounted d).logEvent now d 0 i0 i1).flt.pend = k.flt.pend := by rw [hl.pend, Pkg.faultCounted_flt]
  have hx : ((k.faultCounted d).logEvent now d 0 i0 i1).flt.reactions = k.flt.reactions := by rw [hl.reactions, Pkg.faultCounted_flt]
  rw [Pkg.raise_eq h hd, if_neg (by simp [hs]), if_pos hc]
  generalize (k.faultCounted d).logEvent now d 0 i0 i1 = l at *
  obtain ⟨h1, h2, h3⟩ := l.ceRate_spec now d
  rw [hu, hq, hr] at h3
  exact ⟨h1.trans hp, h2.trans hx, h3⟩
/-- A UC or FT event that is not shadowed takes the lowest free slot and is logged as RAISED. -/
theorem Pkg.raise_grave (h : d < 2944) (hd : d ≠ det 253 0) (hs : k.shadowed d = false) (hc : detClass d ≠ clsCE) {n : Nat}
    (hn : (List.range 16).find? (fun i => (sfind k.flt.pend i).isNone) = some n) :
    (k.raise now d i0 i1).flt.pend = sinsert k.flt.pend n ⟨detClass d, d, detUnit d, k.flt.seq, now + k.grace (detClass d)⟩ ∧
    (k.raise now d i0 i1).flt.reactions = k.flt.reactions ∧
    Msg.msix (if detClass d = clsFT then 41 else 40) ∈ (k.raise now d i0 i1).out ∧
    (detClass d = clsUC → k.quarBit (detUnit d) = false → (k.raise now d i0 i1).unitState (detUnit d) = 2) ∧
    (k.lwOnly = false → (k.raise now d i0 i1).rg R.FLT_LOG_HEAD = k.flt.seq ∧
      ∃ e, sfind (k.raise now d i0 i1).flt.log (k.flt.seq.toNat % 4096) = some e ∧ e.seq = k.flt.seq ∧ e.kind = 0 ∧ e.cls = detClass d ∧
        e.detector = d ∧ e.unit = detUnit d ∧ e.info0 = i0 ∧ e.info1 = i1 ∧ e.time = k.time now) ∧
    (k.lwOnly = true → (k.raise now d i0 i1).flt.log = k.flt.log ∧ (k.raise now d i0 i1).flt.seq = k.flt.seq + 1) := by
  have hu := detUnit_lt h
  have hq (u : Nat) (hu : u < 256) : (k.faultCounted d).quarBit u = k.quarBit u := by
    rw [Pkg.quarBit, Pkg.rg_faultCounted (by unfold R.FLT_QUAR; omega) (by unfold R.FLT_QUAR R.FLT_COUNTS; omega), Pkg.quarBit]
  have hlw : (k.faultCounted d).lwOnly = k.lwOnly := by rw [Pkg.lwOnly, Pkg.faultCounted_flt, hq _ (by decide), Pkg.lwOnly]
  have htime : (k.faultCounted d).time now = k.time now := by rw [Pkg.time, (k.faultCounted_onlyRegs d)]; rfl
  have hl := (k.faultCounted d).logEvent_logs now d 0 i0 i1
  obtain ⟨e1, e2, e3, e4⟩ := (k.faultCounted d).logEvent_grave (now := now) (i0 := i0) (i1 := i1) hc 0
  have hkind : (eventEntry d 0 i0 i1).kind = 0 := if_neg hd
  obtain ⟨g1, g2, _⟩ := (k.faultCounted d).log_grave (now := now) (e := eventEntry d 0 i0 i1) (by exact hc)
  have g3 := (k.faultCounted d).log_told (now := now) (e := eventEntry d 0 i0 i1) (by exact hc) rfl (by rw [hkind]; decide)
  have hunit : ((k.faultCounted d).logEvent now d 0 i0 i1).unit (detUnit d) = k.unit (detUnit d) := by
    rw [hl.unit, Pkg.unit, Pkg.faultCounted_flt, Pkg.unit]
  have hquar : ((k.faultCounted d).logEvent now d 0 i0 i1).quarBit (detUnit d) = k.quarBit (detUnit d) := (hl.quarBit _).trans (hq _ hu)
  have hp : ((k.faultCounted d).logEvent now d 0 i0 i1).flt.pend = k.flt.pend := by rw [hl.pend, Pkg.faultCounted_flt]
  have hx : ((k.faultCounted d).logEvent now d 0 i0 i1).flt.reactions = k.flt.reactions := by rw [hl.reactions, Pkg.faultCounted_flt]
  have hg : ((k.faultCounted d).logEvent now d 0 i0 i1).grace (detClass d) = k.grace (detClass d) := by
    have hget (f : Fld) (ho : f.off = R.FLT_CFG) : ((k.faultCounted d).logEvent now d 0 i0 i1).get f = k.get f := by
      rw [hl.get _ (by rw [ho]; decide) (by rw [ho]; decide), Pkg.get, Pkg.rg_faultCounted (by rw [ho]; decide) (by rw [ho]; decide)]; rfl
    rw [Pkg.grace, hget _ rfl, hget _ rfl, Pkg.grace]
  rw [← e1, ← e2, hlw, Pkg.faultCounted_flt] at g2
  rw [← e1, ← Pkg.rg_of_regs e3, hlw, Pkg.faultCounted_flt] at g1
  rw [← e4] at g3
  have hentry : ∀ e, e = (k.faultCounted d).fillEntry now (eventEntry d 0 i0 i1) → e.seq = k.flt.seq ∧ e.kind = 0 ∧ e.cls = detClass d ∧
      e.detector = d ∧ e.unit = detUnit d ∧ e.info0 = i0 ∧ e.info1 = i1 ∧ e.time = k.time now := by
    rintro _ rfl
    exact ⟨congrArg FltSt.seq (k.faultCounted_flt d), hkind, rfl, rfl, rfl, rfl, rfl, htime⟩
  have hstate : detClass d = clsUC → k.quarBit (detUnit d) = false → (k.unit (detUnit d)).state < 3 := by
    intro hcu hqb
    have : ¬ (3 ≤ k.unitState (detUnit d)) := fun h3 => by
      simp [Pkg.shadowed, hcu, h3] at hs
    rwa [Pkg.unitState, if_neg (by simpa using hqb), not_le] at this
  rw [Pkg.raise_eq h hd, if_neg (by simp [hs]), if_neg hc]
  generalize (k.faultCounted d).fillEntry now (eventEntry d 0 i0 i1) = e at *
  generalize (k.faultCounted d).logEvent now d 0 i0 i1 = l at *
  obtain ⟨hf, hrg, hout⟩ := Pkg.gravely_free (now := now) (d := d) (seq := k.flt.seq) (n := n) (k := l) (by rw [hp]; exact hn)
  rw [hg, hp, hunit] at hf
  refine ⟨by rw [hf], by rw [hf]; exact hx, hout _ g3, fun hcu hqb => ?_, fun hw => ⟨(hrg _ (by decide)).trans (g1 hw).1, e, ?_, hentry e rfl⟩, fun hw => ?_⟩
  · have hqr : (l.gravely now d k.flt.seq).quarBit (detUnit d) = false := by
      rw [Pkg.quarBit, hrg _ (by unfold R.FLT_QUAR; omega)]
      exact hquar.trans hqb
    rw [Pkg.unitState, if_neg (by simp [hqr]), Pkg.unit, hf, if_pos hcu, sget_sset_same, UnitSt.inUc]
    exact if_pos (hstate hcu hqb)
  · rw [hf]; exact (g1 hw).2
  · rw [hf]; exact g2 hw

theorem exec_detectorFire_reserved {d : Fin 4096} (h : 2944 ≤ d.val) : exec (.detectorFire p d i0 i1) s = .next (s.setPkg p (s.pkg p)) := by
  have hu : 256 ≤ detUnit d.val := by unfold detUnit; split_ifs <;> omega
  have hn : errorPlace d.val i0.toNat = none := by
    unfold errorPlace
    dsimp only
    split_ifs <;> first | rfl | omega
  have hm : ((s.pkg p).errorMarked p d.val i0.toNat).raise s.now d.val i0 i1 = s.pkg p := by
    rw [Pkg.errorMarked, hn]
    exact if_pos h
  obtain ⟨t, ht, _, he⟩ := onPkgGrave_darkened p s fun mm k => (mm, (k.errorMarked p d.val i0.toNat).raise s.now d.val i0 i1)
  dsimp only at he
  rw [hm] at he
  exact ht.trans (congrArg Host.Outcome.next (he rfl))

/-- Settles O53: the count of `Pkg.raise_counts`, and what a shadowed, a CE and a graver event do. -/
theorem detectorEvents : Obligations.DetectorEvents := by
  unfold Obligations.DetectorEvents
  intro s p d i0 i1
  obtain ⟨m, t, ht, hd, he⟩ := exec_detectorFire s p d i0 i1
  dsimp only
  have hlw : ({ s.pkg p with mem := m } : Pkg).lwOnly = (s.pkg p).lwOnly := rfl
  have hsh : ({ s.pkg p with mem := m } : Pkg).shadowed d.val = (s.pkg p).shadowed d.val := rfl
  have hrg : ∀ f, ({ s.pkg p with mem := m } : Pkg).get f = (s.pkg p).get f := fun _ => rfl
  have hu : ({ s.pkg p with mem := m } : Pkg).unit (detUnit d.val) = (s.pkg p).unit (detUnit d.val) := rfl
  have hq : ({ s.pkg p with mem := m } : Pkg).quarBit (detUnit d.val) = (s.pkg p).quarBit (detUnit d.val) := rfl
  have hf : ({ s.pkg p with mem := m } : Pkg).flt = (s.pkg p).flt := rfl
  have hg : ({ s.pkg p with mem := m } : Pkg).grace (detClass d.val) = (s.pkg p).grace (detClass d.val) := rfl
  have ht' : ({ s.pkg p with mem := m } : Pkg).time s.now = (s.pkg p).time s.now := rfl
  have hdk : ({ s.pkg p with mem := m } : Pkg).pkgDark = (s.pkg p).pkgDark := rfl
  generalize ({ s.pkg p with mem := m } : Pkg) = k at *
  refine ⟨exec_detectorFire_reserved, fun hlt hne => ⟨⟨t, ht, fun hcore => ?_, ?_⟩, fun hs => ⟨t, ht, ?_⟩, fun hs hc => ⟨t, ht, ?_⟩,
    fun n hs hc h16 hn hfree => ⟨t, ht, ?_⟩⟩⟩
  · have hr := Pkg.raise_noted (now := s.now) (k := k) hlt hne (detClass_core hcore) i0 i1
    have hk : (k.raise s.now d.val i0 i1).pkgDark = (s.pkg p).pkgDark := by
      rw [hr.rest.pkgDark, (LogOnly.of_onlyRegs (k.faultCounted_onlyRegs d.val)).pkgDark, hdk]
    rw [he hk, State.pkg_setPkg_same, hr.get]
    · exact Pkg.faultCounted_core hcore k
    · simp only [hubReg, F.CORE_FAULT_STATUS_BITS, R.CORE_FAULT_STATUS, R.FLT_STATUS, R.FLT_DROPS, R.FLT_LOG_HEAD]
      omega
  · obtain ⟨h1, h2, h3⟩ := Pkg.raise_counts (now := s.now) (i0 := i0) (i1 := i1) hlt hne k
    have hget (f : Fld) (ho : f.off = R.FLT_COUNTS) : (t.pkg p).get f = (k.raise s.now d.val i0 i1).get f :=
      hd.get f (by rw [ho]; unfold centralReg; decide)
    rw [hget _ rfl, hget _ rfl, hget _ rfl, ← hrg, ← hrg, ← hrg]
    exact ⟨h1, h2, h3⟩
  · rw [hd.flt, ← hf]
    exact Pkg.raise_shadowed hlt hne (hsh.trans hs)
  · obtain ⟨h1, h2, h3⟩ := Pkg.raise_ce (now := s.now) (i0 := i0) (i1 := i1) hlt hne (hsh.trans hs) hc
    rw [hd.flt, hd.unitState (detUnit_lt hlt), ← hf, ← hu, ← hq, ← hrg]
    exact ⟨h1, h2, h3⟩
  · obtain ⟨h1, h2, h3, h4, h5, h6⟩ := Pkg.raise_grave (now := s.now) (i0 := i0) (i1 := i1) hlt hne (hsh.trans hs) hc
      (find_free h16 (hf ▸ hn) (hf ▸ hfree))
    rw [hd.flt, hd.unitState (detUnit_lt hlt), hd.rg R.FLT_LOG_HEAD (by unfold centralReg; decide), h1, h2, sfind_sinsert_same, hg, ← hf, ← hq, ← hlw, ← ht']
    exact ⟨rfl, fun i hi => sfind_sinsert_ne hi _ _, rfl, hd.told _ h3, h4, h5, h6⟩

end Sys2Proof.Machine
end

section
/-! PROOF. Grace periods and verdicts (R321–R325). -/
namespace Sys2Proof.Machine
open Sys2Proof

variable {s : State} {p : PkgId} {j k : Pkg} {now slot : Nat} {x : Pend}

/-! ### The expiry of a grace -/

theorem Pkg.expireGrace_waits {cls : Nat} (h : sfind k.flt.pend slot = none ∨ ∃ x, sfind k.flt.pend slot = some x ∧ (x.cls ≠ cls ∨ now < x.expires)) :
    k.expireGrace now cls slot = k := by
  unfold Pkg.expireGrace
  rcases h with h | ⟨x, h, hx⟩ <;> rw [h]
  exact if_neg (by omega)
theorem Pkg.expireGrace_expired (h : sfind k.flt.pend slot = some x) (he : x.expires ≤ now) :
    k.expireGrace now x.cls slot = (k.freePend slot).escalate now fHardware x := by
  unfold Pkg.expireGrace
  rw [h]
  exact if_pos ⟨rfl, he⟩
/-- The expiry of a grace that does not take the package dark. -/
theorem exec_graceExpiry (cls : Nat) (f : Pkg → Pkg) (hd : (f (s.pkg p)).pkgDark = (s.pkg p).pkgDark) :
    onPkgGrave p s (fun m k => (m, f k)) = .next (s.setPkg p (f (s.pkg p))) := by
  obtain ⟨t, ht, _, he⟩ := onPkgGrave_darkened p s fun m k => (m, f k)
  exact ht.trans (congrArg Host.Outcome.next (he hd))

/-- What the start of an isolation leaves of slots, units and reactions. -/
def Pkg.Isolates (slot : Nat) (x : Pend) (k j : Pkg) : Prop :=
  j.flt.pend = serase k.flt.pend slot ∧ (j.unit x.unit).state = 3 ∧ j.flt.reactions = k.flt.reactions ++ [⟨0, x.unit, x.unit, x.seq⟩]
theorem Pkg.escalate_uc {by_ : Nat} (hc : x.cls ≠ clsFT) : k.escalate now by_ x = k.escalateUc now by_ x := if_neg hc
/-- An event whose slot is freed isolates its unit, where it has one that is not isolated. -/
theorem Pkg.isolates_escalate {by_ : Nat} {l : Pkg} (hl : k.Logs l) (hc : x.cls ≠ clsFT) (hq : (noIsolation x || decide (3 ≤ k.unitState x.unit)) = false) :
    k.Isolates slot x ((l.freePend slot).escalate now by_ x) := by
  simp only [Bool.or_eq_false_iff, decide_eq_false_iff_not, not_le] at hq
  have hu : (l.freePend slot).unitState x.unit = l.unitState x.unit := rfl
  have h := (l.freePend slot).escalateUc_isolates now by_ (x := x) hq.1 (by rw [hu, hl.unitState]; exact hq.2)
  rw [Pkg.escalate_uc hc]
  refine ⟨h.1.trans (congrArg (serase · slot) hl.pend), h.2.1, h.2.2.trans (congrArg (· ++ _) hl.reactions)⟩

/-! ### Verdicts -/

def handleDesc : RegDesc := ⟨"FLT_HANDLE", 0x30010, 1, 0x0, 1, 0x0, 0x0, 0x0, 0x0, 0x0, 0x30f, 0, 1⟩
theorem Pkg.handleStored (w : Word) (k : Pkg) : SamePkg k (k.storeFields handleDesc R.FLT_HANDLE w) := Pkg.storeFields_same rfl rfl _ _ _
theorem busWrite_FLT_HANDLE (x : Bus) (w : Word) (m : Mem) (k : Pkg) : busWrite x handleDesc R.FLT_HANDLE w m k =
    (m, (k.storeFields handleDesc R.FLT_HANDLE w).handle x.now (bits w.toNat 8 2) (bits w.toNat 0 4)) := by
  have hi : k.ignores x handleDesc R.FLT_HANDLE w.toNat = false := rfl
  have hr : k.rejects handleDesc.base w.toNat = false := rfl
  unfold busWrite busAct
  dsimp only
  rw [hi, hr]
  rfl
/-- The word of a verdict on a slot. -/
def verdictWord (verdict : Nat) (slot : Fin 16) : Word := BitVec.ofNat 32 (0x100 * verdict + slot.val)
theorem bits_verdictWord (slot : Fin 16) : bits (verdictWord 1 slot).toNat 8 2 = 1 ∧ bits (verdictWord 2 slot).toNat 8 2 = 2 ∧
    bits (verdictWord 1 slot).toNat 0 4 = slot.val ∧ bits (verdictWord 2 slot).toNat 0 4 = slot.val := by
  revert slot; decide

/-- A verdict is a write of FLT_HANDLE to a package that is as it was. -/
theorem exec_verdict {i : Instr} {who : Requester} {v : Nat} {slot : Fin 16} (ho : Open s p who R.FLT_HANDLE)
    (hi : busOpOf i = some (p, writeOp who R.FLT_HANDLE (verdictWord v slot))) (hx : exec i s = busAccess i s)
    (hv : bits (verdictWord v slot).toNat 8 2 = v ∧ bits (verdictWord v slot).toNat 0 4 = slot.val) :
    ∃ k0, SamePkg (s.pkg p) k0 ∧
      ((k0.handle s.now v slot.val).pkgDark = (s.pkg p).pkgDark → exec i s = .next (s.wrote p who R.FLT_HANDLE s.mem (k0.handle s.now v slot.val))) ∧
      ∃ t, exec i s = .next t ∧ (k0.handle s.now v slot.val).Darkened (t.pkg p) ∧ (t.pkg p).dark = (k0.handle s.now v slot.val).dark := by
  have hw (x : Bus) (m : Mem) := busWrite_FLT_HANDLE x (verdictWord v slot) m (s.pkg p)
  rw [hv.1, hv.2] at hw
  refine ⟨_, (s.pkg p).handleStored (verdictWord v slot), fun hd => ?_, ?_⟩
  · rw [hx]
    exact busAccess_writes (d := handleDesc) hi ho findReg_FLT_HANDLE (by decide) (by decide) (hw ..) hd
  · obtain ⟨t, ht, h1, h2⟩ := busAccess_write_grave (d := handleDesc) hi ho findReg_FLT_HANDLE (by decide) (by decide)
    rw [hw] at h1 h2
    exact ⟨t, hx.trans ht, h1, h2⟩
theorem exec_resolved {who : Requester} {slot : Fin 16} (ho : Open s p who R.FLT_HANDLE) : ∃ k0, SamePkg (s.pkg p) k0 ∧
    ((k0.handle s.now 1 slot.val).pkgDark = (s.pkg p).pkgDark →
      exec (.resolved p who slot) s = .next (s.wrote p who R.FLT_HANDLE s.mem (k0.handle s.now 1 slot.val))) := by
  obtain ⟨k0, h0, h1, _⟩ := exec_verdict (i := .resolved p who slot) ho rfl rfl ⟨(bits_verdictWord slot).1, (bits_verdictWord slot).2.2.1⟩
  exact ⟨k0, h0, h1⟩
theorem exec_escalate {who : Requester} {slot : Fin 16} (ho : Open s p who R.FLT_HANDLE) : ∃ k0, SamePkg (s.pkg p) k0 ∧
    ((k0.handle s.now 2 slot.val).pkgDark = (s.pkg p).pkgDark →
      exec (.escalate p who slot) s = .next (s.wrote p who R.FLT_HANDLE s.mem (k0.handle s.now 2 slot.val))) ∧
    ∃ t, exec (.escalate p who slot) s = .next t ∧ (k0.handle s.now 2 slot.val).Darkened (t.pkg p) ∧
      (t.pkg p).dark = (k0.handle s.now 2 slot.val).dark :=
  exec_verdict (i := .escalate p who slot) ho rfl rfl ⟨(bits_verdictWord slot).2.1, (bits_verdictWord slot).2.2.2⟩

/-- A verdict on a slot that is empty or whose grace has expired sets LATE. -/
theorem Pkg.handle_late {v : Nat} (hv : v = 1 ∨ v = 2) (h : sfind k.flt.pend slot = none ∨ ∃ x, sfind k.flt.pend slot = some x ∧ x.expires ≤ now) :
    k.handle now v slot = k.flag F.FLT_STATUS_LATE true := by
  unfold Pkg.handle
  rw [if_neg (by omega)]
  rcases h with h | ⟨x, h, hx⟩ <;> rw [h]
  exact if_pos hx
theorem Pkg.handle_ft (h : sfind k.flt.pend slot = some x) (he : now < x.expires) (hc : x.cls = clsFT) : k.handle now 1 slot = k := by
  unfold Pkg.handle
  rw [if_neg (by decide), h]
  dsimp only
  rw [if_neg (by omega), if_neg (by decide), if_pos hc]
/-- RESOLVED is logged, frees the slot, and is the end of the unit's UC condition. -/
theorem Pkg.handle_resolved (h : sfind k.flt.pend slot = some x) (he : now < x.expires) (hc : x.cls ≠ clsFT) :
    ∃ l, k.Logs l ∧ k.handle now 1 slot = (l.freePend slot).setUnit x.unit { (l.freePend slot).unit x.unit with lastUc := now } := by
  refine ⟨_, k.log_logs now (logEntry x.cls 1 x.detector x.unit fSoftware x.seq), ?_⟩
  unfold Pkg.handle
  rw [if_neg (by decide), h]
  dsimp only
  rw [if_neg (by omega), if_neg (by decide), if_neg hc]
theorem Pkg.handle_escalate (h : sfind k.flt.pend slot = some x) (he : now < x.expires) :
    ∃ l, k.Logs l ∧ k.handle now 2 slot = (l.freePend slot).escalate now fSoftware x := by
  refine ⟨_, k.log_logs now (logEntry x.cls 2 x.detector x.unit fSoftware x.seq), ?_⟩
  unfold Pkg.handle
  rw [if_neg (by decide), h]
  dsimp only
  rw [if_neg (by omega), if_pos rfl]
theorem Pkg.escalate_ft {by_ : Nat} (hc : x.cls = clsFT) (hf : k.get F.FLT_STATUS_FENCED = 0) :
    (k.escalate now by_ x).get F.FLT_STATUS_FENCED = 1 ∧ (k.escalate now by_ x).pkgDark = true ∧
      (k.escalate now by_ x).flt.fencedAt = some now ∧ ∀ e ∈ (k.escalate now by_ x).flt.pend, e.2.cls ≠ clsUC := by
  rw [Pkg.escalate, if_pos hc]
  exact Pkg.fencePkg_spec _ _ _ _ _ (by omega)

theorem Pkg.pkgDark_escalate {by_ : Nat} (hc : x.cls ≠ clsFT) (n : Nat) (k : Pkg) : ((k.freePend n).escalate now by_ x).pkgDark = k.pkgDark := by
  rw [Pkg.escalate_uc hc]
  exact ((Pkg.freePend_noted n k).trans (Pkg.escalateUc_noted now by_ x (k.freePend n))).rest.pkgDark

/-- Settles O54: graces by `Pkg.expireGrace`, verdicts by `Pkg.handle`, and escalations by `Pkg.escalateUc` and `Pkg.fencePkg`. -/
theorem graceAndVerdicts : Obligations.GraceAndVerdicts := by
  unfold Obligations.GraceAndVerdicts
  intro s p slot
  dsimp only
  have hdark {k l : Pkg} (h : k.Noted l) : l.pkgDark = k.pkgDark := h.rest.pkgDark
  have hcen : centralReg F.FLT_STATUS_FENCED.off := by unfold centralReg; decide
  refine ⟨fun h => ?_, fun h => ?_, fun x hx hc he => ?_, fun x hx hc he hf => ?_, fun who ho => ⟨fun h i hi => ?_, fun x hx he => ⟨fun hc => ?_,
    fun hc => ?_, fun hc hq => ?_, fun hc hf => ?_⟩⟩⟩
  · have := (s.pkg p).expireGrace_waits h
    exact (exec_graceExpiry clsUC (Pkg.expireGrace s.now clsUC slot.val) (by rw [this])).trans (by rw [this])
  · have := (s.pkg p).expireGrace_waits h
    exact (exec_graceExpiry clsFT (Pkg.expireGrace s.now clsFT slot.val) (by rw [this])).trans (by rw [this])
  · have hne : x.cls ≠ clsFT := by rw [hc]; decide
    have hk : (s.pkg p).expireGrace s.now clsUC slot.val = ((s.pkg p).freePend slot.val).escalate s.now fHardware x := hc ▸ Pkg.expireGrace_expired hx he
    have hex := exec_graceExpiry (s := s) (p := p) clsUC (Pkg.expireGrace s.now clsUC slot.val) (by
      rw [hk, Pkg.pkgDark_escalate hne])
    rw [hk] at hex
    refine ⟨fun hq => ⟨_, hex, Pkg.isolates_escalate (.refl _) hne hq⟩, fun hq => ⟨_, hex, ?_⟩⟩
    rw [Pkg.escalate_uc hne]
    simp only [Bool.or_eq_true, decide_eq_true_eq] at hq
    exact Pkg.escalateUc_quiet (k := (s.pkg p).freePend slot.val) _ _ hq
  · obtain ⟨t, ht, hd, _⟩ := onPkgGrave_darkened p s fun m k => (m, k.expireGrace s.now clsFT slot.val)
    have hdk := onPkgGrave_dark p s _ ht
    have hk : (s.pkg p).expireGrace s.now clsFT slot.val = ((s.pkg p).freePend slot.val).escalate s.now fHardware x := hc ▸ Pkg.expireGrace_expired hx he
    dsimp only at hd hdk
    rw [hk] at hd hdk
    obtain ⟨h1, h2, h3, h4⟩ := Pkg.escalate_ft (k := (s.pkg p).freePend slot.val) (now := s.now) (by_ := fHardware) hc hf
    rw [Pkg.pkgDark] at h2
    exact ⟨t, ht, by rw [hd.get _ hcen, h1], by rw [Pkg.pkgDark, hdk, h2], by rw [hd.flt, h3], by rw [hd.flt]; exact h4⟩
  · have hv (k0 : Pkg) (v : Nat) (hv : v = 1 ∨ v = 2) (h0 : SamePkg (s.pkg p) k0) : k0.handle s.now v slot.val = k0.flag F.FLT_STATUS_LATE true :=
      Pkg.handle_late hv (by rw [h0.1]; exact h)
    have hj (k0 : Pkg) (h0 : SamePkg (s.pkg p) k0) : OnlyRegs (s.pkg p) (k0.flag F.FLT_STATUS_LATE true) ∧
        (k0.flag F.FLT_STATUS_LATE true).get F.FLT_STATUS_LATE = 1 ∧ ∀ o, o ≠ R.FLT_STATUS → (k0.flag F.FLT_STATUS_LATE true).rg o = (s.pkg p).rg o :=
      ⟨h0.1.trans (.put ..), Pkg.get_flag_same _ _ _ (by decide) (by decide), fun o ho => (Pkg.rg_put_ne _ _ _ ho).trans (h0.2 o)⟩
    have hd (k0 : Pkg) (h0 : SamePkg (s.pkg p) k0) : (k0.flag F.FLT_STATUS_LATE true).pkgDark = (s.pkg p).pkgDark :=
      (LogOnly.of_onlyRegs (hj k0 h0).1).pkgDark
    rcases List.mem_cons.1 hi with rfl | hi
    · obtain ⟨k0, h0, hx⟩ := exec_resolved ho
      rw [hv k0 1 (.inl rfl) h0] at hx
      exact ⟨_, hx (hd k0 h0), hj k0 h0⟩
    · obtain rfl := List.mem_singleton.1 hi
      obtain ⟨k0, h0, hx, _⟩ := exec_escalate ho
      rw [hv k0 2 (.inr rfl) h0] at hx
      exact ⟨_, hx (hd k0 h0), hj k0 h0⟩
  · obtain ⟨k0, h0, hex⟩ := exec_resolved (slot := slot) ho
    rw [Pkg.handle_ft (by rw [h0.1]; exact hx) he hc] at hex
    exact ⟨k0, hex (LogOnly.of_onlyRegs h0.1).pkgDark, h0⟩
  · obtain ⟨k0, h0, hex⟩ := exec_resolved (slot := slot) ho
    obtain ⟨l, hl, hk⟩ := Pkg.handle_resolved (now := s.now) (k := k0) (by rw [h0.1]; exact hx) he hc
    have hf : k0.flt = (s.pkg p).flt := by rw [h0.1]
    have hu : l.unit x.unit = (s.pkg p).unit x.unit := by rw [hl.unit, Pkg.unit, hf, Pkg.unit]
    rw [hk] at hex
    refine ⟨_, hex ?_, ?_, ?_, ?_, ?_⟩
    · exact (((hl.noted.trans (Pkg.freePend_noted ..)).trans (Pkg.setUnit_noted ..)).rest.pkgDark).trans (LogOnly.of_onlyRegs h0.1).pkgDark
    · exact congrArg (serase · slot.val) (hl.pend.trans (congrArg FltSt.pend hf))
    · exact hl.reactions.trans (congrArg FltSt.reactions hf)
    · rw [Pkg.unit_setUnit]; exact (congrArg UnitSt.state hu :)
    · rw [Pkg.unit_setUnit]
  · obtain ⟨k0, h0, hex, _⟩ := exec_escalate (slot := slot) ho
    have hf : k0.flt = (s.pkg p).flt := by rw [h0.1]
    have hu : k0.unitState x.unit = (s.pkg p).unitState x.unit := by
      rw [Pkg.unitState, Pkg.quarBit, h0.2, Pkg.unit, hf]; rfl
    obtain ⟨l, hl, hk⟩ := Pkg.handle_escalate (now := s.now) (k := k0) (by rw [hf]; exact hx) he
    rw [hk] at hex
    refine ⟨_, hex ?_, ?_⟩
    · rw [Pkg.pkgDark_escalate hc, hl.rest.pkgDark, (LogOnly.of_onlyRegs h0.1).pkgDark]
    · have := Pkg.isolates_escalate (now := s.now) (slot := slot.val) (by_ := fSoftware) hl hc (by rw [hu]; exact hq)
      unfold Pkg.Isolates at this
      rwa [hf] at this
  · obtain ⟨k0, h0, _, t, ht, hd, hdk⟩ := exec_escalate (slot := slot) ho
    have hf0 : k0.flt = (s.pkg p).flt := by rw [h0.1]
    obtain ⟨l, hl, hk⟩ := Pkg.handle_escalate (now := s.now) (k := k0) (by rw [hf0]; exact hx) he
    rw [hk] at hd hdk
    have hlf : (l.freePend slot.val).get F.FLT_STATUS_FENCED = 0 := by
      change l.get F.FLT_STATUS_FENCED = 0
      rw [hl.get _ (by decide) (by decide), h0.get, hf]
    obtain ⟨h1, h2, _, _⟩ := Pkg.escalate_ft (now := s.now) (by_ := fSoftware) hc hlf
    rw [Pkg.pkgDark] at h2
    exact ⟨t, ht, by rw [hd.get _ hcen, h1], by rw [Pkg.pkgDark, hdk, h2]⟩

end Sys2Proof.Machine
end

section
/-! PROOF. The effective cap and the settling of rates (R233, R236, R241, R244, R379). -/
namespace Sys2Proof.Machine
open Sys2Proof

variable {j k : Pkg}

/-! ### The effective cap -/

theorem lowestLimit_spec (l : List (Nat × Nat)) : (lowestLimit l).2 ≤ 2047 ∧ (∀ x ∈ l, (lowestLimit l).2 ≤ x.2) ∧
    ∀ n, (∀ x ∈ l, x.1 < n) → 0 < n → (lowestLimit l).1 < n := by
  have h : ∀ (l : List (Nat × Nat)) (a : Nat × Nat), (l.foldl (fun a b => if b.2 < a.2 then b else a) a).2 ≤ a.2 ∧
      (∀ x ∈ l, (l.foldl (fun a b => if b.2 < a.2 then b else a) a).2 ≤ x.2) ∧
      ∀ n, (∀ x ∈ l, x.1 < n) → a.1 < n → (l.foldl (fun a b => if b.2 < a.2 then b else a) a).1 < n := by
    intro l
    induction l with
    | nil => exact fun a => ⟨le_refl _, fun x hx => absurd hx List.not_mem_nil, fun _ _ h => h⟩
    | cons b l ih =>
      intro a
      obtain ⟨h1, h2, h3⟩ := ih (if b.2 < a.2 then b else a)
      have hm : (if b.2 < a.2 then b else a).2 ≤ a.2 ∧ (if b.2 < a.2 then b else a).2 ≤ b.2 := by split_ifs <;> omega
      refine ⟨h1.trans hm.1, fun x hx => ?_, fun n hn ha => h3 n (fun x hx => hn x (List.mem_cons_of_mem _ hx)) ?_⟩
      · rcases List.mem_cons.1 hx with rfl | hx
        · exact h1.trans hm.2
        · exact h2 x hx
      · split_ifs
        · exact hn b (List.mem_cons_self ..)
        · exact ha
  obtain ⟨h1, h2, h3⟩ := h l (0, 2047)
  exact ⟨h1, h2, fun n hn h0 => h3 n hn h0⟩

theorem Pkg.baseLimits_codes (k : Pkg) : ∀ x ∈ k.baseLimits, x.1 < 4 := by
  intro x hx
  unfold Pkg.baseLimits at hx
  split at hx <;> simp at hx <;> rcases hx with rfl | rfl | rfl | rfl <;> dsimp only <;> omega
/-- The effective cap is at most every limit in force, and its code is one of Table 11.2. -/
theorem Pkg.capLimit_spec (k : Pkg) : k.capLimit.2 ≤ 2047 ∧ k.capLimit.1 < 8 ∧ ∀ l ∈ k.baseLimits, k.capLimit.2 ≤ l.2 := by
  obtain ⟨h1, h2, h3⟩ := lowestLimit_spec k.baseLimits
  obtain ⟨g1, g2, g3⟩ := lowestLimit_spec (k.baseLimits ++ [(4, seaLimit (lowestLimit k.baseLimits).2)])
  unfold Pkg.capLimit
  dsimp only
  split
  · refine ⟨g1, g3 8 (fun x hx => ?_) (by decide), fun l hl => g2 l (List.mem_append_left _ hl)⟩
    rcases List.mem_append.1 hx with hx | hx
    · exact (k.baseLimits_codes x hx).trans (by decide)
    · rw [List.mem_singleton.1 hx]; exact Nat.lt_of_sub_eq_succ rfl
  · exact ⟨h1, h3 8 (fun x hx => (k.baseLimits_codes x hx).trans (by decide)) (by decide), h2⟩

/-- Two states of a package that agree in what the limits of Table 11.2 but the sea trial's are read from. -/
structure Pkg.SameLimits (j k : Pkg) : Prop where
  rg : ∀ o, o ∈ [R.PWR_LADDER_CAP, R.PWR_HOST_CAP, R.THR_CAP, R.AON_PKG_ADDR, R.CHT_TURN_STATUS] → k.rg o = j.rg o
  pkc : k.pkc = j.pkc
  chart : k.chart = j.chart
theorem Pkg.SameLimits.get (h : j.SameLimits k) (f : Fld)
    (hf : f.off ∈ [R.PWR_LADDER_CAP, R.PWR_HOST_CAP, R.THR_CAP, R.AON_PKG_ADDR, R.CHT_TURN_STATUS]) : k.get f = j.get f := by
  rw [Pkg.get, h.rg _ hf]; rfl
theorem Pkg.SameLimits.baseLimits (h : j.SameLimits k) : k.baseLimits = j.baseLimits := by
  have hs : k.safeLimit = j.safeLimit := by
    have hi : k.idx = j.idx := congrArg addrIndex (h.get F.AON_PKG_ADDR_ADDR (by decide))
    have hl : k.localImg = j.localImg := by
      rw [Pkg.localImg, h.chart, Pkg.ownState, h.get _ (by decide), Pkg.localImg, Pkg.ownState]
    rw [Pkg.safeLimit, hi, hl, Pkg.safeLimit]
  rw [Pkg.baseLimits, h.get _ (by decide), h.get _ (by decide), h.get _ (by decide), h.pkc, hs, Pkg.baseLimits]
theorem Pkg.SameLimits.capLimit (h : j.SameLimits k) (hs : k.get F.THR_SEA_TRIAL_ACTIVE = j.get F.THR_SEA_TRIAL_ACTIVE) : k.capLimit = j.capLimit := by
  rw [Pkg.capLimit, h.baseLimits, hs, Pkg.capLimit]

theorem Pkg.endProbe_eq (lost : Bool) (k : Pkg) : ∃ x : ThrSt, k.endProbe lost = { k with thr := x } ∧ x.probeAt = none := by
  unfold Pkg.endProbe
  split
  next h => exact ⟨k.thr, rfl, h⟩
  next => exact ⟨_, rfl, rfl⟩
theorem Pkg.recap_eq (k : Pkg) : ∃ x : ThrSt, k.recap =
    { (k.put F.PWR_CAP_STATUS_EFFECTIVE k.capLimit.2).put F.PWR_CAP_STATUS_LIMITER k.capLimit.1 with thr := x } := by
  unfold Pkg.recap
  dsimp only
  split
  · obtain ⟨x, hx, _⟩ := Pkg.endProbe_eq true ((k.put F.PWR_CAP_STATUS_EFFECTIVE k.capLimit.2).put F.PWR_CAP_STATUS_LIMITER k.capLimit.1)
    exact ⟨x, hx⟩
  · exact ⟨_, rfl⟩
theorem Pkg.rg_recap (k : Pkg) {o : Nat} (h : o ≠ R.PWR_CAP_STATUS) : k.recap.rg o = k.rg o := by
  obtain ⟨x, hx⟩ := k.recap_eq
  rw [hx]
  exact (Pkg.rg_put_ne _ _ _ h).trans (Pkg.rg_put_ne _ _ _ h)
theorem Pkg.get_recap (k : Pkg) {f : Fld} (h : f.off ≠ R.PWR_CAP_STATUS) : k.recap.get f = k.get f := by rw [Pkg.get, k.rg_recap h]; rfl
theorem Pkg.recap_sameLimits (k : Pkg) : k.SameLimits k.recap := by
  refine ⟨fun o ho => k.rg_recap (fun e => by subst e; revert ho; decide), ?_, ?_⟩ <;>
    obtain ⟨x, hx⟩ := k.recap_eq <;> rw [hx] <;> rfl
/-- EFFECTIVE and LIMITER follow the limits in force. -/
theorem Pkg.recap_spec (k : Pkg) : k.recap.effective = k.capLimit.2 ∧ k.recap.get F.PWR_CAP_STATUS_LIMITER = k.capLimit.1 ∧
    k.recap.capLimit = k.capLimit ∧ ∀ l ∈ k.recap.baseLimits, k.recap.effective ≤ l.2 := by
  obtain ⟨h1, h2, h3⟩ := k.capLimit_spec
  have he : k.recap.effective = k.capLimit.2 := by
    obtain ⟨x, hx⟩ := k.recap_eq
    rw [hx]
    change Pkg.get _ _ = _
    refine (Pkg.get_put_disjoint (k.put F.PWR_CAP_STATUS_EFFECTIVE k.capLimit.2) F.PWR_CAP_STATUS_LIMITER F.PWR_CAP_STATUS_EFFECTIVE _ (by decide) rfl
      (by decide)).trans ?_
    rw [Pkg.get_put_same _ _ _ (by decide)]
    exact Nat.mod_eq_of_lt (by simp only [F.PWR_CAP_STATUS_EFFECTIVE]; omega)
  refine ⟨he, ?_, k.recap_sameLimits.capLimit (k.get_recap (by decide)), fun l hl => ?_⟩
  · obtain ⟨x, hx⟩ := k.recap_eq
    rw [hx]
    refine (Pkg.get_put_same (k.put F.PWR_CAP_STATUS_EFFECTIVE k.capLimit.2) F.PWR_CAP_STATUS_LIMITER _ (by decide)).trans ?_
    exact Nat.mod_eq_of_lt (by simp only [F.PWR_CAP_STATUS_LIMITER]; omega)
  · rw [k.recap_sameLimits.baseLimits] at hl
    exact he.trans_le (h3 l hl)

/-! ### Rates -/

/-- The limit of a tile's rate is at most the governor's, the forecast's and the probe's; 1 in a junction trip; and BRAKE under the brake. -/
theorem Pkg.rateLimit_le (k : Pkg) (t : Nat) : k.rateLimit t ≤ sget 64 k.pwr.govRate t ∧ k.rateLimit t ≤ k.frate t ∧
    k.rateLimit t ≤ sget 64 k.thr.probeLimit t ∧ (k.braked = true → k.rateLimit t ≤ k.brakeRate) ∧ (k.alarmLive 3 = true → k.rateLimit t ≤ 1) := by
  unfold Pkg.rateLimit
  dsimp only
  generalize sget 64 k.pwr.govRate t = a
  generalize sget 64 k.thr.probeLimit t = b
  cases k.braked <;> cases k.alarmLive 3 <;> cases k.pwr.govHold <;> simp <;> omega
/-- Two states of a package that agree in what the limits of rates are computed from. -/
structure Pkg.SameRateLimits (j k : Pkg) : Prop where
  line : k.braked = j.braked
  brake : k.brakeRate = j.brakeRate
  frate : k.rg R.THR_FRATE = j.rg R.THR_FRATE
  alarm : k.alarmLive 3 = j.alarmLive 3
  pwr : k.pwr.govRate = j.pwr.govRate
  hold : k.pwr.govHold = j.pwr.govHold
  thr : k.thr.probeLimit = j.thr.probeLimit

theorem Pkg.SameRateLimits.rateLimit (h : j.SameRateLimits k) (t : Nat) : k.rateLimit t = j.rateLimit t := by
  have hf : k.frate t = j.frate t := by rw [Pkg.frate, Pkg.get, show (frateFld t).off = R.THR_FRATE from rfl, h.frate]; rfl
  unfold Pkg.rateLimit
  rw [hf, h.line, h.brake, h.alarm, h.pwr, h.hold, h.thr]
theorem Pkg.SameRateLimits.refl (k : Pkg) : k.SameRateLimits k := ⟨rfl, rfl, rfl, rfl, rfl, rfl, rfl⟩
theorem Pkg.SameRateLimits.trans {i : Pkg} (h : i.SameRateLimits j) (h' : j.SameRateLimits k) : i.SameRateLimits k :=
  ⟨h'.line.trans h.line, h'.brake.trans h.brake, h'.frate.trans h.frate, h'.alarm.trans h.alarm, h'.pwr.trans h.pwr, h'.hold.trans h.hold,
    h'.thr.trans h.thr⟩
/-- Registers that the limits of rates are computed from. -/
def rateReg (o : Nat) : Prop := o = R.PWR_BRAKE ∨ o = R.THR_FRATE ∨ o = R.THR_ALARM
theorem Pkg.sameRateLimits_of (hr : ∀ o, rateReg o → k.rg o = j.rg o) (hp : k.pwr = j.pwr) (ht : k.thr = j.thr) : j.SameRateLimits k := by
  have hg (f : Fld) (hf : rateReg f.off) : k.get f = j.get f := by rw [Pkg.get, hr _ hf]; rfl
  refine ⟨?_, hg _ (.inl rfl), hr _ (.inr (.inl rfl)), ?_, by rw [hp], by rw [hp], by rw [ht]⟩
  · rw [Pkg.braked, hg _ (.inl rfl), Pkg.braked]
  · rw [Pkg.alarmLive, hg _ (.inr (.inr rfl)), Pkg.alarmLive]

/-- A register of a C-tile's state. -/
def isTileReg (o : Nat) : Prop := ∃ t, t < 4 ∧ o = R.PWR_TILE_STATE t
theorem tileReg_inj {a b : Nat} (h : R.PWR_TILE_STATE a = R.PWR_TILE_STATE b) : a = b := by unfold R.PWR_TILE_STATE at h; omega
theorem not_rateReg_tile {o : Nat} (h : rateReg o) : ¬ isTileReg o := by
  rintro ⟨t, ht, rfl⟩
  simp only [rateReg, R.PWR_TILE_STATE, R.PWR_BRAKE, R.THR_FRATE, R.THR_ALARM] at h
  omega
/-- Between two states of a package only the rates of some C-tiles changed, each to a value. -/
structure Pkg.Rated (ts : List Nat) (v : Nat → Nat) (j k : Pkg) : Prop where
  onlyRegs : OnlyRegs j k
  rg : ∀ o, ¬ isTileReg o → k.rg o = j.rg o
  get : ∀ t g, g.off = R.PWR_TILE_STATE t → 7 ≤ g.lo → g.lo + g.width ≤ 32 → k.get g = j.get g
  rate : ∀ t, t ∈ ts → k.rate t = v t % 128
  other : ∀ t, t ∉ ts → k.rate t = j.rate t
/-- Rates set one after another, each from the state before it, where no rate enters another's value. -/
theorem Pkg.rated_foldl {v : Nat → Nat} (f : Pkg → Nat → Nat) (hf : ∀ (k : Pkg) t, t < 4 → (∀ o, ¬ isTileReg o → k.rg o = j.rg o) → OnlyRegs j k →
    k.rate t = j.rate t → f k t = v t) : ∀ (ts : List Nat), ts.Nodup → (∀ t ∈ ts, t < 4) →
    j.Rated ts v (ts.reverse.foldl (fun k t => k.put (F.PWR_TILE_STATE_RATE t) (f k t)) j)
  | [], _, _ => ⟨.refl j, fun _ _ => rfl, fun _ _ _ _ _ => rfl, fun _ h => absurd h List.not_mem_nil, fun _ _ => rfl⟩
  | t :: ts, hd, h4 => by
    rw [List.nodup_cons] at hd
    have ih := Pkg.rated_foldl f hf ts hd.2 fun u hu => h4 u (List.mem_cons_of_mem _ hu)
    rw [List.reverse_cons, List.foldl_append]
    simp only [List.foldl_cons, List.foldl_nil]
    have ht := h4 t (List.mem_cons_self ..)
    generalize ts.reverse.foldl (fun k t => k.put (F.PWR_TILE_STATE_RATE t) (f k t)) j = l at ih
    have hv : f l t = v t := hf l t ht ih.rg ih.onlyRegs (ih.other t hd.1)
    rw [hv]
    have hne (u : Nat) (hu : u ≠ t) : (l.put (F.PWR_TILE_STATE_RATE t) (v t)).rate u = l.rate u :=
      Pkg.get_put_reg_ne _ _ _ _ fun e => hu (tileReg_inj e)
    refine ⟨ih.onlyRegs.trans (.put ..), fun o ho => (Pkg.rg_put_ne _ _ _ fun e => ho ⟨t, ht, e⟩).trans (ih.rg o ho), fun u g hg h7 h32 => ?_,
      fun u hu => ?_, fun u hu => ?_⟩
    · refine Eq.trans ?_ (ih.get u g hg h7 h32)
      by_cases hut : u = t
      · subst hut; exact Pkg.get_put_disjoint _ _ _ _ h32 hg (.inr h7)
      · exact Pkg.get_put_reg_ne _ _ _ _ fun e => hut (tileReg_inj (hg.symm.trans e))
    · by_cases hut : u = t
      · subst hut; exact Pkg.get_put_same _ _ _ (Nat.le_of_ble_eq_true rfl)
      · exact (hne u hut).trans (ih.rate u ((List.mem_cons.1 hu).resolve_left hut))
    · rw [List.mem_cons, not_or] at hu
      exact (hne u hu.1).trans (ih.other u hu.2)

theorem Pkg.rate_lt (k : Pkg) (t : Nat) : k.rate t < 128 := Nat.mod_lt _ (Nat.two_pow_pos 7)

/-- Between two states of a package the rates settled: falls act at once, and RAMPING shows a rise. -/
structure Pkg.Settled (j k : Pkg) : Prop where
  onlyRegs : OnlyRegs j k
  rg : ∀ o, ¬ isTileReg o → o ≠ R.PWR_BRAKE → k.rg o = j.rg o
  tile : ∀ t g, t < 4 → g.off = R.PWR_TILE_STATE t → 7 ≤ g.lo → g.lo + g.width ≤ 32 → k.get g = j.get g
  brake : ∀ g, g.off = R.PWR_BRAKE → g.lo + g.width ≤ 17 → k.get g = j.get g
  rate : ∀ t, t < 4 → k.rate t = min (j.rate t) (j.rateLimit t)
theorem isTileReg_ne {o : Nat} (h : o < 0x40020 ∨ 0x40030 ≤ o) : ¬ isTileReg o := by
  rintro ⟨t, ht, rfl⟩
  unfold R.PWR_TILE_STATE at h
  omega
theorem Pkg.Settled.get (h : j.Settled k) {f : Fld} (hf : f.off < 0x40020 ∨ 0x40030 ≤ f.off) (hb : f.off ≠ R.PWR_BRAKE) : k.get f = j.get f := by
  rw [Pkg.get, h.rg _ (isTileReg_ne hf) hb]
  rfl
theorem Pkg.settleRates_settled (k : Pkg) : k.Settled k.settleRates := by
  have h : k.Rated [3, 2, 1, 0] (fun t => min (k.rate t) (k.rateLimit t))
      (tiles4.foldl (fun k t => k.put (F.PWR_TILE_STATE_RATE t) (min (k.rate t) (k.rateLimit t))) k) := by
    refine Pkg.rated_foldl (fun k t => min (k.rate t) (k.rateLimit t)) (fun l t _ hr ho hk => ?_) [3, 2, 1, 0] (by decide) (by decide)
    have hs : k.SameRateLimits l := Pkg.sameRateLimits_of (fun o ho => hr o (not_rateReg_tile ho)) (by rw [ho]) (by rw [ho])
    simp only [hk, hs.rateLimit]
  unfold Pkg.settleRates
  dsimp only
  generalize tiles4.foldl (fun k t => k.put (F.PWR_TILE_STATE_RATE t) (min (k.rate t) (k.rateLimit t))) k = l at h
  generalize (tiles4.any fun t => decide (l.rate t < l.rateLimit t)) = b
  have hb (t : Nat) (ht : t < 4) : R.PWR_TILE_STATE t ≠ R.PWR_BRAKE := by unfold R.PWR_TILE_STATE R.PWR_BRAKE; omega
  refine ⟨h.onlyRegs.trans (.put ..), fun o h1 h2 => (Pkg.rg_put_ne _ _ _ h2).trans (h.rg o h1), fun t g ht hg h7 h32 => ?_, fun g hg h17 => ?_,
    fun t ht => ?_⟩
  · exact (Pkg.get_put_reg_ne _ _ _ _ (by rw [hg]; exact hb t ht)).trans (h.get t g hg h7 h32)
  · refine (Pkg.get_flag_disjoint l F.PWR_BRAKE_RAMPING g b (h17.trans (by decide)) hg (.inl h17)).trans ?_
    rw [Pkg.get, h.rg _ (by rw [hg]; exact not_rateReg_tile (.inl rfl))]
    rfl
  · have hr : (l.flag F.PWR_BRAKE_RAMPING b).rate t = l.rate t := Pkg.get_put_reg_ne _ _ _ _ (hb t ht)
    rw [hr, h.rate t (by simp; omega)]
    have := k.rate_lt t
    exact Nat.mod_eq_of_lt (by omega)

end Sys2Proof.Machine
end

section
/-! PROOF. The package's caps, and the brake line of a rack (R221, R232, R233, R240, R243, R302, R310). -/
namespace Sys2Proof.Machine
open Sys2Proof

variable {s : State} {p : PkgId} {who : Requester} {w : Word}

/-! ### The caps of a package -/

theorem capOk_iff (n : Nat) : capOk n = true ↔ 150 ≤ n ∧ n ≤ 1150 ∧ n % 5 = 0 := by simp [capOk, and_assoc]
/-- A cap on its range and grid is taken. -/
theorem Pkg.capWrite_taken {f : Fld} (hf : f.width = 11 ∧ f.lo = 0) (ho : f.off ≠ R.PWR_CAP_STATUS) (k : Pkg) (h : capOk (w.toNat % 2048) = true) :
    (k.capWrite f w).get f = w.toNat % 2048 ∧ (k.capWrite f w).effective = (k.capWrite f w).capLimit.2 ∧
      (k.capWrite f w).get F.PWR_CAP_STATUS_LIMITER = (k.capWrite f w).capLimit.1 ∧
      (∀ l ∈ (k.capWrite f w).baseLimits, (k.capWrite f w).effective ≤ l.2) ∧
      ∀ o, o ≠ f.off → o ≠ R.PWR_CAP_STATUS → (k.capWrite f w).rg o = k.rg o := by
  have hk : k.capWrite f w = (k.put f w.toNat).recap := if_pos h
  obtain ⟨h1, h2, h3, h4⟩ := (k.put f w.toNat).recap_spec
  rw [hk, h3]
  refine ⟨?_, h1, h2, h4, fun o ha hb => (Pkg.rg_recap _ hb).trans (Pkg.rg_put_ne _ _ _ ha)⟩
  rw [Pkg.get_recap _ ho, Pkg.get_put_same _ _ _ (by omega), hf.1]
  rfl
/-- Another is rejected. -/
theorem Pkg.capWrite_rejected (f : Fld) (k : Pkg) (h : ¬ capOk (w.toNat % 2048) = true) :
    OnlyRegs k (k.capWrite f w) ∧ (k.capWrite f w).get F.PWR_CAP_STATUS_REJECT = 1 ∧ (k.capWrite f w).effective = k.effective ∧
      ∀ o, o ≠ R.PWR_CAP_STATUS → (k.capWrite f w).rg o = k.rg o := by
  have hk : k.capWrite f w = k.flag F.PWR_CAP_STATUS_REJECT true := if_neg h
  rw [hk]
  exact ⟨.put .., Pkg.get_flag_same _ _ _ (by decide) (by decide),
    Pkg.get_flag_disjoint _ F.PWR_CAP_STATUS_REJECT F.PWR_CAP_STATUS_EFFECTIVE _ (by decide) rfl (by decide), fun o ho => Pkg.rg_put_ne _ _ _ ho⟩
theorem Pkg.capWrite_pkgDark (f : Fld) (w : Word) (k : Pkg) : (k.capWrite f w).pkgDark = k.pkgDark := by
  unfold Pkg.capWrite
  split
  · exact (Pkg.recap_chartKept _).pkgDark
  · rfl

def ladderCapDesc : RegDesc := ⟨"PWR_LADDER_CAP", 0x40000, 1, 0x0, 1, 0x0, 0x96, 0x7ff, 0x0, 0x0, 0x0, 0, 1⟩
def hostCapDesc : RegDesc := ⟨"PWR_HOST_CAP", 0x40004, 1, 0x0, 1, 0x0, 0x47e, 0x7ff, 0x0, 0x0, 0x0, 0, 1⟩
theorem busWrite_PWR_HOST_CAP (x : Bus) (w : Word) (m : Mem) (k : Pkg) :
    busWrite x hostCapDesc R.PWR_HOST_CAP w m k = (m, k.capWrite F.PWR_HOST_CAP_CAP w) := by
  have hi : k.ignores x hostCapDesc R.PWR_HOST_CAP w.toNat = false := rfl
  have hr : k.rejects hostCapDesc.base w.toNat = false := rfl
  unfold busWrite
  dsimp only
  rw [hi, hr]
  rfl
theorem busWrite_PWR_LADDER_CAP {x : Bus} (hx : x.who = .cw) (w : Word) (m : Mem) (k : Pkg) :
    busWrite x ladderCapDesc R.PWR_LADDER_CAP w m k = (m, k.capWrite F.PWR_LADDER_CAP_CAP w) := by
  have hi : k.ignores x ladderCapDesc R.PWR_LADDER_CAP w.toNat = !decide (x.who = .cw) := rfl
  have hr : k.rejects ladderCapDesc.base w.toNat = false := rfl
  unfold busWrite
  dsimp only
  rw [hi, hr, hx]
  rfl
theorem busWrite_PWR_LADDER_CAP_ignored {x : Bus} (hx : x.who ≠ .cw) (w : Word) (m : Mem) (k : Pkg) :
    busWrite x ladderCapDesc R.PWR_LADDER_CAP w m k = (m, k) := by
  have hi : k.ignores x ladderCapDesc R.PWR_LADDER_CAP w.toNat = !decide (x.who = .cw) := rfl
  unfold busWrite
  dsimp only
  rw [hi, decide_eq_false hx]
  rfl
theorem exec_pwrHostCapWrite (ho : Open s p who R.PWR_HOST_CAP) :
    exec (.pwrHostCapWrite p who w) s = .next (s.wrote p who R.PWR_HOST_CAP s.mem ((s.pkg p).capWrite F.PWR_HOST_CAP_CAP w)) :=
  busAccess_writes (i := .pwrHostCapWrite p who w) (d := hostCapDesc) rfl ho findReg_PWR_HOST_CAP (by decide) (by decide)
    (busWrite_PWR_HOST_CAP ..) (Pkg.capWrite_pkgDark ..)
theorem exec_pwrLadderCapWrite (ho : Open s p .cw R.PWR_LADDER_CAP) :
    exec (.pwrLadderCapWrite p .cw w) s = .next (s.wrote p .cw R.PWR_LADDER_CAP s.mem ((s.pkg p).capWrite F.PWR_LADDER_CAP_CAP w)) :=
  busAccess_writes (i := .pwrLadderCapWrite p .cw w) (d := ladderCapDesc) rfl ho findReg_PWR_LADDER_CAP (by decide) (by decide)
    (busWrite_PWR_LADDER_CAP rfl ..) (Pkg.capWrite_pkgDark ..)
theorem exec_pwrLadderCapWrite_ignored (ho : Open s p who R.PWR_LADDER_CAP) (hw : who ≠ .cw) :
    exec (.pwrLadderCapWrite p who w) s = .next (s.wrote p who R.PWR_LADDER_CAP s.mem (s.pkg p)) :=
  busAccess_writes (i := .pwrLadderCapWrite p who w) (d := ladderCapDesc) rfl ho findReg_PWR_LADDER_CAP (by decide) (by decide)
    (busWrite_PWR_LADDER_CAP_ignored hw ..) rfl

/-! ### The brake line of a rack -/

/-- What a drive of the line tells and leaves. -/
def RackSt.Driven (now : Nat) (b : Bool) (x y : RackSt) : Prop :=
  y.out = x.out ++ (if y.brake == x.brake then [] else [Msg.line "BRAKE" y.brake]) ∧ (b = true → x.brake = false → y.brakeAt = now) ∧
    y.feedA = x.feedA ∧ y.feedB = x.feedB ∧ y.caps = x.caps
/-- A drive that changes who holds the line, and at most the end of a test. -/
theorem RackSt.drive_spec (now : Nat) (x : RackSt) (shelf test : Bool) (until_ : Nat) (b : Bool) (hb : b = true → (shelf || test) = true) :
    (x.drive now fun y => { y with brakeShelf := shelf, brakeTest := test, testUntil := until_ }).brakeShelf = shelf ∧
    (x.drive now fun y => { y with brakeShelf := shelf, brakeTest := test, testUntil := until_ }).brakeTest = test ∧
    (x.drive now fun y => { y with brakeShelf := shelf, brakeTest := test, testUntil := until_ }).testUntil = until_ ∧
    x.Driven now b (x.drive now fun y => { y with brakeShelf := shelf, brakeTest := test, testUntil := until_ }) := by
  have hy : (x.drive now fun y => { y with brakeShelf := shelf, brakeTest := test, testUntil := until_ }).brake = (shelf || test) := by
    unfold RackSt.drive
    dsimp only
    split <;> rfl
  unfold RackSt.Driven
  rw [hy]
  unfold RackSt.drive
  dsimp only
  have he : ({ x with brakeShelf := shelf, brakeTest := test, testUntil := until_ } : RackSt).brake = (shelf || test) := rfl
  rw [he]
  cases hs : (shelf || test) == x.brake
  · refine ⟨rfl, rfl, rfl, rfl, fun hbt _ => ?_, rfl, rfl, rfl⟩
    exact if_pos (hb hbt)
  · refine ⟨rfl, rfl, rfl, by simp, fun hbt hx => ?_, rfl, rfl, rfl⟩
    rw [hx, hb hbt] at hs
    cases hs

theorem exec_almanacBrakeRelease_noHelm {rack : Fin 32} (hn : s.noHelm rack) : exec (.almanacBrakeRelease rack) s = .next s := by
  change execAlmanacBrakeRelease rack s = _
  unfold execAlmanacBrakeRelease
  cases hh : s.helm rack with
  | none => rfl
  | some a => exact if_neg (by simp [hn a hh])
/-- The helm keeps the line while a package has not acknowledged, the caps exceed a single feed, or 10 ms have not passed. -/
theorem exec_almanacBrakeRelease_waits {rack : Fin 32} {a : AlmId} (ha : s.helm rack = some a)
    (hw : (∃ e ∈ (s.rack rack).caps, (s.rack rack).acked.contains e.1 = false) ∨ (s.rack rack).single < (s.rack rack).effCap (s.alm a).log.siteCapW ∨
      s.now < max (s.rack rack).brakeAt (s.alm a).brakeFrom + 10000000) : exec (.almanacBrakeRelease rack) s = .next s := by
  change execAlmanacBrakeRelease rack s = _
  unfold execAlmanacBrakeRelease
  rw [ha]
  refine if_neg fun h => ?_
  simp only [Bool.and_eq_true, decide_eq_true_eq, List.all_eq_true] at h
  obtain ⟨⟨⟨-, h1⟩, h2⟩, h3⟩ := h
  rcases hw with ⟨e, he, hf⟩ | hw | hw
  · rw [h2 e he] at hf; cases hf
  · omega
  · omega
theorem exec_almanacBrakeRelease {rack : Fin 32} {a : AlmId} (ha : s.helmActs rack a)
    (hacked : ∀ e ∈ (s.rack rack).caps, (s.rack rack).acked.contains e.1 = true) (hcap : (s.rack rack).effCap (s.alm a).log.siteCapW ≤ (s.rack rack).single)
    (hat : max (s.rack rack).brakeAt (s.alm a).brakeFrom + 10000000 ≤ s.now) : exec (.almanacBrakeRelease rack) s =
      .next ((s.logs rack fun l => { l with actions := l.actions ++ [(0, l.epoch, .brakeRelease)] }).setRack rack
        ((s.rack rack).drive s.now fun y => { y with brakeShelf := false })) := by
  change execAlmanacBrakeRelease rack s = _
  unfold execAlmanacBrakeRelease
  rw [ha.1]
  refine if_pos ?_
  simp only [Bool.and_eq_true, decide_eq_true_eq, List.all_eq_true]
  exact ⟨⟨⟨ha.2, hcap⟩, hacked⟩, hat⟩

/-- Settles O36: writes of caps by `Pkg.capWrite`, the brake line by `RackSt.drive`. -/
theorem packageCapsAndBrake : Obligations.PackageCapsAndBrake := by
  unfold Obligations.PackageCapsAndBrake
  refine ⟨fun s p who w => ?_, fun s rack => ?_⟩
  · have hg : capOk (w.toNat % 2048) = true ↔ 150 ≤ w.toNat % 2048 ∧ w.toNat % 2048 ≤ 1150 ∧ w.toNat % 2048 % 5 = 0 := capOk_iff _
    dsimp only
    simp only [← hg]
    refine ⟨fun ho => ⟨exec_pwrLadderCapWrite_ignored ho, fun hw h => ?_, fun hw h => ?_⟩, fun ho => ⟨fun h => ?_, fun h => ?_⟩⟩
    · subst hw
      exact ⟨_, exec_pwrLadderCapWrite ho, Pkg.capWrite_taken ⟨rfl, rfl⟩ (by decide) _ h⟩
    · subst hw
      exact ⟨_, exec_pwrLadderCapWrite ho, Pkg.capWrite_rejected _ _ h⟩
    · exact ⟨_, exec_pwrHostCapWrite ho, Pkg.capWrite_taken ⟨rfl, rfl⟩ (by decide) _ h⟩
    · exact ⟨_, exec_pwrHostCapWrite ho, Pkg.capWrite_rejected _ _ h⟩
  · dsimp only
    have hd (shelf test : Bool) (until_ : Nat) := (s.rack rack).drive_spec s.now shelf test until_
    refine ⟨fun mv hv => ?_, fun mv hv => ?_, fun mv hv => ?_, fun mv ha hb hv => ?_, fun hn => ?_, fun a ha hw => ?_, fun a ha hacked hcap hat => ?_,
      fun ms hn => ?_, fun h ms hh hms => ?_, fun h ms hh h1 h2 => ?_, fun ht hu => ?_, fun ht => ?_⟩
    · exact congrArg (fun y => Host.Outcome.next (s.setRack rack y)) (if_neg (by omega))
    · refine ⟨_, congrArg (fun y => Host.Outcome.next (s.setRack rack y)) (if_pos hv), ?_⟩
      obtain ⟨h1, -, -, hl⟩ := hd true (s.rack rack).brakeTest (s.rack rack).testUntil true fun _ => rfl
      exact ⟨h1, hl⟩
    · refine congrArg (fun y => Host.Outcome.next (s.setRack rack y)) ?_
      refine if_neg ?_
      rcases hv with h | h | h <;> simp [h]
    · refine ⟨_, congrArg (fun y => Host.Outcome.next (s.setRack rack y)) (if_pos (by simp [ha, hb, hv])), ?_⟩
      obtain ⟨h1, h2, -, hl⟩ := hd false (s.rack rack).brakeTest (s.rack rack).testUntil false fun h => absurd h Bool.false_ne_true
      exact ⟨h1, h2, hl⟩
    · exact exec_almanacBrakeRelease_noHelm hn
    · exact exec_almanacBrakeRelease_waits ha (hw)
    · obtain ⟨h1, h2, -, hl⟩ := hd false (s.rack rack).brakeTest (s.rack rack).testUntil false fun h => absurd h Bool.false_ne_true
      refine ⟨_, exec_almanacBrakeRelease ha (hacked) (hcap) (hat), ?_⟩
      rw [State.rack_setRack_same]
      exact ⟨h1, h2, hl⟩
    · exact congrArg Host.Outcome.next (State.operator_retry (at_ := ⟨rack, false⟩) _ hn)
    · exact congrArg Host.Outcome.next ((State.operator_helm (at_ := ⟨rack, false⟩) _ hh).trans (if_pos hms))
    · refine ⟨_, congrArg Host.Outcome.next ((State.operator_helm (at_ := ⟨rack, false⟩) _ hh).trans (if_neg (by omega))), ?_⟩
      obtain ⟨g1, g2, g3, hl⟩ := hd (s.rack rack).brakeShelf true (s.now + ms * 10 ^ 6) true fun _ => Bool.or_true _
      rw [(State.http_logged ..).rackSame, State.rack_setRack_same, State.logs_rack]
      refine ⟨?_, g2, g3, hl⟩
      exact (congrArg₂ (· || ·) g1 g2).trans (Bool.or_true _)
    · refine ⟨_, congrArg (fun y => Host.Outcome.next (s.setRack rack y)) (if_pos (by simp [ht, hu])), ?_⟩
      obtain ⟨h1, h2, -, hl⟩ := hd (s.rack rack).brakeShelf false (s.rack rack).testUntil false fun h => absurd h Bool.false_ne_true
      exact ⟨h2, h1, hl⟩
    · refine congrArg (fun y => Host.Outcome.next (s.setRack rack y)) ?_
      refine if_neg ?_
      rcases ht with h | h <;> simp [h]

end Sys2Proof.Machine
end

section
/-! PROOF. What alarms change, folds that treat one element of many, droop and guard bands (R239, R246, R247, R379). -/
namespace Sys2Proof.Machine
open Sys2Proof

variable {j k : Pkg} {s : State} {p : PkgId}

/-! ### Alarms -/

theorem Pkg.alarm_onlyRegs (b : Nat) (live : Bool) (k : Pkg) : OnlyRegs k (k.alarm b live) := by
  unfold Pkg.alarm
  split_ifs
  · exact .refl k
  · exact (OnlyRegs.put ..).trans (.put ..)
  · exact .put ..
theorem Pkg.rg_alarm {o : Nat} (h : o ≠ R.THR_ALARM) (b : Nat) (live : Bool) (k : Pkg) : (k.alarm b live).rg o = k.rg o := by
  unfold Pkg.alarm
  split_ifs
  · rfl
  · exact (Pkg.rg_put_ne _ _ _ h).trans (Pkg.rg_put_ne _ _ _ h)
  · exact Pkg.rg_put_ne _ _ _ h
theorem Pkg.get_alarm {f : Fld} (h : f.off ≠ R.THR_ALARM) (b : Nat) (live : Bool) (k : Pkg) : (k.alarm b live).get f = k.get f :=
  Pkg.get_of_rg (Pkg.rg_alarm h b live k)
theorem Pkg.alarmLive_alarm {b : Nat} (hb : b < 5) (live : Bool) (k : Pkg) (c : Nat) :
    (k.alarm b live).alarmLive c = if c = b then live else k.alarmLive c := by
  unfold Pkg.alarm
  have hbit (x : Nat) : bit (x % 2 ^ 5) c = (decide (c < 5) && bit x c) := Nat.testBit_mod_two_pow ..
  have hlt : bit (k.get F.THR_ALARM_LIVE) c = (decide (c < 5) && bit (k.get F.THR_ALARM_LIVE) c) := by
    rw [Pkg.get, bit, testBit_bits, ← Bool.and_assoc]
    exact (congrArg (· && _) (Bool.and_self _)).symm
  cases live
  · rw [if_neg Bool.false_ne_true, Pkg.alarmLive, Pkg.clearBits, Pkg.get_put_same _ _ _ (by decide), show F.THR_ALARM_LIVE.width = 5 from rfl, hbit, bit,
      Nat.testBit_and, Nat.testBit_xor, Nat.testBit_two_pow_sub_one, Nat.testBit_two_pow]
    by_cases hc : c = b
    · subst hc; simp [hb]
    · rw [if_neg hc, Pkg.alarmLive, hlt, bit]
      simp [Ne.symm hc, Bool.and_comm]
  · rw [if_pos rfl]
    by_cases hl : k.alarmLive b = true
    · rw [if_pos hl]
      by_cases hc : c = b
      · rw [if_pos hc, hc, hl]
      · rw [if_neg hc]
    · rw [if_neg hl, Pkg.alarmLive, Pkg.orBits, Pkg.get_put_disjoint _ F.THR_ALARM_SEEN F.THR_ALARM_LIVE _ (by decide) rfl (by decide), Pkg.orBits,
        Pkg.get_put_same _ _ _ (by decide), show F.THR_ALARM_LIVE.width = 5 from rfl, hbit, bit_or, bit, bit, Nat.testBit_two_pow]
      by_cases hc : c = b
      · subst hc; simp [hb]
      · rw [if_neg hc, Pkg.alarmLive, hlt, bit]
        simp [Ne.symm hc]
theorem Pkg.alarmLive_alarm_same {b : Nat} (hb : b < 5) (live : Bool) (k : Pkg) : (k.alarm b live).alarmLive b = live :=
  (Pkg.alarmLive_alarm hb live k b).trans (if_pos rfl)
theorem Pkg.alarmLive_alarm_ne {b c : Nat} (hb : b < 5) (h : c ≠ b) (live : Bool) (k : Pkg) : (k.alarm b live).alarmLive c = k.alarmLive c :=
  (Pkg.alarmLive_alarm hb live k c).trans (if_neg h)

/-! ### A fold of which an observation sees one element only -/

/-- Where every element but `b` leaves an observation, it sees of a fold over distinct elements the step of `b` alone, from a state that reads as the
first one and keeps what every step keeps. -/
theorem foldl_observed_on {α β γ : Type} (f : α → β → α) (obs : α → γ) (Q : α → Prop) (P : β → Prop) {b : β} (hQ : ∀ a c, P c → Q a → Q (f a c))
    (hne : ∀ a c, P c → c ≠ b → Q a → obs (f a c) = obs a) : ∀ (l : List β), (∀ c ∈ l, P c) → l.Nodup → b ∈ l → ∀ a, Q a →
    ∃ a', Q a' ∧ obs a' = obs a ∧ obs (l.foldl f a) = obs (f a' b)
  | [], _, _, hb, _, _ => absurd hb List.not_mem_nil
  | c :: l, hP, hd, hb, a, ha => by
    rw [List.nodup_cons] at hd
    have tail : ∀ (l : List β), (∀ c ∈ l, P c) → b ∉ l → ∀ a, Q a → obs (l.foldl f a) = obs a := by
      intro l
      induction l with
      | nil => exact fun _ _ _ _ => rfl
      | cons c l ih =>
        intro hP h a ha
        rw [List.mem_cons, not_or] at h
        have hc := hP c (List.mem_cons_self ..)
        exact (ih (fun c h => hP c (List.mem_cons_of_mem _ h)) h.2 _ (hQ a c hc ha)).trans (hne a c hc (Ne.symm h.1) ha)
    have hPl : ∀ c ∈ l, P c := fun c h => hP c (List.mem_cons_of_mem _ h)
    have hPc := hP c (List.mem_cons_self ..)
    by_cases hc : c = b
    · subst hc
      exact ⟨a, ha, rfl, tail l hPl hd.1 _ (hQ a c hPc ha)⟩
    · obtain ⟨a', h1, h2, h3⟩ := foldl_observed_on f obs Q P hQ hne l hPl hd.2 ((List.mem_cons.1 hb).resolve_left (Ne.symm hc)) (f a c) (hQ a c hPc ha)
      exact ⟨a', h1, h2.trans (hne a c hPc hc ha), h3⟩
theorem foldl_observed {α β γ : Type} (f : α → β → α) (obs : α → γ) (Q : α → Prop) {b : β} (hQ : ∀ a c, Q a → Q (f a c))
    (hne : ∀ a c, c ≠ b → Q a → obs (f a c) = obs a) (l : List β) (hd : l.Nodup) (hb : b ∈ l) (a : α) (ha : Q a) :
    ∃ a', Q a' ∧ obs a' = obs a ∧ obs (l.foldl f a) = obs (f a' b) :=
  foldl_observed_on f obs Q (fun _ => True) (fun a c _ => hQ a c) (fun a c _ => hne a c) l (fun _ _ => trivial) hd hb a ha

/-- What every step leaves, a fold leaves. -/
theorem foldl_kept {α β γ : Type} (f : α → β → α) (obs : α → γ) (h : ∀ a c, obs (f a c) = obs a) : ∀ (l : List β) (a : α), obs (l.foldl f a) = obs a
  | [], _ => rfl
  | c :: l, a => (foldl_kept f obs h l (f a c)).trans (h a c)

/-! ### Guard bands -/

theorem Pkg.get_setPwr (f : PwrSt → PwrSt) (k : Pkg) (g : Fld) : (k.setPwr f).get g = k.get g := Pkg.get_of_regs (j := k.setPwr f) rfl g
theorem Pkg.rg_setPwr (f : PwrSt → PwrSt) (k : Pkg) (o : Nat) : (k.setPwr f).rg o = k.rg o := rfl
/-- What is kept of one guard band. -/
def Pkg.guardView (n : Nat) (k : Pkg) : Nat × Nat × Option (Nat × Nat) :=
  (k.get (guardFld n), k.get (F.PWR_GUARD_MARGIN_MV n), sfind k.pwr.guardAt n)
theorem guardReg_inj {a b : Nat} (h : R.PWR_GUARD a = R.PWR_GUARD b) : a = b := by unfold R.PWR_GUARD at h; omega
/-- A move puts a guard band within 15–60 mV, and notes where it started from. -/
theorem Pkg.moveGuard_eq (now n : Nat) (d : Int) (k : Pkg) : ∃ (x : Int) (e : Nat × Nat), k.moveGuard now n d =
    (k.put (guardFld n) (max 15 (min 60 x)).toNat).setPwr (fun y => { y with guardAt := sinsert y.guardAt n e }) ∧
      ((∀ e, sfind k.pwr.guardAt n = some e → e.1 ≠ now) → x = (k.get (guardFld n) : Int) + d) := by
  refine ⟨_, _, rfl, fun he => ?_⟩
  cases hf : sfind k.pwr.guardAt n with
  | none => simp
  | some e => simp [he e hf]
theorem Pkg.rg_moveGuard {o n : Nat} (h : o ≠ R.PWR_GUARD n) (now : Nat) (d : Int) (k : Pkg) : (k.moveGuard now n d).rg o = k.rg o := by
  obtain ⟨x, e, hx, -⟩ := k.moveGuard_eq now n d
  rw [hx, Pkg.rg_setPwr]
  exact Pkg.rg_put_ne k (guardFld n) _ h
/-- A guard band moves within 15–60 mV. -/
theorem Pkg.moveGuard_same (now n : Nat) (d : Int) (k : Pkg) : 15 ≤ (k.moveGuard now n d).get (guardFld n) ∧ (k.moveGuard now n d).get (guardFld n) ≤ 60 ∧
    (k.moveGuard now n d).get (F.PWR_GUARD_MARGIN_MV n) = k.get (F.PWR_GUARD_MARGIN_MV n) ∧
    ((∀ e, sfind k.pwr.guardAt n = some e → e.1 ≠ now) → ((k.moveGuard now n d).get (guardFld n) : Int) = max 15 (min 60 ((k.get (guardFld n) : Int) + d))) := by
  obtain ⟨x, e, hx, he⟩ := k.moveGuard_eq now n d
  rw [hx, Pkg.get_setPwr, Pkg.get_setPwr, Pkg.get_put_same _ _ _ (Nat.le_of_ble_eq_true rfl), show (guardFld n).width = 6 from rfl]
  refine ⟨by omega, by omega, ?_, fun h => ?_⟩
  · exact Pkg.get_put_disjoint k (guardFld n) _ _ (Nat.le_of_ble_eq_true rfl) rfl (.inr (Nat.le_of_ble_eq_true rfl))
  · rw [← he h]
    omega
theorem Pkg.guardView_moveGuard_ne (now : Nat) {m n : Nat} (h : m ≠ n) (d : Int) (k : Pkg) : (k.moveGuard now m d).guardView n = k.guardView n := by
  have hn : R.PWR_GUARD n ≠ R.PWR_GUARD m := fun e => h (guardReg_inj e).symm
  have hr := k.rg_moveGuard hn now d
  refine Prod.ext (Pkg.get_of_rg hr) (Prod.ext (Pkg.get_of_rg hr) ?_)
  obtain ⟨x, e, hx, -⟩ := k.moveGuard_eq now m d
  rw [Pkg.guardView, hx]
  exact sfind_sinsert_ne (Ne.symm h) ..

/-- One guard band at an evaluation. -/
def Pkg.evalGuard (now : Nat) (margins : List Nat) (k : Pkg) (n : Nat) : Pkg :=
  (k.put (F.PWR_GUARD_MARGIN_MV n) (min 255 (margins.getD n 0))).moveGuard now n (guardChange (margins.getD n 0))
theorem Pkg.rg_evalGuard {o n : Nat} (h : o ≠ R.PWR_GUARD n) (now : Nat) (margins : List Nat) (k : Pkg) : (k.evalGuard now margins n).rg o = k.rg o :=
  (Pkg.rg_moveGuard h ..).trans (Pkg.rg_put_ne k (F.PWR_GUARD_MARGIN_MV n) _ h)
theorem Pkg.guardView_evalGuard_ne (now : Nat) (margins : List Nat) {m n : Nat} (h : m ≠ n) (k : Pkg) : (k.evalGuard now margins m).guardView n = k.guardView n := by
  have hn : R.PWR_GUARD n ≠ R.PWR_GUARD m := fun e => h (guardReg_inj e).symm
  have hr := Pkg.rg_put_ne k (F.PWR_GUARD_MARGIN_MV m) (min 255 (margins.getD m 0)) hn
  exact (Pkg.guardView_moveGuard_ne now h _ _).trans (Prod.ext (Pkg.get_of_rg hr) (Prod.ext (Pkg.get_of_rg hr) rfl))
theorem Pkg.rg_evalGuards {now : Nat} {margins : List Nat} : ∀ (l : List Nat), (∀ n ∈ l, n < 8) → ∀ k : Pkg,
    (l.foldl (Pkg.evalGuard now margins) k).rg R.PWR_AGE_HOURS = k.rg R.PWR_AGE_HOURS
  | [], _, _ => rfl
  | n :: l, hl, k => by
    refine (Pkg.rg_evalGuards l (fun m hm => hl m (List.mem_cons_of_mem _ hm)) _).trans (Pkg.rg_evalGuard ?_ ..)
    have := hl n (List.mem_cons_self ..)
    unfold R.PWR_AGE_HOURS R.PWR_GUARD
    omega
/-- What an evaluation leaves of one guard band. -/
theorem Pkg.evalGuard_same (now : Nat) (margins : List Nat) (n : Nat) (k : Pkg) :
    15 ≤ (k.evalGuard now margins n).get (guardFld n) ∧ (k.evalGuard now margins n).get (guardFld n) ≤ 60 ∧
    (k.evalGuard now margins n).get (F.PWR_GUARD_MARGIN_MV n) = min 255 (margins.getD n 0) ∧
    ((∀ e, sfind k.pwr.guardAt n = some e → e.1 ≠ now) → ((k.evalGuard now margins n).get (guardFld n) : Int) =
      max 15 (min 60 ((k.get (guardFld n) : Int) + guardChange (margins.getD n 0)))) := by
  obtain ⟨h1, h2, h3, h4⟩ := (k.put (F.PWR_GUARD_MARGIN_MV n) (min 255 (margins.getD n 0))).moveGuard_same now n (guardChange (margins.getD n 0))
  refine ⟨h1, h2, h3.trans ?_, fun he => (h4 he).trans ?_⟩
  · rw [Pkg.get_put_same _ _ _ (Nat.le_of_ble_eq_true rfl)]
    exact Nat.mod_eq_of_lt (Nat.lt_succ_of_le (min_le_left ..))
  · rw [Pkg.get_put_disjoint k (F.PWR_GUARD_MARGIN_MV n) (guardFld n) _ (Nat.le_of_ble_eq_true rfl) rfl (.inl (Nat.le_of_ble_eq_true rfl))]

/-- A step of one package, by what it makes of it. -/
theorem onPkg_next {f : Pkg → Pkg} (h : f (s.pkg p) = k) : onPkg p s f = .next (s.setPkg p k) := congrArg (fun y => Host.Outcome.next (s.setPkg p y)) h

theorem exec_poweredHour (margins : List Nat) : exec (.poweredHour p margins) s = onPkg p s fun k =>
    if (k.count F.PWR_AGE_HOURS_HOURS 1).get F.PWR_AGE_HOURS_HOURS % 1000 ≠ 0 then k.count F.PWR_AGE_HOURS_HOURS 1
    else (List.range 8).foldl (Pkg.evalGuard s.now margins) (k.count F.PWR_AGE_HOURS_HOURS 1) := rfl

/-- Settles O38: droops, guard bands and the sea trial's end, each from its own step. -/
theorem droopAndAgeing : Obligations.DroopAndAgeing := by
  unfold Obligations.DroopAndAgeing
  intro s p
  dsimp only
  generalize hk : s.pkg p = k
  refine ⟨fun t mv h => onPkg_next ?_, fun t mv h1 h2 => ⟨(k.count F.PWR_EVENTS_DROOPS 1).setPwr fun x => { x with skipping := x.skipping ++ [t.val] },
    onPkg_next ?_, rfl, ?_, fun o ho => Pkg.rg_put_ne _ _ _ ho⟩, fun t => onPkg_next (by rw [hk]; rfl), fun margins => ⟨fun h => ?_, fun h => ?_⟩,
    fun n mv h => onPkg_next ?_, fun n mv h he => ⟨k.moveGuard s.now n.val 5, onPkg_next ?_, ?_⟩,
    fun h1 h2 h3 => ⟨(k.flag F.THR_SEA_TRIAL_ACTIVE false).recap.settleRates, onPkg_next ?_, ?_⟩, fun h => onPkg_next ?_⟩
  · rw [hk]
    refine if_neg ?_
    rcases h with h | h
    · omega
    · rw [h]; simp
  · rw [hk]
    exact if_pos ⟨h1, by rw [h2]; rfl⟩
  · exact (Pkg.get_setPwr ..).trans (Pkg.get_count_same k _ 1 (by decide))
  · have hc := Pkg.get_count_same k F.PWR_AGE_HOURS_HOURS 1 (by decide)
    refine ⟨_, (exec_poweredHour margins).trans (onPkg_next ?_), OnlyRegs.put k F.PWR_AGE_HOURS_HOURS _, hc, fun o ho => Pkg.rg_put_ne _ _ _ ho⟩
    rw [hk]
    exact if_pos (by rw [hc]; exact h)
  · have hc := Pkg.get_count_same k F.PWR_AGE_HOURS_HOURS 1 (by decide)
    refine ⟨(List.range 8).foldl (Pkg.evalGuard s.now margins) (k.count F.PWR_AGE_HOURS_HOURS 1),
      (exec_poweredHour margins).trans (onPkg_next ?_), ?_, fun n hn => ?_⟩
    · rw [hk]
      exact if_neg (by rw [hc]; exact not_not.2 h)
    · exact (Pkg.get_of_rg (Pkg.rg_evalGuards _ (fun n hn => List.mem_range.1 hn) _)).trans hc
    · obtain ⟨k', -, h1, h2⟩ := foldl_observed (Pkg.evalGuard s.now margins) (Pkg.guardView n) (fun _ => True) (b := n) (fun _ _ _ => trivial)
        (fun k m hm _ => Pkg.guardView_evalGuard_ne s.now margins hm k) (List.range 8) List.nodup_range (List.mem_range.2 hn)
        (k.count F.PWR_AGE_HOURS_HOURS 1) trivial
      obtain ⟨g1, g2, g3, g4⟩ := k'.evalGuard_same s.now margins n
      simp only [Pkg.guardView, Prod.mk.injEq] at h1 h2
      have hg : (k.count F.PWR_AGE_HOURS_HOURS 1).get (guardFld n) = k.get (guardFld n) :=
        Pkg.get_put_reg_ne _ _ _ _ (by unfold guardFld F.PWR_GUARD_GUARD_MV R.PWR_GUARD F.PWR_AGE_HOURS_HOURS R.PWR_AGE_HOURS; dsimp only; omega)
      rw [h2.1, h2.2.1]
      refine ⟨g1, g2, g3, fun he => ?_⟩
      rw [g4 (by rw [h1.2.2]; exact he), h1.1, hg, guardChange]
      split_ifs <;> simp [sub_eq_add_neg]
  · rw [hk]
    exact if_neg (by omega)
  · rw [hk]
    exact if_pos h
  · have := (k.moveGuard_same s.now n.val 5).2.2.2 he
    omega
  · rw [hk]
    exact if_pos ⟨h1, h2, h3⟩
  · have hs := (k.flag F.THR_SEA_TRIAL_ACTIVE false).recap.settleRates_settled
    have ha : (k.flag F.THR_SEA_TRIAL_ACTIVE false).get F.THR_SEA_TRIAL_ACTIVE = 0 := Pkg.get_flag_same _ _ _ (by decide) (by decide)
    have hl : k.SameLimits (k.flag F.THR_SEA_TRIAL_ACTIVE false) :=
      ⟨fun o ho => Pkg.rg_put_ne _ _ _ (fun e => by subst e; revert ho; decide), rfl, rfl⟩
    refine ⟨?_, ?_⟩
    · rw [hs.get (f := F.THR_SEA_TRIAL_ACTIVE) (by decide) (by decide), Pkg.get_recap _ (by decide), ha]
    · rw [Pkg.effective, hs.get (f := F.PWR_CAP_STATUS_EFFECTIVE) (by decide) (by decide), ← Pkg.effective, (Pkg.recap_spec _).1, Pkg.capLimit, hl.baseLimits, ha]
      rfl
  · rw [hk]
    exact if_neg (by tauto)

end Sys2Proof.Machine
end

section
/-! PROOF. Writes by the tray controller as they reach a package, coolant, the resistance estimate and the thermal cap (R79, R254–R259). -/
namespace Sys2Proof.Machine
open Sys2Proof

variable {j k : Pkg} {s : State} {p : PkgId} {who : Requester} {off v : Nat}

/-! ### A write by the tray controller -/

/-- A served access of one word brings what the register's write leaves. -/
theorem State.busRun_write {d : RegDesc} {w : Word} (dra : Bool) (hp : (s.pkg p).get F.UPD_STATUS_PAUSED = 0) (hd : findReg off = some d) (hl : off < 2 ^ 24)
    (ha : off % 4 = 0) : s.busRun p (writeOp who off w) dra = ([0], true,
      (busWrite ⟨s.now, p, who, dra, s.upIn p.rack, Config.freeWord s.free⟩ d off w s.mem (s.pkg p)).1,
      (busWrite ⟨s.now, p, who, dra, s.upIn p.rack, Config.freeWord s.free⟩ d off w s.mem (s.pkg p)).2) := by
  have hm : off % 2 ^ 24 = off := Nat.mod_eq_of_lt hl
  have hr : (s.pkg p).busRefuses off 4 = false := by
    unfold Pkg.busRefuses
    rw [hm, hd, hp]
    simp [ha]; omega
  simp only [State.busRun, writeOp, busWords, busOne, hr, hm, hd, Bool.false_eq_true, if_false]

/-- The state a write by the tray controller finds: its block is woken where the write would wait for it. -/
def State.wokenFor (s : State) (p : PkgId) (off v : Nat) : State :=
  if (s.pkg p).mustDefer (writeOp .cw off (BitVec.ofNat 32 v)) then s.setPkg p ((s.pkg p).wakeBlock off) else s
theorem State.wokenFor_pkg (s : State) (p : PkgId) (off v : Nat) :
    (s.wokenFor p off v).pkg p = s.pkg p ∨ (s.wokenFor p off v).pkg p = (s.pkg p).wakeBlock off := by
  unfold State.wokenFor
  split
  · exact .inr (State.pkg_setPkg_same ..)
  · exact .inl rfl
theorem State.wokenFor_rest (s : State) (p : PkgId) (off v : Nat) : s.PkgsOnly (s.wokenFor p off v) := .ite (.setPkg s ..) (.refl s)
theorem Pkg.rg_wakeBlock {o : Nat} (h : 0x10000 ≤ o) (ho : off < 0x60000 ∨ 0x80000 ≤ off ∧ off < 0x400000) (k : Pkg) : (k.wakeBlock off).rg o = k.rg o := by
  have hw : windowCore off = none := if_neg (by omega)
  have hd : ∀ d ∈ k.blockDomains off, d < 416 := by
    intro d hd
    unfold Pkg.blockDomains at hd
    rcases ho with ho | ⟨h1, h2⟩
    · rw [if_pos ho] at hd
      split_ifs at hd <;> simp at hd <;> omega
    · rw [if_neg (show ¬ off < 0x60000 by omega), if_neg (show ¬ off < 0x70000 by omega), if_neg (show ¬ off < 0x70200 by omega),
        if_neg (show ¬ off < 0x80000 by omega), if_pos h2] at hd
      split_ifs at hd <;> simp at hd <;> omega
  unfold Pkg.wakeBlock
  rw [hw]
  exact (Pkg.rg_put_ne _ _ _ (by unfold F.AON_WAKE_CAUSE_CAUSE R.AON_WAKE_CAUSE; dsimp only; omega)).trans (Pkg.rg_wakeDomains_central h _ hd k)
theorem State.rg_wokenFor {o : Nat} (h : 0x10000 ≤ o) (ho : off < 0x60000 ∨ 0x80000 ≤ off ∧ off < 0x400000) (s : State) (p : PkgId) (v : Nat) :
    ((s.wokenFor p off v).pkg p).rg o = (s.pkg p).rg o := by
  rcases s.wokenFor_pkg p off v with e | e
  · rw [e]
  · rw [e, Pkg.rg_wakeBlock h ho]
/-- What the tray controller's write of a register leaves of the package, where it does not make the package dark. -/
theorem State.cwWrite_pkg {d : RegDesc} {m : Mem} (hp : (s.pkg p).get F.UPD_STATUS_PAUSED = 0) (hd : findReg off = some d) (hl : off < 0x60000 ∨ 0x80000 ≤ off ∧ off < 0x400000)
    (ha : off % 4 = 0) (hw : busWrite ⟨s.now, p, .cw, true, (s.wokenFor p off v).upIn p.rack, Config.freeWord s.free⟩ d off (BitVec.ofNat 32 v) s.mem
      ((s.wokenFor p off v).pkg p) = (m, j)) (hk : j.pkgDark = ((s.wokenFor p off v).pkg p).pkgDark) : (s.cwWrite p off v).pkg p = j := by
  have hrest := s.wokenFor_rest p off v
  have hnow : (s.wokenFor p off v).now = s.now := hrest.now
  have hmem : (s.wokenFor p off v).mem = s.mem := by unfold State.wokenFor; split <;> rfl
  have hfree : (s.wokenFor p off v).free = s.free := by unfold State.wokenFor; split <;> rfl
  have hpw : ((s.wokenFor p off v).pkg p).get F.UPD_STATUS_PAUSED = 0 := (Pkg.get_of_rg (State.rg_wokenFor (by decide) hl s p v)).trans hp
  change ((s.wokenFor p off v).busPerform p (writeOp .cw off (BitVec.ofNat 32 v)) true).2.pkg p = j
  generalize s.wokenFor p off v = t at *
  rw [State.busPerform_eq, State.busRun_write true hpw hd (by omega) ha, hnow, hfree, hmem, hw]
  unfold State.busLeaves
  dsimp only
  rw [if_neg (by simp [hk])]
  exact State.pkg_setPkg_same ..

/-! ### Coolant -/

theorem Pkg.get_setThr (f : ThrSt → ThrSt) (k : Pkg) (g : Fld) : (k.setThr f).get g = k.get g := Pkg.get_of_regs (j := k.setThr f) rfl g
theorem Pkg.rg_setThr (f : ThrSt → ThrSt) (k : Pkg) (o : Nat) : (k.setThr f).rg o = k.rg o := rfl
theorem Pkg.alarm_thr (b : Nat) (live : Bool) (k : Pkg) : (k.alarm b live).thr = k.thr := by rw [k.alarm_onlyRegs b live]

theorem Pkg.coolantWrite_spec (now temp : Nat) (k : Pkg) {c : Nat} (hc : temp % 4096 = c) : (k.coolantWrite now temp).get F.THR_COOLANT_TEMP = c ∧
    (k.coolantWrite now temp).stale = false ∧ (k.coolantWrite now temp).coolant = c ∧ (k.coolantWrite now temp).alarmLive 1 = false ∧
    (k.coolantWrite now temp).thr.coolantAt = now := by
  have ht : (k.coolantWrite now temp).get F.THR_COOLANT_TEMP = c := by
    rw [Pkg.coolantWrite, Pkg.get_alarm (by decide), Pkg.get_setThr, Pkg.get_flag_disjoint _ F.THR_COOLANT_STALE F.THR_COOLANT_TEMP _ (by decide) rfl (by decide),
      Pkg.get_put_same _ _ _ (by decide)]
    exact hc
  have hs : (k.coolantWrite now temp).stale = false := by
    rw [Pkg.stale, Pkg.coolantWrite, Pkg.get_alarm (by decide), Pkg.get_setThr, Pkg.get_flag_same _ _ _ (by decide) (by decide)]
    rfl
  refine ⟨ht, hs, ?_, Pkg.alarmLive_alarm_same (by decide) .., ?_⟩
  · rw [Pkg.coolant, hs, ht]
    rfl
  · rw [Pkg.coolantWrite, Pkg.alarm_thr]
    rfl
theorem Pkg.rg_coolantWrite {o : Nat} (h : o ≠ R.THR_COOLANT) (ha : o ≠ R.THR_ALARM) (now temp : Nat) (k : Pkg) : (k.coolantWrite now temp).rg o = k.rg o := by
  rw [Pkg.coolantWrite, Pkg.rg_alarm ha, Pkg.rg_setThr]
  exact (Pkg.rg_put_ne _ _ _ h).trans (Pkg.rg_put_ne _ _ _ h)
theorem Pkg.coolantWrite_pkgDark (now temp : Nat) (k : Pkg) : (k.coolantWrite now temp).pkgDark = k.pkgDark := by
  rw [Pkg.coolantWrite, Pkg.alarm_onlyRegs]
  rfl

def coolantDesc : RegDesc := ⟨"THR_COOLANT", 0x50008, 1, 0x0, 1, 0x0, 0x8320, 0xfff, 0x0, 0x0, 0x0, 0, 1⟩
theorem busWrite_THR_COOLANT {x : Bus} (hx : x.who = .cw) (w : Word) (m : Mem) (k : Pkg) :
    busWrite x coolantDesc R.THR_COOLANT w m k = (m, k.coolantWrite x.now (bits w.toNat 0 12)) := by
  have hi : k.ignores x coolantDesc R.THR_COOLANT w.toNat = !decide (x.who = .cw) := rfl
  have hr : k.rejects coolantDesc.base w.toNat = false := rfl
  unfold busWrite
  dsimp only
  rw [hi, hr, hx]
  rfl
theorem busWrite_THR_COOLANT_ignored {x : Bus} (hx : x.who ≠ .cw) (w : Word) (m : Mem) (k : Pkg) :
    busWrite x coolantDesc R.THR_COOLANT w m k = (m, k) := by
  have hi : k.ignores x coolantDesc R.THR_COOLANT w.toNat = !decide (x.who = .cw) := rfl
  unfold busWrite
  dsimp only
  rw [hi, decide_eq_false hx]
  rfl
theorem exec_thrCoolantWrite {w : Word} (ho : Open s p .cw R.THR_COOLANT) :
    exec (.thrCoolantWrite p .cw w) s = .next (s.wrote p .cw R.THR_COOLANT s.mem ((s.pkg p).coolantWrite s.now (bits w.toNat 0 12))) :=
  busAccess_writes (i := .thrCoolantWrite p .cw w) (d := coolantDesc) rfl ho findReg_THR_COOLANT (by decide) (by decide)
    (busWrite_THR_COOLANT rfl ..) (Pkg.coolantWrite_pkgDark ..)
theorem exec_thrCoolantWrite_ignored {w : Word} (ho : Open s p who R.THR_COOLANT) (hw : who ≠ .cw) :
    exec (.thrCoolantWrite p who w) s = .next (s.wrote p who R.THR_COOLANT s.mem (s.pkg p)) :=
  busAccess_writes (i := .thrCoolantWrite p who w) (d := coolantDesc) rfl ho findReg_THR_COOLANT (by decide) (by decide)
    (busWrite_THR_COOLANT_ignored hw ..) rfl

/-! ### The resistance estimate -/

/-- A new estimate lies between the old one and the limits of a sample. -/
theorem newEst_between (r : Nat) (a b : Int) : min (r : Int) 150 ≤ newEst r a b ∧ newEst r a b ≤ max (r : Int) 1200 := by
  unfold newEst
  dsimp only
  have hs : 150 ≤ clampI 150 1200 (roundAway (r * a) b) ∧ clampI 150 1200 (roundAway (r * a) b) ≤ 1200 := by unfold clampI; omega
  generalize clampI 150 1200 (roundAway (r * a) b) = x at hs
  unfold roundAway
  simp only [show (8 : Int).natAbs = 8 from rfl]
  split_ifs with h <;> simp at h <;> omega
theorem Pkg.judgeResist_alarm (now : Nat) (k : Pkg) : ((k.get F.THR_RESIST_CFG_ALARM ≤ k.est ∨ k.thr.rawLow = true) → (k.judgeResist now).alarmLive 0 = true) ∧
    (k.est + 20 < k.get F.THR_RESIST_CFG_ALARM → k.thr.rawLow = false → (k.judgeResist now).alarmLive 0 = false) := by
  unfold Pkg.judgeResist
  dsimp only
  refine ⟨fun h => ?_, fun h hr => ?_⟩
  · rw [if_pos (by simpa using h)]
    exact Pkg.alarmLive_alarm_same (by decide) ..
  · rw [if_neg (by rw [hr]; simp; omega), if_pos h]
    exact Pkg.alarmLive_alarm_same (by decide) ..
theorem Pkg.recap_le_cap (k : Pkg) : k.recap.effective ≤ k.get F.THR_CAP_CAP := by
  rw [k.recap_spec.1]
  refine k.capLimit_spec.2.2 (2, k.get F.THR_CAP_CAP) ?_
  simp [Pkg.baseLimits]

/-- A natural step's sample, taken into the estimate. -/
def Pkg.sampled (now : Nat) (a b : Int) (k : Pkg) : Pkg :=
  (((((k.endProbe false).settleRates.put F.THR_RESIST_EST_EST (newEst k.est a b).toNat).flag F.THR_RESIST_EST_SEEDED false).count F.THR_EVENTS_STEPS 1).setThr
    fun x => { x with lastSample := now })
theorem Pkg.sampled_spec (now : Nat) (a b : Int) (k : Pkg) : ((k.sampled now a b).est : Int) = newEst k.est a b ∧
    (k.sampled now a b).get F.THR_RESIST_EST_SEEDED = 0 ∧ (k.sampled now a b).get F.THR_EVENTS_STEPS = min 255 (k.get F.THR_EVENTS_STEPS + 1) ∧
    (k.sampled now a b).thr.lastSample = now := by
  have he : k.est < 65536 := Nat.mod_lt _ (by decide)
  obtain ⟨h1, h2⟩ := newEst_between k.est a b
  unfold Pkg.sampled
  refine ⟨?_, ?_, ?_, rfl⟩
  · rw [Pkg.est, Pkg.get_setThr, Pkg.count, Pkg.get_put_reg_ne _ F.THR_EVENTS_STEPS _ _ (by decide),
      Pkg.get_flag_disjoint _ F.THR_RESIST_EST_SEEDED F.THR_RESIST_EST_EST _ (by decide) rfl (by decide), Pkg.get_put_same _ _ _ (by decide)]
    change (((newEst k.est a b).toNat % 65536 : ℕ) : ℤ) = _
    omega
  · rw [Pkg.get_setThr, Pkg.count, Pkg.get_put_reg_ne _ F.THR_EVENTS_STEPS _ _ (by decide), Pkg.get_flag_same _ _ _ (by decide) (by decide)]
    rfl
  · obtain ⟨x, hx, -⟩ := k.endProbe_eq false
    rw [Pkg.get_setThr, Pkg.get_count_same _ _ _ (by decide), Pkg.flag, Pkg.get_put_reg_ne _ F.THR_RESIST_EST_SEEDED _ _ (by decide),
      Pkg.get_put_reg_ne _ F.THR_RESIST_EST_EST _ _ (by decide), (k.endProbe false).settleRates_settled.get (f := F.THR_EVENTS_STEPS) (by decide) (by decide), hx]
    rfl

/-! ### Probe pulses -/

/-- A probe pulse begins. -/
def Pkg.probing (now : Nat) (k : Pkg) : Pkg := (k.count F.THR_EVENTS_PROBES 1).setThr fun x => { x with probeAt := some now }
/-- The limit a probe pulse puts on one tile. -/
def Pkg.limitProbe (v : BitVec 64) (k : Pkg) (t : Nat) : Pkg :=
  k.setThr fun x => { x with probeLimit := sset 64 x.probeLimit t (1 + bits v.toNat (6 * t) 6 % max 1 (k.rate t - 1)) }
theorem Pkg.limitProbe_same (v : BitVec 64) (k : Pkg) (t : Nat) :
    sget 64 (k.limitProbe v t).thr.probeLimit t = 1 + bits v.toNat (6 * t) 6 % max 1 (k.rate t - 1) := sget_sset_same ..
theorem Pkg.limitProbe_ne (v : BitVec 64) (k : Pkg) {t u : Nat} (h : u ≠ t) : sget 64 (k.limitProbe v u).thr.probeLimit t = sget 64 k.thr.probeLimit t :=
  sget_sset_ne _ _ _ _ h.symm
theorem Pkg.limitProbe_regs (v : BitVec 64) (k : Pkg) (t : Nat) : (k.limitProbe v t).regs = k.regs := rfl
/-- A pulse that lowers every RATE. -/
theorem Pkg.lowering_spec (v : BitVec 64) (k : Pkg) : (tiles4.foldl (Pkg.limitProbe v) k).regs = k.regs ∧
    (tiles4.foldl (Pkg.limitProbe v) k).thr.probeAt = k.thr.probeAt ∧
    ∀ t, t < 4 → sget 64 (tiles4.foldl (Pkg.limitProbe v) k).thr.probeLimit t ≤ max 1 (k.rate t - 1) := by
  refine ⟨foldl_kept (Pkg.limitProbe v) Pkg.regs (fun a c => a.limitProbe_regs v c) _ k,
    foldl_kept (Pkg.limitProbe v) (fun k => k.thr.probeAt) (fun _ _ => rfl) _ k, fun t ht => ?_⟩
  obtain ⟨a, ha, -, h⟩ : ∃ a : Pkg, a.regs = k.regs ∧ sget 64 a.thr.probeLimit t = sget 64 k.thr.probeLimit t ∧
      sget 64 (tiles4.foldl (Pkg.limitProbe v) k).thr.probeLimit t = sget 64 (a.limitProbe v t).thr.probeLimit t :=
    foldl_observed (Pkg.limitProbe v) (fun k => sget 64 k.thr.probeLimit t) (fun a => a.regs = k.regs) (b := t)
      (fun a c h => (a.limitProbe_regs v c).trans h) (fun a c hc _ => a.limitProbe_ne v hc) tiles4 (by decide) (by simp [tiles4]; omega) k rfl
  rw [h, a.limitProbe_same]
  have hr : a.rate t = k.rate t := Pkg.get_of_regs ha _
  rw [hr]
  have := Nat.mod_lt (bits v.toNat (6 * t) 6) (show 0 < max 1 (k.rate t - 1) by omega)
  omega

/-- Settles O41: coolant writes, the estimate's sample, the probe and the thermal cap, each from its own step. -/
theorem coolantAndResistance : Obligations.CoolantAndResistance := by
  unfold Obligations.CoolantAndResistance
  refine ⟨fun r a b h1 h2 => ?_, fun k now => k.judgeResist_alarm now, Pkg.recap_le_cap, fun s p => ?_⟩
  · have := newEst_between r a b
    omega
  dsimp only
  generalize hk : s.pkg p = k
  refine ⟨fun t pos temp h => ?_, fun t pos temp ht hr hp => ?_, fun who w ho => ⟨fun hw => ?_, fun hw => ?_⟩, fun h => ?_,
    fun h => ⟨(k.flag F.THR_COOLANT_STALE true).alarm 1 true, ?_, ?_⟩, fun a b quiet => ⟨fun h => ?_, fun hq hn hb => ?_⟩,
    fun duty draw => ⟨fun h => ?_, fun h => ?_⟩, fun h => ?_, fun h => ?_⟩
  · change execCoolantRead t pos temp s = _
    unfold execCoolantRead
    cases ht : TrayId.pkgAt t pos with
    | none => rfl
    | some q =>
      rcases h with h | h
      · rw [h] at ht; cases ht
      · exact congrArg Host.Outcome.next (if_neg (by rw [h]; exact Bool.false_ne_true))
  · have hw : (s.cwWrite p R.THR_COOLANT temp.toNat).pkg p =
        ((s.wokenFor p R.THR_COOLANT temp.toNat).pkg p).coolantWrite s.now (bits (BitVec.ofNat 32 temp.toNat).toNat 0 12) :=
      State.cwWrite_pkg (d := coolantDesc) (hk ▸ hp) findReg_THR_COOLANT (by decide) (by decide) (busWrite_THR_COOLANT rfl ..) (Pkg.coolantWrite_pkgDark ..)
    refine ⟨s.cwWrite p R.THR_COOLANT temp.toNat, ?_, ?_⟩
    · change execCoolantRead t pos temp s = _
      unfold execCoolantRead
      rw [ht]
      exact congrArg Host.Outcome.next (if_pos hr)
    · have hv : bits (BitVec.ofNat 32 temp.toNat).toNat 0 12 % 4096 = temp.toNat := by
        have := temp.isLt
        simp [bits]
        omega
      rw [hw]
      exact Pkg.coolantWrite_spec s.now _ _ hv
  · exact hk ▸ exec_thrCoolantWrite_ignored ho hw
  · subst hw
    have hv : bits w.toNat 0 12 % 4096 = w.toNat % 4096 := by simp [bits]
    refine ⟨_, exec_thrCoolantWrite ho, Pkg.coolantWrite_spec s.now _ (s.pkg p) hv, fun o h1 h2 => ?_⟩
    rw [Pkg.rg_coolantWrite h1 h2, hk]
  · change execCoolantStale p s = _
    refine onPkg_next ?_
    rw [hk]
    exact if_neg (by omega)
  · change execCoolantStale p s = _
    refine onPkg_next ?_
    rw [hk]
    exact if_pos h
  · have hs : ((k.flag F.THR_COOLANT_STALE true).alarm 1 true).stale = true := by
      rw [Pkg.stale, Pkg.get_alarm (by decide), Pkg.get_flag_same _ _ _ (by decide) (by decide)]
      rfl
    refine ⟨(OnlyRegs.put k F.THR_COOLANT_STALE _).trans (Pkg.alarm_onlyRegs ..), hs, ?_, Pkg.alarmLive_alarm_same (by decide) .., ?_⟩
    · rw [Pkg.coolant, if_pos hs]
    · rw [Pkg.get_alarm (by decide)]
      exact Pkg.get_flag_disjoint k F.THR_COOLANT_STALE _ _ (by decide) rfl (by decide)
  · change execNaturalStepSample p a b quiet s = _
    refine onPkg_next ?_
    rw [hk]
    refine if_pos ?_
    rcases h with h | h | h <;> simp [h]
  · refine ⟨k.sampled s.now a b, ?_, k.sampled_spec s.now a b⟩
    change execNaturalStepSample p a b quiet s = _
    refine onPkg_next ?_
    rw [hk]
    exact if_neg (by simp [hq, hn]; omega)
  · refine congrArg (fun y => Host.Outcome.next (State.setPkg { s with free := s.free + 1 } p y)) ?_
    rw [hk]
    refine if_pos ?_
    simp only [Bool.or_eq_true, decide_eq_true_eq]
    tauto
  · have hc : ¬ ((decide (k.get F.THR_RESIST_CFG_PROBE_EN = 0) || decide (s.now < k.thr.lastSample + 10 ^ 9 * k.get F.THR_RESIST_CFG_PROBE_IDLE) || k.braked ||
        k.thr.probeAt.isSome) = true) := by
      simp only [Bool.or_eq_true, decide_eq_true_eq]
      tauto
    have hf : (k.probing s.now).get F.THR_EVENTS_PROBES = min 255 (k.get F.THR_EVENTS_PROBES + 1) :=
      (Pkg.get_setThr ..).trans (Pkg.get_count_same k _ 1 (by decide))
    have hrate (t : Nat) (ht : t < 4) : (k.probing s.now).rate t = k.rate t :=
      (Pkg.get_setThr ..).trans (Pkg.get_put_reg_ne _ _ _ _ (by
        simp only [F.PWR_TILE_STATE_RATE, R.PWR_TILE_STATE, F.THR_EVENTS_PROBES, R.THR_EVENTS]; omega))
    have heff : (k.probing s.now).effective = k.effective := (Pkg.get_setThr ..).trans (Pkg.get_put_reg_ne _ _ _ _ (by decide))
    by_cases hd : (decide (duty < 90) && decide (draw + 40 ≤ k.effective)) = true
    · refine ⟨k.probing s.now, ?_, rfl, hf, fun _ _ => hrate, fun h => ?_⟩
      · refine congrArg (fun y => Host.Outcome.next (State.setPkg { s with free := s.free + 1 } p y)) ?_
        rw [hk]
        exact (if_neg hc).trans (if_pos hd)
      · simp at hd; omega
    · obtain ⟨g1, g2, g3⟩ := (k.probing s.now).lowering_spec (Config.freeWord s.free)
      have hset := (tiles4.foldl (Pkg.limitProbe (Config.freeWord s.free)) (k.probing s.now)).settleRates_settled
      refine ⟨(tiles4.foldl (Pkg.limitProbe (Config.freeWord s.free)) (k.probing s.now)).settleRates, ?_, ?_, ?_, fun h1 h2 => ?_, fun _ t ht => ?_⟩
      · refine congrArg (fun y => Host.Outcome.next (State.setPkg { s with free := s.free + 1 } p y)) ?_
        rw [hk]
        exact (if_neg hc).trans (if_neg hd)
      · rw [hset.onlyRegs]
        exact g2
      · exact (hset.get (f := F.THR_EVENTS_PROBES) (by decide) (by decide)).trans ((Pkg.get_of_regs g1 _).trans hf)
      · simp at hd; omega
      · have h1 : (tiles4.foldl (Pkg.limitProbe (Config.freeWord s.free)) (k.probing s.now)).rate t = k.rate t := (Pkg.get_of_regs g1 _).trans (hrate t ht)
        have h2 := g3 t ht
        rw [hrate t ht] at h2
        obtain ⟨-, -, h3, -⟩ := (tiles4.foldl (Pkg.limitProbe (Config.freeWord s.free)) (k.probing s.now)).rateLimit_le t
        rw [hset.rate t ht, h1]
        omega
  · change execThermalCapCompute p s = _
    refine onPkg_next ?_
    rw [hk]
    exact if_pos h
  · refine ⟨((k.put F.THR_CAP_RAW (min 4095 (rawCap k.coolant k.est))).put F.THR_CAP_CAP (max 150 (min 1150 (rawCap k.coolant k.est / 5 * 5)))).setThr
      fun x => { x with rawLow := decide (rawCap k.coolant k.est < 150) }, ?_, ?_, ?_, rfl, fun o ho => ?_⟩
    · change execThermalCapCompute p s = _
      refine onPkg_next ?_
      rw [hk]
      exact if_neg h
    · rw [Pkg.get_setThr, Pkg.get_put_disjoint _ F.THR_CAP_CAP F.THR_CAP_RAW _ (by decide) rfl (by decide), Pkg.get_put_same _ _ _ (by decide)]
      exact Nat.mod_eq_of_lt (Nat.lt_succ_of_le (min_le_left ..))
    · rw [Pkg.get_setThr, Pkg.get_put_same _ _ _ (by decide)]
      exact Nat.mod_eq_of_lt (by simp only [F.THR_CAP_CAP]; omega)
    · rw [Pkg.rg_setThr]
      exact (Pkg.rg_put_ne _ _ _ ho).trans (Pkg.rg_put_ne _ _ _ ho)

end Sys2Proof.Machine
end

section
/-! PROOF. The forecast throttle, failed sensors, the junction trip and the shutdown (R261–R267). -/
namespace Sys2Proof.Machine
open Sys2Proof

variable {j k : Pkg} {s : State} {p : PkgId}

/-! ### Events that leave power and heat -/

/-- An event that is not fatal leaves the registers of power and heat, and what they hold beside them. -/
theorem Pkg.raise_heat {d : Nat} (h : d < 2944) (hd : d ≠ det 253 0) (hc : detClass d ≠ clsFT) (now : Nat) (i0 i1 : BitVec 64) (k : Pkg) :
    (k.raise now d i0 i1).thr = k.thr ∧ (k.raise now d i0 i1).pwr = k.pwr ∧
      ∀ o, 0x40000 ≤ o → o < 0x400000 → (k.raise now d i0 i1).rg o = k.rg o := by
  have hn := Pkg.raise_noted (k := k) (now := now) h hd hc i0 i1
  have hrest : LogOnly (k.faultCounted d) (k.raise now d i0 i1) := hn.rest
  refine ⟨?_, ?_, fun o h1 h2 => (hn.rg o fun e => ?_).trans (Pkg.rg_faultCounted h2 ?_ d k)⟩
  · rw [hrest, k.faultCounted_onlyRegs d]
  · rw [hrest, k.faultCounted_onlyRegs d]
  · simp only [hubReg, R.FLT_STATUS, R.FLT_DROPS, R.FLT_LOG_HEAD] at e
    omega
  · unfold R.FLT_COUNTS
    omega

/-! ### FRATE -/

theorem Pkg.endProbe_frame (lost : Bool) (k : Pkg) : (k.endProbe lost).regs = k.regs ∧ (k.endProbe lost).thr.sensorBad = k.thr.sensorBad := by
  unfold Pkg.endProbe
  split <;> exact ⟨rfl, rfl⟩
/-- Between two states of a package nothing that heat reads changed but FRATE, the count of throttles and what rotates. -/
structure Pkg.Throttled (j k : Pkg) : Prop where
  rg : ∀ o, o ≠ R.THR_FRATE → o ≠ R.THR_EVENTS → k.rg o = j.rg o
  bad : k.thr.sensorBad = j.thr.sensorBad
theorem Pkg.Throttled.refl (k : Pkg) : k.Throttled k := ⟨fun _ _ _ => rfl, rfl⟩
theorem Pkg.Throttled.trans {i : Pkg} (h : i.Throttled j) (h' : j.Throttled k) : i.Throttled k :=
  ⟨fun o h1 h2 => (h'.rg o h1 h2).trans (h.rg o h1 h2), h'.bad.trans h.bad⟩
theorem Pkg.Throttled.foldl {β : Type} {f : Pkg → β → Pkg} (hf : ∀ (k : Pkg) b, k.Throttled (f k b)) : ∀ (l : List β) (k : Pkg), k.Throttled (l.foldl f k)
  | [], k => .refl k
  | b :: l, k => (hf k b).trans (Pkg.Throttled.foldl hf l _)
theorem Pkg.Throttled.get (h : j.Throttled k) {f : Fld} (h1 : f.off ≠ R.THR_FRATE) (h2 : f.off ≠ R.THR_EVENTS) : k.get f = j.get f :=
  Pkg.get_of_rg (h.rg _ h1 h2)
theorem Pkg.Throttled.sensorHold (h : j.Throttled k) (t : Nat) : k.sensorHold t = j.sensorHold t := by rw [Pkg.sensorHold, h.bad]; rfl

/-- What an FRATE may rise to: 32 where too many sensors have failed. -/
def Pkg.heldRate (k : Pkg) (t v : Nat) : Nat := if k.sensorHold t then min v 32 else v
/-- The count of a throttle, before an FRATE is set. -/
def Pkg.throttleBegins (t v : Nat) (k : Pkg) : Pkg :=
  if k.frate t = 64 ∧ k.heldRate t v < 64 then (k.count F.THR_EVENTS_THROTTLES 1).endProbe true else k
theorem Pkg.setFrate_eq (t v : Nat) (k : Pkg) : k.setFrate t v = (k.throttleBegins t v).put (frateFld t) (k.heldRate t v) := rfl
theorem Pkg.throttleBegins_rg {o : Nat} (h : o ≠ R.THR_EVENTS) (t v : Nat) (k : Pkg) : (k.throttleBegins t v).rg o = k.rg o := by
  unfold Pkg.throttleBegins
  split
  · exact (Pkg.rg_of_regs (Pkg.endProbe_frame true _).1 o).trans (Pkg.rg_put_ne _ _ _ h)
  · rfl
theorem Pkg.setFrate_throttled (t v : Nat) (k : Pkg) : k.Throttled (k.setFrate t v) := by
  rw [Pkg.setFrate_eq]
  refine ⟨fun o h1 h2 => (Pkg.rg_put_ne _ _ _ h1).trans (Pkg.throttleBegins_rg h2 ..), ?_⟩
  change (k.throttleBegins t v).thr.sensorBad = _
  unfold Pkg.throttleBegins
  split
  · exact (Pkg.endProbe_frame true _).2
  · rfl
theorem Pkg.frate_setFrate_same {t : Nat} (ht : t < 4) (v : Nat) (k : Pkg) : (k.setFrate t v).frate t = k.heldRate t v % 256 := by
  rw [Pkg.setFrate_eq, Pkg.frate, Pkg.get_put_same _ _ _ (by unfold frateFld; dsimp only; omega)]
  rfl
theorem Pkg.frate_setFrate_ne {t u : Nat} (ht : t < 4) (h : u ≠ t) (v : Nat) (k : Pkg) : (k.setFrate u v).frate t = k.frate t := by
  rw [Pkg.setFrate_eq, Pkg.frate, Pkg.get_put_disjoint _ (frateFld u) (frateFld t) _ (by unfold frateFld; dsimp only; omega) rfl
    (by unfold frateFld; dsimp only; omega)]
  exact Pkg.get_of_rg (Pkg.throttleBegins_rg (show R.THR_FRATE ≠ R.THR_EVENTS by decide) ..)
theorem Pkg.frate_lt (k : Pkg) (t : Nat) : k.frate t < 256 := Nat.mod_lt _ (Nat.two_pow_pos 8)
theorem Pkg.pullRotas_throttled (now t : Nat) (k : Pkg) : k.Throttled (k.pullRotas now t) := ⟨fun _ _ _ => rfl, rfl⟩
theorem Pkg.frate_pullRotas (now t u : Nat) (k : Pkg) : (k.pullRotas now u).frate t = k.frate t := Pkg.get_setThr ..

/-- What a step with its peak makes of one C-tile's FRATE (R263). -/
def Pkg.throttleTile (now : Nat) (peak : Rat) (node : Nat) (k : Pkg) (t : Nat) : Pkg :=
  if (1600 : Rat) ≤ peak && (32 ≤ node || node / 8 = t) then (k.pullRotas now t).setFrate t (max 1 (k.frate t - 8))
  else if peak ≤ (1568 : Rat) && k.frate t < 64 then k.setFrate t (k.frate t + 1)
  else k
theorem Pkg.throttle_eq (now : Nat) (peak : Rat) (node : Nat) (k : Pkg) :
    k.throttle now peak node = (tiles4.foldl (Pkg.throttleTile now peak node) k).judgeForecast := rfl
theorem Pkg.throttleTile_throttled (now : Nat) (peak : Rat) (node : Nat) (k : Pkg) (t : Nat) : k.Throttled (k.throttleTile now peak node t) := by
  unfold Pkg.throttleTile
  split_ifs
  · exact (k.pullRotas_throttled ..).trans (Pkg.setFrate_throttled ..)
  · exact Pkg.setFrate_throttled ..
  · exact .refl k
theorem Pkg.frate_throttleTile_ne {t u : Nat} (ht : t < 4) (h : u ≠ t) (now : Nat) (peak : Rat) (node : Nat) (k : Pkg) :
    (k.throttleTile now peak node u).frate t = k.frate t := by
  unfold Pkg.throttleTile
  split_ifs
  · exact (Pkg.frate_setFrate_ne ht h ..).trans (Pkg.frate_pullRotas ..)
  · exact Pkg.frate_setFrate_ne ht h ..
  · rfl
theorem Pkg.frate_throttleTile {t : Nat} (ht : t < 4) (now : Nat) (peak : Rat) (node : Nat) (k : Pkg) :
    (1600 ≤ peak → (32 ≤ node ∨ node / 8 = t) → (k.throttleTile now peak node t).frate t = k.heldRate t (max 1 (k.frate t - 8))) ∧
    (peak ≤ 1568 → k.frate t < 64 → (k.throttleTile now peak node t).frate t = k.heldRate t (k.frate t + 1)) ∧
    (1568 < peak → (peak < 1600 ∨ (node < 32 ∧ node / 8 ≠ t)) → (k.throttleTile now peak node t).frate t = k.frate t) := by
  have hf := k.frate_lt t
  have hm (v : Nat) (hv : v < 256) : k.heldRate t v % 256 = k.heldRate t v := by
    unfold Pkg.heldRate
    split <;> omega
  unfold Pkg.throttleTile
  refine ⟨fun h1 h2 => ?_, fun h1 h2 => ?_, fun h1 h2 => ?_⟩
  · rw [if_pos (by simpa [h1] using h2), Pkg.frate_setFrate_same ht, Pkg.heldRate, (k.pullRotas_throttled now t).sensorHold, ← Pkg.heldRate]
    exact hm _ (by omega)
  · have h3 : ¬ (1600 : Rat) ≤ peak := by linarith
    rw [if_neg (by simp [h3]), if_pos (by simp [h1, h2]), Pkg.frate_setFrate_same ht]
    exact hm _ (by omega)
  · have h3 : ¬ peak ≤ (1568 : Rat) := by linarith
    rw [if_neg, if_neg (by simp [h3])]
    rcases h2 with h2 | h2
    · simp [not_le.2 h2]
    · simp [h2.2, Nat.not_le.2 h2.1]
theorem Pkg.frate_throttleTiles {t : Nat} (ht : t < 4) (now : Nat) (peak : Rat) (node : Nat) (k : Pkg) :
    (1600 ≤ peak → (32 ≤ node ∨ node / 8 = t) → (tiles4.foldl (Pkg.throttleTile now peak node) k).frate t = k.heldRate t (max 1 (k.frate t - 8))) ∧
    (peak ≤ 1568 → k.frate t < 64 → (tiles4.foldl (Pkg.throttleTile now peak node) k).frate t = k.heldRate t (k.frate t + 1)) ∧
    (1568 < peak → (peak < 1600 ∨ (node < 32 ∧ node / 8 ≠ t)) → (tiles4.foldl (Pkg.throttleTile now peak node) k).frate t = k.frate t) := by
  obtain ⟨a, ha, h1, h2⟩ : ∃ a : Pkg, k.Throttled a ∧ a.frate t = k.frate t ∧
      (tiles4.foldl (Pkg.throttleTile now peak node) k).frate t = (a.throttleTile now peak node t).frate t :=
    foldl_observed (Pkg.throttleTile now peak node) (fun a => a.frate t) (fun a => k.Throttled a) (fun a c h => h.trans (a.throttleTile_throttled ..))
      (fun a c hc _ => Pkg.frate_throttleTile_ne ht hc now peak node a) tiles4 (by decide) (by simp [tiles4]; omega) k (.refl k)
  have hh (v : Nat) : a.heldRate t v = k.heldRate t v := by rw [Pkg.heldRate, ha.sensorHold]; rfl
  have h := a.frate_throttleTile ht now peak node
  rw [h1, hh, hh] at h
  rwa [h2]

/-! ### FORECAST -/

/-- FORECAST and the rates follow FRATE. -/
theorem Pkg.judgeForecast_spec (k : Pkg) : OnlyRegs k k.judgeForecast ∧
    (∀ f : Fld, (f.off < 0x40020 ∨ 0x40030 ≤ f.off) → f.off ≠ R.PWR_BRAKE → f.off ≠ R.THR_ALARM → k.judgeForecast.get f = k.get f) ∧
    (∀ t, t < 4 → k.judgeForecast.rate t ≤ k.rate t ∧ k.judgeForecast.rate t ≤ k.judgeForecast.frate t) ∧
    (∀ b, k.judgeForecast.alarmLive b = if b = 2 then tiles4.any fun t => decide (k.frate t < 64) else k.alarmLive b) := by
  have hs := (k.alarm 2 (tiles4.any fun t => decide (k.frate t < 64))).settleRates_settled
  have hg (f : Fld) (h1 : f.off < 0x40020 ∨ 0x40030 ≤ f.off) (h2 : f.off ≠ R.PWR_BRAKE) (h3 : f.off ≠ R.THR_ALARM) : k.judgeForecast.get f = k.get f :=
    (hs.get h1 h2).trans (Pkg.get_alarm h3 ..)
  refine ⟨(Pkg.alarm_onlyRegs ..).trans hs.onlyRegs, hg, fun t ht => ?_, fun b => ?_⟩
  · have hr : (k.alarm 2 (tiles4.any fun t => decide (k.frate t < 64))).rate t = k.rate t := Pkg.get_alarm
      (by simp only [F.PWR_TILE_STATE_RATE, R.PWR_TILE_STATE, R.THR_ALARM]; omega) ..
    have hf : k.judgeForecast.frate t = (k.alarm 2 (tiles4.any fun t => decide (k.frate t < 64))).frate t :=
      hs.get (f := frateFld t) (by simp only [frateFld]; decide) (by simp only [frateFld]; decide)
    have h1 : k.judgeForecast.rate t = _ := hs.rate t ht
    have h2 := ((k.alarm 2 (tiles4.any fun t => decide (k.frate t < 64))).rateLimit_le t).2.1
    rw [hf, h1, hr]
    omega
  · refine (congrArg (bit · b) (hs.get (f := F.THR_ALARM_LIVE) (by decide) (by decide))).trans ?_
    exact Pkg.alarmLive_alarm (by decide) ..
theorem any_tiles4 (f : Nat → Bool) : tiles4.any f = true ↔ ∃ t, t < 4 ∧ f t = true := by
  rw [List.any_eq_true]
  refine exists_congr fun t => and_congr_left fun _ => ?_
  simp [tiles4]
  omega

/-! ### The peak of a forecast -/

theorem foldl_pick_mem {α : Type} (c : α → α → Bool) : ∀ (l : List α) (a : α), l.foldl (fun a b => if c a b then b else a) a ∈ a :: l
  | [], a => List.mem_singleton_self a
  | b :: l, a => by
    rw [List.foldl_cons]
    split
    · exact List.mem_cons_of_mem _ (foldl_pick_mem c l b)
    · exact (List.mem_cons.1 (foldl_pick_mem c l a)).elim (fun h => List.mem_cons.2 (.inl h)) fun h => List.mem_cons_of_mem _ (List.mem_cons_of_mem _ h)
theorem fst_lt_of_mem_indexed {α : Type} {l : List α} {e : Nat × α} (h : e ∈ indexed l) : e.1 < l.length ∧ e.2 ∈ l :=
  ⟨List.mem_range.1 (List.of_mem_zip h).1, (List.of_mem_zip h).2⟩
/-- The peak lies at one of the nodes and one of the steps. -/
theorem peakOf_bounds {n : Nat} (hn : 0 < n) (l : List (List Rat)) (hl : ∀ x ∈ l, x.length = n) : (peakOf l).2.1 < n ∧ (peakOf l).2.2 ≤ max 1 l.length := by
  unfold peakOf
  have h := foldl_pick_mem (fun a b : Rat × Nat × Nat => decide (a.1 < b.1)) ((indexed l).flatMap fun e => (indexed e.2).map fun x => (x.2, x.1, e.1 + 1))
    ((l.headD []).getD 0 0, 0, 1)
  simp only [decide_eq_true_eq] at h
  generalize List.foldl _ _ _ = a at h ⊢
  rcases List.mem_cons.1 h with rfl | h
  · exact ⟨hn, le_max_left ..⟩
  · obtain ⟨e, he, ha⟩ := List.mem_flatMap.1 h
    obtain ⟨x, hx, rfl⟩ := List.mem_map.1 ha
    obtain ⟨h1, h2⟩ := fst_lt_of_mem_indexed he
    have h3 := (fst_lt_of_mem_indexed hx).1
    rw [hl _ h2] at h3
    exact ⟨h3, by dsimp only; omega⟩
theorem Pkg.horizon_length (key : Nat) (scale : Rat) (mw duty : List Nat) (t : Nat) (k : Pkg) : ∀ (n h : Nat) (temps : List Rat),
    (k.horizon key scale mw duty t h temps n).length = n ∧ ∀ x ∈ k.horizon key scale mw duty t h temps n, x.length = 64
  | 0, _, _ => ⟨rfl, fun _ h => absurd h List.not_mem_nil⟩
  | n + 1, h, temps => by
    obtain ⟨h1, h2⟩ := Pkg.horizon_length key scale mw duty t k n (h + 1) (modelStep key scale k.coolant temps (nodes.map fun j => k.nodeMw key mw duty t h j))
    refine ⟨congrArg (· + 1) h1, fun x hx => ?_⟩
    rcases List.mem_cons.1 hx with rfl | hx
    · unfold modelStep nodes
      rw [List.length_map, List.length_range]
    · exact h2 x hx

/-! ### The forecast's registers -/

/-- One node's registers after a step of the forecast. -/
def Pkg.showNode (meas : List Nat) (hz : List (List Rat)) (k : Pkg) (n : Nat) : Pkg :=
  (k.put (F.THR_NODE_MEAS n) (if k.thr.sensorBad.contains n then 0xFFFF else min 0xFFFE (meas.getD n 0))).put (F.THR_NODE_PRED n)
    (tempWord ((hz.map fun l => l.getD n 0).foldl max ((hz.headD []).getD n 0)))
theorem Pkg.rg_showNode {o : Nat} (h : o < 0x50100) (meas : List Nat) (hz : List (List Rat)) (k : Pkg) (n : Nat) : (k.showNode meas hz n).rg o = k.rg o := by
  have hn : o ≠ R.THR_NODE n := by unfold R.THR_NODE; omega
  exact (Pkg.rg_put_ne _ _ _ hn).trans (Pkg.rg_put_ne _ _ _ hn)
theorem Pkg.get_showNode {n : Nat} (meas : List Nat) (hz : List (List Rat)) (k : Pkg) (hb : k.thr.sensorBad.contains n = true) :
    (k.showNode meas hz n).get (F.THR_NODE_MEAS n) = 0xFFFF := by
  unfold Pkg.showNode
  rw [Pkg.get_put_disjoint _ (F.THR_NODE_PRED n) (F.THR_NODE_MEAS n) _ (Nat.le_of_ble_eq_true rfl) rfl (.inl (Nat.le_of_ble_eq_true rfl)), hb,
    Pkg.get_put_same _ _ _ (Nat.le_of_ble_eq_true rfl)]
  rfl
theorem Pkg.get_showNode_ne {n m : Nat} (h : m ≠ n) (meas : List Nat) (hz : List (List Rat)) (k : Pkg) :
    (k.showNode meas hz m).get (F.THR_NODE_MEAS n) = k.get (F.THR_NODE_MEAS n) := by
  have hn : R.THR_NODE n ≠ R.THR_NODE m := by unfold R.THR_NODE; omega
  exact (Pkg.get_put_reg_ne _ _ _ _ hn).trans (Pkg.get_put_reg_ne _ _ _ _ hn)
theorem Pkg.get_showNodes {n : Nat} (hn : n < 64) (meas : List Nat) (hz : List (List Rat)) (k : Pkg) (hb : k.thr.sensorBad.contains n = true) :
    (nodes.foldl (Pkg.showNode meas hz) k).get (F.THR_NODE_MEAS n) = 0xFFFF := by
  obtain ⟨a, ha, -, h2⟩ : ∃ a : Pkg, a.thr.sensorBad = k.thr.sensorBad ∧ a.get (F.THR_NODE_MEAS n) = k.get (F.THR_NODE_MEAS n) ∧
      (nodes.foldl (Pkg.showNode meas hz) k).get (F.THR_NODE_MEAS n) = (a.showNode meas hz n).get (F.THR_NODE_MEAS n) :=
    foldl_observed (Pkg.showNode meas hz) (fun a => a.get (F.THR_NODE_MEAS n)) (fun a => a.thr.sensorBad = k.thr.sensorBad) (fun a c h => h)
      (fun a c hc _ => Pkg.get_showNode_ne hc meas hz a) nodes List.nodup_range (List.mem_range.2 hn) k rfl
  rw [h2, Pkg.get_showNode _ _ _ (ha ▸ hb)]

theorem Pkg.showNodes_bad (meas : List Nat) (hz : List (List Rat)) (k : Pkg) : (nodes.foldl (Pkg.showNode meas hz) k).thr.sensorBad = k.thr.sensorBad :=
  foldl_kept (Pkg.showNode meas hz) (fun k => k.thr.sensorBad) (fun _ _ => rfl) nodes k
theorem Pkg.rg_showNodes {o : Nat} (h : o < 0x50100) (meas : List Nat) (hz : List (List Rat)) (k : Pkg) : (nodes.foldl (Pkg.showNode meas hz) k).rg o = k.rg o :=
  foldl_kept (Pkg.showNode meas hz) (fun k => k.rg o) (fun k n => k.rg_showNode h meas hz n) nodes k

/-- The peak and its place, as the registers show them. -/
def Pkg.showPeak (pk : Rat × Nat × Nat) (k : Pkg) : Pkg :=
  ((k.put F.THR_FORECAST_PEAK (tempWord pk.1)).put F.THR_FORECAST_NODE pk.2.1).put F.THR_FORECAST_STEP pk.2.2
theorem Pkg.showPeak_onlyRegs (pk : Rat × Nat × Nat) (k : Pkg) : OnlyRegs k (k.showPeak pk) := ((OnlyRegs.put ..).trans (.put ..)).trans (.put ..)
theorem Pkg.showPeak_thr (pk : Rat × Nat × Nat) (k : Pkg) : (k.showPeak pk).thr = k.thr := by
  have h := k.showPeak_onlyRegs pk
  generalize k.showPeak pk = l at h
  rw [h]
theorem Pkg.showPeak_spec {pk : Rat × Nat × Nat} (hn : pk.2.1 < 256) (hs : pk.2.2 < 16) (k : Pkg) :
    (k.showPeak pk).get F.THR_FORECAST_PEAK = tempWord pk.1 ∧ (k.showPeak pk).get F.THR_FORECAST_NODE = pk.2.1 ∧
      (k.showPeak pk).get F.THR_FORECAST_STEP = pk.2.2 ∧ ∀ o, o ≠ R.THR_FORECAST → (k.showPeak pk).rg o = k.rg o := by
  unfold Pkg.showPeak
  refine ⟨?_, ?_, ?_, fun o ho => ?_⟩
  · rw [Pkg.get_put_disjoint _ F.THR_FORECAST_STEP F.THR_FORECAST_PEAK _ (by decide) rfl (by decide),
      Pkg.get_put_disjoint _ F.THR_FORECAST_NODE F.THR_FORECAST_PEAK _ (by decide) rfl (by decide), Pkg.get_put_same _ _ _ (by decide)]
    exact Nat.mod_eq_of_lt (Nat.lt_succ_of_le (min_le_left ..))
  · rw [Pkg.get_put_disjoint _ F.THR_FORECAST_STEP F.THR_FORECAST_NODE _ (by decide) rfl (by decide), Pkg.get_put_same _ _ _ (by decide)]
    exact Nat.mod_eq_of_lt hn
  · rw [Pkg.get_put_same _ _ _ (by decide)]
    exact Nat.mod_eq_of_lt hs
  · exact (Pkg.rg_put_ne _ _ _ ho).trans ((Pkg.rg_put_ne _ _ _ ho).trans (Pkg.rg_put_ne _ _ _ ho))

/-! ### Failed sensors -/

/-- FRATE of one tile after a sensor has failed. -/
def Pkg.holdTile (k : Pkg) (t : Nat) : Pkg := if k.sensorHold t then k.setFrate t (k.frate t) else k
theorem Pkg.holdTile_throttled (k : Pkg) (t : Nat) : k.Throttled (k.holdTile t) := by
  unfold Pkg.holdTile
  split
  · exact Pkg.setFrate_throttled ..
  · exact .refl k
theorem Pkg.frate_holdTiles {t : Nat} (ht : t < 4) (k : Pkg) : (k.sensorHold t = true → (tiles4.foldl Pkg.holdTile k).frate t ≤ 32) ∧
    (k.sensorHold t = false → (tiles4.foldl Pkg.holdTile k).frate t = k.frate t) := by
  obtain ⟨a, ha, h1, h2⟩ : ∃ a : Pkg, k.Throttled a ∧ a.frate t = k.frate t ∧ (tiles4.foldl Pkg.holdTile k).frate t = (a.holdTile t).frate t := by
    refine foldl_observed Pkg.holdTile (fun a => a.frate t) (fun a => k.Throttled a) (fun a c h => h.trans (a.holdTile_throttled c))
      (fun a c hc _ => ?_) tiles4 (by decide) (by simp [tiles4]; omega) k (.refl k)
    unfold Pkg.holdTile
    split
    · exact Pkg.frate_setFrate_ne ht hc ..
    · rfl
  rw [h2, Pkg.holdTile, ha.sensorHold]
  refine ⟨fun h => ?_, fun h => ?_⟩
  · rw [if_pos h, Pkg.frate_setFrate_same ht, Pkg.heldRate, ha.sensorHold, if_pos h]
    omega
  · rw [h]
    exact h1

/-- A sensor has failed, and the event is reported where none stood. -/
def Pkg.sensorLost (now n : Nat) (k : Pkg) : Pkg :=
  if ((k.setThr fun x => { x with sensorBad := x.sensorBad ++ [n] }).put (F.THR_NODE_MEAS n) 0xFFFF).alarmLive 4 then
    (k.setThr fun x => { x with sensorBad := x.sensorBad ++ [n] }).put (F.THR_NODE_MEAS n) 0xFFFF
  else ((k.setThr fun x => { x with sensorBad := x.sensorBad ++ [n] }).put (F.THR_NODE_MEAS n) 0xFFFF).raise now (det 255 3) 0 0
theorem Pkg.sensorLost_spec {n : Nat} (hn : n < 64) (now : Nat) (k : Pkg) : (k.sensorLost now n).thr.sensorBad = k.thr.sensorBad ++ [n] ∧
    (k.sensorLost now n).get (F.THR_NODE_MEAS n) = 0xFFFF ∧ (k.sensorLost now n).rg R.THR_FRATE = k.rg R.THR_FRATE := by
  have h0 : ((k.setThr fun x => { x with sensorBad := x.sensorBad ++ [n] }).put (F.THR_NODE_MEAS n) 0xFFFF).get (F.THR_NODE_MEAS n) = 0xFFFF := by
    rw [Pkg.get_put_same _ _ _ (Nat.le_of_ble_eq_true rfl)]
    rfl
  have h1 : ((k.setThr fun x => { x with sensorBad := x.sensorBad ++ [n] }).put (F.THR_NODE_MEAS n) 0xFFFF).rg R.THR_FRATE = k.rg R.THR_FRATE :=
    (Pkg.rg_put_ne _ _ _ (by simp only [F.THR_NODE_MEAS, R.THR_NODE, R.THR_FRATE]; omega)).trans (Pkg.rg_setThr ..)
  have h2 : ((k.setThr fun x => { x with sensorBad := x.sensorBad ++ [n] }).put (F.THR_NODE_MEAS n) 0xFFFF).thr.sensorBad = k.thr.sensorBad ++ [n] := rfl
  unfold Pkg.sensorLost
  generalize (k.setThr fun x => { x with sensorBad := x.sensorBad ++ [n] }).put (F.THR_NODE_MEAS n) 0xFFFF = l at *
  split
  · exact ⟨h2, h0, h1⟩
  · obtain ⟨g1, -, g3⟩ := Pkg.raise_heat (d := det 255 3) (by decide) (by decide) (by decide) now 0 0 l
    refine ⟨by rw [g1, h2], ?_, (g3 _ (by decide) (by decide)).trans h1⟩
    refine (Pkg.get_of_rg (g3 _ ?_ ?_)).trans h0 <;> simp only [F.THR_NODE_MEAS, R.THR_NODE] <;> omega

/-- What a step of the forecast shows, before FRATE moves. -/
def Pkg.shown (meas : List Nat) (hz : List (List Rat)) (temps : SMap Rat) (k : Pkg) : Pkg :=
  ((nodes.foldl (Pkg.showNode meas hz) k).showPeak (peakOf hz)).setThr fun x => { x with modelTemp := temps }
theorem Pkg.shown_spec (meas : List Nat) {hz : List (List Rat)} (hlen : hz.length = 8) (hall : ∀ x ∈ hz, x.length = 64) (temps : SMap Rat) (k : Pkg) :
    (k.shown meas hz temps).get F.THR_FORECAST_PEAK = tempWord (peakOf hz).1 ∧ (k.shown meas hz temps).get F.THR_FORECAST_NODE = (peakOf hz).2.1 ∧
      (k.shown meas hz temps).get F.THR_FORECAST_STEP = (peakOf hz).2.2 ∧
      (∀ n, n < 64 → k.thr.sensorBad.contains n = true → (k.shown meas hz temps).get (F.THR_NODE_MEAS n) = 0xFFFF) ∧
      (∀ o, o < 0x50100 → o ≠ R.THR_FORECAST → (k.shown meas hz temps).rg o = k.rg o) ∧ (k.shown meas hz temps).thr.sensorBad = k.thr.sensorBad := by
  obtain ⟨hn, hs⟩ := peakOf_bounds (by decide) hz hall
  have hb := Pkg.showNodes_bad meas hz k
  have hr (o : Nat) (h : o < 0x50100) := Pkg.rg_showNodes h meas hz k
  have hm (n : Nat) (hn : n < 64) (hb : k.thr.sensorBad.contains n = true) := Pkg.get_showNodes hn meas hz k hb
  unfold Pkg.shown
  generalize nodes.foldl (Pkg.showNode meas hz) k = l at *
  generalize peakOf hz = pk at *
  obtain ⟨g1, g2, g3, g4⟩ := Pkg.showPeak_spec (pk := pk) (by omega) (by omega) l
  have g5 := l.showPeak_thr pk
  generalize l.showPeak pk = l' at *
  refine ⟨(Pkg.get_setThr ..).trans g1, (Pkg.get_setThr ..).trans g2, (Pkg.get_setThr ..).trans g3, fun n hn hb => ?_, fun o h1 h2 => ?_, ?_⟩
  · refine (Pkg.get_setThr ..).trans ((Pkg.get_of_rg (g4 _ ?_)).trans (hm n hn hb))
    simp only [F.THR_NODE_MEAS, R.THR_NODE, R.THR_FORECAST]
    omega
  · exact (Pkg.rg_setThr ..).trans ((g4 o h2).trans (hr o h1))
  · exact (congrArg ThrSt.sensorBad g5).trans hb
/-- What a step of the forecast does, from what it shows. -/
theorem Pkg.throttle_spec (now : Nat) (peak : Rat) (node : Nat) (k : Pkg) :
    (∀ f : Fld, 0x50000 ≤ f.off → f.off ≠ R.THR_ALARM → f.off ≠ R.THR_FRATE → f.off ≠ R.THR_EVENTS → (k.throttle now peak node).get f = k.get f) ∧
    (∀ t, t < 4 → (1600 ≤ peak → (32 ≤ node ∨ node / 8 = t) → (k.throttle now peak node).frate t = k.heldRate t (max 1 (k.frate t - 8))) ∧
      (peak ≤ 1568 → k.frate t < 64 → (k.throttle now peak node).frate t = k.heldRate t (k.frate t + 1)) ∧
      (1568 < peak → (peak < 1600 ∨ (node < 32 ∧ node / 8 ≠ t)) → (k.throttle now peak node).frate t = k.frate t) ∧
      (k.throttle now peak node).rate t ≤ k.rate t ∧ (k.throttle now peak node).rate t ≤ (k.throttle now peak node).frate t) ∧
    ((k.throttle now peak node).alarmLive 2 = true ↔ ∃ t, t < 4 ∧ (k.throttle now peak node).frate t < 64) := by
  have ht : k.Throttled (tiles4.foldl (Pkg.throttleTile now peak node) k) := .foldl (fun k t => k.throttleTile_throttled now peak node t) _ k
  have hfr := fun t h => k.frate_throttleTiles (t := t) h now peak node
  rw [Pkg.throttle_eq]
  generalize tiles4.foldl (Pkg.throttleTile now peak node) k = l at *
  obtain ⟨-, h2, h3, h4⟩ := l.judgeForecast_spec
  have hf (t : Nat) : l.judgeForecast.frate t = l.frate t := h2 (frateFld t) (.inr (show 0x40030 ≤ R.THR_FRATE by decide))
    (show R.THR_FRATE ≠ R.PWR_BRAKE by decide) (show R.THR_FRATE ≠ R.THR_ALARM by decide)
  refine ⟨fun f g1 g2 g3 g4 => (h2 f (by omega) (by unfold R.PWR_BRAKE; omega) g2).trans (ht.get g3 g4), fun t h => ?_, ?_⟩
  · have hr : l.rate t = k.rate t := ht.get (by simp only [F.PWR_TILE_STATE_RATE, R.PWR_TILE_STATE, R.THR_FRATE]; omega)
      (by simp only [F.PWR_TILE_STATE_RATE, R.PWR_TILE_STATE, R.THR_EVENTS]; omega)
    obtain ⟨a1, a2, a3⟩ := hfr t h
    obtain ⟨b1, b2⟩ := h3 t h
    rw [hr] at b1
    rw [hf] at *
    exact ⟨a1, a2, a3, b1, b2⟩
  · rw [h4 2, if_pos rfl, any_tiles4]
    simp only [decide_eq_true_eq, hf]

/-- What the failure of a sensor leaves. -/
theorem Pkg.sensorFail_spec {n : Nat} (hn : n < 64) (now : Nat) (k : Pkg) :
    ((tiles4.foldl Pkg.holdTile ((k.sensorLost now n).alarm 4 true)).judgeForecast).thr.sensorBad = k.thr.sensorBad ++ [n] ∧
    ((tiles4.foldl Pkg.holdTile ((k.sensorLost now n).alarm 4 true)).judgeForecast).get (F.THR_NODE_MEAS n) = 0xFFFF ∧
    ((tiles4.foldl Pkg.holdTile ((k.sensorLost now n).alarm 4 true)).judgeForecast).alarmLive 4 = true ∧
    ∀ t, t < 4 → ((tiles4.foldl Pkg.holdTile ((k.sensorLost now n).alarm 4 true)).judgeForecast).rate t ≤
        ((tiles4.foldl Pkg.holdTile ((k.sensorLost now n).alarm 4 true)).judgeForecast).frate t ∧
      (((tiles4.foldl Pkg.holdTile ((k.sensorLost now n).alarm 4 true)).judgeForecast).sensorHold t = true →
        ((tiles4.foldl Pkg.holdTile ((k.sensorLost now n).alarm 4 true)).judgeForecast).frate t ≤ 32) ∧
      (((tiles4.foldl Pkg.holdTile ((k.sensorLost now n).alarm 4 true)).judgeForecast).sensorHold t = false →
        ((tiles4.foldl Pkg.holdTile ((k.sensorLost now n).alarm 4 true)).judgeForecast).frate t = k.frate t) := by
  obtain ⟨h1, h2, h3⟩ := k.sensorLost_spec hn now
  have hnode : R.THR_NODE n ≠ R.THR_ALARM ∧ R.THR_NODE n ≠ R.THR_FRATE ∧ R.THR_NODE n ≠ R.THR_EVENTS ∧ R.THR_NODE n ≠ R.PWR_BRAKE ∧ 0x40030 ≤ R.THR_NODE n := by
    simp only [R.THR_NODE, R.THR_ALARM, R.THR_FRATE, R.THR_EVENTS, R.PWR_BRAKE]
    omega
  obtain ⟨n1, n2, n3, n4, n5⟩ := hnode
  have g1 : ((k.sensorLost now n).alarm 4 true).thr.sensorBad = k.thr.sensorBad ++ [n] := by rw [Pkg.alarm_thr, h1]
  have g2 : ((k.sensorLost now n).alarm 4 true).get (F.THR_NODE_MEAS n) = 0xFFFF := (Pkg.get_alarm n1 ..).trans h2
  have g3 (t : Nat) : ((k.sensorLost now n).alarm 4 true).frate t = k.frate t :=
    Pkg.get_of_rg ((Pkg.rg_alarm (show R.THR_FRATE ≠ R.THR_ALARM by decide) ..).trans h3)
  have g4 : ((k.sensorLost now n).alarm 4 true).alarmLive 4 = true := Pkg.alarmLive_alarm_same (by decide) ..
  generalize (k.sensorLost now n).alarm 4 true = m at *
  have ht : m.Throttled (tiles4.foldl Pkg.holdTile m) := .foldl (fun k t => k.holdTile_throttled t) _ m
  have hfr := fun t (h : t < 4) => m.frate_holdTiles h
  generalize tiles4.foldl Pkg.holdTile m = l at *
  obtain ⟨a1, a2, a3, a4⟩ := l.judgeForecast_spec
  have hf (t : Nat) : l.judgeForecast.frate t = l.frate t := a2 (frateFld t) (.inr (show 0x40030 ≤ R.THR_FRATE by decide))
    (show R.THR_FRATE ≠ R.PWR_BRAKE by decide) (show R.THR_FRATE ≠ R.THR_ALARM by decide)
  have hb : l.judgeForecast.thr.sensorBad = m.thr.sensorBad := by rw [a1]; exact ht.bad
  refine ⟨hb.trans g1, (a2 _ (.inr n5) n4 n1).trans ((ht.get n2 n3).trans g2), ?_, fun t h => ⟨(a3 t h).2, ?_⟩⟩
  · rw [a4 4, if_neg (by decide), Pkg.alarmLive, ht.get (by decide) (by decide)]
    exact g4
  · obtain ⟨b1, b2⟩ := hfr t h
    have hs : l.judgeForecast.sensorHold t = m.sensorHold t := by rw [Pkg.sensorHold, hb, Pkg.sensorHold]
    rw [hs, hf]
    exact ⟨b1, fun h => (b2 h).trans (g3 t)⟩

/-- A junction trip. -/
def Pkg.tripped (n temp : Nat) (k : Pkg) : Pkg := ((k.put (F.THR_NODE_MEAS n) temp).alarm 3 true).settleRates
theorem Pkg.tripped_spec (n : Nat) {temp : Nat} (ht : temp < 65536) (k : Pkg) : (k.tripped n temp).alarmLive 3 = true ∧
    (k.tripped n temp).get (F.THR_NODE_MEAS n) = temp ∧ ∀ t, t < 4 → (k.tripped n temp).rate t ≤ 1 := by
  have hs := ((k.put (F.THR_NODE_MEAS n) temp).alarm 3 true).settleRates_settled
  have ha : ((k.put (F.THR_NODE_MEAS n) temp).alarm 3 true).alarmLive 3 = true := Pkg.alarmLive_alarm_same (by decide) ..
  have hm : ((k.put (F.THR_NODE_MEAS n) temp).alarm 3 true).get (F.THR_NODE_MEAS n) = temp := by
    rw [Pkg.get_alarm (by simp only [F.THR_NODE_MEAS, R.THR_NODE, R.THR_ALARM]; omega), Pkg.get_put_same _ _ _ (Nat.le_of_ble_eq_true rfl)]
    exact Nat.mod_eq_of_lt ht
  unfold Pkg.tripped
  generalize (k.put (F.THR_NODE_MEAS n) temp).alarm 3 true = l at *
  refine ⟨?_, ?_, fun t h => ?_⟩
  · rw [Pkg.alarmLive, hs.get (by decide) (by decide)]
    exact ha
  · rw [hs.get (by simp only [F.THR_NODE_MEAS, R.THR_NODE]; omega) (by simp only [F.THR_NODE_MEAS, R.THR_NODE, R.PWR_BRAKE]; omega)]
    exact hm
  · rw [hs.rate t h]
    exact (min_le_right ..).trans ((l.rateLimit_le t).2.2.2.2 ha)
theorem Pkg.get_conditionEnd (now : Nat) (k : Pkg) (f : Fld) : (k.conditionEnd now).get f = k.get f := Pkg.get_of_regs (j := k.conditionEnd now) rfl f
/-- A trip is released, and the rates follow their limits. -/
theorem Pkg.tripReleased_spec (now : Nat) (k : Pkg) : ((k.alarm 3 false).settleRates.conditionEnd now).alarmLive 3 = false ∧
    ∀ t, t < 4 → ((k.alarm 3 false).settleRates.conditionEnd now).rate t ≤ k.rate t := by
  have hs := (k.alarm 3 false).settleRates_settled
  have ha : (k.alarm 3 false).alarmLive 3 = false := Pkg.alarmLive_alarm_same (by decide) ..
  have hr (t : Nat) (h : t < 4) : (k.alarm 3 false).rate t = k.rate t :=
    Pkg.get_alarm (by simp only [F.PWR_TILE_STATE_RATE, R.PWR_TILE_STATE, R.THR_ALARM]; omega) ..
  generalize k.alarm 3 false = l at *
  refine ⟨?_, fun t h => ?_⟩
  · rw [Pkg.alarmLive, Pkg.get_conditionEnd, hs.get (by decide) (by decide)]
    exact ha
  · rw [Pkg.rate, Pkg.get_conditionEnd, ← Pkg.rate, hs.rate t h, hr t h]
    exact min_le_left ..

/-- A thermal shutdown, before its event. -/
def Pkg.shutDown (n temp : Nat) (k : Pkg) : Pkg :=
  ((k.put (F.THR_NODE_MEAS n) temp).setThr fun x => { x with shutdown := true }).emit (.line "THERM_SHDN_N" false)

/-! ### The steps -/

/-- The node temperatures of the next eight steps. -/
def State.forecast (s : State) (p : PkgId) (meas mw duty : List Nat) (k : Pkg) : List (List Rat) :=
  k.horizon (s.moduleKey p) ((Config.fusedResist (s.moduleKey p)).toNat / k.est) mw duty (k.time s.now / 1000000 * 1000000) 1
    (nodes.map (k.startTemp meas)) 8
theorem State.forecast_length (meas mw duty : List Nat) (k : Pkg) : (s.forecast p meas mw duty k).length = 8 ∧
    ∀ x ∈ s.forecast p meas mw duty k, x.length = 64 := Pkg.horizon_length ..
/-- The model's own temperatures after the first step (log 33). -/
def Pkg.modelTemps (hz : List (List Rat)) (k : Pkg) : SMap Rat :=
  nodes.foldl (fun m n => sinsert m n ((hz.headD []).getD n 0 - (if k.thr.sensorBad.contains n then 80 else 0))) []
theorem exec_druStep (meas mw duty : List Nat) : ∃ temps : Pkg → SMap Rat, exec (.druStep p meas mw duty) s = onPkg p s fun k => if k.pwr.govHold then k
    else (k.shown meas (s.forecast p meas mw duty k) (temps k)).throttle s.now (peakOf (s.forecast p meas mw duty k)).1
      (peakOf (s.forecast p meas mw duty k)).2.1 := by
  refine ⟨fun k => Pkg.modelTemps (s.forecast p meas mw duty k)
    ((nodes.foldl (Pkg.showNode meas (s.forecast p meas mw duty k)) k).showPeak (peakOf (s.forecast p meas mw duty k))), ?_⟩
  change execDruStep p meas mw duty s = _
  unfold execDruStep State.forecast
  refine congrArg (onPkg p s) (funext fun k => ?_)
  rw [show (10 : Nat) ^ 6 = 1000000 from rfl]
  dsimp only
  generalize k.horizon (s.moduleKey p) ((Config.fusedResist (s.moduleKey p)).toNat / k.est) mw duty (k.time s.now / 1000000 * 1000000) 1
    (nodes.map (k.startTemp meas)) 8 = hz
  rfl
theorem exec_sensorFail (n : Fin 64) : exec (.sensorFail p n) s = onPkg p s fun k => if k.thr.sensorBad.contains n.val then k
    else (tiles4.foldl Pkg.holdTile ((k.sensorLost s.now n.val).alarm 4 true)).judgeForecast := rfl
theorem exec_junctionTrip (n : Fin 64) (temp : BitVec 16) : exec (.junctionTrip p n temp) s = onPkg p s fun k =>
    if temp.toNat < 1680 || k.alarmLive 3 then k else (k.tripped n.val temp.toNat).raise s.now (det 255 2) 0 0 := rfl
theorem exec_junctionTripRelease : exec (.junctionTripRelease p) s = onPkg p s fun k =>
    if k.alarmLive 3 then (k.alarm 3 false).settleRates.conditionEnd s.now else k := rfl
/-- A package after a sample at the shutdown's threshold. -/
def Pkg.atShutdown (now n temp : Nat) (k : Pkg) : Pkg :=
  if temp < 1840 || k.thr.shutdown then k else (k.shutDown n temp).raise now (det 255 4) 0 0
theorem Pkg.atShutdown_stays {now n temp : Nat} (h : temp < 1840 ∨ k.thr.shutdown = true) : k.atShutdown now n temp = k := if_pos (by simpa using h)
theorem Pkg.atShutdown_shuts {now n temp : Nat} (h1 : 1840 ≤ temp) (h2 : k.thr.shutdown = false) :
    k.atShutdown now n temp = (k.shutDown n temp).raise now (det 255 4) 0 0 := if_neg (by rw [h2]; simp; omega)
theorem Pkg.shutDown_thr (n temp : Nat) (k : Pkg) : (k.shutDown n temp).thr = { k.thr with shutdown := true } := rfl
theorem Pkg.get_shutDown (n : Nat) {temp : Nat} (ht : temp < 65536) (k : Pkg) : (k.shutDown n temp).get (F.THR_NODE_MEAS n) = temp := by
  refine (Pkg.get_emit ..).trans ((Pkg.get_setThr ..).trans ((Pkg.get_put_same _ _ _ (Nat.le_of_ble_eq_true rfl)).trans ?_))
  exact Nat.mod_eq_of_lt ht
theorem Pkg.raise_shutDown (now n temp : Nat) (k : Pkg) : ((k.shutDown n temp).raise now (det 255 4) 0 0).thr.shutdown = true := by
  have hr := (Pkg.raise_hubbed (k := k.shutDown n temp) (now := now) (d := det 255 4) (by decide) (by decide) 0 0).rest
  have hf : ((k.shutDown n temp).faultCounted (det 255 4)).thr = (k.shutDown n temp).thr := by rw [Pkg.faultCounted_onlyRegs]
  rw [Pkg.shutDown_thr] at hf
  generalize (k.shutDown n temp).faultCounted (det 255 4) = l at *
  rw [hr]
  exact congrArg ThrSt.shutdown hf
theorem exec_thermalShutdown (n : Fin 64) (temp : BitVec 16) :
    exec (.thermalShutdown p n temp) s = onPkgGrave p s fun m k => (m, k.atShutdown s.now n.val temp.toNat) := by
  refine Eq.trans (b := onPkgGrave p s fun m k => if temp.toNat < 1840 || k.thr.shutdown then (m, k) else
    (m, (k.shutDown n.val temp.toNat).raise s.now (det 255 4) 0 0)) rfl (congrArg (onPkgGrave p s) (funext fun m => funext fun k => ?_))
  unfold Pkg.atShutdown
  split <;> rfl
theorem exec_thermalShutdown_next (n : Fin 64) (temp : BitVec 16) (h : ((s.pkg p).atShutdown s.now n.val temp.toNat).pkgDark = (s.pkg p).pkgDark) :
    exec (.thermalShutdown p n temp) s = .next (s.setPkg p ((s.pkg p).atShutdown s.now n.val temp.toNat)) := by
  rw [exec_thermalShutdown]
  exact exec_graceExpiry 0 (Pkg.atShutdown s.now n.val temp.toNat) h
theorem exec_thermalShutdown_shut (n : Fin 64) (temp : BitVec 16) :
    ∃ t, exec (.thermalShutdown p n temp) s = .next t ∧ (t.pkg p).thr = ((s.pkg p).atShutdown s.now n.val temp.toNat).thr := by
  rw [exec_thermalShutdown]
  obtain ⟨t, ht, hd, -⟩ := onPkgGrave_darkened p s fun m k => (m, k.atShutdown s.now n.val temp.toNat)
  exact ⟨t, ht, hd.thr⟩

/-- A step of the forecast. -/
theorem druStep_spec (meas mw duty : List Nat) {k : Pkg} (hk : s.pkg p = k) {hz : List (List Rat)} (hhz : s.forecast p meas mw duty k = hz) :
    (k.pwr.govHold = true → exec (.druStep p meas mw duty) s = .next (s.setPkg p k)) ∧
    (k.pwr.govHold = false → ∃ j : Pkg, exec (.druStep p meas mw duty) s = .next (s.setPkg p j) ∧ j.get F.THR_FORECAST_PEAK = tempWord (peakOf hz).1 ∧
      j.get F.THR_FORECAST_NODE = (peakOf hz).2.1 ∧ j.get F.THR_FORECAST_STEP = (peakOf hz).2.2 ∧
      (∀ n, n < 64 → k.thr.sensorBad.contains n = true → j.get (F.THR_NODE_MEAS n) = 0xFFFF) ∧
      (∀ t, t < 4 →
        (1600 ≤ (peakOf hz).1 → (32 ≤ (peakOf hz).2.1 ∨ (peakOf hz).2.1 / 8 = t) → j.frate t = k.heldRate t (max 1 (k.frate t - 8))) ∧
        ((peakOf hz).1 ≤ 1568 → k.frate t < 64 → j.frate t = k.heldRate t (k.frate t + 1)) ∧
        (1568 < (peakOf hz).1 → ((peakOf hz).1 < 1600 ∨ ((peakOf hz).2.1 < 32 ∧ (peakOf hz).2.1 / 8 ≠ t)) → j.frate t = k.frate t) ∧
        j.rate t ≤ k.rate t ∧ j.rate t ≤ j.frate t) ∧
      (j.alarmLive 2 = true ↔ ∃ t, t < 4 ∧ j.frate t < 64)) := by
  obtain ⟨hlen, hall⟩ : hz.length = 8 ∧ ∀ x ∈ hz, x.length = 64 := hhz ▸ s.forecast_length (p := p) meas mw duty k
  obtain ⟨temps, hx⟩ := exec_druStep (s := s) (p := p) meas mw duty
  rw [hx]
  refine ⟨fun h => onPkg_next (by rw [hk]; exact if_pos h), fun h => ⟨(k.shown meas hz (temps k)).throttle s.now (peakOf hz).1 (peakOf hz).2.1, onPkg_next ?_, ?_⟩⟩
  · rw [hk, hhz]
    exact if_neg (by rw [h]; exact Bool.false_ne_true)
  · obtain ⟨g1, g2, g3, g4, g5, g6⟩ := k.shown_spec meas hlen hall (temps k)
    generalize k.shown meas hz (temps k) = l at *
    generalize peakOf hz = pk at *
    obtain ⟨t1, t2, t3⟩ := l.throttle_spec s.now pk.1 pk.2.1
    have hf (t : Nat) : l.frate t = k.frate t := Pkg.get_of_rg (g5 R.THR_FRATE (by decide) (by decide))
    have hh (t v : Nat) : l.heldRate t v = k.heldRate t v := by rw [Pkg.heldRate, Pkg.sensorHold, g6]; rfl
    have hr (t : Nat) (ht : t < 4) : l.rate t = k.rate t := Pkg.get_of_rg (g5 _ (by simp only [F.PWR_TILE_STATE_RATE, R.PWR_TILE_STATE]; omega)
      (by simp only [F.PWR_TILE_STATE_RATE, R.PWR_TILE_STATE, R.THR_FORECAST]; omega))
    refine ⟨(t1 F.THR_FORECAST_PEAK (by decide) (by decide) (by decide) (by decide)).trans g1,
      (t1 F.THR_FORECAST_NODE (by decide) (by decide) (by decide) (by decide)).trans g2,
      (t1 F.THR_FORECAST_STEP (by decide) (by decide) (by decide) (by decide)).trans g3, fun n hn hb => ?_, fun t ht => ?_, t3⟩
    · refine (t1 (F.THR_NODE_MEAS n) ?_ ?_ ?_ ?_).trans (g4 n hn hb) <;>
        simp only [F.THR_NODE_MEAS, R.THR_NODE, R.THR_ALARM, R.THR_FRATE, R.THR_EVENTS] <;> omega
    · obtain ⟨a1, a2, a3, a4, a5⟩ := t2 t ht
      rw [hf, hh] at a1 a2
      rw [hf] at a3
      rw [hr t ht] at a4
      exact ⟨a1, a2, a3, a4, a5⟩

/-- Settles O42: FRATE by `Pkg.throttle_spec`, what is shown by `Pkg.shown_spec`, failed sensors, the trip and the shutdown by theirs. -/
theorem forecastAndTrips : Obligations.ForecastAndTrips := by
  unfold Obligations.ForecastAndTrips
  intro s p
  dsimp only
  refine ⟨fun meas mw duty => ?_, fun n => ?_, fun n temp => ?_, fun h => ?_, fun h => ?_⟩
  · have h := druStep_spec (s := s) (p := p) meas mw duty rfl rfl
    rw [State.forecast] at h
    exact h
  · rw [exec_sensorFail]
    generalize hk : s.pkg p = k
    refine ⟨fun h => onPkg_next (by rw [hk]; exact if_pos h), fun h => ⟨_, onPkg_next ?_, k.sensorFail_spec n.isLt s.now⟩⟩
    rw [hk]
    exact if_neg (by rw [h]; exact Bool.false_ne_true)
  · refine ⟨fun h => ?_, fun h1 h2 => ⟨(s.pkg p).tripped n.val temp.toNat, ?_, Pkg.tripped_spec n.val temp.isLt _⟩, fun h => ?_,
      fun h1 h2 => ⟨(s.pkg p).shutDown n.val temp.toNat, congrArg ThrSt.shutdown (Pkg.shutDown_thr ..), Pkg.get_shutDown _ temp.isLt _, rfl, fun hd => ?_, ?_⟩⟩
    · rw [exec_junctionTrip]
      exact onPkg_next (if_pos (by simpa using h))
    · rw [exec_junctionTrip]
      exact onPkg_next (if_neg (by rw [h2]; simp; omega))
    · have := exec_thermalShutdown_next (s := s) (p := p) n temp
      rw [Pkg.atShutdown_stays h] at this
      exact this rfl
    · have := exec_thermalShutdown_next (s := s) (p := p) n temp
      rw [Pkg.atShutdown_shuts h1 h2] at this
      exact this hd
    · obtain ⟨t, ht, hthr⟩ := exec_thermalShutdown_shut (s := s) (p := p) n temp
      rw [Pkg.atShutdown_shuts h1 h2] at hthr
      exact ⟨t, ht, hthr ▸ Pkg.raise_shutDown ..⟩
  · rw [exec_junctionTripRelease]
    exact onPkg_next (if_neg (by rw [h]; exact Bool.false_ne_true))
  · rw [exec_junctionTripRelease]
    exact ⟨_, onPkg_next (if_pos h), Pkg.tripReleased_spec s.now _⟩

end Sys2Proof.Machine
end

section
/-! PROOF. The brake at the ball, the governor and the operating points (R234–R238, R241, R244). -/
namespace Sys2Proof.Machine
open Sys2Proof

variable {i j k : Pkg} {s : State} {p : PkgId}

/-! ### What the governor reads -/

/-- A register that the governor reads, PWR_CAP_STATUS apart. -/
def powerReg (o : Nat) : Prop := o = R.AON_PKG_STATE ∨ isTileReg o ∨ o = R.PWR_BRAKE ∨ R.PWR_GUARD 0 ≤ o ∧ o < R.PWR_AGE_HOURS
theorem powerReg_tile {t : Nat} (ht : t < 4) : powerReg (R.PWR_TILE_STATE t) := .inr (.inl ⟨t, ht, rfl⟩)
/-- Two states of a package that the governor reads alike. -/
structure Pkg.PowerKept (j k : Pkg) : Prop where
  rg : ∀ o, powerReg o → k.rg o = j.rg o
  effective : k.effective = j.effective

theorem Pkg.PowerKept.refl (k : Pkg) : k.PowerKept k := ⟨fun _ _ => rfl, rfl⟩
theorem Pkg.PowerKept.trans (h : i.PowerKept j) (h' : j.PowerKept k) : i.PowerKept k :=
  ⟨fun o ho => (h'.rg o ho).trans (h.rg o ho), h'.effective.trans h.effective⟩
theorem Pkg.PowerKept.of_regs (h : k.regs = j.regs) : j.PowerKept k := ⟨fun o _ => Pkg.rg_of_regs h o, Pkg.get_of_regs h _⟩
theorem Pkg.PowerKept.get (h : j.PowerKept k) {f : Fld} (hf : powerReg f.off) : k.get f = j.get f := Pkg.get_of_rg (h.rg _ hf)
theorem Pkg.PowerKept.rate (h : j.PowerKept k) {t : Nat} (ht : t < 4) : k.rate t = j.rate t := h.get (powerReg_tile ht)
theorem Pkg.PowerKept.point (h : j.PowerKept k) {t : Nat} (ht : t < 4) : k.point t = j.point t := h.get (powerReg_tile ht)
theorem Pkg.PowerKept.furled (h : j.PowerKept k) (t : Nat) : k.tileFurled t = j.tileFurled t := congrArg (bit · t) (h.get (.inl rfl))
theorem Pkg.PowerKept.budget (h : j.PowerKept k) {t : Nat} (ht : t < 4) : k.budget t = j.budget t := by
  rw [Pkg.budget, h.get (.inr (.inr (.inl rfl))), h.get (powerReg_tile ht), Pkg.budget]
theorem Pkg.PowerKept.excess (h : j.PowerKept k) (draw : Nat) : k.excess draw = j.excess draw := by
  have hb : k.braked = j.braked := by rw [Pkg.braked, h.get (.inr (.inr (.inl rfl))), Pkg.braked]
  have hr : k.brakeRate = j.brakeRate := h.get (.inr (.inr (.inl rfl)))
  rw [Pkg.excess, Pkg.overPb, h.effective, hb, hr, Pkg.excess, Pkg.overPb]
theorem Pkg.share_congr (hf : ∀ t, t < 4 → k.tileFurled t = j.tileFurled t) (hb : ∀ t, t < 4 → k.budget t = j.budget t) (he : k.effective = j.effective)
    (u : Nat) {t : Nat} (ht : t < 4) : k.share u t = j.share u t := by
  have h4 (t : Nat) (h : t ∈ tiles4) : t < 4 := by simp [tiles4] at h; omega
  have ho : tiles4.filter (fun t => !k.tileFurled t) = tiles4.filter (fun t => !j.tileFurled t) := List.filter_congr fun t h => by rw [hf t (h4 t h)]
  have hm : (tiles4.filter fun t => !j.tileFurled t).map k.budget = (tiles4.filter fun t => !j.tileFurled t).map j.budget :=
    List.map_congr_left fun t h => hb t (h4 t (List.mem_of_mem_filter h))
  unfold Pkg.share
  dsimp only
  rw [ho, hm, hf t ht, hb t ht, he]
theorem Pkg.PowerKept.share (h : j.PowerKept k) (u : Nat) {t : Nat} (ht : t < 4) : k.share u t = j.share u t :=
  Pkg.share_congr (fun t _ => h.furled t) (fun _ ht => h.budget ht) h.effective u ht

/-! ### The brake -/

theorem Pkg.brakeLine_eq (b : Bool) (k : Pkg) : ∃ l : Pkg, k.brakeLine b = l.settleRates ∧ l.braked = b ∧ l.get F.PWR_CAP_STATUS_BRAKED = b.toNat ∧
    l.brakeRate = k.brakeRate ∧ (∀ t, t < 4 → l.rate t = k.rate t) ∧
    (b = true → l.thr.probeAt = none ∧ l.get F.PWR_EVENTS_BRAKES = min 255 (k.get F.PWR_EVENTS_BRAKES + if k.braked then 0 else 1)) := by
  have hline : (k.flag F.PWR_BRAKE_LINE b).get F.PWR_BRAKE_LINE = b.toNat := Pkg.get_flag_same _ _ _ (by decide) (by decide)
  have hrate : (k.flag F.PWR_BRAKE_LINE b).get F.PWR_BRAKE_RATE = k.brakeRate :=
    Pkg.get_flag_disjoint _ F.PWR_BRAKE_LINE F.PWR_BRAKE_RATE _ (by decide) rfl (by decide)
  have hb1 : ((k.flag F.PWR_BRAKE_LINE b).flag F.PWR_CAP_STATUS_BRAKED b).braked = b := by
    rw [Pkg.braked, Pkg.flag, Pkg.get_put_reg_ne _ F.PWR_CAP_STATUS_BRAKED _ _ (by decide), hline]
    cases b <;> rfl
  have hb2 : ((k.flag F.PWR_BRAKE_LINE b).flag F.PWR_CAP_STATUS_BRAKED b).get F.PWR_CAP_STATUS_BRAKED = b.toNat :=
    Pkg.get_flag_same _ _ _ (by decide) (by decide)
  have hb3 : ((k.flag F.PWR_BRAKE_LINE b).flag F.PWR_CAP_STATUS_BRAKED b).brakeRate = k.brakeRate := by
    rw [Pkg.brakeRate, Pkg.flag, Pkg.get_put_reg_ne _ F.PWR_CAP_STATUS_BRAKED _ _ (by decide), hrate]
  have hb4 (o : Nat) (h1 : o ≠ R.PWR_BRAKE) (h2 : o ≠ R.PWR_CAP_STATUS) : ((k.flag F.PWR_BRAKE_LINE b).flag F.PWR_CAP_STATUS_BRAKED b).rg o = k.rg o :=
    (Pkg.rg_put_ne _ _ _ h2).trans (Pkg.rg_put_ne _ _ _ h1)
  have ht (t : Nat) (ht : t < 4) : R.PWR_TILE_STATE t ≠ R.PWR_BRAKE ∧ R.PWR_TILE_STATE t ≠ R.PWR_CAP_STATUS ∧ R.PWR_TILE_STATE t ≠ R.PWR_EVENTS := by
    simp only [R.PWR_TILE_STATE, R.PWR_BRAKE, R.PWR_CAP_STATUS, R.PWR_EVENTS]
    omega
  unfold Pkg.brakeLine
  dsimp only
  generalize (k.flag F.PWR_BRAKE_LINE b).flag F.PWR_CAP_STATUS_BRAKED b = l at *
  cases b
  · exact ⟨l, rfl, hb1, hb2, hb3, fun t h => Pkg.get_of_rg (hb4 _ (ht t h).1 (ht t h).2.1), fun h => absurd h Bool.false_ne_true⟩
  · generalize hn : (if k.braked then 0 else 1) = n
    obtain ⟨x, hx, hprobe⟩ := (l.count F.PWR_EVENTS_BRAKES n).endProbe_eq true
    have hg (f : Fld) (h : f.off ≠ R.PWR_EVENTS) : ((l.count F.PWR_EVENTS_BRAKES n).endProbe true).get f = l.get f := by
      rw [hx]
      exact Pkg.get_put_reg_ne l F.PWR_EVENTS_BRAKES f _ h
    refine ⟨(l.count F.PWR_EVENTS_BRAKES n).endProbe true, rfl, ?_, (hg _ (by decide)).trans hb2, (hg _ (by decide)).trans hb3,
      fun t h => (hg _ (ht t h).2.2).trans (Pkg.get_of_rg (hb4 _ (ht t h).1 (ht t h).2.1)), fun _ => ⟨by rw [hx]; exact hprobe, ?_⟩⟩
    · rw [Pkg.braked, hg _ (by decide), ← Pkg.braked, hb1]
    · rw [hx]
      refine (Pkg.get_count_same l F.PWR_EVENTS_BRAKES n (by decide)).trans ?_
      rw [Pkg.get_of_rg (hb4 R.PWR_EVENTS (by decide) (by decide)) (f := F.PWR_EVENTS_BRAKES)]
      rfl
/-- What a change of the line leaves. -/
theorem Pkg.brakeLine_spec (b : Bool) (k : Pkg) : (k.brakeLine b).braked = b ∧ (k.brakeLine b).get F.PWR_CAP_STATUS_BRAKED = b.toNat ∧
    (∀ t, t < 4 → (k.brakeLine b).rate t ≤ k.rate t ∧ (b = true → (k.brakeLine b).rate t ≤ k.brakeRate)) ∧
    (b = true → (k.brakeLine b).get F.PWR_EVENTS_BRAKES = min 255 (k.get F.PWR_EVENTS_BRAKES + if k.braked then 0 else 1) ∧
      (k.brakeLine b).thr.probeAt = none) := by
  obtain ⟨l, hl, h1, h2, h3, h4, h5⟩ := k.brakeLine_eq b
  have hs := l.settleRates_settled
  rw [hl]
  refine ⟨?_, (hs.get (by decide) (by decide)).trans h2, fun t ht => ?_, fun hb => ?_⟩
  · rw [Pkg.braked, hs.brake F.PWR_BRAKE_LINE rfl (by decide), ← Pkg.braked, h1]
  · have := (l.rateLimit_le t).2.2.2.1
    rw [hs.rate t ht, h4 t ht]
    exact ⟨min_le_left .., fun hb => (min_le_right ..).trans ((this (h1.trans hb)).trans_eq h3)⟩
  · obtain ⟨g1, g2⟩ := h5 hb
    refine ⟨(hs.get (by decide) (by decide)).trans g2, ?_⟩
    rw [hs.onlyRegs]
    exact g1

/-! ### A ramp of the rates -/

/-- One step up of one tile's RATE, towards its limit. -/
def Pkg.rampTile (k : Pkg) (t : Nat) : Pkg := if k.rate t < k.rateLimit t then k.put (F.PWR_TILE_STATE_RATE t) (k.rate t + 1) else k
theorem Pkg.rampTile_onlyRegs (k : Pkg) (t : Nat) : OnlyRegs k (k.rampTile t) := .ite (.put ..) (.refl k)
theorem Pkg.rampTile_limits {t : Nat} (ht : t < 4) (k : Pkg) : k.SameRateLimits (k.rampTile t) := by
  unfold Pkg.rampTile
  split
  · exact Pkg.sameRateLimits_of (fun o ho => Pkg.rg_put_ne _ _ _ fun e => not_rateReg_tile ho ⟨t, ht, e⟩) rfl rfl
  · exact .refl k
theorem Pkg.rate_rampTile_ne {t u : Nat} (h : u ≠ t) (k : Pkg) : (k.rampTile u).rate t = k.rate t := by
  unfold Pkg.rampTile
  split
  · exact Pkg.get_put_reg_ne _ _ _ _ fun e => h (tileReg_inj e.symm)
  · rfl
theorem mem_tiles4 {t : Nat} : t ∈ tiles4 ↔ t < 4 := by simp [tiles4]; omega
theorem Pkg.rampTiles_limits (k : Pkg) : k.SameRateLimits (tiles4.foldl Pkg.rampTile k) :=
  List.foldlRecOn (motive := fun a => k.SameRateLimits a) tiles4 Pkg.rampTile (.refl k) fun _ ha _ hc => ha.trans (Pkg.rampTile_limits (mem_tiles4.1 hc) _)
theorem Pkg.rate_rampTiles {t : Nat} (ht : t < 4) (hr : k.rate t < 64) :
    (tiles4.foldl Pkg.rampTile k).rate t = if k.rate t < k.rateLimit t then k.rate t + 1 else k.rate t := by
  obtain ⟨a, ha, h1, h2⟩ : ∃ a : Pkg, k.SameRateLimits a ∧ a.rate t = k.rate t ∧ (tiles4.foldl Pkg.rampTile k).rate t = (a.rampTile t).rate t :=
    foldl_observed_on Pkg.rampTile (fun a => a.rate t) (fun a => k.SameRateLimits a) (· < 4) (fun a c hc h => h.trans (a.rampTile_limits hc))
      (fun a c _ hne _ => a.rate_rampTile_ne hne) tiles4 (fun _ => mem_tiles4.1) (by decide) (mem_tiles4.2 ht) k (.refl k)
  rw [h2, Pkg.rampTile, h1, ha.rateLimit]
  split
  · refine (Pkg.get_put_same _ _ _ (Nat.le_of_ble_eq_true rfl)).trans (Nat.mod_eq_of_lt ?_)
    simp only [F.PWR_TILE_STATE_RATE]
    omega
  · exact h1
/-- A step of the ramp: RATE rises by one below its limit, and falls to it at once. -/
theorem Pkg.rampStep_spec (k : Pkg) : OnlyRegs k (tiles4.foldl Pkg.rampTile k).settleRates ∧ ∀ t, t < 4 → k.rate t < 64 →
    (k.rate t < k.rateLimit t → (tiles4.foldl Pkg.rampTile k).settleRates.rate t = k.rate t + 1) ∧
    (k.rateLimit t ≤ k.rate t → (tiles4.foldl Pkg.rampTile k).settleRates.rate t = k.rateLimit t) := by
  have hs := (tiles4.foldl Pkg.rampTile k).settleRates_settled
  refine ⟨(OnlyRegs.foldl (fun k t => k.rampTile_onlyRegs t) tiles4 k).trans hs.onlyRegs, fun t ht hr => ?_⟩
  rw [hs.rate t ht, Pkg.rate_rampTiles ht hr, k.rampTiles_limits.rateLimit]
  split <;> omega

/-! ### Steps of the operating points -/

theorem Pkg.startStep_stepping (t q : Nat) (k : Pkg) : sfind (k.startStep t q).pwr.stepping t = some q := sfind_sinsert_same ..
theorem Pkg.startStep_stepping_ne {t u : Nat} (h : u ≠ t) (q : Nat) (k : Pkg) : sfind (k.startStep u q).pwr.stepping t = sfind k.pwr.stepping t :=
  sfind_sinsert_ne h.symm ..
theorem Pkg.stepDown_regs (draw t : Nat) (k : Pkg) : (k.stepDown draw t).regs = k.regs := by
  unfold Pkg.stepDown
  split <;> rfl
theorem Pkg.stepDown_stepping_ne {t u : Nat} (h : u ≠ t) (draw : Nat) (k : Pkg) : sfind (k.stepDown draw u).pwr.stepping t = sfind k.pwr.stepping t := by
  unfold Pkg.stepDown
  split
  · exact Pkg.startStep_stepping_ne h ..
  · rfl
/-- A tile at RATE 1 steps down while the draw is in excess. -/
theorem Pkg.stepDown_starts {draw t : Nat} (h1 : k.excess draw = true) (h2 : k.rate t = 1) (h3 : k.point t < 5) (h4 : k.isStepping t = false)
    (h5 : k.tileFurled t = false) : k.stepDown draw t = k.startStep t (k.point t + 1) := if_pos (by simp [h1, h2, h3, h4, h5])
theorem Pkg.stepDown_rests {draw t : Nat} (h : k.excess draw = false) : k.stepDown draw t = k := if_neg (by simp [h])
/-- The tiles of a tick's steps, each by its own state. -/
theorem Pkg.stepDowns_spec (draw : Nat) (k : Pkg) : (tiles4.foldl (fun k t => k.stepDown draw t) k).regs = k.regs ∧ ∀ t, t < 4 →
    k.excess draw = true → k.rate t = 1 → k.point t < 5 → k.isStepping t = false → k.tileFurled t = false →
    sfind (tiles4.foldl (fun k t => k.stepDown draw t) k).pwr.stepping t = some (k.point t + 1) := by
  refine ⟨foldl_kept (fun k t => k.stepDown draw t) Pkg.regs (fun k t => k.stepDown_regs draw t) tiles4 k, fun t ht h1 h2 h3 h4 h5 => ?_⟩
  obtain ⟨a, ha, g1, g2⟩ : ∃ a : Pkg, a.regs = k.regs ∧ sfind a.pwr.stepping t = sfind k.pwr.stepping t ∧
      sfind (tiles4.foldl (fun k t => k.stepDown draw t) k).pwr.stepping t = sfind (a.stepDown draw t).pwr.stepping t :=
    foldl_observed (fun k t => Pkg.stepDown draw t k) (fun a => sfind a.pwr.stepping t) (fun a => a.regs = k.regs) (fun a c h => (a.stepDown_regs draw c).trans h)
      (fun a c hne _ => a.stepDown_stepping_ne hne draw) tiles4 (by decide) (mem_tiles4.2 ht) k rfl
  have hp : k.PowerKept a := .of_regs ha
  have hs : a.isStepping t = false := by rw [Pkg.isStepping, g1, ← Pkg.isStepping, h4]
  rw [g2, Pkg.stepDown_starts ((hp.excess draw).trans h1) ((hp.rate ht).trans h2) (hp.point ht ▸ h3) hs ((hp.furled t).trans h5),
    Pkg.startStep_stepping, hp.point ht]

/-! ### UNMET -/

/-- A CE event leaves every register but the hub's own. -/
theorem Pkg.rg_raise_ce {d : Nat} (h : d < 2944) (hd : d ≠ det 253 0) (hc : detClass d = clsCE) (now : Nat) (i0 i1 : BitVec 64) {o : Nat} (ho : o < 0x400000)
    (h1 : o ≠ R.FLT_COUNTS) (h2 : o ≠ R.FLT_DROPS) (h3 : o ≠ R.FLT_LOG_HEAD) (k : Pkg) : (k.raise now d i0 i1).rg o = k.rg o := by
  have hce (k : Pkg) : (k.ceRate now d).rg o = k.rg o := by
    unfold Pkg.ceRate
    dsimp only
    split
    · exact (Pkg.log_logs ..).rg o h2 h3
    · rfl
  rw [Pkg.raise_eq h hd, if_pos hc]
  split
  · exact ((Pkg.logEvent_logs ..).rg o h2 h3).trans (Pkg.rg_faultCounted ho h1 d k)
  · exact (hce _).trans (((Pkg.logEvent_logs ..).rg o h2 h3).trans (Pkg.rg_faultCounted ho h1 d k))

/-- What a judgement of UNMET leaves. -/
structure Pkg.UnmetJudged (j k : Pkg) : Prop where
  rg : ∀ o, o < 0x400000 → o ≠ R.PWR_CAP_STATUS → o ≠ R.PWR_EVENTS → o ≠ R.FLT_COUNTS → o ≠ R.FLT_DROPS → o ≠ R.FLT_LOG_HEAD → k.rg o = j.rg o
  effective : k.effective = j.effective
  pwr : k.pwr = j.pwr
theorem Pkg.UnmetJudged.kept (h : j.UnmetJudged k) : j.PowerKept k := by
  refine ⟨fun o ho => ?_, h.effective⟩
  have hlt : o < 0x400000 ∧ o ≠ R.PWR_CAP_STATUS ∧ o ≠ R.PWR_EVENTS ∧ o ≠ R.FLT_COUNTS ∧ o ≠ R.FLT_DROPS ∧ o ≠ R.FLT_LOG_HEAD := by
    simp only [R.PWR_CAP_STATUS, R.PWR_EVENTS, R.FLT_COUNTS, R.FLT_DROPS, R.FLT_LOG_HEAD]
    rcases ho with rfl | ⟨t, ht, rfl⟩ | rfl | ho
    · decide
    · simp only [R.PWR_TILE_STATE]; omega
    · decide
    · simp only [R.PWR_GUARD, R.PWR_AGE_HOURS] at ho; omega
  obtain ⟨h0, h1, h2, h3, h4, h5⟩ := hlt
  exact h.rg o h0 h1 h2 h3 h4 h5
theorem Pkg.unmet_false {draw : Nat} (h : draw ≤ k.effective ∨ ∃ t, t < 4 ∧ k.tileFurled t = false ∧ ¬ (k.point t = 5 ∧ k.rate t = 1)) : k.unmet draw = false := by
  rw [Pkg.unmet, Bool.and_eq_false_iff]
  rcases h with h | ⟨t, ht, h1, h2⟩
  · exact .inl (by simp; omega)
  · refine .inr (List.all_eq_false.2 ⟨t, mem_tiles4.2 ht, ?_⟩)
    simpa [h1] using h2
theorem Pkg.unmet_true {draw : Nat} (h : k.effective < draw) (ht : ∀ t, t < 4 → k.tileFurled t = true ∨ (k.point t = 5 ∧ k.rate t = 1)) : k.unmet draw = true := by
  rw [Pkg.unmet, Bool.and_eq_true]
  exact ⟨by simpa using h, List.all_eq_true.2 fun t h => by simpa using ht t (mem_tiles4.1 h)⟩
/-- UNMET is shown, counted and reported. -/
def Pkg.showUnmet (k : Pkg) : Pkg := (k.flag F.PWR_CAP_STATUS_UNMET true).count F.PWR_EVENTS_UNMET 1
theorem Pkg.showUnmet_get (k : Pkg) : k.showUnmet.get F.PWR_CAP_STATUS_UNMET = 1 ∧ k.showUnmet.effective = k.effective ∧
    k.showUnmet.get F.PWR_EVENTS_UNMET = min 255 (k.get F.PWR_EVENTS_UNMET + 1) := by
  have hf : (k.flag F.PWR_CAP_STATUS_UNMET true).get F.PWR_CAP_STATUS_UNMET = 1 := Pkg.get_flag_same _ _ _ (by decide) (by decide)
  have he : (k.flag F.PWR_CAP_STATUS_UNMET true).effective = k.effective :=
    Pkg.get_flag_disjoint k F.PWR_CAP_STATUS_UNMET F.PWR_CAP_STATUS_EFFECTIVE _ (by decide) rfl (by decide)
  have hu : (k.flag F.PWR_CAP_STATUS_UNMET true).get F.PWR_EVENTS_UNMET = k.get F.PWR_EVENTS_UNMET := Pkg.get_put_reg_ne _ _ _ _ (by decide)
  refine ⟨(Pkg.get_put_reg_ne _ _ _ _ (by decide)).trans hf, (Pkg.get_put_reg_ne _ _ _ _ (by decide)).trans he, ?_⟩
  rw [← hu]
  exact Pkg.get_count_same _ _ 1 (by decide)
theorem Pkg.judgeUnmet_met {now draw : Nat} (h : k.unmet draw = false) : k.judgeUnmet now draw = k.flag F.PWR_CAP_STATUS_UNMET false :=
  if_neg (by rw [h]; exact Bool.false_ne_true)
theorem Pkg.judgeUnmet_stands {now draw : Nat} (h : k.unmet draw = true) (hu : k.get F.PWR_CAP_STATUS_UNMET = 1) : k.judgeUnmet now draw = k :=
  (if_pos h).trans (if_pos hu)
theorem Pkg.judgeUnmet_rises {now draw : Nat} (h : k.unmet draw = true) (hu : k.get F.PWR_CAP_STATUS_UNMET ≠ 1) :
    k.judgeUnmet now draw = k.showUnmet.raise now (det 252 0) 0 0 := (if_pos h).trans (if_neg hu)
theorem Pkg.raise_unmet (now : Nat) (k : Pkg) : (k.raise now (det 252 0) 0 0).pwr = k.pwr ∧ ∀ o, o < 0x400000 → o ≠ R.FLT_COUNTS → o ≠ R.FLT_DROPS →
    o ≠ R.FLT_LOG_HEAD → (k.raise now (det 252 0) 0 0).rg o = k.rg o :=
  ⟨(Pkg.raise_heat (by decide) (by decide) (by decide) now 0 0 k).2.1,
    fun _ h0 h1 h2 h3 => Pkg.rg_raise_ce (by decide) (by decide) (by decide) now 0 0 h0 h1 h2 h3 k⟩
theorem Pkg.judgeUnmet_judged (now draw : Nat) (k : Pkg) : k.UnmetJudged (k.judgeUnmet now draw) := by
  cases h : k.unmet draw
  · rw [Pkg.judgeUnmet_met h]
    exact ⟨fun o _ h1 _ _ _ _ => Pkg.rg_put_ne _ _ _ h1, Pkg.get_flag_disjoint k F.PWR_CAP_STATUS_UNMET F.PWR_CAP_STATUS_EFFECTIVE _ (by decide) rfl (by decide), rfl⟩
  · by_cases hu : k.get F.PWR_CAP_STATUS_UNMET = 1
    · rw [Pkg.judgeUnmet_stands h hu]
      exact ⟨fun _ _ _ _ _ _ _ => rfl, rfl, rfl⟩
    · rw [Pkg.judgeUnmet_rises h hu]
      obtain ⟨g1, g2⟩ := k.showUnmet.raise_unmet now
      refine ⟨fun o h0 h1 h2 h3 h4 h5 => (g2 o h0 h3 h4 h5).trans ((Pkg.rg_put_ne _ _ _ h2).trans (Pkg.rg_put_ne _ _ _ h1)), ?_, g1⟩
      exact (Pkg.get_of_rg (g2 R.PWR_CAP_STATUS (by decide) (by decide) (by decide) (by decide))).trans k.showUnmet_get.2.1
/-- UNMET reads 0 where the cap is met or a running tile can be lowered, and rises with its count where none can. -/
theorem Pkg.judgeUnmet_spec (now draw : Nat) (k : Pkg) :
    (k.unmet draw = false → (k.judgeUnmet now draw).get F.PWR_CAP_STATUS_UNMET = 0) ∧
    (k.unmet draw = true → k.get F.PWR_CAP_STATUS_UNMET = 0 → (k.judgeUnmet now draw).get F.PWR_CAP_STATUS_UNMET = 1 ∧
      (k.judgeUnmet now draw).get F.PWR_EVENTS_UNMET = min 255 (k.get F.PWR_EVENTS_UNMET + 1)) := by
  refine ⟨fun h => ?_, fun h hu => ?_⟩
  · rw [Pkg.judgeUnmet_met h]
    exact Pkg.get_flag_same _ _ _ (by decide) (by decide)
  · rw [Pkg.judgeUnmet_rises h (by omega)]
    obtain ⟨-, g2⟩ := k.showUnmet.raise_unmet now
    obtain ⟨h1, -, h3⟩ := k.showUnmet_get
    exact ⟨(Pkg.get_of_rg (g2 R.PWR_CAP_STATUS (by decide) (by decide) (by decide) (by decide))).trans h1,
      (Pkg.get_of_rg (g2 R.PWR_EVENTS (by decide) (by decide) (by decide) (by decide))).trans h3⟩

end Sys2Proof.Machine
end

section
/-! PROOF. A tick of the governor, and the judgement and the steps of operating points (R234–R238, R241, R244). -/
namespace Sys2Proof.Machine
open Sys2Proof

variable {i j k : Pkg} {s : State} {p : PkgId}

/-! ### The meter -/

/-- Between two states of a package the draw was metered. -/
structure Pkg.Metered (j k : Pkg) : Prop where
  rg : ∀ o, o ≠ R.PWR_DRAW → o ≠ R.THR_SEA_TRIAL → o ≠ R.PWR_ENERGY_LO → o ≠ R.PWR_ENERGY_HI → k.rg o = j.rg o
  stepping : k.pwr.stepping = j.pwr.stepping
theorem Pkg.Metered.refl (k : Pkg) : k.Metered k := ⟨fun _ _ _ _ _ => rfl, rfl⟩
theorem Pkg.Metered.trans (h : i.Metered j) (h' : j.Metered k) : i.Metered k :=
  ⟨fun o h1 h2 h3 h4 => (h'.rg o h1 h2 h3 h4).trans (h.rg o h1 h2 h3 h4), h'.stepping.trans h.stepping⟩
theorem Pkg.Metered.put (k : Pkg) (f : Fld) (v : Nat) (h : f.off = R.PWR_DRAW ∨ f.off = R.THR_SEA_TRIAL) : k.Metered (k.put f v) :=
  ⟨fun o h1 h2 _ _ => Pkg.rg_put_ne _ _ _ fun e => h.elim (fun h => h1 (e.trans h)) fun h => h2 (e.trans h), rfl⟩
theorem Pkg.Metered.kept (h : j.Metered k) : j.PowerKept k := by
  refine ⟨fun o ho => ?_, Pkg.get_of_rg (h.rg _ (by decide) (by decide) (by decide) (by decide))⟩
  have hne : o ≠ R.PWR_DRAW ∧ o ≠ R.THR_SEA_TRIAL ∧ o ≠ R.PWR_ENERGY_LO ∧ o ≠ R.PWR_ENERGY_HI := by
    rcases ho with rfl | ⟨t, ht, rfl⟩ | rfl | ho
    · decide
    · simp only [R.PWR_TILE_STATE, R.PWR_DRAW, R.THR_SEA_TRIAL, R.PWR_ENERGY_LO, R.PWR_ENERGY_HI]; omega
    · decide
    · simp only [R.PWR_GUARD, R.PWR_AGE_HOURS] at ho
      simp only [R.PWR_DRAW, R.THR_SEA_TRIAL, R.PWR_ENERGY_LO, R.PWR_ENERGY_HI]; omega
  obtain ⟨h1, h2, h3, h4⟩ := hne
  exact h.rg o h1 h2 h3 h4
theorem Pkg.closeMs_metered (k : Pkg) : k.Metered k.closeMs := by
  unfold Pkg.closeMs
  split
  · exact .refl k
  · have h : k.Metered ((k.put F.PWR_DRAW_DRAW_W (min 4095 (k.pwr.msDraw / k.pwr.msTicks))).put F.PWR_DRAW_UNCORE_W (min 4095 (k.pwr.msUncore / k.pwr.msTicks))) :=
      .trans (.put _ _ _ (.inl rfl)) (.put _ _ _ (.inl rfl))
    dsimp only
    split
    · exact h.trans (.put _ _ _ (.inr rfl))
    · exact h
/-- The means of the millisecond that has ended. -/
def Pkg.newMs (now : Nat) (k : Pkg) : Pkg :=
  if k.time now / 10 ^ 6 = k.pwr.msIndex then k
  else k.closeMs.setPwr fun x => { x with msIndex := k.time now / 10 ^ 6, msTicks := 0, msDraw := 0, msUncore := 0 }
theorem Pkg.newMs_metered (now : Nat) (k : Pkg) : k.Metered (k.newMs now) := by
  unfold Pkg.newMs
  split
  · exact .refl k
  · exact k.closeMs_metered.trans ⟨fun _ _ _ _ _ => rfl, rfl⟩
theorem Pkg.meter_eq (now u draw : Nat) (k : Pkg) : ∃ (v : Nat) (f : PwrSt → PwrSt), k.meter now u draw = ((k.newMs now).setWide R.PWR_ENERGY_LO v).setPwr f ∧
    ∀ x, (f x).stepping = x.stepping :=
  ⟨(k.newMs now).wide R.PWR_ENERGY_LO + ((k.newMs now).pwr.energyRest + draw) / 100,
    fun x => { x with energyRest := ((k.newMs now).pwr.energyRest + draw) % 100, msTicks := x.msTicks + 1, msDraw := x.msDraw + draw, msUncore := x.msUncore + u },
    rfl, fun _ => rfl⟩
theorem Pkg.meter_metered (now u draw : Nat) (k : Pkg) : k.Metered (k.meter now u draw) := by
  obtain ⟨v, f, h, hf⟩ := k.meter_eq now u draw
  rw [h]
  refine (k.newMs_metered now).trans ⟨fun o _ _ h3 h4 => (Pkg.rg_setPwr ..).trans (Pkg.rg_setWide_ne _ _ _ h3 h4), hf _⟩

/-! ### The shares and the governor's rates -/

/-- What a tick sets for one tile. -/
def Pkg.govTile (u draw : Nat) (tileW : List Nat) (k : Pkg) (t : Nat) : Pkg :=
  ((k.put (F.PWR_TILE_STATE_BUDGET_W t) (k.budget t)).put (F.PWR_TILE_STATE_LIMIT_W t) (k.share u t)).setPwr fun x =>
    { x with govRate := sset 64 x.govRate t (if k.tileFurled t then 64 else k.governed u draw t (tileW.getD t 0)) }
/-- Between two states of a package nothing that the governor reads changed but shares and its own rates. -/
structure Pkg.Shared (j k : Pkg) : Prop where
  rg : ∀ o, ¬ isTileReg o → k.rg o = j.rg o
  rate : ∀ t, t < 4 → k.rate t = j.rate t
  budget : ∀ t, t < 4 → k.budget t = j.budget t
  stepping : k.pwr.stepping = j.pwr.stepping
theorem not_isTileReg {o : Nat} (h : o < 0x40020 ∨ 0x40030 ≤ o) : ¬ isTileReg o := isTileReg_ne h
theorem Pkg.Shared.refl (k : Pkg) : k.Shared k := ⟨fun _ _ => rfl, fun _ _ => rfl, fun _ _ => rfl, rfl⟩
theorem Pkg.Shared.trans (h : i.Shared j) (h' : j.Shared k) : i.Shared k :=
  ⟨fun o ho => (h'.rg o ho).trans (h.rg o ho), fun t ht => (h'.rate t ht).trans (h.rate t ht), fun t ht => (h'.budget t ht).trans (h.budget t ht),
    h'.stepping.trans h.stepping⟩
theorem Pkg.Shared.get (h : j.Shared k) {f : Fld} (hf : f.off < 0x40020 ∨ 0x40030 ≤ f.off) : k.get f = j.get f := Pkg.get_of_rg (h.rg _ (not_isTileReg hf))
theorem Pkg.Shared.furled (h : j.Shared k) (t : Nat) : k.tileFurled t = j.tileFurled t := congrArg (bit · t) (h.get (.inl (by decide)))
theorem Pkg.Shared.effective (h : j.Shared k) : k.effective = j.effective := h.get (.inl (by decide))
theorem Pkg.Shared.share (h : j.Shared k) (u : Nat) {t : Nat} (ht : t < 4) : k.share u t = j.share u t :=
  Pkg.share_congr (fun t _ => h.furled t) h.budget h.effective u ht
theorem Pkg.Shared.excess (h : j.Shared k) (draw : Nat) : k.excess draw = j.excess draw := by
  have hb : k.braked = j.braked := by rw [Pkg.braked, h.get (.inr (by decide)), Pkg.braked]
  have hr : k.brakeRate = j.brakeRate := h.get (.inr (by decide))
  rw [Pkg.excess, Pkg.overPb, h.effective, hb, hr, Pkg.excess, Pkg.overPb]
theorem Pkg.budget_lt (k : Pkg) (t : Nat) : k.budget t < 256 := by
  unfold Pkg.budget
  split
  · decide
  · exact Nat.mod_lt _ (Nat.two_pow_pos 8)
theorem Pkg.share_lt (k : Pkg) (u t : Nat) : k.share u t < 256 := by
  have := k.budget_lt t
  unfold Pkg.share
  dsimp only
  split
  · decide
  · omega

theorem Pkg.rg_govTile {o t : Nat} (h : o ≠ R.PWR_TILE_STATE t) (u draw : Nat) (tileW : List Nat) (k : Pkg) : (k.govTile u draw tileW t).rg o = k.rg o :=
  (Pkg.rg_setPwr ..).trans ((Pkg.rg_put_ne _ _ _ h).trans (Pkg.rg_put_ne _ _ _ h))
theorem Pkg.govTile_stepping (u draw : Nat) (tileW : List Nat) (k : Pkg) (t : Nat) : (k.govTile u draw tileW t).pwr.stepping = k.pwr.stepping := rfl
theorem Pkg.get_govTile_same (t u draw : Nat) (tileW : List Nat) (k : Pkg) : (k.govTile u draw tileW t).rate t = k.rate t ∧
    (k.govTile u draw tileW t).get (F.PWR_TILE_STATE_BUDGET_W t) = k.budget t ∧ (k.govTile u draw tileW t).get (F.PWR_TILE_STATE_LIMIT_W t) = k.share u t := by
  unfold Pkg.govTile
  refine ⟨?_, ?_, ?_⟩
  · rw [Pkg.rate, Pkg.get_setPwr, Pkg.get_put_disjoint _ (F.PWR_TILE_STATE_LIMIT_W t) (F.PWR_TILE_STATE_RATE t) _ (Nat.le_of_ble_eq_true rfl) rfl (.inl (Nat.le_of_ble_eq_true rfl)),
      Pkg.get_put_disjoint _ (F.PWR_TILE_STATE_BUDGET_W t) (F.PWR_TILE_STATE_RATE t) _ (Nat.le_of_ble_eq_true rfl) rfl (.inl (Nat.le_of_ble_eq_true rfl))]
    rfl
  · rw [Pkg.get_setPwr, Pkg.get_put_disjoint _ (F.PWR_TILE_STATE_LIMIT_W t) (F.PWR_TILE_STATE_BUDGET_W t) _ (Nat.le_of_ble_eq_true rfl) rfl (.inr (Nat.le_of_ble_eq_true rfl)),
      Pkg.get_put_same _ _ _ (Nat.le_of_ble_eq_true rfl)]
    exact Nat.mod_eq_of_lt (k.budget_lt t)
  · rw [Pkg.get_setPwr, Pkg.get_put_same _ _ _ (Nat.le_of_ble_eq_true rfl)]
    exact Nat.mod_eq_of_lt (k.share_lt u t)
theorem Pkg.govTile_shared {t : Nat} (ht : t < 4) (u draw : Nat) (tileW : List Nat) (k : Pkg) : k.Shared (k.govTile u draw tileW t) := by
  obtain ⟨h1, h2, -⟩ := k.get_govTile_same t u draw tileW
  have hne (a : Nat) (h : a ≠ t) : R.PWR_TILE_STATE a ≠ R.PWR_TILE_STATE t := fun e => h (tileReg_inj e)
  have hd : (k.govTile u draw tileW t).get F.PWR_BRAKE_DEFAULT = k.get F.PWR_BRAKE_DEFAULT :=
    Pkg.get_of_rg (Pkg.rg_govTile (by simp only [F.PWR_BRAKE_DEFAULT, R.PWR_BRAKE, R.PWR_TILE_STATE]; omega) ..)
  refine ⟨fun o ho => Pkg.rg_govTile (fun e => ho ⟨t, ht, e⟩) .., fun a _ => ?_, fun a _ => ?_, Pkg.govTile_stepping ..⟩
  · by_cases h : a = t
    · rw [h, h1]
    · exact Pkg.get_of_rg (Pkg.rg_govTile (hne a h) ..)
  · by_cases h : a = t
    · subst h
      rw [Pkg.budget, hd, h2]
      unfold Pkg.budget
      split <;> rfl
    · rw [Pkg.budget, hd, Pkg.get_of_rg (Pkg.rg_govTile (o := R.PWR_TILE_STATE a) (hne a h) ..) (f := F.PWR_TILE_STATE_BUDGET_W a)]
      rfl
/-- What a tick sets for every tile. -/
theorem Pkg.govTiles_spec (u draw : Nat) (tileW : List Nat) (k : Pkg) : k.Shared (tiles4.foldl (Pkg.govTile u draw tileW) k) ∧ ∀ t, t < 4 →
    (tiles4.foldl (Pkg.govTile u draw tileW) k).get (F.PWR_TILE_STATE_LIMIT_W t) = k.share u t ∧
    sget 64 (tiles4.foldl (Pkg.govTile u draw tileW) k).pwr.govRate t = if k.tileFurled t then 64 else k.governed u draw t (tileW.getD t 0) := by
  refine ⟨List.foldlRecOn (motive := fun a => k.Shared a) tiles4 _ (.refl k) fun _ ha _ hc => ha.trans (Pkg.govTile_shared (mem_tiles4.1 hc) ..), fun t ht => ?_⟩
  obtain ⟨a, ha, -, h2⟩ : ∃ a : Pkg, k.Shared a ∧ (a.get (F.PWR_TILE_STATE_LIMIT_W t), sget 64 a.pwr.govRate t) =
        (k.get (F.PWR_TILE_STATE_LIMIT_W t), sget 64 k.pwr.govRate t) ∧
      ((tiles4.foldl (Pkg.govTile u draw tileW) k).get (F.PWR_TILE_STATE_LIMIT_W t), sget 64 (tiles4.foldl (Pkg.govTile u draw tileW) k).pwr.govRate t) =
        ((a.govTile u draw tileW t).get (F.PWR_TILE_STATE_LIMIT_W t), sget 64 (a.govTile u draw tileW t).pwr.govRate t) := by
    refine foldl_observed_on (Pkg.govTile u draw tileW) (fun a => (a.get (F.PWR_TILE_STATE_LIMIT_W t), sget 64 a.pwr.govRate t)) (fun a => k.Shared a) (· < 4)
      (fun a c hc h => h.trans (a.govTile_shared hc u draw tileW)) (fun a c _ hne _ => ?_) tiles4 (fun _ => mem_tiles4.1) (by decide) (mem_tiles4.2 ht) k (.refl k)
    exact Prod.ext (Pkg.get_of_rg (Pkg.rg_govTile (fun e => hne (tileReg_inj e).symm) ..)) (sget_sset_ne _ _ _ _ (Ne.symm hne))
  obtain ⟨h3, h4⟩ := Prod.mk.inj h2
  have hg : a.governed u draw t (tileW.getD t 0) = k.governed u draw t (tileW.getD t 0) := by
    rw [Pkg.governed, ha.share u ht, ha.rate t ht, ha.effective, ha.excess]
    rfl
  refine ⟨h3.trans ((a.get_govTile_same t u draw tileW).2.2.trans (ha.share u ht)), h4.trans ?_⟩
  refine (sget_sset_same ..).trans ?_
  rw [ha.furled, hg]
/-- The rate the governor chooses is 1 where the pool is used up, and falls in an excess. -/
theorem Pkg.governed_le (u draw t tw : Nat) (k : Pkg) : (k.effective ≤ u → k.governed u draw t tw = 1) ∧
    (k.excess draw = true → k.governed u draw t tw ≤ max 1 (k.rate t - 1)) := by
  unfold Pkg.governed
  dsimp only
  refine ⟨fun h => if_pos h, fun h => ?_⟩
  rw [h]
  split
  · omega
  · exact min_le_right ..

/-! ### The mean of RATE -/

/-- One tile's RATE enters its mean. -/
def Pkg.tallyTile (k : Pkg) (t : Nat) : Pkg := k.setPwr fun x =>
  { x with rateSum := sset 0 x.rateSum t (sget 0 x.rateSum t + k.rate t), rateMin := sset 64 x.rateMin t (min (sget 64 x.rateMin t) (k.rate t)) }
theorem Pkg.tallyTile_regs (k : Pkg) (t : Nat) : (k.tallyTile t).regs = k.regs := rfl
theorem Pkg.tallyTile_stepping (k : Pkg) (t : Nat) : (k.tallyTile t).pwr.stepping = k.pwr.stepping := rfl
theorem Pkg.tallyRate_frame (k : Pkg) : k.tallyRate.regs = k.regs ∧ k.tallyRate.pwr.stepping = k.pwr.stepping := by
  have h : k.tallyRate = (tiles4.foldl Pkg.tallyTile k).setPwr fun x => { x with ticks := x.ticks + 1 } := rfl
  have h1 : (tiles4.foldl Pkg.tallyTile k).regs = k.regs := foldl_kept Pkg.tallyTile Pkg.regs (fun k t => k.tallyTile_regs t) tiles4 k
  have h2 : (tiles4.foldl Pkg.tallyTile k).pwr.stepping = k.pwr.stepping :=
    foldl_kept Pkg.tallyTile (fun k => k.pwr.stepping) (fun k t => k.tallyTile_stepping t) tiles4 k
  rw [h]
  generalize tiles4.foldl Pkg.tallyTile k = l at *
  exact ⟨h1, h2⟩

end Sys2Proof.Machine
end

section
/-! PROOF. What a tick of the governor, a judgement of points and the end of a step leave (R234–R238, R241, R244). -/
namespace Sys2Proof.Machine
open Sys2Proof

variable {i j k : Pkg} {s : State} {p : PkgId}

/-! ### A tick -/

/-- The steps of a tick before the rates: the draw is metered, tiles step down, and UNMET is judged. -/
def Pkg.tickJudged (now u draw : Nat) (k : Pkg) : Pkg := (tiles4.foldl (fun k t => k.stepDown draw t) (k.meter now u draw)).judgeUnmet now draw
theorem Pkg.govern_eq (now : Nat) (tileW : List Nat) (u : Nat) (k : Pkg) : k.govern now tileW u =
    (tiles4.foldl (Pkg.govTile u (tileW.foldl (· + ·) u) tileW) (k.tickJudged now u (tileW.foldl (· + ·) u))).settleRates.tallyRate := rfl
theorem Pkg.tickJudged_spec (now u draw : Nat) (k : Pkg) : k.PowerKept (k.tickJudged now u draw) ∧
    (∀ t, t < 4 → k.excess draw = true → k.rate t = 1 → k.point t < 5 → k.isStepping t = false → k.tileFurled t = false →
      sfind (k.tickJudged now u draw).pwr.stepping t = some (k.point t + 1)) ∧
    ((draw ≤ k.effective ∨ ∃ t, t < 4 ∧ k.tileFurled t = false ∧ ¬ (k.point t = 5 ∧ k.rate t = 1)) → (k.tickJudged now u draw).get F.PWR_CAP_STATUS_UNMET = 0) ∧
    (k.effective < draw → k.get F.PWR_CAP_STATUS_UNMET = 0 → (∀ t, t < 4 → k.tileFurled t = true ∨ (k.point t = 5 ∧ k.rate t = 1)) →
      (k.tickJudged now u draw).get F.PWR_CAP_STATUS_UNMET = 1 ∧
        (k.tickJudged now u draw).get F.PWR_EVENTS_UNMET = min 255 (k.get F.PWR_EVENTS_UNMET + 1)) := by
  have hm := k.meter_metered now u draw
  unfold Pkg.tickJudged
  generalize k.meter now u draw = a at *
  obtain ⟨hr, hst⟩ := a.stepDowns_spec draw
  generalize tiles4.foldl (fun k t => Pkg.stepDown draw t k) a = b at *
  have hab : a.PowerKept b := .of_regs hr
  have hb : k.PowerKept b := hm.kept.trans hab
  have hj := b.judgeUnmet_judged now draw
  obtain ⟨hj0, hj1⟩ := b.judgeUnmet_spec now draw
  have hget (f : Fld) (h1 : f.off = R.PWR_CAP_STATUS ∨ f.off = R.PWR_EVENTS) : b.get f = k.get f := by
    refine (Pkg.get_of_regs hr f).trans (Pkg.get_of_rg (hm.rg _ ?_ ?_ ?_ ?_)) <;> rcases h1 with h | h <;> rw [h] <;> decide
  generalize b.judgeUnmet now draw = c at *
  refine ⟨hb.trans hj.kept, fun t ht h1 h2 h3 h4 h5 => ?_, fun h => hj0 (Pkg.unmet_false ?_), fun h1 h2 h3 => ?_⟩
  · have h6 : a.isStepping t = false := by rw [Pkg.isStepping, hm.stepping, ← Pkg.isStepping, h4]
    rw [hj.pwr, hst t ht ((hm.kept.excess draw).trans h1) ((hm.kept.rate ht).trans h2) (hm.kept.point ht ▸ h3) h6 ((hm.kept.furled t).trans h5), hm.kept.point ht]
  · refine h.imp (fun h => h.trans_eq hb.effective.symm) fun ⟨t, ht, g1, g2⟩ => ⟨t, ht, (hb.furled t).trans g1, ?_⟩
    rwa [hb.point ht, hb.rate ht]
  · rw [← hget F.PWR_EVENTS_UNMET (.inr rfl)]
    refine hj1 (Pkg.unmet_true (hb.effective.trans_lt h1) fun t ht => ?_) ((hget _ (.inl rfl)).trans h2)
    rw [hb.furled, hb.point ht, hb.rate ht]
    exact h3 t ht
/-- What a tick of the governor leaves. -/
theorem Pkg.govern_spec (now : Nat) (tileW : List Nat) (u draw : Nat) (hd : tileW.foldl (· + ·) u = draw) (k : Pkg) :
    (∀ t, t < 4 → (k.govern now tileW u).rate t ≤ k.rate t ∧ (k.govern now tileW u).get (F.PWR_TILE_STATE_LIMIT_W t) = k.share u t ∧
      (k.effective ≤ u → k.tileFurled t = false → (k.govern now tileW u).rate t ≤ 1) ∧
      (k.excess draw = true → k.tileFurled t = false → (k.govern now tileW u).rate t ≤ max 1 (k.rate t - 1))) ∧
    (draw ≤ k.effective → (k.govern now tileW u).get F.PWR_CAP_STATUS_UNMET = 0) ∧
    (∀ t, t < 4 → k.excess draw = true → k.rate t = 1 → k.point t < 5 → k.isStepping t = false → k.tileFurled t = false →
      sfind (k.govern now tileW u).pwr.stepping t = some (k.point t + 1)) ∧
    (∀ t, t < 4 → k.tileFurled t = false → ¬ (k.point t = 5 ∧ k.rate t = 1) → (k.govern now tileW u).get F.PWR_CAP_STATUS_UNMET = 0) ∧
    (k.effective < draw → k.get F.PWR_CAP_STATUS_UNMET = 0 → (∀ t, t < 4 → k.tileFurled t = true ∨ (k.point t = 5 ∧ k.rate t = 1)) →
      (k.govern now tileW u).get F.PWR_CAP_STATUS_UNMET = 1 ∧ (k.govern now tileW u).get F.PWR_EVENTS_UNMET = min 255 (k.get F.PWR_EVENTS_UNMET + 1)) := by
  rw [Pkg.govern_eq, hd]
  obtain ⟨hc, hst, hu0, hu1⟩ := k.tickJudged_spec now u draw
  generalize k.tickJudged now u draw = c at *
  obtain ⟨hs, hv⟩ := c.govTiles_spec u draw tileW
  generalize tiles4.foldl (Pkg.govTile u draw tileW) c = d at *
  have he := d.settleRates_settled
  generalize d.settleRates = e at *
  obtain ⟨hr, hp⟩ := e.tallyRate_frame
  generalize e.tallyRate = l at *
  have hget (f : Fld) (h1 : f.off < 0x40020 ∨ 0x40030 ≤ f.off) (h2 : f.off ≠ R.PWR_BRAKE) : l.get f = c.get f :=
    (Pkg.get_of_regs hr f).trans ((he.get h1 h2).trans (hs.get h1))
  have hunmet := hget F.PWR_CAP_STATUS_UNMET (.inl (by decide)) (by decide)
  have hstep : l.pwr.stepping = c.pwr.stepping := by rw [hp, he.onlyRegs]; exact hs.stepping
  refine ⟨fun t ht => ?_, fun h => hunmet.trans (hu0 (.inl h)), fun t ht h1 h2 h3 h4 h5 => ?_, fun t ht h1 h2 => hunmet.trans (hu0 (.inr ⟨t, ht, h1, h2⟩)),
    fun h1 h2 h3 => ?_⟩
  · have hrate : l.rate t = min (k.rate t) (d.rateLimit t) := by
      refine (Pkg.get_of_regs hr _).trans ((he.rate t ht).trans ?_)
      rw [hs.rate t ht, hc.rate ht]
    have hlim := (d.rateLimit_le t).1
    obtain ⟨h1, h2⟩ := hv t ht
    rw [h2] at hlim
    obtain ⟨h3, h4⟩ := c.governed_le u draw t (tileW.getD t 0)
    rw [hc.effective] at h3
    rw [hc.excess, hc.rate ht] at h4
    rw [hc.furled] at hlim
    refine ⟨by omega, ?_, fun h hf => ?_, fun h hf => ?_⟩
    · exact (Pkg.get_of_regs hr _).trans ((he.tile t _ ht rfl (Nat.le_of_ble_eq_true rfl) (Nat.le_of_ble_eq_true rfl)).trans (h1.trans (hc.share u ht)))
    · rw [hf, if_neg Bool.false_ne_true, h3 h] at hlim
      omega
    · rw [hf, if_neg Bool.false_ne_true] at hlim
      have := h4 h
      omega
  · rw [hstep]
    exact hst t ht h1 h2 h3 h4 h5
  · obtain ⟨g1, g2⟩ := hu1 h1 h2 h3
    exact ⟨hunmet.trans g1, (hget F.PWR_EVENTS_UNMET (.inr (by decide)) (by decide)).trans g2⟩

/-! ### The slow path -/

/-- What the slow path reads beside registers. -/
def Pkg.SameMeans (j k : Pkg) : Prop := k.regs = j.regs ∧ k.pwr.ticks = j.pwr.ticks ∧ k.pwr.rateSum = j.pwr.rateSum ∧ k.pwr.rateMin = j.pwr.rateMin
theorem Pkg.judgePoint_same (t tw : Nat) (k : Pkg) : k.SameMeans (k.judgePoint t tw) := by
  unfold Pkg.judgePoint
  split_ifs <;> exact ⟨rfl, rfl, rfl, rfl⟩
theorem Pkg.judgePoint_stepping_ne {t u : Nat} (h : u ≠ t) (tw : Nat) (k : Pkg) : sfind (k.judgePoint u tw).pwr.stepping t = sfind k.pwr.stepping t := by
  unfold Pkg.judgePoint
  split_ifs
  · rfl
  · exact Pkg.startStep_stepping_ne h ..
  · rfl
  · exact Pkg.startStep_stepping_ne h ..
  · rfl
/-- The slow path judges each tile by its RATE over the last 10 ms. -/
theorem Pkg.judgePoint_spec {t tw : Nat} (h0 : k.isStepping t = false) (h1 : k.tileFurled t = false) (h2 : 0 < k.pwr.ticks) :
    (sget 0 k.pwr.rateSum t ≤ 40 * k.pwr.ticks → k.point t < 5 → sfind (k.judgePoint t tw).pwr.stepping t = some (k.point t + 1)) ∧
    (40 * k.pwr.ticks < sget 0 k.pwr.rateSum t → sget 64 k.pwr.rateMin t = 64 → 100 * tw < 85 * k.get (F.PWR_TILE_STATE_LIMIT_W t) → 0 < k.point t →
      (k.braked = false → sfind (k.judgePoint t tw).pwr.stepping t = some (k.point t - 1)) ∧
      (k.braked = true → sfind (k.judgePoint t tw).pwr.stepping t = none)) := by
  have hn : ¬ (k.isStepping t || k.tileFurled t || decide (k.pwr.ticks = 0)) = true := by simp [h0, h1]; omega
  unfold Pkg.judgePoint
  rw [if_neg hn]
  refine ⟨fun h3 h4 => ?_, fun h3 h4 h5 h6 => ⟨fun h7 => ?_, fun h7 => ?_⟩⟩
  · rw [if_pos h3, if_pos h4]
    exact Pkg.startStep_stepping ..
  · rw [if_neg (by omega), if_pos (by simp [h4, h5, h6, h7])]
    exact Pkg.startStep_stepping ..
  · rw [if_neg (by omega), if_neg (by simp [h7])]
    exact Option.not_isSome_iff_eq_none.1 (by rw [← Pkg.isStepping, h0]; exact Bool.false_ne_true)
theorem Pkg.judgePoints_spec (tileW : List Nat) (k : Pkg) : k.SameMeans (tiles4.foldl (fun k t => k.judgePoint t (tileW.getD t 0)) k) ∧
    ∀ t, t < 4 → k.isStepping t = false → k.tileFurled t = false → 0 < k.pwr.ticks →
      (sget 0 k.pwr.rateSum t ≤ 40 * k.pwr.ticks → k.point t < 5 →
        sfind (tiles4.foldl (fun k t => k.judgePoint t (tileW.getD t 0)) k).pwr.stepping t = some (k.point t + 1)) ∧
      (40 * k.pwr.ticks < sget 0 k.pwr.rateSum t → sget 64 k.pwr.rateMin t = 64 →
        100 * tileW.getD t 0 < 85 * k.get (F.PWR_TILE_STATE_LIMIT_W t) → 0 < k.point t →
        (k.braked = false → sfind (tiles4.foldl (fun k t => k.judgePoint t (tileW.getD t 0)) k).pwr.stepping t = some (k.point t - 1)) ∧
        (k.braked = true → sfind (tiles4.foldl (fun k t => k.judgePoint t (tileW.getD t 0)) k).pwr.stepping t = none)) := by
  have step (a : Pkg) (c : Nat) (h : k.SameMeans a) : k.SameMeans (a.judgePoint c (tileW.getD c 0)) := by
    obtain ⟨h1, h2, h3, h4⟩ := a.judgePoint_same c (tileW.getD c 0)
    obtain ⟨g1, g2, g3, g4⟩ := h
    exact ⟨h1.trans g1, h2.trans g2, h3.trans g3, h4.trans g4⟩
  refine ⟨List.foldlRecOn (motive := fun a => k.SameMeans a) tiles4 _ ⟨rfl, rfl, rfl, rfl⟩ fun a ha c _ => step a c ha, fun t ht h0 h1 h2 => ?_⟩
  obtain ⟨a, ha, g1, g2⟩ : ∃ a : Pkg, k.SameMeans a ∧ sfind a.pwr.stepping t = sfind k.pwr.stepping t ∧
      sfind (tiles4.foldl (fun k t => Pkg.judgePoint t (tileW.getD t 0) k) k).pwr.stepping t = sfind (a.judgePoint t (tileW.getD t 0)).pwr.stepping t :=
    foldl_observed (fun k t => Pkg.judgePoint t (tileW.getD t 0) k) (fun a => sfind a.pwr.stepping t) (fun a => k.SameMeans a) step
      (fun a c hne _ => Pkg.judgePoint_stepping_ne hne _ a) tiles4 (by decide) (mem_tiles4.2 ht) k ⟨rfl, rfl, rfl, rfl⟩
  obtain ⟨e1, e2, e3, e4⟩ := ha
  have hp : k.PowerKept a := .of_regs e1
  have hs : a.isStepping t = false := by rw [Pkg.isStepping, g1, ← Pkg.isStepping, h0]
  have hb : a.braked = k.braked := by rw [Pkg.braked, Pkg.get_of_regs e1, Pkg.braked]
  have hl : a.get (F.PWR_TILE_STATE_LIMIT_W t) = k.get (F.PWR_TILE_STATE_LIMIT_W t) := Pkg.get_of_regs e1 _
  have h := Pkg.judgePoint_spec (tw := tileW.getD t 0) hs ((hp.furled t).trans h1) (e2 ▸ h2)
  rw [e2, e3, e4, hp.point ht, hb, hl] at h
  rwa [g2]

/-! ### The end of a step -/

/-- A step is done: its point is reached, and the guard band takes effect. -/
def Pkg.stepEnds (t q : Nat) (k : Pkg) : Pkg :=
  ((k.put (F.PWR_TILE_STATE_POINT t) q).setPwr fun x => { x with stepping := serase x.stepping t }).takeGuard t
theorem Pkg.rg_stepEnds {o t : Nat} (h : o ≠ R.PWR_TILE_STATE t) (q : Nat) (k : Pkg) : (k.stepEnds t q).rg o = k.rg o := Pkg.rg_put_ne k (F.PWR_TILE_STATE_POINT t) q h
theorem Pkg.stepEnds_spec {t q : Nat} (ht : t < 4) (hq : q < 6) (k : Pkg) : (k.stepEnds t q).point t = q ∧ (k.stepEnds t q).rate t = k.rate t ∧
    sfind (k.stepEnds t q).pwr.stepping t = none ∧ (k.stepEnds t q).guardNow t = k.get (guardFld t) ∧
    (∀ draw, (k.stepEnds t q).excess draw = k.excess draw) ∧ (k.stepEnds t q).tileFurled t = k.tileFurled t := by
  have hg (f : Fld) (h : f.off ≠ R.PWR_TILE_STATE t) : (k.stepEnds t q).get f = k.get f := Pkg.get_of_rg (Pkg.rg_stepEnds h q k)
  have hb : (k.stepEnds t q).braked = k.braked := by
    rw [Pkg.braked, hg _ (by simp only [F.PWR_BRAKE_LINE, R.PWR_BRAKE, R.PWR_TILE_STATE]; omega), Pkg.braked]
  have hr : (k.stepEnds t q).brakeRate = k.brakeRate := hg _ (by simp only [F.PWR_BRAKE_RATE, R.PWR_BRAKE, R.PWR_TILE_STATE]; omega)
  have he : (k.stepEnds t q).effective = k.effective := hg _ (by simp only [F.PWR_CAP_STATUS_EFFECTIVE, R.PWR_CAP_STATUS, R.PWR_TILE_STATE]; omega)
  refine ⟨?_, ?_, sfind_serase_same .., ?_, fun draw => ?_, congrArg (bit · t) (hg _ (by simp only [F.AON_PKG_STATE_C_FURLED, R.AON_PKG_STATE, R.PWR_TILE_STATE]; omega))⟩
  · refine (Pkg.get_put_same k (F.PWR_TILE_STATE_POINT t) q (Nat.le_of_ble_eq_true rfl)).trans (Nat.mod_eq_of_lt ?_)
    simp only [F.PWR_TILE_STATE_POINT]
    omega
  · exact Pkg.get_put_disjoint k (F.PWR_TILE_STATE_POINT t) (F.PWR_TILE_STATE_RATE t) q (Nat.le_of_ble_eq_true rfl) rfl (.inl (Nat.le_of_ble_eq_true rfl))
  · refine (sget_sset_same ..).trans ?_
    exact Pkg.get_put_reg_ne k (F.PWR_TILE_STATE_POINT t) (guardFld t) q (by
      simp only [guardFld, F.PWR_GUARD_GUARD_MV, F.PWR_TILE_STATE_POINT, R.PWR_GUARD, R.PWR_TILE_STATE]; omega)
  · rw [Pkg.excess, Pkg.overPb, he, hb, hr, Pkg.excess, Pkg.overPb]
theorem Pkg.reclock_frame (now t a b : Nat) (k : Pkg) : (k.reclock now t a b).regs = k.regs ∧ (k.reclock now t a b).pwr = k.pwr := ⟨rfl, rfl⟩
theorem Pkg.endStep_eq {t q : Nat} (h : sfind k.pwr.stepping t = some q) (now draw : Nat) :
    k.endStep now t draw = (((k.stepEnds t q).reclock now t (k.tileMhz t) ((k.stepEnds t q).tileMhz t)).stepDown draw t).judgeUnmet now draw := by
  unfold Pkg.endStep
  rw [h]
  rfl
theorem Pkg.endStep_spec {t q : Nat} (ht : t < 4) (hq : q < 6) (h : sfind k.pwr.stepping t = some q) (now draw : Nat) :
    (k.excess draw = false → (k.endStep now t draw).point t = q ∧ (k.endStep now t draw).isStepping t = false ∧
      (k.endStep now t draw).guardNow t = k.get (guardFld t)) ∧
    (k.excess draw = true → k.rate t = 1 → q < 5 → k.tileFurled t = false → (k.endStep now t draw).point t = q ∧
      sfind (k.endStep now t draw).pwr.stepping t = some (q + 1)) := by
  rw [Pkg.endStep_eq h]
  obtain ⟨h1, h2, h3, h4, h5, h6⟩ := k.stepEnds_spec ht hq
  generalize k.tileMhz t = x
  generalize k.stepEnds t q = m at *
  obtain ⟨hr, hp⟩ := m.reclock_frame now t x (m.tileMhz t)
  generalize m.reclock now t x (m.tileMhz t) = l at *
  have hk : m.PowerKept l := .of_regs hr
  have hj (l : Pkg) := l.judgeUnmet_judged now draw
  refine ⟨fun he => ?_, fun he h7 h8 h9 => ?_⟩
  · rw [Pkg.stepDown_rests ((hk.excess draw).trans ((h5 draw).trans he))]
    refine ⟨((hj l).kept.point ht).trans ((hk.point ht).trans h1), ?_, ?_⟩
    · rw [Pkg.isStepping, (hj l).pwr, hp, h3]
      rfl
    · rw [Pkg.guardNow, (hj l).pwr, hp]
      exact h4
  · have hs : l.isStepping t = false := by rw [Pkg.isStepping, hp, h3]; rfl
    have hpt : l.point t = q := (hk.point ht).trans h1
    rw [Pkg.stepDown_starts ((hk.excess draw).trans ((h5 draw).trans he)) ((hk.rate ht).trans (h2.trans h7)) (by omega) hs ((hk.furled t).trans (h6.trans h9)),
      (hj _).pwr, Pkg.startStep_stepping, (hj _).kept.point ht]
    have hst : (l.startStep t (l.point t + 1)).point t = l.point t := Pkg.get_setPwr ..
    rw [hst, hpt]
    exact ⟨rfl, rfl⟩

/-! ### The steps -/

theorem exec_brakeAssert : exec (.brakeAssert p) s = onPkg p s fun k => k.brakeLine true := rfl
theorem exec_brakeRelease : exec (.brakeRelease p) s = onPkg p s fun k => k.brakeLine false := rfl
theorem exec_rateRampStep : exec (.rateRampStep p) s = onPkg p s fun k => (tiles4.foldl Pkg.rampTile k).settleRates := rfl
theorem exec_governorTick (tileW : List Nat) (u : Nat) : exec (.governorTick p tileW u) s = onPkg p s fun k => k.govern s.now tileW u := rfl
theorem exec_pointJudgement (tileW : List Nat) : exec (.pointJudgement p tileW) s = onPkg p s fun k =>
    (tiles4.foldl (fun k t => k.judgePoint t (tileW.getD t 0)) k).setPwr fun x => { x with rateSum := [], rateMin := [], ticks := 0 } := rfl
theorem exec_pointStepEnd (t : Tile) (w : Nat) : exec (.pointStepEnd p t w) s = onPkg p s fun k => k.endStep s.now t.val w := rfl

/-- Settles O37: the line by `Pkg.brakeLine_spec`, a tick by `Pkg.govern_spec`, the points by `Pkg.judgePoints_spec` and `Pkg.endStep_spec`. -/
theorem governorAndBrake : Obligations.GovernorAndBrake := by
  unfold Obligations.GovernorAndBrake
  intro s p
  dsimp only
  generalize hk : s.pkg p = k
  refine ⟨?_, ?_, ?_, fun tileW u => ?_, fun tileW => ?_, fun t w h => ?_, fun t w q h hq => ?_⟩
  · obtain ⟨h1, h2, h3, h4⟩ := k.brakeLine_spec true
    exact ⟨_, exec_brakeAssert.trans (onPkg_next (by rw [hk])), h1, h2, fun t ht => ⟨(h3 t ht).2 rfl, (h3 t ht).1⟩, h4 rfl⟩
  · obtain ⟨h1, h2, h3, -⟩ := k.brakeLine_spec false
    exact ⟨_, exec_brakeRelease.trans (onPkg_next (by rw [hk])), h1, h2, fun t ht => (h3 t ht).1⟩
  · exact ⟨_, exec_rateRampStep.trans (onPkg_next (by rw [hk])), k.rampStep_spec⟩
  · exact ⟨_, (exec_governorTick tileW u).trans (onPkg_next (by rw [hk])), k.govern_spec s.now tileW u _ rfl⟩
  · obtain ⟨⟨h1, -, -, -⟩, h2⟩ := k.judgePoints_spec tileW
    refine ⟨_, (exec_pointJudgement tileW).trans (onPkg_next (by rw [hk])), ?_⟩
    generalize tiles4.foldl (fun k t => Pkg.judgePoint t (tileW.getD t 0) k) k = l at *
    exact ⟨h1, rfl, h2⟩
  · rw [exec_pointStepEnd]
    refine onPkg_next ?_
    have hn : sfind k.pwr.stepping t.val = none := Option.not_isSome_iff_eq_none.1 (by rw [← Pkg.isStepping, h]; exact Bool.false_ne_true)
    rw [hk, Pkg.endStep, hn]
  · obtain ⟨h1, h2⟩ := Pkg.endStep_spec t.isLt hq h s.now w
    rw [exec_pointStepEnd]
    exact ⟨fun he => ⟨_, onPkg_next (by rw [hk]), h1 he⟩, fun he h3 h4 h5 => ⟨_, onPkg_next (by rw [hk]), h2 he h3 h4 h5⟩⟩

end Sys2Proof.Machine
end

section
/-! PROOF. Headings and rotation (R268–R274): a refutation. -/
namespace Sys2Proof.Machine
open Sys2Proof

/-- The physical core whose store's domain is bit 1 of THR_HEAD_STATUS (R.AON_DOMAIN_ON 81804 = R.THR_HEAD_STATUS). -/
def strayCore : Nat := 32 * 81804 + 1 - 192
/-- A package whose slot 0 stands in Nap, in a rotation set whose second member is no core: with SHIFT 1, slot 0 runs on that member. The host has
written a heading of 1 ms for slot 0. -/
def strayRota : Pkg :=
  let k := (onPkg0.setPstate 0 2).put (F.THR_ROTA_SHIFT 0) 1
  { k with thr := { k.thr with rotas := [(0, ⟨[0, strayCore], 0, 0, 0, false⟩)], headWords := [(4 * Requester.host.key + 2, 0x10000)] } }
/-- The commit of the heading, with a pre-wake slot. -/
def strayCommit : Instr := .headingCommit pkg0 .host 1

/-- Refutes O43: no hypothesis bounds the members of a rotation set. Slot 0 runs on a member that is no core, and the pre-wake slot of its heading starts
at once: the domain it powers is bit 1 of THR_HEAD_STATUS, whose USED reads 3 with one heading kept. -/
theorem not_headingsAndRotation : ¬ Obligations.HeadingsAndRotation := by
  unfold Obligations.HeadingsAndRotation
  intro h
  have ho : Open (only strayRota) pkg0 .host R.THR_HEAD_W3 := by unfold Open; decide +kernel
  have hpkg : (only strayRota).pkg pkg0 = strayRota := by decide +kernel
  obtain ⟨-, -, hkeep⟩ := (h (only strayRota) pkg0).1 .host 1 ho
  rw [hpkg] at hkeep
  obtain ⟨m, j, he, hused, -⟩ := hkeep (by decide +kernel) (by decide +kernel)
  have hj : pkgAfter strayCommit (only strayRota) pkg0 = j.emit (.busDone .host R.THR_HEAD_W3) := pkgAfter_of_wrote he
  have hrun : (pkgAfter strayCommit (only strayRota) pkg0).get F.THR_HEAD_STATUS_USED = 3 ∧ strayRota.thr.headings.length = 0 := by decide +kernel
  obtain ⟨h3, h0⟩ := hrun
  rw [hj, Pkg.get_emit, (hused (by decide +kernel)).2, h0] at h3
  exact absurd h3 (by decide)

end Sys2Proof.Machine
end

section
/-! PROOF. Congestion maps and routing weights (R186–R190). -/
namespace Sys2Proof.Machine
open Sys2Proof

variable {j k : Pkg} {s : State} {p : PkgId}

/-! ### Samples of a router's ports -/

theorem RouterSt.port_setPort_same (r : RouterSt) (q : Nat) (x : PortSt) : (r.setPort q x).port q = x := sget_sset_same ..
theorem RouterSt.port_setPort_ne {q c : Nat} (h : q ≠ c) (r : RouterSt) (x : PortSt) : (r.setPort c x).port q = r.port q := sget_sset_ne _ _ _ _ h
/-- One port's level is sampled. -/
def RouterSt.sampleAt (r : RouterSt) (q : Nat) : RouterSt := r.setPort q (r.port q).sample
theorem RouterSt.sampled_spec (n : Nat) (r : RouterSt) : ((List.range n).foldl RouterSt.sampleAt r).sink = r.sink ∧
    ((List.range n).foldl RouterSt.sampleAt r).out = r.out ∧ ∀ q, q < n → ((List.range n).foldl RouterSt.sampleAt r).port q = (r.port q).sample := by
  refine ⟨foldl_kept RouterSt.sampleAt RouterSt.sink (fun _ _ => rfl) _ r, foldl_kept RouterSt.sampleAt RouterSt.out (fun _ _ => rfl) _ r, fun q hq => ?_⟩
  obtain ⟨a, -, h1, h2⟩ := foldl_observed RouterSt.sampleAt (fun m => m.port q) (fun _ => True) (fun _ _ _ => trivial)
      (fun m c hc _ => RouterSt.port_setPort_ne (Ne.symm hc) ..) (List.range n) List.nodup_range (List.mem_range.2 hq) r trivial
  exact h2.trans ((RouterSt.port_setPort_same ..).trans (congrArg PortSt.sample h1))

/-! ### Map reports -/

theorem Pkg.port_setPort_same (k : Pkg) (q : Nat) (x : PortSt) : (k.setPort q x).port q = x := sget_sset_same ..
theorem Pkg.port_setPort_ne {q c : Nat} (h : q ≠ c) (k : Pkg) (x : PortSt) : (k.setPort c x).port q = k.port q := sget_sset_ne _ _ _ _ h
theorem State.mapAgent_lt (s : State) (rack : Fin 32) : s.mapAgent rack < 4 := by
  unfold State.mapAgent
  cases (List.finRange 4).find? _ with
  | none => exact Nat.zero_lt_succ _
  | some p => exact p.isLt
/-- One port's reported PEAK is cleared. -/
def Pkg.clearPeak (k : Pkg) (q : Nat) : Pkg := k.setPort q { k.port q with peakReport := 0 }
theorem Pkg.peaksCleared_spec (n : Nat) (k : Pkg) : ((List.range n).foldl Pkg.clearPeak k).regs = k.regs ∧
    ((List.range n).foldl Pkg.clearPeak k).out = k.out ∧
    ∀ q, q < n → ((List.range n).foldl Pkg.clearPeak k).port q = { k.port q with peakReport := 0 } := by
  refine ⟨foldl_kept Pkg.clearPeak Pkg.regs (fun _ _ => rfl) _ k, foldl_kept Pkg.clearPeak Pkg.out (fun _ _ => rfl) _ k, fun q hq => ?_⟩
  obtain ⟨a, -, h1, h2⟩ := foldl_observed Pkg.clearPeak (fun k => k.port q) (fun _ => True) (fun _ _ _ => trivial)
      (fun m c hc _ => Pkg.port_setPort_ne (Ne.symm hc) ..) (List.range n) List.nodup_range (List.mem_range.2 hq) k trivial
  exact h2.trans ((Pkg.port_setPort_same ..).trans (congrArg (fun x : PortSt => { x with peakReport := 0 }) h1))
theorem Pkg.port_queueAt_same (q : Nat) (e : Queued) (k : Pkg) : (k.queueAt q e).port q = { k.port q with outQ := (k.port q).outQ ++ [e] } :=
  RouterSt.port_setPort_same ..
theorem Pkg.port_queueAt_ne {q c : Nat} (h : q ≠ c) (e : Queued) (k : Pkg) : (k.queueAt c e).port q = k.port q := RouterSt.port_setPort_ne h ..
/-- The map report of a package. -/
def Pkg.mapPacket (now plane : Nat) (k : Pkg) : Packet := k.mgmt now 0x28 (merAddr k.rackNo plane) k.mapLevels
/-- The map report at the first link to its plane. -/
def Pkg.mapSent (now plane : Nat) (k : Pkg) : Pkg :=
  (k.arrival 25 (k.mapPacket now plane)).2.offer now (20 + plane) (k.arrival 25 (k.mapPacket now plane)).1
/-- The levels are reported. -/
def Pkg.mapTold (n round : Nat) (k : Pkg) : Pkg :=
  { (List.range n).foldl Pkg.clearPeak k with fab := { ((List.range n).foldl Pkg.clearPeak k).fab with reported := round } }
theorem Pkg.mapReport_eq (now plane : Nat) (k : Pkg) : k.mapReport now plane = (k.mapSent now plane).mapTold 24 (k.mapRound now) := rfl
theorem Pkg.arrival_25 (pk : Packet) (k : Pkg) : k.arrival 25 pk = (⟨pk, 25, bufKey (k.isPlane 25) pk, k.rt.arrivals⟩, { k with rt := k.rt.count }) := rfl
theorem Pkg.mapSent_eq {now plane : Nat} (h : (k.port (20 + plane)).state ≠ .peerDark) : k.mapSent now plane =
    Pkg.queueAt (20 + plane) ⟨k.mapPacket now plane, 25, 4, k.rt.arrivals⟩ { k with rt := k.rt.count } := by
  unfold Pkg.mapSent
  rw [Pkg.arrival_25]
  exact if_neg h
theorem Pkg.mapSent_port {now plane : Nat} (h : (k.port (20 + plane)).state ≠ .peerDark) (q : Nat) : (k.mapSent now plane).port q =
    if q = 20 + plane then { k.port q with outQ := (k.port q).outQ ++ [⟨k.mapPacket now plane, 25, 4, k.rt.arrivals⟩] } else k.port q := by
  rw [Pkg.mapSent_eq h]
  split
  next h => subst h; exact Pkg.port_queueAt_same ..
  next h => exact Pkg.port_queueAt_ne h ..
theorem Pkg.mapSent_rest {now plane : Nat} (h : (k.port (20 + plane)).state ≠ .peerDark) : (k.mapSent now plane).regs = k.regs ∧
    (k.mapSent now plane).out = k.out := by
  rw [Pkg.mapSent_eq h]
  exact ⟨rfl, rfl⟩
theorem Pkg.mapTold_spec (n round : Nat) (k : Pkg) : (k.mapTold n round).regs = k.regs ∧ (k.mapTold n round).out = k.out ∧
    (k.mapTold n round).fab.reported = round ∧ ∀ q, q < n → (k.mapTold n round).port q = { k.port q with peakReport := 0 } := by
  obtain ⟨h1, h2, h3⟩ := k.peaksCleared_spec n
  unfold Pkg.mapTold
  generalize (List.range n).foldl Pkg.clearPeak k = l at *
  exact ⟨h1, h2, rfl, h3⟩
theorem Pkg.mapReport_spec {now plane : Nat} (hp : plane < 4) (h : (k.port (20 + plane)).state ≠ .peerDark) :
    ((k.mapReport now plane).port (20 + plane)).outQ = (k.port (20 + plane)).outQ ++ [⟨k.mapPacket now plane, 25, 4, k.rt.arrivals⟩] ∧
      (k.mapReport now plane).fab.reported = k.mapRound now ∧ (k.mapReport now plane).out = k.out ∧
      (∀ q : Port, ((k.mapReport now plane).port q.val).peakReport = 0 ∧ ((k.mapReport now plane).port q.val).now = (k.port q.val).now ∧
        ((k.mapReport now plane).port q.val).peakRead = (k.port q.val).peakRead) ∧ (k.mapReport now plane).regs = k.regs := by
  obtain ⟨h1, h2, h3, h4⟩ := (k.mapSent now plane).mapTold_spec 24 (k.mapRound now)
  obtain ⟨hr, ho⟩ := Pkg.mapSent_rest (now := now) h
  have hq := fun q => Pkg.mapSent_port (now := now) h q
  rw [Pkg.mapReport_eq]
  generalize k.mapSent now plane = m at *
  generalize m.mapTold 24 (k.mapRound now) = l at *
  have hport (q : Nat) (hq24 : q < 24) := (h4 q hq24).trans (congrArg (fun x : PortSt => { x with peakReport := 0 }) (hq q))
  refine ⟨?_, h3, h2.trans ho, fun q => ?_, h1.trans hr⟩
  · rw [hport _ (by omega), if_pos rfl]
  · rw [hport _ q.isLt]
    split <;> exact ⟨rfl, rfl, rfl⟩

/-! ### Weights -/

/-- The register of a weight entry. -/
def weightReg (w : Word) : Nat := if weightKind w = 0 then R.FAB_WEIGHT 0 (weightIndex w) else R.FAB_PLANE_SPREAD 0 (weightIndex w)
/-- Its value. -/
def weightValue (w : Word) : Nat := bits w.toNat 16 (if weightKind w = 0 then 10 else 8)
theorem Pkg.applyWeight_eq (k : Pkg) (w : Word) : k.applyWeight w = k.setRg (weightReg w) (BitVec.ofNat 32 (weightValue w)) := by
  unfold Pkg.applyWeight weightReg weightValue
  split <;> rfl
theorem weightOk_iff (w : Word) : weightOk w = true ↔ weightKind w = 0 ∧ weightIndex w < 96 ∨ weightKind w = 1 ∧ weightIndex w < 4 := by simp [weightOk]
theorem weightReg_ne {v w : Word} (hv : weightOk v = true) (hw : weightOk w = true) (h : weightKind v ≠ weightKind w ∨ weightIndex v ≠ weightIndex w) :
    weightReg w ≠ weightReg v := by
  rw [weightOk_iff] at hv hw
  unfold weightReg R.FAB_WEIGHT R.FAB_PLANE_SPREAD
  split <;> split <;> omega
theorem weightReg_ne_status {w : Word} : R.FAB_WEIGHT_STATUS 0 ≠ weightReg w := by
  unfold weightReg R.FAB_WEIGHT R.FAB_PLANE_SPREAD R.FAB_WEIGHT_STATUS
  split <;> omega
theorem Pkg.applyWeights_onlyRegs (es : List Word) (k : Pkg) : OnlyRegs k (es.foldl Pkg.applyWeight k) :=
  .foldl (fun k w => by rw [Pkg.applyWeight_eq]; exact .setRg ..) es k
theorem Pkg.rg_applyWeights {o : Nat} : ∀ (es : List Word), (∀ w ∈ es, o ≠ weightReg w) → ∀ k : Pkg, (es.foldl Pkg.applyWeight k).rg o = k.rg o
  | [], _, _ => rfl
  | w :: es, h, k => by
    rw [List.foldl_cons, Pkg.rg_applyWeights es (fun v hv => h v (List.mem_cons_of_mem _ hv)), Pkg.applyWeight_eq]
    exact Pkg.rg_setRg_ne _ _ (h w (List.mem_cons_self ..))
/-- The last entry for a register stands. -/
theorem Pkg.rg_applyWeights_last {a b : List Word} {w : Word} (hb : ∀ v ∈ b, weightReg w ≠ weightReg v) (k : Pkg) :
    ((a ++ w :: b).foldl Pkg.applyWeight k).rg (weightReg w) = BitVec.ofNat 32 (weightValue w) := by
  rw [List.foldl_append, List.foldl_cons, Pkg.rg_applyWeights b hb, Pkg.applyWeight_eq]
  exact Pkg.rg_setRg_same ..
theorem bits_ofNat_bits {v lo n a m : Nat} (h : a + m ≤ n) (hn : n ≤ 32) : bits (BitVec.ofNat 32 (bits v lo n)).toNat a m = bits v (lo + a) m := by
  refine Nat.eq_of_testBit_eq fun i => ?_
  rw [testBit_bits, BitVec.toNat_ofNat, Nat.testBit_mod_two_pow, testBit_bits, testBit_bits]
  by_cases hi : i < m
  · have h1 : a + i < n := by omega
    have h2 : a + i < 32 := by omega
    simp [hi, h1, h2, Nat.add_assoc]
  · simp [hi]

/-- The static weights of one destination. -/
def Pkg.staticShare (k : Pkg) (d : Nat) : Pkg := k.put (F.FAB_WEIGHT_MIS_SHARE 0 d) 0
/-- The static spread of one plane. -/
def Pkg.staticSpread (k : Pkg) (q : Nat) : Pkg := k.put (F.FAB_PLANE_SPREAD_SECOND 0 q) 128
theorem Pkg.staticShares_spec {n : Nat} (k : Pkg) : OnlyRegs k ((List.range n).foldl Pkg.staticShare k) ∧
    ∀ d, d < n → ((List.range n).foldl Pkg.staticShare k).get (F.FAB_WEIGHT_MIS_SHARE 0 d) = 0 ∧
      ((List.range n).foldl Pkg.staticShare k).get (F.FAB_WEIGHT_MIS_PLANE 0 d) = k.get (F.FAB_WEIGHT_MIS_PLANE 0 d) := by
  refine ⟨.foldl (fun _ _ => .put ..) _ k, fun d hd => ?_⟩
  have hne (f : Fld) (hf : f.off = R.FAB_WEIGHT 0 d) (a : Pkg) (c : Nat) (hc : c ≠ d) : (a.staticShare c).get f = a.get f :=
    Pkg.get_put_reg_ne _ _ _ _ (by rw [hf]; simp only [F.FAB_WEIGHT_MIS_SHARE, R.FAB_WEIGHT]; omega)
  obtain ⟨a, -, h1, h2⟩ := foldl_observed Pkg.staticShare (fun k => (k.get (F.FAB_WEIGHT_MIS_SHARE 0 d), k.get (F.FAB_WEIGHT_MIS_PLANE 0 d))) (fun _ => True)
    (fun _ _ _ => trivial) (fun m c hc _ => Prod.ext (hne _ rfl m c hc) (hne _ rfl m c hc)) (List.range n) List.nodup_range (List.mem_range.2 hd) k trivial
  obtain ⟨-, h1⟩ := Prod.mk.inj h1
  obtain ⟨h2, h3⟩ := Prod.mk.inj h2
  refine ⟨h2.trans (Pkg.get_put_same _ _ _ (Nat.le_of_ble_eq_true rfl)), h3.trans (Eq.trans ?_ h1)⟩
  exact Pkg.get_put_disjoint _ (F.FAB_WEIGHT_MIS_SHARE 0 d) (F.FAB_WEIGHT_MIS_PLANE 0 d) _ (Nat.le_of_ble_eq_true rfl) rfl (.inr (Nat.le_of_ble_eq_true rfl))
theorem Pkg.staticSpreads_spec {n : Nat} (k : Pkg) : OnlyRegs k ((List.range n).foldl Pkg.staticSpread k) ∧
    (∀ o, o < R.FAB_PLANE_SPREAD 0 0 → ((List.range n).foldl Pkg.staticSpread k).rg o = k.rg o) ∧
    ∀ q, q < n → ((List.range n).foldl Pkg.staticSpread k).get (F.FAB_PLANE_SPREAD_SECOND 0 q) = 128 := by
  refine ⟨.foldl (fun _ _ => .put ..) _ k, fun o ho => foldl_kept Pkg.staticSpread (fun k => k.rg o) (fun a c => ?_) _ k, fun q hq => ?_⟩
  · exact Pkg.rg_put_ne _ _ _ (by unfold R.FAB_PLANE_SPREAD at ho; simp only [F.FAB_PLANE_SPREAD_SECOND, R.FAB_PLANE_SPREAD]; omega)
  · obtain ⟨a, -, -, h2⟩ := foldl_observed Pkg.staticSpread (fun k => k.get (F.FAB_PLANE_SPREAD_SECOND 0 q)) (fun _ => True)
      (fun _ _ _ => trivial) (fun m c hc _ => Pkg.get_put_reg_ne _ _ _ _ (by simp only [F.FAB_PLANE_SPREAD_SECOND, R.FAB_PLANE_SPREAD]; omega))
      (List.range n) List.nodup_range (List.mem_range.2 hq) k trivial
    exact h2.trans (Pkg.get_put_same _ _ _ (Nat.le_of_ble_eq_true rfl))

/-- The entries of a WEIGHT_WRITE are taken. -/
def Pkg.weighed (now : Nat) (es : List Word) (k : Pkg) : Pkg :=
  { (es.foldl Pkg.applyWeight k).flag (F.FAB_WEIGHT_STATUS_STALE 0) false with
    fab := { ((es.foldl Pkg.applyWeight k).flag (F.FAB_WEIGHT_STATUS_STALE 0) false).fab with weightAt := now } }
theorem Pkg.rg_weighed (now : Nat) (es : List Word) (k : Pkg) (o : Nat) :
    (k.weighed now es).rg o = ((es.foldl Pkg.applyWeight k).flag (F.FAB_WEIGHT_STATUS_STALE 0) false).rg o := rfl
theorem Pkg.weighed_spec (now : Nat) {es : List Word} (hok : ∀ v ∈ es, weightOk v = true) (k : Pkg) :
    (k.weighed now es).get (F.FAB_WEIGHT_STATUS_STALE 0) = 0 ∧ (k.weighed now es).fab.weightAt = now ∧ (k.weighed now es).out = k.out ∧
      ∀ a w b, es = a ++ w :: b → (∀ v ∈ b, weightKind v ≠ weightKind w ∨ weightIndex v ≠ weightIndex w) →
        (weightKind w = 0 → (k.weighed now es).get (F.FAB_WEIGHT_MIS_SHARE 0 (weightIndex w)) = bits w.toNat 16 8 ∧
          (k.weighed now es).get (F.FAB_WEIGHT_MIS_PLANE 0 (weightIndex w)) = bits w.toNat 24 2) ∧
        (weightKind w = 1 → (k.weighed now es).get (F.FAB_PLANE_SPREAD_SECOND 0 (weightIndex w)) = bits w.toNat 16 8) := by
  have hrg := k.rg_weighed now es
  have hout : (k.weighed now es).out = (es.foldl Pkg.applyWeight k).out := rfl
  have hat : (k.weighed now es).fab.weightAt = now := rfl
  have hst := Pkg.get_flag_same (es.foldl Pkg.applyWeight k) (F.FAB_WEIGHT_STATUS_STALE 0) false (by decide) (by decide)
  have ho := k.applyWeights_onlyRegs es
  have hl : ∀ a w b, es = a ++ w :: b → (∀ v ∈ b, weightKind v ≠ weightKind w ∨ weightIndex v ≠ weightIndex w) →
      (es.foldl Pkg.applyWeight k).rg (weightReg w) = BitVec.ofNat 32 (weightValue w) := fun a w b he hb => by
    rw [he]
    exact Pkg.rg_applyWeights_last (fun v hv => weightReg_ne (hok v (by rw [he]; simp [hv])) (hok w (by rw [he]; simp)) (hb v hv)) k
  generalize k.weighed now es = m at *
  generalize es.foldl Pkg.applyWeight k = l at *
  refine ⟨(Pkg.get_of_rg (hrg _)).trans hst, hat, hout.trans ho.out, fun a w b he hb => ?_⟩
  have hw : m.rg (weightReg w) = BitVec.ofNat 32 (weightValue w) :=
    (hrg _).trans ((Pkg.rg_put_ne _ _ _ weightReg_ne_status.symm).trans (hl a w b he hb))
  refine ⟨fun h0 => ?_, fun h1 => ?_⟩
  · rw [weightReg, if_pos h0, weightValue, if_pos h0] at hw
    constructor
    · change bits (m.rg (R.FAB_WEIGHT 0 (weightIndex w))).toNat 0 8 = _
      rw [hw, bits_ofNat_bits (by decide) (by decide)]
    · change bits (m.rg (R.FAB_WEIGHT 0 (weightIndex w))).toNat 8 2 = _
      rw [hw, bits_ofNat_bits (by decide) (by decide)]
  · have h0 : weightKind w ≠ 0 := by omega
    rw [weightReg, if_neg h0, weightValue, if_neg h0] at hw
    change bits (m.rg (R.FAB_PLANE_SPREAD 0 (weightIndex w))).toNat 0 8 = _
    rw [hw, bits_ofNat_bits (by decide) (by decide)]
/-- The weights are static again. -/
def Pkg.staticWeights (n : Nat) (k : Pkg) : Pkg :=
  ((List.range 4).foldl Pkg.staticSpread ((List.range n).foldl Pkg.staticShare k)).flag (F.FAB_WEIGHT_STATUS_STALE 0) true
theorem Pkg.staticWeights_spec {n : Nat} (hn : n ≤ 96) (k : Pkg) : OnlyRegs k (k.staticWeights n) ∧ (k.staticWeights n).get (F.FAB_WEIGHT_STATUS_STALE 0) = 1 ∧
    (∀ d, d < n → (k.staticWeights n).get (F.FAB_WEIGHT_MIS_SHARE 0 d) = 0 ∧
      (k.staticWeights n).get (F.FAB_WEIGHT_MIS_PLANE 0 d) = k.get (F.FAB_WEIGHT_MIS_PLANE 0 d)) ∧
    ∀ q, q < 4 → (k.staticWeights n).get (F.FAB_PLANE_SPREAD_SECOND 0 q) = 128 := by
  obtain ⟨h1, h2⟩ := k.staticShares_spec (n := n)
  unfold Pkg.staticWeights
  generalize (List.range n).foldl Pkg.staticShare k = l at *
  obtain ⟨g1, g2, g3⟩ := l.staticSpreads_spec (n := 4)
  generalize (List.range 4).foldl Pkg.staticSpread l = m at *
  have hm (f : Fld) (h : f.off ≠ R.FAB_WEIGHT_STATUS 0) : (m.flag (F.FAB_WEIGHT_STATUS_STALE 0) true).get f = m.get f := Pkg.get_put_reg_ne _ _ _ _ h
  have hw (d : Nat) (hd : d < n) : R.FAB_WEIGHT 0 d ≠ R.FAB_WEIGHT_STATUS 0 ∧ R.FAB_WEIGHT 0 d < R.FAB_PLANE_SPREAD 0 0 := by
    simp only [R.FAB_WEIGHT, R.FAB_WEIGHT_STATUS, R.FAB_PLANE_SPREAD]; omega
  refine ⟨(h1.trans g1).trans (.put ..), Pkg.get_flag_same _ _ _ (by decide) (by decide), fun d hd => ?_, fun q hq => ?_⟩
  · obtain ⟨e1, e2⟩ := h2 d hd
    exact ⟨(hm _ (hw d hd).1).trans ((Pkg.get_of_rg (g2 _ (hw d hd).2)).trans e1), (hm _ (hw d hd).1).trans ((Pkg.get_of_rg (g2 _ (hw d hd).2)).trans e2)⟩
  · exact (hm _ (by simp only [F.FAB_PLANE_SPREAD_SECOND, R.FAB_PLANE_SPREAD, R.FAB_WEIGHT_STATUS]; omega)).trans (g3 q hq)

/-! ### The steps -/

/-- A router after a sample of `n` ports; what its map agent has sunk is passed on. -/
def RouterSt.mapped (n : Nat) (r : RouterSt) : RouterSt :=
  { (List.range n).foldl RouterSt.sampleAt r with
    sink := [], out := ((List.range n).foldl RouterSt.sampleAt r).out ++ ((List.range n).foldl RouterSt.sampleAt r).sink.map Msg.bridged }
theorem RouterSt.mapped_spec (n : Nat) (r : RouterSt) : (r.mapped n).sink = [] ∧ (r.mapped n).out = r.out ++ r.sink.map Msg.bridged ∧
    ∀ q, q < n → (r.mapped n).port q = (r.port q).sample := by
  obtain ⟨h1, h2, h3⟩ := r.sampled_spec n
  unfold RouterSt.mapped
  generalize (List.range n).foldl RouterSt.sampleAt r = m at *
  exact ⟨rfl, by rw [← h1, ← h2], h3⟩
theorem exec_mapSample (r : RouterId) : exec (.mapSample r) s = .next (s.setRouter r ((s.router r).mapped 288)) := rfl
theorem exec_mapReport : exec (.mapReport p) s = onPkg p s fun k =>
    if k.pkgDark ∨ k.mapRound s.now ≤ k.fab.reported then k else k.mapReport s.now (s.mapAgent p.rack) := rfl
theorem exec_weightWrite (es : List Word) : exec (.weightWrite p es) s = onPkg p s fun k =>
    if es.all weightOk then k.weighed s.now es else k.count (F.FAB_DISCARD_B_BAD_HEADER 0) 1 := rfl
theorem exec_weightHoldExpiry : exec (.weightHoldExpiry p) s = onPkg p s fun k =>
    if s.now < k.fab.weightAt + 1000000 * k.get (F.FAB_TREE_CFG_WEIGHT_HOLD 0) then k else k.staticWeights 96 := rfl

/-- Settles O33: samples, the map report by `Pkg.mapReport_spec`, and weights by the last entry of each register. -/
theorem mapsAndWeights : Obligations.MapsAndWeights := by
  unfold Obligations.MapsAndWeights
  refine ⟨fun s r => ?_, fun s p => ?_⟩
  · obtain ⟨h1, h2, h3⟩ := (s.router r).mapped_spec 288
    refine ⟨_, exec_mapSample r, h1, h2, fun q => ?_⟩
    dsimp only
    rw [h3 q.val q.isLt]
    exact ⟨rfl, rfl, rfl, rfl, rfl⟩
  dsimp only
  generalize hk : s.pkg p = k
  have hround : k.mapRound s.now = if k.time s.now < 8000 * k.idx then 0 else (k.time s.now - 8000 * k.idx) / 1000000 + 1 := by
    simp [Pkg.mapRound, Pkg.mapDue]
  rw [← hround]
  refine ⟨fun h => exec_mapReport.trans (onPkg_next ?_), fun h1 h2 h3 => ⟨k.mapReport s.now (s.mapAgent p.rack), k.mapPacket s.now (s.mapAgent p.rack),
      exec_mapReport.trans (onPkg_next ?_), rfl, rfl, rfl, rfl, rfl, Pkg.mapReport_spec (s.mapAgent_lt p.rack) h3⟩,
    fun es h => ⟨k.count (F.FAB_DISCARD_B_BAD_HEADER 0) 1, (exec_weightWrite es).trans (onPkg_next ?_), .put .., ?_, fun o ho => Pkg.rg_put_ne _ _ _ ho⟩,
    fun es h => ⟨k.weighed s.now es, (exec_weightWrite es).trans (onPkg_next ?_), k.weighed_spec s.now (List.all_eq_true.1 h)⟩,
    fun h => exec_weightHoldExpiry.trans (onPkg_next ?_), fun h => ⟨k.staticWeights 96, exec_weightHoldExpiry.trans (onPkg_next ?_), k.staticWeights_spec (le_refl _)⟩⟩
  · rw [hk]
    exact if_pos h
  · rw [hk]
    exact if_neg (by rw [h1]; simp; omega)
  · rw [hk]
    exact if_neg (by rw [h]; exact Bool.false_ne_true)
  · exact Pkg.get_count_same _ _ 1 (by decide)
  · rw [hk]
    exact if_pos h
  · rw [hk]
    exact if_pos h
  · rw [hk]
    exact if_neg (by omega)

end Sys2Proof.Machine
end

section
/-! PROOF. The helm's lease and its transfer (R300–R304, R355). -/
namespace Sys2Proof.Machine
open Sys2Proof

variable {s t u : State} {rack : Fin 32} {a h : AlmId}

theorem ms_eq (n : Nat) : ms n = n * 1000000 := rfl
/-- A step of one manager, by what it makes of it. -/
theorem onAlm_next {f : AlmSt → AlmSt} {y : AlmSt} (h : f (s.alm a) = y) : onAlm a s f = .next (s.setAlm a y) :=
  congrArg (fun y => Host.Outcome.next (s.setAlm a y)) h

/-! ### Sequence numbers -/

/-- A manager in HELM takes what is logged where its rack's helm is the manager itself, and else nothing. -/
theorem State.logs_alm_helm (f : AlmLog → AlmLog) (hr : (s.alm a).role = .helm) :
    (s.logs rack f).alm a = if s.helm rack = some a then { s.alm a with log := f (s.alm a).log } else s.alm a := by
  split
  next h => exact State.logs_helm f h
  next h =>
    unfold State.logs
    cases hh : s.helm rack with
    | none => rfl
    | some b =>
      have hb : a ≠ b := fun e => h (e ▸ hh)
      dsimp only
      split
      next hs =>
        have hp : a ≠ ⟨rack, !b.sideB⟩ := fun e => by rw [← e, hr] at hs; cases hs
        rw [State.alm_setAlm_ne _ _ hp, State.alm_setAlm_ne _ _ hb]
      next => rw [State.alm_setAlm_ne _ _ hb]
theorem State.setAlm_emit_log (b : AlmId) (m : Msg) : ((s.setAlm b ((s.alm b).emit m)).alm a).log = (s.alm a).log := by
  by_cases h : a = b
  · subst h; rw [State.alm_setAlm_same]; rfl
  · rw [State.alm_setAlm_ne _ _ h]
/-- Between two states the numbers of a manager in HELM rose by at most `n`. -/
structure State.Numbered (a : AlmId) (n : Nat) (s t : State) : Prop where
  logged : s.Logged t
  low : (s.alm a).log.seqHigh.toNat ≤ (t.alm a).log.seqHigh.toNat
  high : (t.alm a).log.seqHigh.toNat ≤ (s.alm a).log.seqHigh.toNat + n
theorem State.alarmSet_seqHigh (name : String) (on : Bool) (hr : (s.alm a).role = .helm) :
    ((s.alarmSet rack name on).alm a).log.seqHigh = (s.alm a).log.seqHigh := by
  unfold State.alarmSet
  cases hh : s.helm rack with
  | none => rfl
  | some b =>
    dsimp only
    split
    · rfl
    · rw [State.setAlm_emit_log, State.logs_alm_helm _ hr]
      split <;> rfl
theorem State.sendIdem_numbered (kind : IdemKind) (slot pos : Nat) (value : Word) (hr : (s.alm a).role = .helm)
    (hs : (s.alm a).log.seqHigh.toNat + 1 < 2 ^ 64) : s.Numbered a 1 (s.sendIdem rack kind slot pos value) := by
  have hl : ((s.sendIdem rack kind slot pos value).alm a).log.seqHigh = (s.alm a).log.seqHigh ∨
      ((s.sendIdem rack kind slot pos value).alm a).log.seqHigh = (s.alm a).log.seqHigh + 1 := by
    unfold State.sendIdem
    cases hh : s.helm rack with
    | none => exact .inl rfl
    | some b =>
      dsimp only
      rw [State.setAlm_emit_log, State.logs_alm_helm _ hr]
      split
      next e => rw [hh] at e; cases e; exact .inr rfl
      next => exact .inl rfl
  have h1 : ((s.alm a).log.seqHigh + 1).toNat = (s.alm a).log.seqHigh.toNat + 1 := by
    rw [BitVec.toNat_add]; exact Nat.mod_eq_of_lt hs
  rcases hl with e | e
  · exact ⟨State.sendIdem_logged .., e ▸ le_refl _, by rw [e]; omega⟩
  · exact ⟨State.sendIdem_logged .., by rw [e]; omega, by rw [e]; omega⟩
theorem State.Numbered.trans {m n : Nat} (h : s.Numbered a m t) (h' : t.Numbered a n u) : s.Numbered a (m + n) u :=
  ⟨h.logged.trans h'.logged, h.low.trans h'.low, by have := h.high; have := h'.high; omega⟩
theorem State.Numbered.role {n : Nat} (h : s.Numbered a n t) : (t.alm a).role = (s.alm a).role := h.logged.role a
theorem State.sendCaps_numbered : ∀ (caps : SMap Nat) (s : State), (s.alm a).role = .helm →
    (s.alm a).log.seqHigh.toNat + caps.length < 2 ^ 64 → s.Numbered a caps.length (s.sendCaps rack caps)
  | [], s, _, _ => ⟨.refl s, le_refl _, le_refl _⟩
  | e :: l, s, hr, hs => by
    rw [List.length_cons] at hs ⊢
    have h := State.sendIdem_numbered (rack := rack) .cap (e.1 / 12 * 3 + e.1 % 12 / 4) (e.1 % 4) (BitVec.ofNat 32 e.2) hr (by omega)
    have hi := State.sendCaps_numbered l _ (h.role.trans hr) (by have := h.high; omega)
    exact Nat.add_comm 1 l.length ▸ h.trans hi

/-! ### At most 96 caps -/

theorem divide_length : ∀ (n : Nat) (left : Rat) (rows : List CapRow), (divide n left rows).length = rows.length
  | 0, _, _ => rfl
  | n + 1, left, rows => by
    rw [divide_succ]
    split
    · rfl
    · rw [divide_length n, List.length_map, List.length_map]
theorem cappedOf_length (img : List Byte) : (cappedOf img).length ≤ 96 := by
  unfold cappedOf
  split
  · exact Nat.zero_le _
  · exact (List.length_filter_le _ _).trans (le_of_eq List.length_range)
theorem RackSt.imageCaps_length (x : RackSt) (img : List Byte) (site : Nat) : (x.imageCaps img site).length ≤ 96 := by
  have hp (n : Nat) : (poolCaps img n).length ≤ 96 := by
    unfold poolCaps
    rw [List.length_map, divide_length, List.length_map]
    exact cappedOf_length img
  unfold RackSt.imageCaps
  dsimp only
  split_ifs
  · rw [List.length_map]; exact cappedOf_length img
  · rw [List.length_map]; exact hp _
  · exact hp _
theorem RackSt.caps2_length (x : RackSt) (time : Nat) (l : AlmLog) : (x.caps2 time l).length ≤ 96 := by
  unfold RackSt.caps2
  dsimp only
  split_ifs
  · rw [List.length_map]; exact x.imageCaps_length ..
  · exact x.imageCaps_length ..

/-! ### Entry into HELM -/

theorem State.judgeMode_seqHigh (psu : Bool) (hr : (s.alm a).role = .helm) :
    ((s.judgeMode rack psu).alm a).log.seqHigh = (s.alm a).log.seqHigh := by
  unfold State.judgeMode
  cases s.helm rack with
  | none => rfl
  | some b =>
    dsimp only
    generalize decide ((s.rack rack).single < (s.alm b).log.siteCapW) = c
    have h : ((s.setRack rack { s.rack rack with capacity := c }).alm a).role = .helm := hr
    split_ifs
    · exact State.alarmSet_seqHigh _ _ h
    · exact State.alarmSet_seqHigh _ _ h
    · rfl
theorem State.recapRack_seqHigh (hr : (s.alm a).role = .helm) (hs : (s.alm a).log.seqHigh.toNat + 96 < 2 ^ 64) :
    (s.alm a).log.seqHigh.toNat ≤ ((s.recapRack rack).alm a).log.seqHigh.toNat := by
  cases hh : s.helm rack with
  | none => rw [State.recapRack_none hh]
  | some b =>
    rw [State.recapRack_some hh]
    have h0 : ((s.setRack rack (s.capped rack (s.alm b).log)).alm a).role = .helm := hr
    generalize hx : s.setRack rack (s.capped rack (s.alm b).log) = x at *
    have hxa : (x.alm a).log.seqHigh = (s.alm a).log.seqHigh := by rw [← hx]; rfl
    have e1 := State.alarmSet_seqHigh (rack := rack) "CAP_SHORT"
      ((s.rack rack).short (s.alm b).log.capsChart (s.alm b).log.siteCapW) h0
    generalize hy : x.alarmSet rack "CAP_SHORT" ((s.rack rack).short (s.alm b).log.capsChart (s.alm b).log.siteCapW) = y at *
    have h1 : (y.alm a).role = .helm := by rw [← hy]; exact ((State.alarmSet_logged ..).role a).trans h0
    have e2 := State.alarmSet_seqHigh (rack := rack) "BRAKE_SHORT"
      ((s.rack rack).brakesShort (s.alm b).log.capsChart (s.alm b).log.siteCapW) h1
    have h2 := ((State.alarmSet_logged (rack := rack) "BRAKE_SHORT"
      ((s.rack rack).brakesShort (s.alm b).log.capsChart (s.alm b).log.siteCapW)).role a).trans h1
    generalize y.alarmSet rack "BRAKE_SHORT" ((s.rack rack).brakesShort (s.alm b).log.capsChart (s.alm b).log.siteCapW) = z at *
    have e := e2.trans (e1.trans hxa)
    have hl := (s.rack rack).caps2_length (s.rackTime rack) (s.alm b).log
    rw [← e] at hs ⊢
    exact (State.sendCaps_numbered _ z h2 (by omega)).low
/-- The manager on its entry into HELM, before it judges the mode and sends the caps. -/
def State.entered (a : AlmId) (epoch : Word) (s : State) : AlmSt :=
  { s.alm a with
    role := .helm
    log := { (s.alm a).log with epoch := epoch, holder := some a.sideB, seqHigh := (s.alm a).log.seqHigh + 2 ^ 32,
                                safeChart := if (s.alm a).log.safeChart.isEmpty then s.safeImage a.rack else (s.alm a).log.safeChart }
    ackedAt := (s.alm a).takeAt, renewSent := s.now, acks := [], peerAck := false, takeEpoch := none
    grants := [], ptp := true, sextant := true, brakeFrom := s.now }
theorem State.enterHelm_eq (a : AlmId) (epoch : Word) (s : State) :
    s.enterHelm a epoch = ((s.setAlm a (s.entered a epoch)).judgeMode a.rack false).recapRack a.rack := rfl
theorem State.enterHelm_shell (a : AlmId) (epoch : Word) (s : State) :
    ((s.enterHelm a epoch).alm a).shell = (s.entered a epoch).shell := by
  rw [State.enterHelm_eq, ((State.judgeMode_recapped ..).trans (State.recapRack_recapped ..)).shell, State.alm_setAlm_same]
theorem State.enterHelm_seqHigh (a : AlmId) (epoch : Word) (hs : (s.alm a).log.seqHigh.toNat < 2 ^ 63) :
    (s.alm a).log.seqHigh.toNat + 2 ^ 32 ≤ ((s.enterHelm a epoch).alm a).log.seqHigh.toNat := by
  rw [State.enterHelm_eq]
  have h0 : ((s.setAlm a (s.entered a epoch)).alm a).role = .helm := by rw [State.alm_setAlm_same]; rfl
  have e0 : ((s.setAlm a (s.entered a epoch)).alm a).log.seqHigh.toNat = (s.alm a).log.seqHigh.toNat + 2 ^ 32 := by
    rw [State.alm_setAlm_same]
    show ((s.alm a).log.seqHigh + 2 ^ 32).toNat = _
    rw [BitVec.toNat_add]
    have : (2 ^ 32 : BitVec 64).toNat = 2 ^ 32 := by decide
    rw [this]
    exact Nat.mod_eq_of_lt (by omega)
  have h1 := ((State.judgeMode_recapped a.rack false (s.setAlm a (s.entered a epoch))).shell a)
  have h1 : (((s.setAlm a (s.entered a epoch)).judgeMode a.rack false).alm a).role = .helm :=
    (congrArg AlmSt.role h1 :).trans h0
  have e1 := State.judgeMode_seqHigh (rack := a.rack) false h0
  rw [← e0, ← e1]
  exact State.recapRack_seqHigh h1 (by rw [e1, e0]; omega)

end Sys2Proof.Machine
end

section
/-! PROOF. The helm's lease and its transfer: the steps of RENEW, TAKE and the start (R300–R304, R355). -/
namespace Sys2Proof.Machine
open Sys2Proof

variable {s t u : State} {a : AlmId}

theorem exec_leaseExpiry (a : AlmId) (s : State) : exec (.leaseExpiry a) s =
    onAlm a s fun x => if x.role = .helm ∧ x.ackedAt + ms 450 ≤ s.now then x.leave .adrift else x := rfl
theorem exec_silenceTimeout (a : AlmId) (s : State) : exec (.silenceTimeout a) s = onAlm a s fun x =>
    if x.role = .standby ∧ x.takeEpoch = none ∧ x.heardAt + ms 400 ≤ s.now ∧ x.retryAt ≤ s.now then x.sendTake s.now else x := rfl
theorem exec_takeGrant_none (h : (s.alm a).takeEpoch = none) : exec (.takeGrant a) s = .next s := by
  change execTakeGrant a s = _
  unfold execTakeGrant
  dsimp only
  rw [h]
theorem exec_takeGrant_some {e : Word} (h : (s.alm a).takeEpoch = some e) : exec (.takeGrant a) s =
    .next (if (s.alm a).role = .standby ∧ 15 ≤ (s.alm a).grants.length ∧ s.now ≤ (s.alm a).takeAt + ms 50 then s.enterHelm a e else s) := by
  change execTakeGrant a s = _
  unfold execTakeGrant
  dsimp only
  rw [h]
theorem exec_takeRoundEnd (a : AlmId) (s : State) : exec (.takeRoundEnd a) s = onAlm a s fun x =>
    if x.takeEpoch.isSome && decide (x.takeAt + ms 50 ≤ s.now) && x.grants.length < 15 then
      { x with takeEpoch := none, grants := [], retryAt := s.now + ms (if a.sideB then 700 else 200) }.emit (.alarm "PAIR_LOST" true)
    else x := rfl
/-- What a manager makes of ALMANAC_BOOT beside its peer. -/
def AlmSt.booted (sideB : Bool) (now : Nat) (x peer : AlmSt) : AlmSt :=
  let reached := decide (peer.role ≠ .off)
  if x.role = .off then { x with role := .booting, bootAt := now }
  else if x.role ≠ .booting then x
  else if peer.role = .helm then x.meetHelm
  else if reached || decide (x.bootAt + ms 10000 ≤ now) then
    let holder := if reached && decide (x.log.epoch.toNat < peer.log.epoch.toNat) then peer.log.holder else x.log.holder
    let first := holder.getD false == sideB
    { x with role := .standby, heardAt := x.bootAt, retryAt := if first then now else now + ms 1000,
             knownHigh := maxWord x.knownHigh x.log.epoch, updatedAt := none }
  else x
theorem exec_almanacBoot (a : AlmId) (s : State) :
    exec (.almanacBoot a) s = .next (s.setAlm a ((s.alm a).booted a.sideB s.now (s.alm (AlmId.peer a)))) := rfl

/-! ### TAKE at a CW -/

/-- A grant needs a higher epoch, and silence or a RELINQUISH. -/
theorem CwSt.grants_imp {now : Nat} {epoch : Word} {c : CwSt} (h : c.grants now epoch = true) :
    c.epochSeen.toNat < epoch.toNat ∧ (c.relinquished = none → ∀ r, c.renewAt = some r → r + 400000000 ≤ now) := by
  simp only [CwSt.grants, Bool.and_eq_true, decide_eq_true_eq] at h
  obtain ⟨⟨_, h1⟩, h2⟩ := h
  refine ⟨h2, fun hq r hr => ?_⟩
  rw [hq, hr] at h1
  have h3 : r + ms 400 ≤ now := by simpa using h1
  exact h3
/-- No vote under an epoch that the CW has seen. -/
theorem CwSt.grants_le {now : Nat} {e : Word} {c : CwSt} (h : e.toNat ≤ c.epochSeen.toNat) : c.grants now e = false := by
  have : decide (c.epochSeen.toNat < e.toNat) = false := decide_eq_false (by omega)
  rw [CwSt.grants, this, Bool.and_false]
/-- The CW after a TAKE, and the manager after its answer. -/
def CwSt.voted (vote : Bool) (epoch : Word) (c : CwSt) : CwSt := if vote then { c with epochSeen := epoch, relinquished := none } else c
def AlmSt.voted (vote : Bool) (epoch seen : Word) (slot : Nat) (x : AlmSt) : AlmSt :=
  let y := { x with knownHigh := maxWord x.knownHigh seen }
  if vote && decide (x.role = .standby) && decide (x.takeEpoch = some epoch) then { y with grants := addTo y.grants slot } else y
theorem exec_take {t : TrayId} {epoch : Word} (ht : t.rack = a.rack) (hr : (s.tray t).running = true) :
    exec (.take t a epoch) s =
      .next ((s.setTray t (((s.tray t).voted ((s.tray t).grants s.now epoch) epoch).emit
        (.takeAnswer ((s.tray t).grants s.now epoch) ((s.tray t).voted ((s.tray t).grants s.now epoch) epoch).epochSeen))).setAlm a
          ((s.alm a).voted ((s.tray t).grants s.now epoch) epoch ((s.tray t).voted ((s.tray t).grants s.now epoch) epoch).epochSeen t.slot.val)) := by
  have hn : ¬ (t.rack ≠ a.rack ∨ (!(s.tray t).running) = true) := by rw [hr]; simp [ht]
  change execTake t a epoch s = _
  unfold execTake
  dsimp only
  rw [if_neg hn]
  rfl
theorem exec_take_away {t : TrayId} {epoch : Word} (h : t.rack ≠ a.rack ∨ (s.tray t).running = false) :
    exec (.take t a epoch) s = .next s := by
  have hn : t.rack ≠ a.rack ∨ (!(s.tray t).running) = true := by simpa using h
  change execTake t a epoch s = _
  unfold execTake
  dsimp only
  rw [if_pos hn]
theorem AlmSt.voted_role (vote : Bool) (epoch seen : Word) (slot : Nat) (x : AlmSt) : (x.voted vote epoch seen slot).role = x.role := by
  unfold AlmSt.voted; dsimp only; split <;> rfl

/-! ### RENEW -/

/-- What a RENEW does at the one that receives it. -/
def State.renewed (src : AlmId) (epoch : Word) (toPeer : Bool) (slot : Fin 28) (s : State) : State :=
  if toPeer then s.setAlm (AlmId.peer src) ((s.alm (AlmId.peer src)).hear s.now epoch)
  else s.setTray ⟨src.rack, slot⟩ ({ s.tray ⟨src.rack, slot⟩ with
    renewAt := some s.now, epochSeen := maxWord (s.tray ⟨src.rack, slot⟩).epochSeen epoch }.emit (.renewAck slot.val epoch))
/-- What an acknowledged RENEW does at its sender. -/
def AlmSt.renewAcked (now : Nat) (toPeer : Bool) (slot : Fin 28) (x : AlmSt) : AlmSt :=
  (if toPeer then { x.sending now with peerAck := true } else { x.sending now with acks := addTo (x.sending now).acks slot.val }).acked
theorem exec_renew_lost {epoch : Word} {toPeer : Bool} {slot : Fin 28}
    (h : (if toPeer then decide ((s.alm (AlmId.peer a)).role ≠ .off) else (s.tray ⟨a.rack, slot⟩).running) = false) :
    exec (.renew a epoch toPeer slot) s = .next s ∨ ∃ y, exec (.renew a epoch toPeer slot) s = .next (s.setAlm a y) := by
  change execRenew a epoch toPeer slot s = _ ∨ ∃ y, execRenew a epoch toPeer slot s = _
  unfold execRenew
  dsimp only
  rw [h]
  split
  · exact .inl rfl
  · exact .inr ⟨_, rfl⟩
theorem State.renewed_alm (epoch : Word) (toPeer : Bool) (slot : Fin 28) : (s.renewed a epoch toPeer slot).alm a = s.alm a := by
  unfold State.renewed
  split
  · exact State.alm_setAlm_ne _ _ (AlmId.peer_ne a).symm
  · rfl
theorem exec_renew_got {epoch : Word} {toPeer : Bool} {slot : Fin 28}
    (h : (if toPeer then decide ((s.alm (AlmId.peer a)).role ≠ .off) else (s.tray ⟨a.rack, slot⟩).running) = true) :
    exec (.renew a epoch toPeer slot) s = .next (if (s.alm a).role = .helm ∧ (s.alm a).log.epoch = epoch then
      (s.renewed a epoch toPeer slot).setAlm a ((s.alm a).renewAcked s.now toPeer slot) else s.renewed a epoch toPeer slot) := by
  have ha := State.renewed_alm (s := s) (a := a) epoch toPeer slot
  have hs : execRenew a epoch toPeer slot s =
      if !(decide ((s.alm a).role = .helm) && decide ((s.alm a).log.epoch = epoch)) then .next (s.renewed a epoch toPeer slot)
      else .next ((s.renewed a epoch toPeer slot).setAlm a (((s.renewed a epoch toPeer slot).alm a).renewAcked s.now toPeer slot)) := by
    unfold execRenew State.renewed AlmSt.renewAcked
    dsimp only
    rw [h]
    cases toPeer <;> simp only [Bool.not_true, Bool.false_eq_true, if_false, if_true]
  refine hs.trans ?_
  rw [ha]
  by_cases hm : (s.alm a).role = .helm ∧ (s.alm a).log.epoch = epoch
  · rw [if_pos hm, if_neg (by simp [hm])]
  · rw [if_neg hm, if_pos (by simpa only [Bool.not_eq_true', Bool.and_eq_false_iff, decide_eq_false_iff_not, ← not_and_or] using hm)]
theorem AlmSt.acked_quorum (x : AlmSt) (h : x.peerAck = true ∨ 15 ≤ x.acks.length) : x.acked = { x with ackedAt := x.renewSent } := by
  unfold AlmSt.acked
  rw [if_pos (by simpa using h)]
theorem AlmSt.acked_acks (x : AlmSt) : x.acked.acks = x.acks := by unfold AlmSt.acked; split <;> rfl
theorem AlmSt.acked_ackedAt (x : AlmSt) (h : 15 ≤ x.acked.acks.length) : x.acked.ackedAt = x.acked.renewSent := by
  rw [AlmSt.acked_acks] at h
  rw [AlmSt.acked_quorum x (.inr h)]
theorem AlmSt.hear_heardAt (now : Nat) (epoch : Word) (x : AlmSt) : (x.hear now epoch).heardAt = now := by
  unfold AlmSt.hear AlmSt.meetHelm
  dsimp only
  split_ifs
  · rfl
  · rfl
  · split <;> rfl
theorem AlmSt.hear_helm {now : Nat} {epoch : Word} {x : AlmSt} (h1 : x.role = .helm) (h2 : x.log.epoch.toNat < epoch.toNat) :
    (x.hear now epoch).role = .adrift ∧ (x.hear now epoch).sextant = false ∧ (x.hear now epoch).ptp = false := by
  unfold AlmSt.hear
  dsimp only
  rw [if_pos h1, if_pos h2]
  exact ⟨rfl, rfl, rfl⟩
theorem AlmSt.hear_lost {now : Nat} {epoch : Word} {x : AlmSt} (h : x.role = .adrift ∨ x.role = .booting) :
    (x.hear now epoch).role = .syncing := by
  unfold AlmSt.hear AlmSt.meetHelm
  rcases h with h | h
  all_goals
    dsimp only
    rw [h]
    rfl
theorem AlmSt.hear_standby {now : Nat} {epoch : Word} {x : AlmSt} (h : x.role = .standby) : (x.hear now epoch).role = .standby := by
  unfold AlmSt.hear AlmSt.meetHelm
  dsimp only
  rw [h, if_neg nofun]
theorem contains_addTo (l : List Nat) (n : Nat) : (addTo l n).contains n = true := by
  unfold addTo
  split
  next h => exact h
  next => simp
theorem AlmSt.renewAcked_cw (now : Nat) (slot : Fin 28) (x : AlmSt) : (x.renewAcked now false slot).acks.contains slot.val = true ∧
    (15 ≤ (x.renewAcked now false slot).acks.length → (x.renewAcked now false slot).ackedAt = (x.renewAcked now false slot).renewSent) := by
  unfold AlmSt.renewAcked
  generalize x.sending now = y
  exact ⟨by rw [AlmSt.acked_acks]; exact contains_addTo .., AlmSt.acked_ackedAt _⟩
theorem AlmSt.renewAcked_peer (now : Nat) (slot : Fin 28) (x : AlmSt) :
    (x.renewAcked now true slot).peerAck = true ∧ (x.renewAcked now true slot).ackedAt = (x.renewAcked now true slot).renewSent := by
  unfold AlmSt.renewAcked
  generalize x.sending now = y
  rw [if_pos rfl, AlmSt.acked_quorum _ (.inl rfl)]
  exact ⟨rfl, rfl⟩
theorem AlmSt.booted_booting {sideB : Bool} {now : Nat} {x peer : AlmSt} (hx : x.role = .booting) (hp : peer.role ≠ .helm)
    (h : peer.role ≠ .off ∨ x.bootAt + 10000000000 ≤ now) : x.booted sideB now peer =
      { x with role := .standby, heardAt := x.bootAt, knownHigh := maxWord x.knownHigh x.log.epoch, updatedAt := none
               retryAt := if (if decide (peer.role ≠ .off) && decide (x.log.epoch.toNat < peer.log.epoch.toNat) then peer.log.holder
                 else x.log.holder).getD false == sideB then now else now + 1000000000 } := by
  have h1 : ¬ x.role = .off := fun e => by rw [e] at hx; cases hx
  have h2 : (decide (peer.role ≠ .off) || decide (x.bootAt + ms 10000 ≤ now)) = true := by
    rw [Bool.or_eq_true, decide_eq_true_eq, decide_eq_true_eq]; exact h
  unfold AlmSt.booted
  dsimp only
  rw [if_neg h1, if_neg (fun e => e hx), if_neg hp, if_pos h2]
  rfl

theorem AlmSt.of_shell {β : Type} {x y : AlmSt} (f : AlmSt → β) (hs : x.shell = y.shell) (hf : ∀ x : AlmSt, f x.shell = f x) : f x = f y := by
  rw [← hf x, hs, hf]
/-- Settles O49: one lemma for each step of the lease; on entry into HELM at most 96 caps are numbered above the step of 2³². -/
theorem helmLease : Obligations.HelmLease := by
  intro s a x other
  refine ⟨?_, ?_, ?_, ?_, ?_, ?_, ?_, ?_, ?_, ?_, ?_, ?_, ?_, ?_, ?_, ?_⟩
  · intro h
    exact (exec_leaseExpiry a s).trans (onAlm_next (if_neg fun ⟨h1, h2⟩ => h.elim (· h1) (Nat.not_lt.2 h2)))
  · intro h1 h2
    exact (exec_leaseExpiry a s).trans (onAlm_next (if_pos ⟨h1, h2⟩))
  · intro h
    refine (exec_silenceTimeout a s).trans (onAlm_next (if_neg ?_))
    rintro ⟨h1, h2, h3, h4⟩
    exact h.elim (· h1) (·.elim (· h2) (·.elim (Nat.not_lt.2 h3) (Nat.not_lt.2 h4)))
  · intro h1 h2 h3 h4
    exact ⟨x.sendTake s.now, (exec_silenceTimeout a s).trans (onAlm_next (if_pos ⟨h1, h2, h3, h4⟩)), h1, rfl, rfl, rfl, rfl⟩
  · exact fun t epoch h => exec_take_away h
  · intro t epoch ht hr c vote
    refine ⟨fun h => CwSt.grants_imp h, _, exec_take ht hr, ?_⟩
    have ht' : ∀ c y, ((s.setTray t c).setAlm a y).tray t = c := fun _ _ => State.tray_setTray_same ..
    rw [State.alm_setAlm_same, ht']
    refine ⟨by change _ = c.out ++ [.takeAnswer _ _]; unfold CwSt.voted; split <;> rfl, ?_, ?_, ?_, AlmSt.voted_role ..⟩
    · intro hv
      change c.grants s.now epoch = true at hv
      have he : (c.voted true epoch).epochSeen = epoch := rfl
      rw [hv]
      exact ⟨rfl, fun n e hle => CwSt.grants_le hle⟩
    · intro hv
      change c.grants s.now epoch = false at hv
      rw [hv]
      exact ⟨rfl, rfl⟩
    · intro hv h1 h2
      change c.grants s.now epoch = true at hv
      rw [hv]
      unfold AlmSt.voted
      dsimp only
      rw [if_pos (by rw [h1, h2]; simp)]
  · intro h
    cases hx : x.takeEpoch with
    | none => exact exec_takeGrant_none hx
    | some e =>
      refine (exec_takeGrant_some hx).trans (congrArg _ (if_neg ?_))
      rintro ⟨h1, h2, h3⟩
      exact h.elim (fun h => nomatch hx.symm.trans h) (·.elim (· h1) (·.elim (Nat.not_lt.2 h2) (Nat.not_lt.2 h3)))
  · intro e he h1 h2 h3
    have hsh := State.enterHelm_shell a e s
    have hf {β : Type} (f : AlmSt → β) (hf : ∀ y : AlmSt, f y.shell = f y) : f ((s.enterHelm a e).alm a) = f (s.entered a e) := AlmSt.of_shell f hsh hf
    refine ⟨s.enterHelm a e, (exec_takeGrant_some he).trans (congrArg _ (if_pos ⟨h1, h2, h3⟩)), hf (·.role) fun _ => rfl,
      hf (·.log.epoch) fun _ => rfl, hf (·.log.holder) fun _ => rfl, hf (·.ackedAt) fun _ => rfl, hf (·.ptp) fun _ => rfl,
      hf (·.sextant) fun _ => rfl, hf (·.brakeFrom) fun _ => rfl, State.enterHelm_seqHigh a e, ?_⟩
    rw [State.enterHelm_eq]
    exact State.recapRack_follow _ _
  · intro h
    refine (exec_takeRoundEnd a s).trans (onAlm_next (if_neg ?_))
    rw [Bool.and_eq_true, Bool.and_eq_true, decide_eq_true_eq, decide_eq_true_eq]
    rintro ⟨⟨h1, h2⟩, h3⟩
    exact h.elim (fun h => nomatch h1.symm.trans (congrArg Option.isSome h)) (·.elim (Nat.not_lt.2 h2) (Nat.not_le.2 h3))
  · intro h1 h2 h3
    refine ⟨_, (exec_takeRoundEnd a s).trans (onAlm_next (if_pos ?_)), rfl, rfl, ?_, rfl⟩
    · rw [Bool.and_eq_true, Bool.and_eq_true, decide_eq_true_eq, decide_eq_true_eq]
      exact ⟨⟨Option.isSome_iff_ne_none.2 h1, h2⟩, h3⟩
    · show s.now + ms (if a.sideB then 700 else 200) = _
      cases a.sideB <;> rfl
  · intro h
    exact (exec_almanacBoot a s).trans (congrArg (fun y => Host.Outcome.next (s.setAlm a y)) (if_pos h))
  · intro h1 h2
    exact (exec_almanacBoot a s).trans (congrArg (fun y => Host.Outcome.next (s.setAlm a y)) ((if_neg h1).trans (if_pos h2)))
  · intro h1 h2
    have h3 : ¬ x.role = .off := fun e => by rw [e] at h1; cases h1
    refine ⟨_, (exec_almanacBoot a s).trans (congrArg (fun y => Host.Outcome.next (s.setAlm a y))
      ((if_neg h3).trans ((if_neg (fun e => e h1)).trans (if_pos h2)))), ?_⟩
    change x.meetHelm.role = _
    unfold AlmSt.meetHelm
    rw [h1]
  · intro h1 h2 h3
    have h4 : ¬ x.role = .off := fun e => by rw [e] at h1; cases h1
    have h5 : ¬ (s.alm (AlmId.peer a)).role = .helm := fun e => by rw [show (s.alm (AlmId.peer a)).role = .off from h2] at e; cases e
    have h6 : ¬ (decide ((s.alm (AlmId.peer a)).role ≠ .off) || decide (x.bootAt + ms 10000 ≤ s.now)) = true := by
      rw [show (s.alm (AlmId.peer a)).role = .off from h2, ms_eq]
      simpa using h3
    exact (exec_almanacBoot a s).trans (congrArg (fun y => Host.Outcome.next (s.setAlm a y))
      ((if_neg h4).trans ((if_neg (fun e => e h1)).trans ((if_neg h5).trans (if_neg h6)))))
  · intro h1 h2 h3
    refine ⟨_, (exec_almanacBoot a s).trans (congrArg (fun y => Host.Outcome.next (s.setAlm a y)) (AlmSt.booted_booting h1 h2 h3)), rfl, ?_, ?_⟩
    · have hb : ∀ b : Bool, (if b then s.now else s.now + 1000000000) = s.now ∨
          (if b then s.now else s.now + 1000000000) = s.now + 1000000000 := fun b => by cases b <;> simp
      exact hb _
    · intro h4
      have h5 : (s.alm (AlmId.peer a)).role = .off := h4
      simp only [h5, ne_eq, not_true_eq_false, decide_false, Bool.false_and, Bool.false_eq_true, if_false]
      split
      next e => exact iff_of_true rfl (by simpa using e)
      next e => exact iff_of_false (by omega) (by simpa using e)
  · intro epoch slot t mine
    refine ⟨fun h => ?_, fun h => ?_, fun h => ?_, fun h => ?_⟩
    · rcases exec_renew_lost (toPeer := false) (epoch := epoch) (slot := slot) h with e | ⟨y, e⟩
      · exact ⟨_, e, rfl⟩
      · exact ⟨_, e, rfl⟩
    · refine ⟨_, exec_renew_got (toPeer := false) h, ?_⟩
      have hu : ∀ b : Prop, ∀ _ : Decidable b, ∀ y, (if b then (s.renewed a epoch false slot).setAlm a y else s.renewed a epoch false slot).tray t =
          { s.tray t with renewAt := some s.now, epochSeen := maxWord (s.tray t).epochSeen epoch }.emit (.renewAck slot.val epoch) := by
        intro b _ y
        split <;> exact State.tray_setTray_same ..
      rw [hu]
      refine ⟨rfl, rfl, rfl, fun hm => ?_⟩
      rw [if_pos hm, State.alm_setAlm_same]
      exact AlmSt.renewAcked_cw ..
    · have h' : decide ((s.alm (AlmId.peer a)).role ≠ .off) = false := by simpa using h
      rcases exec_renew_lost (toPeer := true) (epoch := epoch) (slot := slot) h' with e | ⟨y, e⟩
      · exact ⟨_, e, rfl, rfl⟩
      · exact ⟨_, e, State.alm_setAlm_ne _ _ (AlmId.peer_ne a), rfl⟩
    · have h' : decide ((s.alm (AlmId.peer a)).role ≠ .off) = true := by simpa using h
      refine ⟨_, exec_renew_got (toPeer := true) h', ?_⟩
      have ho : ∀ b : Prop, ∀ _ : Decidable b, ∀ y, (if b then (s.renewed a epoch true slot).setAlm a y else s.renewed a epoch true slot).alm other =
          (s.alm other).hear s.now epoch := by
        intro b _ y
        split
        · rw [State.alm_setAlm_ne _ _ (AlmId.peer_ne a)]; exact State.alm_setAlm_same ..
        · exact State.alm_setAlm_same ..
      have ht : ∀ b : Prop, ∀ _ : Decidable b, ∀ y, (if b then (s.renewed a epoch true slot).setAlm a y else s.renewed a epoch true slot).trays =
          s.trays := by
        intro b _ y
        split <;> rfl
      rw [ho, ht]
      refine ⟨AlmSt.hear_heardAt .., rfl, AlmSt.hear_helm, AlmSt.hear_lost, AlmSt.hear_standby, fun hm => ?_⟩
      rw [if_pos hm, State.alm_setAlm_same]
      exact AlmSt.renewAcked_peer ..

end Sys2Proof.Machine
end

section
/-! PROOF. MCTP control and SPDM messages (R277, R289, Tables 13.3, 13.11). -/
namespace Sys2Proof.Machine
open Sys2Proof

variable {s t u : State} {p : PkgId} {k : Pkg}

/-! ### Who answers -/

theorem onMctp_up {f : Pkg → Pkg} (h : (s.pkg p).mctpUp = true) : onMctp p s f = .next (s.setPkg p (f (s.pkg p))) := onPkg_next (if_pos h)
theorem onMctp_down {f : Pkg → Pkg} (h : (s.pkg p).mctpUp = false) : onMctp p s f = .next (s.setPkg p (s.pkg p)) :=
  onPkg_next (if_neg (by rw [h]; exact Bool.false_ne_true))
theorem onSpdm_up {f : Pkg → Pkg} (h : (s.pkg p).pkc.run = .running) : onSpdm p s f = .next (s.setPkg p (f (s.pkg p))) :=
  onPkg_next (if_pos (decide_eq_true h))
theorem Pkg.spdmAt_early {n : Nat} {f : Pkg → Pkg} (h : k.pkc.spdmStep < n) : k.spdmAt n f = k.emit (.spdm 0x7F [4]) := if_pos h
theorem Pkg.spdmAt_met {n : Nat} {f : Pkg → Pkg} (h : n ≤ k.pkc.spdmStep) : k.spdmAt n f = f k := if_neg (Nat.not_lt.2 h)
/-- An SPDM request before its step gets UnexpectedRequest. -/
theorem onSpdm_early {n : Nat} {f : Pkg → Pkg} (hr : (s.pkg p).pkc.run = .running) (h : (s.pkg p).pkc.spdmStep < n) :
    onSpdm p s (fun k => k.spdmAt n f) = .next (s.setPkg p ((s.pkg p).emit (.spdm 0x7F [4]))) :=
  (onSpdm_up hr).trans (by rw [Pkg.spdmAt_early h])
theorem onSpdm_met {n : Nat} {f : Pkg → Pkg} (hr : (s.pkg p).pkc.run = .running) (h : n ≤ (s.pkg p).pkc.spdmStep) {j : Pkg}
    (hf : f (s.pkg p) = j) : onSpdm p s (fun k => k.spdmAt n f) = .next (s.setPkg p j) :=
  (onSpdm_up hr).trans (by rw [Pkg.spdmAt_met h, hf])

/-! ### The requests -/

theorem exec_setEndpointId (eid : Byte) : exec (.setEndpointId p eid) s =
    onMctp p s fun k => (k.setPkc fun x => { x with eid := eid }).mctp 1 [0, 0, eid, 0] := rfl
theorem exec_getMctpVersionSupport (m : Byte) : exec (.getMctpVersionSupport p m) s = onMctp p s fun k =>
    k.mctp 4 (if m = 0xFF ∨ m = 0 ∨ m = 1 ∨ m = 5 ∨ m = 0x7F then [0, 1, 0xF1, 0xF3, 0xFF, 0x00] else [0x80]) := rfl
theorem exec_getVendorDefinedMessageSupport (x : Bool) (b : Byte) : exec (.getVendorDefinedMessageSupport p x b) s =
    onMctp p s fun k => k.mctp 6 (if x ∨ b ≠ 0 then [2] else [0, 0xFF, 1, 0, 0, 0xD8, 0x1A, 0, 0]) := rfl
theorem exec_getVersion : exec (.getVersion p) s =
    onSpdm p s fun k => (k.setPkc fun x => { x with spdmStep := 1, challengeOk := false }).spdm 0x04 [1, 0, 0x12] := rfl

theorem exec_getCapabilities : exec (.getCapabilities p) s = onSpdm p s fun k => k.spdmAt 1 fun k =>
    (k.setPkc fun x => { x with spdmStep := max 2 x.spdmStep }).spdm 0x61 (Config.spdmCaps (s.moduleKey p)) := rfl
theorem exec_negotiateAlgorithms (a h : Word) : exec (.negotiateAlgorithms p a h) s = onSpdm p s fun k => k.spdmAt 2 fun k =>
    if bit a.toNat 7 && bit h.toNat 1 then (k.setPkc fun x => { x with spdmStep := 3 }).spdm 0x63 (leBytes 4 0x80 ++ leBytes 4 2)
    else k.spdmError 1 := rfl
theorem exec_getDigests : exec (.getDigests p) s = onSpdm p s fun k => k.spdmAt 3 fun k =>
    k.spdm 0x01 (1 :: leBytes 48 (chainDigest (s.moduleKey p)).toNat) := rfl
/-- The answer of GET_CERTIFICATE. -/
def Pkg.certificate (key : Nat) (slot : Byte) (offset len : BitVec 16) (k : Pkg) : Pkg :=
  if slot ≠ 0 then k.spdmError 1
  else
    let part := slice (Config.certChain key) offset.toNat len.toNat
    k.spdm 0x02 (0 :: (leBytes 2 part.length ++ leBytes 2 ((Config.certChain key).length - offset.toNat - part.length) ++ part))
theorem exec_getCertificate (sl : Byte) (o n : BitVec 16) : exec (.getCertificate p sl o n) s =
    onSpdm p s fun k => k.spdmAt 3 (Pkg.certificate (s.moduleKey p) sl o n) := rfl
/-- The answer of CHALLENGE. -/
def Pkg.challenged (key : Nat) (slot : Byte) (nonce : BitVec 256) (k : Pkg) : Pkg :=
  if slot ≠ 0 then k.spdmError 1
  else (k.setPkc fun x => { x with challengeOk := Config.chainGood key && signatureGood key (challengeBody key nonce) }).spdm 0x03
      (signed key (challengeBody key nonce))
theorem exec_challenge (sl : Byte) (n : BitVec 256) : exec (.challenge p sl n) s =
    onSpdm p s fun k => k.spdmAt 3 (Pkg.challenged (s.moduleKey p) sl n) := rfl
theorem getMeasurements_early {n : BitVec 256} (hr : (s.pkg p).pkc.run = .running) (h : (s.pkg p).pkc.spdmStep < 3) :
    exec (.getMeasurements p n) s = .next (s.setPkg p ((s.pkg p).spdmError 4)) := by
  change execGetMeasurements p n s = _
  unfold execGetMeasurements
  dsimp only
  rw [if_neg (fun e => e hr), if_pos h]
theorem getMeasurements_met {n : BitVec 256} (hr : (s.pkg p).pkc.run = .running) (h : 3 ≤ (s.pkg p).pkc.spdmStep)
    (hx : (s.posn (PkgId.tray p) (PkgId.pos p)).step ≠ 8) : exec (.getMeasurements p n) s =
      .next (s.setPkg p ((s.pkg p).spdm 0x60 (signed (s.moduleKey p) ((s.pkg p).measurements (s.moduleKey p) n)))) := by
  change execGetMeasurements p n s = _
  unfold execGetMeasurements
  dsimp only
  rw [if_neg (fun e => e hr), if_neg (Nat.not_lt.2 h), if_pos hx]

/-- Settles O46: each request is its answer, once the package answers MCTP at all and the SPDM step is met. -/
theorem standardMessages : Obligations.StandardMessages := by
  intro s p k key mctpSays spdm
  refine ⟨fun h => ⟨fun eid => (exec_setEndpointId eid).trans (onMctp_up h), onMctp_up h, onMctp_up h, fun m hm => ?_, fun m h1 h2 h3 h4 h5 => ?_, onMctp_up h, onMctp_up h,
    onMctp_up h, fun x b hx => ?_⟩, fun hr => ⟨exec_getVersion.trans (onSpdm_up hr), fun h => ?_, fun h => ?_, fun a b h => ?_, fun a b h h1 h2 => ?_, fun a b h h1 => ?_,
      fun h => ⟨?_, fun sl o n => ?_, fun sl n => ?_, fun n => ?_⟩,
      fun h => ⟨?_, fun sl o n hs => ?_, fun o n => ?_, fun sl n hs => ?_, fun n => ?_, fun n hx => ?_⟩⟩⟩
  · refine (exec_getMctpVersionSupport m).trans ((onMctp_up h).trans ?_)
    rw [if_pos hm]
    rfl
  · refine (exec_getMctpVersionSupport m).trans ((onMctp_up h).trans ?_)
    rw [if_neg (fun e => e.elim h1 (·.elim h2 (·.elim h3 (·.elim h4 h5))))]
    rfl
  · refine (exec_getVendorDefinedMessageSupport x b).trans ((onMctp_up h).trans ?_)
    rw [if_pos hx]
    rfl
  · exact exec_getCapabilities.trans (onSpdm_early hr h)
  · exact exec_getCapabilities.trans (onSpdm_met hr h rfl)
  · exact (exec_negotiateAlgorithms a b).trans (onSpdm_early hr h)
  · exact (exec_negotiateAlgorithms a b).trans (onSpdm_met hr h (if_pos (by rw [h1, h2]; rfl)))
  · exact (exec_negotiateAlgorithms a b).trans (onSpdm_met hr h (if_neg (by rcases h1 with e | e <;> simp [e])))
  · exact exec_getDigests.trans (onSpdm_early hr h)
  · exact (exec_getCertificate sl o n).trans (onSpdm_early hr h)
  · exact (exec_challenge sl n).trans (onSpdm_early hr h)
  · exact getMeasurements_early hr h
  · exact exec_getDigests.trans (onSpdm_met hr h rfl)
  · exact (exec_getCertificate sl o n).trans (onSpdm_met hr h (if_pos hs))
  · exact (exec_getCertificate 0 o n).trans (onSpdm_met hr h (if_neg (fun e => e rfl)))
  · exact (exec_challenge sl n).trans (onSpdm_met hr h (if_pos hs))
  · exact (exec_challenge 0 n).trans (onSpdm_met hr h (if_neg (fun e => e rfl)))
  · exact getMeasurements_met hr h hx

end Sys2Proof.Machine
end

section
/-! PROOF. Accesses of several words (R280, R281, R346): no word of one changes which later word is refused. -/
namespace Sys2Proof.Machine
open Sys2Proof

variable {j k : Pkg} {s t : State} {p : PkgId} {x : Bus} {m : Mem} {off size : Nat}

/-! ### PAUSED stands through an access to the paused blocks -/

theorem Pkg.get_csuStop {f : Fld} (h : ∀ u, u < 10 → f.off ≠ R.CSU_STATUS u) (code : Nat) (q : Scanning → Bool) (k : Pkg) :
    (k.csuStop code q).get f = k.get f := by
  refine List.foldlRecOn (motive := fun j : Pkg => j.get f = k.get f) _ _ rfl fun j hj u hu => ?_
  split
  · exact (Pkg.get_of_rg (Pkg.csuEnd_rg_ne _ _ _ _ (h u (List.mem_range.1 hu)))).trans hj
  · exact hj
theorem Pkg.paused_put {f : Fld} (v : Nat) (k : Pkg) (h : f.off ≠ R.UPD_STATUS ∨ f.lo + f.width ≤ 4 ∨ 5 ≤ f.lo) :
    (k.put f v).get F.UPD_STATUS_PAUSED = k.get F.UPD_STATUS_PAUSED := by
  by_cases ho : f.off = R.UPD_STATUS
  · exact Pkg.get_put_disjoint _ _ _ _ (by decide) ho.symm (h.elim (fun e => absurd ho e) fun e => e.symm)
  · exact Pkg.get_of_rg (Pkg.rg_put_ne _ _ _ (fun e => ho e.symm))
theorem CSU_STATUS_ne_UPD (u : Nat) (h : u < 10) : F.UPD_STATUS_PAUSED.off ≠ R.CSU_STATUS u := by
  simp only [F.UPD_STATUS_PAUSED, R.UPD_STATUS, R.CSU_STATUS]; omega
theorem Pkg.paused_pushWord (w : Word) (k : Pkg) : (k.pushWord w).get F.UPD_STATUS_PAUSED = k.get F.UPD_STATUS_PAUSED := by
  unfold Pkg.pushWord
  dsimp only
  generalize applyPatch k.fwKeys [] 1 bankBytes (k.setUpd fun x => { x with received := x.received ++ leBytes 4 w.toNat }).upd.received = r
  generalize pVersion (k.setUpd fun x => { x with received := x.received ++ leBytes 4 w.toNat }).upd.received = ver
  split_ifs
  · rfl
  · rfl
  · exact (Pkg.paused_put (f := F.UPD_STATUS_FAIL) _ _ (.inr (by decide))).trans (Pkg.get_of_regs rfl _)
  · have hrun : ∀ y : Pkg, (y.setRun .booting).get F.UPD_STATUS_PAUSED = y.get F.UPD_STATUS_PAUSED := fun _ => rfl
    rw [hrun]
    refine (Pkg.paused_put (f := F.UPD_STATUS_LIFEBOAT) _ (Pkg.flipBank _) (.inr (by decide))).trans ?_
    refine (Pkg.get_csuStop CSU_STATUS_ne_UPD _ _ _).trans ((Pkg.paused_put (f := F.UPD_STATUS_ACTIVE_BANK) _ _ (.inr (by decide))).trans ?_)
    refine (Pkg.get_csuStop CSU_STATUS_ne_UPD _ _ _).trans ((Pkg.paused_put (f := F.UPD_STATUS_BANK_VALID) _ _ (.inr (by decide))).trans ?_)
    exact Pkg.get_of_regs rfl _
theorem Pkg.paused_pushStart (k : Pkg) : k.pushStart.get F.UPD_STATUS_PAUSED = k.get F.UPD_STATUS_PAUSED := by
  unfold Pkg.pushStart
  split
  · exact Pkg.paused_put _ _ (.inr (by decide))
  · rfl

/-- A register of the paused blocks: nothing of it clears, none of its writes has an action of its own but those of the host push, and
UPD_STATUS cannot be written. -/
def regCalm (d : RegDesc) : Bool :=
  d.rc == 0 && d.w1c == 0 && (d.base != R.UPD_STATUS || d.rw == 0) && (rejectFlag d.base).isNone && d.n1 == 1 && d.s1 == 0 && d.s2 == 0 &&
    (d.base < 0x20000 || (0x80000 ≤ d.base && d.base < 0x90000)) && 0x10000 ≤ d.base
theorem findReg_calm {o : Nat} {d : RegDesc} (ho : pausedBlock o = true) (h : findReg o = some d) : regCalm d = true := by
  have hall : (RegTable.pkc ++ RegTable.upd).all regCalm = true := by decide
  have hm := List.mem_of_find?_eq_some h
  refine List.all_eq_true.1 hall d (List.mem_append.2 ?_)
  simp only [pausedBlock, Bool.or_eq_true, Bool.and_eq_true, decide_eq_true_eq] at ho
  unfold regBlock at hm
  rcases ho with ⟨h1, h2⟩ | ⟨h1, h2⟩
  · rw [if_neg (by omega), if_pos h2] at hm
    exact .inl hm
  · rw [if_neg (by omega), if_neg (by omega), if_neg (by omega), if_neg (by omega), if_neg (by omega), if_neg (by omega), if_neg (by omega),
      if_neg (by omega), if_pos h2] at hm
    exact .inr hm
/-- A register of the paused blocks stands alone at its offset. -/
theorem findReg_calm_base {o : Nat} {d : RegDesc} (ho : pausedBlock o = true) (h : findReg o = some d) : o = d.base := by
  have hc := findReg_calm ho h
  have hv := List.find?_some h
  simp only [regCalm, Bool.and_eq_true, beq_iff_eq] at hc
  obtain ⟨⟨⟨⟨_, hs1⟩, hs2⟩, _⟩, _⟩ := hc
  simp only [RegDesc.covers, hs1, hs2, if_true, Bool.and_eq_true, decide_eq_true_eq, beq_iff_eq] at hv
  omega
theorem Pkg.paused_setRg {o : Nat} {w : Word} (k : Pkg) (h : o = R.UPD_STATUS → w = k.rg o) :
    (k.setRg o w).get F.UPD_STATUS_PAUSED = k.get F.UPD_STATUS_PAUSED := by
  refine Pkg.get_of_rg ?_
  by_cases e : R.UPD_STATUS = o
  · subst e; exact (Pkg.rg_setRg_same ..).trans (h rfl)
  · exact Pkg.rg_setRg_ne _ _ e
theorem Pkg.paused_busWrite {d : RegDesc} (w : Word) (hd : regCalm d = true) (ho : off = d.base) :
    (busWrite x d off w m k).2.get F.UPD_STATUS_PAUSED = k.get F.UPD_STATUS_PAUSED := by
  simp only [regCalm, Bool.and_eq_true, Bool.or_eq_true, decide_eq_true_eq, beq_iff_eq, bne_iff_ne, Option.isNone_iff_eq_none] at hd
  obtain ⟨⟨⟨⟨⟨⟨⟨⟨_, hw1c⟩, hrw⟩, hrej⟩, _⟩, _⟩, _⟩, hb⟩, hlo⟩ := hd
  have hz : ∀ a : Word, a &&& ~~~ (w &&& BitVec.ofNat 32 0) = a := fun a => by
    rw [show w &&& BitVec.ofNat 32 0 = 0 from BitVec.and_zero]; exact BitVec.and_allOnes
  have hclears : (k.storeClears d off w).get F.UPD_STATUS_PAUSED = k.get F.UPD_STATUS_PAUSED :=
    Pkg.paused_setRg k fun _ => by rw [hw1c, hz]
  have hfields : (k.storeFields d off w).get F.UPD_STATUS_PAUSED = k.get F.UPD_STATUS_PAUSED :=
    Pkg.paused_setRg k fun e => by
      have h0 : ∀ a : Word, a &&& ~~~ BitVec.ofNat 32 0 ||| w &&& BitVec.ofNat 32 0 = a := fun a => by
        rw [show w &&& BitVec.ofNat 32 0 = 0 from BitVec.and_zero]; exact BitVec.or_zero.trans BitVec.and_allOnes
      rw [hw1c, hz, show d.rw = 0 from hrw.resolve_left (fun h => h (ho.symm.trans e)), h0]
  have hact : (busAct x d off w m (k.storeFields d off w)).2.get F.UPD_STATUS_PAUSED = k.get F.UPD_STATUS_PAUSED := by
    refine Eq.trans ?_ hfields
    generalize k.storeFields d off w = y
    unfold busAct
    dsimp only
    rcases hb with hb | ⟨h1, h2⟩
    · rw [if_pos (by omega)]
      have hne : ∀ n, n < 0x10000 ∨ 0x20000 ≤ n → d.base ≠ n := fun n hn e => by omega
      rw [if_neg (hne _ (by decide)), if_neg (hne _ (by decide)), if_neg (hne _ (by decide)), if_neg (hne _ (by decide)), if_neg (hne _ (by decide))]
    · have hne : ∀ n, n < 0x80000 ∨ 0x90000 ≤ n → d.base ≠ n := fun n hn e => by omega
      rw [if_neg (by omega), if_neg (by omega), if_pos (by omega), if_neg (hne _ (by decide)), if_neg (hne _ (by decide))]
      split_ifs
      · exact Pkg.paused_pushStart y
      · rfl
      · exact Pkg.paused_pushWord w y
      · rfl
  have hne : ∀ n, n < 0x10000 ∨ (0x20000 ≤ n ∧ n < 0x80000) ∨ 0x90000 ≤ n → d.base ≠ n := fun n hn e => by omega
  unfold busWrite
  dsimp only
  rw [hrej, if_neg (hne (R.CORE_SEG_CTRL 0 0) (by decide)), if_neg (hne R.PWR_LADDER_CAP (by decide)), if_neg (hne R.PWR_HOST_CAP (by decide)),
    if_neg (hne R.THR_COOLANT (by decide)), if_neg (hne (R.THR_HEAD_W 0) (by decide)), if_neg (hne R.THR_HEAD_W3 (by decide)),
    if_neg (hne (R.FLT_QUAR 0) (by decide)), if_neg (hne (R.DBG_ROUTE_OVR 0) (by decide)),
    if_neg (fun e : d.base = R.CSU_CTRL 0 ∧ k.csuBusy (regRow d off) = true => hne (R.CSU_CTRL 0) (by decide) e.1)]
  split_ifs
  · rfl
  · exact hclears
  · exact hact
theorem Pkg.paused_busRead {d : RegDesc} (plain : Bool) (hd : d.rc = 0) :
    (k.busRead x d off plain).2.get F.UPD_STATUS_PAUSED = k.get F.UPD_STATUS_PAUSED := by
  have hl : (k.latchUpper x d off).regs = k.regs :=
    List.foldlRecOn (motive := fun j : Pkg => j.regs = k.regs) _ _ rfl fun _ hj _ _ => hj
  have hr : ∀ y : Pkg, y.readClears d off = y := fun y => if_pos hd
  unfold Pkg.busRead
  dsimp only
  split_ifs
  · rfl
  · exact congrArg (fun y : Pkg => y.get F.UPD_STATUS_PAUSED) (hr _) |>.trans (Pkg.get_of_regs hl _)
  · exact congrArg (fun y : Pkg => y.get F.UPD_STATUS_PAUSED) (hr _)
  · exact Pkg.get_of_regs hl _
  · rfl

end Sys2Proof.Machine
end

section
/-! PROOF. Direct register access (R21, R36, R276, R280, R281). -/
namespace Sys2Proof.Machine
open Sys2Proof

variable {j k : Pkg} {s t : State} {p : PkgId} {x : Bus} {m : Mem} {off size free : Nat}

/-! ### An access of several words -/

/-- Of some words either all or none name a register of the paused blocks. -/
def samePause (words : List (Nat × Option Word)) : Prop :=
  (∀ w ∈ words, pausedBlock (w.1 % 2 ^ 24) = false) ∨ ∀ w ∈ words, pausedBlock (w.1 % 2 ^ 24) = true
theorem Pkg.busRefuses_congr (h : pausedBlock (off % 2 ^ 24) = false ∨ j.get F.UPD_STATUS_PAUSED = k.get F.UPD_STATUS_PAUSED) :
    j.busRefuses off size = k.busRefuses off size := by
  unfold Pkg.busRefuses
  rcases h with h | h
  · rw [h, Bool.and_false, Bool.and_false]
  · rw [h]
theorem Pkg.busRefuses_found (h : k.busRefuses off size = false) : ∃ d, findReg (off % 2 ^ 24) = some d := by
  simp only [Pkg.busRefuses, Bool.or_eq_false_iff] at h
  obtain ⟨⟨_, h⟩, _⟩ := h
  exact Option.isSome_iff_exists.1 (by simpa using h)
theorem busOne_refused {w : Option Word} (h : k.busRefuses off size = true) : busOne x off size w m k = none := if_pos h
/-- A word that is not refused is served, and leaves PAUSED where it is of the paused blocks. -/
theorem busOne_served {w : Option Word} (h : k.busRefuses off size = false) : ∃ r, busOne x off size w m k = some r ∧
    (pausedBlock (off % 2 ^ 24) = true → r.2.2.get F.UPD_STATUS_PAUSED = k.get F.UPD_STATUS_PAUSED) := by
  obtain ⟨d, hd⟩ := Pkg.busRefuses_found h
  unfold busOne
  rw [h, hd]
  have hrc (hp : pausedBlock (off % 2 ^ 24) = true) : d.rc = 0 := by
    have := findReg_calm hp hd
    simp only [regCalm, Bool.and_eq_true, beq_iff_eq] at this
    tauto
  cases w with
  | none => exact ⟨_, rfl, fun hp => Pkg.paused_busRead _ (hrc hp)⟩
  | some w => exact ⟨_, rfl, fun hp => Pkg.paused_busWrite _ (findReg_calm hp hd) (findReg_calm_base hp hd)⟩
/-- Words none of which is refused at the start are all served. -/
theorem busWords_served : ∀ (words : List (Nat × Option Word)) (free : Nat) (m : Mem) (k : Pkg), samePause words →
    (∀ w ∈ words, k.busRefuses w.1 size = false) → (busWords x free size words (m, k)).2.1 = true ∧
      (busWords x free size words (m, k)).1.length = words.length
  | [], _, _, _, _, _ => ⟨rfl, rfl⟩
  | w :: l, free, m, k, hs, hr => by
    obtain ⟨hw, hl⟩ := List.forall_mem_cons.1 hr
    obtain ⟨r, hr1, hr2⟩ := busOne_served (x := { x with v := Config.freeWord free }) (w := w.2) (m := m) hw
    have hs' : samePause l := hs.imp (fun h => (List.forall_mem_cons.1 h).2) fun h => (List.forall_mem_cons.1 h).2
    have hl' : ∀ v ∈ l, r.2.2.busRefuses v.1 size = false := fun v hv => by
      rw [← hl v hv]
      exact Pkg.busRefuses_congr (hs.imp (fun h => h v (List.mem_cons_of_mem _ hv)) fun h => hr2 (h w List.mem_cons_self))
    obtain ⟨h1, h2⟩ := busWords_served l (free + 1) r.2.1 r.2.2 hs' hl'
    unfold busWords
    dsimp only
    rw [hr1]
    exact ⟨h1, congrArg Nat.succ h2⟩
/-- The first word refused ends the access, with no effect. -/
theorem busWords_refused {w : Nat × Option Word} {l : List (Nat × Option Word)} (h : k.busRefuses w.1 size = true) :
    busWords x free size (w :: l) (m, k) = ([], false, m, k) := by
  unfold busWords
  dsimp only
  rw [busOne_refused h]

/-- No register stands at the last offset before a paused block, or before the end of one. -/
theorem pausedBlock_next {o : Nat} (h4 : o % 4 = 0) (h1 : findReg (o % 2 ^ 24) ≠ none) :
    pausedBlock ((o + 4) % 2 ^ 24) = pausedBlock (o % 2 ^ 24) := by
  have hne : ∀ n, findReg n = none → o % 2 ^ 24 ≠ n := fun n hn e => h1 (e ▸ hn)
  have e1 := hne 0xFFFC (by decide +kernel)
  have e2 := hne 0x1FFFC (by decide +kernel)
  have e3 := hne 0x7FFFC (by decide +kernel)
  have e4 := hne 0x8FFFC (by decide +kernel)
  simp only [pausedBlock]
  rw [Bool.eq_iff_iff]
  simp only [Bool.or_eq_true, Bool.and_eq_true, decide_eq_true_eq]
  omega
/-- The words of one access that are not refused are all of the paused blocks, or none is. -/
theorem wordOffsets_pause {n : Nat} {fixed : Bool} (hr : ∀ o ∈ wordOffsets off n fixed, k.busRefuses o size = false) :
    ∀ o ∈ wordOffsets off n fixed, pausedBlock (o % 2 ^ 24) = pausedBlock (off % 2 ^ 24) := by
  have h : ∀ i, i < n → pausedBlock ((if fixed then off else off + 4 * i) % 2 ^ 24) = pausedBlock (off % 2 ^ 24) := by
    intro i
    induction i with
    | zero => intro _; cases fixed <;> rfl
    | succ i ih =>
      intro hi
      cases fixed with
      | true => rfl
      | false =>
        have hm : k.busRefuses (off + 4 * i) size = false := hr _ (List.mem_map.2 ⟨i, List.mem_range.2 (by omega), rfl⟩)
        have h4 : (off + 4 * i) % 4 = 0 := by
          simp only [Pkg.busRefuses, Bool.or_eq_false_iff, decide_eq_false_iff_not] at hm
          omega
        obtain ⟨d, hd⟩ := Pkg.busRefuses_found hm
        exact (pausedBlock_next h4 (by rw [hd]; nofun)).trans (ih (by omega))
  intro o ho
  obtain ⟨i, hi, rfl⟩ := List.mem_map.1 ho
  exact h i (List.mem_range.1 hi)
theorem samePause_of {words : List (Nat × Option Word)} {n : Nat} {fixed : Bool} (hw : words.map (·.1) = wordOffsets off n fixed)
    (hr : ∀ w ∈ words, k.busRefuses w.1 size = false) : samePause words := by
  have hm : ∀ o ∈ wordOffsets off n fixed, k.busRefuses o size = false := fun o ho => by
    rw [← hw] at ho
    obtain ⟨w, hw, rfl⟩ := List.mem_map.1 ho
    exact hr w hw
  have h := wordOffsets_pause hm
  have h' : ∀ w ∈ words, pausedBlock (w.1 % 2 ^ 24) = pausedBlock (off % 2 ^ 24) := fun w hm => h w.1 (hw ▸ List.mem_map_of_mem hm)
  cases e : pausedBlock (off % 2 ^ 24) with
  | false => exact .inl fun w hw => (h' w hw).trans e
  | true => exact .inr fun w hw => (h' w hw).trans e

/-! ### The access that a DRA_SET sets up -/

theorem indexed_map_snd {α : Type} (l : List α) : (indexed l).map (·.2) = l := List.map_snd_zip (by simp)
theorem draOp_offsets (b : List Byte) : (draOp b).words.map (·.1) = wordOffsets (draOffset b) (draCount b) (bit (u8 b 0) 6) := by
  unfold draOp
  dsimp only
  split
  · rw [List.map_map]
    exact indexed_map_snd _
  · rw [List.map_map]
    exact List.map_id _
theorem draOp_length (b : List Byte) : (draOp b).words.length = draCount b := by
  rw [← List.length_map (·.1), draOp_offsets, wordOffsets, List.length_map, List.length_range]
theorem draOp_cons {b : List Byte} (h : 1 ≤ draCount b) : ∃ w l, (draOp b).words = w :: l ∧ w.1 = draOffset b := by
  have hl := draOp_length b
  have ho := draOp_offsets b
  match hw : (draOp b).words with
  | [] => rw [hw] at hl; simp at hl; omega
  | w :: l =>
    refine ⟨w, l, rfl, ?_⟩
    rw [hw] at ho
    obtain ⟨n, hn⟩ : ∃ n, draCount b = n + 1 := ⟨_, (Nat.sub_add_cancel h).symm⟩
    rw [hn, wordOffsets, List.range_succ_eq_map] at ho
    refine (List.cons.inj ho).1.trans ?_
    dsimp only
    split <;> rfl
theorem draBad_cases (b : List Byte) : draBad b = some 2 ∨ draBad b = some 4 ∨ (draBad b = none ∧ 1 ≤ draCount b ∧ draCount b ≤ 4) := by
  unfold draBad
  dsimp only
  generalize (if draIsWrite b = true then 4 * draCount b else 0) = w
  split_ifs with h1 h2
  · exact .inl rfl
  · exact .inr (.inl rfl)
  · exact .inr (.inr ⟨rfl, by omega⟩)

/-! ### DRA_SET and DRA_ACCESS_END -/

theorem Pkg.wakeBlock_pkc (o : Nat) (k : Pkg) : (k.wakeBlock o).pkc = k.pkc := by
  have hc (c : Nat) (y : Pkg) : (y.wakeCore c).pkc = y.pkc := by rw [y.wakeCore_aonOnly c]
  have hi (y : Pkg) : y.wakeInfra.pkc = y.pkc := by rw [y.wakeInfra_onlyRegs]
  have hd (ds : List Nat) (y : Pkg) : ((y.wakeDomains ds).wakeCause 7).pkc = y.pkc := by
    change (y.wakeDomains ds).pkc = _
    rw [y.wakeDomains_onlyRegs ds]
  unfold Pkg.wakeBlock
  dsimp only
  rw [hd]
  cases windowCore o with
  | none => rfl
  | some c =>
    dsimp only
    split
    · rfl
    · rw [hc]
      split
      · exact hi k
      · rfl
theorem Pkg.wakeBlocks_pkc (l : List Nat) (k : Pkg) : (l.foldl (fun k o => k.wakeBlock o) k).pkc = k.pkc :=
  List.foldlRecOn (motive := fun j : Pkg => j.pkc = k.pkc) _ _ rfl fun j hj o _ => (j.wakeBlock_pkc o).trans hj
/-- What a DRA_SET leaves that sets up an access: the access, and the blocks it names being woken. -/
def Pkg.draBusy (b : List Byte) (k : Pkg) : Pkg := k.setPkc fun x => { x with draStatus := 3, draDone := 0, draData := [], draBytes := b }
def Pkg.draWoken (b : List Byte) (k : Pkg) : Pkg :=
  (((k.draBusy b).goodWords (draOp b)).filter (fun o => ((k.draBusy b).blockDomains o).any (fun d => !(k.draBusy b).domainOn d))).foldl
    (fun k o => k.wakeBlock o) (k.draBusy b)
theorem Pkg.draWoken_on {b : List Byte} (h : ∀ o ∈ k.goodWords (draOp b), (k.blockDomains o).all k.domainOn = true) : k.draWoken b = k.draBusy b := by
  have hf : ((k.draBusy b).goodWords (draOp b)).filter (fun o => ((k.draBusy b).blockDomains o).any (fun d => !(k.draBusy b).domainOn d)) = [] := by
    refine List.filter_eq_nil_iff.2 fun o ho => ?_
    have h1 : (k.blockDomains o).all k.domainOn = true := h o ho
    change ¬ ((k.blockDomains o).any fun d => !k.domainOn d) = true
    rw [List.any_eq_not_all_not]
    simp [h1]
  unfold Pkg.draWoken
  rw [hf]
  rfl
/-- What DRA_SET makes of a package. -/
def Pkg.draSet (b : List Byte) (k : Pkg) : Pkg :=
  if k.pkc.draStatus = 3 then k.emit .nack
  else match draBad b with
    | some st => k.setPkc fun x => { x with draStatus := st, draDone := 0, draData := [], draBytes := [] }
    | none => k.draWoken b
theorem exec_draSet (b : List Byte) : exec (.draSet p b) s = .next (s.setPkg p ((s.pkg p).draSet b)) := rfl
/-- What DRA_ACCESS_END notes of its access. -/
def Pkg.draEnded (ok : Bool) (n : Nat) (data : List Word) (k : Pkg) : Pkg :=
  k.setPkc fun x => { x with draStatus := if ok then 0 else 1, draDone := n, draData := data }
theorem exec_draAccessEnd (h : (s.pkg p).pkc.draStatus = 3) : exec (.draAccessEnd p) s =
    .next ((s.busPerform p (draOp (s.pkg p).pkc.draBytes) true).2.setPkg p
      (((s.busPerform p (draOp (s.pkg p).pkc.draBytes) true).2.pkg p).draEnded (s.busPerform p (draOp (s.pkg p).pkc.draBytes) true).1.2
        ((draOp (s.pkg p).pkc.draBytes).words.takeWhile (fun w => !(s.pkg p).busRefuses w.1 4)).length
        (if (s.busPerform p (draOp (s.pkg p).pkc.draBytes) true).1.2 && !draIsWrite (s.pkg p).pkc.draBytes then
          (s.busPerform p (draOp (s.pkg p).pkc.draBytes) true).1.1 else []))) := by
  change execDraAccessEnd p s = _
  unfold execDraAccessEnd
  dsimp only
  rw [if_neg (fun e => e h)]
  rfl
theorem State.busRun_draOp (b : List Byte) : s.busRun p (draOp b) true =
    busWords ⟨s.now, p, .cw, true, s.upIn p.rack, 0⟩ s.free 4 (draOp b).words (s.mem, s.pkg p) := rfl

/-! ### The package address -/

/-- The address that the slot and the board position give names the row and the column. -/
theorem State.givenAddress_eq (s : State) (p : PkgId) : s.givenAddress p = 128 * (s.rack p.rack).rackNumber + 16 * p.row.val + p.col.val := by
  have h1 := p.row.isLt
  have h2 := p.col.isLt
  simp only [State.givenAddress, boardAddress, addrOf, PkgId.tray, PkgId.position]
  omega
theorem addrRack_eq (r i j : Nat) (hr : r < 32) (hi : i < 8) (hj : j < 12) : addrRack (128 * r + 16 * i + j) = r := by
  simp only [addrRack, bits]
  omega
theorem addrIndex_eq (r i j : Nat) (hi : i < 8) (hj : j < 12) : addrIndex (128 * r + 16 * i + j) = 12 * i + j := by
  simp only [addrIndex, bits]
  omega
theorem Pkg.draServed_regs (k : Pkg) : k.draServed.regs = k.regs := by unfold Pkg.draServed; split <;> rfl
theorem Pkg.draServed_busy (h : k.pkc.draStatus = 3) : k.draServed = k := if_pos h
theorem Pkg.draServed_idle (h : k.pkc.draStatus ≠ 3) :
    k.draServed.pkc = { k.pkc with draStatus := 0, draDone := 1, draData := [], draBytes := [] } := congrArg Pkg.pkc (if_neg h)

/-- Settles O45: DRA_SET by its cases, its access by the words that are refused at its start, and the address by its register. -/
theorem directRegisterAccess : Obligations.DirectRegisterAccess := by
  intro s p k
  refine ⟨fun b h => ?_, fun b st h hb => ⟨?_, ?_⟩, fun b h => ?_, fun b h hb => ?_, rfl, fun h => ?_, fun h hb => ⟨fun hr => ?_, fun hr => ?_⟩,
    fun t pos h => ?_, fun t pos h => ?_, fun who h => ?_, fun h => ?_⟩
  · exact (exec_draSet b).trans (congrArg (fun y => Host.Outcome.next (s.setPkg p y)) (if_pos h))
  · rcases draBad_cases b with e | e | ⟨e, _⟩
    · exact .inl (Option.some.inj (hb.symm.trans e))
    · exact .inr (Option.some.inj (hb.symm.trans e))
    · rw [e] at hb; cases hb
  · refine (exec_draSet b).trans (congrArg (fun y => Host.Outcome.next (s.setPkg p y)) ((if_neg h).trans ?_))
    rw [hb]
    rfl
  · unfold draBad
    dsimp only
    rw [if_pos (.inr h)]
  · obtain ⟨h1, h4⟩ : 1 ≤ draCount b ∧ draCount b ≤ 4 := by
      rcases draBad_cases b with e | e | ⟨_, e⟩
      · rw [hb] at e; cases e
      · rw [hb] at e; cases e
      · exact e
    have hp : (k.draWoken b).pkc = (k.draBusy b).pkc := Pkg.wakeBlocks_pkc ..
    refine ⟨h1, h4, k.draWoken b, (exec_draSet b).trans (congrArg (fun y => Host.Outcome.next (s.setPkg p y)) ((if_neg h).trans ?_)),
      congrArg PkcSt.draStatus hp, congrArg PkcSt.draBytes hp, fun ho => by rw [Pkg.draWoken_on ho]; rfl⟩
    rw [hb]
  · change execDraAccessEnd p s = _
    unfold execDraAccessEnd
    exact if_pos h
  · obtain ⟨h1, _⟩ : 1 ≤ draCount k.pkc.draBytes ∧ draCount k.pkc.draBytes ≤ 4 := by
      rcases draBad_cases k.pkc.draBytes with e | e | ⟨_, e⟩
      · rw [hb] at e; cases e
      · rw [hb] at e; cases e
      · exact e
    obtain ⟨w, l, hw, hwo⟩ := draOp_cons h1
    have hrun : s.busRun p (draOp k.pkc.draBytes) true = ([], false, s.mem, k) := by
      rw [State.busRun_draOp, hw]
      exact busWords_refused (by rw [hwo]; exact hr)
    have hleft : s.busLeaves p (draOp k.pkc.draBytes) true ([], false, s.mem, k) =
        { s with free := s.free + (draOp k.pkc.draBytes).words.length }.setPkg p k := by
      unfold State.busLeaves
      exact if_neg (by simp [k])
    have hdone : ((draOp k.pkc.draBytes).words.takeWhile (fun w => !k.busRefuses w.1 4)).length = 0 := by
      rw [hw, List.takeWhile_cons, hwo, show k.busRefuses (draOffset k.pkc.draBytes) 4 = true from hr]
      rfl
    refine ⟨_, exec_draAccessEnd h, ?_⟩
    rw [State.busPerform_eq, hrun, hleft, hdone, State.pkg_setPkg_same, State.pkg_setPkg_same]
    exact ⟨rfl, rfl, rfl, rfl, rfl⟩
  · have hs : samePause (draOp k.pkc.draBytes).words := samePause_of (draOp_offsets _) hr
    obtain ⟨h1, h2⟩ := busWords_served (x := ⟨s.now, p, .cw, true, s.upIn p.rack, 0⟩) _ s.free s.mem k hs hr
    rw [← State.busRun_draOp] at h1 h2
    have hdone : ((draOp k.pkc.draBytes).words.takeWhile (fun w => !k.busRefuses w.1 4)).length = draCount k.pkc.draBytes := by
      rw [List.takeWhile_eq_self_iff.2 fun w hw => by simp [hr w hw], draOp_length]
    refine ⟨_, exec_draAccessEnd h, ?_⟩
    rw [State.busPerform_eq, State.pkg_setPkg_same, h1]
    refine ⟨rfl, hdone, ?_⟩
    unfold Pkg.draEnded
    dsimp only
    cases draIsWrite k.pkc.draBytes with
    | true => rfl
    | false => exact h2.trans (draOp_length _)
  · change execSetdasa t pos s = _
    unfold execSetdasa
    rw [h]
  · change execSetdasa t pos s = _
    unfold execSetdasa
    rw [h]
    rfl
  · change Host.Outcome.next _ = _
    rw [if_neg]
    rintro ⟨h1, h2⟩
    exact h.elim (· (of_decide_eq_true h2)) (· h1)
  · have hgiven := s.givenAddress_eq p
    have hr := p.row.isLt
    have hc := p.col.isLt
    have hg : ∀ f : Fld, ((k.put F.AON_PKG_ADDR_ADDR (s.givenAddress p)).draServed).get f = (k.put F.AON_PKG_ADDR_ADDR (s.givenAddress p)).get f :=
      Pkg.get_of_regs (Pkg.draServed_regs _)
    refine ⟨(k.put F.AON_PKG_ADDR_ADDR (s.givenAddress p)).draServed, ?_, ?_, fun hn => ?_, fun o ho => ?_, fun hd => ?_, fun hd => ?_⟩
    · change Host.Outcome.next _ = _
      rw [if_pos ⟨rfl, decide_eq_true h⟩]
      rfl
    · unfold Pkg.draServed
      split <;> exact OnlyRegs.put k F.AON_PKG_ADDR_ADDR _
    · have ha : (k.put F.AON_PKG_ADDR_ADDR (s.givenAddress p)).draServed.addr = 128 * (s.rack p.rack).rackNumber + 16 * p.row.val + p.col.val := by
        refine (hg _).trans ((Pkg.get_put_same _ _ _ (by decide)).trans ?_)
        rw [hgiven]
        exact Nat.mod_eq_of_lt (by simp only [F.AON_PKG_ADDR_ADDR]; omega)
      refine ⟨ha, ?_, ?_⟩
      · rw [Pkg.rackNo, ha, addrRack_eq _ _ _ hn hr hc]
      · rw [Pkg.idx, ha, addrIndex_eq _ _ _ hr hc]
    · rw [Pkg.rg, Pkg.draServed_regs]
      exact Pkg.rg_put_ne _ _ _ ho
    · exact Pkg.draServed_idle (k := k.put F.AON_PKG_ADDR_ADDR (s.givenAddress p)) hd
    · rw [Pkg.draServed_busy (k := k.put F.AON_PKG_ADDR_ADDR (s.givenAddress p)) hd]
      rfl

end Sys2Proof.Machine
end

section
/-! PROOF. What the fabric of a package leaves as it is (R148–R157, R177–R184): the links of its ports, its PKC, its darkness, and what it
has sent. -/
namespace Sys2Proof.Machine
open Sys2Proof

variable {i j k : Pkg} {now q n : Nat}

/-! ### Ports -/

/-- A port without its queue and what its credits of trees tell. -/
def PortSt.link (x : PortSt) : PortSt := { x with outQ := [], rxFreed := [], castTold := [], castTurn := 0 }
/-- Between two states of a package its links, its PKC and its darkness stand, and it has sent what it had. -/
structure Pkg.Wired (j k : Pkg) : Prop where
  link : ∀ q, (k.port q).link = (j.port q).link
  told : ∀ m ∈ j.out, m ∈ k.out
  pkc : k.pkc = j.pkc
  grave : j.pkgDark = true → k.pkgDark = true

theorem Pkg.Wired.refl (k : Pkg) : k.Wired k := ⟨fun _ => rfl, fun _ h => h, rfl, id⟩
theorem Pkg.Wired.trans (h : i.Wired j) (h' : j.Wired k) : i.Wired k :=
  ⟨fun q => (h'.link q).trans (h.link q), fun m hm => h'.told m (h.told m hm), h'.pkc.trans h.pkc, fun hd => h'.grave (h.grave hd)⟩
theorem Pkg.Wired.ite {c : Prop} [Decidable c] (h : i.Wired j) (h' : i.Wired k) : i.Wired (if c then j else k) := by split <;> assumption
theorem Pkg.Wired.foldl {β : Type} {f : Pkg → β → Pkg} (hf : ∀ (k : Pkg) b, k.Wired (f k b)) : ∀ (l : List β) (k : Pkg), k.Wired (l.foldl f k)
  | [], k => .refl k
  | b :: l, k => (hf k b).trans (Pkg.Wired.foldl hf l _)
/-- A change of registers and of units that are no part of the fabric's ports. -/
theorem Pkg.Wired.of_rt (hr : k.rt.ports = j.rt.ports) (ho : ∀ m ∈ j.out, m ∈ k.out) (hp : k.pkc = j.pkc) (hd : k.dark = j.dark) : j.Wired k :=
  ⟨fun q => by rw [Pkg.port, Pkg.port, hr], ho, hp, fun h => by rw [Pkg.pkgDark, hd]; exact h⟩
theorem Pkg.Wired.regs (r : SMap Word) (k : Pkg) : k.Wired { k with regs := r } := .of_rt rfl (fun _ h => h) rfl rfl
theorem Pkg.Wired.put (k : Pkg) (f : Fld) (v : Nat) : k.Wired (k.put f v) := .of_rt rfl (fun _ h => h) rfl rfl
theorem Pkg.Wired.count (k : Pkg) (f : Fld) (n : Nat) : k.Wired (k.count f n) := .put ..
theorem Pkg.Wired.emit (k : Pkg) (m : Msg) : k.Wired (k.emit m) := .of_rt rfl (fun _ h => List.mem_append_left _ h) rfl rfl
theorem Pkg.Wired.emits (k : Pkg) (l : List Msg) : k.Wired (k.emits l) := .of_rt rfl (fun _ h => List.mem_append_left _ h) rfl rfl
theorem Pkg.Wired.units (f : FabSt) (m : MemSt) (t : TallySt) (a : AonSt) (b : SMap BrgSt) (k : Pkg) :
    k.Wired { k with fab := f, mem := m, tally := t, aon := a, brg := b } := .of_rt rfl (fun _ h => h) rfl rfl
theorem Pkg.Wired.of_onlyRegs (h : OnlyRegs j k) : j.Wired k := h ▸ .regs ..

/-- What of a port a change leaves, where its link stays. -/
theorem Pkg.port_setPort_link {x : PortSt} (h : x.link = (k.port n).link) (q : Nat) : ((k.setPort n x).port q).link = (k.port q).link := by
  by_cases hq : q = n
  · subst hq; rw [Pkg.port_setPort_same]; exact h
  · rw [Pkg.port_setPort_ne hq]
theorem Pkg.Wired.setPort {x : PortSt} (h : x.link = (k.port n).link) : k.Wired (k.setPort n x) :=
  ⟨Pkg.port_setPort_link h, fun _ h => h, rfl, id⟩
theorem Pkg.Wired.queueAt (q : Nat) (e : Queued) (k : Pkg) : k.Wired (k.queueAt q e) := .setPort (k := k) rfl
theorem PortSt.link_word (nak : Bool) (x : PortSt) : (x.word nak).1.link = x.link := by
  unfold PortSt.word
  dsimp only
  split <;> rfl
theorem PortSt.link_freed (q key flits : Nat) (x : PortSt) : (x.freed q key flits).1.link = x.link := by
  unfold PortSt.freed
  dsimp only
  split
  · exact PortSt.link_word false _
  · rfl
theorem Pkg.Wired.freeInput (inp key flits : Nat) (k : Pkg) : k.Wired (k.freeInput inp key flits) := by
  unfold Pkg.freeInput
  split
  · exact .refl k
  · exact (Pkg.Wired.setPort (PortSt.link_freed ..)).trans (.emits ..)
theorem Pkg.Wired.leave (e : Queued) (k : Pkg) : k.Wired (k.leave e) := .ite (.refl k) (.freeInput ..)
theorem Pkg.Wired.drop (inp : Nat) (d : Drop) (k : Pkg) : k.Wired (k.drop inp d) := .count ..
theorem Pkg.Wired.arrival (inp : Nat) (pk : Packet) (k : Pkg) : k.Wired (k.arrival inp pk).2 := by
  unfold Pkg.arrival
  dsimp only
  split <;> exact .of_rt rfl (fun _ h => h) rfl rfl
theorem Pkg.Wired.answer (now : Nat) (rq : Packet) (st : Byte) (b : Bool) (d : List Byte) (k : Pkg) : k.Wired (k.answer now rq st b d) := .emit ..

/-! ### Routes -/

theorem Pkg.Wired.meetDark (now q : Nat) (e : Queued) (k : Pkg) : k.Wired (k.meetDark now q e) := by
  have h (d : Drop) : k.Wired ((k.leave e).drop q d) := (Pkg.Wired.leave ..).trans (.drop ..)
  unfold Pkg.meetDark
  dsimp only
  refine .ite ?_ (.ite (h _) (.ite (.ite ((Pkg.Wired.leave ..).trans (.answer ..)) (h _)) (h _)))
  split
  · exact (h _).trans (.emit ..)
  · exact h _
theorem Pkg.Wired.offer (now q : Nat) (e : Queued) (k : Pkg) : k.Wired (k.offer now q e) := .ite (.meetDark ..) (.queueAt ..)
theorem Pkg.Wired.toPlane (plane : Nat) (k : Pkg) : k.Wired (k.toPlane plane).2 := by
  unfold Pkg.toPlane
  split
  · exact .refl k
  · exact .of_rt rfl (fun _ h => h) rfl rfl
theorem Pkg.Wired.fallbackPort (img : List Byte) (pk : Packet) (k : Pkg) : k.Wired (k.fallbackPort img pk).2 := by
  unfold Pkg.fallbackPort
  dsimp only
  split_ifs
  all_goals first | exact .refl k | exact .toPlane ..
theorem Pkg.Wired.toPort (now : Nat) (img : List Byte) (q : Nat) (e : Queued) (k : Pkg) : k.Wired (k.toPort now img q e) := by
  have h := Pkg.Wired.fallbackPort img e.pk k
  unfold Pkg.toPort
  dsimp only
  refine .ite ?_ (.ite ?_ (.offer ..))
  · split
    · exact .offer ..
    · generalize k.fallbackPort img e.pk = r at h
      obtain ⟨_ | q2, k1⟩ := r
      · exact h.trans (.queueAt ..)
      · exact h.trans (.offer ..)
  · generalize k.fallbackPort img e.pk = r at h
    obtain ⟨_ | q2, k1⟩ := r
    · exact h.trans (.meetDark ..)
    · exact h.trans (.offer ..)
theorem Pkg.Wired.newerSgen (src : Nat) (g : Byte) (k : Pkg) : k.Wired (k.newerSgen src g) := .of_rt rfl (fun _ h => h) rfl rfl
theorem Pkg.Wired.misroute (d : Nat) (k : Pkg) : k.Wired (k.misroute d).2 := .of_rt rfl (fun _ h => h) rfl rfl
theorem Pkg.Wired.arrive (now inp : Nat) (pk : Packet) (k : Pkg) : k.Wired (k.arrive now inp pk) := by
  have h1 := Pkg.Wired.arrival inp pk k
  unfold Pkg.arrive
  dsimp only
  generalize k.arrival inp pk = r at h1
  obtain ⟨e, k1⟩ := r
  dsimp only at h1 ⊢
  have hd (d : Drop) : k.Wired ((k1.leave e).drop inp d) := h1.trans ((Pkg.Wired.leave ..).trans (.drop ..))
  refine .ite (hd _) (.ite (hd _) (.ite (hd _) ?_))
  have h2 : k.Wired (if pk.cls = 2 ∨ pk.cls = 3 ∨ epPkg pk.dst = k.addr then k1.newerSgen (epPkg pk.src) pk.sgen else k1) :=
    .ite (h1.trans (.newerSgen ..)) h1
  generalize (if pk.cls = 2 ∨ pk.cls = 3 ∨ epPkg pk.dst = k.addr then k1.newerSgen (epPkg pk.src) pk.sgen else k1) = k2 at h2
  have hd2 (d : Drop) : k.Wired ((k2.leave e).drop inp d) := h2.trans ((Pkg.Wired.leave ..).trans (.drop ..))
  refine .ite (h2.trans (.emit ..)) (.ite (.ite (h2.trans (.units ..)) ((h2.trans (.leave ..)).trans (.emit ..))) ?_)
  split
  · exact h2.trans (.offer ..)
  refine .ite (hd2 _) (.ite (hd2 _) (.ite (.ite ((h2.trans (.leave ..)).trans (.answer ..)) ?_)
    (.ite (hd2 _) ((h2.trans (.toPlane ..)).trans (.toPort ..)))))
  split
  · exact hd2 _
  · refine .ite ?_ (h2.trans (.toPort ..))
    have h3 := Pkg.Wired.misroute (addrIndex (epPkg pk.dst)) k2
    generalize k2.misroute (addrIndex (epPkg pk.dst)) = r at h3
    obtain ⟨_ | plane, k3⟩ := r
    · exact (h2.trans h3).trans (.toPort ..)
    · exact ((h2.trans h3).trans (.toPlane ..)).trans (.offer ..)
theorem Pkg.Wired.moveToFallback (now q : Nat) (k : Pkg) : k.Wired (k.moveToFallback now q) := by
  unfold Pkg.moveToFallback
  dsimp only
  exact (Pkg.Wired.setPort (x := { k.port q with outQ := [] }) rfl).trans (.foldl (fun k e => .ite (.offer ..) (.toPort ..)) _ _)
theorem Pkg.Wired.holdDrop (q : Nat) (k : Pkg) : k.Wired (k.holdDrop q) := by
  unfold Pkg.holdDrop
  dsimp only
  exact (Pkg.Wired.setPort (x := { k.port q with outQ := [] }) rfl).trans (.foldl (fun k e => (Pkg.Wired.leave ..).trans (.drop ..)) _ _)

/-! ### The fault hub -/

theorem Pkg.Noted.wired (h : j.Noted k) : j.Wired k :=
  .of_rt (by rw [h.rest]) h.told (by rw [h.rest]) (by rw [h.rest])
theorem Pkg.Hubbed.wired (h : j.Hubbed k) (hd : j.pkgDark = true → k.pkgDark = true) : j.Wired k :=
  ⟨fun q => by rw [Pkg.port, h.rest]; rfl, h.told, by rw [h.rest], hd⟩
theorem Pkg.Wired.fencePkg (now d unit : Nat) (raised : Word) (cls : Nat) (k : Pkg) : k.Wired (k.fencePkg now d unit raised cls) := by
  by_cases h : k.get F.FLT_STATUS_FENCED = 1
  · rw [Pkg.fencePkg, if_pos h]; exact .refl k
  · exact (Pkg.fencePkg_hubbed ..).wired fun _ => (Pkg.fencePkg_spec now d unit raised cls h).2.1
theorem Pkg.Wired.takeSlot (now d : Nat) (seq : Word) (k : Pkg) : k.Wired (k.takeSlot now d seq) := by
  unfold Pkg.takeSlot
  dsimp only
  split
  · exact (Pkg.Noted.setFlt ..).wired
  · exact .ite (.fencePkg ..) (Pkg.escalateUc_noted ..).wired
theorem Pkg.Wired.gravely (now d : Nat) (seq : Word) (k : Pkg) : k.Wired (k.gravely now d seq) := by
  unfold Pkg.gravely
  dsimp only
  exact ((Pkg.setUc_noted ..).trans (.ite (Pkg.wakeHtile_noted _) (.refl _))).wired.trans (.takeSlot ..)
theorem Pkg.Wired.raise (now d : Nat) (i0 i1 : BitVec 64) (k : Pkg) : k.Wired (k.raise now d i0 i1) := by
  unfold Pkg.raise
  split
  · exact .refl k
  have h0 : k.Wired (k.faultCounted d) := .of_onlyRegs (Pkg.faultCounted_onlyRegs ..)
  unfold Pkg.faultCounted at h0
  dsimp only
  generalize Pkg.countFault _ _ = k0 at h0 ⊢
  have h1 : k.Wired (if d = det 253 0 ∧ (!k.shadowed d) = true then
      { k0.flag F.FLT_STATUS_LOG_FAIL true with flt := { k0.flt with lwOnly := true } } else k0) :=
    .ite (h0.trans (.of_rt rfl (fun _ h => h) rfl rfl)) h0
  generalize (if d = det 253 0 ∧ (!k.shadowed d) = true then
      { k0.flag F.FLT_STATUS_LOG_FAIL true with flt := { k0.flt with lwOnly := true } } else k0) = k1 at h1
  have h2 := h1.trans (Pkg.logEvent_logs now d (if k.shadowed d = true then fShadowed else 0) i0 i1 k1).noted.wired
  exact .ite h2 (.ite (h2.trans (Pkg.ceRate_noted ..).wired) (h2.trans (.gravely ..)))

end Sys2Proof.Machine
end

section
/-! PROOF. What rounds of tally merge and what they write leave of the fabric (R177–R184). -/
namespace Sys2Proof.Machine
open Sys2Proof

variable {i j k : Pkg} {now q n : Nat} {p : PkgId} {m : Mem}

/-! ### Storage -/

theorem Pkg.Wired.mem (x : MemSt) (k : Pkg) : k.Wired { k with mem := x } := .of_rt rfl (fun _ h => h) rfl rfl
theorem Pkg.Wired.noticeWrite (space off : Nat) (d : List Byte) (k : Pkg) : k.Wired (k.noticeWrite space off d) := .ite (.mem ..) (.refl k)
theorem Pkg.Wired.noteScans (p : PkgId) (m : Mem) (off len : Nat) (k : Pkg) : k.Wired (k.noteScans p m off len) :=
  .of_rt rfl (fun _ h => h) rfl rfl
theorem storageOp_wired (now : Nat) (p : PkgId) (space off : Nat) (op : Byte) (want : Nat) (d : List Byte) (m : Mem) (k : Pkg) :
    k.Wired (storageOp now p space off op want d m k).2.1 := by
  have h0 : k.Wired (if space = 0 ∧ op ≠ opRead then k.noteScans p m off (opLength op want d) else k) := .ite (.noteScans ..) (.refl k)
  unfold storageOp
  dsimp only
  split_ifs at h0 ⊢
  all_goals first
    | exact .refl k
    | exact .raise ..
    | exact h0
    | exact h0.trans ((Pkg.Wired.mem ..).trans (.noticeWrite ..))
theorem claspedOp_wired (now : Nat) (p : PkgId) (who : Option Nat) (space off : Nat) (op : Byte) (want : Nat) (d : List Byte) (m : Mem) (k : Pkg) :
    k.Wired (claspedOp now p who space off op want d m k).2.1 := by
  unfold claspedOp
  dsimp only
  split
  · exact .ite (.mem ..) (.refl k)
  · exact storageOp_wired ..
theorem Pkg.Wired.wakeFor (c : Nat) (k : Pkg) : k.Wired (k.wakeFor c) := by
  unfold Pkg.wakeFor
  refine .ite (.trans ?_ (.put ..)) (.refl k)
  have h := Pkg.wakeCore_aonOnly c k
  exact .of_rt (by rw [h]) (by rw [h]; exact fun _ h => h) (by rw [h]) (by rw [h])
theorem writeResult_wired (now : Nat) (p : PkgId) (c a : Nat) (d : List Byte) (m : Mem) (k : Pkg) :
    k.Wired (writeResult now p c a d m k).2.1 := by
  unfold writeResult
  split
  · exact .refl k
  split
  · split
    · exact .refl k
    split
    · exact .refl k
    · exact claspedOp_wired ..
  · exact .refl k
  · exact .refl k

/-! ### Rounds -/

theorem Pkg.Wired.setTally (f : TallySt → TallySt) (k : Pkg) : k.Wired (k.setTally f) := .of_rt rfl (fun _ h => h) rfl rfl
theorem Pkg.Wired.treePush (now t q : Nat) (pk : Packet) (k : Pkg) : k.Wired (k.treePush now t q pk) := (Pkg.Wired.arrival ..).trans (.offer ..)
/-- The completions of a round that is sent. -/
def Pkg.roundDone (x : MergeSlot) (status : Byte) (k : Pkg) : Pkg :=
  let k1 := x.parts.foldl (fun k y => match y.core with
    | some c => k.emit (.completion c 0 status [])
    | none => k) k
  if status ≠ stOK then k1.count (F.FAB_CAST_EVENTS_PARTIAL (x.tree % 2)) 1 else k1
theorem Pkg.Wired.roundDone (x : MergeSlot) (status : Byte) (k : Pkg) : k.Wired (k.roundDone x status) := by
  have h : k.Wired (x.parts.foldl (fun k y => match y.core with
      | some c => k.emit (.completion c 0 status [])
      | none => k) k) :=
    .foldl (fun k y => by split; exacts [.emit .., .refl k]) _ _
  exact .ite (h.trans (.count ..)) h
theorem sendRound_wired (now : Nat) (p : PkgId) (x : MergeSlot) (m : Mem) (k : Pkg) : k.Wired (sendRound now p x m k).2 := by
  have hd (st : Byte) (k : Pkg) := Pkg.Wired.roundDone x st k
  unfold Pkg.roundDone at hd
  have h0 := Pkg.Wired.setTally (fun y =>
    { y with slots := y.slots.filter (fun z => !(z.tree = x.tree && z.seq = x.seq)), closed := y.closed ++ [(x.tree, x.seq)] }) k
  unfold sendRound
  dsimp only
  generalize k.setTally _ = k1 at h0 ⊢
  split
  · split
    · exact h0.trans ((Pkg.Wired.treePush ..).trans (hd _ _))
    · refine h0.trans (.trans ?_ ((Pkg.Wired.emit ..).trans (hd _ _)))
      split
      · exact .refl _
      · exact writeResult_wired ..
  · split
    · exact h0.trans ((Pkg.Wired.treePush ..).trans (hd _ _))
    · exact h0.trans (hd _ _)
theorem flushTree_wired (now : Nat) (p : PkgId) (t : Nat) : ∀ (n : Nat) (mk : Mem × Pkg), mk.2.Wired (flushTree now p t n mk).2
  | 0, _ => .refl _
  | n + 1, (m, k) => by
    unfold flushTree
    dsimp only
    split
    · next x _ =>
      split
      · exact .refl k
      split
      · exact .wakeFor ..
      · exact (sendRound_wired now p x m k).trans (flushTree_wired now p t n _)
    · exact .refl k
theorem foldl_wired {β : Type} {f : Mem × Pkg → β → Mem × Pkg} (hf : ∀ (mk : Mem × Pkg) b, mk.2.Wired (f mk b).2) :
    ∀ (l : List β) (mk : Mem × Pkg), mk.2.Wired (l.foldl f mk).2
  | [], _ => .refl _
  | b :: l, mk => (hf mk b).trans (foldl_wired hf l _)
theorem Pkg.Wired.closeRounds (k : Pkg) : k.Wired k.closeRounds := .setTally ..
theorem flushRounds_wired (now : Nat) (p : PkgId) (m : Mem) (k : Pkg) : k.Wired (flushRounds now p m k).2 :=
  (Pkg.Wired.closeRounds k).trans
    (foldl_wired (f := fun mk t => flushTree now p t 33 mk) (fun mk t => flushTree_wired now p t 33 mk) (List.range 64) (m, k.closeRounds))
theorem Pkg.Wired.tallyPut (now inp : Nat) (pk : Packet) (k : Pkg) : k.Wired (k.tallyPut now inp pk) := by
  have h0 := Pkg.Wired.freeInput inp (bufKey (k.isPlane inp) pk) (flits pk) k
  unfold Pkg.tallyPut
  dsimp only
  generalize k.freeInput inp (bufKey (k.isPlane inp) pk) (flits pk) = k0 at h0 ⊢
  refine .ite (.setTally ..) (h0.trans ?_)
  exact .ite (.ite ((Pkg.Wired.count ..).trans (.emit ..)) (.count ..)) (.ite (.setTally ..) ((Pkg.Wired.setTally ..).trans (.count ..)))
theorem settle_wired (now : Nat) (p : PkgId) : ∀ (n : Nat) (mk : Mem × Pkg), mk.2.Wired (settle now p n mk).2
  | 0, _ => .refl _
  | n + 1, mk => by
    have h0 := flushRounds_wired now p mk.1 mk.2
    rw [settle]
    generalize flushRounds now p mk.1 mk.2 = r at h0
    have h1 : mk.2.Wired (r.2.tally.waiting.foldl (fun k e => k.tallyPut now e.1 e.2) (r.2.setTally fun y => { y with waiting := [] })) :=
      h0.trans ((Pkg.Wired.setTally ..).trans (.foldl (fun k e => .tallyPut ..) _ _))
    generalize (r.2.tally.waiting.foldl (fun k e => k.tallyPut now e.1 e.2) (r.2.setTally fun y => { y with waiting := [] })) = k1 at h1
    split
    · exact h1
    · exact h1.trans (settle_wired now p n (r.1, k1))
theorem tallySettle_wired (now : Nat) (p : PkgId) (m : Mem) (k : Pkg) : k.Wired (tallySettle now p m k).2 := by
  unfold tallySettle
  split
  · exact .refl k
  · exact settle_wired now p _ (m, k)

end Sys2Proof.Machine
end

section
/-! PROOF. Obligation O44: the tray controller's command messages (R278, R279, R291–R293, R349). -/
namespace Sys2Proof.Machine
open Sys2Proof

variable {j k : Pkg} {s t : State} {p : PkgId} {inst : BitVec 5}

/-! ### Commands by the state of the PKC -/

theorem onCommand_down {c : Nat} {f : Pkg → Pkg} (h : (s.pkg p).mctpUp = false) : onCommand p inst c s f = .next (s.setPkg p (s.pkg p)) := onMctp_down h
theorem Pkg.mctpUp_of_lifeboat (h : k.pkc.run = .lifeboat) : k.mctpUp = true := by simp [Pkg.mctpUp, h]
theorem Pkg.mctpUp_of_running (h : k.pkc.run = .running) : k.mctpUp = true := by simp [Pkg.mctpUp, h]
theorem onCommand_lifeboat {c : Nat} {f : Pkg → Pkg} (h : (s.pkg p).pkc.run = .lifeboat) (h1 : c ≠ 1) (h7 : c ≠ 7) :
    onCommand p inst c s f = .next (s.setPkg p ((s.pkg p).emit (.cwAnswer inst.toNat c 1 []))) :=
  (onMctp_up (Pkg.mctpUp_of_lifeboat h)).trans (congrArg (fun y => Host.Outcome.next (s.setPkg p y)) (if_pos (by simp [h, h1, h7])))
/-- A command that the state of the PKC lets through acts. -/
theorem onCommand_acts {c : Nat} {f : Pkg → Pkg} (h : (s.pkg p).mctpUp = true) (hc : (s.pkg p).pkc.run = .running ∨ c = 1 ∨ c = 7) :
    onCommand p inst c s f = .next (s.setPkg p (f (s.pkg p))) := by
  refine (onMctp_up h).trans (congrArg (fun y => Host.Outcome.next (s.setPkg p y)) (if_neg ?_))
  rcases hc with hc | rfl | rfl
  · simp [hc]
  · simp
  · simp

theorem exec_heartbeat (seq : Word) : exec (.heartbeat p inst seq) s = onCommand p inst 1 s fun k =>
    let k1 := if k.pkc.hbSeq = some seq then k else k.setPkc fun x => { x with hbSeq := some seq, hbAt := some s.now }
    k1.cwAnswer inst 1 0 [k1.stateByte] := rfl
theorem exec_getStatus : exec (.getStatus p inst) s = onCommand p inst 7 s fun k =>
    k.cwAnswer inst 7 0 ([k.stateByte] ++ leBytes 4 (k.rg R.CHT_ACTIVE_EPOCH).toNat ++ [k.ret.pkgInc]) := rfl
theorem exec_resync : exec (.resync p inst) s = onCommand p inst 6 s fun k =>
    if !k.pkc.holdCourse then k.cwAnswer inst 6 notNow []
    else
      let k1 := if k.overrides then k.emit (.report "ROUTE_OVERRIDE" 0 1) else k
      (k1.setPkc fun x => { x with holdCourse := false }).recap.settleRates.cwAnswer inst 6 0 [] := rfl
theorem exec_holdCourse : exec (.holdCourse p) s = onPkg p s fun k =>
    match k.pkc.hbAt with
    | some t => if t + 30 * 10 ^ 6 ≤ s.now && !k.paused_ then (k.setPkc fun x => { x with holdCourse := true }).recap.settleRates else k
    | none => k := rfl
/-- FENCE at a package. -/
def fenceStep (now : Nat) (p : PkgId) (inst : BitVec 5) (m : Mem) (k : Pkg) : Mem × Pkg :=
  if !k.mctpUp then (m, k)
  else if decide (k.pkc.run = .lifeboat) then (m, k.cwAnswer inst 5 1 [])
  else tallySettle now p m (((k.goDark now .package .fence).setPkc fun x => { x with fenced := true }).cwAnswer inst 5 0 [])
theorem exec_fence : exec (.fence p inst) s = onPkgGrave p s (fenceStep s.now p inst) := rfl

/-! ### ADMIT -/

theorem exec_admitLinks (h : s.mayAdmit p = true) : exec (.admitLinks p inst) s = onCommand p inst 4 s (Pkg.joinFabric inst) := by
  change execAdmitLinks p inst s = _
  unfold execAdmitLinks
  rw [h]
  rfl
/-- The links that are OFF start full training, up to a port. -/
def Pkg.trainOff (n : Nat) (k : Pkg) : Pkg := (List.range n).foldl (fun k q => k.setPort q (k.port q).powerUp) k
theorem Pkg.trainOff_succ (n : Nat) (k : Pkg) : k.trainOff (n + 1) = (k.trainOff n).setPort n ((k.trainOff n).port n).powerUp := by
  rw [Pkg.trainOff, List.range_succ, List.foldl_append]; rfl
theorem Pkg.trainOff_kept : ∀ (n : Nat) (k : Pkg), (k.trainOff n).regs = k.regs ∧ (k.trainOff n).pkc = k.pkc
  | 0, _ => ⟨rfl, rfl⟩
  | n + 1, k => by rw [Pkg.trainOff_succ]; exact Pkg.trainOff_kept n k
theorem Pkg.trainOff_port : ∀ (n q : Nat) (k : Pkg), (k.trainOff n).port q = if q < n then (k.port q).powerUp else k.port q
  | 0, _, _ => rfl
  | n + 1, q, k => by
    rw [Pkg.trainOff_succ]
    rcases Nat.lt_trichotomy q n with h | rfl | h
    · rw [Pkg.port_setPort_ne (by omega), Pkg.trainOff_port, if_pos h, if_pos (by omega)]
    · rw [Pkg.port_setPort_same, Pkg.trainOff_port, if_neg (by omega), if_pos (by omega)]
    · rw [Pkg.port_setPort_ne (by omega), Pkg.trainOff_port, if_neg (by omega), if_neg (by omega)]
theorem PortSt.powerUp_state {x : PortSt} (h : x.state = .off) : x.powerUp.state = .training := by rw [PortSt.powerUp, if_pos h]
theorem PortSt.powerUp_other {x : PortSt} (h : x.state ≠ .off) : x.powerUp = x := if_neg h
/-- A package that has joined the fabric, before its answer. -/
def Pkg.joined (k : Pkg) : Pkg := (k.setPkc fun x => { x with admitted := true }).trainOff 24
theorem Pkg.joinFabric_booted (h : k.pkc.bootDone = true) : k.joinFabric inst = k.joined.emit (.cwAnswer inst.toNat 4 0 []) := by
  unfold Pkg.joinFabric
  rw [h]
  rfl
theorem Pkg.joinFabric_early (h : k.pkc.bootDone = false) : k.joinFabric inst = k.emit (.cwAnswer inst.toNat 4 4 []) := by
  unfold Pkg.joinFabric
  rw [h]
  rfl

/-! ### Hold course -/

theorem Pkg.baseLimits_held (h : k.pkc.holdCourse = true) : (3, k.safeLimit) ∈ k.baseLimits := by
  rw [Pkg.baseLimits, h]; simp
theorem Pkg.baseLimits_free (h : k.pkc.holdCourse = false) : ∀ l ∈ k.baseLimits, l.1 ≠ 3 := by
  rw [Pkg.baseLimits, h]; simp
theorem Pkg.settleRates_sameLimits (k : Pkg) : k.SameLimits k.settleRates := by
  have h := k.settleRates_settled
  refine ⟨fun o ho => h.rg o ?_ ?_, by rw [h.onlyRegs], by rw [h.onlyRegs]⟩
  · refine isTileReg_ne ?_
    revert o
    decide
  · revert o
    decide
theorem Pkg.SameLimits.trans {i : Pkg} (h : i.SameLimits j) (h' : j.SameLimits k) : i.SameLimits k :=
  ⟨fun o ho => (h'.rg o ho).trans (h.rg o ho), h'.pkc.trans h.pkc, h'.chart.trans h.chart⟩
/-- The package after a change of its limits. -/
theorem Pkg.recap_settled (k : Pkg) : k.SameLimits k.recap.settleRates ∧ k.recap.settleRates.effective = k.capLimit.2 ∧
    k.recap.settleRates.capLimit = k.capLimit ∧ k.recap.settleRates.ret = k.ret ∧
    k.recap.settleRates.get F.PWR_LADDER_CAP_CAP = k.get F.PWR_LADDER_CAP_CAP := by
  obtain ⟨h1, _, h2, _⟩ := k.recap_spec
  have hs := k.recap.settleRates_settled
  have hl := k.recap.settleRates_sameLimits
  refine ⟨k.recap_sameLimits.trans hl, (hs.get (f := F.PWR_CAP_STATUS_EFFECTIVE) (by decide) (by decide)).trans h1,
    (hl.capLimit (hs.get (by decide) (by decide))).trans h2, ?_, (k.recap_sameLimits.trans hl).get _ (by decide)⟩
  obtain ⟨x, hx⟩ := k.recap_eq
  rw [hs.onlyRegs, hx]
  rfl
/-- A package that holds course, after the limit is taken up. -/
def Pkg.heldCourse (k : Pkg) : Pkg := (k.setPkc fun x => { x with holdCourse := true }).recap.settleRates
theorem Pkg.heldCourse_spec (k : Pkg) : k.heldCourse.pkc.holdCourse = true ∧ k.heldCourse.effective ≤ k.safeLimit ∧
    k.heldCourse.get F.PWR_LADDER_CAP_CAP = k.get F.PWR_LADDER_CAP_CAP ∧ k.heldCourse.ret = k.ret := by
  obtain ⟨h1, h2, h3, h4, h5⟩ := (k.setPkc fun x => { x with holdCourse := true }).recap_settled
  refine ⟨congrArg PkcSt.holdCourse h1.pkc, h2.trans_le ?_, h5, h4⟩
  exact (k.setPkc fun x => { x with holdCourse := true }).capLimit_spec.2.2 _ (Pkg.baseLimits_held rfl)
/-- A package that resumes its course, before its answer. -/
def Pkg.resumed (k : Pkg) : Pkg :=
  ((if k.overrides then k.emit (.report "ROUTE_OVERRIDE" 0 1) else k).setPkc fun x => { x with holdCourse := false }).recap.settleRates
theorem Pkg.resumed_spec (k : Pkg) : k.resumed.pkc.holdCourse = false ∧ (∀ l ∈ k.resumed.baseLimits, l.1 ≠ 3) ∧
    k.resumed.effective = k.resumed.capLimit.2 := by
  unfold Pkg.resumed
  generalize (if k.overrides then k.emit (.report "ROUTE_OVERRIDE" 0 1) else k) = k1
  obtain ⟨h1, h2, h3, _, _⟩ := (k1.setPkc fun x => { x with holdCourse := false }).recap_settled
  have h0 := congrArg PkcSt.holdCourse h1.pkc
  exact ⟨h0, Pkg.baseLimits_free h0, h2.trans (congrArg Prod.snd h3.symm)⟩

/-! ### FENCE -/

/-- A fenced package as it answers, before its rounds are brought up to date. -/
def Pkg.fenceAnswered (now : Nat) (inst : BitVec 5) (k : Pkg) : Pkg :=
  ((k.goDark now .package .fence).setPkc fun x => { x with fenced := true }).emit (.cwAnswer inst.toNat 5 0 [])
theorem Pkg.fenceAnswered_spec (now : Nat) (inst : BitVec 5) (k : Pkg) : (k.fenceAnswered now inst).pkgDark = true ∧
    (k.fenceAnswered now inst).pkc.fenced = true ∧ Msg.cwAnswer inst.toNat 5 0 [] ∈ (k.fenceAnswered now inst).out := by
  have h := Pkg.pkgDark_goDark now .fence k
  unfold Pkg.fenceAnswered
  generalize k.goDark now .package .fence = l at h ⊢
  exact ⟨h, rfl, List.mem_append_right _ (List.mem_singleton_self _)⟩
theorem onPkgGrave_same {f : Mem → Pkg → Mem × Pkg} {k' : Pkg} (h : f s.mem (s.pkg p) = (s.mem, k')) (hd : k'.pkgDark = (s.pkg p).pkgDark) :
    onPkgGrave p s f = .next (s.setPkg p k') := by
  obtain ⟨t, ht, _, hs⟩ := onPkgGrave_darkened p s f
  rw [ht, hs (by rw [h]; exact hd), h]
theorem fenceStep_down {now : Nat} {m : Mem} (h : k.mctpUp = false) : fenceStep now p inst m k = (m, k) := if_pos (by rw [h]; rfl)
theorem fenceStep_lifeboat {now : Nat} {m : Mem} (h : k.pkc.run = .lifeboat) :
    fenceStep now p inst m k = (m, k.emit (.cwAnswer inst.toNat 5 1 [])) := by
  unfold fenceStep
  rw [Pkg.mctpUp_of_lifeboat h, if_neg (by decide), if_pos (decide_eq_true h)]
  rfl
theorem fenceStep_running {now : Nat} {m : Mem} (h : k.pkc.run = .running) :
    fenceStep now p inst m k = tallySettle now p m (k.fenceAnswered now inst) := by
  unfold fenceStep Pkg.fenceAnswered
  rw [Pkg.mctpUp_of_running h, if_neg (by decide), if_neg (by simp [h])]
  rfl
theorem exec_fence_running (h : (s.pkg p).pkc.run = .running) : ∃ t, exec (.fence p inst) s = .next t ∧ (t.pkg p).pkgDark = true ∧
    (t.pkg p).pkc.fenced = true ∧ Msg.cwAnswer inst.toNat 5 0 [] ∈ (t.pkg p).out := by
  obtain ⟨h1, h2, h3⟩ := (s.pkg p).fenceAnswered_spec s.now inst
  have hw := tallySettle_wired s.now p s.mem ((s.pkg p).fenceAnswered s.now inst)
  obtain ⟨t, ht, hd, _⟩ := onPkgGrave_darkened p s (fenceStep s.now p inst)
  have hdark := onPkgGrave_dark p s _ ht
  rw [fenceStep_running h] at hd hdark
  generalize tallySettle s.now p s.mem ((s.pkg p).fenceAnswered s.now inst) = r at hw hd hdark
  generalize (s.pkg p).fenceAnswered s.now inst = l at h1 h2 h3 hw
  refine ⟨t, ht, ?_, ?_, hd.told _ (hw.told _ h3)⟩
  · rw [Pkg.pkgDark, hdark]
    exact hw.grave h1
  · rw [hd.pkc, hw.pkc]
    exact h2

/-! ### Register commands -/

theorem exec_readReg (off : Word) (ctrl : Byte) : exec (.readReg p inst off ctrl) s =
    if ctrl.toNat % 16 = 0 ∨ 14 < ctrl.toNat % 16 then onMctp p s fun k => k.cwAnswer inst 2 3 []
    else busAccess (.readReg p inst off ctrl) s := rfl
theorem exec_writeReg (off : Word) (ctrl : Byte) (ws : List Word) : exec (.writeReg p inst off ctrl ws) s =
    if ctrl.toNat % 16 = 0 ∨ 14 < ctrl.toNat % 16 then onMctp p s fun k => k.cwAnswer inst 3 3 []
    else if ws.length ≠ ctrl.toNat % 16 then onMctp p s fun k => k.cwAnswer inst 3 2 []
    else busAccess (.writeReg p inst off ctrl ws) s := rfl
/-- An access that a register command makes. -/
def commandOp (inst : BitVec 5) (command : Nat) (words : List (Nat × Option Word)) : BusOp := ⟨.cw, 4, words, none, .message inst.toNat command⟩
theorem State.busRun_command (command : Nat) (words : List (Nat × Option Word)) : s.busRun p (commandOp inst command words) false =
    busWords ⟨s.now, p, .cw, false, s.upIn p.rack, 0⟩ s.free 4 words (s.mem, s.pkg p) := rfl
/-- An access of a running package that need not wait is served. -/
theorem busAccess_command {i : Instr} {command : Nat} {words : List (Nat × Option Word)} (hi : busOpOf i = some (p, commandOp inst command words))
    (hm : (s.pkg p).mctpUp = true) (hd : (s.pkg p).mustDefer (commandOp inst command words) = false) :
    busAccess i s = .next (s.busLeaves p (commandOp inst command words) false (s.busRun p (commandOp inst command words) false)) := by
  unfold busAccess
  rw [hi]
  dsimp only
  rw [if_neg (by simp [State.reaches, hm, commandOp]), if_neg (by simp [hd])]
  rfl
theorem Pkg.mustDefer_refused {op : BusOp} {w : Nat × Option Word} {l : List (Nat × Option Word)} (hw : op.words = w :: l)
    (h : k.busRefuses w.1 op.size = true) : k.mustDefer op = false := by
  have hg : k.goodWords op = [] := by
    unfold Pkg.goodWords
    rw [hw, List.map_cons, List.takeWhile_cons, h]
    rfl
  have ho : k.opDomains op = [] := by rw [Pkg.opDomains, hg]; rfl
  unfold Pkg.mustDefer
  rw [ho]
  simp only [List.any_nil, Bool.false_or, List.any_eq_false]
  intro i _
  split <;> simp
theorem Pkg.mustDefer_powered {op : BusOp} (h : k.aon.deferred = []) (ho : ∀ w ∈ op.words, (k.blockDomains (w.1 % 2 ^ 24)).all k.domainOn = true) :
    k.mustDefer op = false := by
  have hg : ∀ d ∈ k.opDomains op, k.domainOn d = true := by
    intro d hd
    obtain ⟨o, h1, h2⟩ := List.mem_flatMap.1 hd
    obtain ⟨x, h3, rfl⟩ := List.mem_map.1 h1
    obtain ⟨w, h4, rfl⟩ := List.mem_map.1 (List.takeWhile_subset _ h3)
    exact List.all_eq_true.1 (ho w h4) d h2
  unfold Pkg.mustDefer
  rw [h]
  simp only [List.any_nil, Bool.or_false, List.any_eq_false]
  intro d hd
  simp [hg d hd]
/-- A register command whose first word is refused answers so and has no effect. -/
theorem busAccess_command_refused {i : Instr} {command : Nat} {w : Nat × Option Word} {l : List (Nat × Option Word)}
    (hi : busOpOf i = some (p, commandOp inst command (w :: l))) (hm : (s.pkg p).mctpUp = true) (h : (s.pkg p).busRefuses w.1 4 = true) :
    busAccess i s = .next ({ s with free := s.free + (l.length + 1) }.setPkg p ((s.pkg p).emit (.cwAnswer inst.toNat command 5 []))) := by
  rw [busAccess_command hi hm (Pkg.mustDefer_refused rfl h), State.busRun_command, busWords_refused h]
  exact congrArg Host.Outcome.next (if_neg (by simp [BusOp.reply, commandOp, Pkg.pkgDark, Pkg.emit]))
/-- A register command none of whose words is refused or waits is served. -/
theorem busAccess_command_served {i : Instr} {command : Nat} {words : List (Nat × Option Word)} (hi : busOpOf i = some (p, commandOp inst command words))
    (hm : (s.pkg p).mctpUp = true) (hs : samePause words) (hr : ∀ w ∈ words, (s.pkg p).busRefuses w.1 4 = false)
    (hd : (s.pkg p).mustDefer (commandOp inst command words) = false) :
    ∃ (t : State) (got : List Word), busAccess i s = .next t ∧ got.length = words.length ∧
      Msg.cwAnswer inst.toNat command 0 (if words.any (fun e => e.2.isNone) then got.flatMap (fun w => leBytes 4 w.toNat) else []) ∈ (t.pkg p).out := by
  obtain ⟨h1, h2⟩ := busWords_served (x := ⟨s.now, p, .cw, false, s.upIn p.rack, 0⟩) words s.free s.mem (s.pkg p) hs hr
  rw [busAccess_command hi hm hd, State.busRun_command]
  generalize busWords _ s.free 4 words (s.mem, s.pkg p) = r at h1 h2
  refine ⟨_, r.1, rfl, h2, ?_⟩
  unfold State.busLeaves
  dsimp only
  refine (State.lost_darkened _ p _ _ _).1.told _ ?_
  rw [if_neg Bool.false_ne_true, BusOp.reply, h1]
  exact List.mem_append_right _ (List.mem_singleton.2 (by rw [Bool.true_and]; rfl))

/-- The words of READ_REG and of WRITE_REG. -/
def readWords (offs : List Nat) : List (Nat × Option Word) := offs.map fun o => (o, none)
def writeWords (offs : List Nat) (ws : List Word) : List (Nat × Option Word) := offs.zip (ws.map some)
theorem busOpOf_readReg (off : Word) (ctrl : Byte) : busOpOf (.readReg p inst off ctrl) =
    some (p, commandOp inst 2 (readWords (wordOffsets off.toNat (ctrl.toNat % 16) (bit ctrl.toNat 7)))) := rfl
theorem busOpOf_writeReg (off : Word) (ctrl : Byte) (ws : List Word) : busOpOf (.writeReg p inst off ctrl ws) =
    some (p, commandOp inst 3 (writeWords (wordOffsets off.toNat (ctrl.toNat % 16) (bit ctrl.toNat 7)) ws)) := rfl
theorem wordOffsets_length (off n : Nat) (b : Bool) : (wordOffsets off n b).length = n := by rw [wordOffsets, List.length_map, List.length_range]
/-- The words of an access start with that of its offset. -/
theorem wordOffsets_cons {n : Nat} (h : 1 ≤ n) (off : Nat) (b : Bool) : ∃ l, wordOffsets off n b = off :: l := by
  obtain ⟨m, rfl⟩ := Nat.exists_eq_add_of_le' h
  refine ⟨_, (?_ : _ = off :: (List.range m).map fun i => if b then off else off + 4 * (i + 1))⟩
  rw [wordOffsets, List.range_succ_eq_map, List.map_cons, List.map_map]
  cases b <;> rfl

theorem readWords_fst (l : List Nat) : (readWords l).map (·.1) = l := by
  rw [readWords, List.map_map]
  exact List.map_id _
theorem writeWords_fst {l : List Nat} {ws : List Word} (h : ws.length = l.length) : (writeWords l ws).map (·.1) = l := by
  rw [writeWords, List.map_fst_zip]
  rw [List.length_map, h]
theorem readWords_reads {l : List Nat} (h : l ≠ []) : (readWords l).any (fun e => e.2.isNone) = true := by
  obtain ⟨o, l, rfl⟩ := List.exists_cons_of_ne_nil h
  rfl
theorem writeWords_reads (l : List Nat) (ws : List Word) : (writeWords l ws).any (fun e => e.2.isNone) = false := by
  rw [List.any_eq_false]
  intro e he
  obtain ⟨w, _, hw⟩ := List.mem_map.1 (List.of_mem_zip he).2
  rw [← hw]
  exact Bool.false_ne_true
theorem flatMap_leBytes4_length (l : List Word) : (l.flatMap fun w => leBytes 4 w.toNat).length = 4 * l.length := by
  induction l with
  | nil => rfl
  | cons w l ih => rw [List.flatMap_cons, List.length_append, ih, List.length_cons, show (leBytes 4 w.toNat).length = 4 from rfl]; omega

/-- Settles O44: each command by the state of the PKC; hold course by its limit, ADMIT by the ports, register commands by their words. -/
theorem commandMessages : Obligations.CommandMessages := by
  intro s p inst k answered
  refine ⟨fun h => ⟨fun seq => (exec_heartbeat seq).trans (onCommand_down h), fun ha => (exec_admitLinks ha).trans (onCommand_down h),
      exec_fence.trans (onPkgGrave_same (fenceStep_down h) rfl), exec_resync.trans (onCommand_down h), exec_getStatus.trans (onCommand_down h)⟩,
    fun h => ?_, fun h => ⟨fun seq hs => ?_, fun seq hs => ?_, exec_getStatus.trans (onCommand_acts h (.inr (.inr rfl)))⟩,
    fun h => ⟨fun ha => (exec_admitLinks ha).trans (onCommand_lifeboat h (by decide) (by decide)),
      exec_fence.trans (onPkgGrave_same (fenceStep_lifeboat h) rfl), exec_resync.trans (onCommand_lifeboat h (by decide) (by decide))⟩,
    fun h => ⟨fun ha hb => ?_, fun ha hb => ?_, exec_fence_running h, fun hc => ?_, fun hc => ?_⟩, fun h => ?_, fun t hp ht hl => ?_,
    fun off ctrl ws h => ?_⟩
  · change execAdmitLinks p inst s = _
    refine if_neg ?_
    unfold State.mayAdmit
    dsimp only
    rcases h with h | h | h
    · simp [h]
    · simp [show (s.pkg p).get F.CHT_SLOT_STATUS_ACTIVE_STATE = 0 from h]
    · simp [show s.namedEpoch p.rack ≠ some ((s.pkg p).rg R.CHT_ACTIVE_EPOCH).toNat from h]
  · refine (exec_heartbeat seq).trans ((onCommand_acts h (.inr (.inl rfl))).trans ?_)
    dsimp only
    rw [if_pos hs]
    rfl
  · refine (exec_heartbeat seq).trans ((onCommand_acts h (.inr (.inl rfl))).trans ?_)
    dsimp only
    rw [if_neg hs]
    rfl
  · refine (exec_admitLinks ha).trans ((onCommand_acts (Pkg.mctpUp_of_running h) (.inl h)).trans ?_)
    rw [Pkg.joinFabric_early hb]
  · refine ⟨k.joined, (exec_admitLinks ha).trans ((onCommand_acts (Pkg.mctpUp_of_running h) (.inl h)).trans ?_), ?_, ?_, fun q hq => ?_⟩
    · rw [Pkg.joinFabric_booted hb]
    · exact congrArg PkcSt.admitted (Pkg.trainOff_kept 24 (k.setPkc fun x => { x with admitted := true })).2
    · exact (Pkg.trainOff_kept 24 (k.setPkc fun x => { x with admitted := true })).1
    · have hport : k.joined.port q = (k.port q).powerUp := (Pkg.trainOff_port 24 q _).trans (if_pos hq)
      rw [hport]
      exact ⟨PortSt.powerUp_state, PortSt.powerUp_other⟩
  · refine exec_resync.trans ((onCommand_acts (Pkg.mctpUp_of_running h) (.inl h)).trans ?_)
    rw [show (s.pkg p).pkc.holdCourse = false from hc]
    rfl
  · refine ⟨k.resumed, exec_resync.trans ((onCommand_acts (Pkg.mctpUp_of_running h) (.inl h)).trans ?_), k.resumed_spec⟩
    rw [show (s.pkg p).pkc.holdCourse = true from hc]
    rfl
  · refine exec_holdCourse.trans (onPkg_next ?_)
    rcases h with h | h | ⟨t, h, hl⟩
    · rw [show (s.pkg p).paused_ = true from h]
      split <;> simp [k]
    · rw [show (s.pkg p).pkc.hbAt = none from h]
    · rw [show (s.pkg p).pkc.hbAt = some t from h]
      exact if_neg (by simp; omega)
  · refine ⟨k.heldCourse, exec_holdCourse.trans (onPkg_next ?_), k.heldCourse_spec⟩
    rw [show (s.pkg p).pkc.hbAt = some t from ht]
    exact if_pos (by simp [show (s.pkg p).paused_ = false from hp]; omega)
  · intro n offs powered refused
    refine ⟨fun hn => ⟨?_, ?_⟩, fun h1 h14 => ⟨fun hl => ?_, fun hr => ⟨?_, fun hl => ?_⟩, fun hpow hr => ⟨?_, fun hl => ?_⟩⟩⟩
    · exact (exec_readReg off ctrl).trans ((if_pos (by omega)).trans (onMctp_up h))
    · exact (exec_writeReg off ctrl ws).trans ((if_pos (by omega)).trans (onMctp_up h))
    · exact (exec_writeReg off ctrl ws).trans ((if_neg (by omega)).trans ((if_pos hl).trans (onMctp_up h)))
    · obtain ⟨l, hl⟩ := wordOffsets_cons h1 off.toNat (bit ctrl.toNat 7)
      have hlen : l.length + 1 = n := by rw [← List.length_cons (a := off.toNat), ← hl, wordOffsets_length]
      have hw : busOpOf (.readReg p inst off ctrl) = some (p, commandOp inst 2 ((off.toNat, none) :: readWords l)) := by
        rw [busOpOf_readReg, show wordOffsets off.toNat (ctrl.toNat % 16) _ = _ from hl]
        rfl
      refine (exec_readReg off ctrl).trans ((if_neg (by omega)).trans ((busAccess_command_refused hw h hr).trans ?_))
      rw [readWords, List.length_map, hlen]
    · obtain ⟨l, hl'⟩ := wordOffsets_cons h1 off.toNat (bit ctrl.toNat 7)
      have hlen : l.length + 1 = n := by rw [← List.length_cons (a := off.toNat), ← hl', wordOffsets_length]
      obtain ⟨w, ws', rfl⟩ := List.exists_cons_of_length_eq_add_one (hl.trans hlen.symm)
      have hw : busOpOf (.writeReg p inst off ctrl (w :: ws')) = some (p, commandOp inst 3 ((off.toNat, some w) :: writeWords l ws')) := by
        rw [busOpOf_writeReg, show wordOffsets off.toNat (ctrl.toNat % 16) _ = _ from hl']
        rfl
      refine (exec_writeReg off ctrl _).trans ((if_neg (by omega)).trans ((if_neg (not_not.2 hl)).trans ((busAccess_command_refused hw h hr).trans ?_)))
      have hws : ws'.length = l.length := by rw [List.length_cons] at hl; omega
      rw [writeWords, List.length_zip, List.length_map, hws, min_self, hlen]
    · have hne : offs ≠ [] := fun e => by
        have := wordOffsets_length off.toNat n (bit ctrl.toNat 7)
        rw [show wordOffsets off.toNat n _ = [] from e] at this
        exact absurd this (by simp; omega)
      have hfst := readWords_fst offs
      have hw : ∀ w ∈ readWords offs, w.1 ∈ offs := fun w hw => hfst ▸ List.mem_map_of_mem hw
      obtain ⟨t, got, ht, hg, hmem⟩ := busAccess_command_served (busOpOf_readReg off ctrl) h (samePause_of hfst fun w hm => hr _ (hw w hm))
        (fun w hm => hr _ (hw w hm)) (Pkg.mustDefer_powered hpow.1 fun w hm => hpow.2 _ (hw w hm))
      rw [if_pos (readWords_reads hne)] at hmem
      refine ⟨t, _, (exec_readReg off ctrl).trans ((if_neg (by omega)).trans ht), ?_, hmem⟩
      rw [flatMap_leBytes4_length, hg, readWords, List.length_map, wordOffsets_length]
    · have hlen : ws.length = offs.length := hl.trans (wordOffsets_length ..).symm
      have hfst := writeWords_fst hlen
      have hw : ∀ w ∈ writeWords offs ws, w.1 ∈ offs := fun w hw => hfst ▸ List.mem_map_of_mem hw
      obtain ⟨t, got, ht, _, hmem⟩ := busAccess_command_served (busOpOf_writeReg off ctrl ws) h (samePause_of hfst fun w hm => hr _ (hw w hm))
        (fun w hm => hr _ (hw w hm)) (Pkg.mustDefer_powered hpow.1 fun w hm => hpow.2 _ (hw w hm))
      rw [if_neg (by rw [writeWords_reads]; exact Bool.false_ne_true)] at hmem
      exact ⟨t, (exec_writeReg off ctrl ws).trans ((if_neg (by omega)).trans ((if_neg (not_not.2 hl)).trans ht)), hmem⟩

end Sys2Proof.Machine
end

section
/-! PROOF. What a step of a port leaves of a router (R141–R145, R165): the links of the other ports and what was sent. -/
namespace Sys2Proof.Machine
open Sys2Proof

variable {i j k : Pkg} {a b c : RouterSt} {now q n : Nat} {x y : PortSt}

/-! ### Meridian routers -/

/-- Between two states of a router its links stand, and it has sent what it had. -/
structure RouterSt.Wired (a b : RouterSt) : Prop where
  link : ∀ q, (b.port q).link = (a.port q).link
  told : ∀ m ∈ a.out, m ∈ b.out

theorem RouterSt.Wired.refl (a : RouterSt) : a.Wired a := ⟨fun _ => rfl, fun _ h => h⟩
theorem RouterSt.Wired.trans (h : a.Wired b) (h' : b.Wired c) : a.Wired c :=
  ⟨fun q => (h'.link q).trans (h.link q), fun m hm => h'.told m (h.told m hm)⟩
theorem RouterSt.Wired.ite {p : Prop} [Decidable p] (h : a.Wired b) (h' : a.Wired c) : a.Wired (if p then b else c) := by split <;> assumption
theorem RouterSt.Wired.foldl {β : Type} {f : RouterSt → β → RouterSt} (hf : ∀ (r : RouterSt) b, r.Wired (f r b)) :
    ∀ (l : List β) (r : RouterSt), r.Wired (l.foldl f r)
  | [], r => .refl r
  | b :: l, r => (hf r b).trans (RouterSt.Wired.foldl hf l _)
/-- A change of what is no port, after which what was sent still stands. -/
theorem RouterSt.Wired.of_ports (hp : b.ports = a.ports) (ho : ∀ m ∈ a.out, m ∈ b.out) : a.Wired b :=
  ⟨fun q => by rw [RouterSt.port, RouterSt.port, hp], ho⟩
theorem RouterSt.Wired.setPort {r : RouterSt} (h : x.link = (r.port n).link) : r.Wired (r.setPort n x) := by
  refine ⟨fun q => ?_, fun _ h => h⟩
  by_cases hq : q = n
  · subst hq; rw [RouterSt.port_setPort_same]; exact h
  · rw [RouterSt.port_setPort_ne hq]
theorem RouterSt.Wired.push (q : Nat) (e : Queued) (r : RouterSt) : r.Wired (r.push q e) := .setPort (r := r) rfl
theorem RouterSt.Wired.sends (l : List Msg) (r : RouterSt) : r.Wired { r with out := r.out ++ l } :=
  .of_ports rfl fun _ h => List.mem_append_left _ h
theorem RouterSt.Wired.free (inp key flits : Nat) (r : RouterSt) : r.Wired (r.free inp key flits) :=
  (RouterSt.Wired.setPort (PortSt.link_freed inp key flits (r.port inp))).trans (.sends ..)
theorem RouterSt.Wired.leave (e : Queued) (r : RouterSt) : r.Wired (r.leave e) := .ite (.refl r) (.free ..)
theorem RouterSt.Wired.merCount (key : Nat) (r : RouterSt) : r.Wired (r.merCount key) := .of_ports rfl fun _ h => h
theorem RouterSt.Wired.merDrop (d : Drop) (r : RouterSt) : r.Wired (r.merDrop d) := .merCount ..
theorem RouterSt.Wired.spreadOver (key : Nat) (qs : List Nat) (r : RouterSt) : r.Wired (r.spreadOver key qs).2 := .of_ports rfl fun _ h => h
theorem RouterSt.Wired.merStandIn (time : Nat) (e : Queued) (r : RouterSt) : r.Wired (r.merStandIn time e) := by
  have h := RouterSt.Wired.leave e r
  unfold RouterSt.merStandIn
  dsimp only
  exact .ite (h.trans (.sends ..)) (.ite ((h.trans (.merDrop ..)).trans (.sends ..)) (h.trans (.merDrop ..)))
theorem RouterSt.Wired.merOffer (x : MerCtx) (q : Nat) (e : Queued) (r : RouterSt) : r.Wired (r.merOffer x q e) :=
  .ite (.push ..) (.ite (.merStandIn ..) ((RouterSt.Wired.leave ..).trans (.merDrop ..)))
theorem RouterSt.Wired.merRoute (x : MerCtx) (e : Queued) (r : RouterSt) : r.Wired (r.merRoute x e) := by
  unfold RouterSt.merRoute
  dsimp only
  refine .ite ?_ ?_
  · have h := RouterSt.Wired.spreadOver (addrIndex (merTarget e.pk)) (merDown x.plane (addrIndex (merTarget e.pk))) r
    generalize r.spreadOver _ _ = z at h
    obtain ⟨_ | q, r1⟩ := z
    · exact .ite (h.trans (.push ..)) (h.trans (.merOffer ..))
    · exact h.trans (.merOffer ..)
  · generalize merBundle (r.mapFor x.time e.pk.epoch) x.fleet x.rack x.plane (addrRack (merTarget e.pk)) = qs
    have h := RouterSt.Wired.spreadOver (200 + addrRack (merTarget e.pk)) qs r
    generalize r.spreadOver _ _ = z at h
    obtain ⟨_ | q, r1⟩ := z
    · cases qs with
      | nil => exact h.trans ((RouterSt.Wired.leave ..).trans (.merDrop ..))
      | cons q qs => exact h.trans (.push ..)
    · exact h.trans (.merOffer ..)
theorem RouterSt.Wired.merSink (e : Queued) (r : RouterSt) : r.Wired (r.merSink e) := by
  unfold RouterSt.merSink
  dsimp only
  exact .ite ((RouterSt.Wired.leave ..).trans (.of_ports rfl fun _ h => h)) ((RouterSt.Wired.leave ..).trans (.merCount ..))
theorem RouterSt.Wired.count (r : RouterSt) : r.Wired r.count := .of_ports rfl fun _ h => h
theorem RouterSt.Wired.merArrive (x : MerCtx) (inp : Nat) (pk : Packet) (r : RouterSt) : r.Wired (r.merArrive x inp pk) := by
  have hd (e : Queued) (d : Drop) : r.Wired ((r.count.leave e).merDrop d) := (RouterSt.Wired.count r).trans ((RouterSt.Wired.leave ..).trans (.merDrop ..))
  unfold RouterSt.merArrive
  dsimp only
  refine .ite (hd _ _) (.ite (hd _ _) (.ite ((RouterSt.Wired.count r).trans (.merSink ..)) (.ite (hd _ _) ?_)))
  split
  · exact (RouterSt.Wired.count r).trans (.merOffer ..)
  · exact (RouterSt.Wired.count r).trans (.merRoute ..)
theorem RouterSt.Wired.merRequeue (x : MerCtx) (q : Nat) (r : RouterSt) : r.Wired (r.merRequeue x q) := by
  unfold RouterSt.merRequeue
  dsimp only
  exact (RouterSt.Wired.setPort (x := { r.port q with outQ := [] }) rfl).trans (.foldl (fun r e => .ite (.merOffer ..) (.merRoute ..)) _ _)
theorem RouterSt.Wired.merHoldDrop (q : Nat) (r : RouterSt) : r.Wired (r.merHoldDrop q) := by
  unfold RouterSt.merHoldDrop
  dsimp only
  exact (RouterSt.Wired.setPort (x := { r.port q with outQ := [] }) rfl).trans
    (.foldl (fun r e => (RouterSt.Wired.leave ..).trans (.merDrop ..)) _ _)

/-! ### A step of one port -/

/-- After a step of a port: its link, the other links, and what it sent. -/
structure Pkg.Stepped (q : Nat) (r : PortStep) (j k : Pkg) : Prop where
  link : (k.port q).link = r.1.link
  others : ∀ n, n ≠ q → (k.port n).link = (j.port n).link
  told : ∀ m ∈ j.out, m ∈ k.out
  sent : ∀ m, LinkEv.send m ∈ r.2 → m ∈ k.out
structure RouterSt.Stepped (q : Nat) (r : PortStep) (a b : RouterSt) : Prop where
  link : (b.port q).link = r.1.link
  told : ∀ m ∈ a.out, m ∈ b.out
  sent : ∀ m, LinkEv.send m ∈ r.2 → m ∈ b.out
variable {r : PortStep}
theorem Pkg.Stepped.trans (h : i.Stepped q r j) (h' : j.Wired k) : i.Stepped q r k :=
  ⟨(h'.link q).trans h.link, fun n hn => (h'.link n).trans (h.others n hn), fun m hm => h'.told m (h.told m hm), fun m hm => h'.told m (h.sent m hm)⟩
theorem RouterSt.Stepped.trans (h : a.Stepped q r b) (h' : b.Wired c) : a.Stepped q r c :=
  ⟨(h'.link q).trans h.link, fun m hm => h'.told m (h.told m hm), fun m hm => h'.told m (h.sent m hm)⟩

theorem Pkg.Wired.linkEv (now q : Nat) (e : LinkEv) (k : Pkg) : k.Wired (k.linkEv now q e) := by
  cases e with
  | crc => exact .raise ..
  | failedReplay => exact .raise ..
  | fastRetrain => exact .raise ..
  | down => exact .raise ..
  | wiring r x => exact (Pkg.Wired.raise ..).trans (.emit ..)
  | back => exact .emit ..
  | send m => exact .emit ..
/-- What events of a port have sent stands after the rest of them. -/
theorem Pkg.linkEvs_sent (now q : Nat) (m : Msg) (l : List LinkEv) :
    ∀ k : Pkg, LinkEv.send m ∈ l → m ∈ (l.foldl (fun k e => k.linkEv now q e) k).out := by
  induction l with
  | nil => exact fun _ h => absurd h List.not_mem_nil
  | cons e l ih =>
    intro k h
    rw [List.foldl_cons]
    rcases List.mem_cons.1 h with h | h
    · refine (Pkg.Wired.foldl (fun k e => .linkEv now q e k) l _).told m ?_
      rw [← h]
      exact List.mem_append_right _ (List.mem_singleton_self m)
    · exact ih _ h
theorem Pkg.linkStep_stepped (now q : Nat) (r : PortStep) (k : Pkg) : k.Stepped q r (k.linkStep now q r) := by
  have h := Pkg.Wired.foldl (fun k e => .linkEv now q e k) r.2 (k.setPort q r.1)
  refine ⟨(h.link q).trans (by rw [Pkg.port_setPort_same]), fun n hn => (h.link n).trans (by rw [Pkg.port_setPort_ne hn]), h.told,
    fun m hm => Pkg.linkEvs_sent now q m r.2 _ hm⟩
theorem Pkg.portDo_stepped (now q : Nat) (f : PortSt → PortStep) (k : Pkg) : k.Stepped q (f (k.port q)) (k.portDo now q f) := by
  have h := k.linkStep_stepped now q (f (k.port q))
  unfold Pkg.portDo
  dsimp only
  split
  · exact h.trans (.moveToFallback ..)
  · exact h
theorem RouterSt.linkStep_stepped (q : Nat) (r : PortStep) (m : RouterSt) : m.Stepped q r (m.linkStep q r) := by
  refine ⟨?_, fun _ h => List.mem_append_left _ h, fun x hx => List.mem_append_right _ (List.mem_filterMap.2 ⟨_, hx, rfl⟩)⟩
  exact congrArg PortSt.link (RouterSt.port_setPort_same ..)
theorem RouterSt.merPortDo_stepped (x : MerCtx) (q : Nat) (f : PortSt → PortStep) (m : RouterSt) :
    m.Stepped q (f (m.port q)) (m.merPortDo x q f) := by
  have h := m.linkStep_stepped q (f (m.port q))
  unfold RouterSt.merPortDo
  dsimp only
  split
  · exact h.trans (.merRequeue ..)
  · exact h

end Sys2Proof.Machine
end

section
/-! PROOF. Obligation O24: replay, retraining and loss of a link (R142–R144). -/
namespace Sys2Proof.Machine
open Sys2Proof

variable {s t : State} {l : LinkId} {x y z : PortSt} {now q : Nat}

/-! ### A command on a link -/

/-- Two ports with the same link. -/
def PortSt.SameLink (y z : PortSt) : Prop := y.link = z.link
theorem PortSt.SameLink.links (h : y.SameLink z) : y.link = z.link := h
section
variable (h : y.SameLink z)
include h
theorem PortSt.SameLink.state : y.state = z.state := (congrArg PortSt.state h.links :)
theorem PortSt.SameLink.identity : y.identity = z.identity := (congrArg PortSt.identity h.links :)
theorem PortSt.SameLink.retrainStarts : y.retrainStarts = z.retrainStarts := (congrArg PortSt.retrainStarts h.links :)
theorem PortSt.SameLink.crcBlocks : y.crcBlocks = z.crcBlocks := (congrArg PortSt.crcBlocks h.links :)
theorem PortSt.SameLink.downs : y.downs = z.downs := (congrArg PortSt.downs h.links :)
theorem PortSt.SameLink.txBseq : y.txBseq = z.txBseq := (congrArg PortSt.txBseq h.links :)
theorem PortSt.SameLink.replay : y.replay = z.replay := (congrArg PortSt.replay h.links :)
theorem PortSt.SameLink.replayedAt : y.replayedAt = z.replayedAt := (congrArg PortSt.replayedAt h.links :)
theorem PortSt.SameLink.sameFails : y.sameFails = z.sameFails := (congrArg PortSt.sameFails h.links :)
theorem PortSt.SameLink.allFails : y.allFails = z.allFails := (congrArg PortSt.allFails h.links :)
theorem PortSt.SameLink.rxNext : y.rxNext = z.rxNext := (congrArg PortSt.rxNext h.links :)
theorem PortSt.SameLink.rejecting : y.rejecting = z.rejecting := (congrArg PortSt.rejecting h.links :)
theorem PortSt.SameLink.txSent : y.txSent = z.txSent := (congrArg PortSt.txSent h.links :)
theorem PortSt.SameLink.txFreed : y.txFreed = z.txFreed := (congrArg PortSt.txFreed h.links :)
theorem PortSt.SameLink.stoppedAt : y.stoppedAt = z.stoppedAt := (congrArg PortSt.stoppedAt h.links :)
theorem PortSt.SameLink.training : y.training = z.training := (congrArg PortSt.training h.links :)
theorem PortSt.SameLink.trained : y.trained = z.trained := (congrArg PortSt.trained h.links :)
end

/-- The unit of a router alone is set. -/
def State.UnitSet (s t : State) (l : LinkId) : Prop :=
  match l.router with
  | .pkg p => ∃ (m : Mem) (k : Pkg), t = { s with mem := m }.setPkg p k
  | .meridian _ _ => ∃ x : RouterSt, t = s.setRouter l.router x
theorem State.router_setRouter (s : State) (r : Fin 32) (pl : Fin 4) (x : RouterSt) : (s.setRouter (.meridian r pl) x).router (.meridian r pl) = x :=
  sget_sset_same ..
/-- What both ends of a link send at training, and must receive. -/
def State.endsAt (s : State) (l : LinkId) : Ends := ⟨s.ownIdentity l, s.expectedAt l⟩
/-- A step of one port: what it leaves of the port's link, and what it sends. -/
theorem onPort_stepped (s : State) (l : LinkId) (f : Ends → PortSt → PortStep) : ∃ t, onPort l s f = .next t ∧
    (t.port l).SameLink (f (s.endsAt l) (s.port l)).1 ∧ (∀ m, LinkEv.send m ∈ (f (s.endsAt l) (s.port l)).2 → m ∈ t.sent l.router) ∧ s.UnitSet t l := by
  obtain ⟨r, q⟩ := l
  cases r with
  | pkg p =>
    have h := ((s.pkg p).portDo_stepped s.now q.val (f ((s.pkg p).ends q.val))).trans (tallySettle_wired s.now p s.mem _)
    refine ⟨_, rfl, ?_, fun m hm => ?_, _, _, rfl⟩
    · unfold State.port State.router
      dsimp only
      rw [State.pkg_setPkg_same]
      exact h.link
    · unfold State.sent
      dsimp only
      rw [State.pkg_setPkg_same]
      exact h.sent m hm
  | meridian r pl =>
    have h := (s.router (.meridian r pl)).merPortDo_stepped (s.merCtx r pl) q.val
      (f ((s.router (.meridian r pl)).ends (s.merCtx r pl) q.val))
    refine ⟨_, rfl, ?_, fun m hm => ?_, _, rfl⟩
    · unfold State.port
      dsimp only
      rw [State.router_setRouter]
      exact h.link
    · unfold State.sent
      dsimp only
      rw [State.router_setRouter]
      exact h.sent m hm
/-- A command that is a step of one port leaves the port as the step does. -/
theorem portAfter_of_step {c : Instr} {f : Ends → PortSt → PortStep} {F : PortSt → State → Prop} (hc : exec c s = onPort l s f)
    (hF : ∀ y t, y.SameLink (f (s.endsAt l) (s.port l)).1 → (∀ m, LinkEv.send m ∈ (f (s.endsAt l) (s.port l)).2 → m ∈ t.sent l.router) → F y t) :
    PortAfter c s l F := by
  obtain ⟨t, ht, hl, hs, hu⟩ := onPort_stepped s l f
  exact ⟨t, hc.trans ht, hF _ _ hl hs, hu⟩

/-! ### NAK -/

theorem PortSt.replayIndex_none {b : Byte} (h : ∀ e ∈ x.replay, e.bseq ≠ b) : x.replayIndex b = none := by
  unfold PortSt.replayIndex
  rw [List.findIdx?_eq_none_iff]
  intro e he
  simpa using h e he
theorem PortSt.replayIndex_some {b : Byte} (h : ∃ e ∈ x.replay, e.bseq = b) : ∃ n, x.replayIndex b = some n ∧
    x.replay.drop n = x.replay.dropWhile (fun e => e.bseq ≠ b) ∧ (n = 0 ↔ x.replay.head?.map (·.bseq) = some b) := by
  unfold PortSt.replayIndex
  generalize x.replay = l at h
  induction l with
  | nil => obtain ⟨e, he, _⟩ := h; exact absurd he List.not_mem_nil
  | cons a l ih =>
    by_cases ha : a.bseq = b
    · refine ⟨0, by rw [List.findIdx?_cons, if_pos (by simp [ha])], ?_, ?_⟩
      · rw [List.dropWhile_cons, if_neg (by simp [ha]), List.drop_zero]
      · simp [ha]
    · obtain ⟨e, he, hb⟩ := h
      rcases List.mem_cons.1 he with rfl | he
      · exact absurd hb ha
      obtain ⟨n, h1, h2, _⟩ := ih ⟨e, he, hb⟩
      refine ⟨n + 1, ?_, ?_, ?_⟩
      · rw [List.findIdx?_cons, if_neg (by simp [ha]), h1]
        rfl
      · rw [List.dropWhile_cons, if_pos (by simp [ha]), List.drop_succ_cons, h2]
      · simp [ha]
/-- The first block of the replay buffer, where it has been replayed already. -/
theorem PortSt.replayIndex_zero {b : Byte} (h : x.replay.head?.map (·.bseq) = some b) : x.replayIndex b = some 0 := by
  have hb : ∃ e ∈ x.replay, e.bseq = b := by
    cases hr : x.replay with
    | nil => rw [hr] at h; cases h
    | cons e l => rw [hr] at h; exact ⟨e, List.mem_cons_self, Option.some.inj h⟩
  obtain ⟨n, h1, _, h3⟩ := PortSt.replayIndex_some hb
  rw [h1, h3.2 h]
theorem PortSt.passed_zero (x : PortSt) : x.passed 0 = x := if_pos rfl
theorem PortSt.nak_absent {b : Byte} (h : ∀ e ∈ x.replay, e.bseq ≠ b) : x.nak now q b = ({ x with castTold := [] }, []) := by
  unfold PortSt.nak
  rw [PortSt.replayIndex_none h]
/-- The port at a NAK of the first block of its replay buffer, replayed already. -/
def PortSt.failed (x : PortSt) : PortSt :=
  { x with castTold := [], sameFails := x.sameFails + 1, allFails := x.allFails + 1, failedReplays := satAdd 8 x.failedReplays 1 }
theorem PortSt.nak_again {b : Byte} (h : x.replay.head?.map (·.bseq) = some b) (hr : x.replayedAt = some b) : x.nak now q b =
    if 16 ≤ x.allFails + 1 then ((x.failed.declare now false).1, .failedReplay :: (x.failed.declare now false).2)
    else if 4 ≤ x.sameFails + 1 then ((x.failed.startFast now).1, .failedReplay :: (x.failed.startFast now).2)
    else ((x.failed.resend now q).1, .failedReplay :: (x.failed.resend now q).2) := by
  unfold PortSt.nak
  rw [PortSt.replayIndex_zero h]
  dsimp only
  rw [PortSt.passed_zero, if_pos hr]
  rfl
theorem PortSt.mem_resend {e : Block} (h : e ∈ x.replay) : LinkEv.send (.block q e) ∈ (x.resend now q).2 := List.mem_map.2 ⟨e, h, rfl⟩

/-! ### Fast retrains and replays -/

theorem PortSt.startFast_idle (h : x.state ≠ .active) : x.startFast now = (x, []) := if_pos h
/-- The starts of fast retrains within the last second. -/
def PortSt.recentStarts (now : Nat) (x : PortSt) : List Nat := x.retrainStarts.filter fun t => now < t + 1000000000
theorem PortSt.startFast_retrains (h : x.state = .active) (hn : (x.recentStarts now).length < 7) : x.startFast now =
    ({ x with retrainStarts := x.recentStarts now ++ [now], stoppedAt := some now, sameFails := 0, replayedAt := none, state := .retraining },
      [.fastRetrain]) := by
  unfold PortSt.startFast
  rw [if_neg (not_not.2 h)]
  refine if_neg ?_
  rw [List.length_append, List.length_singleton]
  change ¬ 8 ≤ (x.recentStarts now).length + 1
  omega
theorem PortSt.startFast_declares (h : x.state = .active) (hn : 7 ≤ (x.recentStarts now).length) : x.startFast now =
    { x with retrainStarts := x.recentStarts now ++ [now], stoppedAt := some now, sameFails := 0, replayedAt := none }.declare now false := by
  unfold PortSt.startFast
  rw [if_neg (not_not.2 h)]
  refine if_pos ?_
  rw [List.length_append, List.length_singleton]
  change 8 ≤ (x.recentStarts now).length + 1
  omega
theorem PortSt.replayTimeout_due {b : Block} {bs : List Block} {t : Nat} {ts : List Nat} (hr : x.replay = b :: bs) (ht : x.sentAt = t :: ts)
    (ha : x.state = .active) (hl : t + 1000 ≤ now) : x.replayTimeout now q =
      { x with replayedAt := some b.bseq, sameFails := if x.replayedAt = some b.bseq then x.sameFails else 0 }.resend now q := by
  unfold PortSt.replayTimeout
  rw [hr, ht]
  dsimp only
  rw [if_pos ⟨ha, hl⟩]
theorem PortSt.replayTimeout_early (h : x.replay = [] ∨ x.state ≠ .active ∨ ∃ t ts, x.sentAt = t :: ts ∧ now < t + 1000) :
    x.replayTimeout now q = (x, []) := by
  unfold PortSt.replayTimeout
  split
  next b bs t ts hr ht =>
    refine if_neg fun ⟨ha, hl⟩ => ?_
    rcases h with h | h | ⟨t', ts', h, hn⟩
    · rw [h] at hr; cases hr
    · exact h ha
    · rw [h] at ht
      cases ht
      omega
  next => rfl

theorem exec_nak (b : Byte) : exec (.nak l b) s = onPort l s fun _ x => x.nak s.now l.port.val b := rfl
theorem exec_laneLockLoss : exec (.laneLockLoss l) s = onPort l s fun _ x => x.startFast s.now := rfl
theorem exec_replayTimeout : exec (.replayTimeout l) s = onPort l s fun _ x => x.replayTimeout s.now l.port.val := rfl

/-- Settles O24: each case of the port's step, and the port keeps its link through what the step entails. -/
theorem linkFailures : Obligations.LinkFailures := by
  intro s l x recent down again sends
  refine ⟨fun b h => ?_, fun b h hr => ?_, fun b ⟨h1, h2⟩ hs ha => ?_, fun b ⟨h1, h2⟩ hs ha hst hn => ?_, fun b ⟨h1, h2⟩ ha => ?_,
    fun hst hn => ?_, fun hst hn => ?_, fun hst => ?_, fun b bs at_ rest hr ht hst hl => ?_, fun h => ?_⟩
  · refine portAfter_of_step (exec_nak b) fun y t hy _ => ?_
    rw [PortSt.nak_absent h] at hy
    exact ⟨hy.state, hy.replay⟩
  · obtain ⟨n, h1, h2, h3⟩ := PortSt.replayIndex_some h
    have hn : x.nak s.now l.port.val b = { { x.passed n with castTold := [] } with replayedAt := some b, sameFails := 0 }.resend s.now l.port.val := by
      unfold PortSt.nak
      rw [h1]
      dsimp only
      rw [if_neg]
      intro e
      refine hr (Eq.trans ?_ e)
      by_cases hz : n = 0
      · rw [hz, PortSt.passed_zero]
      · unfold PortSt.passed at e
        rw [if_neg hz] at e
        cases e
    have hp : (x.passed n).state = x.state ∧ (x.passed n).replay = x.replay.drop n ∧ (x.passed n).allFails = if n = 0 then x.allFails else 0 := by
      unfold PortSt.passed
      split
      next hz => rw [hz]; exact ⟨rfl, rfl, rfl⟩
      next => exact ⟨rfl, rfl, rfl⟩
    obtain ⟨p1, p2, p3⟩ := hp
    refine portAfter_of_step (exec_nak b) fun y t hy hsend => ?_
    rw [show (s.port l).nak s.now l.port.val b = _ from hn] at hy hsend
    refine ⟨hy.state.trans p1, hy.replay.trans (p2.trans h2), hy.replayedAt, hy.sameFails, hy.allFails.trans (p3.trans ?_), fun e he => hsend _ ?_⟩
    · simp only [h3]
    · exact PortSt.mem_resend (hy.replay ▸ he)
  · refine portAfter_of_step (exec_nak b) fun y t hy hsend => ?_
    rw [PortSt.nak_again h1 h2, if_neg (by change ¬ 16 ≤ x.allFails + 1; omega), if_neg (by change ¬ 4 ≤ x.sameFails + 1; omega)] at hy hsend
    exact ⟨hy.state, hy.sameFails, hy.allFails, hy.replay, fun e he => hsend _ (List.mem_cons_of_mem _ (PortSt.mem_resend he))⟩
  · refine portAfter_of_step (exec_nak b) fun y t hy _ => ?_
    rw [PortSt.nak_again h1 h2, if_neg (by change ¬ 16 ≤ x.allFails + 1; omega), if_pos (by change 4 ≤ x.sameFails + 1; omega),
      PortSt.startFast_retrains (x := (s.port l).failed) hst hn] at hy
    exact ⟨hy.state, hy.stoppedAt⟩
  · refine portAfter_of_step (exec_nak b) fun y t hy _ => ?_
    rw [PortSt.nak_again h1 h2, if_pos (by change 16 ≤ x.allFails + 1; omega)] at hy
    exact ⟨hy.state, hy.downs, hy.replay, hy.training⟩
  · refine portAfter_of_step exec_laneLockLoss fun y t hy _ => ?_
    rw [PortSt.startFast_retrains hst hn] at hy
    exact ⟨hy.state, hy.replay, hy.retrainStarts, hy.downs⟩
  · refine portAfter_of_step exec_laneLockLoss fun y t hy _ => ?_
    rw [PortSt.startFast_declares hst hn] at hy
    exact ⟨hy.state, hy.downs, hy.replay, hy.training⟩
  · refine portAfter_of_step exec_laneLockLoss fun y t hy _ => ?_
    rw [PortSt.startFast_idle hst] at hy
    exact ⟨hy.state, hy.replay⟩
  · refine portAfter_of_step exec_replayTimeout fun y t hy hsend => ?_
    rw [PortSt.replayTimeout_due hr ht hst hl] at hy hsend
    exact ⟨hy.state.trans hst, hy.replay, hy.replayedAt, fun e he => hsend _ (PortSt.mem_resend he)⟩
  · refine portAfter_of_step exec_replayTimeout fun y t hy _ => ?_
    rw [PortSt.replayTimeout_early h] at hy
    exact ⟨hy.state, hy.replay, hy.replayedAt⟩

end Sys2Proof.Machine
end

section
/-! PROOF. Obligation O25: training of a link (R26, R143–R145, R166). -/
namespace Sys2Proof.Machine
open Sys2Proof

variable {s t : State} {l : LinkId} {x y z : PortSt} {now q : Nat} {e : Ends} {i : Word}

/-! ### The end of a fast retrain -/

theorem PortSt.fastEnd_idle (h : x.state ≠ .retraining) : x.fastEnd now q i e = (x, []) := if_pos h
/-- A fast retrain ends with the right identity, before the replay buffer is sent again. -/
def PortSt.resumed (i : Word) (x : PortSt) : PortSt :=
  { x with identity := i, state := .active, stoppedAt := none, sameFails := 0, replayedAt := none, rejecting := false }
theorem PortSt.fastEnd_right (h : x.state = .retraining) (hi : e.peer = some i) : x.fastEnd now q i e =
    (((x.resumed i).resend now q).1, .send (.identity q e.own) :: .back :: ((x.resumed i).resend now q).2) := by
  unfold PortSt.fastEnd
  rw [if_neg (not_not.2 h)]
  exact if_neg (not_not.2 hi)
theorem PortSt.fastEnd_wrong (h : x.state = .retraining) (hi : e.peer ≠ some i) : x.fastEnd now q i e =
    (({ x with identity := i }.declare now true).1,
      .send (.identity q e.own) :: ({ x with identity := i }.declare now true).2 ++ [.wiring i (e.peer.getD 0)]) := by
  unfold PortSt.fastEnd
  rw [if_neg (not_not.2 h)]
  exact if_pos hi
theorem PortSt.fastTimeout_late {t : Nat} (h : x.state = .retraining) (hs : x.stoppedAt = some t) (hl : t + 1200000 ≤ now) :
    x.fastTimeout now = x.declare now false := if_pos ⟨h, by rw [hs]; exact hl⟩
theorem PortSt.fastTimeout_early {t : Nat} (h : x.state ≠ .retraining ∨ (x.stoppedAt = some t ∧ now < t + 1200000)) : x.fastTimeout now = (x, []) := by
  refine if_neg fun ⟨h1, h2⟩ => ?_
  rcases h with h | ⟨hs, hl⟩
  · exact h h1
  · rw [hs] at h2
    exact absurd h2 (Nat.not_le.2 hl)

/-! ### The end of full training -/

theorem PortSt.fullEnd_idle {ok : Bool} (h : x.training = false) : x.fullEnd now q ok i e = (x, []) := if_pos (by rw [h]; rfl)
theorem PortSt.fullEnd_failed (h : x.training = true) : x.fullEnd now q false i e =
    (if x.state = .training then { x with training := false, state := .down, stoppedAt := some (x.stoppedAt.getD now) } else { x with training := false },
      []) := by
  unfold PortSt.fullEnd
  rw [if_neg (by rw [h]; exact Bool.false_ne_true)]
  rfl
theorem PortSt.fullEnd_right (h : x.training = true) (hi : e.peer = some i) : x.fullEnd now q true i e =
    if x.state = .peerDark then ({ x with training := false, identity := i, trained := true }, [.send (.identity q e.own)])
    else ({ ({ x with training := false, identity := i } : PortSt).freshLink with state := .active, stoppedAt := none },
      [.send (.identity q e.own), .back, .send (.notice q 2)]) := by
  unfold PortSt.fullEnd
  rw [if_neg (by rw [h]; exact Bool.false_ne_true)]
  exact if_neg (not_not.2 hi)
/-- A port that full training has shown a wrong identity. -/
def PortSt.misread (i : Word) (x : PortSt) : PortSt := { x with training := false, identity := i }
theorem PortSt.fullEnd_wrong (h : x.training = true) (hi : e.peer ≠ some i) : x.fullEnd now q true i e =
    if x.state = .peerDark then ({ x.misread i with trained := false }, [.send (.identity q e.own), .wiring i (e.peer.getD 0)])
    else if x.state = .down ∨ x.state = .miswired then
      ({ x.misread i with state := .miswired }, [.send (.identity q e.own), .wiring i (e.peer.getD 0)])
    else (((x.misread i).declare now true).1, .send (.identity q e.own) :: ((x.misread i).declare now true).2 ++ [.wiring i (e.peer.getD 0)]) := by
  unfold PortSt.fullEnd
  rw [if_neg (by rw [h]; exact Bool.false_ne_true)]
  exact if_pos hi

/-! ### Retries -/

theorem PortSt.retry_due (h : x.state = .down ∨ x.state = .miswired ∨ (x.state = .peerDark ∧ x.trained = false)) :
    x.retry = ({ x with training := true }, []) := if_pos h
theorem PortSt.retry_idle (h1 : x.state ≠ .down) (h2 : x.state ≠ .miswired) (h3 : x.state = .peerDark → x.trained = true) : x.retry = (x, []) := by
  refine if_neg fun h => ?_
  rcases h with h | h | ⟨h, ht⟩
  · exact h1 h
  · exact h2 h
  · rw [h3 h] at ht; cases ht

theorem exec_fastRetrainEnd (i : Word) : exec (.fastRetrainEnd l i) s = onPort l s fun e x => x.fastEnd s.now l.port.val i e := rfl
theorem exec_fastRetrainTimeout : exec (.fastRetrainTimeout l) s = onPort l s fun _ x => x.fastTimeout s.now := rfl
theorem exec_fullTrainingEnd (ok : Bool) (i : Word) : exec (.fullTrainingEnd l ok i) s = onPort l s fun e x => x.fullEnd s.now l.port.val ok i e := rfl
theorem exec_trainingRetry : exec (.trainingRetry l) s = onPort l s fun _ x => x.retry := rfl

/-- Settles O25: each case of the port's step by the identity that its peer must send. -/
theorem linkTraining : Obligations.LinkTraining := by
  intro s l x keeps told miswired
  refine ⟨fun i h => ?_, fun i h hi => ?_, fun i h hi => ?_, fun t0 h hs hl => ?_, fun t0 h => ?_, fun ok i h => ?_,
    fun i h hi => ⟨fun hd => ?_, fun hd => ?_⟩, fun i h hi => ?_, fun i h hn => ?_, fun i h ht => ?_, fun h => ?_, fun h1 h2 h3 => ?_⟩
  · refine portAfter_of_step (exec_fastRetrainEnd i) fun y t hy _ => ?_
    rw [PortSt.fastEnd_idle h] at hy
    exact ⟨hy.state, hy.identity, hy.training⟩
  · refine portAfter_of_step (exec_fastRetrainEnd i) fun y t hy hsend => ?_
    rw [PortSt.fastEnd_right h (show (s.endsAt l).peer = some i from hi)] at hy hsend
    exact ⟨hy.state, hy.identity, hy.stoppedAt, hsend _ List.mem_cons_self,
      fun b hb => hsend _ (List.mem_cons_of_mem _ (List.mem_cons_of_mem _ (PortSt.mem_resend hb)))⟩
  · refine portAfter_of_step (exec_fastRetrainEnd i) fun y t hy hsend => ?_
    rw [PortSt.fastEnd_wrong h (show (s.endsAt l).peer ≠ some i from hi)] at hy hsend
    exact ⟨⟨hy.state, hy.identity, hy.replay, hy.training, hy.downs⟩, hsend _ List.mem_cons_self⟩
  · refine portAfter_of_step exec_fastRetrainTimeout fun y t hy _ => ?_
    rw [PortSt.fastTimeout_late h hs hl] at hy
    exact ⟨hy.state, hy.downs, hy.training⟩
  · refine portAfter_of_step exec_fastRetrainTimeout fun y t hy _ => ?_
    rw [PortSt.fastTimeout_early h] at hy
    exact ⟨hy.state, hy.identity, hy.training⟩
  · refine portAfter_of_step (exec_fullTrainingEnd ok i) fun y t hy _ => ?_
    rw [PortSt.fullEnd_idle h] at hy
    exact ⟨hy.state, hy.identity, hy.training⟩
  · refine portAfter_of_step (exec_fullTrainingEnd true i) fun y t hy hsend => ?_
    rw [PortSt.fullEnd_right h (show (s.endsAt l).peer = some i from hi), if_neg hd] at hy hsend
    exact ⟨hy.state, hy.identity, hy.training, hy.txBseq, hy.rxNext, hy.replay, hy.txSent, hy.txFreed, hsend _ List.mem_cons_self,
      hsend _ (by simp)⟩
  · refine portAfter_of_step (exec_fullTrainingEnd true i) fun y t hy hsend => ?_
    rw [PortSt.fullEnd_right h (show (s.endsAt l).peer = some i from hi), if_pos hd] at hy hsend
    exact ⟨hy.state.trans hd, hy.training, hy.trained, hsend _ List.mem_cons_self⟩
  · refine portAfter_of_step (exec_fullTrainingEnd true i) fun y t hy hsend => ?_
    rw [PortSt.fullEnd_wrong h (show (s.endsAt l).peer ≠ some i from hi)] at hy hsend
    by_cases hd : x.state = .peerDark
    · rw [if_pos hd] at hy hsend
      have hst : y.state = .peerDark := hy.state.trans hd
      exact ⟨hsend _ List.mem_cons_self, fun _ => ⟨hst, hy.trained, hy.training⟩, fun h => (by rw [hd] at h; rcases h with h | h <;> cases h),
        fun h => absurd hd h⟩
    by_cases hw : x.state = .down ∨ x.state = .miswired
    · rw [if_neg hd, if_pos hw] at hy hsend
      exact ⟨hsend _ List.mem_cons_self, fun h => absurd h hd, fun _ => ⟨hy.state, hy.identity, hy.training⟩,
        fun _ h1 h2 => (hw.elim h1 h2).elim⟩
    · rw [if_neg hd, if_neg hw] at hy hsend
      exact ⟨hsend _ List.mem_cons_self, fun h => absurd h hd, fun h => absurd h hw,
        fun _ _ _ => ⟨hy.state, hy.identity, hy.replay, hy.training, hy.downs⟩⟩
  · refine portAfter_of_step (exec_fullTrainingEnd false i) fun y t hy _ => ?_
    rw [PortSt.fullEnd_failed h, if_neg hn] at hy
    exact ⟨hy.state, hy.identity, hy.training⟩
  · refine portAfter_of_step (exec_fullTrainingEnd false i) fun y t hy _ => ?_
    rw [PortSt.fullEnd_failed h, if_pos ht] at hy
    exact ⟨hy.state, hy.training⟩
  · refine portAfter_of_step exec_trainingRetry fun y t hy _ => ?_
    rw [PortSt.retry_due h] at hy
    exact ⟨hy.state, hy.training⟩
  · refine portAfter_of_step exec_trainingRetry fun y t hy _ => ?_
    rw [PortSt.retry_idle h1 h2 h3] at hy
    exact ⟨hy.state, hy.identity, hy.training⟩

end Sys2Proof.Machine
end

section
/-! PROOF. Obligation O26: notices, parking and blocks of a link, and the requests of FAB_PORT_CTRL (R77, R142, R165, R166). -/
namespace Sys2Proof.Machine
open Sys2Proof

variable {s t : State} {l : LinkId} {x y z : PortSt} {now q : Nat} {k : Pkg} {m : RouterSt} {p : PkgId} {who : Requester}

/-! ### Commands that are more than one step -/

/-- A step that a unit takes at one of its ports, whatever else it does. -/
theorem portAfter_of_unit {c : Instr} {r : PortStep} {F : PortSt → State → Prop}
    (hp : ∀ p, l.router = .pkg p → ∃ (m : Mem) (k : Pkg), exec c s = .next ({ s with mem := m }.setPkg p k) ∧ (s.pkg p).Stepped l.port.val r k)
    (hm : ∀ a b, l.router = .meridian a b → ∃ x : RouterSt, exec c s = .next (s.setRouter (.meridian a b) x) ∧
      (s.router (.meridian a b)).Stepped l.port.val r x)
    (hF : ∀ y t, y.SameLink r.1 → (∀ m, LinkEv.send m ∈ r.2 → m ∈ t.sent l.router) → F y t) : PortAfter c s l F := by
  obtain ⟨id, q⟩ := l
  cases id with
  | pkg p =>
    obtain ⟨m, k, hc, h⟩ := hp p rfl
    refine ⟨_, hc, hF _ _ ?_ fun e he => ?_, m, k, rfl⟩
    · unfold State.port State.router
      dsimp only
      rw [State.pkg_setPkg_same]
      exact h.link
    · unfold State.sent
      dsimp only
      rw [State.pkg_setPkg_same]
      exact h.sent e he
  | meridian a b =>
    obtain ⟨x, hc, h⟩ := hm a b rfl
    refine ⟨_, hc, hF _ _ ?_ fun e he => ?_, x, rfl⟩
    · unfold State.port
      dsimp only
      rw [State.router_setRouter]
      exact h.link
    · unfold State.sent
      dsimp only
      rw [State.router_setRouter]
      exact h.sent e he
theorem Pkg.Stepped.of_setPort (k : Pkg) (q : Nat) (x : PortSt) : k.Stepped q (x, []) (k.setPort q x) :=
  ⟨by rw [Pkg.port_setPort_same], fun n hn => by rw [Pkg.port_setPort_ne hn], fun _ h => h, fun _ h => absurd h List.not_mem_nil⟩
theorem Pkg.Stepped.refl (q : Nat) (k : Pkg) : k.Stepped q (k.port q, []) k :=
  ⟨rfl, fun _ _ => rfl, fun _ h => h, fun _ h => absurd h List.not_mem_nil⟩
theorem RouterSt.Stepped.of_setPort (m : RouterSt) (q : Nat) (x : PortSt) : m.Stepped q (x, []) (m.setPort q x) :=
  ⟨by rw [RouterSt.port_setPort_same], fun _ h => h, fun _ h => absurd h List.not_mem_nil⟩
theorem RouterSt.Stepped.refl (q : Nat) (m : RouterSt) : m.Stepped q (m.port q, []) m := ⟨rfl, fun _ h => h, fun _ h => absurd h List.not_mem_nil⟩
theorem Pkg.Stepped.ite {c : Prop} [Decidable c] {i j : Pkg} {r : PortStep} (h : k.Stepped q r i) (h' : k.Stepped q r j) :
    k.Stepped q r (if c then i else j) := by split <;> assumption
theorem RouterSt.Stepped.ite {c : Prop} [Decidable c] {a b : RouterSt} {r : PortStep} (h : m.Stepped q r a) (h' : m.Stepped q r b) :
    m.Stepped q r (if c then a else b) := by split <;> assumption

/-! ### Notices -/

theorem Pkg.Darkened.wired {j : Pkg} (h : j.Darkened k) (hd : k.dark = j.dark) : j.Wired k :=
  .of_rt (by rw [h.rest]) h.told (by rw [h.rest]) hd
theorem Pkg.Wired.loseLent (lender : Nat) (k : Pkg) : k.Wired (k.loseLent lender) := (Pkg.loseLent_darkened ..).wired (Pkg.loseSegs_dark ..)
theorem Pkg.goingDark_stepped (now q : Nat) (k : Pkg) : k.Stepped q ((k.port q).darken, []) (k.goingDark now q) := by
  have h := (Pkg.Stepped.of_setPort k q (k.port q).darken).trans (.moveToFallback now q _)
  unfold Pkg.goingDark
  dsimp only
  split
  · exact h.trans (.loseLent ..)
  · exact h
theorem RouterSt.darken_stepped (c : MerCtx) (q : Nat) (m : RouterSt) : m.Stepped q ((m.port q).darken, []) (m.darken c q) :=
  (RouterSt.Stepped.of_setPort m q (m.port q).darken).trans (.merRequeue ..)
/-- The step that a port takes at the end of its hold time. -/
def PortSt.holdEnd (x : PortSt) : PortSt := if x.state = .parked then { x with state := .down, training := true } else x
theorem Pkg.holdExpiry_early (h : ∀ t, (k.port q).stoppedAt = some t → now < t + k.holdNs) : k.holdExpiry now q = k := by
  unfold Pkg.holdExpiry
  split
  · rfl
  next t ht => exact if_pos (h t ht)
theorem RouterSt.merHoldExpiry_early {c : MerCtx} (h : ∀ t, (m.port q).stoppedAt = some t → now < t + 2000000) : m.merHoldExpiry c now q = m := by
  unfold RouterSt.merHoldExpiry
  split
  · rfl
  next t ht => exact if_pos (h t ht)
theorem Pkg.holdExpiry_late {t : Nat} (ht : (k.port q).stoppedAt = some t) (hl : t + k.holdNs ≤ now) :
    k.Stepped q ((k.port q).holdEnd, []) (k.holdExpiry now q) := by
  have h1 : k.Stepped q ((k.port q).holdEnd, []) (if (k.port q).state = .parked then
      (k.setPort q { k.port q with state := .down, training := true }).moveToFallback now q else k) := by
    unfold PortSt.holdEnd
    split
    · exact (Pkg.Stepped.of_setPort ..).trans (.moveToFallback ..)
    · exact .refl q k
  unfold Pkg.holdExpiry
  rw [ht]
  dsimp only
  rw [if_neg (Nat.not_lt.2 hl)]
  exact .ite (h1.trans (.holdDrop ..)) h1
theorem RouterSt.merHoldExpiry_late {c : MerCtx} {t : Nat} (ht : (m.port q).stoppedAt = some t) (hl : t + 2000000 ≤ now) :
    m.Stepped q ((m.port q).holdEnd, []) (m.merHoldExpiry c now q) := by
  have h1 : m.Stepped q ((m.port q).holdEnd, []) (if (m.port q).state = .parked then
      (m.setPort q { m.port q with state := .down, training := true }).merRequeue c q else m) := by
    unfold PortSt.holdEnd
    split
    · exact (RouterSt.Stepped.of_setPort ..).trans (.merRequeue ..)
    · exact .refl q m
  unfold RouterSt.merHoldExpiry
  rw [ht]
  dsimp only
  rw [if_neg (show ¬ now < t + merHoldNs from Nat.not_lt.2 hl)]
  exact .ite (h1.trans (.merHoldDrop ..)) h1
theorem Pkg.linkResume_stepped (now q : Nat) (k : Pkg) :
    k.Stepped q (k.port q).resume (if (k.port q).state = .parked then (k.portDo now q PortSt.resume).awake else k) := by
  split
  · exact (Pkg.portDo_stepped now q PortSt.resume k).trans (.ite (.put ..) (.refl _))
  next h => rw [PortSt.resume, if_neg h]; exact .refl q k

/-! ### Blocks -/

/-- What a package does at a block whose notices do not act. -/
def Pkg.takeBlock (now q : Nat) (b : Block) (ok : Bool) (k : Pkg) : Pkg :=
  let r := (k.port q).receive now q b ok
  let k1 := k.linkStep now q (r.1, r.2.1)
  let k2 := if portDown (k1.port q).state ∧ !portDown (k.port q).state then k1.moveToFallback now q else k1
  r.2.2.foldl (fun k pk => k.arrive now q pk) k2
def RouterSt.takeBlock (c : MerCtx) (now q : Nat) (b : Block) (ok : Bool) (m : RouterSt) : RouterSt :=
  let r := (m.port q).receive now q b ok
  let m1 := m.linkStep q (r.1, r.2.1)
  let m2 := if portDown (m1.port q).state ∧ !portDown (m.port q).state then m1.merRequeue c q else m1
  r.2.2.foldl (fun m pk => m.merArrive c q pk) m2
theorem Pkg.takeBlock_stepped (now q : Nat) (b : Block) (ok : Bool) (k : Pkg) :
    k.Stepped q (((k.port q).receive now q b ok).1, ((k.port q).receive now q b ok).2.1) (k.takeBlock now q b ok) := by
  have h := k.linkStep_stepped now q (((k.port q).receive now q b ok).1, ((k.port q).receive now q b ok).2.1)
  exact (Pkg.Stepped.ite (h.trans (.moveToFallback ..)) h).trans (.foldl (fun k pk => .arrive ..) _ _)
theorem RouterSt.takeBlock_stepped (c : MerCtx) (now q : Nat) (b : Block) (ok : Bool) (m : RouterSt) :
    m.Stepped q (((m.port q).receive now q b ok).1, ((m.port q).receive now q b ok).2.1) (m.takeBlock c now q b ok) := by
  have h := m.linkStep_stepped q (((m.port q).receive now q b ok).1, ((m.port q).receive now q b ok).2.1)
  exact (RouterSt.Stepped.ite (h.trans (.merRequeue ..)) h).trans (.foldl (fun m pk => .merArrive ..) _ _)
theorem execBlockReceive_pkg {q : Fin 288} (b : Block) (ok : Bool) : exec (.blockReceive ⟨.pkg p, q⟩ b ok) s = onPkgMem p s fun mem k =>
    tallySettle s.now p mem (if (k.port q.val).discards b ok then k.takeBlock s.now q.val b ok
      else (k.takeBlock s.now q.val b ok).blockFlags s.now q.val b) := rfl
theorem execBlockReceive_meridian {r : Fin 32} {pl : Fin 4} {q : Fin 288} (b : Block) (ok : Bool) :
    exec (.blockReceive ⟨.meridian r pl, q⟩ b ok) s = .next (s.setRouter (.meridian r pl)
      (if ((s.router (.meridian r pl)).port q.val).discards b ok then (s.router (.meridian r pl)).takeBlock (s.merCtx r pl) s.now q.val b ok
        else ((s.router (.meridian r pl)).takeBlock (s.merCtx r pl) s.now q.val b ok).blockFlags (s.merCtx r pl) q.val b)) := rfl
/-- A block without notices, or one that is discarded, is a step of its port. -/
theorem portAfter_of_block {b : Block} {ok : Bool} {F : PortSt → State → Prop}
    (hb : (s.port l).discards b ok = true ∨ (b.goingDark = false ∧ b.moor = false ∧ b.backInService = false))
    (hF : ∀ y t, y.SameLink ((s.port l).receive s.now l.port.val b ok).1 →
      (∀ m, LinkEv.send m ∈ ((s.port l).receive s.now l.port.val b ok).2.1 → m ∈ t.sent l.router) → F y t) : PortAfter (.blockReceive l b ok) s l F := by
  refine portAfter_of_unit (r := (((s.port l).receive s.now l.port.val b ok).1, ((s.port l).receive s.now l.port.val b ok).2.1))
    (fun p hr => ?_) (fun a c hr => ?_) hF
  · obtain ⟨id, q⟩ := l
    cases hr
    have h : (s.pkg p).Stepped q.val (((s.pkg p).port q.val).receive s.now q.val b ok |> fun r => (r.1, r.2.1))
        (if ((s.pkg p).port q.val).discards b ok then (s.pkg p).takeBlock s.now q.val b ok
          else ((s.pkg p).takeBlock s.now q.val b ok).blockFlags s.now q.val b) := by
      rcases hb with hb | ⟨h1, h2, h3⟩
      · rw [if_pos (show ((s.pkg p).port q.val).discards b ok = true from hb)]
        exact Pkg.takeBlock_stepped ..
      · rw [Pkg.blockFlags, h1, h2, h3]
        exact .ite (Pkg.takeBlock_stepped ..) (Pkg.takeBlock_stepped ..)
    exact ⟨_, _, execBlockReceive_pkg b ok, h.trans (tallySettle_wired ..)⟩
  · obtain ⟨id, q⟩ := l
    cases hr
    have h : (s.router (.meridian a c)).Stepped q.val (((s.router (.meridian a c)).port q.val).receive s.now q.val b ok |> fun r => (r.1, r.2.1))
        (if ((s.router (.meridian a c)).port q.val).discards b ok then (s.router (.meridian a c)).takeBlock (s.merCtx a c) s.now q.val b ok
          else ((s.router (.meridian a c)).takeBlock (s.merCtx a c) s.now q.val b ok).blockFlags (s.merCtx a c) q.val b) := by
      rcases hb with hb | ⟨h1, h2, h3⟩
      · rw [if_pos (show ((s.router (.meridian a c)).port q.val).discards b ok = true from hb)]
        exact RouterSt.takeBlock_stepped ..
      · rw [RouterSt.blockFlags, h1, h2, h3]
        exact .ite (RouterSt.takeBlock_stepped ..) (RouterSt.takeBlock_stepped ..)
    exact ⟨_, execBlockReceive_meridian b ok, h⟩

end Sys2Proof.Machine
end

section
/-! PROOF. Obligation O26: what a port makes of a block (R142), and the requests of FAB_PORT_CTRL. -/
namespace Sys2Proof.Machine
open Sys2Proof

variable {s t : State} {l : LinkId} {x y z : PortSt} {now q : Nat} {k : Pkg} {p : PkgId} {who : Requester} {b : Block}

/-! ### Blocks at a port -/

theorem PortSt.receive_deaf {ok : Bool} (h : x.listens = false) : x.receive now q b ok = (x, [], []) := if_pos (by rw [h]; rfl)
theorem PortSt.listens_iff (x : PortSt) : x.listens = true ↔ x.state = .active ∨ x.state = .peerDark ∨ x.state = .parked := by
  simp [PortSt.listens, or_assoc]
/-- A port that has discarded a block whose CRC failed. -/
def PortSt.rejected (x : PortSt) : PortSt := { x with crcBlocks := satAdd 16 x.crcBlocks 1, rejecting := true }
theorem PortSt.receive_bad (h : x.listens = true) : x.receive now q b false =
    ((x.rejected.idle q true).1, [.crc, .send (x.rejected.idle q true).2], []) := by
  unfold PortSt.receive
  rw [h]
  rfl
theorem PortSt.receive_skipped (h : x.listens = true) (hd : x.discards b true = true) : x.receive now q b true = (x, [], []) := by
  unfold PortSt.receive
  rw [h, hd]
  rfl
/-- A port that has taken a block in order, before its acknowledgement. -/
def PortSt.taken (b : Block) (x : PortSt) : PortSt := { ({ x with rejecting := false }.takeCredits b).ack b.ackseq with rxNext := x.rxNext + 1 }
theorem PortSt.receive_taken (h : x.listens = true) (hd : x.discards b true = false) (hn : b.nak = false) (hs : b.bseq = x.rxNext)
    (hf : b.dataFlits ≠ 0) : x.receive now q b true =
      (((x.taken b).idle q false).1, [.send ((x.taken b).idle q false).2], b.packets) := by
  unfold PortSt.receive
  rw [h, hd]
  dsimp only
  rw [hn, if_neg (by decide), if_neg (by decide), if_neg Bool.false_ne_true, if_neg hf, if_neg Bool.false_ne_true, decide_eq_true hs]
  rfl
theorem PortSt.idle_link (q : Nat) (nak : Bool) (x : PortSt) : (x.idle q nak).1.link = x.link := PortSt.link_word nak x
/-- A block without data and what it acknowledges. -/
theorem PortSt.idle_block (q : Nat) (nak : Bool) (x : PortSt) : ∃ w : Block, (x.idle q nak).2 = .block q w ∧ w.nak = nak ∧ w.dataFlits = 0 ∧
    w.ackseq = if nak then x.rxNext else x.rxNext - 1 := ⟨_, rfl, rfl, rfl, rfl⟩
theorem PortSt.takeCredits_state (b : Block) (x : PortSt) : (x.takeCredits b).state = x.state ∧ (x.takeCredits b).rejecting = x.rejecting := by
  unfold PortSt.takeCredits
  exact List.foldlRecOn (motive := fun (y : PortSt) => y.state = x.state ∧ y.rejecting = x.rejecting) _ _ ⟨rfl, rfl⟩ fun y h e _ => h
theorem PortSt.ack_state (a : Byte) (x : PortSt) : (x.ack a).state = x.state ∧ (x.ack a).rejecting = x.rejecting := by
  unfold PortSt.ack PortSt.passed
  split
  · split <;> exact ⟨rfl, rfl⟩
  · exact ⟨rfl, rfl⟩
theorem PortSt.taken_spec (b : Block) (x : PortSt) : (x.taken b).state = x.state ∧ (x.taken b).rejecting = false ∧ (x.taken b).rxNext = x.rxNext + 1 := by
  obtain ⟨h1, h2⟩ := PortSt.ack_state b.ackseq ({ x with rejecting := false }.takeCredits b)
  obtain ⟨h3, h4⟩ := PortSt.takeCredits_state b { x with rejecting := false }
  exact ⟨h1.trans h3, h2.trans h4, rfl⟩

/-! ### FAB_PORT_CTRL -/

def portCtrlDesc : RegDesc := ⟨"FAB_PORT_CTRL", 0x100104, 2, 0x80000, 12, 0x10, 0x0, 0x0, 0x0, 0x0, 0x7, 0, 1⟩
/-- The register of a port's requests. -/
def portReg (q : Port) : Nat := R.FAB_PORT_CTRL (q.val / 12) (q.val % 12)
theorem portReg_spec : ∀ q : Port, portReg q < 2 ^ 24 ∧ portReg q % 4 = 0 ∧ 12 * regRow portCtrlDesc (portReg q) + regCol portCtrlDesc (portReg q) = q.val := by
  decide +kernel
theorem busWrite_FAB_PORT_CTRL (x : Bus) (q : Port) (w : Word) (m : Mem) (k : Pkg) : busWrite x portCtrlDesc (portReg q) w m k =
    tallySettle x.now x.p m ((k.storeFields portCtrlDesc (portReg q) w).portCtrl x.now q.val w.toNat) := by
  have hi : k.ignores x portCtrlDesc (portReg q) w.toNat = false := rfl
  have hr : k.rejects portCtrlDesc.base w.toNat = false := rfl
  have hq := (portReg_spec q).2.2
  unfold busWrite
  dsimp only
  rw [hi, hr, ← hq]
  rfl
theorem Pkg.portCtrl_retrain : k.portCtrl now q 1 = k.portDo now q (fun x => x.startFast now) := rfl
theorem Pkg.portCtrl_holdDown : k.portCtrl now q 2 = k.portDo now q (fun x => x.holdDown now) := rfl
theorem Pkg.portCtrl_release : k.portCtrl now q 4 = if k.unitState (208 + q) < 3 then k.portDo now q (PortSt.release k.mayTrain) else k := by
  by_cases h : k.unitState (208 + q) < 3
  · rw [if_pos h]
    unfold Pkg.portCtrl
    rw [decide_eq_true h]
    rfl
  · rw [if_neg h]
    unfold Pkg.portCtrl
    rw [decide_eq_false h]
    rfl
theorem portReg_low (q : Port) : 0x100000 ≤ portReg q := by unfold portReg R.FAB_PORT_CTRL; omega
/-- The store of the register's fields leaves the port, the state of its unit and whether it may train. -/
theorem Pkg.storeFields_port (q : Port) (d : RegDesc) (w : Word) (k : Pkg) : (k.storeFields d (portReg q) w).port = k.port ∧
    (k.storeFields d (portReg q) w).unitState (208 + q.val) = k.unitState (208 + q.val) ∧ (k.storeFields d (portReg q) w).mayTrain = k.mayTrain := by
  have hq := portReg_low q
  have hrg : ∀ o, o < 0x100000 → (k.storeFields d (portReg q) w).rg o = k.rg o := fun o ho => Pkg.rg_setRg_ne _ _ (by omega)
  refine ⟨rfl, ?_, ?_⟩
  · unfold Pkg.unitState Pkg.quarBit
    rw [hrg _ (by have := q.isLt; unfold R.FLT_QUAR; omega)]
    rfl
  · unfold Pkg.mayTrain
    rw [hrg _ (by decide)]
    rfl
/-- A request of FAB_PORT_CTRL leaves the port as its step does. -/
theorem exec_portCtrl {i : Instr} {q : Port} {w : Word} {r : PortStep} (hi : busOpOf i = some (p, writeOp who (portReg q) w))
    (hx : exec i s = busAccess i s) (ho : Open s p who (portReg q))
    (hr : ((s.pkg p).storeFields portCtrlDesc (portReg q) w).Stepped q.val r
      (((s.pkg p).storeFields portCtrlDesc (portReg q) w).portCtrl s.now q.val w.toNat)) :
    ∃ t, exec i s = .next t ∧ (t.port (p.link q)).SameLink r.1 := by
  obtain ⟨h1, h2, _⟩ := portReg_spec q
  obtain ⟨t, ht, hd, hdark⟩ := busAccess_write_grave hi ho (findReg_FAB_PORT_CTRL q) h1 h2
  have hb := busWrite_FAB_PORT_CTRL ⟨s.now, p, who, false, s.upIn p.rack, Config.freeWord s.free⟩ q w s.mem (s.pkg p)
  unfold portCtrlDesc at hb hr
  rw [hb] at hd hdark
  have h := (hr.trans (tallySettle_wired s.now p s.mem _)).trans (hd.wired hdark)
  exact ⟨t, hx.trans ht, h.link⟩

theorem exec_goingDarkNotice_pkg {q : Fin 288} : exec (.goingDarkNotice ⟨.pkg p, q⟩) s =
    onPkgMem p s fun m k => tallySettle s.now p m (k.goingDark s.now q.val) := rfl
theorem exec_holdTimeExpiry_pkg {q : Fin 288} : exec (.holdTimeExpiry ⟨.pkg p, q⟩) s =
    onPkgMem p s fun m k => tallySettle s.now p m (k.holdExpiry s.now q.val) := rfl
theorem exec_linkResume_pkg {q : Fin 288} : exec (.linkResume ⟨.pkg p, q⟩) s =
    onPkgMem p s fun m k => tallySettle s.now p m (if (k.port q.val).state = .parked then (k.portDo s.now q.val PortSt.resume).awake else k) := rfl
theorem exec_backInServiceNotice : exec (.backInServiceNotice l) s = onPort l s fun _ x => x.backInService := rfl
theorem exec_moorNotice : exec (.moorNotice l) s = onPort l s fun _ x => x.park := rfl
theorem exec_wakePatternSend : exec (.wakePatternSend l) s = onPort l s fun _ x => x.wakeSend s.now l.port.val := rfl

/-- The notice of a dark neighbour. -/
theorem portAfter_goingDark {F : PortSt → State → Prop} (hF : ∀ y t, y.SameLink (s.port l).darken → F y t) : PortAfter (.goingDarkNotice l) s l F := by
  refine portAfter_of_unit (r := ((s.port l).darken, [])) (fun p hr => ?_) (fun a c hr => ?_) fun y t hy _ => hF y t hy
  · obtain ⟨id, q⟩ := l
    cases hr
    exact ⟨_, _, exec_goingDarkNotice_pkg, (Pkg.goingDark_stepped ..).trans (tallySettle_wired ..)⟩
  · obtain ⟨id, q⟩ := l
    cases hr
    exact ⟨_, rfl, RouterSt.darken_stepped ..⟩
/-- A link that resumes. -/
theorem portAfter_linkResume {F : PortSt → State → Prop} (hF : ∀ y t, y.SameLink (s.port l).resume.1 → F y t) : PortAfter (.linkResume l) s l F := by
  refine portAfter_of_unit (r := (s.port l).resume) (fun p hr => ?_) (fun a c hr => ?_) fun y t hy _ => hF y t hy
  · obtain ⟨id, q⟩ := l
    cases hr
    exact ⟨_, _, exec_linkResume_pkg, (Pkg.linkResume_stepped ..).trans (tallySettle_wired ..)⟩
  · obtain ⟨id, q⟩ := l
    cases hr
    exact ⟨_, rfl, RouterSt.linkStep_stepped ..⟩
/-- The hold time in ns of the router at one end of a link. -/
def State.holdNsAt (s : State) (l : LinkId) : Nat :=
  match l.router with
  | .pkg p => (s.pkg p).holdNs
  | .meridian _ _ => 2000000
theorem portAfter_holdExpiry_early {F : PortSt → State → Prop} (h : ∀ t, (s.port l).stoppedAt = some t → s.now < t + s.holdNsAt l)
    (hF : ∀ y t, y.SameLink (s.port l) → F y t) : PortAfter (.holdTimeExpiry l) s l F := by
  refine portAfter_of_unit (r := (s.port l, [])) (fun p hr => ?_) (fun a c hr => ?_) fun y t hy _ => hF y t hy
  · obtain ⟨id, q⟩ := l
    cases hr
    refine ⟨_, _, exec_holdTimeExpiry_pkg, Pkg.Stepped.trans ?_ (tallySettle_wired ..)⟩
    rw [Pkg.holdExpiry_early h]
    exact .refl ..
  · obtain ⟨id, q⟩ := l
    cases hr
    refine ⟨(s.router (.meridian a c)).merHoldExpiry (s.merCtx a c) s.now q.val, rfl, ?_⟩
    rw [RouterSt.merHoldExpiry_early (m := s.router (.meridian a c)) h]
    exact .refl ..
theorem portAfter_holdExpiry_late {F : PortSt → State → Prop} {t0 : Nat} (ht : (s.port l).stoppedAt = some t0) (h : t0 + s.holdNsAt l ≤ s.now)
    (hF : ∀ y t, y.SameLink (s.port l).holdEnd → F y t) : PortAfter (.holdTimeExpiry l) s l F := by
  refine portAfter_of_unit (r := ((s.port l).holdEnd, [])) (fun p hr => ?_) (fun a c hr => ?_) fun y t hy _ => hF y t hy
  · obtain ⟨id, q⟩ := l
    cases hr
    exact ⟨_, _, exec_holdTimeExpiry_pkg, (Pkg.holdExpiry_late ht h).trans (tallySettle_wired ..)⟩
  · obtain ⟨id, q⟩ := l
    cases hr
    exact ⟨_, rfl, RouterSt.merHoldExpiry_late ht h⟩

/-- Settles O26: notices, hold times and blocks as steps of their port, and the requests of FAB_PORT_CTRL through its register. -/
theorem linkNotices : Obligations.LinkNotices := by
  intro s l x
  have hactive : x.state = .active → x.listens = true := fun h => x.listens_iff.2 (.inl h)
  refine ⟨portAfter_goingDark fun y t hy => ⟨hy.state, hy.training, hy.trained⟩, fun h ht => ?_, fun h => ?_, fun h => ?_, fun h => ?_,
    fun h1 h2 h3 => ?_, fun h => ?_, fun h => portAfter_linkResume fun y t hy => ?_, fun h => portAfter_linkResume fun y t hy => ?_,
    fun h => ?_, fun t0 h hp hl => ?_, fun t0 h hl => ?_, fun b h1 h2 h3 => ?_, fun b h => ?_, fun b h hr hb => ?_,
    fun b h h1 h2 h3 h4 h5 h6 => ?_, fun p who q hl ho => ?_⟩
  · refine portAfter_of_step exec_backInServiceNotice fun y t hy _ => ?_
    rw [PortSt.backInService, if_pos ⟨h, ht⟩] at hy
    exact ⟨hy.state, hy.stoppedAt, hy.replay⟩
  · refine portAfter_of_step exec_backInServiceNotice fun y t hy _ => ?_
    rw [PortSt.backInService, if_neg (fun ⟨h1, h2⟩ => h.elim (· h1) fun h => by rw [h] at h2; cases h2)] at hy
    exact ⟨hy.state, hy.replay⟩
  · refine portAfter_of_step exec_moorNotice fun y t hy _ => ?_
    rw [PortSt.park, if_pos h] at hy
    exact hy.state
  · refine portAfter_of_step exec_moorNotice fun y t hy _ => ?_
    rw [PortSt.park, if_neg h] at hy
    exact hy.state
  · refine portAfter_of_step exec_wakePatternSend fun y t hy hsend => ?_
    rw [PortSt.wakeSend, if_pos ⟨h1, h2, h3⟩] at hy hsend
    exact ⟨hy.state.trans h1, hy.stoppedAt, hsend _ List.mem_cons_self⟩
  · refine portAfter_of_step exec_wakePatternSend fun y t hy _ => ?_
    rw [PortSt.wakeSend, if_neg (fun ⟨h1, h2, h3⟩ => h.elim (· h1) (·.elim h2 (· h3)))] at hy
    exact ⟨hy.state, hy.stoppedAt⟩
  · rw [PortSt.resume, if_pos h] at hy
    exact ⟨hy.state, hy.stoppedAt⟩
  · rw [PortSt.resume, if_neg h] at hy
    exact ⟨hy.state, hy.stoppedAt⟩
  · exact portAfter_holdExpiry_early (fun t ht => by rw [show (s.port l).stoppedAt = none from h] at ht; cases ht) fun y t hy => hy.state
  · have hl' : t0 + s.holdNsAt l ≤ s.now := by
      split at hl <;> rename_i e <;> (rw [State.holdNsAt, e]; exact hl)
    refine portAfter_holdExpiry_late h hl' fun y t hy => ?_
    rw [PortSt.holdEnd, if_pos hp] at hy
    exact ⟨hy.state, hy.training⟩
  · have hl' : s.now < t0 + s.holdNsAt l := by
      split at hl <;> rename_i e <;> (rw [State.holdNsAt, e]; exact hl)
    exact portAfter_holdExpiry_early (fun t ht => by rw [show (s.port l).stoppedAt = some t0 from h] at ht; cases ht; exact hl') fun y t hy => hy.state
  · have hd : x.listens = false := by
      rw [← Bool.not_eq_true, x.listens_iff]
      exact fun h => h.elim h1 (·.elim h2 h3)
    refine portAfter_of_block (.inl (by unfold PortSt.discards; rw [show (s.port l).listens = false from hd]; rfl)) fun y t hy _ => ?_
    rw [PortSt.receive_deaf hd] at hy
    exact ⟨hy.state, hy.rxNext⟩
  · refine portAfter_of_block (.inl (by unfold PortSt.discards; simp)) fun y t hy hsend => ?_
    rw [PortSt.receive_bad (hactive h)] at hy hsend
    have hy' : y.SameLink (s.port l).rejected := hy.links.trans (PortSt.idle_link l.port.val true _)
    obtain ⟨w, hw, w1, w2, w3⟩ := PortSt.idle_block l.port.val true (s.port l).rejected
    exact ⟨hy'.state.trans h, hy'.rxNext, hy'.rejecting, hy'.crcBlocks, w, hw ▸ hsend _ (List.mem_cons_of_mem _ (List.mem_singleton_self _)), w1, w3, w2⟩
  · have hd : (s.port l).discards b true = true := by
      unfold PortSt.discards
      rw [show (s.port l).rejecting = true from hr, decide_eq_true (show b.bseq ≠ (s.port l).rxNext from hb)]
      simp
    refine portAfter_of_block (.inl hd) fun y t hy _ => ?_
    rw [PortSt.receive_skipped (hactive h) hd] at hy
    exact ⟨hy.state.trans h, hy.rxNext, hy.rejecting.trans hr, hy.replay⟩
  · have hd : (s.port l).discards b true = false := by
      unfold PortSt.discards
      rw [show (s.port l).listens = true from hactive h, decide_eq_false (not_not.2 (show b.bseq = (s.port l).rxNext from h5))]
      simp
    refine portAfter_of_block (.inr ⟨h2, h3, h4⟩) fun y t hy hsend => ?_
    rw [PortSt.receive_taken (hactive h) hd h1 h5 h6] at hy hsend
    have hy' : y.SameLink ((s.port l).taken b) := hy.links.trans (PortSt.idle_link l.port.val false _)
    obtain ⟨t1, t2, t3⟩ := (s.port l).taken_spec b
    obtain ⟨w, hw, w1, _, w3⟩ := PortSt.idle_block l.port.val false ((s.port l).taken b)
    refine ⟨hy'.state.trans (t1.trans h), hy'.rxNext.trans t3, hy'.rejecting.trans t2, w, hw ▸ hsend _ List.mem_cons_self, w1, w3.trans ?_⟩
    rw [if_neg Bool.false_ne_true, t3, h5]
    exact add_sub_cancel_right ..
  · subst hl
    have hst (w : Word) := Pkg.storeFields_port q portCtrlDesc w (s.pkg p)
    have hstep (w : Word) (f : PortSt → PortStep) := Pkg.portDo_stepped s.now q.val f ((s.pkg p).storeFields portCtrlDesc (portReg q) w)
    simp only [(hst _).1] at hstep
    have hrel : ((s.pkg p).unitState (208 + q.val) < 3 → ∃ t, exec (.portRelease p who q) s = .next t ∧
        (t.port (p.link q)).SameLink (PortSt.release (s.pkg p).mayTrain x).1) := fun hu =>
      exec_portCtrl (i := .portRelease p who q) (w := 4) rfl rfl ho (by
        rw [show (4 : Word).toNat = 4 from rfl, Pkg.portCtrl_release, (hst 4).2.1, (hst 4).2.2, if_pos hu]
        exact hstep 4 _)
    have hkeep : (3 ≤ (s.pkg p).unitState (208 + q.val) → ∃ t, exec (.portRelease p who q) s = .next t ∧ (t.port (p.link q)).SameLink x) := fun hu =>
      exec_portCtrl (i := .portRelease p who q) (w := 4) (r := (x, [])) rfl rfl ho (by
        rw [show (4 : Word).toNat = 4 from rfl, Pkg.portCtrl_release, (hst 4).2.1, if_neg (Nat.not_lt.2 hu)]
        have h := Pkg.Stepped.refl q.val ((s.pkg p).storeFields portCtrlDesc (portReg q) 4)
        rwa [(hst 4).1] at h)
    have hretrain : ∃ t, exec (.retrain p who q) s = .next t ∧ (t.port (p.link q)).SameLink (x.startFast s.now).1 :=
      exec_portCtrl (i := .retrain p who q) (w := 1) rfl rfl ho (by
        rw [show (1 : Word).toNat = 1 from rfl, Pkg.portCtrl_retrain]
        exact hstep 1 _)
    refine ⟨?_, fun h hu => ?_, fun h hu => ?_, fun h => ?_, fun h hn => ?_, fun h => ?_⟩
    · obtain ⟨t, ht, hy⟩ := exec_portCtrl (i := .holdDown p who q) (w := 2) (s := s) rfl rfl ho (by
        rw [show (2 : Word).toNat = 2 from rfl, Pkg.portCtrl_holdDown]
        exact hstep 2 _)
      exact ⟨t, ht, hy.state, hy.training, hy.replay⟩
    · obtain ⟨t, ht, hy⟩ := hkeep hu
      exact ⟨t, ht, hy.state.trans h⟩
    · obtain ⟨t, ht, hy⟩ := hrel hu
      refine ⟨t, ht, fun hm => ?_, fun hm => ?_⟩
      · rw [PortSt.release, if_neg (not_not.2 h), hm, if_pos rfl] at hy
        exact ⟨hy.state, hy.training⟩
      · rw [PortSt.release, if_neg (not_not.2 h), hm, if_neg Bool.false_ne_true] at hy
        exact ⟨hy.state, hy.training⟩
    · by_cases hu : (s.pkg p).unitState (208 + q.val) < 3
      · obtain ⟨t, ht, hy⟩ := hrel hu
        rw [PortSt.release, if_pos h] at hy
        exact ⟨t, ht, hy.state⟩
      · obtain ⟨t, ht, hy⟩ := hkeep (Nat.not_lt.1 hu)
        exact ⟨t, ht, hy.state⟩
    · obtain ⟨t, ht, hy⟩ := hretrain
      rw [PortSt.startFast_retrains h hn] at hy
      exact ⟨t, ht, hy.state, hy.replay⟩
    · obtain ⟨t, ht, hy⟩ := hretrain
      rw [PortSt.startFast_idle h] at hy
      exact ⟨t, ht, hy.state⟩

end Sys2Proof.Machine
end

section
/-! PROOF. Obligation O28, first part: the issue of a request (R40, R156, R157). -/
namespace Sys2Proof.Machine
open Sys2Proof

variable {s : State} {p : PkgId} {k : Pkg} {c : Nat} {pk : Packet} {rq : Request}

/-! ### A core that issues is in Run (Table 3.3) -/

theorem Pkg.issues_aonOnly (c : Nat) (k : Pkg) : AonOnly k (k.issues c) :=
  .ite ((AonOnly.of_onlyRegs (.put k (F.CORE_PSTATE_STATE c) 0)).trans (.setAon _ _)) (.refl k)
theorem CORE_PSTATE_off (c : Nat) : (F.CORE_PSTATE_STATE c).off = 0x400100 + 0x1000 * c := rfl
/-- Only the core's own power state may change, in its register's low three bits. -/
theorem Pkg.rg_issues {o : Nat} (h : o < 0x400000) : (k.issues c).rg o = k.rg o := by
  unfold Pkg.issues
  split
  · exact Pkg.rg_put_ne k (F.CORE_PSTATE_STATE c) 0 (by rw [CORE_PSTATE_off]; omega)
  · rfl
theorem Pkg.shift_issues (i : Nat) : (k.issues c).get (F.THR_ROTA_SHIFT i) = k.get (F.THR_ROTA_SHIFT i) := by
  unfold Pkg.issues
  split
  · change (k.put (F.CORE_PSTATE_STATE c) 0).get _ = _
    by_cases h : (F.THR_ROTA_SHIFT i).off = (F.CORE_PSTATE_STATE c).off
    · exact Pkg.get_put_disjoint k (F.CORE_PSTATE_STATE c) (F.THR_ROTA_SHIFT i) 0 (Nat.le_of_ble_eq_true rfl) h (.inr (Nat.le_of_ble_eq_true rfl))
    · exact Pkg.get_of_rg (Pkg.rg_put_ne _ _ _ h)
  · rfl
theorem Pkg.phys_issues (n : Nat) : (k.issues c).phys n = k.phys n :=
  Pkg.phys_congr (congrArg ThrSt.rotas (k.issues_aonOnly c).thr) (fun i => Pkg.shift_issues i) n
theorem Pkg.addr_issues : (k.issues c).addr = k.addr := Pkg.get_of_rg (f := F.AON_PKG_ADDR_ADDR) (Pkg.rg_issues (by decide))
theorem Pkg.stamp_issues : (k.issues c).stamp = k.stamp :=
  congrArg (fun n => decide (n = 1)) (Pkg.get_of_rg (f := F.CHT_SLOT_STATUS_STAMP) (Pkg.rg_issues (by decide)))
theorem Pkg.chart_issues : (k.issues c).chart = k.chart := by
  rw [show k.issues c = _ from k.issues_aonOnly c]
theorem Pkg.tables_issues (e : Bool) : (k.issues c).tables e = k.tables e := by
  unfold Pkg.tables
  rw [Pkg.chart_issues]
theorem Pkg.idx_issues : (k.issues c).idx = k.idx := congrArg addrIndex Pkg.addr_issues
theorem Pkg.coreInc_issues (n : Nat) : (k.issues c).coreInc n = k.coreInc n := congrArg (fun r : Retention => sget 0 r.coreInc n) (k.issues_aonOnly c).ret
theorem Pkg.onMesh_issues (dst : BitVec 24) : (k.issues c).onMesh c dst = k.onMesh c dst := by
  unfold Pkg.onMesh
  rw [Pkg.phys_issues, Pkg.phys_issues, Pkg.addr_issues]

/-! ### The checks of a request (R156) -/

/-- A request's endpoint lies where the tables lead. -/
def Pkg.leads (k : Pkg) (img : List Byte) (dst : BitVec 24) : Prop :=
  endpointOk dst = true ∧ img ≠ [] ∧ (chScope img = 0 → epPkg dst = k.addr) ∧ (chScope img ≠ 0 → routePresent img (addrRack (epPkg dst)) = true)


/-- The first check of R156, of a packet between cores. -/
theorem Pkg.refusal_unled (hp : pk.pkg = false) (h : ¬ k.leads (k.tables pk.epoch) pk.dst) : k.refusal pk = some stNoEndpoint := by
  unfold Pkg.refusal
  refine if_pos ?_
  by_contra hn
  refine h ⟨?_, ?_, fun hs => ?_, fun hs => ?_⟩ <;> simp_all
/-- The rest of them, where the tables lead to its endpoint. -/
theorem Pkg.refusal_led (h0 : pk.cls = 0) (hp : pk.pkg = false) (h : k.leads (k.tables pk.epoch) pk.dst) : k.refusal pk =
    if addrRack (epPkg pk.dst) = k.rackNo ∧ allAbsent (k.tables pk.epoch) (addrIndex (epPkg pk.dst)) = true then some stUnitAbsent
    else if reachOk (k.tables pk.epoch) k.rackNo (bits pk.addr.toNat 58 6) (addrRack (epPkg pk.dst)) (addrIndex (epPkg pk.dst)) (epCore pk.dst) = false then
      some stNoReach
    else if pk.opcode = opClasp ∧ epPkg pk.dst ≠ k.addr then some stNotLocal else none := by
  obtain ⟨he, hi, hs, hr⟩ := h
  unfold Pkg.refusal
  dsimp only
  rw [if_neg]
  · simp [h0, hp]
  · rw [hp]
    by_cases h0 : chScope (k.tables pk.epoch) = 0 <;> simp_all
theorem Pkg.barred_unled (h0 : pk.cls = 0) (hp : pk.pkg = false) (h : ¬ k.leads (k.tables pk.epoch) pk.dst) : k.barred c pk = some stNoEndpoint := by
  unfold Pkg.barred
  rw [if_neg (by rw [h0]; decide), Pkg.refusal_unled hp h]
theorem Pkg.barred_led (h0 : pk.cls = 0) (hp : pk.pkg = false) : k.barred c pk = match k.refusal pk with
    | some st => some st
    | none => if coreSkein (k.tables k.stamp) k.idx c = 0xFF then some stNoReach else none := by
  unfold Pkg.barred
  rw [if_neg (by rw [h0]; decide)]
  cases k.refusal pk with
  | some st => rfl
  | none => simp [h0, hp]

/-! ### REQUEST_ISSUE -/

/-- The packet of a core's request, stamped. -/
def Pkg.requestOf (now : Nat) (c : Nat) (rq : Request) (k : Pkg) : Packet :=
  k.stamped c { k.newPacket now rq.opcode 0 rq.dst (endpoint k.addr c) rq.payload with
    incarnation := k.coreInc c, tag := rq.tag, want := rq.want, addr := BitVec.ofNat 64 (rq.addr.toNat % 2 ^ 44) }
theorem Pkg.requestOf_issues {now : Nat} : (k.issues c).requestOf now c rq = (k.issues c).stamped c
    { (k.issues c).newPacket now rq.opcode 0 rq.dst (endpoint k.addr c) rq.payload with
      incarnation := k.coreInc c, tag := rq.tag, want := rq.want, addr := BitVec.ofNat 64 (rq.addr.toNat % 2 ^ 44) } := by
  unfold Pkg.requestOf
  rw [Pkg.addr_issues, Pkg.coreInc_issues]
theorem exec_requestIssue (s : State) (p : PkgId) (c : Core) (rq : Request) : exec (.requestIssue p c rq) s =
    onPkg p s fun k => if k.coreDark c.val ∨ opcodeClass rq.opcode ≠ 0 then k else (k.issues c.val).issue s.now c.val rq := rfl
theorem Pkg.issue_mesh {now : Nat} (h : k.onMesh c rq.dst = true) :
    k.issue now c rq = { k with fab := { k.fab with mesh := k.fab.mesh ++ [k.requestOf now c rq] } } := if_pos h
theorem Pkg.issue_barred {now : Nat} {st : Byte} (h : k.onMesh c rq.dst = false) (hb : k.barred c (k.requestOf now c rq) = some st) :
    k.issue now c rq = k.refuse c (k.requestOf now c rq) st := by
  refine (if_neg (by rw [h]; decide)).trans ?_
  change (match k.barred c (k.requestOf now c rq) with
    | some st => k.refuse c (k.requestOf now c rq) st
    | none => k.enqueue (flowKey (epPkg rq.dst) 0 0) c (k.requestOf now c rq)) = _
  rw [hb]
theorem Pkg.issue_joins {now : Nat} (h : k.onMesh c rq.dst = false) (hb : k.barred c (k.requestOf now c rq) = none) :
    k.issue now c rq = k.enqueue (flowKey (epPkg rq.dst) 0 0) c (k.requestOf now c rq) := by
  refine (if_neg (by rw [h]; decide)).trans ?_
  change (match k.barred c (k.requestOf now c rq) with
    | some st => k.refuse c (k.requestOf now c rq) st
    | none => k.enqueue (flowKey (epPkg rq.dst) 0 0) c (k.requestOf now c rq)) = _
  rw [hb]
/-- A refused packet's core hears the status; nothing else of the flows changes. -/
theorem Pkg.refuse_spec (c : Nat) (pk : Packet) (st : Byte) (k : Pkg) : (k.refuse c pk st).fab = k.fab ∧
    (k.refuse c pk st).out = k.out ++ (if c < 192 then [.completion c pk.tag st []] else []) := by
  unfold Pkg.refuse
  by_cases hc : c < 192
  · simp only [if_pos hc]
    split <;> exact ⟨rfl, rfl⟩
  · simp only [if_neg hc, List.append_nil]
    split <;> exact ⟨rfl, rfl⟩
/-- SRC_SKEIN stands in the top six bits of a request's ADDR (R157). -/
theorem skein_bits (a n : Nat) : bits (BitVec.ofNat 64 (a % 2 ^ 44 + n % 64 * 2 ^ 58)).toNat 58 6 = n % 64 := by
  rw [BitVec.toNat_ofNat]
  unfold bits
  omega
theorem skein_request {now : Nat} : bits (k.requestOf now c rq).addr.toNat 58 6 = coreSkein (k.tables k.stamp) k.idx c % 64 := by
  change bits (BitVec.ofNat 64 ((BitVec.ofNat 64 (rq.addr.toNat % 2 ^ 44)).toNat % 2 ^ 44 + _ % 64 * 2 ^ 58)).toNat 58 6 = _
  exact skein_bits _ _
theorem Pkg.txFlow_setTx_same (key : Nat) (f : TxFlow) (k : Pkg) : (k.setTx key f).txFlow key = f := sget_sset_same ..
theorem Pkg.txFlow_setTx_ne {key o : Nat} (f : TxFlow) (k : Pkg) (h : o ≠ key) : (k.setTx key f).txFlow o = k.txFlow o := sget_sset_ne _ _ _ _ h
theorem Pkg.txFlow_of_fab {j k : Pkg} (h : j.fab = k.fab) (key : Nat) : j.txFlow key = k.txFlow key := by rw [Pkg.txFlow, h, ← Pkg.txFlow]

/-- O28's first clause: what a core's request does, and the checks that it meets. -/
theorem requestIssues (s : State) (p : PkgId) (c : Core) (rq : Request) (pk : Packet) (hpk : pk = ((s.pkg p).issues c.val).requestOf s.now c.val rq) :
    let k := s.pkg p
    let key := flowKey (epPkg rq.dst) 0 0
    let k1 := k.issues c.val
    let live := k.coreDark c.val = false ∧ opcodeClass rq.opcode = 0
    let img := k.tables k.stamp
    let rack := addrRack (epPkg rq.dst)
    let there := k.leads img rq.dst
    let absent := rack = k.rackNo ∧ allAbsent img (addrIndex (epPkg rq.dst)) = true
    let skein := coreSkein img k.idx c.val
    ((k.coreDark c.val = true ∨ opcodeClass rq.opcode ≠ 0) → exec (.requestIssue p c rq) s = .next (s.setPkg p k)) ∧
    (pk.opcode = rq.opcode ∧ pk.dst = rq.dst ∧ pk.payload = rq.payload ∧ pk.tag = rq.tag ∧ pk.cls = 0 ∧ pk.incarnation = k.coreInc c.val ∧
      pk.epoch = k.stamp) ∧
    (live → k.onMesh c.val rq.dst = true → ∃ j : Pkg, exec (.requestIssue p c rq) s = .next (s.setPkg p j) ∧
      j.fab.mesh = k.fab.mesh ++ [pk] ∧ j.fab.tx = k.fab.tx ∧ j.out = k.out) ∧
    (∀ st, live → k.onMesh c.val rq.dst = false → k1.barred c.val pk = some st → ∃ j : Pkg,
      exec (.requestIssue p c rq) s = .next (s.setPkg p j) ∧ j.out = k.out ++ [.completion c.val rq.tag st []] ∧ j.fab = k.fab) ∧
    (live → k.onMesh c.val rq.dst = false → k1.barred c.val pk = none → ∃ j : Pkg, exec (.requestIssue p c rq) s = .next (s.setPkg p j) ∧
      j.out = k.out ∧ (j.txFlow key).waiting = (k.txFlow key).waiting ++ [(pk, c.val)] ∧ ∀ o, o ≠ key → j.txFlow o = k.txFlow o) ∧
    (¬ there → k1.barred c.val pk = some stNoEndpoint) ∧ (there → absent → k1.barred c.val pk = some stUnitAbsent) ∧
    (there → ¬ absent → reachOk img k.rackNo (skein % 64) rack (addrIndex (epPkg rq.dst)) (epCore rq.dst) = false →
      k1.barred c.val pk = some stNoReach) ∧
    (there → ¬ absent → reachOk img k.rackNo (skein % 64) rack (addrIndex (epPkg rq.dst)) (epCore rq.dst) = true →
      (rq.opcode = opClasp → epPkg rq.dst ≠ k.addr → k1.barred c.val pk = some stNotLocal) ∧
      ((rq.opcode ≠ opClasp ∨ epPkg rq.dst = k.addr) → k1.barred c.val pk = if skein = 0xFF then some stNoReach else none)) := by
  subst hpk
  intro k key k1 live img rack there absent skein
  let pk := k1.requestOf s.now c.val rq
  have hout : k1.out = k.out := (k.issues_aonOnly c.val).out
  have hfab : k1.fab = k.fab := (k.issues_aonOnly c.val).fab
  have hmesh : k1.onMesh c.val rq.dst = k.onMesh c.val rq.dst := Pkg.onMesh_issues _
  have haddr : k1.addr = k.addr := Pkg.addr_issues
  have hstamp : k1.stamp = k.stamp := Pkg.stamp_issues
  have hidx : k1.idx = k.idx := Pkg.idx_issues
  have hrack : k1.rackNo = k.rackNo := congrArg addrRack haddr
  have himg : k1.tables k1.stamp = img := by rw [hstamp]; exact Pkg.tables_issues _
  have hled : k1.leads (k1.tables pk.epoch) pk.dst ↔ there := by
    change k1.leads (k1.tables k1.stamp) rq.dst ↔ _
    rw [himg, Pkg.leads, haddr]
    exact Iff.rfl
  have hskein : bits pk.addr.toNat 58 6 = skein % 64 := by
    refine skein_request.trans ?_
    rw [himg, hidx]
  have hissue (hl : live) : exec (.requestIssue p c rq) s = .next (s.setPkg p (k1.issue s.now c.val rq)) :=
    (exec_requestIssue ..).trans (onPkg_next (if_neg (by rw [hl.1, hl.2]; decide)))
  have hrefusal (ht : there) : k1.refusal pk =
      if absent then some stUnitAbsent
      else if reachOk img k.rackNo (skein % 64) rack (addrIndex (epPkg rq.dst)) (epCore rq.dst) = false then some stNoReach
      else if rq.opcode = opClasp ∧ epPkg rq.dst ≠ k.addr then some stNotLocal else none := by
    refine (Pkg.refusal_led rfl rfl (hled.2 ht)).trans ?_
    change (if rack = k1.rackNo ∧ allAbsent (k1.tables k1.stamp) _ = true then _ else if reachOk (k1.tables k1.stamp) _ _ _ _ _ = false then _ else _) = _
    rw [hskein, himg, hrack, haddr]
    rfl
  have hbarred : k1.barred c.val pk = match k1.refusal pk with
      | some st => some st
      | none => if skein = 0xFF then some stNoReach else none := by
    refine (Pkg.barred_led rfl rfl).trans ?_
    rw [himg, hidx]
  refine ⟨fun h => (exec_requestIssue ..).trans (onPkg_next (if_pos h)), ⟨rfl, rfl, rfl, rfl, rfl, Pkg.coreInc_issues _, hstamp⟩,
    fun hl hm => ⟨_, hissue hl, ?_⟩, fun st hl hm hb => ⟨_, hissue hl, ?_⟩, fun hl hm hb => ⟨_, hissue hl, ?_⟩,
    fun ht => Pkg.barred_unled rfl rfl (fun h => ht (hled.1 h)), fun ht ha => ?_, fun ht ha hr => ?_, fun ht ha hr => ⟨fun ho hd => ?_, fun ho => ?_⟩⟩
  · rw [Pkg.issue_mesh (hmesh.trans hm), hfab, hout]
    exact ⟨rfl, rfl, rfl⟩
  · rw [Pkg.issue_barred (hmesh.trans hm) hb]
    obtain ⟨hf, ho⟩ := Pkg.refuse_spec c.val pk st k1
    rw [if_pos c.isLt, hout] at ho
    exact ⟨ho, hf.trans hfab⟩
  · rw [Pkg.issue_joins (hmesh.trans hm) hb]
    refine ⟨hout, ?_, fun o ho => (Pkg.txFlow_setTx_ne _ _ ho).trans (Pkg.txFlow_of_fab hfab o)⟩
    rw [Pkg.enqueue, Pkg.txFlow_setTx_same, Pkg.txFlow_of_fab hfab]
  · rw [hbarred, hrefusal ht, if_pos ha]
  · rw [hbarred, hrefusal ht, if_neg ha, if_pos hr]
  · rw [hbarred, hrefusal ht, if_neg ha, if_neg (by rw [hr]; decide), if_pos ⟨ho, hd⟩]
  · rw [hbarred, hrefusal ht, if_neg ha, if_neg (by rw [hr]; decide), if_neg (by rintro ⟨h1, h2⟩; exact ho.elim (· h1) h2)]
end Sys2Proof.Machine
end

section
/-! PROOF. Obligation O28: sending, acknowledgement, resends and responses (R159–R163, R59). -/
namespace Sys2Proof.Machine
open Sys2Proof

variable {s : State} {p : PkgId} {k : Pkg} {now key : Nat} {pk : Packet} {dst : BitVec 16} {cls : BitVec 3} {tree : Byte} {seq : Word}

/-! ### The key of a flow -/

theorem flowKey_peer {peer c : Nat} (hc : c < 8) : flowKey peer c 0 / 1024 = peer := by unfold flowKey; omega
theorem flowKey_cls {peer c : Nat} (hc : c < 8) : flowKey peer c 0 / 128 % 8 = c := by unfold flowKey; omega
theorem cls_ne_two (h : cls ≠ 2) : cls.toNat ≠ 2 := fun e => h (BitVec.eq_of_toNat_eq e)
theorem Pkg.namedFlow_unicast (h : cls ≠ 2) (d t : Nat) (k : Pkg) : k.namedFlow d cls.toNat t = flowKey d cls.toNat 0 := if_neg (cls_ne_two h)
theorem Pkg.flowWindow_unicast (h : cls ≠ 2) (pk : Packet) (k : Pkg) : k.flowWindow (flowKey dst.toNat cls.toNat 0) pk =
    k.window k.idx (addrIndex dst.toNat) (addrRack dst.toNat) cls.toNat := by
  have hc : cls.toNat < 8 := cls.isLt
  unfold Pkg.flowWindow
  dsimp only
  rw [flowKey_cls hc, flowKey_peer hc, if_neg (cls_ne_two h)]

/-! ### Completions -/

/-- A completion tells its core, and touches no flow. -/
theorem Pkg.complete_spec (o : TxOut) (st : Byte) (data : List Byte) (k : Pkg) : (k.complete o st data).fab = k.fab ∧
    (∀ m ∈ k.out, m ∈ (k.complete o st data).out) ∧
    (o.pk.cls ≠ 4 → o.core < 192 → Msg.completion o.core o.pk.tag st data ∈ (k.complete o st data).out) := by
  have hr (k1 : Pkg) : (if o.pk.cls = 2 ∧ st ≠ stOK then k1.reportMissing o.pk (o.bad ++ o.await) else k1).fab = k1.fab ∧
      (if o.pk.cls = 2 ∧ st ≠ stOK then k1.reportMissing o.pk (o.bad ++ o.await) else k1).out = k1.out := by split <;> exact ⟨rfl, rfl⟩
  unfold Pkg.complete
  by_cases h4 : o.pk.cls = 4
  · rw [if_pos h4]
    exact ⟨rfl, fun _ h => h, fun h => absurd h4 h⟩
  · rw [if_neg h4]
    dsimp only
    by_cases hc : 192 ≤ o.core
    · rw [if_pos hc, (hr k).1, (hr k).2]
      exact ⟨rfl, fun _ h => h, fun _ h => absurd hc (Nat.not_le.2 h)⟩
    · rw [if_neg hc, (hr _).1, (hr _).2]
      exact ⟨rfl, fun _ h => List.mem_append_left _ h, fun _ _ => List.mem_append_right _ (List.mem_singleton.2 rfl)⟩
theorem foldl_complete (st : TxOut → Byte) : ∀ (l : List TxOut) (k : Pkg),
    (l.foldl (fun k o => k.complete o (st o) []) k).fab = k.fab ∧ (∀ m ∈ k.out, m ∈ (l.foldl (fun k o => k.complete o (st o) []) k).out) ∧
    ∀ o ∈ l, o.pk.cls ≠ 4 → o.core < 192 → Msg.completion o.core o.pk.tag (st o) [] ∈ (l.foldl (fun k o => k.complete o (st o) []) k).out
  | [], k => ⟨rfl, fun _ h => h, fun _ h => absurd h List.not_mem_nil⟩
  | x :: l, k => by
    obtain ⟨hf, hm, hc⟩ := k.complete_spec x (st x) []
    obtain ⟨hf', hm', hc'⟩ := foldl_complete st l (k.complete x (st x) [])
    refine ⟨hf'.trans hf, fun m h => hm' m (hm m h), fun o ho h4 h192 => ?_⟩
    rcases List.mem_cons.1 ho with rfl | ho
    · exact hm' _ (hc h4 h192)
    · exact hc' o ho h4 h192

/-- A flow that is reset restarts at SEQ 0 with the next FGEN; what was outstanding completes (R163). -/
theorem Pkg.resetFlow_spec (key tile : Nat) (st : Byte) (k : Pkg) :
    (k.resetFlow key tile st).txFlow key = { k.txFlow key with seq := 0, fgen := (k.txFlow key).fgen + 1, acked := false, out := [] } ∧
    (∀ m ∈ k.out, m ∈ (k.resetFlow key tile st).out) ∧
    ∀ o ∈ (k.txFlow key).out, o.pk.cls ≠ 4 → o.core < 192 → Msg.completion o.core o.pk.tag st [] ∈ (k.resetFlow key tile st).out := by
  obtain ⟨-, hm, hc⟩ := foldl_complete (fun _ => st) (k.txFlow key).out k
  exact ⟨Pkg.txFlow_setTx_same .., hm, hc⟩

/-! ### FLOW_SEND -/

theorem exec_flowSend (s : State) (p : PkgId) (dst : BitVec 16) (cls : BitVec 3) : exec (.flowSend p dst cls) s = execFlowSend p dst cls s := rfl
theorem execFlowSend_refused {j : Pkg} (h : cls ≠ 2) (hr : (s.pkg p).flowRefuse (flowKey dst.toNat cls.toNat 0) = some j) :
    execFlowSend p dst cls s = .next (s.setPkg p j) := by
  simp only [execFlowSend, onPkgMem, Pkg.namedFlow_unicast h, hr]
theorem execFlowSend_waits (h : cls ≠ 2) (hr : (s.pkg p).flowRefuse (flowKey dst.toNat cls.toNat 0) = none)
    (ht : (s.pkg p).flowTake s.now (flowKey dst.toNat cls.toNat 0) = none) : execFlowSend p dst cls s = .next (s.setPkg p (s.pkg p)) := by
  simp only [execFlowSend, onPkgMem, Pkg.namedFlow_unicast h, hr, ht]
theorem execFlowSend_sends {core : Nat} {j : Pkg} (h : cls ≠ 2) (h2 : pk.cls ≠ 2) (hr : (s.pkg p).flowRefuse (flowKey dst.toNat cls.toNat 0) = none)
    (ht : (s.pkg p).flowTake s.now (flowKey dst.toNat cls.toNat 0) = some (pk, core, j)) :
    execFlowSend p dst cls s = .next (s.setPkg p ((j.emit (.packet pk)).completeUnawaited (flowKey dst.toNat cls.toNat 0))) := by
  have hl (x : Pkg) : x.launch s.now core pk = x.emit (.packet pk) := if_neg h2
  simp only [execFlowSend, onPkgMem, Pkg.namedFlow_unicast h, hr, ht, hl]
  rw [if_neg fun e => h2 e.1]

theorem Pkg.flowHead_nil (h : (k.txFlow key).waiting = []) : k.flowHead key = none := by unfold Pkg.flowHead; rw [h]
theorem Pkg.flowHead_cons {core : Nat} {rest : List (Packet × Nat)} (h : (k.txFlow key).waiting = (pk, core) :: rest) :
    k.flowHead key = some (k.stamped core pk, core) := by unfold Pkg.flowHead; rw [h]
theorem Pkg.flowRefuse_none {core : Nat} (h : k.flowHead key = some (pk, core)) (hb : k.barred core pk = none) : k.flowRefuse key = none := by
  unfold Pkg.flowRefuse
  simp only [h, hb, Option.map_none]
theorem Pkg.flowRefuse_some {core : Nat} {st : Byte} (h : k.flowHead key = some (pk, core)) (hb : k.barred core pk = some st) :
    k.flowRefuse key = some ((k.setTx key { k.txFlow key with waiting := (k.txFlow key).waiting.drop 1 }).refuse core pk st) := by
  unfold Pkg.flowRefuse
  simp only [h, hb, Option.map_some]
/-- The packet of a flow's head as it leaves. -/
def Pkg.sentOf (now key : Nat) (pk : Packet) (k : Pkg) : Packet :=
  { pk with seq := (k.txFlow key).seq, fgen := (k.txFlow key).fgen, sgen := k.ret.pkgInc, newflow := !(k.txFlow key).acked, birth := k.birth now }
def Pkg.sentOut (now key core : Nat) (pk : Packet) (k : Pkg) : TxOut :=
  ⟨k.sentOf now key pk, now, 0, k.awaited (k.sentOf now key pk) ++ k.awaitedUp core (k.sentOf now key pk), [], core⟩
/-- The flow with its head outstanding. -/
def Pkg.sentFlow (now key core : Nat) (pk : Packet) (k : Pkg) : TxFlow :=
  { k.txFlow key with seq := (k.txFlow key).seq + 1, waiting := (k.txFlow key).waiting.drop 1,
                      out := (k.txFlow key).out ++ [k.sentOut now key core pk] }
theorem Pkg.flowTake_full {core : Nat} (h : k.flowHead key = some (pk, core)) (hw : k.flowWindow key pk ≤ (k.txFlow key).out.length) :
    k.flowTake now key = none := by
  unfold Pkg.flowTake
  simp only [h]
  rw [if_neg (by omega)]
theorem Pkg.flowTake_sends {core : Nat} (h : k.flowHead key = some (pk, core)) (hw : (k.txFlow key).out.length < k.flowWindow key pk)
    (hr : expectsResponse pk.opcode = false ∨ pk.cls ≠ 0 ∨ k.respOut < k.reserve) :
    k.flowTake now key = some (k.sentOf now key pk, core, k.setTx key (k.sentFlow now key core pk)) := by
  unfold Pkg.flowTake
  simp only [h]
  rw [if_pos ⟨hw, hr⟩]
  rfl
/-- A flow of unicast packets has no casts that await no member. -/
theorem Pkg.completeUnawaited_unicast (h : ∀ o ∈ (k.txFlow key).out, o.pk.cls ≠ 2) :
    k.completeUnawaited key = k.setTx key (k.txFlow key) := by
  have hu : ∀ o ∈ (k.txFlow key).out, (decide (o.pk.cls = 2) && o.await.isEmpty) = false :=
    fun o ho => by rw [decide_eq_false (h o ho), Bool.false_and]
  have hi : (k.txFlow key).out.filter (fun o => decide (o.pk.cls = 2) && o.await.isEmpty) = [] :=
    List.filter_eq_nil_iff.2 fun o ho => by rw [hu o ho]; decide
  have hk : (k.txFlow key).out.filter (fun o => !(decide (o.pk.cls = 2) && o.await.isEmpty)) = (k.txFlow key).out :=
    List.filter_eq_self.2 fun o ho => by rw [hu o ho]; rfl
  unfold Pkg.completeUnawaited
  dsimp only
  rw [hi, hk]
  rfl

/-- O28's second clause. -/
theorem flowSends (s : State) (p : PkgId) (dst : BitVec 16) (cls : BitVec 3) (h2 : cls ≠ 2) :
    let k := s.pkg p
    let key := flowKey dst.toNat cls.toNat 0
    let f := k.txFlow key
    let w := k.window k.idx (addrIndex dst.toNat) (addrRack dst.toNat) cls.toNat
    (f.waiting = [] → exec (.flowSend p dst cls) s = .next (s.setPkg p k)) ∧
    (∀ pk0 core rest, f.waiting = (pk0, core) :: rest → pk0.cls ≠ 2 →
      let pk := k.stamped core pk0
      (∀ st, k.barred core pk = some st → ∃ j : Pkg, exec (.flowSend p dst cls) s = .next (s.setPkg p j) ∧
        (j.txFlow key).waiting = rest ∧ (j.txFlow key).out = f.out ∧
        j.out = k.out ++ (if core < 192 then [.completion core pk.tag st []] else [])) ∧
      (k.barred core pk = none → w ≤ f.out.length → exec (.flowSend p dst cls) s = .next (s.setPkg p k)) ∧
      (k.barred core pk = none → f.out.length < w → (∀ o ∈ f.out, o.pk.cls ≠ 2) →
          (expectsResponse pk.opcode = true → pk.cls = 0 → k.respOut < k.reserve) → ∃ (j : Pkg) (o : TxOut),
        exec (.flowSend p dst cls) s = .next (s.setPkg p j) ∧
        o.pk = { pk with seq := f.seq, fgen := f.fgen, sgen := k.ret.pkgInc, newflow := !f.acked, birth := k.birth s.now } ∧
        o.sentAt = s.now ∧ o.resends = 0 ∧ o.core = core ∧ j.out = k.out ++ [.packet o.pk] ∧ j.regs = k.regs ∧
        (j.txFlow key).seq = f.seq + 1 ∧ (j.txFlow key).waiting = rest ∧ (j.txFlow key).out = f.out ++ [o])) := by
  intro k key f w
  refine ⟨fun hw => ?_, fun pk0 core rest hw hc2 => ?_⟩
  · have hh : k.flowHead key = none := Pkg.flowHead_nil hw
    exact execFlowSend_waits h2 (by change k.flowRefuse key = none; unfold Pkg.flowRefuse; rw [hh])
      (by change k.flowTake s.now key = none; unfold Pkg.flowTake; simp only [hh])
  · intro pk
    have hh : k.flowHead key = some (pk, core) := Pkg.flowHead_cons hw
    have hwin : k.flowWindow key pk = w := k.flowWindow_unicast h2 pk
    refine ⟨fun st hb => ⟨_, execFlowSend_refused h2 (Pkg.flowRefuse_some hh hb), ?_⟩, fun hb hl => ?_, fun hb hl ho hr => ?_⟩
    · obtain ⟨hf, hout⟩ := Pkg.refuse_spec core pk st (k.setTx key { f with waiting := f.waiting.drop 1 })
      have ht := (Pkg.txFlow_of_fab hf key).trans (Pkg.txFlow_setTx_same ..)
      have hrest : f.waiting.drop 1 = rest := by rw [show f.waiting = _ from hw]; rfl
      exact ⟨(congrArg TxFlow.waiting ht :).trans hrest, (congrArg TxFlow.out ht :), hout⟩
    · exact execFlowSend_waits h2 (Pkg.flowRefuse_none hh hb) (Pkg.flowTake_full hh (hwin.trans_le hl))
    · have hr' : expectsResponse pk.opcode = false ∨ pk.cls ≠ 0 ∨ k.respOut < k.reserve := by
        by_cases he : expectsResponse pk.opcode = true
        · by_cases h0 : pk.cls = 0
          · exact .inr (.inr (hr he h0))
          · exact .inr (.inl h0)
        · exact .inl (by simpa using he)
      have htake := Pkg.flowTake_sends (now := s.now) hh (hl.trans_eq hwin.symm) hr'
      refine ⟨_, k.sentOut s.now key core pk, execFlowSend_sends h2 (pk := k.sentOf s.now key pk) hc2 (Pkg.flowRefuse_none hh hb) htake, rfl, rfl, rfl, rfl, ?_⟩
      have ht : ((k.setTx key (k.sentFlow s.now key core pk)).emit (.packet (k.sentOf s.now key pk))).txFlow key = k.sentFlow s.now key core pk :=
        Pkg.txFlow_setTx_same ..
      have hu : ∀ o ∈ (((k.setTx key (k.sentFlow s.now key core pk)).emit (.packet (k.sentOf s.now key pk))).txFlow key).out, o.pk.cls ≠ 2 := by
        rw [ht]
        intro o hm
        rcases List.mem_append.1 hm with hm | hm
        · exact ho o hm
        · rw [List.mem_singleton.1 hm]
          exact hc2
      rw [Pkg.completeUnawaited_unicast hu, Pkg.txFlow_setTx_same, ht]
      exact ⟨rfl, rfl, rfl, by change f.waiting.drop 1 = rest; rw [hw]; rfl, rfl⟩

/-! ### ACK -/

/-- An ACK at a package, of a flow that is no cast's. -/
def Pkg.heardAck (key : Nat) (pk : Packet) (k : Pkg) : Pkg :=
  ((k.txFlow key).out.filter (fun o => serialGt pk.seq o.pk.seq && !expectsResponse o.pk.opcode)).foldl (fun k o => k.complete o pk.status [])
    (k.setTx key { k.txFlow key with acked := true, out := (k.txFlow key).out.filter (fun o => !(serialGt pk.seq o.pk.seq && !expectsResponse o.pk.opcode)) })
theorem exec_ack (h : bits pk.addr.toNat 0 3 ≠ 2) : exec (.ack p pk) s =
    onPkg p s fun k0 =>
      let k := k0.newerSgen (epPkg pk.src) pk.sgen
      let key := flowKey (epPkg pk.src) (bits pk.addr.toNat 0 3) 0
      if pk.fgen ≠ (k.txFlow key).fgen ∨ ((k.txFlow key).out = [] ∧ (k.txFlow key).seq = 0) then k
      else if pk.status = stResync then k.resetFlow key (k.tileOf key) stUnitReset
      else k.heardAck key pk := by
  change execAck p pk s = _
  unfold execAck
  simp only [if_pos h, if_neg h]
  rfl

theorem acks (s : State) (p : PkgId) (pk : Packet) (h2 : bits pk.addr.toNat 0 3 ≠ 2) :
    let k := s.pkg p
    let key := flowKey (epPkg pk.src) (bits pk.addr.toNat 0 3) 0
    let f := k.txFlow key
    ((pk.fgen ≠ f.fgen ∨ (f.out = [] ∧ f.seq = 0)) →
      exec (.ack p pk) s = .next (s.setPkg p (k.newerSgen (epPkg pk.src) pk.sgen))) ∧
    (pk.fgen = f.fgen → (f.out ≠ [] ∨ f.seq ≠ 0) → pk.status = stResync → ∃ j : Pkg, exec (.ack p pk) s = .next (s.setPkg p j) ∧
      (j.txFlow key).seq = 0 ∧ (j.txFlow key).fgen = f.fgen + 1 ∧ (j.txFlow key).out = [] ∧ (j.txFlow key).acked = false ∧
      (j.txFlow key).waiting = f.waiting) ∧
    (pk.fgen = f.fgen → (f.out ≠ [] ∨ f.seq ≠ 0) → pk.status ≠ stResync → ∃ j : Pkg, exec (.ack p pk) s = .next (s.setPkg p j) ∧
      (j.txFlow key).acked = true ∧ (j.txFlow key).seq = f.seq ∧
      (j.txFlow key).out = f.out.filter (fun o => !(serialGt pk.seq o.pk.seq && !expectsResponse o.pk.opcode)) ∧
      ∀ o ∈ f.out, serialGt pk.seq o.pk.seq = true → expectsResponse o.pk.opcode = false → o.pk.cls ≠ 4 → o.core < 192 →
        Msg.completion o.core o.pk.tag pk.status [] ∈ j.out) := by
  intro k key f
  have hlive (hg : pk.fgen = f.fgen) (ho : f.out ≠ [] ∨ f.seq ≠ 0) : ¬ (pk.fgen ≠ f.fgen ∨ (f.out = [] ∧ f.seq = 0)) := by
    rintro (h | ⟨h, h'⟩)
    · exact h hg
    · exact ho.elim (· h) (· h')
  refine ⟨fun h => (exec_ack h2).trans (onPkg_next (if_pos h)), fun hg ho hs => ⟨_, (exec_ack h2).trans (onPkg_next ((if_neg (hlive hg ho)).trans (if_pos hs))), ?_⟩,
    fun hg ho hs => ⟨_, (exec_ack h2).trans (onPkg_next ((if_neg (hlive hg ho)).trans (if_neg hs))), ?_⟩⟩
  · have ht := ((k.newerSgen (epPkg pk.src) pk.sgen).resetFlow_spec key ((k.newerSgen (epPkg pk.src) pk.sgen).tileOf key) stUnitReset).1
    exact ⟨(congrArg TxFlow.seq ht :), (congrArg TxFlow.fgen ht :), (congrArg TxFlow.out ht :), (congrArg TxFlow.acked ht :), (congrArg TxFlow.waiting ht :)⟩
  · obtain ⟨hf, -, hc⟩ := foldl_complete (fun _ => pk.status) (f.out.filter (fun o => serialGt pk.seq o.pk.seq && !expectsResponse o.pk.opcode))
      ((k.newerSgen (epPkg pk.src) pk.sgen).setTx key { f with acked := true, out := f.out.filter (fun o => !(serialGt pk.seq o.pk.seq && !expectsResponse o.pk.opcode)) })
    have ht := (Pkg.txFlow_of_fab hf key).trans (Pkg.txFlow_setTx_same ..)
    exact ⟨(congrArg TxFlow.acked ht :), (congrArg TxFlow.seq ht :), (congrArg TxFlow.out ht :),
      fun o ho hs he => hc o (List.mem_filter.2 ⟨ho, by simp [hs, he]⟩)⟩

/-! ### RETX_TIME_EXPIRY -/

/-- The packet that is resent, and its place among the outstanding ones. -/
def Pkg.againOf (now key : Nat) (o : TxOut) (k : Pkg) : Packet :=
  { k.stamped o.core o.pk with birth := k.birth now, newflow := !(k.txFlow key).acked }
def Pkg.againOut (now key : Nat) (o : TxOut) (k : Pkg) : TxOut := { o with pk := k.againOf now key o, sentAt := now, resends := o.resends + 1 }
/-- A package that has resent the packet of a SEQ. -/
def Pkg.resent (now key : Nat) (seq : Word) (o : TxOut) (k : Pkg) : Pkg :=
  ((k.setTx key { k.txFlow key with out := (k.txFlow key).out.map (fun x => if x.pk.seq = seq then k.againOut now key o else x) }).count
    (F.FAB_FLOW_EVENTS_RETRANSMITS (k.tileOf key)) 1).emit (.packet { k.againOf now key o with status := 0 })
theorem Pkg.resendDue_found {o : TxOut} (h2 : o.pk.cls ≠ 2) (h : (k.txFlow key).out.find? (fun x => x.pk.seq = seq) = some o) :
    k.resendDue now key seq =
      if now < o.sentAt + 1000000 * k.get (F.FAB_LINK_CFG_RETX_TIME 0) then k
      else if k.get (F.FAB_LINK_CFG_RETX_LIMIT 0) ≤ o.resends + 1 then (k.resent now key seq o).resetFlow key (k.tileOf key) stPathDown
      else k.resent now key seq o := by
  have hl (x : Pkg) : x.launch now o.core { k.againOf now key o with status := 0 } = x.emit (.packet { k.againOf now key o with status := 0 }) := if_neg h2
  unfold Pkg.resendDue
  simp only [h]
  congr 1
  unfold Pkg.resent
  rw [← hl]
  rfl
theorem exec_retxTimeExpiry (h : cls ≠ 2) : exec (.retxTimeExpiry p dst cls tree seq) s =
    onPkg p s fun k => k.resendDue s.now (flowKey dst.toNat cls.toNat 0) seq := by
  change execRetxTimeExpiry p dst cls tree seq s = _
  simp only [execRetxTimeExpiry, onPkg, Pkg.namedFlow_unicast h]
theorem Pkg.resent_flow (now key : Nat) (seq : Word) (o : TxOut) (k : Pkg) : (k.resent now key seq o).txFlow key =
    { k.txFlow key with out := (k.txFlow key).out.map (fun x => if x.pk.seq = seq then k.againOut now key o else x) } := Pkg.txFlow_setTx_same ..

theorem resends (s : State) (p : PkgId) (dst : BitVec 16) (cls : BitVec 3) (tree : Byte) (seq : Word) (o : TxOut) (hc : cls ≠ 2) (h2 : o.pk.cls ≠ 2) :
    let k := s.pkg p
    let key := flowKey dst.toNat cls.toNat 0
    let f := k.txFlow key
    let limit := k.get (F.FAB_LINK_CFG_RETX_LIMIT 0)
    let again : Packet := { k.stamped o.core o.pk with birth := k.birth s.now, newflow := !f.acked, status := 0 }
    f.out.find? (fun x => x.pk.seq = seq) = some o →
    let late := o.sentAt + 1000000 * k.get (F.FAB_LINK_CFG_RETX_TIME 0) ≤ s.now
    (¬ late → exec (.retxTimeExpiry p dst cls tree seq) s = .next (s.setPkg p k)) ∧
    (late → limit ≤ o.resends + 1 → ∃ j : Pkg, exec (.retxTimeExpiry p dst cls tree seq) s = .next (s.setPkg p j) ∧
      (j.txFlow key).seq = 0 ∧ (j.txFlow key).fgen = f.fgen + 1 ∧ (j.txFlow key).out = [] ∧ (j.txFlow key).acked = false ∧
      Msg.packet again ∈ j.out ∧ (o.core < 192 → o.pk.cls ≠ 4 → Msg.completion o.core o.pk.tag stPathDown [] ∈ j.out)) ∧
    (late → o.resends + 1 < limit → ∃ j : Pkg, exec (.retxTimeExpiry p dst cls tree seq) s = .next (s.setPkg p j) ∧
      (∀ x ∈ (j.txFlow key).out, x.pk.seq = seq → x.resends = o.resends + 1 ∧ x.sentAt = s.now ∧ x.pk.birth = k.birth s.now ∧
        x.pk.epoch = k.stamp) ∧ (j.txFlow key).seq = f.seq ∧ (j.txFlow key).fgen = f.fgen ∧ j.out = k.out ++ [.packet again] ∧
      j.get (F.FAB_FLOW_EVENTS_RETRANSMITS (k.tileOf key)) = min 65535 (k.get (F.FAB_FLOW_EVENTS_RETRANSMITS (k.tileOf key)) + 1)) := by
  intro k key f limit again hfind late
  have hex {j : Pkg} (h : k.resendDue s.now key seq = j) : exec (.retxTimeExpiry p dst cls tree seq) s = .next (s.setPkg p j) :=
    (exec_retxTimeExpiry hc).trans (onPkg_next h)
  have hdue := Pkg.resendDue_found (now := s.now) h2 hfind
  have ht := k.resent_flow s.now key seq o
  refine ⟨fun hl => hex (hdue.trans (if_pos (Nat.lt_of_not_le hl))), fun hl hm => ⟨_, hex (hdue.trans ((if_neg (Nat.not_lt.2 hl)).trans (if_pos hm))), ?_⟩,
    fun hl hm => ⟨_, hex (hdue.trans ((if_neg (Nat.not_lt.2 hl)).trans (if_neg (Nat.not_le.2 hm)))), ?_⟩⟩
  · obtain ⟨hr, hm, hd⟩ := (k.resent s.now key seq o).resetFlow_spec key (k.tileOf key) stPathDown
    refine ⟨congrArg TxFlow.seq hr, (congrArg TxFlow.fgen hr).trans (congrArg (·.fgen + 1) ht), congrArg TxFlow.out hr, congrArg TxFlow.acked hr,
      hm _ (List.mem_append_right _ (List.mem_singleton.2 rfl)), fun h192 h4 => hd (k.againOut s.now key o) ?_ h4 h192⟩
    rw [ht]
    refine List.mem_map.2 ⟨o, List.mem_of_find?_eq_some hfind, if_pos ?_⟩
    simpa using List.find?_some hfind
  · refine ⟨fun x hx hs => ?_, (congrArg TxFlow.seq ht :), (congrArg TxFlow.fgen ht :), rfl, ?_⟩
    · rw [ht] at hx
      obtain ⟨y, -, rfl⟩ := List.mem_map.1 hx
      by_cases hy : y.pk.seq = seq
      · rw [if_pos hy]
        exact ⟨rfl, rfl, rfl, rfl⟩
      · rw [if_neg hy] at hs
        exact absurd hs hy
    · exact (Pkg.get_count_same (k.setTx key { f with out := _ }) (F.FAB_FLOW_EVENTS_RETRANSMITS (k.tileOf key)) 1 (Nat.le_of_ble_eq_true rfl) :)

/-! ### RESPONSE_ARRIVAL -/

theorem exec_responseArrival (s : State) (p : PkgId) (pk : Packet) : exec (.responseArrival p pk) s = execResponseArrival p pk s := rfl
/-- The outstanding request that a response is for. -/
def Pkg.responds (pk : Packet) (k : Pkg) : Option TxOut :=
  (k.txFlow (flowKey (epPkg pk.src) 0 0)).out.find? (fun o => o.pk.seq = pk.seq && o.pk.fgen = pk.fgen && expectsResponse o.pk.opcode &&
    o.core = epCore pk.dst)
theorem Pkg.responds_core {o : TxOut} (h : k.responds pk = some o) : o.core = epCore pk.dst := by
  unfold Pkg.responds at h
  have hp := List.find?_some h
  rw [Bool.and_eq_true] at hp
  exact of_decide_eq_true hp.2
/-- The flow without a request that has its response. -/
def Pkg.responded (pk : Packet) (o : TxOut) (k : Pkg) : TxFlow :=
  { k.txFlow (flowKey (epPkg pk.src) 0 0) with out := (k.txFlow (flowKey (epPkg pk.src) 0 0)).out.erase o, acked := true }

/-- What a response does at a package. -/
def Pkg.hearResponse (pk : Packet) (k : Pkg) : Pkg :=
  let k1 := if pk.incarnation = k.coreInc (epCore pk.dst) then k else k.count (F.CORE_STALE_RESP_COUNT (epCore pk.dst % 192)) 1
  match k.responds pk with
  | none => k1
  | some o =>
    let k2 := k1.setTx (flowKey (epPkg pk.src) 0 0) (k.responded pk o)
    if pk.incarnation = k.coreInc (epCore pk.dst) then (k2.wakeFor (epCore pk.dst)).complete o pk.status (if pk.poison then [] else pk.payload) else k2
theorem execResponseArrival_eq : execResponseArrival p pk s = onPkg p s fun k => (k.newerSgen (epPkg pk.src) pk.sgen).hearResponse pk := by
  unfold execResponseArrival Pkg.hearResponse Pkg.responds Pkg.responded
  congr 1
  funext k
  dsimp only
  generalize k.newerSgen (epPkg pk.src) pk.sgen = k
  by_cases hi : pk.incarnation = k.coreInc (epCore pk.dst)
  · simp only [hi, ne_eq, not_true_eq_false, decide_false, if_true, Bool.false_eq_true, if_false] <;> rfl
  · simp only [hi, ne_eq, not_false_eq_true, decide_true, if_true, if_false] <;> rfl

theorem responses (s : State) (p : PkgId) (pk : Packet) :
    let k := s.pkg p
    let c := epCore pk.dst
    let key := flowKey (epPkg pk.src) 0 0
    let hit := k.responds pk
    (pk.incarnation = k.coreInc c → hit = none →
      exec (.responseArrival p pk) s = .next (s.setPkg p (k.newerSgen (epPkg pk.src) pk.sgen))) ∧
    (pk.incarnation ≠ k.coreInc c → ∃ j : Pkg, exec (.responseArrival p pk) s = .next (s.setPkg p j) ∧
      j.get (F.CORE_STALE_RESP_COUNT (c % 192)) = min 4294967295 (k.get (F.CORE_STALE_RESP_COUNT (c % 192)) + 1) ∧
      (∀ o, o ≠ R.CORE_STALE_RESP (c % 192) → j.rg o = k.rg o) ∧ j.out = k.out ∧
      ∀ o, hit = some o → (j.txFlow key).out = (k.txFlow key).out.erase o) ∧
    (∀ o, pk.incarnation = k.coreInc c → hit = some o → o.pk.cls ≠ 4 → c < 192 → ∃ j : Pkg,
      exec (.responseArrival p pk) s = .next (s.setPkg p j) ∧ (j.txFlow key).out = (k.txFlow key).out.erase o ∧ (j.txFlow key).acked = true ∧
        Msg.completion c o.pk.tag pk.status (if pk.poison then [] else pk.payload) ∈ j.out) := by
  intro k c key hit
  have hex {j : Pkg} (h : (k.newerSgen (epPkg pk.src) pk.sgen).hearResponse pk = j) : exec (.responseArrival p pk) s = .next (s.setPkg p j) :=
    (exec_responseArrival ..).trans (execResponseArrival_eq.trans (onPkg_next h))
  generalize hk : k.newerSgen (epPkg pk.src) pk.sgen = n at hex
  have hfab : n.fab = k.fab := by rw [← hk]; rfl
  have hregs : n.regs = k.regs := by rw [← hk]; rfl
  have hout : n.out = k.out := by rw [← hk]; rfl
  have hinc : n.coreInc c = k.coreInc c := by rw [← hk]; rfl
  have hhit : n.responds pk = hit := by rw [← hk]; rfl
  have hresp (o : TxOut) : n.responded pk o = k.responded pk o := by rw [← hk]; rfl
  refine ⟨fun hi hn => hex ?_, fun hi => ⟨_, hex rfl, ?_⟩, fun o hi ho h4 hc => ⟨_, hex rfl, ?_⟩⟩
  · unfold Pkg.hearResponse
    rw [hhit, hn]
    exact if_pos (hi.trans hinc.symm)
  · have hi' : ¬ pk.incarnation = n.coreInc (epCore pk.dst) := fun e => hi (e.trans hinc)
    have hj : (n.hearResponse pk).regs = (n.count (F.CORE_STALE_RESP_COUNT (c % 192)) 1).regs ∧ (n.hearResponse pk).out = n.out ∧
        ∀ o, hit = some o → (n.hearResponse pk).txFlow key = n.responded pk o := by
      unfold Pkg.hearResponse
      simp only [if_neg hi', hhit]
      cases hit with
      | none => exact ⟨rfl, rfl, fun _ h => nomatch h⟩
      | some o => exact ⟨rfl, rfl, fun _ h => Option.some.inj h ▸ Pkg.txFlow_setTx_same ..⟩
    obtain ⟨hr, ho, hf⟩ := hj
    refine ⟨?_, fun o hne => ?_, ho.trans hout, fun o h => (congrArg TxFlow.out (hf o h)).trans (congrArg TxFlow.out (hresp o))⟩
    · refine (Pkg.get_of_regs hr _).trans ((Pkg.get_count_same n _ 1 (Nat.le_of_ble_eq_true rfl)).trans ?_)
      rw [Pkg.get_of_regs hregs]
      rfl
    · exact (Pkg.rg_of_regs hr o).trans ((Pkg.rg_put_ne _ _ _ hne).trans (Pkg.rg_of_regs hregs o))
  · have hi' : pk.incarnation = n.coreInc (epCore pk.dst) := hi.trans hinc.symm
    have hco : o.core = c := Pkg.responds_core ho
    unfold Pkg.hearResponse
    simp only [if_pos hi', hhit, ho]
    obtain ⟨hf, -, hm⟩ := ((n.setTx key (n.responded pk o)).wakeFor c).complete_spec o pk.status (if pk.poison then [] else pk.payload)
    have hw : ((n.setTx key (n.responded pk o)).wakeFor c).fab = (n.setTx key (n.responded pk o)).fab := by
      unfold Pkg.wakeFor
      split
      · exact (Pkg.wakeCore_aonOnly c _).fab
      · rfl
    have ht := (Pkg.txFlow_of_fab (hf.trans hw) key).trans (Pkg.txFlow_setTx_same ..)
    exact ⟨(congrArg TxFlow.out ht).trans (congrArg TxFlow.out (hresp o)), congrArg TxFlow.acked ht, hco ▸ hm h4 (hco ▸ hc)⟩

/-- Settles O28, command by command: issue, sending, acknowledgement, resend, response. -/
theorem flowSource : Obligations.FlowSource := by
  intro s p k
  refine ⟨fun c rq => ?_, fun dst cls h => ?_, fun pk h => ?_, fun dst cls tree seq o hc h2 => ?_, fun pk => ?_⟩
  · exact requestIssues s p c rq _ Pkg.requestOf_issues.symm
  · exact flowSends s p dst cls h
  · exact acks s p pk h
  · exact resends s p dst cls tree seq o hc h2
  · exact responses s p pk
end Sys2Proof.Machine
end

section
/-! PROOF. Obligation O29, first part: Table 7.7 for a packet that has reached its receiver (R161, R162, R196, R198). -/
namespace Sys2Proof.Machine
open Sys2Proof

variable {s : State} {p : PkgId} {k : Pkg} {m : Mem} {now key n : Nat} {pk : Packet} {dl : Deliver} {f : RxFlow}

theorem Pkg.rxFlow_setRx_same (key : Nat) (f : RxFlow) (k : Pkg) : (k.setRx key f).rxFlow key = some f := sfind_sinsert_same ..
theorem Pkg.rxFlow_setRx_ne {o : Nat} (h : o ≠ key) (f : RxFlow) (k : Pkg) : (k.setRx key f).rxFlow o = k.rxFlow o := sfind_sinsert_ne h _ _
theorem Pkg.newerSgen_none (h : k.mem.grants = []) (src : Nat) (g : Byte) : k.newerSgen src g = k := by
  have hm : (k.mem.grants.filter (fun x => !(x.borrower.toNat = src && serialGt g x.sgen))) = k.mem.grants := by rw [h]; rfl
  unfold Pkg.newerSgen Pkg.setGrants
  rw [hm]

/-! ### Delivery in order -/

theorem runDeliver_unknown (h : k.rxFlow key = none) : ∀ n, runDeliver dl key now n (m, k) = (m, k)
  | 0 => rfl
  | n + 1 => by simp only [runDeliver, h]
/-- Nothing is delivered while the next packet has not come. -/
theorem runDeliver_gap (h : k.rxFlow key = some f) (hn : f.held.find? (fun x => x.seq = f.next) = none) : ∀ n, runDeliver dl key now n (m, k) = (m, k)
  | 0 => rfl
  | n + 1 => by simp only [runDeliver, h, hn]
theorem runDeliver_drop (h : k.rxFlow key = some f) (hn : f.held.find? (fun x => x.seq = f.next) = some pk) (ht : k.takes pk = .drop) :
    runDeliver dl key now (n + 1) (m, k) = (m, (k.setRx key { f with held := f.held.erase pk }).count F.FLT_DROPS_MGMT_SINK 1) := by
  simp only [runDeliver, h, hn, ht]
/-- A flow whose next packet has been delivered. -/
def RxFlow.delivered (now : Nat) (pk : Packet) (f : RxFlow) : RxFlow :=
  { f with next := f.next + 1, held := f.held.erase pk, unacked := f.unacked + 1, firstUnacked := some (f.firstUnacked.getD now) }
theorem runDeliver_yes (h : k.rxFlow key = some f) (hn : f.held.find? (fun x => x.seq = f.next) = some pk) (ht : k.takes pk = .yes) :
    runDeliver dl key now (n + 1) (m, k) = runDeliver dl key now n (dl pk (m, k.setRx key (f.delivered now pk))) := by
  simp only [runDeliver, h, hn, ht]
  rfl
theorem Pkg.ackIfDue_unknown (h : k.rxFlow key = none) : k.ackIfDue now key pk = k := by unfold Pkg.ackIfDue; simp only [h]
theorem Pkg.ackIfDue_early (h : k.rxFlow key = some f) (hu : f.unacked < k.ackCountNow) : k.ackIfDue now key pk = k := by
  unfold Pkg.ackIfDue
  simp only [h]
  exact if_neg (Nat.not_le.2 hu)
/-- A flow that has been acknowledged. -/
def RxFlow.acked (f : RxFlow) : RxFlow := { f with unacked := 0, firstUnacked := none }
theorem Pkg.ackIfDue_due (h : k.rxFlow key = some f) (hu : k.ackCountNow ≤ f.unacked) :
    k.ackIfDue now key pk = (k.setRx key f.acked).sendAck now pk stOK f.next f.fgen := by
  unfold Pkg.ackIfDue
  simp only [h]
  exact if_pos hu

/-! ### Table 7.7 -/

/-- A packet of the generation held, at its flow. -/
def judged (now : Nat) (dl : Deliver) (pk : Packet) (m : Mem) (k : Pkg) (f : RxFlow) : Mem × Pkg :=
  if (pk.seq - f.next).toNat < 512 then
    if f.held.any (fun h => h.seq = pk.seq) then (m, k.setRx (flowOf pk) f)
    else if (pk.seq - f.next).toNat ≠ 0 ∧ 2 ^ 21 < k.reorderUsed (k.tileOf (flowOf pk)) + storeSize pk then
      (m, (k.setRx (flowOf pk) f).count (F.FAB_DISCARD_B_REORDER_FULL (k.tileOf (flowOf pk))) 1)
    else if (pk.seq - f.next).toNat = 0 ∧ pk.cls = 0 ∧ k.storeFull then (m, (k.setRx (flowOf pk) f).stall 200 pk)
    else
      let r := runDeliver dl (flowOf pk) now 513 (m, k.setRx (flowOf pk) { f with held := f.held ++ [pk] })
      (r.1, r.2.ackIfDue now (flowOf pk) pk)
  else if (pk.seq - f.next).toNat < 2 ^ 31 then
    (m, (k.setRx (flowOf pk) f).count (F.FAB_DISCARD_B_REORDER_FULL (k.tileOf (flowOf pk))) 1)
  else (m, (k.setRx (flowOf pk) f).duplicate now f pk)
/-- Table 7.7. -/
def atReceiver (now : Nat) (dl : Deliver) (pk : Packet) (m : Mem) (k : Pkg) : Mem × Pkg :=
  match genCase (k.rxFlow (flowOf pk)) pk, k.rxFlow (flowOf pk) with
  | .stale, _ => (m, k.count (F.FAB_DISCARD_B_STALE_FLOW (k.tileOf (flowOf pk))) 1)
  | .unknown, _ => (m, (k.count (F.FAB_FLOW_EVENTS_RESYNCS (k.tileOf (flowOf pk))) 1).sendAck now pk stResync 0 pk.fgen)
  | .fresh, _ => judged now dl pk m k (freshRx pk)
  | .current, some f => judged now dl pk m k f
  | .current, none => judged now dl pk m k (freshRx pk)
theorem receivePacket_eq (now : Nat) (dl : Deliver) (pk : Packet) (m : Mem) (k : Pkg) :
    receivePacket now dl pk m k = atReceiver now dl pk m (k.newerSgen (epPkg pk.src) pk.sgen) := rfl
theorem receivePacket_stale (h : k.mem.grants = []) (hg : genCase (k.rxFlow (flowOf pk)) pk = .stale) :
    receivePacket now dl pk m k = (m, k.count (F.FAB_DISCARD_B_STALE_FLOW (k.tileOf (flowOf pk))) 1) := by
  rw [receivePacket_eq, Pkg.newerSgen_none h, atReceiver, hg]
theorem receivePacket_unknown (h : k.mem.grants = []) (hg : genCase (k.rxFlow (flowOf pk)) pk = .unknown) :
    receivePacket now dl pk m k = (m, (k.count (F.FAB_FLOW_EVENTS_RESYNCS (k.tileOf (flowOf pk))) 1).sendAck now pk stResync 0 pk.fgen) := by
  rw [receivePacket_eq, Pkg.newerSgen_none h, atReceiver, hg]
/-- The flow's state that judges a packet: the one held, or a fresh one. -/
def Pkg.Judges (pk : Packet) (f : RxFlow) (k : Pkg) : Prop :=
  (genCase (k.rxFlow (flowOf pk)) pk = .current ∧ k.rxFlow (flowOf pk) = some f) ∨ (genCase (k.rxFlow (flowOf pk)) pk = .fresh ∧ f = freshRx pk)
theorem receivePacket_judged (h : k.mem.grants = []) (hj : k.Judges pk f) : receivePacket now dl pk m k = judged now dl pk m k f := by
  rcases hj with ⟨hg, hf⟩ | ⟨hg, rfl⟩
  · rw [receivePacket_eq, Pkg.newerSgen_none h, atReceiver, hg, hf]
  · rw [receivePacket_eq, Pkg.newerSgen_none h, atReceiver, hg]

section
variable (hd : (pk.seq - f.next).toNat < 512) (hn : f.held.any (fun h => h.seq = pk.seq) = false)
include hd hn
/-- A packet that is next, or that the reorder store has room for, joins what is held. -/
theorem judged_joins (hr : (pk.seq - f.next).toNat = 0 ∨ k.reorderUsed (k.tileOf (flowOf pk)) + storeSize pk ≤ 2 ^ 21)
    (hs : (pk.seq - f.next).toNat ≠ 0 ∨ pk.cls ≠ 0 ∨ k.storeFull = false) : judged now dl pk m k f =
      let r := runDeliver dl (flowOf pk) now 513 (m, k.setRx (flowOf pk) { f with held := f.held ++ [pk] })
      (r.1, r.2.ackIfDue now (flowOf pk) pk) := by
  unfold judged
  rw [if_pos hd, if_neg (by rw [hn]; decide), if_neg (by omega), if_neg]
  rintro ⟨h0, hc, hf⟩
  rcases hs with hs | hs | hs
  · exact hs h0
  · exact hs hc
  · rw [hs] at hf
    cases hf
end
theorem judged_stalls (hd : (pk.seq - f.next).toNat = 0) (hn : f.held = []) (hc : pk.cls = 0) (hs : k.storeFull = true) :
    judged now dl pk m k f = (m, (k.setRx (flowOf pk) f).stall 200 pk) := by
  unfold judged
  rw [hd, hn, if_pos (by omega), if_neg (by simp), if_neg (by omega), if_pos ⟨rfl, hc, hs⟩]
theorem seq_next (hd : (pk.seq - f.next).toNat = 0) : pk.seq = f.next := by bv_omega
theorem find_next (hn : f.held = []) (hd : (pk.seq - f.next).toNat = 0) : (f.held ++ [pk]).find? (fun x => x.seq = f.next) = some pk := by
  rw [hn, List.nil_append, List.find?_cons_of_pos (by simpa using seq_next hd)]

/-! ### Requests and management packets -/

theorem Pkg.takes_yes (h : pk.cls = 0 ∨ pk.cls = 4) (h0 : pk.cls = 0 → k.storeFull = false)
    (h4 : pk.cls = 4 → Config.turnOpcode pk.opcode = true ∨ k.fab.sink.length < 1024) : k.takes pk = .yes := by
  unfold Pkg.takes
  rcases h with h | h
  · rw [if_pos h, if_neg (by rw [h0 h]; decide)]
  · rw [if_neg (by rw [h]; decide), if_pos h, if_neg]
    rcases h4 h with h | h
    · simp [h]
    · simp [Nat.not_le.2 h]
theorem Pkg.takes_drop (h4 : pk.cls = 4) (ht : Config.turnOpcode pk.opcode = false) (hs : 1024 ≤ k.fab.sink.length) : k.takes pk = .drop := by
  unfold Pkg.takes
  rw [if_neg (by rw [h4]; decide), if_pos h4, if_pos (by simp [ht, hs])]
theorem Pkg.takeMgmt_sink (h : Config.turnOpcode pk.opcode = false) : k.takeMgmt pk = { k with fab := { k.fab with sink := k.fab.sink ++ [pk] } } := by
  unfold Pkg.takeMgmt
  rw [h]
  rfl
theorem Pkg.takeMgmt_turn (h : Config.turnOpcode pk.opcode = true) : k.takeMgmt pk = match Config.turnMessage pk.opcode pk.payload with
    | some x => { k with chart := { k.chart with arrived := k.chart.arrived ++ [(x.1.val + 1, x.2)] } }
    | none => k := by
  unfold Pkg.takeMgmt
  rw [h] <;> rfl
/-- A management packet touches no flow, memory or output. -/
theorem Pkg.takeMgmt_same (pk : Packet) (k : Pkg) : (k.takeMgmt pk).fab.rx = k.fab.rx ∧ (k.takeMgmt pk).out = k.out ∧
    (k.takeMgmt pk).mem = k.mem ∧ (k.takeMgmt pk).ackCountNow = k.ackCountNow := by
  cases h : Config.turnOpcode pk.opcode with
  | false =>
    rw [Pkg.takeMgmt_sink h]
    exact ⟨rfl, rfl, rfl, rfl⟩
  | true =>
    rw [Pkg.takeMgmt_turn h]
    cases Config.turnMessage pk.opcode pk.payload <;> exact ⟨rfl, rfl, rfl, rfl⟩
/-- Delivery of a request or management packet touches neither the receiver's flows nor what goes out. -/
structure DeliversTo (pk : Packet) (k j : Pkg) : Prop where
  rx : j.fab.rx = k.fab.rx
  out : j.out = k.out
  mem : j.mem = k.mem
  ackCount : j.ackCountNow = k.ackCountNow
  inbound : pk.cls = 0 → j.fab.inbound = k.fab.inbound ++ [pk]
  sink : pk.cls = 4 → Config.turnOpcode pk.opcode = false → j.fab.sink = k.fab.sink ++ [pk]
  arrived : ∀ x, pk.cls = 4 → Config.turnOpcode pk.opcode = true → Config.turnMessage pk.opcode pk.payload = some x →
    j.chart.arrived = k.chart.arrived ++ [(x.1.val + 1, x.2)]
theorem deliverUnicast_spec (pk : Packet) (m : Mem) (k : Pkg) : ∃ j, deliverUnicast pk (m, k) = (m, j) ∧ DeliversTo pk k j := by
  by_cases h4 : pk.cls = 4
  · refine ⟨k.takeMgmt pk, if_pos h4, ?_⟩
    obtain ⟨h1, h2, h3, h5⟩ := k.takeMgmt_same pk
    refine ⟨h1, h2, h3, h5, fun h => absurd (h.symm.trans h4) (by decide), fun _ ht => ?_, fun x _ ht hx => ?_⟩
    · rw [Pkg.takeMgmt_sink ht]
    · rw [Pkg.takeMgmt_turn ht, hx]
  · exact ⟨_, if_neg h4, rfl, rfl, rfl, rfl, fun _ => rfl, fun h => absurd h h4, fun _ h => absurd h h4⟩
/-- The flow's state once its next packet, which it holds no other with, has been delivered. -/
def RxFlow.advanced (now : Nat) (f : RxFlow) : RxFlow :=
  { f with next := f.next + 1, unacked := f.unacked + 1, firstUnacked := some (f.firstUnacked.getD now) }
theorem RxFlow.delivered_next (h : f.held = []) : ({ f with held := f.held ++ [pk] } : RxFlow).delivered now pk = f.advanced now := by
  unfold RxFlow.delivered RxFlow.advanced
  rw [h]
  simp only [List.nil_append, List.erase_cons_head]
/-- The next packet of a flow that holds none is delivered, and acknowledged where that is due. -/
theorem judged_delivers (hd : (pk.seq - f.next).toNat = 0) (hn : f.held = []) (hs : pk.cls ≠ 0 ∨ k.storeFull = false)
    (ht : k.takes pk = .yes) : ∃ k0 k1 : Pkg, DeliversTo pk k0 k1 ∧ (∃ r, k0 = { k with fab := { k.fab with rx := r } }) ∧
      k1.rxFlow (flowOf pk) = some (f.advanced now) ∧
      judged now deliverUnicast pk m k f = (m, k1.ackIfDue now (flowOf pk) pk) := by
  have hnone : f.held.any (fun h => h.seq = pk.seq) = false := by rw [hn]; rfl
  obtain ⟨k1, hk, hj⟩ := deliverUnicast_spec pk m ((k.setRx (flowOf pk) { f with held := f.held ++ [pk] }).setRx (flowOf pk) (f.advanced now))
  have hx : k1.rxFlow (flowOf pk) = some (f.advanced now) :=
    (congrArg (sfind · (flowOf pk)) hj.rx).trans (Pkg.rxFlow_setRx_same ..)
  refine ⟨_, k1, hj, ⟨_, rfl⟩, hx, ?_⟩
  rw [judged_joins (by omega) hnone (.inl hd) (.inr hs)]
  dsimp only
  rw [runDeliver_yes (Pkg.rxFlow_setRx_same ..) (find_next hn hd) ht, RxFlow.delivered_next hn, hk,
    runDeliver_gap hx (show (f.advanced now).held.find? _ = none by rw [show (f.advanced now).held = [] from hn]; rfl)]
end Sys2Proof.Machine
end

section
/-! PROOF. Obligation O29: the receiver side of a flow and the service of requests (R56, R157, R161, R162, R196, R198). -/
namespace Sys2Proof.Machine
open Sys2Proof

variable {s : State} {p : PkgId} {k j : Pkg} {m : Mem} {now key n : Nat} {pk rq : Packet} {dl : Deliver} {f : RxFlow} {c : Instr}

/-! ### FLOW_PACKET_RECEIVE and MGMT_PACKET -/

theorem exec_flowPacketReceive (s : State) (p : PkgId) (pk : Packet) : exec (.flowPacketReceive p pk) s = onPkgMem p s fun m k =>
    if pk.cls = 0 ∨ pk.cls = 4 then receivePacket s.now deliverUnicast pk m k else (m, k) := rfl
theorem exec_mgmtPacket (s : State) (p : PkgId) (pk : Packet) : exec (.mgmtPacket p pk) s = onPkgMem p s fun m k =>
    if pk.cls ≠ 4 then (m, k) else receivePacket s.now deliverUnicast pk m k := rfl
theorem onPkgMem_next {g : Mem → Pkg → Mem × Pkg} (h : g s.mem (s.pkg p) = (s.mem, j)) : onPkgMem p s g = .next (s.setPkg p j) := by
  unfold onPkgMem
  rw [h]
/-- A command that brings a packet of class 0 or 4 to its receiver. -/
def Receives (p : PkgId) (pk : Packet) (c : Instr) : Prop :=
  (c = .flowPacketReceive p pk ∧ (pk.cls = 0 ∨ pk.cls = 4)) ∨ (c = .mgmtPacket p pk ∧ pk.cls = 4)
theorem Receives.exec (hc : Receives p pk c) (h : receivePacket s.now deliverUnicast pk s.mem (s.pkg p) = (s.mem, j)) :
    exec c s = .next (s.setPkg p j) := by
  rcases hc with ⟨rfl, hc⟩ | ⟨rfl, hc⟩
  · exact (exec_flowPacketReceive ..).trans (onPkgMem_next ((if_pos hc).trans h))
  · exact (exec_mgmtPacket ..).trans (onPkgMem_next ((if_neg fun hn => hn hc).trans h))
theorem Receives.cls (hc : Receives p pk c) : pk.cls = 0 ∨ pk.cls = 4 := by
  rcases hc with ⟨-, hc⟩ | ⟨-, hc⟩
  · exact hc
  · exact .inr hc

/-- The states in which a received packet leaves a package. -/
theorem receives (s : State) (p : PkgId) (pk : Packet) (c : Instr) (hg : (s.pkg p).mem.grants = []) (hc : Receives p pk c) :
    let k := s.pkg p
    let key := flowOf pk
    let tile := k.tileOf key
    let next (f : Pkg → Prop) : Prop := ∃ j : Pkg, exec c s = .next (s.setPkg p j) ∧ j.mem = k.mem ∧ f j
    let same (j : Pkg) : Prop := j.fab.inbound = k.fab.inbound ∧ j.fab.sink = k.fab.sink ∧ j.fab.stalled = k.fab.stalled ∧ j.fab.tx = k.fab.tx
    (genCase (k.rxFlow key) pk = .stale → next fun j => j.fab = k.fab ∧ j.out = k.out ∧
      j.get (F.FAB_DISCARD_B_STALE_FLOW tile) = min 255 (k.get (F.FAB_DISCARD_B_STALE_FLOW tile) + 1)) ∧
    (genCase (k.rxFlow key) pk = .unknown → next fun j => j.fab = k.fab ∧
      j.get (F.FAB_FLOW_EVENTS_RESYNCS tile) = min 15 (k.get (F.FAB_FLOW_EVENTS_RESYNCS tile) + 1) ∧
      ∃ a : Packet, j.out = k.out ++ [.packet a] ∧ a.opcode = opAck ∧
        a.status = stResync ∧ a.fgen = pk.fgen ∧ a.dst = BitVec.ofNat 24 (epPkg pk.src * 256)) ∧
    (∀ f, ((genCase (k.rxFlow key) pk = .current ∧ k.rxFlow key = some f) ∨ (genCase (k.rxFlow key) pk = .fresh ∧ f = freshRx pk)) →
      let d := (pk.seq - f.next).toNat
      (512 ≤ d → d < 2147483648 → next fun j => same j ∧ j.rxFlow key = some f ∧ j.out = k.out ∧
        j.get (F.FAB_DISCARD_B_REORDER_FULL tile) = min 255 (k.get (F.FAB_DISCARD_B_REORDER_FULL tile) + 1)) ∧
      (pk.cls = 4 → 2147483648 ≤ d → next fun j => same j ∧ j.rxFlow key = some { f with unacked := 0, firstUnacked := none } ∧
        j.get (F.FAB_FLOW_EVENTS_DUPLICATES tile) = min 255 (k.get (F.FAB_FLOW_EVENTS_DUPLICATES tile) + 1) ∧
        ∃ a : Packet, j.out = k.out ++ [.packet a] ∧ a.opcode = opAck ∧ a.status = stOK ∧ a.seq = f.next ∧ a.fgen = f.fgen) ∧
      (d < 512 → f.held.any (fun h => h.seq = pk.seq) = true → next fun j => same j ∧ j.rxFlow key = some f ∧ j.out = k.out ∧
        j.regs = k.regs) ∧
      (d = 0 → f.held = [] → pk.cls = 0 → k.storeFull = true → next fun j => j.rxFlow key = some f ∧ j.out = k.out ∧
        j.fab.stalled = k.fab.stalled ++ [(200, pk)] ∧ j.fab.inbound = k.fab.inbound) ∧
      (d = 0 → f.held = [] → pk.cls = 4 → Config.turnOpcode pk.opcode = false → 1024 ≤ k.fab.sink.length → f.unacked < k.ackCountNow →
        next fun j => same j ∧ j.rxFlow key = some f ∧ j.out = k.out ∧
          j.get F.FLT_DROPS_MGMT_SINK = min 65535 (k.get F.FLT_DROPS_MGMT_SINK + 1)) ∧
      (d = 0 → f.held = [] → (pk.cls = 0 → k.storeFull = false) →
          (pk.cls = 4 → Config.turnOpcode pk.opcode = true ∨ k.fab.sink.length < 1024) → next fun j =>
        (∃ g, j.rxFlow key = some g ∧ g.next = f.next + 1 ∧ g.held = [] ∧ g.fgen = f.fgen ∧ g.sgen = f.sgen) ∧
        (pk.cls = 0 → j.fab.inbound = k.fab.inbound ++ [pk]) ∧
        (pk.cls = 4 → Config.turnOpcode pk.opcode = false → j.fab.sink = k.fab.sink ++ [pk]) ∧
        (∀ x, pk.cls = 4 → Config.turnOpcode pk.opcode = true → Config.turnMessage pk.opcode pk.payload = some x →
          j.chart.arrived = k.chart.arrived ++ [(x.1.val + 1, x.2)]) ∧
        (f.unacked + 1 < k.ackCountNow → j.out = k.out) ∧
        (k.ackCountNow ≤ f.unacked + 1 → ∃ a : Packet, j.out = k.out ++ [.packet a] ∧ a.opcode = opAck ∧ a.status = stOK ∧
          a.seq = f.next + 1 ∧ a.fgen = f.fgen)) ∧
      (0 < d → d < 512 → f.held.any (fun h => h.seq = pk.seq) = false → k.reorderUsed tile + storeSize pk ≤ 2097152 →
        f.held.all (fun h => h.seq ≠ f.next) = true → next fun j => same j ∧ ∃ g, j.rxFlow key = some g ∧ g.next = f.next ∧
          g.held = f.held ++ [pk])) := by
  intro k key tile next same
  have hex {j : Pkg} (h : receivePacket s.now deliverUnicast pk s.mem k = (s.mem, j)) : exec c s = .next (s.setPkg p j) := hc.exec h
  refine ⟨fun h => ⟨_, hex (receivePacket_stale hg h), rfl, rfl, rfl, (Pkg.get_count_same k (F.FAB_DISCARD_B_STALE_FLOW tile) 1 (Nat.le_of_ble_eq_true rfl) :)⟩,
    fun h => ⟨_, hex (receivePacket_unknown hg h), rfl, rfl, (Pkg.get_count_same k (F.FAB_FLOW_EVENTS_RESYNCS tile) 1 (Nat.le_of_ble_eq_true rfl) :),
      _, rfl, rfl, rfl, rfl, rfl⟩, fun f hj => ?_⟩
  intro d
  have hjx {j : Pkg} (h : judged s.now deliverUnicast pk s.mem k f = (s.mem, j)) : exec c s = .next (s.setPkg p j) :=
    hex ((receivePacket_judged hg hj).trans h)
  refine ⟨fun h1 h2 => ⟨_, hjx ((if_neg (Nat.not_lt.2 h1)).trans (if_pos h2)), rfl, ⟨rfl, rfl, rfl, rfl⟩, Pkg.rxFlow_setRx_same .., rfl,
      (Pkg.get_count_same (k.setRx key f) (F.FAB_DISCARD_B_REORDER_FULL tile) 1 (Nat.le_of_ble_eq_true rfl) :)⟩, fun h4 h1 => ?_,
    fun h1 h2 => ⟨_, hjx ((if_pos h1).trans (if_pos h2)), rfl, ⟨rfl, rfl, rfl, rfl⟩, Pkg.rxFlow_setRx_same .., rfl, rfl⟩,
    fun h0 hn hc0 hs => ⟨_, hjx (judged_stalls h0 hn hc0 hs), rfl, Pkg.rxFlow_setRx_same .., rfl, rfl, rfl⟩,
    fun h0 hn h4 ht hs hu => ?_, fun h0 hn hs hk => ?_, fun h0 h1 hn hr ha => ?_⟩
  · have hdup : (k.setRx key f).duplicate s.now f pk =
        (((k.setRx key f).count (F.FAB_FLOW_EVENTS_DUPLICATES tile) 1).setRx key f.acked).sendAck s.now pk stOK f.next f.fgen :=
      if_pos (.inl (by rw [h4]; decide))
    refine ⟨_, hjx ((if_neg (by omega)).trans (if_neg (Nat.not_lt.2 h1))), ?_⟩
    rw [hdup]
    exact ⟨rfl, ⟨rfl, rfl, rfl, rfl⟩, Pkg.rxFlow_setRx_same ..,
      (Pkg.get_count_same (k.setRx key f) (F.FAB_FLOW_EVENTS_DUPLICATES tile) 1 (Nat.le_of_ble_eq_true rfl) :), _, rfl, rfl, rfl, rfl, rfl⟩
  · have hjoin := judged_joins (now := s.now) (dl := deliverUnicast) (m := s.mem) (k := k) (show (pk.seq - f.next).toNat < 512 by omega)
      (by rw [hn]; rfl) (.inl h0) (.inr (.inl (by rw [h4]; decide)))
    dsimp only at hjoin
    rw [runDeliver_drop (Pkg.rxFlow_setRx_same ..) (find_next hn h0) (Pkg.takes_drop h4 ht hs)] at hjoin
    have hf : ({ f with held := (f.held ++ [pk]).erase pk } : RxFlow) = f := by
      rw [hn]
      simp only [List.nil_append, List.erase_cons_head]
      rw [← hn]
    have hx : (((k.setRx key { f with held := f.held ++ [pk] }).setRx key f).count F.FLT_DROPS_MGMT_SINK 1).rxFlow key = some f :=
      Pkg.rxFlow_setRx_same ..
    rw [hf, Pkg.ackIfDue_early hx hu] at hjoin
    exact ⟨_, hjx hjoin, rfl, ⟨rfl, rfl, rfl, rfl⟩, Pkg.rxFlow_setRx_same .., rfl,
      (Pkg.get_count_same ((k.setRx key { f with held := f.held ++ [pk] }).setRx key f) F.FLT_DROPS_MGMT_SINK 1 (by decide) :)⟩
  · have hs' : pk.cls ≠ 0 ∨ k.storeFull = false := by
      by_cases h : pk.cls = 0
      · exact .inr (hs h)
      · exact .inl h
    obtain ⟨k0, k1, hd, ⟨r, rfl⟩, hx, hj1⟩ := judged_delivers (now := s.now) (m := s.mem) h0 hn hs' (Pkg.takes_yes hc.cls hs hk)
    have hac : k1.ackCountNow = k.ackCountNow := hd.ackCount
    refine ⟨_, hjx hj1, ?_⟩
    by_cases hu : f.unacked + 1 < k.ackCountNow
    · rw [Pkg.ackIfDue_early hx (hu.trans_eq hac.symm)]
      exact ⟨hd.mem, ⟨_, hx, rfl, hn, rfl, rfl⟩, hd.inbound, hd.sink, hd.arrived, fun _ => hd.out, fun h => absurd hu (Nat.not_lt.2 h)⟩
    · rw [Pkg.ackIfDue_due hx (hac.trans_le (Nat.le_of_not_lt hu))]
      exact ⟨hd.mem, ⟨_, Pkg.rxFlow_setRx_same .., rfl, hn, rfl, rfl⟩, hd.inbound, hd.sink, hd.arrived, fun h => absurd h hu,
        fun _ => ⟨_, congrArg (· ++ [_]) hd.out, rfl, rfl, rfl, rfl⟩⟩
  · have hjoin := judged_joins (now := s.now) (dl := deliverUnicast) (m := s.mem) (k := k) h1 hn (.inr hr) (.inl (by omega))
    dsimp only at hjoin
    have hgap : (f.held ++ [pk]).find? (fun x => x.seq = f.next) = none := by
      refine List.find?_eq_none.2 fun x hx => ?_
      rcases List.mem_append.1 hx with hx | hx
      · simpa using List.all_eq_true.1 ha x hx
      · rw [List.mem_singleton.1 hx]
        intro he
        have he : pk.seq = f.next := by simpa using he
        have : d = 0 := by simp only [d, he]; simp
        omega
    have hx : (k.setRx (flowOf pk) { f with held := f.held ++ [pk] }).rxFlow (flowOf pk) = some { f with held := f.held ++ [pk] } :=
      Pkg.rxFlow_setRx_same ..
    rw [runDeliver_gap hx hgap] at hjoin
    refine ⟨_, hjx hjoin, ?_⟩
    by_cases hu : f.unacked < k.ackCountNow
    · rw [Pkg.ackIfDue_early hx hu]
      exact ⟨rfl, ⟨rfl, rfl, rfl, rfl⟩, _, hx, rfl, rfl⟩
    · rw [Pkg.ackIfDue_due hx (Nat.le_of_not_lt hu)]
      exact ⟨rfl, ⟨rfl, rfl, rfl, rfl⟩, _, Pkg.rxFlow_setRx_same .., rfl, rfl⟩
end Sys2Proof.Machine
end

section
/-! PROOF. Obligation O29: ACK_TIME_EXPIRY and the service of requests (R56, R162, R196, R197). -/
namespace Sys2Proof.Machine
open Sys2Proof

variable {s : State} {p : PkgId} {k j : Pkg} {m : Mem} {now key n : Nat} {pk rq : Packet} {dl : Deliver} {f : RxFlow} {a : Answer}

/-! ### ACK_TIME_EXPIRY -/

/-- What ACK_TIME_EXPIRY does at a package. -/
def Pkg.ackTimeStep (now key : Nat) (k : Pkg) : Pkg :=
  match k.rxFlow key with
  | none => k
  | some f => match f.firstUnacked with
    | none => k
    | some t => if now < t + 1000 * ackTime k.chart.active then k
      else (k.setRx key f.acked).sendAck now (k.likeOf now key) stOK f.next f.fgen
theorem exec_ackTimeExpiry {src : BitVec 16} {cls : BitVec 3} {tree : Byte} : exec (.ackTimeExpiry p src cls tree) s =
    onPkg p s fun k => k.ackTimeStep s.now (flowKey src.toNat cls.toNat (tree.toNat % 128)) := rfl
theorem Pkg.ackTimeStep_early (h : (k.rxFlow key).all (fun f => f.firstUnacked.all (fun t => now < t + 1000 * ackTime k.chart.active)) = true) :
    k.ackTimeStep now key = k := by
  unfold Pkg.ackTimeStep
  cases hf : k.rxFlow key with
  | none => rfl
  | some f =>
    cases ht : f.firstUnacked with
    | none => simp only [ht]
    | some t =>
      rw [hf, Option.all_some, ht, Option.all_some] at h
      simp only [ht]
      exact if_pos (of_decide_eq_true h)
theorem Pkg.ackTimeStep_due {t : Nat} (hf : k.rxFlow key = some f) (ht : f.firstUnacked = some t) (h : t + 1000 * ackTime k.chart.active ≤ now) :
    k.ackTimeStep now key = (k.setRx key f.acked).sendAck now (k.likeOf now key) stOK f.next f.fgen := by
  unfold Pkg.ackTimeStep
  simp only [hf, ht]
  exact if_neg (Nat.not_lt.2 h)
theorem ackTimes (s : State) (p : PkgId) (src : BitVec 16) (cls : BitVec 3) (tree : Byte) :
    let k := s.pkg p
    let key := flowKey src.toNat cls.toNat (tree.toNat % 128)
    ((k.rxFlow key).all (fun f => f.firstUnacked.all (fun t => s.now < t + 1000 * ackTime k.chart.active)) = true →
      exec (.ackTimeExpiry p src cls tree) s = .next (s.setPkg p k)) ∧
    (∀ f t, k.rxFlow key = some f → f.firstUnacked = some t → t + 1000 * ackTime k.chart.active ≤ s.now → ∃ (j : Pkg) (a : Packet),
      exec (.ackTimeExpiry p src cls tree) s = .next (s.setPkg p j) ∧ j.rxFlow key = some { f with unacked := 0, firstUnacked := none } ∧
        j.out = k.out ++ [.packet a] ∧ a.opcode = opAck ∧ a.status = stOK ∧ a.seq = f.next ∧ a.fgen = f.fgen) :=
  ⟨fun h => exec_ackTimeExpiry.trans (onPkg_next (Pkg.ackTimeStep_early h)), fun _ _ hf ht hl =>
    ⟨_, _, exec_ackTimeExpiry.trans (onPkg_next (Pkg.ackTimeStep_due hf ht hl)), Pkg.rxFlow_setRx_same .., rfl, rfl, rfl, rfl, rfl⟩⟩

/-! ### Flows that rest -/

/-- Every flow of class 0 holds nothing and has no acknowledgement due. -/
def Pkg.Rests (k : Pkg) : Prop := ∀ key f, key / 128 % 8 = 0 → k.rxFlow key = some f → f.held = [] ∧ f.unacked < k.ackCountNow
theorem mem_of_sfind {α : Type} {v : α} : ∀ {l : SMap α} {n : Nat}, sfind l n = some v → (n, v) ∈ l
  | [], _, h => nomatch h
  | (i, w) :: t, n, h => by
    unfold sfind at h
    split_ifs at h with hi
    · rw [hi, Option.some.inj h]
      exact List.mem_cons_self
    · exact List.mem_cons_of_mem _ (mem_of_sfind h)
theorem Pkg.Rests.of_all (h : ∀ e ∈ k.fab.rx, e.1 / 128 % 8 = 0 → e.2.held = [] ∧ e.2.unacked < k.ackCountNow) : k.Rests :=
  fun _ _ h0 hf => h _ (mem_of_sfind hf) h0
theorem foldl_fixed {α β : Type} {g : α → β → α} {a : α} : ∀ (l : List β), (∀ b ∈ l, g a b = a) → l.foldl g a = a
  | [], _ => rfl
  | b :: l, h => by
    rw [List.foldl_cons, h b List.mem_cons_self]
    exact foldl_fixed l fun b hb => h b (List.mem_cons_of_mem _ hb)
theorem Pkg.Rests.resume (h : k.Rests) : resumeFlows now dl 0 (m, k) = (m, k) := by
  refine foldl_fixed _ fun key hkey => ?_
  have h0 : key / 128 % 8 = 0 := by simpa using (List.mem_filter.1 hkey).2
  cases hf : k.rxFlow key with
  | none =>
    rw [runDeliver_unknown hf]
    exact congrArg (m, ·) (Pkg.ackIfDue_unknown hf)
  | some f =>
    obtain ⟨hn, hu⟩ := h key f h0 hf
    rw [runDeliver_gap hf (by rw [hn]; rfl)]
    exact congrArg (m, ·) (Pkg.ackIfDue_early hf hu)
/-- What is kept of a delivered request changes no flow's order. -/
theorem Pkg.keep_rests (h : k.Rests) (st : Byte) (v : BitVec 64) : (k.keep rq st v).Rests := by
  cases hf : k.rxFlow (flowOf rq) with
  | none =>
    have he : k.keep rq st v = k := by unfold Pkg.keep; rw [hf]
    rwa [he]
  | some f =>
    by_cases hg : f.sgen ≠ rq.sgen ∨ f.fgen ≠ rq.fgen
    · have he : k.keep rq st v = k := by
        unfold Pkg.keep
        simp only [hf]
        exact if_pos hg
      rwa [he]
    · obtain ⟨l, he⟩ : ∃ l, k.keep rq st v = k.setRx (flowOf rq) { f with kept := l } := by
        unfold Pkg.keep
        simp only [hf]
        rw [if_neg hg]
        exact ⟨_, rfl⟩
      rw [he]
      intro key g h0 hgk
      by_cases hk : key = flowOf rq
      · subst hk
        rw [Pkg.rxFlow_setRx_same] at hgk
        obtain rfl := Option.some.inj hgk
        exact h _ f h0 hf
      · rw [Pkg.rxFlow_setRx_ne hk] at hgk
        exact h key g h0 hgk
theorem Pkg.keep_shell (rq : Packet) (st : Byte) (v : BitVec 64) (k : Pkg) : ∃ r, k.keep rq st v = { k with fab := { k.fab with rx := r } } := by
  unfold Pkg.keep
  split
  · exact ⟨k.fab.rx, rfl⟩
  · split
    · exact ⟨k.fab.rx, rfl⟩
    · exact ⟨_, rfl⟩
theorem unstall_rests (hs : k.fab.stalled = []) (h : k.Rests) : unstall now (m, k) = (m, k) := by
  unfold unstall
  simp only [hs]
  exact h.resume

/-! ### REQUEST_SERVE -/

theorem exec_requestServe (s : State) (p : PkgId) : exec (.requestServe p) s = execRequestServe p s := rfl
theorem requestServe_idle (hi : (s.pkg p).fab.inbound = []) (hm : (s.pkg p).fab.mesh = []) :
    exec (.requestServe p) s = .next (s.setPkg p (s.pkg p)) := by
  refine (exec_requestServe ..).trans (onPkgMem_next ?_)
  simp only [hi, hm, List.append_nil, List.foldl_nil, List.find?_nil]
/-- A package whose inbound store has been emptied. -/
def Pkg.noInbound (k : Pkg) : Pkg := { k with fab := { k.fab with inbound := [] } }
theorem requestServe_one (hk : s.pkg p = k) (hi : k.fab.inbound = [rq]) (hm : k.fab.mesh = []) (hp : rq.pkg = false)
    (hw : k.wakeFor (epCore rq.dst) = k) (hv : k.servable rq = true)
    (ha : serve s.now p false rq s.mem k.noInbound = (s.mem, k.noInbound, some a))
    (hu : unstall s.now (s.mem, k.noInbound.reply s.now rq a) = (s.mem, j)) : exec (.requestServe p) s = .next (s.setPkg p j) := by
  have hf : (k.fab.inbound ++ k.fab.mesh).foldl (fun k r => if r.pkg then k else k.wakeFor (epCore r.dst)) k = k := by
    rw [hi, hm, List.append_nil, List.foldl_cons, List.foldl_nil, if_neg (by rw [hp]; decide), hw]
  have he : ({ k with fab := { k.fab with inbound := [rq].erase rq } } : Pkg) = k.noInbound := by
    rw [List.erase_cons_head]
    rfl
  refine (exec_requestServe ..).trans (onPkgMem_next ?_)
  simp only [hk, hf]
  rw [hi, List.find?_cons_of_pos hv]
  simp only [he, ha]
  exact hu

section
variable (hp : rq.pkg = false) (hr : addrRack (epPkg rq.src) = k.rackNo)
include hr
theorem Pkg.foreignAbsent_own (img : List Byte) : k.foreignAbsent img rq = false := by
  unfold Pkg.foreignAbsent
  simp [hr]
theorem Pkg.foreignNoReach_own : k.foreignNoReach rq = false := by
  unfold Pkg.foreignNoReach
  simp [hr]
include hp
theorem serve_dark (mesh : Bool) (hd : k.coreDark (epCore rq.dst) = true) : serve now p mesh rq m k = (m, k, some ⟨stUnitReset, true, []⟩) := by
  unfold serve
  dsimp only
  rw [if_neg (by rw [hp]; decide), if_neg (by rw [Pkg.foreignAbsent_own hr]; decide), if_neg (by rw [Pkg.foreignNoReach_own hr]; decide), if_pos hd]
/-- A READ that leads to local storage. -/
theorem serve_read (mesh : Bool) {tier off : Nat} {l : BitVec 16} (hd : k.coreDark (epCore rq.dst) = false) (ho : rq.opcode = opRead)
    (hl : k.locate (epCore rq.dst) (bits rq.addr.toNat 0 44) rq.want = .place tier off l) (ht : tier < 3)
    (htd : k.tierDark (epCore rq.dst) tier off rq.want = false)
    (hi : k.spaceIsolated (tierSpace (epCore rq.dst) tier off).1 (tierSpace (epCore rq.dst) tier off).2 rq.want = false)
    (hb : (linesOf (memKey p (tierSpace (epCore rq.dst) tier off).1 (tierSpace (epCore rq.dst) tier off).2) rq.want).any k.mem.poison.contains = false) :
    serve now p mesh rq m k = (m, k, some ⟨stOK, false, memRead m (memKey p (tierSpace (epCore rq.dst) tier off).1
      (tierSpace (epCore rq.dst) tier off).2) rq.want⟩) := by
  have hlen : opLength rq.opcode rq.want rq.payload = rq.want := if_pos ho
  unfold serve
  dsimp only
  rw [if_neg (by rw [hp]; decide), if_neg (by rw [Pkg.foreignAbsent_own hr]; decide), if_neg (by rw [Pkg.foreignNoReach_own hr]; decide),
    if_neg (by rw [hd]; decide), if_neg (by rw [ho]; decide), hlen, hl]
  dsimp only
  rw [if_neg (Nat.not_le.2 ht), if_neg (by rw [htd]; decide)]
  generalize tierSpace (epCore rq.dst) tier off = x at hi hb ⊢
  have hc : claspedOp now p (k.localSender rq) x.1 x.2 rq.opcode rq.want rq.payload m k =
      (m, k, ⟨stOK, false, memRead m (memKey p x.1 x.2) rq.want⟩) := by
    unfold claspedOp
    dsimp only
    rw [if_neg fun h => h.2 ho]
    dsimp only
    unfold storageOp
    dsimp only
    rw [hlen, if_neg (by rw [hi]; decide), if_neg (by rw [hb]; rintro ⟨-, h⟩; cases h), if_pos ho]
  rw [hc]
end

/-! ### The one request of a store -/

theorem Pkg.wakeFor_awake {c : Nat} (h : k.coreDark c = true ∨ k.pstate c < 2) : k.wakeFor c = k := by
  refine if_neg ?_
  rcases h with h | h
  · simp [h]
  · simp [Nat.not_le.2 h]
theorem Pkg.servable_dark (hp : rq.pkg = false) (hpa : k.paused (epCore rq.dst) = false) (hd : k.coreDark (epCore rq.dst) = true) : k.servable rq = true := by
  unfold Pkg.servable Pkg.waits
  simp [hd, hpa, hp]
theorem Pkg.servable_read {tier off : Nat} {l : BitVec 16} (hp : rq.pkg = false) (hpa : k.paused (epCore rq.dst) = false)
    (hps : k.pstate (epCore rq.dst) < 2) (ho : rq.opcode = opRead)
    (hl : k.locate (epCore rq.dst) (bits rq.addr.toNat 0 44) rq.want = .place tier off l) : k.servable rq = true := by
  have hlen : opLength rq.opcode rq.want rq.payload = rq.want := if_pos ho
  unfold Pkg.servable Pkg.waits
  dsimp only
  rw [hlen, hl]
  simp [hpa, hp, Nat.not_le.2 hps]
/-- The answer of a served request where its flow may keep what was answered. -/
theorem Pkg.reply_answers (he : expectsResponse rq.opcode = true) : ∃ r, k.reply now rq a =
    (({ k with fab := { k.fab with rx := r } } : Pkg).answer now rq a.status a.poison a.data) ∧
      (k.Rests → (({ k with fab := { k.fab with rx := r } } : Pkg).answer now rq a.status a.poison a.data).Rests) := by
  have hrep : k.reply now rq a = (k.keep rq a.status (BitVec.ofNat 64 (if rq.opcode = opAtomic then leNat a.data else 0))).answer now rq a.status
      a.poison a.data := if_pos he
  obtain ⟨r, hk⟩ := k.keep_shell rq a.status (BitVec.ofNat 64 (if rq.opcode = opAtomic then leNat a.data else 0))
  refine ⟨r, by rw [hrep, hk], fun h => ?_⟩
  have hr := Pkg.keep_rests (rq := rq) h a.status (BitVec.ofNat 64 (if rq.opcode = opAtomic then leNat a.data else 0))
  rw [hk] at hr
  exact hr
theorem Pkg.reply_discards (he : expectsResponse rq.opcode = false) (hp : rq.pkg = false) (hd : k.coreDark (epCore rq.dst) = true) : ∃ r,
    k.reply now rq ⟨stUnitReset, true, []⟩ =
      ({ k with fab := { k.fab with rx := r } } : Pkg).count (F.FAB_DISCARD_A_STANDIN (k.crossTile false rq)) 1 ∧
      (k.Rests → (({ k with fab := { k.fab with rx := r } } : Pkg).count (F.FAB_DISCARD_A_STANDIN (k.crossTile false rq)) 1).Rests) := by
  obtain ⟨r, hk⟩ := k.keep_shell rq stUnitReset (BitVec.ofNat 64 (if rq.opcode = opAtomic then leNat [] else 0))
  refine ⟨r, ?_, fun h => ?_⟩
  · have hdr : ({ k with fab := { k.fab with rx := r } } : Pkg).coreDark (epCore rq.dst) = true := hd
    have hmd : ({ k with fab := { k.fab with rx := r } } : Pkg).meetsDark rq = true := by
      unfold Pkg.meetsDark
      rw [hdr, hp]
      rfl
    unfold Pkg.reply
    dsimp only
    rw [if_neg (by rw [he]; decide), hk, hmd, if_pos (by decide), Pkg.standIn, if_neg (by rw [he]; decide), hdr, hp]
    rfl
  · have hr := Pkg.keep_rests (rq := rq) h stUnitReset (BitVec.ofNat 64 (if rq.opcode = opAtomic then leNat [] else 0))
    rw [hk] at hr
    exact hr

section
variable (hk : s.pkg p = k) (hi : k.fab.inbound = [rq]) (hm : k.fab.mesh = []) (hst : k.fab.stalled = []) (hrx : k.Rests) (hp : rq.pkg = false)
  (hw : k.wakeFor (epCore rq.dst) = k) (hv : k.servable rq = true)
include hk hi hm hst hrx hp hw hv
theorem serves_answer {st : Byte} {po : Bool} {data : List Byte} (he : expectsResponse rq.opcode = true)
    (ha : serve s.now p false rq s.mem k.noInbound = (s.mem, k.noInbound, some ⟨st, po, data⟩)) : ∃ j : Pkg,
      exec (.requestServe p) s = .next (s.setPkg p j) ∧ j.fab.inbound = [] ∧ j.mem = k.mem ∧ j.regs = k.regs ∧
        j.out = k.out ++ [.packet (k.response s.now rq st po data)] := by
  obtain ⟨r, hrep, hr⟩ := Pkg.reply_answers (k := k.noInbound) (now := s.now) (a := ⟨st, po, data⟩) he
  refine ⟨_, requestServe_one hk hi hm hp hw hv ha ((congrArg (fun x => unstall s.now (s.mem, x)) hrep).trans (unstall_rests hst (hr hrx))), rfl, rfl, rfl, rfl⟩
theorem serves_discard (he : expectsResponse rq.opcode = false) (hd : k.coreDark (epCore rq.dst) = true)
    (ha : serve s.now p false rq s.mem k.noInbound = (s.mem, k.noInbound, some ⟨stUnitReset, true, []⟩)) : ∃ j : Pkg,
      exec (.requestServe p) s = .next (s.setPkg p j) ∧ j.fab.inbound = [] ∧ j.mem = k.mem ∧ j.out = k.out ∧
        j.get (F.FAB_DISCARD_A_STANDIN (k.crossTile false rq)) = min 255 (k.get (F.FAB_DISCARD_A_STANDIN (k.crossTile false rq)) + 1) := by
  obtain ⟨r, hrep, hr⟩ := Pkg.reply_discards (k := k.noInbound) (now := s.now) he hp hd
  refine ⟨_, requestServe_one hk hi hm hp hw hv ha ((congrArg (fun x => unstall s.now (s.mem, x)) hrep).trans (unstall_rests hst (hr hrx))), rfl, rfl, rfl, ?_⟩
  exact Pkg.get_count_same ({ k.noInbound with fab := { k.noInbound.fab with rx := r } } : Pkg) (F.FAB_DISCARD_A_STANDIN (k.crossTile false rq)) 1
    (Nat.le_of_ble_eq_true rfl)
end

/-- Settles O29, command by command. -/
theorem flowReceiver : Obligations.FlowReceiver := by
  intro s p k
  refine ⟨fun pk h0 h4 => (exec_flowPacketReceive ..).trans (onPkgMem_next (if_neg fun h => h.elim h0 h4)),
    fun pk h4 => (exec_mgmtPacket ..).trans (onPkgMem_next (if_pos h4)), fun pk c hg hc => ?_, fun src cls tree => ?_,
    fun hi hm => requestServe_idle hi hm, fun rq hi hm hst hrx hp hr hpa => ?_⟩
  · exact receives s p pk c hg hc
  · exact ackTimes s p src cls tree
  · have hrest : k.Rests := .of_all hrx
    refine ⟨fun hd he => ?_, fun hd he => ?_, fun tier off l hd hps ho hl ht htd hsi hb => ?_⟩
    · exact serves_answer rfl hi hm hst hrest hp (Pkg.wakeFor_awake (.inl hd)) (Pkg.servable_dark hp hpa hd) he (serve_dark (k := k.noInbound) hp hr false hd)
    · exact serves_discard rfl hi hm hst hrest hp (Pkg.wakeFor_awake (.inl hd)) (Pkg.servable_dark hp hpa hd) he hd
        (serve_dark (k := k.noInbound) hp hr false hd)
    · exact serves_answer rfl hi hm hst hrest hp (Pkg.wakeFor_awake (.inr hps)) (Pkg.servable_read hp hpa hps ho hl) (by rw [ho]; decide)
        (serve_read (k := k.noInbound) hp hr false hd ho hl ht htd hsi hb)
end Sys2Proof.Machine
end

section
/-! PROOF. What a packet's passing leaves of a package (R148, R149): the input it frees, the queues it joins. -/
namespace Sys2Proof.Machine
open Sys2Proof

variable {i j k : Pkg} {now q n : Nat} {pk : Packet} {e : Queued} {l : List Msg}

/-! ### Blocks without data -/

/-- Messages of an input that frees flits: blocks without data. -/
def IdleAt (inp : Nat) (l : List Msg) : Prop := ∀ m ∈ l, ∃ b : Block, m = .block inp b ∧ b.dataFlits = 0
theorem IdleAt.nil (inp : Nat) : IdleAt inp [] := fun _ h => absurd h List.not_mem_nil
theorem PortSt.freed_idle (q key flits : Nat) (x : PortSt) : IdleAt q (x.freed q key flits).2 := by
  unfold PortSt.freed
  dsimp only
  split
  · intro m hm
    rw [List.mem_singleton] at hm
    obtain ⟨b, hb, -, hf, -⟩ := PortSt.idle_block q false { x with rxFreed := sset 0 x.rxFreed key (sget 0 x.rxFreed key + flits) }
    exact ⟨b, hm.trans hb, hf⟩
  · exact .nil q
theorem PortSt.outQ_word (nak : Bool) (x : PortSt) : (x.word nak).1.outQ = x.outQ := by
  unfold PortSt.word
  dsimp only
  split <;> rfl
theorem PortSt.outQ_freed (q key flits : Nat) (x : PortSt) : (x.freed q key flits).1.outQ = x.outQ := by
  unfold PortSt.freed
  dsimp only
  split
  · exact PortSt.outQ_word false _
  · rfl

/-! ### Leaving -/

/-- An input frees its flits: it may say so in blocks without data; no queue changes. -/
structure Pkg.Left (inp : Nat) (j k : Pkg) : Prop where
  rest : k = { j with rt := k.rt, out := k.out }
  out : ∃ l, k.out = j.out ++ l ∧ IdleAt inp l
  outQ : ∀ q, (k.port q).outQ = (j.port q).outQ
  arrivals : k.rt.arrivals = j.rt.arrivals
theorem Pkg.Left.refl (inp : Nat) (k : Pkg) : k.Left inp k := ⟨rfl, ⟨[], (List.append_nil _).symm, .nil inp⟩, fun _ => rfl, rfl⟩
theorem Pkg.freeInput_left (inp key flits : Nat) (k : Pkg) : k.Left inp (k.freeInput inp key flits) := by
  unfold Pkg.freeInput
  split
  · exact .refl inp k
  · refine ⟨rfl, ⟨_, rfl, PortSt.freed_idle inp key flits (k.port inp)⟩, fun q => ?_, rfl⟩
    change ((k.setPort inp ((k.port inp).freed inp key flits).1).port q).outQ = _
    by_cases h : q = inp
    · subst h
      rw [Pkg.port_setPort_same]
      exact PortSt.outQ_freed ..
    · rw [Pkg.port_setPort_ne h]
theorem Pkg.leave_left (e : Queued) (k : Pkg) : k.Left e.inp (k.leave e) := by
  unfold Pkg.leave
  split
  · exact .refl e.inp k
  · exact Pkg.freeInput_left ..

section
variable (h : j.Left q k)
include h
theorem Pkg.Left.regs : k.regs = j.regs := by rw [h.rest]
theorem Pkg.Left.fab : k.fab = j.fab := by rw [h.rest]
theorem Pkg.Left.mem : k.mem = j.mem := by rw [h.rest]
theorem Pkg.Left.chart : k.chart = j.chart := by rw [h.rest]
theorem Pkg.Left.ret : k.ret = j.ret := by rw [h.rest]
end

/-! ### Arrivals -/

/-- A package at which a packet has arrived. -/
def Pkg.arrived (inp : Nat) (k : Pkg) : Pkg := { if inp < 24 then k.stir else k with rt := k.rt.count }
/-- The packet at its input. -/
def Pkg.atInput (inp : Nat) (pk : Packet) (k : Pkg) : Queued := ⟨pk, inp, bufKey (k.isPlane inp) pk, k.rt.arrivals⟩
theorem Pkg.arrival_eq (inp : Nat) (pk : Packet) (k : Pkg) : k.arrival inp pk = (k.atInput inp pk, k.arrived inp) := rfl
theorem Pkg.arrived_rest (inp : Nat) (k : Pkg) : k.arrived inp = { k with aon := (k.arrived inp).aon, rt := k.rt.count } := by
  unfold Pkg.arrived
  split <;> rfl
theorem Pkg.arrived_time (inp : Nat) (now : Nat) (k : Pkg) : (k.arrived inp).time now = k.time now := by
  unfold Pkg.arrived
  split <;> rfl
theorem Pkg.arrived_port (inp : Nat) (q : Nat) (k : Pkg) : (k.arrived inp).port q = k.port q := by rw [k.arrived_rest inp]; rfl

/-! ### Queues -/

/-- What stands in a queue still stands there. -/
structure Pkg.Queues (j k : Pkg) : Prop where
  stands : ∀ q e, e ∈ (j.port q).outQ → e ∈ (k.port q).outQ
  state : ∀ q, (k.port q).state = (j.port q).state
theorem Pkg.Queues.refl (k : Pkg) : k.Queues k := ⟨fun _ _ h => h, fun _ => rfl⟩
theorem Pkg.Queues.trans (h : i.Queues j) (h' : j.Queues k) : i.Queues k :=
  ⟨fun q e he => h'.stands q e (h.stands q e he), fun q => (h'.state q).trans (h.state q)⟩
theorem Pkg.Queues.of_rt (h : k.rt = j.rt) : j.Queues k := by
  have hp (q : Nat) : k.port q = j.port q := by rw [Pkg.port, h, ← Pkg.port]
  exact ⟨fun q e he => by rw [hp]; exact he, fun q => congrArg PortSt.state (hp q)⟩
theorem Pkg.Wired.state (h : j.Wired k) (q : Nat) : (k.port q).state = (j.port q).state := (congrArg PortSt.state (h.link q) :)
theorem Pkg.leave_queues (e : Queued) (k : Pkg) : k.Queues (k.leave e) :=
  ⟨fun q x hx => by rw [(k.leave_left e).outQ]; exact hx, fun q => (Pkg.Wired.leave e k).state q⟩
theorem Pkg.queueAt_queues (q : Nat) (e : Queued) (k : Pkg) : k.Queues (k.queueAt q e) := by
  refine ⟨fun o x hx => ?_, fun o => (Pkg.Wired.queueAt q e k).state o⟩
  by_cases h : o = q
  · subst h
    rw [Pkg.port_queueAt_same]
    exact List.mem_append_left _ hx
  · rwa [Pkg.port_queueAt_ne h]
theorem Pkg.meetDark_queues (now q : Nat) (e : Queued) (k : Pkg) : k.Queues (k.meetDark now q e) := by
  have h (x : Pkg) (hx : x.rt = (k.leave e).rt) : k.Queues x := (k.leave_queues e).trans (.of_rt hx)
  unfold Pkg.meetDark
  dsimp only
  split
  · split <;> exact h _ rfl
  · split
    · exact h _ rfl
    · split
      · split <;> exact h _ rfl
      · exact h _ rfl
theorem Pkg.offer_queues (now q : Nat) (e : Queued) (k : Pkg) : k.Queues (k.offer now q e) := by
  unfold Pkg.offer
  split
  · exact Pkg.meetDark_queues ..
  · exact Pkg.queueAt_queues ..
theorem Pkg.offer_stands {q : Nat} (h : (k.port q).state ≠ .peerDark) (now : Nat) (e : Queued) : e ∈ ((k.offer now q e).port q).outQ := by
  rw [Pkg.offer, if_neg h, Pkg.port_queueAt_same]
  exact List.mem_append_right _ (List.mem_singleton.2 rfl)
/-- One copy of a packet for each port. -/
def Pkg.offerAll (now : Nat) (e : Queued) (l : List (Nat × Packet)) (k : Pkg) : Pkg := l.foldl (fun k x => k.offer now x.1 { e with pk := x.2 }) k
theorem Pkg.offerAll_queues (now : Nat) (e : Queued) : ∀ (l : List (Nat × Packet)) (k : Pkg), k.Queues (k.offerAll now e l)
  | [], k => .refl k
  | x :: l, k => (k.offer_queues now x.1 { e with pk := x.2 }).trans (Pkg.offerAll_queues now e l _)
theorem Pkg.offerAll_stands {x : Nat × Packet} (now : Nat) (e : Queued) : ∀ (l : List (Nat × Packet)) (k : Pkg), x ∈ l →
    (k.port x.1).state ≠ .peerDark → { e with pk := x.2 } ∈ ((k.offerAll now e l).port x.1).outQ
  | [], _, h, _ => absurd h List.not_mem_nil
  | y :: l, k, h, hs => by
    rcases List.mem_cons.1 h with rfl | h
    · exact (Pkg.offerAll_queues now e l _).stands _ _ (Pkg.offer_stands hs now _)
    · exact Pkg.offerAll_stands now e l _ h (by rw [(k.offer_queues now y.1 { e with pk := y.2 }).state]; exact hs)
theorem Pkg.castOut_eq (now core : Nat) (e : Queued) (k : Pkg) : k.castOut now core e = (k.offerAll now e (k.castPorts e.inp core e.pk)).leave e := rfl
end Sys2Proof.Machine
end

section
/-! PROOF. Obligation O31: casts (R133, R169–R173). -/
namespace Sys2Proof.Machine
open Sys2Proof

variable {s : State} {p : PkgId} {i j k : Pkg} {now q n c : Nat} {pk : Packet} {e : Queued} {m : Mem} {f : RxFlow} {dl : Deliver} {key : Nat}

/-! ### Sending -/

theorem exec_castWrite {c : Core} {kind : BitVec 2} {tree : Fin 64} {dst : Byte} {addr : BitVec 44} {data : List Byte} :
    exec (.castWrite p c kind tree dst addr data) s = onPkg p s fun k => k.castSend s.now 0x10 c.val kind tree.val dst addr data := rfl
theorem exec_castSignal {c : Core} {kind : BitVec 2} {tree : Fin 64} {dst : Byte} {addr : BitVec 44} :
    exec (.castSignal p c kind tree dst addr) s = onPkg p s fun k => k.castSend s.now 0x11 c.val kind tree.val dst addr [] := rfl
/-- The packet of a core's cast. -/
def Pkg.castOf (now : Nat) (op : Byte) (c : Nat) (kind : BitVec 2) (t : Nat) (dst : Byte) (addr : BitVec 44) (data : List Byte) (k : Pkg) : Packet :=
  { k.newPacket now op 2 (dst.zeroExtend 24) (endpoint k.addr c) data with
    castKind := kind, tree := if kind = 1 then BitVec.ofNat 8 t else 0, addr := addr.zeroExtend 64 }

section
variable {op : Byte} {kind : BitVec 2} {t : Nat} {dst : Byte} {addr : BitVec 44} {data : List Byte}
theorem Pkg.castSend_barred (h : kind = 0 ∨ k.coreDark c = true) : k.castSend now op c kind t dst addr data = k := if_pos h
theorem Pkg.castSend_refused {st : Byte} (h0 : kind ≠ 0) (hd : k.coreDark c = false) (hr : (k.issues c).castRefusal kind t data.length = some st) :
    k.castSend now op c kind t dst addr data = (k.issues c).emit (.completion c 0 st []) := by
  refine (if_neg (by rw [hd]; rintro (h | h); exacts [h0 h, nomatch h])).trans ?_
  rw [hr]
theorem Pkg.castSend_joins (h0 : kind ≠ 0) (hd : k.coreDark c = false) (hr : (k.issues c).castRefusal kind t data.length = none) :
    k.castSend now op c kind t dst addr data = (k.issues c).enqueue (flowKey k.addr 2 (if kind = 1 then t else if kind = 2 then 64 else 65)) c
      ((k.issues c).castOf now op c kind t dst addr data) := by
  refine (if_neg (by rw [hd]; rintro (h | h); exacts [h0 h, nomatch h])).trans ?_
  rw [hr, ← Pkg.addr_issues (k := k) (c := c)]
  rfl
end
theorem Pkg.treeHeld_issues (t : Nat) : (k.issues c).treeHeld t = k.treeHeld t := by
  have ho : (k.issues c).ownState = k.ownState := Pkg.get_of_rg (f := F.CHT_TURN_STATUS_OWN_STATE) (Pkg.rg_issues (by decide))
  unfold Pkg.treeHeld
  rw [ho, Pkg.chart_issues]
theorem Pkg.tree_issues (t : Nat) : (k.issues c).tree t = k.tree t := by unfold Pkg.tree; rw [Pkg.chart_issues]
theorem Pkg.castRefusal_tree (t len : Nat) : (k.issues c).castRefusal 1 t len =
    if k.treeHeld t then some stTurnHold else if !onTree (k.tree t) k.idx then some (Config.openStatus 2)
    else if 32 + 64 * (treeBuffer (k.tree t) - 1) < len then some stAccessError else none := by
  unfold Pkg.castRefusal
  rw [if_neg (by decide), Pkg.treeHeld_issues, Pkg.tree_issues, Pkg.idx_issues]

theorem castSends (s : State) (p : PkgId) (c : Core) (kind : BitVec 2) (tree : Fin 64) (dst : Byte) (addr : BitVec 44) (data : List Byte)
    (i : Instr) (op : Byte)
    (hi : (op = 0x10 ∧ i = .castWrite p c kind tree dst addr data) ∨ (op = 0x11 ∧ data = [] ∧ i = .castSignal p c kind tree dst addr)) :
    let k := s.pkg p
    let fits := data.length ≤ 32 + 64 * (treeBuffer (k.tree tree.val) - 1)
    let key := flowKey k.addr 2 (if kind = 1 then tree.val else if kind = 2 then 64 else 65)
    ((kind = 0 ∨ k.coreDark c.val = true) → exec i s = .next (s.setPkg p k)) ∧
    (kind = 1 → k.coreDark c.val = false → k.treeHeld tree.val = true →
      exec i s = .next (s.setPkg p ((k.issues c.val).emit (.completion c.val 0 stTurnHold [])))) ∧
    (kind = 1 → k.coreDark c.val = false → k.treeHeld tree.val = false → onTree (k.tree tree.val) k.idx = true → ¬ fits →
      exec i s = .next (s.setPkg p ((k.issues c.val).emit (.completion c.val 0 stAccessError [])))) ∧
    (kind ≠ 0 → k.coreDark c.val = false →
        (kind = 1 → k.treeHeld tree.val = false ∧ onTree (k.tree tree.val) k.idx = true ∧ fits) →
      ∃ (j : Pkg) (pk : Packet), exec i s = .next (s.setPkg p j) ∧ pk.opcode = op ∧ pk.castKind = kind ∧ pk.cls = 2 ∧ pk.payload = data ∧
        pk.addr = addr.zeroExtend 64 ∧ pk.dst = dst.zeroExtend 24 ∧ (kind = 1 → pk.tree.toNat = tree.val) ∧ (kind ≠ 1 → pk.tree = 0) ∧
        (j.txFlow key).waiting = (k.txFlow key).waiting ++ [(pk, c.val)] ∧ j.regs = (k.issues c.val).regs ∧ j.out = k.out) := by
  intro k fits key
  have hex {j : Pkg} (h : k.castSend s.now op c.val kind tree.val dst addr data = j) : exec i s = .next (s.setPkg p j) := by
    rcases hi with ⟨rfl, rfl⟩ | ⟨rfl, rfl, rfl⟩
    · exact exec_castWrite.trans (onPkg_next h)
    · exact exec_castSignal.trans (onPkg_next h)
  refine ⟨fun h => hex (Pkg.castSend_barred h), fun h1 hd hh => hex (Pkg.castSend_refused (by rw [h1]; decide) hd ?_),
    fun h1 hd hh ho hf => hex (Pkg.castSend_refused (by rw [h1]; decide) hd ?_), fun h0 hd h1 => ?_⟩
  · rw [h1, Pkg.castRefusal_tree, if_pos hh]
  · rw [h1, Pkg.castRefusal_tree, if_neg (by rw [hh]; decide), if_neg (by rw [ho]; decide), if_pos (Nat.lt_of_not_le hf)]
  · have hr : (k.issues c.val).castRefusal kind tree.val data.length = none := by
      by_cases hk : kind = 1
      · obtain ⟨hh, ho, hf⟩ := h1 hk
        rw [hk, Pkg.castRefusal_tree, if_neg (by rw [hh]; decide), if_neg (by rw [ho]; decide), if_neg (Nat.not_lt.2 hf)]
      · exact if_pos hk
    have hfab : (k.issues c.val).fab = k.fab := (k.issues_aonOnly c.val).fab
    refine ⟨_, (k.issues c.val).castOf s.now op c.val kind tree.val dst addr data, hex (Pkg.castSend_joins h0 hd hr), rfl, rfl, rfl, rfl, rfl, rfl,
      fun h => ?_, fun h => if_neg h, ?_, rfl, (k.issues_aonOnly c.val).out⟩
    · have ht : ((k.issues c.val).castOf s.now op c.val kind tree.val dst addr data).tree = BitVec.ofNat 8 tree.val := if_pos h
      rw [ht, BitVec.toNat_ofNat]
      have := tree.isLt
      omega
    · refine (congrArg TxFlow.waiting (Pkg.txFlow_setTx_same ..) :).trans ?_
      rw [Pkg.txFlow_of_fab hfab]

/-! ### Arrival -/

theorem exec_castArrive {q : Port} : exec (.castArrive p q pk) s = onPkgMem p s fun m k => castArrive s.now p q.val pk m k := rfl
theorem onPkgMem_mem {g : Mem → Pkg → Mem × Pkg} {m : Mem} (h : g s.mem (s.pkg p) = (m, j)) : onPkgMem p s g = .next ({ s with mem := m }.setPkg p j) := by
  unfold onPkgMem
  rw [h]
theorem castArrive_other (h : pk.cls ≠ 2) : castArrive now p q pk m k = (m, k) := if_pos h
theorem castArrive_dropped (h : pk.cls = 2) {d : Drop}
    (hd : (k.tables pk.epoch = [] ∧ d = .epoch) ∨
      (k.tables pk.epoch ≠ [] ∧ pk.castKind = 1 ∧ (onTree (k.tree pk.tree.toNat) k.idx = false ∨ k.serves pk = false) ∧ d = .orphan)) :
    castArrive now p q pk m k = (m, ((k.arrived q).leave (k.atInput q pk)).drop q d) := by
  have hr := k.arrived_rest q
  have ht : (k.arrived q).tables pk.epoch = k.tables pk.epoch := by rw [hr]; rfl
  have hon : onTree ((k.arrived q).tree pk.tree.toNat) (k.arrived q).idx = onTree (k.tree pk.tree.toNat) k.idx := by rw [hr]; rfl
  have hs : (k.arrived q).serves pk = k.serves pk := by rw [hr]; rfl
  unfold castArrive
  dsimp only
  rw [k.arrival_eq, if_neg (by rw [h]; exact fun e => e rfl), ht, hon, hs]
  rcases hd with ⟨ht, rfl⟩ | ⟨ht, hk, hd, rfl⟩
  · rw [if_pos (by rw [ht]; rfl)]
  · rw [if_neg (by simpa using ht), if_pos ⟨hk, by rcases hd with hd | hd <;> simp [hd]⟩]
theorem castArrive_taken (h : pk.cls = 2) (ht : k.tables pk.epoch ≠ [])
    (ho : pk.castKind = 1 → onTree (k.tree pk.tree.toNat) k.idx = true ∧ k.serves pk = true) :
    castArrive now p q pk m k = receivePacket now (deliverCast now p) (senderTree (k.isPlane q) pk) m
      (if pk.castKind = 1 ∧ k.isPlane q = false then (k.arrived q).castOut now 255 (k.atInput q pk) else (k.arrived q).leave (k.atInput q pk)) := by
  have hr := k.arrived_rest q
  have htb : (k.arrived q).tables pk.epoch = k.tables pk.epoch := by rw [hr]; rfl
  have hon : onTree ((k.arrived q).tree pk.tree.toNat) (k.arrived q).idx = onTree (k.tree pk.tree.toNat) k.idx := by rw [hr]; rfl
  have hs : (k.arrived q).serves pk = k.serves pk := by rw [hr]; rfl
  unfold castArrive
  dsimp only
  rw [k.arrival_eq, if_neg (by rw [h]; exact fun e => e rfl), htb, hon, hs, if_neg (by simpa using ht), if_neg]
  · simp
  · rintro ⟨hk, hx⟩
    obtain ⟨h1, h2⟩ := ho hk
    rw [h1, h2] at hx
    cases hx

/-! ### What a delivery leaves -/

/-- A posted write is no read: it fires no detector, and changes the memory and what is known of it. -/
theorem storageOp_posted (now : Nat) (p : PkgId) (space off : Nat) (d : List Byte) (m : Mem) (k : Pkg) :
    (storageOp now p space off opWritePosted 0 d m k).2.1 = { k with
      mem := (storageOp now p space off opWritePosted 0 d m k).2.1.mem, brg := (storageOp now p space off opWritePosted 0 d m k).2.1.brg } := by
  unfold storageOp
  dsimp only
  split
  · rfl
  · rw [if_neg (by rintro ⟨h, -⟩; revert h; decide), if_neg (by decide), if_neg (by decide)]
    unfold Pkg.noticeWrite
    split <;> split <;> rfl
theorem claspedOp_posted (now : Nat) (p : PkgId) (space off : Nat) (d : List Byte) (m : Mem) (k : Pkg) :
    (claspedOp now p none space off opWritePosted 0 d m k).2.1 = { k with
      mem := (claspedOp now p none space off opWritePosted 0 d m k).2.1.mem, brg := (claspedOp now p none space off opWritePosted 0 d m k).2.1.brg } := by
  unfold claspedOp
  dsimp only
  split
  · split <;> rfl
  · exact storageOp_posted ..
theorem writeResult_posted (now : Nat) (p : PkgId) (c a : Nat) (d : List Byte) (m : Mem) (k : Pkg) :
    (writeResult now p c a d m k).2.1 = { k with
      mem := (writeResult now p c a d m k).2.1.mem, brg := (writeResult now p c a d m k).2.1.brg } := by
  unfold writeResult
  split
  · rfl
  split
  · split
    · rfl
    split
    · rfl
    · exact claspedOp_posted ..
  · rfl
  · rfl
/-- Deliveries that leave the ports of a package. -/
def Deliver.KeepsRt (dl : Deliver) : Prop := ∀ pk mk, (dl pk mk).2.rt = mk.2.rt
theorem Pkg.wakeFor_rt (c : Nat) (k : Pkg) : (k.wakeFor c).rt = k.rt := by
  unfold Pkg.wakeFor
  split
  · exact (Pkg.wakeCore_aonOnly c k).rt
  · rfl
theorem castWriteHere_rt (now : Nat) (p : PkgId) (pk : Packet) (m : Mem) (k : Pkg) : (castWriteHere now p pk m k).2.1.rt = k.rt := by
  unfold castWriteHere
  dsimp only
  split
  · rfl
  split
  · rfl
  split
  · exact Pkg.wakeFor_rt ..
  · have h := writeResult_posted now p (epCore pk.dst) (bits pk.addr.toNat 0 44) pk.payload m k
    generalize writeResult now p (epCore pk.dst) (bits pk.addr.toNat 0 44) pk.payload m k = r at h ⊢
    exact (congrArg Pkg.rt h :)
theorem Pkg.ackFailed_rt (now key : Nat) (st : Byte) (pk : Packet) (k : Pkg) : (k.ackFailed now key st pk).rt = k.rt := by
  unfold Pkg.ackFailed
  split
  · rfl
  · dsimp only
    split <;> rfl
theorem deliverCast_keepsRt (now : Nat) (p : PkgId) : Deliver.KeepsRt (deliverCast now p) := by
  intro pk mk
  have hr : (if mk.2.deliversCast pk then castWriteHere now p pk mk.1 mk.2 else (mk.1, mk.2, stOK)).2.1.rt = mk.2.rt := by
    split
    · exact castWriteHere_rt ..
    · rfl
  unfold deliverCast
  dsimp only
  generalize (if mk.2.deliversCast pk then castWriteHere now p pk mk.1 mk.2 else (mk.1, mk.2, stOK)) = r at hr ⊢
  have h1 : (if r.2.2 = stOK then r.2.1 else r.2.1.ackFailed now (flowOf pk) r.2.2 pk).rt = mk.2.rt := by
    split
    · exact hr
    · exact (Pkg.ackFailed_rt ..).trans hr
  generalize (if r.2.2 = stOK then r.2.1 else r.2.1.ackFailed now (flowOf pk) r.2.2 pk) = k1 at h1 ⊢
  split
  · exact h1
  · exact h1
theorem runDeliver_rt (h : dl.KeepsRt) (key now : Nat) : ∀ (n : Nat) (mk : Mem × Pkg), (runDeliver dl key now n mk).2.rt = mk.2.rt
  | 0, _ => rfl
  | n + 1, (m, k) => by
    unfold runDeliver
    split
    · rfl
    split
    · rfl
    split
    · dsimp only
      split
      · exact Pkg.wakeFor_rt ..
      · rfl
    · rfl
    · exact (runDeliver_rt h key now n _).trans (h _ _)
theorem Pkg.ackIfDue_rt (now key : Nat) (pk : Packet) (k : Pkg) : (k.ackIfDue now key pk).rt = k.rt := by
  unfold Pkg.ackIfDue
  split
  · rfl
  · split <;> rfl
theorem Pkg.duplicate_rt (now : Nat) (f : RxFlow) (pk : Packet) (k : Pkg) : (k.duplicate now f pk).rt = k.rt := by
  unfold Pkg.duplicate
  dsimp only
  split
  · rfl
  split
  · split <;> rfl
  split <;> rfl
theorem judged_rt (h : dl.KeepsRt) (now : Nat) (pk : Packet) (m : Mem) (k : Pkg) (f : RxFlow) : (judged now dl pk m k f).2.rt = k.rt := by
  unfold judged
  split
  · split
    · rfl
    split
    · rfl
    split
    · rfl
    · exact (Pkg.ackIfDue_rt ..).trans (runDeliver_rt h ..)
  · split
    · rfl
    · exact Pkg.duplicate_rt ..
theorem receivePacket_rt (h : dl.KeepsRt) (now : Nat) (pk : Packet) (m : Mem) (k : Pkg) : (receivePacket now dl pk m k).2.rt = k.rt := by
  rw [receivePacket_eq]
  have hk : (k.newerSgen (epPkg pk.src) pk.sgen).rt = k.rt := rfl
  generalize k.newerSgen (epPkg pk.src) pk.sgen = k1 at hk
  rw [← hk]
  unfold atReceiver
  split
  · rfl
  · rfl
  · exact judged_rt h ..
  · exact judged_rt h ..
  · exact judged_rt h ..

/-- A tree's cast leaves by every tree port but the one it came by. -/
theorem castArrive_leaves (h2 : pk.cls = 2) (hk : pk.castKind = 1) (ht : k.tables pk.epoch ≠ []) (ho : onTree (k.tree pk.tree.toNat) k.idx = true)
    (hs : k.serves pk = true) (hp : k.isPlane q = false) {o : Nat} (hm : o ∈ k.treePorts pk.tree.toNat) (hq : o ≠ q)
    (hd : (k.port o).state ≠ .peerDark) :
    ⟨pk, q, bufKey false pk, k.rt.arrivals⟩ ∈ ((castArrive now p q pk m k).2.port o).outQ := by
  rw [castArrive_taken h2 ht fun _ => ⟨ho, hs⟩, if_pos ⟨hk, hp⟩]
  have hr := receivePacket_rt (deliverCast_keepsRt now p) now (senderTree (k.isPlane q) pk) m ((k.arrived q).castOut now 255 (k.atInput q pk))
  rw [Pkg.port, hr, ← Pkg.port, Pkg.castOut_eq, (Pkg.leave_left ..).outQ]
  have he : (⟨pk, q, bufKey false pk, k.rt.arrivals⟩ : Queued) = k.atInput q pk := by rw [Pkg.atInput, hp]
  have htp : (k.arrived q).treePorts pk.tree.toNat = k.treePorts pk.tree.toNat := by rw [k.arrived_rest q]; rfl
  rw [he]
  refine Pkg.offerAll_stands (x := (o, pk)) now (k.atInput q pk) _ _ ?_ (by rw [Pkg.arrived_port]; exact hd)
  unfold Pkg.castPorts
  rw [if_pos (show (k.atInput q pk).pk.castKind = 1 from hk)]
  exact List.mem_append_left _ (List.mem_map.2 ⟨o, List.mem_filter.2 ⟨htp.symm ▸ hm, decide_eq_true hq⟩, rfl⟩)

/-! ### Delivery of row and column casts -/

/-- A package whose receiver's flows alone have changed. -/
def Pkg.withRx (r : SMap RxFlow) (k : Pkg) : Pkg := { k with fab := { k.fab with rx := r } }
theorem deliverCast_plain {m1 : Mem} {k1 : Pkg} (hk : pk.castKind ≠ 1) (h : castWriteHere now p pk m k = (m1, k1, stOK)) :
    deliverCast now p pk (m, k) = (m1, k1) := by
  have hd : k.deliversCast pk = true := by unfold Pkg.deliversCast; rw [decide_eq_true hk, Bool.true_or]
  have hf : k1.foreignCast pk = false := by unfold Pkg.foreignCast; rw [decide_eq_false hk, Bool.false_and]
  unfold deliverCast
  dsimp only
  rw [if_pos hd, h, if_pos rfl, if_neg (by rw [hf]; decide)]
theorem castWriteHere_signal (hc : bits pk.dst.toNat 0 6 < 48) (hd : k.coreDark (epCore pk.dst) = false) (hp : k.pstate (epCore pk.dst) < 2)
    (ho : pk.opcode = 0x11) :
    castWriteHere now p pk m k = (m, k.emit (.signal (epCore pk.dst) (bits pk.addr.toNat 0 44)), stOK) := by
  unfold castWriteHere
  dsimp only
  rw [if_neg (Nat.not_le.2 hc), if_neg (by rw [hd]; decide), if_pos ho, Pkg.wakeFor_awake (.inr hp)]
/-- A posted write of local storage: the bytes are stored. -/
theorem writeResult_stored {c a tier off : Nat} {l : BitVec 16} {d : List Byte} (hd : k.coreDark c = false)
    (hl : k.locate c a d.length = .place tier off l) (ht : tier = 1 ∨ tier = 2) (htd : k.tierDark c tier off d.length = false)
    (hi : k.spaceIsolated (tierSpace c tier off).1 (tierSpace c tier off).2 d.length = false) : ∃ k1,
    writeResult now p c a d m k = (memWrite m (memKey p (tierSpace c tier off).1 (tierSpace c tier off).2) d, k1, stOK) ∧
      k1 = { k with mem := k1.mem, brg := k1.brg } := by
  have h2 : (tierSpace c tier off).1 ≠ 2 := by rcases ht with rfl | rfl <;> simp [tierSpace]
  have hlen : opLength opWritePosted 0 d = d.length := rfl
  have hs : ∃ k1, claspedOp now p none (tierSpace c tier off).1 (tierSpace c tier off).2 opWritePosted 0 d m k =
      (memWrite m (memKey p (tierSpace c tier off).1 (tierSpace c tier off).2) d, k1, ⟨stOK, false, []⟩) := by
    unfold claspedOp
    dsimp only
    rw [if_neg fun e => h2 e.1]
    dsimp only
    unfold storageOp
    dsimp only
    rw [hlen, hi, if_neg (by decide), if_neg (by rintro ⟨h, -⟩; revert h; decide), if_neg (by decide), if_neg (by decide)]
    exact ⟨_, rfl⟩
  have hpost := claspedOp_posted now p (tierSpace c tier off).1 (tierSpace c tier off).2 d m k
  obtain ⟨k1, hs⟩ := hs
  rw [hs] at hpost
  refine ⟨k1, ?_, hpost⟩
  unfold writeResult
  rw [if_neg (by rw [hd]; decide), hl]
  dsimp only
  rw [if_neg (by omega), if_neg (by rw [htd]; decide), hs]
/-- The next cast of a flow that holds none is delivered. -/
theorem castJudged {l : List Msg} (hn : pk.seq = f.next) (hh : f.held = []) (h2 : pk.cls = 2) (ht : k.takes pk = .yes) {m1 : Mem}
    (hd : ∀ r, ∃ k1 : Pkg, deliverCast now p pk (m, k.withRx r) = (m1, k1) ∧ k1.fab.rx = r ∧ ∀ x ∈ l, x ∈ k1.out) :
    ∃ j : Pkg, judged now (deliverCast now p) pk m k f = (m1, j) ∧ (∃ g, j.rxFlow (flowOf pk) = some g ∧ g.next = f.next + 1) ∧ ∀ x ∈ l, x ∈ j.out := by
  have hd0 : (pk.seq - f.next).toNat = 0 := by rw [hn, BitVec.sub_self]; rfl
  have h0 : pk.cls ≠ 0 := by rw [h2]; decide
  obtain ⟨k1, hk1, hrx, hl⟩ := hd (sinsert (sinsert k.fab.rx (flowOf pk) { f with held := f.held ++ [pk] }) (flowOf pk) (f.advanced now))
  have hx : k1.rxFlow (flowOf pk) = some (f.advanced now) := by
    rw [Pkg.rxFlow, hrx]
    exact sfind_sinsert_same ..
  have hj : judged now (deliverCast now p) pk m k f = (m1, k1.ackIfDue now (flowOf pk) pk) := by
    rw [judged_joins (by omega) (by rw [hh]; rfl) (.inl hd0) (.inr (.inl h0))]
    dsimp only
    rw [runDeliver_yes (Pkg.rxFlow_setRx_same ..) (find_next hh hd0) ht, RxFlow.delivered_next hh]
    rw [show (k.setRx (flowOf pk) { f with held := f.held ++ [pk] }).setRx (flowOf pk) (f.advanced now) = k.withRx
      (sinsert (sinsert k.fab.rx (flowOf pk) { f with held := f.held ++ [pk] }) (flowOf pk) (f.advanced now)) from rfl, hk1]
    rw [runDeliver_gap hx (show (f.advanced now).held.find? _ = none by rw [show (f.advanced now).held = [] from hh]; rfl)]
  refine ⟨_, hj, ?_⟩
  by_cases hu : (f.advanced now).unacked < k1.ackCountNow
  · rw [Pkg.ackIfDue_early hx hu]
    exact ⟨⟨_, hx, rfl⟩, hl⟩
  · rw [Pkg.ackIfDue_due hx (Nat.le_of_not_lt hu)]
    exact ⟨⟨_, Pkg.rxFlow_setRx_same .., rfl⟩, fun x h => List.mem_append_left _ (hl x h)⟩
theorem Pkg.takes_cast (h2 : pk.cls = 2) (hw : pk.opcode = 0x10 → k.writeWaits (epCore pk.dst) (bits pk.addr.toNat 0 44) pk.payload.length = false) :
    k.takes pk = .yes := by
  unfold Pkg.takes
  rw [if_neg (by rw [h2]; decide), if_neg (by rw [h2]; decide), if_neg]
  rintro ⟨ho, -, -, h⟩
  rw [hw ho] at h
  cases h

/-- A row or column cast that is its flow's next is delivered where its core is awake. -/
theorem castArrive_delivered {l : List Msg} {m1 : Mem} (h2 : pk.cls = 2) (hk : pk.castKind = 2 ∨ pk.castKind = 3) (ht : k.tables pk.epoch ≠ [])
    (hg : k.mem.grants = []) (hc : genCase (k.rxFlow (flowOf pk)) pk = .current) (hf : k.rxFlow (flowOf pk) = some f) (hn : pk.seq = f.next)
    (hh : f.held = []) (hw : pk.opcode = 0x10 → k.writeWaits (epCore pk.dst) (bits pk.addr.toNat 0 44) pk.payload.length = false)
    (hd : ∀ x : Pkg, x = { k with aon := x.aon, rt := x.rt, fab := x.fab, out := x.out } → ∃ k1 : Pkg,
      castWriteHere now p pk m x = (m1, k1, stOK) ∧ k1.fab.rx = x.fab.rx ∧ ∀ y ∈ l, y ∈ k1.out) :
    ∃ j : Pkg, castArrive now p q pk m k = (m1, j) ∧ (∃ g, j.rxFlow (flowOf pk) = some g ∧ g.next = f.next + 1) ∧ ∀ x ∈ l, x ∈ j.out := by
  have h1 : pk.castKind ≠ 1 := by rcases hk with h | h <;> rw [h] <;> decide
  have hst : senderTree (k.isPlane q) pk = pk := if_neg fun h => h1 h.2
  have hleft := (k.arrived q).leave_left (k.atInput q pk)
  rw [castArrive_taken h2 ht fun h => absurd h h1, if_neg fun h => h1 h.1, hst]
  have hx : (k.arrived q).leave (k.atInput q pk) = { k with
      aon := ((k.arrived q).leave (k.atInput q pk)).aon, rt := ((k.arrived q).leave (k.atInput q pk)).rt, out := ((k.arrived q).leave (k.atInput q pk)).out } := by
    rw [hleft.rest, k.arrived_rest q]
  generalize (k.arrived q).leave (k.atInput q pk) = x at hx ⊢
  have hfab : x.fab = k.fab := by rw [hx]
  have hrx : x.rxFlow (flowOf pk) = k.rxFlow (flowOf pk) := by rw [Pkg.rxFlow, hfab, ← Pkg.rxFlow]
  have hgr : x.mem.grants = [] := by rw [hx]; exact hg
  have hww : x.writeWaits (epCore pk.dst) (bits pk.addr.toNat 0 44) pk.payload.length =
      k.writeWaits (epCore pk.dst) (bits pk.addr.toNat 0 44) pk.payload.length := by rw [hx]; rfl
  rw [receivePacket_judged hgr (.inl ⟨hrx ▸ hc, hrx.trans hf⟩)]
  refine castJudged hn hh h2 (Pkg.takes_cast h2 fun ho => hww.trans (hw ho)) fun r => ?_
  obtain ⟨k1, hk1, hr1, hl1⟩ := hd (x.withRx r) (by rw [Pkg.withRx, hx])
  exact ⟨k1, deliverCast_plain h1 hk1, hr1, hl1⟩

/-- Settles O31: a cast's sending, its orphans, its tree's ports, and its delivery. -/
theorem casts : Obligations.Casts := by
  intro s p k
  refine ⟨fun c kind tree dst addr data i op hi => castSends s p c kind tree dst addr data i op hi,
    fun q pk h => exec_castArrive.trans (onPkgMem_next (castArrive_other h)), fun q pk d h2 hd => ?_,
    fun q pk h2 hk ht ho hs hp => ⟨_, rfl, fun o hm hq hst => ?_⟩, fun q pk f h2 hk ht hb hd hps hg hc hf hn hh => ?_⟩
  · obtain ⟨dr, hdr, hfld⟩ : ∃ dr : Drop, ((k.tables pk.epoch = [] ∧ dr = .epoch) ∨
        (k.tables pk.epoch ≠ [] ∧ pk.castKind = 1 ∧ (onTree (k.tree pk.tree.toNat) k.idx = false ∨ k.serves pk = false) ∧ dr = .orphan)) ∧
        d = dropField (portTile q.val) dr := by
      rcases hd with ⟨h, rfl⟩ | ⟨h, hk, hx, rfl⟩
      · exact ⟨.epoch, .inl ⟨h, rfl⟩, rfl⟩
      · exact ⟨.orphan, .inr ⟨h, hk, hx, rfl⟩, rfl⟩
    have hw : d.lo + d.width ≤ 32 ∧ d.width = 8 := by
      rw [hfld]
      rcases hdr with ⟨-, rfl⟩ | ⟨-, -, -, rfl⟩ <;> exact ⟨Nat.le_of_ble_eq_true rfl, rfl⟩
    have hleft := (k.arrived q.val).leave_left (k.atInput q.val pk)
    obtain ⟨l, hl, hidle⟩ := hleft.out
    have hreg : ((k.arrived q.val).leave (k.atInput q.val pk)).regs = k.regs := hleft.regs.trans (by rw [k.arrived_rest q.val])
    refine ⟨_, l, exec_castArrive.trans (onPkgMem_next (castArrive_dropped h2 hdr)), ?_, ?_, hidle, ?_⟩
    · exact hleft.fab.trans (by rw [k.arrived_rest q.val])
    · exact hl.trans (by rw [k.arrived_rest q.val])
    · refine (congrArg (Pkg.get _) hfld).trans ((Pkg.get_count_same _ _ 1 (hfld ▸ hw.1)).trans ?_)
      rw [← hfld, hw.2, Pkg.get_of_regs hreg]
      rfl
  · rw [State.pkg_setPkg_same]
    exact castArrive_leaves h2 hk ht ho hs hp hm hq hst
  · intro a taken
    refine ⟨fun ho => ?_, fun tier off l ho hl htier htd => ?_⟩
    · obtain ⟨j, hj, ht1, hm⟩ := castArrive_delivered (p := p) (q := q.val) (now := s.now) (m := s.mem) (m1 := s.mem)
        (l := [.signal (epCore pk.dst) a]) h2 hk ht hg hc hf hn hh (fun h => absurd (h.symm.trans ho) (by decide))
        (fun x hx => ⟨_, castWriteHere_signal hb (by rw [hx]; exact hd) (by rw [hx]; exact hps) ho, rfl, fun y hy => List.mem_append_right _ hy⟩)
      exact ⟨j, exec_castArrive.trans (onPkgMem_next hj), ht1, hm _ (List.mem_singleton.2 rfl)⟩
    · intro x hi
      have hww : k.writeWaits (epCore pk.dst) a pk.payload.length = false := by
        unfold Pkg.writeWaits
        rw [hl, decide_eq_false (Nat.not_le.2 hps)]
        simp
      obtain ⟨j, hj, ht1, -⟩ := castArrive_delivered (p := p) (q := q.val) (now := s.now) (m := s.mem)
        (m1 := memWrite s.mem (memKey p x.1 x.2) pk.payload) (l := []) h2 hk ht hg hc hf hn hh (fun _ => hww)
        (fun y hy => by
          have hdy : y.coreDark (epCore pk.dst) = false := by rw [hy]; exact hd
          obtain ⟨k1, hk1, hr⟩ := writeResult_stored (now := s.now) (p := p) (m := s.mem) (k := y) hdy
            (show y.locate (epCore pk.dst) a pk.payload.length = .place tier off l by rw [hy]; exact hl) htier
            (show y.tierDark (epCore pk.dst) tier off pk.payload.length = false by rw [hy]; exact htd)
            (show y.spaceIsolated x.1 x.2 pk.payload.length = false by rw [hy]; exact hi)
          refine ⟨k1, ?_, by rw [hr], fun _ h => absurd h List.not_mem_nil⟩
          unfold castWriteHere
          dsimp only
          rw [if_neg (Nat.not_le.2 hb), if_neg (by rw [hdy]; decide), if_neg (by rw [ho]; decide), hk1]
          rfl)
      exact ⟨j, ht1, exec_castArrive.trans (onPkgMem_mem hj)⟩
end Sys2Proof.Machine
end

section
/-! PROOF. Rounds of tally merge at a package with one round (R177–R181): what closes it and where it goes. -/
namespace Sys2Proof.Machine
open Sys2Proof

variable {p : PkgId} {k : Pkg} {now q n t : Nat} {pk : Packet} {m : Mem} {x : MergeSlot}

/-! ### One round -/

theorem foldl_at {α β : Type} {g : α → β → α} {a a' : α} {b : β} (h1 : ∀ c, c ≠ b → g a c = a) (h2 : g a b = a') (h3 : ∀ c, c ≠ b → g a' c = a') :
    ∀ {l : List β}, l.Nodup → b ∈ l → l.foldl g a = a'
  | [], _, hm => absurd hm List.not_mem_nil
  | c :: l, hn, hm => by
    obtain ⟨hc, hn⟩ := List.nodup_cons.1 hn
    rw [List.foldl_cons]
    rcases List.mem_cons.1 hm with rfl | hm
    · rw [h2]
      exact foldl_fixed l fun d hd => h3 d fun e => hc (e ▸ hd)
    · rw [h1 c fun e => hc (e ▸ hm)]
      exact foldl_at h1 h2 h3 hn hm
theorem TallySt.lowest_none (h : k.tally.slots = []) (t : Nat) : k.tally.lowest t = none := by
  unfold TallySt.lowest
  rw [h]
  rfl
theorem TallySt.lowest_same (h : k.tally.slots = [x]) : k.tally.lowest x.tree = some x := by
  unfold TallySt.lowest
  have hx : [x].filter (fun y => y.tree = x.tree) = [x] := by simp
  rw [h, hx]
  rfl
theorem TallySt.lowest_other (h : k.tally.slots = [x]) (ht : t ≠ x.tree) : k.tally.lowest t = none := by
  unfold TallySt.lowest
  rw [h, List.filter_cons_of_neg (by simpa using Ne.symm ht)]
  rfl
theorem flushTree_none (h : k.tally.lowest t = none) : ∀ n, flushTree now p t n (m, k) = (m, k)
  | 0 => rfl
  | n + 1 => by simp only [flushTree, h]
theorem flushTree_open (h : k.tally.lowest t = some x) (hc : x.closed = false) : ∀ n, flushTree now p t n (m, k) = (m, k)
  | 0 => rfl
  | n + 1 => by
    simp only [flushTree, h]
    exact if_pos (by rw [hc]; rfl)
theorem flushTree_sends (h : k.tally.lowest t = some x) (hc : x.closed = true) (hw : k.rootWaits x = false) :
    flushTree now p t (n + 1) (m, k) = flushTree now p t n (sendRound now p x m k) := by
  simp only [flushTree, h]
  rw [if_neg (by rw [hc]; decide), if_neg (by rw [hw]; decide)]
/-- A round whose gone children are marked, closed where it is complete. -/
def Pkg.judgeSlot (k : Pkg) (x : MergeSlot) : MergeSlot :=
  let ch := treeChildren (k.tree x.tree) k.idx
  let x1 := if x.closed then x else { x with gone := ch.filter (fun q =>
    x.gone.contains q || (childGone (k.port q).state && !x.parts.any (fun z => z.port = some q))) }
  { x1 with closed := x1.closed || x1.full ch }
theorem Pkg.closeRounds_eq (k : Pkg) : k.closeRounds = k.setTally fun y => { y with slots := y.slots.map k.judgeSlot } := rfl
theorem Pkg.judgeSlot_closed (h : x.closed = true) : k.judgeSlot x = x := by
  unfold Pkg.judgeSlot
  dsimp only
  rw [if_pos h, h, Bool.true_or, ← h]
/-- What of a round its judgement leaves. -/
theorem Pkg.judgeSlot_open (h : x.closed = false) : ∃ g, (∀ q ∈ g, q ∈ treeChildren (k.tree x.tree) k.idx) ∧ k.judgeSlot x =
    { x with gone := g, closed := ({ x with gone := g } : MergeSlot).full (treeChildren (k.tree x.tree) k.idx) } := by
  refine ⟨(treeChildren (k.tree x.tree) k.idx).filter (fun q =>
    x.gone.contains q || (childGone (k.port q).state && !x.parts.any (fun z => z.port = some q))), fun q hq => (List.mem_filter.1 hq).1, ?_⟩
  unfold Pkg.judgeSlot
  dsimp only
  rw [if_neg (by rw [h]; decide)]
  dsimp only
  rw [h, Bool.false_or]

/-! ### A round that goes up -/

/-- A package that has let a round go. -/
def Pkg.letGo (x : MergeSlot) (k : Pkg) : Pkg := k.setTally fun y =>
  { y with slots := y.slots.filter (fun z => !(z.tree = x.tree && z.seq = x.seq)), closed := y.closed ++ [(x.tree, x.seq)] }
/-- The merged packet of a round. -/
def Pkg.merged (now : Nat) (x : MergeSlot) (k : Pkg) : Packet :=
  { k.newPacket now x.opcode 3 x.dst (BitVec.ofNat 24 (k.addr * 256)) x.result.1 with
    pkg := true, castKind := 1, tree := BitVec.ofNat 8 x.tree, seq := x.seq, status := x.status, addr := x.result.2 }
theorem sendRound_up (hr : treeRoot (k.tree x.tree) ≠ k.idx) (hp : treeParent (k.tree x.tree) k.idx = some (n, q)) :
    sendRound now p x m k = (m, ((k.letGo x).treePush now x.tree q (k.merged now x)).roundDone x x.status) := by
  have hp' : treeParent (k.tree x.tree) (k.setTally fun y =>
      { y with slots := y.slots.filter (fun z => !(z.tree = x.tree && z.seq = x.seq)), closed := y.closed ++ [(x.tree, x.seq)] }).idx = some (n, q) := hp
  unfold sendRound
  dsimp only
  refine (if_neg hr).trans ?_
  rw [hp'] <;> rfl
theorem Pkg.treePush_queued {q : Nat} (h : (k.port q).state ≠ .peerDark) (hv : pk.vc = 3) (now t : Nat) : k.treePush now t q pk =
    Pkg.queueAt q ⟨pk, 24 + t % 2, 3, k.rt.arrivals⟩ { k with rt := k.rt.count } := by
  have hb (b : Bool) : bufKey b pk = 3 := by
    unfold bufKey
    rw [hv, if_neg (by decide)]
    rfl
  have ha : k.arrived (24 + t % 2) = { k with rt := k.rt.count } := by
    unfold Pkg.arrived
    rw [if_neg (by omega)]
  unfold Pkg.treePush
  rw [Pkg.arrival_eq, Pkg.atInput, hb, ha]
  exact if_neg h
/-- The completions of a round change no port and no round, and tell each part's core. -/
theorem Pkg.roundDone_spec (x : MergeSlot) (st : Byte) (k : Pkg) : (k.roundDone x st).rt = k.rt ∧ (k.roundDone x st).tally = k.tally ∧
    ∀ y ∈ x.parts, ∀ c, y.core = some c → Msg.completion c 0 st [] ∈ (k.roundDone x st).out := by
  have hf : ∀ (l : List Part) (k : Pkg), (l.foldl (fun k y => match y.core with
        | some c => k.emit (.completion c 0 st [])
        | none => k) k).rt = k.rt ∧ (l.foldl (fun k y => match y.core with
        | some c => k.emit (.completion c 0 st [])
        | none => k) k).tally = k.tally ∧ (∀ m ∈ k.out, m ∈ (l.foldl (fun k y => match y.core with
        | some c => k.emit (.completion c 0 st [])
        | none => k) k).out) ∧ ∀ y ∈ l, ∀ c, y.core = some c → Msg.completion c 0 st [] ∈ (l.foldl (fun k y => match y.core with
        | some c => k.emit (.completion c 0 st [])
        | none => k) k).out := by
    intro l
    induction l with
    | nil => exact fun k => ⟨rfl, rfl, fun _ h => h, fun _ h => absurd h List.not_mem_nil⟩
    | cons y l ih =>
      intro k
      rw [List.foldl_cons]
      cases hc : y.core with
      | none =>
        obtain ⟨h1, h2, h3, h4⟩ := ih k
        exact ⟨h1, h2, h3, fun z hz c h => by
          rcases List.mem_cons.1 hz with rfl | hz
          · rw [hc] at h; cases h
          · exact h4 z hz c h⟩
      | some d =>
        obtain ⟨h1, h2, h3, h4⟩ := ih (k.emit (.completion d 0 st []))
        exact ⟨h1, h2, fun m hm => h3 m (List.mem_append_left _ hm), fun z hz c h => by
          rcases List.mem_cons.1 hz with rfl | hz
          · rw [hc] at h
            obtain rfl := Option.some.inj h
            exact h3 _ (List.mem_append_right _ (List.mem_singleton.2 rfl))
          · exact h4 z hz c h⟩
  obtain ⟨h1, h2, -, h4⟩ := hf x.parts k
  unfold Pkg.roundDone
  dsimp only
  split
  · exact ⟨h1, h2, h4⟩
  · exact ⟨h1, h2, h4⟩

/-! ### Settling -/

theorem Pkg.noWaiting (h : k.tally.waiting = []) : (k.setTally fun y => { y with waiting := [] }) = k := by
  have h' : ({ k.tally with waiting := k.tally.waiting } : TallySt) = k.tally := rfl
  rw [h] at h'
  exact congrArg (fun y : TallySt => ({ k with tally := y } : Pkg)) h'
theorem settle_calm (h : (flushRounds now p m k).2.tally.waiting = []) (n : Nat) : settle now p (n + 1) (m, k) = flushRounds now p m k := by
  rw [settle]
  generalize flushRounds now p m k = r at h
  rw [h, List.foldl_nil, Pkg.noWaiting h, h, if_pos rfl]
theorem tallySettle_one (hs : k.tally.slots = [x]) {r : Mem × Pkg} (h : flushRounds now p m k = r) (hr : r.2.tally.waiting = []) : tallySettle now p m k = r := by
  unfold tallySettle
  rw [if_neg (by rw [hs]; rintro ⟨h, -⟩; cases h), settle_calm (by rw [h]; exact hr), h]
section
variable (hs : k.tally.slots = [x]) (hw : k.tally.waiting = [])
include hs hw
theorem tallySettle_open (hc : (k.judgeSlot x).closed = false) :
    tallySettle now p m k = (m, k.setTally fun y => { y with slots := [k.judgeSlot x] }) := by
  have hcl : k.closeRounds = k.setTally fun y => { y with slots := [k.judgeSlot x] } := by
    rw [Pkg.closeRounds_eq, Pkg.setTally, Pkg.setTally, hs]
    rfl
  have hone : (k.setTally fun y => { y with slots := [k.judgeSlot x] }).tally.slots = [k.judgeSlot x] := rfl
  refine tallySettle_one hs ?_ hw
  unfold flushRounds
  rw [hcl]
  generalize hk : (k.setTally fun y => { y with slots := [k.judgeSlot x] }) = k1 at hone
  refine foldl_fixed _ fun t _ => ?_
  by_cases h : t = (k.judgeSlot x).tree
  · subst h
    exact flushTree_open (TallySt.lowest_same hone) hc _
  · exact flushTree_none (TallySt.lowest_other hone h) _
/-- A closed round goes up the parent port. -/
theorem tallySettle_up (hc : (k.judgeSlot x).closed = true) (ht : (k.judgeSlot x).tree = t) (h64 : t < 64)
    (hr : treeRoot (k.tree t) ≠ k.idx) (hp : treeParent (k.tree t) k.idx = some (n, q)) (hd : (k.port q).state ≠ .peerDark) : ∃ j : Pkg,
      tallySettle now p m k = (m, j) ∧
      (j.port q).outQ = (k.port q).outQ ++ [⟨k.merged now (k.judgeSlot x), 24 + t % 2, 3, k.rt.arrivals⟩] ∧
      j.tally.slots = [] ∧ j.tally.closed = k.tally.closed ++ [(t, (k.judgeSlot x).seq)] ∧ j.tally.last = k.tally.last ∧
      ∀ y ∈ (k.judgeSlot x).parts, ∀ c, y.core = some c → Msg.completion c 0 (k.judgeSlot x).status [] ∈ j.out := by
  have hcl : k.closeRounds = k.setTally fun y => { y with slots := [k.judgeSlot x] } := by
    rw [Pkg.closeRounds_eq, Pkg.setTally, Pkg.setTally, hs]
    rfl
  generalize hz : k.judgeSlot x = z at hc ht hcl
  subst ht
  have hone : (k.setTally fun y => { y with slots := [z] }).tally.slots = [z] := rfl
  have hup := sendRound_up (k := k.setTally fun y => { y with slots := [z] }) (now := now) (p := p) (m := m) (x := z) hr hp
  rw [Pkg.treePush_queued (k := (k.setTally fun y => { y with slots := [z] }).letGo z) hd rfl] at hup
  obtain ⟨h1, h2, h3⟩ := Pkg.roundDone_spec z z.status (Pkg.queueAt q ⟨k.merged now z, 24 + z.tree % 2, 3, k.rt.arrivals⟩
    { (k.setTally fun y => { y with slots := [z] }).letGo z with rt := k.rt.count })
  have hslots : ((k.setTally fun y => { y with slots := [z] }).letGo z).tally.slots = [] := by
    change [z].filter (fun y => !(y.tree = z.tree && y.seq = z.seq)) = []
    simp
  have hrest : ((k.setTally fun y => { y with slots := [z] }).letGo z).tally.waiting = [] ∧
    ((k.setTally fun y => { y with slots := [z] }).letGo z).tally.closed = k.tally.closed ++ [(z.tree, z.seq)] ∧
    ((k.setTally fun y => { y with slots := [z] }).letGo z).tally.last = k.tally.last := ⟨hw, rfl, rfl⟩
  have htally : ∀ j : Pkg, j.tally = ((k.setTally fun y => { y with slots := [z] }).letGo z).tally → j.tally.slots = [] := fun j h => by rw [h, hslots]
  have hrw : (k.setTally fun y => { y with slots := [z] }).rootWaits z = false := by
    have hd : decide (treeRoot (k.tree z.tree) = k.idx) = false := decide_eq_false hr
    change (decide (treeRoot (k.tree z.tree) = k.idx) && _ && _ && _) = false
    rw [hd]
    rfl
  refine ⟨_, tallySettle_one hs (r := (m, Pkg.roundDone z z.status (Pkg.queueAt q ⟨k.merged now z, 24 + z.tree % 2, 3, k.rt.arrivals⟩
    { (k.setTally fun y => { y with slots := [z] }).letGo z with rt := k.rt.count }))) ?_ ?_, ?_, ?_, ?_, ?_, h3⟩
  · unfold flushRounds
    rw [hcl]
    refine foldl_at (b := z.tree) (fun t ht => flushTree_none (TallySt.lowest_other hone ht) _) ?_ (fun t _ => flushTree_none (TallySt.lowest_none ?_ t) _)
      List.nodup_range (List.mem_range.2 h64)
    · rw [flushTree_sends (TallySt.lowest_same hone) hc hrw]
      exact (congrArg _ hup).trans (flushTree_none (TallySt.lowest_none (htally _ h2) z.tree) _)
    · exact htally _ h2
  · exact (congrArg TallySt.waiting h2).trans hrest.1
  · rw [Pkg.port, h1, ← Pkg.port, Pkg.port_queueAt_same]
    rfl
  · exact htally _ h2
  · exact (congrArg TallySt.closed h2).trans hrest.2.1
  · exact (congrArg TallySt.last h2).trans hrest.2.2
end
end Sys2Proof.Machine
end

section
/-! PROOF. Obligation O32: tally contributions and rounds (R177–R181, R184). -/
namespace Sys2Proof.Machine
open Sys2Proof

variable {s : State} {p : PkgId} {k j : Pkg} {now q n t inp : Nat} {pk : Packet} {m : Mem} {x : MergeSlot}

/-! ### Taking a contribution -/

theorem Pkg.mustWait_idle (hs : k.tally.slots = []) (hw : k.tally.waiting = [])
    (hi : inp < 100 ∨ 0 < k.window k.idx (treeRoot (k.tree pk.tree.toNat)) k.rackNo 3) : k.mustWait inp pk = false := by
  have hlo : k.tally.lowestOpen pk.tree.toNat = none := by
    unfold TallySt.lowestOpen
    rw [hs]
    rfl
  unfold Pkg.mustWait
  dsimp only
  rw [hlo, hw, hs]
  have hlast : (decide (100 ≤ inp) && decide (min (k.window k.idx (treeRoot (k.tree pk.tree.toNat)) k.rackNo 3) 32 ≤ 0)) = false := by
    rcases hi with h | h
    · rw [decide_eq_false (Nat.not_le.2 h), Bool.false_and]
    · have hmin : ¬ min (k.window k.idx (treeRoot (k.tree pk.tree.toNat)) k.rackNo 3) 32 ≤ 0 := by omega
      rw [decide_eq_false hmin, Bool.and_false]
  exact hlast
/-- A new round at a package. -/
def Pkg.freshSlot (now : Nat) (pk : Packet) (k : Pkg) : MergeSlot :=
  { tree := pk.tree.toNat, seq := pk.seq, opcode := pk.opcode, dst := pk.dst, addr := pk.addr, len := pk.payload.length,
    local_ := k.get (F.FAB_TREE_STATE_LOCAL (pk.tree.toNat % 2) pk.tree.toNat), parts := [], gone := [], mismatch := false, timedOut := false,
    closed := false, openedAt := now }
/-- A contribution is well formed. -/
def wellFormed (inp : Nat) (pk : Packet) : Bool :=
  !(malformed pk || (decide (100 ≤ inp) && (decide (pk.payload.length < 4) || decide (4096 < pk.payload.length))))
/-- A contribution comes up another rack's uplink. -/
def Pkg.fromUplink (inp : Nat) (k : Pkg) : Bool := !decide (100 ≤ inp) && (portPlane k.idx inp).isSome
/-- The round that a contribution opens. -/
def Pkg.opens (now inp : Nat) (pk : Packet) (k : Pkg) : MergeSlot :=
  (k.freshSlot now pk).take (if 100 ≤ inp then inp - 100 else if k.fromUplink inp then 1000 + 0 else 2000 + inp)
    (if decide (100 ≤ inp) || k.fromUplink inp then none else some inp) (if 100 ≤ inp then some (inp - 100) else none)
    (wellFormed inp pk && (k.freshSlot now pk).agrees pk) pk
theorem Pkg.fresh_agrees (now : Nat) (pk : Packet) (k : Pkg) : (k.freshSlot now pk).agrees pk = true := by
  unfold MergeSlot.agrees Pkg.freshSlot
  simp
theorem Pkg.tallyPut_opens (hs : k.tally.slots = []) (hw : k.tally.waiting = []) (hc : k.tally.closed.contains (pk.tree.toNat, pk.seq) = false)
    (hi : inp < 100 ∨ 0 < k.window k.idx (treeRoot (k.tree pk.tree.toNat)) k.rackNo 3) :
    k.tallyPut now inp pk =
      if wellFormed inp pk && (k.freshSlot now pk).agrees pk then
        (k.freeInput inp (bufKey (k.isPlane inp) pk) (flits pk)).setTally fun y => { y with slots := [k.opens now inp pk] }
      else ((k.freeInput inp (bufKey (k.isPlane inp) pk) (flits pk)).setTally fun y => { y with slots := [k.opens now inp pk] }).count
        (F.FAB_CAST_EVENTS_TALLY_MISMATCH (pk.tree.toNat % 2)) 1 := by
  have hleft := (k.freeInput_left inp (bufKey (k.isPlane inp) pk) (flits pk)).rest
  unfold Pkg.tallyPut
  dsimp only
  rw [if_neg (by rw [Pkg.mustWait_idle hs hw hi]; decide)]
  generalize k.freeInput inp (bufKey (k.isPlane inp) pk) (flits pk) = k0 at hleft ⊢
  have ht : k0.tally = k.tally := by rw [hleft]
  rw [ht, hs, if_neg (by rw [hc]; exact Bool.false_ne_true)]
  rfl
theorem Pkg.tallyPut_late (hs : k.tally.slots = []) (hw : k.tally.waiting = []) (hc : k.tally.closed.contains (pk.tree.toNat, pk.seq) = true)
    (hi : inp < 100) : k.tallyPut now inp pk =
      (k.freeInput inp (bufKey (k.isPlane inp) pk) (flits pk)).count (F.FAB_CAST_EVENTS_TALLY_LATE (pk.tree.toNat % 2)) 1 := by
  have hleft := (k.freeInput_left inp (bufKey (k.isPlane inp) pk) (flits pk)).rest
  unfold Pkg.tallyPut
  dsimp only
  rw [if_neg (by rw [Pkg.mustWait_idle hs hw (.inl hi)]; decide)]
  generalize k.freeInput inp (bufKey (k.isPlane inp) pk) (flits pk) = k0 at hleft ⊢
  have ht : k0.tally = k.tally := by rw [hleft]
  rw [ht, hc, Bool.true_or, if_pos rfl, if_neg (by simpa using hi)]

/-! ### A round of one part -/

theorem MergeSlot.result_one {y : Part} (h : x.parts = [y]) (hp : y.payload ≠ []) : x.result.1 = (combine x.opcode x.addr.toNat [y.payload]).1 := by
  unfold MergeSlot.result MergeSlot.ordered
  rw [h]
  dsimp only [List.foldl_cons, List.foldl_nil, insertPart]
  rw [List.filter_cons_of_pos (by simpa using hp)]
  rfl
theorem MergeSlot.status_one {y : Part} (h : x.parts = [y]) (hs : y.status = 0) (hg : x.gone = []) (ht : x.timedOut = false) (hm : x.mismatch = false) :
    x.status = stOK := by
  have h0 : (x.parts.map (·.status.toNat)).foldl max 0 = 0 := by
    rw [h, List.map_cons, List.map_nil, hs]
    rfl
  unfold MergeSlot.status
  rw [h0, hg, ht, hm]
  rfl
theorem foldl_max_lt {b : Nat} : ∀ (l : List Nat) (a : Nat), a < b → (∀ n ∈ l, n < b) → l.foldl max a < b
  | [], _, h, _ => h
  | n :: l, a, h, hl => foldl_max_lt l (max a n) (max_lt h (hl n List.mem_cons_self)) fun i hi => hl i (List.mem_cons_of_mem _ hi)
/-- A round that has timed out goes up with PATH_DOWN or worse. -/
theorem MergeSlot.status_timedOut (h : x.timedOut = true) : 5 ≤ x.status.toNat := by
  have hm : (x.parts.map (·.status.toNat)).foldl max 0 < 256 :=
    foldl_max_lt _ 0 (by decide) fun n hn => by
      obtain ⟨y, -, rfl⟩ := List.mem_map.1 hn
      exact y.status.isLt
  unfold MergeSlot.status
  rw [h]
  dsimp only
  generalize (x.parts.map (·.status.toNat)).foldl max 0 = a at hm
  have hu : stUnitReset.toNat = 1 := rfl
  have hp : stPathDown.toNat = 5 := rfl
  have ha : stAccessError.toNat = 6 := rfl
  rw [if_pos rfl, hu, hp, ha, BitVec.toNat_ofNat]
  split <;> split <;> omega

/-! ### Contributions of cores and engines -/

theorem exec_tallySum {c : Core} {x : Contribution} : exec (.tallySum p c x) s = coreContribute opSum p c.val x s := rfl
theorem exec_tallyMax {c : Core} {x : Contribution} : exec (.tallyMax p c x) s = coreContribute opMax p c.val x s := rfl
theorem exec_tallyMin {c : Core} {x : Contribution} : exec (.tallyMin p c x) s = coreContribute opMin p c.val x s := rfl
theorem exec_tallyTopk {e : Fin 196} {x : Contribution} : exec (.tallyTopk p e x) s = coreContribute opTopk p e.val x s := rfl
/-- A command by which a core or an engine contributes. -/
def Contributes (p : PkgId) (x : Contribution) (op : Byte) (src : Nat) (i : Instr) : Prop :=
  (∃ c : Core, src = c.val ∧ ((op = opSum ∧ i = .tallySum p c x) ∨ (op = opMax ∧ i = .tallyMax p c x) ∨ (op = opMin ∧ i = .tallyMin p c x))) ∨
    (∃ e : Fin 196, src = e.val ∧ op = opTopk ∧ i = .tallyTopk p e x)
section
variable {x : Contribution} {op : Byte} {src : Nat} {i : Instr}
theorem Contributes.exec (h : Contributes p x op src i) : Sys2Proof.Machine.exec i s = coreContribute op p src x s := by
  rcases h with ⟨c, rfl, ⟨rfl, rfl⟩ | ⟨rfl, rfl⟩ | ⟨rfl, rfl⟩⟩ | ⟨e, rfl, rfl, rfl⟩
  · exact exec_tallySum
  · exact exec_tallyMax
  · exact exec_tallyMin
  · exact exec_tallyTopk
/-- A source that is dark contributes nothing. -/
def Pkg.sourceDark (k : Pkg) (src : Nat) : Bool := if src < 192 then k.coreDark src else k.dark.dark.any (fun e => engineOf e.1 src)
theorem coreContribute_dark (h : (s.pkg p).sourceDark src = true) : coreContribute op p src x s = .next (s.setPkg p (s.pkg p)) :=
  onPkgMem_next (if_pos h)
theorem coreContribute_lit (h : (s.pkg p).sourceDark src = false) (hc : contribute s.now p op src x s.mem ((s.pkg p).issues src) = (s.mem, j)) :
    coreContribute op p src x s = .next (s.setPkg p j) :=
  onPkgMem_next ((if_neg (by rw [show (if src < 192 then _ else _) = _ from h]; decide)).trans hc)
theorem Pkg.tallyRefusal_issues (c : Nat) : (k.issues c).tallyRefusal src x = k.tallyRefusal src x := by
  unfold Pkg.tallyRefusal
  dsimp only
  rw [Pkg.treeHeld_issues, Pkg.tree_issues, Pkg.idx_issues, (k.issues_aonOnly c).tally]
theorem contribute_refused {st : Byte} (h : k.tallyRefusal src x = some st) :
    contribute now p op src x m k = (m, k.emit (.completion src 0 st [])) := by
  unfold contribute
  rw [h]
/-- The packet of a contribution. -/
def Pkg.contribution (now : Nat) (op : Byte) (src : Nat) (x : Contribution) (k : Pkg) : Packet :=
  { k.newPacket now op 3 x.dst (endpoint k.addr src) x.payload with
    castKind := 1, tree := BitVec.ofNat 8 x.tree.val, seq := x.seq, addr := x.addr }
/-- A source whose last contribution to a tree is noted. -/
def Pkg.lastNoted (src : Nat) (x : Contribution) (k : Pkg) : Pkg :=
  k.setTally fun y => { y with last := sinsert y.last (64 * src + x.tree.val) x.seq }
theorem contribute_taken (h : k.tallyRefusal src x = none) : contribute now p op src x m k =
    tallySettle now p m ((k.lastNoted src x).tallyPut now (100 + src) (k.contribution now op src x)) := by
  unfold contribute
  rw [h]
  rfl
theorem contribution_tree : (k.contribution now op src x).tree.toNat = x.tree.val := by
  change (BitVec.ofNat 8 x.tree.val).toNat = _
  rw [BitVec.toNat_ofNat]
  have := x.tree.isLt
  omega

section
variable (hl : 4 ≤ x.payload.length) (hu : x.payload.length ≤ 4096)
  (ht : op = opTopk → (tFormat x.addr.toNat = 4 ∨ tFormat x.addr.toNat = 5) ∧ 1 ≤ tK x.addr.toNat ∧ tK x.addr.toNat ≤ 512 ∧
    x.payload.length % 8 = 0 ∧ topSorted (tFormat x.addr.toNat) (tDesc x.addr.toNat) (elements (tFormat x.addr.toNat) x.payload) = true)
  (ho : op ≠ opTopk → tFormat x.addr.toNat ≤ 3 ∧ tK x.addr.toNat = 0 ∧ x.payload.length % elemBytes (tFormat x.addr.toNat) = 0)
include hl hu ht ho
theorem contribution_wellFormed : wellFormed (100 + src) (k.contribution now op src x) = true := by
  have hm : malformed (k.contribution now op src x) = false := by
    change (if op = opTopk then !(tFormat x.addr.toNat = 4 || tFormat x.addr.toNat = 5) || tK x.addr.toNat < 1 || 512 < tK x.addr.toNat ||
        x.payload.length % 8 ≠ 0 || 4096 < x.payload.length ||
        !topSorted (tFormat x.addr.toNat) (tDesc x.addr.toNat) (elements (tFormat x.addr.toNat) x.payload)
      else 3 < tFormat x.addr.toNat || tK x.addr.toNat ≠ 0 || x.payload.length % elemBytes (tFormat x.addr.toNat) ≠ 0 : Bool) = false
    by_cases h : op = opTopk
    · obtain ⟨h1, h2, h3, h4, h5⟩ := ht h
      rw [if_pos h, h5]
      rcases h1 with h1 | h1 <;> simp [h1, h4, Nat.not_lt.2 h2, Nat.not_lt.2 h3, Nat.not_lt.2 hu]
    · obtain ⟨h1, h2, h3⟩ := ho h
      rw [if_neg h]
      simp [h2, h3, Nat.not_lt.2 h1]
  have hlen : (k.contribution now op src x).payload.length = x.payload.length := rfl
  unfold wellFormed
  rw [hm, hlen, decide_eq_false (Nat.not_lt.2 hl), decide_eq_false (Nat.not_lt.2 hu)]
  simp
/-- A source's contribution to an idle package without children goes up at once. -/
theorem contribute_up {k : Pkg} (hr : k.tallyRefusal src x = none) (hs : k.tally.slots = []) (hw : k.tally.waiting = [])
    (hc : k.tally.closed.contains (x.tree.val, x.seq) = false) (hwin : 0 < k.window k.idx (treeRoot (k.tree x.tree.val)) k.rackNo 3)
    (hch : treeChildren (k.tree x.tree.val) k.idx = []) (hroot : treeRoot (k.tree x.tree.val) ≠ k.idx)
    (hp : treeParent (k.tree x.tree.val) k.idx = some (n, q)) (hd : (k.port q).state ≠ .peerDark)
    (h1 : k.get (F.FAB_TREE_STATE_LOCAL (x.tree.val % 2) x.tree.val) = 1) :
    ∃ (j : Pkg) (up : Packet), contribute now p op src x m k = (m, j) ∧
      (j.port q).outQ = (k.port q).outQ ++ [⟨up, 24 + x.tree.val % 2, 3, k.rt.arrivals⟩] ∧
      up.payload = (combine op x.addr.toNat [x.payload]).1 ∧ up.opcode = op ∧ up.status = stOK ∧ up.seq = x.seq ∧ up.dst = x.dst ∧
      up.pkg = true ∧ up.cls = 3 ∧ Msg.completion src 0 stOK [] ∈ j.out ∧ j.tally.slots = [] ∧
      j.tally.closed.contains (x.tree.val, x.seq) = true ∧ sfind j.tally.last (64 * src + x.tree.val) = some x.seq := by
  have htree := contribution_tree (k := k) (now := now) (op := op) (src := src) (x := x)
  have hwf := contribution_wellFormed (k := k) (now := now) (src := src) hl hu ht ho
  generalize hpk : k.contribution now op src x = pk at htree hwf
  have hfields : pk.seq = x.seq ∧ pk.opcode = op ∧ pk.dst = x.dst ∧ pk.addr = x.addr ∧ pk.payload = x.payload ∧ pk.status = 0 := by
    rw [← hpk]
    exact ⟨rfl, rfl, rfl, rfl, rfl, rfl⟩
  obtain ⟨hseq, hop, hdst, haddr, hpay, hst⟩ := hfields
  have hput := Pkg.tallyPut_opens (k := k.lastNoted src x) (now := now) (inp := 100 + src) (pk := pk) hs hw (by rw [htree, hseq]; exact hc)
    (.inr (by rw [htree]; exact hwin))
  rw [hwf, Pkg.fresh_agrees, if_pos (by rfl), Pkg.freeInput, if_pos (by omega)] at hput
  generalize hz : (k.lastNoted src x).opens now (100 + src) pk = z at hput
  have hzf : z = ⟨x.tree.val, x.seq, op, x.dst, x.addr, if x.payload.length = 0 then x.payload.length else x.payload.length, 1,
      [⟨src, none, x.payload, 0, tFlag x.addr.toNat, some src⟩], [], false, false, false, now⟩ := by
    rw [← hz]
    unfold Pkg.opens
    rw [hwf, Pkg.fresh_agrees]
    unfold Pkg.freshSlot MergeSlot.take
    simp only [htree, hseq, hop, hdst, haddr, hpay, hst]
    rw [show (k.lastNoted src x).get _ = k.get _ from rfl, h1]
    simp
  have hparts : z.parts = [⟨src, none, x.payload, 0, tFlag x.addr.toNat, some src⟩] := by rw [hzf]
  have hzt : z.tree = x.tree.val := by rw [hzf]
  have hzc : z.closed = false := by rw [hzf]
  obtain ⟨g, hg, hj⟩ := Pkg.judgeSlot_open (k := (k.lastNoted src x).setTally fun y => { y with slots := [z] }) hzc
  have hch2 : treeChildren (((k.lastNoted src x).setTally fun y => { y with slots := [z] }).tree z.tree)
      ((k.lastNoted src x).setTally fun y => { y with slots := [z] }).idx = [] := by
    rw [hzt]
    exact hch
  have hg0 : g = [] := by
    refine List.eq_nil_iff_forall_not_mem.2 fun a ha => ?_
    have := hg a ha
    rw [hch2] at this
    cases this
  have hfull : ({ z with gone := g } : MergeSlot).full (treeChildren (((k.lastNoted src x).setTally fun y => { y with slots := [z] }).tree z.tree)
      ((k.lastNoted src x).setTally fun y => { y with slots := [z] }).idx) = true := by
    rw [hch2, hzf]
    rfl
  rw [hfull, hg0] at hj
  generalize hk2 : ((k.lastNoted src x).setTally fun y => { y with slots := [z] }) = k2 at hput hj
  have h2 : k2.tree x.tree.val = k.tree x.tree.val ∧ k2.idx = k.idx ∧ k2.rt = k.rt ∧ k2.tally.slots = [z] ∧ k2.tally.waiting = [] ∧
      k2.tally.closed = k.tally.closed ∧ k2.tally.last = sinsert k.tally.last (64 * src + x.tree.val) x.seq := by
    rw [← hk2]
    exact ⟨rfl, rfl, rfl, rfl, hw, rfl, rfl⟩
  obtain ⟨htr, hidx, hrt, hslots, hwait, hclosed, hlast⟩ := h2
  have hport (o : Nat) : k2.port o = k.port o := by rw [Pkg.port, hrt, ← Pkg.port]
  obtain ⟨j, hset, hout, hjs, hjc, hjl, hcomp⟩ := tallySettle_up (k := k2) (now := now) (p := p) (m := m) (t := x.tree.val) (n := n) (q := q)
    hslots hwait (by rw [hj]) (by rw [hj]; exact hzt) x.tree.isLt (by rw [htr, hidx]; exact hroot) (by rw [htr, hidx]; exact hp)
    (by rw [hport]; exact hd)
  have hstat : (k2.judgeSlot z).status = stOK := MergeSlot.status_one (by rw [hj]; exact hparts) rfl (by rw [hj]) (by rw [hj, hzf]) (by rw [hj, hzf])
  refine ⟨j, k2.merged now (k2.judgeSlot z), (contribute_taken hr).trans (by rw [hpk, hput, hset]), ?_, ?_, ?_, hstat, ?_, ?_, rfl, rfl, ?_, hjs, ?_, ?_⟩
  · rw [hout, hport, hrt]
  · refine (MergeSlot.result_one (x := k2.judgeSlot z) (by rw [hj]; exact hparts) ?_).trans (by rw [hj, hzf])
    intro h
    rw [show x.payload = [] from h] at hl
    exact absurd hl (by decide)
  · change (k2.judgeSlot z).opcode = op
    rw [hj, hzf]
  · change (k2.judgeSlot z).seq = x.seq
    rw [hj, hzf]
  · change (k2.judgeSlot z).dst = x.dst
    rw [hj, hzf]
  · have := hcomp ⟨src, none, x.payload, 0, tFlag x.addr.toNat, some src⟩ (by rw [hj, show ({ z with gone := [], closed := true } : MergeSlot).parts = _ from hparts]; exact List.mem_singleton.2 rfl) src rfl
    rwa [hstat] at this
  · rw [hjc, List.contains_iff_mem, hj]
    refine List.mem_append_right _ (List.mem_singleton.2 ?_)
    rw [hzf]
  · rw [hjl, hlast]
    exact sfind_sinsert_same ..
end
end
end Sys2Proof.Machine
end

section
/-! PROOF. Obligation O32: tally packets that arrive, and rounds that have waited (R179, R180). -/
namespace Sys2Proof.Machine
open Sys2Proof

variable {s : State} {p : PkgId} {k j : Pkg} {now q n t inp : Nat} {pk : Packet} {m : Mem} {x : MergeSlot}

/-! ### TALLY_ARRIVE -/

theorem exec_tallyArrive {inp : Fin 64} : exec (.tallyArrive p inp pk) s = execTallyArrive p inp pk s := rfl
theorem tallyArrive_other {inp : Fin 64} (h : pk.cls ≠ 3 ∨ 24 ≤ inp.val) : exec (.tallyArrive p inp pk) s = .next (s.setPkg p (s.pkg p)) :=
  exec_tallyArrive.trans (onPkgMem_next (if_pos h))
section
variable {inp : Fin 64} (h3 : pk.cls = 3) (h24 : inp.val < 24) (hk : (s.pkg p).newerSgen (epPkg pk.src) pk.sgen = k)
include h3 h24 hk
theorem tallyArrive_orphan (he : k.tallyExpected inp.val pk = false) : exec (.tallyArrive p inp pk) s =
    .next (s.setPkg p ((k.freeInput inp.val (bufKey (k.isPlane inp.val) pk) (flits pk)).drop inp.val .orphan)) := by
  refine exec_tallyArrive.trans (onPkgMem_next ?_)
  dsimp only
  rw [hk, if_neg (by rintro (h | h); exacts [h h3, Nat.not_le.2 h24 h]), if_neg (by rw [he]; decide)]
theorem tallyArrive_expected (he : k.tallyExpected inp.val pk = true) (hj : tallySettle s.now p s.mem (k.tallyPut s.now inp.val pk) = (s.mem, j)) :
    exec (.tallyArrive p inp pk) s = .next (s.setPkg p j) := by
  refine exec_tallyArrive.trans (onPkgMem_next ?_)
  dsimp only
  rw [hk, if_neg (by rintro (h | h); exacts [h h3, Nat.not_le.2 h24 h]), if_pos he, hj]
end
theorem tallySettle_idle (hs : k.tally.slots = []) (hw : k.tally.waiting = []) : tallySettle now p m k = (m, k) := if_pos ⟨hs, hw⟩
/-- A child's contribution to a round that awaits the package's own cores holds its slot. -/
theorem tallyPut_holds (hs : k.tally.slots = []) (hw : k.tally.waiting = []) (hc : k.tally.closed.contains (pk.tree.toNat, pk.seq) = false)
    (hi : inp < 100) (hp : k.isPlane inp = false) (hl : 1 ≤ k.get (F.FAB_TREE_STATE_LOCAL (pk.tree.toNat % 2) pk.tree.toNat)) :
    ∃ (j : Pkg) (x : MergeSlot), tallySettle now p m (k.tallyPut now inp pk) = (m, j) ∧ j.tally.slots = [x] ∧ x.tree = pk.tree.toNat ∧
      x.seq = pk.seq ∧ x.opcode = pk.opcode ∧ x.dst = pk.dst ∧ x.closed = false ∧ x.parts.length = 1 ∧ x.openedAt = now := by
  have hleft := (k.freeInput_left inp (bufKey (k.isPlane inp) pk) (flits pk)).rest
  have hput := Pkg.tallyPut_opens (now := now) hs hw hc (.inl hi)
  have hup : k.fromUplink inp = false := by
    unfold Pkg.fromUplink
    rw [show (portPlane k.idx inp).isSome = false from hp, Bool.and_false]
  generalize hz : k.opens now inp pk = z at hput
  have hzf : z.tree = pk.tree.toNat ∧ z.seq = pk.seq ∧ z.opcode = pk.opcode ∧ z.dst = pk.dst ∧ z.closed = false ∧ z.parts.length = 1 ∧
      z.openedAt = now ∧ z.local_ = k.get (F.FAB_TREE_STATE_LOCAL (pk.tree.toNat % 2) pk.tree.toNat) ∧
      z.parts.filter (fun y => y.port.isNone) = [] := by
    rw [← hz, Pkg.opens, hup, decide_eq_false (Nat.not_le.2 hi)]
    exact ⟨rfl, rfl, rfl, rfl, rfl, rfl, rfl, rfl, rfl⟩
  obtain ⟨h1, h2, h3, h4, h5, h6, h7, h8, h9⟩ := hzf
  have hslots : (k.tallyPut now inp pk).tally.slots = [z] := by
    rw [hput]
    split <;> rfl
  have hwait : (k.tallyPut now inp pk).tally.waiting = [] := by
    have hw' : (k.freeInput inp (bufKey (k.isPlane inp) pk) (flits pk)).tally.waiting = [] := by rw [hleft]; exact hw
    rw [hput]
    split <;> exact hw'
  generalize k.tallyPut now inp pk = k1 at hslots hwait ⊢
  obtain ⟨g, -, hj⟩ := Pkg.judgeSlot_open (k := k1) h5
  have hfull : ({ z with gone := g } : MergeSlot).full (treeChildren (k1.tree z.tree) k1.idx) = false := by
    unfold MergeSlot.full
    rw [show ({ z with gone := g } : MergeSlot).parts.filter (fun y => y.port.isNone) = [] from h9,
      show ({ z with gone := g } : MergeSlot).local_ = _ from h8, decide_eq_false (by rw [List.length_nil]; omega), Bool.and_false]
  rw [hfull] at hj
  have hset := tallySettle_open (now := now) (p := p) (m := m) hslots hwait (by rw [hj])
  refine ⟨_, k1.judgeSlot z, hset, rfl, ?_⟩
  rw [hj]
  exact ⟨h1, h2, h3, h4, rfl, h6, h7⟩

/-! ### MERGE_WAIT_EXPIRY -/

/-- A round has waited MERGE_WAIT. -/
def Pkg.overdue (now : Nat) (tree : Nat) (seq : Word) (k : Pkg) (x : MergeSlot) : Bool :=
  x.tree = tree && x.seq = seq && !x.closed && x.openedAt + 100000 * k.get (F.FAB_TREE_CFG_MERGE_WAIT 0) ≤ now
theorem exec_mergeWaitExpiry {tree : Fin 64} {seq : Word} : exec (.mergeWaitExpiry p tree seq) s = onPkgMem p s fun m k =>
    if k.tally.slots.any (k.overdue s.now tree.val seq) then
      tallySettle s.now p m (k.setTally fun y =>
        { y with slots := y.slots.map (fun x => if k.overdue s.now tree.val seq x then { x with timedOut := true, closed := true } else x) })
    else (m, k) := rfl
theorem mergeWaits (s : State) (p : PkgId) (tree : Fin 64) (seq : Word) :
    let k := s.pkg p
    let wait := 100000 * k.get (F.FAB_TREE_CFG_MERGE_WAIT 0)
    ((∀ x ∈ k.tally.slots, x.tree = tree.val → x.seq = seq → x.closed = true ∨ s.now < x.openedAt + wait) →
      exec (.mergeWaitExpiry p tree seq) s = .next (s.setPkg p k)) ∧
    (∀ x n q, k.tally.slots = [x] → k.tally.waiting = [] → x.tree = tree.val → x.seq = seq → x.closed = false →
        x.openedAt + wait ≤ s.now → treeRoot (k.tree tree.val) ≠ k.idx → treeParent (k.tree tree.val) k.idx = some (n, q) →
        (k.port q).state ≠ .peerDark → ∃ (j : Pkg) (up : Packet), exec (.mergeWaitExpiry p tree seq) s = .next (s.setPkg p j) ∧
      (j.port q).outQ = (k.port q).outQ ++ [⟨up, 24 + tree.val % 2, 3, k.rt.arrivals⟩] ∧ 5 ≤ up.status.toNat ∧ up.seq = seq ∧ j.tally.slots = [] ∧
      j.tally.closed.contains (tree.val, seq) = true) := by
  intro k wait
  refine ⟨fun h => exec_mergeWaitExpiry.trans (onPkgMem_next (if_neg ?_)), fun x n q hs hw ht hq hc hl hr hp hd => ?_⟩
  · rw [List.any_eq_true]
    rintro ⟨x, hx, ho⟩
    unfold Pkg.overdue at ho
    simp only [Bool.and_eq_true, decide_eq_true_eq, Bool.not_eq_true'] at ho
    obtain ⟨⟨⟨h1, h2⟩, h3⟩, h4⟩ := ho
    rcases h x hx h1 h2 with h | h
    · rw [h] at h3
      cases h3
    · exact Nat.not_le.2 h h4
  · have hdue : k.overdue s.now tree.val seq x = true := by
      unfold Pkg.overdue
      rw [ht, hq, hc, decide_eq_true rfl, decide_eq_true rfl, decide_eq_true hl]
      rfl
    have hmap : k.tally.slots.map (fun x => if k.overdue s.now tree.val seq x then { x with timedOut := true, closed := true } else x) =
        [{ x with timedOut := true, closed := true }] := by
      rw [hs, List.map_cons, List.map_nil, if_pos hdue]
    have hany : k.tally.slots.any (k.overdue s.now tree.val seq) = true := by
      rw [hs, List.any_cons, hdue]
      rfl
    have hz : (k.setTally fun y => { y with slots := y.slots.map (fun x =>
        if k.overdue s.now tree.val seq x then { x with timedOut := true, closed := true } else x) }).judgeSlot
          { x with timedOut := true, closed := true } = { x with timedOut := true, closed := true } := Pkg.judgeSlot_closed rfl
    obtain ⟨j, hset, hout, hjs, hjc, -, -⟩ := tallySettle_up (k := k.setTally fun y => { y with slots := y.slots.map (fun x =>
        if k.overdue s.now tree.val seq x then { x with timedOut := true, closed := true } else x) }) (now := s.now) (p := p) (m := s.mem)
      (t := tree.val) (n := n) (q := q) hmap hw (by rw [hz]) (by rw [hz]; exact ht) tree.isLt hr hp hd
    rw [hz] at hout hjc
    refine ⟨j, _, exec_mergeWaitExpiry.trans (onPkgMem_next ((if_pos hany).trans hset)), hout, MergeSlot.status_timedOut rfl, hq, hjs, ?_⟩
    rw [hjc, List.contains_iff_mem]
    refine List.mem_append_right _ (List.mem_singleton.2 ?_)
    rw [← hq]

/-- Settles O32: contributions by the checks of `tallyRefusal`, rounds by `tallySettle_up` and `tallySettle_open`. -/
theorem tallyRounds : Obligations.TallyRounds := by
  intro s p k idle slot
  refine ⟨fun x op src i hi => ?_, fun inp pk h => tallyArrive_other h, fun inp pk h3 h24 => ?_, fun tree seq => mergeWaits s p tree seq⟩
  · intro t r dark last
    have hx := Contributes.exec (s := s) hi
    have hissues := (k.issues_aonOnly src)
    have href {st : Option Byte} (h : k.tallyRefusal src x = st) : (k.issues src).tallyRefusal src x = st := (Pkg.tallyRefusal_issues src).trans h
    refine ⟨fun hd => hx.trans (coreContribute_dark hd),
      fun hd hh => hx.trans (coreContribute_lit hd (contribute_refused (href (if_pos hh)))), fun l hd hh ho hv hl hg => ?_,
      fun n q hd hh ho hv hl hid hc hw hch hr hp hq h1 h4 hu htk hsum => ?_⟩
    · refine hx.trans (coreContribute_lit hd (contribute_refused (href ?_)))
      unfold Pkg.tallyRefusal
      dsimp only
      rw [if_neg (by rw [hh]; decide), if_neg (by rw [ho, hv]; decide), show sfind k.tally.last (64 * src + x.tree.val) = some l from hl]
      dsimp only
      rw [if_neg (by rw [hg]; decide)]
    · have hnone : k.tallyRefusal src x = none := by
        unfold Pkg.tallyRefusal
        dsimp only
        rw [if_neg (by rw [hh]; decide), if_neg (by rw [ho, hv]; decide)]
        cases hlast : sfind k.tally.last (64 * src + x.tree.val) with
        | none => rfl
        | some l => exact if_pos (hl l hlast)
      have htally : (k.issues src).tally = k.tally := hissues.tally
      have hrt : (k.issues src).rt = k.rt := hissues.rt
      have htree : (k.issues src).tree x.tree.val = k.tree x.tree.val := Pkg.tree_issues _
      have hidx : (k.issues src).idx = k.idx := Pkg.idx_issues
      have hrack : (k.issues src).rackNo = k.rackNo := congrArg addrRack Pkg.addr_issues
      have hport : (k.issues src).port q = k.port q := by rw [Pkg.port, hrt, ← Pkg.port]
      have hwin (a b c d : Nat) : (k.issues src).window a b c d = k.window a b c d := by
        unfold Pkg.window
        rw [Pkg.chart_issues, hrack]
      have hloc : (k.issues src).get (F.FAB_TREE_STATE_LOCAL (x.tree.val % 2) x.tree.val) = k.get (F.FAB_TREE_STATE_LOCAL (x.tree.val % 2) x.tree.val) :=
        Pkg.get_of_rg (Pkg.rg_issues (by
          have := x.tree.isLt
          simp only [F.FAB_TREE_STATE_LOCAL, R.FAB_TREE_STATE]
          omega))
      obtain ⟨j, up, hj, hrest⟩ := contribute_up (now := s.now) (p := p) (m := s.mem) (src := src) h4 hu htk hsum (href hnone)
        (by rw [htally]; exact hid.1) (by rw [htally]; exact hid.2) (by rw [htally]; exact hc)
        (by rw [hwin, hidx, htree, hrack]; exact hw) (by rw [htree, hidx]; exact hch) (by rw [htree, hidx]; exact hr)
        (by rw [htree, hidx]; exact hp) (by rw [hport]; exact hq) (by rw [hloc]; exact h1)
      rw [hport, hrt] at hrest
      exact ⟨j, up, hx.trans (coreContribute_lit hd hj), hrest⟩
  · intro t c1 c2
    refine ⟨fun he => ⟨_, tallyArrive_orphan h3 h24 rfl he, ?_⟩, fun he hid hc => ?_, fun he hid hc hpl hl => ?_⟩
    · have hleft := ((k.newerSgen (epPkg pk.src) pk.sgen).freeInput_left inp.val
        (bufKey ((k.newerSgen (epPkg pk.src) pk.sgen).isPlane inp.val) pk) (flits pk))
      generalize (k.newerSgen (epPkg pk.src) pk.sgen).freeInput inp.val
        (bufKey ((k.newerSgen (epPkg pk.src) pk.sgen).isPlane inp.val) pk) (flits pk) = k0 at hleft
      refine ⟨?_, hleft.fab, ?_⟩
      · exact (congrArg Pkg.tally hleft.rest :)
      · exact (Pkg.get_count_same k0 c1 1 (Nat.le_of_ble_eq_true rfl)).trans (by rw [Pkg.get_of_regs hleft.regs]; rfl)
    · have hput := Pkg.tallyPut_late (k := k.newerSgen (epPkg pk.src) pk.sgen) (now := s.now) (inp := inp.val) (pk := pk) hid.1 hid.2 hc (by omega)
      have hleft := ((k.newerSgen (epPkg pk.src) pk.sgen).freeInput_left inp.val
        (bufKey ((k.newerSgen (epPkg pk.src) pk.sgen).isPlane inp.val) pk) (flits pk))
      generalize (k.newerSgen (epPkg pk.src) pk.sgen).freeInput inp.val
        (bufKey ((k.newerSgen (epPkg pk.src) pk.sgen).isPlane inp.val) pk) (flits pk) = k0 at hleft hput
      have ht0 : (k0.count c2 1).tally = k.tally := (congrArg Pkg.tally hleft.rest :)
      refine ⟨_, tallyArrive_expected h3 h24 rfl he (j := k0.count c2 1) ?_, ht0, ?_⟩
      · rw [hput]
        exact tallySettle_idle (k := k0.count c2 1) (by rw [ht0]; exact hid.1) (by rw [ht0]; exact hid.2)
      · exact (Pkg.get_count_same k0 c2 1 (Nat.le_of_ble_eq_true rfl)).trans (by rw [Pkg.get_of_regs hleft.regs]; rfl)
    · obtain ⟨j, x, hj, hrest⟩ := tallyPut_holds (k := k.newerSgen (epPkg pk.src) pk.sgen) (now := s.now) (p := p) (m := s.mem) (inp := inp.val) hid.1 hid.2 hc
        (by omega) hpl hl
      exact ⟨j, x, tallyArrive_expected h3 h24 rfl he hj, hrest⟩
end Sys2Proof.Machine
end

section
/-! PROOF. Obligation O27, first part: what a package's router does with a packet that arrives (R146–R157, R164, R196). -/
namespace Sys2Proof.Machine
open Sys2Proof

variable {s : State} {p : PkgId} {i j k : Pkg} {now q n inp : Nat} {pk : Packet} {e : Queued} {img : List Byte}

/-! ### What routing leaves -/

/-- Routing touches neither the flows of a package nor its requests and segments. -/
structure Pkg.Routed (j k : Pkg) : Prop where
  segs : k.mem.segs = j.mem.segs
  tx : k.fab.tx = j.fab.tx
  rx : k.fab.rx = j.fab.rx
  inbound : k.fab.inbound = j.fab.inbound
  ret : k.ret = j.ret
theorem Pkg.Routed.trans (h : i.Routed j) (h' : j.Routed k) : i.Routed k :=
  ⟨h'.segs.trans h.segs, h'.tx.trans h.tx, h'.rx.trans h.rx, h'.inbound.trans h.inbound, h'.ret.trans h.ret⟩
theorem Pkg.Left.routed (h : j.Left q k) : j.Routed k :=
  ⟨by rw [h.rest], by rw [h.rest], by rw [h.rest], by rw [h.rest], by rw [h.rest]⟩
theorem Pkg.arrived_routed (inp : Nat) (k : Pkg) : k.Routed (k.arrived inp) := by
  rw [k.arrived_rest inp]
  exact ⟨rfl, rfl, rfl, rfl, rfl⟩
/-- A package's state in which only the router, the always-on state, the grants and the weights' accumulators differ, so that it routes alike. -/
structure Pkg.Alike (j k : Pkg) : Prop where
  regs : k.regs = j.regs
  chart : k.chart = j.chart
  out : k.out = j.out
  ports : k.rt.ports = j.rt.ports
  stalled : k.fab.stalled = j.fab.stalled
  acc : k.fab.weightAcc = j.fab.weightAcc
  time : ∀ now, k.time now = j.time now
  routed : j.Routed k
theorem Pkg.arrived_alike (inp : Nat) (k : Pkg) : k.Alike (k.arrived inp) := by
  have h := k.arrived_routed inp
  have ht := fun now => k.arrived_time inp now
  rw [k.arrived_rest inp] at *
  exact ⟨rfl, rfl, rfl, rfl, rfl, rfl, ht, h⟩
theorem Pkg.Alike.newerSgen (h : j.Alike k) (src : Nat) (g : Byte) : j.Alike (k.newerSgen src g) :=
  ⟨h.regs, h.chart, h.out, h.ports, h.stalled, h.acc, h.time, h.routed.segs, h.routed.tx, h.routed.rx, h.routed.inbound, h.routed.ret⟩

section
variable (h : j.Alike k)
include h
theorem Pkg.Alike.port (q : Nat) : k.port q = j.port q := by rw [Pkg.port, h.ports]; rfl
theorem Pkg.Alike.get (f : Fld) : k.get f = j.get f := Pkg.get_of_regs h.regs f
theorem Pkg.Alike.addr : k.addr = j.addr := h.get _
theorem Pkg.Alike.idx : k.idx = j.idx := congrArg addrIndex h.addr
theorem Pkg.Alike.rackNo : k.rackNo = j.rackNo := congrArg addrRack h.addr
theorem Pkg.Alike.tables (b : Bool) : k.tables b = j.tables b := by rw [Pkg.tables, h.chart]; rfl
theorem Pkg.Alike.lifetimeUs : k.lifetimeUs = j.lifetimeUs := congrArg (1000 * ·) (h.get _)
theorem Pkg.Alike.storeFull : k.storeFull = j.storeFull := by rw [Pkg.storeFull, h.routed.inbound]; rfl
theorem Pkg.Alike.override (pk : Packet) : k.override pk = j.override pk := by
  have hr (o : Nat) : k.rg o = j.rg o := Pkg.rg_of_regs h.regs o
  unfold Pkg.override
  simp only [hr, h.rackNo]
theorem Pkg.Alike.foreignAbsent (img : List Byte) (pk : Packet) : k.foreignAbsent img pk = j.foreignAbsent img pk := by
  unfold Pkg.foreignAbsent
  rw [h.rackNo]
theorem Pkg.Alike.toPlane (plane : Nat) : (k.toPlane plane).1 = (j.toPlane plane).1 := by
  unfold Pkg.toPlane
  rw [h.idx]
  cases secondPort j.idx plane with
  | none => rfl
  | some q2 =>
    dsimp only
    rw [h.acc, h.get]
    simp only [h.port]
theorem Pkg.Alike.fallbackPort (img : List Byte) (pk : Packet) : (k.fallbackPort img pk).1 = (j.fallbackPort img pk).1 := by
  unfold Pkg.fallbackPort
  dsimp only
  rw [h.rackNo, h.idx]
  split
  · rfl
  split
  · split
    · rfl
    split
    · exact congrArg some (h.toPlane _)
    · rfl
  · split
    · exact congrArg some (h.toPlane _)
    · rfl
theorem Pkg.Alike.response (now : Nat) (rq : Packet) (st : Byte) (po : Bool) (d : List Byte) : k.response now rq st po d = j.response now rq st po d := by
  have hs : k.stamp = j.stamp := congrArg (fun n => decide (n = 1)) (h.get F.CHT_SLOT_STATUS_STAMP)
  unfold Pkg.response Pkg.newPacket Pkg.birth
  rw [hs, h.time, h.routed.ret, h.addr]
end

/-! ### The checks at arrival -/

theorem exec_packetArrive {inp : Fin 512} : exec (.packetArrive (.pkg p) inp pk) s = .next (s.setPkg p ((s.pkg p).arrive s.now inp.val pk)) := rfl
theorem known_passes (hk : (if pk.pkg then pkgAddrOk (epPkg pk.dst) else endpointOk pk.dst) = true) :
    ¬ (pk.cls ≠ 2 ∧ pk.cls ≠ 3 ∧ (if pk.pkg then !pkgAddrOk (epPkg pk.dst) else !endpointOk pk.dst) = true) := by
  rintro ⟨-, -, h⟩
  split at hk <;> simp_all
section
variable (hop : opcodeOk pk.opcode = true) (hres : pk.reserved = false) (hold : ¬ k.lifetimeUs < ageUs (k.time now) pk)
theorem Pkg.arrive_header (h : opcodeOk pk.opcode = false ∨ pk.reserved = true) :
    k.arrive now inp pk = ((k.arrived inp).leave (k.atInput inp pk)).drop inp .header := by
  refine if_pos ?_
  rcases h with h | h <;> simp [h]
include hop hres
theorem Pkg.arrive_old (h : k.lifetimeUs < ageUs (k.time now) pk) :
    k.arrive now inp pk = ((k.arrived inp).leave (k.atInput inp pk)).drop inp .lifetime := by
  refine (if_neg (by simp [hop, hres])).trans (if_pos ?_)
  have ha := k.arrived_alike inp
  rw [show (k.arrival inp pk).2 = k.arrived inp from rfl, ha.lifetimeUs, ha.time]
  exact h
include hold
theorem Pkg.arrive_checked : ¬ (!opcodeOk pk.opcode || pk.reserved) = true ∧
    ¬ (k.arrived inp).lifetimeUs < ageUs ((k.arrived inp).time now) pk := by
  have ha := k.arrived_alike inp
  rw [ha.lifetimeUs, ha.time]
  exact ⟨by simp [hop, hres], hold⟩
theorem Pkg.arrive_unknown (h2 : pk.cls ≠ 2) (h3 : pk.cls ≠ 3) (h : (if pk.pkg then pkgAddrOk (epPkg pk.dst) else endpointOk pk.dst) = false) :
    k.arrive now inp pk = ((k.arrived inp).leave (k.atInput inp pk)).drop inp .noEndpoint := by
  obtain ⟨c1, c2⟩ := Pkg.arrive_checked (inp := inp) hop hres hold
  refine (if_neg c1).trans ((if_neg c2).trans (if_pos ⟨h2, h3, ?_⟩))
  split at h <;> simp_all
theorem Pkg.arrive_multi (h : pk.cls = 2 ∨ pk.cls = 3) :
    k.arrive now inp pk = ((k.arrived inp).newerSgen (epPkg pk.src) pk.sgen).emit (.delivered inp pk) := by
  obtain ⟨c1, c2⟩ := Pkg.arrive_checked (inp := inp) hop hres hold
  refine (if_neg c1).trans ((if_neg c2).trans ((if_neg ?_).trans ((if_pos h).trans ?_)))
  · rintro ⟨h2, h3, -⟩
    exact h.elim h2 h3
  · rw [if_pos (by rcases h with h | h; exacts [.inl h, .inr (.inl h)])]
    rfl
variable (h2 : pk.cls ≠ 2) (h3 : pk.cls ≠ 3) (hk : (if pk.pkg then pkgAddrOk (epPkg pk.dst) else endpointOk pk.dst) = true)
include h2 h3 hk
theorem Pkg.arrive_own (ha : epPkg pk.dst = k.addr) : k.arrive now inp pk =
    let x := (k.arrived inp).newerSgen (epPkg pk.src) pk.sgen
    if pk.cls = 0 ∧ x.storeFull then { x with fab := { x.fab with stalled := x.fab.stalled ++ [(inp, pk)] } }
    else (x.leave (k.atInput inp pk)).emit (.delivered inp pk) := by
  obtain ⟨c1, c2⟩ := Pkg.arrive_checked (inp := inp) hop hres hold
  have hadd : epPkg pk.dst = ((k.arrived inp).newerSgen (epPkg pk.src) pk.sgen).addr := ha.trans ((k.arrived_alike inp).newerSgen _ _).addr.symm
  have hmine : (if pk.cls = 2 ∨ pk.cls = 3 ∨ epPkg pk.dst = k.addr then (k.arrived inp).newerSgen (epPkg pk.src) pk.sgen else k.arrived inp) =
      (k.arrived inp).newerSgen (epPkg pk.src) pk.sgen := if_pos (.inr (.inr ha))
  refine (if_neg c1).trans ((if_neg c2).trans ((if_neg (known_passes hk)).trans ?_))
  refine (if_neg (by rintro (h | h); exacts [h2 h, h3 h])).trans ?_
  rw [show (k.arrival inp pk).2 = k.arrived inp from rfl, hmine, if_pos hadd]
  rfl
end
/-- Where a unicast goes that is for another package: past the overrides, by the tables (R152, R153, R364). -/
def Pkg.forward (now inp : Nat) (pk : Packet) (e : Queued) (img : List Byte) (k : Pkg) : Pkg :=
  match k.override pk with
  | some q => k.offer now q e.onward
  | none =>
    if img.isEmpty then (k.leave e).drop inp .epoch
    else if chScope img = 0 then (k.leave e).drop inp .noEndpoint
    else if addrRack (epPkg pk.dst) = k.rackNo then
      if k.foreignAbsent img pk then (k.leave e).answer now pk stUnitAbsent true []
      else
        match viaPort k.idx (addrIndex (epPkg pk.dst)) (if pk.cls = 1 then (pairEntry img k.idx (addrIndex (epPkg pk.dst))).2.1
          else (pairEntry img k.idx (addrIndex (epPkg pk.dst))).1) with
        | none => (k.leave e).drop inp .noEndpoint
        | some q =>
          if 24 ≤ inp ∧ (pk.cls = 0 ∨ pk.cls = 1) ∧ hops k.idx (addrIndex (epPkg pk.dst)) = 2 ∧ !pk.fallback ∧ !pk.misrouted then
            match k.misroute (addrIndex (epPkg pk.dst)) with
            | (some plane, k2) =>
              (k2.toPlane plane).2.offer now (k2.toPlane plane).1 { e with pk := withVc { pk with misrouted := true } }
            | (none, k2) => k2.toPort now img q e
          else k.toPort now img q e
    else
      let plane := planePrimary img (addrRack (epPkg pk.dst))
      if 3 < plane then (k.leave e).drop inp .noEndpoint
      else (k.toPlane plane).2.toPort now img (k.toPlane plane).1 e
theorem Pkg.arrive_through (hop : opcodeOk pk.opcode = true) (hres : pk.reserved = false) (hold : ¬ k.lifetimeUs < ageUs (k.time now) pk)
    (h2 : pk.cls ≠ 2) (h3 : pk.cls ≠ 3) (hk : (if pk.pkg then pkgAddrOk (epPkg pk.dst) else endpointOk pk.dst) = true)
    (ha : epPkg pk.dst ≠ k.addr) :
    k.arrive now inp pk = (k.arrived inp).forward now inp pk (k.atInput inp pk) ((k.arrived inp).tables pk.epoch) := by
  obtain ⟨c1, c2⟩ := Pkg.arrive_checked (inp := inp) hop hres hold
  have hadd : epPkg pk.dst ≠ (k.arrived inp).addr := fun h => ha (h.trans (k.arrived_alike inp).addr)
  have hmine : (if pk.cls = 2 ∨ pk.cls = 3 ∨ epPkg pk.dst = k.addr then (k.arrived inp).newerSgen (epPkg pk.src) pk.sgen else k.arrived inp) =
      k.arrived inp := if_neg (by rintro (h | h | h); exacts [h2 h, h3 h, ha h])
  refine (if_neg c1).trans ((if_neg c2).trans ((if_neg (known_passes hk)).trans ?_))
  refine (if_neg (by rintro (h | h); exacts [h2 h, h3 h])).trans ?_
  rw [show (k.arrival inp pk).2 = k.arrived inp from rfl, hmine, if_neg hadd]
  rfl
end Sys2Proof.Machine
end

section
/-! PROOF. Obligation O27: arrivals at a package's router, clause by clause (R148, R152–R154, R157, R196). -/
namespace Sys2Proof.Machine
open Sys2Proof

variable {s : State} {p : PkgId} {i j k x : Pkg} {now q n inp : Nat} {pk : Packet} {e : Queued} {img : List Byte}

/-! ### Where a unicast goes -/

theorem Pkg.forward_override (h : k.override pk = some q) (hd : (k.port q).state ≠ .peerDark) : k.forward now inp pk e img = k.queueAt q e.onward := by
  unfold Pkg.forward
  rw [h]
  exact if_neg hd
section
variable (ho : k.override pk = none)
include ho
theorem Pkg.forward_epoch (h : img = []) : k.forward now inp pk e img = (k.leave e).drop inp .epoch := by
  unfold Pkg.forward
  rw [ho]
  exact if_pos (by rw [h]; rfl)
variable (hi : img ≠ []) (hs : chScope img ≠ 0)
include hi hs
theorem Pkg.forward_absent (hr : addrRack (epPkg pk.dst) = k.rackNo) (ha : k.foreignAbsent img pk = true) :
    k.forward now inp pk e img = (k.leave e).answer now pk stUnitAbsent true [] := by
  unfold Pkg.forward
  rw [ho]
  dsimp only
  rw [if_neg (by simpa using hi), if_neg hs, if_pos hr, if_pos ha]
theorem Pkg.forward_link (hr : addrRack (epPkg pk.dst) = k.rackNo) (ha : k.foreignAbsent img pk = false) (h24 : inp < 24)
    (hv : viaPort k.idx (addrIndex (epPkg pk.dst)) (if pk.cls = 1 then (pairEntry img k.idx (addrIndex (epPkg pk.dst))).2.1
      else (pairEntry img k.idx (addrIndex (epPkg pk.dst))).1) = some q) : k.forward now inp pk e img = k.toPort now img q e := by
  unfold Pkg.forward
  rw [ho]
  dsimp only
  rw [if_neg (by simpa using hi), if_neg hs, if_pos hr, if_neg (by rw [ha]; decide), hv]
  exact if_neg fun h => Nat.not_le.2 h24 h.1
theorem Pkg.forward_nowhere (hr : addrRack (epPkg pk.dst) ≠ k.rackNo) (hp : 3 < planePrimary img (addrRack (epPkg pk.dst))) :
    k.forward now inp pk e img = (k.leave e).drop inp .noEndpoint := by
  unfold Pkg.forward
  rw [ho]
  dsimp only
  rw [if_neg (by simpa using hi), if_neg hs, if_neg hr, if_pos hp]
theorem Pkg.forward_plane (hr : addrRack (epPkg pk.dst) ≠ k.rackNo) (hp : planePrimary img (addrRack (epPkg pk.dst)) ≤ 3)
    (h2 : secondPort k.idx (planePrimary img (addrRack (epPkg pk.dst))) = none) :
    k.forward now inp pk e img = k.toPort now img (20 + planePrimary img (addrRack (epPkg pk.dst))) e := by
  have ht : k.toPlane (planePrimary img (addrRack (epPkg pk.dst))) = (20 + planePrimary img (addrRack (epPkg pk.dst)), k) := by
    unfold Pkg.toPlane
    rw [h2]
  unfold Pkg.forward
  rw [ho]
  dsimp only
  rw [if_neg (by simpa using hi), if_neg hs, if_neg hr, if_neg (Nat.not_lt.2 hp), ht]
end
theorem Pkg.toPort_open (hd : portDown (k.port q).state = false) (hp : (k.port q).state ≠ .peerDark) : k.toPort now img q e = k.queueAt q e.onward := by
  unfold Pkg.toPort
  dsimp only
  rw [if_neg (by rw [hd]; decide), if_neg fun h => hp h.1]
  exact if_neg hp
theorem Pkg.toPort_down (hd : portDown (k.port q).state = true) (hp : portPlane k.idx q = none) : k.toPort now img q e =
    match k.fallbackPort img e.pk with
    | (some q2, k1) => k1.offer now q2 e.falling
    | (none, k1) => k1.queueAt q e.onward := by
  unfold Pkg.toPort
  dsimp only
  rw [if_pos hd, hp] <;> rfl
theorem Pkg.toPlane_acc (plane : Nat) (k : Pkg) : ∃ a, (k.toPlane plane).2 = { k with fab := { k.fab with weightAcc := a } } := by
  unfold Pkg.toPlane
  cases secondPort k.idx plane with
  | none => exact ⟨k.fab.weightAcc, rfl⟩
  | some q2 => exact ⟨_, rfl⟩
/-- Choosing a fallback may count in the accumulator of a plane's spread, and does nothing else. -/
theorem Pkg.fallbackPort_acc (img : List Byte) (pk : Packet) (k : Pkg) : ∃ a, (k.fallbackPort img pk).2 = { k with fab := { k.fab with weightAcc := a } } := by
  have h0 : ∃ a, k = { k with fab := { k.fab with weightAcc := a } } := ⟨k.fab.weightAcc, rfl⟩
  unfold Pkg.fallbackPort
  dsimp only
  split
  · exact h0
  split
  · split
    · exact h0
    split
    · exact k.toPlane_acc _
    · exact h0
  · split
    · exact k.toPlane_acc _
    · exact h0

theorem Pkg.toPort_falls {q2 : Nat} (hd : portDown (k.port q).state = true) (hp : portPlane k.idx q = none)
    (hf : (k.fallbackPort img e.pk).1 = some q2) (h2 : (k.port q2).state ≠ .peerDark) :
    ∃ a, k.toPort now img q e = ({ k with fab := { k.fab with weightAcc := a } } : Pkg).queueAt q2 e.falling := by
  obtain ⟨a, ha⟩ := k.fallbackPort_acc img e.pk
  refine ⟨a, (Pkg.toPort_down hd hp).trans ?_⟩
  generalize k.fallbackPort img e.pk = r at hf ha ⊢
  obtain ⟨o, k1⟩ := r
  obtain rfl : o = some q2 := hf
  obtain rfl : k1 = _ := ha
  exact if_neg h2
theorem Pkg.toPort_stays (hd : portDown (k.port q).state = true) (hp : portPlane k.idx q = none) (hf : (k.fallbackPort img e.pk).1 = none) :
    ∃ a, k.toPort now img q e = ({ k with fab := { k.fab with weightAcc := a } } : Pkg).queueAt q e.onward := by
  obtain ⟨a, ha⟩ := k.fallbackPort_acc img e.pk
  refine ⟨a, (Pkg.toPort_down hd hp).trans ?_⟩
  generalize k.fallbackPort img e.pk = r at hf ha ⊢
  obtain ⟨o, k1⟩ := r
  obtain rfl : o = none := hf
  obtain rfl : k1 = _ := ha
  rfl

/-! ### The forms of the clauses -/

theorem dropField_width (f : Nat) (d : Drop) : (dropField f d).lo + (dropField f d).width ≤ 32 ∧ (dropField f d).width = 8 := by
  cases d <;> exact ⟨Nat.le_of_ble_eq_true rfl, rfl⟩
/-- A packet that is discarded at its input counts there, and frees its flits. -/
theorem Pkg.Alike.dropped (h : k.Alike x) (e : Queued) (d : Drop) : k.Routed ((x.leave e).drop e.inp d) ∧
    ((x.leave e).drop e.inp d).get (dropField (portTile e.inp) d) = min 255 (k.get (dropField (portTile e.inp) d) + 1) ∧
    (∃ l, ((x.leave e).drop e.inp d).out = k.out ++ l ∧ IdleAt e.inp l) ∧ ∀ q, (((x.leave e).drop e.inp d).port q).outQ = (k.port q).outQ := by
  have hl := x.leave_left e
  obtain ⟨l, hout, hidle⟩ := hl.out
  obtain ⟨h32, h8⟩ := dropField_width (portTile e.inp) d
  have hr : k.Routed ((x.leave e).drop e.inp d) := h.routed.trans (hl.routed.trans ⟨rfl, rfl, rfl, rfl, rfl⟩)
  refine ⟨hr, ?_, ⟨l, hout.trans (by rw [h.out]), hidle⟩, fun q => (hl.outQ q).trans (by rw [h.port])⟩
  refine (Pkg.get_count_same (x.leave e) _ 1 h32).trans ?_
  rw [h8, Pkg.get_of_regs (hl.regs.trans h.regs)]
  rfl
/-- A packet that is sent on as a message frees its flits. -/
theorem Pkg.Alike.sent (h : k.Alike x) (e : Queued) (m : Msg) : k.Routed ((x.leave e).emit m) ∧ ((x.leave e).emit m).regs = k.regs ∧
    ∃ l, ((x.leave e).emit m).out = k.out ++ l ++ [m] ∧ IdleAt e.inp l := by
  have hl := x.leave_left e
  obtain ⟨l, hout, hidle⟩ := hl.out
  have hr : k.Routed ((x.leave e).emit m) := h.routed.trans (hl.routed.trans ⟨rfl, rfl, rfl, rfl, rfl⟩)
  exact ⟨hr, hl.regs.trans h.regs, l, (congrArg (· ++ [m]) hout).trans (by rw [h.out]), hidle⟩
/-- A packet that joins a queue. -/
theorem Pkg.queueAt_spec (q : Nat) (e : Queued) (x : Pkg) : x.Routed (x.queueAt q e) ∧ (x.queueAt q e).out = x.out ∧ (x.queueAt q e).regs = x.regs ∧
    ((x.queueAt q e).port q).outQ = (x.port q).outQ ++ [e] :=
  ⟨⟨rfl, rfl, rfl, rfl, rfl⟩, rfl, rfl, by rw [Pkg.port_queueAt_same]⟩

theorem arrivals (s : State) (p : PkgId) (inp : Fin 512) (pk : Packet) :
    let k := s.pkg p
    let idle (inp : Nat) (l : List Msg) : Prop := ∀ m ∈ l, ∃ b : Block, m = .block inp b ∧ b.dataFlits = 0
    let img := k.tables pk.epoch
    let a := epPkg pk.dst
    let old := k.lifetimeUs < ageUs (k.time s.now) pk
    let ok : Prop := opcodeOk pk.opcode = true ∧ pk.reserved = false ∧ ¬ old
    let known := if pk.pkg then pkgAddrOk a else endpointOk pk.dst
    let uni : Prop := ok ∧ pk.cls ≠ 2 ∧ pk.cls ≠ 3 ∧ known = true
    let next (f : Pkg → Prop) : Prop := ∃ j : Pkg, exec (.packetArrive (.pkg p) inp pk) s = .next (s.setPkg p j) ∧ j.mem.segs = k.mem.segs ∧
      j.fab.tx = k.fab.tx ∧ j.fab.rx = k.fab.rx ∧ j.fab.inbound = k.fab.inbound ∧ j.ret = k.ret ∧ f j
    let discarded (c : Fld) : Prop := next fun j => j.get c = min 255 (k.get c + 1) ∧ (∃ l, j.out = k.out ++ l ∧ idle inp.val l) ∧
      ∀ q, (j.port q).outQ = (k.port q).outQ
    let gone (m : Msg) : Prop := next fun j => j.regs = k.regs ∧ ∃ l, j.out = k.out ++ l ++ [m] ∧ idle inp.val l
    let queued (q : Nat) (x : Packet) : Prop := next fun j => j.out = k.out ∧ j.regs = k.regs ∧
      (j.port q).outQ = (k.port q).outQ ++ [⟨withVc x, inp.val, bufKey (k.isPlane inp.val) pk, k.rt.arrivals⟩]
    let open_ (q : Nat) : Prop := portDown (k.port q).state = false ∧ (k.port q).state ≠ .peerDark
    ((opcodeOk pk.opcode = false ∨ pk.reserved = true) → discarded (F.FAB_DISCARD_B_BAD_HEADER (portTile inp.val))) ∧
    (opcodeOk pk.opcode = true → pk.reserved = false → old → discarded (F.FAB_DISCARD_A_LIFETIME (portTile inp.val))) ∧
    (ok → pk.cls ≠ 2 → pk.cls ≠ 3 → known = false → discarded (F.FAB_DISCARD_B_NO_ENDPOINT (portTile inp.val))) ∧
    (ok → (pk.cls = 2 ∨ pk.cls = 3) → next fun j => j.out = k.out ++ [.delivered inp pk] ∧ j.regs = k.regs) ∧
    (uni → a = k.addr → (pk.cls ≠ 0 ∨ k.storeFull = false) → gone (.delivered inp pk)) ∧
    (uni → a = k.addr → pk.cls = 0 → k.storeFull = true → next fun j => j.out = k.out ∧ j.regs = k.regs ∧
      j.fab.stalled = k.fab.stalled ++ [(inp.val, pk)]) ∧
    (∀ q, uni → a ≠ k.addr → k.override pk = some q → (k.port q).state ≠ .peerDark → queued q pk) ∧
    (uni → a ≠ k.addr → k.override pk = none → img = [] → discarded (F.FAB_DISCARD_A_EPOCH (portTile inp.val))) ∧
    (uni → a ≠ k.addr → k.override pk = none → img ≠ [] → chScope img ≠ 0 → addrRack a = k.rackNo →
      (k.foreignAbsent img pk = true → gone (.packet (k.response s.now pk stUnitAbsent true []))) ∧
      (k.foreignAbsent img pk = false → inp.val < 24 →
        let e := pairEntry img k.idx (addrIndex a)
        let via := viaPort k.idx (addrIndex a) (if pk.cls = 1 then e.2.1 else e.1)
        (∀ q, via = some q → open_ q → queued q pk) ∧
        (∀ q q2, via = some q → portDown (k.port q).state = true → portPlane k.idx q = none → (k.fallbackPort img pk).1 = some q2 →
          (k.port q2).state ≠ .peerDark → ∃ j : Pkg, exec (.packetArrive (.pkg p) inp pk) s = .next (s.setPkg p j) ∧ j.out = k.out ∧
            (j.port q2).outQ = (k.port q2).outQ ++
              [⟨withVc { pk with fallback := true }, inp.val, bufKey (k.isPlane inp.val) pk, k.rt.arrivals⟩]) ∧
        (∀ q, via = some q → portDown (k.port q).state = true → portPlane k.idx q = none → (k.fallbackPort img pk).1 = none →
          queued q pk))) ∧
    (uni → a ≠ k.addr → k.override pk = none → img ≠ [] → chScope img ≠ 0 → addrRack a ≠ k.rackNo →
      let plane := planePrimary img (addrRack a)
      (3 < plane → discarded (F.FAB_DISCARD_B_NO_ENDPOINT (portTile inp.val))) ∧
      (plane ≤ 3 → secondPort k.idx plane = none → open_ (20 + plane) → queued (20 + plane) pk)) := by
  intro k idle img a old ok known uni next discarded gone queued open_
  have hal : k.Alike (k.arrived inp.val) := k.arrived_alike inp.val
  have hnext {j : Pkg} {f : Pkg → Prop} (h : k.arrive s.now inp.val pk = j) (hr : k.Routed j) (hf : f j) : next f :=
    ⟨j, exec_packetArrive.trans (by rw [show (s.pkg p).arrive s.now inp.val pk = j from h]), hr.segs, hr.tx, hr.rx, hr.inbound, hr.ret, hf⟩
  have hdisc {d : Drop} (h : k.arrive s.now inp.val pk = ((k.arrived inp.val).leave (k.atInput inp.val pk)).drop inp.val d) :
      discarded (dropField (portTile inp.val) d) := by
    obtain ⟨h1, h2, h3, h4⟩ := hal.dropped (k.atInput inp.val pk) d
    exact hnext h h1 ⟨h2, h3, h4⟩
  have hgone {x : Pkg} {m : Msg} (hx : k.Alike x) (h : k.arrive s.now inp.val pk = (x.leave (k.atInput inp.val pk)).emit m) : gone m := by
    obtain ⟨h1, h2, h3⟩ := hx.sent (k.atInput inp.val pk) m
    exact hnext h h1 ⟨h2, h3⟩
  have hqueue {q : Nat} {x : Pkg} (hr : k.Routed x) (ho : x.out = k.out) (hg : x.regs = k.regs) (hp : (x.port q).outQ = (k.port q).outQ)
      (h : k.arrive s.now inp.val pk = x.queueAt q (k.atInput inp.val pk).onward) : queued q pk := by
    obtain ⟨h1, h2, h3, h4⟩ := x.queueAt_spec q (k.atInput inp.val pk).onward
    exact hnext h (hr.trans h1) ⟨h2.trans ho, h3.trans hg, h4.trans (by rw [hp]; rfl)⟩
  have hqueue' {q : Nat} (h : k.arrive s.now inp.val pk = (k.arrived inp.val).queueAt q (k.atInput inp.val pk).onward) : queued q pk :=
    hqueue hal.routed hal.out hal.regs (by rw [hal.port]) h
  have hown (h : uni) (ha : a = k.addr) := Pkg.arrive_own (now := s.now) (inp := inp.val) h.1.1 h.1.2.1 h.1.2.2 h.2.1 h.2.2.1 h.2.2.2 ha
  have hthrough (h : uni) (ha : a ≠ k.addr) := Pkg.arrive_through (now := s.now) (inp := inp.val) h.1.1 h.1.2.1 h.1.2.2 h.2.1 h.2.2.1 h.2.2.2 ha
  have himg : (k.arrived inp.val).tables pk.epoch = img := hal.tables _
  have hov {o : Option Nat} (h : k.override pk = o) : (k.arrived inp.val).override pk = o := (hal.override pk).trans h
  have hrack {h : Nat} : (h = (k.arrived inp.val).rackNo) = (h = k.rackNo) := by rw [hal.rackNo]
  have hst (q : Nat) : ((k.arrived inp.val).port q).state = (k.port q).state := by rw [hal.port]
  rw [himg] at hthrough
  refine ⟨fun h => hdisc (Pkg.arrive_header h), fun h1 h2 h3 => hdisc (Pkg.arrive_old h1 h2 h3),
    fun h h2 h3 hk => hdisc (Pkg.arrive_unknown h.1 h.2.1 h.2.2 h2 h3 hk), fun h hm => ?_, fun h ha hs => ?_, fun h ha h0 hs => ?_,
    fun q h ha ho hd => ?_, fun h ha ho hi => ?_, fun h ha ho hi hs hr => ⟨fun hab => ?_, fun hab h24 => ⟨fun q hv hop => ?_, fun q q2 hv hd hp hf hd2 => ?_,
      fun q hv hd hp hf => ?_⟩⟩, fun h ha ho hi hs hr => ⟨fun hp => ?_, fun hp h2 hop => ?_⟩⟩
  · have hx := hal.newerSgen (epPkg pk.src) pk.sgen
    exact hnext (Pkg.arrive_multi h.1 h.2.1 h.2.2 hm) (hx.routed.trans ⟨rfl, rfl, rfl, rfl, rfl⟩) ⟨congrArg (· ++ [_]) hx.out, hx.regs⟩
  · have hx := hal.newerSgen (epPkg pk.src) pk.sgen
    refine hgone hx ((hown h ha).trans (if_neg ?_))
    rintro ⟨h0, hf⟩
    rw [hx.storeFull] at hf
    rcases hs with hs | hs
    · exact hs h0
    · rw [hs] at hf
      cases hf
  · have hx := hal.newerSgen (epPkg pk.src) pk.sgen
    refine hnext ((hown h ha).trans (if_pos ⟨h0, hx.storeFull.trans hs⟩)) (hx.routed.trans ⟨rfl, rfl, rfl, rfl, rfl⟩) ⟨hx.out, hx.regs, ?_⟩
    exact congrArg (· ++ [_]) hx.stalled
  · exact hqueue' ((hthrough h ha).trans (Pkg.forward_override (hov ho) (by rw [hst]; exact hd)))
  · exact hdisc ((hthrough h ha).trans (Pkg.forward_epoch (hov ho) hi))
  · have hresp := hal.response s.now pk stUnitAbsent true []
    have hl := (k.arrived inp.val).leave_left (k.atInput inp.val pk)
    refine hgone hal ((hthrough h ha).trans ((Pkg.forward_absent (hov ho) hi hs (hrack ▸ hr) ((hal.foreignAbsent img pk).trans hab)).trans ?_))
    rw [← hresp, Pkg.answer, hl.rest]
    rfl
  · have hv' := hv
    rw [← hal.idx] at hv'
    refine hqueue' ((hthrough h ha).trans ((Pkg.forward_link (hov ho) hi hs (hrack ▸ hr) ((hal.foreignAbsent img pk).trans hab) h24 hv').trans ?_))
    exact Pkg.toPort_open ((congrArg portDown (hst q)).trans hop.1) (by rw [hst]; exact hop.2)
  · have hv' := hv
    rw [← hal.idx] at hv'
    obtain ⟨acc, hto⟩ := Pkg.toPort_falls (now := s.now) (e := k.atInput inp.val pk) ((congrArg portDown (hst q)).trans hd) (by rw [hal.idx]; exact hp)
      ((hal.fallbackPort img pk).trans hf) (by rw [hst]; exact hd2)
    have hj := (hthrough h ha).trans ((Pkg.forward_link (hov ho) hi hs (hrack ▸ hr) ((hal.foreignAbsent img pk).trans hab) h24 hv').trans hto)
    obtain ⟨-, h2, -, h4⟩ := Pkg.queueAt_spec q2 (k.atInput inp.val pk).falling
      ({ k.arrived inp.val with fab := { (k.arrived inp.val).fab with weightAcc := acc } } : Pkg)
    refine ⟨_, exec_packetArrive.trans (by rw [show (s.pkg p).arrive s.now inp.val pk = _ from hj]), h2.trans hal.out, h4.trans ?_⟩
    rw [show Pkg.port ({ k.arrived inp.val with fab := { (k.arrived inp.val).fab with weightAcc := acc } } : Pkg) q2 = k.port q2 from hal.port q2]
    rfl
  · have hv' := hv
    rw [← hal.idx] at hv'
    obtain ⟨acc, hto⟩ := Pkg.toPort_stays (now := s.now) (e := k.atInput inp.val pk) ((congrArg portDown (hst q)).trans hd) (by rw [hal.idx]; exact hp)
      ((hal.fallbackPort img pk).trans hf)
    exact hqueue (x := { k.arrived inp.val with fab := { (k.arrived inp.val).fab with weightAcc := acc } })
      (hal.routed.trans ⟨rfl, rfl, rfl, rfl, rfl⟩) hal.out hal.regs (congrArg PortSt.outQ (hal.port q))
      ((hthrough h ha).trans ((Pkg.forward_link (hov ho) hi hs (hrack ▸ hr) ((hal.foreignAbsent img pk).trans hab) h24 hv').trans hto))
  · exact hdisc ((hthrough h ha).trans (Pkg.forward_nowhere (hov ho) hi hs (by rw [hal.rackNo]; exact hr) hp))
  · refine hqueue' ((hthrough h ha).trans ((Pkg.forward_plane (hov ho) hi hs (by rw [hal.rackNo]; exact hr) hp (by rw [hal.idx]; exact h2)).trans ?_))
    exact Pkg.toPort_open ((congrArg portDown (hst _)).trans hop.1) (by rw [hst]; exact hop.2)
end Sys2Proof.Machine
end

section
/-! PROOF. Obligation O27: departures and the input scan of a package (R141, R142, R149, R150, R164). -/
namespace Sys2Proof.Machine
open Sys2Proof

variable {s : State} {p : PkgId} {i j k : Pkg} {now q n time : Nat} {pk : Packet} {e : Queued} {img : List Byte} {x : PortSt} {plane : Bool}
  {first : Queued → Bool}

/-! ### Departures of a port -/

theorem PortSt.blocks_spec (pk : Packet) : ∀ (n i : Nat) (x : PortSt), (x.blocks pk n i).2.length = n ∧
    (0 < n → (x.blocks pk n i).2.getLast?.map (·.packets) = some [pk])
  | 0, _, _ => ⟨rfl, fun h => absurd h (Nat.lt_irrefl 0)⟩
  | n + 1, i, x => by
    obtain ⟨h1, h2⟩ := PortSt.blocks_spec pk n (i + 1) { (x.word false).1 with txBseq := x.txBseq + 1 }
    rw [PortSt.blocks]
    dsimp only
    refine ⟨congrArg (· + 1) h1, fun _ => ?_⟩
    cases n with
    | zero => rfl
    | succ n =>
      have h2 := h2 (Nat.succ_pos n)
      generalize (PortSt.blocks pk (n + 1) (i + 1) { (x.word false).1 with txBseq := x.txBseq + 1 }).2 = l at h1 h2 ⊢
      cases l with
      | nil => cases h1
      | cons b l => rw [List.getLast?_cons_cons]; exact h2
theorem PortSt.depart_waits (h : x.pick plane img time first = none ∨ x.state ≠ .active) : x.depart now plane img time first = none := by
  unfold PortSt.depart
  cases hp : x.pick plane img time first with
  | none => rfl
  | some e =>
    rcases h with h | h
    · rw [hp] at h
      cases h
    · exact if_pos (.inl h)
/-- A port that has sent a packet in some blocks. -/
structure PortSt.Sent (plane : Bool) (e : Queued) (bs : List Block) (x y : PortSt) : Prop where
  length : bs.length = (flits e.pk + 63) / 64
  last : bs.getLast?.map (·.packets) = some [e.pk]
  outQ : y.outQ = x.outQ.erase e
  replay : y.replay = x.replay ++ bs
  txSent : sget 0 y.txSent (bufKey plane e.pk) = sget 0 x.txSent (bufKey plane e.pk) + flits e.pk
theorem PortSt.depart_sends (h : x.pick plane img time first = some e) (ha : x.state = .active)
    (hr : x.replay.length + (flits e.pk + 63) / 64 ≤ 4) : ∃ bs y, x.depart now plane img time first = some (e, bs, y) ∧ x.Sent plane e bs y := by
  obtain ⟨h1, h2⟩ := PortSt.blocks_spec e.pk ((flits e.pk + 63) / 64) 0 x
  have hn : 0 < (flits e.pk + 63) / 64 := by unfold flits; omega
  unfold PortSt.depart
  rw [h]
  dsimp only
  rw [if_neg (by rintro (h | h); exacts [h ha, Nat.not_lt.2 hr h])]
  exact ⟨_, _, rfl, h1, h2 hn, rfl, rfl, sget_sset_same ..⟩

/-! ### PACKET_DEPART at a package -/

theorem exec_packetDepart {q : Port} : exec (.packetDepart (p.link q)) s = onPkg p s fun k =>
    match (k.port q.val).depart s.now (k.isPlane q.val) k.chart.active (k.time s.now) k.rt.first with
    | none => k
    | some (e, bs, x) => ((k.setPort q.val x).emits (bs.map (Msg.block q.val))).leave e := rfl
theorem packetDepart_waits {q : Port} (h : ((s.pkg p).port q.val).depart s.now ((s.pkg p).isPlane q.val) (s.pkg p).chart.active ((s.pkg p).time s.now)
    (s.pkg p).rt.first = none) : exec (.packetDepart (p.link q)) s = .next (s.setPkg p (s.pkg p)) := by
  refine exec_packetDepart.trans (onPkg_next ?_)
  simp only [h]
theorem packetDepart_sends {q : Port} {bs : List Block} (h : ((s.pkg p).port q.val).depart s.now ((s.pkg p).isPlane q.val) (s.pkg p).chart.active
    ((s.pkg p).time s.now) (s.pkg p).rt.first = some (e, bs, x)) :
    exec (.packetDepart (p.link q)) s = .next (s.setPkg p ((((s.pkg p).setPort q.val x).emits (bs.map (Msg.block q.val))).leave e)) := by
  refine exec_packetDepart.trans (onPkg_next ?_)
  simp only [h]
theorem departs (s : State) (p : PkgId) (q : Port) (e : Queued) :
    let k := s.pkg p
    let idle (inp : Nat) (l : List Msg) : Prop := ∀ m ∈ l, ∃ b : Block, m = .block inp b ∧ b.dataFlits = 0
    (k.port q.val).pick (k.isPlane q.val) k.chart.active (k.time s.now) k.rt.first = some e →
      (k.port q.val).state = .active → (k.port q.val).replay.length + (flits e.pk + 63) / 64 ≤ 4 → ∃ (j : Pkg) (bs : List Block) (l : List Msg),
      exec (.packetDepart (p.link q)) s = .next (s.setPkg p j) ∧ bs.length = (flits e.pk + 63) / 64 ∧
        bs.getLast?.map (·.packets) = some [e.pk] ∧ (j.port q.val).outQ = (k.port q.val).outQ.erase e ∧
        (j.port q.val).replay = (k.port q.val).replay ++ bs ∧
        sget 0 (j.port q.val).txSent (bufKey (k.isPlane q.val) e.pk) = sget 0 (k.port q.val).txSent (bufKey (k.isPlane q.val) e.pk) + flits e.pk ∧
        j.out = k.out ++ bs.map (Msg.block q.val) ++ l ∧ idle e.inp l ∧ j.regs = k.regs := by
  intro k idle hp ha hr
  obtain ⟨bs, y, hd, hs⟩ := PortSt.depart_sends (now := s.now) hp ha hr
  have hl := ((k.setPort q.val y).emits (bs.map (Msg.block q.val))).leave_left e
  have hw := (Pkg.Wired.leave e ((k.setPort q.val y).emits (bs.map (Msg.block q.val)))).link q.val
  obtain ⟨l, hout, hidle⟩ := hl.out
  have hy : ((k.setPort q.val y).emits (bs.map (Msg.block q.val))).port q.val = y := k.port_setPort_same q.val y
  rw [hy] at hw
  refine ⟨_, bs, l, packetDepart_sends hd, hs.length, hs.last, ?_, ?_, ?_, hout, hidle, hl.regs⟩
  · rw [hl.outQ, hy, hs.outQ]
  · exact (congrArg PortSt.replay hw :).trans hs.replay
  · exact (congrArg (fun z : PortSt => sget 0 z.txSent (bufKey (k.isPlane q.val) e.pk)) hw :).trans hs.txSent

/-! ### The input scan -/

/-- Blocks without data, of any input. -/
def AllIdle (l : List Msg) : Prop := ∀ m ∈ l, ∃ (q : Nat) (b : Block), m = .block q b ∧ b.dataFlits = 0
/-- Packets leave a package discarded: queues, counters and blocks without data. -/
structure Pkg.Purged (j k : Pkg) : Prop where
  rest : k = { j with regs := k.regs, rt := k.rt, out := k.out }
  out : ∃ l, k.out = j.out ++ l ∧ AllIdle l
  outQ : ∀ q, (k.port q).outQ = (j.port q).outQ
theorem Pkg.Purged.refl (k : Pkg) : k.Purged k := ⟨rfl, ⟨[], (List.append_nil _).symm, fun _ h => absurd h List.not_mem_nil⟩, fun _ => rfl⟩
theorem Pkg.Purged.trans (h : i.Purged j) (h' : j.Purged k) : i.Purged k := by
  obtain ⟨l, hl, hi⟩ := h.out
  obtain ⟨l', hl', hi'⟩ := h'.out
  refine ⟨h'.rest.trans (by rw [h.rest]), ⟨l ++ l', by rw [hl', hl, List.append_assoc], fun m hm => ?_⟩, fun q => (h'.outQ q).trans (h.outQ q)⟩
  exact (List.mem_append.1 hm).elim (hi m) (hi' m)
theorem Pkg.Purged.foldl {β : Type} {f : Pkg → β → Pkg} (hf : ∀ (k : Pkg) b, k.Purged (f k b)) : ∀ (l : List β) (k : Pkg), k.Purged (l.foldl f k)
  | [], k => .refl k
  | b :: l, k => (hf k b).trans (Pkg.Purged.foldl hf l _)
theorem Pkg.Left.purged (h : j.Left q k) : j.Purged k := by
  obtain ⟨l, hl, hi⟩ := h.out
  exact ⟨by rw [h.rest], ⟨l, hl, fun m hm => ⟨q, hi m hm⟩⟩, h.outQ⟩
theorem Pkg.drop_purged (inp : Nat) (d : Drop) (k : Pkg) : k.Purged (k.drop inp d) :=
  ⟨rfl, ⟨[], (List.append_nil _).symm, fun _ h => absurd h List.not_mem_nil⟩, fun _ => rfl⟩
theorem Pkg.rest_trans (h : j = { i with regs := j.regs, rt := j.rt, out := j.out }) (h' : k = { j with regs := k.regs, rt := k.rt, out := k.out }) :
    k = { i with regs := k.regs, rt := k.rt, out := k.out } := h'.trans (by rw [h])
/-- The scan of one queue. -/
structure Pkg.Scanned (bad : Packet → Bool) (qs : List Nat) (j k : Pkg) : Prop where
  rest : k = { j with regs := k.regs, rt := k.rt, out := k.out }
  out : ∃ l, k.out = j.out ++ l ∧ AllIdle l
  outQ : ∀ q, (k.port q).outQ = if q ∈ qs then (j.port q).outQ.filter (fun e => !bad e.pk) else (j.port q).outQ
theorem Pkg.purge_scanned (d : Drop) (bad : Packet → Bool) (q : Nat) (k : Pkg) : k.Scanned bad [q] (k.purge d bad q) := by
  have hf := Pkg.Purged.foldl (f := fun k e => (k.leave e).drop q d) (fun k e => (k.leave_left e).purged.trans (Pkg.drop_purged ..))
    ((k.port q).outQ.filter (fun e => bad e.pk)) (k.setPort q { k.port q with outQ := (k.port q).outQ.filter (fun e => !bad e.pk) })
  have he : k.purge d bad q = ((k.port q).outQ.filter (fun e => bad e.pk)).foldl (fun k e => (k.leave e).drop q d)
    (k.setPort q { k.port q with outQ := (k.port q).outQ.filter (fun e => !bad e.pk) }) := rfl
  rw [← he] at hf
  refine ⟨hf.rest, hf.out, fun o => (hf.outQ o).trans ?_⟩
  by_cases h : o = q
  · subst h
    rw [Pkg.port_setPort_same, if_pos (List.mem_singleton.2 rfl)]
  · rw [Pkg.port_setPort_ne h, if_neg (by simpa using h)]
theorem Pkg.purges_scanned (d : Drop) (bad : Packet → Bool) : ∀ (qs : List Nat) (k : Pkg), qs.Nodup → k.Scanned bad qs (qs.foldl (fun k q => k.purge d bad q) k)
  | [], k, _ => ⟨rfl, ⟨[], (List.append_nil _).symm, fun _ h => absurd h List.not_mem_nil⟩, fun _ => rfl⟩
  | q :: qs, k, hn => by
    obtain ⟨hq, hn⟩ := List.nodup_cons.1 hn
    have h1 := Pkg.purge_scanned d bad q k
    have h2 := Pkg.purges_scanned d bad qs (k.purge d bad q) hn
    obtain ⟨l, hl, hi⟩ := h1.out
    obtain ⟨l', hl', hi'⟩ := h2.out
    refine ⟨Pkg.rest_trans h1.rest h2.rest, ⟨l ++ l', by rw [List.foldl_cons, hl', hl, List.append_assoc], fun m hm => ?_⟩, fun o => ?_⟩
    · exact (List.mem_append.1 hm).elim (hi m) (hi' m)
    · rw [List.foldl_cons, h2.outQ o, h1.outQ o]
      by_cases ho : o = q
      · subst ho
        simp [hq]
      · simp [ho]
theorem Pkg.purgeInputs_spec (d : Drop) (bad : Packet → Bool) (k : Pkg) : (k.purgeInputs d bad).mem = k.mem ∧
    (k.purgeInputs d bad).fab = { k.fab with stalled := k.fab.stalled.filter (fun e => !bad e.2) } ∧
    (k.purgeInputs d bad).tally.waiting = k.tally.waiting.filter (fun e => !(e.1 < 100 && bad e.2)) ∧
    (∀ q, ((k.purgeInputs d bad).port q).outQ = (k.port q).outQ) ∧ ∃ l, (k.purgeInputs d bad).out = k.out ++ l ∧ AllIdle l := by
  have hf := Pkg.Purged.foldl (f := fun k (e : Nat × Packet) => (k.freeInput e.1 (bufKey (k.isPlane e.1) e.2) (flits e.2)).drop e.1 d)
    (fun k e => (k.freeInput_left e.1 (bufKey (k.isPlane e.1) e.2) (flits e.2)).purged.trans (Pkg.drop_purged ..))
    ((k.tally.waiting.filter fun e => e.1 < 100 && bad e.2) ++ k.fab.stalled.filter fun e => bad e.2)
    { k with tally := { k.tally with waiting := k.tally.waiting.filter fun e => !(e.1 < 100 && bad e.2) },
             fab := { k.fab with stalled := k.fab.stalled.filter fun e => !bad e.2 } }
  unfold Pkg.purgeInputs
  dsimp only
  generalize List.foldl _ _ _ = r at hf ⊢
  exact ⟨by rw [hf.rest], by rw [hf.rest], by rw [hf.rest], hf.outQ, hf.out⟩
theorem exec_inputScan : exec (.inputScan (.pkg p)) s = onPkg p s fun k =>
    k.purgeAll .lifetime (fun pk => decide (k.lifetimeUs < ageUs (k.time s.now) pk)) := rfl
theorem inputScans (s : State) (p : PkgId) :
    let k := s.pkg p
    let bad (pk : Packet) : Bool := decide (k.lifetimeUs < ageUs (k.time s.now) pk)
    ∃ j : Pkg, exec (.inputScan (.pkg p)) s = .next (s.setPkg p j) ∧ j.mem = k.mem ∧ j.fab.inbound = k.fab.inbound ∧ j.fab.tx = k.fab.tx ∧
      j.fab.rx = k.fab.rx ∧ j.fab.stalled = k.fab.stalled.filter (fun e => !bad e.2) ∧
      j.tally.waiting = k.tally.waiting.filter (fun e => !(e.1 < 100 && bad e.2)) ∧
      (∀ q : Port, (j.port q).outQ = (k.port q).outQ.filter (fun e => !bad e.pk)) ∧
      ∃ l, j.out = k.out ++ l ∧ ∀ m ∈ l, ∃ (q : Nat) (b : Block), m = .block q b ∧ b.dataFlits = 0 := by
  intro k bad
  have h1 := Pkg.purges_scanned .lifetime bad (List.range 24) k List.nodup_range
  have he : k.purgeAll .lifetime bad = ((List.range 24).foldl (fun k q => k.purge .lifetime bad q) k).purgeInputs .lifetime bad := rfl
  generalize (List.range 24).foldl (fun k q => k.purge .lifetime bad q) k = k1 at h1 he
  obtain ⟨h2, h3, h4, h5, l', hl', hi'⟩ := k1.purgeInputs_spec .lifetime bad
  obtain ⟨l, hl, hi⟩ := h1.out
  have hfab : k1.fab = k.fab := by rw [h1.rest]
  have htally : k1.tally = k.tally := by rw [h1.rest]
  rw [hfab] at h3
  refine ⟨_, exec_inputScan.trans (onPkg_next he), h2.trans (by rw [h1.rest]), by rw [h3], by rw [h3], by rw [h3], by rw [h3], by rw [h4, htally], fun q => ?_,
    l ++ l', by rw [hl', hl, List.append_assoc], fun m hm => (List.mem_append.1 hm).elim (hi m) (hi' m)⟩
  rw [h5, h1.outQ, if_pos (List.mem_range.2 q.isLt)]
end Sys2Proof.Machine
end

section
/-! PROOF. Obligation O27: Meridian routers (R35, R138, R148, R153, R154, R164, R198). -/
namespace Sys2Proof.Machine
open Sys2Proof

variable {s : State} {a b c r : RouterSt} {x : MerCtx} {now q inp n time : Nat} {pk pk0 : Packet} {e : Queued} {d : Drop}

/-! ### Leaving -/

/-- An input of a router frees its flits: it may say so in blocks without data; no queue changes. -/
structure RouterSt.Left (inp : Nat) (a b : RouterSt) : Prop where
  rest : b = { a with ports := b.ports, out := b.out }
  out : ∃ l, b.out = a.out ++ l ∧ IdleAt inp l
  outQ : ∀ q, (b.port q).outQ = (a.port q).outQ
theorem RouterSt.Left.refl (inp : Nat) (r : RouterSt) : r.Left inp r := ⟨rfl, ⟨[], (List.append_nil _).symm, .nil inp⟩, fun _ => rfl⟩
theorem RouterSt.leave_left (e : Queued) (r : RouterSt) : r.Left e.inp (r.leave e) := by
  unfold RouterSt.leave
  split
  · exact .refl e.inp r
  · refine ⟨rfl, ⟨_, rfl, PortSt.freed_idle e.inp e.inKey (flits e.pk) (r.port e.inp)⟩, fun q => ?_⟩
    change ((r.setPort e.inp ((r.port e.inp).freed e.inp e.inKey (flits e.pk)).1).port q).outQ = _
    by_cases h : q = e.inp
    · subst h
      rw [RouterSt.port_setPort_same]
      exact PortSt.outQ_freed ..
    · rw [RouterSt.port_setPort_ne h]

/-! ### Arrivals -/

/-- The packet that arrives from another rack takes the bit of the map in force (R138). -/
def RouterSt.restamped (x : MerCtx) (inp : Nat) (pk0 : Packet) (r : RouterSt) : Packet :=
  if 144 ≤ inp then { pk0 with epoch := decide (chEpoch (if x.entered && !r.newMap.isEmpty then r.newMap else r.oldMap) % 2 = 1) } else pk0
/-- The packet at its input. -/
def RouterSt.atInput (x : MerCtx) (inp : Nat) (pk0 : Packet) (r : RouterSt) : Queued := ⟨r.restamped x inp pk0, inp, bufKey true pk0, r.arrivals⟩
/-- The packet passes the checks of its header and of its age. -/
def Sound (x : MerCtx) (pk : Packet) : Prop := opcodeOk pk.opcode = true ∧ pk.reserved = false ∧ ¬ merLifetimeUs < ageUs x.time pk
/-- The packet is a report to the map agent. -/
abbrev Report (x : MerCtx) (pk : Packet) : Prop := pk.cls = 4 ∧ pk.pkg = true ∧ epPkg pk.dst = merAddr x.rack x.plane
/-- The packet's endpoint exists. -/
def known (pk : Packet) : Bool := if pk.pkg ∨ pk.cls = 2 ∨ pk.cls = 3 then pkgAddrOk (merTarget pk) else endpointOk pk.dst

section
variable (x inp pk0 r)
theorem RouterSt.merArrive_eq : r.merArrive x inp pk0 =
    if !opcodeOk (r.restamped x inp pk0).opcode || (r.restamped x inp pk0).reserved then (r.count.leave (r.atInput x inp pk0)).merDrop .header
    else if merLifetimeUs < ageUs x.time (r.restamped x inp pk0) then (r.count.leave (r.atInput x inp pk0)).merDrop .lifetime
    else if Report x (r.restamped x inp pk0) then
      r.count.merSink (r.atInput x inp pk0)
    else if (if (r.restamped x inp pk0).pkg ∨ (r.restamped x inp pk0).cls = 2 ∨ (r.restamped x inp pk0).cls = 3 then
        !pkgAddrOk (merTarget (r.restamped x inp pk0)) else !endpointOk (r.restamped x inp pk0).dst) = true then
      (r.count.leave (r.atInput x inp pk0)).merDrop .noEndpoint
    else match r.count.merOverride x.rack (r.restamped x inp pk0) with
    | some q => r.count.merOffer x q (r.atInput x inp pk0).onward
    | none => r.count.merRoute x (r.atInput x inp pk0) := rfl
end
theorem RouterSt.merArrive_header (h : opcodeOk (r.restamped x inp pk0).opcode = false ∨ (r.restamped x inp pk0).reserved = true) :
    r.merArrive x inp pk0 = (r.count.leave (r.atInput x inp pk0)).merDrop .header := by
  rw [RouterSt.merArrive_eq]
  exact if_pos (by rcases h with h | h <;> simp [h])
theorem RouterSt.merArrive_old (h1 : opcodeOk (r.restamped x inp pk0).opcode = true) (h2 : (r.restamped x inp pk0).reserved = false)
    (h3 : merLifetimeUs < ageUs x.time (r.restamped x inp pk0)) :
    r.merArrive x inp pk0 = (r.count.leave (r.atInput x inp pk0)).merDrop .lifetime := by
  rw [RouterSt.merArrive_eq, if_neg (by simp [h1, h2])]
  exact if_pos h3
theorem RouterSt.merArrive_report (h : Sound x (r.restamped x inp pk0)) (hr : Report x (r.restamped x inp pk0)) :
    r.merArrive x inp pk0 = r.count.merSink (r.atInput x inp pk0) := by
  obtain ⟨h1, h2, h3⟩ := h
  rw [RouterSt.merArrive_eq, if_neg (by simp [h1, h2]), if_neg h3]
  exact if_pos hr
theorem not_known : ((if pk.pkg ∨ pk.cls = 2 ∨ pk.cls = 3 then !pkgAddrOk (merTarget pk) else !endpointOk pk.dst) = true) = (known pk = false) := by
  unfold known
  split <;> simp
theorem RouterSt.merArrive_unknown (h : Sound x (r.restamped x inp pk0)) (hr : ¬ Report x (r.restamped x inp pk0))
    (hk : known (r.restamped x inp pk0) = false) : r.merArrive x inp pk0 = (r.count.leave (r.atInput x inp pk0)).merDrop .noEndpoint := by
  obtain ⟨h1, h2, h3⟩ := h
  rw [RouterSt.merArrive_eq, if_neg (by simp [h1, h2]), if_neg h3, if_neg hr]
  exact if_pos (not_known.mpr hk)
theorem RouterSt.merArrive_goes (h : Sound x (r.restamped x inp pk0)) (hr : ¬ Report x (r.restamped x inp pk0))
    (hk : known (r.restamped x inp pk0) = true) : r.merArrive x inp pk0 =
      match r.count.merOverride x.rack (r.restamped x inp pk0) with
      | some q => r.count.merOffer x q (r.atInput x inp pk0).onward
      | none => r.count.merRoute x (r.atInput x inp pk0) := by
  obtain ⟨h1, h2, h3⟩ := h
  rw [RouterSt.merArrive_eq, if_neg (by simp [h1, h2]), if_neg h3, if_neg hr, if_neg (by rw [not_known, hk]; exact Bool.noConfusion)]
theorem RouterSt.merRoute_down (ha : addrRack (merTarget e.pk) = x.rack)
    (hd : (r.spreadOver (addrIndex (merTarget e.pk)) (merDown x.plane (addrIndex (merTarget e.pk)))).1 = some q) :
    r.merRoute x e = (r.spreadOver (addrIndex (merTarget e.pk)) (merDown x.plane (addrIndex (merTarget e.pk)))).2.merOffer x q e.onward := by
  unfold RouterSt.merRoute
  dsimp only
  rw [if_pos ha]
  generalize r.spreadOver _ _ = z at hd
  obtain ⟨o, r1⟩ := z
  cases hd
  rfl
theorem RouterSt.merRoute_across {links : List Nat} (hl : merBundle (r.mapFor x.time e.pk.epoch) x.fleet x.rack x.plane (addrRack (merTarget e.pk)) = links)
    (ha : addrRack (merTarget e.pk) ≠ x.rack) (hd : (r.spreadOver (200 + addrRack (merTarget e.pk)) links).1 = some q) :
    r.merRoute x e = (r.spreadOver (200 + addrRack (merTarget e.pk)) links).2.merOffer x q e.onward := by
  unfold RouterSt.merRoute
  dsimp only
  rw [if_neg ha, hl]
  generalize r.spreadOver _ _ = z at hd
  obtain ⟨o, r1⟩ := z
  cases hd
  rfl
theorem RouterSt.merRoute_nowhere (hl : merBundle (r.mapFor x.time e.pk.epoch) x.fleet x.rack x.plane (addrRack (merTarget e.pk)) = [])
    (ha : addrRack (merTarget e.pk) ≠ x.rack) :
    r.merRoute x e = ((r.spreadOver (200 + addrRack (merTarget e.pk)) []).2.leave e).merDrop .noEndpoint := by
  unfold RouterSt.merRoute
  dsimp only
  rw [if_neg ha, hl]
  rfl
/-- Spreading chooses a port of the list. -/
theorem RouterSt.spreadOver_mem {key : Nat} {qs : List Nat} (h : (r.spreadOver key qs).1 = some q) : q ∈ qs := by
  unfold RouterSt.spreadOver at h
  dsimp only at h
  have h := List.mem_of_getElem? h
  split at h <;> exact (List.mem_filter.1 h).1
theorem RouterSt.merOffer_push (h : (r.port q).state ≠ .peerDark) : r.merOffer x q e = r.push q e := if_pos h
theorem RouterSt.merOffer_dark (h : (r.port q).state = .peerDark) (ha : addrRack (merTarget e.pk) = x.rack)
    (hm : q ∈ merDown x.plane (addrIndex (merTarget e.pk))) : r.merOffer x q e = r.merStandIn x.time e := by
  unfold RouterSt.merOffer
  rw [if_neg (not_not.2 h)]
  exact if_pos ⟨ha, List.contains_iff_mem.2 hm⟩

/-- A router at which a packet has arrived differs in counts alone. -/
structure RouterSt.Alike (a b : RouterSt) : Prop where
  rest : b = { a with arrivals := b.arrivals, spread := b.spread }
theorem RouterSt.count_alike (r : RouterSt) : r.Alike r.count := ⟨rfl⟩
theorem RouterSt.Alike.spread {key : Nat} {qs : List Nat} (h : a.Alike b) : a.Alike (b.spreadOver key qs).2 :=
  ⟨by rw [RouterSt.spreadOver, h.rest]⟩
/-- What no packet's passing changes. -/
structure RouterSt.Maps (a b : RouterSt) : Prop where
  oldMap : b.oldMap = a.oldMap
  newMap : b.newMap = a.newMap
  ovr : b.ovr = a.ovr
theorem RouterSt.Maps.trans (h : a.Maps b) (h' : b.Maps c) : a.Maps c :=
  ⟨h'.oldMap.trans h.oldMap, h'.newMap.trans h.newMap, h'.ovr.trans h.ovr⟩

section
variable (h : a.Alike b)
include h
theorem RouterSt.Alike.maps : a.Maps b := ⟨by rw [h.rest], by rw [h.rest], by rw [h.rest]⟩
theorem RouterSt.Alike.ports (q : Nat) : b.port q = a.port q := by rw [h.rest]; rfl
theorem RouterSt.Alike.dropped (e : Queued) (key : Nat) : a.Maps ((b.leave e).merCount key) ∧
    sget 0 ((b.leave e).merCount key).discards key = min 255 (sget 0 a.discards key + 1) ∧ ((b.leave e).merCount key).sink = a.sink ∧
    (∃ l, ((b.leave e).merCount key).out = a.out ++ l ∧ IdleAt e.inp l) ∧ ∀ q, (((b.leave e).merCount key).port q).outQ = (a.port q).outQ := by
  have hl := b.leave_left e
  have ho := hl.outQ
  obtain ⟨l, hout, hidle⟩ := hl.out
  generalize b.leave e = z at hl ho hout
  have hr := hl.rest
  refine ⟨h.maps.trans ⟨by rw [hr]; rfl, by rw [hr]; rfl, by rw [hr]; rfl⟩, ?_, ?_, ⟨l, hout.trans (by rw [h.rest]), hidle⟩, fun q => ?_⟩
  · exact (sget_sset_same ..).trans (by rw [hr, h.rest]; rfl)
  · exact (show z.sink = a.sink by rw [hr, h.rest])
  · exact (ho q).trans (by rw [h.ports])
theorem RouterSt.Alike.pushed (q : Nat) (e : Queued) : a.Maps (b.push q e) ∧ (b.push q e).out = a.out ∧ (b.push q e).sink = a.sink ∧
    (b.push q e).discards = a.discards ∧ ((b.push q e).port q).outQ = (a.port q).outQ ++ [e] :=
  ⟨⟨h.maps.oldMap, h.maps.newMap, h.maps.ovr⟩, by rw [h.rest]; rfl, by rw [h.rest]; rfl, by rw [h.rest]; rfl, by rw [RouterSt.push, RouterSt.port_setPort_same, h.ports]⟩
theorem RouterSt.Alike.sunk_space (e : Queued) (hs : a.sink.length < 1024) : a.Maps (b.merSink e) ∧ (b.merSink e).sink = a.sink ++ [e.pk] ∧
    (b.merSink e).discards = a.discards := by
  have hl := (b.leave_left e).rest
  have hsink : (b.leave e).sink = a.sink := by rw [hl, h.rest]
  unfold RouterSt.merSink
  dsimp only
  rw [if_pos (by rw [hsink]; exact hs)]
  refine ⟨h.maps.trans ⟨?_, ?_, ?_⟩, congrArg (· ++ [e.pk]) hsink, ?_⟩ <;> rw [hl]
  rw [h.rest]
theorem RouterSt.Alike.sunk_full (e : Queued) (hs : 1024 ≤ a.sink.length) : b.merSink e = (b.leave e).merCount merSinkDrops := by
  have hsink : (b.leave e).sink = a.sink := by rw [(b.leave_left e).rest, h.rest]
  exact if_neg (by rw [hsink]; exact Nat.not_lt.2 hs)
theorem RouterSt.Alike.answered (time : Nat) (e : Queued) (hx : expectsResponse e.pk.opcode = true) : a.Maps (b.merStandIn time e) ∧
    ∃ (l : List Msg) (w : Packet), (b.merStandIn time e).out = a.out ++ l ++ [.packet w] ∧ IdleAt e.inp l ∧ w.opcode = opResponse ∧
      w.status = stUnitReset ∧ w.poison = true ∧ w.dst = e.pk.src ∧ w.seq = e.pk.seq ∧ w.tag = e.pk.tag := by
  have hl := b.leave_left e
  obtain ⟨l, hout, hidle⟩ := hl.out
  unfold RouterSt.merStandIn
  dsimp only
  rw [if_pos hx]
  generalize b.leave e = z at hl hout
  have hr := hl.rest
  have hb : b.out = a.out := by rw [h.rest]
  exact ⟨h.maps.trans ⟨(congrArg RouterSt.oldMap hr :), (congrArg RouterSt.newMap hr :), (congrArg RouterSt.ovr hr :)⟩, l, _,
    congrArg (· ++ [_]) (hout.trans (congrArg (· ++ l) hb)), hidle, rfl, rfl, rfl, rfl, rfl, rfl⟩
end

theorem exec_packetArrive_meridian {rk : Fin 32} {pl : Fin 4} {inp : Fin 512} : exec (.packetArrive (.meridian rk pl) inp pk) s =
    .next (s.setRouter (.meridian rk pl) ((s.router (.meridian rk pl)).merArrive (s.merCtx rk pl) (inp.val % 288) pk)) := rfl
theorem merArrivals (s : State) (rk : Fin 32) (pl : Fin 4) (inp : Fin 512) (pk0 : Packet) :
    let id : RouterId := .meridian rk pl
    let m := s.router id
    let c := s.merCtx rk pl
    let idle (inp : Nat) (l : List Msg) : Prop := ∀ x ∈ l, ∃ b : Block, x = .block inp b ∧ b.dataFlits = 0
    let i := inp.val % 288
    let stamp := if c.entered && !m.newMap.isEmpty then m.newMap else m.oldMap
    let pk := if 144 ≤ i then { pk0 with epoch := decide (chEpoch stamp % 2 = 1) } else pk0
    let a := merTarget pk
    let old := merLifetimeUs < ageUs c.time pk
    let ok : Prop := opcodeOk pk.opcode = true ∧ pk.reserved = false ∧ ¬ old
    let report : Prop := pk.cls = 4 ∧ pk.pkg = true ∧ epPkg pk.dst = merAddr c.rack c.plane
    let known := if pk.pkg ∨ pk.cls = 2 ∨ pk.cls = 3 then pkgAddrOk a else endpointOk pk.dst
    let next (f : RouterSt → Prop) : Prop := ∃ x : RouterSt, exec (.packetArrive id inp pk0) s = .next (s.setRouter id x) ∧
      x.oldMap = m.oldMap ∧ x.newMap = m.newMap ∧ x.ovr = m.ovr ∧ f x
    let discarded (key : Nat) : Prop := next fun x => sget 0 x.discards key = min 255 (sget 0 m.discards key + 1) ∧ x.sink = m.sink ∧
      (∃ l, x.out = m.out ++ l ∧ idle i l) ∧ ∀ q, (x.port q).outQ = (m.port q).outQ
    let queued (q : Nat) : Prop := next fun x => x.out = m.out ∧ x.sink = m.sink ∧ x.discards = m.discards ∧
      (x.port q).outQ = (m.port q).outQ ++ [⟨withVc pk, i, bufKey true pk0, m.arrivals⟩]
    let down := (m.spreadOver (addrIndex a) (merDown c.plane (addrIndex a))).1
    let links := merBundle (m.mapFor c.time pk.epoch) c.fleet c.rack c.plane (addrRack a)
    ((opcodeOk pk.opcode = false ∨ pk.reserved = true) → discarded (dropIndex .header)) ∧
    (opcodeOk pk.opcode = true → pk.reserved = false → old → discarded (dropIndex .lifetime)) ∧
    (ok → report → m.sink.length < 1024 → next fun x => x.sink = m.sink ++ [pk] ∧ x.discards = m.discards) ∧
    (ok → report → 1024 ≤ m.sink.length → discarded merSinkDrops) ∧
    (ok → ¬ report → known = false → discarded (dropIndex .noEndpoint)) ∧
    (∀ q, ok → ¬ report → known = true → m.merOverride c.rack pk = some q → (m.port q).state ≠ .peerDark → queued q) ∧
    (ok → ¬ report → known = true → m.merOverride c.rack pk = none → addrRack a = c.rack →
      (∀ q, down = some q → (m.port q).state ≠ .peerDark → queued q) ∧
      (∀ q, down = some q → (m.port q).state = .peerDark → expectsResponse pk.opcode = true → next fun x => ∃ (l : List Msg) (w : Packet),
        x.out = m.out ++ l ++ [.packet w] ∧ idle i l ∧ w.opcode = opResponse ∧ w.status = stUnitReset ∧ w.poison = true ∧ w.dst = pk.src ∧
          w.seq = pk.seq ∧ w.tag = pk.tag)) ∧
    (ok → ¬ report → known = true → m.merOverride c.rack pk = none → addrRack a ≠ c.rack →
      (∀ q, (m.spreadOver (200 + addrRack a) links).1 = some q → (m.port q).state ≠ .peerDark → queued q) ∧
      (links = [] → discarded (dropIndex .noEndpoint))) := by
  intro id m c idle i stamp pk a old ok report known' next discarded queued down links
  have hal : m.Alike m.count := m.count_alike
  have hnext {y : RouterSt} {f : RouterSt → Prop} (h : m.merArrive c i pk0 = y) (hm : m.Maps y) (hf : f y) : next f :=
    ⟨y, exec_packetArrive_meridian.trans (by rw [show (s.router id).merArrive (s.merCtx rk pl) (inp.val % 288) pk0 = y from h]),
      hm.oldMap, hm.newMap, hm.ovr, hf⟩
  have hdisc {z : RouterSt} {key : Nat} (hz : m.Alike z) (h : m.merArrive c i pk0 = (z.leave (m.atInput c i pk0)).merCount key) : discarded key := by
    obtain ⟨h1, h2⟩ := hz.dropped (m.atInput c i pk0) key
    exact hnext h h1 h2
  have hqueue {z : RouterSt} {q : Nat} (hz : m.Alike z) (hd : (m.port q).state ≠ .peerDark)
      (h : m.merArrive c i pk0 = z.merOffer c q (m.atInput c i pk0).onward) : queued q := by
    obtain ⟨h1, h2⟩ := hz.pushed q (m.atInput c i pk0).onward
    exact hnext (h.trans (RouterSt.merOffer_push (by rw [hz.ports]; exact hd))) h1 h2
  have hgoes (h : ok) (hr : ¬ report) (hk : known' = true) := RouterSt.merArrive_goes (r := m) (x := c) (inp := i) (pk0 := pk0) h hr hk
  have hroute (h : ok) (hr : ¬ report) (hk : known' = true) (ho : m.merOverride c.rack pk = none) :
      m.merArrive c i pk0 = m.count.merRoute c (m.atInput c i pk0) := by
    rw [hgoes h hr hk, show m.count.merOverride c.rack (m.restamped c i pk0) = none from ho]
  refine ⟨fun h => hdisc hal (RouterSt.merArrive_header h), fun h1 h2 h3 => hdisc hal (RouterSt.merArrive_old h1 h2 h3), fun h hr hs => ?_,
    fun h hr hs => hdisc hal ((RouterSt.merArrive_report h hr).trans (hal.sunk_full _ hs)), fun h hr hk => hdisc hal (RouterSt.merArrive_unknown h hr hk),
    fun q h hr hk ho hd => ?_, fun h hr hk ho ha => ⟨fun q hq hd => ?_, fun q hq hd hx => ?_⟩, fun h hr hk ho ha => ⟨fun q hq hd => ?_, fun hl => ?_⟩⟩
  · obtain ⟨h1, h2⟩ := hal.sunk_space (m.atInput c i pk0) hs
    exact hnext (RouterSt.merArrive_report h hr) h1 h2
  · refine hqueue hal hd ?_
    rw [hgoes h hr hk, show m.count.merOverride c.rack (m.restamped c i pk0) = some q from ho]
  · exact hqueue hal.spread hd ((hroute h hr hk ho).trans (RouterSt.merRoute_down (e := m.atInput c i pk0) (r := m.count) ha hq))
  · obtain ⟨h1, h2⟩ := (hal.spread (key := addrIndex a) (qs := merDown c.plane (addrIndex a))).answered c.time (m.atInput c i pk0).onward hx
    refine hnext ((hroute h hr hk ho).trans ((RouterSt.merRoute_down (e := m.atInput c i pk0) (r := m.count) ha hq).trans
      (RouterSt.merOffer_dark ?_ ha (RouterSt.spreadOver_mem hq)))) h1 h2
    exact (congrArg PortSt.state (hal.spread.ports q)).trans hd
  · exact hqueue hal.spread hd ((hroute h hr hk ho).trans (RouterSt.merRoute_across (e := m.atInput c i pk0) (r := m.count) rfl ha hq))
  · exact hdisc hal.spread ((hroute h hr hk ho).trans (RouterSt.merRoute_nowhere (e := m.atInput c i pk0) (r := m.count) hl ha))

/-! ### Departures and the input scan -/

theorem exec_packetDepart_meridian {rk : Fin 32} {pl : Fin 4} {q : Fin 288} : exec (.packetDepart ⟨.meridian rk pl, q⟩) s =
    match ((s.router (.meridian rk pl)).port q.val).depart s.now true (s.router (.meridian rk pl)).oldMap (s.rackTime rk)
      (s.router (.meridian rk pl)).first with
    | none => .next s
    | some (e, bs, x) => .next (s.setRouter (.meridian rk pl) ({ (s.router (.meridian rk pl)).setPort q.val x with
        out := ((s.router (.meridian rk pl)).setPort q.val x).out ++ bs.map (Msg.block q.val) }.leave e)) := rfl
theorem merDepart_waits {rk : Fin 32} {pl : Fin 4} {q : Fin 288}
    (h : ((s.router (.meridian rk pl)).port q.val).pick true (s.router (.meridian rk pl)).oldMap (s.rackTime rk) (s.router (.meridian rk pl)).first = none ∨
      ((s.router (.meridian rk pl)).port q.val).state ≠ .active) : exec (.packetDepart ⟨.meridian rk pl, q⟩) s = .next s := by
  rw [exec_packetDepart_meridian, PortSt.depart_waits h]
theorem merDeparts (s : State) (rk : Fin 32) (pl : Fin 4) (q : Fin 288) (e : Queued) :
    let id : RouterId := .meridian rk pl
    let m := s.router id
    let idle (inp : Nat) (l : List Msg) : Prop := ∀ x ∈ l, ∃ b : Block, x = .block inp b ∧ b.dataFlits = 0
    (m.port q.val).pick true m.oldMap (s.rackTime rk) m.first = some e → (m.port q.val).state = .active →
      (m.port q.val).replay.length + (flits e.pk + 63) / 64 ≤ 4 → ∃ (x : RouterSt) (bs : List Block) (l : List Msg),
      exec (.packetDepart ⟨id, q⟩) s = .next (s.setRouter id x) ∧ bs.length = (flits e.pk + 63) / 64 ∧
        bs.getLast?.map (·.packets) = some [e.pk] ∧ (x.port q.val).outQ = (m.port q.val).outQ.erase e ∧
        (x.port q.val).replay = (m.port q.val).replay ++ bs ∧ x.out = m.out ++ bs.map (Msg.block q.val) ++ l ∧ idle e.inp l := by
  intro id m idle hp ha hr
  obtain ⟨bs, y, hd, hs⟩ := PortSt.depart_sends (now := s.now) hp ha hr
  have he : exec (.packetDepart ⟨.meridian rk pl, q⟩) s = .next (s.setRouter id ({ m.setPort q.val y with
      out := (m.setPort q.val y).out ++ bs.map (Msg.block q.val) }.leave e)) := by
    rw [exec_packetDepart_meridian, hd]
  have hl := RouterSt.leave_left e { m.setPort q.val y with out := (m.setPort q.val y).out ++ bs.map (Msg.block q.val) }
  have hw := (RouterSt.Wired.leave e { m.setPort q.val y with out := (m.setPort q.val y).out ++ bs.map (Msg.block q.val) }).link q.val
  have hy : RouterSt.port { m.setPort q.val y with out := (m.setPort q.val y).out ++ bs.map (Msg.block q.val) } q.val = y := m.port_setPort_same q.val y
  obtain ⟨l, hout, hidle⟩ := hl.out
  rw [hy] at hw
  refine ⟨_, bs, l, he, hs.length, hs.last, ?_, (congrArg PortSt.replay hw :).trans hs.replay, hout, hidle⟩
  rw [hl.outQ, hy, hs.outQ]

/-- The scan of some queues of a router. -/
structure RouterSt.Scanned (bad : Packet → Bool) (qs : List Nat) (a b : RouterSt) : Prop where
  maps : a.Maps b
  sink : b.sink = a.sink
  outQ : ∀ q, (b.port q).outQ = if q ∈ qs then (a.port q).outQ.filter (fun e => !bad e.pk) else (a.port q).outQ
/-- Discarding queued packets changes no queue. -/
theorem RouterSt.discards_spec (d : Drop) : ∀ (es : List Queued) (r : RouterSt),
    r.Maps (es.foldl (fun r e => (r.leave e).merDrop d) r) ∧ (es.foldl (fun r e => (r.leave e).merDrop d) r).sink = r.sink ∧
      ∀ q, ((es.foldl (fun r e => (r.leave e).merDrop d) r).port q).outQ = (r.port q).outQ
  | [], r => ⟨⟨rfl, rfl, rfl⟩, rfl, fun _ => rfl⟩
  | e :: es, r => by
    obtain ⟨h1, h2, -, h4⟩ := (show r.Alike r from ⟨rfl⟩).dropped e (dropIndex d) |>.imp id And.right
    obtain ⟨h5, h6, h7⟩ := RouterSt.discards_spec d es ((r.leave e).merDrop d)
    exact ⟨h1.trans h5, h6.trans h2, fun q => (h7 q).trans (h4 q)⟩
theorem RouterSt.merPurge_scanned (d : Drop) (bad : Packet → Bool) (q : Nat) (r : RouterSt) : r.Scanned bad [q] (r.merPurge d bad q) := by
  obtain ⟨h1, h2, h3⟩ := RouterSt.discards_spec d ((r.port q).outQ.filter (fun e => bad e.pk))
    (r.setPort q { r.port q with outQ := (r.port q).outQ.filter (fun e => !bad e.pk) })
  refine ⟨⟨h1.oldMap, h1.newMap, h1.ovr⟩, h2, fun o => (h3 o).trans ?_⟩
  by_cases h : o = q
  · subst h
    rw [RouterSt.port_setPort_same, if_pos (List.mem_singleton.2 rfl)]
  · rw [RouterSt.port_setPort_ne h, if_neg (by simpa using h)]
theorem RouterSt.merPurges_scanned (d : Drop) (bad : Packet → Bool) : ∀ (qs : List Nat) (r : RouterSt), qs.Nodup →
    r.Scanned bad qs (qs.foldl (fun m q => m.merPurge d bad q) r)
  | [], r, _ => ⟨⟨rfl, rfl, rfl⟩, rfl, fun _ => rfl⟩
  | q :: qs, r, hn => by
    obtain ⟨hq, hn⟩ := List.nodup_cons.1 hn
    have h1 := RouterSt.merPurge_scanned d bad q r
    have h2 := RouterSt.merPurges_scanned d bad qs (r.merPurge d bad q) hn
    refine ⟨h1.maps.trans h2.maps, h2.sink.trans h1.sink, fun o => ?_⟩
    rw [List.foldl_cons, h2.outQ o, h1.outQ o]
    by_cases ho : o = q
    · subst ho
      simp [hq]
    · simp [ho]
theorem exec_inputScan_meridian {rk : Fin 32} {pl : Fin 4} : exec (.inputScan (.meridian rk pl)) s =
    .next (s.setRouter (.meridian rk pl) ((List.range 288).foldl
      (fun m q => m.merPurge .lifetime (fun pk => decide (merLifetimeUs < ageUs (s.rackTime rk) pk)) q) (s.router (.meridian rk pl)))) := rfl
theorem merInputScans (s : State) (rk : Fin 32) (pl : Fin 4) :
    let id : RouterId := .meridian rk pl
    let m := s.router id
    ∃ x : RouterSt, exec (.inputScan id) s = .next (s.setRouter id x) ∧ x.oldMap = m.oldMap ∧ x.newMap = m.newMap ∧ x.sink = m.sink ∧
      ∀ q : Fin 288, (x.port q.val).outQ = (m.port q.val).outQ.filter (fun e => decide (ageUs (s.rackTime rk) e.pk ≤ merLifetimeUs)) := by
  intro id m
  have h := RouterSt.merPurges_scanned .lifetime (fun pk => decide (merLifetimeUs < ageUs (s.rackTime rk) pk)) (List.range 288) m List.nodup_range
  refine ⟨_, exec_inputScan_meridian, h.maps.oldMap, h.maps.newMap, h.sink, fun q => ?_⟩
  rw [h.outQ, if_pos (List.mem_range.2 q.isLt)]
  refine List.filter_congr fun e _ => ?_
  rw [← decide_not, decide_eq_decide]
  exact Nat.not_lt

/-- Settles O27: a packet's way through a router is the sequence of its checks, so that each clause is one branch of the arrival. -/
theorem routers : Obligations.Routers := by
  unfold Obligations.Routers
  refine ⟨fun s p => ⟨arrivals s p, fun q h => packetDepart_waits (PortSt.depart_waits h), departs s p, inputScans s p⟩,
    fun s r pl => ⟨merArrivals s r pl, fun q h => merDepart_waits h, merDeparts s r pl, merInputScans s r pl⟩⟩
end Sys2Proof.Machine
end

section
/-! PROOF. Obligation O50: numbered messages, fenced actions and the standby (R305–R309, R313, R354, R355). -/
namespace Sys2Proof.Machine
open Sys2Proof

variable {s u v : State} {t : TrayId} {pos : Fin 4} {p : PkgId} {a : AlmId} {j : Pkg} {off : Nat}

/-! ### Writes by the tray controller outside the blocks that a pause bars -/

theorem Pkg.busRefuses_open {d : RegDesc} (k : Pkg) (hd : findReg off = some d) (hl : off < 2 ^ 24) (ha : off % 4 = 0) (hb : pausedBlock off = false) :
    k.busRefuses off 4 = false := by
  have hm : off % 2 ^ 24 = off := Nat.mod_eq_of_lt hl
  unfold Pkg.busRefuses
  rw [hm, hd, hb]
  simp [ha]
  omega
/-- What the tray controller's write of a register that no pause bars leaves of the package, where it does not make the package dark. -/
theorem State.cwWrite_open {d : RegDesc} {m : Mem} {v : Nat} (hd : findReg off = some d) (hl : off < 2 ^ 24) (ha : off % 4 = 0)
    (hb : pausedBlock off = false)
    (hw : busWrite ⟨s.now, p, .cw, true, (s.wokenFor p off v).upIn p.rack, Config.freeWord s.free⟩ d off (BitVec.ofNat 32 v) s.mem
      ((s.wokenFor p off v).pkg p) = (m, j)) (hk : j.pkgDark = ((s.wokenFor p off v).pkg p).pkgDark) : (s.cwWrite p off v).pkg p = j := by
  have hrest := s.wokenFor_rest p off v
  have hnow : (s.wokenFor p off v).now = s.now := hrest.now
  have hmem : (s.wokenFor p off v).mem = s.mem := by unfold State.wokenFor; split <;> rfl
  have hfree : (s.wokenFor p off v).free = s.free := by unfold State.wokenFor; split <;> rfl
  change ((s.wokenFor p off v).busPerform p (writeOp .cw off (BitVec.ofNat 32 v)) true).2.pkg p = j
  generalize s.wokenFor p off v = t at *
  have hrun : t.busRun p (writeOp .cw off (BitVec.ofNat 32 v)) true = ([0], true, m, j) := by
    rw [← hnow, ← hfree, ← hmem] at hw
    simp only [State.busRun, writeOp, busWords, busOne, (t.pkg p).busRefuses_open hd hl ha hb, Nat.mod_eq_of_lt hl, hd, hw, Bool.false_eq_true, if_false]
  rw [State.busPerform_eq, hrun]
  unfold State.busLeaves
  dsimp only
  rw [if_neg (by simp [hk])]
  exact State.pkg_setPkg_same ..
/-- A cap on its range and grid that the tray controller writes is taken. -/
theorem State.cwWrite_cap (s : State) (p : PkgId) (v : Word) (h : capOk v.toNat = true) :
    ((s.cwWrite p R.PWR_LADDER_CAP v.toNat).pkg p).get F.PWR_LADDER_CAP_CAP = v.toNat := by
  have hw : (s.cwWrite p R.PWR_LADDER_CAP v.toNat).pkg p =
      ((s.wokenFor p R.PWR_LADDER_CAP v.toNat).pkg p).capWrite F.PWR_LADDER_CAP_CAP (BitVec.ofNat 32 v.toNat) :=
    State.cwWrite_open (d := ladderCapDesc) findReg_PWR_LADDER_CAP (by decide) (by decide) (by decide) (busWrite_PWR_LADDER_CAP rfl ..)
      (Pkg.capWrite_pkgDark ..)
  have hlt : v.toNat < 2048 := by have := (capOk_iff _).1 h; omega
  have hv : (BitVec.ofNat 32 v.toNat).toNat % 2048 = v.toNat := by rw [BitVec.ofNat_toNat, BitVec.setWidth_eq]; omega
  rw [hw, (Pkg.capWrite_taken (w := BitVec.ofNat 32 v.toNat) ⟨rfl, rfl⟩ (by decide) _ (hv.symm ▸ h)).1, hv]

/-! ### Caps at a tray controller -/

/-- What a cap leaves at the controller, before it reaches the rack. -/
def State.capHeld (t : TrayId) (pos : Fin 4) (v : Word) (s : State) : State :=
  match TrayId.pkgAt t pos with
  | none => s.setPosn t pos { s.posn t pos with held := some v.toNat }
  | some p =>
    if (s.posn t pos).resetN && 5 ≤ (s.posn t pos).step then
      (s.setPosn t pos { s.posn t pos with held := some v.toNat }).cwWrite p R.PWR_LADDER_CAP v.toNat
    else s.setPosn t pos { s.posn t pos with held := some v.toNat }
/-- The helm's cap is acknowledged. -/
def State.ackCap (t : TrayId) (p : PkgId) (v : Word) (s : State) : State :=
  if sfind (s.rack t.rack).caps (PkgId.index p) = some v.toNat then
    s.setRack t.rack { s.rack t.rack with acked := addTo (s.rack t.rack).acked (PkgId.index p) } else s
theorem State.takeCap_eq (t : TrayId) (pos : Fin 4) (v : Word) (s : State) : s.takeCap t pos v =
    match TrayId.pkgAt t pos with
    | none => s.capHeld t pos v
    | some p => (s.capHeld t pos v).ackCap t p v := by
  unfold State.takeCap State.capHeld
  cases TrayId.pkgAt t pos <;> rfl
theorem State.takeCap_held (t : TrayId) (pos : Fin 4) (v : Word) (s : State) :
    (s.takeCap t pos v).trays = (s.capHeld t pos v).trays ∧ (s.takeCap t pos v).pkgs = (s.capHeld t pos v).pkgs := by
  rw [State.takeCap_eq]
  cases TrayId.pkgAt t pos with
  | none => exact ⟨rfl, rfl⟩
  | some p =>
    dsimp only
    unfold State.ackCap
    split <;> exact ⟨rfl, rfl⟩
theorem State.capHeld_pkgsOnly (t : TrayId) (pos : Fin 4) (v : Word) (s : State) :
    (s.setPosn t pos { s.posn t pos with held := some v.toNat }).PkgsOnly (s.capHeld t pos v) := by
  unfold State.capHeld
  cases TrayId.pkgAt t pos with
  | none => exact .refl _
  | some p => exact .ite (.cwStore ..) (.refl _)
theorem State.tray_of_trays (h : u.trays = s.trays) (t : TrayId) : u.tray t = s.tray t := by rw [State.tray, h, ← State.tray]
theorem State.pkg_of_pkgs (h : u.pkgs = s.pkgs) (p : PkgId) : u.pkg p = s.pkg p := by rw [State.pkg, h, ← State.pkg]
theorem State.takeCap_tray (t : TrayId) (pos : Fin 4) (v : Word) (s : State) :
    (s.takeCap t pos v).tray t = (s.tray t).setPos pos.val { s.posn t pos with held := some v.toNat } := by
  rw [State.tray_of_trays (s.takeCap_held t pos v).1, (s.capHeld_pkgsOnly t pos v).tray]
  exact State.tray_setTray_same ..
theorem State.takeCap_written {v : Word} (ht : TrayId.pkgAt t pos = some p) (hr : (s.posn t pos).resetN = true) (hs : 5 ≤ (s.posn t pos).step)
    (h : capOk v.toNat = true) : ((s.takeCap t pos v).pkg p).get F.PWR_LADDER_CAP_CAP = v.toNat := by
  rw [State.pkg_of_pkgs (s.takeCap_held t pos v).2, State.capHeld, ht]
  dsimp only
  rw [if_pos (by simp [hr, hs])]
  exact State.cwWrite_cap _ p v h

/-! ### Numbered messages -/

/-- A message that a controller accepts. -/
def State.accept (t : TrayId) (kind : IdemKind) (pos : Fin 4) (v : Word) (s : State) : State :=
  match kind with
  | .cap => s.takeCap t pos v
  | .telemetry => s.pollPkg t pos
  | .coolant => match TrayId.pkgAt t pos with
    | some p => s.cwReport t "COOLANT" pos.val (bits ((s.pkg p).rg R.THR_COOLANT).toNat 0 12)
    | none => s
  | .shelf => s
/-- The controller with the number noted. -/
def State.numbered (t : TrayId) (kind : IdemKind) (pos : Fin 4) (seq : BitVec 64) (s : State) : State :=
  s.setTray t { s.tray t with seqSeen := sinsert (s.tray t).seqSeen (4 * idemIndex kind + pos.val) seq }
theorem exec_idempotentMessage (t : TrayId) (kind : IdemKind) (pos : Fin 4) (seq : BitVec 64) (v : Word) :
    exec (.idempotentMessage t kind pos seq v) s =
      if !(match sfind (s.tray t).seqSeen (4 * idemIndex kind + pos.val) with
        | some n => decide (n.toNat < seq.toNat)
        | none => true) then .next (s.setTray t { s.tray t with discarded := (s.tray t).discarded + 1 })
      else .next ((s.numbered t kind pos seq).accept t kind pos v) := by
  cases kind <;> rfl
/-- The numbers seen and the messages discarded by a controller. -/
def CwSt.numbers (c : CwSt) : SMap (BitVec 64) × Nat := (c.seqSeen, c.discarded)
theorem CwSt.numbers_emit (m : Msg) (c : CwSt) : (c.emit m).numbers = c.numbers := rfl
theorem CwSt.numbers_records (l : List ModRecord) (c : CwSt) : { c with records := l }.numbers = c.numbers := rfl
theorem State.numbers_setTray {c : CwSt} (h : c.numbers = (s.tray t).numbers) : ((s.setTray t c).tray t).numbers = (s.tray t).numbers := by
  rw [State.tray_setTray_same]
  exact h
theorem State.pollPkg_numbers (t : TrayId) (pos : Fin 4) (s : State) : ((s.pollPkg t pos).tray t).numbers = (s.tray t).numbers := by
  unfold State.pollPkg
  cases TrayId.pkgAt t pos with
  | none => rfl
  | some p =>
    dsimp only
    split
    · rfl
    · generalize hr : s.cwRead p _ = r
      have h : r.2.tray t = s.tray t := hr ▸ (State.PkgsOnly.cwRead s p _).tray t
      refine (State.numbers_setTray ?_).trans (congrArg CwSt.numbers h)
      iterate 6 refine (CwSt.numbers_emit ..).trans ?_
      exact CwSt.numbers_records ..
/-- What accepting a message keeps of the controller. -/
theorem State.accept_tray (t : TrayId) (kind : IdemKind) (pos : Fin 4) (v : Word) (s : State) :
    ((s.accept t kind pos v).tray t).seqSeen = (s.tray t).seqSeen ∧ ((s.accept t kind pos v).tray t).discarded = (s.tray t).discarded := by
  cases kind with
  | cap => rw [State.accept, State.takeCap_tray]; exact ⟨rfl, rfl⟩
  | telemetry =>
    have h := s.pollPkg_numbers t pos
    exact ⟨congrArg Prod.fst h, congrArg Prod.snd h⟩
  | coolant =>
    unfold State.accept
    dsimp only
    cases TrayId.pkgAt t pos with
    | none => exact ⟨rfl, rfl⟩
    | some p =>
      unfold State.cwReport
      rw [State.tray_setTray_same]
      exact ⟨rfl, rfl⟩
  | shelf => exact ⟨rfl, rfl⟩
theorem numberedMessages (s : State) (t : TrayId) (kind : IdemKind) (pos : Fin 4) (seq : BitVec 64) (v : Word) :
    let c := s.tray t
    let key := 4 * idemIndex kind + pos.val
    (∀ n, sfind c.seqSeen key = some n → seq.toNat ≤ n.toNat →
      exec (.idempotentMessage t kind pos seq v) s = .next (s.setTray t { c with discarded := c.discarded + 1 })) ∧
    ((∀ n, sfind c.seqSeen key = some n → n.toNat < seq.toNat) → ∃ u, exec (.idempotentMessage t kind pos seq v) s = .next u ∧
      sfind (u.tray t).seqSeen key = some seq ∧ (u.tray t).discarded = c.discarded ∧
      (kind = .cap → (u.posn t pos).held = some v.toNat ∧ ∀ p, TrayId.pkgAt t pos = some p → (s.posn t pos).resetN = true →
        5 ≤ (s.posn t pos).step → 150 ≤ v.toNat → v.toNat ≤ 1150 → v.toNat % 5 = 0 → (u.pkg p).get F.PWR_LADDER_CAP_CAP = v.toNat)) := by
  intro c key
  have hn : (s.numbered t kind pos seq).tray t = { c with seqSeen := sinsert c.seqSeen key seq } := State.tray_setTray_same ..
  have hx : (s.numbered t kind pos seq).posn t pos = s.posn t pos := by rw [State.posn, hn]; rfl
  obtain ⟨h1, h2⟩ := (s.numbered t kind pos seq).accept_tray t kind pos v
  rw [hn] at h1 h2
  refine ⟨fun n hs hle => ?_, fun h => ⟨_, (exec_idempotentMessage t kind pos seq v).trans (if_neg ?_), ?_, h2, fun hk => ⟨?_, fun p ht hr hs ha hb hg => ?_⟩⟩⟩
  · rw [exec_idempotentMessage, show sfind (s.tray t).seqSeen (4 * idemIndex kind + pos.val) = some n from hs]
    exact if_pos (by simpa using hle)
  · cases hs : sfind (s.tray t).seqSeen (4 * idemIndex kind + pos.val) with
    | none => exact Bool.noConfusion
    | some n => simpa using h n hs
  · rw [h1]
    exact sfind_sinsert_same ..
  · rw [hk, State.accept, State.posn, State.takeCap_tray]
    exact congrArg PosSt.held (sget_sset_same ..)
  · have hc : capOk v.toNat = true := (capOk_iff _).2 ⟨ha, hb, hg⟩
    subst hk
    exact State.takeCap_written ht (by rw [hx]; exact hr) (by rw [hx]; exact hs) hc
end Sys2Proof.Machine
end

section
/-! PROOF. What bring-up makes of a board position (R284–R287, R297, R330), and fenced actions at a tray controller (R308). -/
namespace Sys2Proof.Machine
open Sys2Proof

variable {s u v : State} {t : TrayId} {pos : Fin 4} {p : PkgId} {a : AlmId} {x y : PosSt}

/-! ### Bring-up of a board position -/

/-- What bring-up leaves of a board position: the module, the latches and the record of its failures. -/
def PosSt.core (x : PosSt) : PosSt :=
  { x with pwrEn := false, step := 0, resetN := false, bootSrc := 0, mirror := [], mirrorSerial := none, mirrorBoot := 0, mirrorTop := 0,
           flashBad := false }
/-- The board position at step 5. -/
def CwSt.fiveAt (c : CwSt) (pos : Nat) : PosSt :=
  { c.at pos with
    resetN := true, step := 5, bootSrc := c.chooseSource pos,
    mirror := if decide ((c.at pos).mirrorSerial = some (c.at pos).serial) then (c.at pos).mirror else [],
    mirrorSerial := some (c.at pos).serial,
    mirrorBoot := if decide ((c.at pos).mirrorSerial = some (c.at pos).serial) then (c.at pos).mirrorBoot + 1 else 0, mirrorTop := 0 }
/-- The writes of step 5. -/
def State.fiveWrites (t : TrayId) (pos : Fin 4) (p : PkgId) (s : State) : List (Nat × Nat) :=
  (match (s.tray t).record (s.posn t pos).serial with
    | some r => (List.range 8).map (fun n => (R.PWR_GUARD n, r.guards.getD n 45)) ++ [(R.PWR_AGE_HOURS, r.hours), (R.THR_RESIST_EST, r.resist)]
    | none => []) ++
  ((List.range 8).map fun i => (R.FLT_QUAR i, quarWord (s.quarantined p) i)).filter (fun e => e.2 ≠ 0) ++
  [(R.FLT_BOOT, ((s.tray t).fiveAt pos.val).mirrorBoot)] ++
  (match (s.posn t pos).held with
    | some w => [(R.PWR_LADDER_CAP, w)]
    | none => [])
/-- The package after the writes of step 5. -/
def State.fiveWritten (t : TrayId) (pos : Fin 4) (p : PkgId) (s : State) : State :=
  (s.fiveWrites t pos p).foldl (fun s e => s.cwWrite p e.1 e.2) (s.setPosn t pos ((s.tray t).fiveAt pos.val))
/-- The last write of step 5 is served. -/
def State.fiveServed (t : TrayId) (pos : Fin 4) (p : PkgId) (s : State) : State :=
  (s.fiveWritten t pos p).setPkg p ((s.fiveWritten t pos p).pkg p).draServed
theorem State.stepFive_eq (t : TrayId) (pos : Fin 4) (p : PkgId) (s : State) : s.stepFive t pos p =
    if ((s.fiveServed t pos p).helm p.rack).isSome then (s.fiveServed t pos p).writeAddress p else s.fiveServed t pos p := rfl
theorem State.fiveServed_pkgsOnly (t : TrayId) (pos : Fin 4) (p : PkgId) (s : State) :
    (s.setPosn t pos ((s.tray t).fiveAt pos.val)).PkgsOnly (s.fiveServed t pos p) := (State.PkgsOnly.cwWrites ..).trans (.setPkg ..)
theorem State.posn_stepFive (t : TrayId) (pos : Fin 4) (p : PkgId) (s : State) :
    (s.stepFive t pos p).posn t pos = (s.tray t).fiveAt pos.val := by
  rw [State.stepFive_eq]
  have h := s.fiveServed_pkgsOnly t pos p
  rw [(show (s.setPosn t pos ((s.tray t).fiveAt pos.val)).PkgsOnly _ from .ite (h.trans (.writeAddress ..)) h).posn, State.posn_setPosn_same]
theorem State.core_releaseReset (t : TrayId) (pos : Fin 4) (p : PkgId) (s : State) :
    ((s.releaseReset t pos p).posn t pos).core = (s.posn t pos).core := by
  unfold State.releaseReset
  split
  · rw [State.posn_setPosn_same]; rfl
  · rw [State.posn_stepFive]; rfl
theorem State.core_powerUp (t : TrayId) (pos : Fin 4) (p : PkgId) (s : State) : ((s.powerUp t pos p).posn t pos).core = (s.posn t pos).core := by
  unfold State.powerUp
  dsimp only
  split
  · exact s.core_releaseReset ..
  · rw [State.posn_setPosn_same]; rfl
theorem State.core_compareFlash (t : TrayId) (pos : Fin 4) (p : PkgId) (s : State) :
    ((s.compareFlash t pos p).posn t pos).core = (s.posn t pos).core := by
  unfold State.compareFlash
  dsimp only
  split
  · exact s.core_powerUp ..
  · split
    · rw [State.core_powerUp, State.posn_setPosn_same]; rfl
    · rw [State.posn_setPosn_same]; rfl
theorem State.core_bringUp (t : TrayId) (pos : Fin 4) (s : State) : ((s.bringUp t pos).posn t pos).core = (s.posn t pos).core := by
  unfold State.bringUp
  dsimp only
  split
  · rfl
  · split
    · rfl
    · split
      · rw [State.posn_setPosn_same]; rfl
      · exact s.core_compareFlash ..

section
variable (h : y.core = x.core)
include h
theorem PosSt.core_blocked : y.blocked = x.blocked := (congrArg PosSt.blocked h :)
theorem PosSt.core_shutdownHold : y.shutdownHold = x.shutdownHold := (congrArg PosSt.shutdownHold h :)
theorem PosSt.core_present : y.present = x.present := (congrArg PosSt.present h :)
theorem PosSt.core_serial : y.serial = x.serial := (congrArg PosSt.serial h :)
theorem PosSt.core_misses : y.misses = x.misses := (congrArg PosSt.misses h :)
theorem PosSt.core_holdN : y.holdN = x.holdN := (congrArg PosSt.holdN h :)
theorem PosSt.core_attestFails : y.attestFails = x.attestFails := (congrArg PosSt.attestFails h :)
end

/-! ### Fenced actions -/

section
variable {epoch : Word} {kind : FencedKind} {f : State → State}
theorem State.fenced_stale (h : epoch.toNat < (s.tray t).epochSeen.toNat) : s.fenced t epoch f = s.cwReport t "LEASE_STALE" 0 epoch.toNat := if_pos h
theorem State.fenced_taken (h : (s.tray t).epochSeen.toNat ≤ epoch.toNat) :
    s.fenced t epoch f = f (s.setTray t { s.tray t with epochSeen := epoch }) := if_neg (Nat.not_lt.2 h)
theorem State.AtPos.epochSeen (h : s.AtPos t pos u) : (u.tray t).epochSeen = (s.tray t).epochSeen := (congrArg CwSt.epochSeen h.shell :)
theorem State.swapPos_atPos (t : TrayId) (pos : Fin 4) (s : State) : s.AtPos t pos (s.swapPos t pos) := by
  unfold State.swapPos
  cases TrayId.pkgAt t pos with
  | none => exact .refl t pos s
  | some p =>
    dsimp only
    exact ((State.AtPos.ite (State.PkgsOnly.atPos (.setPkg ..) t pos) (.refl t pos s)).trans (State.powerOff_atPos ..)).trans (State.setPosn_atPos ..)
theorem State.swapPos_posn (ht : TrayId.pkgAt t pos = some p) :
    ((s.swapPos t pos).posn t pos).pwrEn = false ∧ ((s.swapPos t pos).posn t pos).indicator = true := by
  unfold State.swapPos
  rw [ht]
  dsimp only
  rw [State.posn_setPosn_same, State.posn_powerOff]
  exact ⟨rfl, rfl⟩
theorem State.writeGo_pkgsOnly (p : PkgId) (lease epoch : Word) (t0 : Nat) (s : State) : s.PkgsOnly (s.writeGo p lease epoch t0) := .cwWrites ..
theorem State.tray_orderTurn (t : TrayId) (pos : Fin 4) (lease epoch : Word) (t0 : Nat) (s : State) :
    (s.orderTurn t pos lease epoch t0).trays = s.trays := by
  unfold State.orderTurn
  cases TrayId.pkgAt t pos with
  | none =>
    dsimp only
    cases s.helm t.rack <;> rfl
  | some p => dsimp only; rw [s.writeGo_pkgsOnly p lease epoch t0]
/-- A fenced action of another kind than an order of a turn, the opening of the bridge and a relinquishing is work at its board position. -/
theorem State.perform_atPos (h1 : ∀ e t0, kind ≠ .turnGo e t0) (h2 : kind ≠ .openDebug) (h3 : kind ≠ .relinquish) :
    s.AtPos t pos (s.perform t pos epoch kind) := by
  have hr := State.AtPos.refl t pos s
  unfold State.perform
  cases kind with
  | turnGo e t0 => exact absurd rfl (h1 e t0)
  | openDebug => exact absurd rfl h2
  | relinquish => exact absurd rfl h3
  | bootSource b => cases TrayId.pkgAt t pos <;> exact s.setPosn_atPos ..
  | brakeRelease => cases TrayId.pkgAt t pos <;> exact hr
  | brakeTest n => cases TrayId.pkgAt t pos <;> exact hr
  | settingTaken => cases TrayId.pkgAt t pos <;> exact hr
  | turnAbort =>
    cases TrayId.pkgAt t pos with
    | none => exact hr
    | some p => exact State.PkgsOnly.atPos (.cwWrites ..) t pos
  | activate =>
    cases TrayId.pkgAt t pos with
    | none => exact hr
    | some p => exact .ite (State.PkgsOnly.atPos (.setPkg ..) t pos) hr
  | quarantineRelease q =>
    cases TrayId.pkgAt t pos with
    | none => exact hr
    | some p =>
      dsimp only
      have h := State.AtPos.ite (c := (s.pkg p).mctpUp = true) (State.PkgsOnly.atPos (.cwStore s p false R.FLT_RELEASE (256 + q.toNat)) t pos) hr
      exact .ite (h.trans (State.releaseReset_atPos ..)) h
  | attestationRelease =>
    cases TrayId.pkgAt t pos with
    | none => exact hr
    | some p => exact (s.setPosn_atPos ..).trans (State.bringUp_atPos ..)
  | swapOut =>
    cases TrayId.pkgAt t pos with
    | none => exact hr
    | some p => exact s.swapPos_atPos ..
  | powerOn =>
    cases TrayId.pkgAt t pos with
    | none => exact hr
    | some p => exact .ite hr ((s.setPosn_atPos ..).trans (State.bringUp_atPos ..))
theorem State.perform_turnGo {e : Word} {t0 : Nat} : s.perform t pos epoch (.turnGo e t0) = s.orderTurn t pos epoch e t0 := by
  unfold State.perform
  cases TrayId.pkgAt t pos <;> rfl
theorem State.perform_openDebug : s.perform t pos epoch .openDebug = s.openBridge t := by
  unfold State.perform
  cases TrayId.pkgAt t pos <;> rfl
theorem State.perform_relinquish : s.perform t pos epoch .relinquish = s.setTray t { s.tray t with relinquished := some epoch } := by
  unfold State.perform
  cases TrayId.pkgAt t pos <;> rfl
theorem State.perform_bootSource {b : BitVec 2} : s.perform t pos epoch (.bootSource b) = s.setPosn t pos { s.posn t pos with bootOrder := some b } := by
  unfold State.perform
  cases TrayId.pkgAt t pos <;> rfl
theorem State.perform_attestationRelease (ht : TrayId.pkgAt t pos = some p) : s.perform t pos epoch .attestationRelease =
    (s.setPosn t pos { s.posn t pos with blocked := false, attestFails := 0 }).bringUp t pos := by
  unfold State.perform
  rw [ht]
theorem State.perform_powerOn (ht : TrayId.pkgAt t pos = some p) (hx : (s.posn t pos).pwrEn = false) : s.perform t pos epoch .powerOn =
    (s.setPosn t pos { s.posn t pos with shutdownHold := false }).bringUp t pos := by
  unfold State.perform
  rw [ht]
  exact if_neg (by rw [hx]; exact Bool.noConfusion)
theorem State.perform_swapOut (ht : TrayId.pkgAt t pos = some p) : s.perform t pos epoch .swapOut = s.swapPos t pos := by
  unfold State.perform
  rw [ht]
theorem State.perform_epochSeen : ((s.perform t pos epoch kind).tray t).epochSeen = (s.tray t).epochSeen := by
  by_cases h1 : ∃ e t0, kind = .turnGo e t0
  · obtain ⟨e, t0, rfl⟩ := h1
    rw [State.perform_turnGo, State.tray_of_trays (s.tray_orderTurn ..)]
  · by_cases h2 : kind = .openDebug
    · rw [h2, State.perform_openDebug, State.openBridge, State.tray_setTray_same]
    · by_cases h3 : kind = .relinquish
      · rw [h3, State.perform_relinquish, State.tray_setTray_same]
      · exact (State.perform_atPos (fun e t0 h => h1 ⟨e, t0, h⟩) h2 h3).epochSeen
/-- A Meridian tray's slot holds no packages. -/
theorem TrayId.pkgAt_meridian (h : 24 ≤ t.slot.val) : TrayId.pkgAt t pos = none := dif_neg (Nat.not_lt.2 h)
/-- The order of a turn at a Meridian tray. -/
theorem State.orderTurn_meridian {e : Word} {t0 : Nat} {pl : Fin 4} (hp : t.slot.val = 24 + pl.val) (hh : s.helm t.rack = some a) :
    (s.orderTurn t pos epoch e t0).router (.meridian t.rack pl) =
      { s.router (.meridian t.rack pl) with newMap := (s.alm a).log.shadowChart, mapT0 := t0 } := by
  have hpl : (⟨t.slot.val % 4, Nat.mod_lt _ (by decide)⟩ : Fin 4) = pl := Fin.ext (show t.slot.val % 4 = pl.val by have := pl.isLt; omega)
  unfold State.orderTurn
  rw [TrayId.pkgAt_meridian (by omega), hpl, hh]
  exact State.router_setRouter ..
theorem fencedActions (s : State) (t : TrayId) (pos : Fin 4) (epoch : Word) (kind : FencedKind) :
    let c := s.tray t
    (epoch.toNat < c.epochSeen.toNat → exec (.fencedAction t pos epoch kind) s = .next (s.cwReport t "LEASE_STALE" 0 epoch.toNat) ∧
      exec (.relinquish t epoch) s = .next (s.cwReport t "LEASE_STALE" 0 epoch.toNat)) ∧
    (c.epochSeen.toNat ≤ epoch.toNat →
      (∃ u, exec (.relinquish t epoch) s = .next u ∧ (u.tray t).epochSeen = epoch ∧ (u.tray t).relinquished = some epoch) ∧
      ∃ u, exec (.fencedAction t pos epoch kind) s = .next u ∧ (u.tray t).epochSeen = epoch ∧
        (kind = .openDebug → (u.tray t).debugOpen = true) ∧ (kind = .relinquish → (u.tray t).relinquished = some epoch) ∧
        (∀ b, kind = .bootSource b → (u.posn t pos).bootOrder = some b) ∧
        (∀ e t0 (pl : Fin 4) h, kind = .turnGo e t0 → t.slot.val = 24 + pl.val → s.helm t.rack = some h →
          (u.router (.meridian t.rack pl)).newMap = (s.alm h).log.shadowChart ∧ (u.router (.meridian t.rack pl)).mapT0 = t0) ∧
        (TrayId.pkgAt t pos ≠ none → (kind = .attestationRelease → (u.posn t pos).blocked = false) ∧
          (kind = .powerOn → (s.posn t pos).pwrEn = false → (u.posn t pos).shutdownHold = false) ∧
          (kind = .swapOut → (u.posn t pos).pwrEn = false ∧ (u.posn t pos).indicator = true))) := by
  intro c
  have hf (ep : Word) (k : FencedKind) (s : State) : exec (.fencedAction t pos ep k) s = .next (s.fenced t ep fun s => s.perform t pos ep k) := rfl
  have hr (ep : Word) (s : State) :
      exec (.relinquish t ep) s = .next (s.fenced t ep fun s => s.setTray t { s.tray t with relinquished := some ep }) := rfl
  refine ⟨fun h => ⟨(hf ..).trans (congrArg Host.Outcome.next (State.fenced_stale h)), (hr ..).trans (congrArg Host.Outcome.next (State.fenced_stale h))⟩,
    fun h => ⟨⟨_, (hr ..).trans (congrArg Host.Outcome.next (State.fenced_taken h)), ?_⟩,
      _, (hf ..).trans (congrArg Host.Outcome.next (State.fenced_taken h)), ?_⟩⟩
  · rw [State.tray_setTray_same, State.tray_setTray_same]
    exact ⟨rfl, rfl⟩
  · have hx : (s.setTray t { c with epochSeen := epoch }).posn t pos = s.posn t pos := by rw [State.posn, State.tray_setTray_same]; rfl
    have hseen : ((s.setTray t { c with epochSeen := epoch }).tray t).epochSeen = epoch := by rw [State.tray_setTray_same]
    have hhelm : (s.setTray t { c with epochSeen := epoch }).helm t.rack = s.helm t.rack := rfl
    have halm (a : AlmId) : (s.setTray t { c with epochSeen := epoch }).alm a = s.alm a := rfl
    change (((s.setTray t { c with epochSeen := epoch }).perform t pos epoch kind).tray t).epochSeen = epoch ∧ _
    generalize s.setTray t { c with epochSeen := epoch } = s1 at *
    refine ⟨State.perform_epochSeen.trans hseen, ?_, ?_, ?_, ?_, fun hp => ⟨?_, ?_, ?_⟩⟩
    · rintro rfl
      rw [State.perform_openDebug, State.openBridge, State.tray_setTray_same]
    · rintro rfl
      rw [State.perform_relinquish, State.tray_setTray_same]
    · rintro b rfl
      rw [State.perform_bootSource, State.posn_setPosn_same]
    · rintro e t0 pl hm rfl hpl hh
      rw [State.perform_turnGo, State.orderTurn_meridian hpl (hhelm.trans hh), halm]
      exact ⟨rfl, rfl⟩
    all_goals obtain ⟨p, ht⟩ := Option.ne_none_iff_exists'.1 hp
    · rintro rfl
      rw [State.perform_attestationRelease ht]
      refine (PosSt.core_blocked (State.core_bringUp ..)).trans ?_
      rw [State.posn_setPosn_same]
    · rintro rfl hw
      rw [State.perform_powerOn ht (hx ▸ hw)]
      refine (PosSt.core_shutdownHold (State.core_bringUp ..)).trans ?_
      rw [State.posn_setPosn_same]
    · rintro rfl
      rw [State.perform_swapOut ht]
      exact State.swapPos_posn ht
end

/-! ### The standby -/

theorem exec_echo (a : AlmId) (kind : IdemKind) (t : TrayId) (pos : Fin 4) (seq : BitVec 64) (v : Word) : exec (.echo a kind t pos seq v) s =
    onAlm a s fun x => if x.role = .standby then
      { x with log := { x.log with seqHigh := if x.log.seqHigh.toNat < seq.toNat then seq else x.log.seqHigh } }.emit
        (.idem kind t.slot.val pos.val seq v)
    else x := rfl
theorem exec_syncEnd (a : AlmId) : exec (.syncEnd a) s = onAlm a s fun x =>
    if x.role = .syncing ∧ (s.alm (AlmId.peer a)).role = .helm then
      { x with role := .standby, log := (s.alm (AlmId.peer a)).log, heardAt := s.now, takeEpoch := none,
               knownHigh := maxWord x.knownHigh (s.alm (AlmId.peer a)).log.epoch, updatedAt := none }
    else x := rfl
theorem exec_almanacUpdate (a : AlmId) (img : List Byte) : exec (.almanacUpdate a img) s = onAlm a s fun x =>
    if x.role = .standby then
      { x with bank := img, bankOld := x.bank, role := .booting, bootAt := s.now, updatedAt := some s.now, takeEpoch := none }
    else x := rfl
theorem exec_previousBankRestart (a : AlmId) : exec (.previousBankRestart a) s = onAlm a s fun x =>
    match x.updatedAt with
    | some t => if t + ms 300000 ≤ s.now ∧ x.role = .booting then
        { x with bank := x.bankOld, bankOld := x.bank, bootAt := s.now, updatedAt := none } else x
    | none => x := rfl
/-- A standby whose peer has lost it. -/
def AlmSt.lostStandby (x : AlmSt) : AlmSt := { x with role := .syncing, takeEpoch := none }
theorem exec_standbyLost (a : AlmId) : exec (.standbyLost a) s =
    if (s.alm a).role ≠ .helm ∨ (s.alm (AlmId.peer a)).role ≠ .standby then .next s
    else .next ((s.setAlm (AlmId.peer a) (s.alm (AlmId.peer a)).lostStandby).alarmSet a.rack "STANDBY_LOST" true) := rfl
/-- A manager in HELM whose peer is not is its rack's helm. -/
theorem State.helm_of_role (h : (s.alm a).role = .helm) (hp : (s.alm (AlmId.peer a)).role ≠ .helm) : s.helm a.rack = some a := by
  obtain ⟨r, b⟩ := a
  unfold State.helm
  cases b
  · dsimp only
    rw [if_neg (fun e => hp e.1), if_pos h]
  · dsimp only
    rw [if_pos ⟨h, .inl hp⟩]
theorem standbys (s : State) (a : AlmId) :
    let x := s.alm a
    let other := AlmId.peer a
    ((x.role ≠ .helm ∨ (s.alm other).role ≠ .standby) → exec (.standbyLost a) s = .next s) ∧
    (x.role = .helm → (s.alm other).role = .standby → ∃ u, exec (.standbyLost a) s = .next u ∧ (u.alm other).role = .syncing ∧
      (u.alm a).role = .helm ∧ (u.alm a).log.alarms.contains "STANDBY_LOST" = true) ∧
    ((x.role ≠ .syncing ∨ (s.alm other).role ≠ .helm) → exec (.syncEnd a) s = .next (s.setAlm a x)) ∧
    (x.role = .syncing → (s.alm other).role = .helm → ∃ y : AlmSt, exec (.syncEnd a) s = .next (s.setAlm a y) ∧ y.role = .standby ∧
      y.log = (s.alm other).log ∧ y.heardAt = s.now) ∧
    (∀ img, x.role ≠ .standby → exec (.almanacUpdate a img) s = .next (s.setAlm a x)) ∧
    (∀ img, x.role = .standby → exec (.almanacUpdate a img) s = .next (s.setAlm a { x with
      bank := img, bankOld := x.bank, role := .booting, bootAt := s.now, updatedAt := some s.now, takeEpoch := none })) ∧
    ((x.role ≠ .booting ∨ x.updatedAt = none ∨ ∃ t, x.updatedAt = some t ∧ s.now < t + 300000000000) →
      exec (.previousBankRestart a) s = .next (s.setAlm a x)) ∧
    (∀ t, x.role = .booting → x.updatedAt = some t → t + 300000000000 ≤ s.now → exec (.previousBankRestart a) s =
      .next (s.setAlm a { x with bank := x.bankOld, bankOld := x.bank, bootAt := s.now, updatedAt := none })) := by
  intro x other
  refine ⟨fun h => (exec_standbyLost a).trans (if_pos h), fun h hp => ?_, fun h => (exec_syncEnd a).trans (onAlm_next (if_neg ?_)),
    fun h hp => ⟨_, (exec_syncEnd a).trans (onAlm_next (if_pos ⟨h, hp⟩)), rfl, rfl, rfl⟩,
    fun img h => (exec_almanacUpdate a img).trans (onAlm_next (if_neg h)), fun img h => (exec_almanacUpdate a img).trans (onAlm_next (if_pos h)),
    fun h => (exec_previousBankRestart a).trans (onAlm_next ?_), fun t h hu hl => (exec_previousBankRestart a).trans (onAlm_next ?_)⟩
  · have hne : a ≠ other := (AlmId.peer_ne a).symm
    have h1 : (s.setAlm other (s.alm other).lostStandby).alm a = x := State.alm_setAlm_ne _ _ hne
    have h2 : (s.setAlm other (s.alm other).lostStandby).alm other = (s.alm other).lostStandby := State.alm_setAlm_same ..
    have hh : (s.setAlm other (s.alm other).lostStandby).helm a.rack = some a :=
      State.helm_of_role (by rw [h1]; exact h) (by rw [h2]; exact Role.noConfusion)
    have hl := State.alarmSet_logged (s := s.setAlm other (s.alm other).lostStandby) (rack := a.rack) "STANDBY_LOST" true
    refine ⟨_, (exec_standbyLost a).trans (if_neg ?_), ?_, ?_, State.alarmSet_contains _ _ hh⟩
    · rintro (e | e)
      · exact e h
      · exact e hp
    · exact (hl.role other).trans (by rw [h2]; rfl)
    · exact (hl.role a).trans (by rw [h1]; exact h)
  · rintro ⟨h1, h2⟩
    exact h.elim (fun e => e h1) (fun e => e h2)
  · rcases h with h | h | ⟨t, ht, hl⟩
    · split
      · exact if_neg fun e => h e.2
      · rfl
    · rw [h]
    · rw [ht]
      exact if_neg fun e => Nat.not_lt.2 e.1 hl
  · rw [hu]
    exact if_pos ⟨hl, h⟩

/-- Settles O50: each command by its own branches. -/
theorem streamsAndFencing : Obligations.StreamsAndFencing := by
  unfold Obligations.StreamsAndFencing
  intro s a x other
  refine ⟨fun kind t pos seq v h => (exec_echo ..).trans (onAlm_next (if_neg h)),
    fun kind t pos seq v h => ⟨_, (exec_echo ..).trans (onAlm_next (if_pos h)), rfl, h, ?_⟩,
    fun t kind pos seq v => numberedMessages s t kind pos seq v, fun t pos epoch kind => fencedActions s t pos epoch kind, standbys s a⟩
  change seq.toNat ≤ (if x.log.seqHigh.toNat < seq.toNat then seq else x.log.seqHigh).toNat ∧
    x.log.seqHigh.toNat ≤ (if x.log.seqHigh.toNat < seq.toNat then seq else x.log.seqHigh).toNat
  split <;> omega
end Sys2Proof.Machine
end

section
/-! PROOF. Obligation O51: an operator's requests at a manager (R124, R290, R295, R296, R309, R315, R316, R355–R357, R373). -/
namespace Sys2Proof.Machine
open Sys2Proof

variable {s t u : State} {rack : Fin 32} {a h : AlmId} {l img b v : List Byte} {o n : Nat}

/-! ### A Chart that is re-emitted (R373) -/

theorem leNat_leBytes : ∀ (n v : Nat), leNat (leBytes n v) = v % 256 ^ n
  | 0, v => (Nat.mod_one v).symm
  | n + 1, v => by
    have h := leNat_leBytes n (v / 256)
    have e : v % 256 ^ (n + 1) = v % 256 + 256 * (v / 256 % 256 ^ n) := by rw [pow_succ, Nat.mul_comm, Nat.mod_mul]
    rw [leBytes, leNat, h, e, BitVec.toNat_ofNat]
theorem leBytes_length : ∀ (n v : Nat), (leBytes n v).length = n
  | 0, _ => rfl
  | n + 1, v => congrArg (· + 1) (leBytes_length n (v / 256))
theorem slice_patch_same (ho : o ≤ b.length) : slice (patch b o v) o v.length = v := by
  have hl : (b.take o).length = o := by rw [List.length_take]; omega
  rw [slice, patch, List.append_assoc, List.drop_left' hl, List.take_left' rfl]
theorem slice_patch_below {i : Nat} (ho : i + n ≤ o) (hb : i + n ≤ b.length) : slice (patch b o v) i n = slice b i n := by
  have hl : (b.take o).length = min o b.length := List.length_take
  rw [slice, slice, patch, List.append_assoc, List.drop_append_of_le_length (by omega),
    List.take_append_of_le_length (by rw [List.length_drop]; omega), List.drop_take, List.take_take, Nat.min_eq_left (by omega)]
theorem patch_length (ho : n ≤ o) (hb : n ≤ b.length) : n ≤ (patch b o v).length := by
  rw [patch, List.length_append, List.length_append, List.length_take]
  omega
/-- A re-emitted Chart carries the next epoch. -/
theorem chEpoch_reissue (h : 0x100 ≤ img.length) (ho : 0x110 ≤ (sec img 10).1) : chEpoch (reissue img) = (chEpoch img + 1) % 2 ^ 32 := by
  have ha : 12 ≤ (patch img 8 (leBytes 4 (chEpoch img + 1))).length := by
    rw [patch, List.length_append, List.length_append, List.length_take, leBytes_length]
    omega
  have hs : slice (patch img 8 (leBytes 4 (chEpoch img + 1))) 8 4 = leBytes 4 (chEpoch img + 1) := by
    have := slice_patch_same (b := img) (o := 8) (v := leBytes 4 (chEpoch img + 1)) (by omega)
    rwa [leBytes_length] at this
  unfold reissue
  dsimp only
  generalize patch img 8 (leBytes 4 (chEpoch img + 1)) = a at ha hs
  generalize (sec img 10).1 = o at ho
  generalize leBytes 8 (crc64 (List.take 0xF8 a)) = v1
  have hb : 12 ≤ (patch a 0xF8 v1).length := patch_length (by omega) ha
  have hsb : slice (patch a 0xF8 v1) 8 4 = leBytes 4 (chEpoch img + 1) := (slice_patch_below (by omega) ha).trans hs
  generalize patch a 0xF8 v1 = b at hb hsb
  generalize Config.chartSign _ _ = sig
  generalize leBytes 48 (sig >>> 384).toNat = v2
  generalize leBytes 48 (sig.toNat % 2 ^ 384) = v3
  have hc : 12 ≤ (patch b (o + 0x10) v2).length := patch_length (by omega) hb
  have hsc : slice (patch b (o + 0x10) v2) 8 4 = leBytes 4 (chEpoch img + 1) := (slice_patch_below (by omega) hb).trans hsb
  generalize patch b (o + 0x10) v2 = c at hc hsc
  have hd : 12 ≤ (patch c (o + 0x40) v3).length := patch_length (by omega) hc
  have hsd : slice (patch c (o + 0x40) v3) 8 4 = leBytes 4 (chEpoch img + 1) := (slice_patch_below (by omega) hc).trans hsc
  generalize patch c (o + 0x40) v3 = d at hd hsd
  have hse : slice (patch d (o - 16) (leBytes 8 (crc64 (secBody d 10)))) 8 4 = leBytes 4 (chEpoch img + 1) :=
    (slice_patch_below (by omega) hd).trans hsd
  rw [chEpoch, leAt, hse, leNat_leBytes]
  norm_num
theorem leNat_lt : ∀ l : List Byte, leNat l < 256 ^ l.length
  | [] => Nat.one_pos
  | b :: l => by
    have h1 := leNat_lt l
    have h2 := b.isLt
    rw [leNat, List.length_cons, pow_succ]
    omega
theorem chEpoch_lt (img : List Byte) : chEpoch img < 2 ^ 32 :=
  Nat.lt_of_lt_of_le (leNat_lt _) (Nat.pow_le_pow_right (n := 256) (by omega) (by rw [slice, List.length_take]; omega) : _ ≤ 256 ^ 4)
/-- The Chart that is turned. -/
theorem toTurn_spec (l : AlmLog) (service : List Byte) :
    ((chEpoch service % 2 = 1 ∨ (l.activeChart ≠ [] ∧ chSafe l.activeChart = false)) → l.toTurn service = service) ∧
    (chEpoch service % 2 = 0 → (l.activeChart = [] ∨ chSafe l.activeChart = true) → 0x100 ≤ service.length → 0x110 ≤ (sec service 10).1 →
      chEpoch (l.toTurn service) = chEpoch service + 1) := by
  have hempty : l.activeChart.isEmpty = decide (l.activeChart = []) := by cases l.activeChart <;> rfl
  refine ⟨fun h => if_neg ?_, fun he hs hl ho => ?_⟩
  · rcases h with h | ⟨h1, h2⟩
    · simp [h]
    · simp [hempty, h1, h2]
  · have hc : l.toTurn service = reissue service := if_pos (by rcases hs with hs | hs <;> simp [hs, he])
    have hlt := chEpoch_lt service
    rw [hc, chEpoch_reissue hl ho]
    omega

/-! ### What the helm logs and sends -/

/-- Logging what names no epoch leaves the helm. -/
theorem State.helm_logs {f : AlmLog → AlmLog} (hf : ∀ l, (f l).epoch = l.epoch) (r q : Fin 32) (s : State) : (s.logs r f).helm q = s.helm q := by
  refine helm_congr (fun b _ => ?_) (fun b _ => ?_) <;> rcases s.logs_alm (rack := r) f b with h | h <;> rw [h]
  exact hf _
/-- A helm has acted: the action stands in its log, and is sent under its epoch. -/
structure State.Acted (h : AlmId) (key : Nat) (kind : FencedKind) (s t : State) : Prop where
  logged : s.Logged t
  log : (t.alm h).log = { (s.alm h).log with actions := (s.alm h).log.actions ++ [(key, (s.alm h).log.epoch, kind)] }
  told : Msg.fenced key (s.alm h).log.epoch kind ∈ (t.alm h).out
theorem State.sendAction_acted {key : Nat} {kind : FencedKind} (hh : s.helm h.rack = some h) : s.Acted h key kind (s.sendAction h key kind) := by
  have hl := State.logs_helm (fun l => { l with actions := l.actions ++ [(key, (s.alm h).log.epoch, kind)] }) hh
  refine ⟨?_, ?_, ?_⟩
  · unfold State.sendAction
    exact State.Logged.trans (t := s.logs h.rack fun l => { l with actions := l.actions ++ [(key, (s.alm h).log.epoch, kind)] })
      (State.logs_logged fun _ => rfl) (State.setAlm_emit_logged ..)
  · unfold State.sendAction
    dsimp only
    rw [State.setAlm_emit_log, hl]
  · unfold State.sendAction
    dsimp only
    rw [State.alm_setAlm_same]
    exact List.mem_append_right _ (List.mem_singleton.2 rfl)
/-- A helm has acted and answered the operator. -/
theorem State.acted_answered {key : Nat} {kind : FencedKind} (a : AlmId) (hh : s.helm h.rack = some h) :
    s.Acted h key kind ((s.sendAction h key kind).http a 200 "OK") ∧ Msg.http 200 "OK" ∈ (((s.sendAction h key kind).http a 200 "OK").alm a).out := by
  have ha := State.sendAction_acted (key := key) (kind := kind) hh
  refine ⟨⟨ha.logged.trans (State.http_logged ..), ?_, (State.http_logged ..).out _ _ ha.told⟩, State.http_told ..⟩
  exact (State.setAlm_emit_log ..).trans ha.log
theorem State.Acted.mem {key : Nat} {kind : FencedKind} (ha : s.Acted h key kind t) : (key, (s.alm h).log.epoch, kind) ∈ (t.alm h).log.actions := by
  rw [ha.log]
  exact List.mem_append_right _ (List.mem_singleton.2 rfl)

/-- What an operator's action that is taken leaves: it is logged and sent under the helm's epoch, and answered. -/
def State.Sent (a h : AlmId) (key : Nat) (kind : FencedKind) (f : AlmLog → Prop) (s t : State) : Prop :=
  (key, (s.alm h).log.epoch, kind) ∈ (t.alm h).log.actions ∧ Msg.fenced key (s.alm h).log.epoch kind ∈ (t.alm h).out ∧
    Msg.http 200 "OK" ∈ (t.alm a).out ∧ t.pkgs = s.pkgs ∧ t.trays = s.trays ∧ f (t.alm h).log
/-- An action taken after a change of the log. -/
theorem State.sent_after {key : Nat} {kind : FencedKind} {f : AlmLog → Prop} (a : AlmId) (hh : u.helm h.rack = some h) (hp : u.pkgs = s.pkgs)
    (ht : u.trays = s.trays) (he : (u.alm h).log.epoch = (s.alm h).log.epoch)
    (hf : ∀ l, f { (u.alm h).log with actions := l }) : s.Sent a h key kind f ((u.sendAction h key kind).http a 200 "OK") := by
  obtain ⟨h1, h2⟩ := State.acted_answered (key := key) (kind := kind) a hh
  refine ⟨he ▸ h1.mem, he ▸ h1.told, h2, h1.logged.pkgs.trans hp, h1.logged.trays.trans ht, ?_⟩
  rw [h1.log]
  exact hf _
theorem State.logs_pkgs (f : AlmLog → AlmLog) (r : Fin 32) (s : State) : (s.logs r f).pkgs = s.pkgs := by rw [State.logs_rest]
theorem State.logs_trays (f : AlmLog → AlmLog) (r : Fin 32) (s : State) : (s.logs r f).trays = s.trays := by rw [State.logs_rest]
theorem State.logs_racks (f : AlmLog → AlmLog) (r : Fin 32) (s : State) : (s.logs r f).racks = s.racks := by rw [State.logs_rest]
theorem State.sent_logs {key : Nat} {kind : FencedKind} {f : AlmLog → Prop} {g : AlmLog → AlmLog} (a : AlmId) (hh : s.helm h.rack = some h)
    (hg : ∀ l, (g l).epoch = l.epoch) (hf : ∀ l, f { g (s.alm h).log with actions := l }) :
    s.Sent a h key kind f (((s.logs h.rack g).sendAction h key kind).http a 200 "OK") := by
  have hl := State.logs_helm g hh
  refine State.sent_after a ((State.helm_logs hg ..).trans hh) (s.logs_pkgs ..) (s.logs_trays ..) ?_ fun l => ?_
  · rw [hl]; exact hg _
  · rw [hl]; exact hf l
end Sys2Proof.Machine
end

section
/-! PROOF. Obligation O51, second part: each request of an operator. -/
namespace Sys2Proof.Machine
open Sys2Proof

variable {s t u : State} {rack : Fin 32} {a h : AlmId}

theorem State.helm_rack (hh : s.helmActs a.rack h) : h.rack = a.rack := alm_rack_of_helm hh.1
theorem State.helm_self (hh : s.helmActs a.rack h) : s.helm h.rack = some h := by rw [State.helm_rack hh]; exact hh.1

/-- With no helm that may act, every request gets 503. -/
theorem operator_no (s : State) (a : AlmId) (hn : s.noHelm a.rack) :
    let no (i : Instr) : Prop := exec i s = .next (s.http a 503 "RETRY")
    (∀ img t0 ck, no (.turnChart a ⟨img, ck⟩ t0)) ∧ no (.abortTurn a) ∧ (∀ p u, no (.releaseQuarantine a p u)) ∧
      (∀ p, no (.releaseAttestation a p) ∧ no (.swapoutRequest a p) ∧ no (.powerOn a p)) ∧ (∀ n, no (.rackNumberSet a n)) ∧
      (∀ ts img, no (.updatePush a ts img)) ∧ (∀ t, no (.activate a t)) ∧ no (.handOver a) ∧
      ∀ u ok, exec (.unitUpdate a.rack u ok) s = .next (s.http ⟨a.rack, false⟩ 503 "RETRY") := by
  intro no
  have hr (f : AlmId → State → State) : (.next (s.operator a f) : Out) = .next (s.http a 503 "RETRY") :=
    congrArg Host.Outcome.next (State.operator_retry f hn)
  exact ⟨fun _ _ _ => hr _, hr _, fun _ _ => hr _, fun _ => ⟨hr _, hr _, hr _⟩, fun _ => hr _, fun _ _ => hr _, fun _ => hr _, hr _,
    fun _ _ => congrArg Host.Outcome.next (State.operator_retry (at_ := ⟨a.rack, false⟩) _ hn)⟩

section
variable (hh : s.helmActs a.rack h)
include hh

/-! ### Turns -/

/-- The helm stores an image and sends it. -/
def State.imaged (h : AlmId) (image : List Byte) (t0 : Nat) (s : State) : State :=
  let s1 := s.logs h.rack fun l => { l with shadowChart := image, turnT0 := some t0 }
  s1.setAlm h ((s1.alm h).emit (.image h.rack.val image))
theorem exec_turnChart {service : List Byte} {ck : Bool} {t0 : Nat} : exec (.turnChart a ⟨service, ck⟩ t0) s =
    .next (match if ck then s.refuseTurn h ((s.alm h).log.toTurn service) else some "UNCHECKED_PAIR" with
      | some why => s.http a 400 why
      | none => ((s.imaged h ((s.alm h).log.toTurn service) t0).sendAction h h.rack.val
          (.turnGo (BitVec.ofNat 32 (chEpoch ((s.alm h).log.toTurn service))) t0)).http a 200 "OK") :=
  congrArg Host.Outcome.next (State.operator_helm _ hh)
theorem State.imaged_alm (img : List Byte) (t0 : Nat) : (s.imaged h img t0).alm h =
    { (s.alm h) with log := { (s.alm h).log with shadowChart := img, turnT0 := some t0 } }.emit (.image h.rack.val img) := by
  unfold State.imaged
  dsimp only
  rw [State.alm_setAlm_same, State.logs_helm _ (State.helm_self hh)]
theorem imaged_sent (img : List Byte) (t0 : Nat) (kind : FencedKind) : s.Sent a h h.rack.val kind (fun m => m.turnT0 = some t0 ∧ m.shadowChart = img)
    (((s.imaged h img t0).sendAction h h.rack.val kind).http a 200 "OK") := by
  have hi := State.imaged_alm hh img t0
  have he : (s.logs h.rack fun l => { l with shadowChart := img, turnT0 := some t0 }).Logged (s.imaged h img t0) := State.setAlm_emit_logged ..
  have hp : (s.imaged h img t0).pkgs = s.pkgs := he.pkgs.trans (s.logs_pkgs ..)
  have ht : (s.imaged h img t0).trays = s.trays := he.trays.trans (s.logs_trays ..)
  have hk : (s.logs h.rack fun l => { l with shadowChart := img, turnT0 := some t0 }).helm h.rack = s.helm h.rack :=
    State.helm_logs (f := fun l => { l with shadowChart := img, turnT0 := some t0 }) (fun _ => rfl) h.rack h.rack s
  refine State.sent_after (u := s.imaged h img t0) (s := s) a ?_ hp ht (by rw [hi]; rfl) fun m => ?_
  · exact (he.helm _).trans (hk.trans (State.helm_self hh))
  · rw [hi]
    exact ⟨rfl, rfl⟩
theorem operator_turns (service : List Byte) (t0 : Nat) :
    let l := (s.alm h).log
    let img := l.toTurn service
    exec (.turnChart a ⟨service, false⟩ t0) s = .next (s.http a 400 "UNCHECKED_PAIR") ∧
    (∀ why, s.refuseTurn h img = some why → exec (.turnChart a ⟨service, true⟩ t0) s = .next (s.http a 400 why)) ∧
    (s.refuseTurn h img = none → ∃ t, exec (.turnChart a ⟨service, true⟩ t0) s = .next t ∧
      s.Sent a h h.rack.val (.turnGo (BitVec.ofNat 32 (chEpoch img)) t0) (fun m => m.turnT0 = some t0 ∧ m.shadowChart = img) t) := by
  intro l img
  have he (ck : Bool) := exec_turnChart (service := service) (ck := ck) (t0 := t0) hh
  change ∀ ck, exec (.turnChart a ⟨service, ck⟩ t0) s = .next (match if ck then s.refuseTurn h img else some "UNCHECKED_PAIR" with
      | some why => s.http a 400 why
      | none => ((s.imaged h img t0).sendAction h h.rack.val (.turnGo (BitVec.ofNat 32 (chEpoch img)) t0)).http a 200 "OK") at he
  clear_value img
  refine ⟨he false, fun why hw => (he true).trans ?_, fun hw => ⟨_, (he true).trans ?_, imaged_sent hh ..⟩⟩
  · rw [if_pos rfl, hw]
  · rw [if_pos rfl, hw]
theorem operator_abort : ∃ t, exec (.abortTurn a) s = .next t ∧ s.Sent a h h.rack.val .turnAbort (fun _ => True) t :=
  ⟨_, congrArg Host.Outcome.next (State.operator_helm _ hh), State.sent_after a (State.helm_self hh) rfl rfl rfl fun _ => trivial⟩

/-! ### Releases, swaps and power -/

theorem packageAction_eq (p : PkgId) (f : AlmLog → AlmLog) (kind : FencedKind) : s.packageAction a p f kind =
    if p.rack ≠ h.rack then s.http a 400 "BAD_VALUE" else ((s.logs h.rack f).sendAction h p.key kind).http a 200 "OK" := State.operator_helm _ hh
theorem packageAction_bad {p : PkgId} (f : AlmLog → AlmLog) (kind : FencedKind) (hp : p.rack ≠ h.rack) :
    s.packageAction a p f kind = s.http a 400 "BAD_VALUE" := (packageAction_eq hh ..).trans (if_pos hp)
theorem packageAction_sent {p : PkgId} {f : AlmLog → AlmLog} {g : AlmLog → Prop} (kind : FencedKind) (hp : p.rack = h.rack)
    (hf : ∀ l, (f l).epoch = l.epoch) (hg : ∀ l, g { f (s.alm h).log with actions := l }) : ∃ t, (.next (s.packageAction a p f kind) : Out) = .next t ∧
      s.Sent a h p.key kind g t :=
  ⟨_, congrArg Host.Outcome.next ((packageAction_eq hh ..).trans (if_neg (not_not.2 hp))), State.sent_logs a (State.helm_self hh) hf hg⟩
theorem exec_swapoutRequest (p : PkgId) : exec (.swapoutRequest a p) s = .next (
    if p.rack ≠ h.rack then s.http a 400 "BAD_VALUE"
    else
      let s1 := s.logs h.rack fun l => { l with actions := l.actions ++ [(p.key, l.epoch, .swapOut)] }
      (s1.setAlm h ((s1.alm h).emit (.command "BUILD_VARIANT" h.rack.val p.key))).http a 200 "OK") :=
  congrArg Host.Outcome.next (State.operator_helm _ hh)
theorem operator_swapout (p : PkgId) (hp : p.rack = h.rack) : ∃ t, exec (.swapoutRequest a p) s = .next t ∧
    (p.key, (s.alm h).log.epoch, FencedKind.swapOut) ∈ (t.alm h).log.actions ∧ Msg.command "BUILD_VARIANT" h.rack.val p.key ∈ (t.alm h).out ∧
      t.trays = s.trays := by
  have hl := State.logs_helm (fun l => { l with actions := l.actions ++ [(p.key, l.epoch, FencedKind.swapOut)] }) (State.helm_self hh)
  refine ⟨_, (exec_swapoutRequest hh p).trans (congrArg Host.Outcome.next (if_neg (not_not.2 hp))), ?_, (State.http_logged ..).out _ _ ?_, ?_⟩
  · rw [State.http, State.setAlm_emit_log, State.setAlm_emit_log, hl]
    exact List.mem_append_right _ (List.mem_singleton.2 rfl)
  · rw [State.alm_setAlm_same]
    exact List.mem_append_right _ (List.mem_singleton.2 rfl)
  · exact (State.http_logged ..).trays.trans (s.logs_trays ..)

theorem operator_foreign (p : PkgId) (q : Byte) (hp : p.rack ≠ h.rack) :
    exec (.releaseQuarantine a p q) s = .next (s.http a 400 "BAD_VALUE") ∧ exec (.releaseAttestation a p) s = .next (s.http a 400 "BAD_VALUE") ∧
      exec (.swapoutRequest a p) s = .next (s.http a 400 "BAD_VALUE") ∧ exec (.powerOn a p) s = .next (s.http a 400 "BAD_VALUE") :=
  ⟨congrArg Host.Outcome.next (packageAction_bad (p := p) hh (fun l => { l with quarantine := l.quarantine.filter (· ≠ (p.key, q.toNat)) }) _ hp),
    congrArg Host.Outcome.next (packageAction_bad (p := p) hh (fun l => { l with attestBlocked := dropFrom l.attestBlocked p.key }) _ hp),
    (exec_swapoutRequest hh p).trans (congrArg Host.Outcome.next (if_pos hp)), congrArg Host.Outcome.next (packageAction_bad (p := p) hh id _ hp)⟩
theorem operator_release (p : PkgId) (q : Byte) (hp : p.rack = h.rack) :
    let l := (s.alm h).log
    let sent (i : Instr) (key : Nat) (kind : FencedKind) (f : AlmLog → Prop) : Prop := ∃ t, exec i s = .next t ∧ s.Sent a h key kind f t
    sent (.releaseQuarantine a p q) p.key (.quarantineRelease q) (fun m => m.quarantine = l.quarantine.filter (· ≠ (p.key, q.toNat))) ∧
      sent (.releaseAttestation a p) p.key .attestationRelease (fun m => m.attestBlocked = l.attestBlocked.filter (· ≠ p.key)) ∧
      sent (.powerOn a p) p.key .powerOn (fun m => m.siteCapW = l.siteCapW) ∧
      ∃ t, exec (.swapoutRequest a p) s = .next t ∧ (p.key, l.epoch, FencedKind.swapOut) ∈ (t.alm h).log.actions ∧
        Msg.command "BUILD_VARIANT" h.rack.val p.key ∈ (t.alm h).out ∧ t.trays = s.trays := by
  refine ⟨?_, ?_, ?_, operator_swapout hh p hp⟩
  · exact packageAction_sent (f := fun l => { l with quarantine := l.quarantine.filter (· ≠ (p.key, q.toNat)) }) hh (.quarantineRelease q) hp
      (fun _ => rfl) fun _ => rfl
  · exact packageAction_sent (f := fun l => { l with attestBlocked := dropFrom l.attestBlocked p.key }) hh .attestationRelease hp
      (fun _ => rfl) fun _ => rfl
  · exact packageAction_sent (f := id) hh .powerOn hp (fun _ => rfl) fun _ => rfl

/-! ### The rack number, updates and activation -/

theorem exec_rackNumberSet (n : Nat) : exec (.rackNumberSet a n) s = .next (
    if 31 < n then s.http a 400 "BAD_VALUE"
    else (s.logs h.rack fun l => { l with rackNumber := n, actions := l.actions ++ [(0, l.epoch, .settingTaken)] }).http a 200 "OK") :=
  congrArg Host.Outcome.next (State.operator_helm _ hh)
theorem operator_rackNumber (n : Nat) (hn : n ≤ 31) : ∃ t, exec (.rackNumberSet a n) s = .next t ∧ (t.alm h).log.rackNumber = n ∧
    t.racks = s.racks ∧ Msg.http 200 "OK" ∈ (t.alm a).out := by
  refine ⟨_, (exec_rackNumberSet hh n).trans (congrArg Host.Outcome.next (if_neg (Nat.not_lt.2 hn))), ?_,
    (State.http_logged ..).racks.trans (s.logs_racks ..), State.http_told ..⟩
  rw [State.http, State.setAlm_emit_log, State.logs_helm _ (State.helm_self hh)]
theorem exec_activate (t : UpdateTarget) : exec (.activate a t) s = .next (
    if targetRack t ≠ h.rack then s.http a 400 "BAD_VALUE" else (s.sendAction h (targetKey t) .activate).http a 200 "OK") :=
  congrArg Host.Outcome.next (State.operator_helm _ hh)
theorem operator_activate (t : UpdateTarget) (ht : targetRack t = h.rack) : ∃ u, exec (.activate a t) s = .next u ∧
    s.Sent a h (targetKey t) .activate (fun _ => True) u :=
  ⟨_, (exec_activate hh t).trans (congrArg Host.Outcome.next (if_neg (not_not.2 ht))),
    State.sent_after (s := s) (u := s) a (State.helm_self hh) rfl rfl rfl fun _ => trivial⟩
end

theorem State.stageOne_pkgs (h : AlmId) (img : List Byte) (target : UpdateTarget) (s : State) : (s.stageOne h img target).2.pkgs = s.pkgs := by
  unfold State.stageOne
  cases target with
  | pkc p => dsimp only; split <;> split <;> rfl
  | cw t => dsimp only; split <;> rfl
  | chip t kind n => dsimp only; split <;> rfl
  | almanac x =>
    dsimp only
    split
    · rfl
    · exact s.logs_pkgs ..
/-- A push to several targets. -/
def State.pushed (h : AlmId) (targets : List UpdateTarget) (img : List Byte) (s : State) : Nat × State :=
  targets.foldl (fun (acc : Nat × State) t => (if acc.1 = 0 then (acc.2.stageOne h img t).1 else acc.1, (acc.2.stageOne h img t).2)) (0, s)
theorem State.pushed_pkgs (h : AlmId) (targets : List UpdateTarget) (img : List Byte) (s : State) : (s.pushed h targets img).2.pkgs = s.pkgs :=
  List.foldlRecOn (motive := fun acc : Nat × State => acc.2.pkgs = s.pkgs) targets _ rfl fun acc hacc t _ =>
    (acc.2.stageOne_pkgs h img t).trans hacc
/-- An image for a PKC of the rack is staged by its tray controller. -/
theorem State.stageOne_pkc {p : PkgId} {img : List Byte} (hp : p.rack = h.rack) (hk : isKeyRecord img = false) : s.stageOne h img (.pkc p) =
    (((s.tray (PkgId.tray p)).stage 1 p.position img).1, s.setTray (PkgId.tray p) ((s.tray (PkgId.tray p)).stage 1 p.position img).2) := by
  unfold State.stageOne
  dsimp only
  rw [hk, if_neg Bool.noConfusion, if_neg (not_not.2 (show (PkgId.tray p).rack = h.rack from hp))]

section
variable (hh : s.helmActs a.rack h)
include hh
theorem exec_updatePush (ts : List UpdateTarget) (img : List Byte) : exec (.updatePush a ts img) s =
    .next ((s.pushed h ts img).2.http a (if (s.pushed h ts img).1 = 0 then 200 else 400) (failName (s.pushed h ts img).1)) :=
  congrArg Host.Outcome.next (State.operator_helm _ hh)
theorem operator_pushes (ts : List UpdateTarget) (img : List Byte) : ∃ t, exec (.updatePush a ts img) s = .next t ∧ t.pkgs = s.pkgs :=
  ⟨_, exec_updatePush hh ts img, (State.http_logged ..).pkgs.trans (s.pushed_pkgs ..)⟩
theorem operator_push (p : PkgId) (img : List Byte) (hp : p.rack = h.rack) (hk : isKeyRecord img = false) :
    let r := (s.tray (PkgId.tray p)).stage 1 p.position img
    exec (.updatePush a [.pkc p] img) s =
      .next ((s.setTray (PkgId.tray p) r.2).http a (if r.1 = 0 then 200 else 400) (failName r.1)) := by
  intro r
  have h1 : s.pushed h [.pkc p] img = (r.1, s.setTray (PkgId.tray p) r.2) := State.stageOne_pkc hp hk
  rw [exec_updatePush hh, h1]

/-! ### The hand-over -/

/-- The helm stands by. -/
def AlmSt.steppedDown (now : Nat) (x : AlmSt) : AlmSt := { x.leave .standby with heardAt := now, takeEpoch := none }
/-- The helm has relinquished, and stands by. -/
def State.relinquishing (h : AlmId) (s : State) : State :=
  (s.sendAction h h.rack.val .relinquish).setAlm h (((s.sendAction h h.rack.val .relinquish).alm h).steppedDown s.now)
/-- The peer takes over at once. -/
def AlmSt.takesOver (now : Nat) (high : Word) (x : AlmSt) : AlmSt := { x with knownHigh := high }.sendTake now
theorem exec_handOver : exec (.handOver a) s = .next (
    if (s.alm (AlmId.peer h)).role ≠ .standby then s.http a 400 "STANDBY_LOST"
    else ((s.relinquishing h).setAlm (AlmId.peer h) (((s.relinquishing h).alm (AlmId.peer h)).takesOver s.now
      (maxWord ((s.relinquishing h).alm (AlmId.peer h)).knownHigh ((s.sendAction h h.rack.val .relinquish).alm h).log.epoch))).http a 200 "OK") :=
  congrArg Host.Outcome.next (State.operator_helm _ hh)
theorem State.relinquishing_alm : (s.relinquishing h).alm h = ((s.sendAction h h.rack.val .relinquish).alm h).steppedDown s.now ∧
    Msg.fenced h.rack.val (s.alm h).log.epoch .relinquish ∈ ((s.sendAction h h.rack.val .relinquish).alm h).out :=
  ⟨State.alm_setAlm_same .., (State.sendAction_acted (State.helm_self hh)).told⟩
omit hh in
theorem AlmSt.takesOver_spec (now : Nat) (high : Word) (x : AlmSt) : ∃ e, (x.takesOver now high).takeEpoch = some e ∧
    Msg.takeMsg e ∈ (x.takesOver now high).out := ⟨_, rfl, List.mem_append_right _ (List.mem_singleton.2 rfl)⟩
omit hh in
/-- A state whose helm has stepped down for its peer. -/
theorem State.handedOver {x y : AlmSt} {m : Msg} {n : Nat} (a : AlmId) (hx : u.alm h = x.steppedDown n) (hm : m ∈ x.out) (e : Word) (he : y.takeEpoch = some e)
    (hy : Msg.takeMsg e ∈ y.out) : (((u.setAlm (AlmId.peer h) y).http a 200 "OK").alm h).role = .standby ∧
      m ∈ (((u.setAlm (AlmId.peer h) y).http a 200 "OK").alm h).out ∧
      (((u.setAlm (AlmId.peer h) y).http a 200 "OK").alm (AlmId.peer h)).takeEpoch = some e ∧
      Msg.takeMsg e ∈ (((u.setAlm (AlmId.peer h) y).http a 200 "OK").alm (AlmId.peer h)).out := by
  have h1 : (u.setAlm (AlmId.peer h) y).alm h = x.steppedDown n := (State.alm_setAlm_ne _ _ (AlmId.peer_ne h).symm).trans hx
  have h2 : (u.setAlm (AlmId.peer h) y).alm (AlmId.peer h) = y := State.alm_setAlm_same ..
  generalize u.setAlm (AlmId.peer h) y = v at h1 h2
  have hl := v.http_logged a 200 "OK"
  refine ⟨(hl.role h).trans (by rw [h1]; rfl), hl.out _ _ (by rw [h1]; exact hm), ?_, hl.out _ _ (by rw [h2]; exact hy)⟩
  exact (congrArg AlmSt.takeEpoch (hl.shell _) :).trans (by rw [h2]; exact he)
theorem operator_handOver (hp : (s.alm (AlmId.peer h)).role = .standby) : ∃ t, exec (.handOver a) s = .next t ∧ (t.alm h).role = .standby ∧
    Msg.fenced h.rack.val (s.alm h).log.epoch .relinquish ∈ (t.alm h).out ∧ ∃ e, (t.alm (AlmId.peer h)).takeEpoch = some e ∧
      Msg.takeMsg e ∈ (t.alm (AlmId.peer h)).out := by
  obtain ⟨hx, hm⟩ := State.relinquishing_alm hh
  have hexec := exec_handOver hh
  rw [if_neg (not_not.2 hp)] at hexec
  generalize s.relinquishing h = u at hx hexec
  generalize (s.sendAction h h.rack.val .relinquish).alm h = x at hx hm hexec
  obtain ⟨e, he, hy⟩ := AlmSt.takesOver_spec s.now (maxWord (u.alm (AlmId.peer h)).knownHigh x.log.epoch) (u.alm (AlmId.peer h))
  obtain ⟨h1, h2, h3, h4⟩ := State.handedOver a hx hm e he hy
  exact ⟨_, hexec, h1, h2, e, h3, h4⟩

/-! ### PSU and pump updates -/

/-- The rack with a PSU that fails. -/
def RackSt.psuLost (n : Nat) (x : RackSt) : RackSt := { x with psuFault := addTo x.psuFault n }
/-- The rack with a pump that fails. -/
def RackSt.pumpLost (n : Nat) (x : RackSt) : RackSt := { x with pumpBad := addTo x.pumpBad n }
theorem exec_unitUpdate_psu (n : Fin 36) (ok : Bool) : exec (.unitUpdate a.rack (.psu n) ok) s = .next (
    if ((s.rack a.rack).psuLost n.val).single < (s.alm h).log.siteCapW then s.http h 400 "UPDATE_SHORT"
    else if ok then s.http h 200 "OK"
    else ((s.supplyChange a.rack (RackSt.psuLost n.val)).alarmSet a.rack "PSU_DEAD" true).http h 200 "OK") :=
  congrArg Host.Outcome.next (State.operator_helm (at_ := ⟨a.rack, false⟩) _ hh)
theorem exec_unitUpdate_pump (n : Fin 2) (ok : Bool) : exec (.unitUpdate a.rack (.pump n) ok) s = .next (
    if (s.rack a.rack).pumpBad.contains (1 - n.val) then s.http h 400 "UPDATE_SHORT"
    else if ok then s.http h 200 "OK"
    else ((s.setRack a.rack ((s.rack a.rack).pumpLost n.val)).alarmSet a.rack "PUMP_DEAD" true).http h 200 "OK") :=
  congrArg Host.Outcome.next (State.operator_helm (at_ := ⟨a.rack, false⟩) _ hh)
omit hh in
/-- An alarm set before the answer stands in the helm's log. -/
theorem State.alarm_answered (name : String) (hu : u.helm a.rack = some h) :
    ((((u.alarmSet a.rack name true).http h 200 "OK").alm h).log.alarms.contains name) = true := by
  rw [State.http, State.setAlm_emit_log]
  exact State.alarmSet_contains name true hu
theorem State.helm_supplyChange (f : RackSt → RackSt) : (s.supplyChange a.rack f).helm a.rack = some h := by
  have hr : (s.setRack a.rack (f (s.rack a.rack))).Recapped a.rack (s.supplyChange a.rack f) :=
    (State.judgeMode_recapped a.rack true _).trans (State.recapRack_recapped ..)
  exact (hr.helm a.rack).trans hh.1
theorem operator_psu (n : Fin 36) (hs : (s.alm h).log.siteCapW ≤ ((s.rack a.rack).psuLost n.val).single) :
    exec (.unitUpdate a.rack (.psu n) true) s = .next (s.http h 200 "OK") ∧
      ∃ t, exec (.unitUpdate a.rack (.psu n) false) s = .next t ∧ (t.rack a.rack).psuFault.contains n.val = true ∧
        (t.alm h).log.alarms.contains "PSU_DEAD" = true := by
  have het := exec_unitUpdate_psu hh n true
  have hef := exec_unitUpdate_psu hh n false
  rw [if_neg (Nat.not_lt.2 hs), if_pos rfl] at het
  rw [if_neg (Nat.not_lt.2 hs), if_neg Bool.noConfusion] at hef
  refine ⟨het, _, hef, ?_, State.alarm_answered "PSU_DEAD" (State.helm_supplyChange hh _)⟩
  have hf := RackSt.of_supply (fun z => z.psuFault) (State.supplyChange_supply a.rack (RackSt.psuLost n.val) s) fun _ => rfl
  change ((((s.supplyChange a.rack (RackSt.psuLost n.val)).alarmSet a.rack "PSU_DEAD" true).http h 200 "OK").rack a.rack).psuFault.contains n.val = true
  rw [((State.alarmSet_logged "PSU_DEAD" true).trans (State.http_logged h 200 "OK")).rackSame, hf]
  exact addTo_contains ..
theorem operator_pump (n : Fin 2) (hs : (s.rack a.rack).pumpBad.contains (1 - n.val) = false) :
    exec (.unitUpdate a.rack (.pump n) true) s = .next (s.http h 200 "OK") ∧
      ∃ t, exec (.unitUpdate a.rack (.pump n) false) s = .next t ∧ (t.rack a.rack).pumpBad.contains n.val = true ∧
        (t.alm h).log.alarms.contains "PUMP_DEAD" = true := by
  have hne : ¬ (s.rack a.rack).pumpBad.contains (1 - n.val) = true := by rw [hs]; exact Bool.noConfusion
  have het := exec_unitUpdate_pump hh n true
  have hef := exec_unitUpdate_pump hh n false
  rw [if_neg hne, if_pos rfl] at het
  rw [if_neg hne, if_neg Bool.noConfusion] at hef
  refine ⟨het, _, hef, ?_, State.alarm_answered "PUMP_DEAD" hh.1⟩
  change ((((s.setRack a.rack ((s.rack a.rack).pumpLost n.val)).alarmSet a.rack "PUMP_DEAD" true).http h 200 "OK").rack a.rack).pumpBad.contains n.val = true
  rw [((State.alarmSet_logged "PUMP_DEAD" true).trans (State.http_logged h 200 "OK")).rackSame, State.rack_setRack_same]
  exact addTo_contains ..
end

/-- Settles O51: where no helm may act by `operator_no`, and else request by request. -/
theorem operatorActions : Obligations.OperatorActions := by
  unfold Obligations.OperatorActions
  intro s a no bad
  refine ⟨operator_no s a, fun h hh => ?_⟩
  intro l sent
  refine ⟨fun service t0 => ?_, operator_abort hh, fun p q hp => operator_foreign hh p q hp,
    fun p q hp => operator_release hh p q hp,
    fun n hn => (exec_rackNumberSet hh n).trans (congrArg Host.Outcome.next (if_pos hn)), operator_rackNumber hh, operator_pushes hh, operator_push hh,
    fun t ht => (exec_activate hh t).trans (congrArg Host.Outcome.next (if_pos ht)), operator_activate hh,
    fun hp => (exec_handOver hh).trans (congrArg Host.Outcome.next (if_pos hp)), operator_handOver hh,
    fun n ok => ⟨fun hs => (exec_unitUpdate_psu hh n ok).trans (congrArg Host.Outcome.next (if_pos hs)), operator_psu hh n⟩,
    fun n ok => ⟨fun hs => (exec_unitUpdate_pump hh n ok).trans (congrArg Host.Outcome.next (if_pos hs)), operator_pump hh n⟩⟩
  intro img
  obtain ⟨h1, h2⟩ := toTurn_spec l service
  exact ⟨h1, h2, operator_turns hh service t0⟩
end Sys2Proof.Machine
end

section
/-! PROOF. What the writes of step 5 leave of a package's PKC (R288, R330, R334), and FLT_BOOT. -/
namespace Sys2Proof.Machine
open Sys2Proof

variable {i j k : Pkg} {s : State} {p : PkgId} {now t off v : Nat} {m : Mem}

/-! ### Queries that end -/

theorem writeOrWait_wired (now : Nat) (p : PkgId) (c a : Nat) (d : List Byte) (m : Mem) (k : Pkg) : k.Wired (writeOrWait now p c a d m k).2.1 := by
  unfold writeOrWait
  split
  · exact (Pkg.Wired.wakeFor c k).trans (.mem ..)
  · exact writeResult_wired ..
theorem engineContribute_wired (now : Nat) (p : PkgId) (t tree : Nat) (b : List Byte) (status : Byte) (l : List Byte) (m : Mem) (k : Pkg) :
    k.Wired (engineContribute now p t tree b status l m k).2 := by
  unfold engineContribute
  split
  · exact .refl k
  · exact (Pkg.Wired.tallyPut ..).trans (tallySettle_wired ..)
theorem Pkg.Wired.setRg (o : Nat) (w : Word) (k : Pkg) : k.Wired (k.setRg o w) := .of_rt rfl (fun _ h => h) rfl rfl
/-- The local record of a query that ends. -/
def queryRecord (now : Nat) (p : PkgId) (t : Nat) (b : List Byte) (code : Nat) (entries : List Nat) (scanned skipped ns : Nat) (m : Mem) (k : Pkg) :
    Mem × Pkg :=
  if qWrite b ∧ k.get (F.BRG_QCFG_STEWARD t) < 192 then
    ((writeOrWait now p (k.get (F.BRG_QCFG_STEWARD t)) (qLocal b % 2 ^ 44) (localRecord b code entries scanned skipped ns) m k).1,
      (writeOrWait now p (k.get (F.BRG_QCFG_STEWARD t)) (qLocal b % 2 ^ 44) (localRecord b code entries scanned skipped ns) m k).2.1)
  else (m, k)
/-- Its contribution. -/
def queryTold (now : Nat) (p : PkgId) (t : Nat) (b : List Byte) (tree : Option Nat) (code : Nat) (entries : List Nat) (r : Mem × Pkg) : Mem × Pkg :=
  match (if qTally b then outcomeStatus code else none), tree with
  | some st, some tree => engineContribute now p t tree b st
      (if entries = [] then List.replicate 8 0xFF else (entries.take (qKMerge b)).flatMap (leBytes 8)) r.1 r.2
  | _, _ => r
/-- BRG_LAST and the counters. -/
def Pkg.queryNoted (t : Nat) (b : List Byte) (code n : Nat) (k : Pkg) : Pkg :=
  let k3 := (k.setRg (R.BRG_LAST t) (qRound b)).setRg (R.BRG_LAST_CODE t) (BitVec.ofNat 32 (n * 2 ^ 16 + code))
  if code = 2 then k3.count (F.BRG_EVENTS_QFULL t) 1
  else if code = 3 ∨ code = 4 ∨ code = 5 then k3.count (F.BRG_EVENTS_REFUSED t) 1 else k3
theorem endQuery_eq (now : Nat) (p : PkgId) (t : Nat) (b : List Byte) (tree : Option Nat) (code : Nat) (entries : List Nat) (scanned skipped ns : Nat)
    (m : Mem) (k : Pkg) : endQuery now p t b tree code entries scanned skipped ns m k =
      ((queryTold now p t b tree code entries (queryRecord now p t b code entries scanned skipped ns m k)).1,
        if qIrq b then ((queryTold now p t b tree code entries (queryRecord now p t b code entries scanned skipped ns m k)).2.queryNoted t b code
          entries.length).emit (.msix (60 + t))
        else (queryTold now p t b tree code entries (queryRecord now p t b code entries scanned skipped ns m k)).2.queryNoted t b code entries.length) := rfl
theorem queryRecord_wired (now : Nat) (p : PkgId) (t : Nat) (b : List Byte) (code : Nat) (entries : List Nat) (scanned skipped ns : Nat) (m : Mem)
    (k : Pkg) : k.Wired (queryRecord now p t b code entries scanned skipped ns m k).2 := by
  unfold queryRecord
  split
  · exact writeOrWait_wired ..
  · exact .refl k
theorem queryTold_wired (now : Nat) (p : PkgId) (t : Nat) (b : List Byte) (tree : Option Nat) (code : Nat) (entries : List Nat) (r : Mem × Pkg) :
    r.2.Wired (queryTold now p t b tree code entries r).2 := by
  unfold queryTold
  split
  · exact engineContribute_wired ..
  · exact .refl _
theorem Pkg.queryNoted_wired (t : Nat) (b : List Byte) (code n : Nat) (k : Pkg) : k.Wired (k.queryNoted t b code n) :=
  .trans ((Pkg.Wired.setRg ..).trans (.setRg ..)) (.ite (.count ..) (.ite (.count ..) (.refl _)))
theorem endQuery_wired (now : Nat) (p : PkgId) (t : Nat) (b : List Byte) (tree : Option Nat) (code : Nat) (entries : List Nat) (scanned skipped ns : Nat)
    (m : Mem) (k : Pkg) : k.Wired (endQuery now p t b tree code entries scanned skipped ns m k).2 := by
  have h := ((queryRecord_wired now p t b code entries scanned skipped ns m k).trans (queryTold_wired now p t b tree code entries _)).trans
    (Pkg.queryNoted_wired t b code entries.length _)
  rw [endQuery_eq]
  exact .ite (h.trans (.emit ..)) h
theorem Pkg.Wired.noteRound (t : Nat) (b : List Byte) (k : Pkg) : k.Wired (k.noteRound t b) := by
  unfold Pkg.noteRound
  split
  · exact .setTally ..
  · exact .refl k
theorem Pkg.Wired.setEngine (t : Nat) (x : BrgSt) (k : Pkg) : k.Wired (k.setEngine t x) := .of_rt rfl (fun _ h => h) rfl rfl
theorem takeQuery_wired (now : Nat) (p : PkgId) (t : Nat) (b : List Byte) (m : Mem) (k : Pkg) : k.Wired (takeQuery now p t b m k).2 := by
  have h : k.Wired ((k.power [384 + t, 388 + t]).put F.AON_PKG_STATE_S_FURLED 0) := (Pkg.Wired.of_onlyRegs (k.power_onlyRegs _)).trans (.put ..)
  unfold takeQuery
  split
  · exact .refl k
  · generalize (k.power [384 + t, 388 + t]).put F.AON_PKG_STATE_S_FURLED 0 = j at h
    dsimp only
    cases j.takeOutcome t b with
    | none => exact h.trans ((Pkg.Wired.noteRound ..).trans (.setEngine ..))
    | some code =>
      dsimp only
      split
      · exact h.trans (endQuery_wired ..)
      · exact h.trans ((Pkg.Wired.noteRound ..).trans (endQuery_wired ..))
theorem takeNoticed_wired (now : Nat) (p : PkgId) (m : Mem) (k : Pkg) : k.Wired (takeNoticed now p m k).2 := by
  have h := foldl_wired (f := fun (mk : Mem × Pkg) (w : Nat × List Byte) => takeQuery now p w.1 w.2 mk.1 mk.2)
    (fun mk w => takeQuery_wired now p w.1 w.2 mk.1 mk.2) k.mem.written (m, { k with mem := { k.mem with written := [] } })
  exact (Pkg.Wired.mem { k.mem with written := [] } k).trans h
theorem brgAbort_wired (now : Nat) (p : PkgId) (t : Nat) (m : Mem) (k : Pkg) : k.Wired (brgAbort now p t m k).2 := by
  have h := takeNoticed_wired now p m k
  unfold brgAbort
  generalize takeNoticed now p m k = r at h
  dsimp only
  exact (h.trans (.setEngine t {} r.2)).trans (foldl_wired
    (f := fun mk (q : Query) => endQuery now p t q.block q.tree 8 [] 0 0 0 mk.1 mk.2) (fun mk q => endQuery_wired ..) _ (r.1, r.2.setEngine t {}))

/-! ### The PKC while units are isolated -/

theorem Pkg.portDo_pkc (now q : Nat) (f : PortSt → PortStep) (k : Pkg) : (k.portDo now q f).pkc = k.pkc := by
  have h : (k.linkStep now q (f (k.port q))).pkc = k.pkc := (Pkg.Wired.foldl (fun k e => .linkEv now q e k) _ (k.setPort q _)).pkc
  unfold Pkg.portDo
  dsimp only
  split
  · exact (Pkg.Wired.moveToFallback ..).pkc.trans h
  · exact h
theorem Pkg.tileLinksDown_pkc (now f : Nat) (k : Pkg) : (k.tileLinksDown now f).pkc = k.pkc := by
  refine List.foldlRecOn (motive := fun j : Pkg => j.pkc = k.pkc) _ _ rfl fun j hj i _ => ?_
  dsimp only
  split
  · exact hj
  · exact (Pkg.Wired.moveToFallback ..).pkc.trans hj
theorem Pkg.stackLost_pkc (n : Nat) (k : Pkg) : (k.stackLost n).pkc = k.pkc := by
  have h := (k.csuStop_darkened 5 fun x => x.space = 0 && inStack n x.off x.len).pkc
  unfold Pkg.stackLost
  generalize k.csuStop 5 _ = j at h
  exact h
theorem isolate_pkc {u : Nat} (hu : u < 248) (now : Nat) (p : PkgId) (m : Mem) (k : Pkg) : (isolate now p u m k).2.pkc = k.pkc := by
  unfold isolate
  dsimp only
  generalize (if k.quarBit u = true then DarkCause.fence else DarkCause.reset) = cause
  split_ifs
  · exact (k.goDark_darkened now (coreUnit u) cause).pkc
  · exact (k.goDark_darkened now (ctileUnit (u - 192)) cause).pkc
  · exact (brgAbort_wired now p (u - 196) m k).pkc
  · exact k.stackLost_pkc (u - 200)
  · exact k.portDo_pkc now (u - 208) (fun x => x.holdDown now)
  · have h := (k.goDark_darkened now (ftileUnit (u - 232)) cause).pkc
    generalize k.goDark now (ftileUnit (u - 232)) cause = j at h ⊢
    have h2 := j.tileLinksDown_pkc now (u - 232)
    rw [h] at h2
    exact h2
  · rfl
  · exact (k.csuReset_darkened (us := [u - 238]) (fun x hx => by rw [List.mem_singleton] at hx; omega)).pkc
  all_goals omega
theorem quarSet_pkc (now : Nat) (p : PkgId) (i old new : Nat) (m : Mem) (k : Pkg) : (quarSet now p i old new m k).2.pkc = k.pkc := by
  refine List.foldlRecOn (motive := fun r : Mem × Pkg => r.2.pkc = k.pkc) _ _ rfl fun r hr b hb => ?_
  have hb := (List.mem_filter.1 hb).2
  simp only [Bool.and_eq_true, decide_eq_true_eq] at hb
  exact (isolate_pkc hb.2 ..).trans hr

/-! ### The writes of step 5 -/

/-- The registers that step 5 writes before the cap. -/
def fiveRegs : List Nat := [R.FLT_QUAR 0, R.FLT_BOOT, R.PWR_GUARD 0, R.PWR_AGE_HOURS, R.THR_RESIST_EST]
theorem busAct_pkc {d : RegDesc} (hb : d.base ∈ fiveRegs) (x : Bus) (off : Nat) (w : Word) (m : Mem) (k : Pkg) :
    (busAct x d off w m k).2.pkc = k.pkc := by
  unfold busAct
  dsimp only
  simp only [fiveRegs, List.mem_cons, List.not_mem_nil, or_false] at hb
  rcases hb with hb | hb | hb | hb | hb <;> rw [hb]
  · rfl
  · rfl
  · change (if regRow d off < 4 then k.takeGuard (regRow d off) else k).pkc = k.pkc
    split <;> rfl
  · rfl
  · rfl
theorem busWrite_pkc {d : RegDesc} (hb : d.base ∈ fiveRegs) (x : Bus) (off : Nat) (w : Word) (m : Mem) (k : Pkg) :
    (busWrite x d off w m k).2.pkc = k.pkc := by
  have hact := busAct_pkc hb x off w m (k.storeFields d off w)
  unfold busWrite
  dsimp only
  by_cases hi : k.ignores x d off w.toNat = true
  · rw [if_pos hi]
  rw [if_neg hi]
  by_cases hr : k.rejects d.base w.toNat = true
  · rw [if_pos hr]
    cases rejectFlag d.base <;> rfl
  rw [if_neg hr]
  simp only [fiveRegs, List.mem_cons, List.not_mem_nil, or_false] at hb
  rcases hb with hb | hb | hb | hb | hb <;> rw [hb]
  · exact quarSet_pkc x.now x.p (regRow d off) (k.rg off).toNat w.toNat m (k.storeFields d off w)
  all_goals exact hact
/-- A write by the tray controller that touches no PKC leaves the package's as it is. -/
theorem State.cwWrite_pkc {d : RegDesc} (hd : findReg off = some d) (hl : off < 2 ^ 24)
    (hw : ∀ (x : Bus) (w : Word) (m : Mem) (k : Pkg), (busWrite x d off w m k).2.pkc = k.pkc) (s : State) (p : PkgId) (v : Nat) :
    ((s.cwWrite p off v).pkg p).pkc = (s.pkg p).pkc := by
  have hwoken : ((s.wokenFor p off v).pkg p).pkc = (s.pkg p).pkc := by
    rcases s.wokenFor_pkg p off v with e | e
    · rw [e]
    · rw [e, Pkg.wakeBlock_pkc]
  rw [← hwoken]
  change ((((s.wokenFor p off v).busPerform p (writeOp .cw off (BitVec.ofNat 32 v)) true).2).pkg p).pkc = _
  generalize s.wokenFor p off v = t
  have hone (x : Bus) (w : Word) (m : Mem) (k : Pkg) (r) (h : busOne x off 4 (some w) m k = some r) : r.2.2.pkc = k.pkc := by
    unfold busOne at h
    rw [Nat.mod_eq_of_lt hl, hd] at h
    split at h
    · cases h
    · cases h
      exact hw ..
  have hrun : (t.busRun p (writeOp .cw off (BitVec.ofNat 32 v)) true).2.2.2.pkc = (t.pkg p).pkc := by
    unfold State.busRun writeOp
    dsimp only
    unfold busWords
    dsimp only
    split
    · rfl
    · next r hr => exact hone _ _ _ _ _ hr
  rw [State.busPerform_eq]
  unfold State.busLeaves
  dsimp only
  rw [if_pos rfl]
  generalize (t.busRun p (writeOp .cw off (BitVec.ofNat 32 v)) true) = r at hrun
  split
  · refine (State.loseLender_darkened ..).pkc.trans ?_
    rw [State.pkg_setPkg_same]
    exact hrun
  · rw [State.pkg_setPkg_same]
    exact hrun
end Sys2Proof.Machine
end

section
/-! PROOF. Step 5 of bring-up at the package (R288, R330, R334, R368): FLT_BOOT counts the boot. -/
namespace Sys2Proof.Machine
open Sys2Proof

variable {j k : Pkg} {s : State} {p : PkgId} {t : TrayId} {pos : Fin 4} {v : Nat}

def bootDesc : RegDesc := ⟨"FLT_BOOT", 0x3002c, 1, 0x0, 1, 0x0, 0x0, 0xffff, 0x0, 0x0, 0x0, 0, 1⟩
theorem findReg_FLT_BOOT : findReg R.FLT_BOOT = some bootDesc := by decide +kernel
theorem findReg_FLT_QUAR : ∀ i : Fin 8, findReg (R.FLT_QUAR i.val) =
    some ⟨"FLT_QUAR", 0x30300, 8, 0x4, 1, 0x0, 0x0, 0xffffffff, 0x0, 0x0, 0x0, 0, 1⟩ := by decide +kernel
theorem findReg_PWR_GUARD : ∀ n : Fin 8, findReg (R.PWR_GUARD n.val) =
    some ⟨"PWR_GUARD", 0x40060, 8, 0x4, 1, 0x0, 0x2d, 0x3f, 0x0, 0x0, 0x0, 0, 1⟩ := by decide +kernel
theorem findReg_PWR_AGE_HOURS : findReg R.PWR_AGE_HOURS =
    some ⟨"PWR_AGE_HOURS", 0x40080, 1, 0x0, 1, 0x0, 0x0, 0xfffff, 0x0, 0x0, 0x0, 0, 1⟩ := by decide +kernel
theorem findReg_THR_RESIST_EST : findReg R.THR_RESIST_EST =
    some ⟨"THR_RESIST_EST", 0x50000, 1, 0x0, 1, 0x0, 0x0, 0xffff, 0x0, 0x0, 0x0, 0, 1⟩ := by decide +kernel
/-- A register that step 5 writes before the cap. -/
def FiveReg (o : Nat) : Prop := ∃ d, findReg o = some d ∧ d.base ∈ fiveRegs ∧ o < 2 ^ 24
theorem fiveReg_guard {n : Nat} (h : n < 8) : FiveReg (R.PWR_GUARD n) :=
  ⟨_, findReg_PWR_GUARD ⟨n, h⟩, by decide, by unfold R.PWR_GUARD; omega⟩
theorem fiveReg_quar {n : Nat} (h : n < 8) : FiveReg (R.FLT_QUAR n) :=
  ⟨_, findReg_FLT_QUAR ⟨n, h⟩, by decide, by unfold R.FLT_QUAR; omega⟩
/-- The writes before that of FLT_BOOT. -/
def State.recordWrites (t : TrayId) (pos : Fin 4) (p : PkgId) (s : State) : List (Nat × Nat) :=
  (match (s.tray t).record (s.posn t pos).serial with
    | some r => (List.range 8).map (fun n => (R.PWR_GUARD n, r.guards.getD n 45)) ++ [(R.PWR_AGE_HOURS, r.hours), (R.THR_RESIST_EST, r.resist)]
    | none => []) ++
  ((List.range 8).map fun i => (R.FLT_QUAR i, quarWord (s.quarantined p) i)).filter (fun e => e.2 ≠ 0)
theorem State.recordWrites_regs (t : TrayId) (pos : Fin 4) (p : PkgId) (s : State) : ∀ e ∈ s.recordWrites t pos p, FiveReg e.1 := by
  intro e he
  rcases List.mem_append.1 he with he | he
  · cases hr : (s.tray t).record (s.posn t pos).serial with
    | none => rw [hr] at he; cases he
    | some r =>
      rw [hr] at he
      rcases List.mem_append.1 he with he | he
      · obtain ⟨n, hn, rfl⟩ := List.mem_map.1 he
        exact fiveReg_guard (List.mem_range.1 hn)
      · simp only [List.mem_cons, List.not_mem_nil, or_false] at he
        rcases he with rfl | rfl
        · exact ⟨_, findReg_PWR_AGE_HOURS, by decide, show R.PWR_AGE_HOURS < 2 ^ 24 by decide⟩
        · exact ⟨_, findReg_THR_RESIST_EST, by decide, show R.THR_RESIST_EST < 2 ^ 24 by decide⟩
  · obtain ⟨n, hn, rfl⟩ := List.mem_map.1 (List.mem_filter.1 he).1
    exact fiveReg_quar (List.mem_range.1 hn)
/-- They leave the PKC as it is. -/
theorem State.cwWrites_pkc (p : PkgId) : ∀ (l : List (Nat × Nat)) (s : State), (∀ e ∈ l, FiveReg e.1) →
    ((l.foldl (fun s e => s.cwWrite p e.1 e.2) s).pkg p).pkc = (s.pkg p).pkc
  | [], _, _ => rfl
  | e :: l, s, h => by
    obtain ⟨⟨d, hd, hb, ho⟩, hl⟩ := List.forall_mem_cons.1 h
    rw [List.foldl_cons, State.cwWrites_pkc p l _ hl]
    exact State.cwWrite_pkc hd ho (fun x w m k => busWrite_pkc hb x _ w m k) s p e.2
theorem busWrite_FLT_BOOT {x : Bus} (h : k.pkc.run = .reset) (w : Word) (m : Mem) :
    busWrite x bootDesc R.FLT_BOOT w m k = (m, k.storeFields bootDesc R.FLT_BOOT w) := by
  have hi : k.ignores x bootDesc R.FLT_BOOT w.toNat = !decide (k.pkc.run = .reset) := rfl
  have hr : k.rejects bootDesc.base w.toNat = false := rfl
  unfold busWrite
  dsimp only
  rw [hi, hr, h]
  rfl
/-- FLT_BOOT takes what the tray controller writes while the PKC is in reset. -/
theorem State.cwWrite_boot (h : (s.pkg p).pkc.run = .reset) : ((s.cwWrite p R.FLT_BOOT v).pkg p).get F.FLT_BOOT_BOOT = v % 65536 := by
  have hp : ((s.wokenFor p R.FLT_BOOT v).pkg p).pkc.run = .reset := by
    rcases s.wokenFor_pkg p R.FLT_BOOT v with e | e
    · rw [e]; exact h
    · rw [e, Pkg.wakeBlock_pkc]; exact h
  rw [State.cwWrite_open findReg_FLT_BOOT (by decide) (by decide) (by decide) (busWrite_FLT_BOOT hp _ _) rfl]
  refine (Pkg.get_storeFields_rw (d := bootDesc) (off := R.FLT_BOOT) (lo := 0) (n := 16) rfl (by decide) (by decide) _ _).trans ?_
  simp [bits, BitVec.toNat_ofNat]
/-- A cap that the tray controller writes leaves the other registers. -/
theorem State.cwWrite_cap_rg {o : Nat} (h : 0x10000 ≤ o) (h1 : o ≠ R.PWR_LADDER_CAP) (h2 : o ≠ R.PWR_CAP_STATUS) (s : State) (p : PkgId) (v : Nat) :
    ((s.cwWrite p R.PWR_LADDER_CAP v).pkg p).rg o = (s.pkg p).rg o := by
  have hw : (s.cwWrite p R.PWR_LADDER_CAP v).pkg p =
      ((s.wokenFor p R.PWR_LADDER_CAP v).pkg p).capWrite F.PWR_LADDER_CAP_CAP (BitVec.ofNat 32 v) :=
    State.cwWrite_open (d := ladderCapDesc) findReg_PWR_LADDER_CAP (by decide) (by decide) (by decide) (busWrite_PWR_LADDER_CAP rfl ..)
      (Pkg.capWrite_pkgDark ..)
  rw [hw, ← State.rg_wokenFor h (off := R.PWR_LADDER_CAP) (.inl (by decide)) s p v]
  by_cases hc : capOk ((BitVec.ofNat 32 v).toNat % 2048) = true
  · exact (Pkg.capWrite_taken (f := F.PWR_LADDER_CAP_CAP) ⟨rfl, rfl⟩ (by decide) _ hc).2.2.2.2 o h1 h2
  · exact (Pkg.capWrite_rejected F.PWR_LADDER_CAP_CAP _ hc).2.2.2 o h2
/-- After step 5 FLT_BOOT counts the boot. -/
theorem State.stepFive_boot (t : TrayId) (pos : Fin 4) (p : PkgId) (s : State) (h : (s.pkg p).pkc.run = .reset) :
    ((s.stepFive t pos p).pkg p).get F.FLT_BOOT_BOOT = ((s.tray t).fiveAt pos.val).mirrorBoot % 65536 := by
  have hl : s.fiveWrites t pos p = s.recordWrites t pos p ++ [(R.FLT_BOOT, ((s.tray t).fiveAt pos.val).mirrorBoot)] ++
    (match (s.posn t pos).held with
      | some w => [(R.PWR_LADDER_CAP, w)]
      | none => []) := rfl
  have hw : ((s.fiveWritten t pos p).pkg p).get F.FLT_BOOT_BOOT = ((s.tray t).fiveAt pos.val).mirrorBoot % 65536 := by
    unfold State.fiveWritten
    rw [hl, List.foldl_append, List.foldl_append]
    have hrun := State.cwWrites_pkc p (s.recordWrites t pos p) (s.setPosn t pos ((s.tray t).fiveAt pos.val)) (s.recordWrites_regs t pos p)
    generalize List.foldl _ _ (s.recordWrites t pos p) = u at hrun
    have hboot : ((u.cwWrite p R.FLT_BOOT ((s.tray t).fiveAt pos.val).mirrorBoot).pkg p).get F.FLT_BOOT_BOOT =
      ((s.tray t).fiveAt pos.val).mirrorBoot % 65536 := State.cwWrite_boot (by rw [hrun]; exact h)
    rw [List.foldl_cons, List.foldl_nil]
    generalize u.cwWrite p R.FLT_BOOT ((s.tray t).fiveAt pos.val).mirrorBoot = v at hboot
    cases (s.posn t pos).held with
    | none => exact hboot
    | some w => exact (Pkg.get_of_rg (State.cwWrite_cap_rg (by decide) (by decide) (by decide) v p w)).trans hboot
  have hs : ((s.fiveServed t pos p).pkg p).get F.FLT_BOOT_BOOT = ((s.tray t).fiveAt pos.val).mirrorBoot % 65536 := by
    unfold State.fiveServed
    rw [State.pkg_setPkg_same, Pkg.get, Pkg.rg, Pkg.draServed_regs]
    exact hw
  rw [State.stepFive_eq]
  split
  · unfold State.writeAddress
    rw [State.pkg_setPkg_same, Pkg.get, Pkg.rg, Pkg.draServed_regs]
    exact (Pkg.get_put_reg_ne _ _ _ _ (by decide)).trans hs
  · exact hs
end Sys2Proof.Machine
end

section
/-! PROOF. Obligation O47: bring-up of a package by its tray controller (R36, R284–R290, R297, R367). -/
namespace Sys2Proof.Machine
open Sys2Proof

variable {j k : Pkg} {s u : State} {p : PkgId} {t : TrayId} {pos : Fin 4} {x : PosSt}

/-! ### Steps 1 to 4 -/

theorem State.bringUp_latched (h : (s.posn t pos).latchOpen = true) : s.bringUp t pos = s := by
  unfold State.bringUp
  cases TrayId.pkgAt t pos with
  | none => rfl
  | some p => exact if_pos (by rw [h]; simp)
theorem State.bringUp_held (h : (s.posn t pos).blocked = true ∨ (s.posn t pos).shutdownHold = true) : s.bringUp t pos = s := by
  unfold State.bringUp
  cases TrayId.pkgAt t pos with
  | none => rfl
  | some p => exact if_pos (by rcases h with h | h <;> rw [h] <;> simp)
/-- A board position whose module may be brought up. -/
structure PosSt.Ready (x : PosSt) : Prop where
  present : x.present = true
  latchOpen : x.latchOpen = false
  blocked : x.blocked = false
  shutdownHold : x.shutdownHold = false
theorem State.bringUp_ready (ht : TrayId.pkgAt t pos = some p) (h : (s.posn t pos).Ready) : s.bringUp t pos =
    if !(s.rack t.rack).flowProven || (s.tray t).busbarWait then s.setPosn t pos { s.posn t pos with step := 1 } else s.compareFlash t pos p := by
  unfold State.bringUp
  rw [ht]
  exact if_neg (by rw [h.present, h.latchOpen, h.blocked, h.shutdownHold]; simp)
theorem State.powerUp_off (h : (s.posn t pos).pwrGood = false) :
    s.powerUp t pos p = s.setPosn t pos { s.posn t pos with pwrEn := true, step := 3 } := if_neg (by rw [h]; exact Bool.noConfusion)
/-- The comparison of a module's flash with its golden image. -/
def State.flashMatches (t : TrayId) (p : PkgId) (g : Golden) (s : State) : Bool :=
  (s.tray t).matches ((s.pkg p).bankImg (s.pkg p).activeBank) g
theorem State.compareFlash_bare (h : (s.tray t).golden 1 pos.val = none) : s.compareFlash t pos p = s.powerUp t pos p := by
  unfold State.compareFlash
  rw [h]
theorem State.compareFlash_match {g : Golden} (h : (s.tray t).golden 1 pos.val = some g) (hm : s.flashMatches t p g = true) :
    s.compareFlash t pos p = (s.setPosn t pos { s.posn t pos with flashBad := false }).powerUp t pos p := by
  unfold State.compareFlash
  rw [h]
  exact if_pos hm
theorem State.compareFlash_differs {g : Golden} (h : (s.tray t).golden 1 pos.val = some g) (hm : s.flashMatches t p g = false) :
    s.compareFlash t pos p = s.setPosn t pos { s.posn t pos with step := 2 } := by
  unfold State.compareFlash
  rw [h]
  exact if_neg (by rw [show (s.tray t).matches ((s.pkg p).bankImg (s.pkg p).activeBank) g = false from hm]; exact Bool.noConfusion)

/-! ### MOD_PRESENT -/

/-- A board position at which a module is seated. -/
def PosSt.seated (serial : BitVec 64) (x : PosSt) : PosSt :=
  { x with
    present := true, serial := serial, unseated := x.latchOpen, indicator := false, misses := 0,
    flashBad := x.flashBad && !decide (x.serial ≠ serial), blocked := x.blocked && !decide (x.serial ≠ serial),
    shutdownHold := x.shutdownHold && !decide (x.serial ≠ serial),
    attestFails := if decide (x.serial ≠ serial) then 0 else x.attestFails }
/-- A module is seated: its flash holds no image where it is another one. -/
def State.seated (t : TrayId) (pos : Fin 4) (p : PkgId) (serial : BitVec 64) (s : State) : State :=
  let s1 := s.setPosn t pos ((s.posn t pos).seated serial)
  if decide ((s.posn t pos).serial ≠ serial) then
    s1.setPkg p ((((s1.pkg p).setUpd fun _ => {}).put F.UPD_STATUS_BANK_VALID 0).put F.UPD_STATUS_ACTIVE_BANK 0) else s1
theorem exec_modPresent (ht : TrayId.pkgAt t pos = some p) (serial : BitVec 64) : exec (.modPresent t pos serial) s =
    .next (if (s.posn t pos).latchOpen || (s.posn t pos).pwrEn then s.seated t pos p serial else (s.seated t pos p serial).bringUp t pos) := by
  change execModPresent t pos serial s = _
  unfold execModPresent
  rw [ht]
  rfl
theorem State.seated_atPos (t : TrayId) (pos : Fin 4) (p : PkgId) (serial : BitVec 64) (s : State) : s.AtPos t pos (s.seated t pos p serial) :=
  .ite (.trans (s.setPosn_atPos ..) (State.PkgsOnly.atPos (.setPkg ..) t pos)) (s.setPosn_atPos ..)
theorem State.posn_seated (t : TrayId) (pos : Fin 4) (p : PkgId) (serial : BitVec 64) (s : State) :
    (s.seated t pos p serial).posn t pos = (s.posn t pos).seated serial := by
  unfold State.seated
  dsimp only
  split
  · exact ((State.PkgsOnly.setPkg ..).posn t pos).trans (State.posn_setPosn_same ..)
  · exact State.posn_setPosn_same ..
theorem State.seated_same {serial : BitVec 64} (h : (s.posn t pos).serial = serial) (p : PkgId) :
    s.seated t pos p serial = s.setPosn t pos ((s.posn t pos).seated serial) := if_neg (by simp [h])
theorem PosSt.seated_ready {serial : BitVec 64} (h1 : x.latchOpen = false) (h2 : x.blocked = false) (h3 : x.shutdownHold = false) :
    (x.seated serial).Ready := ⟨rfl, h1, by simp [PosSt.seated, h2], by simp [PosSt.seated, h3]⟩
theorem PosSt.seated_blocked {serial : BitVec 64} (hs : x.serial = serial) (h : x.blocked = true) : (x.seated serial).blocked = true := by
  simp [PosSt.seated, hs, h]
theorem PosSt.seated_shutdownHold {serial : BitVec 64} (hs : x.serial = serial) (h : x.shutdownHold = true) :
    (x.seated serial).shutdownHold = true := by
  simp [PosSt.seated, hs, h]
theorem State.tray_golden (h : s.AtPos t pos u) (kind n : Nat) : (u.tray t).golden kind n = (s.tray t).golden kind n := by
  have h0 : (u.tray t).nor0 = (s.tray t).nor0 := (congrArg CwSt.nor0 h.shell :)
  have h1 : (u.tray t).nor1 = (s.tray t).nor1 := (congrArg CwSt.nor1 h.shell :)
  rw [CwSt.golden, h0, h1, ← CwSt.golden]
theorem State.tray_matches (h : s.AtPos t pos u) (img : List Byte) (g : Golden) : (u.tray t).matches img g = (s.tray t).matches img g := by
  have h0 : (u.tray t).keys = (s.tray t).keys := (congrArg CwSt.keys h.shell :)
  rw [CwSt.matches, h0, ← CwSt.matches]
theorem modPresents (s : State) (p : PkgId) (t : TrayId) (pos : Fin 4) (ht : TrayId.pkgAt t pos = some p) (serial : BitVec 64) :
    let c := s.tray t
    let x := s.posn t pos
    let free_ := x.latchOpen = false ∧ x.pwrEn = false ∧ x.pwrGood = false ∧ x.blocked = false ∧ x.shutdownHold = false
    ∃ u, exec (.modPresent t pos serial) s = .next u ∧ (u.posn t pos).present = true ∧ (u.posn t pos).serial = serial ∧
      ((x.latchOpen = true ∨ x.pwrEn = true) → (u.posn t pos).pwrEn = x.pwrEn) ∧
      (x.serial = serial → x.pwrEn = false → (x.blocked = true ∨ x.shutdownHold = true) → (u.posn t pos).pwrEn = false) ∧
      (free_ → ((s.rack t.rack).flowProven = false ∨ c.busbarWait = true) → (u.posn t pos).pwrEn = false ∧ (u.posn t pos).step = 1) ∧
      (free_ → x.serial = serial → (s.rack t.rack).flowProven = true → c.busbarWait = false →
        (∀ g, c.golden 1 pos.val = some g → s.flashMatches t p g = true → (u.posn t pos).pwrEn = true ∧ (u.posn t pos).step = 3 ∧
          (u.posn t pos).flashBad = false) ∧
        (c.golden 1 pos.val = none → (u.posn t pos).pwrEn = true ∧ (u.posn t pos).step = 3) ∧
        (∀ g, c.golden 1 pos.val = some g → s.flashMatches t p g = false → (u.posn t pos).pwrEn = false ∧ (u.posn t pos).step = 2)) := by
  intro c x free_
  have hat := s.seated_atPos t pos p serial
  have hx := s.posn_seated t pos p serial
  refine ⟨_, exec_modPresent ht serial, ?_⟩
  by_cases hb : (x.latchOpen || x.pwrEn) = true
  · rw [if_pos hb, hx]
    have hf : ¬ free_ := fun h => by rw [h.1, h.2.1] at hb; cases hb
    exact ⟨rfl, rfl, fun _ => rfl, fun _ h _ => h, fun h => absurd h hf, fun h => absurd h hf⟩
  · rw [if_neg hb]
    have hl : x.latchOpen = false := by cases h : x.latchOpen <;> simp_all
    have he : x.pwrEn = false := by cases h : x.pwrEn <;> simp_all
    have hc := (s.seated t pos p serial).core_bringUp t pos
    rw [hx] at hc
    have hready (h : free_) : ((s.seated t pos p serial).posn t pos).Ready := by
      obtain ⟨h1, _, _, h4, h5⟩ := h
      rw [hx]
      exact PosSt.seated_ready h1 h4 h5
    have hwait : (s.rack t.rack).flowProven = true → c.busbarWait = false →
        (!((s.seated t pos p serial).rack t.rack).flowProven || ((s.seated t pos p serial).tray t).busbarWait) = false := by
      intro h1 h2
      rw [hat.rack, hat.busbarWait, h1, h2]
      rfl
    refine ⟨PosSt.core_present hc, PosSt.core_serial hc, fun h => ?_, fun hs _ h => ?_, fun h hw => ?_, fun h hs hfl hbw => ⟨fun g hg hm => ?_, fun hg => ?_, fun g hg hm => ?_⟩⟩
    · rcases h with h | h
      · rw [hl] at h; cases h
      · rw [he] at h; cases h
    · rw [State.bringUp_held, hx]
      · exact he
      · rw [hx]
        rcases h with h | h
        · exact .inl (PosSt.seated_blocked hs h)
        · exact .inr (PosSt.seated_shutdownHold hs h)
    · rw [State.bringUp_ready ht (hready h), if_pos, State.posn_setPosn_same, hx]
      · exact ⟨he, rfl⟩
      · rw [hat.rack, hat.busbarWait]
        rcases hw with hw | hw <;> rw [hw] <;> simp
    all_goals
      rw [State.bringUp_ready ht (hready h), hwait hfl hbw, if_neg Bool.noConfusion, State.seated_same hs]
      have hat' := s.setPosn_atPos t pos (x.seated serial)
      have hgood : (x.seated serial).pwrGood = false := h.2.2.1
    · rw [State.compareFlash_match ((State.tray_golden hat' 1 pos.val).trans hg) ((State.tray_matches hat' ..).trans hm), State.posn_setPosn_same,
        State.powerUp_off (by rw [State.posn_setPosn_same]; exact hgood), State.posn_setPosn_same, State.posn_setPosn_same]
      exact ⟨rfl, rfl, rfl⟩
    · rw [State.compareFlash_bare ((State.tray_golden hat' 1 pos.val).trans hg),
        State.powerUp_off (by rw [State.posn_setPosn_same]; exact hgood), State.posn_setPosn_same]
      exact ⟨rfl, rfl⟩
    · rw [State.compareFlash_differs ((State.tray_golden hat' 1 pos.val).trans hg) ((State.tray_matches hat' ..).trans hm), State.posn_setPosn_same,
        State.posn_setPosn_same]
      exact ⟨he, rfl⟩

/-! ### The latch -/

theorem exec_modLatchOpen (level : Bool) : exec (.modLatchOpen t pos level) s =
    if level && (s.posn t pos).pwrEn then
      .next (((s.setPosn t pos { s.posn t pos with latchOpen := level, unseated := (s.posn t pos).unseated && level }).powerOff t pos).cwReport t
        "SWAP_FORCED" pos.val 0)
    else if !level && (s.posn t pos).unseated then
      .next ((s.setPosn t pos { s.posn t pos with latchOpen := level, unseated := (s.posn t pos).unseated && level }).bringUp t pos)
    else .next (s.setPosn t pos { s.posn t pos with latchOpen := level, unseated := (s.posn t pos).unseated && level }) := rfl
theorem State.cwReport_posn (t : TrayId) (name : String) (n data : Nat) (s : State) (pos : Fin 4) : (s.cwReport t name n data).posn t pos = s.posn t pos := by
  rw [State.cwReport, State.posn, State.tray_setTray_same]
  rfl
theorem State.cwReport_told (t : TrayId) (name : String) (n data : Nat) (s : State) : Msg.report name n data ∈ ((s.cwReport t name n data).tray t).out := by
  rw [State.cwReport, State.tray_setTray_same]
  exact List.mem_append_right _ (List.mem_singleton.2 rfl)
theorem latches (s : State) (t : TrayId) (pos : Fin 4) :
    let x := s.posn t pos
    (x.pwrEn = true → ∃ u, exec (.modLatchOpen t pos true) s = .next u ∧ (u.posn t pos).pwrEn = false ∧ (u.posn t pos).resetN = false ∧
      (u.posn t pos).latchOpen = true ∧ Msg.report "SWAP_FORCED" pos.val 0 ∈ (u.tray t).out) ∧
    (x.pwrEn = false → exec (.modLatchOpen t pos true) s = .next (s.setPosn t pos { x with latchOpen := true })) ∧
    (x.unseated = false → exec (.modLatchOpen t pos false) s = .next (s.setPosn t pos { x with latchOpen := false })) := by
  intro x
  refine ⟨fun h => ⟨_, (exec_modLatchOpen true).trans (if_pos h), ?_⟩, fun h => ?_, fun h => ?_⟩
  · rw [State.cwReport_posn, State.posn_powerOff, State.posn_setPosn_same]
    exact ⟨rfl, rfl, rfl, State.cwReport_told ..⟩
  · refine (exec_modLatchOpen true).trans (if_neg (by rw [show (s.posn t pos).pwrEn = false from h]; exact Bool.noConfusion) |>.trans
      (if_neg Bool.noConfusion |>.trans ?_))
    exact congrArg (fun b => (.next (s.setPosn t pos { s.posn t pos with latchOpen := true, unseated := b }) : Out)) (Bool.and_true _)
  · refine (exec_modLatchOpen false).trans (if_neg Bool.noConfusion |>.trans
      (if_neg (by rw [show (s.posn t pos).unseated = false from h]; exact Bool.noConfusion) |>.trans ?_))
    exact congrArg (fun b => (.next (s.setPosn t pos { s.posn t pos with latchOpen := false, unseated := b }) : Out))
      ((Bool.and_false _).trans (Eq.symm h))
end Sys2Proof.Machine
end

section
/-! PROOF. Obligation O47 at the package: MOD_PWR_GOOD, the PKC's release and the end of its boot (R36, R37, R286, R287, R378). -/
namespace Sys2Proof.Machine
open Sys2Proof

variable {j k : Pkg} {s u : State} {p : PkgId} {t : TrayId} {pos : Fin 4} {x : PosSt}

/-! ### MOD_PWR_GOOD -/

theorem Pkg.brakeLine_frame (b : Bool) (k : Pkg) : (k.brakeLine b).pkc = k.pkc ∧ (k.brakeLine b).dark = k.dark := by
  unfold Pkg.brakeLine
  dsimp only
  cases b
  · rw [(Pkg.settleRates_settled _).onlyRegs]
    exact ⟨rfl, rfl⟩
  · obtain ⟨y, hy, _⟩ := Pkg.endProbe_eq true (((k.flag F.PWR_BRAKE_LINE true).flag F.PWR_CAP_STATUS_BRAKED true).count F.PWR_EVENTS_BRAKES
      (if k.braked then 0 else 1))
    rw [if_pos rfl, hy, (Pkg.settleRates_settled _).onlyRegs]
    exact ⟨rfl, rfl⟩
/-- The package that MOD_PWR_GOOD finds: it sees the brake line as it is. -/
def State.braking (p : PkgId) (s : State) : Pkg := if (s.rack p.rack).brake then (s.pkg p).brakeLine true else s.pkg p
theorem State.braking_frame (p : PkgId) (s : State) : (s.braking p).pkc = (s.pkg p).pkc ∧ (s.braking p).dark = (s.pkg p).dark := by
  unfold State.braking
  split
  · exact Pkg.brakeLine_frame ..
  · exact ⟨rfl, rfl⟩
/-- The machine at MOD_PWR_GOOD, before PKG_RESET_N rises. -/
def State.powered (t : TrayId) (pos : Fin 4) (p : PkgId) (s : State) : State :=
  (s.setPosn t pos { s.posn t pos with pwrGood := true }).setPkg p (s.braking p)
theorem exec_modPwrGood (ht : TrayId.pkgAt t pos = some p) : exec (.modPwrGood t pos) s =
    if !(s.posn t pos).pwrEn || (s.posn t pos).pwrGood then .next s else .next ((s.powered t pos p).releaseReset t pos p) := by
  change execModPwrGood t pos s = _
  unfold execModPwrGood
  rw [ht]
  rfl
theorem State.posn_powered (t : TrayId) (pos : Fin 4) (p : PkgId) (s : State) :
    (s.powered t pos p).posn t pos = { s.posn t pos with pwrGood := true } := State.posn_setPosn_same ..
/-- What keeps PKG_RESET_N low (R60, R329, R330). -/
def State.heldReset (p : PkgId) (s : State) : Bool := (s.quarantined p).any holdsPackage || (s.pkg p).dark.heldResets.contains .package
theorem State.releaseReset_held (h : s.heldReset p = true) : s.releaseReset t pos p = s.setPosn t pos { s.posn t pos with step := 4 } := if_pos h
theorem State.releaseReset_free (h : s.heldReset p = false) : s.releaseReset t pos p = s.stepFive t pos p :=
  if_neg (by rw [show ((s.quarantined p).any holdsPackage || (s.pkg p).dark.heldResets.contains .package) = false from h]; exact Bool.noConfusion)
theorem State.pkg_powered (t : TrayId) (pos : Fin 4) (p : PkgId) (s : State) : (s.powered t pos p).pkg p = s.braking p := State.pkg_setPkg_same ..
theorem State.heldReset_powered (t : TrayId) (pos : Fin 4) (p : PkgId) (s : State) : (s.powered t pos p).heldReset p = s.heldReset p := by
  have hq : (s.powered t pos p).quarantined p = s.quarantined p := rfl
  rw [State.heldReset, hq, State.pkg_powered, (s.braking_frame p).2, State.heldReset]
theorem CwSt.chooseSource_setPos (c : CwSt) (n : Nat) {x : PosSt} (h1 : x.misses = (c.at n).misses) (h2 : x.bootOrder = (c.at n).bootOrder)
    (h3 : x.flashBad = (c.at n).flashBad) : (c.setPos n x).chooseSource n = c.chooseSource n := by
  have hg : (c.setPos n x).golden 1 n = c.golden 1 n := rfl
  have hx : (c.setPos n x).at n = x := CwSt.at_setPos_same ..
  unfold CwSt.chooseSource
  dsimp only
  rw [hg, hx, h1, h2, h3]
theorem State.fiveAt_powered (t : TrayId) (pos : Fin 4) (p : PkgId) (s : State) : (((s.powered t pos p).tray t).fiveAt pos.val).step = 5 ∧
    (((s.powered t pos p).tray t).fiveAt pos.val).resetN = true ∧ (((s.powered t pos p).tray t).fiveAt pos.val).pwrGood = true ∧
    (((s.powered t pos p).tray t).fiveAt pos.val).bootSrc = (s.tray t).chooseSource pos.val ∧
    (((s.powered t pos p).tray t).fiveAt pos.val).mirrorBoot =
      if (s.posn t pos).mirrorSerial = some (s.posn t pos).serial then (s.posn t pos).mirrorBoot + 1 else 0 := by
  have ht : (s.powered t pos p).tray t = (s.tray t).setPos pos.val { s.posn t pos with pwrGood := true } := State.tray_setTray_same ..
  have hx : ((s.tray t).setPos pos.val { s.posn t pos with pwrGood := true }).at pos.val = { s.posn t pos with pwrGood := true } := CwSt.at_setPos_same ..
  have hc : ((s.tray t).setPos pos.val { s.posn t pos with pwrGood := true }).chooseSource pos.val = (s.tray t).chooseSource pos.val :=
    CwSt.chooseSource_setPos _ _ rfl rfl rfl
  unfold CwSt.fiveAt
  dsimp only
  rw [ht, hx, hc]
  refine ⟨rfl, rfl, rfl, rfl, ?_⟩
  by_cases h : (s.posn t pos).mirrorSerial = some (s.posn t pos).serial
  · rw [if_pos h, if_pos (decide_eq_true h)]
  · rw [if_neg h, if_neg (by simpa using h)]
theorem modPwrGoods (s : State) (ht : TrayId.pkgAt t pos = some p) :
    let k := s.pkg p
    let c := s.tray t
    let x := s.posn t pos
    ((x.pwrEn = false ∨ x.pwrGood = true) → exec (.modPwrGood t pos) s = .next s) ∧
    (x.pwrEn = true → x.pwrGood = false → ∃ u, exec (.modPwrGood t pos) s = .next u ∧ (u.posn t pos).pwrGood = true ∧
      let held := (s.quarantined p).any holdsPackage || k.dark.heldResets.contains .package
      (held = true → (u.posn t pos).resetN = x.resetN ∧ (u.posn t pos).step = 4) ∧
      (held = false → (u.posn t pos).resetN = true ∧ (u.posn t pos).step = 5 ∧ (u.posn t pos).bootSrc = c.chooseSource pos.val ∧
        (u.posn t pos).mirrorBoot = (if x.mirrorSerial = some x.serial then x.mirrorBoot + 1 else 0) ∧
        (k.pkc.run = .reset → (u.pkg p).get F.FLT_BOOT_BOOT = (u.posn t pos).mirrorBoot % 65536))) := by
  intro k c x
  refine ⟨fun h => (exec_modPwrGood ht).trans (if_pos (by rcases h with h | h <;> rw [h] <;> simp)), fun he hg => ?_⟩
  refine ⟨_, (exec_modPwrGood ht).trans (if_neg (by rw [he, hg]; exact Bool.noConfusion)), ?_⟩
  have hh : (s.powered t pos p).heldReset p = s.heldReset p := s.heldReset_powered t pos p
  by_cases hb : s.heldReset p = true
  · rw [State.releaseReset_held (hh.trans hb), State.posn_setPosn_same, State.posn_powered]
    exact ⟨rfl, fun _ => ⟨rfl, rfl⟩, fun h => absurd (h.symm.trans hb) (by decide)⟩
  · rw [Bool.not_eq_true] at hb
    obtain ⟨h1, h2, h3, h4, h5⟩ := s.fiveAt_powered t pos p
    rw [State.releaseReset_free (hh.trans hb), State.posn_stepFive]
    refine ⟨h3, fun h => absurd (h.symm.trans hb) (by decide), fun _ => ⟨h2, h1, h4, h5, fun hr => ?_⟩⟩
    refine State.stepFive_boot t pos p _ ?_
    rw [State.pkg_powered, (s.braking_frame p).1]
    exact hr

/-! ### The release of the PKC -/

/-- How the PKC starts, by its boot source. -/
def bootRun (src : BitVec 2) : PkcRun := if src = 3 then .lifeboat else if src = 2 then .romWait else .booting
/-- The PKC's start before the caps and rates are worked out. -/
def Pkg.starting (now fused : Nat) (k : Pkg) : Pkg :=
  ((((k.setRun (bootRun k.pkc.bootSrc)).flag F.UPD_STATUS_LIFEBOAT (decide (bootRun k.pkc.bootSrc = .lifeboat))).seed fused).setThr fun x =>
    { x with lastSample := now }).firstGuards
theorem Pkg.pkcStart_eq (now fused : Nat) (k : Pkg) : k.pkcStart now fused = (k.starting now fused).recap.settleRates := rfl
theorem Pkg.takeGuards_frame : ∀ (l : List Nat) (k : Pkg),
    (l.foldl (fun k t => k.takeGuard t) k).regs = k.regs ∧ (l.foldl (fun k t => k.takeGuard t) k).pkc = k.pkc
  | [], _ => ⟨rfl, rfl⟩
  | t :: l, k => Pkg.takeGuards_frame l (k.takeGuard t)
theorem Pkg.firstGuards_frame (k : Pkg) : k.firstGuards.regs = k.regs ∧ k.firstGuards.pkc = k.pkc := Pkg.takeGuards_frame tiles4 k
theorem Pkg.seed_pkc (fused : Nat) (k : Pkg) : (k.seed fused).pkc = k.pkc := by
  unfold Pkg.seed
  dsimp only
  split <;> rfl
theorem Pkg.seed_rg (fused : Nat) (k : Pkg) {o : Nat} (h1 : o ≠ R.THR_SEA_TRIAL) (h2 : o ≠ R.THR_RESIST_EST) : (k.seed fused).rg o = k.rg o := by
  unfold Pkg.seed
  dsimp only
  split
  · exact Pkg.rg_put_ne _ _ _ h1
  · exact (Pkg.rg_put_ne _ _ _ h1).trans ((Pkg.rg_put_ne _ _ _ h1).trans ((Pkg.rg_put_ne _ _ _ h2).trans ((Pkg.rg_put_ne _ _ _ h2).trans
      (Pkg.rg_put_ne _ _ _ h1))))
theorem clampI_toNat (x : Int) : 150 ≤ (clampI 150 1200 x).toNat ∧ (clampI 150 1200 x).toNat ≤ 1200 := by
  unfold clampI
  omega
/-- An estimate of 0 is seeded, and the sea trial starts (R378). -/
theorem Pkg.seed_est (fused : Nat) (k : Pkg) : (k.est ≠ 0 → (k.seed fused).est = k.est) ∧
    (k.est = 0 → 150 ≤ (k.seed fused).est ∧ (k.seed fused).get F.THR_RESIST_EST_SEEDED = 1 ∧ (k.seed fused).get F.THR_SEA_TRIAL_ACTIVE = 1) := by
  constructor
  · intro h
    rw [Pkg.seed, if_pos h]
    exact Pkg.get_put_reg_ne _ _ _ _ (by decide)
  · intro h
    rw [Pkg.seed, if_neg (not_not.2 h)]
    obtain ⟨hc, hc'⟩ := clampI_toNat (roundAway (fused * 5) 4)
    generalize (clampI 150 1200 (roundAway (fused * 5) 4)).toNat = e at hc hc'
    generalize k.put F.THR_SEA_TRIAL_FUSED fused = l
    refine ⟨?_, ?_, ?_⟩
    · have hg : ((l.put F.THR_RESIST_EST_EST e).flag F.THR_RESIST_EST_SEEDED true).get F.THR_RESIST_EST_EST = e :=
        (Pkg.get_flag_disjoint _ F.THR_RESIST_EST_SEEDED F.THR_RESIST_EST_EST _ (by decide) rfl (by decide)).trans
          ((Pkg.get_put_same _ _ _ (by decide)).trans (Nat.mod_eq_of_lt (lt_of_le_of_lt hc' (by decide))))
      refine hc.trans (le_of_eq (Eq.symm ?_))
      exact (Pkg.get_put_reg_ne _ _ _ _ (by decide)).trans ((Pkg.get_put_reg_ne _ _ _ _ (by decide)).trans hg)
    · refine (Pkg.get_put_reg_ne _ _ _ _ (by decide)).trans ((Pkg.get_put_reg_ne _ _ _ _ (by decide)).trans ?_)
      exact Pkg.get_flag_same _ F.THR_RESIST_EST_SEEDED true (by decide) (by decide)
    · refine (Pkg.get_put_disjoint _ F.THR_SEA_TRIAL_LOAD_MS F.THR_SEA_TRIAL_ACTIVE _ (by decide) rfl (by decide)).trans ?_
      exact Pkg.get_flag_same _ F.THR_SEA_TRIAL_ACTIVE true (by decide) (by decide)
theorem Pkg.starting_pkc (now fused : Nat) (k : Pkg) : (k.starting now fused).pkc = { k.pkc with run := bootRun k.pkc.bootSrc } :=
  (Pkg.firstGuards_frame _).2.trans
    (Pkg.seed_pkc fused ((k.setRun (bootRun k.pkc.bootSrc)).flag F.UPD_STATUS_LIFEBOAT (decide (bootRun k.pkc.bootSrc = .lifeboat))) :)
theorem Pkg.starting_get (now fused : Nat) (k : Pkg) (f : Fld) : (k.starting now fused).get f =
    (((k.setRun (bootRun k.pkc.bootSrc)).flag F.UPD_STATUS_LIFEBOAT (decide (bootRun k.pkc.bootSrc = .lifeboat))).seed fused).get f :=
  Pkg.get_of_regs (Pkg.firstGuards_frame _).1 f
theorem Pkg.pkcStart_get (now fused : Nat) (k : Pkg) {f : Fld} (hf : f.off < 0x40000 ∨ 0x50000 ≤ f.off) :
    (k.pkcStart now fused).get f = (k.starting now fused).get f := by
  rw [Pkg.pkcStart_eq, (Pkg.settleRates_settled _).get (hf.imp (fun h => h.trans (by decide)) (fun h => le_trans (by decide) h))
    (fun e => by rw [e] at hf; revert hf; decide), Pkg.get_recap _ (fun e => by rw [e] at hf; revert hf; decide)]
theorem Pkg.pkcStart_spec (now fused : Nat) (k : Pkg) : (k.pkcStart now fused).pkc = { k.pkc with run := bootRun k.pkc.bootSrc } ∧
    (k.pkcStart now fused).addr = k.addr ∧ (k.est ≠ 0 → (k.pkcStart now fused).est = k.est) ∧
    (k.est = 0 → 150 ≤ (k.pkcStart now fused).est ∧ (k.pkcStart now fused).get F.THR_RESIST_EST_SEEDED = 1 ∧
      (k.pkcStart now fused).get F.THR_SEA_TRIAL_ACTIVE = 1) := by
  have hpkc : (k.pkcStart now fused).pkc = (k.starting now fused).pkc := (Pkg.recap_settled (k.starting now fused)).1.pkc
  have hget {f : Fld} (hf : f.off < 0x40000 ∨ 0x50000 ≤ f.off) := (k.pkcStart_get now fused hf).trans (k.starting_get now fused f)
  have hest : ((k.setRun (bootRun k.pkc.bootSrc)).flag F.UPD_STATUS_LIFEBOAT (decide (bootRun k.pkc.bootSrc = .lifeboat))).est = k.est :=
    Pkg.get_put_reg_ne _ _ _ _ (by decide)
  obtain ⟨h1, h2⟩ := Pkg.seed_est fused ((k.setRun (bootRun k.pkc.bootSrc)).flag F.UPD_STATUS_LIFEBOAT (decide (bootRun k.pkc.bootSrc = .lifeboat)))
  rw [hest] at h1 h2
  refine ⟨hpkc.trans (k.starting_pkc ..), ?_, fun h => ?_, fun h => ?_⟩
  · refine (hget (.inl (by decide))).trans ?_
    exact (Pkg.get_of_rg (Pkg.seed_rg _ _ (by decide) (by decide))).trans (Pkg.get_put_reg_ne _ _ _ _ (by decide))
  · exact (hget (.inr (by decide))).trans (h1 h)
  · obtain ⟨g1, g2, g3⟩ := h2 h
    exact ⟨g1.trans (le_of_eq (hget (f := F.THR_RESIST_EST_EST) (.inr (by decide))).symm), (hget (.inr (by decide))).trans g2,
      (hget (.inr (by decide))).trans g3⟩
/-- The machine at PKC_RELEASE, before the PKC starts: the address is written. -/
def State.releasing (p : PkgId) (s : State) : State :=
  (s.writeAddress p).setTray (PkgId.tray p) ((s.tray (PkgId.tray p)).setPos p.position
    { (s.tray (PkgId.tray p)).at p.position with holdN := true, step := 7, since := s.now })
/-- The package as the PKC starts. -/
def State.released (p : PkgId) (s : State) : Pkg :=
  (((s.releasing p).pkg p).setPkc fun y => { y with bootSrc := ((s.tray (PkgId.tray p)).at p.position).bootSrc }).pkcStart s.now
    (Config.fusedResist (s.moduleKey p)).toNat
theorem exec_pkcRelease : exec (.pkcRelease p) s =
    if ((s.tray (PkgId.tray p)).at p.position).step ≠ 5 ∨ (s.helm p.rack).isNone then .next s
    else .next ((s.releasing p).setPkg p (s.released p)) := rfl
theorem State.pkg_releasing (p : PkgId) (s : State) :
    (s.releasing p).pkg p = ((s.pkg p).put F.AON_PKG_ADDR_ADDR (s.givenAddress p)).draServed := State.pkg_setPkg_same ..
theorem pkcReleases (s : State) (hp : p.position = pos.val) :
    let k := s.pkg p
    let x := s.posn (PkgId.tray p) pos
    ((x.step ≠ 5 ∨ s.helm p.rack = none) → exec (.pkcRelease p) s = .next s) ∧
    (x.step = 5 → s.helm p.rack ≠ none → ∃ u, exec (.pkcRelease p) s = .next u ∧ (u.posn (PkgId.tray p) pos).holdN = true ∧
      (u.posn (PkgId.tray p) pos).step = 7 ∧ (u.posn (PkgId.tray p) pos).since = s.now ∧ (u.pkg p).pkc.bootSrc = x.bootSrc ∧
      (u.pkg p).pkc.run = (if x.bootSrc = 3 then .lifeboat else if x.bootSrc = 2 then .romWait else .booting) ∧
      ((s.rack p.rack).rackNumber < 32 → (u.pkg p).addr = 128 * (s.rack p.rack).rackNumber + 16 * p.row.val + p.col.val) ∧
      (k.est ≠ 0 → (u.pkg p).est = k.est) ∧
      (k.est = 0 → 150 ≤ (u.pkg p).est ∧ (u.pkg p).get F.THR_RESIST_EST_SEEDED = 1 ∧ (u.pkg p).get F.THR_SEA_TRIAL_ACTIVE = 1)) := by
  intro k x
  have hx : (s.tray (PkgId.tray p)).at p.position = x := by rw [hp]; rfl
  refine ⟨fun h => exec_pkcRelease.trans (if_pos ?_), fun h5 hh => ⟨_, exec_pkcRelease.trans (if_neg ?_), ?_⟩⟩
  · rw [hx]
    exact h.imp_right fun h => by rw [h]; rfl
  · rw [hx]
    rintro (h | h)
    · exact h h5
    · exact hh (Option.isNone_iff_eq_none.1 h)
  have hpos : (((s.releasing p).setPkg p (s.released p)).posn (PkgId.tray p) pos) = { x with holdN := true, step := 7, since := s.now } := by
    have ht : ((s.releasing p).setPkg p (s.released p)).tray (PkgId.tray p) = (s.tray (PkgId.tray p)).setPos p.position
        { (s.tray (PkgId.tray p)).at p.position with holdN := true, step := 7, since := s.now } := State.tray_setTray_same ..
    rw [State.posn, ht, hx, hp, CwSt.at_setPos_same]
  obtain ⟨h1, h2, h3, h4⟩ := Pkg.pkcStart_spec s.now (Config.fusedResist (s.moduleKey p)).toNat
    (((s.releasing p).pkg p).setPkc fun y => { y with bootSrc := ((s.tray (PkgId.tray p)).at p.position).bootSrc })
  have hk : (s.released p) = Pkg.pkcStart s.now (Config.fusedResist (s.moduleKey p)).toNat
    (((s.releasing p).pkg p).setPkc fun y => { y with bootSrc := ((s.tray (PkgId.tray p)).at p.position).bootSrc }) := rfl
  rw [← hk] at h1 h2 h3 h4
  have hest : (((s.releasing p).pkg p).setPkc fun y => { y with bootSrc := ((s.tray (PkgId.tray p)).at p.position).bootSrc }).est = k.est := by
    refine (Pkg.get_of_regs (j := _) (k := (s.pkg p).put F.AON_PKG_ADDR_ADDR (s.givenAddress p)) ?_ _).trans (Pkg.get_put_reg_ne _ _ _ _ (by decide))
    rw [State.pkg_releasing]
    exact Pkg.draServed_regs _
  rw [hest] at h3 h4
  rw [hpos, State.pkg_setPkg_same, h1, hx]
  refine ⟨rfl, rfl, rfl, rfl, rfl, fun hr => ?_, h3, h4⟩
  rw [h2, State.pkg_releasing]
  refine (Pkg.get_of_regs (Pkg.draServed_regs _) _).trans ((Pkg.get_put_same _ _ _ (by decide)).trans ?_)
  rw [State.givenAddress_eq]
  have hrow := p.row.isLt
  have hcol := p.col.isLt
  exact Nat.mod_eq_of_lt (by simp only [F.AON_PKG_ADDR_ADDR]; omega)

/-! ### The end of the PKC's boot -/

/-- An awake package's other domains are powered. -/
def Pkg.bootPowered (k : Pkg) : Pkg := k.setDomains true (allDomains.filter fun d => !k.heldDomains.contains d)
theorem exec_pkcBootEnd : exec (.pkcBootEnd p) s = onPkg p s fun k => if k.pkc.run = .booting then k.bootPowered.bootEnd s.now else k := rfl
theorem pkcBootEnds (s : State) (p : PkgId) :
    let k := s.pkg p
    (k.pkc.run ≠ .booting → exec (.pkcBootEnd p) s = .next (s.setPkg p k)) ∧
    (k.pkc.run = .booting → ∃ j : Pkg, exec (.pkcBootEnd p) s = .next (s.setPkg p j) ∧ j.pkc.run = .running ∧ j.pkc.hbAt = some s.now ∧
      (k.rg R.AON_PKG_ADDR = 0xFFFF → j.pkc.bootDone = k.pkc.bootDone ∧ j.out = k.out ++ [.cwEvent 2 0]) ∧
      (k.rg R.AON_PKG_ADDR ≠ 0xFFFF → j.pkc.bootDone = true ∧ j.out = k.out ++ [.cwEvent 1 0])) := by
  intro k
  refine ⟨fun h => exec_pkcBootEnd.trans (onPkg_next (if_neg h)), fun h => ⟨_, exec_pkcBootEnd.trans (onPkg_next (if_pos h)), ?_⟩⟩
  have ho : OnlyRegs k k.bootPowered := Pkg.setDomains_onlyRegs ..
  have hr : k.bootPowered.rg R.AON_PKG_ADDR = k.rg R.AON_PKG_ADDR := Pkg.rg_setDomains (by decide) ..
  have hw : resetWord R.AON_PKG_ADDR = 0xFFFF := by decide +kernel
  change (k.bootPowered.bootEnd s.now).pkc.run = _ ∧ _
  unfold Pkg.bootEnd
  dsimp only
  rw [hr, hw]
  have hf : (k.bootPowered.pkcRuns s.now).out = k.bootPowered.out ∧ (k.bootPowered.pkcRuns s.now).pkc.bootDone = k.bootPowered.pkc.bootDone ∧
    (k.bootPowered.pkcRuns s.now).pkc.run = .running ∧ (k.bootPowered.pkcRuns s.now).pkc.hbAt = some s.now := ⟨rfl, rfl, rfl, rfl⟩
  rw [show k.bootPowered.out = k.out by rw [ho], show k.bootPowered.pkc = k.pkc by rw [ho]] at hf
  obtain ⟨h1, h2, h3, h4⟩ := hf
  generalize k.bootPowered.pkcRuns s.now = l at *
  by_cases ha : k.rg R.AON_PKG_ADDR = 0xFFFF
  · rw [if_pos ha]
    exact ⟨h3, h4, fun _ => ⟨h2, congrArg (· ++ [_]) h1⟩, fun h => absurd ha h⟩
  · rw [if_neg ha]
    exact ⟨h3, h4, fun h => absurd h ha, fun _ => ⟨rfl, congrArg (· ++ [_]) h1⟩⟩
end Sys2Proof.Machine
end

section
/-! PROOF. Obligation O47, its end: boot time-outs, events and attestation (R287, R290, R294, R312, R330). -/
namespace Sys2Proof.Machine
open Sys2Proof

variable {j k : Pkg} {s u : State} {p : PkgId} {t : TrayId} {pos : Fin 4} {x : PosSt} {a : AlmId}

theorem State.posn_of_trays (h : u.trays = s.trays) (t : TrayId) (pos : Fin 4) : u.posn t pos = s.posn t pos := by
  rw [State.posn, State.tray_of_trays h]
  rfl

/-! ### BOOT_TIMEOUT -/

/-- The machine at a boot time-out: the package is reset, and the miss is counted. -/
def State.missed (t : TrayId) (pos : Fin 4) (p : PkgId) (s : State) : State :=
  (s.resetPkg p).setPosn t pos { (s.posn t pos).heldLow with misses := (s.posn t pos).misses + 1 }
/-- The second miss in a row is reported. -/
def State.missTold (t : TrayId) (pos : Fin 4) (p : PkgId) (s : State) : State :=
  if (s.posn t pos).misses = 1 then (s.missed t pos p).cwReport t "BOOT_FAIL" pos.val 0 else s.missed t pos p
theorem exec_bootTimeout (ht : TrayId.pkgAt t pos = some p) : exec (.bootTimeout t pos) s =
    if (s.posn t pos).step ≠ 7 ∨ (s.posn t pos).bootSrc = 3 ∨ s.now < (s.posn t pos).since + 10000000000 then .next s
    else .next ((s.missTold t pos p).releaseReset t pos p) := by
  change execBootTimeout t pos s = _
  unfold execBootTimeout
  rw [ht]
  rfl
theorem State.posn_missTold (t : TrayId) (pos : Fin 4) (p : PkgId) (s : State) :
    (s.missTold t pos p).posn t pos = { (s.posn t pos).heldLow with misses := (s.posn t pos).misses + 1 } := by
  unfold State.missTold
  split
  · rw [State.cwReport_posn, State.missed, State.posn_setPosn_same]
  · rw [State.missed, State.posn_setPosn_same]
theorem CwSt.chooseSource_missed {c : CwSt} {n : Nat} (h : 2 ≤ (c.at n).misses) : c.chooseSource n = 3 := if_pos h
theorem bootTimeouts (s : State) (ht : TrayId.pkgAt t pos = some p) :
    let x := s.posn t pos
    ((x.step ≠ 7 ∨ x.bootSrc = 3 ∨ s.now < x.since + 10000000000) → exec (.bootTimeout t pos) s = .next s) ∧
    (x.step = 7 → x.bootSrc ≠ 3 → x.since + 10000000000 ≤ s.now → ∃ u, exec (.bootTimeout t pos) s = .next u ∧
      (u.posn t pos).holdN = false ∧ (u.posn t pos).misses = x.misses + 1 ∧
      (x.misses = 1 → Msg.report "BOOT_FAIL" pos.val 0 ∈ (u.tray t).out) ∧
      ((u.posn t pos).step = 5 → 1 ≤ x.misses → (u.posn t pos).bootSrc = 3)) := by
  intro x
  refine ⟨fun h => (exec_bootTimeout ht).trans (if_pos h), fun h7 h3 hn => ⟨_, (exec_bootTimeout ht).trans (if_neg ?_), ?_⟩⟩
  · rintro (h | h | h)
    · exact h h7
    · exact h3 h
    · exact absurd h (not_lt.2 hn)
  have hc := (s.missTold t pos p).core_releaseReset t pos p
  rw [s.posn_missTold] at hc
  refine ⟨PosSt.core_holdN hc, PosSt.core_misses hc, fun hm => ?_, fun h5 hm => ?_⟩
  · refine ((s.missTold t pos p).releaseReset_atPos t pos p).told _ ?_
    rw [State.missTold, if_pos hm]
    exact State.cwReport_told ..
  · by_cases hh : (s.missTold t pos p).heldReset p = true
    · rw [State.releaseReset_held hh, State.posn_setPosn_same] at h5
      exact absurd (show (4 : Nat) = 5 from h5) (by decide)
    · rw [Bool.not_eq_true] at hh
      rw [State.releaseReset_free hh, State.posn_stepFive]
      refine CwSt.chooseSource_missed ?_
      rw [show ((s.missTold t pos p).tray t).at pos.val = _ from s.posn_missTold t pos p]
      exact Nat.succ_le_succ hm

/-! ### Events -/

/-- The tray controller after an event: BOOT_DONE ends step 7, and every event is forwarded. -/
def State.heardEvent (t : TrayId) (pos : Fin 4) (code : Byte) (data : BitVec 64) (s : State) : State :=
  (if code = 1 ∧ (s.posn t pos).step = 7 then s.setPosn t pos { s.posn t pos with step := 8, misses := 0 } else s).cwReport t "EVENT" pos.val
    (code.toNat + 256 * data.toNat)
/-- A unit's quarantine enters the log. -/
def AlmLog.quarantines (e : Nat × Nat) (l : AlmLog) : AlmLog :=
  { l with quarantine := if l.quarantine.contains e then l.quarantine else l.quarantine ++ [e] }
theorem AlmLog.quarantines_contains (e : Nat × Nat) (l : AlmLog) : (l.quarantines e).quarantine.contains e = true := by
  unfold AlmLog.quarantines
  dsimp only
  split
  next h => exact h
  next => simp
theorem exec_event (ht : TrayId.pkgAt t pos = some p) (code : Byte) (data : BitVec 64) : exec (.event t pos code data) s =
    .next (if code = 5 ∧ bits data.toNat 56 8 = 8 then
      (s.heardEvent t pos code data).logs t.rack (AlmLog.quarantines (p.key, bits data.toNat 32 16)) else s.heardEvent t pos code data) := by
  change execEvent t pos code data s = _
  unfold execEvent
  rw [ht]
  rfl
theorem State.heardEvent_spec (t : TrayId) (pos : Fin 4) (code : Byte) (data : BitVec 64) (s : State) :
    (s.heardEvent t pos code data).pkgs = s.pkgs ∧ (s.heardEvent t pos code data).helm t.rack = s.helm t.rack ∧
    Msg.report "EVENT" pos.val (code.toNat + 256 * data.toNat) ∈ ((s.heardEvent t pos code data).tray t).out ∧
    (code = 1 → (s.posn t pos).step = 7 → ((s.heardEvent t pos code data).posn t pos).step = 8 ∧
      ((s.heardEvent t pos code data).posn t pos).misses = 0) ∧
    ((code ≠ 1 ∨ (s.posn t pos).step ≠ 7) → (s.heardEvent t pos code data).posn t pos = s.posn t pos) := by
  unfold State.heardEvent
  by_cases h : code = 1 ∧ (s.posn t pos).step = 7
  · rw [if_pos h, State.cwReport_posn, State.posn_setPosn_same]
    exact ⟨rfl, rfl, State.cwReport_told .., fun _ _ => ⟨rfl, rfl⟩, fun hn => absurd h (by tauto)⟩
  · rw [if_neg h, State.cwReport_posn]
    exact ⟨rfl, rfl, State.cwReport_told .., fun h1 h7 => absurd ⟨h1, h7⟩ h, fun _ => rfl⟩
theorem events (s : State) (ht : TrayId.pkgAt t pos = some p) (code : Byte) (data : BitVec 64) :
    let x := s.posn t pos
    ∃ u, exec (.event t pos code data) s = .next u ∧ u.pkgs = s.pkgs ∧
      Msg.report "EVENT" pos.val (code.toNat + 256 * data.toNat) ∈ (u.tray t).out ∧
      (code = 1 → x.step = 7 → (u.posn t pos).step = 8 ∧ (u.posn t pos).misses = 0) ∧
      ((code ≠ 1 ∨ x.step ≠ 7) → u.posn t pos = x) ∧
      (code = 5 → bits data.toNat 56 8 = 8 → ∀ a, s.helm t.rack = some a →
        (u.alm a).log.quarantine.contains (p.key, bits data.toNat 32 16) = true) := by
  intro x
  refine ⟨_, exec_event ht code data, ?_⟩
  obtain ⟨h1, h2, h3, h4, h5⟩ := s.heardEvent_spec t pos code data
  rw [← h2]
  generalize s.heardEvent t pos code data = v at *
  by_cases hc : code = 5 ∧ bits data.toNat 56 8 = 8
  · rw [if_pos hc, State.tray_of_trays (v.logs_trays ..), State.posn_of_trays (v.logs_trays ..)]
    refine ⟨(v.logs_pkgs ..).trans h1, h3, h4, h5, fun _ _ a ha => ?_⟩
    rw [State.logs_helm _ ha]
    exact AlmLog.quarantines_contains ..
  · rw [if_neg hc]
    exact ⟨h1, h3, h4, h5, fun e e' => absurd ⟨e, e'⟩ hc⟩

/-! ### Attestation -/

/-- The measurements are sent. -/
def State.measured (p : PkgId) (nonce : BitVec 256) (s : State) : State :=
  s.setPkg p ((s.pkg p).spdm 0x60 (signed (s.moduleKey p) ((s.pkg p).measurements (s.moduleKey p) nonce)))
/-- A first attestation failure: the package is reset, and its flash is compared again. -/
def State.attestRetried (p : PkgId) (nonce : BitVec 256) (s : State) : State :=
  ((s.measured p nonce).resetPkg p).setPosn (PkgId.tray p) (PkgId.pos p)
    { (s.posn (PkgId.tray p) (PkgId.pos p)).heldLow with attestFails := 1, step := 2 }
/-- A second one: the power is removed. -/
def State.attestFailed (p : PkgId) (nonce : BitVec 256) (s : State) : State :=
  ((s.measured p nonce).powerOff (PkgId.tray p) (PkgId.pos p)).cwReport (PkgId.tray p) "ATTEST_FAIL" (PkgId.pos p).val 0
/-- The module is blocked, as the log says. -/
def State.attestBlocked (p : PkgId) (s : State) : State :=
  (s.setPosn (PkgId.tray p) (PkgId.pos p) { s.posn (PkgId.tray p) (PkgId.pos p) with blocked := true }).logs (PkgId.tray p).rack fun l =>
    { l with attestBlocked := if l.attestBlocked.contains p.key then l.attestBlocked else l.attestBlocked ++ [p.key] }
/-- What the tray controller makes of the measurements at step 8. -/
def State.judged (p : PkgId) (nonce : BitVec 256) (s : State) : State :=
  let x := s.posn (PkgId.tray p) (PkgId.pos p)
  if s.attests p nonce then
    ((s.measured p nonce).setPosn (PkgId.tray p) (PkgId.pos p) { x with step := 9, attested := true, attestFails := 0 }).cwReport (PkgId.tray p) "READY"
      (PkgId.pos p).val 0
  else if x.attestFails = 0 then
    if ((s.tray (PkgId.tray p)).golden 1 (PkgId.pos p).val).isNone then
      (s.attestRetried p nonce).releaseReset (PkgId.tray p) (PkgId.pos p) p else s.attestRetried p nonce
  else (s.attestFailed p nonce).attestBlocked p
theorem getMeasurements_judged {n : BitVec 256} (hr : (s.pkg p).pkc.run = .running) (h : 3 ≤ (s.pkg p).pkc.spdmStep)
    (hx : (s.posn (PkgId.tray p) (PkgId.pos p)).step = 8) : exec (.getMeasurements p n) s = .next (s.judged p n) := by
  change execGetMeasurements p n s = _
  unfold execGetMeasurements
  dsimp only
  rw [if_neg (not_not.2 hr), if_neg (not_lt.2 h), if_neg (not_not.2 hx)]
  unfold State.judged
  dsimp only
  by_cases ha : s.attests p n = true
  · rw [if_pos ha, if_pos ha]
    rfl
  · rw [if_neg ha, if_neg ha]
    by_cases hf : (s.posn (PkgId.tray p) (PkgId.pos p)).attestFails = 0
    · rw [if_pos hf, if_pos hf]
      rfl
    · rw [if_neg hf, if_neg hf]
      rfl
theorem attestations (s : State) (p : PkgId) (nonce : BitVec 256) :
    let k := s.pkg p
    let t := PkgId.tray p
    let pos := PkgId.pos p
    let c := s.tray t
    let x := s.posn t pos
    k.pkc.run = .running → 3 ≤ k.pkc.spdmStep → x.step = 8 →
      ∃ u, exec (.getMeasurements p nonce) s = .next u ∧
        (s.attests p nonce = true → (u.posn t pos).step = 9 ∧ (u.posn t pos).attested = true ∧ Msg.report "READY" pos.val 0 ∈ (u.tray t).out) ∧
        (s.attests p nonce = false → x.attestFails = 0 → (u.posn t pos).attestFails = 1 ∧ (u.posn t pos).holdN = false ∧
          (c.golden 1 pos.val ≠ none → (u.posn t pos).step = 2)) ∧
        (s.attests p nonce = false → x.attestFails ≠ 0 → (u.posn t pos).pwrEn = false ∧ (u.posn t pos).blocked = true ∧
          Msg.report "ATTEST_FAIL" pos.val 0 ∈ (u.tray t).out) := by
  intro k t pos c x hr h3 h8
  refine ⟨_, getMeasurements_judged hr h3 h8, fun ha => ?_, fun ha hf => ?_, fun ha hf => ?_⟩
  · rw [State.judged, if_pos ha, State.cwReport_posn, State.posn_setPosn_same]
    exact ⟨rfl, rfl, State.cwReport_told ..⟩
  · rw [State.judged, if_neg (by rw [ha]; exact Bool.noConfusion), if_pos hf]
    have hx : (s.attestRetried p nonce).posn t pos = { x.heldLow with attestFails := 1, step := 2 } := State.posn_setPosn_same ..
    by_cases hg : c.golden 1 pos.val = none
    · have hc := (s.attestRetried p nonce).core_releaseReset t pos p
      rw [hx] at hc
      rw [if_pos (Option.isNone_iff_eq_none.2 hg)]
      exact ⟨PosSt.core_attestFails hc, PosSt.core_holdN hc, fun h => absurd hg h⟩
    · rw [if_neg (fun h => hg (Option.isNone_iff_eq_none.1 h)), hx]
      exact ⟨rfl, rfl, fun _ => rfl⟩
  · rw [State.judged, if_neg (by rw [ha]; exact Bool.noConfusion), if_neg hf]
    have hx : (s.attestFailed p nonce).posn t pos = _ := (State.cwReport_posn ..).trans (State.posn_powerOff ..)
    have ht : Msg.report "ATTEST_FAIL" pos.val 0 ∈ ((s.attestFailed p nonce).tray t).out := State.cwReport_told ..
    unfold State.attestBlocked
    generalize s.attestFailed p nonce = v at hx ht
    rw [State.tray_of_trays (State.logs_trays ..), State.posn_of_trays (State.logs_trays ..), State.posn_setPosn_same]
    refine ⟨?_, rfl, (v.setPosn_atPos t pos _).told _ ht⟩
    change (v.posn t pos).pwrEn = false
    rw [hx]

/-- Settles O47: the steps of bring-up one by one, `modPresents`, `latches`, `modPwrGoods`, `pkcReleases`, `pkcBootEnds`, `bootTimeouts`, `events`
and `attestations`. -/
theorem bringUp : Obligations.BringUp := by
  unfold Obligations.BringUp
  refine ⟨fun s t pos h => State.bringUp_latched h, fun s p t pos ht => ?_⟩
  obtain ⟨hl1, hl2, hl3⟩ := latches s t pos
  obtain ⟨hg1, hg2⟩ := modPwrGoods s ht
  obtain ⟨hb1, hb2⟩ := pkcBootEnds s p
  obtain ⟨ho1, ho2⟩ := bootTimeouts s ht
  refine ⟨modPresents s p t pos ht, hl1, hl2, hl3, hg1, hg2, fun hp hpos => ?_, hb1, hb2, ho1, ho2, events s ht, fun n hp hpos => ?_⟩
  · subst hp
    exact pkcReleases s hpos
  · subst hp hpos
    exact attestations s p n
end Sys2Proof.Machine
end

section
/-! PROOF. The golden store and the chips of a tray (R145, R282–R285): what a start repairs, and what a reflash leaves. -/
namespace Sys2Proof.Machine
open Sys2Proof

variable {j k : Pkg} {s u : State} {p : PkgId} {t : TrayId} {pos : Fin 4} {c c1 : CwSt} {l : List Golden} {g : Golden} {kind target : Nat}

/-! ### The golden store -/

theorem goldFind_some (h : goldFind l kind target = some g) :
    g ∈ l ∧ g.gold = true ∧ g.good = true ∧ g.kind = kind ∧ g.target = target := by
  have hp := List.find?_some h
  simp only [Bool.and_eq_true, decide_eq_true_eq] at hp
  obtain ⟨⟨⟨h1, h2⟩, h3⟩, h4⟩ := hp
  exact ⟨List.mem_of_find?_eq_some h, h1, h2, h3, h4⟩
theorem CwSt.golden_some (h : c.golden kind target = some g) :
    g ∈ c.nor0 ++ c.nor1 ∧ g.gold = true ∧ g.good = true ∧ g.kind = kind ∧ g.target = target := by
  unfold CwSt.golden at h
  cases h0 : goldFind c.nor0 kind target with
  | some g' =>
    rw [h0] at h
    obtain ⟨h1, h2⟩ := goldFind_some h0
    cases h
    exact ⟨List.mem_append_left _ h1, h2⟩
  | none =>
    rw [h0] at h
    obtain ⟨h1, h2⟩ := goldFind_some (show goldFind c.nor1 kind target = some g from h)
    exact ⟨List.mem_append_right _ h1, h2⟩
theorem CwSt.goldKeys_mem (h : c.golden kind target = some g) : (kind, target) ∈ c.goldKeys := by
  obtain ⟨hm, hg, _, rfl, rfl⟩ := CwSt.golden_some h
  exact List.mem_dedup.2 (List.mem_map.2 ⟨g, List.mem_filter.2 ⟨hm, hg⟩, rfl⟩)
/-- The good entries, one for each image. -/
def CwSt.winners (c : CwSt) : List Golden := c.goldKeys.filterMap fun e => c.golden e.1 e.2
theorem CwSt.winners_mem : g ∈ c.winners ↔ c.golden g.kind g.target = some g := by
  unfold CwSt.winners
  rw [List.mem_filterMap]
  constructor
  · rintro ⟨e, _, h⟩
    obtain ⟨_, _, _, h1, h2⟩ := CwSt.golden_some h
    rw [h1, h2]
    exact h
  · exact fun h => ⟨_, CwSt.goldKeys_mem h, h⟩
/-- Both copies hold the good entries, and no other golden one. -/
theorem CwSt.goldFind_winners (c : CwSt) (l : List Golden) (kind target : Nat) :
    goldFind (c.winners ++ l.filter fun g => !g.gold) kind target = c.golden kind target := by
  cases h : c.golden kind target with
  | none =>
    refine List.find?_eq_none.2 fun g hg hp => ?_
    simp only [Bool.and_eq_true, decide_eq_true_eq] at hp
    obtain ⟨⟨⟨h1, _⟩, h3⟩, h4⟩ := hp
    rcases List.mem_append.1 hg with hg | hg
    · have hw := CwSt.winners_mem.1 hg
      rw [h3, h4, h] at hw
      cases hw
    · have := (List.mem_filter.1 hg).2
      rw [h1] at this
      cases this
  | some g =>
    obtain ⟨_, h1, h2, h3, h4⟩ := CwSt.golden_some h
    have hmem : g ∈ c.winners := CwSt.winners_mem.2 (by rw [h3, h4]; exact h)
    unfold goldFind
    rw [List.find?_append]
    cases hf : c.winners.find? fun g => g.gold && g.good && decide (g.kind = kind) && decide (g.target = target) with
    | none =>
      refine absurd (List.find?_eq_none.1 hf g hmem) ?_
      simp [h1, h2, h3, h4]
    | some g' =>
      obtain ⟨hm, _, _, h3', h4'⟩ := goldFind_some hf
      have hw := CwSt.winners_mem.1 hm
      rw [h3', h4', h] at hw
      exact hw.symm
theorem CwSt.repair_golden (c : CwSt) (kind target : Nat) :
    goldFind c.repair.nor0 kind target = c.golden kind target ∧ goldFind c.repair.nor1 kind target = c.golden kind target :=
  ⟨c.goldFind_winners .., c.goldFind_winners ..⟩

/-! ### The start of a CW -/

/-- What a CW's start leaves as it is. -/
def CwSt.lines (c : CwSt) : SMap PosSt × Word × List Golden × List Golden := (c.pos, c.epochSeen, c.nor0, c.nor1)
theorem CwSt.lines_emits {β : Type} (f : β → Msg) : ∀ (l : List β) (c : CwSt), (l.foldl (fun c e => c.emit (f e)) c).lines = c.lines
  | [], _ => rfl
  | _ :: l, _ => CwSt.lines_emits f l _
theorem CwSt.checkChip_lines (e : Nat × Nat) (c : CwSt) : (c.checkChip e).lines = c.lines := by
  unfold CwSt.checkChip
  dsimp only
  cases c.golden e.1 e.2 with
  | none => rfl
  | some g =>
    dsimp only
    split
    · rfl
    · split <;> rfl
theorem CwSt.checkChips_lines : ∀ (l : List (Nat × Nat)) (c : CwSt), (l.foldl (fun c e => c.checkChip e) c).lines = c.lines
  | [], _ => rfl
  | e :: l, c => (CwSt.checkChips_lines l _).trans (c.checkChip_lines e)
/-- The steps of a CW's start: what is lost is told, the chips are compared, and what a restart ends ends. -/
def CwSt.toldLost (c : CwSt) : CwSt :=
  (c.lost.filter fun e => isChip e.1 || e.1 = 7).foldl (fun c e => c.emit (.report "GOLDEN_LOST" e.2 e.1)) c.repair
def CwSt.compared (c : CwSt) : CwSt := (c.goldKeys.filter fun e => isChip e.1).foldl (fun c e => c.checkChip e) c
def CwSt.started (gone : List (Nat × Nat)) (c : CwSt) : CwSt :=
  let c1 := { c with chipHeld := c.chipHeld ++ ((gone.map fun (e : Nat × Nat) => chipKey e.1 e.2).filter fun k =>
    isChip (k / 256) && !c.chipOut.contains k && !c.chipHeld.contains k) }
  let lifeboat := gone.any (fun e => e.1 = 6)
  { c1 with running := !lifeboat, lifeboat := lifeboat, debugOpen := false }
theorem CwSt.restart_eq (c : CwSt) : c.restart = c.toldLost.compared.started c.lost := by
  unfold CwSt.restart CwSt.started CwSt.compared CwSt.toldLost
  rfl
theorem CwSt.toldLost_lines (c : CwSt) : c.toldLost.lines = c.repair.lines := CwSt.lines_emits (fun e : Nat × Nat => .report "GOLDEN_LOST" e.2 e.1) _ _
theorem CwSt.compared_lines (c : CwSt) : c.compared.lines = c.lines := CwSt.checkChips_lines _ _
theorem CwSt.started_lines (gone : List (Nat × Nat)) (c : CwSt) : (c.started gone).lines = c.lines := rfl
theorem CwSt.repair_lines (c : CwSt) : c.repair.lines = (c.pos, c.epochSeen, c.repair.nor0, c.repair.nor1) := rfl
theorem CwSt.restart_lines (c : CwSt) : c.restart.lines = (c.pos, c.epochSeen, c.repair.nor0, c.repair.nor1) ∧
    c.restart.lifeboat = c.lost.any (fun e => e.1 = 6) ∧ c.restart.running = !c.lost.any (fun e => e.1 = 6) ∧ c.restart.debugOpen = false := by
  rw [CwSt.restart_eq]
  generalize c.lost = gone
  refine ⟨?_, rfl, rfl, rfl⟩
  rw [CwSt.started_lines, CwSt.compared_lines, CwSt.toldLost_lines, CwSt.repair_lines]

/-- The tray controller but for what it says. -/
def CwSt.silent (c : CwSt) : CwSt := { c with out := [] }
/-- One board position's module is compared. -/
def State.checkPos (t : TrayId) (s : State) (pos : Fin 4) : State :=
  match TrayId.pkgAt t pos, (s.tray t).golden 1 pos.val with
  | some p, some g =>
    let k := s.pkg p
    if ((s.tray t).at pos).resetN && !(s.tray t).matches (k.bankImg k.activeBank) g then
      s.setTray t ((s.tray t).emit (.report "MISMATCH" pos.val 1)) else s
  | _, _ => s
theorem State.checkPos_spec (t : TrayId) (s : State) (pos : Fin 4) : (s.checkPos t pos).pkgs = s.pkgs ∧
    ((s.checkPos t pos).tray t).silent = (s.tray t).silent := by
  unfold State.checkPos
  split
  · dsimp only
    split
    · exact ⟨rfl, by rw [State.tray_setTray_same]; rfl⟩
    · exact ⟨rfl, rfl⟩
  · exact ⟨rfl, rfl⟩
theorem State.checkRunning_spec (t : TrayId) (s : State) : (s.checkRunning t).pkgs = s.pkgs ∧ ((s.checkRunning t).tray t).silent = (s.tray t).silent := by
  have h : ∀ (l : List (Fin 4)) (s : State), (l.foldl (State.checkPos t) s).pkgs = s.pkgs ∧ ((l.foldl (State.checkPos t) s).tray t).silent = (s.tray t).silent := by
    intro l
    induction l with
    | nil => exact fun s => ⟨rfl, rfl⟩
    | cons pos l ih =>
      intro s
      obtain ⟨h1, h2⟩ := s.checkPos_spec t pos
      exact ⟨(ih _).1.trans h1, (ih _).2.trans h2⟩
  exact h (List.finRange 4) s

/-! ### The chips of a tray -/

/-- The first `n` ports of a switch power up. -/
def RouterSt.poweredUp (n : Nat) (r : RouterSt) : RouterSt := (List.range n).foldl (fun r q => r.setPort q (r.port q).powerUp) r
theorem RouterSt.poweredUp_port : ∀ (n q : Nat) (r : RouterSt), (r.poweredUp n).port q = if q < n then (r.port q).powerUp else r.port q
  | 0, _, _ => rfl
  | n + 1, q, r => by
    have hs : r.poweredUp (n + 1) = (r.poweredUp n).setPort n ((r.poweredUp n).port n).powerUp := by
      rw [RouterSt.poweredUp, List.range_succ, List.foldl_append]; rfl
    rw [hs]
    rcases Nat.lt_trichotomy q n with h | h | h
    · rw [RouterSt.port_setPort_ne (by omega), RouterSt.poweredUp_port, if_pos h, if_pos (by omega)]
    · subst h
      rw [RouterSt.port_setPort_same, RouterSt.poweredUp_port, if_neg (by omega), if_pos (by omega)]
    · rw [RouterSt.port_setPort_ne (by omega), RouterSt.poweredUp_port, if_neg (by omega), if_neg (by omega)]
/-- A tray of the Meridian rows whose switch leaves reset. -/
theorem State.setChips_raised (h : 24 ≤ t.slot.val) (h1 : c.switchUp = true) (h2 : (s.tray t).switchUp = false) : s.setChips t c =
    (s.setTray t c).setRouter (.meridian t.rack ⟨t.slot.val - 24, by omega⟩)
      ((s.router (.meridian t.rack ⟨t.slot.val - 24, by omega⟩)).poweredUp 288) := by
  unfold State.setChips
  dsimp only
  rw [dif_pos h, if_pos (by rw [h1, h2]; rfl)]
  rfl
theorem State.setChips_still (h : t.slot.val < 24 ∨ c.switchUp = false ∨ (s.tray t).switchUp = true) : s.setChips t c = s.setTray t c := by
  unfold State.setChips
  dsimp only
  by_cases h24 : 24 ≤ t.slot.val
  · rw [dif_pos h24, if_neg]
    rcases h with h | h | h
    · omega
    · rw [h]; exact Bool.noConfusion
    · rw [h, Bool.not_true, Bool.and_false]; exact Bool.noConfusion
  · rw [dif_neg h24]
theorem State.setChips_spec (t : TrayId) (c : CwSt) (s : State) : (s.setChips t c).pkgs = s.pkgs ∧ (s.setChips t c).tray t = c := by
  by_cases h : t.slot.val < 24 ∨ c.switchUp = false ∨ (s.tray t).switchUp = true
  · rw [State.setChips_still h]
    exact ⟨rfl, State.tray_setTray_same ..⟩
  · simp only [not_or, Bool.not_eq_false, Bool.not_eq_true, not_lt] at h
    obtain ⟨h1, h2, h3⟩ := h
    rw [State.setChips_raised h1 h2 h3]
    generalize (s.router (.meridian t.rack ⟨t.slot.val - 24, by omega⟩)).poweredUp 288 = r
    exact ⟨rfl, State.tray_setTray_same s t c⟩
theorem PortSt.powerUp_spec (x : PortSt) : (x.state = .off → x.powerUp = { x with state := .training, training := true }) ∧
    (x.state ≠ .off → x.powerUp = x) := ⟨fun h => if_pos h, fun h => if_neg h⟩
theorem switchesUp (s : State) (t : TrayId) (c1 : CwSt) :
    let c := s.tray t
    ((t.slot.val < 24 ∨ c1.switchUp = false ∨ c.switchUp = true) → s.setChips t c1 = s.setTray t c1) ∧
      ∀ pl : Fin 4, t.slot.val = 24 + pl.val → c1.switchUp = true → c.switchUp = false → (s.setChips t c1).tray t = c1 ∧ ∀ q, q < 288 →
        let x := (s.router (.meridian t.rack pl)).port q
        let y := ((s.setChips t c1).router (.meridian t.rack pl)).port q
        (x.state = .off → y = { x with state := .training, training := true }) ∧ (x.state ≠ .off → y = x) := by
  intro c
  refine ⟨State.setChips_still, fun pl hpl h1 h2 => ⟨(s.setChips_spec t c1).2, fun q hq => ?_⟩⟩
  have hp : (⟨t.slot.val - 24, by omega⟩ : Fin 4) = pl := Fin.ext (show t.slot.val - 24 = pl.val by omega)
  rw [State.setChips_raised (by omega) h1 h2, hp, State.router_setRouter]
  dsimp only
  rw [RouterSt.poweredUp_port, if_pos hq]
  exact PortSt.powerUp_spec _

/-! ### CW_START -/

theorem exec_cwStart : exec (.cwStart t) s = .next ((s.setChips t (s.tray t).restart).checkRunning t) := rfl
theorem cwStarts (s : State) (t : TrayId) :
    let c := s.tray t
    ∃ u, exec (.cwStart t) s = .next u ∧ (u.tray t).debugOpen = false ∧ u.pkgs = s.pkgs ∧ (∀ pos, u.posn t pos = s.posn t pos) ∧
      (u.tray t).epochSeen = c.epochSeen ∧ (u.tray t).lifeboat = c.lost.any (fun e => e.1 = 6) ∧ (u.tray t).running = !(u.tray t).lifeboat ∧
      ∀ kind target, goldFind (u.tray t).nor0 kind target = c.golden kind target ∧ goldFind (u.tray t).nor1 kind target = c.golden kind target := by
  intro c
  refine ⟨_, exec_cwStart, ?_⟩
  obtain ⟨h1, h2⟩ := s.setChips_spec t c.restart
  obtain ⟨h3, h4⟩ := (s.setChips t c.restart).checkRunning_spec t
  rw [h2] at h4
  obtain ⟨g1, g2, g3, g4⟩ := c.restart_lines
  generalize (s.setChips t c.restart).checkRunning t = u at h3 h4
  have hpos : (u.tray t).pos = c.pos := (congrArg CwSt.pos h4 :).trans (congrArg Prod.fst g1 :)
  have hep : (u.tray t).epochSeen = c.epochSeen := (congrArg CwSt.epochSeen h4 :).trans (congrArg (fun x => x.2.1) g1 :)
  have hn0 : (u.tray t).nor0 = c.repair.nor0 := (congrArg CwSt.nor0 h4 :).trans (congrArg (fun x => x.2.2.1) g1 :)
  have hn1 : (u.tray t).nor1 = c.repair.nor1 := (congrArg CwSt.nor1 h4 :).trans (congrArg (fun x => x.2.2.2) g1 :)
  have hl : (u.tray t).lifeboat = c.restart.lifeboat := (congrArg CwSt.lifeboat h4 :)
  have hr : (u.tray t).running = c.restart.running := (congrArg CwSt.running h4 :)
  refine ⟨(congrArg CwSt.debugOpen h4 :).trans g4, h3.trans h1, fun pos => (congrArg (fun m => sget {} m pos.val) hpos :), hep, hl.trans g2, ?_,
    fun kind target => ?_⟩
  · rw [hr, hl, g2, g3]
  · rw [hn0, hn1]
    exact c.repair_golden kind target
end Sys2Proof.Machine
end

section
/-! PROOF. Obligation O48: the tray controller's own state (R145, R275, R282–R285, R294–R296, R308). -/
namespace Sys2Proof.Machine
open Sys2Proof

variable {j k : Pkg} {s u : State} {p : PkgId} {t : TrayId} {pos : Fin 4} {c : CwSt} {g : Golden} {x : Bus}

/-! ### REFLASH_END -/

theorem chipCode_isChip {n : Nat} (h1 : 2 ≤ n) (h2 : n ≤ 5) : isChip n = true := by
  unfold isChip
  simp [h1, h2]
theorem reflash_none {kind : Fin 8} {target : Byte} (h : (s.tray t).golden kind.val target.toNat = none) :
    exec (.reflashEnd t kind target) s = .next s := by
  change execReflashEnd t kind target s = _
  unfold execReflashEnd
  dsimp only
  rw [h]
/-- A chip after its reflash: released where it matches, and else held. -/
def CwSt.chipWritten (key : Nat) (img : List Byte) (good : Bool) (c : CwSt) : CwSt :=
  { c with chipImages := sset [] c.chipImages key img, chipHeld := c.chipHeld.filter (· ≠ key) ++ (if good then [] else [key]),
           chipOut := c.chipOut.filter (· ≠ key) ++ (if good then [key] else []) }
theorem filter_ne_append_contains (l : List Nat) (key : Nat) (b : Bool) :
    (l.filter (· ≠ key) ++ if b then [key] else []).contains key = b := by
  cases b <;> simp
theorem CwSt.chipWritten_held (key : Nat) (img : List Byte) (good : Bool) (c : CwSt) :
    (c.chipWritten key img good).chipHeld = c.chipHeld.filter (· ≠ key) ++ if !good then [key] else [] := by
  cases good <;> rfl
theorem reflash_chip {kind : Fin 8} {target : Byte} (h : (s.tray t).golden kind.val target.toNat = some g) (hk : isChip kind.val = true) :
    exec (.reflashEnd t kind target) s = .next (State.setChips t
      (if (s.tray t).matches (Config.reflashed s.free g.image) g then
        (s.tray t).chipWritten (chipKey kind.val target.toNat) (Config.reflashed s.free g.image) true else
        ((s.tray t).chipWritten (chipKey kind.val target.toNat) (Config.reflashed s.free g.image) false).emit (.report "REFLASH_FAIL" target.toNat kind.val))
      { s with free := s.free + 1 }) := by
  change execReflashEnd t kind target s = _
  unfold execReflashEnd
  dsimp only
  rw [h]
  dsimp only
  rw [if_pos hk]
  cases (s.tray t).matches (Config.reflashed s.free g.image) g <;> rfl
/-- The machine after a module's flash was written. -/
def State.flashWritten (t : TrayId) (pos : Fin 4) (p : PkgId) (g : Golden) (s : State) : State :=
  (State.setPkg { s with free := s.free + 1 } p ((s.pkg p).writeBank (s.pkg p).activeBank (Config.reflashed s.free g.image) g.version)).setPosn t pos
    { s.posn t pos with flashBad := !(s.tray t).matches (Config.reflashed s.free g.image) g }
theorem reflash_module {target : Byte} (hn : target.toNat = pos.val) (ht : TrayId.pkgAt t pos = some p) (h : (s.tray t).golden 1 pos.val = some g) :
    exec (.reflashEnd t 1 target) s = .next (if (s.posn t pos).step ≠ 2 then s else
      (if (s.tray t).matches (Config.reflashed s.free g.image) g then s.flashWritten t pos p g else
        (s.flashWritten t pos p g).cwReport t "REFLASH_FAIL" pos.val 1).powerUp t pos p) := by
  have hg : (s.tray t).golden (1 : Fin 8).val target.toNat = some g := by rw [hn]; exact h
  change execReflashEnd t 1 target s = _
  unfold execReflashEnd
  dsimp only
  rw [hg]
  dsimp only
  rw [if_neg (by decide), if_pos (show (1 : Fin 8).val = 1 from rfl)]
  simp only [hn, Nat.mod_eq_of_lt pos.isLt, Fin.eta, ht]
  by_cases h2 : (s.posn t pos).step = 2
  · rw [if_neg (not_not.2 h2), if_neg]
    · rfl
    · rintro (h | h)
      · exact h h2
      · omega
  · rw [if_pos h2]
    exact if_pos (.inl h2)
theorem ofNat_toNat_pos (pos : Fin 4) : (BitVec.ofNat 8 pos.val).toNat = pos.val := by
  rw [BitVec.toNat_ofNat]
  exact Nat.mod_eq_of_lt (by omega)
theorem Pkg.csuStop_upd (code : Nat) (q : Scanning → Bool) (k : Pkg) : (k.csuStop code q).upd = k.upd := by
  refine List.foldlRecOn (motive := fun j : Pkg => j.upd = k.upd) _ _ rfl fun j hj u _ => ?_
  split
  · rw [Pkg.csuEnd_eq]
    split <;> exact hj
  · exact hj
/-- The bank that the pointer names holds the image that was written to it. -/
theorem Pkg.writeBank_active (img : List Byte) (v : BitVec 64) (k : Pkg) :
    (k.writeBank k.activeBank img v).bankImg (k.writeBank k.activeBank img v).activeBank = img := by
  have hc : ∀ u, u < 10 → F.UPD_STATUS_ACTIVE_BANK.off ≠ R.CSU_STATUS u := fun u hu => by
    simp only [F.UPD_STATUS_ACTIVE_BANK, R.UPD_STATUS, R.CSU_STATUS]; omega
  have ha : (k.writeBank k.activeBank img v).activeBank = k.activeBank :=
    (Pkg.get_csuStop hc _ _ _).trans ((Pkg.get_put_disjoint _ F.UPD_STATUS_BANK_VALID F.UPD_STATUS_ACTIVE_BANK _ (by decide) rfl (by decide)).trans
      (Pkg.get_of_regs rfl _))
  have hu : (k.writeBank k.activeBank img v).upd =
      if k.activeBank = 0 then { k.upd with bank0 := img, ver0 := v } else { k.upd with bank1 := img, ver1 := v } := Pkg.csuStop_upd ..
  rw [ha, Pkg.bankImg, hu]
  by_cases h : k.activeBank = 0
  · rw [if_pos h, if_pos h]
  · rw [if_neg h, if_neg h]
theorem reflashes (s : State) (t : TrayId) :
    let c := s.tray t
    (∀ (kind : Fin 8) (target : Byte), c.golden kind.val target.toNat = none → exec (.reflashEnd t kind target) s = .next s) ∧
    (∀ (kind : Fin 8) (target : Byte) (g : Golden), c.golden kind.val target.toNat = some g → 2 ≤ kind.val → kind.val ≤ 5 →
      let img := Config.reflashed s.free g.image
      let key := 256 * kind.val + target.toNat
      ∃ u, exec (.reflashEnd t kind target) s = .next u ∧ sget [] (u.tray t).chipImages key = img ∧
        (u.tray t).chipOut.contains key = c.matches img g ∧ (u.tray t).chipHeld.contains key = !c.matches img g ∧
        (c.matches img g = false → Msg.report "REFLASH_FAIL" target.toNat kind.val ∈ (u.tray t).out)) ∧
    (∀ (pos : Fin 4) (p : PkgId) (g : Golden), TrayId.pkgAt t pos = some p → c.golden 1 pos.val = some g →
      let x := s.posn t pos
      let img := Config.reflashed s.free g.image
      (x.step ≠ 2 → exec (.reflashEnd t 1 (BitVec.ofNat 8 pos.val)) s = .next s) ∧
      (x.step = 2 → x.pwrGood = false → ∃ u, exec (.reflashEnd t 1 (BitVec.ofNat 8 pos.val)) s = .next u ∧
        (u.posn t pos).flashBad = !c.matches img g ∧ (u.pkg p).bankImg (u.pkg p).activeBank = img ∧
        (u.posn t pos).pwrEn = true ∧ (u.posn t pos).step = 3 ∧
        (c.matches img g = false → Msg.report "REFLASH_FAIL" pos.val 1 ∈ (u.tray t).out))) := by
  intro c
  refine ⟨fun kind target h => reflash_none h, fun kind target g h h2 h5 => ?_, fun pos p g ht h => ⟨fun hx => ?_, fun hx hg => ?_⟩⟩
  · refine ⟨_, reflash_chip h (chipCode_isChip h2 h5), ?_⟩
    rw [(State.setChips_spec ..).2]
    have hk := (s.tray t).chipWritten_held (chipKey kind.val target.toNat) (Config.reflashed s.free g.image)
    cases hm : (s.tray t).matches (Config.reflashed s.free g.image) g
    · exact ⟨sget_sset_same .., filter_ne_append_contains _ _ false,
        (congrArg (fun l => List.contains l (chipKey kind.val target.toNat)) (hk false)).trans (filter_ne_append_contains _ _ true),
        fun _ => List.mem_append_right _ (List.mem_singleton.2 rfl)⟩
    · exact ⟨sget_sset_same .., filter_ne_append_contains _ _ true,
        (congrArg (fun l => List.contains l (chipKey kind.val target.toNat)) (hk true)).trans (filter_ne_append_contains _ _ false),
        fun h => Bool.noConfusion h⟩
  · rw [reflash_module (ofNat_toNat_pos pos) ht h, if_pos hx]
  · refine ⟨_, (reflash_module (ofNat_toNat_pos pos) ht h).trans (congrArg _ (if_neg (not_not.2 hx))), ?_⟩
    have hpos : (s.flashWritten t pos p g).posn t pos =
      { s.posn t pos with flashBad := !(s.tray t).matches (Config.reflashed s.free g.image) g } := State.posn_setPosn_same ..
    have hpkg : (s.flashWritten t pos p g).pkg p = (s.pkg p).writeBank (s.pkg p).activeBank (Config.reflashed s.free g.image) g.version :=
      (State.pkg_setTray ..).trans (State.pkg_setPkg_same ..)
    have hb := (s.pkg p).writeBank_active (Config.reflashed s.free g.image) g.version
    rw [← hpkg] at hb
    generalize s.flashWritten t pos p g = v at hpos hb ⊢
    have hgood : (v.posn t pos).pwrGood = false := by rw [hpos]; exact hg
    cases hm : (s.tray t).matches (Config.reflashed s.free g.image) g
    · rw [if_neg Bool.noConfusion, State.powerUp_off (by rw [State.cwReport_posn]; exact hgood), State.posn_setPosn_same, State.cwReport_posn, hpos, hm]
      refine ⟨rfl, hb, rfl, rfl, fun _ => ?_⟩
      exact (State.setPosn_atPos ..).told _ (State.cwReport_told ..)
    · rw [if_pos rfl, State.powerUp_off hgood, State.posn_setPosn_same, hpos, hm]
      exact ⟨rfl, hb, rfl, rfl, fun h => Bool.noConfusion h⟩

/-! ### The poll -/

/-- A register whose read changes nothing, and that no pause bars. -/
def calmRead (o : Nat) : Bool :=
  (match findReg o with
   | some d => decide (d.words ≤ 1) && decide (d.rc = 0)
   | none => false) && decide (o < 2 ^ 24) && decide (o % 4 = 0) && !pausedBlock o
theorem busOne_calm {o : Nat} (h : calmRead o = true) (m : Mem) (k : Pkg) :
    ∃ d, findReg o = some d ∧ busOne x o 4 none m k = some (BitVec.ofNat 32 (k.view x d o), m, k) := by
  unfold calmRead at h
  cases hd : findReg o with
  | none => rw [hd] at h; cases h
  | some d =>
    rw [hd] at h
    simp only [Bool.and_eq_true, decide_eq_true_eq, Bool.not_eq_true'] at h
    obtain ⟨⟨⟨⟨hw, hrc⟩, hl⟩, ha⟩, hb⟩ := h
    refine ⟨d, rfl, ?_⟩
    have hc : k.readClears d o = k := if_pos hrc
    unfold busOne
    rw [k.busRefuses_open hd hl ha hb, Nat.mod_eq_of_lt hl, hd]
    dsimp only
    rw [Pkg.busRead_of_words_le hw, hc, ite_self, if_neg Bool.noConfusion]
/-- Calm reads leave the package, and a word read after them is what the register shows. -/
theorem busWords_calm {o : Nat} (ho : calmRead o = true) (post : List Nat) (m : Mem) (k : Pkg) : ∀ (pre : List Nat) (free : Nat), (∀ q ∈ pre, calmRead q = true) →
    ∃ d v, findReg o = some d ∧
      (busWords x free 4 ((pre ++ o :: post).map fun o => (o, none)) (m, k)).1.getD pre.length 0 = BitVec.ofNat 32 (k.view { x with v := v } d o)
  | [], free, _ => by
    obtain ⟨d, hd, h⟩ := busOne_calm (x := { x with v := Config.freeWord free }) ho m k
    refine ⟨d, Config.freeWord free, hd, ?_⟩
    rw [List.nil_append, List.map_cons, busWords]
    dsimp only
    rw [h]
    rfl
  | q :: pre, free, hq => by
    obtain ⟨hq, hpre⟩ := List.forall_mem_cons.1 hq
    obtain ⟨d, v, hd, h⟩ := busWords_calm ho post m k pre (free + 1) hpre
    obtain ⟨_, _, h'⟩ := busOne_calm (x := { x with v := Config.freeWord free }) hq m k
    refine ⟨d, v, hd, ?_⟩
    rw [List.cons_append, List.map_cons, busWords]
    dsimp only
    rw [h']
    exact h
/-- What a poll reads. -/
def polled : List Nat :=
  [R.PWR_DRAW, R.PWR_CAP_STATUS, R.THR_CAP, R.THR_FORECAST, R.THR_ALARM, R.PWR_AGE_HOURS, R.THR_RESIST_EST] ++ (List.range 8).map R.PWR_GUARD
theorem polled_calm : ∀ q ∈ [R.PWR_DRAW, R.PWR_CAP_STATUS, R.THR_CAP, R.THR_FORECAST, R.THR_ALARM, R.PWR_AGE_HOURS], calmRead q = true := by
  decide +kernel
theorem Pkg.rg_wakeBlocks {o : Nat} (h : 0x10000 ≤ o) : ∀ (offs : List Nat) (k : Pkg), (∀ q ∈ offs, q < 0x60000) →
    (offs.foldl (fun k o => k.wakeBlock o) k).rg o = k.rg o
  | [], _, _ => rfl
  | q :: offs, k, hq => by
    obtain ⟨h1, h2⟩ := List.forall_mem_cons.1 hq
    exact (Pkg.rg_wakeBlocks h offs _ h2).trans (Pkg.rg_wakeBlock h (.inl h1) k)
theorem polled_low : ∀ q ∈ polled, q < 0x60000 := by decide
/-- The machine once the blocks that a read names are woken. -/
def State.readWoken (p : PkgId) (offs : List Nat) (s : State) : State :=
  if (s.pkg p).mustDefer ⟨.cw, 4, offs.map (fun o => (o, none)), none, .bus⟩ then s.setPkg p (offs.foldl (fun k o => k.wakeBlock o) (s.pkg p)) else s
theorem State.busRun_reads (p : PkgId) (words : List (Nat × Option Word)) (s : State) : s.busRun p ⟨.cw, 4, words, none, .bus⟩ true =
    busWords ⟨s.now, p, .cw, true, s.upIn p.rack, 0⟩ s.free 4 words (s.mem, s.pkg p) := rfl
theorem State.cwRead_words (p : PkgId) (offs : List Nat) (s : State) : (s.cwRead p offs).1 =
    (busWords ⟨(s.readWoken p offs).now, p, .cw, true, (s.readWoken p offs).upIn p.rack, 0⟩ (s.readWoken p offs).free 4 (offs.map fun o => (o, none))
      ((s.readWoken p offs).mem, (s.readWoken p offs).pkg p)).1 := by
  rw [← State.busRun_reads]
  rfl
/-- A poll reads the hours. -/
theorem State.polled_hours (p : PkgId) (s : State) :
    bits ((s.cwRead p polled).1.getD 5 0).toNat 0 20 = (s.pkg p).get F.PWR_AGE_HOURS_HOURS := by
  have hr : ((s.readWoken p polled).pkg p).rg R.PWR_AGE_HOURS = (s.pkg p).rg R.PWR_AGE_HOURS := by
    unfold State.readWoken
    split
    · rw [State.pkg_setPkg_same]
      exact Pkg.rg_wakeBlocks (by decide) polled _ polled_low
    · rfl
  obtain ⟨hpre, ho⟩ : (∀ q ∈ [R.PWR_DRAW, R.PWR_CAP_STATUS, R.THR_CAP, R.THR_FORECAST, R.THR_ALARM], calmRead q = true) ∧
      calmRead R.PWR_AGE_HOURS = true := ⟨fun q hq => polled_calm q (List.mem_append_left [R.PWR_AGE_HOURS] hq), polled_calm _ (by simp)⟩
  rw [State.cwRead_words]
  generalize s.readWoken p polled = u at hr
  obtain ⟨d, v, hd, h⟩ := busWords_calm (x := ⟨u.now, p, .cw, true, u.upIn p.rack, 0⟩) ho (R.THR_RESIST_EST :: (List.range 8).map R.PWR_GUARD) u.mem (u.pkg p)
    [R.PWR_DRAW, R.PWR_CAP_STATUS, R.THR_CAP, R.THR_FORECAST, R.THR_ALARM] u.free hpre
  have hv : (u.pkg p).view ⟨u.now, p, .cw, true, u.upIn p.rack, v⟩ d R.PWR_AGE_HOURS = ((u.pkg p).rg R.PWR_AGE_HOURS).toNat := by
    rw [findReg_PWR_AGE_HOURS] at hd
    cases hd
    rfl
  have h5 := h.trans (congrArg (BitVec.ofNat 32) hv)
  rw [hr] at h5
  have h6 := congrArg BitVec.toNat h5
  rw [BitVec.toNat_ofNat, Nat.mod_eq_of_lt (BitVec.isLt _)] at h6
  exact congrArg (bits · 0 20) h6
theorem find?_concat_drop {l : List ModRecord} {r : ModRecord} {n : Nat} {q : ModRecord → Bool} (hl : ∀ e ∈ l, q e = false) (hr : q r = true)
    (hn : n ≤ l.length) : ((l ++ [r]).drop n).find? q = some r := by
  rw [List.drop_append_of_le_length hn, List.find?_append,
    List.find?_eq_none.2 fun e he => by rw [hl e (List.mem_of_mem_drop he)]; exact Bool.noConfusion]
  rw [List.find?_cons_of_pos hr]
  rfl
/-- The record of a module that was put in last is found. -/
theorem CwSt.record_put {c : CwSt} {r : ModRecord} {l : List ModRecord} (h : c.records = putRecord r l) (hg : r.good = true) :
    c.record r.serial = some r := by
  unfold CwSt.record
  rw [h]
  unfold putRecord
  dsimp only
  refine find?_concat_drop (fun e he => ?_) (by rw [hg]; simp) ?_
  · have := (List.mem_filter.1 he).2
    simp only [ne_eq, decide_not, Bool.not_eq_true', decide_eq_false_iff_not] at this
    rw [decide_eq_false this, Bool.and_false]
  · rw [List.length_append]
    simp only [List.length_singleton]
    omega
/-- The record that a poll makes. -/
def State.pollRecord (t : TrayId) (pos : Fin 4) (p : PkgId) (s : State) : ModRecord :=
  let w (n : Nat) : Nat := ((s.cwRead p polled).1.getD n 0).toNat
  ⟨(s.posn t pos).serial, bits (w 5) 0 20, (List.range 8).map (fun n => bits (w (7 + n)) 0 6), bits (w 6) 0 16, true⟩
theorem CwSt.out_emit (m : Msg) (c : CwSt) : (c.emit m).out = c.out ++ [m] := rfl
theorem CwSt.records_emit (m : Msg) (c : CwSt) : (c.emit m).records = c.records := rfl
theorem exec_telemetryPoll : exec (.telemetryPoll t pos) s = .next (s.pollPkg t pos) := rfl
theorem State.pollPkg_none (h : TrayId.pkgAt t pos = none) : s.pollPkg t pos = s := by
  unfold State.pollPkg
  rw [h]
theorem State.pollPkg_down (ht : TrayId.pkgAt t pos = some p) (h : (s.posn t pos).resetN = false ∨ (s.pkg p).mctpUp = false) : s.pollPkg t pos = s := by
  unfold State.pollPkg
  rw [ht]
  exact if_pos (by rcases h with h | h <;> rw [h] <;> simp)
theorem State.pollPkg_up (ht : TrayId.pkgAt t pos = some p) (hr : (s.posn t pos).resetN = true) (hm : (s.pkg p).mctpUp = true) :
    ∃ l, ((s.pollPkg t pos).tray t).records = putRecord (s.pollRecord t pos p) (s.tray t).records ∧
      ((s.pollPkg t pos).tray t).out = (s.tray t).out ++ .report "FLEET_TIME" pos.val ((s.pkg p).time s.now) :: l := by
  unfold State.pollPkg
  rw [ht]
  dsimp only
  rw [if_neg (by rw [hr, hm]; exact Bool.noConfusion), State.tray_setTray_same]
  have htr : (s.cwRead p polled).2.tray t = s.tray t := (State.PkgsOnly.cwRead s p polled).tray t
  unfold State.pollRecord polled
  unfold polled at htr
  simp only [CwSt.out_emit, CwSt.records_emit, htr, List.append_assoc, List.singleton_append]
  exact ⟨_, trivial, rfl⟩
theorem polls (s : State) (t : TrayId) (pos : Fin 4) :
    let x := s.posn t pos
    (TrayId.pkgAt t pos = none → exec (.telemetryPoll t pos) s = .next s) ∧
    (∀ p, TrayId.pkgAt t pos = some p → (x.resetN = false ∨ (s.pkg p).mctpUp = false) → exec (.telemetryPoll t pos) s = .next s) ∧
    (∀ p, TrayId.pkgAt t pos = some p → x.resetN = true → (s.pkg p).mctpUp = true → ∃ u, exec (.telemetryPoll t pos) s = .next u ∧
      Msg.report "FLEET_TIME" pos.val ((s.pkg p).time s.now) ∈ (u.tray t).out ∧
      ∃ r, (u.tray t).record x.serial = some r ∧ r.hours = (s.pkg p).get F.PWR_AGE_HOURS_HOURS) := by
  intro x
  refine ⟨fun h => ?_, fun p ht h => ?_, fun p ht hr hm => ⟨_, exec_telemetryPoll, ?_⟩⟩
  · rw [exec_telemetryPoll, State.pollPkg_none h]
  · rw [exec_telemetryPoll, State.pollPkg_down ht h]
  · obtain ⟨l, h1, h2⟩ := State.pollPkg_up ht hr hm
    refine ⟨?_, s.pollRecord t pos p, ?_, s.polled_hours p⟩
    · rw [h2]
      exact List.mem_append_right _ List.mem_cons_self
    · exact CwSt.record_put (r := s.pollRecord t pos p) h1 rfl

/-! ### The end of a module's power -/

theorem exec_thermShdnN : exec (.thermShdnN t pos) s = .next
    (((s.powerOff t pos).cwReport t "THERMAL_SHUTDOWN" pos.val 0).setPosn t pos
      { ((s.powerOff t pos).cwReport t "THERMAL_SHUTDOWN" pos.val 0).posn t pos with shutdownHold := true }) := rfl
theorem exec_swapOut (epoch : Word) : exec (.swapOut t pos epoch) s = .next (s.fenced t epoch fun s => s.swapPos t pos) := rfl
theorem State.swapPos_lines (ht : TrayId.pkgAt t pos = some p) :
    ((s.swapPos t pos).posn t pos).holdN = false ∧ ((s.swapPos t pos).posn t pos).resetN = false := by
  unfold State.swapPos
  rw [ht]
  dsimp only
  rw [State.posn_setPosn_same, State.posn_powerOff]
  exact ⟨rfl, rfl⟩
theorem removals (s : State) (t : TrayId) (pos : Fin 4) :
    let c := s.tray t
    (∃ u, exec (.thermShdnN t pos) s = .next u ∧ (u.posn t pos).pwrEn = false ∧ (u.posn t pos).resetN = false ∧
      (u.posn t pos).shutdownHold = true ∧ Msg.report "THERMAL_SHUTDOWN" pos.val 0 ∈ (u.tray t).out) ∧
    (∀ epoch : Word, epoch.toNat < c.epochSeen.toNat → exec (.swapOut t pos epoch) s = .next (s.cwReport t "LEASE_STALE" 0 epoch.toNat)) ∧
    (∀ (epoch : Word) (p : PkgId), c.epochSeen.toNat ≤ epoch.toNat → TrayId.pkgAt t pos = some p → ∃ u, exec (.swapOut t pos epoch) s = .next u ∧
      (u.tray t).epochSeen = epoch ∧ (u.posn t pos).pwrEn = false ∧ (u.posn t pos).holdN = false ∧ (u.posn t pos).resetN = false ∧
      (u.posn t pos).indicator = true) := by
  intro c
  refine ⟨⟨_, exec_thermShdnN, ?_⟩, fun epoch h => ?_, fun epoch p h ht => ⟨_, exec_swapOut epoch, ?_⟩⟩
  · rw [State.posn_setPosn_same, State.cwReport_posn, State.posn_powerOff]
    exact ⟨rfl, rfl, rfl, (State.setPosn_atPos ..).told _ (State.cwReport_told ..)⟩
  · rw [exec_swapOut, State.fenced_stale h]
  · rw [State.fenced_taken h, (State.swapPos_atPos t pos _).epochSeen, State.tray_setTray_same]
    obtain ⟨h1, h2⟩ := State.swapPos_posn (s := s.setTray t { s.tray t with epochSeen := epoch }) ht
    obtain ⟨h3, h4⟩ := State.swapPos_lines (s := s.setTray t { s.tray t with epochSeen := epoch }) ht
    exact ⟨rfl, h1, h3, h4, h2⟩

/-- Settles O48: a start by `cwStarts`, the switch by `switchesUp`, a reflash by `reflashes`, the poll by `polls`, and what removes the power by
`removals`. -/
theorem trayController : Obligations.TrayController := by
  unfold Obligations.TrayController
  intro s t
  obtain ⟨h1, h2, h3⟩ := reflashes s t
  refine ⟨cwStarts s t, switchesUp s t, exec_cwStart, h1, h2, h3, fun pos => ?_⟩
  obtain ⟨g1, g2, g3⟩ := polls s t pos
  exact ⟨g1, g2, g3, removals s t pos⟩
end Sys2Proof.Machine
end

section
/-! PROOF. The fleet's discovery (R27–R30, R145): one member for each rack number, and the links of the others kept out of service. -/
namespace Sys2Proof.Machine
open Sys2Proof

variable {s t u : State} {rack q r : Fin 32} {pl : Fin 4} {h a b : AlmId}

/-! ### The fleet-facing links -/

/-- What a fold does to something that one step of it changes, once. -/
theorem foldl_once {α β γ : Type} [DecidableEq β] {f : α → β → α} {obs : α → γ} {g : γ → γ} {b : β} (hne : ∀ a c, c ≠ b → obs (f a c) = obs a)
    (hb : ∀ a, obs (f a b) = g (obs a)) : ∀ (l : List β), l.Nodup → ∀ a, obs (l.foldl f a) = if b ∈ l then g (obs a) else obs a
  | [], _, _ => rfl
  | c :: l, hd, a => by
    obtain ⟨hc, hd⟩ := List.nodup_cons.1 hd
    rw [List.foldl_cons, foldl_once hne hb l hd]
    by_cases he : b = c
    · subst he
      rw [if_neg hc, hb, if_pos List.mem_cons_self]
    · have hm : b ∈ c :: l ↔ b ∈ l := by rw [List.mem_cons, or_iff_right he]
      rw [hne _ _ (Ne.symm he)]
      by_cases hl : b ∈ l
      · rw [if_pos hl, if_pos (hm.2 hl)]
      · rw [if_neg hl, if_neg fun h => hl (hm.1 h)]
/-- A fleet-facing port is held down, or one that was held down begins to train. -/
def PortSt.fleetHeld (held : Bool) (x : PortSt) : PortSt :=
  if held then { x with state := .heldDown } else if x.state = .heldDown then PortSt.powerUp { x with state := .off } else x
theorem PortSt.fleetHeld_held (x : PortSt) : (x.fleetHeld true).state = .heldDown := rfl
theorem PortSt.fleetHeld_free {x : PortSt} (h : x.state = .heldDown) : (x.fleetHeld false).state = .training := by
  rw [PortSt.fleetHeld, if_neg Bool.noConfusion, if_pos h]
  rfl
/-- One fleet-facing port. -/
def RouterSt.fleetHeldAt (held : Bool) (m : RouterSt) (n : Nat) : RouterSt :=
  if held then m.setPort (144 + n) { m.port (144 + n) with state := .heldDown }
  else if (m.port (144 + n)).state = .heldDown then m.setPort (144 + n) (PortSt.powerUp { m.port (144 + n) with state := .off }) else m
theorem holdFleetPorts_eq (held : Bool) (m : RouterSt) : holdFleetPorts held m = (List.range 144).foldl (RouterSt.fleetHeldAt held) m := rfl
theorem RouterSt.port_fleetHeldAt_same (held : Bool) (m : RouterSt) (n : Nat) :
    (m.fleetHeldAt held n).port (144 + n) = (m.port (144 + n)).fleetHeld held := by
  unfold RouterSt.fleetHeldAt PortSt.fleetHeld
  cases held
  · simp only [Bool.false_eq_true, if_false]
    by_cases hx : (m.port (144 + n)).state = .heldDown
    · rw [if_pos hx, if_pos hx, RouterSt.port_setPort_same]
    · rw [if_neg hx, if_neg hx]
  · rw [if_pos rfl, if_pos rfl, RouterSt.port_setPort_same]
theorem RouterSt.port_fleetHeldAt_ne (held : Bool) (m : RouterSt) {n c : Nat} (hn : c ≠ n) : (m.fleetHeldAt held c).port (144 + n) = m.port (144 + n) := by
  unfold RouterSt.fleetHeldAt
  have hq : 144 + n ≠ 144 + c := fun e => hn (Nat.add_left_cancel e).symm
  split
  · exact RouterSt.port_setPort_ne hq ..
  · split
    · exact RouterSt.port_setPort_ne hq ..
    · rfl
theorem holdFleetPorts_port {n : Nat} (hn : n < 144) (held : Bool) (m : RouterSt) :
    (holdFleetPorts held m).port (144 + n) = (m.port (144 + n)).fleetHeld held := by
  rw [holdFleetPorts_eq]
  refine (foldl_once (obs := fun m : RouterSt => m.port (144 + n)) (g := PortSt.fleetHeld held) (b := n)
    (fun m c hc => m.port_fleetHeldAt_ne held hc) (fun m => m.port_fleetHeldAt_same held n) _ List.nodup_range m).trans ?_
  exact if_pos (List.mem_range.2 hn)
theorem State.router_setRouter_ne (hne : (q, pl) ≠ (r, pl')) (x : RouterSt) (s : State) :
    (s.setRouter (.meridian r pl') x).router (.meridian q pl) = s.router (.meridian q pl) := by
  refine sget_sset_ne _ _ _ _ fun e => hne ?_
  have h1 := pl.isLt
  have h2 := pl'.isLt
  rw [Prod.mk.injEq]
  exact ⟨Fin.ext (by omega), Fin.ext (by omega)⟩
/-- The links of a rack's Meridian trays are held, or released. -/
theorem State.router_fleetLinks (held : Bool) (rack r : Fin 32) (pl : Fin 4) (s : State) : (s.fleetLinks held rack).router (.meridian r pl) =
    if r = rack then holdFleetPorts held (s.router (.meridian r pl)) else s.router (.meridian r pl) := by
  unfold State.fleetLinks
  by_cases hr : r = rack
  · subst hr
    rw [if_pos rfl]
    refine (foldl_once (obs := fun s : State => s.router (.meridian r pl)) (g := holdFleetPorts held) (b := pl) (fun s c hc => ?_) (fun s => ?_) _
      (List.nodup_finRange 4) s).trans (if_pos (List.mem_finRange pl))
    · exact State.router_setRouter_ne (fun e => hc (congrArg Prod.snd e).symm) ..
    · exact State.router_setRouter ..
  · rw [if_neg hr]
    exact foldl_kept _ (fun s : State => s.router (.meridian r pl)) (fun s c => State.router_setRouter_ne (fun e => hr (congrArg Prod.fst e)) _ s) _ s
theorem State.fleetLinks_pkgs (held : Bool) (rack : Fin 32) (s : State) : (s.fleetLinks held rack).pkgs = s.pkgs := by
  unfold State.fleetLinks
  refine foldl_kept _ State.pkgs (fun s pl => ?_) _ s
  rfl
/-- The links of several racks. -/
def State.fleetLinksAll (held : Bool) (l : List (Fin 32)) (s : State) : State := l.foldl (fun s r => s.fleetLinks held r) s
theorem State.fleetLinksAll_pkgs (held : Bool) (l : List (Fin 32)) (s : State) : (s.fleetLinksAll held l).pkgs = s.pkgs :=
  foldl_kept _ State.pkgs (fun s r => s.fleetLinks_pkgs held r) l s
theorem State.port_fleetLinksAll {l : List (Fin 32)} (hl : l.Nodup) {n : Nat} (hn : n < 144) (held : Bool) (r : Fin 32) (pl : Fin 4) (s : State) :
    ((s.fleetLinksAll held l).router (.meridian r pl)).port (144 + n) =
      if r ∈ l then ((s.router (.meridian r pl)).port (144 + n)).fleetHeld held else (s.router (.meridian r pl)).port (144 + n) :=
  foldl_once (obs := fun s : State => (s.router (.meridian r pl)).port (144 + n)) (g := PortSt.fleetHeld held) (b := r)
    (fun s c hc => by rw [State.router_fleetLinks, if_neg (Ne.symm hc)])
    (fun s => by rw [State.router_fleetLinks, if_pos rfl, holdFleetPorts_port hn]) l hl s

/-! ### Who is a member -/

/-- The racks that have a helm. -/
def State.live (s : State) : List (Fin 32) := (List.finRange 32).filter fun r => (s.helm r).isSome
/-- A rack wins its number. -/
def State.winsNumber (s : State) (r : Fin 32) : Bool :=
  s.winner (s.live.filter fun q => (s.rack q).rackNumber = (s.rack r).rackNumber) = some r
/-- The racks that are kept, and the others. -/
def State.keptRacks (s : State) : List (Fin 32) := s.live.filter s.winsNumber
def State.outRacks (s : State) : List (Fin 32) := s.live.filter fun r => !s.winsNumber r
/-- The members after a discovery. -/
def State.membersFound (s : State) : List Nat :=
  s.keptRacks.foldl (fun l r => addTo l r.val) (s.fleet.members.filter fun m => !s.outRacks.any fun r => r.val = m)
/-- The links after a discovery. -/
def State.linksFound (s : State) : State :=
  (s.fleetLinksAll true s.outRacks).fleetLinksAll false (s.keptRacks.filter fun r => s.fleet.isolated.contains r.val)
/-- The machine after a discovery. -/
def State.discovered (rack : Fin 32) (s : State) : State :=
  { s.linksFound with fleet := { s.linksFound.fleet with
      members := s.membersFound, isolated := s.outRacks.map (·.val), flagship := if s.fleet.members.isEmpty then rack.val else s.fleet.flagship } }
theorem exec_fleetDiscovery : exec (.fleetDiscovery rack) s =
    if (s.helm rack).isNone ∨ !s.fleet.leads rack.val then .next s else .next (s.discovered rack) := rfl
theorem State.mem_live : r ∈ s.live ↔ s.helm r ≠ none := by
  rw [State.live, List.mem_filter, and_iff_right (List.mem_finRange r), Option.isSome_iff_ne_none]
theorem State.mem_keptRacks : r ∈ s.keptRacks ↔ s.helm r ≠ none ∧ s.winsNumber r = true := by
  rw [State.keptRacks, List.mem_filter, State.mem_live]
theorem State.mem_outRacks : r ∈ s.outRacks ↔ s.helm r ≠ none ∧ s.winsNumber r = false := by
  rw [State.outRacks, List.mem_filter, State.mem_live, Bool.not_eq_true']
theorem mem_addTo {l : List Nat} {m n : Nat} : m ∈ addTo l n ↔ m ∈ l ∨ m = n := by
  unfold addTo
  split
  next h => exact ⟨.inl, fun h' => h'.elim id fun e => e ▸ List.contains_iff_mem.1 h⟩
  next => rw [List.mem_append, List.mem_singleton]
theorem mem_foldl_addTo (m : Nat) : ∀ (rs : List (Fin 32)) (l : List Nat), m ∈ rs.foldl (fun l r => addTo l r.val) l ↔ m ∈ l ∨ ∃ r ∈ rs, m = r.val
  | [], l => by simp
  | r :: rs, l => by
    rw [List.foldl_cons, mem_foldl_addTo m rs, mem_addTo]
    simp only [List.mem_cons, exists_eq_or_imp, or_assoc]
theorem State.mem_membersFound (hr : s.helm r ≠ none) : r.val ∈ s.membersFound ↔ s.winsNumber r = true := by
  rw [State.membersFound, mem_foldl_addTo, List.mem_filter]
  constructor
  · rintro (⟨_, h⟩ | ⟨q, hq, e⟩)
    · cases hw : s.winsNumber r with
      | true => rfl
      | false =>
        rw [List.any_eq_true.2 ⟨r, State.mem_outRacks.2 ⟨hr, hw⟩, decide_eq_true rfl⟩] at h
        cases h
    · rw [Fin.ext e]
      exact (State.mem_keptRacks.1 hq).2
  · exact fun hw => .inr ⟨r, State.mem_keptRacks.2 ⟨hr, hw⟩, rfl⟩
theorem State.isolated_found (r : Fin 32) : (s.outRacks.map (·.val)).contains r.val = true ↔ r ∈ s.outRacks := by
  rw [List.contains_iff_mem, List.mem_map]
  exact ⟨fun ⟨q, hq, e⟩ => Fin.ext e ▸ hq, fun h => ⟨r, h, rfl⟩⟩
theorem State.live_nodup (s : State) : s.live.Nodup := (List.nodup_finRange 32).filter _
/-- The winner of a rack number is one rack. -/
theorem State.winsNumber_unique (h1 : s.winsNumber q = true) (h2 : s.winsNumber r = true) (hn : (s.rack q).rackNumber = (s.rack r).rackNumber) : q = r := by
  unfold State.winsNumber at h1 h2
  rw [decide_eq_true_eq] at h1 h2
  rw [hn, h2] at h1
  exact (Option.some.inj h1).symm
theorem discoveries (s : State) (rack : Fin 32) :
    let f := s.fleet
    ((s.helm rack = none ∨ f.leads rack.val = false) → exec (.fleetDiscovery rack) s = .next s) ∧
    (s.helm rack ≠ none → f.leads rack.val = true → ∃ t, exec (.fleetDiscovery rack) s = .next t ∧ t.pkgs = s.pkgs ∧
      (f.members = [] → t.fleet.flagship = rack.val) ∧ (f.members ≠ [] → t.fleet.flagship = f.flagship) ∧
      (∀ q r : Fin 32, s.helm q ≠ none → s.helm r ≠ none → (s.rack q).rackNumber = (s.rack r).rackNumber →
        t.fleet.members.contains q.val = true → t.fleet.members.contains r.val = true → q = r) ∧
      (∀ r : Fin 32, s.helm r ≠ none → t.fleet.members.contains r.val = !t.fleet.isolated.contains r.val) ∧
      (∀ (r : Fin 32) (pl : Fin 4) n, n < 144 →
        let x := (s.router (.meridian r pl)).port (144 + n)
        let y := (t.router (.meridian r pl)).port (144 + n)
        (t.fleet.isolated.contains r.val = true → y.state = .heldDown) ∧
        (t.fleet.isolated.contains r.val = false → f.isolated.contains r.val = false → y = x) ∧
        (s.helm r ≠ none → t.fleet.isolated.contains r.val = false → f.isolated.contains r.val = true → x.state = .heldDown → y.state = .training))) := by
  intro f
  refine ⟨fun h => exec_fleetDiscovery.trans (if_pos ?_), fun hh hl => ⟨s.discovered rack, exec_fleetDiscovery.trans (if_neg ?_), ?_⟩⟩
  · rcases h with h | h
    · exact .inl (by rw [h]; rfl)
    · exact .inr (by rw [show s.fleet.leads rack.val = false from h]; rfl)
  · rintro (h | h)
    · exact hh (Option.isNone_iff_eq_none.1 h)
    · rw [show s.fleet.leads rack.val = true from hl] at h
      cases h
  have hmem : (s.discovered rack).fleet.members = s.membersFound := rfl
  have hiso : (s.discovered rack).fleet.isolated = s.outRacks.map (·.val) := rfl
  have hflag : (s.discovered rack).fleet.flagship = if s.fleet.members.isEmpty then rack.val else s.fleet.flagship := rfl
  have hrt (r : Fin 32) (pl : Fin 4) : (s.discovered rack).router (.meridian r pl) = s.linksFound.router (.meridian r pl) := rfl
  have hpk : (s.discovered rack).pkgs = s.linksFound.pkgs := rfl
  refine ⟨?_, fun hm => ?_, fun hm => ?_, fun q r hq hr hn h1 h2 => ?_, fun r hr => ?_, fun r pl n hn => ?_⟩
  · rw [hpk, State.linksFound, State.fleetLinksAll_pkgs, State.fleetLinksAll_pkgs]
  · rw [hflag, if_pos (List.isEmpty_iff.2 hm)]
  · rw [hflag, if_neg fun h => hm (List.isEmpty_iff.1 h)]
  · rw [hmem, List.contains_iff_mem] at h1 h2
    exact State.winsNumber_unique ((State.mem_membersFound hq).1 h1) ((State.mem_membersFound hr).1 h2) hn
  · rw [hmem, hiso, Bool.eq_iff_iff, Bool.not_eq_true', ← Bool.not_eq_true, State.isolated_found, List.contains_iff_mem, State.mem_membersFound hr,
      State.mem_outRacks]
    cases s.winsNumber r <;> simp [hr]
  · have hout : s.outRacks.Nodup := s.live_nodup.filter _
    have hkept : (s.keptRacks.filter fun r => s.fleet.isolated.contains r.val).Nodup := (s.live_nodup.filter _).filter _
    dsimp only
    rw [hiso, hrt, State.linksFound, State.port_fleetLinksAll hkept hn, State.port_fleetLinksAll hout hn, ← Bool.not_eq_true, State.isolated_found]
    refine ⟨fun h => ?_, fun h hi => ?_, fun hr h hi hx => ?_⟩
    · have hk : r ∉ s.keptRacks.filter fun r => s.fleet.isolated.contains r.val := fun hk => by
        have h1 := (State.mem_keptRacks.1 (List.mem_filter.1 hk).1).2
        rw [(State.mem_outRacks.1 h).2] at h1
        cases h1
      rw [if_neg hk, if_pos h]
      exact PortSt.fleetHeld_held _
    · have hk : r ∉ s.keptRacks.filter fun r => s.fleet.isolated.contains r.val := fun hk => Bool.noConfusion (hi.symm.trans (List.mem_filter.1 hk).2)
      rw [if_neg hk, if_neg h]
    · have hw : s.winsNumber r = true := by
        cases hw : s.winsNumber r with
        | true => rfl
        | false => exact absurd (State.mem_outRacks.2 ⟨hr, hw⟩) h
      rw [if_pos (List.mem_filter.2 ⟨State.mem_keptRacks.2 ⟨hr, hw⟩, hi⟩), if_neg h]
      exact PortSt.fleetHeld_free hx
end Sys2Proof.Machine
end

section
/-! PROOF. Fleet turns (R102, R112, R137, R311): the turn at the lead, the orders at the helms, and the reports of commits. -/
namespace Sys2Proof.Machine
open Sys2Proof

variable {s t u : State} {rack q r : Fin 32} {h a b : AlmId} {img : List Byte} {images : List (Fin 32 × List Byte)} {ck : Bool} {t0 : Nat} {term : Word}

theorem State.Logged.fleet (hl : s.Logged t) : t.fleet = s.fleet := by rw [hl.rest]
theorem State.Logged.ite {c : Prop} [Decidable c] (h : s.Logged t) (h' : s.Logged u) : s.Logged (if c then t else u) := by split <;> assumption

/-! ### FLEET_TURN -/

/-- The fleet turn as it is taken. -/
def State.turnBegun (rack : Fin 32) (t0 : Nat) (img : List Byte) (images : List (Fin 32 × List Byte)) (s : State) : State :=
  { s with fleet := { s.fleet with turnT0 := some t0, turnImage := img, turnImages := images.map (fun e => (e.1.val, e.2)),
                                   turnRegion := 0, turnCommits := [], turnMaster := rack.val, withdrawing := none } }
/-- A rack is sent its image and the fleet T0. -/
def State.rackOrdered (h : AlmId) (t0 : Nat) (s : State) (e : Fin 32 × List Byte) : State :=
  s.setAlm h (((s.alm h).emit (.image e.1.val e.2)).emit (.order e.1.val t0))
theorem fleetTurn_kept (t0 : Nat) (img : List Byte) (hc : s.helm rack = none ∨ s.fleet.leads rack.val = false ∨ s.fleet.turnT0 ≠ none) :
    exec (.fleetTurn rack t0 img ⟨images, ck⟩) s = .next s := by
  change execFleetTurn rack t0 img ⟨images, ck⟩ s = _
  unfold execFleetTurn
  cases hh : s.helm rack with
  | none => rfl
  | some h =>
    refine if_pos ?_
    rcases hc with hc | hc | hc
    · rw [hh] at hc; cases hc
    · rw [hc]; rfl
    · rw [Option.isSome_iff_ne_none.2 hc, Bool.or_true]
theorem exec_fleetTurn (t0 : Nat) (img : List Byte) (hh : s.helm rack = some h) (hl : s.fleet.leads rack.val = true) (ht : s.fleet.turnT0 = none) :
    exec (.fleetTurn rack t0 img ⟨images, ck⟩) s =
      if !s.fleetOrderOk img images ck then .next (s.setAlm h ((s.alm h).emit (.command "FLEET_TURN_REFUSED" rack.val t0)))
      else .next (images.foldl (State.rackOrdered h t0) (s.turnBegun rack t0 img images)) := by
  change execFleetTurn rack t0 img ⟨images, ck⟩ s = _
  unfold execFleetTurn
  rw [hh]
  exact if_neg (by rw [hl, ht]; exact Bool.noConfusion)
theorem State.fleetOrderOk_spec (h : s.fleetOrderOk img images ck = true) :
    ck = true ∧ fleetImageOk img = true ∧ parentsAgree img (images.map (·.2)) = true := by
  unfold State.fleetOrderOk at h
  simp only [Bool.and_eq_true] at h
  exact ⟨h.1.1.1, h.1.1.2, h.1.2⟩
/-- What the orders leave: the lead has sent them. -/
theorem State.rackOrdered_told (h : AlmId) (t0 : Nat) (s : State) (e : Fin 32 × List Byte) :
    Msg.image e.1.val e.2 ∈ ((s.rackOrdered h t0 e).alm h).out ∧ Msg.order e.1.val t0 ∈ ((s.rackOrdered h t0 e).alm h).out ∧
    ∀ m ∈ (s.alm h).out, m ∈ ((s.rackOrdered h t0 e).alm h).out := by
  unfold State.rackOrdered
  rw [State.alm_setAlm_same]
  refine ⟨?_, ?_, fun m hm => ?_⟩ <;> simp [AlmSt.emit, *]
theorem State.rackOrdered_out (h : AlmId) (t0 : Nat) : ∀ (l : List (Fin 32 × List Byte)) (s : State),
    (∀ m ∈ (s.alm h).out, m ∈ ((l.foldl (State.rackOrdered h t0) s).alm h).out) ∧
    ∀ e ∈ l, Msg.image e.1.val e.2 ∈ ((l.foldl (State.rackOrdered h t0) s).alm h).out ∧ Msg.order e.1.val t0 ∈ ((l.foldl (State.rackOrdered h t0) s).alm h).out
  | [], s => ⟨fun _ hm => hm, fun _ he => absurd he List.not_mem_nil⟩
  | e :: l, s => by
    obtain ⟨h1, h2⟩ := State.rackOrdered_out h t0 l (s.rackOrdered h t0 e)
    obtain ⟨g1, g2, g3⟩ := s.rackOrdered_told h t0 e
    rw [List.foldl_cons]
    refine ⟨fun m hm => h1 m (g3 m hm), fun e' he => ?_⟩
    rcases List.mem_cons.1 he with rfl | he
    · exact ⟨h1 _ g1, h1 _ g2⟩
    · exact h2 e' he
theorem fleetTurns (s : State) (rack : Fin 32) :
    let f := s.fleet
    (∀ t0 img images ck, (s.helm rack = none ∨ f.leads rack.val = false ∨ f.turnT0 ≠ none) → exec (.fleetTurn rack t0 img ⟨images, ck⟩) s = .next s) ∧
    (∀ t0 img images ck h, s.helm rack = some h → f.leads rack.val = true → f.turnT0 = none →
      (s.fleetOrderOk img images ck = false → exec (.fleetTurn rack t0 img ⟨images, ck⟩) s =
        .next (s.setAlm h ((s.alm h).emit (.command "FLEET_TURN_REFUSED" rack.val t0)))) ∧
      (s.fleetOrderOk img images ck = true → ck = true ∧ fleetImageOk img = true ∧ parentsAgree img (images.map (·.2)) = true ∧ ∃ t,
        exec (.fleetTurn rack t0 img ⟨images, ck⟩) s = .next t ∧ t.fleet.turnT0 = some t0 ∧ t.fleet.turnImage = img ∧ t.fleet.turnRegion = 0 ∧
        t.fleet.turnCommits = [] ∧ t.fleet.turnMaster = rack.val ∧ t.fleet.withdrawing = none ∧ t.pkgs = s.pkgs ∧
        ∀ e ∈ images, Msg.image e.1.val e.2 ∈ (t.alm h).out ∧ Msg.order e.1.val t0 ∈ (t.alm h).out)) := by
  intro f
  refine ⟨fun t0 img images ck hc => fleetTurn_kept t0 img hc, fun t0 img images ck h hh hl ht => ⟨fun ho => ?_, fun ho => ?_⟩⟩
  · exact (exec_fleetTurn t0 img hh hl ht).trans (if_pos (by rw [ho]; rfl))
  · obtain ⟨h1, h2, h3⟩ := State.fleetOrderOk_spec ho
    refine ⟨h1, h2, h3, _, (exec_fleetTurn t0 img hh hl ht).trans (if_neg (by rw [ho]; exact Bool.noConfusion)), ?_⟩
    have hf : (images.foldl (State.rackOrdered h t0) (s.turnBegun rack t0 img images)).fleet = (s.turnBegun rack t0 img images).fleet :=
      foldl_kept (State.rackOrdered h t0) State.fleet (fun _ _ => rfl) images _
    have hp : (images.foldl (State.rackOrdered h t0) (s.turnBegun rack t0 img images)).pkgs = (s.turnBegun rack t0 img images).pkgs :=
      foldl_kept (State.rackOrdered h t0) State.pkgs (fun _ _ => rfl) images _
    rw [hf, hp]
    exact ⟨rfl, rfl, rfl, rfl, rfl, rfl, rfl, (State.rackOrdered_out h t0 images _).2⟩

/-! ### FLEET_ORDER -/

/-- The term of an order enters the log. -/
def State.termTaken (rack : Fin 32) (term : Word) (s : State) : State := s.logs rack fun l => { l with term := term }
/-- The rack's image and T0 enter the log. -/
def State.turnLogged (rack : Fin 32) (t0 : Nat) (image : List Byte) (s : State) : State :=
  s.logs rack fun l => { l with shadowChart := image, turnT0 := some t0, commits := [] }
/-- The packages that turn learn the fleet region of their rack. -/
def State.regionTold (rack : Fin 32) (region : Option (Nat × Nat)) (s : State) : State :=
  (rackPkgs rack).foldl (fun s p =>
    let k := s.pkg p
    if k.turning then s else s.setPkg p (k.setChart fun c => { c with fleet := region })) s
/-- The rack turns. -/
def State.fleetOrdered (rack : Fin 32) (h : AlmId) (term : Word) (t0 : Nat) (image : List Byte) (s : State) : State :=
  (((s.termTaken rack term).turnLogged rack t0 image).regionTold rack (fleetRegion s.fleet.turnImage (s.rack rack).rackNumber)).sendAction h rack.val
    (.turnGo (BitVec.ofNat 32 (chEpoch image)) t0)
theorem fleetOrder_none (term : Word) (t0 : Nat) (hh : s.helm rack = none) : exec (.fleetOrder rack term t0) s = .next s := by
  change execFleetOrder rack term t0 s = _
  unfold execFleetOrder
  rw [hh]
theorem fleetOrder_stale (t0 : Nat) (hh : s.helm rack = some h) (ht : term.toNat < (s.alm h).log.term.toNat) :
    exec (.fleetOrder rack term t0) s = .next (s.setAlm h ((s.alm h).emit (.command "STALE_TERM" rack.val term.toNat))) := by
  change execFleetOrder rack term t0 s = _
  unfold execFleetOrder
  rw [hh]
  exact if_pos ht
/-- What an order under a term that is not stale sets in motion. -/
def State.orderTaken (rack : Fin 32) (h : AlmId) (term : Word) (t0 : Nat) (s : State) : State :=
  match s.fleet.turnImages.find? fun e => e.1 = rack.val with
  | none => s.termTaken rack term
  | some e =>
    if s.fleet.turnT0 ≠ some t0 then s.termTaken rack term
    else match s.refuseTurn h e.2 with
    | some why => (s.termTaken rack term).setAlm h (((s.termTaken rack term).alm h).emit (.command why rack.val t0))
    | none => s.fleetOrdered rack h term t0 e.2
theorem exec_fleetOrder (t0 : Nat) (hh : s.helm rack = some h) (ht : (s.alm h).log.term.toNat ≤ term.toNat) :
    exec (.fleetOrder rack term t0) s = .next (s.orderTaken rack h term t0) := by
  change execFleetOrder rack term t0 s = _
  unfold execFleetOrder State.orderTaken
  rw [hh]
  refine (if_neg (not_lt.2 ht)).trans ?_
  dsimp only
  cases s.fleet.turnImages.find? fun e => e.1 = rack.val with
  | none => rfl
  | some e =>
    dsimp only
    by_cases h0 : s.fleet.turnT0 ≠ some t0
    · rw [if_pos h0, if_pos h0]
      rfl
    · rw [if_neg h0, if_neg h0]
      cases s.refuseTurn h e.2 <;> rfl
theorem State.regionTold_almanacs (rack : Fin 32) (region : Option (Nat × Nat)) (s : State) : (s.regionTold rack region).almanacs = s.almanacs := by
  unfold State.regionTold
  refine foldl_kept _ State.almanacs (fun s p => ?_) _ s
  dsimp only
  split <;> rfl
theorem State.alm_of_almanacs (ha : t.almanacs = s.almanacs) (a : AlmId) : t.alm a = s.alm a := by rw [State.alm, ha, ← State.alm]
/-- The helm's log once the rack turns, and what it has sent. -/
theorem State.fleetOrdered_spec (hh : s.helm rack = some h) (term : Word) (t0 : Nat) (image : List Byte) :
    ∃ l, ((s.fleetOrdered rack h term t0 image).alm h).log =
      { (s.alm h).log with term := term, shadowChart := image, turnT0 := some t0, commits := [], actions := l } ∧
    Msg.fenced rack.val (s.alm h).log.epoch (.turnGo (BitVec.ofNat 32 (chEpoch image)) t0) ∈ ((s.fleetOrdered rack h term t0 image).alm h).out := by
  have hr : h.rack = rack := alm_rack_of_helm hh
  have h1 : (s.termTaken rack term).helm rack = some h := (State.helm_logs (f := fun l => { l with term := term }) (fun _ => rfl) ..).trans hh
  have h2 : ((s.termTaken rack term).turnLogged rack t0 image).helm rack = some h :=
    (State.helm_logs (f := fun l => { l with shadowChart := image, turnT0 := some t0, commits := [] }) (fun _ => rfl) ..).trans h1
  have g1 : (s.termTaken rack term).alm h = { s.alm h with log := { (s.alm h).log with term := term } } := State.logs_helm (fun l => { l with term := term }) hh
  have g2 : ((s.termTaken rack term).turnLogged rack t0 image).alm h = { (s.termTaken rack term).alm h with
    log := { ((s.termTaken rack term).alm h).log with shadowChart := image, turnT0 := some t0, commits := [] } } :=
    State.logs_helm (fun l => { l with shadowChart := image, turnT0 := some t0, commits := [] }) h1
  have ha := State.regionTold_almanacs rack (fleetRegion s.fleet.turnImage (s.rack rack).rackNumber) ((s.termTaken rack term).turnLogged rack t0 image)
  unfold State.fleetOrdered
  generalize ((s.termTaken rack term).turnLogged rack t0 image).regionTold rack _ = v at ha
  have h3 : v.helm h.rack = some h := by
    rw [hr]
    exact (helm_congr (fun a _ => by rw [State.alm_of_almanacs ha]) (fun a _ => by rw [State.alm_of_almanacs ha])).trans h2
  have hs := State.sendAction_acted (key := rack.val) (kind := .turnGo (BitVec.ofNat 32 (chEpoch image)) t0) h3
  have hv : (v.alm h).log = { (s.alm h).log with term := term, shadowChart := image, turnT0 := some t0, commits := [] } := by
    rw [State.alm_of_almanacs ha, g2, g1]
  have he : (v.alm h).log.epoch = (s.alm h).log.epoch := by rw [hv]
  refine ⟨(v.alm h).log.actions ++ [(rack.val, (v.alm h).log.epoch, .turnGo (BitVec.ofNat 32 (chEpoch image)) t0)], ?_, he ▸ hs.told⟩
  rw [hs.log, hv]
theorem fleetOrders (s : State) (rack : Fin 32) :
    let f := s.fleet
    (∀ term t0, s.helm rack = none → exec (.fleetOrder rack term t0) s = .next s) ∧
    (∀ term t0 h, s.helm rack = some h → term.toNat < (s.alm h).log.term.toNat → exec (.fleetOrder rack term t0) s =
      .next (s.setAlm h ((s.alm h).emit (.command "STALE_TERM" rack.val term.toNat)))) ∧
    (∀ term t0 h, s.helm rack = some h → (s.alm h).log.term.toNat ≤ term.toNat → ∃ t, exec (.fleetOrder rack term t0) s = .next t ∧
      (t.alm h).log.term = term ∧ ∀ e, f.turnImages.find? (fun e => e.1 = rack.val) = some e → f.turnT0 = some t0 →
        (∀ why, s.refuseTurn h e.2 = some why → Msg.command why rack.val t0 ∈ (t.alm h).out ∧ (t.alm h).log.turnT0 = (s.alm h).log.turnT0 ∧
          (t.alm h).log.shadowChart = (s.alm h).log.shadowChart ∧ t.pkgs = s.pkgs) ∧
        (s.refuseTurn h e.2 = none → (t.alm h).log.shadowChart = e.2 ∧ (t.alm h).log.turnT0 = some t0 ∧
          Msg.fenced rack.val (s.alm h).log.epoch (.turnGo (BitVec.ofNat 32 (chEpoch e.2)) t0) ∈ (t.alm h).out)) := by
  intro f
  refine ⟨fun term t0 hh => fleetOrder_none term t0 hh, fun term t0 h hh ht => fleetOrder_stale t0 hh ht, fun term t0 h hh ht => ?_⟩
  refine ⟨_, exec_fleetOrder t0 hh ht, ?_⟩
  have g1 : (s.termTaken rack term).alm h = { s.alm h with log := { (s.alm h).log with term := term } } := State.logs_helm (fun l => { l with term := term }) hh
  have gl : ((s.termTaken rack term).alm h).log = { (s.alm h).log with term := term } := by rw [g1]
  have gp : (s.termTaken rack term).pkgs = s.pkgs := State.logs_pkgs ..
  unfold State.orderTaken
  cases hf : s.fleet.turnImages.find? fun e => e.1 = rack.val with
  | none =>
    dsimp only
    rw [gl]
    exact ⟨rfl, fun e he => nomatch he⟩
  | some e =>
    dsimp only
    by_cases h0 : s.fleet.turnT0 = some t0
    · rw [if_neg (not_not.2 h0)]
      cases hw : s.refuseTurn h e.2 with
      | some why =>
        dsimp only
        rw [State.setAlm_emit_log, gl]
        refine ⟨rfl, fun e' he _ => ?_⟩
        cases he
        refine ⟨fun why' hw' => ?_, fun hn => absurd (hw.symm.trans hn) (Option.some_ne_none why)⟩
        cases hw.symm.trans hw'
        rw [State.alm_setAlm_same]
        exact ⟨List.mem_append_right _ (List.mem_singleton.2 rfl), rfl, rfl, gp⟩
      | none =>
        dsimp only
        obtain ⟨l, k1, k2⟩ := State.fleetOrdered_spec hh term t0 e.2
        rw [k1]
        refine ⟨rfl, fun e' he _ => ?_⟩
        cases he
        exact ⟨fun why hw' => absurd (hw.symm.trans hw') (Option.some_ne_none why).symm, fun _ => ⟨rfl, rfl, k2⟩⟩
    · rw [if_pos h0, gl]
      exact ⟨rfl, fun _ _ h => absurd h h0⟩

/-! ### RACK_COMMIT_REPORT -/

/-- A report is taken. -/
def State.reported (rack src : Fin 32) (s : State) : State :=
  { s with fleet := { s.fleet with turnCommits := addTo s.fleet.turnCommits src.val } }.logs rack fun l => { l with commits := addTo l.commits src.val }
/-- The fleet turn ends once its last region has committed. -/
def State.fleetTaken (s : State) (img : List Byte) (u : State) : State :=
  { u.retireFleet with fleet := { u.retireFleet.fleet.closed with
      chart := img, flagship := (s.memberOf (routeFlagship img)).getD s.fleet.flagship, successors := (routeSucc img).filterMap s.memberOf } }
theorem exec_rackCommitReport (src : Fin 32) : exec (.rackCommitReport rack src) s =
    if (s.helm rack).isNone ∨ !s.fleet.leads rack.val ∨ s.fleet.turnT0.isNone ∨ s.fleet.withdrawing.isSome ∨ !s.rackCommitted src then .next s
    else if !(s.regionRacks s.fleet.turnRegion).all (addTo s.fleet.turnCommits src.val).contains then .next (s.reported rack src)
    else if s.fleet.turnRegion < lastRegion s.fleet.turnImage then
      .next { s.reported rack src with fleet := { (s.reported rack src).fleet with turnRegion := s.fleet.turnRegion + 1 } }
    else .next (State.fleetTaken s s.fleet.turnImage (s.reported rack src)) := rfl
theorem State.reported_fleet (rack src : Fin 32) (s : State) :
    (s.reported rack src).fleet = { s.fleet with turnCommits := addTo s.fleet.turnCommits src.val } := by
  unfold State.reported
  rw [State.logs_rest]
theorem commitReports (s : State) (rack : Fin 32) :
    let f := s.fleet
    (∀ src, (s.helm rack = none ∨ f.leads rack.val = false ∨ f.turnT0 = none ∨ f.withdrawing ≠ none ∨ s.rackCommitted src = false) →
      exec (.rackCommitReport rack src) s = .next s) ∧
    (∀ src : Fin 32, s.helm rack ≠ none → f.leads rack.val = true → f.turnT0 ≠ none → f.withdrawing = none → s.rackCommitted src = true →
      let done := (s.regionRacks f.turnRegion).all (addTo f.turnCommits src.val).contains
      ∃ t, exec (.rackCommitReport rack src) s = .next t ∧
        (done = false → t.fleet.turnRegion = f.turnRegion ∧ t.fleet.turnCommits = addTo f.turnCommits src.val ∧ t.fleet.turnT0 = f.turnT0) ∧
        (done = true → f.turnRegion < lastRegion f.turnImage → t.fleet.turnRegion = f.turnRegion + 1 ∧ t.fleet.turnT0 = f.turnT0) ∧
        (done = true → lastRegion f.turnImage ≤ f.turnRegion → t.fleet.turnT0 = none ∧ t.fleet.chart = f.turnImage ∧
          t.fleet.flagship = (s.memberOf (routeFlagship f.turnImage)).getD f.flagship ∧
          t.fleet.successors = (routeSucc f.turnImage).filterMap s.memberOf)) := by
  intro f
  refine ⟨fun src hc => ?_, fun src hh hl ht hw hr => ?_⟩
  · rw [exec_rackCommitReport]
    refine if_pos ?_
    rcases hc with h | h | h | h | h
    · exact .inl (by rw [h]; rfl)
    · exact .inr (.inl (by rw [show s.fleet.leads rack.val = false from h]; rfl))
    · exact .inr (.inr (.inl (by rw [show s.fleet.turnT0 = none from h]; rfl)))
    · exact .inr (.inr (.inr (.inl (Option.isSome_iff_ne_none.2 h))))
    · exact .inr (.inr (.inr (.inr (by rw [h]; rfl))))
  · have hc : ¬ ((s.helm rack).isNone ∨ !s.fleet.leads rack.val ∨ s.fleet.turnT0.isNone ∨ s.fleet.withdrawing.isSome ∨ !s.rackCommitted src) := by
      rw [show s.fleet.leads rack.val = true from hl, show s.fleet.withdrawing = none from hw, hr]
      rintro (h | h | h | h | h)
      · exact hh (Option.isNone_iff_eq_none.1 h)
      · cases h
      · exact ht (Option.isNone_iff_eq_none.1 h)
      · cases h
      · cases h
    intro done
    have hf := s.reported_fleet rack src
    by_cases hd : done = true
    · by_cases hr : s.fleet.turnRegion < lastRegion s.fleet.turnImage
      · refine ⟨_, (exec_rackCommitReport src).trans ((if_neg hc).trans ((if_neg ?_).trans (if_pos hr))), fun h => ?_, fun _ _ => ?_, fun _ h => ?_⟩
        · rw [show (s.regionRacks s.fleet.turnRegion).all (addTo s.fleet.turnCommits src.val).contains = true from hd]
          exact Bool.noConfusion
        · rw [hd] at h; cases h
        · dsimp only
          rw [hf]
          exact ⟨rfl, rfl⟩
        · exact absurd hr (not_lt.2 h)
      · refine ⟨_, (exec_rackCommitReport src).trans ((if_neg hc).trans ((if_neg ?_).trans (if_neg hr))), fun h => ?_, fun _ h => ?_, fun _ _ => ?_⟩
        · rw [show (s.regionRacks s.fleet.turnRegion).all (addTo s.fleet.turnCommits src.val).contains = true from hd]
          exact Bool.noConfusion
        · rw [hd] at h; cases h
        · exact absurd h hr
        · exact ⟨rfl, rfl, rfl, rfl⟩
    · rw [Bool.not_eq_true] at hd
      refine ⟨_, (exec_rackCommitReport src).trans ((if_neg hc).trans (if_pos ?_)), fun _ => ?_, fun h => ?_, fun h => ?_⟩
      · rw [show (s.regionRacks s.fleet.turnRegion).all (addTo s.fleet.turnCommits src.val).contains = false from hd]
        rfl
      · rw [hf]
        exact ⟨rfl, rfl, rfl⟩
      · rw [hd] at h; cases h
      · rw [hd] at h; cases h
end Sys2Proof.Machine
end

section
/-! PROOF. Obligation O52: the fleet's flagship, its time, and the withdrawal of a fleet turn (R27–R32, R66, R134, R137, R314). -/
namespace Sys2Proof.Machine
open Sys2Proof

variable {s t u : State} {rack q r : Fin 32} {h a b : AlmId} {p : PkgId}

/-! ### FLAGSHIP_TAKEOVER -/

/-- The successors that have a helm. -/
def State.ableSuccessors (s : State) : List Nat := s.fleet.successors.filter fun r => (s.helm (rackAt r)).isSome
/-- For 2 s the flagship has had no helm. -/
def State.flagshipLost (s : State) : Bool :=
  match s.fleet.lostAt with
  | some t => decide (t + 2 * 10 ^ 9 ≤ s.now)
  | none => false
theorem State.flagshipLost_iff : s.flagshipLost = true ↔ ∃ t, s.fleet.lostAt = some t ∧ t + 2000000000 ≤ s.now := by
  unfold State.flagshipLost
  cases s.fleet.lostAt with
  | none => exact ⟨fun h => (nomatch h), fun ⟨_, h, _⟩ => (nomatch h)⟩
  | some t =>
    rw [decide_eq_true_eq]
    exact ⟨fun h => ⟨t, rfl, h⟩, fun ⟨_, ht, h⟩ => by cases ht; exact h⟩
/-- A new term begins at the rack's helm, and a fleet turn is withdrawn. -/
def State.termBegun (rack : Fin 32) (s : State) : State :=
  (s.logs rack fun l => { l with term := l.term + 1 }).withdrawFleet [] 10 s.fleet.turnRegion
/-- The rack takes the fleet roles. -/
def State.takenOver (rack : Fin 32) (s : State) : State :=
  { s.termBegun rack with fleet := { (s.termBegun rack).fleet with
      flagship := rack.val, successors := dropFrom (s.termBegun rack).fleet.successors rack.val, turnMaster := rack.val, lostAt := none } }
theorem exec_flagshipTakeover : exec (.flagshipTakeover rack) s =
    if s.ableSuccessors.head? ≠ some rack.val ∨ !s.flagshipLost ∨ (s.helm (rackAt s.fleet.flagship)).isSome then .next s
    else .next (s.takenOver rack) := rfl
/-- What the withdrawal of a fleet turn changes. -/
theorem State.withdrawFleet_spec (first : List Nat) (cause region : Nat) (s : State) :
    s.withdrawFleet first cause region = { s with fleet := (s.withdrawFleet first cause region).fleet } ∧
    (s.withdrawFleet first cause region).fleet =
      { s.fleet with withdrawing := (s.withdrawFleet first cause region).fleet.withdrawing, wdCause := (s.withdrawFleet first cause region).fleet.wdCause } ∧
    (s.fleet.turnT0 ≠ none → (s.withdrawFleet first cause region).fleet.withdrawing ≠ none) ∧
    (s.fleet.turnT0 ≠ none → s.fleet.withdrawing = none →
      (s.withdrawFleet first cause region).fleet.withdrawing = some (first ++ s.enteredRacks.filter fun r => !first.contains r) ∧
      (s.withdrawFleet first cause region).fleet.wdCause = (cause, region)) := by
  unfold State.withdrawFleet
  by_cases hc : s.fleet.turnT0.isNone ∨ s.fleet.withdrawing.isSome
  · rw [if_pos hc]
    refine ⟨rfl, rfl, fun ht => ?_, fun ht hw => ?_⟩
    · exact Option.isSome_iff_ne_none.1 (hc.resolve_left fun h => ht (Option.isNone_iff_eq_none.1 h))
    · rcases hc with h | h
      · exact absurd (Option.isNone_iff_eq_none.1 h) ht
      · rw [hw] at h; cases h
  · rw [if_neg hc]
    exact ⟨rfl, rfl, fun _ h => (nomatch h), fun _ _ => ⟨rfl, rfl⟩⟩
theorem State.timeMaster_own (h : s.fleet.isolated.contains rack.val = false) (hm : ∃ m ∈ s.fleet.members, m ≠ rack.val) :
    s.timeMaster rack = s.helm ⟨s.fleet.flagship % 32, Nat.mod_lt _ (by decide)⟩ := by
  refine if_neg ?_
  rintro (h' | h')
  · rw [h] at h'; cases h'
  · obtain ⟨m, hm, hne⟩ := hm
    exact hne (of_decide_eq_true (List.all_eq_true.1 h' m hm))
theorem takeovers (s : State) (rack : Fin 32) :
    let f := s.fleet
    let able := f.successors.filter fun r => (s.helm (rackAt r)).isSome
    let lost := (s.helm (rackAt f.flagship)) = none ∧ ∃ t, f.lostAt = some t ∧ t + 2000000000 ≤ s.now
    ((able.head? ≠ some rack.val ∨ ¬ lost) → exec (.flagshipTakeover rack) s = .next s) ∧
    (able.head? = some rack.val → lost → ∃ t, exec (.flagshipTakeover rack) s = .next t ∧ t.fleet.flagship = rack.val ∧ t.fleet.turnT0 = f.turnT0 ∧
      (f.turnT0 ≠ none → t.fleet.withdrawing ≠ none) ∧
      (f.turnT0 ≠ none → f.withdrawing = none → t.fleet.withdrawing = some s.enteredRacks ∧ t.fleet.wdCause.1 = 10) ∧
      t.fleet.successors = f.successors.filter (· ≠ rack.val) ∧ t.fleet.turnMaster = rack.val ∧ t.pkgs = s.pkgs ∧
      (∀ a, s.helm rack = some a → (t.alm a).log.term = (s.alm a).log.term + 1) ∧
      ∀ r : Fin 32, f.isolated.contains r.val = false → (∃ m ∈ f.members, m ≠ r.val) → t.timeMaster r = s.helm rack) := by
  intro f able lost
  refine ⟨fun hc => exec_flagshipTakeover.trans (if_pos ?_), fun ha hl => ⟨s.takenOver rack, exec_flagshipTakeover.trans (if_neg ?_), ?_⟩⟩
  · rcases hc with h | h
    · exact .inl h
    · by_cases hh : (s.helm (rackAt f.flagship)) = none
      · refine .inr (.inl ?_)
        rw [Bool.not_eq_true', ← Bool.not_eq_true]
        exact fun hl => h ⟨hh, State.flagshipLost_iff.1 hl⟩
      · exact .inr (.inr (Option.isSome_iff_ne_none.2 hh))
  · rintro (h | h | h)
    · exact h ha
    · rw [State.flagshipLost_iff.2 hl.2] at h; cases h
    · rw [hl.1] at h; cases h
  obtain ⟨h1, h2, h3, h4⟩ := State.withdrawFleet_spec [] 10 s.fleet.turnRegion (s.logs rack fun l => { l with term := l.term + 1 })
  have hlf : (s.logs rack fun l => { l with term := l.term + 1 }).fleet = s.fleet := by rw [State.logs_rest]
  have hle : (s.logs rack fun l => { l with term := l.term + 1 }).enteredRacks = s.enteredRacks := by rw [State.logs_rest]; rfl
  rw [hlf] at h2 h3 h4
  rw [hle] at h4
  have hb : (s.logs rack fun l => { l with term := l.term + 1 }).withdrawFleet [] 10 s.fleet.turnRegion = s.termBegun rack := rfl
  rw [hb] at h1 h2 h3 h4
  have hflag : (s.takenOver rack).fleet.flagship = rack.val := rfl
  have hwd : (s.takenOver rack).fleet.withdrawing = (s.termBegun rack).fleet.withdrawing := rfl
  have hca : (s.takenOver rack).fleet.wdCause = (s.termBegun rack).fleet.wdCause := rfl
  have hiso : (s.takenOver rack).fleet.isolated = s.fleet.isolated := (congrArg FleetSt.isolated h2 :)
  have hmem : (s.takenOver rack).fleet.members = s.fleet.members := (congrArg FleetSt.members h2 :)
  have hsuc : (s.termBegun rack).fleet.successors = s.fleet.successors := (congrArg FleetSt.successors h2 :)
  have halm : (s.takenOver rack).almanacs = (s.logs rack fun l => { l with term := l.term + 1 }).almanacs := (congrArg State.almanacs h1 :)
  have hpk : (s.takenOver rack).pkgs = s.pkgs := (congrArg State.pkgs h1 :).trans (State.logs_pkgs ..)
  have hhelm : (s.takenOver rack).helm rack = s.helm rack :=
    (helm_congr (fun a _ => by rw [State.alm_of_almanacs halm]) fun a _ => by rw [State.alm_of_almanacs halm]).trans
      (State.helm_logs (f := fun l => { l with term := l.term + 1 }) (fun _ => rfl) ..)
  refine ⟨rfl, (congrArg FleetSt.turnT0 h2 :), fun ht => h3 ht, fun ht hw => ?_, ?_, rfl, hpk, fun a ha => ?_, fun r hr hm => ?_⟩
  · obtain ⟨g1, g2⟩ := h4 ht hw
    rw [hwd, hca, g1, g2]
    refine ⟨congrArg some ?_, rfl⟩
    rw [List.nil_append]
    exact List.filter_eq_self.2 fun _ _ => rfl
  · exact congrArg (fun l => dropFrom l rack.val) hsuc
  · rw [State.alm_of_almanacs halm, State.logs_helm (fun l => { l with term := l.term + 1 }) ha]
  · rw [State.timeMaster_own (by rw [hiso]; exact hr) (by rw [hmem]; exact hm), ← hhelm]
    exact congrArg _ (Fin.ext (Nat.mod_eq_of_lt rack.isLt))
/-- A fleet of several racks has one grandmaster. -/
theorem grandmaster_unique (hm : ∃ m ∈ s.fleet.members, ∃ n ∈ s.fleet.members, m ≠ n) (ha : s.fleet.isolated.contains a.rack.val = false)
    (hb : s.fleet.isolated.contains b.rack.val = false) (ga : s.ptpRole a = .grandmaster) (gb : s.ptpRole b = .grandmaster) : a = b := by
  have hne (n : Nat) : ∃ m ∈ s.fleet.members, m ≠ n := by
    obtain ⟨m, hm, m', hm', hne⟩ := hm
    by_cases h : m = n
    · exact ⟨m', hm', fun h' => hne (h.trans h'.symm)⟩
    · exact ⟨m, hm, h⟩
  have hmaster {c : AlmId} (hg : s.ptpRole c = .grandmaster) : s.timeMaster c.rack = some c := by
    unfold State.ptpRole at hg
    dsimp only at hg
    by_cases h1 : (s.alm c).role = .helm ∧ (s.alm c).ptp
    · rw [if_pos h1] at hg
      by_contra hn
      rw [if_neg hn] at hg
      cases hg
    · rw [if_neg h1] at hg
      split at hg <;> cases hg
  have h1 := hmaster ga
  have h2 := hmaster gb
  rw [State.timeMaster_own ha (hne _)] at h1
  rw [State.timeMaster_own hb (hne _), h1] at h2
  exact Option.some.inj h2

/-! ### The rack that leads a fleet turn -/

/-- A package withdraws as its rack does. -/
def State.fleetWithdraws (s : State) (p : PkgId) : State :=
  s.setPkg p ((s.pkg p).fleetWithdraw s.now s.fleet.wdCause.2 s.fleet.wdCause.1)
/-- The rack at the front withdraws. -/
def State.frontWithdraws (r : Nat) (s : State) : State :=
  (s.turnPkgs (rackAt r)).foldl (fun u p => u.setPkg p ((u.pkg p).fleetWithdraw u.now s.fleet.wdCause.2 s.fleet.wdCause.1)) s
/-- A package ends the fleet turn WITHDRAWN. -/
def State.fleetStops (c : Nat × Nat) (s : State) (p : PkgId) : State :=
  let k := s.pkg p
  if k.turning && k.chart.fleet.isSome then s.setPkg p ((k.turnCause c.1 c.2).endWithdrawn 2) else s
/-- The racks of the turn end it. -/
def State.allStop (s : State) : State :=
  s.fleet.turnImages.foldl (fun u e => (rackPkgs (rackAt e.1)).foldl (State.fleetStops s.fleet.wdCause) u) s
theorem State.withdrawStep_front {rest : List Nat} {r : Nat} (h : s.fleet.withdrawing = some (r :: rest)) : s.withdrawStep =
    if (s.frontWithdraws r).rackWithdrawn (rackAt r) then
      { s.frontWithdraws r with fleet := { (s.frontWithdraws r).fleet with withdrawing := some rest } } else s.frontWithdraws r := by
  unfold State.withdrawStep
  rw [h]
  rfl
theorem State.withdrawStep_done (h : s.fleet.withdrawing = some []) : s.withdrawStep = { s.allStop with fleet := s.allStop.fleet.closed } := by
  unfold State.withdrawStep
  rw [h]
  rfl
theorem State.leadClock_step {t0 : Nat} {l : List Nat} (ht : s.fleet.turnT0 = some t0) (hw : s.fleet.withdrawing = some l) : s.leadClock = s.withdrawStep := by
  unfold State.leadClock
  rw [ht, hw]
theorem State.leadClock_fails {t0 : Nat} {e : Nat} {c : Nat × Nat} (ht : s.fleet.turnT0 = some t0) (hw : s.fleet.withdrawing = none)
    (hf : s.fleet.turnImages.findSome? (fun e => (s.rackFailure (rackAt e.1) e.2 t0).map fun c => (e.1, c)) = some (e, c)) :
    s.leadClock = s.withdrawFleet [e] c.1 c.2 := by
  unfold State.leadClock
  rw [ht, hw]
  dsimp only
  rw [hf]
theorem rack_of_rackPkgs (h : p ∈ rackPkgs rack) : p.rack = rack := by
  obtain ⟨n, _, rfl⟩ := List.mem_map.1 h
  rfl
theorem mem_rackPkgs (h : p.rack = rack) : p ∈ rackPkgs rack := by
  subst h
  have h1 := p.row.isLt
  have h2 := p.col.isLt
  refine List.mem_map.2 ⟨⟨12 * p.row.val + p.col.val, by omega⟩, List.mem_finRange _, ?_⟩
  unfold indexPkg
  cases p
  simp only [PkgId.mk.injEq, true_and]
  exact ⟨Fin.ext (show _ / 12 = _ by omega), Fin.ext (show _ % 12 = _ by omega)⟩
theorem State.frontWithdraws_fleet (r : Nat) (s : State) : (s.frontWithdraws r).fleet = s.fleet := by
  unfold State.frontWithdraws
  refine foldl_kept _ State.fleet (fun u p => ?_) _ s
  rfl
/-- Packages of other racks stay as they are. -/
theorem foldl_setPkg_other {f : State → PkgId → Pkg} : ∀ (l : List PkgId) (s : State), p ∉ l → (l.foldl (fun u q => u.setPkg q (f u q)) s).pkg p = s.pkg p
  | [], _, _ => rfl
  | q :: l, s, h => by
    rw [List.mem_cons, not_or] at h
    exact (foldl_setPkg_other l _ h.2).trans (State.pkg_setPkg_ne _ _ h.1)
theorem State.frontWithdraws_other {r : Nat} (h : p.rack ≠ rackAt r) : (s.frontWithdraws r).pkg p = s.pkg p :=
  foldl_setPkg_other _ s fun hp => h (rack_of_rackPkgs (List.mem_filter.1 hp).1)
theorem Pkg.endWithdrawn_still (k : Pkg) : (k.endWithdrawn 2).turning = false := by
  rw [Pkg.turning, (Pkg.endWithdrawn_undone (by decide) k).phase]
  rfl
/-- A package that does not turn stays so. -/
theorem State.fleetStops_still {c : Nat × Nat} (q : PkgId) (h : (s.pkg p).turning = false) : ((s.fleetStops c q).pkg p).turning = false := by
  unfold State.fleetStops
  dsimp only
  split
  · by_cases hq : p = q
    · subst hq
      rw [State.pkg_setPkg_same]
      exact Pkg.endWithdrawn_still _
    · rw [State.pkg_setPkg_ne _ _ hq]
      exact h
  · exact h
/-- A package that turns for the fleet, or does not turn. -/
def Pkg.mayStop (k : Pkg) : Prop := k.turning = true → k.chart.fleet.isSome = true
theorem State.fleetStops_mayStop {c : Nat × Nat} (q : PkgId) (h : (s.pkg p).mayStop) : ((s.fleetStops c q).pkg p).mayStop := by
  unfold State.fleetStops
  dsimp only
  split
  · by_cases hq : p = q
    · subst hq
      rw [State.pkg_setPkg_same]
      intro ht
      rw [Pkg.endWithdrawn_still] at ht
      cases ht
    · rw [State.pkg_setPkg_ne _ _ hq]
      exact h
  · exact h
theorem State.fleetStops_self {c : Nat × Nat} (h : (s.pkg p).mayStop) : ((s.fleetStops c p).pkg p).turning = false := by
  unfold State.fleetStops
  dsimp only
  by_cases ht : (s.pkg p).turning = true
  · rw [if_pos (by rw [ht, h ht]; rfl), State.pkg_setPkg_same]
    exact Pkg.endWithdrawn_still _
  · rw [if_neg (by rw [Bool.and_eq_true]; exact fun h' => ht h'.1)]
    exact Bool.not_eq_true _ ▸ ht
/-- What a step keeps and one element brings about holds at the end of a fold over that element. -/
theorem foldl_reaches {α β : Type} {f : α → β → α} {P Q : α → Prop} {b : β} (hP : ∀ a c, P a → P (f a c)) (hQ : ∀ a c, Q a → Q (f a c)) (hb : ∀ a, P a → Q (f a b)) :
    ∀ (l : List β) (a : α), P a → b ∈ l → Q (l.foldl f a)
  | [], _, _, h => absurd h List.not_mem_nil
  | c :: l, a, ha, h => by
    rw [List.foldl_cons]
    rcases List.mem_cons.1 h with rfl | h
    · exact List.foldlRecOn (motive := Q) l f (hb a ha) fun a h c _ => hQ a c h
    · exact foldl_reaches hP hQ hb l _ (hP a c ha) h
theorem State.rackStops_kept {c : Nat × Nat} {P : Pkg → Prop} (hP : ∀ (s : State) q, P (s.pkg p) → P ((s.fleetStops c q).pkg p)) (r : Fin 32) (s : State)
    (h : P (s.pkg p)) : P (((rackPkgs r).foldl (State.fleetStops c) s).pkg p) :=
  List.foldlRecOn (motive := fun s : State => P (s.pkg p)) _ _ h fun s h q _ => hP s q h
theorem State.allStop_still (h : (s.pkg p).mayStop) {e : Nat × List Byte} (he : e ∈ s.fleet.turnImages) (hp : p.rack = rackAt e.1) :
    (s.allStop.pkg p).turning = false := by
  unfold State.allStop
  refine foldl_reaches (P := fun u : State => (u.pkg p).mayStop) (Q := fun u : State => (u.pkg p).turning = false) ?_ ?_ ?_ _ s h he
  · exact fun u e h => State.rackStops_kept (P := Pkg.mayStop) (fun u q => State.fleetStops_mayStop q) (rackAt e.1) u h
  · exact fun u e h => State.rackStops_kept (P := fun k => k.turning = false) (fun u q => State.fleetStops_still q) (rackAt e.1) u h
  · intro u h
    refine foldl_reaches (P := fun u : State => (u.pkg p).mayStop) (Q := fun u : State => (u.pkg p).turning = false) ?_ ?_ ?_ _ u h (mem_rackPkgs hp)
    · exact fun u q => State.fleetStops_mayStop q
    · exact fun u q => State.fleetStops_still q
    · exact fun u h => State.fleetStops_self h
theorem State.fleetStops_fleet (c : Nat × Nat) (s : State) (p : PkgId) : (s.fleetStops c p).fleet = s.fleet := by
  unfold State.fleetStops
  dsimp only
  split <;> rfl
theorem State.allStop_fleet (s : State) : s.allStop.fleet = s.fleet := by
  unfold State.allStop
  exact foldl_kept _ State.fleet (fun u e => foldl_kept (State.fleetStops s.fleet.wdCause) State.fleet (State.fleetStops_fleet _) _ u) _ s
theorem leadClocks (s : State) :
    let f := s.fleet
    ∀ t0, f.turnT0 = some t0 →
      (∀ e c, f.withdrawing = none → f.turnImages.findSome? (fun e => (s.rackFailure (rackAt e.1) e.2 t0).map fun c => (e.1, c)) = some (e, c) →
        s.leadClock.fleet.withdrawing = some (e :: s.enteredRacks.filter (· ≠ e)) ∧ s.leadClock.pkgs = s.pkgs) ∧
      (∀ r rest, f.withdrawing = some (r :: rest) →
        (∀ p : PkgId, p.rack ≠ rackAt r → s.leadClock.pkg p = s.pkg p) ∧
        s.leadClock.fleet.withdrawing = some (if s.leadClock.rackWithdrawn (rackAt r) then rest else r :: rest)) ∧
      (f.withdrawing = some [] → s.leadClock.fleet.turnT0 = none ∧ s.leadClock.fleet.chart = f.chart ∧
        ∀ e ∈ f.turnImages, ∀ p : PkgId, p.rack = rackAt e.1 → (s.pkg p).chart.fleet.isSome = true → (s.leadClock.pkg p).turning = false) := by
  intro f t0 ht
  refine ⟨fun e c hw hf => ?_, fun r rest hw => ?_, fun hw => ?_⟩
  · rw [State.leadClock_fails ht hw hf]
    obtain ⟨h1, _, _, h4⟩ := State.withdrawFleet_spec [e] c.1 c.2 s
    obtain ⟨g, _⟩ := h4 (by rw [show s.fleet.turnT0 = some t0 from ht]; exact Option.some_ne_none t0) hw
    refine ⟨g.trans (congrArg (fun l => some (e :: l)) (List.filter_congr fun n _ => ?_)), by rw [h1]⟩
    simp [eq_comm]
  · rw [State.leadClock_step ht hw, State.withdrawStep_front hw]
    have hfl := s.frontWithdraws_fleet r
    have ho {p : PkgId} (hp : p.rack ≠ rackAt r) : (s.frontWithdraws r).pkg p = s.pkg p := State.frontWithdraws_other hp
    generalize s.frontWithdraws r = v at hfl ho ⊢
    by_cases hr : v.rackWithdrawn (rackAt r) = true
    · have hr' : State.rackWithdrawn { v with fleet := { v.fleet with withdrawing := some rest } } (rackAt r) = true := hr
      rw [if_pos hr, if_pos hr']
      exact ⟨fun p hp => ho hp, rfl⟩
    · rw [if_neg hr, if_neg hr, hfl]
      exact ⟨fun p hp => ho hp, hw⟩
  · rw [State.leadClock_step ht hw, State.withdrawStep_done hw]
    refine ⟨rfl, (congrArg FleetSt.chart s.allStop_fleet :), fun e he p hp hf => ?_⟩
    exact State.allStop_still (fun _ => hf) he hp

/-- Settles O52: discovery by `discoveries`, a turn, its orders and its reports by `fleetTurns`, `fleetOrders` and `commitReports`, the takeover by
`takeovers`, and the lead's own work by `leadClocks`. -/
theorem fleetRoles : Obligations.FleetRoles := by
  unfold Obligations.FleetRoles
  intro s rack
  obtain ⟨d1, d2⟩ := discoveries s rack
  obtain ⟨t1, t2⟩ := fleetTurns s rack
  obtain ⟨o1, o2, o3⟩ := fleetOrders s rack
  obtain ⟨c1, c2⟩ := commitReports s rack
  obtain ⟨k1, k2⟩ := takeovers s rack
  exact ⟨d1, d2, t1, t2, o1, o2, o3, c1, c2, k1, k2, fun hm a b ha hb => grandmaster_unique hm ha hb, leadClocks s⟩
end Sys2Proof.Machine
end

section
/-! PROOF. The debug bridge (R358, Tables 17.1 and 17.2): its shifts, and the registers that they move. -/
namespace Sys2Proof.Machine
open Sys2Proof

variable {s u : State} {t : TrayId} {pos : Fin 4} {c : CwSt} {x : PosSt}

/-! ### Numbers and their bits -/

theorem natBits_length : ∀ n v, (natBits n v).length = n
  | 0, _ => rfl
  | n + 1, v => congrArg (· + 1) (natBits_length n (v / 2))
theorem bitsNat_natBits : ∀ n v, bitsNat (natBits n v) = v % 2 ^ n
  | 0, v => (Nat.mod_one v).symm
  | n + 1, v => by
    rw [natBits, bitsNat, bitsNat_natBits n (v / 2), pow_succ, Nat.mul_comm (2 ^ n) 2, Nat.mod_mul]
    rcases Nat.mod_two_eq_zero_or_one v with h | h <;> simp [h]
theorem shiftThrough_same {held new : List Bool} (h : new.length = held.length) : shiftThrough held new = (new, held) := by
  rw [shiftThrough, h, List.drop_left, List.take_left]

/-! ### The bridge -/

/-- A bridge message while the bridge is open. -/
theorem onBridge_open {f : PosSt → PosSt × List Bool} {op : Nat} (h : (s.tray t).debugOpen = true) : onBridge t pos s f op =
    .next (s.setTray t (((s.tray t).setPos pos.val (f ((s.tray t).at pos.val)).1).emit
      (.report "BRIDGE" (256 * op + pos.val) (bitsNat (f ((s.tray t).at pos.val)).2)))) := by
  unfold onBridge onTray
  dsimp only
  rw [if_neg (by rw [h]; exact Bool.noConfusion)]
theorem onBridge_closed {f : PosSt → PosSt × List Bool} {op : Nat} (h : (s.tray t).debugOpen = false) :
    onBridge t pos s f op = .next (s.setTray t (s.tray t)) := by
  unfold onBridge onTray
  dsimp only
  rw [if_pos (by rw [h]; rfl)]
theorem CwSt.at_shown (c : CwSt) (n : Nat) (x : PosSt) (m : Msg) : ((c.setPos n x).emit m).at n = x := CwSt.at_setPos_same ..
theorem CwSt.shown_mem (c : CwSt) (n : Nat) (x : PosSt) (m : Msg) : m ∈ ((c.setPos n x).emit m).out := List.mem_append_right _ (List.mem_singleton.2 rfl)
/-- The instruction register as a shift finds it. -/
def irCaptured : List Bool := true :: false :: natBits 6 (Config.idcode 1).toNat
/-- A shift of the instruction register. -/
def irShift (bits : List Bool) (x : PosSt) : PosSt × List Bool :=
  ({ x with ir := BitVec.ofNat 8 (bitsNat (shiftThrough irCaptured bits).1) }, (shiftThrough irCaptured bits).2)
/-- The package at a board position, as the bridge reads it. -/
def State.bridged (t : TrayId) (pos : Fin 4) (s : State) : Pkg := ((TrayId.pkgAt t pos).map s.pkg).getD {}
/-- What the selected data register captures. -/
def State.drCaptured (t : TrayId) (pos : Fin 4) (n : Nat) (ir : Byte) (s : State) : List Bool :=
  captured (4 * t.key + pos.val) s.now (s.bridged t pos).pkc.jtagRead.toNat (s.bridged t pos).pkc.jtagStatus n ir
/-- A shift of the data register. -/
def State.drShift (t : TrayId) (pos : Fin 4) (bits : List Bool) (s : State) (x : PosSt) : PosSt × List Bool :=
  ({ x with dr := (shiftThrough (s.drCaptured t pos bits.length x.ir) bits).1 }, (shiftThrough (s.drCaptured t pos bits.length x.ir) bits).2)
theorem exec_shiftIr (bits : List Bool) : exec (.shiftIr t pos bits) s = onBridge t pos s (irShift bits) 1 := rfl
theorem exec_shiftDr (bits : List Bool) : exec (.shiftDr t pos bits) s = onBridge t pos s (s.drShift t pos bits) 2 := rfl
theorem exec_tapReset : exec (.tapReset t pos) s = onBridge t pos s (fun x => ({ x with ir := 0x01, dr := [] }, [])) 3 := rfl
theorem exec_idle (cycles : Fin 4097) : exec (.idle t pos cycles) s = onBridge t pos s (fun x => (x, natBits 13 cycles.val)) 4 := rfl
theorem exec_closeDebug : exec (.closeDebug t) s = .next (s.setTray t { s.tray t with debugOpen := false }) := rfl
theorem exec_openDebug (epoch : Word) : exec (.openDebug t epoch) s = .next (s.fenced t epoch fun s => s.openBridge t) := rfl
theorem irCaptured_low : bitsNat irCaptured % 4 = 1 := by
  have h : bitsNat irCaptured = 1 + 2 * (0 + 2 * bitsNat (natBits 6 (Config.idcode 1).toNat)) := rfl
  omega
theorem captured_idcode (key now read status n : Nat) : captured key now read status n 0x01 = natBits 32 (Config.idcode key).toNat := if_pos rfl
theorem captured_access (key now read status n : Nat) : captured key now read status n 0x20 = natBits 64 (status + 2 ^ 32 * read) :=
  (if_neg (by decide)).trans ((if_neg (by decide)).trans (if_pos rfl))
theorem captured_bypass {ir : Byte} (h : ir ∉ [0x01, 0x02, 0x03, 0x20]) (key now read status n : Nat) : captured key now read status n ir = [false] := by
  simp only [List.mem_cons, List.not_mem_nil, or_false, not_or] at h
  obtain ⟨h1, h2, h3, h4⟩ := h
  exact (if_neg h1).trans ((if_neg (not_or.2 ⟨h2, h3⟩)).trans (if_neg h4))
/-- What was shifted out is shown. -/
theorem CwSt.shown_bits {l : List Bool} {v : Nat} (h : bitsNat l = v) (c : CwSt) (n op : Nat) (x : PosSt) :
    Msg.report "BRIDGE" op v ∈ ((c.setPos n x).emit (.report "BRIDGE" op (bitsNat l))).out := by
  subst h
  exact CwSt.shown_mem ..
theorem State.drShift_full {held bits : List Bool} (hc : s.drCaptured t pos bits.length x.ir = held) (hl : bits.length = held.length) :
    s.drShift t pos bits x = ({ x with dr := bits }, held) := by
  rw [State.drShift, hc, shiftThrough_same hl]
theorem State.drShift_idcode {bits : List Bool} (h : x.ir = 0x01) (hl : bits.length = 32) :
    s.drShift t pos bits x = ({ x with dr := bits }, natBits 32 (Config.idcode (4 * t.key + pos.val)).toNat) :=
  State.drShift_full (by rw [h, State.drCaptured, captured_idcode]) (hl.trans (natBits_length ..).symm)
theorem State.drShift_access {bits : List Bool} {p : PkgId} (h : x.ir = 0x20) (hl : bits.length = 64) (hp : TrayId.pkgAt t pos = some p) :
    s.drShift t pos bits x = ({ x with dr := bits }, natBits 64 ((s.pkg p).pkc.jtagStatus + 2 ^ 32 * (s.pkg p).pkc.jtagRead.toNat)) := by
  have hb : s.bridged t pos = s.pkg p := by rw [State.bridged, hp]; rfl
  exact State.drShift_full (by rw [h, State.drCaptured, captured_access, hb]) (hl.trans (natBits_length ..).symm)
theorem State.drShift_bypass {bits : List Bool} (h : x.ir ∉ [0x01, 0x02, 0x03, 0x20]) : (s.drShift t pos bits x).2 = (false :: bits).take bits.length := by
  rw [State.drShift, State.drCaptured, captured_bypass h]
  rfl
theorem bridgeOpens (s : State) (tr : TrayId) :
    let c := s.tray tr
    (∀ epoch : Word, (epoch.toNat < c.epochSeen.toNat → exec (.openDebug tr epoch) s = .next (s.cwReport tr "LEASE_STALE" 0 epoch.toNat)) ∧
      (c.epochSeen.toNat ≤ epoch.toNat → ∃ v, exec (.openDebug tr epoch) s = .next v ∧ v.pkgs = s.pkgs ∧
        v.tray tr = { c with epochSeen := epoch, debugOpen := true })) ∧
    exec (.closeDebug tr) s = .next (s.setTray tr { c with debugOpen := false }) := by
  intro c
  refine ⟨fun epoch => ⟨fun h => ?_, fun h => ⟨_, exec_openDebug epoch, ?_⟩⟩, exec_closeDebug⟩
  · rw [exec_openDebug, State.fenced_stale h]
  · rw [State.fenced_taken h]
    unfold State.openBridge
    exact ⟨rfl, by rw [State.tray_setTray_same, State.tray_setTray_same]⟩
theorem bridgeShifts (s : State) (tr : TrayId) (pos : Fin 4) :
    let c := s.tray tr
    let shown (op v : Nat) : Msg := .report "BRIDGE" (256 * op + pos.val) v
    (∀ tdi cycles, c.debugOpen = false → ∀ i ∈ [Instr.shiftIr tr pos tdi, .shiftDr tr pos tdi, .tapReset tr pos, .idle tr pos cycles],
      exec i s = .next (s.setTray tr c)) ∧
    (c.debugOpen = true →
      (∃ d, exec (.tapReset tr pos) s = .next (s.setTray tr d) ∧ (d.at pos.val).ir = 0x01) ∧
      (∀ cycles, ∃ d, exec (.idle tr pos cycles) s = .next (s.setTray tr d) ∧ (d.at pos.val).ir = (c.at pos.val).ir ∧
        (d.at pos.val).dr = (c.at pos.val).dr ∧ shown 4 cycles.val ∈ d.out) ∧
      (∀ tdi : List Bool, tdi.length = 8 → ∃ d v, exec (.shiftIr tr pos tdi) s = .next (s.setTray tr d) ∧
        (d.at pos.val).ir = BitVec.ofNat 8 (bitsNat tdi) ∧ shown 1 v ∈ d.out ∧ v % 4 = 1) ∧
      (∀ tdi : List Bool, ∃ d, exec (.shiftDr tr pos tdi) s = .next (s.setTray tr d) ∧ (d.at pos.val).ir = (c.at pos.val).ir ∧
        ((c.at pos.val).ir = 0x01 → tdi.length = 32 → (d.at pos.val).dr = tdi ∧
          shown 2 (Config.idcode (4 * tr.key + pos.val)).toNat ∈ d.out) ∧
        ((c.at pos.val).ir = 0x20 → tdi.length = 64 → ∀ p, TrayId.pkgAt tr pos = some p → (d.at pos.val).dr = tdi ∧
          shown 2 (((s.pkg p).pkc.jtagStatus + 2 ^ 32 * (s.pkg p).pkc.jtagRead.toNat) % 2 ^ 64) ∈ d.out) ∧
        ((c.at pos.val).ir ∉ [0x01, 0x02, 0x03, 0x20] → shown 2 (bitsNat ((false :: tdi).take tdi.length)) ∈ d.out))) := by
  intro c shown
  refine ⟨fun tdi cycles hc i hi => ?_, fun ho => ⟨⟨_, exec_tapReset.trans (onBridge_open ho), ?_⟩, fun cycles => ⟨_, (exec_idle cycles).trans (onBridge_open ho), ?_⟩,
    fun tdi hl => ⟨_, bitsNat irCaptured, (exec_shiftIr tdi).trans (onBridge_open ho), ?_⟩, fun tdi => ⟨_, (exec_shiftDr tdi).trans (onBridge_open ho), ?_⟩⟩⟩
  · simp only [List.mem_cons, List.not_mem_nil, or_false] at hi
    rcases hi with rfl | rfl | rfl | rfl
    · exact (exec_shiftIr tdi).trans (onBridge_closed hc)
    · exact (exec_shiftDr tdi).trans (onBridge_closed hc)
    · exact exec_tapReset.trans (onBridge_closed hc)
    · exact (exec_idle cycles).trans (onBridge_closed hc)
  · rw [CwSt.at_shown]
  · have hn : bitsNat (natBits 13 cycles.val) = cycles.val := (bitsNat_natBits ..).trans (Nat.mod_eq_of_lt (by omega))
    rw [CwSt.at_shown]
    refine ⟨rfl, rfl, ?_⟩
    exact CwSt.shown_bits hn ..
  · have hs : irShift tdi ((s.tray tr).at pos.val) = ({ (s.tray tr).at pos.val with ir := BitVec.ofNat 8 (bitsNat tdi) }, irCaptured) := by
      rw [irShift, shiftThrough_same (hl.trans (congrArg (· + 2) (natBits_length 6 _)).symm)]
    rw [CwSt.at_shown, hs]
    exact ⟨rfl, CwSt.shown_mem .., irCaptured_low⟩
  · rw [CwSt.at_shown]
    refine ⟨rfl, fun hir hl => ?_, fun hir hl p hp => ?_, fun hir => CwSt.shown_bits (congrArg bitsNat (State.drShift_bypass hir)) ..⟩
    · rw [State.drShift_idcode hir hl]
      exact ⟨rfl, CwSt.shown_bits ((bitsNat_natBits ..).trans (Nat.mod_eq_of_lt (BitVec.isLt _))) ..⟩
    · rw [State.drShift_access hir hl hp]
      exact ⟨rfl, CwSt.shown_bits (bitsNat_natBits ..) ..⟩
end Sys2Proof.Machine
end

section
/-! PROOF. Obligation O59: MGMT_ACCESS (R358, R359), and the override entries, which only JTAG and the CW write (R364, R365). -/
namespace Sys2Proof.Machine
open Sys2Proof

variable {s : State} {p : PkgId} {k j : Pkg} {m : Mem} {off : Nat} {w : Option Word} {dr : BitVec 64} {d : RegDesc}

/-! ### MGMT_ACCESS -/

/-- An access by JTAG. -/
def jtagOp (off : Nat) (w : Option Word) : BusOp := ⟨.jtag, 4, [(off, w)], none, .dr⟩
/-- The word that MGMT_ACCESS writes, if it writes one. -/
def mgmtWord (dr : BitVec 64) : Option Word := if bit (dr.truncate 32).toNat 1 then some ((dr >>> 32).truncate 32) else none
/-- The offset that MGMT_ACCESS names. -/
def mgmtOff (dr : BitVec 64) : Nat := 4 * bits (dr.truncate 32).toNat 2 24
theorem busOpOf_mgmtAccess (p : PkgId) (dr : BitVec 64) : busOpOf (.mgmtAccess p dr) = some (p, jtagOp (mgmtOff dr) (mgmtWord dr)) := rfl
theorem exec_mgmtAccess : exec (.mgmtAccess p dr) s = busAccess (.mgmtAccess p dr) s := rfl
theorem mgmtAccess_closed (h : s.reaches p .jtag = false) : exec (.mgmtAccess p dr) s = .next s := by
  rw [exec_mgmtAccess, busAccess, busOpOf_mgmtAccess]
  exact if_pos (by rw [show s.reaches p (jtagOp (mgmtOff dr) (mgmtWord dr)).who = false from h]; rfl)
/-- What JTAG finds in MGMT_ACCESS after an access. -/
def Pkg.jtagged (v : Word) (status : Nat) (k : Pkg) : Pkg := { k with pkc := { k.pkc with jtagRead := v, jtagStatus := status } }
theorem Pkg.jtagged_pkgDark (v : Word) (status : Nat) (k : Pkg) : (k.jtagged v status).pkgDark = k.pkgDark := rfl
theorem mgmtAccess_runs (hr : s.reaches p .jtag = true) (hd : (s.pkg p).mustDefer (jtagOp (mgmtOff dr) (mgmtWord dr)) = false) :
    exec (.mgmtAccess p dr) s = .next (s.busPerform p (jtagOp (mgmtOff dr) (mgmtWord dr)) false).2 := by
  rw [exec_mgmtAccess, busAccess, busOpOf_mgmtAccess]
  dsimp only
  rw [if_neg (by rw [show s.reaches p (jtagOp (mgmtOff dr) (mgmtWord dr)).who = true from hr]; exact Bool.noConfusion),
    if_neg (by rw [hd]; exact Bool.noConfusion)]
theorem jtagOp_reply (off : Nat) (w : Option Word) (got : List Word) (ok : Bool) (k : Pkg) :
    (jtagOp off w).reply got ok k = k.jtagged (if ok && w.isNone then got.headD 0 else 0) (if ok then 0 else 1) := by
  cases w <;> rfl
theorem jtagOp_run (off : Nat) (w : Option Word) (s : State) (p : PkgId) : s.busRun p (jtagOp off w) false =
    busWords ⟨s.now, p, .jtag, false, s.upIn p.rack, 0⟩ s.free 4 [(off, w)] (s.mem, s.pkg p) := rfl
theorem jtagOp_leaves (off : Nat) (w : Option Word) {got : List Word} {ok : Bool} (hd : j.pkgDark = (s.pkg p).pkgDark) :
    s.busLeaves p (jtagOp off w) false (got, ok, m, j) =
      { s with mem := m, free := s.free + 1 }.setPkg p (j.jtagged (if ok && w.isNone then got.headD 0 else 0) (if ok then 0 else 1)) := by
  unfold State.busLeaves
  dsimp only
  rw [if_neg (show ¬ false = true from Bool.noConfusion), jtagOp_reply, Pkg.jtagged_pkgDark, hd, if_neg]
  · rfl
  · cases (s.pkg p).pkgDark <;> exact Bool.noConfusion
/-- An access by JTAG that is refused: MGMT_ACCESS shows ERROR. -/
theorem jtagOp_refused (h : (s.pkg p).busRefuses off 4 = true) : (s.busPerform p (jtagOp off w) false).2 =
    { s with free := s.free + 1 }.setPkg p ((s.pkg p).jtagged 0 1) := by
  rw [State.busPerform_eq, jtagOp_run, busWords_refused h]
  exact jtagOp_leaves off w rfl
/-- One that is served, where the package does not go dark by it. -/
theorem jtagOp_served {v : Word} (h : busOne ⟨s.now, p, .jtag, false, s.upIn p.rack, Config.freeWord s.free⟩ off 4 w s.mem (s.pkg p) = some (v, m, j))
    (hd : j.pkgDark = (s.pkg p).pkgDark) : (s.busPerform p (jtagOp off w) false).2 =
      { s with mem := m, free := s.free + 1 }.setPkg p (j.jtagged (if w.isNone then v else 0) 0) := by
  have hw : busWords ⟨s.now, p, .jtag, false, s.upIn p.rack, 0⟩ s.free 4 [(off, w)] (s.mem, s.pkg p) = ([v], true, m, j) := by
    unfold busWords
    dsimp only
    rw [h]
    rfl
  rw [State.busPerform_eq, jtagOp_run, hw]
  exact jtagOp_leaves off w hd
theorem jtagOp_ready (ho : Open s p .jtag (off % 2 ^ 24)) : (s.pkg p).mustDefer (jtagOp off w) = false := by
  obtain ⟨_, hon, hdef, _⟩ := ho
  refine Pkg.mustDefer_powered hdef fun e he => ?_
  rw [List.mem_singleton.1 he]
  exact hon
/-- An access waits while the domain of its block is off. -/
theorem jtagOp_defers (hr : k.busRefuses off 4 = false) (hd : (k.blockDomains (off % 2 ^ 24)).any (fun d => !k.domainOn d) = true) :
    k.goodWords (jtagOp off w) = [off % 2 ^ 24] ∧ k.mustDefer (jtagOp off w) = true := by
  have hg : k.goodWords (jtagOp off w) = [off % 2 ^ 24] := by simp [Pkg.goodWords, jtagOp, hr]
  refine ⟨hg, ?_⟩
  have ho : k.opDomains (jtagOp off w) = k.blockDomains (off % 2 ^ 24) := by rw [Pkg.opDomains, hg]; simp
  rw [Pkg.mustDefer, ho, hd]
  rfl
theorem Pkg.deferred_wakeBlock (o : Nat) (k : Pkg) : (k.wakeBlock o).aon.deferred = k.aon.deferred := by
  have hc (c : Nat) (y : Pkg) : (y.wakeCore c).aon.deferred = y.aon.deferred := by
    unfold Pkg.wakeCore
    split
    · rfl
    · change ((((y.power (coreDomains (y.phys c))).put F.AON_PKG_STATE_S_FURLED 0).leaveMoor 3)).aon.deferred = _
      rw [(y.power_onlyRegs (coreDomains (y.phys c))).trans ((OnlyRegs.put (y.power (coreDomains (y.phys c))) F.AON_PKG_STATE_S_FURLED 0).trans
        (Pkg.leaveMoor_onlyRegs 3 _))]
  have hi (y : Pkg) : y.wakeInfra.aon.deferred = y.aon.deferred := by rw [y.wakeInfra_onlyRegs]
  have hd (ds : List Nat) (y : Pkg) : ((y.wakeDomains ds).wakeCause 7).aon.deferred = y.aon.deferred := by
    change (y.wakeDomains ds).aon.deferred = _
    rw [y.wakeDomains_onlyRegs ds]
  unfold Pkg.wakeBlock
  dsimp only
  rw [hd]
  cases windowCore o with
  | none => rfl
  | some c =>
    dsimp only
    split
    · rfl
    · rw [hc]
      split
      · exact hi k
      · rfl
/-- The package of an access that waits. -/
def Pkg.jtagWaits (p : PkgId) (dr : BitVec 64) (k : Pkg) : Pkg :=
  let j : Pkg := { k with pkc := { k.pkc with jtagStatus := 2 } }
  { j with aon := { j.aon with deferred := j.aon.deferred ++ [.mgmtAccess p dr] } }
theorem mgmtAccess_waits (hreach : s.reaches p .jtag = true) (hr : (s.pkg p).busRefuses (mgmtOff dr) 4 = false)
    (hd : ((s.pkg p).blockDomains (mgmtOff dr % 2 ^ 24)).any (fun d => !(s.pkg p).domainOn d) = true) :
    exec (.mgmtAccess p dr) s = .next (s.setPkg p (((s.pkg p).wakeBlock (mgmtOff dr % 2 ^ 24)).jtagWaits p dr)) := by
  obtain ⟨hg, hw⟩ := jtagOp_defers (w := mgmtWord dr) hr hd
  rw [exec_mgmtAccess, busAccess, busOpOf_mgmtAccess]
  dsimp only
  rw [if_neg (by rw [show s.reaches p (jtagOp (mgmtOff dr) (mgmtWord dr)).who = true from hreach]; exact Bool.noConfusion), if_pos hw]
  refine onPkg_next ?_
  rw [hg, List.filter_cons, if_pos hd]
  rfl

/-! ### The override entries -/

def overrideDesc : RegDesc := ⟨"DBG_ROUTE_OVR", 0x70100, 8, 0x4, 1, 0x0, 0x0, 0xfffff1ff, 0x0, 0x0, 0x0, 0, 1⟩
theorem findReg_DBG_ROUTE_OVR : ∀ n : Fin 8, findReg (R.DBG_ROUTE_OVR n.val) = some overrideDesc := by decide +kernel
theorem busWrite_override_ignored {x : Bus} (hx : x.who = .host) (v : Word) (m : Mem) (k : Pkg) : busWrite x overrideDesc off v m k = (m, k) := by
  have hi : k.ignores x overrideDesc off v.toNat = !(decide (x.who = .jtag) || (decide (x.who = .cw) && !x.dra)) := rfl
  unfold busWrite
  dsimp only
  rw [hi, hx]
  rfl
theorem busWrite_override {x : Bus} (hx : x.who = .jtag) {v : Word} (hv : k.rejects (R.DBG_ROUTE_OVR 0) v.toNat = false) (m : Mem) :
    busWrite x overrideDesc off v m k = (m, Pkg.reportOverride k (k.storeFields overrideDesc off v)) := by
  have hi : k.ignores x overrideDesc off v.toNat = !(decide (x.who = .jtag) || (decide (x.who = .cw) && !x.dra)) := rfl
  unfold busWrite
  dsimp only
  rw [hi, show k.rejects overrideDesc.base v.toNat = false from hv, hx]
  rfl
/-- The values that an override entry takes. -/
theorem override_accepted {v : Nat} (h5 : bits v 28 3 ≠ 5) (h6 : bits v 28 3 ≠ 6) (hr : bits v 20 8 ≤ 31 ∨ bits v 20 8 = 255)
    (hi : bits v 12 8 ≤ 95 ∨ bits v 12 8 = 255) (hp : bits v 0 9 ≤ 23) (k : Pkg) : k.rejects (R.DBG_ROUTE_OVR 0) v = false := by
  have h : k.rejects (R.DBG_ROUTE_OVR 0) v = (decide (bits v 28 3 = 5) || decide (bits v 28 3 = 6) ||
    (decide (31 < bits v 20 8) && decide (bits v 20 8 ≠ 255)) || (decide (95 < bits v 12 8) && decide (bits v 12 8 ≠ 255)) || decide (23 < bits v 0 9)) := rfl
  rw [h]
  simp only [Bool.or_eq_false_iff, Bool.and_eq_false_iff, decide_eq_false_iff_not, not_not, not_lt]
  exact ⟨⟨⟨⟨h5, h6⟩, hr⟩, hi⟩, hp⟩
theorem Pkg.storeFields_override (v : Word) (off : Nat) (k : Pkg) :
    (k.storeFields overrideDesc off v).rg off = (k.rg off &&& ~~~ 0xFFFFF1FF) ||| (v &&& 0xFFFFF1FF) := by
  refine (Pkg.rg_setRg_same ..).trans ?_
  change ((k.rg off &&& ~~~ 0xFFFFF1FF#32) ||| (v &&& 0xFFFFF1FF#32)) &&& ~~~ (v &&& 0#32) = _
  rw [BitVec.and_zero, show ~~~ 0#32 = BitVec.allOnes 32 from rfl, BitVec.and_allOnes]
  rfl
theorem Pkg.reportOverride_spec (b k : Pkg) : (Pkg.reportOverride b k).regs = k.regs ∧ (Pkg.reportOverride b k).dark = k.dark ∧
    (k.overrides ≠ b.overrides → Msg.report "ROUTE_OVERRIDE" 0 k.overrides.toNat ∈ (Pkg.reportOverride b k).out) := by
  unfold Pkg.reportOverride
  by_cases h : k.overrides = b.overrides
  · rw [if_pos h]
    exact ⟨rfl, rfl, fun hn => absurd h hn⟩
  · rw [if_neg h]
    exact ⟨rfl, rfl, fun _ => List.mem_append_right _ (List.mem_singleton.2 rfl)⟩
theorem Pkg.overrides_of_regs (h : j.regs = k.regs) : j.overrides = k.overrides := by
  unfold Pkg.overrides
  simp only [Pkg.get_of_regs h]
/-- The host's write of an override entry is ignored. -/
theorem hostOverrides (n : Fin 8) (hoff : off = R.DBG_ROUTE_OVR n.val) (v : Word) (ho : Open s p .host off) :
    exec (.registerWrite p .host (BitVec.ofNat 25 off) 4 v) s = .next (s.wrote p .host off s.mem (s.pkg p)) := by
  have hb : off < 2 ^ 24 ∧ off % 4 = 0 := by rw [hoff]; unfold R.DBG_ROUTE_OVR; omega
  have hn : (BitVec.ofNat 25 off).toNat = off := by rw [BitVec.toNat_ofNat]; exact Nat.mod_eq_of_lt (by omega)
  have hi : busOpOf (.registerWrite p .host (BitVec.ofNat 25 off) 4 v) = some (p, writeOp .host off v) := by
    change some (p, (⟨.host, 4, [((BitVec.ofNat 25 off).toNat, some v)], none, .bus⟩ : BusOp)) = _
    rw [hn]
    rfl
  exact busAccess_writes hi ho (by rw [hoff]; exact findReg_DBG_ROUTE_OVR n) hb.1 hb.2 (busWrite_override_ignored rfl ..) rfl
/-- JTAG's write of one is taken. -/
theorem jtagOverrides (n : Fin 8) (hoff : mgmtOff dr = R.DBG_ROUTE_OVR n.val) {v : Word} (hv : mgmtWord dr = some v) (ho : Open s p .jtag (mgmtOff dr))
    (ha : (s.pkg p).rejects (R.DBG_ROUTE_OVR 0) v.toNat = false) :
    exec (.mgmtAccess p dr) s = .next ({ s with free := s.free + 1 }.setPkg p
      ((Pkg.reportOverride (s.pkg p) ((s.pkg p).storeFields overrideDesc (mgmtOff dr) v)).jtagged 0 0)) := by
  have hb : mgmtOff dr < 2 ^ 24 ∧ mgmtOff dr % 4 = 0 := by rw [hoff]; unfold R.DBG_ROUTE_OVR; omega
  have hm : mgmtOff dr % 2 ^ 24 = mgmtOff dr := Nat.mod_eq_of_lt hb.1
  have hd : findReg (mgmtOff dr) = some overrideDesc := by rw [hoff]; exact findReg_DBG_ROUTE_OVR n
  have hr : (s.pkg p).busRefuses (mgmtOff dr) 4 = false := by
    refine Pkg.busRefuses_open _ hd hb.1 hb.2 ?_
    have h : ∀ n : Fin 8, pausedBlock (R.DBG_ROUTE_OVR n.val) = false := by decide
    rw [hoff]
    exact h n
  have hone : busOne ⟨s.now, p, .jtag, false, s.upIn p.rack, Config.freeWord s.free⟩ (mgmtOff dr) 4 (some v) s.mem (s.pkg p) =
      some (0, s.mem, Pkg.reportOverride (s.pkg p) ((s.pkg p).storeFields overrideDesc (mgmtOff dr) v)) := by
    unfold busOne
    rw [hr, hm, hd]
    dsimp only
    rw [if_neg Bool.noConfusion, busWrite_override rfl ha]
  have hdark := (Pkg.reportOverride_spec (s.pkg p) ((s.pkg p).storeFields overrideDesc (mgmtOff dr) v)).2.1
  rw [mgmtAccess_runs ho.1 (jtagOp_ready (by rw [hm]; exact ho)), hv, jtagOp_served hone (by rw [Pkg.pkgDark, hdark]; rfl)]
  rfl
theorem mgmtAccesses (s : State) (p : PkgId) (dr : BitVec 64) :
    let k := s.pkg p
    let lo := (dr.truncate 32).toNat
    let off := 4 * bits lo 2 24
    let data : Word := (dr >>> 32).truncate 32
    let after (j : Pkg) : State := { s with free := s.free + 1 }.setPkg p j
    (s.reaches p .jtag = false → exec (.mgmtAccess p dr) s = .next s) ∧
    (s.reaches p .jtag = true → k.busRefuses off 4 = true →
      exec (.mgmtAccess p dr) s = .next (after { k with pkc := { k.pkc with jtagRead := 0, jtagStatus := 1 } })) ∧
    (s.reaches p .jtag = true → k.busRefuses off 4 = false → (k.blockDomains (off % 2 ^ 24)).any (fun d => !k.domainOn d) = true →
      ∃ j : Pkg, exec (.mgmtAccess p dr) s = .next (s.setPkg p j) ∧ j.pkc.jtagStatus = 2 ∧
        j.aon.deferred = k.aon.deferred ++ [.mgmtAccess p dr]) ∧
    (Open s p .jtag (off % 2 ^ 24) → k.busRefuses off 4 = false → bit lo 1 = false → ∃ (j : Pkg) (v : Word),
      exec (.mgmtAccess p dr) s = .next (after { j with pkc := { j.pkc with jtagRead := v, jtagStatus := 0 } }) ∧
      exec (.readClear p .jtag (BitVec.ofNat 25 off) 4) s = .next (after (j.emit (.busData .jtag off v)))) ∧
    (∀ n : Fin 8, off = R.DBG_ROUTE_OVR n.val →
      (∀ w, Open s p .host off → exec (.registerWrite p .host (BitVec.ofNat 25 off) 4 w) s = .next (s.wrote p .host off s.mem k)) ∧
      (Open s p .jtag off → bit lo 1 = true → bits data.toNat 28 3 ≠ 5 → bits data.toNat 28 3 ≠ 6 →
        (bits data.toNat 20 8 ≤ 31 ∨ bits data.toNat 20 8 = 255) → (bits data.toNat 12 8 ≤ 95 ∨ bits data.toNat 12 8 = 255) →
        bits data.toNat 0 9 ≤ 23 → ∃ j : Pkg, exec (.mgmtAccess p dr) s = .next (after j) ∧
          j.rg off = (k.rg off &&& ~~~ 0xFFFFF1FF) ||| (data &&& 0xFFFFF1FF) ∧ j.pkc.jtagStatus = 0 ∧
          (j.overrides ≠ k.overrides → Msg.report "ROUTE_OVERRIDE" 0 j.overrides.toNat ∈ j.out))) := by
  intro k lo off data after
  refine ⟨mgmtAccess_closed, fun hreach hr => ?_, fun hreach hr hd => ⟨_, mgmtAccess_waits hreach hr hd, rfl, ?_⟩, fun ho hr hb => ?_,
    fun n hoff => ⟨fun w ho => hostOverrides n hoff w ho, fun ho hb h5 h6 hrk hix hpt => ?_⟩⟩
  · exact (mgmtAccess_runs hreach (Pkg.mustDefer_refused rfl hr)).trans (congrArg Host.Outcome.next (jtagOp_refused hr))
  · exact congrArg (· ++ [Instr.mgmtAccess p dr]) (Pkg.deferred_wakeBlock (mgmtOff dr % 2 ^ 24) k)
  · have hw : mgmtWord dr = none := if_neg (by rw [show bit (dr.truncate 32).toNat 1 = false from hb]; exact Bool.noConfusion)
    obtain ⟨d, hd⟩ := Pkg.busRefuses_found hr
    have hbound : off < 2 ^ 25 ∧ off % 4 = 0 := by
      unfold Pkg.busRefuses at hr
      simp only [Bool.or_eq_false_iff, decide_eq_false_iff_not] at hr
      exact ⟨not_le.1 hr.1.1.2, not_not.1 hr.1.1.1.2⟩
    have hn : (BitVec.ofNat 25 off).toNat = off := by rw [BitVec.toNat_ofNat]; exact Nat.mod_eq_of_lt hbound.1
    have hone : busOne ⟨s.now, p, .jtag, false, s.upIn p.rack, Config.freeWord s.free⟩ off 4 none s.mem k =
        some ((k.busRead ⟨s.now, p, .jtag, false, s.upIn p.rack, Config.freeWord s.free⟩ d (off % 2 ^ 24) (decide (off < 2 ^ 24))).1, s.mem,
          (k.busRead ⟨s.now, p, .jtag, false, s.upIn p.rack, Config.freeWord s.free⟩ d (off % 2 ^ 24) (decide (off < 2 ^ 24))).2) := by
      unfold busOne
      rw [hr, hd]
      rfl
    have hdark := Pkg.busRead_dark ⟨s.now, p, .jtag, false, s.upIn p.rack, Config.freeWord s.free⟩ d (off % 2 ^ 24) (decide (off < 2 ^ 24)) k
    have hi : busOpOf (.readClear p .jtag (BitVec.ofNat 25 off) 4) = some (p, ⟨.jtag, 4, [(off, none)], none, .bus⟩) := by
      change some (p, (⟨.jtag, 4, [((BitVec.ofNat 25 off).toNat, none)], none, .bus⟩ : BusOp)) = _
      rw [hn]
    have hread := busAccess_read hi ho hd hbound.1 hbound.2
    dsimp only at hread
    generalize k.busRead ⟨s.now, p, .jtag, false, s.upIn p.rack, Config.freeWord s.free⟩ d (off % 2 ^ 24) (decide (off < 2 ^ 24)) = r at hone hdark hread
    refine ⟨r.2, r.1, ?_, hread⟩
    rw [mgmtAccess_runs ho.1 (jtagOp_ready ho), hw]
    exact congrArg Host.Outcome.next (jtagOp_served hone (by rw [Pkg.pkgDark, hdark]; rfl))
  · have hw : mgmtWord dr = some data := if_pos hb
    refine ⟨_, jtagOverrides n hoff hw ho (override_accepted h5 h6 hrk hix hpt k), ?_, rfl, ?_⟩
    · obtain ⟨h1, _, _⟩ := Pkg.reportOverride_spec k (k.storeFields overrideDesc off data)
      exact (Pkg.rg_of_regs (show ((Pkg.reportOverride k (k.storeFields overrideDesc off data)).jtagged 0 0).regs = _ from h1) off).trans
        (Pkg.storeFields_override data off k)
    · obtain ⟨h1, _, h3⟩ := Pkg.reportOverride_spec k (k.storeFields overrideDesc off data)
      have he : ((Pkg.reportOverride k (k.storeFields overrideDesc off data)).jtagged 0 0).overrides = (k.storeFields overrideDesc off data).overrides :=
        Pkg.overrides_of_regs h1
      intro hne
      have hm := h3 (he ▸ hne)
      rw [← he] at hm
      exact hm

/-- Settles O59: the bridge by `bridgeOpens` and `bridgeShifts`, and MGMT_ACCESS by `mgmtAccesses`. -/
theorem debugBridge : Obligations.DebugBridge := by
  unfold Obligations.DebugBridge
  intro s tr pos
  obtain ⟨h1, h2⟩ := bridgeOpens s tr
  obtain ⟨h3, h4⟩ := bridgeShifts s tr pos
  exact ⟨h1, h2, h3, h4, mgmtAccesses s⟩
end Sys2Proof.Machine
end

section
/-! PROOF. The registers of an update, and what the operations on banks, STAGE, FAIL and a transfer leave (R338–R345). -/
namespace Sys2Proof.Machine
open Sys2Proof

variable {k : Pkg} {b v : Nat}

/-! ### STAGE and FAIL -/

theorem Pkg.stage_putStage (k : Pkg) (h : v < 16) : (k.putStage v).stage = v := by
  rw [Pkg.stage, Pkg.putStage, Pkg.get_setWide _ _ _ (by decide) (by decide), Pkg.get_put_same _ _ _ (by decide)]
  exact Nat.mod_eq_of_lt h
/-- The staged version is the inactive bank's while STAGE reads READY, and else 0. -/
theorem Pkg.staged_putStage (k : Pkg) (v : Nat) :
    (k.putStage v).wide R.UPD_STAGED_VERSION_LO = if v = 3 then (k.bankVer (1 - k.activeBank)).toNat else 0 := by
  have ha : (k.put F.UPD_STATUS_STAGE v).activeBank = k.activeBank := k.get_put_disjoint F.UPD_STATUS_STAGE F.UPD_STATUS_ACTIVE_BANK v (by decide) rfl (by decide)
  have hv : (k.put F.UPD_STATUS_STAGE v).bankVer (1 - k.activeBank) = k.bankVer (1 - k.activeBank) := rfl
  rw [Pkg.putStage, Pkg.wide_setWide_same, ha, hv]
  by_cases h : v = 3
  · rw [if_pos h]
    exact Nat.mod_eq_of_lt (BitVec.isLt _)
  · rw [if_neg h]
    rfl
theorem Pkg.fail_putFail (k : Pkg) (h : v < 256) : (k.putFail v).get F.UPD_STATUS_FAIL = v :=
  (k.get_put_same F.UPD_STATUS_FAIL v (by decide)).trans (Nat.mod_eq_of_lt h)
theorem Pkg.get_putFail_below (k : Pkg) (v : Nat) {g : Fld} (ho : g.off = R.UPD_STATUS) (h : g.lo + g.width ≤ 16) : (k.putFail v).get g = k.get g :=
  k.get_put_disjoint F.UPD_STATUS_FAIL g v (h.trans (by decide)) ho (.inl h)
theorem Pkg.stage_putFail (k : Pkg) (v : Nat) : (k.putFail v).stage = k.stage := k.get_putFail_below v rfl (by decide)
theorem Pkg.staged_putFail (k : Pkg) (v : Nat) : (k.putFail v).wide R.UPD_STAGED_VERSION_LO = k.wide R.UPD_STAGED_VERSION_LO :=
  k.wide_put _ _ (by decide) (by decide)
/-- STAGE leaves the bank pointer and the valid banks. -/
theorem Pkg.get_putStage_below (k : Pkg) (v : Nat) {g : Fld} (ho : g.off = R.UPD_STATUS) (h : g.lo + g.width ≤ 8) : (k.putStage v).get g = k.get g :=
  k.get_putStage_disjoint v g (h.trans (by decide)) ho (.inl h)

/-! ### Banks -/

theorem Pkg.activeBank_lt (k : Pkg) : k.activeBank < 2 := Nat.mod_lt _ (by decide)
/-- A bank that is marked valid is valid. -/
theorem Pkg.bit_bankValid_true (k : Pkg) (h : b < 2) : bit ((k.bankValid b true).get F.UPD_STATUS_BANK_VALID) b = true :=
  k.bit_orBits F.UPD_STATUS_BANK_VALID (by decide) h
/-- The inactive bank is marked invalid, and STAGE is set. -/
def Pkg.spoil (v : Nat) (k : Pkg) : Pkg := (k.bankValid (1 - k.activeBank) false).putStage v
theorem Pkg.stage_spoil (k : Pkg) (h : v < 16) : (k.spoil v).stage = v := Pkg.stage_putStage _ h
theorem Pkg.spoil_invalid (k : Pkg) (v : Nat) : bit ((k.spoil v).get F.UPD_STATUS_BANK_VALID) (1 - k.activeBank) = false := by
  rw [Pkg.spoil, Pkg.get_putStage_below _ _ rfl (by decide)]
  exact k.bit_bankValid_false _
/-- What a write of a bank leaves: the image and its version in that bank, which is valid, and every other field of UPD_STATUS. -/
theorem Pkg.writeBank_upd (k : Pkg) (b : Nat) (img : List Byte) (ver : BitVec 64) : (k.writeBank b img ver).upd =
    if b = 0 then { k.upd with bank0 := img, ver0 := ver } else { k.upd with bank1 := img, ver1 := ver } := Pkg.csuStop_upd ..
theorem UPD_STATUS_ne_CSU_STATUS (u : Nat) (h : u < 10) : R.UPD_STATUS ≠ R.CSU_STATUS u := CSU_STATUS_ne_UPD u h
theorem Pkg.get_writeBank (k : Pkg) (b : Nat) (img : List Byte) (ver : BitVec 64) {g : Fld} (ho : g.off = R.UPD_STATUS) :
    (k.writeBank b img ver).get g = (k.bankValid b true).get g :=
  (Pkg.get_csuStop (fun u hu => ho ▸ UPD_STATUS_ne_CSU_STATUS u hu) _ _ _).trans (Pkg.get_of_regs rfl g)
theorem Pkg.get_writeBank_other (k : Pkg) (b : Nat) (img : List Byte) (ver : BitVec 64) {g : Fld} (hg : g.lo + g.width ≤ 32) (ho : g.off = R.UPD_STATUS)
    (h : g.lo + g.width ≤ 2 ∨ 4 ≤ g.lo) : (k.writeBank b img ver).get g = k.get g :=
  (k.get_writeBank b img ver ho).trans (k.get_put_disjoint F.UPD_STATUS_BANK_VALID g _ hg ho h)
theorem Pkg.activeBank_writeBank (k : Pkg) (b : Nat) (img : List Byte) (ver : BitVec 64) : (k.writeBank b img ver).activeBank = k.activeBank :=
  k.get_writeBank_other b img ver (by decide) rfl (.inl (by decide))
theorem Pkg.bankImg_writeBank (k : Pkg) (img : List Byte) (ver : BitVec 64) : (k.writeBank b img ver).bankImg b = img := by
  rw [Pkg.bankImg, Pkg.writeBank_upd]
  by_cases h : b = 0
  · rw [if_pos h, if_pos h]
  · rw [if_neg h, if_neg h]
theorem Pkg.bankVer_writeBank (k : Pkg) (img : List Byte) (ver : BitVec 64) : (k.writeBank b img ver).bankVer b = ver := by
  rw [Pkg.bankVer, Pkg.writeBank_upd]
  by_cases h : b = 0
  · rw [if_pos h, if_pos h]
  · rw [if_neg h, if_neg h]
/-- The write of the inactive bank leaves the active one. -/
theorem Pkg.bankImg_writeBank_active (k : Pkg) (img : List Byte) (ver : BitVec 64) :
    (k.writeBank (1 - k.activeBank) img ver).bankImg k.activeBank = k.bankImg k.activeBank := by
  have hlt := k.activeBank_lt
  rw [Pkg.bankImg, Pkg.bankImg, Pkg.writeBank_upd]
  by_cases h : k.activeBank = 0
  · rw [if_pos h, if_pos h, if_neg (by omega)]
  · rw [if_neg h, if_neg h, if_pos (by omega)]

/-! ### Patches and transfers -/

/-- The check of a patch ends with one of the codes of Table 16.3. -/
theorem applyPatch_code (keys : SMap KeySlot) (base : List Byte) (kind limit : Nat) (img : List Byte) : (applyPatch keys base kind limit img).1 ≤ 5 := by
  unfold applyPatch
  cases patchResult base kind img with
  | none => exact Nat.le_of_ble_eq_true rfl
  | some r =>
    dsimp only
    split
    · exact Nat.le_of_ble_eq_true rfl
    split
    · exact Nat.le_of_ble_eq_true rfl
    split
    · exact Nat.le_of_ble_eq_true rfl
    split
    · exact Nat.le_of_ble_eq_true rfl
    · exact Nat.le_of_ble_eq_true rfl
theorem Pkg.cancelTransfer_none (h : k.upd.component = none) : k.cancelTransfer = k := by
  simp only [Pkg.cancelTransfer, h]
theorem Pkg.cancelTransfer_image (h : k.upd.component = some 1) : k.cancelTransfer = ((k.spoil 4).putFail 6).dropTransfer := by
  simp only [Pkg.cancelTransfer, h]
  rfl
theorem Pkg.cancelTransfer_key {c : BitVec 16} (h : k.upd.component = some c) (hc : c ≠ 1) : k.cancelTransfer = (k.putFail 6).dropTransfer := by
  simp only [Pkg.cancelTransfer, h]
  rw [if_neg hc]
/-- A cancel forgets the transfer: FAIL reads CANCELLED where there was one, and the bank of an image is invalid. -/
theorem Pkg.cancelTransfer_spec (k : Pkg) : k.cancelTransfer.upd.component = none ∧
    (k.upd.component ≠ none → k.cancelTransfer.get F.UPD_STATUS_FAIL = 6) ∧
    (k.upd.component = some 1 → k.cancelTransfer.stage = 4 ∧ bit (k.cancelTransfer.get F.UPD_STATUS_BANK_VALID) (1 - k.activeBank) = false) ∧
    k.cancelTransfer.upd.requested = k.upd.requested := by
  cases hc : k.upd.component with
  | none =>
    rw [Pkg.cancelTransfer_none hc]
    exact ⟨hc, fun h => absurd rfl h, fun h => (nomatch h), rfl⟩
  | some c =>
    by_cases h1 : c = 1
    · subst h1
      rw [Pkg.cancelTransfer_image hc]
      refine ⟨rfl, fun _ => Pkg.fail_putFail _ (by decide), fun _ => ⟨(Pkg.stage_putFail _ 6).trans (k.stage_spoil (by decide)), ?_⟩, rfl⟩
      exact (congrArg (fun n => bit n (1 - k.activeBank)) (Pkg.get_putFail_below (k.spoil 4) 6 rfl (by decide))).trans (k.spoil_invalid 4)
    · rw [Pkg.cancelTransfer_key hc h1]
      exact ⟨rfl, fun _ => Pkg.fail_putFail _ (by decide), fun h => absurd (Option.some.inj h) h1, rfl⟩

end Sys2Proof.Machine
end

section
/-! PROOF. Obligation O56: the PLDM update sequence (R338, R339, R343, R345, R346, Table 16.2). -/
namespace Sys2Proof.Machine
open Sys2Proof

variable {s : State} {p : PkgId} {k : Pkg} {comp c : BitVec 16} {data : List Byte}

/-- The package answers with one PLDM message. -/
def pldmAnswer (s : State) (p : PkgId) (command code : Nat) (payload : List Byte) (j : Pkg) : Host.Outcome State Fault Refusal :=
  .next (s.setPkg p (j.emit (.pldm command code payload)))

/-! ### The commands of a package whose PKC runs -/

theorem exec_queryDeviceIdentifiers : exec (.queryDeviceIdentifiers p) s = onMctp p s fun k => k.pldm 0x01 0 (Config.deviceIds (s.moduleKey p)) := rfl
theorem exec_getFirmwareParameters : exec (.getFirmwareParameters p) s =
    onMctp p s fun k => k.pldm 0x02 0 (leBytes 8 (k.wide R.UPD_ACTIVE_VERSION_LO) ++ leBytes 8 (k.wide R.UPD_STAGED_VERSION_LO)) := rfl
theorem exec_pldmGetStatus : exec (.pldmGetStatus p) s = onMctp p s fun k =>
    k.pldm 0x1B 0 [BitVec.ofNat 8 k.updateState, BitVec.ofNat 8 k.stage, BitVec.ofNat 8 (k.get F.UPD_STATUS_FAIL)] := rfl
theorem exec_passComponentTable (comps : List (BitVec 16)) : exec (.passComponentTable p comps) s = onMctp p s fun k =>
    if k.upd.requested then k.pldm 0x13 0 (comps.map fun c => if c = 1 ∨ c = 0x10 ∨ c = 0x11 then 0 else 1) else k.pldm 0x13 notInUpdate [] := rfl
/-- UPDATE_COMPONENT of a component of Table 16.2: the transfer starts. -/
def Pkg.startTransfer (now : Nat) (comp : BitVec 16) (size : Nat) (k : Pkg) : Pkg :=
  let k1 := (k.dropTransfer.setUpd fun x => { x with component := some comp, size := size }).pldm 0x14 0 []
  (if comp = 1 then ((k1.bankValid (1 - k.activeBank) false).putStage 1).putFail 0 else k1).askData now
theorem exec_updateComponent (comp : BitVec 16) (size : Nat) : exec (.updateComponent p comp size) s = onMctp p s fun k =>
    if !k.upd.requested then k.pldm 0x14 notInUpdate []
    else if comp ≠ 1 ∧ comp ≠ 0x10 ∧ comp ≠ 0x11 then k.pldm 0x14 pldmError [] else k.startTransfer s.now comp size := rfl
/-- The chunk with which an agent answers is stored, and the next one asked for. -/
def Pkg.takeChunk (data : List Byte) (k : Pkg) : Pkg :=
  k.setUpd fun x => { x with received := x.received ++ data.take (min k.chunkSize (x.size - x.received.length)) }
def Pkg.nextChunk (now : Nat) (k : Pkg) : Pkg :=
  if k.upd.received.length < k.upd.size then k.askData now else (k.setUpd fun x => { x with complete := true }).pldm 0x16 0 []
theorem exec_requestFirmwareData (data : List Byte) : exec (.requestFirmwareData p data) s = onMctp p s fun k =>
    if k.upd.component.isNone || k.upd.complete then k else (k.takeChunk data).nextChunk s.now := rfl
theorem exec_transferComplete : exec (.transferComplete p) s = onMctp p s fun k =>
    if k.upd.complete && k.upd.component = some 1 && k.stage = 1 then k.putStage 2 else k := rfl
/-- VERIFY_COMPLETE of a transfer that has a component. -/
def Pkg.tellVerified (k : Pkg) : Pkg :=
  match k.upd.verified with
  | none => k
  | some r => k.pldm 0x17 0 [BitVec.ofNat 8 r]
def Pkg.judgeKey (c : BitVec 16) (k : Pkg) : Pkg :=
  if c = 1 then k else k.setUpd fun x => { x with verified := some (if k.keyRecordGood c then 0 else 4) }
def Pkg.verifyDone (k : Pkg) : Pkg :=
  match k.upd.component with
  | none => k.pldm 0x17 notInUpdate []
  | some c => if !k.upd.complete then k else (k.judgeKey c).tellVerified
theorem exec_verifyComplete : exec (.verifyComplete p) s = onMctp p s Pkg.verifyDone := rfl
def Pkg.applyDone (k : Pkg) : Pkg :=
  match k.upd.component, k.upd.verified with
  | some c, some 0 => ((if c = 1 then k.putStage 3 else k.applyKey c).dropTransfer).pldm 0x18 0 []
  | _, _ => k
theorem exec_applyComplete : exec (.applyComplete p) s = onMctp p s Pkg.applyDone := rfl
theorem exec_activateFirmware (viaPcie : Bool) : exec (.activateFirmware p viaPcie) s = onMctp p s fun k => k.tryStaged s.now viaPcie := rfl
theorem exec_cancelUpdateComponent : exec (.cancelUpdateComponent p) s = onMctp p s fun k =>
    if k.upd.requested then k.cancelTransfer.pldm 0x1C 0 [] else k.pldm 0x1C notInUpdate [] := rfl
theorem exec_cancelUpdate : exec (.cancelUpdate p) s = onMctp p s fun k => if k.upd.requested then
    (k.cancelTransfer.setUpd fun x => { x with requested := false }).pldm 0x1D 0 [] else k.pldm 0x1D notInUpdate [] := rfl

/-- A package whose PKC does not run answers nothing (R280, R346). -/
theorem pldm_down (h : (s.pkg p).mctpUp = false) : (∀ i ∈ [Instr.queryDeviceIdentifiers p, .getFirmwareParameters p, .transferComplete p,
      .verifyComplete p, .applyComplete p, .pldmGetStatus p, .cancelUpdateComponent p, .cancelUpdate p], exec i s = .next (s.setPkg p (s.pkg p))) ∧
    ∀ comps comp size data viaPcie, ∀ i ∈ [Instr.passComponentTable p comps, .updateComponent p comp size, .requestFirmwareData p data,
      .activateFirmware p viaPcie], exec i s = .next (s.setPkg p (s.pkg p)) := by
  refine ⟨fun i hi => ?_, fun comps comp size data viaPcie i hi => ?_⟩
  · simp only [List.mem_cons, List.not_mem_nil, or_false] at hi
    rcases hi with rfl | rfl | rfl | rfl | rfl | rfl | rfl | rfl
    · exact exec_queryDeviceIdentifiers.trans (onMctp_down h)
    · exact exec_getFirmwareParameters.trans (onMctp_down h)
    · exact exec_transferComplete.trans (onMctp_down h)
    · exact exec_verifyComplete.trans (onMctp_down h)
    · exact exec_applyComplete.trans (onMctp_down h)
    · exact exec_pldmGetStatus.trans (onMctp_down h)
    · exact exec_cancelUpdateComponent.trans (onMctp_down h)
    · exact exec_cancelUpdate.trans (onMctp_down h)
  · simp only [List.mem_cons, List.not_mem_nil, or_false] at hi
    rcases hi with rfl | rfl | rfl | rfl
    · exact (exec_passComponentTable comps).trans (onMctp_down h)
    · exact (exec_updateComponent comp size).trans (onMctp_down h)
    · exact (exec_requestFirmwareData data).trans (onMctp_down h)
    · exact (exec_activateFirmware viaPcie).trans (onMctp_down h)

/-! ### REQUEST_UPDATE -/

/-- The READY image of an update that starts is discarded (R345). -/
def Pkg.requestBegins (viaPcie : Bool) (k : Pkg) : Pkg :=
  ((if k.stage = 3 then k.spoil 0 else k).dropTransfer.setUpd fun x => { x with requested := true, overPcie := viaPcie })
theorem exec_requestUpdate (viaPcie : Bool) : exec (.requestUpdate p viaPcie) s = onPkg p s fun k =>
    if k.paused_ then k.pldm 0x10 pldmError [] else if !k.mctpUp then k else (k.requestBegins viaPcie).pldm 0x10 0 [] := rfl
theorem Pkg.requestBegins_kept {viaPcie : Bool} (h : k.stage ≠ 3) : (k.requestBegins viaPcie).regs = k.regs := by
  rw [Pkg.requestBegins, if_neg h]
  rfl
theorem Pkg.requestBegins_ready {viaPcie : Bool} (h : k.stage = 3) : (k.requestBegins viaPcie).stage = 0 ∧
    bit ((k.requestBegins viaPcie).get F.UPD_STATUS_BANK_VALID) (1 - k.activeBank) = false ∧
    (k.requestBegins viaPcie).wide R.UPD_STAGED_VERSION_LO = 0 := by
  rw [Pkg.requestBegins, if_pos h]
  exact ⟨k.stage_spoil (by decide), k.spoil_invalid 0, (Pkg.staged_putStage _ 0).trans (if_neg (by decide))⟩
theorem requestUpdates (s : State) (p : PkgId) (viaPcie : Bool) :
    ((s.pkg p).paused_ = true → exec (.requestUpdate p viaPcie) s = pldmAnswer s p 0x10 1 [] (s.pkg p)) ∧
    ((s.pkg p).paused_ = false → (s.pkg p).mctpUp = false → exec (.requestUpdate p viaPcie) s = .next (s.setPkg p (s.pkg p))) ∧
    ((s.pkg p).paused_ = false → (s.pkg p).mctpUp = true → ∃ j : Pkg, exec (.requestUpdate p viaPcie) s = pldmAnswer s p 0x10 0 [] j ∧
      j.upd.requested = true ∧ j.upd.overPcie = viaPcie ∧ j.upd.component = none ∧ ((s.pkg p).stage ≠ 3 → j.regs = (s.pkg p).regs) ∧
      ((s.pkg p).stage = 3 → j.stage = 0 ∧ bit (j.get F.UPD_STATUS_BANK_VALID) (1 - (s.pkg p).activeBank) = false ∧
        j.wide R.UPD_STAGED_VERSION_LO = 0)) := by
  refine ⟨fun h => (exec_requestUpdate viaPcie).trans (onPkg_next (if_pos h)), fun h hm => (exec_requestUpdate viaPcie).trans (onPkg_next ?_),
    fun h hm => ⟨(s.pkg p).requestBegins viaPcie, (exec_requestUpdate viaPcie).trans (onPkg_next ?_), rfl, rfl, rfl, Pkg.requestBegins_kept,
      Pkg.requestBegins_ready⟩⟩
  · rw [h, hm]
    rfl
  · rw [h, hm]
    rfl

/-! ### PASS_COMPONENT_TABLE, UPDATE_COMPONENT and the cancels -/

/-- Out of sequence a package answers NOT_IN_UPDATE_MODE. -/
theorem notRequested (hu : (s.pkg p).mctpUp = true) (h : (s.pkg p).upd.requested = false) :
    (∀ comps, exec (.passComponentTable p comps) s = pldmAnswer s p 0x13 0x80 [] (s.pkg p)) ∧
    (∀ comp size, exec (.updateComponent p comp size) s = pldmAnswer s p 0x14 0x80 [] (s.pkg p)) ∧
    exec (.cancelUpdateComponent p) s = pldmAnswer s p 0x1C 0x80 [] (s.pkg p) ∧ exec (.cancelUpdate p) s = pldmAnswer s p 0x1D 0x80 [] (s.pkg p) := by
  refine ⟨fun comps => (exec_passComponentTable comps).trans ((onMctp_up hu).trans ?_),
    fun comp size => (exec_updateComponent comp size).trans ((onMctp_up hu).trans ?_),
    exec_cancelUpdateComponent.trans ((onMctp_up hu).trans ?_), exec_cancelUpdate.trans ((onMctp_up hu).trans ?_)⟩
  all_goals
    rw [h]
    rfl
/-- What the start of a transfer leaves before the package asks for the first chunk. -/
def Pkg.transferBegun (now : Nat) (comp : BitVec 16) (size : Nat) (k : Pkg) : Pkg :=
  let k1 := (k.dropTransfer.setUpd fun x => { x with component := some comp, size := size }).pldm 0x14 0 []
  (if comp = 1 then (k1.spoil 1).putFail 0 else k1).setUpd fun x => { x with askedAt := now }
theorem Pkg.startTransfer_eq (now : Nat) (comp : BitVec 16) (size : Nat) (k : Pkg) : k.startTransfer now comp size =
    (k.transferBegun now comp size).emit (.pldm 0x15 0 (leBytes 4 0 ++ leBytes 4 (min (if k.upd.overPcie then 4032 else 1024) size))) := by
  by_cases h : comp = 1
  · simp only [Pkg.startTransfer, Pkg.transferBegun, if_pos h]
    rfl
  · simp only [Pkg.startTransfer, Pkg.transferBegun, if_neg h]
    rfl
theorem Pkg.transferBegun_upd (now : Nat) (comp : BitVec 16) (size : Nat) (k : Pkg) :
    (k.transferBegun now comp size).upd = { k.dropTransfer.upd with component := some comp, size := size, askedAt := now } := by
  by_cases h : comp = 1
  · simp only [Pkg.transferBegun, if_pos h]
    rfl
  · simp only [Pkg.transferBegun, if_neg h]
    rfl
theorem Pkg.transferBegun_out (now : Nat) (comp : BitVec 16) (size : Nat) (k : Pkg) :
    (k.transferBegun now comp size).out = k.out ++ [.pldm 0x14 0 []] := by
  by_cases h : comp = 1
  · simp only [Pkg.transferBegun, if_pos h]
    rfl
  · simp only [Pkg.transferBegun, if_neg h]
    rfl
theorem Pkg.transferBegun_image (now size : Nat) (k : Pkg) : (k.transferBegun now 1 size).stage = 1 ∧
    (k.transferBegun now 1 size).get F.UPD_STATUS_FAIL = 0 ∧ bit ((k.transferBegun now 1 size).get F.UPD_STATUS_BANK_VALID) (1 - k.activeBank) = false := by
  simp only [Pkg.transferBegun, if_true]
  refine ⟨(Pkg.stage_putFail _ 0).trans (Pkg.stage_spoil _ (by decide)), Pkg.fail_putFail _ (by decide), ?_⟩
  exact (congrArg (fun n => bit n (1 - k.activeBank)) (Pkg.get_putFail_below _ 0 rfl (by decide))).trans (Pkg.spoil_invalid _ 1)
theorem Pkg.transferBegun_key (now size : Nat) (k : Pkg) (h : comp ≠ 1) : (k.transferBegun now comp size).regs = k.regs := by
  simp only [Pkg.transferBegun, if_neg h]
  rfl
theorem componentsUpdate (hu : (s.pkg p).mctpUp = true) (h : (s.pkg p).upd.requested = true) :
    (∀ comps, exec (.passComponentTable p comps) s =
      pldmAnswer s p 0x13 0 (comps.map fun c => if c = 1 ∨ c = 0x10 ∨ c = 0x11 then 0 else 1) (s.pkg p)) ∧
    (∀ comp size, comp ≠ 1 → comp ≠ 0x10 → comp ≠ 0x11 → exec (.updateComponent p comp size) s = pldmAnswer s p 0x14 1 [] (s.pkg p)) ∧
    ∀ comp size, comp = 1 ∨ comp = 0x10 ∨ comp = 0x11 → ∃ j : Pkg, exec (.updateComponent p comp size) s =
      pldmAnswer s p 0x15 0 (leBytes 4 0 ++ leBytes 4 (min (if (s.pkg p).upd.overPcie then 4032 else 1024) size)) j ∧ j.upd.component = some comp ∧
      j.upd.size = size ∧ j.upd.received = [] ∧ j.upd.complete = false ∧ j.upd.askedAt = s.now ∧ Msg.pldm 0x14 0 [] ∈ j.out ∧
      (comp = 1 → j.stage = 1 ∧ j.get F.UPD_STATUS_FAIL = 0 ∧ bit (j.get F.UPD_STATUS_BANK_VALID) (1 - (s.pkg p).activeBank) = false) ∧
      (comp ≠ 1 → j.regs = (s.pkg p).regs) := by
  refine ⟨fun comps => (exec_passComponentTable comps).trans ((onMctp_up hu).trans ?_),
    fun comp size h1 h2 h3 => (exec_updateComponent comp size).trans ((onMctp_up hu).trans ?_),
    fun comp size hc => ⟨(s.pkg p).transferBegun s.now comp size, (exec_updateComponent comp size).trans ((onMctp_up hu).trans ?_), ?_⟩⟩
  · rw [if_pos h]
    rfl
  · rw [h, if_neg (by decide), if_pos ⟨h1, h2, h3⟩]
    rfl
  · rw [h, if_neg (by decide), if_neg fun hn => hc.elim hn.1 (·.elim hn.2.1 hn.2.2), Pkg.startTransfer_eq]
    rfl
  · have hupd := (s.pkg p).transferBegun_upd s.now comp size
    refine ⟨(congrArg UpdSt.component hupd :), (congrArg UpdSt.size hupd :), (congrArg UpdSt.received hupd :), (congrArg UpdSt.complete hupd :),
      (congrArg UpdSt.askedAt hupd :), ?_, fun h1 => ?_, Pkg.transferBegun_key _ _ _⟩
    · rw [Pkg.transferBegun_out]
      exact List.mem_append_right _ (List.mem_singleton.2 rfl)
    · subst h1
      exact Pkg.transferBegun_image _ _ _
theorem cancels (hu : (s.pkg p).mctpUp = true) (h : (s.pkg p).upd.requested = true) :
    exec (.cancelUpdateComponent p) s = pldmAnswer s p 0x1C 0 [] (s.pkg p).cancelTransfer ∧
    exec (.cancelUpdate p) s = pldmAnswer s p 0x1D 0 [] ((s.pkg p).cancelTransfer.setUpd fun x => { x with requested := false }) := by
  refine ⟨exec_cancelUpdateComponent.trans ((onMctp_up hu).trans ?_), exec_cancelUpdate.trans ((onMctp_up hu).trans ?_)⟩
  all_goals
    rw [h]
    rfl

/-! ### The data of a transfer -/

theorem noData (hu : (s.pkg p).mctpUp = true) (h : (s.pkg p).upd.component = none ∨ (s.pkg p).upd.complete = true) :
    exec (.requestFirmwareData p data) s = .next (s.setPkg p (s.pkg p)) := by
  refine (exec_requestFirmwareData data).trans ((onMctp_up hu).trans ?_)
  rcases h with h | h
  · rw [h, if_pos (by rfl)]
  · rw [h, Bool.or_true, if_pos rfl]
/-- What a package has of an image after a chunk. -/
def Pkg.gotten (data : List Byte) (k : Pkg) : List Byte :=
  k.upd.received ++ data.take (min (if k.upd.overPcie then 4032 else 1024) (k.upd.size - k.upd.received.length))
theorem dataArrives (hu : (s.pkg p).mctpUp = true) (hc : (s.pkg p).upd.component ≠ none) (hd : (s.pkg p).upd.complete = false) :
    (((s.pkg p).gotten data).length < (s.pkg p).upd.size → ∃ j : Pkg, exec (.requestFirmwareData p data) s =
      pldmAnswer s p 0x15 0 (leBytes 4 ((s.pkg p).gotten data).length ++ leBytes 4 (min (if (s.pkg p).upd.overPcie then 4032 else 1024)
        ((s.pkg p).upd.size - ((s.pkg p).gotten data).length))) j ∧ j.upd.received = (s.pkg p).gotten data ∧ j.upd.askedAt = s.now ∧
      j.regs = (s.pkg p).regs) ∧
    ((s.pkg p).upd.size ≤ ((s.pkg p).gotten data).length → ∃ j : Pkg, exec (.requestFirmwareData p data) s = pldmAnswer s p 0x16 0 [] j ∧
      j.upd.received = (s.pkg p).gotten data ∧ j.upd.complete = true ∧ j.regs = (s.pkg p).regs) := by
  have hn : ((s.pkg p).upd.component.isNone || (s.pkg p).upd.complete) ≠ true := by
    rw [hd, Bool.or_false]
    exact fun h => hc (Option.isNone_iff_eq_none.1 h)
  have hx : exec (.requestFirmwareData p data) s = .next (s.setPkg p (((s.pkg p).takeChunk data).nextChunk s.now)) :=
    (exec_requestFirmwareData data).trans ((onMctp_up hu).trans (congrArg (fun j => Host.Outcome.next (s.setPkg p j)) (if_neg hn)))
  refine ⟨fun h => ⟨((s.pkg p).takeChunk data).setUpd fun x => { x with askedAt := s.now }, hx.trans ?_, rfl, rfl, rfl⟩,
    fun h => ⟨((s.pkg p).takeChunk data).setUpd fun x => { x with complete := true }, hx.trans ?_, rfl, rfl, rfl⟩⟩
  · rw [Pkg.nextChunk, if_pos (show ((s.pkg p).takeChunk data).upd.received.length < ((s.pkg p).takeChunk data).upd.size from h)]
    rfl
  · rw [Pkg.nextChunk, if_neg (show ¬ ((s.pkg p).takeChunk data).upd.received.length < ((s.pkg p).takeChunk data).upd.size from Nat.not_lt.2 h)]
    rfl
theorem transferCompletes (hu : (s.pkg p).mctpUp = true) :
    (if (s.pkg p).upd.complete = true ∧ (s.pkg p).upd.component = some 1 ∧ (s.pkg p).stage = 1 then
      ∃ j : Pkg, exec (.transferComplete p) s = .next (s.setPkg p j) ∧ OnlyRegs (s.pkg p) j ∧ j.stage = 2
    else exec (.transferComplete p) s = .next (s.setPkg p (s.pkg p))) := by
  have hx : exec (.transferComplete p) s = .next (s.setPkg p (if (s.pkg p).upd.complete && (s.pkg p).upd.component = some 1 && (s.pkg p).stage = 1 then
      (s.pkg p).putStage 2 else s.pkg p)) := exec_transferComplete.trans (onMctp_up hu)
  have hb : ((s.pkg p).upd.complete && (s.pkg p).upd.component = some 1 && (s.pkg p).stage = 1) = true ↔
      (s.pkg p).upd.complete = true ∧ (s.pkg p).upd.component = some 1 ∧ (s.pkg p).stage = 1 := by
    simp only [Bool.and_eq_true, decide_eq_true_eq, and_assoc]
  by_cases h : (s.pkg p).upd.complete = true ∧ (s.pkg p).upd.component = some 1 ∧ (s.pkg p).stage = 1
  · rw [if_pos h]
    rw [if_pos (hb.2 h)] at hx
    exact ⟨_, hx, rfl, Pkg.stage_putStage _ (by decide)⟩
  · rw [if_neg h]
    rwa [if_neg (fun e => h (hb.1 e))] at hx

/-! ### The check of an image -/

/-- The outcome of the check is in the inactive bank, or in FAIL (R345). -/
def Pkg.checked (r : Nat × List Byte) (k : Pkg) : Pkg :=
  let k1 := k.setUpd fun x => { x with verified := some r.1 }
  if r.1 = 0 then ((k1.writeBank (1 - k.activeBank) r.2 (pVersion k.upd.received)).putStage 3).putFail 0 else (k1.putStage 4).putFail r.1
theorem exec_patchVerifyEnd : exec (.patchVerifyEnd p) s = onPkg p s fun k =>
    if k.upd.component ≠ some 1 ∨ k.stage ≠ 2 then k else k.checked k.checkPatch := rfl
/-- What the end of the check leaves whatever its outcome. -/
theorem Pkg.checked_good {r : Nat × List Byte} (h : r.1 = 0) : (k.checked r).upd.verified = some r.1 ∧ (k.checked r).get F.UPD_STATUS_FAIL = r.1 ∧
    (k.checked r).activeBank = k.activeBank ∧ (k.checked r).bankImg k.activeBank = k.bankImg k.activeBank ∧ (k.checked r).stage = 3 ∧
    (k.checked r).bankImg (1 - k.activeBank) = r.2 ∧ bit ((k.checked r).get F.UPD_STATUS_BANK_VALID) (1 - k.activeBank) = true ∧
    (k.checked r).wide R.UPD_STAGED_VERSION_LO = (pVersion k.upd.received).toNat := by
  simp only [Pkg.checked, if_pos h]
  generalize hk : k.setUpd (fun x => { x with verified := some r.1 }) = k1
  have ha : k1.activeBank = k.activeBank := by rw [← hk]; rfl
  have hi : k1.bankImg k.activeBank = k.bankImg k.activeBank := by rw [← hk]; rfl
  have hv : k1.upd.verified = some r.1 := by rw [← hk]; rfl
  rw [← ha] at hi ⊢
  generalize hw : k1.writeBank (1 - k1.activeBank) r.2 (pVersion k.upd.received) = k2
  have ha2 : k2.activeBank = k1.activeBank := by rw [← hw]; exact Pkg.activeBank_writeBank ..
  refine ⟨?_, (Pkg.fail_putFail _ (by decide)).trans h.symm, ?_, ?_, (Pkg.stage_putFail _ 0).trans (Pkg.stage_putStage _ (by decide)), ?_, ?_, ?_⟩
  · have hu : k2.upd.verified = some r.1 := by
      rw [← hw, Pkg.writeBank_upd]
      by_cases hb : 1 - k1.activeBank = 0
      · rw [if_pos hb]; exact hv
      · rw [if_neg hb]; exact hv
    exact hu
  · exact (Pkg.get_putFail_below _ 0 rfl (by decide)).trans ((Pkg.get_putStage_below _ 3 rfl (by decide)).trans ha2)
  · rw [← hi, ← Pkg.bankImg_writeBank_active k1 r.2 (pVersion k.upd.received), hw]
    rfl
  · rw [← Pkg.bankImg_writeBank k1 r.2 (pVersion k.upd.received), hw]
    rfl
  · refine (congrArg (fun n => bit n (1 - k1.activeBank)) ((Pkg.get_putFail_below _ 0 rfl (by decide)).trans
      (Pkg.get_putStage_below _ 3 rfl (by decide)))).trans ?_
    rw [← hw, Pkg.get_writeBank _ _ _ _ rfl]
    exact Pkg.bit_bankValid_true _ (by omega)
  · rw [Pkg.staged_putFail, Pkg.staged_putStage, if_pos rfl, ha2, ← hw, Pkg.bankVer_writeBank]
theorem Pkg.checked_bad {r : Nat × List Byte} (h : r.1 ≠ 0) (hr : r.1 ≤ 5) : (k.checked r).upd.verified = some r.1 ∧
    (k.checked r).get F.UPD_STATUS_FAIL = r.1 ∧ (k.checked r).activeBank = k.activeBank ∧ (k.checked r).stage = 4 ∧
    ∀ b, (k.checked r).bankImg b = k.bankImg b := by
  simp only [Pkg.checked, if_neg h]
  refine ⟨rfl, Pkg.fail_putFail _ (by omega), ?_, (Pkg.stage_putFail _ _).trans (Pkg.stage_putStage _ (by decide)), fun _ => rfl⟩
  exact (Pkg.get_putFail_below _ _ rfl (by decide)).trans (Pkg.get_putStage_below _ 4 rfl (by decide))
theorem patchChecked {r : Nat × List Byte} (hr : (s.pkg p).checkPatch = r) (hc : (s.pkg p).upd.component = some 1) (hs : (s.pkg p).stage = 2) :
    ∃ j : Pkg, exec (.patchVerifyEnd p) s = .next (s.setPkg p j) ∧ j.upd.verified = some r.1 ∧ j.get F.UPD_STATUS_FAIL = r.1 ∧
      j.activeBank = (s.pkg p).activeBank ∧ j.bankImg (s.pkg p).activeBank = (s.pkg p).bankImg (s.pkg p).activeBank ∧
      (r.1 = 0 → j.stage = 3 ∧ j.bankImg (1 - (s.pkg p).activeBank) = r.2 ∧ bit (j.get F.UPD_STATUS_BANK_VALID) (1 - (s.pkg p).activeBank) = true ∧
        j.wide R.UPD_STAGED_VERSION_LO = (pVersion (s.pkg p).upd.received).toNat) ∧
      (r.1 ≠ 0 → j.stage = 4 ∧ j.bankImg (1 - (s.pkg p).activeBank) = (s.pkg p).bankImg (1 - (s.pkg p).activeBank)) := by
  have h5 : r.1 ≤ 5 := hr ▸ applyPatch_code ..
  refine ⟨(s.pkg p).checked r, exec_patchVerifyEnd.trans (onPkg_next ((if_neg ?_).trans (congrArg (fun r => (s.pkg p).checked r) hr))), ?_⟩
  · exact fun h => h.elim (fun h => h hc) fun h => h hs
  generalize s.pkg p = k
  by_cases h : r.1 = 0
  · obtain ⟨hv, hf, ha, hi, hst, him, hb, hw⟩ := Pkg.checked_good (k := k) h
    exact ⟨hv, hf, ha, hi, fun _ => ⟨hst, him, hb, hw⟩, fun hn => absurd h hn⟩
  · obtain ⟨hv, hf, ha, hst, him⟩ := Pkg.checked_bad (k := k) h h5
    exact ⟨hv, hf, ha, him _, fun h0 => absurd h0 h, fun _ => ⟨hst, him _⟩⟩

/-! ### VERIFY_COMPLETE and APPLY_COMPLETE -/

theorem verifyCompletes (hu : (s.pkg p).mctpUp = true) :
    ((s.pkg p).upd.component = none → exec (.verifyComplete p) s = pldmAnswer s p 0x17 0x80 [] (s.pkg p)) ∧
    (∀ c, (s.pkg p).upd.component = some c → (s.pkg p).upd.complete = false → exec (.verifyComplete p) s = .next (s.setPkg p (s.pkg p))) ∧
    ((s.pkg p).upd.component = some 1 → (s.pkg p).upd.complete = true →
      ((s.pkg p).upd.verified = none → exec (.verifyComplete p) s = .next (s.setPkg p (s.pkg p))) ∧
      (∀ r, (s.pkg p).upd.verified = some r → exec (.verifyComplete p) s = pldmAnswer s p 0x17 0 [BitVec.ofNat 8 r] (s.pkg p))) ∧
    (∀ c, (s.pkg p).upd.component = some c → c ≠ 1 → (s.pkg p).upd.complete = true →
      let r := if (s.pkg p).keyRecordGood c then 0 else 4
      ∃ j : Pkg, exec (.verifyComplete p) s = pldmAnswer s p 0x17 0 [BitVec.ofNat 8 r] j ∧ j.upd.verified = some r ∧ j.regs = (s.pkg p).regs) := by
  have hx : exec (.verifyComplete p) s = .next (s.setPkg p (s.pkg p).verifyDone) := exec_verifyComplete.trans (onMctp_up hu)
  rw [hx]
  unfold pldmAnswer
  generalize s.pkg p = k
  refine ⟨fun h => ?_, fun c h hc => ?_, fun h hc => ⟨fun hv => ?_, fun r hv => ?_⟩, fun c h h1 hc =>
    ⟨k.setUpd fun x => { x with verified := some (if k.keyRecordGood c then 0 else 4) }, ?_, rfl, rfl⟩⟩
  · rw [Pkg.verifyDone, h]
    rfl
  · rw [Pkg.verifyDone, h, hc]
    rfl
  · have : k.verifyDone = k.tellVerified := by rw [Pkg.verifyDone, h, hc]; rfl
    rw [this, Pkg.tellVerified, hv]
  · have : k.verifyDone = k.tellVerified := by rw [Pkg.verifyDone, h, hc]; rfl
    rw [this, Pkg.tellVerified, hv]
    rfl
  · rw [Pkg.verifyDone, h, hc]
    dsimp only
    rw [if_neg (by decide), Pkg.judgeKey, if_neg h1]
    rfl
theorem Pkg.applyKey_firmware (k : Pkg) : sget {} (k.applyKey 0x10).upd.fwKeys (u8 k.upd.received 4) = keyRecordSlot k.upd.received ∧
    (k.applyKey 0x10).upd.chartKeys = k.upd.chartKeys := ⟨sget_sset_same .., rfl⟩
theorem Pkg.applyKey_chart (k : Pkg) : sget {} (k.applyKey 0x11).upd.chartKeys (u8 k.upd.received 4) = keyRecordSlot k.upd.received ∧
    (k.applyKey 0x11).upd.fwKeys = k.upd.fwKeys := ⟨sget_sset_same .., rfl⟩
theorem Pkg.applyDone_idle (h : k.upd.component = none ∨ k.upd.verified ≠ some 0) : k.applyDone = k := by
  unfold Pkg.applyDone
  split
  next c hc hv => exact (h.elim (fun e => by rw [hc] at e; exact (nomatch e)) fun e => absurd hv e)
  next => rfl
theorem Pkg.applyDone_good (hc : k.upd.component = some c) (hv : k.upd.verified = some 0) :
    k.applyDone = ((if c = 1 then k.putStage 3 else k.applyKey c).dropTransfer).emit (.pldm 0x18 0 []) := by
  rw [Pkg.applyDone, hc, hv]
  rfl
theorem applyCompletes (hu : (s.pkg p).mctpUp = true) :
    (((s.pkg p).upd.component = none ∨ (s.pkg p).upd.verified ≠ some 0) → exec (.applyComplete p) s = .next (s.setPkg p (s.pkg p))) ∧
    (∀ c, (s.pkg p).upd.component = some c → (s.pkg p).upd.verified = some 0 → ∃ j : Pkg, exec (.applyComplete p) s = pldmAnswer s p 0x18 0 [] j ∧
      j.upd.component = none ∧ (c = 1 → j.stage = 3 ∧ j.upd.fwKeys = (s.pkg p).upd.fwKeys ∧ j.upd.chartKeys = (s.pkg p).upd.chartKeys) ∧
      (c = 0x10 → sget {} j.upd.fwKeys (u8 (s.pkg p).upd.received 4) = keyRecordSlot (s.pkg p).upd.received ∧
        j.upd.chartKeys = (s.pkg p).upd.chartKeys) ∧
      (c = 0x11 → sget {} j.upd.chartKeys (u8 (s.pkg p).upd.received 4) = keyRecordSlot (s.pkg p).upd.received ∧
        j.upd.fwKeys = (s.pkg p).upd.fwKeys)) := by
  have hx : exec (.applyComplete p) s = .next (s.setPkg p (s.pkg p).applyDone) := exec_applyComplete.trans (onMctp_up hu)
  rw [hx]
  unfold pldmAnswer
  generalize s.pkg p = k
  refine ⟨fun h => by rw [Pkg.applyDone_idle h], fun c hc hv => ⟨(if c = 1 then k.putStage 3 else k.applyKey c).dropTransfer,
    by rw [Pkg.applyDone_good hc hv], rfl, fun h1 => ?_, fun h1 => ?_, fun h1 => ?_⟩⟩
  · rw [if_pos h1]
    exact ⟨Pkg.stage_putStage _ (by decide), rfl, rfl⟩
  · subst h1
    exact k.applyKey_firmware
  · subst h1
    exact k.applyKey_chart

/-! ### ACTIVATE_FIRMWARE -/

/-- What a package leaves as its staged image is tried. -/
def Pkg.trying (now : Nat) (k : Pkg) : Pkg :=
  ((((k.pldm 0x1A 0 []).setUpd fun x => { x with trial := some (false, now), requested := false }).flag F.UPD_STATUS_PAUSED true).setRun .paused).addReaction
    ⟨9, 0, 248, 0⟩
theorem Pkg.tryStaged_eq (now : Nat) (viaPcie : Bool) (k : Pkg) : k.tryStaged now viaPcie =
    if k.stage ≠ 3 || k.turning || (viaPcie && !k.lifeboat) then k.pldm 0x1A pldmError [] else k.trying now := rfl
theorem Pkg.trying_paused (now : Nat) (k : Pkg) : (k.trying now).get F.UPD_STATUS_PAUSED = 1 := Pkg.get_put_same _ F.UPD_STATUS_PAUSED 1 (by decide)
theorem Pkg.trying_activeBank (now : Nat) (k : Pkg) : (k.trying now).activeBank = k.activeBank :=
  Pkg.get_put_disjoint _ F.UPD_STATUS_PAUSED F.UPD_STATUS_ACTIVE_BANK 1 (by decide) rfl (by decide)
/-- While the update is paused, the blocks of R346 refuse every access. -/
theorem Pkg.busRefuses_paused {off : Nat} (h : k.get F.UPD_STATUS_PAUSED = 1) (ho : pausedBlock (off % 2 ^ 24) = true) : k.busRefuses off 4 = true := by
  rw [Pkg.busRefuses, h, ho]
  exact Bool.or_true _
theorem activates (hu : (s.pkg p).mctpUp = true) (viaPcie : Bool) :
    (((s.pkg p).stage ≠ 3 ∨ (s.pkg p).turning = true ∨ (viaPcie = true ∧ (s.pkg p).lifeboat = false)) →
      exec (.activateFirmware p viaPcie) s = pldmAnswer s p 0x1A 1 [] (s.pkg p)) ∧
    ((s.pkg p).stage = 3 → (s.pkg p).turning = false → (viaPcie = true → (s.pkg p).lifeboat = true) →
      exec (.activateFirmware p viaPcie) s = .next (s.setPkg p ((s.pkg p).trying s.now))) := by
  have hx : exec (.activateFirmware p viaPcie) s = .next (s.setPkg p ((s.pkg p).tryStaged s.now viaPcie)) := (exec_activateFirmware viaPcie).trans (onMctp_up hu)
  rw [hx, Pkg.tryStaged_eq]
  generalize s.pkg p = k
  refine ⟨fun h => ?_, fun h1 h2 h3 => ?_⟩
  · rw [if_pos]
    · rfl
    · rcases h with h | h | ⟨h, hl⟩
      · rw [decide_eq_true h]
        rfl
      · rw [h, Bool.or_true, Bool.true_or]
      · rw [h, hl]
        exact Bool.or_true _
  · rw [if_neg]
    rw [h1, h2]
    cases viaPcie with
    | false => exact Bool.noConfusion
    | true => rw [h3 rfl]; exact Bool.noConfusion

/-- Settles O56, command by command: `Pkg.cancelTransfer_spec` for a cancel, `Pkg.checked_good` and `Pkg.checked_bad` for the end of the check,
`Pkg.applyKey_firmware` and `Pkg.applyKey_chart` for key records, and `Pkg.trying` for an activation. -/
theorem updateSequence : Obligations.UpdateSequence := by
  intro s p k up answered invalid cancelled
  refine ⟨fun h => (pldm_down h).1, fun h => (pldm_down h).2, fun hu => ⟨exec_queryDeviceIdentifiers.trans (onMctp_up hu),
    exec_getFirmwareParameters.trans (onMctp_up hu), exec_pldmGetStatus.trans (onMctp_up hu)⟩, requestUpdates s p, notRequested, fun hu hr => ?_,
    fun data => noData, fun data => dataArrives, transferCompletes, fun h => exec_patchVerifyEnd.trans (onPkg_next (if_pos h)), patchChecked rfl,
    verifyCompletes, applyCompletes, fun viaPcie hu => ⟨(activates hu viaPcie).1, fun h1 h2 h3 => ?_⟩⟩
  · obtain ⟨hpass, hbad, hupdate⟩ := componentsUpdate hu hr
    obtain ⟨hcomp, hcancel⟩ := cancels hu hr
    obtain ⟨hnone, hfail, himage, hreq⟩ := k.cancelTransfer_spec
    exact ⟨hpass, hbad, hupdate, ⟨_, hcomp, ⟨hnone, hfail, himage⟩, hreq.trans hr⟩, ⟨_, hcancel, ⟨hnone, hfail, himage⟩, rfl⟩⟩
  · refine ⟨k.trying s.now, (activates hu viaPcie).2 h1 h2 h3, List.mem_append_right _ (List.mem_singleton.2 rfl), decide_eq_true (k.trying_paused s.now),
      rfl, rfl, k.trying_activeBank s.now, rfl, rfl, fun off => Pkg.busRefuses_paused (k.trying_paused s.now)⟩

end Sys2Proof.Machine
end

section
/-! PROOF. Trial restarts of a package and the images that a host pushes (R346, R347, R349, R350). -/
namespace Sys2Proof.Machine
open Sys2Proof

variable {s : State} {p : PkgId} {k : Pkg} {now : Nat}

/-! ### The bank pointer -/

/-- Scans that are stopped leave faults, the PKC and darkness, and only send. -/
theorem Pkg.csuStop_frame (code : Nat) (q : Scanning → Bool) (k : Pkg) :
    (k.csuStop code q).flt = k.flt ∧ (k.csuStop code q).pkc = k.pkc ∧ (k.csuStop code q).dark = k.dark := by
  refine List.foldlRecOn (motive := fun j : Pkg => j.flt = k.flt ∧ j.pkc = k.pkc ∧ j.dark = k.dark) _ _ ⟨rfl, rfl, rfl⟩ fun j hj u _ => ?_
  split
  · rw [Pkg.csuEnd_eq]
    split <;> exact hj
  · exact hj
theorem Pkg.activeBank_flipBank (k : Pkg) : k.flipBank.activeBank = 1 - k.activeBank := by
  have hc : ∀ u, u < 10 → F.UPD_STATUS_ACTIVE_BANK.off ≠ R.CSU_STATUS u := UPD_STATUS_ne_CSU_STATUS
  refine (Pkg.get_csuStop hc _ _ _).trans ((Pkg.get_put_same _ F.UPD_STATUS_ACTIVE_BANK _ (by decide)).trans ?_)
  exact Nat.mod_eq_of_lt (Nat.lt_of_le_of_lt (Nat.sub_le 1 _) (by decide))
theorem Pkg.get_flipBank (k : Pkg) {g : Fld} (hg : g.lo + g.width ≤ 32) (ho : g.off = R.UPD_STATUS) (h : 1 ≤ g.lo) : k.flipBank.get g = k.get g :=
  (Pkg.get_csuStop (fun u hu => ho ▸ UPD_STATUS_ne_CSU_STATUS u hu) _ _ _).trans
    (k.get_put_disjoint F.UPD_STATUS_ACTIVE_BANK g _ hg ho (.inr h))
theorem Pkg.flipBank_upd (k : Pkg) : k.flipBank.upd = k.upd := Pkg.csuStop_upd ..
theorem Pkg.flipBank_frame (k : Pkg) : k.flipBank.flt = k.flt ∧ k.flipBank.pkc = k.pkc ∧ k.flipBank.dark = k.dark := Pkg.csuStop_frame ..

/-! ### The PKC runs again -/

/-- What the running PKC leaves: it runs out of lifeboat mode, reports the active bank's version, and leaves the rest of UPD_STATUS. -/
theorem Pkg.pkcRuns_spec (now : Nat) (k : Pkg) : (k.pkcRuns now).pkc.run = .running ∧ (k.pkcRuns now).lifeboat = false ∧
    (k.pkcRuns now).wide R.UPD_ACTIVE_VERSION_LO = (k.bankVer k.activeBank).toNat ∧ (k.pkcRuns now).upd = k.upd ∧ (k.pkcRuns now).out = k.out ∧
    ∀ g : Fld, g.lo + g.width ≤ 32 → g.off = R.UPD_STATUS → (g.lo + g.width ≤ 5 ∨ 6 ≤ g.lo) → (k.pkcRuns now).get g = k.get g := by
  have hset : ∀ g : Fld, g.off = R.UPD_STATUS → (k.pkcRuns now).get g = ((k.setRun .running).flag F.UPD_STATUS_LIFEBOAT false).get g := fun g ho =>
    Pkg.get_setWide _ _ _ (by rw [ho]; decide) (by rw [ho]; decide)
  refine ⟨rfl, ?_, (Pkg.wide_setWide_same _ _ _).trans (Nat.mod_eq_of_lt (BitVec.isLt _)), rfl, rfl, fun g hg ho h => ?_⟩
  · rw [Pkg.lifeboat, hset _ rfl]
    exact decide_eq_false fun h => absurd ((Pkg.get_put_same _ F.UPD_STATUS_LIFEBOAT 0 (by decide)).symm.trans h) (by decide)
  · rw [hset g ho]
    exact Pkg.get_put_disjoint _ F.UPD_STATUS_LIFEBOAT g _ hg ho h
/-- The trial's PKC runs, and says BOOT_DONE where the package never said it (R349). -/
def Pkg.runsAgain (now : Nat) (k : Pkg) : Pkg := if k.pkc.bootDone then k.pkcRuns now else k.bootEnd now
theorem Pkg.runsAgain_eq (now : Nat) (k : Pkg) : (k.runsAgain now).regs = (k.pkcRuns now).regs ∧ (k.runsAgain now).upd = k.upd ∧
    (k.runsAgain now).pkc.run = .running ∧ ∀ m ∈ k.out, m ∈ (k.runsAgain now).out := by
  unfold Pkg.runsAgain Pkg.bootEnd
  split
  · exact ⟨rfl, rfl, rfl, fun m h => h⟩
  · dsimp only
    split
    · exact ⟨rfl, rfl, rfl, fun m h => List.mem_append_left _ h⟩
    · exact ⟨rfl, rfl, rfl, fun m h => List.mem_append_left _ h⟩

/-! ### The end of the pause -/

theorem Pkg.get_endPause (k : Pkg) {g : Fld} (hg : g.lo + g.width ≤ 32) (ho : g.off = R.UPD_STATUS) (h : g.lo + g.width ≤ 4 ∨ 5 ≤ g.lo) :
    k.endPause.get g = k.get g := k.get_put_disjoint F.UPD_STATUS_PAUSED g _ hg ho h
theorem Pkg.paused_endPause (k : Pkg) : k.endPause.get F.UPD_STATUS_PAUSED = 0 := k.get_put_same F.UPD_STATUS_PAUSED 0 (by decide)
theorem Pkg.endPause_out (k : Pkg) : k.endPause.out = k.out ++ k.flt.heldEvents.map (Msg.cwEvent 5) := rfl
theorem Pkg.endPause_upd (k : Pkg) : k.endPause.upd = { k.upd with trial := none } := rfl
theorem Pkg.putStage_frame (v : Nat) (k : Pkg) : (k.putStage v).out = k.out ∧ (k.putStage v).upd = k.upd := ⟨rfl, rfl⟩
/-- The bank pointer is written and STAGE is EMPTY, or after a roll-back the failure is reported. -/
def Pkg.trialKept (back : Bool) (k : Pkg) : Pkg := if back then k.endPause.updateFailed else k.flipBank.endPause.putStage 0
theorem Pkg.trialKept_back (k : Pkg) : (k.trialKept true).activeBank = k.activeBank ∧ (k.trialKept true).get F.UPD_STATUS_PAUSED = 0 ∧
    (k.trialKept true).out = k.out ++ k.flt.heldEvents.map (Msg.cwEvent 5) ++ [.report "UPDATE_FAILED" 0 (k.get F.UPD_STATUS_FAIL)] ∧
    (k.trialKept true).upd = { k.upd with trial := none } := by
  refine ⟨k.get_endPause (g := F.UPD_STATUS_ACTIVE_BANK) (by decide) rfl (by decide), k.paused_endPause, ?_, rfl⟩
  rw [← k.get_endPause (g := F.UPD_STATUS_FAIL) (by decide) rfl (by decide)]
  rfl
theorem Pkg.trialKept_new (k : Pkg) : (k.trialKept false).activeBank = 1 - k.activeBank ∧ (k.trialKept false).get F.UPD_STATUS_PAUSED = 0 ∧
    (k.trialKept false).stage = 0 ∧ (∀ e ∈ k.flt.heldEvents, Msg.cwEvent 5 e ∈ (k.trialKept false).out) ∧
    (k.trialKept false).upd = { k.upd with trial := none } := by
  refine ⟨(Pkg.get_putStage_below _ 0 rfl (by decide)).trans ((Pkg.get_endPause _ (by decide) rfl (by decide)).trans k.activeBank_flipBank),
    (Pkg.get_putStage_below _ 0 rfl (by decide)).trans (Pkg.paused_endPause _), Pkg.stage_putStage _ (by decide), fun e he => ?_, ?_⟩
  · have ho : (k.trialKept false).out = k.flipBank.out ++ k.flt.heldEvents.map (Msg.cwEvent 5) := by
      rw [← k.flipBank_frame.1]
      exact (Pkg.putStage_frame 0 _).1.trans (Pkg.endPause_out _)
    rw [ho]
    exact List.mem_append_right _ (List.mem_map_of_mem he)
  · rw [← k.flipBank_upd]
    exact (Pkg.putStage_frame 0 _).2.trans (Pkg.endPause_upd _)
theorem exec_trialRunning : exec (.trialRunning p) s = onPkg p s fun k =>
    match k.upd.trial with
    | none => k
    | some (back, _) => (k.trialKept back).runsAgain s.now := rfl
/-- TRIAL_TIMEOUT: the old bank is tried, and then lifeboat mode. -/
def Pkg.rolledBack (now : Nat) (k : Pkg) : Pkg := ((k.setUpd fun x => { x with trial := some (true, now) }).putFail 8).putStage 4
def Pkg.castOff (now : Nat) (k : Pkg) : Pkg :=
  let k1 := ((k.endPause.updateFailed.flag F.UPD_STATUS_LIFEBOAT true).setRun .lifeboat)
  { k1 with pkc := { k1.pkc with hbAt := some now } }
theorem exec_trialTimeout : exec (.trialTimeout p) s = onPkg p s fun k =>
    match k.upd.trial with
    | none => k
    | some (back, since) => if s.now < since + 60 * 10 ^ 6 then k else if !back then k.rolledBack s.now else k.castOff s.now := rfl

theorem noTrial (h : (s.pkg p).upd.trial = none) : exec (.trialRunning p) s = .next (s.setPkg p (s.pkg p)) ∧
    exec (.trialTimeout p) s = .next (s.setPkg p (s.pkg p)) := by
  refine ⟨exec_trialRunning.trans (onPkg_next ?_), exec_trialTimeout.trans (onPkg_next ?_)⟩
  · rw [h]
  · rw [h]
theorem Pkg.trialKept_upd (back : Bool) (k : Pkg) : (k.trialKept back).upd = { k.upd with trial := none } ∧
    (k.trialKept back).activeBank = (if back then k.activeBank else 1 - k.activeBank) ∧ (k.trialKept back).get F.UPD_STATUS_PAUSED = 0 := by
  cases back with
  | true => exact ⟨k.trialKept_back.2.2.2, k.trialKept_back.1, k.trialKept_back.2.1⟩
  | false => exact ⟨k.trialKept_new.2.2.2.2, k.trialKept_new.1, k.trialKept_new.2.1⟩
theorem trialRuns {back : Bool} {since : Nat} (h : (s.pkg p).upd.trial = some (back, since)) :
    ∃ j : Pkg, exec (.trialRunning p) s = .next (s.setPkg p j) ∧ j.upd.trial = none ∧ j.paused_ = false ∧ j.pkc.run = .running ∧
      j.lifeboat = false ∧ j.activeBank = (if back then (s.pkg p).activeBank else 1 - (s.pkg p).activeBank) ∧ (back = false → j.stage = 0) ∧
      (back = true → Msg.report "UPDATE_FAILED" 0 ((s.pkg p).get F.UPD_STATUS_FAIL) ∈ j.out) ∧
      j.wide R.UPD_ACTIVE_VERSION_LO = ((s.pkg p).bankVer j.activeBank).toNat ∧ ∀ e ∈ (s.pkg p).flt.heldEvents, Msg.cwEvent 5 e ∈ j.out := by
  refine ⟨((s.pkg p).trialKept back).runsAgain s.now, exec_trialRunning.trans (onPkg_next (by rw [h])), ?_⟩
  generalize s.pkg p = k
  obtain ⟨hupd, hbank, hpaused⟩ := k.trialKept_upd back
  obtain ⟨hregs, hupd2, hrun, hout⟩ := (k.trialKept back).runsAgain_eq s.now
  obtain ⟨-, hlife, hver, -, -, hget⟩ := (k.trialKept back).pkcRuns_spec s.now
  have hg : ∀ g, ((k.trialKept back).runsAgain s.now).get g = ((k.trialKept back).pkcRuns s.now).get g := fun g => Pkg.get_of_regs hregs g
  have hactive : ((k.trialKept back).runsAgain s.now).activeBank = (k.trialKept back).activeBank :=
    (hg _).trans (hget F.UPD_STATUS_ACTIVE_BANK (by decide) rfl (by decide))
  refine ⟨by rw [hupd2, hupd], ?_, hrun, ?_, hactive.trans hbank, fun hb => ?_, fun hb => hout _ ?_, ?_, fun e he => hout _ ?_⟩
  · rw [Pkg.paused_, hg, hget F.UPD_STATUS_PAUSED (by decide) rfl (by decide), hpaused]
    rfl
  · rw [Pkg.lifeboat, hg]
    exact hlife
  · subst hb
    exact (hg _).trans ((hget F.UPD_STATUS_STAGE (by decide) rfl (by decide)).trans k.trialKept_new.2.2.1)
  · subst hb
    rw [k.trialKept_back.2.2.1]
    exact List.mem_append_right _ (List.mem_singleton.2 rfl)
  · rw [hactive, Pkg.wide_of_rg (Pkg.rg_of_regs hregs _) (Pkg.rg_of_regs hregs _), hver]
    simp only [Pkg.bankVer, hupd]
  · cases back with
    | true =>
      rw [k.trialKept_back.2.2.1]
      exact List.mem_append_left _ (List.mem_append_right _ (List.mem_map_of_mem he))
    | false => exact k.trialKept_new.2.2.2.1 e he
theorem trialTimes {back : Bool} {since : Nat} (h : (s.pkg p).upd.trial = some (back, since)) :
    (s.now < since + 60000000 → exec (.trialTimeout p) s = .next (s.setPkg p (s.pkg p))) ∧
    (since + 60000000 ≤ s.now → ∃ j : Pkg, exec (.trialTimeout p) s = .next (s.setPkg p j) ∧ j.activeBank = (s.pkg p).activeBank ∧
      (back = false → j.upd.trial = some (true, s.now) ∧ j.get F.UPD_STATUS_FAIL = 8 ∧ j.stage = 4 ∧ j.paused_ = (s.pkg p).paused_) ∧
      (back = true → j.upd.trial = none ∧ j.lifeboat = true ∧ j.pkc.run = .lifeboat ∧ j.paused_ = false ∧
        Msg.report "UPDATE_FAILED" 0 ((s.pkg p).get F.UPD_STATUS_FAIL) ∈ j.out)) := by
  refine ⟨fun ht => exec_trialTimeout.trans (onPkg_next ?_), fun ht => ⟨if !back then (s.pkg p).rolledBack s.now else (s.pkg p).castOff s.now,
    exec_trialTimeout.trans (onPkg_next ?_), ?_⟩⟩
  · rw [h]
    exact if_pos ht
  · rw [h]
    exact if_neg (Nat.not_lt.2 ht)
  generalize s.pkg p = k
  cases back with
  | false =>
    have hg : ∀ g : Fld, g.off = R.UPD_STATUS → g.lo + g.width ≤ 8 → (k.rolledBack s.now).get g = k.get g := fun g ho hlt =>
      (Pkg.get_putStage_below _ 4 ho hlt).trans (Pkg.get_putFail_below _ 8 ho (hlt.trans (by decide)))
    refine ⟨hg _ rfl (by decide), fun _ => ⟨rfl, ?_, Pkg.stage_putStage _ (by decide), ?_⟩, fun h => (nomatch h)⟩
    · exact (Pkg.get_putStage_disjoint _ 4 F.UPD_STATUS_FAIL (by decide) rfl (by decide)).trans (Pkg.fail_putFail _ (by decide))
    · exact congrArg (fun n => decide (n = 1)) (hg F.UPD_STATUS_PAUSED rfl (by decide))
  | true =>
    have hg : ∀ g : Fld, g.lo + g.width ≤ 32 → g.off = R.UPD_STATUS → (g.lo + g.width ≤ 5 ∨ 6 ≤ g.lo) → (k.castOff s.now).get g = k.endPause.get g :=
      fun g hg ho hd => Pkg.get_put_disjoint k.endPause.updateFailed F.UPD_STATUS_LIFEBOAT g _ hg ho hd
    refine ⟨(hg _ (by decide) rfl (by decide)).trans (k.get_endPause (by decide) rfl (by decide)), fun h => (nomatch h), fun _ =>
      ⟨rfl, decide_eq_true (Pkg.get_put_same _ F.UPD_STATUS_LIFEBOAT 1 (by decide)), rfl, ?_, ?_⟩⟩
    · refine decide_eq_false fun h => ?_
      exact absurd (((hg F.UPD_STATUS_PAUSED (by decide) rfl (by decide)).trans k.paused_endPause).symm.trans h) (by decide)
    · rw [← k.get_endPause (g := F.UPD_STATUS_FAIL) (by decide) rfl (by decide)]
      exact List.mem_append_right _ (List.mem_singleton.2 rfl)

end Sys2Proof.Machine
end

section
/-! PROOF. The images that a host pushes (R350). -/
namespace Sys2Proof.Machine
open Sys2Proof

variable {s : State} {p : PkgId} {who : Requester} {k j : Pkg} {w : Word}

/-! ### A pushed word -/

theorem Pkg.pushWord_closed (h : k.pushOpen = false ∨ k.upd.pushing = false) : k.pushWord w = k := by
  refine if_pos ?_
  rcases h with h | h
  · rw [h]; rfl
  · rw [h]; exact Bool.or_true _
/-- What has been pushed with a word. -/
def Pkg.pushGot (w : Word) (k : Pkg) : List Byte := k.upd.received ++ leBytes 4 w.toNat
def Pkg.pushMore (got : List Byte) (k : Pkg) : Pkg := k.setUpd fun x => { x with received := got }
/-- The outcome of the check of a pushed image. -/
def Pkg.pushEnds (got : List Byte) (r : Nat × List Byte) (k : Pkg) : Pkg :=
  let k2 := (k.pushMore got).setUpd fun x => { x with pushing := false, received := [] }
  if r.1 ≠ 0 then k2.putFail r.1
  else ((k2.writeBank (1 - k.activeBank) r.2 (pVersion got)).flipBank.flag F.UPD_STATUS_LIFEBOAT false).setRun .booting
theorem Pkg.pushWord_eq (w : Word) (k : Pkg) : k.pushWord w = if !k.pushOpen || !k.upd.pushing then k
    else if (k.pushGot w).length < k.get F.UPD_PUSH_LEN_LEN then k.pushMore (k.pushGot w)
    else k.pushEnds (k.pushGot w) (applyPatch k.fwKeys [] 1 bankBytes (k.pushGot w)) := rfl
theorem Pkg.pushWord_open (ho : k.pushOpen = true) (hp : k.upd.pushing = true) : k.pushWord w =
    if (k.pushGot w).length < k.get F.UPD_PUSH_LEN_LEN then k.pushMore (k.pushGot w)
    else k.pushEnds (k.pushGot w) (applyPatch k.fwKeys [] 1 bankBytes (k.pushGot w)) := by
  rw [Pkg.pushWord_eq, ho, hp]
  rfl
theorem Pkg.bankImg_flipBank (k : Pkg) (b : Nat) : k.flipBank.bankImg b = k.bankImg b := by rw [Pkg.bankImg, Pkg.flipBank_upd, ← Pkg.bankImg]
theorem Pkg.bankImg_booting (k : Pkg) (b : Nat) : ((k.flag F.UPD_STATUS_LIFEBOAT false).setRun .booting).bankImg b = k.bankImg b := rfl
theorem Pkg.booting_frame (k : Pkg) : ((k.flag F.UPD_STATUS_LIFEBOAT false).setRun .booting).upd = k.upd ∧
    ((k.flag F.UPD_STATUS_LIFEBOAT false).setRun .booting).pkc.run = .booting ∧ ((k.flag F.UPD_STATUS_LIFEBOAT false).setRun .booting).dark = k.dark :=
  ⟨rfl, rfl, rfl⟩
theorem Pkg.activeBank_booting (k : Pkg) : ((k.flag F.UPD_STATUS_LIFEBOAT false).setRun .booting).activeBank = k.activeBank :=
  k.get_put_disjoint F.UPD_STATUS_LIFEBOAT F.UPD_STATUS_ACTIVE_BANK _ (by decide) rfl (by decide)
theorem Pkg.lifeboat_booting (k : Pkg) : ((k.flag F.UPD_STATUS_LIFEBOAT false).setRun .booting).lifeboat = false := by
  have h : ((k.flag F.UPD_STATUS_LIFEBOAT false).setRun .booting).get F.UPD_STATUS_LIFEBOAT = 0 := k.get_put_same F.UPD_STATUS_LIFEBOAT 0 (by decide)
  rw [Pkg.lifeboat, h]
  rfl
section
variable {got : List Byte} {r : Nat × List Byte}
/-- A pushed image that fails its check: FAIL has the code, and banks and PKC stay. -/
theorem Pkg.pushEnds_bad (h : r.1 ≠ 0) (h5 : r.1 ≤ 5) : (k.pushEnds got r).upd.pushing = false ∧ (k.pushEnds got r).get F.UPD_STATUS_FAIL = r.1 ∧
    (k.pushEnds got r).pkc = k.pkc ∧ (k.pushEnds got r).upd.bank0 = k.upd.bank0 ∧ (k.pushEnds got r).upd.bank1 = k.upd.bank1 ∧
    (k.pushEnds got r).dark = k.dark := by
  simp only [Pkg.pushEnds, if_pos h]
  exact ⟨rfl, Pkg.fail_putFail _ (by omega), rfl, rfl, rfl, rfl⟩
/-- A pushed image that passes is in the bank that is active from here on, and boots. -/
theorem Pkg.pushEnds_good (h : r.1 = 0) : (k.pushEnds got r).upd.pushing = false ∧ (k.pushEnds got r).activeBank = 1 - k.activeBank ∧
    (k.pushEnds got r).bankImg (k.pushEnds got r).activeBank = r.2 ∧ (k.pushEnds got r).pkc.run = .booting ∧ (k.pushEnds got r).lifeboat = false ∧
    (k.pushEnds got r).dark = k.dark := by
  simp only [Pkg.pushEnds, h, ne_eq, not_true_eq_false, if_false]
  generalize hk : ((k.pushMore got).setUpd fun x => { x with pushing := false, received := [] }) = k2
  have ha : k2.activeBank = k.activeBank := by rw [← hk]; rfl
  have hp : k2.upd.pushing = false := by rw [← hk]; rfl
  have hd : k2.dark = k.dark := by rw [← hk]; rfl
  rw [← ha, ← hd]
  generalize hv : pVersion got = ver
  generalize hw : k2.writeBank (1 - k2.activeBank) r.2 ver = k3
  have ha3 : k3.activeBank = k2.activeBank := by rw [← hw]; exact Pkg.activeBank_writeBank ..
  have hi3 : k3.bankImg (1 - k2.activeBank) = r.2 := by rw [← hw]; exact Pkg.bankImg_writeBank ..
  have hp3 : k3.upd.pushing = false := by
    rw [← hw, Pkg.writeBank_upd]
    by_cases hb : 1 - k2.activeBank = 0
    · rw [if_pos hb]; exact hp
    · rw [if_neg hb]; exact hp
  have hd3 : k3.dark = k2.dark := by rw [← hw]; exact (Pkg.csuStop_frame ..).2.2
  have hbank : ((k3.flipBank.flag F.UPD_STATUS_LIFEBOAT false).setRun .booting).activeBank = 1 - k2.activeBank :=
    (Pkg.activeBank_booting _).trans (k3.activeBank_flipBank.trans (by rw [ha3]))
  obtain ⟨hu, hrun, hdark⟩ := k3.flipBank.booting_frame
  refine ⟨?_, hbank, ?_, hrun, ?_, hdark.trans (k3.flipBank_frame.2.2.trans hd3)⟩
  · rw [hu, k3.flipBank_upd]
    exact hp3
  · rw [hbank, ← hi3]
    exact (Pkg.bankImg_booting _ _).trans (Pkg.bankImg_flipBank _ _)
  · exact Pkg.lifeboat_booting _
end
theorem Pkg.pushWord_dark (w : Word) (k : Pkg) : (k.pushWord w).dark = k.dark := by
  by_cases h : k.pushOpen = false ∨ k.upd.pushing = false
  · rw [Pkg.pushWord_closed h]
  simp only [not_or, Bool.not_eq_false] at h
  obtain ⟨ho, hp⟩ := h
  rw [Pkg.pushWord_open ho hp]
  by_cases hl : (k.pushGot w).length < k.get F.UPD_PUSH_LEN_LEN
  · rw [if_pos hl]
    rfl
  rw [if_neg hl]
  by_cases hr : (applyPatch k.fwKeys [] 1 bankBytes (k.pushGot w)).1 = 0
  · obtain ⟨-, -, -, -, -, hd⟩ := Pkg.pushEnds_good (k := k) (got := k.pushGot w) hr
    exact hd
  · obtain ⟨-, -, -, -, -, hd⟩ := Pkg.pushEnds_bad (k := k) (got := k.pushGot w) hr (applyPatch_code ..)
    exact hd

/-! ### The registers of the push -/

def pushCtrlDesc : RegDesc := ⟨"UPD_PUSH_CTRL", 0x80020, 1, 0x0, 1, 0x0, 0x0, 0x0, 0x0, 0x0, 0x1, 0, 1⟩
def pushLenDesc : RegDesc := ⟨"UPD_PUSH_LEN", 0x80024, 1, 0x0, 1, 0x0, 0x0, 0xffffff, 0x0, 0x0, 0x0, 0, 1⟩
def pushDataDesc : RegDesc := ⟨"UPD_PUSH_DATA", 0x80028, 1, 0x0, 1, 0x0, 0x0, 0x0, 0x0, 0x0, 0xffffffff, 0, 1⟩
theorem findReg_UPD_PUSH_LEN : findReg R.UPD_PUSH_LEN = some pushLenDesc := by decide +kernel
theorem busWrite_UPD_PUSH_LEN (x : Bus) (h : k.pushOpen = false) (w : Word) (m : Mem) : busWrite x pushLenDesc R.UPD_PUSH_LEN w m k = (m, k) := by
  have hi : k.ignores x pushLenDesc R.UPD_PUSH_LEN w.toNat = !k.pushOpen := rfl
  unfold busWrite
  dsimp only
  rw [hi, h]
  rfl
theorem busWrite_UPD_PUSH_CTRL (x : Bus) (m : Mem) (k : Pkg) : busWrite x pushCtrlDesc R.UPD_PUSH_CTRL 1 m k =
    (m, (k.storeFields pushCtrlDesc R.UPD_PUSH_CTRL 1).pushStart) := by
  have hi : k.ignores x pushCtrlDesc R.UPD_PUSH_CTRL (1 : Word).toNat = false := rfl
  have hr : k.rejects pushCtrlDesc.base (1 : Word).toNat = false := rfl
  unfold busWrite busAct
  dsimp only
  rw [hi, hr]
  rfl
theorem busWrite_UPD_PUSH_DATA (x : Bus) (w : Word) (m : Mem) (k : Pkg) : busWrite x pushDataDesc R.UPD_PUSH_DATA w m k =
    (m, (k.storeFields pushDataDesc R.UPD_PUSH_DATA w).pushWord w) := by
  have hi : k.ignores x pushDataDesc R.UPD_PUSH_DATA w.toNat = false := rfl
  have hr : k.rejects pushDataDesc.base w.toNat = false := rfl
  unfold busWrite busAct
  dsimp only
  rw [hi, hr]
  rfl
section
variable (h : SamePkg k j)
include h
theorem SamePkg.upd : j.upd = k.upd := by rw [h.1]
theorem SamePkg.pkc : j.pkc = k.pkc := by rw [h.1]
theorem SamePkg.pushOpen : j.pushOpen = k.pushOpen := by rw [Pkg.pushOpen, h.pkc, ← Pkg.pushOpen]
theorem SamePkg.fwKeys : j.fwKeys = k.fwKeys := by
  unfold Pkg.fwKeys Pkg.unitState Pkg.quarBit Pkg.unit
  rw [h.2, h.1]
theorem SamePkg.pkgDark : j.pkgDark = k.pkgDark := by rw [Pkg.pkgDark, h.dark, ← Pkg.pkgDark]
end

/-! ### The commands -/

theorem pushLen_closed (ho : Open s p who R.UPD_PUSH_LEN) (h : (s.pkg p).pushOpen = false) :
    exec (.registerWrite p who (BitVec.ofNat 25 R.UPD_PUSH_LEN) 4 w) s = .next (s.wrote p who R.UPD_PUSH_LEN s.mem (s.pkg p)) :=
  busAccess_writes (i := .registerWrite p who (BitVec.ofNat 25 R.UPD_PUSH_LEN) 4 w) rfl ho findReg_UPD_PUSH_LEN (by decide) (by decide)
    (busWrite_UPD_PUSH_LEN _ h w s.mem) rfl
theorem pushBegins (ho : Open s p who R.UPD_PUSH_CTRL) :
    ((s.pkg p).pushOpen = false → ∃ j : Pkg, exec (.pushBegin p who) s = .next (s.wrote p who R.UPD_PUSH_CTRL s.mem j) ∧ SamePkg (s.pkg p) j) ∧
    ((s.pkg p).pushOpen = true → ∃ j : Pkg, exec (.pushBegin p who) s = .next (s.wrote p who R.UPD_PUSH_CTRL s.mem j) ∧ j.upd.pushing = true ∧
      j.upd.received = [] ∧ j.get F.UPD_STATUS_FAIL = 0) := by
  have hs : SamePkg (s.pkg p) ((s.pkg p).storeFields pushCtrlDesc R.UPD_PUSH_CTRL 1) := Pkg.storeFields_same rfl rfl _ _ _
  have hx : ∀ i : Pkg, ((s.pkg p).storeFields pushCtrlDesc R.UPD_PUSH_CTRL 1).pushStart = i → i.pkgDark = (s.pkg p).pkgDark →
      exec (.pushBegin p who) s = .next (s.wrote p who R.UPD_PUSH_CTRL s.mem i) := fun i hi hd =>
    busAccess_writes (i := .pushBegin p who) rfl ho findReg_UPD_PUSH_CTRL (by decide) (by decide) ((busWrite_UPD_PUSH_CTRL ..).trans (congrArg _ hi)) hd
  generalize (s.pkg p).storeFields pushCtrlDesc R.UPD_PUSH_CTRL 1 = i at hs hx
  refine ⟨fun h => ⟨i, hx _ (if_neg ?_) hs.pkgDark, hs⟩, fun h =>
    ⟨(i.setUpd fun x => { x with pushing := true, received := [] }).putFail 0, hx _ (if_pos (hs.pushOpen.trans h)) hs.pkgDark, rfl, rfl,
      Pkg.fail_putFail _ (by decide)⟩⟩
  rw [hs.pushOpen, h]
  exact Bool.noConfusion
theorem pushDatas (ho : Open s p who R.UPD_PUSH_DATA) :
    let k := s.pkg p
    let got := k.upd.received ++ leBytes 4 w.toNat
    let r := applyPatch k.fwKeys [] 1 bankBytes got
    ((k.pushOpen = false ∨ k.upd.pushing = false) → ∃ j : Pkg,
      exec (.pushData p who w) s = .next (s.wrote p who R.UPD_PUSH_DATA s.mem j) ∧ SamePkg k j) ∧
    (k.pushOpen = true → k.upd.pushing = true → ∃ j : Pkg, exec (.pushData p who w) s = .next (s.wrote p who R.UPD_PUSH_DATA s.mem j) ∧
      (got.length < k.get F.UPD_PUSH_LEN_LEN → j.upd.received = got ∧ j.upd.pushing = true ∧ j.pkc = k.pkc) ∧
      (k.get F.UPD_PUSH_LEN_LEN ≤ got.length → j.upd.pushing = false ∧
        (r.1 ≠ 0 → j.get F.UPD_STATUS_FAIL = r.1 ∧ j.pkc = k.pkc ∧ j.upd.bank0 = k.upd.bank0 ∧ j.upd.bank1 = k.upd.bank1) ∧
        (r.1 = 0 → j.activeBank = 1 - k.activeBank ∧ j.bankImg j.activeBank = r.2 ∧ j.pkc.run = .booting ∧ j.lifeboat = false))) := by
  intro k got r
  have hs : SamePkg k (k.storeFields pushDataDesc R.UPD_PUSH_DATA w) := Pkg.storeFields_same rfl rfl _ _ _
  have hx : exec (.pushData p who w) s = .next (s.wrote p who R.UPD_PUSH_DATA s.mem ((k.storeFields pushDataDesc R.UPD_PUSH_DATA w).pushWord w)) :=
    busAccess_writes (i := .pushData p who w) rfl ho findReg_UPD_PUSH_DATA (by decide) (by decide) (busWrite_UPD_PUSH_DATA ..)
      (by rw [Pkg.pkgDark, Pkg.pushWord_dark, ← Pkg.pkgDark]; exact hs.pkgDark)
  rw [hx]
  generalize k.storeFields pushDataDesc R.UPD_PUSH_DATA w = i at hs
  have hgot : i.pushGot w = got := by rw [Pkg.pushGot, hs.upd]
  have hr : applyPatch i.fwKeys [] 1 bankBytes got = r := by rw [hs.fwKeys]
  refine ⟨fun h => ⟨_, rfl, ?_⟩, fun hopen hp => ⟨_, rfl, fun hl => ?_, fun hl => ?_⟩⟩
  · rw [Pkg.pushWord_closed (by rwa [hs.pushOpen, hs.upd])]
    exact hs
  all_goals rw [Pkg.pushWord_open (hs.pushOpen.trans hopen) ((congrArg UpdSt.pushing hs.upd).trans hp), hgot, hr, hs.get F.UPD_PUSH_LEN_LEN]
  · rw [if_pos hl]
    exact ⟨rfl, (congrArg UpdSt.pushing hs.upd).trans hp, hs.pkc⟩
  · rw [if_neg (Nat.not_lt.2 hl)]
    by_cases h0 : r.1 = 0
    · obtain ⟨h1, h2, h3, h4, h5, -⟩ := Pkg.pushEnds_good (k := i) (got := got) h0
      exact ⟨h1, fun hn => absurd h0 hn, fun _ => ⟨h2.trans (congrArg (1 - ·) (hs.get F.UPD_STATUS_ACTIVE_BANK)), h3, h4, h5⟩⟩
    · obtain ⟨h1, h2, h3, h4, h5, -⟩ := Pkg.pushEnds_bad (k := i) (got := got) h0 (applyPatch_code ..)
      exact ⟨h1, fun _ => ⟨h2, h3.trans hs.pkc, h4.trans (congrArg UpdSt.bank0 hs.upd), h5.trans (congrArg UpdSt.bank1 hs.upd)⟩, fun hn => absurd hn h0⟩

end Sys2Proof.Machine
end

section
/-! PROOF. Obligation O58: trial restarts, pushes (R346–R350), and the staged images of the golden store (R348, R352, R353). -/
namespace Sys2Proof.Machine
open Sys2Proof

variable {s : State} {t : TrayId} {p : PkgId} {c : CwSt} {l : List Golden} {g : Golden} {kind target : Nat}

/-! ### The golden store -/

theorem stagedFind_some (h : stagedFind l kind target = some g) : g.gold = false ∧ g.good = true ∧ g.kind = kind ∧ g.target = target := by
  have hg := List.find?_some h
  simp only [Bool.and_eq_true, Bool.not_eq_true', decide_eq_true_eq] at hg
  obtain ⟨⟨⟨h1, h2⟩, h3⟩, h4⟩ := hg
  exact ⟨h1, h2, h3, h4⟩
theorem promote_unstaged (h : stagedFind l kind target = none) : promote kind target l = l := by
  rw [promote, h]
theorem promote_staged (h : stagedFind l kind target = some g) :
    promote kind target l = { g with gold := true } :: l.filter fun e => !(e.kind = kind && e.target = target) := by
  rw [promote, h]
/-- A promoted entry is the golden one, nothing is staged in its place, and the other entries stay. -/
theorem promote_spec (h : stagedFind l kind target = some g) : goldFind (promote kind target l) kind target = some { g with gold := true } ∧
    stagedFind (promote kind target l) kind target = none ∧ ∀ o ∈ l, (o.kind ≠ kind ∨ o.target ≠ target) → o ∈ promote kind target l := by
  obtain ⟨-, hgood, hk, ht⟩ := stagedFind_some h
  rw [promote_staged h]
  refine ⟨?_, ?_, fun o ho hne => ?_⟩
  · exact List.find?_cons_of_pos (by simp [hgood, hk, ht])
  · refine List.find?_eq_none.2 fun e he => ?_
    rcases List.mem_cons.1 he with rfl | he
    · exact Bool.noConfusion
    · have hf := (List.mem_filter.1 he).2
      simp only [Bool.and_eq_true, Bool.not_eq_true', decide_eq_true_eq, Bool.and_eq_false_iff, decide_eq_false_iff_not] at hf ⊢
      rintro ⟨⟨-, hk⟩, ht⟩
      exact hf.elim (fun h => h hk) fun h => h ht
  · refine List.mem_cons_of_mem _ (List.mem_filter.2 ⟨ho, ?_⟩)
    rcases hne with h | h
    · simp [h]
    · simp [h]
/-- Both copies of the store are promoted. -/
def CwSt.promoted (kind target : Nat) (c : CwSt) : CwSt := { c with nor0 := promote kind target c.nor0, nor1 := promote kind target c.nor1 }
theorem exec_goldenPromotion (kind : Fin 8) (target : Byte) : exec (.goldenPromotion t kind target) s =
    onTray t s fun c => if !s.stagedRuns t kind.val target.toNat then c else c.promoted kind.val target.toNat := rfl
theorem goldenPromotion_runs {kind : Fin 8} {target : Byte} (h : s.stagedRuns t kind.val target.toNat = true) :
    ∃ d, exec (.goldenPromotion t kind target) s = .next (s.setTray t d) ∧ ∀ a b, (a, b) ∈ [((s.tray t).nor0, d.nor0), ((s.tray t).nor1, d.nor1)] →
      (stagedFind a kind.val target.toNat = none → b = a) ∧
      (∀ g, stagedFind a kind.val target.toNat = some g → goldFind b kind.val target.toNat = some { g with gold := true } ∧
        stagedFind b kind.val target.toNat = none ∧ ∀ o ∈ a, (o.kind ≠ kind.val ∨ o.target ≠ target.toNat) → o ∈ b) := by
  refine ⟨(s.tray t).promoted kind.val target.toNat, ?_, fun a b hab => ?_⟩
  · rw [exec_goldenPromotion]
    unfold onTray
    dsimp only
    rw [h]
    rfl
  · have hb : b = promote kind.val target.toNat a := by
      simp only [List.mem_cons, List.not_mem_nil, or_false, Prod.mk.injEq] at hab
      rcases hab with ⟨rfl, rfl⟩ | ⟨rfl, rfl⟩ <;> rfl
    rw [hb]
    exact ⟨promote_unstaged, fun g => promote_spec⟩
theorem goldenPromotion_keeps {kind : Fin 8} {target : Byte} (h : s.stagedRuns t kind.val target.toNat = false) :
    exec (.goldenPromotion t kind target) s = .next (s.setTray t (s.tray t)) := by
  rw [exec_goldenPromotion]
  unfold onTray
  dsimp only
  rw [h]
  rfl
theorem State.stagedRuns_none (h : (s.tray t).staged kind target = none) : s.stagedRuns t kind target = false := by
  simp only [State.stagedRuns, h]
theorem State.stagedRuns_module {pos : Fin 4} (h : (s.tray t).staged 1 target = some g) (hp : target = pos.val) (ht : TrayId.pkgAt t pos = some p) :
    s.stagedRuns t 1 target = true ↔
      (s.pkg p).pkc.run = .running ∧ (s.tray t).matches ((s.pkg p).bankImg (s.pkg p).activeBank) g = true := by
  have hpos : Fin.ofNat 4 target = pos := by
    subst hp
    exact Fin.ext (Nat.mod_eq_of_lt pos.isLt)
  have hlt : target < 4 := hp ▸ pos.isLt
  simp only [State.stagedRuns, h, hpos, ht, if_true, Bool.and_eq_true, decide_eq_true_eq, hlt, true_and]
theorem State.stagedRuns_cw (h : (s.tray t).staged 6 target = some g) :
    s.stagedRuns t 6 target = true ↔ (s.tray t).running = true ∧ (s.tray t).bootFlash = g.image := by
  simp only [State.stagedRuns, h, (by decide : ¬ 6 = 1), if_false, if_true, Bool.and_eq_true, decide_eq_true_eq]
theorem State.stagedRuns_other (h : (s.tray t).staged kind target = some g) (h1 : kind ≠ 1) (h6 : kind ≠ 6) : s.stagedRuns t kind target = true := by
  simp only [State.stagedRuns, h, if_neg h1, if_neg h6]

/-! ### CW_ACTIVATION -/

/-- What a restart adds to what a tray controller says, and the image it boots from. -/
def CwSt.Speaks (c d : CwSt) : Prop := d.bootFlash = c.bootFlash ∧ ∀ m ∈ c.out, m ∈ d.out
theorem CwSt.Speaks.refl (c : CwSt) : c.Speaks c := ⟨rfl, fun _ h => h⟩
theorem CwSt.Speaks.trans {a b c : CwSt} (h1 : a.Speaks b) (h2 : b.Speaks c) : a.Speaks c := ⟨h2.1.trans h1.1, fun m h => h2.2 m (h1.2 m h)⟩
theorem CwSt.speaks_emit (m : Msg) (c : CwSt) : c.Speaks (c.emit m) := ⟨rfl, fun _ h => List.mem_append_left _ h⟩
theorem CwSt.speaks_foldl {β : Type} {f : CwSt → β → CwSt} (h : ∀ (c : CwSt) (e : β), c.Speaks (f c e)) (l : List β) (c : CwSt) : c.Speaks (l.foldl f c) :=
  List.foldlRecOn (motive := fun d => c.Speaks d) l f (.refl c) fun d hd e _ => hd.trans (h d e)
theorem CwSt.speaks_checkChip (e : Nat × Nat) (c : CwSt) : c.Speaks (c.checkChip e) := by
  unfold CwSt.checkChip
  dsimp only
  cases c.golden e.1 e.2 with
  | none => exact .refl c
  | some g =>
    dsimp only
    split
    · exact ⟨rfl, fun _ h => h⟩
    split
    · exact c.speaks_emit _
    · exact ⟨rfl, fun _ h => h⟩
theorem CwSt.speaks_restart (c : CwSt) : c.Speaks c.restart := by
  rw [CwSt.restart_eq]
  have h0 : c.Speaks c.repair := ⟨rfl, fun _ h => h⟩
  have h1 : c.repair.Speaks c.toldLost := CwSt.speaks_foldl (fun c _ => c.speaks_emit _) _ _
  have h2 : c.toldLost.Speaks c.toldLost.compared := CwSt.speaks_foldl (fun c e => c.speaks_checkChip e) _ _
  have h3 : ∀ d : CwSt, d.Speaks (d.started c.lost) := fun d => ⟨rfl, fun _ h => h⟩
  exact ((h0.trans h1).trans h2).trans (h3 _)
theorem State.speaks_checkRunning (t : TrayId) (s : State) : (s.tray t).Speaks ((s.checkRunning t).tray t) := by
  refine List.foldlRecOn (motive := fun u : State => (s.tray t).Speaks (u.tray t)) (List.finRange 4) (State.checkPos t) (.refl _)
    fun u hu pos _ => hu.trans ?_
  unfold State.checkPos
  split
  · dsimp only
    split
    · rw [State.tray_setTray_same]
      exact CwSt.speaks_emit _ _
    · exact .refl _
  · exact .refl _
/-- The CW takes its own staged image, where it verifies. -/
def CwSt.activated (c : CwSt) : CwSt :=
  match c.staged 6 0 with
  | some g => if trailerOk c.keys g.image then { c with bootFlash := g.image } else c.emit (.report "UPDATE_FAILED" 0 6)
  | none => c
theorem exec_cwActivation : exec (.cwActivation t) s = .next ((s.setChips t (s.tray t).activated.restart).checkRunning t) := rfl
theorem cwActivates (s : State) (t : TrayId) :
    let c := s.tray t
    ∃ v, exec (.cwActivation t) s = .next v ∧ (v.tray t).debugOpen = false ∧ ∀ g, c.staged 6 0 = some g →
      (trailerOk c.keys g.image = true → (v.tray t).bootFlash = g.image) ∧
      (trailerOk c.keys g.image = false → (v.tray t).bootFlash = c.bootFlash ∧ Msg.report "UPDATE_FAILED" 0 6 ∈ (v.tray t).out) := by
  intro c
  refine ⟨_, exec_cwActivation, ?_⟩
  change ((((s.setChips t c.activated.restart).checkRunning t).tray t).debugOpen = false) ∧ _
  have hchips := (s.setChips_spec t c.activated.restart).2
  have hrun := (s.setChips t c.activated.restart).checkRunning_spec t |>.2
  have hspeaks := (s.setChips t c.activated.restart).speaks_checkRunning t
  rw [hchips] at hrun hspeaks
  have hall := c.activated.speaks_restart.trans hspeaks
  refine ⟨(congrArg CwSt.debugOpen hrun).trans c.activated.restart_lines.2.2.2, fun g hg => ⟨fun h => ?_, fun h => ?_⟩⟩
  · have ha : c.activated = { c with bootFlash := g.image } := by
      simp only [CwSt.activated, hg]
      rw [if_pos h]
    exact hall.1.trans (congrArg CwSt.bootFlash ha)
  · have ha : c.activated = c.emit (.report "UPDATE_FAILED" 0 6) := by
      simp only [CwSt.activated, hg]
      rw [h]
      rfl
    refine ⟨hall.1.trans (by rw [ha]; rfl), hall.2 _ ?_⟩
    rw [ha]
    exact List.mem_append_right _ (List.mem_singleton.2 rfl)

/-- Settles O58: `trialRuns` and `trialTimes` for trials, `pushDatas` for pushes, `promote_spec` for the golden store, and `CwSt.Speaks` for what
a CW's restart keeps. -/
theorem trialsAndPushes : Obligations.TrialsAndPushes := by
  intro s p tr k c
  refine ⟨noTrial, fun back since h => ⟨trialRuns h, trialTimes h⟩, fun who => ⟨fun w => pushLen_closed, pushBegins, fun w => pushDatas⟩,
    fun kind target => ⟨fun h => goldenPromotion_keeps (State.stagedRuns_none h), fun g h => ⟨fun pos q hk hp hq => ?_, fun hk => ?_, fun h1 h6 =>
      goldenPromotion_runs (State.stagedRuns_other h h1 h6)⟩⟩, cwActivates s tr⟩
  · have hm := State.stagedRuns_module (s := s) (t := tr) (hk ▸ h) hp hq
    rw [← hk] at hm
    exact ⟨fun hr => goldenPromotion_runs (hm.2 hr), fun hr => goldenPromotion_keeps (Bool.eq_false_iff.2 fun e => hr (hm.1 e))⟩
  · have hm := State.stagedRuns_cw (s := s) (t := tr) (hk ▸ h)
    rw [← hk] at hm
    exact ⟨fun hr => goldenPromotion_runs (hm.2 hr), fun hr => goldenPromotion_keeps (Bool.eq_false_iff.2 fun e => hr (hm.1 e))⟩

end Sys2Proof.Machine
end

section
/-! PROOF. What rounds of tally merge, writes and the ends of queries leave of the Bearing engines (R208–R216): the queries that run and wait. -/
namespace Sys2Proof.Machine
open Sys2Proof

variable {i j k : Pkg} {now q n t : Nat} {p : PkgId} {m : Mem}

/-! ### The queries of the engines -/

/-- The queries of an engine: the one that runs and those that wait. -/
def BrgSt.tasks (x : BrgSt) : Option Query × List Query := (x.running, x.queue)
/-- Between two states of a package its darkness and the queries of its engines stand. -/
structure Pkg.Tasked (j k : Pkg) : Prop where
  dark : k.dark = j.dark
  tasks : ∀ t, (k.engine t).tasks = (j.engine t).tasks
theorem Pkg.Tasked.running (h : j.Tasked k) (t : Nat) : (k.engine t).running = (j.engine t).running := congrArg Prod.fst (h.tasks t)
theorem Pkg.Tasked.queue (h : j.Tasked k) (t : Nat) : (k.engine t).queue = (j.engine t).queue := congrArg Prod.snd (h.tasks t)
theorem Pkg.Tasked.refl (k : Pkg) : k.Tasked k := ⟨rfl, fun _ => rfl⟩
theorem Pkg.Tasked.trans (h : i.Tasked j) (h' : j.Tasked k) : i.Tasked k := ⟨h'.dark.trans h.dark, fun t => (h'.tasks t).trans (h.tasks t)⟩
theorem Pkg.Tasked.ite {c : Prop} [Decidable c] (h : i.Tasked j) (h' : i.Tasked k) : i.Tasked (if c then j else k) := by split <;> assumption
theorem Pkg.Tasked.foldl {β : Type} {f : Pkg → β → Pkg} (hf : ∀ (k : Pkg) b, k.Tasked (f k b)) : ∀ (l : List β) (k : Pkg), k.Tasked (l.foldl f k)
  | [], k => .refl k
  | b :: l, k => (hf k b).trans (Pkg.Tasked.foldl hf l _)
theorem Pkg.Tasked.foldlMem {β : Type} {f : Mem × Pkg → β → Mem × Pkg} (hf : ∀ (mk : Mem × Pkg) b, mk.2.Tasked (f mk b).2) :
    ∀ (l : List β) (mk : Mem × Pkg), mk.2.Tasked (l.foldl f mk).2
  | [], r => .refl r.2
  | b :: l, r => (hf r b).trans (Pkg.Tasked.foldlMem hf l _)
/-- A change that touches neither engines nor darkness. -/
theorem Pkg.Tasked.of_brg (hd : k.dark = j.dark) (hb : k.brg = j.brg) : j.Tasked k := ⟨hd, fun t => by rw [Pkg.engine, hb, ← Pkg.engine]⟩
theorem Pkg.Tasked.of_onlyRegs (h : OnlyRegs j k) : j.Tasked k := .of_brg (by rw [h]) (by rw [h])
theorem Pkg.Tasked.put (k : Pkg) (f : Fld) (v : Nat) : k.Tasked (k.put f v) := .of_brg rfl rfl
theorem Pkg.Tasked.count (k : Pkg) (f : Fld) (n : Nat) : k.Tasked (k.count f n) := .of_brg rfl rfl
theorem Pkg.Tasked.setRg (o : Nat) (w : Word) (k : Pkg) : k.Tasked (k.setRg o w) := .of_brg rfl rfl
theorem Pkg.Tasked.emit (m : Msg) (k : Pkg) : k.Tasked (k.emit m) := .of_brg rfl rfl
theorem Pkg.Tasked.mem (x : MemSt) (k : Pkg) : k.Tasked { k with mem := x } := .of_brg rfl rfl
theorem Pkg.Tasked.setTally (f : TallySt → TallySt) (k : Pkg) : k.Tasked (k.setTally f) := .of_brg rfl rfl

/-! ### Writes -/

theorem sget_map_tasks {g : Nat × BrgSt → Nat × BrgSt} (h1 : ∀ e, (g e).1 = e.1) (h2 : ∀ e, (g e).2.tasks = e.2.tasks) :
    ∀ (l : SMap BrgSt) (t : Nat), (sget {} (l.map g) t).tasks = (sget {} l t).tasks
  | [], _ => rfl
  | e :: l, t => by
    have hc : sget {} (g e :: l.map g) t = if t = (g e).1 then (g e).2 else sget {} (l.map g) t := rfl
    have hd : sget {} (e :: l) t = if t = e.1 then e.2 else sget {} l t := rfl
    rw [List.map_cons, hc, hd, h1]
    by_cases h : t = e.1
    · rw [if_pos h, if_pos h]
      exact h2 e
    · rw [if_neg h, if_neg h]
      exact sget_map_tasks h1 h2 l t
/-- A write to local HBM enters what running scans may still read, and leaves the queries. -/
theorem Pkg.Tasked.noteScans (p : PkgId) (m : Mem) (off len : Nat) (k : Pkg) : k.Tasked (k.noteScans p m off len) := by
  refine ⟨rfl, fun t => ?_⟩
  unfold Pkg.engine Pkg.noteScans
  dsimp only
  refine sget_map_tasks ?_ ?_ k.brg t
  · exact fun _ => rfl
  · exact fun _ => rfl
theorem Pkg.Tasked.noticeWrite (space off : Nat) (d : List Byte) (k : Pkg) : k.Tasked (k.noticeWrite space off d) := .ite (.mem ..) (.refl k)
theorem storageOp_tasked (now : Nat) (p : PkgId) (space off : Nat) (d : List Byte) (m : Mem) (k : Pkg) :
    k.Tasked (storageOp now p space off opWritePosted 0 d m k).2.1 := by
  unfold storageOp
  dsimp only
  split
  · exact .refl k
  · rw [if_neg (by rintro ⟨h, -⟩; revert h; decide), if_neg (by decide), if_neg (by decide)]
    exact (Pkg.Tasked.ite (.noteScans ..) (.refl k)).trans ((Pkg.Tasked.mem ..).trans (.noticeWrite ..))
theorem claspedOp_tasked (now : Nat) (p : PkgId) (space off : Nat) (d : List Byte) (m : Mem) (k : Pkg) :
    k.Tasked (claspedOp now p none space off opWritePosted 0 d m k).2.1 := by
  unfold claspedOp
  dsimp only
  split
  · exact .ite (.mem ..) (.refl k)
  · exact storageOp_tasked ..
theorem writeResult_tasked (now : Nat) (p : PkgId) (c a : Nat) (d : List Byte) (m : Mem) (k : Pkg) :
    k.Tasked (writeResult now p c a d m k).2.1 := by
  unfold writeResult
  split
  · exact .refl k
  split
  · split
    · exact .refl k
    split
    · exact .refl k
    · exact claspedOp_tasked ..
  · exact .refl k
  · exact .refl k
theorem Pkg.Tasked.wakeFor (c : Nat) (k : Pkg) : k.Tasked (k.wakeFor c) := by
  have h := Pkg.wakeCore_aonOnly c k
  exact .ite (.trans (.of_brg (by rw [h]) (by rw [h])) (.put ..)) (.refl k)
theorem writeOrWait_tasked (now : Nat) (p : PkgId) (c a : Nat) (d : List Byte) (m : Mem) (k : Pkg) : k.Tasked (writeOrWait now p c a d m k).2.1 := by
  unfold writeOrWait
  split
  · exact (Pkg.Tasked.wakeFor c k).trans (.mem ..)
  · exact writeResult_tasked ..

/-! ### Rounds -/

theorem Pkg.Tasked.freeInput (inp key flits : Nat) (k : Pkg) : k.Tasked (k.freeInput inp key flits) := .ite (.refl k) (.of_brg rfl rfl)
theorem Pkg.Tasked.leave (e : Queued) (k : Pkg) : k.Tasked (k.leave e) := .ite (.refl k) (.freeInput ..)
theorem Pkg.Tasked.drop (inp : Nat) (d : Drop) (k : Pkg) : k.Tasked (k.drop inp d) := .count ..
theorem Pkg.Tasked.arrival (inp : Nat) (pk : Packet) (k : Pkg) : k.Tasked (k.arrival inp pk).2 := by
  unfold Pkg.arrival
  dsimp only
  split <;> exact .of_brg rfl rfl
theorem Pkg.Tasked.answer (now : Nat) (rq : Packet) (st : Byte) (b : Bool) (d : List Byte) (k : Pkg) : k.Tasked (k.answer now rq st b d) := .emit ..
theorem Pkg.Tasked.meetDark (now q : Nat) (e : Queued) (k : Pkg) : k.Tasked (k.meetDark now q e) := by
  have h (d : Drop) : k.Tasked ((k.leave e).drop q d) := (Pkg.Tasked.leave ..).trans (.drop ..)
  unfold Pkg.meetDark
  dsimp only
  refine .ite ?_ (.ite (h _) (.ite (.ite ((Pkg.Tasked.leave ..).trans (.answer ..)) (h _)) (h _)))
  split
  · exact (h _).trans (.emit ..)
  · exact h _
theorem Pkg.Tasked.offer (now q : Nat) (e : Queued) (k : Pkg) : k.Tasked (k.offer now q e) := .ite (.meetDark ..) (.of_brg rfl rfl)
theorem Pkg.Tasked.treePush (now t q : Nat) (pk : Packet) (k : Pkg) : k.Tasked (k.treePush now t q pk) := (Pkg.Tasked.arrival ..).trans (.offer ..)
theorem Pkg.Tasked.roundDone (x : MergeSlot) (status : Byte) (k : Pkg) : k.Tasked (k.roundDone x status) := by
  have h : k.Tasked (x.parts.foldl (fun k y => match y.core with
      | some c => k.emit (.completion c 0 status [])
      | none => k) k) :=
    .foldl (fun k y => by split; exacts [.emit .., .refl k]) _ _
  exact .ite (h.trans (.count ..)) h
theorem sendRound_tasked (now : Nat) (p : PkgId) (x : MergeSlot) (m : Mem) (k : Pkg) : k.Tasked (sendRound now p x m k).2 := by
  have hd (st : Byte) (k : Pkg) := Pkg.Tasked.roundDone x st k
  unfold Pkg.roundDone at hd
  have h0 := Pkg.Tasked.setTally (fun y =>
    { y with slots := y.slots.filter (fun z => !(z.tree = x.tree && z.seq = x.seq)), closed := y.closed ++ [(x.tree, x.seq)] }) k
  unfold sendRound
  dsimp only
  generalize k.setTally _ = k1 at h0 ⊢
  split
  · split
    · exact h0.trans ((Pkg.Tasked.treePush ..).trans (hd _ _))
    · refine h0.trans (.trans ?_ ((Pkg.Tasked.emit ..).trans (hd _ _)))
      split
      · exact .refl _
      · exact writeResult_tasked ..
  · split
    · exact h0.trans ((Pkg.Tasked.treePush ..).trans (hd _ _))
    · exact h0.trans (hd _ _)
theorem flushTree_tasked (now : Nat) (p : PkgId) (t : Nat) : ∀ (n : Nat) (mk : Mem × Pkg), mk.2.Tasked (flushTree now p t n mk).2
  | 0, _ => .refl _
  | n + 1, (m, k) => by
    unfold flushTree
    dsimp only
    split
    · next x _ =>
      split
      · exact .refl k
      split
      · exact .wakeFor ..
      · exact (sendRound_tasked now p x m k).trans (flushTree_tasked now p t n _)
    · exact .refl k
theorem flushRounds_tasked (now : Nat) (p : PkgId) (m : Mem) (k : Pkg) : k.Tasked (flushRounds now p m k).2 :=
  Pkg.Tasked.trans (j := k.closeRounds) (.setTally ..)
    (.foldlMem (f := fun mk t => flushTree now p t 33 mk) (fun mk t => flushTree_tasked now p t 33 mk) (List.range 64) (m, k.closeRounds))
theorem Pkg.Tasked.tallyPut (now inp : Nat) (pk : Packet) (k : Pkg) : k.Tasked (k.tallyPut now inp pk) := by
  have h0 := Pkg.Tasked.freeInput inp (bufKey (k.isPlane inp) pk) (flits pk) k
  unfold Pkg.tallyPut
  dsimp only
  generalize k.freeInput inp (bufKey (k.isPlane inp) pk) (flits pk) = k0 at h0 ⊢
  refine .ite (.setTally ..) (h0.trans ?_)
  exact .ite (.ite ((Pkg.Tasked.count ..).trans (.emit ..)) (.count ..)) (.ite (.setTally ..) ((Pkg.Tasked.setTally ..).trans (.count ..)))
theorem settle_tasked (now : Nat) (p : PkgId) : ∀ (n : Nat) (mk : Mem × Pkg), mk.2.Tasked (settle now p n mk).2
  | 0, _ => .refl _
  | n + 1, mk => by
    have h0 := flushRounds_tasked now p mk.1 mk.2
    rw [settle]
    generalize flushRounds now p mk.1 mk.2 = r at h0
    have h1 : mk.2.Tasked (r.2.tally.waiting.foldl (fun k e => k.tallyPut now e.1 e.2) (r.2.setTally fun y => { y with waiting := [] })) :=
      h0.trans ((Pkg.Tasked.setTally ..).trans (.foldl (fun k e => .tallyPut ..) _ _))
    generalize (r.2.tally.waiting.foldl (fun k e => k.tallyPut now e.1 e.2) (r.2.setTally fun y => { y with waiting := [] })) = k1 at h1
    split
    · exact h1
    · exact h1.trans (settle_tasked now p n (r.1, k1))
theorem tallySettle_tasked (now : Nat) (p : PkgId) (m : Mem) (k : Pkg) : k.Tasked (tallySettle now p m k).2 := by
  unfold tallySettle
  split
  · exact .refl k
  · exact settle_tasked now p _ (m, k)

/-! ### Queries that end -/

theorem engineContribute_tasked (now : Nat) (p : PkgId) (t tree : Nat) (b : List Byte) (status : Byte) (l : List Byte) (m : Mem) (k : Pkg) :
    k.Tasked (engineContribute now p t tree b status l m k).2 := by
  unfold engineContribute
  split
  · exact .refl k
  · exact (Pkg.Tasked.tallyPut ..).trans (tallySettle_tasked ..)
theorem Pkg.Tasked.queryNoted (t : Nat) (b : List Byte) (code n : Nat) (k : Pkg) : k.Tasked (k.queryNoted t b code n) :=
  .trans ((Pkg.Tasked.setRg ..).trans (.setRg ..)) (.ite (.count ..) (.ite (.count ..) (.refl _)))
/-- BRG_LAST and its code name the query that ended last. -/
def Pkg.lastEnded (t : Nat) (b : List Byte) (code n : Nat) (k : Pkg) : Prop :=
  k.rg (R.BRG_LAST t) = qRound b ∧ k.rg (R.BRG_LAST_CODE t) = BitVec.ofNat 32 (n * 65536 + code)
theorem BRG_LAST_apart (t : Nat) : R.BRG_LAST t ≠ R.BRG_LAST_CODE t ∧ R.BRG_LAST t ≠ (F.BRG_EVENTS_QFULL t).off ∧
    R.BRG_LAST t ≠ (F.BRG_EVENTS_REFUSED t).off ∧ R.BRG_LAST_CODE t ≠ (F.BRG_EVENTS_QFULL t).off ∧ R.BRG_LAST_CODE t ≠ (F.BRG_EVENTS_REFUSED t).off := by
  simp only [R.BRG_LAST, R.BRG_LAST_CODE, F.BRG_EVENTS_QFULL, F.BRG_EVENTS_REFUSED, R.BRG_EVENTS]
  omega
theorem Pkg.queryNoted_last (t : Nat) (b : List Byte) (code n : Nat) (k : Pkg) : (k.queryNoted t b code n).lastEnded t b code n := by
  obtain ⟨h0, h1, h2, h3, h4⟩ := BRG_LAST_apart t
  have hlast : ((k.setRg (R.BRG_LAST t) (qRound b)).setRg (R.BRG_LAST_CODE t) (BitVec.ofNat 32 (n * 2 ^ 16 + code))).lastEnded t b code n :=
    ⟨(Pkg.rg_setRg_ne _ _ h0).trans (Pkg.rg_setRg_same ..), Pkg.rg_setRg_same ..⟩
  unfold Pkg.queryNoted
  dsimp only
  generalize (k.setRg (R.BRG_LAST t) (qRound b)).setRg (R.BRG_LAST_CODE t) (BitVec.ofNat 32 (n * 2 ^ 16 + code)) = k3 at hlast
  obtain ⟨hl, hc⟩ := hlast
  split
  · exact ⟨(Pkg.rg_put_ne _ _ _ h1).trans hl, (Pkg.rg_put_ne _ _ _ h3).trans hc⟩
  split
  · exact ⟨(Pkg.rg_put_ne _ _ _ h2).trans hl, (Pkg.rg_put_ne _ _ _ h4).trans hc⟩
  · exact ⟨hl, hc⟩
/-- A query that ends is the last to have ended, and leaves what runs and waits (R215). -/
theorem endQuery_spec (now : Nat) (p : PkgId) (t : Nat) (b : List Byte) (tree : Option Nat) (code : Nat) (entries : List Nat) (scanned skipped ns : Nat)
    (m : Mem) (k : Pkg) : k.Tasked (endQuery now p t b tree code entries scanned skipped ns m k).2 ∧
      (endQuery now p t b tree code entries scanned skipped ns m k).2.lastEnded t b code entries.length := by
  have hrec : k.Tasked (queryRecord now p t b code entries scanned skipped ns m k).2 := by
    unfold queryRecord
    split
    · exact writeOrWait_tasked ..
    · exact .refl k
  have htold : ∀ r : Mem × Pkg, r.2.Tasked (queryTold now p t b tree code entries r).2 := fun r => by
    unfold queryTold
    split
    · exact engineContribute_tasked ..
    · exact .refl _
  have hall := (hrec.trans (htold _)).trans (Pkg.Tasked.queryNoted t b code entries.length _)
  have hlast := Pkg.queryNoted_last t b code entries.length (queryTold now p t b tree code entries (queryRecord now p t b code entries scanned skipped ns m k)).2
  rw [endQuery_eq]
  generalize (queryTold now p t b tree code entries (queryRecord now p t b code entries scanned skipped ns m k)).2.queryNoted t b code entries.length = l at hall hlast
  by_cases h : qIrq b = true
  · rw [if_pos h]
    exact ⟨hall.trans (.emit ..), hlast⟩
  · rw [if_neg h]
    exact ⟨hall, hlast⟩

end Sys2Proof.Machine
end

section
/-! PROOF. How a Bearing engine takes a query block (R208–R211). -/
namespace Sys2Proof.Machine
open Sys2Proof

variable {j k : Pkg} {now t code : Nat} {p : PkgId} {m : Mem} {b : List Byte}

/-! ### What judges a block -/

section
variable (hc : j.chart = k.chart) (ha : j.rg R.AON_PKG_ADDR = k.rg R.AON_PKG_ADDR)
include hc
theorem Pkg.shards_congr : j.shards = k.shards := by rw [Pkg.shards, hc, ← Pkg.shards]
theorem Pkg.unitsAgree_congr (b : List Byte) : j.unitsAgree b = k.unitsAgree b := by rw [Pkg.unitsAgree, Pkg.shards_congr hc, ← Pkg.unitsAgree]
include ha
theorem Pkg.addr_congr : j.addr = k.addr := (Pkg.get_of_rg (f := F.AON_PKG_ADDR_ADDR) ha :)
theorem Pkg.shardList_congr (t collection : Nat) : j.shardList t collection = k.shardList t collection := by
  unfold Pkg.shardList Pkg.rackNo Pkg.idx
  rw [Pkg.shards_congr hc, Pkg.addr_congr hc ha]
theorem Pkg.mergeTree_congr (collection : Nat) : j.mergeTree collection = k.mergeTree collection := by
  unfold Pkg.mergeTree Pkg.rackNo
  rw [Pkg.shards_congr hc, Pkg.addr_congr hc ha]
theorem Pkg.queryTree_congr (b : List Byte) : j.queryTree b = k.queryTree b := by
  rw [Pkg.queryTree, Pkg.mergeTree_congr hc ha, ← Pkg.queryTree]
/-- The outcome of a block depends on the Chart, the package's address, the rounds told and the queries that wait. -/
theorem Pkg.takeOutcome_congr (ht : j.tally = k.tally) (hb : j.brg = k.brg) (t : Nat) (b : List Byte) : j.takeOutcome t b = k.takeOutcome t b := by
  unfold Pkg.takeOutcome Pkg.roundBack Pkg.engine
  rw [Pkg.queryTree_congr hc ha, ht, Pkg.unitsAgree_congr hc, hb, Pkg.shardList_congr hc ha]
end
section
variable (h : SamePkg k j)
include h
theorem SamePkg.takeOutcome (t : Nat) (b : List Byte) : j.takeOutcome t b = k.takeOutcome t b :=
  Pkg.takeOutcome_congr (by rw [h.1]) (h.2 _) (by rw [h.1]) (by rw [h.1]) t b
theorem SamePkg.localImg : j.localImg = k.localImg := by
  rw [Pkg.localImg, Pkg.ownState, h.get, show j.chart = k.chart by rw [h.1], ← Pkg.ownState, ← Pkg.localImg]
theorem SamePkg.unitState (u : Nat) : j.unitState u = k.unitState u := by
  unfold Pkg.unitState Pkg.quarBit Pkg.unit
  rw [h.2, h.1]
theorem SamePkg.engineOff (t : Nat) : j.engineOff t = k.engineOff t := by
  rw [Pkg.engineOff, h.localImg, h.unitState, h.dark, Pkg.idx, Pkg.addr, h.get, ← Pkg.addr, ← Pkg.idx, ← Pkg.engineOff]
theorem SamePkg.engine (t : Nat) : j.engine t = k.engine t := by rw [Pkg.engine, show j.brg = k.brg by rw [h.1], ← Pkg.engine]
theorem SamePkg.hostBlock (t : Nat) : j.hostBlock t = k.hostBlock t := by
  unfold Pkg.hostBlock
  simp only [h.2]
end

/-! ### A block that an engine takes -/

/-- The query that a block makes. -/
def Pkg.madeQuery (t : Nat) (b : List Byte) (k : Pkg) : Query :=
  ⟨b, (k.shardList t (qCollection b)).map (fun r => (r.base, r.sketches, r.shard)), k.mergeTree (qCollection b)⟩
theorem Pkg.madeQuery_congr (hc : j.chart = k.chart) (ha : j.rg R.AON_PKG_ADDR = k.rg R.AON_PKG_ADDR) (t : Nat) (b : List Byte) :
    j.madeQuery t b = k.madeQuery t b := by
  rw [Pkg.madeQuery, Pkg.shardList_congr hc ha, Pkg.mergeTree_congr hc ha, ← Pkg.madeQuery]
/-- The engine's domains are powered, and its C-tile and the S-tile are not furled. -/
def Pkg.enginePowered (t : Nat) (k : Pkg) : Pkg := (k.power [384 + t, 388 + t]).put F.AON_PKG_STATE_S_FURLED 0
theorem Pkg.enginePowered_onlyRegs (t : Nat) (k : Pkg) : OnlyRegs k (k.enginePowered t) := (k.power_onlyRegs _).trans (.put ..)
theorem Pkg.enginePowered_addr (t : Nat) (k : Pkg) : (k.enginePowered t).rg R.AON_PKG_ADDR = k.rg R.AON_PKG_ADDR :=
  (Pkg.rg_put_ne _ _ _ (by decide)).trans (Pkg.rg_power (by decide) (by decide) ..)
theorem Pkg.enginePowered_on (t : Nat) (k : Pkg) : (k.enginePowered t).domainOn (388 + t) = true := by
  rw [Pkg.enginePowered, Pkg.domainOn_put _ _ _ (by decide), Pkg.domainOn_power]
  simp
theorem Pkg.enginePowered_cFurled (t : Tile) (k : Pkg) : (k.enginePowered t.val).cFurled t.val = false := by
  have hmask : ∀ t : Tile, (((List.range 4).filter (fun i => [384 + t.val, 388 + t.val].contains (384 + i))).map (2 ^ ·)).foldl (· + ·) 0 = 2 ^ t.val := by
    decide
  have hs : ∀ t : Tile, ((List.range 4).any fun i => [384 + t.val, 388 + t.val].contains (406 + i)) = false := by decide
  have hp : k.power [384 + t.val, 388 + t.val] =
      (k.setDomains true [384 + t.val, 388 + t.val]).clearBits F.AON_PKG_STATE_C_FURLED (2 ^ t.val) := by
    unfold Pkg.power
    dsimp only
    rw [hs, hmask]
    rfl
  rw [Pkg.cFurled, Pkg.enginePowered, Pkg.get_put_disjoint _ F.AON_PKG_STATE_S_FURLED F.AON_PKG_STATE_C_FURLED _ (by decide) rfl (by decide), hp]
  exact Pkg.bit_clearBits _ _ _ (by decide)
theorem takeQuery_eq (now : Nat) (p : PkgId) (t : Nat) (b : List Byte) (m : Mem) (k : Pkg) : takeQuery now p t b m k =
    if k.engineOff t then (m, k)
    else match (k.enginePowered t).takeOutcome t b with
    | some code => endQuery now p t b ((k.enginePowered t).mergeTree (qCollection b)) code [] 0 0 0 m
        (if code = 4 then k.enginePowered t else (k.enginePowered t).noteRound t b)
    | none => (m, ((k.enginePowered t).noteRound t b).setEngine t
        { (k.enginePowered t).engine t with queue := ((k.enginePowered t).engine t).queue ++ [(k.enginePowered t).madeQuery t b] }) := rfl
theorem takeQuery_off (h : k.engineOff t = true) : takeQuery now p t b m k = (m, k) := if_pos h
theorem Pkg.enginePowered_outcome (t : Nat) (b : List Byte) (k : Pkg) : (k.enginePowered t).takeOutcome t b = k.takeOutcome t b :=
  have ho := k.enginePowered_onlyRegs t
  Pkg.takeOutcome_congr (by rw [ho]) (k.enginePowered_addr t) (by rw [ho]) (by rw [ho]) t b
theorem Pkg.noteRound_frame (t : Nat) (b : List Byte) (k : Pkg) : (k.noteRound t b).regs = k.regs ∧ (k.noteRound t b).brg = k.brg ∧
    (k.noteRound t b).dark = k.dark := by
  unfold Pkg.noteRound
  split <;> exact ⟨rfl, rfl, rfl⟩
/-- A block that passes its checks waits at its engine, which is powered. -/
theorem takeQuery_taken {t : Tile} (hoff : k.engineOff t.val = false) (ho : k.takeOutcome t.val b = none) : ∃ j : Pkg,
    takeQuery now p t.val b m k = (m, j) ∧ (j.engine t.val).queue = (k.engine t.val).queue ++ [k.madeQuery t.val b] ∧
      (j.engine t.val).running = (k.engine t.val).running ∧ j.domainOn (388 + t.val) = true ∧ j.cFurled t.val = false ∧ j.dark = k.dark := by
  have hr := k.enginePowered_onlyRegs t.val
  have hon := k.enginePowered_on t.val
  have hcf := k.enginePowered_cFurled t
  have hm := Pkg.madeQuery_congr (j := k.enginePowered t.val) (k := k) (by rw [hr]) (k.enginePowered_addr t.val) t.val b
  have he : (k.enginePowered t.val).engine t.val = k.engine t.val := by rw [Pkg.engine, show (k.enginePowered t.val).brg = k.brg by rw [hr], ← Pkg.engine]
  have hd : (k.enginePowered t.val).dark = k.dark := by rw [hr]
  rw [takeQuery_eq, hoff, k.enginePowered_outcome t.val b, ho, hm, he]
  generalize k.enginePowered t.val = l at hon hcf hd
  obtain ⟨hregs, -, hdark⟩ := l.noteRound_frame t.val b
  generalize l.noteRound t.val b = n at hregs hdark
  have hx : ∀ x : BrgSt, (n.setEngine t.val x).engine t.val = x := fun x => sget_sset_same ..
  refine ⟨_, rfl, by rw [hx], by rw [hx], ?_, ?_, hdark.trans hd⟩
  · rw [← hon]
    exact congrArg (fun w : Word => bit w.toNat _) (Pkg.rg_of_regs hregs _)
  · rw [← hcf]
    exact congrArg (fun v => bit v _) (Pkg.get_of_regs hregs F.AON_PKG_STATE_C_FURLED)
/-- One that fails a check ends at once with its code, and leaves the queries of the engines. -/
theorem takeQuery_ended (hoff : k.engineOff t = false) (ho : k.takeOutcome t b = some code) :
    k.Tasked (takeQuery now p t b m k).2 ∧ (takeQuery now p t b m k).2.lastEnded t b code 0 := by
  have hp : k.Tasked (k.enginePowered t) := .of_onlyRegs (k.enginePowered_onlyRegs t)
  have hn : k.Tasked (if code = 4 then k.enginePowered t else (k.enginePowered t).noteRound t b) := by
    obtain ⟨-, hb, hd⟩ := (k.enginePowered t).noteRound_frame t b
    exact .ite hp (hp.trans (.of_brg hd hb))
  rw [takeQuery_eq, hoff, k.enginePowered_outcome t b, ho]
  obtain ⟨h1, h2⟩ := endQuery_spec now p t b ((k.enginePowered t).mergeTree (qCollection b)) code [] 0 0 0 m
    (if code = 4 then k.enginePowered t else (k.enginePowered t).noteRound t b)
  exact ⟨hn.trans h1, h2⟩
/-- With no block brought, none is taken. -/
theorem takeNoticed_none (h : k.mem.written = []) : takeNoticed now p m k = (m, k) := by
  have hk : { k with mem := { k.mem with written := [] } } = k := by rw [← h]
  unfold takeNoticed
  rw [h]
  exact congrArg (fun j => (m, j)) hk
/-- The one block that a write brought is taken by its engine. -/
theorem takeNoticed_one (h : k.mem.written = [(t, b)]) : takeNoticed now p m k = takeQuery now p t b m { k with mem := { k.mem with written := [] } } := by
  unfold takeNoticed
  rw [h]
  rfl

end Sys2Proof.Machine
end

section
/-! PROOF. Obligation O34: Bearing queries from staging to their end (R208–R215, Table 10.2). -/
namespace Sys2Proof.Machine
open Sys2Proof

variable {s : State} {p : PkgId} {t : Tile} {who : Requester} {j k : Pkg} {m : Mem} {c : Core} {off : Fin 1572864} {data b : List Byte}

/-! ### HOSTQ_GO and ABORT -/

def hostqGoDesc : RegDesc := ⟨"BRG_HOSTQ_GO", 0x800240, 4, 0x10000, 1, 0x0, 0x0, 0x0, 0x0, 0x0, 0x1, 0, 1⟩
def brgCtrlDesc : RegDesc := ⟨"BRG_CTRL", 0x800000, 4, 0x10000, 1, 0x0, 0x0, 0x0, 0x0, 0x0, 0x1, 0, 1⟩
theorem BRG_HOSTQ_GO_bounds : ∀ t : Tile, R.BRG_HOSTQ_GO t.val < 2 ^ 24 ∧ R.BRG_HOSTQ_GO t.val % 4 = 0 ∧ regRow hostqGoDesc (R.BRG_HOSTQ_GO t.val) = t.val := by
  decide
theorem BRG_CTRL_row : ∀ t : Tile, R.BRG_CTRL t.val < 2 ^ 24 ∧ R.BRG_CTRL t.val % 4 = 0 ∧ regRow brgCtrlDesc (R.BRG_CTRL t.val) = t.val := by decide
theorem busWrite_BRG_HOSTQ_GO (x : Bus) (t : Tile) (m : Mem) (k : Pkg) : busWrite x hostqGoDesc (R.BRG_HOSTQ_GO t.val) 1 m k =
    hostqGo x.now x.p t.val m (k.storeFields hostqGoDesc (R.BRG_HOSTQ_GO t.val) 1) := by
  have hi : k.ignores x hostqGoDesc (R.BRG_HOSTQ_GO t.val) (1 : Word).toNat = false := rfl
  have hr : k.rejects hostqGoDesc.base (1 : Word).toNat = false := rfl
  unfold busWrite busAct
  dsimp only
  rw [hi, hr, (BRG_HOSTQ_GO_bounds t).2.2]
  rfl
theorem busWrite_BRG_CTRL (x : Bus) (t : Tile) (m : Mem) (k : Pkg) : busWrite x brgCtrlDesc (R.BRG_CTRL t.val) 1 m k =
    brgAbort x.now x.p t.val m (k.storeFields brgCtrlDesc (R.BRG_CTRL t.val) 1) := by
  have hi : k.ignores x brgCtrlDesc (R.BRG_CTRL t.val) (1 : Word).toNat = false := rfl
  have hr : k.rejects brgCtrlDesc.base (1 : Word).toNat = false := rfl
  unfold busWrite busAct
  dsimp only
  rw [hi, hr, (BRG_CTRL_row t).2.2]
  rfl
theorem Pkg.engine_setEngine_same (t : Nat) (x : BrgSt) (k : Pkg) : (k.setEngine t x).engine t = x := sget_sset_same ..
theorem SamePkg.written (h : SamePkg k j) : j.mem.written = k.mem.written := by rw [h.1]
/-- HOSTQ_GO is a write that stores nothing, after which the engine takes the staged block. -/
theorem exec_hostqGo (hw : (s.pkg p).mem.written = []) (ho : Open s p who (R.BRG_HOSTQ_GO t.val)) : ∃ i : Pkg, SamePkg (s.pkg p) i ∧
    ∀ r, takeQuery s.now p t.val ((s.pkg p).hostBlock t.val) s.mem i = r → r.2.dark = i.dark →
      exec (.hostqGo p who t) s = .next (s.wrote p who (R.BRG_HOSTQ_GO t.val) r.1 r.2) := by
  have hs : SamePkg (s.pkg p) ((s.pkg p).storeFields hostqGoDesc (R.BRG_HOSTQ_GO t.val) 1) := Pkg.storeFields_same rfl rfl _ _ _
  obtain ⟨h1, h2, -⟩ := BRG_HOSTQ_GO_bounds t
  refine ⟨_, hs, fun r hr hd => ?_⟩
  have hgo := busWrite_BRG_HOSTQ_GO ⟨s.now, p, who, false, s.upIn p.rack, Config.freeWord s.free⟩ t s.mem (s.pkg p)
  generalize (s.pkg p).storeFields hostqGoDesc (R.BRG_HOSTQ_GO t.val) 1 = i at hs hr hd hgo
  have hq : hostqGo s.now p t.val s.mem i = r := by
    rw [hostqGo, takeNoticed_none (hs.written.trans hw), hs.hostBlock]
    exact hr
  exact busAccess_writes (i := .hostqGo p who t) (d := hostqGoDesc) rfl ho (findReg_BRG_HOSTQ_GO t) h1 h2 (hgo.trans hq)
    (by rw [Pkg.pkgDark, hd, hs.dark, ← Pkg.pkgDark])
theorem hostqGoes (hw : (s.pkg p).mem.written = []) (ho : Open s p who (R.BRG_HOSTQ_GO t.val)) :
    let k := s.pkg p
    let b := k.hostBlock t.val
    (k.engineOff t.val = true → ∃ j : Pkg, SamePkg k j ∧ exec (.hostqGo p who t) s = .next (s.wrote p who (R.BRG_HOSTQ_GO t.val) s.mem j)) ∧
    (k.engineOff t.val = false → k.takeOutcome t.val b = none → ∃ j : Pkg,
      exec (.hostqGo p who t) s = .next (s.wrote p who (R.BRG_HOSTQ_GO t.val) s.mem j) ∧
        (j.engine t.val).queue = (k.engine t.val).queue ++ [k.madeQuery t.val b] ∧ (j.engine t.val).running = (k.engine t.val).running ∧
        j.domainOn (388 + t.val) = true ∧ j.cFurled t.val = false) ∧
    (∀ code, k.engineOff t.val = false → k.takeOutcome t.val b = some code → ∃ r, exec (.hostqGo p who t) s = .next r ∧
      (r.pkg p).lastEnded t.val b code 0 ∧ ((r.pkg p).engine t.val).queue = (k.engine t.val).queue) := by
  intro k b
  obtain ⟨i, hs, hx⟩ := exec_hostqGo hw ho
  refine ⟨fun h => ⟨i, hs, hx (s.mem, i) (takeQuery_off (hs.engineOff _ ▸ h)) rfl⟩, fun h hb => ?_, fun code h hb => ?_⟩
  · obtain ⟨j, hj, hq, hrun, hon, hcf, hd⟩ := takeQuery_taken (now := s.now) (p := p) (m := s.mem) ((hs.engineOff _).trans h) ((hs.takeOutcome _ _).trans hb)
    rw [hs.engine, Pkg.madeQuery_congr (by rw [hs.1]) (hs.2 _)] at hq
    rw [hs.engine] at hrun
    exact ⟨j, hx _ hj hd, hq, hrun, hon, hcf⟩
  · obtain ⟨h1, h2⟩ := takeQuery_ended (now := s.now) (p := p) (m := s.mem) ((hs.engineOff _).trans h) ((hs.takeOutcome _ _).trans hb)
    refine ⟨_, hx _ rfl h1.dark, ?_⟩
    rw [State.wrote, State.pkg_setPkg_same]
    exact ⟨h2, (h1.queue t.val).trans (congrArg BrgSt.queue (hs.engine _))⟩
/-- The queries of an engine end one after another as ABORTED. -/
def abortAll (now : Nat) (p : PkgId) (t : Nat) (l : List Query) (r : Mem × Pkg) : Mem × Pkg :=
  l.foldl (fun (mk : Mem × Pkg) q => endQuery now p t q.block q.tree 8 [] 0 0 0 mk.1 mk.2) r
theorem abortAll_tasked (now : Nat) (p : PkgId) (t : Nat) (l : List Query) (r : Mem × Pkg) : r.2.Tasked (abortAll now p t l r).2 :=
  .foldlMem (fun _ _ => (endQuery_spec ..).1) l r
theorem abortAll_last (now : Nat) (p : PkgId) (t : Nat) {l : List Query} {q : Query} (h : l.getLast? = some q) (r : Mem × Pkg) :
    (abortAll now p t l r).2.lastEnded t q.block 8 0 := by
  obtain ⟨l', rfl⟩ := List.getLast?_eq_some_iff.1 h
  unfold abortAll
  rw [List.foldl_append]
  exact (endQuery_spec ..).2
theorem brgAborts (hw : (s.pkg p).mem.written = []) (ho : Open s p who (R.BRG_CTRL t.val)) :
    let e := (s.pkg p).engine t.val
    (∃ r, exec (.brgAbort p who t) s = .next r ∧ ((r.pkg p).engine t.val).running = none ∧ ((r.pkg p).engine t.val).queue = []) ∧
    (∀ q, (e.running.toList ++ e.queue).getLast? = some q → ∃ r, exec (.brgAbort p who t) s = .next r ∧ (r.pkg p).lastEnded t.val q.block 8 0) := by
  intro e
  have hs : SamePkg (s.pkg p) ((s.pkg p).storeFields brgCtrlDesc (R.BRG_CTRL t.val) 1) := Pkg.storeFields_same rfl rfl _ _ _
  obtain ⟨h1, h2, -⟩ := BRG_CTRL_row t
  have hgo := busWrite_BRG_CTRL ⟨s.now, p, who, false, s.upIn p.rack, Config.freeWord s.free⟩ t s.mem (s.pkg p)
  generalize (s.pkg p).storeFields brgCtrlDesc (R.BRG_CTRL t.val) 1 = i at hs hgo
  have ha : brgAbort s.now p t.val s.mem i = abortAll s.now p t.val (e.running.toList ++ e.queue) (s.mem, i.setEngine t.val {}) := by
    rw [brgAbort, takeNoticed_none (hs.written.trans hw)]
    dsimp only
    rw [hs.engine]
    rfl
  have hk := abortAll_tasked s.now p t.val (e.running.toList ++ e.queue) (s.mem, i.setEngine t.val {})
  have hlast := fun q h => abortAll_last s.now p t.val (l := e.running.toList ++ e.queue) (q := q) h (s.mem, i.setEngine t.val {})
  generalize abortAll s.now p t.val (e.running.toList ++ e.queue) (s.mem, i.setEngine t.val {}) = r at ha hk hlast
  have hx : exec (.brgAbort p who t) s = .next (s.wrote p who (R.BRG_CTRL t.val) r.1 r.2) :=
    busAccess_writes (i := .brgAbort p who t) (d := brgCtrlDesc) rfl ho (findReg_BRG_CTRL t) h1 h2 (hgo.trans ha)
      (by rw [Pkg.pkgDark, hk.dark, show (i.setEngine t.val {}).dark = i.dark from rfl, hs.dark, ← Pkg.pkgDark])
  have hp : (s.wrote p who (R.BRG_CTRL t.val) r.1 r.2).pkg p = r.2.emit (.busDone who (R.BRG_CTRL t.val)) := State.pkg_setPkg_same ..
  have hi : (i.setEngine t.val {}).engine t.val = {} := Pkg.engine_setEngine_same ..
  refine ⟨⟨_, hx, ?_⟩, fun q hq => ⟨_, hx, ?_⟩⟩
  · rw [hp]
    exact ⟨(hk.running t.val).trans (congrArg BrgSt.running hi), (hk.queue t.val).trans (congrArg BrgSt.queue hi)⟩
  · rw [hp]
    exact hlast q hq

/-! ### Writes into a core's store -/

theorem exec_queryWrite : exec (.queryWrite p c off data) s = onPkgMem p s fun m k =>
    if k.coreDark c.val then (m, k)
    else
      let r := writeOrWait s.now p c.val (Config.storeWindow.toNat + off.val) (data.take (storeBytes - off.val)) m k
      takeNoticed s.now p r.1 r.2.1 := rfl
theorem onPkgMem_eq {g : Mem → Pkg → Mem × Pkg} {r : Mem × Pkg} (h : g s.mem (s.pkg p) = r) :
    onPkgMem p s g = .next ({ s with mem := r.1 }.setPkg p r.2) := by rw [← h]; rfl
/-- The write of an awake core's store, or of one that must wake. -/
theorem queryWrite_runs {r : Mem × Pkg × Byte} (hd : (s.pkg p).coreDark c.val = false) (hl : off.val + data.length ≤ 1572864)
    (h : writeOrWait s.now p c.val (Config.storeWindow.toNat + off.val) data s.mem (s.pkg p) = r) : exec (.queryWrite p c off data) s =
      .next ({ s with mem := (takeNoticed s.now p r.1 r.2.1).1 }.setPkg p (takeNoticed s.now p r.1 r.2.1).2) := by
  have ht : data.take (storeBytes - off.val) = data := List.take_of_length_le (by unfold storeBytes; omega)
  rw [exec_queryWrite]
  refine onPkgMem_eq ?_
  rw [hd, ht, ← h]
  rfl
theorem Pkg.wakeFor_brg (n : Nat) (k : Pkg) : (k.wakeFor n).brg = k.brg := by
  have h := Pkg.wakeCore_aonOnly n k
  unfold Pkg.wakeFor
  split
  · change (k.wakeCore n).brg = k.brg
    rw [h]
  · rfl
/-- A core asleep that a write is for wakes. -/
theorem Pkg.wakeFor_waking {n : Nat} (hd : k.coreDark n = false) (hp : 2 ≤ k.pstate n) : (k.wakeFor n).aon.waking.contains n = true := by
  unfold Pkg.wakeFor
  by_cases hw : k.aon.waking.contains n = true
  · rw [if_neg (by rw [hw]; simp)]
    exact hw
  · rw [if_pos (by rw [hd, Bool.eq_false_iff.2 hw]; simpa using hp)]
    change (k.wakeCore n).aon.waking.contains n = true
    rw [Pkg.wakeCore_waking hp (Bool.eq_false_iff.2 hw)]
    simp
/-- A result that waits for its core or its segment. -/
def Pkg.writeQueued (c a : Nat) (data : List Byte) (k : Pkg) : Pkg :=
  { k.wakeFor c with mem := { k.mem with writes := k.mem.writes ++ [(c, a, data)] } }
theorem writeOrWait_queued {now c a : Nat} (h : (k.mem.writes.any (fun w => w.1 = c) || k.writeWaits c a data.length) = true) :
    writeOrWait now p c a data m k = (m, k.writeQueued c a data, stOK) := if_pos h
theorem queryWrite_waits (hw : (s.pkg p).mem.written = []) (hd : (s.pkg p).coreDark c.val = false) (hp : 2 ≤ (s.pkg p).pstate c.val)
    (hl : off.val + data.length ≤ 1572864) : ∃ j : Pkg, exec (.queryWrite p c off data) s = .next (s.setPkg p j) ∧ j.brg = (s.pkg p).brg ∧
      j.aon.waking.contains c.val = true ∧ j.mem.writes = (s.pkg p).mem.writes ++ [(c.val, Config.storeWindow.toNat + off.val, data)] := by
  have hwait : ((s.pkg p).mem.writes.any (fun w => w.1 = c.val) ||
      (s.pkg p).writeWaits c.val (Config.storeWindow.toNat + off.val) data.length) = true := by
    rw [Pkg.writeWaits, hd, decide_eq_true hp]
    exact Bool.or_true _
  have hx := queryWrite_runs (s := s) (p := p) (c := c) (off := off) hd hl (writeOrWait_queued hwait)
  dsimp only at hx
  rw [takeNoticed_none (show ((s.pkg p).writeQueued c.val (Config.storeWindow.toNat + off.val) data).mem.written = [] from hw)] at hx
  exact ⟨_, hx, (s.pkg p).wakeFor_brg c.val, Pkg.wakeFor_waking hd hp, rfl⟩
/-- What a posted write of an awake core's store leaves. -/
def Pkg.storeWritten (p : PkgId) (c off a : Nat) (data : List Byte) (k : Pkg) : Pkg :=
  { k with mem := { k.mem with
    poison := k.mem.poison.filter (fun l => !(wholeLines (memKey p 2 a) data.length).contains l)
    written := (List.range 4).filterMap fun t => (k.areaBlock t c off data).map (t, ·) } }
theorem storeOff_parts {c off : Nat} (h : off < 1572864) : storeOff c off / 2 ^ 21 = c ∧ storeOff c off % 2 ^ 21 = off := by
  rw [storeOff, show (2 : Nat) ^ 21 = 2097152 from rfl]
  omega
theorem Pkg.locate_window {c off len : Nat} (h : off + len ≤ storeBytes) : k.locate c (Config.storeWindow.toNat + off) len = .place 0 off 0 := by
  unfold Pkg.locate
  dsimp only
  rw [if_pos ⟨Nat.le_add_right _ _, by omega⟩, Nat.add_sub_cancel_left]
theorem Pkg.spaceIsolated_store (off len : Nat) (k : Pkg) : k.spaceIsolated 2 off len = false := by
  rw [Pkg.spaceIsolated, decide_eq_false (by decide)]
  exact Bool.false_and _
theorem Pkg.noticeWrite_store {c off a : Nat} (hc : a / 2 ^ 21 = c) (ho : a % 2 ^ 21 = off) (data : List Byte) (k : Pkg) : k.noticeWrite 2 a data =
    { k with mem := { k.mem with written := k.mem.written ++ (List.range 4).filterMap fun t => (k.areaBlock t c off data).map (t, ·) } } := by
  subst hc ho
  exact if_pos rfl
theorem storageOp_store {a now : Nat} (data : List Byte) (m : Mem) (k : Pkg) : storageOp now p 2 a opWritePosted 0 data m k =
    (memWrite m (memKey p 2 a) data, { k with mem := { k.mem with poison := k.mem.poison.filter (fun l => !(wholeLines (memKey p 2 a) data.length).contains l) } }.noticeWrite
      2 a data, ⟨stOK, false, []⟩) := by
  have hop : opLength opWritePosted 0 data = data.length := rfl
  unfold storageOp
  dsimp only
  rw [hop, Pkg.spaceIsolated_store, if_neg Bool.false_ne_true, if_neg (by rintro ⟨h, -⟩; revert h; decide), if_neg (by decide), if_neg (by decide),
    if_neg (by rintro ⟨h, -⟩; revert h; decide)]
theorem Pkg.storeWritten_eq {c off a : Nat} (hc : a / 2 ^ 21 = c) (ho : a % 2 ^ 21 = off) (hw : k.mem.written = []) :
    { k with mem := { k.mem with poison := k.mem.poison.filter (fun l => !(wholeLines (memKey p 2 a) data.length).contains l) } }.noticeWrite 2 a data =
      k.storeWritten p c off a data := by
  rw [Pkg.noticeWrite_store hc ho, Pkg.storeWritten]
  dsimp only
  rw [hw]
  rfl
/-- A write that no clasp bars is a storage operation. -/
theorem claspedOp_free {now a : Nat} (h : k.claspBars none (a / 2 ^ 21) (a % 2 ^ 21) data.length = none) :
    claspedOp now p none 2 a opWritePosted 0 data m k = storageOp now p 2 a opWritePosted 0 data m k := by
  have hop : opLength opWritePosted 0 data = data.length := rfl
  have hnone : (if 2 = 2 ∧ opWritePosted ≠ opRead then k.claspBars none (a / 2 ^ 21) (a % 2 ^ 21) (opLength opWritePosted 0 data) else none) = none := by
    rw [hop, h]
    exact ite_self _
  unfold claspedOp
  dsimp only
  rw [hnone]
theorem claspedOp_store {c off now : Nat} (ho : off < 1572864) (hw : k.mem.written = []) (hb : k.claspBars none c off data.length = none) :
    claspedOp now p none 2 (storeOff c off) opWritePosted 0 data m k =
      (memWrite m (memKey p 2 (storeOff c off)) data, k.storeWritten p c off (storeOff c off) data, ⟨stOK, false, []⟩) := by
  obtain ⟨hdiv, hmod⟩ := storeOff_parts (c := c) ho
  generalize storeOff c off = a at hdiv hmod ⊢
  rw [claspedOp_free (by rw [hdiv, hmod]; exact hb), storageOp_store, Pkg.storeWritten_eq hdiv hmod hw]
theorem writeOrWait_store {c off now : Nat} (ho : off < 1572864) (hw : k.mem.written = []) (hd : k.coreDark c = false) (hp : k.pstate c < 2)
    (hq : k.mem.writes = []) (hl : off + data.length ≤ 1572864) (hb : k.claspBars none c off data.length = none) :
    writeOrWait now p c (Config.storeWindow.toNat + off) data m k =
      (memWrite m (memKey p 2 (storeOff c off)) data, k.storeWritten p c off (storeOff c off) data, stOK) := by
  have hloc := Pkg.locate_window (k := k) (c := c) (off := off) (len := data.length) hl
  have hwait : k.writeWaits c (Config.storeWindow.toNat + off) data.length = false := by
    rw [Pkg.writeWaits, hd, hloc, decide_eq_false (by omega)]
    rfl
  have htd : k.tierDark c 0 off data.length = false := by
    rw [Pkg.tierDark, hd]
    rfl
  have hsp : tierSpace c 0 off = (2, storeOff c off) := if_pos rfl
  unfold writeOrWait
  rw [hq, hwait]
  unfold writeResult
  rw [hd, hloc]
  dsimp only
  rw [htd, hsp]
  dsimp only
  rw [claspedOp_store ho hw hb]
  rfl
theorem areaBlocks_none (h : ∀ u, u < 4 → k.areaBlock u c.val off.val data = none) :
    (List.range 4).filterMap (fun t => (k.areaBlock t c.val off.val data).map (t, ·)) = [] := by
  refine List.filterMap_eq_nil_iff.2 fun u hu => ?_
  rw [h u (List.mem_range.1 hu)]
  rfl
theorem areaBlocks_one (hb : k.areaBlock t.val c.val off.val data = some b) (h : ∀ u, u < 4 → u ≠ t.val → k.areaBlock u c.val off.val data = none) :
    (List.range 4).filterMap (fun t => (k.areaBlock t c.val off.val data).map (t, ·)) = [(t.val, b)] := by
  have hg : ∀ u ∈ List.range 4, (k.areaBlock u c.val off.val data).map (u, ·) = if u = t.val then some (t.val, b) else none := fun u hu => by
    by_cases hut : u = t.val
    · rw [hut, hb, if_pos rfl]
      rfl
    · rw [h u (List.mem_range.1 hu) hut, if_neg hut]
      rfl
  have hone : ∀ (t : Tile) (x : Nat × List Byte), (List.range 4).filterMap (fun u => if u = t.val then some x else none) = [x] := by
    intro t x
    fin_cases t <;> rfl
  rw [List.filterMap_congr hg]
  exact hone t (t.val, b)
theorem Pkg.areaBlock_steward {u : Nat} (h : k.get (F.BRG_QCFG_STEWARD u) ≠ c.val) : k.areaBlock u c.val off.val data = none := by
  unfold Pkg.areaBlock
  exact if_neg fun hc => h hc.1
theorem Pkg.storeWritten_same (hw : k.mem.written = []) :
    { k.storeWritten p c.val off.val (storeOff c.val off.val) data with mem := { (k.storeWritten p c.val off.val (storeOff c.val off.val) data).mem with written := [] } } =
      { k with mem := { k.mem with poison := (k.storeWritten p c.val off.val (storeOff c.val off.val) data).mem.poison } } := by
  rw [← hw]
  rfl
theorem queryWrite_stores (hw : (s.pkg p).mem.written = []) (hd : (s.pkg p).coreDark c.val = false) (hp : (s.pkg p).pstate c.val < 2)
    (hq : (s.pkg p).mem.writes = []) (hl : off.val + data.length ≤ 1572864)
    (hb : (s.pkg p).claspBars none c.val off.val data.length = none) :
    ((∀ u, u < 4 → (s.pkg p).get (F.BRG_QCFG_STEWARD u) ≠ c.val) → ∃ j : Pkg, exec (.queryWrite p c off data) s =
      .next ({ s with mem := memWrite s.mem (memKey p 2 (storeOff c.val off.val)) data }.setPkg p j) ∧ j.brg = (s.pkg p).brg) ∧
    (∀ b, (s.pkg p).areaBlock t.val c.val off.val data = some b →
      (∀ u, u < 4 → u ≠ t.val → (s.pkg p).areaBlock u c.val off.val data = none) → (s.pkg p).engineOff t.val = false →
      (s.pkg p).takeOutcome t.val b = none → ∃ j : Pkg, exec (.queryWrite p c off data) s =
        .next ({ s with mem := memWrite s.mem (memKey p 2 (storeOff c.val off.val)) data }.setPkg p j) ∧
          (j.engine t.val).queue = ((s.pkg p).engine t.val).queue ++ [(s.pkg p).madeQuery t.val b]) := by
  have hx := queryWrite_runs (off := off) hd hl (writeOrWait_store (m := s.mem) (now := s.now) (p := p) off.isLt hw hd hp hq hl hb)
  dsimp only at hx
  generalize memWrite s.mem (memKey p 2 (storeOff c.val off.val)) data = m at hx
  refine ⟨fun hsw => ⟨(s.pkg p).storeWritten p c.val off.val (storeOff c.val off.val) data, hx.trans ?_, rfl⟩, fun b hblock hothers hoff hout => ?_⟩
  · rw [takeNoticed_none (areaBlocks_none fun u hu => Pkg.areaBlock_steward (hsw u hu))]
  · rw [takeNoticed_one (areaBlocks_one hblock hothers), Pkg.storeWritten_same hw] at hx
    generalize ((s.pkg p).storeWritten p c.val off.val (storeOff c.val off.val) data).mem.poison = l at hx
    generalize s.pkg p = k at hx hoff hout
    generalize hi : ({ k with mem := { k.mem with poison := l } } : Pkg) = i at hx
    have hio : i.engineOff t.val = k.engineOff t.val := by rw [← hi]; rfl
    have hit : i.takeOutcome t.val b = k.takeOutcome t.val b := by rw [← hi]; exact Pkg.takeOutcome_congr rfl rfl rfl rfl _ _
    have hie : i.engine t.val = k.engine t.val := by rw [← hi]; rfl
    have him : i.madeQuery t.val b = k.madeQuery t.val b := by rw [← hi]; exact Pkg.madeQuery_congr rfl rfl _ _
    obtain ⟨j, hj, hqueue, -⟩ := takeQuery_taken (now := s.now) (p := p) (m := m) (hio.trans hoff) (hit.trans hout)
    rw [hj] at hx
    rw [hie, him] at hqueue
    exact ⟨j, hx, hqueue⟩

/-! ### The start and the end of a scan -/

/-- The head of an engine's queue starts. -/
def Pkg.startHead (now t : Nat) (k : Pkg) : Pkg :=
  match (k.engine t).running, (k.engine t).queue with
  | none, q :: rest =>
    if k.engineOff t then k
    else k.setEngine t { queue := rest, running := some q, startedAt := now, dead := (List.range 8).filter (fun st => q.reads st && k.stackDark st) }
  | _, _ => k
theorem exec_queryStart (hw : (s.pkg p).mem.written = []) : exec (.queryStart p t) s = .next (s.setPkg p ((s.pkg p).startHead s.now t.val)) := by
  change execQueryStart p t s = _
  refine (onPkgMem_eq rfl).trans ?_
  dsimp only
  rw [takeNoticed_none hw]
  dsimp only
  unfold Pkg.startHead
  generalize s.pkg p = k
  cases (k.engine t.val).running with
  | some q => rfl
  | none =>
    cases (k.engine t.val).queue with
    | nil => rfl
    | cons q rest =>
      by_cases ho : k.engineOff t.val = true
      · exact congrArg (fun r : Mem × Pkg => Host.Outcome.next ({ s with mem := r.1 }.setPkg p r.2))
          ((if_pos ho).trans (congrArg (fun j => (s.mem, j)) (if_pos ho).symm))
      · exact congrArg (fun r : Mem × Pkg => Host.Outcome.next ({ s with mem := r.1 }.setPkg p r.2))
          ((if_neg ho).trans (congrArg (fun j => (s.mem, j)) (if_neg ho).symm))
theorem Pkg.startHead_idle {now : Nat} (h : (k.engine t.val).running ≠ none ∨ (k.engine t.val).queue = [] ∨ k.engineOff t.val = true) :
    k.startHead now t.val = k := by
  unfold Pkg.startHead
  split
  · next hr hq =>
    rcases h with h | h | h
    · exact absurd hr h
    · rw [hq] at h
      exact nomatch h
    · exact if_pos h
  · rfl
theorem Pkg.startHead_starts {now : Nat} {q : Query} {rest : List Query} (hr : (k.engine t.val).running = none) (hq : (k.engine t.val).queue = q :: rest)
    (ho : k.engineOff t.val = false) : k.startHead now t.val =
      k.setEngine t.val ⟨rest, some q, now, false, (List.range 8).filter (fun st => q.reads st && k.stackDark st), []⟩ := by
  unfold Pkg.startHead
  rw [hr, hq]
  dsimp only
  rw [ho]
  rfl
theorem exec_queryEnd_idle {offs : List Nat} (hw : (s.pkg p).mem.written = []) (hr : ((s.pkg p).engine t.val).running = none) :
    exec (.queryEnd p ⟨t, offs⟩) s = .next (s.setPkg p (s.pkg p)) := by
  change execQueryEnd p ⟨t, offs⟩ s = _
  unfold execQueryEnd
  dsimp only
  rw [takeNoticed_none hw]
  dsimp only
  rw [hr]
theorem scanMemory_none (free : Nat) (m : Mem) : scanMemory free [] m = m := rfl
theorem BrgSt.readSketches_prefix (e : BrgSt) (q : Query) (free : Nat) : ∃ n, e.readSketches q free = (scanOrder q.shards).take n := by
  unfold BrgSt.readSketches
  dsimp only
  have h := List.takeWhile_prefix (fun x => !e.dead.any fun st => inStack st (sketchAt q.block x) (16 * qUnits q.block)) (l := scanOrder q.shards)
  rw [List.prefix_iff_eq_take] at h
  rw [h]
  split
  · exact ⟨_, List.take_take⟩
  · exact ⟨_, rfl⟩
theorem BrgSt.readSketches_whole {e : BrgSt} (hl : e.lost = false) (hd : e.dead = []) (q : Query) (free : Nat) :
    e.readSketches q free = scanOrder q.shards := by
  unfold BrgSt.readSketches
  dsimp only
  rw [hl, hd]
  exact List.takeWhile_eq_self_iff.2 fun _ _ => rfl
/-- A scan's end as its query ends: the engine is free and its counters stand. -/
def Pkg.scanDone (now : Nat) (p : PkgId) (end_ : ScanOf) (q : Query) (l : List ((Nat × Nat × Nat) × Nat)) (x : Scan) (k : Pkg) : Pkg :=
  let e := k.engine end_.tile.val
  let k1 := (((k.scanPoison now p q.block l).scanCorrected now q.block l end_.corrected).setEngine end_.tile.val
    { e with running := none, lost := false, dead := [], before := [] }).count (F.BRG_EVENTS_SKIPPED end_.tile.val) x.skipped
  k1.setWide (R.BRG_SCANNED_LO end_.tile.val) (k1.wide (R.BRG_SCANNED_LO end_.tile.val) + x.scanned)
theorem Pkg.scanDone_running (now : Nat) (p : PkgId) (end_ : ScanOf) (q : Query) (l : List ((Nat × Nat × Nat) × Nat)) (x : Scan) (k : Pkg) :
    ((k.scanDone now p end_ q l x).engine end_.tile.val).running = none := by
  unfold Pkg.scanDone
  dsimp only
  generalize (k.scanPoison now p q.block l).scanCorrected now q.block l end_.corrected = j
  exact congrArg BrgSt.running (Pkg.engine_setEngine_same _ _ j)
/-- The code of a scan's end (Table 10.2). -/
def BrgSt.endCode (e : BrgSt) (x : Scan) : Nat := if e.lost ∨ e.dead ≠ [] then 7 else if x.skipped = 0 then 0 else 6
theorem exec_queryEnd {offs : List Nat} {q : Query} (hw : (s.pkg p).mem.written = []) (hr : ((s.pkg p).engine t.val).running = some q)
    {l : List ((Nat × Nat × Nat) × Nat)} (hl : ((s.pkg p).engine t.val).readSketches q s.free = l) {x : Scan}
    (hx : scanAll p (scanMemory (s.free + 1) ((s.pkg p).engine t.val).before s.mem) (s.pkg p).mem.poison q.block l = x) :
    ∃ ns free, exec (.queryEnd p ⟨t, offs⟩) s =
      let r := endQuery s.now p t.val q.block q.tree (((s.pkg p).engine t.val).endCode x) x.kept x.scanned x.skipped ns s.mem
        ((s.pkg p).scanDone s.now p ⟨t, offs⟩ q l x)
      .next ({ s with mem := r.1, free := free }.setPkg p r.2) := by
  refine ⟨s.now - ((s.pkg p).engine t.val).startedAt, s.free + 1 + ((s.pkg p).engine t.val).before.length, ?_⟩
  change execQueryEnd p ⟨t, offs⟩ s = _
  unfold execQueryEnd
  dsimp only
  rw [takeNoticed_none hw]
  dsimp only
  rw [hr]
  dsimp only
  rw [hl, hx]
  rfl
theorem queryEnds {q : Query} {offs : List Nat} (hw : (s.pkg p).mem.written = []) (hr : ((s.pkg p).engine t.val).running = some q) :
    let k := s.pkg p
    let e := k.engine t.val
    let l := e.readSketches q s.free
    let x := scanAll p (scanMemory (s.free + 1) e.before s.mem) k.mem.poison q.block l
    ∃ r, exec (.queryEnd p ⟨t, offs⟩) s = .next r ∧ ((r.pkg p).engine t.val).running = none ∧
      ((e.lost = true ∨ e.dead ≠ []) → (r.pkg p).lastEnded t.val q.block 7 x.kept.length) ∧
      (¬ (e.lost = true ∨ e.dead ≠ []) → (r.pkg p).lastEnded t.val q.block (if x.skipped = 0 then 0 else 6) x.kept.length) := by
  intro k e l x
  obtain ⟨ns, free, hx⟩ := exec_queryEnd (offs := offs) hw hr (l := l) rfl (x := x) rfl
  obtain ⟨h1, h2⟩ := endQuery_spec s.now p t.val q.block q.tree (e.endCode x) x.kept x.scanned x.skipped ns s.mem (k.scanDone s.now p ⟨t, offs⟩ q l x)
  refine ⟨_, hx, ?_⟩
  rw [State.pkg_setPkg_same]
  generalize endQuery s.now p t.val q.block q.tree (e.endCode x) x.kept x.scanned x.skipped ns s.mem (k.scanDone s.now p ⟨t, offs⟩ q l x) = r at h1 h2
  refine ⟨(h1.running t.val).trans (k.scanDone_running s.now p ⟨t, offs⟩ q l x), fun hlost => ?_, fun hlost => ?_⟩
  · rwa [BrgSt.endCode, if_pos hlost] at h2
  · rwa [BrgSt.endCode, if_neg hlost] at h2

/-- Settles O34: an engine takes a block by `takeQuery_taken` or `takeQuery_ended`, and every end of a query is `endQuery_spec`, which leaves the
queries of the engines and names the one that ended in BRG_LAST. -/
theorem bearingQueries : Obligations.BearingQueries := by
  intro s p t hw k e made ended
  refine ⟨fun who => hostqGoes hw, fun c off data hd => ?_, fun c off data hd hp hl => queryWrite_waits hw hd hp hl,
    fun c off data hd hp hq hl hb => queryWrite_stores hw hd hp hq hl hb, fun h => ?_, fun q rest hr hq ho => ?_,
    fun offs hr => exec_queryEnd_idle hw hr, fun q offs hr => ⟨fun hlost hdead hbefore => ?_, e.readSketches_prefix q s.free, queryEnds hw hr⟩,
    fun who => brgAborts hw⟩
  · exact exec_queryWrite.trans (onPkgMem_next (if_pos hd))
  · rw [exec_queryStart hw, Pkg.startHead_idle h]
  · refine ⟨_, exec_queryStart hw, ?_⟩
    rw [Pkg.startHead_starts hr hq ho]
    exact ⟨Pkg.engine_setEngine_same .., rfl⟩
  · have hwhole := BrgSt.readSketches_whole hlost hdead q s.free
    refine ⟨hwhole, ?_⟩
    rw [hbefore, scanMemory_none, hwhole]

end Sys2Proof.Machine
end
